-- ==== Sys2Proof/Word.lean ====
section
/-! DEFINITION. The word types and the two carriers of outside data: a fabric packet and a control-link
frame. Nothing here computes more than a width. -/

namespace Sys2Proof

/-- One byte of storage. -/
abbrev Byte := BitVec 8

/-- A 32-bit register or word (R5). -/
abbrev W32 := BitVec 32

/-- A 64-bit word. -/
abbrev W64 := BitVec 64

/-- The bit pattern of an IEEE 754 binary32 value (R28). -/
abbrev F32 := BitVec 32

/-- Core index n (R12). -/
abbrev CoreId := Fin 192
/-- Cluster, hub and page walk unit index c (R12). -/
abbrev ClusterId := Fin 24
/-- Peer port index (R14). -/
abbrev PortId := Fin 6
/-- A flit link: 0 to 5 the peer ports, 6 the Mboip link (R192, R352). -/
abbrev LinkId := Fin 7
/-- Sequence slot (R149). -/
abbrev SlotId := Fin 32
/-- Ring context (R252). -/
abbrev RingId := Fin 32
/-- Step group (R252). -/
abbrev GroupId := Fin 32
/-- Collective context; 0 names none (R288). -/
abbrev CollId := Fin 256
/-- Work counter of a hub (R104). -/
abbrev CounterId := Fin 64
/-- Queue: 0 to 31 the slots' queues, 32 the admin queue (R353). -/
abbrev QueueId := Fin 33
/-- GDDR7 controller (R14). -/
abbrev GmcId := Fin 12
/-- T2 slot, 4 x port + position (R315). -/
abbrev T2Slot := Fin 8
/-- Loan context: 0 to 15 borrowed, 16 to 31 lent (R325). -/
abbrev LoanId := Fin 32
/-- Register page index in the register window (R345). -/
abbrev PageId := Fin 16384

/-- A fabric packet: the 32-byte header of R203 field by field, and its body. `cls` is the class its
flits carry (0 TN, 1 HN, 2 BN); `rsvd` says that some reserved header bit is set. -/
structure Packet where
  dest  : Nat := 0
  mcast : Bool := false
  slice : Nat := 0
  kind  : Nat := 0
  src   : Nat := 0
  due   : Nat := 0xFFFFFFFF
  addr  : Nat := 0
  tag   : Nat := 0
  cls   : Nat := 0
  rsvd  : Bool := false
  body  : List Byte := []
  deriving DecidableEq, Repr

/-- A control-link frame (R353): header fields, the body as its receiver reads it, and two facts about
its arrival: whether its AES-GCM tag verifies (the primitive is outside the spec's text, log 9) and
whether it breaks the table of R353. -/
structure Frame where
  type      : Nat := 0
  qid       : Nat := 0
  prot      : Bool := true
  epoch     : Nat := 0
  ctr       : Nat := 0
  addr      : Nat := 0
  tag       : Nat := 0
  status    : Nat := 0
  body      : List Byte := []
  authentic : Bool := true
  broken    : Bool := false
  deriving DecidableEq, Repr

/-- An uncorrected, corrected or clean line read (R310). -/
inductive LineRead where
  | clean | corrected | uncorrectable
  deriving DecidableEq, Repr

/-- What the light FEC of R194 answers beside a received flit: the codewords that ended with it and were uncorrectable,
and those it corrected, as FEC_UNCORR and FEC_CORR count them (R227). -/
structure FecCount where
  uncorrectable : Nat := 0
  corrected     : Nat := 0
  deriving DecidableEq, Repr

/-- How a requester asks for the tier range: a write or a read (R312), the DUE it carries and its class, by which a GMC
orders what waits (R332). -/
structure AccessWay where
  write : Bool := false
  due   : Nat := 0xFFFFFFFF
  cls   : Nat := 0
  deriving DecidableEq, Repr

/-- What a CXL device presents when it is enumerated (R334, R335). -/
structure CxlDevice where
  type3      : Bool := true
  flit256    : Bool := true
  capMiB     : Nat := 0
  ideUp      : Bool := false
  deepSwitch : Bool := false
  viaSwitch  : Bool := false
  width      : Nat := 16
  rate       : Nat := 2
  serial     : Nat := 0
  deriving DecidableEq, Repr

/-- The emergency triggers of R379 that clear by themselves. -/
inductive Trigger where
  | ot1 | ot2 | ocPeak | ocAvg
  deriving DecidableEq, Repr

end Sys2Proof
end

