-- ==== Sys2Proof/Syntax.lean ====
section
/-! DEFINITION. The commands of the module: one constructor per row of spec/opcode_table.json, in the
table's order. An operand is the block instance the command is for, or what reaches the module from
outside with it (a written value, a packet, a frame, a measured quantity, a cryptographic verdict). -/

namespace Sys2Proof

/-- The commands. Each constructor's docstring gives the rule its row names and the row's summary. -/
inductive Instr where
  /-- REGISTER_WRITE (R6): A write to a register that has no row of its own sets its fields according to the register's access code. -/
  | registerWrite (addr size : Nat) (cn mp : Option W32)
  /-- PAIR_LOW_READ (R8): A read of the low half of a 64-bit register pair returns the applied low half and latches the high half. -/
  | pairLowRead (addr : Nat)
  /-- PAIR_HIGH_WRITE (R8): A write of the high half of a pair applies the staged low half and the new high half together; on flip pairs it also arms the flip. -/
  | pairHighWrite (addr : Nat) (value : W32)
  /-- WORK_MAP_APPLY (R16): With no ring context RUNNING, a pending work-map change enters the applied map at the next beat boundary. -/
  | workMapApply
  /-- SOFT_RESET (R348): BLK_CTL.SOFT_RESET on a CORE, CLUS or PWU page returns the block's running state to reset values, as R459 lays down. -/
  | softReset (page : PageId)
  /-- WIPE_REQ (R348): BLK_CTL.WIPE_REQ, given while ENABLE is clear, starts zeroing the block's data SRAM and sets BUSY. -/
  | wipeReq (page : PageId)
  /-- WIPE_DONE (R348): When the wiped SRAM is zero, BUSY clears and WIPED is set. -/
  | wipeDone (page : PageId)
  /-- BLOCK_ENABLE (R348): A write of BLK_CTL.ENABLE lets the block accept work or stop accepting it; on a PORT page, enabling checks the slice configuration and starts TRAIN. -/
  | blockEnable (page : PageId) (on : Bool)
  /-- BLK_LOCK (R347): Writing 1 to BLK_LOCK freezes the page's RWL fields until the next module reset. -/
  | blkLock (page : PageId)
  /-- ERR_INJ (R349): ERR_INJ with GO set makes the block behave as though it had found an error of the given class and cause, where injection is allowed. -/
  | errInj (page : PageId) (value : W32)
  /-- TOD_ISSUE (R73): The sequencer takes a TOD through decode, format, accumulator and extent checks and then waits for its holds. -/
  | todIssue (core : CoreId)
  /-- TOD_HOLD_RELEASE (R74): When its last hold releases, a TOD reads its bounds, latches its generations and scale, fixes its provisional state and begins. -/
  | todHoldRelease (core : CoreId)
  /-- META_FAULT (R65): A loaded B tile that holds sparsity code 6 or 7 in a checked group ends the TOD with META_FAULT. -/
  | metaFault (core : CoreId)
  /-- TOD_POISON (R77): A load that meets an uncorrectable error ends the TOD with status POISON. -/
  | todPoison (core : CoreId)
  /-- OUTPUT_TILE_DRAIN (R80): After its last K tile an output tile drains through the epilogue and is stored. -/
  | outputTileDrain (core : CoreId)
  /-- COMPLETION_RECORD (R91): Once every store of a TOD is visible, the sequencer writes the TOD's completion record to the next completion slot. -/
  | completionRecord (core : CoreId)
  /-- LIST_START (R98): LIST_CTL.START checks the list registers, loads SQ0-SQ31 from the launch block and launches the list, or arms it for START_BEAT. -/
  | listStart (core : CoreId)
  /-- LIST_STOP (R98): LIST_CTL.STOP issues no further entry, abandons waits, expires the held lease and returns the sequencer to IDLE. -/
  | listStop (core : CoreId)
  /-- AT_BEAT_LAUNCH (R98): An armed AT_BEAT launch fires when the cadence reaches START_BEAT. -/
  | atBeatLaunch (core : CoreId)
  /-- LIST_DONE (R98): When PC has reached LIST_LEN and every TOD has written its record, the list retires its lease, goes IDLE and raises LIST_DONE. -/
  | listDone (core : CoreId)
  /-- LOOP (R101): A LOOP entry runs its body COUNT times and writes the iteration index when IDX_EN is set. -/
  | loop (core : CoreId)
  /-- WAIT (R100): A WAIT entry blocks the list until its flag, counter, carousel or collective condition holds. -/
  | wait (core : CoreId)
  /-- WAIT_COMPLETE (R100): A blocked WAIT completes when its condition is met, subtracting the amount for a flag wait. -/
  | waitComplete (core : CoreId)
  /-- WAIT_TIMEOUT (R102): A WAIT or blocked FETCH_INC that outlasts its TIMEOUT faults the list with WAIT_TIMEOUT. -/
  | waitTimeout (core : CoreId)
  /-- SIGNAL (R101): After every earlier TOD has written its record, a SIGNAL adds to a flag, arms a work counter or marks a carousel unit done. -/
  | signal (core : CoreId)
  /-- FETCH_INC (R108): FETCH_INC retires the held lease and grants an expired or fresh value, returns PEND or EXH, or blocks. -/
  | fetchInc (core : CoreId)
  /-- FETCH_INC_GRANT (R108): A blocked FETCH_INC is granted a value once one becomes available or its counter is armed. -/
  | fetchIncGrant (core : CoreId)
  /-- BRANCH_FLAG (R101): BRANCH_FLAG branches to TARGET when the named flag equals SENSE. -/
  | branchFlag (core : CoreId)
  /-- BEAT_WAIT (R101): BEAT_WAIT blocks the list until the cadence reaches the base beat plus OFFSET. -/
  | beatWait (core : CoreId)
  /-- BEAT_WAIT_RELEASE (R101): A BEAT_WAIT releases when its target beat arrives, or at the next boundary if the target had passed. -/
  | beatWaitRelease (core : CoreId)
  /-- WC_DISARM (R104): CLUS.WC_DISARM disarms the counter and expires its leases. -/
  | wcDisarm (cl : ClusterId) (idx : CounterId)
  /-- LEASE_RETIRE (R110): Once every TOD of a lease has written its record, the hub commits the write-back if the lease is current, or drops it and sets STALE. -/
  | leaseRetire (core : CoreId)
  /-- LEASE_EXPIRE (R109): At its expiry beat a lease becomes expired and its value awaits reissue. -/
  | leaseExpire (core : CoreId)
  /-- STAGING_FILL (R113): Once the lease that last used a staging slot has retired, the slot is filled with the new lease's operands. -/
  | stagingFill (core : CoreId)
  /-- LEASE_WRITEBACK (R113): The write-back of a retired lease copies its OUT areas out, after the commit when any of its TODs was provisional. -/
  | leaseWriteback (core : CoreId)
  /-- CAROUSEL_UNIT_LAND (R117): An arriving carousel unit lands in its pocket once that pocket's outgoing send has read it out. -/
  | carouselUnitLand (core : CoreId)
  /-- SCALE_PLAN_ROLL (R52): At a step boundary of its slot, once no latching TOD is storing and PROV_CNT is 0, a scale-plan entry rolls its history and computes a new CUR_SCALE. -/
  | scalePlanRoll (addr : Nat)
  /-- SFU_LOAD (R133): SFU_LOAD starts loading a table image into the shadow banks, waiting while OLD_REFS is not 0, or is refused while ARMED. -/
  | sfuLoad (cl : ClusterId)
  /-- SFU_LOAD_COMPLETE (R131): The loaded image is checked and the shadow bank is marked READY or ERROR. -/
  | sfuLoadComplete (cl : ClusterId)
  /-- SFU_FLIP_ARM (R132): A write of SFU_FLIP_HI applies the beat pair and arms the special-function flip. -/
  | sfuFlipArm (cl : ClusterId) (hi : W32)
  /-- SFU_FLIP (R133): At the flip beat, every armed cluster flips its banks together if all are READY; otherwise none flips and each sets MISSED. -/
  | sfuFlip
  /-- SFU_DISARM (R132): SFU_DISARM cancels the scheduled special-function flip. -/
  | sfuDisarm (cl : ClusterId)
  /-- BIND (R164): SLOT_CMD BIND checks a NEW or PARKED descriptor, marks it BOUND and starts filling the slot's reserves. -/
  | bind (slot : SlotId) (desc : Nat)
  /-- BIND_COMPLETE (R150): When every reserve of a BINDING slot is filled, the slot enters READY. -/
  | bindComplete (slot : SlotId)
  /-- BIND_TIMEOUT (R150): A BINDING slot whose reserves are not filled within EVICT_SLACK returns to IDLE with a refusal code. -/
  | bindTimeout (slot : SlotId)
  /-- PARK (R163): SLOT_CMD PARK, given with IN_RING clear and no incomplete position, starts writing back the descriptor and returning the reserves. -/
  | park (slot : SlotId)
  /-- PARK_COMPLETE (R163): When the write-back is done and the slot's quarantine has drained, a PARKING slot returns to IDLE. -/
  | parkComplete (slot : SlotId)
  /-- RELEASE (R164): SLOT_CMD RELEASE drops every valid entry and the directory to quarantine, returns the reserves and marks the descriptor FREE. -/
  | release (slot : SlotId)
  /-- RELEASE_COMPLETE (R150): When every frame and unit has been handed over and quarantine is empty, a RELEASING slot returns to IDLE. -/
  | releaseComplete (slot : SlotId)
  /-- RESUME (R151): SLOT_CMD RESUME returns an APPEND_STALL slot to READY and resets its cursors, or is refused if a reserve is short. -/
  | resume (slot : SlotId)
  /-- CLEAR_FAULT (R151): SLOT_CMD CLEAR_FAULT returns a FAULTED slot to READY and resets its cursors to LEN. -/
  | clearFault (slot : SlotId)
  /-- APPEND_ROW (R153): A row stored to the append port goes to its cursor position, advances the cursor and commits positions when LEN advances, or is discarded as an error. -/
  | appendRow (handle fmt n : Nat) (elems scales : List Byte)
  /-- PAGE_SEAL (R156): Within 2 beats of a page's last row, the module computes SEAL_CRC, sets SEALED and sets FULL in the entry. -/
  | pageSeal (slot : SlotId) (layer : Nat)
  /-- RESERVE_REFILL (R155): The MTM pool supplies a replacement frame to a slot's reserve. -/
  | reserveRefill (slot : SlotId) (layer : Nat)
  /-- RESERVE_SLACK_EXPIRE (R157): A reserve that is still short EVICT_SLACK beats after falling short puts the slot into APPEND_STALL with STALL_CAUSE 1. -/
  | reserveSlackExpire (slot : SlotId)
  /-- PUBLICATION_ARM (R159): A write of PUB_BEAT_HI arms a software publication and starts building copies of the edited structures. -/
  | publicationArm (slot : SlotId) (hi : W32)
  /-- PUBLICATION_BUILD_DONE (R159): The edit engine finishes building the copies of a publication. -/
  | publicationBuildDone (slot : SlotId)
  /-- PUBLICATION_SWAP (R160): At the publication beat, the engine carries in-place writes, applies REFCNT increases, swaps ROOT, raises DIR_GEN and quarantines what was superseded. -/
  | publicationSwap (slot : SlotId)
  /-- PUB_DISARM (R159): PUB_DISARM cancels an armed software publication and returns the built units to the pool. -/
  | pubDisarm (slot : SlotId)
  /-- QUARANTINE_RELEASE (R162): A quarantine entry is released once HORIZON is not earlier than its tag, lowering REFCNT and freeing frames and units at 0. -/
  | quarantineRelease (idx : Nat)
  /-- THR_FLIP_ARM (R190): A write of THR_FLIP_HI applies the beat pair and arms the threshold flip. -/
  | thrFlipArm (pwu : ClusterId) (hi : W32)
  /-- THR_FLIP (R189): At the flip beat, every armed PWU flips its threshold banks together if all shadows are valid; otherwise none flips. -/
  | thrFlip
  /-- THR_DISARM (R190): THR_DISARM cancels the scheduled threshold flip. -/
  | thrDisarm (pwu : ClusterId)
  /-- FLIT_SEND (R206): At each flit slot an egress port sends the first ready item among replays, LCTL, credited TN, HN and BN data, NAK and IDLE. -/
  | flitSend (link : LinkId)
  /-- FLIT_RECEIVE (R197): A received flit is checked and accepted or discarded, and its ACK, credits and marker are used. -/
  | flitReceive (link : LinkId) (bytes : List Byte) (badCodeword : Bool) (fec : FecCount)
  /-- RETRY_TIMEOUT (R198): When ACK has not advanced for TIMEOUT beats with flits unacknowledged, the sender replays them. -/
  | retryTimeout (link : LinkId)
  /-- PORT_TRAIN (R220): PORT_CMD.TRAIN starts training the port. -/
  | portTrain (port : PortId)
  /-- PORT_ADMIT (R222): PORT_CMD.ADMIT admits a peer held in HOLD and sends ADMIT. -/
  | portAdmit (port : PortId)
  /-- PORT_REFUSE (R222): PORT_CMD.REFUSE refuses a peer held in HOLD with code 5. -/
  | portRefuse (port : PortId)
  /-- MARK_DOWN (R227): PORT_CMD.MARK_DOWN puts the port into DOWN from any state. -/
  | markDown (port : PortId)
  /-- TRAIN_TRY_END (R220): A training try succeeds or fails; after TRIES failures in a row the port enters DOWN and logs a UC. -/
  | trainTryEnd (port : PortId) (lanes : Byte) (identInTime : Bool)
  /-- LANE_LOCK_LOSS (R220): Loss of lock on any lane starts RETRAIN with the link-layer state kept. -/
  | laneLockLoss (port : PortId) (lanes : Byte)
  /-- LIGHT_RETURN (R224): A port left OFF by LEAVE enters TRAIN again when light returns. -/
  | lightReturn (port : PortId)
  /-- IDENT_SEND (R221): A port repeats its IDENT every 1 ms until it receives the peer's. -/
  | identSend (port : PortId)
  /-- IDENT (R222): A received IDENT is checked and the port refuses, admits at once, or enters HOLD. -/
  | ident (port : PortId) (body : List Byte)
  /-- ADMIT (R223): A received ADMIT, once the port has also sent ADMIT, puts the port into UP or MARKER with credits from the peer. -/
  | admitMsg (port : PortId)
  /-- LEAVE (R224): A received LEAVE puts the port into OFF. -/
  | leave (port : PortId)
  /-- RT_FLIP_ARM (R218): A write of RT_FLIP_HI applies the beat pair and arms the routing-table flip. -/
  | rtFlipArm (hi : W32)
  /-- RT_FLIP (R218): At the flip beat the routing banks swap in one core cycle and RT_GEN increments. -/
  | rtFlip
  /-- RT_COPY (R218): RT_CTL.COPY copies the active routing bank into the shadow bank. -/
  | rtCopy
  /-- RT_DISARM (R226): RT_CTL.DISARM cancels the armed routing-table flip. -/
  | rtDisarm
  /-- BEAT_POINT (R229): At each beat point every block acts on the new beat in the same core cycle. -/
  | beatPoint
  /-- LINK_MEASURE (R236): At the end of each frame period the module computes T, the link delay and the peer offset for each port. -/
  | linkMeasure (port : PortId) (markers : Nat) (mean : Int)
  /-- MASTER_ELECTION (R231): A module with MST_N low that accepts no frame within 2,048 beats of ready becomes MASTER. -/
  | masterElection
  /-- CADENCE_LOCK (R238): After 32 consecutive beats with parent offset within 1 ns the module enters LOCKED. -/
  | cadenceLock
  /-- HOLDOVER_ENTRY (R240): After 8 beats of missing parent markers, or a marker with SYNC 0, the module enters HOLDOVER. -/
  | holdoverEntry
  /-- LOST_ENTRY (R241): After 4,096 beats in HOLDOVER the module enters LOST and defers cascade items. -/
  | lostEntry
  /-- TIME (R370): A TIME frame gives a disciplined MASTER its offset from the reference. -/
  | time (f : Frame)
  /-- OVERRIDE_TAKEOVER (R244): At the next beat boundary after a verified override, the target becomes MASTER and others adopt the new master and epoch. -/
  | overrideTakeover
  /-- EVT_ARM (R248): EVT_CMD ARM arms the staged event-table entry or refuses it with a code. -/
  | evtArm
  /-- EVT_READ (R248): EVT_CMD READ copies the selected entry and its state into EVT_DATA. -/
  | evtRead
  /-- EVT_CANCEL (R248): EVT_CMD CANCEL returns the selected entry to FREE and stops its later firings. -/
  | evtCancel
  /-- EVENT_TABLE_FIRE (R249): Entries due at a beat fire in ascending index, performing their writes and notifications. -/
  | eventTableFire
  /-- FORM (R255): RING_CMD FORM reads and checks a ring descriptor, enters FORMING and sends JOIN to both neighbours. -/
  | form (ctx : RingId)
  /-- JOIN (R255): A received JOIN is matched against the module's own descriptor, or the ring disbands with cause NEIGHBOUR. -/
  | join (p : Packet)
  /-- JOIN_RESEND (R255): A forming member resends JOIN every 64 beats until each neighbour's JOIN has arrived. -/
  | joinResend (ctx : RingId)
  /-- JOIN_HOLD_EXPIRE (R255): A JOIN held without a FORM command for FORM_TIMEOUT beats is dropped. -/
  | joinHoldExpire (ringId : Nat)
  /-- FORM_MESSAGE (R255): A received FORM message is forwarded, or, on return to member 0, makes member 0 send GO or DISBAND LATE. -/
  | formMessage (p : Packet)
  /-- GO (R255): A received GO sets IN_RING, enters FORMED and is forwarded. -/
  | go (p : Packet)
  /-- FORM_TIMEOUT (R255): A member that has not seen GO FORM_TIMEOUT beats after its FORM disbands the ring with cause TIMEOUT. -/
  | formTimeout (ctx : RingId)
  /-- RING_DISBAND (R278): RING_CMD DISBAND disbands the ring, at once or at the next step start when RUNNING. -/
  | ringDisband (ctx : RingId)
  /-- DISBAND_MESSAGE (R278): A received DISBAND disbands the ring, or with cause 0 stalls it. -/
  | disbandMessage (p : Packet)
  /-- DISBAND_COMPLETE (R278): When no packet of a DISBANDING ring remains queued, the context returns to FREE. -/
  | disbandComplete (ctx : RingId)
  /-- PLAN (R269): RING_CMD PLAN sends PLAN to every member for a step at least 2 ahead, or is refused. -/
  | plan (ctx : RingId)
  /-- PLAN_MESSAGE (R269): A received PLAN is held for its step, or stalls the group if that step has already started. -/
  | planMessage (p : Packet)
  /-- RESTART (R276): RING_CMD RESTART resumes a HELD or resumable STALLED ring at a beat at least 64 beats ahead. -/
  | restart (ctx : RingId)
  /-- STEP_START (R260): At a group step start the RCU latches readers, rolls scale plans, applies plans and work-map changes, swaps buffers, launches lists and starts transfers. -/
  | stepStart (group : GroupId)
  /-- STEP_DONE (R258): When a member's work, transfers and merge for the step are complete, the RCU multicasts DONE with its done beat. -/
  | stepDone (ctx : RingId)
  /-- DONE_MESSAGE (R259): A received DONE contributes its done beat to the computation of the next step start. -/
  | doneMessage (p : Packet)
  /-- STALL_TIMEOUT (R274): A member missing a DONE after the extended boundary plus STALL_BEATS stalls every ring of the group. -/
  | stallTimeout (group : GroupId)
  /-- BLOCK_HDR (R263): A received BLOCK_HDR describes the incoming KV block of the step. -/
  | blockHdr (p : Packet)
  /-- BLOCK_DATA (R263): A received BLOCK_DATA chunk lands in the receive buffer and is recorded in the chunk bitmap. -/
  | blockData (p : Packet)
  /-- QUERY_SEND (R265): When flag QRDY of cluster 0 is raised, the RCU multicasts the owner's query rows. -/
  | querySend (ctx : RingId)
  /-- QUERY (R265): A received QUERY is written to every cluster cache and flag QARR is raised. -/
  | query (p : Packet)
  /-- PARTIAL_HANDOFF (R266): When flag PRDY reaches 1, the RCU hands the member's partial block to the LRT merge. -/
  | partialHandoff (ctx : RingId)
  /-- PARTIAL (R266): A received PARTIAL is joined into the node's accumulated block in the fixed tree order. -/
  | partialMsg (p : Packet)
  /-- RESULT (R267): A received RESULT lands in cluster 0's cache and flag RES is raised. -/
  | result (p : Packet)
  /-- EXTEND (R272): A received EXTEND raises the step's allowed extension, capped at MAX_EXT. -/
  | extend (p : Packet)
  /-- COLL_ARM (R288): COLL_CMD ARM binds a collective descriptor to a FREE context or refuses it with a code. -/
  | collArm (id : CollId)
  /-- COLL_DISARM (R288): COLL_CMD DISARM returns an ARMED or FAILED context to FREE. -/
  | collDisarm (id : CollId)
  /-- COLLECTIVE_START (R289): Once the previous run has committed and the cores' provisional sets are empty, a raised START flag begins the next run. -/
  | collectiveStart (id : CollId)
  /-- CHUNK_SEND (R296): A chunk of a stream is sent once the receiver has freed enough slots or the window allows it. -/
  | chunkSend (id : CollId) (dst : Nat)
  /-- DATA (R298): A received DATA chunk lands in its staging slot or DST, is checked and its owning core's landing flag is raised. -/
  | data (p : Packet)
  /-- REDUCE_READY (R298): When a core signals READY for a reduced chunk, the engine frees its inputs and sends or writes the result. -/
  | reduceReady (id : CollId) (core : CoreId)
  /-- MDATA (R299): A received MDATA part of a broadcast chunk or router result is written to DST. -/
  | mdata (p : Packet)
  /-- RPART (R299): A received RPART piece is joined in the router tree. -/
  | rpart (p : Packet)
  /-- COLL_REPLAY (R301): A received REPLAY chunk is landed by a detached or repairing receiver. -/
  | collReplay (p : Packet)
  /-- RACK (R296): A received RACK updates a stream's landed and freed counts. -/
  | rack (p : Packet)
  /-- REPAIR (R302): A received REPAIR makes the sender send the requested chunk again as REPLAY. -/
  | repair (p : Packet)
  /-- DETACH (R301): A received DETACH makes the receiver discard multicast copies and take the stream by replay. -/
  | detach (p : Packet)
  /-- DETACH_TIMEOUT (R300): When the sillage window has stayed full for DETACH beats, the sender detaches the receivers holding it back. -/
  | detachTimeout (id : CollId)
  /-- VOTE_SEND (R304): A member whose part is complete without an abort cause sends VOTE to rank 0. -/
  | voteSend (id : CollId)
  /-- VOTE (R304): Rank 0 collects a VOTE and multicasts COMMIT once it holds all votes with equal digests. -/
  | vote (p : Packet)
  /-- ABORT_REQ (R305): Rank 0 acts on the first ABORT_REQ of an attempt by multicasting ABORT. -/
  | abortReq (p : Packet)
  /-- COMMIT (R304): A received COMMIT ends the run, retires provisional state, completes WAIT KIND 3 and returns the context to ARMED. -/
  | commit (p : Packet)
  /-- ABORT (R305): A received ABORT stops the streams, returns the cores to the step-start checkpoint, relaunches them and increments ATTEMPT, or fails the run when FAIL is set. -/
  | abort (p : Packet)
  /-- RUN_TIMEOUT (R303): RUN_TIMEOUT beats after START without a commit, the member finds abort cause TIMEOUT. -/
  | runTimeout (id : CollId)
  /-- RUN_FAIL (R306): A member with neither COMMIT nor ABORT two RUN_TIMEOUT periods after START fails the run. -/
  | runFail (id : CollId)
  /-- MEMORY_ACCESS (R312): A requester's access to the tier range is translated and served, or completes with an access error or poison. -/
  | memoryAccess (way : AccessWay) (addr len : Nat) (data : List Byte)
  /-- FE_RESET (R428): FE_DELAY beats after an FE, unless HOLD is set, the module performs a module reset. -/
  | feReset
  /-- ERROR_LOG_COMMIT (R426): Romon commits every queued error record to the flash log in one commit. -/
  | errorLogCommit
  /-- REGION_SEAL (R314): REGION_CMD SEAL checks a region, writes its granule records and sets RO. -/
  | regionSeal (region : Nat)
  /-- REGION_HOME (R314): REGION_CMD HOME copies every RO granule without a home to a lower tier. -/
  | regionHome (region : Nat)
  /-- REGION_COPY2 (R314): REGION_CMD COPY2 makes a second copy of each granule of the region in T2. -/
  | regionCopy2 (region : Nat)
  /-- FRAME_COPY_COMPLETE (R318): A frame copy ends; a CRC match lets entries name the copy, a mismatch abandons it. -/
  | frameCopyComplete (idx : Nat)
  /-- EVICTION (R321): When a reserve is short, the pool is low or a frame is needed, the MTM chooses the oldest eligible victim and moves it out of T0. -/
  | eviction
  /-- PROMOTION (R323): A visit to a lower-tier KV frame with REFCNT 1 copies it to T0 and publishes a MOVE. -/
  | promotion (slot : SlotId) (layer page : Nat)
  /-- GMC_SCRUB (R310): The GMC re-reads lines in the background, correcting CE lines and poisoning uncorrectable ones. -/
  | gmcScrub (gmc : GmcId) (addr : Nat) (found : LineRead)
  /-- REFRESH_WINDOW (R311): At its window beat a GMC stops serving for one beat for all-bank refresh and calibration. -/
  | refreshWindow (gmc : GmcId)
  /-- LOAN_OFFER_CMD (R326): LOAN_CMD OFFER checks the lender's pool and sends LOAN_OFFER with the taken frames. -/
  | loanOfferCmd (ctx : LoanId)
  /-- LOAN_RECLAIM_CMD (R328): LOAN_CMD RECLAIM sends RECLAIM with a deadline and puts the loan into RECLAIMING. -/
  | loanReclaimCmd (ctx : LoanId)
  /-- LOAN_RETURN_CMD (R328): LOAN_CMD RETURN at the borrower vacates the loan. -/
  | loanReturnCmd (ctx : LoanId)
  /-- LOAN_OFFER (R326): A received LOAN_OFFER is accepted into a free borrowed context or declined. -/
  | loanOffer (p : Packet)
  /-- LOAN_ACCEPT (R326): A received LOAN_ACCEPT makes the lent context ACTIVE. -/
  | loanAccept (p : Packet)
  /-- LOAN_DECLINE (R326): A received LOAN_DECLINE returns the offered frames to the lender's pool. -/
  | loanDecline (p : Packet)
  /-- RECLAIM (R328): A received RECLAIM makes the borrower stop using the loan and move its frames out. -/
  | reclaim (p : Packet)
  /-- VACATE_COMPLETE (R328): When no frame of a loan is referenced or quarantined, the borrower sends VACATED. -/
  | vacateComplete (ctx : LoanId)
  /-- VACATED (R328): A received VACATED makes the lender zero the frames, return them and send LOAN_END. -/
  | vacated (p : Packet)
  /-- LOAN_END (R328): A received LOAN_END returns the borrowed context to FREE. -/
  | loanEnd (p : Packet)
  /-- RECLAIM_DEADLINE (R328): A reclaim deadline that passes sets IRQ_STS bit 5 and logs a CE; the lender keeps serving. -/
  | reclaimDeadline (ctx : LoanId)
  /-- RREAD (R327): A received RREAD is served from the lender's GDDR7 with RDATA, or answered RERR. -/
  | rread (p : Packet)
  /-- RDATA (R327): A received RDATA completes a remote read. -/
  | rdata (p : Packet)
  /-- RWRITE (R327): A received RWRITE fills a loan frame, or is dropped and answered RERR if the frame is sealed or out of range. -/
  | rwrite (p : Packet)
  /-- RSEAL (R327): A received RSEAL makes a loan frame read-only. -/
  | rseal (p : Packet)
  /-- RFREE (R325): A received RFREE makes a loan frame writable again for a new fill. -/
  | rfree (p : Packet)
  /-- GREAD (R339): A received GREAD is served from an unpoisoned T0 copy of the granule, or answered RERR. -/
  | gread (p : Packet)
  /-- RERR (R325): A received RERR fails the remote request it names. -/
  | rerr (p : Packet)
  /-- LOAN_REQUEST_TIMEOUT (R327): A remote request unanswered after LOAN_TIMEOUT is sent again once; a second timeout counts as lender loss. -/
  | loanRequestTimeout (reqTag : Nat)
  /-- PF_GO (R329): PF_CMD GO starts the prefetch schedule, or is refused if AT decreases. -/
  | pfGo
  /-- PF_STOP (R341): PF_CMD STOP stops the prefetch schedule. -/
  | pfStop
  /-- PREFETCH_ISSUE (R330): At its issue point, a prefetch record refreshes or copies each of its granules into T0. -/
  | prefetchIssue
  /-- PREFETCH_LATE (R331): A prefetch copy that has not landed by its need beat increments PF_LATE and logs a CE. -/
  | prefetchLate (granule : Nat)
  /-- PREFETCH_DROP (R330): At need plus KEEP, the MTM drops each copy that the record made. -/
  | prefetchDrop (granule : Nat)
  /-- REFETCH_TIMEOUT (R339): A poisoned granule not served within REFETCH_CFG.TIMEOUT stays poisoned and its held reads complete with poison. -/
  | refetchTimeout (granule : Nat)
  /-- CXL_DEVICE_ADD (R335): A device found at link-up or hot-add is enumerated and its T2 slot enters PRESENT or REFUSED. -/
  | cxlDeviceAdd (slot : T2Slot) (dev : CxlDevice)
  /-- CXL_ONLINE (R335): SLOT_CMD ONLINE programs the HDM decoder, writes the slot's records and adds its frames to T2. -/
  | cxlOnline (slot : T2Slot)
  /-- CXL_DRAIN (R336): SLOT_CMD DRAIN stops allocation from the slot and moves its referenced frames out. -/
  | cxlDrain (slot : T2Slot)
  /-- CXL_OFFLINE (R336): SLOT_CMD OFFLINE removes the HDM range of a drained slot, or is refused while frames are referenced. -/
  | cxlOffline (slot : T2Slot)
  /-- CXL_SURPRISE_REMOVAL (R337): Link loss or a presence change puts the slot into GONE, failing its reads and copies and clearing held homes. -/
  | cxlSurpriseRemoval (slot : T2Slot)
  /-- SANITIZE_COMPLETE (R415): A device's Sanitize completes, letting its slot come ONLINE and lowering SAN_PENDING. -/
  | sanitizeComplete (slot : T2Slot) (ok : Bool)
  /-- HELLO (R356): A received HELLO makes the module generate an ML-KEM key pair and answer HELLO_ACK with a signed report. -/
  | hello (f : Frame) (nm ek : List Byte)
  /-- KEYX (R356): A received KEYX is verified and decapsulated, the epoch-0 keys are derived and the module sends SESSION_OK. -/
  | keyx (f : Frame) (sigOk : Bool) (ss : List Byte)
  /-- RESUME_FRAME (R359): A received RESUME for a SUSPENDED session is verified, the new epoch is taken and SESSION_OK is sent. -/
  | resumeFrame (f : Frame)
  /-- REKEY (R358): A received REKEY moves the receiving direction to the next epoch, or ends the session from epoch 255. -/
  | rekey (f : Frame)
  /-- SESSION_END (R356): A received SESSION_END ends the session. -/
  | sessionEnd (f : Frame)
  /-- REG_READ (R361): A REG_READ frame reads COUNT registers in ascending address and answers with RESP. -/
  | regRead (f : Frame)
  /-- REG_WRITE_FRAME (R361): A REG_WRITE frame writes its words in order as control-node writes and answers with RESP. -/
  | regWriteFrame (f : Frame)
  /-- DMA_RD (R362): A DMA_RD frame reads TAS bytes and answers with their data. -/
  | dmaRd (f : Frame)
  /-- DMA_WR (R362): A DMA_WR frame writes TAS bytes and answers once they are visible. -/
  | dmaWr (f : Frame)
  /-- SQ_WRITE (R364): An SQ_WRITE frame adds entries to a submission queue, or is answered FULL. -/
  | sqWrite (f : Frame)
  /-- CQ_ACK (R367): A CQ_ACK frame advances CQ_HEAD, or is refused as MALFORMED. -/
  | cqAck (f : Frame)
  /-- EVENT_ACK (R369): An EVENT_ACK frame releases event ring entries up to the named ESEQ. -/
  | eventAck (f : Frame)
  /-- ATTEST_REQ (R371): An ATTEST_REQ frame queues a request for an attestation report over its caller data. -/
  | attestReq (f : Frame)
  /-- ATTEST_REPORT_READY (R408): SEC finishes signing a report and the module sends ATTEST_REPORT. -/
  | attestReportReady
  /-- RESP (R363): A RESP from the control node completes a MEM_RD or MEM_WR request. -/
  | resp (f : Frame)
  /-- MEM_TIMEOUT (R363): A MEM_RD or MEM_WR unanswered after MEM_TIMEOUT is sent again once, and the second timeout fails its queue entry. -/
  | memTimeout (reqTag : Nat)
  /-- RESUME_TIMEOUT (R359): A SUSPENDED session not resumed within RESUME_BEATS is discarded and the state becomes NONE. -/
  | resumeTimeout
  /-- MBOIP_TRAIN_TRY_END (R352): An Mboip training try ends; after TRIES failures the link enters DOWN, discards its state and suspends the session. -/
  | mboipTrainTryEnd (lanes : BitVec 2)
  /-- MBOIP_RETRY_TIMER (R352): An Mboip link in DOWN starts a new training try every 64 ms. -/
  | mboipRetryTimer
  /-- RECOVERY_CHUNK (R402): A RECOVERY frame with LEN above 0 stores its chunk in the loader's staging area. -/
  | recoveryChunk (f : Frame)
  /-- RECOVERY_COMMIT (R402): A RECOVERY frame with LEN 0 checks the staged image, programs it and performs a module reset. -/
  | recoveryCommit (f : Frame) (sigOk programOk : Bool)
  /-- Q_ENABLE (R364): Setting Q_CTL.ENABLE checks the queue configuration, zeroes both rings and resets the indices. -/
  | qEnable (q : QueueId) (on : Bool)
  /-- Q_RESET (R364): Q_CTL.RESET aborts unstarted entries and empties both rings once started entries finish. -/
  | qReset (q : QueueId)
  /-- NOP (R365): A NOP queue entry completes with no action. -/
  | nop (q : QueueId)
  /-- PULL (R365): A PULL entry reads control-node memory into the TAS and then signals cluster flags. -/
  | pull (q : QueueId)
  /-- PUSH (R365): A PUSH entry writes TAS bytes to control-node memory and then signals cluster flags. -/
  | push (q : QueueId)
  /-- QUEUE_SIGNAL (R365): A SIGNAL queue entry adds AMOUNT to the named flag of each selected cluster. -/
  | queueSignal (q : QueueId)
  /-- WRITE_WORDS (R365): A WRITE_WORDS entry writes up to 7 words into the TAS and then signals. -/
  | writeWords (q : QueueId)
  /-- QUEUE_SLOT_CMD (R365): A SLOT_CMD entry writes its slot's SLOT_CMD and completes when the slot leaves its transient state or refuses. -/
  | queueSlotCmd (q : QueueId)
  /-- REG_BATCH (R365): A REG_BATCH entry reads offset and value pairs from control-node memory and applies them as register writes. -/
  | regBatch (q : QueueId)
  /-- REFETCH_FILL (R339): A REFETCH_FILL entry reads a granule payload and record from the control node and offers them to the refetch. -/
  | refetchFill (q : QueueId)
  /-- LC_TRANSITION (R414): A signed life-cycle transition is verified, its record committed, its further work done and a life-cycle reset scheduled. -/
  | lcTransition (q : QueueId) (sigVendor sigCn : Bool)
  /-- MASTER_OVERRIDE (R244): A signed master override is verified and either refused or applied at the next beat boundary. -/
  | masterOverride (q : QueueId) (sigCn : Bool)
  /-- SVN_COMMIT (R398): A signed SVN_COMMIT burns SVN fuses up to its value, or is refused. -/
  | svnCommit (q : QueueId) (sigCn : Bool)
  /-- LIFECYCLE_RESET (R414): 1,024 beats after a transition's completion entry, Romon performs a life-cycle reset. -/
  | lifecycleReset
  /-- POWER_ON (R386): VIN rising through 60 V starts pre-charge and the power-on sequence. -/
  | powerOn (vin : Nat)
  /-- CORE_SELF_TEST (R438): The start-up self-test ends for each core, leaving failed cores out of the work map. -/
  | coreSelfTest (failed : List CoreId)
  /-- GDDR7_TRAINING_DONE (R386): GDDR7 training completes on all channels and the memory is wiped with fresh check bits. -/
  | gddr7TrainingDone (ok : Bool)
  /-- READY (R386): When every start-up step has passed, READY is reported, or STATE FAILED with a cause. -/
  | ready (railOk opticsOk flashOk : Bool)
  /-- VIN_BAND_ENTRY (R375): VIN entering the 58-60 V or 80-84 V band logs a CE once. -/
  | vinBandEntry (vin : Nat)
  /-- POWER_FAIL (R380): VIN below 58 V for 20 µs sheds all but the management load, enters HOLDUP and logs an FE. -/
  | powerFail (vin : Nat)
  /-- OVERVOLTAGE (R375): VIN above 84 V for 20 µs opens the input switch and runs the power-fail path with cause OV. -/
  | overvoltage (vin : Nat)
  /-- SENSE_N_OPEN (R445): SENSE_N opening makes the module detect power-fail at once. -/
  | senseNOpen
  /-- FLASH_DEFER_RETRY (R381): A deferred flash operation is retried every 1,024 beats against the hold-up energy check. -/
  | flashDeferRetry (vhold : Nat)
  /-- FLASH_DEFER_EXPIRE (R381): A flash operation still deferred after 65,536 beats with the input in range logs a UC. -/
  | flashDeferExpire
  /-- VIN_RETURN (R383): VIN above 60 V for 10 ms while in HOLDUP makes the module perform a module reset. -/
  | vinReturn (vin : Nat)
  /-- HOLDUP_EXHAUSTED (R383): VHOLD falling to 36 V stops the management rails and the module is off. -/
  | holdupExhausted (vhold : Nat)
  /-- EMERGENCY_TRIGGER (R379): A temperature or input-power trigger raises EMERG_LEVEL in the next core cycle and the RCU sends EXTEND. -/
  | emergencyTrigger (tj : Int) (p20us p10ms : Nat)
  /-- OC_AVG_STEP (R379): While OC_AVG holds, EMERG_LEVEL rises by 2 again after each 1,024 beats, up to 12. -/
  | ocAvgStep (p10ms : Nat)
  /-- TRIGGER_CLEAR (R379): A trigger's clear condition held for its period clears that trigger. -/
  | triggerClear (t : Trigger) (tj : Int) (p10ms beats : Nat)
  /-- EMERGENCY_RETURN (R379): After the last trigger clears, EMERG_LEVEL returns to 0 at the next held group step start or, with no RUNNING ring, the next beat boundary. -/
  | emergencyReturn
  /-- TRIP (R379): A junction at 110 °C or above sheds compute and logs an FE. -/
  | trip (tj : Int)
  /-- PLAN_LEVEL_WRITE (R378): A write of PWR.PLAN_LEVEL sets the planned level at the next beat boundary, or is ignored while an RCU context is not FREE. -/
  | planLevelWrite (value : W32)
  /-- RST_CMD (R384): RST_CMD with key 0xB6B6 starts a module reset. -/
  | rstCmd (value : W32)
  /-- DD_ENTER (R387): DD_CMD ENTER is checked and either refused with a code or begins drydown entry. -/
  | ddEnter
  /-- DRYDOWN_ENTRY_COMPLETE (R388): Once collectives and copies have ended, ports go low-power, GDDR7 self-refreshes, blocks are gated and STATE becomes DRYDOWN. -/
  | drydownEntryComplete
  /-- DD_EXIT (R391): DD_CMD EXIT starts drydown exit. -/
  | ddExit
  /-- DRYDOWN_WAKE (R391): At DD_WAKE minus 4,883 beats, exit from drydown starts. -/
  | drydownWake
  /-- DRYDOWN_EXIT_COMPLETE (R391): Exit restores rails, memory and ports, resumes queues and sets STATE to READY. -/
  | drydownExitComplete (portsBack : List PortId)
  /-- IMG_UPDATE (R401): IMG_CMD UPDATE checks the staged image and starts programming it into flash. -/
  | imgUpdate (sigOk : Bool)
  /-- IMAGE_UPDATE_COMPLETE (R401): Programming and read-back of the new image end with DONE or FAILED. -/
  | imageUpdateComplete (ok : Bool)
  /-- LOADER_REQ (R402): LOADER_REQ with key 0x10AD performs a module reset into LOADER. -/
  | loaderReq (value : W32)
  /-- CTR_INC (R399): CTR_INC raises an operator counter by 1 with a flash commit, or is refused. -/
  | ctrInc
  /-- EXT_CMD (R397): SEC.EXT_CMD extends M3 with the digest in EXT_DATA. -/
  | extCmd
  /-- LOG_COPY (R440): LOG_CMD GO copies a range of committed error records into T0 direct. -/
  | logCopy
  /-- MONITOR_SAMPLE (R433): The TAM samples its monitors on their periods and updates the remaining margins. -/
  | monitorSample (idx : Fin 282) (value : W32)
  /-- VOLTAGE_STEP (R434): After path-delay slack has stayed below 20 ps for 2^20 beats, Romon raises the core-rail offset by one step. -/
  | voltageStep
  /-- LASER_STEP (R434): An engine output more than 0.5 dB below target makes Romon raise its bias by one step. -/
  | laserStep (engine : Fin 7)
  /-- WINDOW_ARM (R435): A write of WIN_BEAT_HI arms a maintenance window at its beat. -/
  | windowArm (hi : W32)
  /-- WINDOW_START (R435): At its beat, or when its target is free, an armed window starts its retraining or self-test. -/
  | windowStart
  /-- WIN_GO (R440): WIN_CMD GO starts the configured window at once. -/
  | winGo
  /-- WIN_CANCEL (R440): WIN_CMD CANCEL disarms the configured window. -/
  | winCancel
  /-- WINDOW_DONE (R435): A window's work ends, succeeding or failing with the consequences its kind gives. -/
  | windowDone (ok : Bool)
  /-- AGEING_CHECKPOINT (R437): Every CKPT_PERIOD beats Romon commits the ageing record to flash. -/
  | ageingCheckpoint
  /-- ROMON_WATCHDOG (R384): The Romon watchdog expires and starts a module reset, with RST_CAUSE 3 and MGT cause 11. -/
  | romonWatchdog
  /-- REFUSE (R221): A port receives the peer's REFUSE LCTL packet during admission. -/
  | refuseMsg (port : PortId) (code : Nat)
  /-- TRIP_COOLED_RESET (R428): After a TRIP, the module performs its module reset once TJ_MAX falls below 97 °C. -/
  | tripCooledReset (tj : Int)
  deriving DecidableEq, Repr

end Sys2Proof
end

