-- ==== Sys2Proof/Config.lean ====
section
/-! DEFINITION. What the manual leaves outside its own text: free values without a body. Nothing in Lean
can evaluate them, so a theorem holds whatever they are. -/

namespace Sys2Proof

/-- FIPS 205 key generation of SLH-DSA-SHA2-128f from 48 bytes of seed, the public key (R405); the
primitive belongs to the standard. Log 9. -/
opaque Config.slhPublic : List Byte → List Byte

/-- The SLH-DSA-SHA2-128f signature of a seed over a message (R406, R407). Log 9. -/
opaque Config.slhSign : List Byte → List Byte → List Byte

/-- AES-256-GCM (R357): ciphertext and tag for a key, a nonce, additional data and a plain text; the primitive
belongs to the standard. Log 9. -/
opaque Config.gcmSeal : List Byte → List Byte → List Byte → List Byte → List Byte

/-- Where the carousel record of a cluster lies (R115 gives the record, no rule gives its address).
Log 12. -/
opaque Config.carouselRecord : Nat → Nat

/-- A word the manual leaves undetermined, fresh at each draw. Log 5 lists the uses. -/
opaque Config.freeWord : Nat → W32

/-- SHA-256 of the boot ROM (R397), whose contents no rule gives. Log 21. -/
opaque Config.bootRomDigest : List Byte

/-- In what order run l of T0, the 96 lines of 128 bytes of an aligned 12 KiB, touches the 96 GDDR7 channels. R310 names a
fixed mapping in which such a run touches each channel once, and does not give it (log 28). -/
opaque Config.runOrder : Nat → Equiv.Perm (Fin 96)

/-- Error records in one erase block of the flash, which R426 names and no rule sizes (log 5). -/
opaque Config.eraseRecords : Nat

/-- E8M0 scale of block `blk` of row `row` of an MX dO operand of RECOMPUTE: R167 allows the format, and no
rule says where its scales lie (R70 and R169 list no scale array for C). Log 13. -/
opaque Config.gradScale : Nat → Nat → Nat

end Sys2Proof
end

