-- ==== Sys2Proof/Machine/Float.lean ====
section
/-! DEFINITION. FP32 and FP19 arithmetic (R28 to R32, R55): values are decoded to exact dyadic numbers,
computed exactly and rounded once to nearest even. -/

namespace Sys2Proof.Machine

/-- A decoded floating-point value: `fin neg m e` is (-1)^neg x m x 2^e, zero keeping its sign. -/
inductive Num where
  | nan
  | inf (neg : Bool)
  | fin (neg : Bool) (m : Nat) (e : Int)
  deriving DecidableEq, Repr

/-- The canonical quiet NaN (R30). -/
def fNaN : F32 := 0x7FC00000#32
/-- +0 -/
def fZero : F32 := 0#32
/-- Plus infinity. -/
def fInf : F32 := 0x7F800000#32
/-- Minus infinity. -/
def fNegInf : F32 := 0xFF800000#32
/-- 1.0 -/
def fOne : F32 := 0x3F800000#32

/-- Put a sign on a magnitude pattern. -/
def withSign (neg : Bool) (mag : Nat) : F32 :=
  BitVec.ofNat 32 (if neg then 2 ^ 31 + mag else mag)

/-- Decode binary32 (R28): subnormals are kept. -/
def num (x : F32) : Num :=
  let n := x.toNat
  let neg : Bool := decide (2 ^ 31 ≤ n)
  let mag : Nat := n % 2 ^ 31
  let ex : Nat := mag / 2 ^ 23
  let fr : Nat := mag % 2 ^ 23
  if ex = 255 then (if fr = 0 then .inf neg else .nan)
  else if ex = 0 then .fin neg fr (-149)
  else .fin neg (2 ^ 23 + fr) (Int.ofNat ex - 150)

/-- Round m x 2^(-sh) to the nearest integer, ties to even. -/
def rneShift (m sh : Nat) : Nat :=
  let q := m >>> sh
  let r := m % 2 ^ sh
  let half := 2 ^ sh
  if 2 * r < half then q
  else if 2 * r = half then (if q % 2 = 0 then q else q + 1)
  else q + 1

/-- Round m x 2^e onto a grid of `prec` significant bits whose finest step is 2^qmin (RNE): the
mantissa and the step exponent. -/
def rneGrid (prec : Nat) (qmin : Int) (m : Nat) (e : Int) : Nat × Int :=
  if m = 0 then (0, qmin) else
  let q := max (e + (Nat.log2 m : Int) + 1 - prec) qmin
  if q ≤ e then (m <<< (e - q).toNat, q) else (rneShift m (q - e).toNat, q)

/-- Round an exact dyadic value once to binary32 (R29): overflow gives infinity. -/
def roundF32 (neg : Bool) (m : Nat) (e : Int) : F32 :=
  let (k, q) := rneGrid 24 (-149) m e
  let bits := (q + 149).toNat * 2 ^ 23 + k
  if 0x7F800000 ≤ bits then withSign neg 0x7F800000 else withSign neg bits

/-- Encode a decoded value, rounding once. -/
def encNum : Num → F32
  | .nan => fNaN
  | .inf neg => withSign neg 0x7F800000
  | .fin neg m e => roundF32 neg m e

/-- Signed integer mantissa of a dyadic at exponent `e0` (which is at most `e`). -/
def alignTo (e0 : Int) (neg : Bool) (m : Nat) (e : Int) : Int :=
  let v : Int := ((m <<< (e - e0).toNat : Nat) : Int)
  if neg then -v else v

/-- Exact sum of two decoded values; an exact zero of opposite signs is +0 (IEEE 754, R29). -/
def nAdd : Num → Num → Num
  | .nan, _ => .nan
  | _, .nan => .nan
  | .inf a, .inf b => if a = b then .inf a else .nan
  | .inf a, _ => .inf a
  | _, .inf b => .inf b
  | .fin na ma ea, .fin nb mb eb =>
    let e0 := min ea eb
    let s := alignTo e0 na ma ea + alignTo e0 nb mb eb
    if s = 0 then .fin (na && nb) 0 e0 else .fin (decide (s < 0)) s.natAbs e0

/-- Exact product of two decoded values (R29). -/
def nMul : Num → Num → Num
  | .nan, _ => .nan
  | _, .nan => .nan
  | .inf a, .inf b => .inf (a != b)
  | .inf a, .fin nb mb _ => if mb = 0 then .nan else .inf (a != nb)
  | .fin na ma _, .inf b => if ma = 0 then .nan else .inf (na != b)
  | .fin na ma ea, .fin nb mb eb => .fin (na != nb) (ma * mb) (ea + eb)

/-- Sign change; a NaN stays NaN. -/
def nNeg : Num → Num
  | .nan => .nan
  | .inf a => .inf (!a)
  | .fin a m e => .fin (!a) m e

/-- RNE(a + b). -/
def fAdd (a b : F32) : F32 := encNum (nAdd (num a) (num b))
/-- RNE(a x b). -/
def fMul (a b : F32) : F32 := encNum (nMul (num a) (num b))
/-- RNE(a - b). -/
def fSub (a b : F32) : F32 := encNum (nAdd (num a) (nNeg (num b)))
/-- Flip the sign bit only. -/
def fNeg (a : F32) : F32 := a ^^^ 0x80000000#32
/-- |a| -/
def fAbs (a : F32) : F32 := a &&& 0x7FFFFFFF#32

def isNaN (a : F32) : Bool := decide (0x7F800000 < (a.toNat % 2 ^ 31))
def isInf (a : F32) : Bool := decide (a.toNat % 2 ^ 31 = 0x7F800000)
def isZero (a : F32) : Bool := decide (a.toNat % 2 ^ 31 = 0)
def isNegBit (a : F32) : Bool := decide (2 ^ 31 ≤ a.toNat)
/-- Finite: neither infinity nor NaN. -/
def isFin (a : F32) : Bool := decide (a.toNat % 2 ^ 31 < 0x7F800000)

/-- A total order key of non-NaN values: -0 lies just below +0. -/
def ordKey (a : F32) : Int :=
  let mag : Int := (a.toNat % 2 ^ 31 : Nat)
  if isNegBit a then -mag - 1 else mag

/-- Numeric a < b for values that are not NaN (the two zeros are equal). -/
def fLt (a b : F32) : Bool :=
  !isNaN a && !isNaN b && !(isZero a && isZero b) && decide (ordKey a < ordKey b)
/-- Numeric a ≤ b for values that are not NaN. -/
def fLe (a b : F32) : Bool := !isNaN a && !isNaN b && !fLt b a

/-- The maximum of R55: NaN loses, +0 beats -0. -/
def fMax (a b : F32) : F32 :=
  if isNaN a then (if isNaN b then fNaN else b)
  else if isNaN b then a
  else if ordKey a < ordKey b then b else a

/-- The minimum of R55. -/
def fMin (a b : F32) : F32 :=
  if isNaN a then (if isNaN b then fNaN else b)
  else if isNaN b then a
  else if ordKey b < ordKey a then b else a

/-- RNE conversion of an integer (R54, R134). -/
def fOfInt (i : Int) : F32 := roundF32 (decide (i < 0)) i.natAbs 0
/-- RNE conversion of an unsigned count. -/
def fOfNat (n : Nat) : F32 := roundF32 false n 0

/-- floor(log2 |v|) of a non-zero finite pattern. -/
def floorLog2 (v : F32) : Int :=
  match num v with
  | .fin _ m e => e + (Nat.log2 m : Int)
  | _ => 128

/-- a < 2^k for a finite magnitude pattern. -/
def magLtPow2 (a : F32) (k : Int) : Bool := isZero a || decide (floorLog2 a < k)

/-- The narrowing N of R32: truncation (code 0xC) or round to nearest even with saturation (0xB). -/
def narrow19 (rne : Bool) (a : F32) : F32 :=
  if isNaN a then fNaN else if isInf a then a else
  let mag := a.toNat % 2 ^ 31
  if rne then
    let r := rneShift mag 13 * 2 ^ 13
    withSign (isNegBit a) (if 0x7F800000 ≤ r then 0x7F7FE000 else r)
  else withSign (isNegBit a) (mag / 2 ^ 13 * 2 ^ 13)

/-- The two parts of R43; the low part of an infinity or a NaN is +0. -/
def splitHi (rne : Bool) (a : F32) : F32 := narrow19 rne a
def splitLo (rne : Bool) (a : F32) : F32 :=
  if isFin a then narrow19 rne (fSub a (narrow19 rne a)) else fZero

/-- Round an exact value to an integer, ties to even. -/
def rneInt (neg : Bool) (m : Nat) (e : Int) : Int :=
  let k := if 0 ≤ e then m <<< e.toNat else rneShift m (-e).toNat
  if neg then -(k : Int) else k

/-- Floor of an exact value. -/
def floorDy (neg : Bool) (m : Nat) (e : Int) : Int :=
  let v : Int := if neg then -(m : Int) else m
  if 0 ≤ e then v * 2 ^ e.toNat else v.fdiv (2 ^ (-e).toNat)

end Sys2Proof.Machine
end

