-- ==== Sys2Proof/Machine/Mx.lean ====
section
/-! DEFINITION. Stored formats (R24 to R27, R33 to R36), MX quantisation (R45 to R48), integer
quantisation (R49), conversion on load (R54) and the exponent histogram bin (R57). -/

namespace Sys2Proof.Machine

/-- The stored and array formats of R24; codes 0xE and 0xF are reserved. -/
inductive Fmt where
  | int8 | uint8 | int4 | uint4 | mxint8 | e4m3 | e5m2 | e3m2 | e2m3 | e2m1
  | fp32 | fp19r | fp19t | int32
  deriving DecidableEq, Repr

/-- Format code to format (R24). -/
def fmtOf : Nat → Option Fmt
  | 0 => some .int8 | 1 => some .uint8 | 2 => some .int4 | 3 => some .uint4
  | 4 => some .mxint8 | 5 => some .e4m3 | 6 => some .e5m2 | 7 => some .e3m2
  | 8 => some .e2m3 | 9 => some .e2m1 | 10 => some .fp32 | 11 => some .fp19r
  | 12 => some .fp19t | 13 => some .int32
  | _ => none

/-- Element width in memory, bits (R24). -/
def fmtBits : Fmt → Nat
  | .int8 | .uint8 | .mxint8 | .e4m3 | .e5m2 => 8
  | .int4 | .uint4 | .e2m1 => 4
  | .e3m2 | .e2m3 => 6
  | .fp32 | .fp19r | .fp19t | .int32 => 32

def isMx : Fmt → Bool
  | .mxint8 | .e4m3 | .e5m2 | .e3m2 | .e2m3 | .e2m1 => true
  | _ => false

/-- INT8, UINT8, INT4, UINT4. -/
def isIntFmt : Fmt → Bool
  | .int8 | .uint8 | .int4 | .uint4 => true
  | _ => false

def isFp19 : Fmt → Bool
  | .fp19r | .fp19t => true
  | _ => false

/-- The pairs of R37 as a relation on the formats in which operands enter the array. -/
def pairOk (a b : Fmt) : Bool :=
  match a, b with
  | .int8, .int8 | .int8, .uint8 | .uint8, .int8 | .uint8, .uint8 => true
  | .int8, .int4 | .int4, .int8 => true
  | .int4, .int4 | .int4, .uint4 | .uint4, .int4 | .uint4, .uint4 => true
  | x, y => (isMx x && isMx y) || (isFp19 x && isFp19 y)

/-- Array modes of R37. -/
inductive ArrMode where
  | bit8 | bit4 | fp19
  deriving DecidableEq, Repr

def arrMode (a b : Fmt) : ArrMode :=
  match a, b with
  | .e2m1, .e2m1 => .bit4
  | .int4, .int4 | .int4, .uint4 | .uint4, .int4 | .uint4, .uint4 => .bit4
  | x, y => if isFp19 x || isFp19 y then .fp19 else .bit8

/-- Element parameters of R33: mantissa bits, exponent of the smallest subnormal, emax, largest normal
as (mantissa, exponent). -/
def mbits : Fmt → Nat
  | .e4m3 => 3 | .e5m2 => 2 | .e3m2 => 2 | .e2m3 => 3 | .e2m1 => 1 | _ => 0
def qMin : Fmt → Int
  | .e4m3 => -9 | .e5m2 => -16 | .e3m2 => -4 | .e2m3 => -3 | .e2m1 => -1 | _ => -6
def emax : Fmt → Int
  | .e4m3 => 8 | .e5m2 => 15 | .e3m2 => 4 | .e2m3 => 2 | .e2m1 => 2 | _ => 0
def maxNorm : Fmt → Nat × Int
  | .e4m3 => (448, 0) | .e5m2 => (57344, 0) | .e3m2 => (28, 0) | .e2m3 => (15, -1)
  | .e2m1 => (6, 0) | _ => (127, -6)

/-- Decode an element code of an MX type (R33, R34), scale not applied. -/
def mxElem (f : Fmt) (code : Nat) : Num :=
  match f with
  | .mxint8 =>
    let c := code % 256
    if c < 128 then .fin false c (-6) else .fin true (256 - c) (-6)
  | _ =>
    let w := fmtBits f
    let neg := decide (2 ^ (w - 1) ≤ code % 2 ^ w)
    let mag := code % 2 ^ (w - 1)
    let ex := mag / 2 ^ mbits f
    let fr := mag % 2 ^ mbits f
    if f = .e4m3 ∧ mag = 127 then .nan
    else if f = .e5m2 ∧ ex = 31 then (if fr = 0 then .inf neg else .nan)
    else if ex = 0 then .fin neg fr (qMin f)
    else .fin neg (2 ^ mbits f + fr) (qMin f + ex - 1)

/-- Decode an integer element (R26). -/
def intElem (f : Fmt) (code : Nat) : Int :=
  match f with
  | .int8 => if code % 256 < 128 then (code % 256 : Nat) else (code % 256 : Nat) - 256
  | .uint8 => (code % 256 : Nat)
  | .int4 => if code % 16 < 8 then (code % 16 : Nat) else (code % 16 : Nat) - 16
  | .uint4 => (code % 16 : Nat)
  | _ => 0

/-- Multiply a decoded value by 2^k. -/
def nScale (k : Int) : Num → Num
  | .fin n m e => .fin n m (e + k)
  | x => x

/-- Dequantise an MX element to FP32 (R35, R54). -/
def mxToF32 (f : Fmt) (scale code : Nat) : F32 :=
  if scale = 0 then fZero else if scale = 255 then fNaN
  else encNum (nScale ((scale : Int) - 127) (mxElem f code))

/-- Load conversion of one element to FP32 (R54); the scale counts for MX only. -/
def toF32 (f : Fmt) (scale code : Nat) : F32 :=
  match f with
  | .fp32 | .fp19r | .fp19t => BitVec.ofNat 32 code
  | .int32 => fOfInt (BitVec.ofNat 32 code).toInt
  | .int8 | .uint8 | .int4 | .uint4 => fOfInt (intElem f code)
  | _ => mxToF32 f scale code

/-- What a store stream counts and observes (R48, R56 to R58, R91). -/
structure StoreStats where
  sat    : Nat := 0
  crush  : Nat := 0
  skipW  : Nat := 0
  amax   : F32 := fZero
  /-- Histogram: (bin, count), rising bins, no zero count (R57). -/
  hist   : List (Nat × Nat) := []
  deriving DecidableEq, Repr

/-- Count one value in a bin; counters saturate (R58). -/
def bump (b : Nat) : List (Nat × Nat) → List (Nat × Nat)
  | [] => [(b, 1)]
  | (k, n) :: t =>
    if b = k then (k, min (n + 1) 0xFFFFFFFF) :: t
    else if b < k then (b, 1) :: (k, n) :: t else (k, n) :: bump b t

/-- The bin of R57 for an input that was not crushed. -/
def histBin (v : F32) : Nat :=
  if !isFin v then 63
  else if isZero v then 0
  else
    let e := floorLog2 v
    if e ≤ -31 then 1 else if 30 ≤ e then 62 else (e + 32).toNat

/-- Observe one value of a store stream (R56, R57). -/
def observe (crushed saturated : Bool) (v : F32) (st : StoreStats) : StoreStats :=
  { st with
    sat := if saturated then min (st.sat + 1) 0xFFFFFFFF else st.sat
    crush := if crushed then min (st.crush + 1) 0xFFFFFFFF else st.crush
    amax := if isNaN v then st.amax else fMax st.amax (fAbs v)
    hist := bump (if crushed then 0 else histBin v) st.hist }

/-- |t| > maxnorm for t = m x 2^e. -/
def aboveMax (f : Fmt) (m : Nat) (e : Int) : Bool :=
  let (mm, me) := maxNorm f
  let e0 := min e me
  decide (mm <<< (me - e0).toNat < m <<< (e - e0).toNat)

/-- Code of a rounded magnitude (mantissa k at step 2^q) of a mini-float. -/
def mxCode (f : Fmt) (neg : Bool) (k : Nat) (q : Int) : Nat :=
  if k = 0 then 0 else
  let mag := (q - qMin f).toNat * 2 ^ mbits f + k
  if neg then 2 ^ (fmtBits f - 1) + mag else mag

/-- One quantised element: its code and whether it was saturated or crushed (R45, R47). -/
structure Quant where
  code : Nat := 0
  sat : Bool := false
  crush : Bool := false
  deriving DecidableEq, Repr

/-- Quantise one finite value under scale exponent x (R45). -/
def mxQuant (f : Fmt) (x : Int) (v : F32) : Quant :=
  match num v with
  | .fin neg m e =>
    let e' := e - x
    if aboveMax f m e' then
      let (mm, me) := maxNorm f
      match f with
      | .mxint8 => { code := if neg then 256 - 127 else 127, sat := true }
      | _ =>
        let (k, q) := rneGrid (mbits f + 1) (qMin f) mm me
        { code := mxCode f neg k q, sat := true }
    else
      match f with
      | .mxint8 =>
        let k := (rneInt false m (e' + 6)).toNat
        { code := if k = 0 then 0 else if neg then 256 - k else k, crush := decide (k = 0 ∧ m ≠ 0) }
      | _ =>
        let (k, q) := rneGrid (mbits f + 1) (qMin f) m e'
        { code := mxCode f neg k q, crush := decide (k = 0 ∧ m ≠ 0) }
  | _ => {}

/-- A quantised block: scale byte, element results, and whether it is a skip block. -/
structure QBlock where
  scale : Nat := 0
  elems : List Quant := []
  skip : Bool := false
  deriving DecidableEq, Repr

/-- `derive_block` of R45 for a block of values. -/
def deriveBlock (f : Fmt) (v : List F32) : QBlock :=
  if v.any (fun x => !isFin x) then { scale := 255, elems := v.map (fun _ => {}) }
  else
    let a := v.foldl (fun m x => fMax m (fAbs x)) fZero
    if magLtPow2 a (-127) then
      { scale := 0, elems := v.map (fun x => { crush := !isZero x }), skip := true }
    else
      let x := max (floorLog2 a - emax f) (-126)
      { scale := (x + 127).toNat, elems := v.map (mxQuant f x) }

/-- Ends of the integer store ranges (R49). -/
def intRange : Fmt → Int × Int
  | .int8 => (-127, 127) | .uint8 => (0, 255) | .int4 => (-7, 7) | .uint4 => (0, 15)
  | _ => (0, 0)

/-- Integer quantisation q = clamp(RNE(v x s)) with its counting (R49). -/
def intQuant (f : Fmt) (s v : F32) : Quant :=
  let (lo, hi) := intRange f
  let enc (i : Int) : Nat := (i % (2 ^ fmtBits f : Int)).toNat
  match nMul (num v) (num s) with
  | .nan => { code := 0 }
  | .inf neg => { code := enc (if neg then lo else hi), sat := true }
  | .fin neg m e =>
    let r := rneInt neg m e
    if r < lo then { code := enc lo, sat := true }
    else if hi < r then { code := enc hi, sat := true }
    else { code := enc r, crush := decide (r = 0) && !isZero v }

/-- Split a list into consecutive blocks of n. -/
def blocks (n : Nat) (l : List F32) : List (List F32) :=
  match n with
  | 0 => []
  | k + 1 => (List.range ((l.length + k) / (k + 1))).map (fun i => (l.drop (i * (k + 1))).take (k + 1))

/-- Pad a block with +0 to 32 values (R80, R81). -/
def padBlock (l : List F32) : List F32 := l ++ List.replicate (32 - l.length) fZero

/-- Pass values through a format and back (R89, R181): blocks of 32 from the first value. -/
def throughFmt (f : Fmt) (l : List F32) : List F32 :=
  match f with
  | .fp19r => l.map (narrow19 true)
  | .fp19t => l.map (narrow19 false)
  | _ =>
    if isMx f then
      ((blocks 32 l).map (fun b =>
        let q := deriveBlock f (padBlock b)
        (q.elems.take b.length).map (fun e => mxToF32 f q.scale e.code))).flatten
    else l

/-- Saturated and crushed counts of such a pass (R91 PRO_SAT, PRO_CRUSH). -/
def throughCounts (f : Fmt) (l : List F32) : Nat × Nat :=
  if isMx f then
    (blocks 32 l).foldl (fun (acc : Nat × Nat) b =>
      let q := deriveBlock f (padBlock b)
      (acc.1 + (q.elems.filter (·.sat)).length, acc.2 + (q.elems.filter (·.crush)).length)) (0, 0)
  else if isFp19 f then
    let n := narrow19 (f == .fp19r)
    (l.countP (fun v => isFin v && decide (0x7F800000 ≤ rneShift (v.toNat % 2 ^ 31) 13 * 2 ^ 13) && f == .fp19r),
     l.countP (fun v => isFin v && !isZero v && isZero (n v)))
  else (0, 0)

/-- The CRC-32 of IEEE 802.3 over bytes (R195): reflected, initial all ones, complemented. -/
def crcStep (c : Nat) : Nat := if c % 2 = 1 then (c / 2) ^^^ 0xEDB88320 else c / 2
def crcByte (c : Nat) (b : Byte) : Nat :=
  let x := c ^^^ b.toNat
  crcStep (crcStep (crcStep (crcStep (crcStep (crcStep (crcStep (crcStep x)))))))
def crc32 (l : List Byte) : Nat := (l.foldl crcByte 0xFFFFFFFF) ^^^ 0xFFFFFFFF

end Sys2Proof.Machine
end

