-- ==== Sys2Proof/Machine/RegMap.lean ====
section
/-! DEFINITION. The register maps of the pages (R345, R347, R458 and the register table of each block):
which bits of each register a write sets, clears by 1 or commands, and its reset value. -/

namespace Sys2Proof.Machine

/-- One row of a register map: the offsets `off` to `last` (0: one register) by 4, the bits under each
access code of R6, the reset value, and 1 or 2 for the low or high half of a pair (R8). -/
structure RegRow where
  off   : Nat
  last  : Nat := 0
  rw    : Nat := 0
  w1c   : Nat := 0
  rwl   : Nat := 0
  wo    : Nat := 0
  ro    : Nat := 0
  reset : Nat := 0
  pair  : Nat := 0
  deriving DecidableEq, Repr

/-- The common header (R347). -/
def headerRows : List RegRow := [
  { off := 0, ro := 0xffffffff },
  { off := 4, ro := 0xffff001f },
  { off := 8, rw := 5, wo := 0xa },
  { off := 0xc, ro := 0xf },
  { off := 0x10, w1c := 0xffffff0f },
  { off := 0x14, rw := 0xffffff00, reset := 0xffffff00 },
  { off := 0x18, wo := 0x11f0f },
  { off := 0x1c, ro := 0xffff },
  { off := 0x20, w1c := 0xffffffff },
  { off := 0x24, rw := 0xffffffff },
  { off := 0x28, ro := 0x3ffff },
  { off := 0x2c, rw := 1 }]

/-- The MGT page (R419). -/
def mgtRows : List RegRow := [
  { off := 0x100, ro := 0xffffffff },
  { off := 0x104, ro := 0xffff },
  { off := 0x108, ro := 0xf03 },
  { off := 0x10c, ro := 0xffffffff },
  { off := 0x110, rw := 0xffffffff, pair := 1 },
  { off := 0x114, rw := 0xffff, pair := 2 },
  { off := 0x118, rw := 0x3ffffff },
  { off := 0x11c, wo := 1 },
  { off := 0x120, ro := 0xf07 },
  { off := 0x124, rw := 0xf },
  { off := 0x128, ro := 0xffffffff },
  { off := 0x12c, wo := 1 },
  { off := 0x130, ro := 3 },
  { off := 0x134, wo := 0xffff }]

/-- The SEC page (R420). -/
def secRows : List RegRow := [
  { off := 0x100, ro := 0xf0f },
  { off := 0x104, ro := 0xffffffff },
  { off := 0x108, ro := 0xf },
  { off := 0x10c, last := 0x128, ro := 0xffffffff },
  { off := 0x12c, ro := 0x37f },
  { off := 0x130, last := 0x14c, ro := 0xffffffff },
  { off := 0x150, last := 0x16c, ro := 0xffffffff },
  { off := 0x170, last := 0x18c, ro := 0xffffffff },
  { off := 0x190, last := 0x1ac, ro := 0xffffffff },
  { off := 0x1b0, last := 0x1cc, rw := 0xffffffff },
  { off := 0x1d0, wo := 1 },
  { off := 0x1d4, ro := 0xffffffff },
  { off := 0x1d8, last := 0x1f4, ro := 0xffffffff }]

/-- The PWR page (R393). -/
def pwrRows : List RegRow := [
  { off := 0x100, ro := 0x1ffff7 },
  { off := 0x104, rw := 0xf },
  { off := 0x108, ro := 0x3fff },
  { off := 0x10c, ro := 0xffff },
  { off := 0x110, ro := 0x3fff },
  { off := 0x114, ro := 0xfff },
  { off := 0x118, rwl := 0xf, reset := 2 },
  { off := 0x11c, ro := 0xffff },
  { off := 0x120, wo := 3 },
  { off := 0x124, rw := 0xffffffff, pair := 1 },
  { off := 0x128, rw := 0x3fffff, pair := 2 },
  { off := 0x12c, ro := 0xf },
  { off := 0x130, rw := 0xff },
  { off := 0x134, rw := 0xff },
  { off := 0x138, ro := 0x7ff },
  { off := 0x13c, wo := 0xffff },
  { off := 0x140, ro := 0xf },
  { off := 0x144, rw := 0xffffffff },
  { off := 0x148, ro := 0xffff }]

/-- The TAM page (R440). -/
def tamRows : List RegRow := [
  { off := 0x100, ro := 0x3f },
  { off := 0x104, rw := 0xffffffff },
  { off := 0x108, rw := 0xffff0001, reset := 0x4000000 },
  { off := 0x10c, ro := 0xf },
  { off := 0x110, last := 0x12c, ro := 0xffffffff },
  { off := 0x130, ro := 0xffffffff },
  { off := 0x134, rw := 0xffffffff },
  { off := 0x138, rw := 0xffff },
  { off := 0x13c, rw := 0xffffffff, pair := 1 },
  { off := 0x140, rw := 0xffff, pair := 2 },
  { off := 0x144, wo := 1, ro := 0x300 },
  { off := 0x148, rw := 0x1ff },
  { off := 0x14c, ro := 0xffffffff },
  { off := 0x150, ro := 0x1f },
  { off := 0x154, ro := 0xffff },
  { off := 0x158, ro := 0x1ff7f },
  { off := 0x15c, ro := 0x1ff },
  { off := 0x160, rw := 0x7ff07 },
  { off := 0x164, rw := 0xffffffff, pair := 1 },
  { off := 0x168, rw := 0x3fffff, pair := 2 },
  { off := 0x16c, wo := 3 },
  { off := 0x170, ro := 0x13 },
  { off := 0x174, rw := 0xffffffff, reset := 0x360000 },
  { off := 0x178, ro := 0xffffffff },
  { off := 0x17c, ro := 0x1f07ff }]

/-- The MBP page (R373). -/
def mbpRows : List RegRow := [
  { off := 0x100, ro := 0x30f },
  { off := 0x104, ro := 0xff07 },
  { off := 0x108, rw := 0xffffff, reset := 0x100000 },
  { off := 0x10c, ro := 0xffffffff },
  { off := 0x110, rw := 0xffffffff },
  { off := 0x114, rw := 0xffff, reset := 0x400 },
  { off := 0x118, ro := 0xffffffff },
  { off := 0x11c, ro := 0xffffffff },
  { off := 0x120, ro := 0xffffffff },
  { off := 0x124, rw := 0x3f },
  { off := 0x128, rw := 1, wo := 2 },
  { off := 0x12c, ro := 7 },
  { off := 0x130, rw := 0xffffffff, pair := 1 },
  { off := 0x134, rw := 0xffff, pair := 2 },
  { off := 0x138, rw := 0x1fff, reset := 0x10 },
  { off := 0x13c, ro := 0xffffffff },
  { off := 0x140, rw := 0xffffffff, pair := 1 },
  { off := 0x144, rw := 0xffff, pair := 2 },
  { off := 0x148, rw := 0x1fff, reset := 0x10 },
  { off := 0x14c, ro := 0xffffffff },
  { off := 0x150, ro := 0xffff },
  { off := 0x154, rw := 0xffff, reset := 0x1002 },
  { off := 0x158, rw := 0xf, reset := 3 }]

/-- The CAD page (R251). -/
def cadRows : List RegRow := [
  { off := 0x100, ro := 0xffffffff, pair := 1 },
  { off := 0x104, ro := 0xffffffff, pair := 2 },
  { off := 0x108, ro := 0xffff7f, reset := 0x70 },
  { off := 0x10c, ro := 0x7ff },
  { off := 0x110, ro := 0xffffffff, reset := 0x80000000 },
  { off := 0x114, ro := 0xffffffff },
  { off := 0x118, ro := 0xffffffff },
  { off := 0x11c, rw := 0xffffffff },
  { off := 0x120, rw := 0xffffffff },
  { off := 0x124, ro := 0xffffffff },
  { off := 0x128, ro := 0xffffffff, reset := 0xffffffff },
  { off := 0x12c, rw := 1 },
  { off := 0x130, last := 0x144, ro := 0xffffffff, reset := 0xffffffff },
  { off := 0x150, last := 0x164, ro := 0xffffffff, reset := 0x80000000 },
  { off := 0x180, rw := 0xff },
  { off := 0x184, wo := 3 },
  { off := 0x188, ro := 0x3f },
  { off := 0x18c, ro := 0x1ff, reset := 0x100 },
  { off := 0x190, last := 0x1ac, rw := 0xffffffff }]

/-- The RCU page (R280). -/
def rcuRows : List RegRow := [
  { off := 0x100, wo := 0x1f0f },
  { off := 0x104, rw := 0xffffffff, pair := 1 },
  { off := 0x108, rw := 0xffff, pair := 2 },
  { off := 0x10c, rw := 0xffffffff },
  { off := 0x110, rw := 0xffffff0f },
  { off := 0x114, rw := 0xffffffff, pair := 1 },
  { off := 0x118, rw := 0x3fffff, pair := 2 },
  { off := 0x11c, ro := 0xf },
  { off := 0x120, rw := 0x1f },
  { off := 0x124, ro := 0x1ffffff7 },
  { off := 0x128, ro := 0xffffffff },
  { off := 0x12c, ro := 0xffffffff, pair := 1 },
  { off := 0x130, ro := 0x3fffff, pair := 2 },
  { off := 0x134, ro := 0xffff },
  { off := 0x138, rw := 0xffffffff },
  { off := 0x13c, ro := 0xffffff },
  { off := 0x140, rw := 0xff, reset := 8 },
  { off := 0x144, ro := 0xffffffff },
  { off := 0x148, rw := 0xffff, reset := 0x800 }]

/-- The LRT page (R226, R309). The two words of a multicast group entry (0x800 + 8g and 0x804 + 8g, R282) are no low
and high half of R8 here: a write of either acts at once, and a read of either reads it (DESIGN CHOICE, log 19: the
spec does not say). -/
def lrtRows : List RegRow := [
  { off := 0x100, ro := 0x107ff },
  { off := 0x104, rwl := 0xf1f1f },
  { off := 0x108, rwl := 0xff },
  { off := 0x10c, rwl := 0x7ff },
  { off := 0x110, rwl := 0xf1f1f },
  { off := 0x114, rwl := 0x1f },
  { off := 0x118, rw := 1 },
  { off := 0x11c, ro := 0xffffffff },
  { off := 0x120, rw := 0xffffffff, pair := 1 },
  { off := 0x124, rw := 0x3fffff, pair := 2 },
  { off := 0x128, ro := 1 },
  { off := 0x12c, wo := 3 },
  { off := 0x130, rw := 0xffffffff },
  { off := 0x134, rw := 0xffffffff },
  { off := 0x138, rw := 0x37ff },
  { off := 0x13c, ro := 0xffffffff },
  { off := 0x200, wo := 0xff03 },
  { off := 0x204, rw := 0xffffffff, pair := 1 },
  { off := 0x208, rw := 0xffff, pair := 2 },
  { off := 0x20c, ro := 0xf },
  { off := 0x210, rw := 0xff, reset := 1 },
  { off := 0x214, ro := 0x1ffff7 },
  { off := 0x218, ro := 0xffffffff },
  { off := 0x21c, ro := 0xffffffff },
  { off := 0x220, rw := 0xffffffff },
  { off := 0x224, rw := 0xffffffff },
  { off := 0x228, rw := 0xffffffff },
  { off := 0x22c, ro := 0xffff },
  { off := 0x230, ro := 0xfff, reset := 0x800 },
  { off := 0x800, last := 0xffc, rw := 0xffffffff }]

/-- The PORT page (R227). -/
def portRows : List RegRow := [
  { off := 0x100, wo := 0xf },
  { off := 0x104, ro := 0xfffff },
  { off := 0x108, ro := 0xff0777ff },
  { off := 0x10c, ro := 0xf1f1f },
  { off := 0x110, last := 0x12c, ro := 0xffffffff },
  { off := 0x130, rw := 0xffff, reset := 0x1002 },
  { off := 0x134, rw := 0xf, reset := 3 },
  { off := 0x138, rw := 0xffffffff },
  { off := 0x13c, rw := 0xffffffff },
  { off := 0x140, rw := 0xffffffff },
  { off := 0x144, rw := 0xffffffff },
  { off := 0x148, rw := 0xffffffff }]

/-- The MTM page (R341). -/
def mtmRows : List RegRow := [
  { off := 0x100, rw := 0x7f },
  { off := 0x104, rw := 0xffffffff, pair := 1 },
  { off := 0x108, rw := 0xffff, pair := 2 },
  { off := 0x10c, rw := 0x3fffffff },
  { off := 0x110, rw := 0xffffffff, pair := 1 },
  { off := 0x114, rw := 0xffff, pair := 2 },
  { off := 0x118, rw := 0xffffff },
  { off := 0x11c, rw := 0xffffffff, pair := 1 },
  { off := 0x120, rw := 0xffff, pair := 2 },
  { off := 0x124, rw := 0xffffffff, pair := 1 },
  { off := 0x128, rw := 0xffff, pair := 2 },
  { off := 0x12c, rw := 0x1fffffff },
  { off := 0x130, rw := 0xffffffff, pair := 1 },
  { off := 0x134, rw := 0xffff, pair := 2 },
  { off := 0x138, rw := 0xffffff },
  { off := 0x13c, rw := 0xffffffff, pair := 1 },
  { off := 0x140, rw := 0xffff, pair := 2 },
  { off := 0x144, ro := 0x3fffffff },
  { off := 0x148, ro := 0xffffff },
  { off := 0x14c, ro := 0xffffff },
  { off := 0x150, rw := 0xffffffff, reset := 0x400010 },
  { off := 0x154, rw := 0x1f },
  { off := 0x158, rw := 0x3fffffff },
  { off := 0x15c, ro := 0x3fffffff },
  { off := 0x160, rw := 0xffffffff },
  { off := 0x164, rw := 0xffffffff },
  { off := 0x168, rw := 0xffffffff },
  { off := 0x16c, rw := 0xffffffff, reset := 0x800 },
  { off := 0x170, rw := 0xffffffff, pair := 1 },
  { off := 0x174, rw := 0xffff, pair := 2 },
  { off := 0x178, rw := 0x11f1fff },
  { off := 0x17c, rw := 0xffffffff },
  { off := 0x180, rw := 0xffffffff, pair := 1 },
  { off := 0x184, rw := 0x3fffff, pair := 2 },
  { off := 0x188, wo := 3 },
  { off := 0x18c, ro := 0xfff0003 },
  { off := 0x190, rw := 0xffffffff },
  { off := 0x194, rw := 0xfffff, reset := 0x41000 },
  { off := 0x198, ro := 0x7ff },
  { off := 0x19c, ro := 0xfffffff },
  { off := 0x1a0, wo := 0x31f },
  { off := 0x1a4, ro := 0xf3 },
  { off := 0x1a8, rw := 0x1f },
  { off := 0x1ac, wo := 3 },
  { off := 0x1b0, rw := 0x7ff },
  { off := 0x1b4, rw := 0x3ffffff },
  { off := 0x1b8, ro := 0x37 },
  { off := 0x1bc, ro := 0x3ffffff },
  { off := 0x1c0, rw := 0xffffffff, pair := 1 },
  { off := 0x1c4, rw := 0xffff, pair := 2 },
  { off := 0x1c8, rw := 0x3ffffff, reset := 0x20000 },
  { off := 0x1cc, rw := 0x3fffffff, reset := 0x4000 },
  { off := 0x1d0, rw := 0xffffff, reset := 0x100000 },
  { off := 0x1d4, rw := 0xffff, reset := 0x400 }]

/-- The GMC page (R374, R441). -/
def gmcRows : List RegRow := [
  { off := 0x100, ro := 0xffff },
  { off := 0x104, rw := 0xffffffff },
  { off := 0x108, rw := 0xffffffff },
  { off := 0x10c, ro := 0xffffffff, pair := 1 },
  { off := 0x110, ro := 0xffff, pair := 2 },
  { off := 0x114, ro := 0xffffffff },
  { off := 0x200, rw := 7 },
  { off := 0x204, ro := 0xffffffff },
  { off := 0x208, ro := 0xffffffff },
  { off := 0x20c, ro := 0xffffffff },
  { off := 0x210, ro := 0xffffffff },
  { off := 0x214, ro := 0xffffffff, pair := 1 },
  { off := 0x218, ro := 0x3fffff, pair := 2 },
  { off := 0x21c, ro := 0xffff },
  { off := 0x220, ro := 0x7f }]

/-- The CXL page (R342). -/
def cxlRows : List RegRow := [
  { off := 0x100, ro := 0x3df3 },
  { off := 0x104, rw := 3, reset := 1 },
  { off := 0x108, rw := 3 },
  { off := 0x10c, ro := 0xf7 },
  { off := 0x110, ro := 0x7fffff },
  { off := 0x114, ro := 0x7ffffff },
  { off := 0x118, ro := 0x7ffffff },
  { off := 0x11c, ro := 0x7ffffff },
  { off := 0x120, rw := 0xffffffff, pair := 1 },
  { off := 0x124, rw := 0xffff, pair := 2 },
  { off := 0x128, wo := 3 },
  { off := 0x12c, rw := 0xffffffff }]

/-- The CORE page (R97). -/
def coreRows : List RegRow := [
  { off := 0x100, rw := 0xffffffff },
  { off := 0x104, rw := 0xffff },
  { off := 0x108, rw := 0xffffffff },
  { off := 0x10c, rw := 0xc, wo := 3 },
  { off := 0x110, rw := 0xffffffff, pair := 1 },
  { off := 0x114, rw := 0x3fffff, pair := 2 },
  { off := 0x118, rw := 0xffffffff },
  { off := 0x11c, rw := 0x7ff, reset := 0x10 },
  { off := 0x120, ro := 0xffff },
  { off := 0x124, rw := 0xffff },
  { off := 0x128, ro := 0xffffffff },
  { off := 0x12c, ro := 0xffffff07 },
  { off := 0x130, ro := 0x3f },
  { off := 0x134, ro := 0x13f },
  { off := 0x138, ro := 0xffffffff },
  { off := 0x140, last := 0x1bc, rw := 0xffffffff }]

/-- The CLUS page (R104, R132). -/
def clusRows : List RegRow := [
  { off := 0x100, rw := 0xffff, reset := 0x100 },
  { off := 0x104, ro := 0xffffffff, pair := 1 },
  { off := 0x108, ro := 0xffffffff, pair := 2 },
  { off := 0x10c, ro := 0xffffffff, pair := 1 },
  { off := 0x110, ro := 0xffffffff, pair := 2 },
  { off := 0x114, wo := 0x13f },
  { off := 0x200, last := 0x2fc, ro := 0xffffffff },
  { off := 0x300, last := 0x3fc, ro := 0xffffffff },
  { off := 0x400, last := 0x4fc, rw := 0xffff },
  { off := 0x600, rw := 0xffffffff, pair := 1 },
  { off := 0x604, rw := 0xffff, pair := 2 },
  { off := 0x608, wo := 1 },
  { off := 0x60c, w1c := 8, ro := 0xffff00f7 },
  { off := 0x610, rw := 0xffffffff, pair := 1 },
  { off := 0x614, rw := 0x3fffff, pair := 2 },
  { off := 0x618, ro := 0xffffffff },
  { off := 0x61c, ro := 0xffffffff },
  { off := 0x620, ro := 0xffffffff },
  { off := 0x624, ro := 0xffff },
  { off := 0x628, wo := 1 }]

/-- The PWU page (R190). -/
def pwuRows : List RegRow := [
  { off := 0x100, ro := 0xf },
  { off := 0x104, ro := 0xffffffff },
  { off := 0x108, rw := 0xffffffff, pair := 1 },
  { off := 0x10c, rw := 0x3fffff, pair := 2 },
  { off := 0x110, w1c := 2, ro := 0xff05, reset := 4 },
  { off := 0x114, wo := 1 },
  { off := 0x118, rw := 0xffffffff },
  { off := 0x11c, rw := 0xffffffff },
  { off := 0x400, last := 0x7fc, rw := 0xffffffff, reset := 0x7f800000 },
  { off := 0x800, last := 0xbfc, ro := 0xffffffff, reset := 0x7f800000 }]

/-- The SLOT page (R152). -/
def slotRows : List RegRow := [
  { off := 0x100, wo := 0xfff000f },
  { off := 0x104, ro := 0xfff01ff },
  { off := 0x108, ro := 0xffffffff },
  { off := 0x10c, ro := 0xffffffff },
  { off := 0x110, ro := 0xffffffff },
  { off := 0x114, ro := 0xffff },
  { off := 0x118, ro := 0x7f0f },
  { off := 0x11c, ro := 0xffffffff },
  { off := 0x120, rw := 0xffffffff, pair := 1 },
  { off := 0x124, rw := 0xffff, pair := 2 },
  { off := 0x128, rw := 0x7ff, reset := 1 },
  { off := 0x12c, rw := 0xffffffff, pair := 1 },
  { off := 0x130, rw := 0x3fffff, pair := 2 },
  { off := 0x134, ro := 0x3ff00f3 },
  { off := 0x138, ro := 0xffffffff },
  { off := 0x13c, ro := 0xffff },
  { off := 0x140, rw := 0xffffffff },
  { off := 0x144, rw := 1 },
  { off := 0x148, wo := 1 },
  { off := 0x1f0, rw := 0xffffffff, pair := 1 },
  { off := 0x1f4, rw := 0xffff, pair := 2 }]


/-- The blocks of the page map (R345). -/
inductive Blk where
  | mgt | sec | pwr | tam | mbp | cad | rcu | lrt | port | mtm | gmc | cxl | core | clus | pwu | slot | rt
  deriving DecidableEq, Repr

/-- The page map (R345): the block that owns a page and its first page. -/
def pageBlk (p : Nat) : Option (Blk × Nat) :=
  if p < 0x008 then
    [(Blk.mgt, 0), (.sec, 1), (.pwr, 2), (.tam, 3), (.mbp, 4), (.cad, 5), (.rcu, 6), (.lrt, 7)][p]?
  else if p < 0x00E then some (.port, 0x008)
  else if p = 0x00E then some (.mtm, 0x00E)
  else if p = 0x00F then none
  else if p < 0x01C then some (.gmc, 0x010)
  else if p < 0x01E then some (.cxl, 0x01C)
  else if p < 0x100 then none
  else if p < 0x1C0 then some (.core, 0x100)
  else if p < 0x200 then none
  else if p < 0x218 then some (.clus, 0x200)
  else if p < 0x220 then none
  else if p < 0x238 then some (.pwu, 0x220)
  else if p < 0x300 then none
  else if p < 0x320 then some (.slot, 0x300)
  else if p < 0x400 then none
  else if p < 0x408 then some (.rt, 0x400)
  else none

/-- Type code of R345. -/
def blkType : Blk → Nat
  | .mgt => 0x402 | .sec => 0x403 | .pwr => 0x404 | .tam => 0x405 | .mbp => 0x401 | .cad => 0x204
  | .rcu => 0x201 | .lrt => 0x202 | .port => 0x203 | .mtm => 0x301 | .gmc => 0x302 | .cxl => 0x303
  | .core => 0x101 | .clus => 0x102 | .pwu => 0x103 | .slot => 0x406 | .rt => 0

/-- Capability bits [4:0] of BLK_CAP (R458): FLIP, GATED, WIPE, INJ, SRESET from bit 0. -/
def blkCap : Blk → Nat
  | .core => 0b11110
  | .clus | .pwu => 0b11111
  | .slot | .lrt => 0b01001
  | .rt => 0
  | _ => 0b01000

/-- The cause bits that R429 assigns in each block (bit 31 is every block's). -/
def blkCauses : Blk → List Nat
  | .core => [8, 9, 10, 11, 31] | .clus => [8, 9, 10, 11, 12, 31] | .pwu => [8, 9, 31]
  | .rcu => [8, 9, 10, 11, 12, 31] | .lrt => [8, 9, 10, 11, 12, 13, 14, 15, 31]
  | .port => [8, 9, 10, 11, 12, 31] | .cad => [8, 9, 10, 11, 12, 13, 31]
  | .mtm => [8, 9, 10, 11, 12, 13, 14, 31] | .gmc => [8, 9, 10, 31] | .cxl => [8, 9, 10, 11, 12, 31]
  | .mbp => [8, 9, 10, 11, 12, 31] | .mgt => [8, 9, 10, 11, 31] | .sec => [8, 9, 31]
  | .pwr => [8, 9, 10, 11, 12, 13, 14, 31] | .tam => [8, 9, 10, 31] | .slot => [8, 9, 10, 11, 12, 31]
  | .rt => []

/-- The block-specific rows of a block. -/
def blkRows : Blk → List RegRow
  | .mgt => mgtRows | .sec => secRows | .pwr => pwrRows | .tam => tamRows | .mbp => mbpRows
  | .cad => cadRows | .rcu => rcuRows | .lrt => lrtRows | .port => portRows | .mtm => mtmRows
  | .gmc => gmcRows | .cxl => cxlRows | .core => coreRows | .clus => clusRows | .pwu => pwuRows
  | .slot => slotRows | .rt => []

/-- The row that describes an offset. -/
def findRow (off : Nat) : List RegRow → Option RegRow
  | [] => none
  | r :: t => if r.off ≤ off ∧ off ≤ max r.off r.last then some r else findRow off t

/-- The row of a window offset (page x 0x1000 + offset). Of the 16 bytes of a routing entry, [15:13] and [31:24] of the
first word and the other three words are reserved and read 0 (R213); of a group entry, bits [63:59] (R282). -/
def regRow (a : Nat) : Option RegRow :=
  match pageBlk (a / 0x1000) with
  | none => none
  | some (.rt, _) => some { off := a % 0x1000, rw := if a % 16 = 0 then 0xFF1FFF else 0 }
  | some (b, _) =>
    if a % 0x1000 < 0x100 then findRow (a % 0x1000) headerRows
    else
      let r := findRow (a % 0x1000) (blkRows b)
      if b = .lrt ∧ 0x800 ≤ a % 0x1000 ∧ a % 8 = 4 then r.map (fun x => { x with rw := 0x7FFFFFF }) else r

/-- Reset value of a register of the window (the register tables). -/
def regReset (a : Nat) : W32 :=
  match regRow (a % 0x4000000) with
  | none => 0#32
  | some r => BitVec.ofNat 32 r.reset

end Sys2Proof.Machine
end

