-- ==== Sys2Proof/Machine/Tab.lean ====
section
/-! DEFINITION. Sparse tables: lists of (key, value) pairs with rising keys and no entry equal to what an
unlisted key reads as, so that equal tables are equal data. Memories, the register file and every family
of block instances are such tables. -/

namespace Sys2Proof.Machine

/-- A sparse table. -/
abbrev Tab (α : Type) := List (Nat × α)

/-- Read key k; an unlisted key reads as `d k`. -/
def Tab.get {α : Type} (d : Nat → α) : Tab α → Nat → α
  | [], k => d k
  | (j, v) :: t, k => if k = j then v else if k < j then d k else Tab.get d t k

/-- Write key k, keeping the canonical form. In a table in that form no key of the tail is at most k; dropping
those makes reading after writing hold of every list. -/
def Tab.set {α : Type} [DecidableEq α] (d : Nat → α) : Tab α → Nat → α → Tab α
  | [], k, v => if v = d k then [] else [(k, v)]
  | (j, w) :: t, k, v =>
    if k < j then (if v = d k then (j, w) :: t else (k, v) :: (j, w) :: t)
    else if k = j then (if v = d k then t.dropWhile (fun e => decide (e.1 ≤ k)) else (k, v) :: t)
    else (j, w) :: Tab.set d t k v

/-- Every key of the table lies above k. -/
def Tab.above {α : Type} (k : Nat) (t : Tab α) : Bool := t.all (fun e => decide (k < e.1))

/-- The canonical form: keys strictly rising, no entry equal to its default. -/
def Tab.wf {α : Type} [DecidableEq α] (d : Nat → α) : Tab α → Bool
  | [] => true
  | (k, v) :: t => Tab.above k t && decide (v ≠ d k) && Tab.wf d t

/-- Drop the entries whose keys lie in [lo, hi): they read as the default again. -/
def Tab.clear {α : Type} (lo hi : Nat) (t : Tab α) : Tab α :=
  t.filter (fun e => decide (e.1 < lo ∨ hi ≤ e.1))

/-- Write consecutive keys from k. -/
def Tab.setList {α : Type} [DecidableEq α] (d : Nat → α) (t : Tab α) (k : Nat) : List α → Tab α
  | [] => t
  | v :: r => Tab.setList d (Tab.set d t k v) (k + 1) r

/-- Read n consecutive keys from k. -/
def Tab.getList {α : Type} (d : Nat → α) (t : Tab α) (k n : Nat) : List α :=
  (List.range n).map (fun i => Tab.get d t (k + i))

end Sys2Proof.Machine
end

