-- ==== Sys2Proof/Machine/State.lean ====
section
/-! DEFINITION. The state of the module as plain data: the register file, the memories, and the running
state of every block. Instances of a block are held in sparse tables (Tab.lean). The registers with
RW, RW1C and RWL fields, and plain latched RO words, live in `regs` under their window offset (banked
registers: plus selected item x 2^26); every other RO field is a view of the fields below. -/

namespace Sys2Proof.Machine

/-- Why the module could stop: no command of this model raises a fault, since the spec ends no command
outside its own error mechanism (R421). -/
inductive Fault where
  /-- Raised by no command (safe): kept so that the type has an inhabitant. -/
  | none
  deriving DecidableEq, Repr

/-- Why a command could have no meaning. -/
inductive Refusal where
  /-- An arm of exec whose command is not modelled yet raises it (safe: the run stops). -/
  | notModelled (mnemonic : String)
  deriving DecidableEq, Repr

/-- An error record (R422), numbers as in its fields. -/
structure ErrRec where
  cls       : Nat := 0
  scope     : Nat := 0
  nested    : Bool := false
  injected  : Bool := false
  escalated : Bool := false
  cause     : Nat := 8
  page      : Nat := 0
  scopeId   : Nat := 0
  beat      : Nat := 0
  d0        : Nat := 0
  d1        : Nat := 0
  d2        : Nat := 0
  rep       : Nat := 0
  deriving DecidableEq, Repr

/-- An entry of the event ring (R369). -/
structure Event where
  eseq    : Nat := 0
  kind    : Nat := 0
  page    : Nat := 0
  now     : Nat := 0
  /-- Bytes 0x10-0x2F as eight words. -/
  payload : List Nat := []
  deriving DecidableEq, Repr

/-! ### Compute -/

/-- A segment of a special-function table (R130). -/
structure Seg where
  c0 : F32 := 0#32
  c1 : F32 := 0#32
  c2 : F32 := 0#32
  c3 : F32 := 0#32
  lo : F32 := 0#32
  hi : F32 := 0#32
  deriving DecidableEq, Repr

/-- One bank of special-function tables (R129): its TABLE_ID and the segments in image order. -/
structure Bank where
  id   : W32 := 0#32
  segs : List Seg := []
  deriving DecidableEq, Repr

/-- A lease (R108, R109). -/
structure Lease where
  wc      : Nat := 0
  epoch   : Nat := 0
  value   : Nat := 0
  h       : Nat := 0
  i       : Nat := 0
  j       : Nat := 0
  rows    : Nat := 0
  cols    : Nat := 0
  /-- First beat at which the lease is expired. -/
  expiry  : Nat := 0
  len     : Nat := 0
  expired : Bool := false
  prov    : List Nat := []
  staged  : Bool := false
  slot    : Nat := 0
  /-- The topiary record of its counter, for staging and write-back; and the arming it was granted under. -/
  top     : List Nat := []
  ord     : Nat := 0
  deriving DecidableEq, Repr

/-- What the walk of an ATTN TOD latched in W1 (R161, R166). -/
structure WalkLatch where
  root   : Nat := 0
  dirGen : Nat := 0
  len    : Nat := 0
  tau    : F32 := 0x7F800000#32
  /-- Words 0x00-0x2C of the descriptor copy (formats, geometry). -/
  desc   : List Nat := []
  deriving DecidableEq, Repr

/-- A TOD in flight (R72 to R91), its words and parameter block as read once at issue. -/
structure TodRun where
  tod       : List Nat := []
  par       : List Nat := []
  /-- Holds released, issue proper done (R73 stage 6). -/
  begun     : Bool := false
  /-- Every output tile drained, or ended with `status`. -/
  ended     : Bool := false
  status    : Nat := 0
  faultOfs  : Nat := 0
  faultVal  : Nat := 0
  issueNow  : Nat := 0
  mb        : Nat := 0
  nb        : Nat := 0
  kb        : Nat := 0
  prov      : List Nat := []
  lease     : Option Lease := none
  sfuGen    : Nat := 0
  scale     : F32 := 0#32
  /-- Aliasing of the lease window and the carousel window latched at issue (R112, R117):
  (window offset, size, target offset). -/
  windows   : List (Nat × Nat × Nat) := []
  /-- Issued provisionally (R75). -/
  provis    : Bool := false
  walk      : Option WalkLatch := none
  tiles     : Nat := 0
  /-- Values of the drained tiles, row by row, for the row and column operations. -/
  vals      : List (List F32) := []
  stats     : StoreStats := {}
  proSat    : Nat := 0
  proCrush  : Nat := 0
  skipBlk   : Nat := 0
  amaxA     : F32 := 0#32
  amaxC     : F32 := 0#32
  intOvf    : Bool := false
  arrayCc   : Nat := 0
  /-- (m, l, n) of each row of an ATTN TOD, for RSTAT_OUT. -/
  rowStat   : List (F32 × F32 × Nat) := []
  deriving DecidableEq, Repr

/-- An active LOOP (R101): body entries [first, last], iterations left, index, index register. -/
structure LoopFrame where
  first : Nat := 0
  last  : Nat := 0
  left  : Nat := 0
  idx   : Nat := 0
  reg   : Option Nat := none
  deriving DecidableEq, Repr

/-- What a blocked list waits for (R100, R101, R108). -/
inductive Blocked where
  | none
  | wait (kind index amount deadline : Nat)
  | beat (target : Nat) (late : Bool)
  | fetch (wc dest : Nat) (stage nowait : Bool) (deadline : Nat)
  deriving DecidableEq, Repr

/-- The carousel position of a core (R116, R117). -/
structure Carousel where
  t      : Nat := 0
  /-- Units that have landed. -/
  landed : Nat := 0
  rank   : Nat := 0
  /-- The record and the participating cores in rank order, latched at step start. -/
  rcd    : List Nat := []
  cores  : List Nat := []
  /-- An abort reached the core in this pass: it goes on without the core (R119). -/
  drain  : Bool := false
  deriving DecidableEq, Repr

/-- A compute core and its sequencer. -/
structure Core where
  st        : Nat := 0
  fault     : Nat := 0
  pc        : Nat := 0
  loops     : List LoopFrame := []
  flags     : Nat := 0
  cplHead   : Nat := 0
  cplLost   : Nat := 0
  launched  : Nat := 0
  startAt   : Nat := 0
  startLate : Bool := false
  byGroup   : Option Nat := none
  blocked   : Blocked := .none
  runs      : List TodRun := []
  lastEmpty : Bool := false
  pred      : Option (Nat × Nat) := none
  provSet   : List Nat := []
  ckptOrd   : Nat := 0
  ckpt      : Bool := false
  lease     : Option Lease := none
  retiring  : List Lease := []
  writeback : List Lease := []
  stageNext : Nat := 0
  /-- Leases whose slots are still to be filled, oldest first; the leases that the two slots hold (R95). -/
  fill      : List Lease := []
  slotHas   : List (Option Lease) := [none, none]
  /-- The newest staged lease: its slot is what the lease window aliases (R112). -/
  win       : Option Lease := none
  car       : Option Carousel := none
  /-- The place latched at a step start for the launch that follows; units sent to this core, oldest first. -/
  carNext   : Option Carousel := none
  carDue    : List (List Byte) := []
  mapPend   : Bool := false
  mapApp    : Bool := false
  /-- Beat of the last change of the pending work map (R16). -/
  mapAt     : Nat := 0
  /-- Self-test failed: left out of the work map (R438); under test in a window (R435). -/
  failed    : Bool := false
  inTest    : Bool := false
  acc       : Tab (Option W32) := []
  stopping  : Bool := false
  /-- The step group whose start waits for the running list to end before it launches the next (R260). -/
  pending   : Option Nat := none
  /-- Collectives that have committed since the launch (R100 WAIT KIND 3). -/
  seen      : List Nat := []
  deriving DecidableEq, Repr

/-- A leased work counter (R103 to R110). -/
structure Counter where
  armed   : Bool := false
  done    : Bool := false
  next    : Nat := 0
  epoch   : Nat := 0
  total   : Nat := 0
  nDone   : Nat := 0
  reissue : List Nat := []
  leased  : Nat := 0
  lease   : Nat := 0
  /-- Words of the latched topiary record; empty for a plain counter. -/
  top     : List Nat := []
  /-- Row counts M_h by instance, read once from MB_TABLE. -/
  rowsOf  : List Nat := []
  /-- First block of the cluster's segment. -/
  seg0    : Nat := 0
  segN    : Nat := 0
  armOrd  : Nat := 0
  /-- Positions of the cluster's cores in the work map, latched at arming (R16). -/
  map     : List Nat := []
  deriving DecidableEq, Repr

/-- A special-function table load in progress, and the banks (R132, R133). -/
structure Sfu where
  active  : Bank := {}
  shadow  : Bank := {}
  state   : Nat := 0
  armed   : Bool := false
  flipAt  : Nat := 0
  late    : Bool := false
  missed  : Bool := false
  loadErr : Nat := 0
  gen     : W32 := 0#32
  fault   : Nat := 0
  deriving DecidableEq, Repr

/-- A block held in a block buffer of the cluster cache (R93, R95): the counter's arming and the block. -/
structure BlockBuf where
  ord : Nat := 0
  blk : Nat := 0
  deriving DecidableEq, Repr

/-- A cluster: its work-counter hub, special-function banks and block buffers. -/
structure Cluster where
  ctrs    : Tab Counter := []
  sfu     : Sfu := {}
  ord     : Nat := 0
  bufs    : List (Option BlockBuf) := [none, none, none]
  deriving DecidableEq, Repr

/-- A page walk unit (R189, R190): the shadow bank is in `regs`. -/
structure Pwu where
  active : Tab F32 := []
  gen    : W32 := 0#32
  armed  : Bool := false
  flipAt : Nat := 0
  late   : Bool := false
  missed : Bool := false
  deriving DecidableEq, Repr

/-! ### Sequence slots -/

/-- The result of a list of edits (R158): new entries by layer x 2^20 + page, LEN by layer, frames dropped, referenced once
more and named anew, the directory blocks touched, and the refusal's code and index. -/
structure Edited where
  ents   : List (Nat × Nat) := []
  lens   : List Nat := []
  drops  : List (Nat × Nat) := []
  incs   : List (Nat × Nat) := []
  news   : List (Nat × Nat) := []
  blocks : List (Nat × Nat) := []
  bad    : Option (Nat × Nat) := none
  deriving DecidableEq, Repr

/-- A quarantine entry (R162): a frame (tier, index) or a unit, its tag and its slot. -/
structure Quar where
  tag   : Nat := 0
  slot  : Nat := 0
  unit  : Bool := false
  tier  : Nat := 0
  idx   : Nat := 0
  deriving DecidableEq, Repr

/-- A publication of a slot's edit engine (R158 to R160). -/
structure Publ where
  /-- Origin: software (true) or the MTM. -/
  sw     : Bool := true
  /-- Edit entries, four words each. -/
  edits  : List (List Nat) := []
  at_    : Nat := 0
  late   : Bool := false
  built  : Bool := false
  /-- Units taken for the copies. -/
  units  : List Nat := []
  /-- What the build made of the list. -/
  res    : Edited := {}
  /-- MTM: the home (tier, frame) that a promoted copy holds (R323). -/
  home   : Option (Nat × Nat) := none
  /-- MTM: the destination frame to free if the publication is refused. -/
  dst    : Option (Nat × Nat) := none
  /-- MTM: the frame that is MOVING until the publication ends. -/
  src    : Option (Nat × Nat) := none
  deriving DecidableEq, Repr

/-- A reader's latch of a slot (R161): who, ROOT, DIR_GEN, LEN by layer. -/
structure Latch where
  who    : Nat := 0
  root   : Nat := 0
  gen    : Nat := 0
  lens   : List Nat := []
  deriving DecidableEq, Repr

/-- A sequence slot (R149 to R165). -/
structure Slot where
  st        : Nat := 0
  refuse    : Nat := 0
  inRing    : Bool := false
  desc      : Nat := 0
  /-- The sixteen-word descriptor copy (bytes 0x00-0x2F hold twelve words). -/
  words     : List Nat := []
  root      : Nat := 0
  dirGen    : Nat := 0
  lens      : List Nat := []
  /-- Append cursors by layer x 16 + head x 2 + kind. -/
  cursors   : List Nat := []
  reserve   : List (List Nat) := []
  shortAt   : Option Nat := none
  bindAt    : Nat := 0
  cause     : Nat := 0
  layer     : Nat := 0
  lost      : Nat := 0
  pubSt     : Nat := 0
  pubCode   : Nat := 0
  pubIdx    : Nat := 0
  pubGen    : Nat := 0
  publ      : Option Publ := none
  /-- A software arm waiting behind an MTM build (its beat), and MTM edits waiting. -/
  armWait   : Option Nat := none
  mtmWait   : List Publ := []
  latches   : List Latch := []
  /-- Seals to do: (layer, page). -/
  seals     : List (Nat × Nat) := []
  /-- What a RELEASE has still to hand to quarantine, in order (R150, R164). -/
  toQuar    : List Quar := []
  deriving DecidableEq, Repr

/-! ### Collectives and rings -/

/-- A stream this member sends (R296, R300): to rank `dst`, 256 for the group. For a multicast, each
receiver has a stream of its own that holds its counts and, once detached, its replays. -/
structure TxStream where
  dst    : Nat := 256
  next   : Nat := 0
  landed : Nat := 0
  freed  : Nat := 0
  det    : Bool := false
  /-- Chunks of the stream, and its bytes where the destination has a block of its own (R293). -/
  total  : Nat := 0
  bytes  : Nat := 0
  deriving DecidableEq, Repr

/-- A stream this member receives from rank `src`: chunks landed and freed, their CKs, chunks that failed a
check once, and chunks being assembled (chunk, parts so far, bytes). -/
structure RxStream where
  src    : Nat := 0
  landed : List Nat := []
  freed  : List Nat := []
  cks    : List (Nat × Nat) := []
  bad    : List Nat := []
  asm    : List (Nat × Nat × List Byte) := []
  /-- Bytes landed, and the whole block is here (R293). -/
  bytes  : Nat := 0
  /-- Index of the stream's last chunk, once that has landed. -/
  last   : Option Nat := none
  done   : Bool := false
  deriving DecidableEq, Repr

/-- A router piece at this node (R266, R299). -/
structure Piece where
  idx   : Nat := 0
  acc   : List Byte := []
  lam   : Nat := 1
  clean : Bool := true
  sent  : Bool := false
  deriving DecidableEq, Repr

/-- A collective context (R287 to R306): 0 FREE, 1 ARMED, 2 RUNNING, 3 VOTED, 4 ABORTING, 5 FAILED. -/
structure Coll where
  st       : Nat := 0
  words    : List Nat := []
  rank     : Nat := 0
  parts    : Nat := 0
  attempt  : Nat := 0
  run      : Nat := 0
  /-- Ranks that this member has detached in the run (R301). -/
  out      : List Nat := []
  /-- ALL_TO_ALL: the member's own block is in place. -/
  copied   : Bool := false
  doneRun  : Nat := 0
  cause    : Nat := 0
  detached : Bool := false
  start    : Nat := 0
  /-- Participating cores of a RING SUM run (R297). -/
  cores    : List Nat := []
  tx       : List TxStream := []
  rx       : List RxStream := []
  /-- Received chunks whose sum is formed (R298). -/
  reduced  : List Nat := []
  /-- CKs of chunks sent in this attempt, and of DST chunks by their index in DST. -/
  sentCk   : List (Nat × Nat) := []
  dstCk    : List (Nat × Nat) := []
  pieces   : List Piece := []
  /-- Landed pieces of children: (rank, piece, clean, bytes). -/
  kids     : List (Nat × Nat × Bool × List Byte) := []
  /-- Finished pieces at rank 0 that wait to be multicast. -/
  results  : List (Nat × List Byte) := []
  allClean : Bool := true
  votes    : List (Nat × Nat) := []
  /-- This member has asked for an abort; rank 0 has sent COMMIT or ABORT. -/
  asked    : Bool := false
  verdict  : Bool := false
  fullAt   : Option Nat := none
  lrtGen   : W32 := 0#32
  /-- The decode ring whose merge this run is, and its query stream's tail. -/
  ring     : Option Nat := none
  deriving DecidableEq, Repr

/-- A block in a rotation buffer (R263, R264). -/
structure RingBuf where
  step    : Nat := 0
  src     : Nat := 0
  layer   : Nat := 0
  tokens  : List Nat := []
  hdr     : Bool := false
  chunks  : List Nat := []
  deriving DecidableEq, Repr

/-- A DONE held (R258): member, step, done beat, STOP, HOLD, next owner. -/
structure RingDone where
  member : Nat := 0
  step   : Nat := 0
  beat   : Nat := 0
  stop   : Bool := false
  hold   : Bool := false
  owner  : Nat := 255
  deriving DecidableEq, Repr

/-- A ring context (R252 to R278). -/
structure Ring where
  st       : Nat := 0
  cause    : Nat := 0
  words    : List Nat := []
  uid      : Nat := 0
  member   : Nat := 0
  owner    : Nat := 0
  /-- Slot served and step length, which PLANs change (R269). -/
  slot     : Nat := 0
  stepBeats : Nat := 0
  /-- Forming: JOINs that match, FORM held, FORM and GO sent, beats of the command and of the last JOIN. -/
  joinP    : Bool := false
  joinS    : Bool := false
  formHeld : Bool := false
  formSent : Bool := false
  goSent   : Bool := false
  formAt   : Nat := 0
  joinAt   : Nat := 0
  /-- Next start: the first step's beat or, once a start has begun, its beat; the group step of a join (R256). -/
  s0       : Nat := 0
  joinStep : Option Nat := none
  /-- Parts of the start of the next step that are done (R260): 1 latches taken, 2 PLANs applied. -/
  phase    : Nat := 0
  step     : Nat := 0
  gstep    : Nat := 0
  start    : Nat := 0
  /-- Requested extensions by group step (R272). -/
  exts     : List (Nat × Nat) := []
  /-- PLANs held: group step, OP, ARG; those of the current step and the one before stay, so that a repeat is known. -/
  plans    : List (Nat × Nat × Nat) := []
  dones    : List RingDone := []
  /-- The work flags of this step have been taken; own DONE has been sent (R258). -/
  worked   : Bool := false
  ended    : Bool := false
  missBeats : Nat := 0
  missMember : Nat := 0
  /-- A disband that waits for the next step start: its cause (R278). -/
  disband  : Option Nat := none
  /-- RESTART beat. -/
  resume   : Option Nat := none
  bufs     : List RingBuf := [{}, {}]
  /-- Messages of the current and previous step that a port loss sends again (R277). -/
  recent   : List Packet := []
  lrtGen   : W32 := 0#32
  /-- The merge of the step has committed. -/
  merged   : Bool := false
  /-- The step's query (R265, R300, R301): the owner's streams, to the group (256) and by member, the CKs of its chunks, since
  when its window has been full and the members it has detached; a member's stream, the attempt it is of, whether the rows
  are all here and whether it is detached; a cause found before the merge has begun. -/
  qtx      : List TxStream := []
  qCks     : List (Nat × Nat) := []
  qFull    : Option Nat := none
  qOut     : List Nat := []
  qrx      : RxStream := {}
  qAtt     : Nat := 0
  qDone    : Bool := false
  qDet     : Bool := false
  qBad     : Option Nat := none
  deriving DecidableEq, Repr

/-- A JOIN that came before its FORM command (R255). -/
structure HeldJoin where
  ringId : Nat := 0
  src    : Nat := 0
  beat   : Nat := 0
  body   : List Byte := []
  deriving DecidableEq, Repr

/-! ### Fabric -/

/-- A flit (R195, R196), its ACK, credit and marker fields filled when it is sent. -/
structure Flit where
  type : Nat := 0
  vc   : Nat := 0
  cls  : Nat := 0
  sop  : Bool := false
  eop  : Bool := false
  seq  : Nat := 0
  data : List Byte := []
  deriving DecidableEq, Repr

/-- A packet queued for an egress (R207): as bytes, with its class, VC, input index (6: local),
DUE and arrival number. -/
structure QPkt where
  cls   : Nat := 0
  vc    : Nat := 0
  /-- Input it came by (6: from this module) and its channel there. -/
  inp   : Nat := 6
  vin   : Nat := 0
  due   : Nat := 0xFFFFFFFF
  /-- Place in the order in which packets' first flits arrived: the packet's name while it is here (R207). -/
  ord   : Nat := 0
  /-- Payloads of its flits that have arrived, as they came. -/
  flits : List (List Byte) := []
  /-- The last flit is among them. -/
  whole : Bool := true
  deriving DecidableEq, Repr

/-- What of a packet is here. -/
def QPkt.bytes (q : QPkt) : List Byte := q.flits.flatten

/-- Flits of one packet in a port's receive buffer (R200): how many came, how many have left, all having come. -/
structure RxBuf where
  ord   : Nat := 0
  pair  : Nat := 0
  came  : Nat := 0
  left  : Nat := 0
  whole : Bool := false
  deriving DecidableEq, Repr

/-- Where the LRT sends a packet (R214). -/
inductive Route where
  | drop | deliver | port (p : Nat) | many (ports : List Nat) (deliver : Bool)
  deriving DecidableEq, Repr

/-- A packet being received on a (class, VC): its order, and its bytes so far where it is for this module. -/
structure RxPkt where
  ord   : Nat := 0
  here  : Bool := true
  bytes : List Byte := []
  deriving DecidableEq, Repr

/-- What a peer's IDENT told (R221). -/
structure Peer where
  module  : Nat := 0
  port    : Nat := 0
  lc      : Nat := 0
  slice   : Nat := 0
  sx      : Nat := 0
  sy      : Nat := 0
  sz      : Nat := 0
  credits : List Nat := []
  digest  : List Byte := []
  deriving DecidableEq, Repr

/-- A flit link: a peer port or the Mboip link (R195 to R225, R352). Lists of six are by
2 x class + VC. -/
structure Link where
  st         : Nat := 0
  refuse     : Nat := 0
  locked     : Nat := 0
  tries      : Nat := 0
  /-- State before RETRAIN, and before LOWPOWER (R199, R224). -/
  prev       : Nat := 0
  lp         : Nat := 0
  sentAdmit  : Bool := false
  gotAdmit   : Bool := false
  admitted   : Bool := false
  /-- It has been UP since its last loss: what it carries is handled by R225 when it leaves. -/
  carried    : Bool := false
  peer       : Option Peer := none
  /-- IDENT received in this training, the own one sent in it, and one that waits for the lock of all lanes. -/
  identIn    : Bool := false
  identOut   : Bool := false
  identHeld  : Option (List Byte) := none
  txSeq      : Nat := 0
  replay     : List Flit := []
  resend     : List Flit := []
  replays    : Nat := 0
  ackAt      : Nat := 0
  rxSeq      : Nat := 0
  rxAck      : Nat := 4095
  nakSent    : Bool := false
  nakDue     : Bool := false
  credits    : List Nat := [0, 0, 0, 0, 0, 0]
  crSeen     : List Nat := [0, 0, 0, 0, 0, 0]
  freed      : List Nat := [0, 0, 0, 0, 0, 0]
  crPtr      : Nat := 0
  lctl       : List (List Byte) := []
  queue      : List QPkt := []
  /-- Packet being sent on each class and channel, and its flits already sent (R202). -/
  cur        : List (Option (QPkt × Nat)) := [none, none, none, none, none, none]
  /-- Channel of each class that sends next while both could. -/
  turn       : List Nat := [0, 0, 0]
  rx         : List (Option RxPkt) := [none, none, none, none, none, none]
  /-- Packets of which flits are in the receive buffers, in order of arrival. -/
  bufs       : List RxBuf := []
  lctlRx     : List Byte := []
  /-- Link-control bodies received, oldest first. -/
  lctlIn     : List (List Byte) := []
  mark       : Option Nat := none
  lastFlit   : List Byte := []
  /-- Packets of which flits are unacknowledged, with the sequence number of their last flit. -/
  unacked    : List (Nat × QPkt) := []
  /-- A LEAVE took the port to OFF: light brings it back to TRAIN (R224). -/
  left       : Bool := false
  deriving DecidableEq, Repr

/-! ### Cadence -/

/-- A marker frame accepted on a port (R235), and what is measured there (R236). -/
structure MarkRx where
  /-- Nibbles received of the frame being assembled, oldest first. -/
  nibbles : List Nat := []
  sync    : Bool := false
  /-- Beat of the last marker, of the last accepted frame, and of the last frame checked; consecutive accepted
  frames. -/
  seenAt  : Option Nat := none
  /-- Beat of the last marker discarded (R233). -/
  badAt   : Option Nat := none
  frameAt : Option Nat := none
  tryAt   : Option Nat := none
  frames  : Nat := 0
  master  : Nat := 0
  mepoch  : Nat := 0
  hops    : Nat := 15
  st      : Nat := 0
  beat    : Nat := 0
  tmeas   : Int := 0
  /-- The peer marked T_MEAS invalid. -/
  tbad    : Bool := true
  ta      : Option Int := none
  delay   : Option Int := none
  ofs     : Option Int := none
  deriving DecidableEq, Repr

/-- An entry of the event table (R247): 0 FREE, 1 ARMED, 2 DEFERRED; eight words. -/
structure EvtEntry where
  st      : Nat := 0
  words   : List Nat := []
  /-- Next beat, and firings left. -/
  at_     : Nat := 0
  left    : Nat := 0
  firedAt : Option Nat := none
  deriving DecidableEq, Repr

/-- A verified master override waiting for its beat boundary (R244). -/
structure Override where
  target : Nat := 0
  mepoch : Nat := 0
  at_    : Nat := 0
  deriving DecidableEq, Repr

/-- The cadence unit. -/
structure Cad where
  /-- The cadence counter: beats in [63:10], ticks in [9:0] (R228). -/
  now      : Nat := 0
  st       : Nat := 0
  parent   : Nat := 7
  hops     : Nat := 0
  mepoch   : Nat := 0
  master   : Nat := 0
  ports    : Tab MarkRx := []
  /-- The 32 nibbles of the frame being sent on each port, fixed at its start (R234). -/
  txFrames : Tab (List Nat) := []
  freqAdj  : Int := 0
  offset   : Option Int := none
  within   : Nat := 0
  missing  : Nat := 0
  holdB    : Nat := 0
  discOfs  : Int := 0
  discAge  : Nat := 0xFFFFFFFF
  readyAt  : Option Nat := none
  /-- A frame has been accepted since READY (R231). -/
  heard    : Bool := false
  /-- An override has named MASTER and MEPOCH: only parents that announce them are accepted (R244). -/
  bound    : Bool := false
  /-- Nanoseconds for which the ticks still stop (R242). -/
  stop     : Nat := 0
  evt      : Tab EvtEntry := []
  override : Option Override := none
  acquired : Nat := 0
  /-- Beats [offFrom, offTo) in which cascade items were deferred, and the beat from which they fire
  (R241, R242); beats (skipFrom, skipTo] that an acquisition stepped over. -/
  offFrom  : Nat := 0
  offTo    : Nat := 0
  onAt     : Option Nat := none
  skipFrom : Nat := 0
  skipTo   : Nat := 0
  deriving DecidableEq, Repr

/-! ### Memory tiers -/

/-- Purpose of a migration (R314, R321 to R330, R336): a demotion or a move up of a KV frame, whose slot is
none while the sequence is parked; a promotion; copies of a granule. -/
inductive MigKind where
  | demoteKv (slot : Option Nat) (desc layer page shelf : Nat)
  | raiseKv (slot : Option Nat) (desc layer page : Nat)
  | promoteKv (slot layer page : Nat)
  | evictGranule (g : Nat)
  | homeGranule (g : Nat)
  | copy2 (g : Nat)
  | prefetch (g : Nat)
  /-- A granule's home, or its second copy, leaves a loan or a T2 slot. -/
  | vacate (g : Nat) (second : Bool)
  deriving DecidableEq, Repr

/-- A frame copy in flight (R318, R321). -/
structure Mig where
  id      : Nat := 0
  kind    : MigKind := .evictGranule 0
  srcTier : Nat := 0
  src     : Nat := 0
  dstTier : Nat := 0
  dst     : Nat := 0
  /-- DUE of its requests (R333). -/
  due     : Nat := 0xFFFFFFFF
  deriving DecidableEq, Repr

/-- A loan context (R325 to R328): 0 FREE, 1 OFFERED, 2 ACTIVE, 3 RECLAIMING, 4 GONE. -/
structure Loan where
  st       : Nat := 0
  peer     : Nat := 0
  peerCtx  : Nat := 0
  frames   : Nat := 0
  cmd      : Nat := 0
  deadline : Option Nat := none
  passed   : Bool := false
  /-- Lender: sealed frames. -/
  sealed   : List Nat := []
  /-- Borrower: VACATED has been sent. -/
  sent     : Bool := false
  deriving DecidableEq, Repr

/-- A remote request outstanding (R327, R339): an RREAD of migration `mig`, or a GREAD of `granule`. -/
structure RemReq where
  tag      : Nat := 0
  pkt      : Packet := {}
  loan     : Nat := 0
  deadline : Nat := 0
  resent   : Bool := false
  granule  : Option Nat := none
  mig      : Nat := 0
  /-- Frame offset and length asked for, and the bytes that have come. -/
  off      : Nat := 0
  len      : Nat := 0
  got      : List Byte := []
  deriving DecidableEq, Repr

/-- A copy that a prefetch record makes (R330): need beat, and the step or beat of its drop. -/
structure PfCopy where
  granule : Nat := 0
  need    : Nat := 0
  drop    : Option Nat := none
  pin     : Bool := false
  landed  : Bool := false
  late    : Bool := false
  deriving DecidableEq, Repr

/-- A granule being refetched (R339): peers not asked yet, the source asked now (1 peer, 2 second copy,
3 control node), the frame taken, the deadline, and the reads held. -/
structure Refetch where
  granule  : Nat := 0
  frame    : Option Nat := none
  peers    : List Nat := []
  src      : Nat := 0
  deadline : Nat := 0
  waiting  : Nat := 0
  /-- Earliest DUE among the held readers (R333). -/
  due      : Nat := 0xFFFFFFFF
  deriving DecidableEq, Repr

/-- The memory tier manager. -/
structure Mtm where
  /-- DUE of the requester that is being served (R333). -/
  reqDue   : Nat := 0xFFFFFFFF
  migs     : List Mig := []
  nextMig  : Nat := 0
  shelf    : List Nat := []
  units    : List Nat := []
  loans    : Tab Loan := []
  reqs     : List RemReq := []
  nextTag  : Nat := 0
  pfSt     : Nat := 0
  pfNext   : Nat := 0
  pfPass   : Nat := 0
  pfCopies : List PfCopy := []
  refetch  : List Refetch := []
  lastSrc  : Nat := 0
  lastG    : Nat := 0
  regionSt : Nat := 0
  regionCode : Nat := 0
  /-- REGION_CMD in progress: region and command (2 HOME, 3 COPY2). -/
  regionNow : Option (Nat × Nat) := none
  lowSeen  : Bool := false
  /-- Background eviction runs from LOW up to HIGH (R321). -/
  evicting : Bool := false
  deriving DecidableEq, Repr

/-- What waits at a GMC: an access, or a read of another module. -/
inductive GmcWhat where
  | access (write : Bool) (addr len : Nat) (data : List Byte)
  | rread (p : Packet)
  | gread (p : Packet)
  deriving DecidableEq, Repr
/-- A request to a GMC, with the DUE and class that it is served by (R332, R333). -/
structure GmcReq where
  what : GmcWhat
  due  : Nat := 0xFFFFFFFF
  cls  : Nat := 0
  deriving DecidableEq, Repr

/-- A GDDR7 controller (R310, R311, R374, R441): channels in service, out for a window, in a refresh
window; per channel measured margins and baselines (read, write), last training and count. -/
structure Gmc where
  /-- Requests that wait for it, oldest first, and its services since one without a DUE was last favoured (R332). -/
  waiting  : List GmcReq := []
  turn     : Nat := 0
  up       : Nat := 0
  steered  : Nat := 0
  /-- Its refresh window is this beat's. -/
  refresh  : Option Nat := none
  /-- Beat of the end of the last full scrub pass (R310). -/
  scrubAt  : Nat := 0
  rd       : Tab W32 := []
  wr       : Tab W32 := []
  trainAt  : Tab Nat := []
  retrains : Tab Nat := []
  deriving DecidableEq, Repr

/-- A T2 slot (R335 to R337). -/
structure T2 where
  st      : Nat := 0
  refuse  : Nat := 0
  dev     : CxlDevice := {}
  capMiB  : Nat := 0
  frames  : Nat := 0
  /-- Its Sanitize has not completed (R415). -/
  sanitize : Bool := false
  deriving DecidableEq, Repr

/-- A CXL root port's link (R342). -/
structure Cxl where
  st     : Nat := 0
  width  : Nat := 0
  rate   : Nat := 0
  switch : Bool := false
  ide    : Bool := false
  deriving DecidableEq, Repr

/-! ### Control link -/

/-- A started queue entry (R366): its sixteen words, its status once known, and the bytes that have come from
the control node. -/
structure Entry where
  words   : List Nat := []
  status  : Option Nat := none
  detail  : Nat := 0
  /-- Tag of the MEM_RD or MEM_WR it waits for. -/
  req     : Option Nat := none
  got     : List Byte := []
  /-- PUSH: offset of the part whose read waits for a refetch. -/
  waitAt  : Option Nat := none
  deriving DecidableEq, Repr

/-- A queue pair (R364 to R368). -/
structure Queue where
  on      : Bool := false
  sqTail  : Nat := 0
  sqHead  : Nat := 0
  cqTail  : Nat := 0
  cqHead  : Nat := 0
  started : List Entry := []
  tokens  : Nat := 0
  resetting : Bool := false
  deriving DecidableEq, Repr

/-- A MEM_RD or MEM_WR outstanding at the control node (R363): `off` of its entry's bytes, `len` of them. The
deadline is a beat, or while the session is not KEYED the beats that were left. -/
structure MemReq where
  tag      : Nat := 0
  q        : Nat := 0
  frame    : Frame := {}
  off      : Nat := 0
  len      : Nat := 0
  deadline : Nat := 0
  resent   : Bool := false
  /-- It has been sent in a KEYED session. -/
  sent     : Bool := false
  deriving DecidableEq, Repr

/-- The Mboip endpoint (R352 to R373). -/
structure Mbp where
  sess     : Nat := 0
  /-- Epochs of the module's own direction and of the control node's (R358). -/
  epoch    : Nat := 0
  rxEpoch  : Nat := 0
  /-- Session secret S, and the handshake's nonces, transcript T and the loader's keyed mark. -/
  secret   : List Byte := []
  nc       : List Byte := []
  nm       : List Byte := []
  trans    : List Byte := []
  keyedLdr : Bool := false
  handshake : Bool := false
  rxCtr    : Nat := 0
  txCtr    : Nat := 0
  resumeBy : Option Nat := none
  lastTag  : Nat := 0
  events   : List Event := []
  evtNext  : Nat := 0
  evtLost  : Nat := 0
  queues   : Tab Queue := []
  mem      : List MemReq := []
  nextTag  : Nat := 0
  /-- The slot queue that started an entry last (R366). -/
  lastQ    : Nat := 31
  attest   : List (Nat × List Byte) := []
  /-- DMA_RD frames whose granule is being refetched (R339, R362). -/
  held     : List Frame := []
  /-- Frames sent and not yet taken by the link (an output). -/
  out      : List Frame := []
  /-- Frames received whole on the link (R353). -/
  arrived  : List (List Byte) := []
  retryAt  : Nat := 0
  deriving DecidableEq, Repr

/-! ### Power, trust, telemetry -/

/-- The phase of the module: off, boot ROM loader, running, retired (R386, R394, R402, R416). -/
inductive Phase where
  | off | starting | running | loader | retired
  deriving DecidableEq, Repr

/-- A flash operation (R381, R382): what Romon is to write. -/
inductive FlashOp where
  | errLog | ageing | counter (i : Nat) | image | lifecycle
  deriving DecidableEq, Repr

/-- The power unit (R375 to R393): STATE of R393; VIN, VHOLD in 10 mV, power in W, junction in 1/16 °C. -/
structure Pwr where
  st       : Nat := 0
  plan     : Nat := 0
  planNext : Option Nat := none
  emerg    : Nat := 0
  trig     : Nat := 0
  /-- Level that OC_AVG requires, and the beat of its next rise. -/
  ocLevel  : Nat := 0
  ocNext   : Nat := 0
  /-- The last trigger has cleared: EMERG_LEVEL waits to return to 0. -/
  returning : Bool := false
  vin      : Nat := 0
  pin      : Nat := 0
  vhold    : Nat := 0
  cap      : Nat := 0
  tj       : Int := 0
  cause    : Nat := 0
  bootTime : Nat := 0
  ddResult : Nat := 0
  shed     : Bool := false
  /-- EXIT was given during DD_ENTER. -/
  exitReq  : Bool := false
  /-- Start-up steps done: core self-test, GDDR7 trained and wiped. -/
  tested   : Bool := false
  gddr     : Bool := false
  /-- Deferred flash operations with the beat from which they are deferred. -/
  defer    : List (FlashOp × Nat) := []
  feAt     : Option Nat := none
  trip     : Bool := false
  deriving DecidableEq, Repr

/-- A firmware image in flash or staged (R395): its bytes and whether its signature verifies. -/
structure Image where
  bytes : List Byte := []
  sigOk : Bool := false
  deriving DecidableEq, Repr

/-- The ageing record (R437): baselines at manufacture (`…0`, `bol…`), LASER_EOL and calibrated targets, the
adjustments, the results of the last GDDR7 trainings, self-test failures, operating beats. -/
structure Ageing where
  vofs     : Nat := 0
  bias     : Tab Nat := []
  bias0    : Tab Nat := []
  eol      : Tab Nat := []
  target   : Tab Int := []
  eye0     : Tab Nat := []
  eff0     : Tab Nat := []
  eqs      : Tab Nat := []
  bolRd    : Tab W32 := []
  bolWr    : Tab W32 := []
  gddrRd   : Tab W32 := []
  gddrWr   : Tab W32 := []
  failures : Tab Nat := []
  margins  : List (Nat × Nat) := []
  opBeats  : Nat := 0
  deriving DecidableEq, Repr

/-- The flash (R400): kept over every reset. -/
structure Flash where
  image    : Image := {}
  cnKey    : List Byte := []
  prov     : List Byte := []
  counters : Tab Nat := []
  lcState  : Nat := 0
  wipePend : Bool := false
  sanList  : List Nat := []
  lcRecord : List Byte := []
  /-- Error log: record numbers and records, oldest first (R426). -/
  errLog   : List ErrRec := []
  logSeq   : Nat := 0
  age      : Ageing := {}
  deriving DecidableEq, Repr

/-- One-time programmable memory (R404). -/
structure Otp where
  uds      : List Byte := []
  vendorFw : List Byte := []
  vendorProv : List Byte := []
  svn      : Nat := 0
  prov     : Bool := false
  retire   : Bool := false
  config   : Nat := 0
  deriving DecidableEq, Repr

/-- The security unit (R394 to R420). -/
structure Sec where
  bootFail : Nat := 0
  /-- VERSION and SVN of the running image. -/
  version  : Nat := 0
  svn      : Nat := 0
  m0       : List Byte := List.replicate 32 0#8
  m1       : List Byte := List.replicate 32 0#8
  m2       : List Byte := List.replicate 32 0#8
  m3       : List Byte := List.replicate 32 0#8
  devPk    : List Byte := []
  aliasSeed : List Byte := []
  devDigest : List Byte := List.replicate 32 0#8
  reportSeq : Nat := 0
  lcResult : Nat := 0
  lcReset  : Option Nat := none
  imgSt    : Nat := 0
  imgCode  : Nat := 0
  /-- The loader's staging area, and the 64-byte units received (R402). -/
  staged   : Tab Byte := []
  units    : List Nat := []
  pendImg  : Option Image := none
  /-- The loader's deferred commit: its frame, the signature verifies, the read-back compares (R403). -/
  commit   : Option (Frame × Bool × Bool) := none
  ctrSt    : Nat := 0
  ctrPend  : Option Nat := none
  deriving DecidableEq, Repr

/-- The telemetry and ageing monitor (R424 to R441). -/
structure Tam where
  /-- Records in order of detection; true: the record sits in entry 15 (R424, R425). -/
  queue     : List (ErrRec × Bool) := []
  startFail : Nat := 0
  feExtra   : Nat := 0
  logStatus : Nat := 0
  /-- Last samples. -/
  mon       : Tab (Option W32) := []
  /-- Beat from which the worst path-delay slack has stayed below 20 ps. -/
  slackFrom : Option Nat := none
  /-- Beat of the last step of each laser. -/
  laserAt   : Tab Nat := []
  pct       : Nat := 0
  worst     : Nat := 0
  adv       : Bool := false
  /-- Resources at 0 %. -/
  exhausted : List Nat := []
  /-- Window: 0 IDLE, 1 ARMED, 2 RUNNING, 3 DONE. -/
  winSt     : Nat := 0
  winFail   : Bool := false
  winAt     : Nat := 0
  /-- The ageing record as it runs, and the beat of the last commit. -/
  age       : Ageing := {}
  ckptLast  : Nat := 0
  deriving DecidableEq, Repr

/-- What the last access told its requester (log 3): value, access error, poison. -/
structure Answer where
  value  : W32 := 0#32
  error  : Bool := false
  poison : Bool := false
  data   : List Byte := []
  deriving DecidableEq, Repr

/-- The module. -/
structure Chip where
  phase     : Phase := .off
  regs      : Tab W32 := []
  pairLatch : Tab (Option W32) := []
  pairStage : Tab (Option W32) := []
  answer    : Answer := {}
  /-- Answers of the memory accesses that had waited and were served last, in order (R311, R332). -/
  served    : List Answer := []
  mem       : Tab Byte := []
  lower     : Tab Byte := []
  poison    : Tab Bool := []
  lowPoison : Tab Bool := []
  cores     : Tab Core := []
  clusters  : Tab Cluster := []
  lrtExp    : Bank := {}
  lrtShadow : Bank := {}
  lrtGen    : W32 := 0#32
  pwus      : Tab Pwu := []
  slots     : Tab Slot := []
  quar      : List Quar := []
  links     : Tab Link := []
  colls     : Tab Coll := []
  rings     : Tab Ring := []
  joins     : List HeldJoin := []
  rcuResult : Nat := 0
  collResult : Nat := 0
  detachLast : Nat := 0
  rtActive  : Tab W32 := []
  rtArmed   : Bool := false
  rtAt      : Nat := 0
  rtLate    : Bool := false
  rtGen     : W32 := 0#32
  delivered : List Packet := []
  pktOrd    : Nat := 0
  straps    : Nat := 0xFFF
  posId     : Nat := 0
  mst       : Bool := false
  cad       : Cad := {}
  mtm       : Mtm := {}
  gmcs      : Tab Gmc := []
  t2        : Tab T2 := []
  cxl       : Tab Cxl := []
  mbp       : Mbp := {}
  pwr       : Pwr := {}
  flash     : Flash := {}
  otp       : Otp := {}
  sec       : Sec := {}
  tam       : Tam := {}
  /-- Scale-plan entries that TODs have named, and those whose roll waits (R52, R53). -/
  plans     : List Nat := []
  rolls     : List Nat := []
  /-- Provisional contributions to entries: address and the collectives still uncommitted (R51). -/
  contribs  : List (Nat × List Nat) := []
  /-- Row-statistic buffers written provisionally, with the collectives (R86). -/
  provBufs  : Tab (List Nat) := []
  busy      : List Nat := []
  wiped     : List Nat := []
  draw      : Nat := 0
  deriving DecidableEq, Repr

/-- The block with its queue of waiting commands, first in first out. -/
structure State where
  pending : List Instr
  chip    : Chip
  deriving DecidableEq, Repr

/-- Right after reset: nothing is powered, every register holds its reset value, every memory is
empty, no command waits. -/
def State.reset : State := { pending := [], chip := {} }

end Sys2Proof.Machine
end

