-- ==== Sys2Proof/Machine/Ops.lean ====
section
/-! DEFINITION. Named operations over registers, memory and block instances; error records (R421 to
R428), interrupts and events (R350, R369), and sending frames and packets. -/

namespace Sys2Proof.Machine

/-! ### Bits and bytes -/

/-- Bits [hi:lo] of a number. -/
def fld (hi lo n : Nat) : Nat := n / 2 ^ lo % 2 ^ (hi + 1 - lo)
/-- Bit i of a number. -/
def bit (i n : Nat) : Bool := n / 2 ^ i % 2 == 1
/-- Replace bits [hi:lo] by v. -/
def setFld (hi lo n v : Nat) : Nat :=
  n - fld hi lo n * 2 ^ lo + v % 2 ^ (hi + 1 - lo) * 2 ^ lo
def b2n (b : Bool) : Nat := if b then 1 else 0
/-- Little-endian number of a byte list (R3). -/
def leNat : List Byte → Nat
  | [] => 0
  | b :: t => b.toNat + 256 * leNat t
/-- n bytes, little-endian (R3). -/
def leBytes : Nat → Nat → List Byte
  | 0, _ => []
  | n + 1, v => BitVec.ofNat 8 v :: leBytes n (v / 256)
/-- Words of a byte list, four bytes each. -/
def leWords : Nat → List Byte → List Nat
  | 0, _ => []
  | n + 1, l => leNat (l.take 4) :: leWords n (l.drop 4)
/-- Little-endian field of n bytes at an offset of a body. -/
def at_ (l : List Byte) (off n : Nat) : Nat := leNat ((l.drop off).take n)
/-- Word k of a word list, 0 beyond its end. -/
def wd (l : List Nat) (k : Nat) : Nat := l.getD k 0
/-- Saturating 32-bit add. -/
def sat32 (a b : Nat) : Nat := min (a + b) 0xFFFFFFFF
/-- g is earlier than h as a serial number (R161). -/
def serialLt (g h : Nat) : Bool :=
  let d := (h + 2 ^ 32 - g % 2 ^ 32) % 2 ^ 32
  decide (1 ≤ d ∧ d < 2 ^ 31)
/-- Replace element i of a list. -/
def setAt {α : Type} (l : List α) (i : Nat) (v : α) : List α := l.set i v
/-- Overwrite part of a byte list from an offset. -/
def patch (l : List Byte) (off : Nat) (v : List Byte) : List Byte :=
  l.take off ++ v ++ l.drop (off + v.length)
def ceilDiv (a b : Nat) : Nat := (a + b - 1) / b
def isPow2 (n : Nat) : Bool := n != 0 && 2 ^ Nat.log2 n == n

/-! ### Pages of the register window (R345) -/

def pgMgt : Nat := 0x000
def pgSec : Nat := 0x001
def pgPwr : Nat := 0x002
def pgTam : Nat := 0x003
def pgMbp : Nat := 0x004
def pgCad : Nat := 0x005
def pgRcu : Nat := 0x006
def pgLrt : Nat := 0x007
def pgPort (p : Nat) : Nat := 0x008 + p
def pgMtm : Nat := 0x00E
def pgGmc (i : Nat) : Nat := 0x010 + i
def pgCxl (i : Nat) : Nat := 0x01C + i
def pgCore (n : Nat) : Nat := 0x100 + n
def pgClus (n : Nat) : Nat := 0x200 + n
def pgPwu (n : Nat) : Nat := 0x220 + n
def pgSlot (n : Nat) : Nat := 0x300 + n
/-- Window offset of a register (R343). -/
def ra (page off : Nat) : Nat := page * 0x1000 + off
/-- Key of a banked register: item `sel` of a register a selector chooses among. -/
def bank (sel page off : Nat) : Nat := sel * 0x4000000 + ra page off

/-- Read a stored register word. -/
def Chip.rg (c : Chip) (a : Nat) : Nat := (Tab.get regReset c.regs a).toNat
/-- Write a stored register word. -/
def Chip.setRg (c : Chip) (a v : Nat) : Chip :=
  { c with regs := Tab.set regReset c.regs a (BitVec.ofNat 32 v) }
/-- Raise a saturating counter register. -/
def Chip.bumpRg (c : Chip) (a n : Nat) : Chip := c.setRg a (sat32 (c.rg a) n)
/-- A low/high pair of stored registers as one number. -/
def Chip.rg64 (c : Chip) (a : Nat) : Nat := c.rg a + 2 ^ 32 * c.rg (a + 4)
/-- BLK_CTL.ENABLE of a page. -/
def Chip.enabled (c : Chip) (page : Nat) : Bool := bit 0 (c.rg (ra page 8))
/-- The current beat, ticks left off (R10). -/
def Chip.beat (c : Chip) : Nat := c.cad.now / 1024

/-- Act from the start of Romon on (R385, R386): registers, control link, cadence, ports, monitors. -/
def live (f : Chip → Chip) (c : Chip) : Chip := if c.phase = .running ∨ c.phase = .starting then f c else c

/-- Act once READY has been reported, and not in hold-up (R380, R386). -/
def run (f : Chip → Chip) (c : Chip) : Chip := if c.phase = .running ∧ c.pwr.st ≠ 5 then f c else c

/-- Act only while compute is powered: not shed (R380, R428), not gated in drydown (R388 to R391). -/
def work (f : Chip → Chip) (c : Chip) : Chip :=
  if c.phase = .running ∧ c.pwr.shed = false ∧ c.pwr.st ≠ 3 ∧ c.pwr.st ≠ 4 ∧ c.pwr.st ≠ 5 then f c else c

/-- Life-cycle state (R409): 0 BLANK, 1 PROVISIONED, 2 DEPLOYED, 3 SERVICE, 4 RETIRED. -/
def Chip.lc (c : Chip) : Nat :=
  if c.otp.retire then 4 else if !c.otp.prov then 0
  else if c.flash.lcState = 2 ∨ c.flash.lcState = 3 then c.flash.lcState else 1

/-! ### Block instances -/

def Chip.core (c : Chip) (n : Nat) : Core := Tab.get (fun _ => {}) c.cores n
def Chip.setCore (c : Chip) (n : Nat) (x : Core) : Chip :=
  { c with cores := Tab.set (fun _ => {}) c.cores n x }
/-- A change of the pending work map (R16). -/
def Core.pend (k : Core) (on : Bool) (beat : Nat) : Core :=
  if k.mapPend = on then k else { k with mapPend := on, mapAt := beat }
def Chip.clus (c : Chip) (n : Nat) : Cluster := Tab.get (fun _ => {}) c.clusters n
def Chip.setClus (c : Chip) (n : Nat) (x : Cluster) : Chip :=
  { c with clusters := Tab.set (fun _ => {}) c.clusters n x }
def Chip.pwu (c : Chip) (n : Nat) : Pwu := Tab.get (fun _ => {}) c.pwus n
def Chip.setPwu (c : Chip) (n : Nat) (x : Pwu) : Chip :=
  { c with pwus := Tab.set (fun _ => {}) c.pwus n x }
def Chip.slot (c : Chip) (n : Nat) : Slot := Tab.get (fun _ => {}) c.slots n
def Chip.setSlot (c : Chip) (n : Nat) (x : Slot) : Chip :=
  { c with slots := Tab.set (fun _ => {}) c.slots n x }
def Chip.link (c : Chip) (n : Nat) : Link := Tab.get (fun _ => {}) c.links n
def Chip.setLink (c : Chip) (n : Nat) (x : Link) : Chip :=
  { c with links := Tab.set (fun _ => {}) c.links n x }
def Chip.gmc (c : Chip) (n : Nat) : Gmc := Tab.get (fun _ => {}) c.gmcs n
def Chip.setGmc (c : Chip) (n : Nat) (x : Gmc) : Chip :=
  { c with gmcs := Tab.set (fun _ => {}) c.gmcs n x }
def Chip.t2s (c : Chip) (n : Nat) : T2 := Tab.get (fun _ => {}) c.t2 n
def Chip.setT2 (c : Chip) (n : Nat) (x : T2) : Chip :=
  { c with t2 := Tab.set (fun _ => {}) c.t2 n x }
def Chip.cxlp (c : Chip) (n : Nat) : Cxl := Tab.get (fun _ => {}) c.cxl n
def Chip.setCxl (c : Chip) (n : Nat) (x : Cxl) : Chip :=
  { c with cxl := Tab.set (fun _ => {}) c.cxl n x }
def Chip.loan (c : Chip) (n : Nat) : Loan := Tab.get (fun _ => {}) c.mtm.loans n
def Chip.setLoan (c : Chip) (n : Nat) (x : Loan) : Chip :=
  { c with mtm := { c.mtm with loans := Tab.set (fun _ => {}) c.mtm.loans n x } }
def Chip.queue (c : Chip) (n : Nat) : Queue := Tab.get (fun _ => {}) c.mbp.queues n
def Chip.setQueue (c : Chip) (n : Nat) (x : Queue) : Chip :=
  { c with mbp := { c.mbp with queues := Tab.set (fun _ => {}) c.mbp.queues n x } }
def Cluster.ctr (k : Cluster) (n : Nat) : Counter := Tab.get (fun _ => {}) k.ctrs n
def Cluster.setCtr (k : Cluster) (n : Nat) (x : Counter) : Cluster :=
  { k with ctrs := Tab.set (fun _ => {}) k.ctrs n x }
def Chip.ctr (c : Chip) (cl n : Nat) : Counter := (c.clus cl).ctr n
def Chip.setCtr (c : Chip) (cl n : Nat) (x : Counter) : Chip :=
  c.setClus cl ((c.clus cl).setCtr n x)
def Chip.coll (c : Chip) (n : Nat) : Coll := Tab.get (fun _ => {}) c.colls n
def Chip.setColl (c : Chip) (n : Nat) (x : Coll) : Chip :=
  { c with colls := Tab.set (fun _ => {}) c.colls n x }
def Chip.ring (c : Chip) (n : Nat) : Ring := Tab.get (fun _ => {}) c.rings n
def Chip.setRing (c : Chip) (n : Nat) (x : Ring) : Chip :=
  { c with rings := Tab.set (fun _ => {}) c.rings n x }
def Cad.port (k : Cad) (n : Nat) : MarkRx := Tab.get (fun _ => {}) k.ports n
def Cad.setPort (k : Cad) (n : Nat) (x : MarkRx) : Cad :=
  { k with ports := Tab.set (fun _ => {}) k.ports n x }
def Cad.ent (k : Cad) (n : Nat) : EvtEntry := Tab.get (fun _ => {}) k.evt n
def Cad.setEnt (k : Cad) (n : Nat) (x : EvtEntry) : Cad :=
  { k with evt := Tab.set (fun _ => {}) k.evt n x }

/-- Apply an operation for each of a list of indices, in order. -/
def forEach (l : List Nat) (f : Nat → Chip → Chip) (c : Chip) : Chip :=
  l.foldl (fun c i => f i c) c

/-! ### Bytes of the TAS -/

/-- The memory's canonical form (Tab.wf with default 0). -/
abbrev Memory.wf (m : Tab Byte) : Prop := Tab.wf (fun _ => 0#8) m = true

/-- One byte of stored memory. -/
def Chip.byteAt (c : Chip) (a : Nat) : Byte := Tab.get (fun _ => 0#8) c.mem a
/-- n bytes of stored memory. -/
def Chip.bytes (c : Chip) (a n : Nat) : List Byte := Tab.getList (fun _ => 0#8) c.mem a n
/-- A little-endian number in stored memory. -/
def Chip.le (c : Chip) (a n : Nat) : Nat := leNat (c.bytes a n)
/-- Store bytes; a 64-bit word written whole loses its poison mark (R430). -/
def Chip.store (c : Chip) (a : Nat) (l : List Byte) : Chip :=
  { c with
    mem := Tab.setList (fun _ => 0#8) c.mem a l
    poison := Tab.clear (ceilDiv a 8) ((a + l.length) / 8) c.poison }
/-- Store a little-endian number of n bytes. -/
def Chip.storeLe (c : Chip) (a n v : Nat) : Chip := c.store a (leBytes n v)
/-- Zero a range (a wipe): bytes and poison marks. -/
def Chip.zero (c : Chip) (a n : Nat) : Chip :=
  { c with
    mem := Tab.clear a (a + n) c.mem
    poison := Tab.clear (a / 8) (ceilDiv (a + n) 8) c.poison }
/-- First poisoned 64-bit word that a range touches, as a byte address. -/
def Chip.poisonIn (c : Chip) (a n : Nat) : Option Nat :=
  if n = 0 then none else
  (c.poison.find? (fun e => decide (a / 8 ≤ e.1 ∧ e.1 ≤ (a + n - 1) / 8))).map (fun e => 8 * e.1)
/-- Mark the 64-bit words of a range as poisoned. -/
def Chip.mark (c : Chip) (a n : Nat) : Chip :=
  let p := (List.range (ceilDiv (a % 8 + n) 8)).foldl
    (fun t i => Tab.set (fun _ => false) t (a / 8 + i) true) c.poison
  { c with poison := p }
/-- Copy bytes with their poison marks (R431). -/
def Chip.copyMem (c : Chip) (src dst n : Nat) : Chip :=
  let c1 := c.store dst (c.bytes src n)
  if (c.poisonIn src n).isNone then c1 else
  (List.range (ceilDiv n 8)).foldl (fun k i =>
    if (c.poisonIn (src + 8 * i) (min 8 (n - 8 * i))).isSome then k.mark (dst + 8 * i) (min 8 (n - 8 * i))
    else k) c1

/-- Base of a core's scratchpad and of a cluster's cache (R343). -/
def padBase (n : Nat) : Nat := 0x800000000000 + n * 0x400000
def cacheBase (n : Nat) : Nat := 0x810000000000 + n * 0x1000000
/-- Size of T0 direct (R312). -/
def t0Size : Nat := 0x1740000000

/-! ### Events and frames -/

/-- The 64 bytes of an event ring entry (R369). -/
def eventBytes (e : Event) : List Byte :=
  leBytes 4 e.eseq ++ leBytes 4 (e.kind + 2 ^ 16 * e.page) ++ leBytes 8 e.now ++
  (List.range 8).flatMap (fun i => leBytes 4 (wd e.payload i)) ++ List.replicate 16 0#8

/-- Put one event into the ring, which has room. -/
def putEvent (kind page : Nat) (payload : List Nat) (c : Chip) : Chip :=
  let m := c.mbp
  let e : Event := { eseq := m.evtNext, kind := kind, page := page, now := c.cad.now, payload := payload }
  { c with mbp := { m with events := m.events ++ [e], evtNext := (m.evtNext + 1) % 2 ^ 32 } }

/-- An event enters the ring (R369): a full ring drops and counts it; the first entry after that is an OVERFLOW
event. -/
def addEvent (kind page : Nat) (payload : List Nat) (c : Chip) : Chip :=
  if 1024 ≤ c.mbp.events.length then
    let a := ra pgMbp 0x20
    let c1 := c.setRg a (c.rg a ||| 4)
    { c1 with mbp := { c1.mbp with evtLost := sat32 c1.mbp.evtLost 1 } }
  else if c.mbp.evtLost = 0 then putEvent kind page payload c
  else
    let n := c.mbp.evtLost
    let c1 := putEvent 6 pgMbp [n] { c with mbp := { c.mbp with evtLost := 0 } }
    if 1024 ≤ c1.mbp.events.length then { c1 with mbp := { c1.mbp with evtLost := 1 } }
    else putEvent kind page payload c1

/-- Set an IRQ_STS bit that sends no event (LIST_DONE, R98). -/
def irqQuiet (page i : Nat) (c : Chip) : Chip :=
  c.setRg (ra page 0x20) (c.rg (ra page 0x20) ||| 2 ^ i)

/-- Set an IRQ_STS bit and queue its event unless one for the page and bit is unacknowledged (R350, R369). -/
def raiseIrq (page i : Nat) (c : Chip) : Chip :=
  let c1 := irqQuiet page i c
  if c1.mbp.events.any (fun e => decide (e.kind = 2 ∧ e.page = page ∧ wd e.payload 1 = i)) then c1
  else addEvent 2 page [c1.rg (ra page 0x20), i] c1

/-- Send a frame to the control node; a protected one takes the next CTR. CTR 2^47 brings a REKEY, which from
epoch 255 ends the session (R357, R358). -/
def sendFrame (f : Frame) (c : Chip) : Chip :=
  let m := c.mbp
  if f.prot then
    let f' := { f with epoch := m.epoch, ctr := m.txCtr }
    if m.txCtr + 1 = 2 ^ 47 then
      let rk : Frame := { type := 0x06, epoch := m.epoch, ctr := m.txCtr + 1 }
      let c1 := { c with mbp := { m with
        out := m.out ++ [f', rk], txCtr := 0, epoch := (m.epoch + 1) % 256
        sess := if m.epoch = 255 ∧ m.sess = 2 then 0 else m.sess, keyedLdr := m.keyedLdr && m.epoch != 255 } }
      if m.epoch = 255 ∧ m.sess = 2 then raiseIrq pgMbp 1 c1 else c1
    else { c with mbp := { m with out := m.out ++ [f'], txCtr := m.txCtr + 1 } }
  else { c with mbp := { m with out := m.out ++ [f] } }

/-- Send one ring entry while the session is KEYED. -/
def sendEvent (e : Event) (c : Chip) : Chip :=
  if c.mbp.sess = 2 then sendFrame { type := 0x28, body := eventBytes e } c else c

/-- Send the ring entries that an operation has added. -/
def sendNew (old : Chip) (c : Chip) : Chip :=
  (c.mbp.events.drop old.mbp.events.length).foldl (fun k e => sendEvent e k) c

/-- An event to the control node (R369). -/
def event (kind page : Nat) (payload : List Nat) (c : Chip) : Chip := sendNew c (addEvent kind page payload c)

/-- Set an IRQ_STS bit, with its event (R350, R369). -/
def irq (page i : Nat) (c : Chip) : Chip := sendNew c (raiseIrq page i c)

/-! ### Error records -/

/-- The eight words of an error record (R422). -/
def recWords (e : ErrRec) : List Nat :=
  [e.cls + 4 * e.scope + 32 * b2n e.nested + 64 * b2n e.injected + 128 * b2n e.escalated
     + 2 ^ 8 * e.cause + 2 ^ 16 * e.page,
   e.scopeId, e.beat % 2 ^ 32, e.beat / 2 ^ 32 % 2 ^ 32, e.d0, e.d1, e.d2, e.rep]

/-- Merge a CE into the newest queued record (R423). -/
def mergeCe (e : ErrRec) (q : List (ErrRec × Bool)) : Option (List (ErrRec × Bool)) :=
  match q.getLast? with
  | some (l, k) =>
    if e.cls = 0 ∧ l.cls = 0 ∧ l.page = e.page ∧ l.cause = e.cause then
      some (q.dropLast ++ [({ l with rep := min (l.rep + 1) 0xFFFF }, k)])
    else none
  | none => none

/-- Count one more FE in the FE record of entry 15 (R425). -/
def mergeFe : List (ErrRec × Bool) → List (ErrRec × Bool)
  | [] => []
  | (l, true) :: t => ({ l with rep := min (l.rep + 1) 0xFFFF }, true) :: t
  | (l, false) :: t => (l, false) :: mergeFe t

/-- A record enters the queue and is copied into the event ring (R424, R425). -/
def enqueueRec (e : ErrRec) (c : Chip) : Chip :=
  let q := c.tam.queue
  let put (k : Bool) : Chip :=
    event 1 e.page (recWords e) { c with tam := { c.tam with queue := q ++ [(e, k)] } }
  match mergeCe e q with
  | some q' => { c with tam := { c.tam with queue := q' } }
  | none =>
    let low := q.countP (fun r => !r.2)
    if e.cls = 3 then
      if q.any (·.2) then
        if low < 15 then put false
        else { c with tam := { c.tam with queue := mergeFe q, feExtra := e.page + 2 ^ 16 * e.cause } }
      else put true
    else if low < 15 then put false
    else irq pgTam 0 (c.bumpRg (ra pgTam 0x104) 1)

/-- Stop a core as a fatal error, a power loss or a module-wide shed does: no record is written. -/
def stopCore (k : Core) : Core :=
  { k with st := 0, loops := [], blocked := .none, runs := [], provSet := [], lease := none, retiring := [],
           writeback := [], fill := [], win := none, car := none, carNext := none, carDue := [], pred := none, stopping := false, ckpt := false, pending := none }

/-- Shed compute (R380): every core list stops. -/
def shedCores (c : Chip) : Chip :=
  let c1 := (List.range 192).foldl (fun k n => k.setCore n (stopCore (k.core n))) c
  { c1 with pwr := { c1.pwr with shed := true } }

/-- A detected error (R423, R427, R347): status, nesting, escalation, record. `fatal` is what an FE does
beside (R428). -/
def logWith (fatal : ErrRec → Chip → Chip) (e : ErrRec) (c : Chip) : Chip :=
  let a := ra e.page 0x10
  let sts := c.rg a
  let nested := decide (fld 3 0 sts ≠ 0)
  let up := nested && (bit 1 sts || bit 2 sts) && (e.cls == 1 || e.cls == 2)
  let sliceId := fld 7 0 (c.rg (ra pgLrt 0x108))
  let e' : ErrRec :=
    { e with
      cls := if up then e.cls + 1 else e.cls
      scope := if up then (if e.cls = 1 then 3 else 4) else if e.cls = 3 then 4 else e.scope
      scopeId := if up then (if e.cls = 1 then sliceId else 0) else e.scopeId
      nested := nested, escalated := up, beat := c.cad.now }
  let n := c.rg (ra e.page 0x1C)
  let first := if sts = 0 then e'.cls else fld 11 8 n
  let count := if sts = 0 then 1 else min (fld 7 0 n + 1) 255
  let c1 := (c.setRg a (sts ||| 2 ^ e.cls ||| 2 ^ e'.cls ||| 2 ^ e.cause)).setRg (ra e.page 0x1C)
    (count + 2 ^ 8 * first + 2 ^ 12 * e'.cls)
  let c2 := if bit e.cause (c.rg (ra e.page 0x14)) || e'.cls == 3 then enqueueRec e' c1 else c1
  if e'.cls = 3 then fatal e' c2 else c2

end Sys2Proof.Machine
end

