-- ==== Sys2Proof/Machine/Flags.lean ====
section
/-! DEFINITION. What follows from an error's class (R421, R428), the recurring error records of the
chapters, and the cluster flags (R101). -/

namespace Sys2Proof.Machine

/-- The page and cause of the FEs that perform no reset of their own (R428): power-fail, OV and TRIP. -/
def noFeReset (e : ErrRec) : Bool := e.page == pgPwr && (e.cause == 9 || e.cause == 10 || e.cause == 13)

/-- On an FE (R428): compute is shed, and the module reset is placed FE_DELAY beats later. -/
def fatal (e : ErrRec) (c : Chip) : Chip :=
  let c1 := shedCores c
  if noFeReset e || c1.pwr.feAt.isSome then c1
  else { c1 with pwr := { c1.pwr with feAt := some (c1.beat + fld 31 16 (c1.rg (ra pgTam 0x108))) } }

/-- A detected error (R423). -/
def logErr (e : ErrRec) (c : Chip) : Chip := logWith fatal e c

/-- A corrected error of a block. -/
def ce (page cause d0 d1 : Nat) (c : Chip) : Chip :=
  logErr { cls := 0, cause := cause, page := page, d0 := d0, d1 := d1 } c

/-- A UC scoped to the operation (R421); `id` names it as R422 lays down. -/
def ucOp (page cause id d0 d1 : Nat) (c : Chip) : Chip :=
  logErr { cls := 2, scope := 1, cause := cause, page := page, scopeId := id % 2 ^ 32, d0 := d0 % 2 ^ 32, d1 := d1 } c

/-- A UC scoped to the slice. -/
def ucSlice (page cause d0 d1 d2 : Nat) (c : Chip) : Chip :=
  logErr { cls := 2, scope := 3, cause := cause, page := page, scopeId := fld 7 0 (c.rg (ra pgLrt 0x108)),
           d0 := d0 % 2 ^ 32, d1 := d1, d2 := d2 } c

/-- A UC of a page scoped to the sequence of a slot, and one of the slot's own page. -/
def ucSeqAt (page slot cause d0 d1 : Nat) (c : Chip) : Chip :=
  logErr { cls := 2, scope := 2, cause := cause, page := page,
           scopeId := (c.slot slot).desc + 2 ^ 16 * slot, d0 := d0, d1 := d1 } c
def ucSeq (slot cause d0 d1 : Nat) (c : Chip) : Chip := ucSeqAt (pgSlot slot) slot cause d0 d1 c

/-- An item late (R10): the owner's page in DETAIL0 and the beat it was set for in DETAIL1. -/
def itemLate (page beat : Nat) (c : Chip) : Chip := ce pgCad 12 page (beat % 2 ^ 32) c

/-- No cascade item fires in UNSYNC and LOST (R245). -/
def Chip.cascadeOff (c : Chip) : Bool := c.cad.st == 0 || c.cad.st == 5
/-- An item of beat t was deferred (R241). -/
def Chip.wasDeferred (c : Chip) (t : Nat) : Bool := decide (c.cad.offFrom ≤ t ∧ t < c.cad.offTo)
/-- A step of the counter passed beat t (R242). -/
def Chip.passed (c : Chip) (t : Nat) : Bool := decide (c.cad.skipFrom < t ∧ t ≤ c.cad.skipTo)
/-- Beat t has come; one that a step passed comes at the next beat boundary (R242). -/
def Chip.come (c : Chip) (t : Nat) : Bool := decide (t ≤ c.beat) && (!c.passed t || decide (c.cad.skipTo < c.beat))
/-- A local item of beat t that a step passed logs a CE when it fires (R242). -/
def latePassed (page t : Nat) (c : Chip) : Chip := if c.passed t then itemLate page t c else c
/-- A cascade item of beat t fires now: its beat has come, and after a deferral the first beat boundary in
LOCKED (R242, R245). -/
def Chip.cascadeDue (c : Chip) (t : Nat) : Bool :=
  c.come t && !c.cascadeOff &&
  (!c.wasDeferred t || (match c.cad.onAt with | some b => decide (b ≤ c.beat) | none => false))
/-- A deferred item, or one that an acquisition stepped over, logs a CE when it fires (R242). -/
def lateFire (page t : Nat) (c : Chip) : Chip :=
  if c.wasDeferred t || c.passed t then itemLate page t c else c

/-- A register write or command ignored (R457). -/
def ignored (a v : Nat) (c : Chip) : Chip := ce (a % 0x4000000 / 0x1000) 31 (a % 0x4000000) v c

/-- Errors that a block finds in one core cycle: none of them is nested in another (R427; log 15). -/
def logTogether (page : Nat) (es : List ErrRec) (c : Chip) : Chip :=
  let base := c.rg (ra page 0x10)
  let r := es.foldl (fun (k : Chip × Nat) e =>
    let k1 := logErr { e with page := page } (k.1.setRg (ra page 0x10) base)
    (k1, k.2 ||| k1.rg (ra page 0x10))) (c, base)
  r.1.setRg (ra page 0x10) r.2

/-- An address as the two details of a record (R422). -/
def addrErr (mk : Nat → Nat → Chip → Chip) (a : Nat) (c : Chip) : Chip := mk (a % 2 ^ 32) (a / 2 ^ 32 % 2 ^ 16) c

/-- Operation SCOPE_ID of a core's TOD (R422). -/
def opId (core tag : Nat) : Nat := core + 2 ^ 8 * (tag % 2 ^ 24)

/-- Offset of flag n of a cluster. -/
def flagReg (cl n : Nat) : Nat := ra (pgClus cl) (0x400 + 4 * n)

/-- Add to a cluster flag; none when it would pass 0xFFFF (R101, R365). -/
def addFlag (cl n amount : Nat) (c : Chip) : Option Chip :=
  let v := c.rg (flagReg cl n) + amount
  if v ≤ 0xFFFF then some (c.setRg (flagReg cl n) v) else none

/-- A collective context has a run that has not committed (R75): running, voted, aborting or failed. -/
def Chip.collOpen (c : Chip) (id : Nat) : Bool := decide (2 ≤ (c.coll id).st)

/-! ### Register pairs (R8) -/

/-- Bits of a register that a write sets. -/
def rwMask (a : Nat) : Nat := match regRow (a % 0x4000000) with | some r => r.rw ||| r.rwl | none => 0
/-- Write the high half of the pair whose low half has key `a`: the staged low half and the new high half
apply together. -/
def pairApply (a hi : Nat) (c : Chip) : Chip :=
  let lo := match Tab.get (fun _ => none) c.pairStage a with | some v => v.toNat | none => c.rg a
  let c1 := (c.setRg a (lo &&& rwMask a)).setRg (a + 4) (hi &&& rwMask (a + 4))
  { c1 with pairStage := Tab.set (fun _ => none) c1.pairStage a none }
/-- The full beat that a 32-bit beat field names: the one within 2^31 beats of `start` (R246). -/
def fullBeat (start lo : Nat) : Nat :=
  let d := (lo + 2 ^ 32 - start % 2 ^ 32) % 2 ^ 32
  if d < 2 ^ 31 then start + d else start + d - 2 ^ 32

/-- When an item armed for beat b acts: at b, or at the next beat boundary when b has passed (R10). -/
def Chip.armedAt (c : Chip) (b : Nat) : Nat := if b ≤ c.beat then c.beat + 1 else b
/-- The CE of an item armed too late. -/
def armCe (page b : Nat) (c : Chip) : Chip := if b ≤ c.beat then itemLate page b c else c

end Sys2Proof.Machine
end

