-- ==== Sys2Proof/Machine/Fabric.lean ====
section
/-! DEFINITION. Packets and routing (R203 to R218, R282 to R286): layout, position, routing table,
multicast groups, virtual channels, origination, transit and local delivery. -/

namespace Sys2Proof.Machine

/-! ### Layout (R203) -/

def ptBytes (p : Packet) : List Byte :=
  leBytes 4 (p.dest % 2 ^ 11 + 2 ^ 11 * b2n p.mcast + 2 ^ 16 * (p.slice % 256) + 2 ^ 24 * (p.kind % 256)) ++
  leBytes 4 (p.src % 2 ^ 11) ++ leBytes 4 p.body.length ++ leBytes 4 p.due ++ leBytes 8 p.addr ++
  leBytes 4 p.tag ++ leBytes 4 0 ++ p.body

/-- Read a whole packet of class `cls`; reserved header bits set in it are noted. -/
def ptOf (cls : Nat) (l : List Byte) : Packet :=
  let w0 := at_ l 0 4
  let len := fld 16 0 (at_ l 8 4)
  { dest := fld 10 0 w0, mcast := bit 11 w0, slice := fld 23 16 w0, kind := fld 31 24 w0
    src := fld 10 0 (at_ l 4 4), due := at_ l 12 4, addr := at_ l 16 8 % 2 ^ 48, tag := at_ l 24 4, cls := cls
    rsvd := fld 15 12 w0 != 0 || fld 31 11 (at_ l 4 4) != 0 || fld 31 17 (at_ l 8 4) != 0 ||
      at_ l 22 2 != 0 || at_ l 28 4 != 0 || decide (65536 < len) || len != l.length - 32
    body := l.drop 32 }

/-- The packet kinds that a chapter defines (R204, R254, R295, R325). -/
def knownKind (k : Nat) : Bool :=
  decide ((1 ≤ k ∧ k ≤ 7) ∨ (0x10 ≤ k ∧ k ≤ 0x1B) ∨ (0x20 ≤ k ∧ k ≤ 0x2A) ∨ (0x30 ≤ k ∧ k ≤ 0x35))

/-! ### Position (R192, R208, R209) -/

def idX (i : Nat) : Nat := fld 3 0 i
def idY (i : Nat) : Nat := fld 7 4 i
def idZ (i : Nat) : Nat := fld 10 8 i
def mkId (x y z : Nat) : Nat := x + 16 * y + 256 * z
/-- Coordinate of an ID on axis 0 X, 1 Y, 2 Z. -/
def idAx (a i : Nat) : Nat := if a = 0 then idX i else if a = 1 then idY i else idZ i
def Chip.torus (c : Chip) : Nat := c.rg (ra pgLrt 0x104)
/-- SX, SY or SZ. -/
def Chip.size (c : Chip) (a : Nat) : Nat :=
  if a = 0 then fld 4 0 c.torus else if a = 1 then fld 12 8 c.torus else fld 19 16 c.torus
def Chip.sliceId (c : Chip) : Nat := fld 7 0 (c.rg (ra pgLrt 0x108))
def Chip.portUp (c : Chip) (p : Nat) : Bool := (c.link p).st == 4
/-- The neighbour that port p reaches. -/
def Chip.neighbour (c : Chip) (p : Nat) : Nat :=
  let a := p / 2
  let s := max 1 (c.size a)
  let k := idAx a c.posId
  let k' := if p % 2 = 0 then (k + 1) % s else (k + s - 1) % s
  if a = 0 then mkId k' (idY c.posId) (idZ c.posId) else if a = 1 then mkId (idX c.posId) k' (idZ c.posId)
  else mkId (idX c.posId) (idY c.posId) k'
def opposite (p : Nat) : Nat := if p % 2 = 0 then p + 1 else p - 1
/-- TORUS_SIZE is set and holds the module's own position (R209). -/
def Chip.torusOk (c : Chip) : Bool :=
  decide (c.size 0 ≤ 16 ∧ c.size 1 ≤ 16 ∧ c.size 2 ≤ 8) && (List.range 3).all (fun a => decide (idAx a c.posId < c.size a))

/-! ### Slice (R210 to R212) -/

def Chip.org (c : Chip) (a : Nat) : Nat :=
  let w := c.rg (ra pgLrt 0x10C)
  if a = 0 then fld 3 0 w else if a = 1 then fld 7 4 w else fld 10 8 w
def Chip.ext (c : Chip) (a : Nat) : Nat :=
  let w := c.rg (ra pgLrt 0x110)
  if a = 0 then fld 4 0 w else if a = 1 then fld 12 8 w else fld 19 16 w
def Chip.ry (c : Chip) : Nat := fld 4 0 (c.rg (ra pgLrt 0x114))
/-- An ID lies in the slice box. -/
def Chip.inBox (c : Chip) (i : Nat) : Bool :=
  (List.range 3).all (fun a => decide (c.org a ≤ idAx a i ∧ idAx a i < c.org a + c.ext a))
/-- The conditions of R210. -/
def Chip.sliceOk (c : Chip) : Bool :=
  (List.range 3).all (fun a => decide (c.org a + c.ext a ≤ c.size a ∧ 0 < c.ext a)) &&
  decide (0 < c.ry) && decide (c.ext 1 % c.ry = 0) &&
  decide (2 ≤ c.ext 0 * c.ry ∧ c.ext 0 * c.ry ≤ 256) && c.inBox c.posId

/-! ### Multicast groups (R282 to R285) -/

def Chip.grp (c : Chip) (g : Nat) : Nat := if g < 256 then c.rg64 (ra pgLrt (0x800 + 8 * g)) else 0
def gvX (g : Nat) : Nat := fld 3 0 g
def gvY (g : Nat) : Nat := fld 7 4 g
def gvZ (g : Nat) : Nat := fld 10 8 g
def gvOk (g : Nat) : Bool := bit 11 g
def gvNX (g : Nat) : Nat := fld 15 12 g
def gvNY (g : Nat) : Nat := fld 19 16 g
def gvNZ (g : Nat) : Nat := fld 22 20 g
def gvSnake (g : Nat) : Bool := bit 23 g
def gvDX (g : Nat) : Nat := fld 27 24 g + 1
def gvDY (g : Nat) : Nat := fld 31 28 g + 1
def gvDZ (g : Nat) : Nat := fld 34 32 g + 1
def gvPermit (g : Nat) : Nat := fld 42 35 g
def gvFirst (g : Nat) : Nat := fld 50 43 g
def gvLast (g : Nat) : Nat := fld 58 51 g
def gvCount (g : Nat) : Nat := gvLast g - gvFirst g + 1
/-- ID of the point of index j. -/
def gvPoint (g j : Nat) : Nat :=
  let w := gvNX g + 1
  let b := j / w % (gvNY g + 1)
  let a' := j % w
  let a := if gvSnake g && b % 2 == 1 then gvNX g - a' else a'
  mkId (gvX g + a * gvDX g) (gvY g + b * gvDY g) (gvZ g + j / (w * (gvNY g + 1)) * gvDZ g)
/-- Module of rank r. -/
def gvRank (g r : Nat) : Nat := gvPoint g (gvFirst g + r)
/-- Rank of a module. -/
def gvRankOf (g i : Nat) : Option Nat := (List.range (gvCount g)).find? (fun r => gvRank g r == i)
/-- The checks of R284, which name the last point of each axis and no reserved bit. -/
def Chip.grpBad (c : Chip) (gi : Nat) : Bool :=
  let g := c.grp gi
  let last (a : Nat) : Nat := if a = 0 then gvX g + gvNX g * gvDX g else if a = 1 then gvY g + gvNY g * gvDY g
    else gvZ g + gvNZ g * gvDZ g
  decide (256 ≤ gi) || !gvOk g || decide (gvLast g < gvFirst g + 1 ∨ 255 < gvLast g - gvFirst g) ||
  decide ((gvNX g + 1) * (gvNY g + 1) * (gvNZ g + 1) ≤ gvLast g) ||
  (List.range 3).any (fun a => decide (last a < c.org a ∨ c.org a + c.ext a ≤ last a)) ||
  gvPermit g != c.sliceId || (gvRankOf g c.posId).isNone

/-- Ports that a multicast packet goes on to, and whether it is delivered here; input 6 is local. -/
def Chip.mcPorts (c : Chip) (g inp : Nat) : List Nat × Bool :=
  let x := idX c.posId
  let y := idY c.posId
  let z := idZ c.posId
  ((if [6, 1].contains inp && decide (x < gvX g + gvNX g * gvDX g) then [0] else []) ++
   (if [6, 0].contains inp && decide (gvX g < x) then [1] else []) ++
   (if [6, 1, 0, 3].contains inp && decide (y < gvY g + gvNY g * gvDY g) then [2] else []) ++
   (if [6, 1, 0, 2].contains inp && decide (gvY g < y) then [3] else []) ++
   (if inp != 4 && decide (z < gvZ g + gvNZ g * gvDZ g) then [4] else []) ++
   (if inp != 5 && decide (gvZ g < z) then [5] else []),
   inp != 6 && (gvRankOf g c.posId).isSome)

/-! ### Unicast routing (R213 to R217) -/

/-- Word k of entry e of the active routing bank. -/
def Chip.rtW (c : Chip) (e k : Nat) : Nat := (Tab.get (fun _ => 0#32) c.rtActive (4 * e + k)).toNat

/-- Default routing: 7 where the IDs do not differ. -/
def Chip.dimOrder (c : Chip) (dest : Nat) : Nat :=
  match (List.range 3).find? (fun a => idAx a dest != idAx a c.posId) with
  | none => 7
  | some a =>
    let s := max 1 (c.size a)
    let d := (idAx a dest + s - idAx a c.posId % s) % s
    let p := if 2 * d ≤ s then 2 * a else 2 * a + 1
    if c.portUp p then p else opposite p

/-- A port field of a routing entry: the reserved code 6 names no port (R213). -/
def entryPort (n : Nat) : Nat := if n < 6 then n else 7
/-- Slice permitted on the way to `dest`, and the egress: 6 local, 7 none. -/
def Chip.egress (c : Chip) (dest cls : Nat) : Nat × Nat :=
  if dest = c.posId then (c.sliceId, 6)
  else
    let e := c.rtW dest 0
    if bit 0 e then
      let o := entryPort (fld (3 * cls + 3) (3 * cls + 1) e)
      (fld 23 16 e, if o = 7 || !c.portUp o then entryPort (fld 12 10 e) else o)
    else (c.sliceId, c.dimOrder dest)

/-- VC of a packet that leaves by `out`, having come by input `inp` on VC v (R201). -/
def Chip.outVc (c : Chip) (inp v out : Nat) : Nat :=
  let a := out / 2
  let k := idAx a c.posId
  let base := if inp < 6 ∧ inp / 2 = a then v else 0
  if (out % 2 = 0 ∧ k + 1 = c.size a) ∨ (out % 2 = 1 ∧ k = 0) then 1 else base

/-- A packet dropped for its slice (R215) or for want of a route (R217). -/
def dropSlice (slice dest : Nat) (c : Chip) : Chip :=
  logErr { cls := 2, scope := 3, cause := 10, page := pgLrt, scopeId := slice, d0 := dest } (c.bumpRg (ra pgLrt 0x130) 1)
def dropRoute (dest : Nat) (c : Chip) : Chip := ucSlice pgLrt 11 dest 0 0 (c.bumpRg (ra pgLrt 0x134) 1)

/-- The routing decision for a packet header (R214, R285), with its drops logged. -/
def routePkt (p : Packet) (inp : Nat) (c : Chip) : Chip × Route :=
  if p.mcast then
    let g := c.grp p.dest
    if !gvOk g || p.slice != gvPermit g then
      (dropSlice p.slice p.dest c, .drop)
    else
      let r := c.mcPorts g inp
      (c, .many r.1 r.2)
  else
    let r := c.egress p.dest p.cls
    if inp != 6 && p.slice != r.1 then (dropSlice p.slice p.dest c, .drop)
    else if r.2 = 6 then (c, .deliver)
    else if decide (r.2 < 6) && c.portUp r.2 then (c, .port r.2)
    else (dropRoute p.dest c, .drop)

/-- The payloads of a packet's flits (R203). -/
def flitsOf (l : List Byte) : List (List Byte) :=
  (List.range ((l.length + 241) / 242)).map (fun i => (l.drop (242 * i)).take 242)
/-- Queue a packet for an egress port, on the channel that it leaves on. -/
def enqueue (port : Nat) (q : QPkt) (c : Chip) : Chip :=
  let l := c.link port
  c.setLink port { l with queue := l.queue ++ [{ q with vc := c.outVc q.inp q.vin port }] }
/-- Queue the copies of a packet that go on to other modules; one for a port that is not UP is dropped (R285). -/
def spread (q : QPkt) (dest : Nat) (r : Route) (c : Chip) : Chip :=
  match r with
  | .drop | .deliver => c
  | .port o => enqueue o q c
  | .many ports _ => forEach ports (fun o k => if k.portUp o then enqueue o q k else dropRoute dest k) c
/-- A copy of the packet is for this module. -/
def Route.here : Route → Bool
  | .deliver => true | .many _ dl => dl | .drop | .port _ => false

/-- A packet for this module arrives whole (R204): a reserved kind or header bit discards it. -/
def deliver (p : Packet) (inp : Nat) (c : Chip) : Chip :=
  if p.rsvd || !knownKind p.kind then ucSlice (if inp < 6 then pgPort inp else pgLrt) 12 p.kind p.src 0 c
  else { c with delivered := c.delivered ++ [p] }

/-- Originate a packet (R215): the LRT stamps SLICE and SRC. -/
def sendPkt (p : Packet) (c : Chip) : Chip :=
  let p' := { p with slice := c.sliceId, src := c.posId }
  let r := routePkt p' 6 c
  let q : QPkt := { cls := p.cls, due := p.due, ord := c.pktOrd, flits := flitsOf (ptBytes p') }
  let c1 := spread q p.dest r.2 { r.1 with pktOrd := c.pktOrd + 1 }
  if r.2.here then deliver p' 6 c1 else c1

/-! ### Packets as they arrive (R200, R214, R286) -/

/-- Flits of a packet that every copy of it bound for another module has sent: those that left the receive buffer. A
flit for this module leaves it as it arrives (DESIGN CHOICE, log 24: the rules do not say when the destination takes it,
and a packet may be longer than its buffer). -/
def Chip.gone (c : Chip) (b : RxBuf) : Nat :=
  (List.range 6).foldl (fun m p =>
    let l := c.link p
    if l.queue.any (fun q => q.ord == b.ord) then 0
    else match l.cur.findSome? (fun e => e.bind (fun x => if x.1.ord = b.ord then some x.2 else none)) with
      | some k => min m k
      | none => m) b.came
/-- Give back the space of flits that have left, as credits of their pairs (R196, R200). -/
def freeBufs (c : Chip) : Chip :=
  forEach (List.range 6) (fun n k =>
    let l := k.link n
    if l.bufs = [] then k
    else
      let bs := l.bufs.map (fun b => (b, k.gone b))
      k.setLink n { l with
        freed := bs.foldl (fun f e => setAt f e.1.pair ((f.getD e.1.pair 0 + (e.2 - e.1.left)) % 1024)) l.freed
        bufs := (bs.map (fun e => { e.1 with left := e.2 })).filter (fun b => !(b.whole && b.left == b.came)) }) c

/-- Change every copy of a packet that has not wholly arrived. -/
def editCopies (ord : Nat) (f : QPkt → QPkt) (c : Chip) : Chip :=
  let g (q : QPkt) : QPkt := if q.ord = ord ∧ q.whole = false then f q else q
  forEach (List.range 6) (fun n k =>
    let l := k.link n
    k.setLink n { l with queue := l.queue.map g, cur := l.cur.map (fun e => e.map (fun x => (g x.1, x.2))) }) c
/-- The next flit of a packet joins its copies. -/
def addFlit (ord : Nat) (d : List Byte) (fin : Bool) (c : Chip) : Chip :=
  editCopies ord (fun q => { q with flits := q.flits ++ [d], whole := fin }) c
/-- A packet of which no further flit will come ends where it is: a copy that has sent all it has is over, the rest goes
on as it stands and its destination finds LEN wrong (DESIGN CHOICE, log 24: the rules do not say). -/
def closePkt (ord : Nat) (c : Chip) : Chip :=
  let c1 := editCopies ord (fun q => { q with whole := true }) c
  freeBufs (forEach (List.range 6) (fun n k =>
    let l := k.link n
    k.setLink n { l with
      queue := l.queue.filter (fun q => q.flits != [])
      cur := l.cur.map (fun e => e.bind (fun x => if x.1.ord = ord ∧ x.1.flits.length ≤ x.2 then none else some x))
      bufs := l.bufs.map (fun b => if b.ord = ord then { b with whole := true } else b) }) c1)
/-- Packets that were arriving on a port come to no end. -/
def closeRx (n : Nat) (c : Chip) : Chip :=
  ((c.link n).rx.filterMap id).foldl (fun k x => closePkt x.ord k) c

/-- A message command takes its packet out of the delivered ones, where it waits there. -/
def takePkt (p : Packet) (c : Chip) : Chip := { c with delivered := c.delivered.erase p }

end Sys2Proof.Machine
end

