-- ==== Sys2Proof/Machine/Memory.lean ====
section
/-! DEFINITION. The Tensor Address Space and what lies beneath it (R312 to R320, R343, R344): translation
through the granule map, reads and writes with the MTM's rules, frame records, and the pools. -/

namespace Sys2Proof.Machine

/-! ### Area registers (R341) -/

def mtmReg (off : Nat) : Nat := ra pgMtm off
def Chip.mtmCtl (c : Chip) : Nat := c.rg (mtmReg 0x100)
def Chip.poolEn (c : Chip) : Bool := bit 0 c.mtmCtl
def Chip.frameBase (c : Chip) : Nat := c.rg64 (mtmReg 0x104)
def Chip.frameCount (c : Chip) : Nat := c.rg (mtmReg 0x10C)
def Chip.unitBase (c : Chip) : Nat := c.rg64 (mtmReg 0x110)
def Chip.unitCount (c : Chip) : Nat := c.rg (mtmReg 0x118)
def Chip.rec0 (c : Chip) : Nat := c.rg64 (mtmReg 0x11C)
def Chip.mapTab (c : Chip) : Nat := c.rg64 (mtmReg 0x124)
def Chip.granules (c : Chip) : Nat := c.rg (mtmReg 0x12C)
def Chip.shelfBase (c : Chip) : Nat := c.rg64 (mtmReg 0x130)
def Chip.shelfCount (c : Chip) : Nat := c.rg (mtmReg 0x138)
def Chip.regionBase (c : Chip) : Nat := c.rg64 (mtmReg 0x13C)
def Chip.loanArea (c : Chip) : Nat := c.rg64 (mtmReg 0x1C0)
def Chip.loanMax (c : Chip) : Nat := c.rg (mtmReg 0x1C8)
def Chip.spare (c : Chip) : Nat := fld 19 16 (c.rg (mtmReg 0x194))

/-- Size of a frame and of its payload (R315). -/
def frameSize : Nat := 0x41000
def payloadSize : Nat := 0x40000

/-- Record of a frame of a tier (R315). -/
def Chip.recAddr (c : Chip) (tier idx : Nat) : Nat :=
  match tier with
  | 0 => c.rec0 + 16 * idx
  | 1 => c.loanArea + (fld 29 26 idx * c.loanMax + fld 25 0 idx) * 16
  | _ =>
    let s := fld 29 27 idx
    c.rg64 (bank (s % 4) (pgCxl (s / 4)) 0x120) + 16 * fld 26 0 idx

/-- Address of T0 frame `idx`. -/
def Chip.frameAddr (c : Chip) (idx : Nat) : Nat := c.frameBase + idx * frameSize

/-- Key of a byte of a lower-tier frame. -/
def lowKey (tier idx off : Nat) : Nat := (tier * 2 ^ 30 + idx) * frameSize + off

/-- Words of a frame record (R316): KIND 0 FREE, 1 RESERVE, 2 KV, 3 GRANULE, 4 QUARANTINE, 5 FILLING,
6 BAD, 7 LENT. -/
def Chip.recKind (c : Chip) (tier idx : Nat) : Nat := fld 3 0 (c.le (c.recAddr tier idx) 4)
def Chip.recW (c : Chip) (tier idx k : Nat) : Nat := c.le (c.recAddr tier idx + 4 * k) 4
def Chip.setRecW (c : Chip) (tier idx k v : Nat) : Chip := c.storeLe (c.recAddr tier idx + 4 * k) 4 v
/-- Write a whole record. -/
def Chip.setRec (c : Chip) (tier idx kind flags acct refcnt owner link : Nat) : Chip :=
  c.store (c.recAddr tier idx)
    (leBytes 4 (kind + 16 * flags + 2 ^ 9 * acct + 2 ^ 16 * refcnt) ++ leBytes 4 c.beat ++
     leBytes 4 owner ++ leBytes 4 link)
/-- A free record is all zero. -/
def Chip.freeRec (c : Chip) (tier idx : Nat) : Chip := c.zero (c.recAddr tier idx) 16
/-- Set the current beat as a frame's LAST_USE (R320). -/
def Chip.touch (c : Chip) (tier idx : Nat) : Chip := c.setRecW tier idx 1 (c.beat % 2 ^ 32)

/-- Smallest number not in a rising list. -/
def firstGap : Nat → List Nat → Nat
  | k, [] => k
  | k, x :: t => if x = k then firstGap (k + 1) t else if x < k then firstGap k t else k

/-- Indices of an area's 16-byte records whose KIND is not FREE, rising. -/
def Chip.usedRecs (c : Chip) (base count : Nat) : List Nat :=
  c.mem.filterMap (fun e =>
    if base ≤ e.1 ∧ e.1 < base + 16 * count ∧ (e.1 - base) % 16 = 0 ∧ e.2.toNat % 16 ≠ 0
    then some ((e.1 - base) / 16) else none)

/-- T0 frames open to ordinary allocation: the topmost REFETCH_CFG.SPARE frames are held back (R339,
log 14). -/
def Chip.openFrames (c : Chip) : Nat := c.frameCount - min c.spare c.frameCount
/-- POOL_FREE: free frames of the pool. -/
def Chip.poolFree (c : Chip) : Nat :=
  if c.poolEn then c.openFrames - ((c.usedRecs c.rec0 c.frameCount).countP (fun i => decide (i < c.openFrames))) else 0
/-- The lowest-indexed free T0 frame (R319). -/
def Chip.freeFrame (c : Chip) : Option Nat :=
  if c.poolEn then
    let k := firstGap 0 (c.usedRecs c.rec0 c.frameCount)
    if k < c.openFrames then some k else none
  else none
/-- A spare frame for a refetch (R339). -/
def Chip.spareFrame (c : Chip) : Option Nat :=
  if c.poolEn then
    let k := firstGap c.openFrames (c.usedRecs c.rec0 c.frameCount)
    if k < c.frameCount then some k else none
  else none
/-- The lowest-indexed free 4 KiB unit (R319). -/
def insertAsc (x : Nat) : List Nat → List Nat
  | [] => [x]
  | y :: t => if x < y then x :: y :: t else if x = y then y :: t else y :: insertAsc x t
def Chip.unitFree (c : Chip) : Nat := if c.poolEn then c.unitCount - c.mtm.units.length else 0
def Chip.takeUnit (c : Chip) : Option (Nat × Chip) :=
  let k := firstGap 0 c.mtm.units
  if c.poolEn && decide (k < c.unitCount) then
    some (k, { c with mtm := { c.mtm with units := insertAsc k c.mtm.units } })
  else none
def Chip.dropUnit (c : Chip) (k : Nat) : Chip :=
  { c with mtm := { c.mtm with units := c.mtm.units.filter (· != k) } }
def Chip.takeShelf (c : Chip) : Option (Nat × Chip) :=
  let k := firstGap 0 c.mtm.shelf
  if k < c.shelfCount then some (k, { c with mtm := { c.mtm with shelf := insertAsc k c.mtm.shelf } }) else none
def Chip.dropShelf (c : Chip) (k : Nat) : Chip :=
  { c with mtm := { c.mtm with shelf := c.mtm.shelf.filter (· != k) } }

/-- Below the low water mark the MTM raises IRQ_STS bit 0, once per passage (R321, R341). -/
def noteLow (c : Chip) : Chip :=
  let low := decide (c.poolFree < fld 15 0 (c.rg (mtmReg 0x150)) * 64)
  if low && !c.mtm.lowSeen then irq pgMtm 0 { c with mtm := { c.mtm with lowSeen := true } }
  else { c with mtm := { c.mtm with lowSeen := low } }

/-- Take the lowest free frame, zeroed, with a record (R142, R314, R319). -/
def takeFrame (kind acct owner : Nat) (c : Chip) : Option (Nat × Chip) :=
  c.freeFrame.map (fun k =>
    (k, noteLow ((c.zero (c.frameAddr k) frameSize).setRec 0 k kind 0 acct 0 owner 0)))

/-! ### The granule map (R313) -/

def Chip.mapW (c : Chip) (g k : Nat) : Nat := c.le (c.mapTab + 16 * g + 8 * k) 8
def Chip.setMapW (c : Chip) (g k v : Nat) : Chip := c.storeLe (c.mapTab + 16 * g + 8 * k) 8 v
def gFrame (w : Nat) : Nat := fld 29 0 w
def gTier (w : Nat) : Nat := fld 32 30 w
def gValid (w : Nat) : Bool := bit 33 w
def gRo (w : Nat) : Bool := bit 34 w
def gPoison (w : Nat) : Bool := bit 35 w
def gPinned (w : Nat) : Bool := bit 36 w
def gMoving (w : Nat) : Bool := bit 37 w
def gRegion (w : Nat) : Nat := fld 42 38 w
def hFrame (w : Nat) : Nat := fld 29 0 w
def hTier (w : Nat) : Nat := fld 32 30 w
def hCopy2 (w : Nat) : Bool := bit 33 w
def hCopy2Frame (w : Nat) : Nat := fld 63 34 w

/-- An entry with a reserved tier, region or bit set: it serves nothing (R4, R313; DEDUCED, log 28: the access error of
R312 is the one of an entry without a frame). -/
def gReserved (w : Nat) : Bool := decide (2 < gTier w) || gRegion w == 31 || fld 63 43 w != 0

/-- A frame of a lower tier can be read: its loan or slot has not gone (R328, R337). -/
def Chip.lowAlive (c : Chip) (tier idx : Nat) : Bool :=
  if tier = 1 then let l := c.loan (fld 29 26 idx); l.st == 2 || l.st == 3
  else let s := c.t2s (fld 29 27 idx); s.st == 2 || s.st == 3

/-- Where a byte of the TAS lies. -/
inductive Place where
  | mem (a : Nat)
  | low (tier idx off : Nat)
  /-- Reads wait: the granule is poisoned (R339). -/
  | held (g : Nat)
  | bad
  deriving DecidableEq, Repr

/-- Translate one address for a read (R312, R313, R343, R344). -/
def Chip.place (c : Chip) (a : Nat) : Place :=
  if a < t0Size then .mem a
  else if 0x400000000000 ≤ a ∧ a < 0x800000000000 then
    let g := (a - 0x400000000000) / payloadSize
    let o := a % payloadSize
    if c.granules ≤ g then .bad else
    let w := c.mapW g 0
    if !gValid w || gReserved w then .bad
    else if gPoison w then .held g
    else if gTier w = 0 then .mem (c.frameAddr (gFrame w) + o)
    else .low (gTier w) (gFrame w) o
  else if 0x800000000000 ≤ a ∧ a < 0x800030000000 then
    if (a - 0x800000000000) % 0x400000 < 0x200000 then .mem a else .bad
  else if 0x810000000000 ≤ a ∧ a < 0x810018000000 then
    if (a - 0x810000000000) % 0x1000000 < 0x800000 then .mem a else .bad
  else .bad

/-- One byte of a frame of any tier: stored bytes of the lower tiers are those the module filled (log 4). -/
def Chip.frameByte (c : Chip) (tier idx off : Nat) : Byte :=
  if tier = 0 then c.byteAt (c.frameAddr idx + off) else Tab.get (fun _ => 0#8) c.lower (lowKey tier idx off)
def Chip.frameBytes (c : Chip) (tier idx off n : Nat) : List Byte :=
  (List.range n).map (fun i => c.frameByte tier idx (off + i))
/-- An uncorrectable error lies in a range of a frame, or its tier is gone. -/
def Chip.frameBad (c : Chip) (tier idx off n : Nat) : Bool :=
  if tier = 0 then (c.poisonIn (c.frameAddr idx + off) n).isSome
  else !c.lowAlive tier idx ||
    c.lowPoison.any (fun e => decide (lowKey tier idx off / 8 ≤ e.1 ∧ e.1 ≤ (lowKey tier idx off + n - 1) / 8))
/-- Fill part of a lower-tier frame. -/
def Chip.fillLow (c : Chip) (tier idx off : Nat) (l : List Byte) : Chip :=
  { c with
    lower := Tab.setList (fun _ => 0#8) c.lower (lowKey tier idx off) l
    lowPoison := Tab.clear (lowKey tier idx off / 8) (ceilDiv (lowKey tier idx off + l.length) 8) c.lowPoison }

/-- What a read answers. -/
inductive RdAns where
  | ok (l : List Byte)
  | access
  | poison (a : Nat)
  | wait (g : Nat)
  deriving DecidableEq, Repr

/-- Read n bytes of the TAS: the whole read fails on its first bad byte. Pure: the effects of a read are
`noteRead` and `badAddr`. -/
def Chip.tasRead (c : Chip) (a n : Nat) : RdAns :=
  let ps := (List.range n).map (fun i => (a + i, c.place (a + i)))
  match ps.find? (fun p => p.2 == .bad) with
  | some _ => .access
  | none =>
    match ps.findSome? (fun p => match p.2 with | .held g => some g | _ => none) with
    | some g => .wait g
    | none =>
      match ps.find? (fun p => match p.2 with
        | .mem x => (c.poisonIn x 1).isSome
        | .low t i o => c.frameBad t i o 1
        | _ => false) with
      | some p => .poison p.1
      | none => .ok (ps.map (fun p => match p.2 with
          | .mem x => c.byteAt x
          | .low t i o => c.frameByte t i o
          | _ => 0#8))

/-- Granules that a range of the TAS touches. -/
def granulesOf (a n : Nat) : List Nat :=
  if 0x400000000000 ≤ a ∧ a < 0x800000000000 ∧ n ≠ 0 then
    let g0 := (a - 0x400000000000) / payloadSize
    (List.range ((a - 0x400000000000 + n - 1) / payloadSize - g0 + 1)).map (g0 + ·)
  else []

/-- A read sets LAST_USE of the granule frames it touches (R320). -/
def noteRead (a n : Nat) (c : Chip) : Chip :=
  forEach (granulesOf a n) (fun g k =>
    let w := k.mapW g 0
    if g < k.granules ∧ gValid w = true then k.touch (gTier w) (gFrame w) else k) c

/-- A bad address: access error to the requester, UC scoped to the operation at the MTM (R312, R344). -/
def badAddr (a : Nat) (c : Chip) : Chip := addrErr (ucOp pgMtm 9 0) a c

/-- A protected write is dropped and logged (R156, R316, R317). -/
def protectedWrite (a : Nat) (c : Chip) : Chip := addrErr (ucOp pgMtm 8 0) a c

/-- Areas a DMA write may not touch (R316): record areas, valid map entries, the shelf and the loan area,
sealed KV frames (R156), and the T0 frames of RO granules (R340). -/
def Chip.guarded (c : Chip) (a : Nat) : Bool :=
  let inR (b n : Nat) : Bool := decide (b ≤ a ∧ a < b + n)
  let fi := (a - c.frameBase) / frameSize
  (c.poolEn && (
    inR c.rec0 (16 * c.frameCount) ||
    inR c.shelfBase (2112 * c.shelfCount) ||
    (inR c.frameBase (frameSize * c.frameCount) && (((c.recKind 0 fi == 2 || c.recKind 0 fi == 4) &&
      bit 16 (c.le (c.frameAddr fi + payloadSize + 0x10) 4)) ||
      (c.recKind 0 fi == 3 && (let w := c.mapW (fld 27 0 (c.recW 0 fi 2)) 0; gValid w && gRo w && gTier w == 0 && gFrame w == fi)))))) ||
  (inR c.mapTab (16 * c.granules) && gValid (c.mapW ((a - c.mapTab) / 16) 0)) ||
  inR c.loanArea (32 * c.loanMax * 16) && decide (c.loanArea ≠ 0) ||
  (List.range 8).any (fun s =>
    let t := c.t2s s
    (t.st == 2 || t.st == 3) && inR (c.rg64 (bank (s % 4) (pgCxl (s / 4)) 0x120)) (16 * t.frames))

/-- The first write to an invalid granule takes a zeroed T0 frame, charged to its REGION (R314). -/
def granuleFirst (g : Nat) (c : Chip) : Option Chip :=
  let w := c.mapW g 0
  (takeFrame 3 (gRegion w) g c).map (fun x =>
    x.2.setMapW g 0 (x.1 + 2 ^ 33 + fld 63 36 w * 2 ^ 36))

/-- One part of a write, within one granule or outside the mapped region: new chip and status of R361. -/
def writePart (a : Nat) (l : List Byte) (c : Chip) : Chip × Nat :=
  if 0x400000000000 ≤ a ∧ a < 0x800000000000 then
    let g := (a - 0x400000000000) / payloadSize
    if c.granules ≤ g then (badAddr a c, 1) else
    let w := c.mapW g 0
    if gReserved w then (badAddr a c, 1)
    else if gValid w then
      if gRo w || gTier w != 0 then (protectedWrite a c, 3)
      else (c.store (c.frameAddr (gFrame w) + a % payloadSize) l, 0)
    else
      match granuleFirst g c with
      | some c1 => (c1.store (c1.frameAddr (gFrame (c1.mapW g 0)) + a % payloadSize) l, 0)
      | none => (badAddr a c, 1)
  else
    match c.place a with
    | .mem x =>
      if (List.range l.length).any (fun i => c.guarded (x + i)) then (protectedWrite a c, 3) else (c.store x l, 0)
    | _ => (badAddr a c, 1)

/-- Cut a write at granule borders. -/
def writeParts : Nat → Nat → List Byte → Chip → Chip × Nat
  | 0, _, _, c => (c, 0)
  | f + 1, a, l, c =>
    if l = [] then (c, 0) else
    let n := payloadSize - a % payloadSize
    let r := writePart a (l.take n) c
    if r.2 ≠ 0 then r else writeParts f (a + n) (l.drop n) r.1

/-- An extent lies within one part of the TAS that exists (R312, R343). -/
def Chip.extentOk (c : Chip) (a n : Nat) : Bool :=
  if a < 0x400000000000 then decide (a + n ≤ t0Size)
  else if a < 0x800000000000 then decide (a + n ≤ 0x400000000000 + c.granules * payloadSize)
  else if a < 0x810000000000 then
    decide (a < 0x800030000000 ∧ (a - 0x800000000000) % 0x400000 + n ≤ 0x200000)
  else decide (a < 0x810018000000 ∧ (a - 0x810000000000) % 0x1000000 + n ≤ 0x800000)

/-- A write by a DMA, a queue entry or an engine (R314, R316, R317, R362): the whole extent must exist. -/
def tasWrite (a : Nat) (l : List Byte) (c : Chip) : Chip × Nat :=
  if l = [] then (c, 0)
  else if !c.extentOk a l.length then (badAddr a c, 1)
  else writeParts (l.length / payloadSize + 2) a l c

/-- A read by an engine with its effects: bytes, or none after an access error or poison is dealt with by
the caller. -/
def tasFetch (a n : Nat) (c : Chip) : Chip × RdAns :=
  match c.tasRead a n with
  | .ok l => (noteRead a n c, .ok l)
  | .access => (badAddr a c, .access)
  | r => (c, r)

end Sys2Proof.Machine
end

