-- ==== Sys2Proof/Machine/Sfu.lean ====
section
/-! DEFINITION. Special functions (R121 to R127), the table image and its load checks (R129 to R131), the
Welford and softmax merges (R134, R135), and rounded quotients. -/

namespace Sys2Proof.Machine

/-- Round the quotient a / b x 2^e once to `prec` bits: mantissa and exponent. -/
def roundQuot (prec : Nat) (a b : Nat) (e : Int) : Nat × Int :=
  if b = 0 ∨ a = 0 then (0, 0) else
  let sh := prec + 8 + Nat.log2 b
  let q := (a <<< sh) / b
  let m := 2 * q + (if (a <<< sh) % b = 0 then 0 else 1)
  rneGrid prec (-100000) m (e - sh - 1)

/-- RNE of the quotient of two non-negative dyadic numbers to binary32. -/
def divF32 (ma : Nat) (ea : Int) (mb : Nat) (eb : Int) : F32 :=
  if mb = 0 then fInf else
  let sh := 80 + Nat.log2 mb
  let q := (ma <<< sh) / mb
  roundF32 false (2 * q + (if (ma <<< sh) % mb = 0 then 0 else 1)) (ea - eb - sh - 1)

/-- No special function returns a subnormal (R121). -/
def flushSub (a : F32) : F32 := if a.toNat % 2 ^ 31 < 2 ^ 23 then withSign (isNegBit a) 0 else a

/-- Offsets of the functions' segments in a bank, in image order (R129). -/
def segExp2 : Nat := 0
def segLog2 : Nat := 32
def segRcp : Nat := 96
def segRsqrt : Nat := 160
def segTanh : Nat := 224
def segGelu : Nat := 304
def segSilu : Nat := 560
def segSoftplus : Nat := 816
def segSin : Nat := 1136
def segCos : Nat := 1168
def segTotal : Nat := 1200

def Bank.seg (b : Bank) (k : Nat) : Seg := b.segs.getD k {}

/-- Steps 4 and 5 of R121: the cubic and the clamp. -/
def segEval (s : Seg) (t : F32) : F32 :=
  let y := fAdd (fMul (fAdd (fMul (fAdd (fMul s.c3 t) s.c2) t) s.c1) t) s.c0
  fMin (fMax y s.lo) s.hi

/-- Segment width w = 2^(-k) from left end s0 (in units of w): index and t for the exact m x 2^e. -/
def segAt (k : Nat) (s0 : Int) (neg : Bool) (m : Nat) (e : Int) : Nat × F32 :=
  let j := floorDy neg m (e + k)
  let t := nAdd (.fin neg m e) (.fin (decide (0 < j)) j.natAbs (-(k : Int)))
  ((j - s0).toNat, encNum t)

/-- y x 2^n, rounded once, subnormals flushed. -/
def rescale (y : F32) (neg : Bool) (n : Int) : F32 :=
  match num y with
  | .fin s m e => flushSub (roundF32 (s != neg) m (e + n))
  | .inf s => withSign (s != neg) 0x7F800000
  | .nan => fNaN

def sfExp2 (b : Bank) (x : F32) : F32 :=
  match num x with
  | .nan => fNaN
  | .inf neg => if neg then fZero else fInf
  | .fin neg m e =>
    if fLe 0x43000000#32 x then fInf
    else if fLt x 0xC2FC0000#32 then fZero
    else
      let n := floorDy neg m e
      let (j, t) :=
        match nAdd (.fin neg m e) (.fin (decide (0 < n)) n.natAbs 0) with
        | .fin rn rm re => segAt 5 0 rn rm re
        | _ => (0, fZero)
      rescale (segEval (b.seg (segExp2 + min j 31)) t) false n

/-- |x| = 2^e x r with r in [1, 2): r as mantissa and exponent. -/
def normDy (m : Nat) (e : Int) : Int × Nat × Int := (e + Nat.log2 m, m, -(Nat.log2 m : Int))

def sfLog2 (b : Bank) (x : F32) : F32 :=
  match num x with
  | .nan => fNaN
  | .inf neg => if neg then fNaN else fInf
  | .fin neg m e =>
    if m = 0 then fNegInf else if neg then fNaN else if x = fOne then fZero else
    let (k, rm, re) := normDy m e
    let (j, t) := segAt 6 64 false rm re
    let y := segEval (b.seg (segLog2 + min j 63)) t
    flushSub (encNum (nAdd (.fin (decide (k < 0)) k.natAbs 0) (num y)))

def sfRcp (b : Bank) (x : F32) : F32 :=
  match num x with
  | .nan => fNaN
  | .inf neg => withSign neg 0
  | .fin neg m e =>
    if m = 0 then withSign neg 0x7F800000 else
    let (k, rm, re) := normDy m e
    let (j, t) := segAt 6 64 false rm re
    rescale (segEval (b.seg (segRcp + min j 63)) t) neg (-k)

def sfRsqrt (b : Bank) (x : F32) : F32 :=
  match num x with
  | .nan => fNaN
  | .inf neg => if neg then fNaN else fZero
  | .fin neg m e =>
    if m = 0 then withSign neg 0x7F800000 else if neg then fNaN else
    let k := (e + Nat.log2 m).fdiv 2
    let re := e - 2 * k
    let two := decide (1 ≤ e + Nat.log2 m - 2 * k)
    let (j, t) := if two then segAt 4 32 false m re else segAt 5 32 false m re
    rescale (segEval (b.seg (segRsqrt + (if two then 32 + min j 31 else min j 31))) t) false (-k)

def sfTanh (b : Bank) (x : F32) : F32 :=
  match num x with
  | .nan => fNaN
  | .inf neg => withSign neg 0x3F800000
  | .fin neg m e =>
    if fLe 0x41200000#32 (fAbs x) then withSign neg 0x3F800000
    else if fLt (fAbs x) 0x39800000#32 then flushSub x
    else
      let (j, t) := segAt 3 0 false m e
      let y := segEval (b.seg (segTanh + j)) t
      let y' := if j = 0 then fMax y 0x39800000#32 else y
      rescale y' neg 0

def sfSigmoid (b : Bank) (x : F32) : F32 :=
  if isNaN x then fNaN
  else if fLe 0x41A00000#32 x then fOne
  else if fLe x 0xC1A00000#32 then fZero
  else flushSub (fMul 0x3F000000#32 (fAdd fOne (sfTanh b (fMul 0x3F000000#32 x))))

/-- GELU and SiLU share their special rules and reduction. -/
def sfLinear (base : Nat) (b : Bank) (x : F32) : F32 :=
  match num x with
  | .nan => fNaN
  | .inf neg => if neg then withSign true 0 else x
  | .fin neg m e =>
    if m = 0 then x
    else if fLe 0x41800000#32 x then x
    else if fLt x 0xC1800000#32 then withSign true 0
    else
      let (j, t) := segAt 3 (-128) neg m e
      flushSub (segEval (b.seg (base + j)) t)

def sfGelu (b : Bank) (x : F32) : F32 := sfLinear segGelu b x
def sfSilu (b : Bank) (x : F32) : F32 := sfLinear segSilu b x

def sfSoftplus (b : Bank) (x : F32) : F32 :=
  match num x with
  | .nan => fNaN
  | .inf neg => if neg then fZero else x
  | .fin neg m e =>
    if fLe 0x41C00000#32 x then x
    else if fLt x 0xC1800000#32 then
      flushSub (fMin (sfExp2 b (fMul x 0x3FB8AA3B#32)) (b.seg segSoftplus).lo)
    else
      let (j, t) := segAt 3 (-128) neg m e
      flushSub (segEval (b.seg (segSoftplus + j)) t)

/-- ReLU (R68). -/
def relu (x : F32) : F32 := if isNaN x then fNaN else if fLt fZero x then x else fZero

/-- The activation of ACT (R68). -/
def actFn (act : Nat) (b : Bank) (x : F32) : F32 :=
  match act with
  | 1 => relu x
  | 2 => sfGelu b x
  | 3 => sfSilu b x
  | 4 => sfSigmoid b x
  | 5 => sfTanh b x
  | 6 => sfSoftplus b x
  | 7 => sfExp2 b x
  | _ => x

/-! ### Rotary frequencies (R125, R126) -/

/-- Working precision of the frequency computation, bits after the point. -/
def fxBits : Nat := 192

/-- ln 2 in fixed point. -/
def fxLn2 : Nat := (List.range 200).foldl (fun s k => s + 2 ^ fxBits / ((k + 1) * 2 ^ (k + 1))) 0

/-- arctan(1/x) in fixed point. -/
def fxAtanInv (x : Nat) : Int :=
  ((List.range 150).foldl (fun (s : Int × Nat) k =>
    let term : Int := (s.2 / (2 * k + 1) : Nat)
    (if k % 2 = 0 then s.1 + term else s.1 - term, s.2 / (x * x))) ((0 : Int), 2 ^ fxBits / x)).1

/-- pi in fixed point (Machin). -/
def fxPi : Nat := (16 * fxAtanInv 5 - 4 * fxAtanInv 239).toNat

/-- 2^f for f = a / 2^fxBits in [0, 1), in fixed point. -/
def fxExp2 (a : Nat) : Nat :=
  let x := a * fxLn2 / 2 ^ fxBits
  ((List.range 60).foldl (fun (s : Nat × Nat) k =>
    let term := s.2 * x / 2 ^ fxBits / (k + 1)
    (s.1 + term, term)) (2 ^ fxBits, 2 ^ fxBits)).1

/-- nu_i of R125 as mantissa x 2^exponent; (0, 0) where every phase is 0. -/
def ropeNu (d i : Nat) (logTheta : F32) : Nat × Int :=
  match num logTheta with
  | .fin neg m e =>
    let (em, ee) := roundQuot 48 (2 * i * m) d e
    let neg' := !neg
    let n := floorDy neg' em ee
    if n < -70 ∨ 52 < n then (0, 0) else
    let f :=
      match nAdd (.fin neg' em ee) (.fin (decide (0 < n)) n.natAbs 0) with
      | .fin _ fm fe => if 0 ≤ fe + fxBits then fm <<< (fe + fxBits).toNat else fm >>> (-(fe + fxBits)).toNat
      | _ => 0
    roundQuot 48 (fxExp2 f) (2 * fxPi) n
  | _ => (0, 0)

/-- The phase of R126: 32 fraction bits of p x nu. -/
def ropePhase (p : Nat) (nu : Nat × Int) : Nat :=
  let v := p * nu.1
  if 0 ≤ nu.2 then 0
  else
    let k := (-nu.2).toNat
    let fr := v % 2 ^ k
    (if k ≤ 32 then fr <<< (32 - k) else rneShift fr (k - 32)) % 2 ^ 32

/-- Sine and cosine of a phase (R126, R127); no table result is subnormal (R121). -/
def ropeSinCos (b : Bank) (phi : Nat) : F32 × F32 :=
  let o := phi / 2 ^ 29
  let u := phi % 2 ^ 29
  let a := if o % 2 = 0 then u else 2 ^ 29 - u
  let j := min (a / 2 ^ 24) 31
  let t := roundF32 false (a - j * 2 ^ 24) (-32)
  let s := flushSub (segEval (b.seg (segSin + j)) t)
  let c := flushSub (segEval (b.seg (segCos + j)) t)
  match o with
  | 0 => (s, c) | 1 => (c, s) | 2 => (c, fNeg s) | 3 => (s, fNeg c)
  | 4 => (fNeg s, fNeg c) | 5 => (fNeg c, fNeg s) | 6 => (fNeg c, s) | _ => (fNeg s, c)

/-! ### Table images -/

/-- Bytes of a table image (R129). -/
def imageSize : Nat := 0x9640

def w32At (l : List Byte) (off : Nat) : W32 :=
  let g (i : Nat) : Nat := (l.getD (off + i) 0#8).toNat
  BitVec.ofNat 32 (g 0 + 256 * g 1 + 65536 * g 2 + 16777216 * g 3)

/-- The segments of an image (R130). -/
def imageSegs (l : List Byte) : List Seg :=
  (List.range segTotal).map (fun k =>
    let e := l.drop (0x40 + 32 * k)
    { c0 := w32At e 0, c1 := w32At e 4, c2 := w32At e 8, c3 := w32At e 12,
      lo := w32At e 16, hi := w32At e 20 })

/-- Direction of a segment: 0 rising, 1 falling, 2 turning (R123). -/
def segDir (k : Nat) : Nat :=
  if k < segRcp then 0
  else if k < segTanh then 1
  else if k < segGelu then 0
  else if k < segSilu then (let j := k - segGelu; if j < 121 then 1 else if j = 121 then 2 else 0)
  else if k < segSoftplus then (let j := k - segSilu; if j < 117 then 1 else if j = 117 then 2 else 0)
  else if k < segCos then 0 else 1

/-- Last segments of the functions: no seam to the next. -/
def segLast (k : Nat) : Bool := [31, 95, 159, 223, 303, 559, 815, 1135, 1167, 1199].contains k

/-- The seam conditions of R131 that segment k fails, with those of its right seam. -/
def seamBad (s : List Seg) (k : Nat) : Bool :=
  let g (i : Nat) : Seg := s.getD i {}
  let a := g k
  let chain :=
    match segDir k with
    | 0 => !segLast k && segDir (k + 1) == 0 && a.hi != (g (k + 1)).lo
    | 1 => !segLast k && segDir (k + 1) == 1 && a.lo != (g (k + 1)).hi
    | _ => a.hi != fMax (g (k - 1)).lo (g (k + 1)).lo || !fLe a.lo (fMin (g (k - 1)).lo (g (k + 1)).lo)
  let ends :=
    if k = 0 then a.lo != fOne
    else if k = 31 then a.hi != 0x40000000#32
    else if k = 32 then a.lo != fZero
    else if k = 95 then a.hi != fOne
    else if k = 96 ∨ k = 160 then a.hi != fOne
    else if k = 159 ∨ k = 223 then a.lo != 0x3F000000#32
    else if k = 224 then a.lo != fZero
    else if k = 303 then !fLe a.hi fOne
    else if k = 304 ∨ k = 560 then a.hi != 0x80000000#32
    else if k = 559 ∨ k = 815 then !fLe a.hi 0x41800000#32
    else if k = 1135 then !fLe a.hi 0x41C00000#32
    else if k = 1136 then a.lo != fZero
    else if k = 1168 then a.hi != fOne
    else if k = 1167 then a.hi != (g 1199).lo
    else false
  chain || ends

/-- Check an image (R131): LOAD_ERR code and SFU_FAULT (byte offset / 32 of the failing entry). -/
def imageCheck (l : List Byte) : Nat × Nat :=
  let g4 (o : Nat) : Nat := (w32At l o).toNat
  let segs := imageSegs l
  if g4 4 ≠ 0x9640 then (1, 0)
  else if g4 8 ≠ crc32 ((l.drop 0xC).take (imageSize - 0xC)) then (2, 0)
  else if ((l.drop 0xC).take 0x34).any (fun b => b != 0#8) then (3, 0)
  else
    match (List.range segTotal).find? (fun k => ((l.drop (0x58 + 32 * k)).take 8).any (fun b => b != 0#8)) with
    | some k => (3, 2 + k)
    | none =>
      match (List.range segTotal).find? (fun k =>
        let s := segs.getD k {}
        !([s.c0, s.c1, s.c2, s.c3, s.lo, s.hi].all isFin) || !fLe s.lo s.hi) with
      | some k => (4, 2 + k)
      | none =>
        match (List.range segTotal).find? (seamBad segs) with
        | some k => (5, 2 + k)
        | none => (0, 0)

/-- The bank an image holds. -/
def imageBank (l : List Byte) : Bank := { id := w32At l 0, segs := imageSegs l }

/-! ### Merges -/

/-- A Welford node (R134). -/
structure Welf where
  n  : Nat := 0
  mu : F32 := 0#32
  m2 : F32 := 0#32
  deriving DecidableEq, Repr

def welfMerge (b : Bank) (x y : Welf) : Welf :=
  if x.n = 0 then y else if y.n = 0 then x else
  let n := (x.n + y.n) % 2 ^ 32
  let wb := fMul (fOfNat y.n) (sfRcp b (fOfNat n))
  let d := fSub y.mu x.mu
  { n := n, mu := fAdd x.mu (fMul d wb),
    m2 := fAdd (fAdd x.m2 y.m2) (fMul (fMul d d) (fMul (fOfNat x.n) wb)) }

/-- A softmax partial (m, l, o) (R135). -/
structure Part where
  m : F32 := 0xFF800000#32
  l : F32 := 0#32
  o : List F32 := []
  deriving DecidableEq, Repr

def softMerge (b : Bank) (x y : Part) : Part :=
  let m := fMax x.m y.m
  let d := max x.o.length y.o.length
  if m = fNegInf then { m := fNegInf, l := fZero, o := List.replicate d fZero } else
  let sa := sfExp2 b (fSub x.m m)
  let sb := sfExp2 b (fSub y.m m)
  { m := m
    l := fAdd (fMul x.l sa) (fMul y.l sb)
    o := (List.range d).map (fun k => fAdd (fMul (x.o.getD k fZero) sa) (fMul (y.o.getD k fZero) sb)) }

end Sys2Proof.Machine
end

