-- ==== Sys2Proof/Machine/Operands.lean ====
section
/-! DEFINITION. Tile operation descriptors and their operands: field map (R67 to R71), address words
(R69), element, scale and metadata layouts (R27, R36, R63, R64, R66) and the extents of stage 4. -/

namespace Sys2Proof.Machine

/-! ### Fields of a TOD (R67) and of the parameter block (R70) -/

def tOp (t : List Nat) : Nat := fld 7 0 (wd t 0)
def tFlag (t : List Nat) (i : Nat) : Bool := bit i (wd t 0)
def tBitmatch (t : List Nat) : Bool := tFlag t 8
def tHist (t : List Nat) : Bool := tFlag t 9
def tTransA (t : List Nat) : Bool := tFlag t 10
def tTransB (t : List Nat) : Bool := tFlag t 11
def tDefer (t : List Nat) : Bool := tFlag t 12
def tReduceSrc (t : List Nat) : Bool := tFlag t 13
def tNoDrain (t : List Nat) : Bool := tFlag t 14
def tPasses (t : List Nat) : Nat := fld 25 24 (wd t 0)
def tSparse (t : List Nat) : Nat := fld 27 26 (wd t 0)
def tAcc (t : List Nat) : Nat := fld 29 28 (wd t 0)
def tFmtA (t : List Nat) : Nat := fld 3 0 (wd t 1)
def tFmtB (t : List Nat) : Nat := fld 7 4 (wd t 1)
def tFmtC (t : List Nat) : Nat := fld 11 8 (wd t 1)
def tFmtOut (t : List Nat) : Nat := fld 15 12 (wd t 1)
def tProvDep (t : List Nat) : Nat := fld 31 24 (wd t 1)
def tM (t : List Nat) : Nat := fld 15 0 (wd t 2)
def tN (t : List Nat) : Nat := fld 31 16 (wd t 2)
def tK (t : List Nat) : Nat := fld 23 0 (wd t 3)
def tAct (t : List Nat) : Nat := fld 28 24 (wd t 3)
def tArrA (t : List Nat) : Nat := fld 27 24 (wd t 5)
def tStage (t : List Nat) : Nat := fld 31 28 (wd t 5)
def tA (t : List Nat) : Nat := wd t 6
def tB (t : List Nat) : Nat := wd t 7
def tC (t : List Nat) : Nat := wd t 8
def tOut (t : List Nat) : Nat := wd t 9
def tALd (t : List Nat) : Nat := 16 * fld 15 0 (wd t 10)
def tBLd (t : List Nat) : Nat := 16 * fld 31 16 (wd t 10)
def tCLd (t : List Nat) : Nat := 16 * fld 15 0 (wd t 11)
def tOutLd (t : List Nat) : Nat := 16 * fld 31 16 (wd t 11)
def tPro (t : List Nat) : Nat := fld 2 0 (wd t 12)
def tDscale (t : List Nat) : Bool := bit 0 (wd t 12)
def tNorm (t : List Nat) : Bool := bit 1 (wd t 12)
def tRope (t : List Nat) : Bool := bit 2 (wd t 12)
def tScale (t : List Nat) : Bool := bit 8 (wd t 12)
def tBias (t : List Nat) : Bool := bit 9 (wd t 12)
def tResid (t : List Nat) : Bool := bit 10 (wd t 12)
def tRowop (t : List Nat) : Nat := fld 13 11 (wd t 12)
def tColop (t : List Nat) : Nat := fld 15 14 (wd t 12)
def tRstatCont (t : List Nat) : Bool := bit 16 (wd t 12)
def tRstatFin (t : List Nat) : Bool := bit 17 (wd t 12)
def tColCont (t : List Nat) : Bool := bit 18 (wd t 12)
def tParam (t : List Nat) : Nat := wd t 13
def tAttn (t : List Nat) : Nat := wd t 14
def tTag (t : List Nat) : Nat := wd t 15
def isMatmul (t : List Nat) : Bool := tOp t == 1
def isVector (t : List Nat) : Bool := tOp t == 2
def isAttn (t : List Nat) : Bool := tOp t == 4
/-- MODE of ATTN_CTL (R168). -/
def aMode (t : List Nat) : Nat := fld 1 0 (tAttn t)

def pAScl (p : List Nat) : Nat := wd p 0
def pBScl (p : List Nat) : Nat := wd p 1
def pOutScl (p : List Nat) : Nat := wd p 2
def pMeta (p : List Nat) : Nat := wd p 3
def pBias (p : List Nat) : Nat := wd p 4
def pNorm (p : List Nat) : Nat := wd p 5
def pRstatIn (p : List Nat) : Nat := wd p 6
def pRstatOut (p : List Nat) : Nat := wd p 7
def pColred (p : List Nat) : Nat := wd p 8
def pSplan (p : List Nat) : Nat := wd p 9
def pEpi (p : List Nat) : F32 := BitVec.ofNat 32 (wd p 10)
def pPos0 (p : List Nat) : Nat := wd p 11
def pGrp (p : List Nat) : Nat := fld 15 0 (wd p 12)
def pRopeD (p : List Nat) : Nat := fld 31 16 (wd p 12)
def pTheta (p : List Nat) : F32 := BitVec.ofNat 32 (wd p 13)

/-- An epilogue operation is enabled; RSTAT_CONT, RSTAT_FIN and COLRED_CONT are no operations (R81, R71). -/
def epiAny (t : List Nat) : Bool :=
  tScale t || tBias t || tResid t || tRowop t != 0 || tColop t != 0 || tAct t != 0

/-! ### Address words (R69) -/

def awSpace (w : Nat) : Nat := fld 31 28 w
def awOfs (w : Nat) : Nat := fld 23 0 w
/-- The word is well formed and names scratchpad or cache. -/
def awOk01 (w : Nat) : Bool := awSpace w < 2 && fld 27 24 w == 0
/-- Limit of OFFSET plus extent. -/
def spaceLimit (sp : Nat) : Nat := if sp = 0 then 0x200000 else 0x800000
/-- An extent within its space. -/
def awFits (w len : Nat) : Bool := awOfs w + len ≤ spaceLimit (awSpace w)

/-- TAS address of byte `off` past an address word of core n, through the windows that alias scratchpad
bytes (R112, R116): (window offset, size, target offset). -/
def awAddr (n : Nat) (wins : List (Nat × Nat × Nat)) (w off : Nat) : Nat :=
  let o := awOfs w + off
  if awSpace w = 0 then
    match wins.find? (fun x => decide (x.1 ≤ o ∧ o < x.1 + x.2.1)) with
    | some x => padBase n + (x.2.2 + (o - x.1))
    | none => padBase n + o
  else cacheBase (n / 8) + o

/-- Byte reader of an operand. -/
abbrev Rd := Nat → Nat

/-- Read bytes of an address word. -/
def rdAw (c : Chip) (n : Nat) (wins : List (Nat × Nat × Nat)) (w : Nat) : Rd :=
  fun off => (c.byteAt (awAddr n wins w off)).toNat

def rd4 (r : Rd) (o : Nat) : Nat := r o + 256 * r (o + 1) + 65536 * r (o + 2) + 16777216 * r (o + 3)
def rdF (r : Rd) (o : Nat) : F32 := BitVec.ofNat 32 (rd4 r o)

/-- Element i of a packed row of w-bit elements that starts at byte `base` (R27, R36). -/
def elemCode (r : Rd) (w base i : Nat) : Nat :=
  if w = 32 then rd4 r (base + 4 * i)
  else if w = 8 then r (base + i)
  else
    let p := i * w
    (r (base + p / 8) + 256 * r (base + p / 8 + 1)) / 2 ^ (p % 8) % 2 ^ w

/-- Pack w-bit codes into bytes (R27, R36). -/
def packCodes (w : Nat) (l : List Nat) : List Byte :=
  if w = 32 then l.flatMap (leBytes 4)
  else if w = 8 then l.map (BitVec.ofNat 8)
  else if w = 4 then
    (List.range ((l.length + 1) / 2)).map (fun j => BitVec.ofNat 8 (l.getD (2 * j) 0 + 16 * l.getD (2 * j + 1) 0))
  else
    (List.range ((l.length + 3) / 4)).flatMap (fun j =>
      leBytes 3 (l.getD (4 * j) 0 + 2 ^ 6 * l.getD (4 * j + 1) 0 + 2 ^ 12 * l.getD (4 * j + 2) 0
        + 2 ^ 18 * l.getD (4 * j + 3) 0))

/-- Bytes of n packed elements. -/
def rowBytes (w n : Nat) : Nat := ceilDiv (w * n) 8

/-! ### Sparsity (R62 to R65) -/

/-- Code of group g of column n: 3 bits under 2:4, 2 bits under 1:4 (R64). -/
def metaCode (r : Rd) (sp kMax n g : Nat) : Nat :=
  let c := kMax / 32
  let j := g % 8
  if sp = 1 then
    let b := (n * c + g / 8) * 3
    (r b + 256 * r (b + 1) + 65536 * r (b + 2)) / 2 ^ (3 * j) % 8
  else
    let b := (n * c + g / 8) * 2
    (r b + 256 * r (b + 1)) / 2 ^ (2 * j) % 4

/-- Kept positions of a group, ascending (R64). -/
def kept (sp code : Nat) : List Nat :=
  if sp = 2 then [code]
  else match code with
    | 0 => [0, 1] | 1 => [0, 2] | 2 => [0, 3] | 3 => [1, 2] | 4 => [1, 3] | 5 => [2, 3] | _ => []

/-- Index of the stored element of logical position k, or none when pruned. -/
def storedIdx (r : Rd) (sp kMax n k : Nat) : Option Nat :=
  if sp = 0 then some k else
  let ks := kept sp (metaCode r sp kMax n (k / 4))
  match ks.idxOf? (k % 4) with
  | none => none
  | some i => some (if sp = 1 then 2 * (k / 4) + i else k / 4)

/-- Stored elements of a column of K logical positions. -/
def storedLen (sp k : Nat) : Nat := if sp = 0 then k else if sp = 1 then k / 2 else k / 4

/-- The first malformed 2:4 code of columns [n0, n1) in a group below the K bound (R65), with the column tile
from n0 and the K tile that hold it: B tiles of `kt` positions by 64 columns are loaded in that order (R61). -/
def metaBad (r : Rd) (kMax kb kt n0 n1 : Nat) : Option (Nat × Nat × Nat) :=
  ((List.range (ceilDiv (n1 - n0) 64)).flatMap (fun i =>
    (List.range (ceilDiv kb kt)).flatMap (fun j =>
      (List.range (min 64 (n1 - n0 - 64 * i))).flatMap (fun q =>
        (List.range (ceilDiv (min kt (kb - kt * j)) 4)).map (fun g =>
          (metaCode r 1 kMax (n0 + 64 * i + q) (kt / 4 * j + g), i, j)))))).find? (fun x => decide (6 ≤ x.1))

/-! ### Extents (R73 stage 4) -/

/-- Width of a format code's elements. -/
def codeBits (f : Nat) : Nat := match fmtOf f with | some x => fmtBits x | none => 32
def codeMx (f : Nat) : Bool := match fmtOf f with | some x => isMx x | none => false
def codeInt (f : Nat) : Bool := match fmtOf f with | some x => isIntFmt x | none => false
def codeFp19 (f : Nat) : Bool := f == 0xB || f == 0xC

/-- Bytes from the base of `rows` rows at stride ld, each of `row` bytes. -/
def span (rows ld row : Nat) : Nat := (rows - 1) * ld + row

/-- A buffer a TOD uses: the offset of the field that names it, its address word, its length, whether it
must be 16-byte aligned, and whether the TOD writes it. -/
structure Ext where
  ofs   : Nat
  aw    : Nat
  len   : Nat
  align : Bool := false
  out   : Bool := false
  /-- The TOD reads it from an earlier producer (RSTAT_IN). -/
  rin   : Bool := false
  deriving DecidableEq, Repr

/-- The format in which A enters the array. -/
def arrayA (t : List Nat) : Nat := if tPro t ≠ 0 then tArrA t else tFmtA t
/-- Row length for γ, β and ROPE (R70); D for ATTN. -/
def rowLen (t : List Nat) (d : Nat) : Nat := if isMatmul t then tK t else if isVector t then tN t else d

/-- The buffers of a MATMUL or VECTOR TOD. -/
def todExts (t p : List Nat) : List Ext :=
  let m := tM t
  let n := tN t
  let k := if isMatmul t then tK t else n
  let wa := codeBits (tFmtA t)
  let wb := codeBits (tFmtB t)
  let wo := codeBits (tFmtOut t)
  let drains := !tNoDrain t
  (if tTransA t then [{ ofs := 0x18, aw := tA t, len := span k (tALd t) (rowBytes wa m), align := true }]
   else [{ ofs := 0x18, aw := tA t, len := span m (tALd t) (rowBytes wa k), align := true }]) ++
  (if codeMx (tFmtA t) then
     [{ ofs := 0x40, aw := pAScl p, len := m * (if isMatmul t then tK t / 32 else ceilDiv n 32) }] else []) ++
  (if isMatmul t then
     (if tTransB t then [{ ofs := 0x1C, aw := tB t, len := span k (tBLd t) (rowBytes wb n), align := true }]
      else [{ ofs := 0x1C, aw := tB t, len := span n (tBLd t) (rowBytes wb (storedLen (tSparse t) k)), align := true }]) ++
     (if codeMx (tFmtB t) then [{ ofs := 0x44, aw := pBScl p, len := n * (tK t / 32) }] else []) ++
     (if tSparse t ≠ 0 then
        [{ ofs := 0x4C, aw := pMeta p, len := n * (tK t / 32) * (if tSparse t = 1 then 3 else 2) }] else []) ++
     (if tAcc t = 2 then [{ ofs := 0x20, aw := tC t, len := span m (tCLd t) (4 * n), align := true }] else [])
   else []) ++
  (if tResid t && drains && !(tAcc t == 2) then
     [{ ofs := 0x20, aw := tC t, len := span m (tCLd t) (rowBytes (codeBits (tFmtC t)) n), align := true }] else []) ++
  (if drains then
     (if awSpace (tOut t) < 2 then
        [{ ofs := 0x24, aw := tOut t, len := span m (tOutLd t) (rowBytes wo (if codeMx (tFmtOut t) then 32 * ceilDiv n 32 else n)), align := true, out := true }] else []) ++
     (if codeMx (tFmtOut t) && awSpace (tOut t) < 2 then
        [{ ofs := 0x48, aw := pOutScl p, len := m * ceilDiv n 32, out := true }] else []) ++
     (if tBias t then [{ ofs := 0x50, aw := pBias p, len := 4 * n }] else []) ++
     (if tRowop t ≠ 0 then [{ ofs := 0x5C, aw := pRstatOut p, len := 16 + 16 * m, out := true }] else []) ++
     (if tColop t ≠ 0 then [{ ofs := 0x60, aw := pColred p, len := 4 * n, out := true }] else []) ++
     (if codeInt (tFmtOut t) then [{ ofs := 0x64, aw := pSplan p, len := 128, out := true }] else [])
   else []) ++
  (if tNorm t then [{ ofs := 0x54, aw := pNorm p, len := 8 * rowLen t 0 }] else []) ++
  (if tDscale t || tNorm t then
     [{ ofs := 0x58, aw := pRstatIn p, len := 16 + 16 * m, rin := true }] else [])

/-- Two extents of one core overlap. -/
def extOverlap (a b : Ext) : Bool :=
  awSpace a.aw == awSpace b.aw && decide (awOfs a.aw < awOfs b.aw + b.len ∧ awOfs b.aw < awOfs a.aw + a.len)

end Sys2Proof.Machine
end

