-- ==== Sys2Proof/Machine/Array.lean ====
section
/-! DEFINITION. What a TOD computes: rows through the prologue (R81, R82, R89), the array's products in
the canonical order (R39 to R43, R78), the epilogue and the row and column operations (R83, R87). -/

namespace Sys2Proof.Machine

/-! ### Canonical reduction (R42) -/

/-- Combine with the absent rule: an absent side passes the other through. -/
def joinOpt {α : Type} (f : α → α → α) : Option α → Option α → Option α
  | none, b => b
  | a, none => a
  | some a, some b => some (f a b)

/-- One level of the pairwise tree. -/
def treeLevel {α : Type} (f : α → α → α) : List (Option α) → List (Option α)
  | a :: b :: t => joinOpt f a b :: treeLevel f t
  | [a] => [a]
  | [] => []

/-- The pairwise tree over up to 2^k leaves. -/
def treeRed {α : Type} (f : α → α → α) : Nat → List (Option α) → Option α
  | 0, l => l.headD none
  | k + 1, l => treeRed f k (treeLevel f l)

/-- Cut a list into groups of 64. -/
def groups64 {α : Type} (l : List α) : List (List α) :=
  (List.range (ceilDiv l.length 64)).map (fun j => (l.drop (64 * j)).take 64)

/-- Groups of 64, a tree within each, the groups in ascending order (R42, R83). -/
def canonRed {α : Type} (f : α → α → α) (acc : Option α) (l : List (Option α)) : Option α :=
  (groups64 l).foldl (fun a g => joinOpt f a (treeRed f 6 g)) acc

/-- Canonical FP32 sum of present values, +0 when none is. -/
def canonSum (l : List F32) : F32 := (canonRed fAdd none (l.map some)).getD fZero

/-! ### Products of the array -/

/-- What one accumulator entry collects: its value, the skipped MX block pairs and integer overflow. -/
structure AccOut where
  val  : Option W32 := none
  skip : Nat := 0
  ovf  : Bool := false
  deriving DecidableEq, Repr

/-- Exact sum of the products of an MX block pair at given positions (R40). An exact sum of zero is -0 only where every
product is -0, else +0 (DEDUCED, log 22: R40 gives no sign; this is that of RNE addition). -/
def mxSum (fa fb : Fmt) (l : List (Nat × Nat)) : Num :=
  match l with
  | [] => .fin false 0 0
  | (a, b) :: t => t.foldl (fun s x => nAdd s (nMul (mxElem fa x.1) (mxElem fb x.2))) (nMul (mxElem fa a) (mxElem fb b))

/-- Value of one MX block pair (R40, R41): none when skipped or when every position is absent. -/
def mxBlock (fa fb : Fmt) (sa sb : Nat) (l : List (Nat × Nat)) : Option F32 :=
  if sa = 0 ∨ sb = 0 then none
  else if l = [] then none
  else if sa = 255 ∨ sb = 255 then some fNaN
  else some (encNum (nScale ((sa + sb : Nat) - 254) (mxSum fa fb l)))

/-- Dot product of MX operands: blocks j of 32 positions, two to a group (R42 step 4). `el` gives the
present code pairs of a block, `scl` its two scales. -/
def mxDot (fa fb : Fmt) (nBlocks : Nat) (scl : Nat → Nat × Nat) (el : Nat → List (Nat × Nat))
    (acc : Option F32) : AccOut :=
  let blk (j : Nat) : Option F32 := if j < nBlocks then mxBlock fa fb (scl j).1 (scl j).2 (el j) else none
  let skip := (List.range nBlocks).countP (fun j => (scl j).1 == 0 || (scl j).2 == 0)
  { val := (List.range (ceilDiv nBlocks 2)).foldl
      (fun a g => joinOpt fAdd a (joinOpt fAdd (blk (2 * g)) (blk (2 * g + 1)))) acc
    skip := skip }

/-- Dot product of integer operands (R39): wraps modulo 2^32, flagging a sum out of range. -/
def intDot (fa fb : Fmt) (prods : List (Option (Nat × Nat))) (acc : W32) : AccOut :=
  let leaf (x : Option (Nat × Nat)) : Option Int := x.map (fun y => intElem fa y.1 * intElem fb y.2)
  let r := (groups64 (prods.map leaf)).foldl (fun (s : W32 × Bool) g =>
    match treeRed (· + ·) 6 g with
    | none => s
    | some v =>
      let e := s.1.toInt + v
      (BitVec.ofInt 32 e, s.2 || decide (e < -2 ^ 31 ∨ 2 ^ 31 ≤ e))) (acc, false)
  { val := some r.1, ovf := r.2 }

/-- One pass's group value over FP32 leaf products (R42 step 5). -/
def fpGroup (l : List (Option (F32 × F32))) : Option F32 :=
  treeRed fAdd 6 (l.map (fun x => x.map (fun y => fMul y.1 y.2)))

/-- Dot product of FP19 operands in 1 to 3 passes (R32, R43); `ra`, `rb`: narrowing of A and B by RNE. -/
def fpDot (passes : Nat) (ra rb : Bool) (l : List (Option (F32 × F32))) (acc : Option F32) : AccOut :=
  let fin2 (x : F32 × F32) : Bool := isFin x.1 && isFin x.2
  let p1 (x : F32 × F32) : F32 × F32 := (splitHi ra x.1, splitHi rb x.2)
  let p2 (x : F32 × F32) : F32 × F32 := (splitLo ra x.1, splitHi rb x.2)
  let p3 (x : F32 × F32) : F32 × F32 := (splitHi ra x.1, splitLo rb x.2)
  let sel (p : F32 × F32 → F32 × F32) (x : Option (F32 × F32)) : Option (F32 × F32) :=
    x.bind (fun y => if fin2 y then some (p y) else none)
  let g (q : List (Option (F32 × F32))) : Option F32 :=
    let v1 := fpGroup (q.map (fun x => x.map p1))
    if passes = 0 then v1
    else
      let v2 := joinOpt fAdd v1 (fpGroup (q.map (sel p2)))
      if passes = 1 then v2 else joinOpt fAdd v2 (fpGroup (q.map (sel p3)))
  { val := (groups64 l).foldl (fun a q => joinOpt fAdd a (g q)) acc }

/-! ### Prologue -/

/-- What the drain of a tile collects beside values. -/
structure RowOut where
  vals : List F32 := []
  amax : F32 := fZero
  deriving DecidableEq, Repr

/-- Reads of one TOD: each operand's byte reader, and the latched special-function bank. -/
structure View where
  tod  : List Nat := []
  par  : List Nat := []
  mb   : Nat := 0
  nb   : Nat := 0
  kb   : Nat := 0
  bank : Bank := {}
  scale : F32 := 0#32
  /-- Head dimension (ATTN). -/
  dim  : Nat := 0

/-- Bytes seen by a TOD of core n. -/
abbrev Mem := Nat → Rd

/-- FP32 values of row m of A below its bound (P0). -/
def loadRowA (v : View) (rd : Mem) (m : Nat) : List F32 :=
  let t := v.tod
  match fmtOf (tFmtA t) with
  | none => []
  | some f =>
    let w := fmtBits f
    let bound := if isMatmul t then v.kb else if isVector t then v.nb else v.dim
    let ra := rd (tA t)
    let rs := rd (pAScl v.par)
    let cols := if isMatmul t then tK t / 32 else if isVector t then ceilDiv (tN t) 32 else v.dim / 32
    (List.range bound).map (fun k =>
      let code := if tTransA t then elemCode ra w (k * tALd t) m else elemCode ra w (m * tALd t) k
      let s := if isMx f then rs (m * cols + k / 32) else 0
      toF32 f s code)

/-- Running absolute maximum over values (R56). -/
def amaxOf (l : List F32) : F32 := l.foldl (fun a x => if isNaN x then a else fMax a (fAbs x)) fZero

/-- DSCALE, NORM and ROPE on row m (R82). -/
def stDscale (v : View) (rd : Mem) (m : Nat) (x : List F32) : List F32 :=
  let s := rdF (rd (pRstatIn v.par)) (0x10 + 16 * m + 0xC)
  x.map (fun y => fMul y s)

def stNorm (v : View) (rd : Mem) (m : Nat) (x : List F32) : List F32 :=
  let r := rd (pRstatIn v.par)
  let mu := rdF r (0x10 + 16 * m)
  let rho := rdF r (0x10 + 16 * m + 0xC)
  let g := rd (pNorm v.par)
  let len := rowLen v.tod v.dim
  x.mapIdx (fun k y => fAdd (fMul (fMul (fSub y mu) rho) (rdF g (4 * k))) (rdF g (4 * (len + k))))

def stRope (v : View) (m : Nat) (x : List F32) : List F32 :=
  let d := pRopeD v.par
  let p := (pPos0 v.par + m / max 1 (pGrp v.par)) % 2 ^ 32
  let len := rowLen v.tod v.dim
  let sc (i : Nat) : F32 × F32 := ropeSinCos v.bank (ropePhase p (ropeNu d i (pTheta v.par)))
  x.mapIdx (fun k y =>
    if d = 0 ∨ len / d * d ≤ k then y else
    let i := k % d / 2
    let k0 := k - k % 2
    if x.length ≤ k0 + 1 then y else
    let x0 := x.getD k0 fZero
    let x1 := x.getD (k0 + 1) fZero
    let (s, c) := sc i
    if k % 2 = 0 then fSub (fMul x0 c) (fMul x1 s) else fAdd (fMul x0 s) (fMul x1 c))

/-- Pass values through STAGE_FMT at a stage boundary (R89). -/
def boundary (t : List Nat) (x : List F32) : List F32 :=
  if tBitmatch t then (match fmtOf (tStage t) with | some f => throughFmt f x | none => x) else x

/-- Run stages in order with a boundary between consecutive ones. -/
def runStages (t : List Nat) : Bool → List (List F32 → List F32) → List F32 → List F32
  | _, [], x => x
  | first, f :: r, x => runStages t false r (f (if first then x else boundary t x))

/-- The enabled prologue stages for row m. -/
def proStages (v : View) (rd : Mem) (m : Nat) : List (List F32 → List F32) :=
  (if tDscale v.tod then [stDscale v rd m] else []) ++
  (if tNorm v.tod then [stNorm v rd m] else []) ++
  (if tRope v.tod then [stRope v m] else [])

/-- Row m after the prologue, FP32, and its P0 maximum. -/
def proRow (v : View) (rd : Mem) (m : Nat) : RowOut :=
  let x := loadRowA v rd m
  { vals := runStages v.tod true (proStages v rd m) x, amax := amaxOf x }

/-! ### Rows of A as the array takes them -/

/-- A row ready for the array: codes with block scales, or FP32 containers. -/
structure ARow where
  codes  : List Nat := []
  scales : List Nat := []
  vals   : List F32 := []
  sat    : Nat := 0
  crush  : Nat := 0
  deriving DecidableEq, Repr

/-- P4 (R81): convert a prologued row to ARR_FMT_A. -/
def convRow (passes code : Nat) (x : List F32) : ARow :=
  match fmtOf code with
  | none => {}
  | some f =>
    if isMx f then
      let bs := (blocks 32 x).map (fun b => (b.length, deriveBlock f (padBlock b)))
      { codes := bs.flatMap (fun b => (b.2.elems.map (·.code)).take b.1)
        scales := bs.map (fun b => b.2.scale)
        sat := (bs.map (fun b => b.2.elems.countP (·.sat))).sum
        crush := (bs.map (fun b => b.2.elems.countP (·.crush))).sum }
    else if passes = 0 then
      let n := throughCounts f x
      { vals := x, sat := n.1, crush := n.2 }
    else { vals := x }

/-- Row m of A for the array. -/
def arrRow (v : View) (rd : Mem) (m : Nat) : ARow × F32 :=
  let t := v.tod
  if tPro t ≠ 0 then
    let r := proRow v rd m
    (convRow (tPasses t) (tArrA t) r.vals, r.amax)
  else
    match fmtOf (tFmtA t) with
    | none => ({}, fZero)
    | some f =>
      let w := fmtBits f
      let ra := rd (tA t)
      let bound := if isAttn t then v.dim else v.kb
      let codes := (List.range bound).map (fun k =>
        if tTransA t then elemCode ra w (k * tALd t) m else elemCode ra w (m * tALd t) k)
      if isMx f then
        let cols := if isAttn t then v.dim / 32 else tK t / 32
        ({ codes := codes, scales := (List.range (ceilDiv bound 32)).map (fun b => rd (pAScl v.par) (m * cols + b)) }, fZero)
      else if isIntFmt f then ({ codes := codes }, fZero)
      else ({ vals := codes.map (BitVec.ofNat 32) }, fZero)

/-- Stored code of B at (k, n), none when pruned. -/
def bCode (v : View) (rd : Mem) (n k : Nat) : Option Nat :=
  let t := v.tod
  let w := codeBits (tFmtB t)
  if tTransB t then some (elemCode (rd (tB t)) w (k * tBLd t) n)
  else (storedIdx (rd (pMeta v.par)) (tSparse t) (tK t) n k).map (fun i => elemCode (rd (tB t)) w (n * tBLd t) i)

/-- One accumulator entry (m, n) of a MATMUL from the starting value `acc`. -/
def dotMN (v : View) (rd : Mem) (row : ARow) (n : Nat) (acc : Option W32) : AccOut :=
  let t := v.tod
  match fmtOf (arrayA t), fmtOf (tFmtB t) with
  | some fa, some fb =>
    if isMx fa then
      mxDot fa fb (ceilDiv v.kb 32)
        (fun j => (row.scales.getD j 0, rd (pBScl v.par) (n * (tK t / 32) + j)))
        (fun j => (List.range (min 32 (v.kb - 32 * j))).filterMap (fun i =>
          (bCode v rd n (32 * j + i)).map (fun b => (row.codes.getD (32 * j + i) 0, b)))) acc
    else if isIntFmt fa then
      intDot fa fb ((List.range v.kb).map (fun k => (bCode v rd n k).map (fun b => (row.codes.getD k 0, b))))
        (acc.getD 0#32)
    else
      fpDot (tPasses t) (fa == .fp19r) (fb == .fp19r)
        ((List.range v.kb).map (fun k => (bCode v rd n k).map (fun b => (row.vals.getD k fZero, BitVec.ofNat 32 b)))) acc
  | _, _ => {}

/-! ### Epilogue -/

/-- The enabled epilogue stages before the row operations, for row m and columns n0 onward. -/
def epiStages (v : View) (rd : Mem) (m n0 : Nat) : List (List F32 → List F32) :=
  let t := v.tod
  (if tScale t then [fun x => x.map (fun y => fMul y (pEpi v.par))] else []) ++
  (if tBias t then [fun x => x.mapIdx (fun i y => fAdd y (rdF (rd (pBias v.par)) (4 * (n0 + i))))] else []) ++
  (if tAct t ≠ 0 then [fun x => x.map (actFn (tAct t) v.bank)] else []) ++
  (if tResid t then [fun x => x.mapIdx (fun i y =>
      match fmtOf (tFmtC t) with
      | some f => fAdd y (toF32 f 0 (elemCode (rd (tC t)) (fmtBits f) (m * tCLd t) (n0 + i)))
      | none => y)] else [])

/-- Values of C that E4 reads, for AMAX_C. -/
def residVals (v : View) (rd : Mem) (m n0 len : Nat) : List F32 :=
  if tResid v.tod then
    match fmtOf (tFmtC v.tod) with
    | some f => (List.range len).map (fun i => toF32 f 0 (elemCode (rd (tC v.tod)) (fmtBits f) (m * tCLd v.tod) (n0 + i)))
    | none => []
  else []

/-- SOFTMAX over a whole row (R83): values, maximum and sum. -/
def softRow (b : Bank) (x : List F32) : List F32 × F32 × F32 :=
  let m := (canonRed fMax none (x.map some)).getD fNegInf
  if m = fNegInf then (x.map (fun _ => fZero), m, fZero)
  else
    let p := x.map (fun y => sfExp2 b (fSub y m))
    (p, m, canonSum p)

/-! ### Row-statistic entries (R83, R86, R87) -/

/-- An entry of a row-statistic buffer. -/
structure RStat where
  a : F32 := 0#32
  b : F32 := 0#32
  n : Nat := 0
  deriving DecidableEq, Repr

/-- This TOD's own reduction of a row. -/
def rowStat (bk : Bank) (rowop : Nat) (x : List F32) (soft : F32 × F32) : RStat :=
  match rowop with
  | 1 => { a := canonSum x, n := x.length }
  | 2 => { a := (canonRed fMax none (x.map some)).getD fNegInf, n := x.length }
  | 3 =>
    let w := (canonRed (welfMerge bk) none (x.map (fun y => some { n := 1, mu := y, m2 := fZero }))).getD {}
    { a := w.mu, b := w.m2, n := w.n }
  | _ => { a := soft.1, b := soft.2, n := x.length }

/-- Join an existing entry with this TOD's (RSTAT_CONT): existing first. -/
def joinStat (bk : Bank) (rowop : Nat) (e x : RStat) : RStat :=
  match rowop with
  | 1 => { a := fAdd e.a x.a, n := (e.n + x.n) % 2 ^ 32 }
  | 2 => { a := fMax e.a x.a, n := (e.n + x.n) % 2 ^ 32 }
  | 3 =>
    let w := welfMerge bk { n := e.n, mu := e.a, m2 := e.b } { n := x.n, mu := x.a, m2 := x.b }
    { a := w.mu, b := w.m2, n := w.n }
  | _ => x

/-- The identity entry (R76). -/
def idStat (rowop : Nat) : RStat :=
  if rowop = 2 ∨ rowop = 4 then { a := fNegInf } else {}

/-- SCALE of a final entry (R87): zero, infinite or NaN divisors give +0. -/
def finalScale (bk : Bank) (kind : Nat) (eps : F32) (e : RStat) : F32 :=
  let inv (x : F32) : F32 := if isZero x || !isFin x then fZero else sfRcp bk x
  match kind with
  | 3 =>
    if e.n = 0 then fZero else
    let d := fAdd (fMul e.b (sfRcp bk (fOfNat e.n))) eps
    if isZero d || !isFin d then fZero else sfRsqrt bk d
  | 4 => inv e.b
  | _ => inv e.a

end Sys2Proof.Machine
end

