-- ==== Sys2Proof/Machine/Tod.lean ====
section
/-! DEFINITION. Issue of a tile operation descriptor: the checks of stages 1 to 4 (R73, with R25, R37, R62,
R66, R69, R167 to R170, R368) and the holds of stage 5 (R74, R79, R99). -/

namespace Sys2Proof.Machine

/-! ### Slot fields an ATTN or append TOD needs (R137) -/

def Slot.bound (s : Slot) : Bool := decide (s.st = 2 ∨ s.st = 3 ∨ s.st = 4 ∨ s.st = 1)
def dLayers (w : List Nat) : Nat := fld 7 0 (wd w 2)
def dHeads (w : List Nat) : Nat := fld 11 8 (wd w 2)
def dDim (w : List Nat) : Nat := if bit 12 (wd w 2) then 128 else 64
def dTpp (w : List Nat) : Nat := 64 * 2 ^ fld 17 16 (wd w 2)
def dKFmt (w : List Nat) : Nat := fld 23 20 (wd w 2)
def dVFmt (w : List Nat) : Nat := fld 27 24 (wd w 2)
def dRsv (w : List Nat) : Nat := fld 2 0 (wd w 3)
def dSlack (w : List Nat) : Nat := fld 31 16 (wd w 3)
def dMembers (w : List Nat) : Nat := fld 8 0 (wd w 4)
def dMember (w : List Nat) : Nat := fld 24 16 (wd w 4)
def dQuota (w : List Nat) : Nat := wd w 5
def dRoot (w : List Nat) : Nat := wd w 6 + 2 ^ 32 * wd w 7
def dBlocks (w : List Nat) : Nat := fld 10 0 (wd w 9)
def dLenTab (w : List Nat) : Nat := wd w 10 + 2 ^ 32 * wd w 11

/-- Payload geometry (R141): row bytes of K and V, and the areas' offsets for T tokens and H heads. -/
def kvRow (fmt d : Nat) : Nat := d * codeBits fmt / 8
def kvVO (h t kb : Nat) : Nat := h * t * kb
/-- Offset of the K scales: in the payload, behind the elements, as R141 lays it out; R36's one sentence puts a page's
scale array in its metadata record (DEDUCED, log 23: R36 refers to the chapter of R141). -/
def kvKS (h t kb vb : Nat) : Nat := h * t * (kb + vb)
def kvVS (h t kb vb d : Nat) : Nat := h * t * (kb + vb) + h * t * (d / 32)
def kvUsed (h t kb vb d : Nat) : Nat := h * t * (kb + vb) + 2 * (h * t * (d / 32))

/-! ### ATTN fields (R168, R169) -/

def aExact (t : List Nat) : Bool := bit 2 (tAttn t)
def aCausal (t : List Nat) : Bool := bit 3 (tAttn t)
def aThr (t : List Nat) : Nat := fld 11 4 (tAttn t)
def aHead0 (t : List Nat) : Nat := fld 14 12 (tAttn t)
def aHn (t : List Nat) : Nat := fld 18 15 (tAttn t)
def aG (t : List Nat) : Nat := fld 23 19 (tAttn t)
def aPv (t : List Nat) : Nat := fld 27 24 (tAttn t)
def aSlot (t : List Nat) : Nat := fld 4 0 (tB t)
def aLayer (t : List Nat) : Nat := fld 11 5 (tB t)
def aSrc1 (t : List Nat) : Bool := bit 12 (tB t)
def aPmerge (t : List Nat) : Bool := aMode t == 3
def pPage0 (p : List Nat) : Nat := wd p 1
def pSkipOut (p : List Nat) : Nat := wd p 3
def pHeld (p : List Nat) : Nat := wd p 4
def pGrad (p : List Nat) : Nat := wd p 8

/-- Whether RSTAT_OUT is written by an ATTN TOD (R169). -/
def aRstatOut (t : List Nat) : Bool := aMode t == 0 || (aPmerge t && tRstatFin t)

/-- The parameter block is used. -/
def usesPar (t : List Nat) : Bool :=
  isAttn t || codeMx (tFmtA t) || (isMatmul t && (codeMx (tFmtB t) || tSparse t != 0)) ||
  (!tNoDrain t && ((codeMx (tFmtOut t) && decide (awSpace (tOut t) < 2)) || codeInt (tFmtOut t) || tScale t || tBias t || tRowop t != 0 ||
    tColop t != 0)) || tPro t != 0

/-- A failed check: the field's offset and the failing value. -/
abbrev Bad := Option (Nat × Nat)

/-- The first of a list of conditions that holds. -/
def firstBad : List (Bool × Nat × Nat) → Bad
  | [] => none
  | (b, o, v) :: t => if b then some (o, v) else firstBad t

/-- BSRC of M, N, K (R68). -/
def tBsrc (t : List Nat) (i : Nat) : Nat := fld (17 + 2 * i) (16 + 2 * i) (wd t 1)
/-- *_BND of M, N, K. -/
def tBnd (t : List Nat) (i : Nat) : Nat :=
  match i with | 0 => fld 15 0 (wd t 4) | 1 => fld 31 16 (wd t 4) | _ => fld 23 0 (wd t 5)
def bndOfs (i : Nat) : Nat := match i with | 2 => 0x14 | _ => 0x10
/-- Which bounds the operation uses. -/
def usesBnd (t : List Nat) (i : Nat) : Bool :=
  if i = 2 then !isVector t else if i = 1 then !isAttn t else true

def badFmt (f : Nat) : Bool := decide (13 < f)

/-- Stage 1, decode, common to MATMUL and VECTOR. Bits [23:16] of an append handle and [23:5] of a token word have no
meaning in R69 and are not looked at (DESIGN CHOICE, log 22). The checks: reserved bits and values, invalid combinations and
maxima of 0 (R67 to R71, R73). -/
def decodeBad (t p : List Nat) : Bad :=
  let w0 := wd t 0
  let mm := isMatmul t
  let drains := !tNoDrain t
  firstBad (
    [(fld 31 30 w0 != 0, 0, w0), (fld 23 15 w0 != 0, 0, w0),
     (fld 23 22 (wd t 1) != 0, 4, wd t 1), (fld 31 29 (wd t 3) != 0, 0xC, wd t 3),
     (fld 7 3 (wd t 12) != 0 || fld 31 19 (wd t 12) != 0, 0x30, wd t 12),
     (!isAttn t && tAttn t != 0, 0x38, tAttn t),
     (isAttn t && fld 31 28 (tAttn t) != 0, 0x38, tAttn t)] ++
    (List.range 3).map (fun i => (usesBnd t i && tBsrc t i == 3, 4, 3)) ++
    (List.range 3).map (fun i => (usesBnd t i && tBsrc t i == 1 && decide (31 < tBnd t i), bndOfs i, tBnd t i)) ++
    [(tM t == 0, 8, 0), (tN t == 0, 8, 0), (!isVector t && tK t == 0, 0xC, 0)] ++
    (if isAttn t then [] else
    [(mm && tPasses t == 3, 0, 3), (mm && tSparse t == 3, 0, 3), (tAcc t == 3, 0, 3),
     (badFmt (tFmtA t), 4, tFmtA t), (mm && badFmt (tFmtB t), 4, tFmtB t),
     (drains && badFmt (tFmtOut t), 4, tFmtOut t),
     ((drains && tResid t || tAcc t == 2) && badFmt (tFmtC t), 4, tFmtC t),
     (mm && tPro t != 0 && badFmt (tArrA t), 0x14, tArrA t),
     (tBitmatch t && badFmt (tStage t), 0x14, tStage t),
     (drains && decide (7 < tAct t), 0xC, tAct t),
     (drains && decide (4 < tRowop t), 0x30, tRowop t), (drains && tColop t == 3, 0x30, 3),
     (tDscale t && tNorm t, 0x30, wd t 12),
     (drains && tRowop t == 4 && tRstatCont t, 0x30, wd t 12),
     (drains && tFmtOut t == 0xD && epiAny t, 4, 0xD),
     (tAcc t == 2 && mm && codeInt (arrayA t), 0, 2),
     (isVector t && (tNoDrain t || tAcc t != 0), 0, w0),
     (mm && (codeMx (tFmtA t) || codeMx (tFmtB t) || tSparse t != 0 || (tPro t != 0 && codeMx (tArrA t)))
        && tK t % 32 != 0, 0xC, tK t),
     (!awOk01 (tA t), 0x18, tA t), (mm && !awOk01 (tB t), 0x1C, tB t),
     ((drains && tResid t || tAcc t == 2) && !awOk01 (tC t), 0x20, tC t),
     (drains && (fld 27 24 (tOut t) != 0 || !([0, 1, 3, 4].contains (awSpace (tOut t)))), 0x24, tOut t),
     (usesPar t && !awOk01 (tParam t), 0x34, tParam t)]) ++
    (if isAttn t then [(!awOk01 (tParam t), 0x34, tParam t)] else []) ++
    (if isAttn t then [] else
      (todExts t p).filterMap (fun e => if 0x40 ≤ e.ofs then some (!awOk01 e.aw, e.ofs, e.aw) else none)) ++
    [(usesPar t && wd p 14 != 0, 0x78, wd p 14), (usesPar t && wd p 15 != 0, 0x7C, wd p 15),
     (tRope t && !isFin (pTheta p), 0x74, (pTheta p).toNat),
     (tRope t && (pGrp p == 0), 0x70, 0),
     (tRope t && (pRopeD p % 2 == 1 || decide (pRopeD p < 2 ∨ 1024 < pRopeD p)), 0x70, pRopeD p)])

/-- Stage 1 for ATTN (R167, R168, R170, R185); `w` is the slot's descriptor copy, empty where it holds none. -/
def attnBad (t p w : List Nat) : Bad :=
  let md := aMode t
  let live := w != [] && !aPmerge t
  let d := if aPmerge t then tN t else dDim w
  let hg := aG t * aHn t
  let nWant := if md = 2 then d + 256 else d + 128
  firstBad
    [(tTransA t || tTransB t || tReduceSrc t || tNoDrain t, 0, wd t 0),
     (tPasses t != 0 || tSparse t != 0 || tAcc t != 0, 0, wd t 0),
     (fld 15 8 (wd t 12) != 0 || tColCont t, 0x30, wd t 12),
     (tDscale t && tNorm t, 0x30, wd t 12),
     (decide (1 < md) && tPro t != 0, 0x30, wd t 12),
     (!aPmerge t && decide (aHn t = 0 ∨ 8 < aHn t), 0x38, aHn t),
     (!aPmerge t && decide (aG t = 0 ∨ 16 < aG t), 0x38, aG t),
     (live && decide (dHeads w < aHead0 t + aHn t), 0x38, aHead0 t + aHn t),
     (!aPmerge t && tM t % max 1 hg != 0, 8, tM t),
     (decide ((if aPmerge t then 64 else 4096) < tK t), 0xC, tK t),
     (live && tN t != nWant, 8, tN t),
     (aPmerge t && tN t != 64 && tN t != 128, 8, tN t),
     (!aPmerge t && tPro t != 0 && badFmt (tArrA t), 0x14, tArrA t),
     (!aPmerge t && tBitmatch t && badFmt (tStage t), 0x14, tStage t),
     (!aPmerge t && !(codeMx (tFmtA t) || (tFmtA t == 0xA && tPro t != 0 && codeMx (tArrA t))), 4, tFmtA t),
     (badFmt (tFmtOut t), 4, tFmtOut t),
     (md == 2 && !(codeMx (tFmtC t) || tFmtC t == 0xA), 4, tFmtC t),
     ((md == 1 || md == 3) && tFmtOut t != 0xA, 4, tFmtOut t),
     (md == 0 && tRstatCont t && tFmtOut t != 0xA, 4, tFmtOut t),
     ((md == 0 || md == 2) && tFmtOut t != 0xA && !codeMx (tFmtOut t), 4, tFmtOut t),
     (!awOk01 (tA t), 0x18, tA t),
     (!aPmerge t && (awSpace (tB t) != 2 || fld 27 24 (tB t) != 0 || fld 23 13 (tB t) != 0), 0x1C, tB t),
     (md == 1 && aSrc1 t, 0x1C, tB t),
     (md == 2 && !awOk01 (tC t), 0x20, tC t), (!awOk01 (tOut t), 0x24, tOut t),
     (!aPmerge t && (!isFin (pEpi p) || isZero (pEpi p) || isNegBit (pEpi p)), 0x68, (pEpi p).toNat),
     (!aPmerge t && pGrp p != hg, 0x70, pGrp p),
     (codeMx (tFmtA t) && !aPmerge t && !awOk01 (pAScl p), 0x40, pAScl p),
     (!aPmerge t && aSrc1 t && !awOk01 (pPage0 p), 0x44, pPage0 p),
     (!aPmerge t && !aSrc1 t && fld 31 20 (pPage0 p) != 0, 0x44, pPage0 p),
     (codeMx (tFmtOut t) && !awOk01 (pOutScl p), 0x48, pOutScl p),
     ((md == 0 || md == 2) && !awOk01 (pSkipOut p), 0x4C, pSkipOut p),
     ((md == 2 || (md == 1 && pHeld p != 0)) && !awOk01 (pHeld p), 0x50, pHeld p),
     (tNorm t && !awOk01 (pNorm p), 0x54, pNorm p),
     ((tDscale t || tNorm t || md == 2) && !awOk01 (pRstatIn p), 0x58, pRstatIn p),
     (aRstatOut t && !awOk01 (pRstatOut p), 0x5C, pRstatOut p),
     (md == 2 && !(awOk01 (pGrad p) && awSpace (pGrad p) == 1), 0x60, pGrad p)]

/-- Stage 2, formats, for MATMUL and VECTOR. -/
def formatBad (c : Chip) (t : List Nat) : Bad :=
  let mm := isMatmul t
  let fa := tFmtA t
  let fo := tFmtOut t
  let drains := !tNoDrain t
  let pair := match fmtOf (arrayA t), fmtOf (tFmtB t) with | some a, some b => pairOk a b | _, _ => false
  let sp := awSpace (tOut t)
  let sl := c.slot (fld 4 0 (tOut t))
  let kv := if bit 5 (tOut t) then dVFmt sl.words else dKFmt sl.words
  firstBad
    [(fa == 0xD, 4, 0xD), (mm && tFmtB t == 0xD, 4, 0xD),
     (isVector t && codeFp19 fa, 4, fa),
     (mm && tPro t != 0 && codeFp19 fa, 4, fa),
     (drains && codeFp19 fo, 4, fo),
     (drains && fo == 0xD && (isVector t || !codeInt (arrayA t)), 4, fo),
     (mm && tPro t != 0 && !(codeMx (tArrA t) || codeFp19 (tArrA t)), 0x14, tArrA t),
     (mm && !pair, 4, fa + 16 * tFmtB t),
     (tBitmatch t && tStage t != 0xA && !codeMx (tStage t), 0x14, tStage t),
     (mm && tPasses t != 0 && !(codeFp19 (tFmtB t) && codeFp19 (arrayA t)), 0, tPasses t),
     (drains && tResid t && tFmtC t != 0xA && !codeInt (tFmtC t), 4, tFmtC t),
     (tAcc t == 2 && tFmtC t != 0xA, 4, tFmtC t),
     (mm && tSparse t != 0 && (codeFp19 (tFmtB t) || codeFp19 (arrayA t) || tFmtB t == 0xA), 0, tSparse t),
     ((tTransA t || (mm && tTransB t)) &&
        (codeMx fa || (mm && (codeMx (tFmtB t) || tSparse t != 0))), 0, wd t 0),
     (drains && sp == 3 && sl.bound && fo != kv, 4, fo),
     (drains && sp == 4 && (!(fo == 0xA || (fo == 0xD && mm)) || decide (10 < tN t)), 4, fo)]

/-- Stage 2 for ATTN (R167, R170). -/
def attnFormatBad (t w : List Nat) : Bad :=
  let fa := arrayA t
  let pair := match fmtOf fa, fmtOf (dKFmt w) with | some a, some b => pairOk a b | _, _ => false
  if aPmerge t then none else
  firstBad
    [(tPro t != 0 && !codeMx (tArrA t), 0x14, tArrA t),
     (w != [] && !pair, 4, fa),
     (tBitmatch t && tStage t != 0xA && !codeMx (tStage t), 0x14, tStage t),
     (!([5, 6, 0xB].contains (aPv t)), 0x38, aPv t)]

/-- The buffers of an ATTN TOD (R169, R183 to R186). -/
def attnExts (t p w : List Nat) : List Ext :=
  let md := aMode t
  let m := tM t
  let k := tK t
  let d := if md = 3 then tN t else dDim w
  let part := 64 + m * (32 + 4 * d)
  (if md = 3 then [{ ofs := 0x18, aw := tA t, len := span k (tALd t) part, align := true }]
   else [{ ofs := 0x18, aw := tA t, len := span m (tALd t) (rowBytes (codeBits (tFmtA t)) d), align := true }] ++
     (if codeMx (tFmtA t) then [{ ofs := 0x40, aw := pAScl p, len := m * (d / 32) }] else []) ++
     (if aSrc1 t then [{ ofs := 0x44, aw := pPage0 p, len := 32 * k }] else [])) ++
  (if md = 1 ∨ md = 3 then [{ ofs := 0x24, aw := tOut t, len := part, align := true, out := true }]
   else [{ ofs := 0x24, aw := tOut t, len := span m (tOutLd t) (rowBytes (codeBits (tFmtOut t)) d), align := true, out := true }] ++
     (if codeMx (tFmtOut t) then [{ ofs := 0x48, aw := pOutScl p, len := m * (d / 32), out := true }] else []) ++
     [{ ofs := 0x4C, aw := pSkipOut p, len := 8 * m, out := true }]) ++
  (if md = 1 ∧ pHeld p ≠ 0 then
     [{ ofs := 0x50, aw := pHeld p, len := 16 + kvUsed (dHeads w) 1 (kvRow (dKFmt w) d) (kvRow (dVFmt w) d) d }] else []) ++
  (if md = 2 then
     [{ ofs := 0x50, aw := pHeld p, len := 4 * m },
      { ofs := 0x20, aw := tC t, len := span m (tCLd t) (rowBytes (codeBits (tFmtC t)) d), align := true },
      { ofs := 0x60, aw := pGrad p,
        len := k * aHn t * ceilDiv (dTpp w) 128 * (32 + m / max 1 (aHn t) * 1024), out := true }] else []) ++
  (if tNorm t then [{ ofs := 0x54, aw := pNorm p, len := 8 * d }] else []) ++
  (if tDscale t || tNorm t || md == 2 then [{ ofs := 0x58, aw := pRstatIn p, len := 16 + 16 * m, rin := true }] else []) ++
  (if aRstatOut t then [{ ofs := 0x5C, aw := pRstatOut p, len := 16 + 16 * m, out := true }] else [])

/-- All buffers of a TOD of a chip. -/
def extsOf (c : Chip) (t p : List Nat) : List Ext :=
  if isAttn t then attnExts t p (c.slot (aSlot t)).words else todExts t p

/-- The extents that holds compare (R74): inputs with memory-sourced bound words (R77), and the outputs that the rule
lists; SKIP_OUT and GRAD are none of them. -/
def holdExts (c : Chip) (t p : List Nat) : List Ext :=
  ((extsOf c t p).filterMap (fun e =>
    if isAttn t && e.ofs == 0x60 then none
    else if isAttn t && e.ofs == 0x4C then (if aMode t == 0 && tRstatCont t then some { e with out := false } else none)
    else some e)) ++
  (List.range 3).filterMap (fun i =>
    if usesBnd t i && tBsrc t i == 2 then some { ofs := bndOfs i, aw := 4 * tBnd t i, len := 4 } else none)

/-- Stage 4, extents (R69, R73, R170, R368). -/
def extentBad (c : Chip) (t p : List Nat) : Bad :=
  let es := extsOf c t p
  let sl := c.slot (aSlot t)
  firstBad (
    es.map (fun e => (!awFits e.aw e.len || (e.align && awOfs e.aw % 16 != 0), e.ofs, e.aw)) ++
    [(usesPar t && (awOfs (tParam t) % 64 != 0 || !awFits (tParam t) 64), 0x34, tParam t),
     (es.any (fun e => e.ofs == 0x64 && awOfs e.aw % 128 != 0), 0x64, pSplan p)] ++
    (List.range 3).map (fun i =>
      (usesBnd t i && tBsrc t i == 2 && decide (spaceLimit 0 < 4 * tBnd t i + 4), bndOfs i, tBnd t i)) ++
    [(isAttn t && !aPmerge t &&
        (!(sl.st == 2 || sl.st == 3) || decide (dLayers sl.words ≤ aLayer t) ||
          (!aSrc1 t && decide (dBlocks sl.words * 512 < pPage0 p + tK t))), 0x1C, tB t),
     (!isAttn t && !tNoDrain t && awSpace (tOut t) == 4 && !(c.queue (fld 4 0 (tOut t))).on, 0x24, tOut t)])

/-- The check of a scale-plan entry at issue proper (R50); `w1`, `w2`: its words 0x04 and 0x08. -/
def splanBad (t : List Nat) (w1 w2 : Nat) : Bool :=
  let tg := fld 3 0 w1
  let dp := fld 8 4 w1
  decide (3 < tg) || tg != tFmtOut t || decide (dp = 0 ∨ 16 < dp) || fld 15 14 w1 != 0 || fld 31 22 w1 != 0 || fld 31 16 w2 != 0

/-- Stages 1 to 4 of R73: status and failing field, or none. -/
def issueBad (c : Chip) (pred : Option (Nat × Nat)) (t p : List Nat) : Option (Nat × Nat × Nat) :=
  let sl := c.slot (aSlot t)
  let w := if isAttn t && (sl.st == 2 || sl.st == 3) then sl.words else []
  match decodeBad t p with
  | some x => some (0x10, x)
  | none =>
    match (if isAttn t then attnBad t p w else none) with
    | some x => some (0x10, x)
    | none =>
      match (if isAttn t then attnFormatBad t w else formatBad c t) with
      | some x => some (0x11, x)
      | none =>
        if !isVector t && decide (65536 < tM t * tN t) then some (0x12, 8, tM t * tN t)
        else if isMatmul t && tAcc t == 1 && pred != some (tM t, tN t) then some (0x17, 0, tAcc t)
        else
          match extentBad c t p with
          | some x => some (0x13, x)
          | none => none

/-- A TOD that a provisional state may not carry (R75). -/
def restricted (t : List Nat) : Bool :=
  (!isAttn t && !tNoDrain t && (awSpace (tOut t) == 3 || awSpace (tOut t) == 4)) || tReduceSrc t

/-- Accumulator entries planned (R79). -/
def accEntries (t : List Nat) : Nat := if isVector t then 0 else tM t * tN t

/-- Rows that a token TOD reserves in its queue (R368). -/
def tokenRows (t : List Nat) : Nat :=
  if !isAttn t && !tNoDrain t && awSpace (tOut t) == 4 then tM t else 0

end Sys2Proof.Machine
end

