-- ==== Sys2Proof/Machine/Slots.lean ====
section
/-! DEFINITION. Sequence slots (R137 to R165): directories, binding, appends, seals, reserves,
publications, quarantine, parking and release. -/

namespace Sys2Proof.Machine

/-! ### Page table (R146 to R148) -/

def blkTab (c : Chip) (root layer : Nat) : Nat := c.le (root + 8 * layer) 8 % 2 ^ 48
def dirBlk (c : Chip) (root layer b : Nat) : Nat := c.le (blkTab c root layer + 8 * b) 8 % 2 ^ 48
def pteAddr (c : Chip) (root layer page : Nat) : Nat := dirBlk c root layer (page / 512) + 8 * (page % 512)
def pte (c : Chip) (root layer page : Nat) : Nat := c.le (pteAddr c root layer page) 8
def eFrame (e : Nat) : Nat := fld 29 0 e
def eTier (e : Nat) : Nat := fld 32 30 e
def eValid (e : Nat) : Bool := bit 33 e
def eFull (e : Nat) : Bool := bit 34 e
def ePois (e : Nat) : Bool := bit 35 e
def ePin (e : Nat) : Bool := bit 36 e
/-- A valid entry breaks R148, or its tier is reserved. -/
def eBad (e : Nat) : Bool :=
  decide (2 < eTier e) || (eValid e && (eTier e != 0 && !eFull e || fld 63 55 e != 0))
/-- An entry's bits. -/
def mkPte (frame tier : Nat) (full pin : Bool) (gen tok : Nat) : Nat :=
  frame % 2 ^ 30 + 2 ^ 30 * (tier % 8) + 2 ^ 33 + 2 ^ 34 * b2n full + 2 ^ 36 * b2n pin +
  2 ^ 37 * (gen % 256) + 2 ^ 45 * (tok % 1024)

/-- Word of a frame's metadata record, of any tier. -/
def metaW (c : Chip) (tier frame off : Nat) : Nat := leNat (c.frameBytes tier frame (payloadSize + off) 4)
/-- References of a frame (R162). -/
def refCnt (c : Chip) (tier frame : Nat) : Nat :=
  if tier = 0 then fld 15 0 (metaW c 0 frame 0x14) else fld 31 16 (c.recW tier frame 0)
def setRef (tier frame n : Nat) (c : Chip) : Chip :=
  if tier = 0 then c.storeLe (c.frameAddr frame + payloadSize + 0x14) 2 n
  else c.storeLe (c.recAddr tier frame + 2) 2 n
def setKind (tier frame k : Nat) (c : Chip) : Chip :=
  c.setRecW tier frame 0 (setFld 3 0 (c.recW tier frame 0) k)

/-! ### Status, stalls and faults (R149 to R151) -/

def Slot.sts (s : Slot) : Nat := s.st + 16 * s.refuse + 2 ^ 8 * b2n s.inRing + 2 ^ 16 * s.desc
/-- A SLOT event carries SLOT_STS (R369). -/
def slotEvent (n : Nat) (c : Chip) : Chip := event 5 (pgSlot n) [(c.slot n).sts] c
def Chip.seqTab (c : Chip) : Nat := c.rg64 (ra (pgSlot 0) 0x1F0)
def Chip.descAddr (c : Chip) (i : Nat) : Nat := c.seqTab + 256 * i

/-- Enter APPEND_STALL. -/
def stallSlot (n cause layer : Nat) (c : Chip) : Chip :=
  let s := c.slot n
  if s.st = 2 then
    slotEvent n (ucSeq n 8 cause layer (c.setSlot n { s with st := 3, cause := cause, layer := layer }))
  else c
/-- Enter FAULTED; cause 0 leaves STALL_CAUSE. -/
def faultSlot (n cause layer : Nat) (c : Chip) : Chip :=
  let s := c.slot n
  if s.st = 2 ∨ s.st = 3 then
    slotEvent n (ucSeq n 9 cause layer (c.setSlot n
      { s with st := 4, cause := if cause = 0 then s.cause else cause, layer := if cause = 0 then s.layer else layer }))
  else c
/-- A refused command: its code, and a CE. -/
def refuseSlot (n code v : Nat) (c : Chip) : Chip :=
  ce (pgSlot n) 12 (ra (pgSlot n) 0x100) v (c.setSlot n { c.slot n with refuse := code })

/-- Frames missing from the reserves. -/
def Slot.short (s : Slot) : Nat :=
  (s.reserve.map (fun r => dRsv s.words - r.length)).sum
/-- Note the beat at which the reserves fell short or were full again (R157). -/
def noteShort (n : Nat) (c : Chip) : Chip :=
  let s := c.slot n
  if s.short = 0 then c.setSlot n { s with shortAt := none }
  else if s.shortAt.isNone then c.setSlot n { s with shortAt := some c.beat } else c

/-- Give one frame to a layer's reserve; reserves stay in ascending order. -/
def fillReserve (n layer : Nat) (c : Chip) : Chip :=
  let s := c.slot n
  let r := s.reserve.getD layer []
  if dRsv s.words ≤ r.length then c else
  match takeFrame 1 31 s.desc c with
  | some (k, c1) => c1.setSlot n { s with reserve := setAt s.reserve layer (insertAsc k r) }
  | none => c
/-- Return every reserve frame to the pool. -/
def dropReserves (n : Nat) (c : Chip) : Chip :=
  let s := c.slot n
  let c1 := forEach s.reserve.flatten (fun k q => q.freeRec 0 k) c
  noteLow (c1.setSlot n { s with reserve := s.reserve.map (fun _ => []) })

/-! ### Bind, park, release (R137 to R139, R150, R163, R164) -/

/-- Checks of R138 and R144 on a descriptor's words. -/
def descBad (w : List Nat) (lens : List Nat) : Bool :=
  let t := dTpp w
  let fOk (f : Nat) : Bool := decide (5 ≤ f ∧ f ≤ 9)
  fld 31 13 (wd w 0) != 0 || fld 7 2 (wd w 0) != 0 ||
  decide (dLayers w = 0 ∨ 128 < dLayers w) || decide (dHeads w = 0 ∨ 8 < dHeads w) ||
  fld 15 13 (wd w 2) != 0 || fld 19 18 (wd w 2) != 0 || fld 31 28 (wd w 2) != 0 ||
  !fOk (dKFmt w) || !fOk (dVFmt w) || fld 15 3 (wd w 3) != 0 || dRsv w == 0 ||
  fld 15 9 (wd w 4) != 0 || fld 31 25 (wd w 4) != 0 || decide (dMembers w = 0 ∨ 256 < dMembers w) ||
  decide (dMembers w ≤ dMember w) || dQuota w == 0 || dQuota w % t != 0 ||
  decide (2 ^ 32 < dMembers w * dQuota w) || decide (2 ^ 48 ≤ dRoot w) || dRoot w % 64 != 0 ||
  fld 31 11 (wd w 9) != 0 || decide (dBlocks w = 0 ∨ 1024 < dBlocks w) ||
  decide (dBlocks w * 512 < dQuota w / t) || decide (2 ^ 48 ≤ dLenTab w) || dLenTab w % 64 != 0 ||
  decide (262144 < t * dHeads w * (kvRow (dKFmt w) (dDim w) + kvRow (dVFmt w) (dDim w) + dDim w / 16)) ||
  lens.any (fun x => decide (dQuota w < x))

/-- BIND (R164): check the descriptor, mark it BOUND, and fill the reserves as far as the pool reaches. A length table that
cannot be read makes the descriptor malformed (DEDUCED, log 23). -/
def bindSlot (n desc v : Nat) (c : Chip) : Chip :=
  let s := c.slot n
  if s.st ≠ 0 then refuseSlot n 1 v c
  else if c.seqTab = 0 ∨ t0Size < c.seqTab + 2 ^ 20 then refuseSlot n 4 v c
  else
    let a := c.descAddr desc
    let w := leWords 12 (c.bytes a 48)
    let st := fld 1 0 (wd w 0)
    if st ≠ 0 ∧ st ≠ 2 then refuseSlot n 2 v c
    else
      let (c0, tab) := tasFetch (dLenTab w) (4 * min 128 (dLayers w)) c
      let lens := match tab with | .ok l => leWords (min 128 (dLayers w)) l | _ => [2 ^ 32]
      if descBad w lens || (List.range 20).any (fun i => c.le (a + 0x30 + 4 * i) 4 != 0) then refuseSlot n 3 v c0
      else
        let s' : Slot :=
          { st := 1, desc := desc, words := w, root := dRoot w, dirGen := wd w 8, lens := lens
            cursors := lens.flatMap (fun x => List.replicate 16 x)
            reserve := lens.map (fun _ => []), bindAt := c.beat }
        let c1 := (c0.setSlot n s').storeLe a 4 (1 + 2 ^ 8 * n)
        let c2 := forEach (List.range (dLayers w)) (fun l k =>
          (List.range (dRsv w)).foldl (fun q _ => fillReserve n l q) k) c1
        noteShort n c2

/-- The slot enters READY when every reserve is full (R150). -/
def bindDone (n : Nat) (c : Chip) : Chip :=
  let s := c.slot n
  if s.st = 1 ∧ s.short = 0 then c.setSlot n { s with st := 2, refuse := 0, shortAt := none } else c

/-- Reserves not filled in EVICT_SLACK: back to IDLE, the descriptor as it was (R150). -/
def bindLate (n : Nat) (c : Chip) : Chip :=
  let s := c.slot n
  if s.st = 1 ∧ s.short ≠ 0 ∧ s.bindAt + dSlack s.words ≤ c.beat then
    let c1 := (dropReserves n c).storeLe (c.descAddr s.desc) 4 (wd s.words 0)
    refuseSlot n 5 (1 + 2 ^ 16 * s.desc) (c1.setSlot n { lost := s.lost })
  else c

/-- Cursor of layer, head, kind. -/
def Slot.cursor (s : Slot) (layer head kind : Nat) : Nat := s.cursors.getD (16 * layer + 2 * head + kind) 0
def Slot.len (s : Slot) (layer : Nat) : Nat := s.lens.getD layer 0
/-- The 2H cursors of a layer. -/
def Slot.layerCur (s : Slot) (layer : Nat) : List Nat := (s.cursors.drop (16 * layer)).take (2 * dHeads s.words)
/-- Every cursor equals its layer's LEN. -/
def Slot.whole (s : Slot) : Bool :=
  (List.range s.lens.length).all (fun l => (s.layerCur l).all (fun x => x == s.len l))
def Slot.resetCursors (s : Slot) : Slot := { s with cursors := s.lens.flatMap (fun x => List.replicate 16 x) }

/-- Bytes 0x00-0x7F of the descriptor as the slot holds it, with a STATE. -/
def Slot.descBytes (s : Slot) (n state : Nat) : List Byte :=
  leBytes 4 (state + 2 ^ 8 * n) ++ ((s.words.drop 1).take 5).flatMap (leBytes 4) ++ leBytes 8 s.root ++ leBytes 4 s.dirGen ++
  ((s.words.drop 9).take 3).flatMap (leBytes 4) ++ List.replicate 80 0#8
/-- Write the descriptor and the length table back whole (R139). -/
def writeDesc (n state : Nat) (c : Chip) : Chip :=
  let s := c.slot n
  (tasWrite (dLenTab s.words) (s.lens.flatMap (leBytes 4)) (c.store (c.descAddr s.desc) (s.descBytes n state))).1

def quarOf (n : Nat) (c : Chip) : Nat := c.quar.countP (fun q => q.slot == n)
/-- PARKING ends once the slot's quarantine is empty; APPEND_LOST is cleared at BIND only (R152). -/
def parkDone (n : Nat) (c : Chip) : Chip :=
  let s := c.slot n
  if s.st = 5 ∧ quarOf n c = 0 then c.setSlot n { lost := s.lost } else c

/-- Put a frame into quarantine (R160, R162). -/
def quarFrame (n tag tier frame : Nat) (c : Chip) : Chip :=
  let c1 := if refCnt c tier frame ≤ 1 then setKind tier frame 4 c else c
  { c1 with quar := c1.quar ++ [{ tag := tag, slot := n, tier := tier, idx := frame }] }
/-- Put a directory structure of `k` units at an address into quarantine. -/
def quarUnit (n tag addr k : Nat) (c : Chip) : Chip :=
  { c with quar := c.quar ++ [{ tag := tag, slot := n, unit := true, tier := k, idx := addr }] }
/-- Units of a block table. -/
def tabUnits (w : List Nat) : Nat := max 1 (ceilDiv (8 * dBlocks w) 4096)

/-- Entries of quarantine that a publication's swap will need (R158, R162). -/
def Edited.needs (x : Edited) : Nat := x.drops.length + x.blocks.length + (x.blocks.map (·.1)).dedup.length + 1
/-- Quarantine entries in use, and those kept for the swaps of what is built. -/
def quarHeld (c : Chip) : Nat :=
  c.quar.length + ((List.range 32).map (fun n => match (c.slot n).publ with | some p => p.res.needs | none => 0)).sum
def quarSize : Nat := 16384
/-- What a RELEASE drops goes to quarantine while that has room (R162, R164). -/
def handOver (n : Nat) (c : Chip) : Chip :=
  let s := c.slot n
  let k := quarSize - quarHeld c
  (s.toQuar.take k).foldl (fun q x =>
    if x.unit then { q with quar := q.quar ++ [x] } else quarFrame n x.tag x.tier x.idx q)
    (c.setSlot n { s with toQuar := s.toQuar.drop k })

/-- RELEASING ends once everything is handed over and quarantine is empty (R150). -/
def releaseDone (n : Nat) (c : Chip) : Chip :=
  let s := c.slot n
  if s.st = 6 ∧ s.toQuar = [] ∧ quarOf n c = 0 then c.setSlot n { lost := s.lost } else c

/-- RESUME (R151). -/
def resumeSlot (n v : Nat) (c : Chip) : Chip :=
  let s := c.slot n
  if s.st ≠ 3 then refuseSlot n 1 v c
  else if s.short ≠ 0 ∨ (s.cause = 2 ∧ dQuota s.words ≤ s.len s.layer) then refuseSlot n 5 v c
  else c.setSlot n { s.resetCursors with st := 2, refuse := 0, cause := 0 }

/-- CLEAR_FAULT (R151). -/
def clearFault (n v : Nat) (c : Chip) : Chip :=
  let s := c.slot n
  if s.st ≠ 4 then refuseSlot n 1 v c
  else c.setSlot n { s.resetCursors with st := 2, refuse := 0, cause := 0 }

/-! ### Envelopes (R145) -/

/-- E4M3 code of x / 2^(es - 127) rounded toward -infinity or +infinity. -/
def envCode (up : Bool) (es : Nat) : Num → Nat
  | .fin neg m e =>
    if m = 0 then 0 else
    let e' := e - ((es : Int) - 127)
    let q := max ((Nat.log2 m : Int) + e' - 3) (-9)
    let away := neg != up
    let k := if q ≤ e' then m <<< (e' - q).toNat
      else
        let d := 2 ^ (q - e').toNat
        if away then ceilDiv m d else m / d
    mxCode .e4m3 neg (if k = 16 then 8 else k) (if k = 16 then q + 1 else q)
  | _ => 0
/-- Order of E4M3 codes by value. -/
def envKey (c : Nat) : Int := if c < 128 then c else -((c : Int) - 128)
def envMin (a b : Nat) : Nat := if envKey b < envKey a then b else a
def envMax (a b : Nat) : Nat := if envKey a < envKey b then b else a

/-- `env_add` on the metadata record at address `ma` (frame offset 0x4_0000) for head h and a key row; once
ENV_NAN is set the head's codes are no longer updated (R145; DEDUCED, log 23). -/
def envAdd (ma h : Nat) (k : List F32) (c : Chip) : Chip :=
  if (c.byteAt (ma + 0x13)).getLsbD h then c
  else if k.any (fun x => !isFin x) then
    c.store (ma + 0x13) [c.byteAt (ma + 0x13) ||| BitVec.ofNat 8 (2 ^ h)]
  else
    let a := k.foldl (fun m x => fMax m (fAbs x)) fZero
    let need := if isZero a then 1 else max 1 (floorLog2 a - 7 + 127)
    let es := (c.byteAt (ma + 0x20 + h)).toNat
    let code (up : Bool) (e : Nat) (l : List Num) : List Nat := l.map (envCode up e)
    let vals := k.map num
    let put (e : Nat) (lo hi : List Nat) : Chip :=
      ((c.store (ma + 0x20 + h) [BitVec.ofNat 8 e]).store (ma + 0x800 + 256 * h) (lo.map (BitVec.ofNat 8))).store
        (ma + 0x880 + 256 * h) (hi.map (BitVec.ofNat 8))
    if es = 0 then put need.toNat (code false need.toNat vals) (code true need.toNat vals)
    else
      let lo := (List.range k.length).map (fun d => (c.byteAt (ma + 0x800 + 256 * h + d)).toNat)
      let hi := (List.range k.length).map (fun d => (c.byteAt (ma + 0x880 + 256 * h + d)).toNat)
      let e := max es need.toNat
      let re (up : Bool) (l : List Nat) : List Nat :=
        if es < e then l.map (fun x => envCode up e (nScale ((es : Int) - 127) (mxElem .e4m3 x))) else l
      put e (List.zipWith envMin (re false lo) (code false e vals)) (List.zipWith envMax (re true hi) (code true e vals))

/-! ### Appending (R153 to R156) -/

/-- Discard a row (R153). -/
def loseRow (n : Nat) (c : Chip) : Chip :=
  let s := c.slot n
  c.setSlot n { s with lost := sat32 s.lost 1 }

/-- The first row of a page takes the lowest reserve frame (R155); none when the reserve is empty. -/
def firstRow (n layer page : Nat) (c : Chip) : Option Chip :=
  let s := c.slot n
  match s.reserve.getD layer [] with
  | [] => none
  | f :: r =>
    let w := s.words
    let ma := c.frameAddr f + payloadSize
    let hdr := leBytes 4 (wd w 1) ++
      leBytes 4 (layer + 2 ^ 8 * dHeads w + 2 ^ 12 * fld 12 12 (wd w 2) + 2 ^ 16 * fld 17 16 (wd w 2) +
        2 ^ 20 * dKFmt w + 2 ^ 24 * dVFmt w) ++
      leBytes 4 page ++ leBytes 4 (dMember w * dQuota w + page * dTpp w) ++ leBytes 4 0 ++ leBytes 4 1
    let c1 := ((c.setSlot n { s with reserve := setAt s.reserve layer r }).store ma hdr).setRec 0 f 2 0 31 0 s.desc 0
    some (noteShort n (c1.storeLe (pteAddr c1 s.root layer page) 8 (mkPte f 0 false false s.dirGen 0)))

/-- A ring runs the current step of a slot. -/
def inStep (c : Chip) (n : Nat) : Bool := (List.range 32).any (fun x => (c.ring x).st == 3 && (c.ring x).slot == n)

/-- A row at the append port (R153): handle, format, N bound, packed elements and scales. In APPEND_STALL a row that meets an
empty reserve faults the slot (R150), and those of the current step go on with the frames still in the reserve where the
stall is for want of one (R157). The bits [23:16] of a handle have no meaning and are ignored (log 22). The record of its
discard is `appendRows`'s. -/
def appendOne (handle fmt nb : Nat) (elems scales : List Byte) (c : Chip) : Chip :=
  let n := fld 4 0 handle
  let kind := fld 5 5 handle
  let head := fld 8 6 handle
  let layer := fld 15 9 handle
  let s := c.slot n
  let w := s.words
  let d := dDim w
  if (s.st ≠ 2 ∧ s.st ≠ 3) ∨ dHeads w ≤ head ∨ dLayers w ≤ layer ∨ nb ≠ d ∨ fmt ≠ (if kind = 0 then dKFmt w else dVFmt w) then
    loseRow n c
  else
    let pos := s.cursor layer head kind
    if dQuota w ≤ pos then stallSlot n 2 layer (loseRow n c)
    else
      let t := dTpp w
      let page := pos / t
      let tok := pos % t
      match (if eValid (pte c s.root layer page) then some c else firstRow n layer page c) with
      | none => faultSlot n 3 layer (loseRow n c)
      | some c1 =>
        if s.st = 3 ∧ (s.cause ≠ 1 ∨ inStep c n = false) then loseRow n c else
        let f := eFrame (pte c1 s.root layer page)
        let base := c1.frameAddr f
        let h := dHeads w
        let kb := kvRow (dKFmt w) d
        let vb := kvRow (dVFmt w) d
        let row := head * t + tok
        let rb := if kind = 0 then kb else vb
        let eo := if kind = 0 then row * kb else kvVO h t kb + row * vb
        let so := (if kind = 0 then kvKS h t kb vb else kvVS h t kb vb d) + row * (d / 32)
        let el := elems.take rb
        let sc := scales.take (d / 32)
        let c2 := ((c1.store (base + eo) el).store (base + so) sc).touch 0 f
        let c3 := if kind = 0 then
            match fmtOf fmt with
            | some g =>
              let rd : Rd := fun o => (el.getD o 0#8).toNat
              envAdd (base + payloadSize) head ((List.range d).map (fun i =>
                toF32 g ((sc.getD (i / 32) 0#8).toNat) (elemCode rd (fmtBits g) 0 i))) c2
            | none => c2
          else c2
        let s3 := c3.slot n
        let s4 := { s3 with cursors := setAt s3.cursors (16 * layer + 2 * head + kind) (pos + 1) }
        let len := (s4.layerCur layer).foldl min (pos + 1)
        if len = s4.len layer then c3.setSlot n s4
        else
          let p0 := (len - 1) / t
          let f0 := eFrame (pte c3 s.root layer p0)
          let c4 := c3.storeLe (c3.frameAddr f0 + payloadSize + 0x10) 2 (len - p0 * t)
          c4.setSlot n { s4 with
            lens := setAt s4.lens layer len
            seals := if len % t = 0 then s4.seals ++ [(layer, p0)] else s4.seals }

/-- The rows a TOD brings to the append port together, each with its elements and scales: one UC for those
discarded (R153), not nested in the stall or fault that the same rows caused (R427; log 15). -/
def appendRows (handle fmt nb : Nat) (rows : List (List Byte × List Byte)) (c : Chip) : Chip :=
  let n := fld 4 0 handle
  let pg := pgSlot n
  let base := c.rg (ra pg 0x10)
  let c1 := rows.foldl (fun k x => appendOne handle fmt nb x.1 x.2 k) c
  let lost := (c1.slot n).lost - (c.slot n).lost
  if lost = 0 then c1
  else
    let c2 := c1.setRg (ra pg 0x10) base
    let c3 := if (c.slot n).st = 0 then ucOp pg 10 0 lost handle c2 else ucSeq n 10 lost handle c2
    c3.setRg (ra pg 0x10) (c3.rg (ra pg 0x10) ||| c1.rg (ra pg 0x10))

/-- APPEND_ROW: one row at the append port. -/
def appendRow (handle fmt nb : Nat) (elems scales : List Byte) (c : Chip) : Chip :=
  appendRows handle fmt nb [(elems, scales)] c

/-- Used size of a slot's payload (R141). -/
def usedSize (w : List Nat) : Nat :=
  kvUsed (dHeads w) (dTpp w) (kvRow (dKFmt w) (dDim w)) (kvRow (dVFmt w) (dDim w)) (dDim w)

/-- Used size of a frame from its own metadata header word 0x04. -/
def usedOf (m : Nat) : Nat :=
  let d := if bit 12 m then 128 else 64
  kvUsed (fld 11 8 m) (64 * 2 ^ fld 17 16 m) (kvRow (fld 23 20 m) d) (kvRow (fld 27 24 m) d) d

/-- SEAL_CRC of a frame (R143). -/
def sealCrc (c : Chip) (tier f : Nat) : Nat :=
  crc32 (c.frameBytes tier f 0 (usedOf (metaW c tier f 4)) ++ c.frameBytes tier f (payloadSize + 0x20) 0xFE0)

/-- Seal the page that waits first for this layer (R156). -/
def sealPage (n layer : Nat) (c : Chip) : Chip :=
  let s := c.slot n
  match s.seals.find? (fun x => x.1 == layer) with
  | none => c
  | some x =>
    let a := pteAddr c s.root layer x.2
    let e := c.le a 8
    let f := eFrame e
    let ma := c.frameAddr f + payloadSize
    let t := dTpp s.words
    let c1 := ((c.setSlot n { s with seals := s.seals.erase x }).storeLe (ma + 0x18) 4 (sealCrc c 0 f)).storeLe (ma + 0x10) 4
      (setFld 9 0 (setFld 16 16 (c.le (ma + 0x10) 4) 1) t)
    let c2 := c1.storeLe a 8 (setFld 54 45 (setFld 34 34 e 1) t)
    c2.setRecW 0 f 0 (setFld 4 4 (c2.recW 0 f 0) 1)

/-- The pool supplies a frame to a reserve (R155, R157). -/
def refillReserve (n layer : Nat) (c : Chip) : Chip :=
  let s := c.slot n
  if 1 ≤ s.st ∧ s.st ≤ 4 ∧ layer < s.reserve.length then noteShort n (fillReserve n layer c) else c

/-- Reserves still short EVICT_SLACK beats after they fell short (R157). -/
def slackExpire (n : Nat) (c : Chip) : Chip :=
  let s := c.slot n
  match s.shortAt with
  | some b =>
    if s.st = 2 ∧ b + dSlack s.words ≤ c.beat then
      stallSlot n 1 ((s.reserve.findIdx? (fun r => decide (r.length < dRsv s.words))).getD 0) c
    else c
  | none => c

/-! ### Latches, horizon and quarantine (R161, R162) -/

def Slot.horizon (s : Slot) (sw : Option Nat) : Nat :=
  ((s.latches.map (·.gen)) ++ sw.toList).foldl (fun h g => if serialLt g h then g else h) s.dirGen
def horizonOf (n : Nat) (c : Chip) : Nat :=
  (c.slot n).horizon (if bit 0 (c.rg (ra (pgSlot n) 0x144)) then some (c.rg (ra (pgSlot n) 0x140)) else none)
/-- A latch is taken. -/
def addLatch (n : Nat) (l : Latch) (c : Chip) : Chip :=
  let s := c.slot n
  c.setSlot n { s with latches := s.latches ++ [l] }
/-- A reader latches a slot as it stands. -/
def latchSlot (n who : Nat) (c : Chip) : Chip :=
  let s := c.slot n
  c.setSlot n { s with latches := s.latches ++ [{ who := who, root := s.root, gen := s.dirGen, lens := s.lens }] }
def unlatch (n who : Nat) (c : Chip) : Chip :=
  let s := c.slot n
  c.setSlot n { s with latches := s.latches.eraseP (fun l => l.who == who) }

/-- A frame without references is free, or BAD for good when an error was found in it (R316, R338). -/
def retire (tier f : Nat) (c : Chip) : Chip :=
  if bit 6 (c.recW tier f 0) then c.setRec tier f 6 0 0 0 0 0 else c.freeRec tier f

/-- A lower-tier frame loses a reference; at 0 it and its shelf entry are free (R162, R324, R325). -/
def dropLow (tier f : Nat) (c : Chip) : Chip :=
  let r := refCnt c tier f
  if 1 < r then setRef tier f (r - 1) c
  else
    let shelf := fld 23 0 (c.recW tier f 2)
    let kv := c.recKind tier f == 2 || c.recKind tier f == 4
    let bad := bit 6 (c.recW tier f 0)
    let c1 := retire tier f c
    let c2 := if kv then c1.dropShelf shelf else c1
    if tier = 1 ∧ bad = false then
      let l := fld 29 26 f
      sendPkt { dest := (c2.loan l).peer, kind := 0x05, cls := 2, tag := l, body := leBytes 4 (fld 25 0 f) } c2
    else c2

/-- A T0 frame loses a reference; at 0 it returns to the pool, and a home it holds loses its own
(R162, R323). -/
def dropT0 (f : Nat) (c : Chip) : Chip :=
  let r := refCnt c 0 f
  if 1 < r then setRef 0 f (r - 1) c
  else
    let w := c.recW 0 f 0
    let k := c.recW 0 f 3
    let c1 := retire 0 f c
    noteLow (if bit 7 w then dropLow (fld 31 30 k) (fld 29 0 k) c1 else c1)

/-- Release quarantine entry i (R162). -/
def quarRelease (i : Nat) (c : Chip) : Chip :=
  match c.quar[i]? with
  | none => c
  | some q =>
    if serialLt (horizonOf q.slot c) q.tag then c
    else
      let c1 := { c with quar := c.quar.eraseIdx i }
      if q.unit then
        if c1.unitBase ≤ q.idx ∧ q.idx < c1.unitBase + 4096 * c1.unitCount then
          (List.range q.tier).foldl (fun k j => k.dropUnit ((q.idx - c1.unitBase) / 4096 + j)) c1
        else c1
      else if q.tier = 0 then dropT0 q.idx c1 else dropLow q.tier q.idx c1
/-- Release quarantine entry i; what a RELEASE has still to hand over takes the room, slot by slot. -/
def quarTurn (i : Nat) (c : Chip) : Chip := forEach (List.range 32) handOver (quarRelease i c)

/-! ### Poisoned pages (R148, R338) -/

/-- The MTM logs an uncorrectable error as a DE; one read from a T2 slot is counted there (R338, R342). -/
def foundBad (tier f a : Nat) (c : Chip) : Chip :=
  let c1 := addrErr (fun d0 d1 k => logErr { cls := 1, cause := 10, page := pgMtm, d0 := d0, d1 := d1 } k) a c
  if tier = 2 then
    let s := fld 29 27 f
    logErr { cls := 1, cause := 10, page := pgCxl (s / 4), d0 := f } (c1.bumpRg (bank (s % 4) (pgCxl (s / 4)) 0x12C) 1)
  else c1
/-- A frame in which an error was found: it is retired once nothing references it. -/
def badFrame (tier f : Nat) (c : Chip) : Chip := c.setRecW tier f 0 (setFld 6 6 (c.recW tier f 0) 1)
/-- The MTM sets POISONED for a frame found bad in the entry of the structures now in force, where that entry still names the
frame (R148, R160, R338). -/
def poisonEntry (n layer page tier f : Nat) (c : Chip) : Chip :=
  let a := pteAddr c (c.slot n).root layer page
  let e := c.le a 8
  let c1 := if eValid e ∧ eTier e = tier ∧ eFrame e = f then c.storeLe a 8 (setFld 35 35 e 1) else c
  foundBad tier f a (badFrame tier f c1)

/-! ### Edits (R158) -/

def edOp (e : List Nat) : Nat := fld 3 0 (wd e 0)
def edAll (e : List Nat) : Bool := bit 4 (wd e 0)
def edLayer (e : List Nat) : Nat := fld 11 5 (wd e 0)
def edTier (e : List Nat) : Nat := fld 14 12 (wd e 0)
def edFirst (e : List Nat) : Nat := fld 19 0 (wd e 1)
def edCount (e : List Nat) : Nat := fld 19 0 (wd e 2)
def edArg (e : List Nat) : Nat := wd e 3

def editBad (layers : Nat) (e : List Nat) : Bool :=
  let op := edOp e
  let mv := op == 3 || op == 4
  op == 0 || decide (6 < op) || fld 31 15 (wd e 0) != 0 || (edAll e && edLayer e != 0) || decide (layers ≤ edLayer e) ||
  (if op = 4 then edTier e != 1 && edTier e != 2 else edTier e != 0) ||
  fld 31 20 (wd e 1) != 0 || fld 31 20 (wd e 2) != 0 || edCount e == 0 || (mv && edCount e != 1) ||
  (if mv then fld 31 30 (edArg e) != 0 else if op = 2 then fld 31 12 (edArg e) != 0 else edArg e != 0)

/-- Root and words of a FORK source: from its slot while BOUND, else from the descriptor. -/
def forkSrc (c : Chip) (i : Nat) : Option (Nat × List Nat) :=
  let w := leWords 12 (c.bytes (c.descAddr i) 48)
  match fld 1 0 (wd w 0) with
  | 1 => let s := c.slot (fld 12 8 (wd w 0)); if s.desc = i ∧ s.words ≠ [] then some (s.root, s.words) else none
  | 2 => some (dRoot w, w)
  | _ => none

/-- A frame index exists in its tier. -/
def frameOk (c : Chip) (tier f : Nat) : Bool :=
  match tier with
  | 0 => decide (f < c.frameCount)
  | 1 => decide (fld 25 0 f < (c.loan (fld 29 26 f)).frames)
  | 2 => decide (fld 26 0 f < (c.t2s (fld 29 27 f)).frames)
  | _ => false

/-- The checks that depend on LEN or on a cursor (R158, R159): LEN by layer after this page, or the refusal's code. -/
def lenEdit (s : Slot) (e : List Nat) (l p : Nat) (lens : List Nat) : Except Nat (List Nat) :=
  let t := dTpp s.words
  let len := lens.getD l 0
  if edOp e ≠ 2 then (if len / t ≤ p then .error 2 else .ok lens)
  else if len % t ≠ 0 ∨ p ≠ len / t ∨ !((s.layerCur l).all (fun q => q == s.len l)) then .error 4
  else .ok (setAt lens l (len + t))

/-- One page of one edit. -/
def editPage (c : Chip) (s : Slot) (idx : Nat) (e : List Nat) (l p : Nat) (x : Edited) : Edited :=
  if x.bad.isSome then x else
  let w := s.words
  let t := dTpp w
  let fail (code : Nat) : Edited := { x with bad := some (code, idx) }
  if dBlocks w * 512 ≤ p then fail 3
  else if edOp e ≠ 2 ∧ x.lens.getD l 0 / t ≤ p then fail 2
  else
    let key := l * 2 ^ 20 + p
    let gen := (s.dirGen + 1) % 256
    let cur := (x.ents.lookup key).getD (pte c s.root l p)
    let put (v : Nat) (y : Edited) : Edited :=
      { y with ents := (y.ents.filter (fun z => z.1 != key)) ++ [(key, v)]
               blocks := if y.blocks.contains (l, p / 512) then y.blocks else y.blocks ++ [(l, p / 512)] }
    let full := eValid cur && eFull cur
    match edOp e with
    | 1 => if !full then fail 4 else put 0 { x with drops := x.drops ++ [(eTier cur, eFrame cur)] }
    | 2 =>
      match forkSrc c (edArg e) with
      | none => fail 7
      | some (root, sw) =>
        if dHeads sw ≠ dHeads w ∨ dDim sw ≠ dDim w ∨ dTpp sw ≠ t ∨ dKFmt sw ≠ dKFmt w ∨ dVFmt sw ≠ dVFmt w ∨
           dQuota sw ≠ dQuota w ∨ dMember sw ≠ dMember w then fail 7
        else
          let src := if dLayers sw ≤ l ∨ dBlocks sw * 512 ≤ p then 0 else pte c root l p
          match lenEdit s e l p x.lens with
          | .error k => fail k
          | .ok lens =>
            let fr := (eTier src, eFrame src)
            if !(eValid src && eFull src) then fail 4
            else if 65535 < refCnt c fr.1 fr.2 + x.incs.count fr + 1 then fail 8
            else put (setFld 44 37 src gen) { x with incs := x.incs ++ [fr], lens := lens }
    | 5 => if !eValid cur then fail 4 else put (setFld 44 37 (setFld 36 36 cur 1) gen) x
    | 6 => if !eValid cur then fail 4 else put (setFld 44 37 (setFld 36 36 cur 0) gen) x
    | op =>
      let tier := if op = 3 then 0 else edTier e
      let f := fld 29 0 (edArg e)
      let old := (eTier cur, eFrame cur)
      if !full then fail 4
      else if op = 4 && ePin cur then fail 5
      else if tier != 0 && c.recKind tier f == 0 && c.takeShelf.isNone then fail 4
      else if !frameOk c tier f then fail 6
      else if metaW c tier f 0 ≠ metaW c old.1 old.2 0 ∨ fld 6 0 (metaW c tier f 4) ≠ fld 6 0 (metaW c old.1 old.2 4) ∨
          metaW c tier f 8 ≠ metaW c old.1 old.2 8 ∨ metaW c tier f 0x18 ≠ metaW c old.1 old.2 0x18 then fail 6
      else put (mkPte f tier true (ePin cur) gen t) { x with drops := x.drops ++ [old], news := x.news ++ [(tier, f)] }

/-- The layers and pages of an edit, in order. -/
def edPages (s : Slot) (e : List Nat) : List (Nat × Nat) :=
  (if edAll e then List.range (dLayers s.words) else [edLayer e]).flatMap (fun l =>
    (List.range (edCount e)).map (fun i => (l, edFirst e + i)))

/-- Every edit of a list in order (R158). -/
def runEdits (c : Chip) (s : Slot) (edits : List (List Nat)) : Edited :=
  edits.zipIdx.foldl (fun x y =>
    if x.bad.isSome then x
    else if editBad (dLayers s.words) y.1 then { x with bad := some (1, y.2) }
    else (edPages s y.1).foldl (fun q i => editPage c s y.2 y.1 i.1 i.2 q) x)
    { lens := s.lens }

/-- The checks made again at the swap, on LEN and the cursors as they then are (R159): LEN by layer, or the refusal. -/
def swapLens (s : Slot) (edits : List (List Nat)) : Except (Nat × Nat) (List Nat) :=
  edits.zipIdx.foldl (fun a y => (edPages s y.1).foldl (fun b i =>
    match b with
    | .error x => .error x
    | .ok lens =>
      match lenEdit s y.1 i.1 i.2 lens with
      | .error k => .error (k, y.2)
      | .ok l => .ok l) a) (.ok s.lens)

/-- A new entry with the in-place writes made since the build: those of an original that names the same frame (R160). -/
def carryPte (orig new : Nat) : Nat :=
  if eValid orig && eValid new && eTier orig == eTier new && eFrame orig == eFrame new then
    setFld 54 45 (setFld 35 34 new (fld 35 34 orig)) (fld 54 45 orig)
  else new

/-- Layers whose block table is copied. -/
def Edited.layers (x : Edited) : List Nat := (x.blocks.map (·.1)).dedup
/-- Sizes in units of the copies: blocks, block tables, root. -/
def Edited.sizes (x : Edited) (w : List Nat) : List Nat :=
  x.blocks.map (fun _ => 1) ++ x.layers.map (fun _ => tabUnits w) ++ [1]

/-- The lowest k adjacent free units. -/
def takeUnits (k : Nat) (c : Chip) : Option (Nat × Chip) :=
  let starts := 0 :: c.mtm.units.map (· + 1)
  let ok (u : Nat) : Bool := decide (u + k ≤ c.unitCount) && (List.range k).all (fun j => !c.mtm.units.contains (u + j))
  let good := starts.filter ok
  match good with
  | [] => none
  | u :: r =>
    if !c.poolEn then none else
    let v := r.foldl min u
    some (v, (List.range k).foldl (fun q j =>
      { q with mtm := { q.mtm with units := insertAsc (v + j) q.mtm.units } }) c)

/-- Take units for every copy. -/
def takeAll : List Nat → Chip → Option (List Nat × Chip)
  | [], c => some ([], c)
  | k :: r, c =>
    match takeUnits k c with
    | none => none
    | some (u, c1) =>
      match takeAll r c1 with
      | none => none
      | some (l, c2) => some ((List.range k).map (u + ·) ++ l, c2)

/-- FORK sources that an edit list reads and that are bound: their slots. -/
def forkSlots (c : Chip) (edits : List (List Nat)) : List Nat :=
  ((edits.filter (fun e => edOp e == 2)).filterMap (fun e =>
    let w := leWords 1 (c.bytes (c.descAddr (edArg e)) 4)
    if fld 1 0 (wd w 0) = 1 then some (fld 12 8 (wd w 0)) else none)).dedup

/-- Who latches for the edit engine of slot n. -/
def editWho (n : Nat) : Nat := 0x1000 + n

/-- Check a list and start building its copies; a refusal gives code and index (R158, R159). -/
def startBuild (n : Nat) (p : Publ) (c : Chip) : Except (Nat × Nat) Chip :=
  let s := c.slot n
  if !(s.st == 2 || s.st == 3 || s.st == 4) || s.publ.isSome then .error (11, 0)
  else
    let x := runEdits c s p.edits
    match x.bad with
    | some b => .error b
    | none =>
      if quarSize < quarHeld c + x.needs then .error (9, 0)
      else
        match takeAll (x.sizes s.words) c with
        | none => .error (10, 0)
        | some (us, c1) =>
          let c2 := c1.setSlot n { c1.slot n with publ := some { p with units := us, res := x, built := false } }
          .ok (forEach (forkSlots c p.edits) (fun m k => latchSlot m (editWho n) k) c2)

/-- The frame that a publication moves is no longer MOVING (R316). -/
def clearMoving (src : Option (Nat × Nat)) (c : Chip) : Chip :=
  match src with
  | some f => c.setRecW f.1 f.2 0 (setFld 8 8 (c.recW f.1 f.2 0) 0)
  | none => c

/-- Return what an abandoned MTM publication holds: its destination with its shelf entry (R322), or the
promoted copy and the reference on its home (R323). -/
def dropDest (p : Publ) (c : Chip) : Chip :=
  let c0 := clearMoving p.src c
  let c1 := match p.dst with
    | some (0, f) => noteLow (c0.freeRec 0 f)
    | some (t, f) => dropLow t f c0
    | none => c0
  match p.home with
  | some h => dropLow h.1 h.2 c1
  | none => c1

/-- A software publication is refused. -/
def refusePub (n : Nat) (b : Nat × Nat) (c : Chip) : Chip :=
  ce (pgSlot n) 11 b.1 b.2 (c.setSlot n { c.slot n with pubSt := 3, pubCode := b.1, pubIdx := b.2 })

/-- Start a software publication for a beat. -/
def armPub (n at_ : Nat) (c : Chip) : Chip :=
  let a := c.rg64 (ra (pgSlot n) 0x120)
  let k := fld 10 0 (c.rg (ra (pgSlot n) 0x128))
  if k = 0 ∨ 1024 < k ∨ a % 16 ≠ 0 then refusePub n (1, 0) c
  else
    match c.tasRead a (16 * k) with
    | .ok l =>
      let edits := (List.range k).map (fun i => leWords 4 (l.drop (16 * i)))
      match startBuild n { sw := true, edits := edits, at_ := at_ } c with
      | .error b => refusePub n b c
      | .ok c1 => c1.setSlot n { c1.slot n with pubSt := 1, pubCode := 0, pubIdx := 0 }
    | _ => refusePub n (1, 0) c

/-- Start the next waiting MTM publication when none is in work; a refused one is abandoned. -/
def nextOne (n : Nat) (c : Chip) : Chip :=
  let s := c.slot n
  match s.publ, s.armWait, s.mtmWait with
  | none, none, p :: r =>
    let c1 := c.setSlot n { s with mtmWait := r }
    match startBuild n p c1 with
    | .ok c2 => c2
    | .error _ => dropDest p c1
  | _, _, _ => c
/-- The same, past every one that is refused. -/
def nextMtm (n : Nat) (c : Chip) : Chip := (c.slot n).mtmWait.foldl (fun k _ => nextOne n k) c

/-- The MTM submits a publication (R159). -/
def mtmPublish (n : Nat) (p : Publ) (c : Chip) : Chip :=
  nextMtm n (c.setSlot n { c.slot n with mtmWait := (c.slot n).mtmWait ++ [{ p with sw := false }] })

/-- PUB_BEAT_HI written: arm (R159). A write while ARMED is ignored (R351); a software arm during an MTM
build waits for its swap. -/
def pubArm (n hi : Nat) (c0 : Chip) : Chip :=
  let a := ra (pgSlot n) 0x12C
  if (c0.slot n).pubSt = 1 then ignored (a + 4) hi c0
  else
    let c := pairApply a hi c0
    let s := c.slot n
    match s.publ with
    | some _ => c.setSlot n { s with armWait := some (c.rg64 a), pubSt := 1, pubCode := 0, pubIdx := 0 }
    | none => armPub n (c.rg64 a) c

/-- The copies are built (R159); an MTM publication takes the next beat boundary. -/
def pubBuilt (n : Nat) (c : Chip) : Chip :=
  let s := c.slot n
  match s.publ with
  | some p =>
    if p.built then c
    else
      let late := p.sw && decide (p.at_ ≤ c.beat)
      let at_ := if p.sw && !late then p.at_ else c.beat + 1
      let c1 := c.setSlot n { s with publ := some { p with built := true, late := late, at_ := at_ } }
      if late then itemLate (pgSlot n) p.at_ c1 else c1
  | none => c

/-- Give a publication's units back and end its latches. -/
def dropBuild (n : Nat) (p : Publ) (c : Chip) : Chip :=
  let c1 := p.units.foldl (fun k u => k.dropUnit u) c
  let c2 := forEach (forkSlots c p.edits) (fun m k => unlatch m (editWho n) k) c1
  c2.setSlot n { c2.slot n with publ := none }

/-- After a publication ends: a waiting software arm first, else the next MTM publication. -/
def afterPub (n : Nat) (c : Chip) : Chip :=
  let s := c.slot n
  match s.armWait with
  | some at_ => armPub n at_ (c.setSlot n { s with armWait := none })
  | none => nextMtm n c

/-- PUB_DISARM (R159). -/
def pubDisarm (n v : Nat) (c : Chip) : Chip :=
  let s := c.slot n
  match s.publ, s.armWait with
  | some p, w =>
    if p.sw then
      let c1 := dropBuild n p c
      afterPub n (c1.setSlot n { c1.slot n with pubSt := 0 })
    else if w.isSome then c.setSlot n { s with armWait := none, pubSt := 0 }
    else ignored (ra (pgSlot n) 0x148) v c
  | none, _ => ignored (ra (pgSlot n) 0x148) v c

/-- The copies in their units: each touched block with its entries, its block table, and the root.
Originals are read at the swap, so every in-place write since the build is carried (R160). -/
def writeCopies (n : Nat) (p : Publ) (x : Edited) (c : Chip) : Chip × Nat :=
  let s := c.slot n
  let w := s.words
  let ua (i : Nat) : Nat := c.unitBase + 4096 * p.units.getD i 0
  let nb := x.blocks.length
  let c1 := x.blocks.zipIdx.foldl (fun k y => k.copyMem (dirBlk c s.root y.1.1 y.1.2) (ua y.2) 4096) c
  let c2 := x.ents.foldl (fun k y =>
    let l := y.1 / 2 ^ 20
    let pg := y.1 % 2 ^ 20
    match x.blocks.idxOf? (l, pg / 512) with
    | some i => k.storeLe (ua i + 8 * (pg % 512)) 8 (carryPte (pte c s.root l pg) y.2)
    | none => k) c1
  let ta (j : Nat) : Nat := ua (nb + j * tabUnits w)
  let c3 := x.layers.zipIdx.foldl (fun k y => k.copyMem (blkTab c s.root y.1) (ta y.2) (8 * dBlocks w)) c2
  let c4 := x.blocks.zipIdx.foldl (fun k y =>
    match x.layers.idxOf? y.1.1 with
    | some j => k.storeLe (ta j + 8 * y.1.2) 8 (ua y.2)
    | none => k) c3
  let root := ua (nb + x.layers.length * tabUnits w)
  let c5 := c4.copyMem s.root root (8 * dLayers w)
  (x.layers.zipIdx.foldl (fun k y => k.storeLe (root + 8 * y.1) 8 (ta y.2)) c5, root)

/-- A demoted T0 copy returns to the home it held: the home's reference is now the entry's (R322). -/
def clearHeld (old new : Nat × Nat) (c : Chip) : Chip :=
  if old.1 = 0 ∧ bit 7 (c.recW 0 old.2 0) ∧ c.recW 0 old.2 3 = new.2 + 2 ^ 30 * new.1 then
    c.setRecW 0 old.2 0 (setFld 7 7 (c.recW 0 old.2 0) 0)
  else c

/-- The shelf entry of a frame (R175). -/
def writeShelf (s tier f : Nat) (c : Chip) : Chip :=
  c.store (c.shelfBase + 2112 * s) (c.frameBytes tier f payloadSize 64 ++ c.frameBytes tier f (payloadSize + 0x800) 2048)

/-- A frame that software names in MOVE or DEMOTE leaves the pool of its tier: its record is that of a sealed KV
frame, with a shelf entry in a lower tier (R316, R322; DEDUCED, log 23). -/
def adoptFrame (desc tier f : Nat) (c : Chip) : Chip :=
  if c.recKind tier f ≠ 0 then c
  else if tier = 0 then c.setRec 0 f 2 1 31 0 desc 0
  else match c.takeShelf with
    | some (k, c1) => (writeShelf k tier f c1).setRec tier f 2 1 31 1 k desc
    | none => c

/-- The swap (R160): of what the build made, with LEN as it now is; PUB_STS is PUBLISHED for either origin. -/
def pubSwap (n : Nat) (c0 : Chip) : Chip :=
  let s := c0.slot n
  match s.publ with
  | none => c0
  | some p =>
    if !p.built || !c0.come p.at_ then c0
    else
      let c := latePassed (pgSlot n) p.at_ c0
      match swapLens s p.edits with
      | .error b =>
        let c1 := dropBuild n p c
        afterPub n (if p.sw then refusePub n b c1 else dropDest p c1)
      | .ok lens =>
        let x : Edited := { p.res with lens := lens }
        let gen := (s.dirGen + 1) % 2 ^ 32
        let (c1, root) := writeCopies n p x c
        let c2 := x.incs.foldl (fun k f => setRef f.1 f.2 (refCnt k f.1 f.2 + 1) k) c1
        let c3 := x.news.foldl (fun k f => setRef f.1 f.2 1 (adoptFrame s.desc f.1 f.2 k)) c2
        let c4 := (List.zip x.drops x.news).foldl (fun k y => clearHeld y.1 y.2 k) c3
        let c5 := c4.setSlot n { c4.slot n with
          root := root, dirGen := gen, pubGen := gen, lens := x.lens
          cursors := (List.range s.lens.length).flatMap (fun l =>
            if x.lens.getD l 0 = s.len l then (s.cursors.drop (16 * l)).take 16 else List.replicate 16 (x.lens.getD l 0))
          pubSt := 2, publ := none }
        let c6 := x.drops.foldl (fun k f => quarFrame n gen f.1 f.2 k) (clearMoving p.src c5)
        let c7 := x.blocks.foldl (fun k b => quarUnit n gen (dirBlk c s.root b.1 b.2) 1 k) c6
        let c8 := quarUnit n gen s.root 1
          (x.layers.foldl (fun k l => quarUnit n gen (blkTab c s.root l) (tabUnits s.words) k) c7)
        let c9 := match p.home, p.dst with
          | some h, some (0, f) =>
            (c8.setRecW 0 f 0 (setFld 7 7 (c8.recW 0 f 0) 1)).setRecW 0 f 3 (h.2 + 2 ^ 30 * h.1)
          | _, _ => c8
        afterPub n (forEach (forkSlots c p.edits) (fun m k => unlatch m (editWho n) k) c9)

/-- A slot that parks or releases refuses a software publication and abandons those of the MTM (R158, R322). -/
def cleanPubs (n : Nat) (c : Chip) : Chip :=
  let s := c.slot n
  let c1 := match s.publ with
    | some p => if p.sw then refusePub n (11, 0) (dropBuild n p c) else dropDest p (dropBuild n p c)
    | none => c
  let c2 := if s.armWait.isSome then refusePub n (11, 0) c1 else c1
  let c3 := s.mtmWait.foldl (fun k p => dropDest p k) c2
  c3.setSlot n { c3.slot n with publ := none, armWait := none, mtmWait := [] }

/-- PARK (R163). -/
def parkSlot (n v : Nat) (c : Chip) : Chip :=
  let s := c.slot n
  if !(s.st == 2 || s.st == 3) || s.inRing then refuseSlot n 1 v c
  else if !s.whole then refuseSlot n 6 v c
  else
    let t := dTpp s.words
    let c0 := s.seals.foldl (fun k x => sealPage n x.1 k) (cleanPubs n c)
    let c1 := writeDesc n 2 (dropReserves n c0)
    let c2 := forEach (List.range s.lens.length) (fun l k =>
      if s.len l % t = 0 then k else
      let a := pteAddr k s.root l (s.len l / t)
      k.storeLe a 8 (setFld 54 45 (k.le a 8) (s.len l % t))) c1
    c2.setSlot n { c2.slot n with st := 5, refuse := 0, shortAt := none }

/-- What a RELEASE drops, in order: the frames of valid entries, then blocks and block tables, then the root (R164). -/
def dropList (n tag : Nat) (c : Chip) : List Quar :=
  let s := c.slot n
  let ls := List.range (dLayers s.words)
  let u (a k : Nat) : Quar := { tag := tag, slot := n, unit := true, tier := k, idx := a }
  ls.flatMap (fun l => (List.range (dBlocks s.words * 512)).filterMap (fun p =>
    let e := pte c s.root l p
    if eValid e then some { tag := tag, slot := n, tier := eTier e, idx := eFrame e } else none)) ++
  ls.flatMap (fun l => (List.range (dBlocks s.words)).map (fun b => u (dirBlk c s.root l b) 1) ++
    [u (blkTab c s.root l) (tabUnits s.words)]) ++ [u s.root 1]

/-- RELEASE (R164): the generation rises, so that what is dropped leaves quarantine. -/
def releaseSlot (n v : Nat) (c : Chip) : Chip :=
  let s := c.slot n
  if !(s.st == 2 || s.st == 3 || s.st == 4) || s.inRing then refuseSlot n 1 v c
  else
    let tag := (s.dirGen + 1) % 2 ^ 32
    let c0 := dropReserves n (cleanPubs n c)
    let c1 := writeDesc n 3 (c0.setSlot n { c0.slot n with dirGen := tag })
    handOver n (c1.setSlot n { c1.slot n with
      st := 6, refuse := 0, shortAt := none, seals := [], toQuar := dropList n tag c1 })

/-- SLOT_CMD (R152): a reserved command is ignored and logged (R457). -/
def slotCmd (n v : Nat) (c : Chip) : Chip :=
  match fld 3 0 v with
  | 1 => bindSlot n (fld 27 16 v) v c
  | 2 => parkSlot n v c
  | 3 => releaseSlot n v c
  | 4 => resumeSlot n v c
  | 5 => clearFault n v c
  | _ => ignored (ra (pgSlot n) 0x100) v c

end Sys2Proof.Machine
end

