-- ==== Sys2Proof/Machine/Attention.lean ====
section
/-! DEFINITION. The page walk of an ATTN tile operation (R166 to R187): candidates, envelopes and bounds,
visit order, skipping, chunks, the four modes; and the threshold banks (R189, R190). -/

namespace Sys2Proof.Machine

/-- Where a page's payload lies. -/
inductive Src where
  | frame (tier idx : Nat)
  | tas (a : Nat)
  | pad (aw off : Nat)
  deriving DecidableEq, Repr

/-- The poisoned word of an operand range of core n, as a byte offset within its space (R77). -/
def poisonAw (c : Chip) (n : Nat) (wins : List (Nat × Nat × Nat)) (aw off len : Nat) : Option Nat :=
  if c.poison = [] then none else
  (List.range len).findSome? (fun i =>
    if (c.poisonIn (awAddr n wins aw (off + i)) 1).isSome then some ((awOfs aw + off + i) / 8 * 8) else none)

/-- Read part of a payload. -/
def srcRead (c : Chip) (n : Nat) (wins : List (Nat × Nat × Nat)) (s : Src) (off len : Nat) : RdAns :=
  match s with
  | .frame t i => if c.frameBad t i off len then .poison 0 else .ok (c.frameBytes t i off len)
  | .tas a => c.tasRead (a + off) len
  | .pad aw o =>
    match poisonAw c n wins aw (o + off) len with
    | some x => .poison x
    | none => .ok ((List.range len).map (fun k => c.byteAt (awAddr n wins aw (o + off + k))))

/-- A candidate of a walk (R172 to R174): kind 0 the held record, 1 the open page, 2 another page. -/
structure Cand where
  kind  : Nat := 2
  idx   : Nat := 0
  first : Nat := 0
  keys  : Nat := 0
  tok   : Nat := 0
  src   : Src := .tas 0
  env   : Option Src := none
  /-- Tier and frame that its directory entry names. -/
  frame : Option (Nat × Nat) := none
  unb   : Bool := true
  bnds  : List (List F32) := []
  floor : Int := 0
  deriving DecidableEq, Repr

/-- Why a walk cannot end well. -/
inductive WalkBad where
  /-- POISON with FAULT_OFS and FAULT_VAL; the frame whose entry is to be poisoned; the slot enters FAULTED. -/
  | poison (ofs val : Nat) (frame : Option (Nat × Nat)) (fault : Bool)
  | access
  | rstat (ofs val : Nat)
  | wait
  deriving DecidableEq, Repr

/-- Running state of a row (R179, R181). -/
structure RowSt where
  part : Part := {}
  n    : Nat := 0
  keys : Nat := 0
  smax : F32 := 0xFF800000#32
  deriving DecidableEq, Repr

/-- What a walk has gathered. -/
structure WalkAcc where
  rows  : List RowSt := []
  /-- RECOMPUTE: accumulators of dQ. -/
  dq    : List (List (Option F32)) := []
  snaps : List (List F32) := []
  visited : Nat := 0
  skipped : Nat := 0
  sat   : Nat := 0
  crush : Nat := 0
  skip  : Nat := 0
  arr   : Nat := 0
  grad  : List Byte := []
  touched : List (Nat × Nat) := []
  bad   : Option WalkBad := none
  deriving DecidableEq, Repr

/-- What a walk works on. -/
structure WalkCtx where
  core  : Nat := 0
  tod   : List Nat := []
  par   : List Nat := []
  mb    : Nat := 0
  kb    : Nat := 0
  bank  : Bank := {}
  wins  : List (Nat × Nat × Nat) := []
  root  : Nat := 0
  len   : Nat := 0
  tau   : F32 := 0x7F800000#32
  desc  : List Nat := []
  q     : List ARow := []
  /-- RECOMPUTE: dO rows, δ, and the saved A and SCALE, by row. -/
  grad  : List (List F32 × F32 × F32 × F32) := []

def WalkCtx.dim (w : WalkCtx) : Nat := dDim w.desc
/-- Rows of one position. -/
def WalkCtx.gh (w : WalkCtx) : Nat := max 1 (aG w.tod * aHn w.tod)
/-- Rows of the hi-th head of the TOD (R171). -/
def WalkCtx.rowsOf (w : WalkCtx) (hi : Nat) : List Nat :=
  (List.range w.mb).filter (fun r => r % w.gh / max 1 (aG w.tod) == hi)
/-- Position of row r. -/
def WalkCtx.pos (w : WalkCtx) (r : Nat) : Nat := pPos0 w.par + r / w.gh
/-- Keys of a candidate present for row r: its first token slots (R172). -/
def WalkCtx.present (w : WalkCtx) (x : Cand) (r : Nat) : Nat :=
  if aCausal w.tod then min x.keys (w.pos r + 1 - x.first) else x.keys
/-- Exact mode (R180). -/
def WalkCtx.exact (w : WalkCtx) : Bool := aExact w.tod || w.tau == 0x7F800000#32

/-! ### Candidates (R172 to R174) -/

/-- Page i of the window of the slot's own directory: the root, block-table and directory entries are read without error, and
the tier and POISONED are looked at before VALID (R148, R172, R188). A page below the open page is complete, sealed or not. -/
def pageCand (c : Chip) (w : WalkCtx) (i : Nat) : Except WalkBad (Option Cand) :=
  let layer := aLayer w.tod
  let page := pPage0 w.par + i
  let t := dTpp w.desc
  let a := pteAddr c w.root layer page
  let fail : WalkBad := .poison 0x1C page none true
  if [w.root + 8 * layer, blkTab c w.root layer + 8 * (page / 512), a].any (fun x => (c.poisonIn x 8).isSome) then .error fail
  else
    let e := c.le a 8
    if eBad e || ePois e then .error fail
    else if !eValid e then .ok none
    else if w.len ≤ page * t then .ok none
    else
      let opn := page == (w.len - 1) / t
      let f := eFrame e
      let env : Option Src :=
        if opn then none
        else if eTier e = 0 then some (.frame 0 f)
        else some (.tas (c.shelfBase + 2112 * fld 23 0 (c.recW (eTier e) f 2)))
      .ok (some { kind := if opn then 1 else 2, idx := page, first := dMember w.desc * dQuota w.desc + page * t,
                  keys := min t (w.len - page * t), tok := t, src := .frame (eTier e) f, env := env, frame := some (eTier e, f) })

/-- Entry i of a block table. -/
def blockCand (c : Chip) (w : WalkCtx) (i : Nat) : Except WalkBad (Option Cand) :=
  match srcRead c w.core w.wins (.pad (pPage0 w.par) (32 * i)) 0 32 with
  | .ok l =>
    let t := dTpp w.desc
    let n := min (fld 9 0 (at_ l 0x14 4)) t
    let ev := at_ l 8 6
    .ok (if n = 0 then none else
      some { idx := i, first := at_ l 0x10 4, keys := n, tok := t, src := .tas (at_ l 0 6),
             env := if ev = 0 then none else some (.tas ev) })
  | .poison x => .error (.poison 0x44 x none false)
  | _ => .error .access

/-- The held record of a DECODE TOD (R173). -/
def heldCand (c : Chip) (w : WalkCtx) : Except WalkBad (Option Cand) :=
  if aMode w.tod ≠ 1 ∨ pHeld w.par = 0 then .ok none else
  match srcRead c w.core w.wins (.pad (pHeld w.par) 0) 0 16 with
  | .ok l => .ok (some { kind := 0, first := at_ l 0 4, keys := 1, tok := 1, src := .pad (pHeld w.par) 16 })
  | .poison x => .error (.poison 0x50 x none false)
  | _ => .error .access

/-- Collect results in order, stopping at the first failure. -/
def collect {α ε : Type} : List (Except ε (Option α)) → Except ε (List α)
  | [] => .ok []
  | .error e :: _ => .error e
  | .ok x :: t =>
    match collect t with
    | .error e => .error e
    | .ok l => .ok (x.toList ++ l)

/-- Every candidate: the held record first, then the window in ascending index. -/
def candidates (c : Chip) (w : WalkCtx) : Except WalkBad (List Cand) :=
  match collect (heldCand c w :: (List.range w.kb).map (fun i =>
      if aSrc1 w.tod then blockCand c w i else pageCand c w i)) with
  | .error e => .error e
  | .ok l => .ok (l.filter (fun x => (List.range w.mb).any (fun r => decide (0 < w.present x r))))

/-! ### Envelopes and bounds (R175, R176) -/

def numLt (a b : Num) : Bool :=
  match nAdd a (nNeg b) with
  | .fin neg m _ => neg && m != 0
  | .inf neg => neg
  | .nan => false
/-- The maximum of R55. -/
def numMax (a b : Num) : Num :=
  match a, b with
  | .nan, _ => b
  | _, .nan => a
  | _, _ => if numLt a b then b else a
def numAbs : Num → Num
  | .fin _ m e => .fin false m e
  | .inf _ => .inf false
  | .nan => .nan

/-- A row of Q as it enters the array, decoded by R54. -/
def qVals (w : WalkCtx) (r : Nat) : List F32 :=
  let row := w.q.getD r {}
  match fmtOf (arrayA w.tod) with
  | some f => row.codes.mapIdx (fun d x => mxToF32 f (row.scales.getD (d / 32) 0) x)
  | none => []

/-- The bound of R176 for a row and envelope codes: a product that is NaN makes it NaN. -/
def bound (w : WalkCtx) (q : List F32) (lo hi : List Nat) (es : Nat) : F32 :=
  let dec (x : Nat) : Num := nScale ((es : Int) - 127) (mxElem .e4m3 x)
  let s := (List.zip q (List.zip lo hi)).foldl (fun (acc : Num × Num) x =>
    let qn := num x.1
    let l := dec x.2.1
    let h := dec x.2.2
    let p := (nMul qn l, nMul qn h)
    (nAdd acc.1 (if p.1 = .nan ∨ p.2 = .nan then .nan else numMax p.1 p.2),
      nAdd acc.2 (nMul (numAbs qn) (numMax (numAbs l) (numAbs h)))))
    ((Num.fin false 0 0, Num.fin false 0 0) : Num × Num)
  fMul (pEpi w.par) (encNum (nAdd s.1 (nScale (-18) s.2)))

/-- floor of κ, clamped (R177). -/
def clampFloor (k : F32) : Int :=
  match num k with
  | .fin neg m e => max (-32768) (min 32767 (floorDy neg m e))
  | .inf neg => if neg then -32768 else 32767
  | .nan => 32767

/-- Read the envelope of a candidate and form its bounds. Its SEQ_UID, LAYER and PAGE are checked, PAGE of a block table's
envelope against the entry index, which R177 keeps as the page index (DEDUCED, log 16). A bound that is NaN counts as
+infinity in the page's κ and its page-head is always visited (R176, R177). -/
def boundCand (c : Chip) (w : WalkCtx) (x : Cand) : Except WalkBad Cand :=
  match x.env with
  | none => .ok x
  | some s =>
    let rd (off n : Nat) : RdAns :=
      match s with
      | .frame t f => srcRead c w.core w.wins (.frame t f) (payloadSize + off) n
      | s => srcRead c w.core w.wins s (if off < 0x800 then off else off - 0x7C0) n
    match rd 0 0x40, rd 0x800 0x800 with
    | .ok m, .ok e =>
      if at_ m 0 4 ≠ wd w.desc 1 ∨ fld 6 0 (at_ m 4 4) ≠ aLayer w.tod ∨ at_ m 8 4 ≠ x.idx then
        .error (.poison (if x.frame.isSome then 0x1C else 0x44) x.idx none true)
      else
        let heads := (List.range (aHn w.tod)).map (aHead0 w.tod + ·)
        let qs := (List.range w.mb).map (qVals w)
        let code (k d : Nat) : Nat := (e.getD (k + d) 0#8).toNat
        let b : List (List F32) := heads.map (fun h =>
          (w.rowsOf (h - aHead0 w.tod)).map (fun r =>
            bound w (qs.getD r []) ((List.range w.dim).map (code (256 * h))) ((List.range w.dim).map (code (256 * h + 0x80)))
              (at_ m (0x20 + h) 1)))
        let kap := b.flatten.map (fun y => if isNaN y then fInf else y)
        .ok { x with unb := heads.any (fun h => bit h (at_ m 0x13 1)), bnds := b, floor := clampFloor (kap.foldl fMax fNegInf) }
    | .wait _, _ => .error .wait
    | _, .wait _ => .error .wait
    | .access, _ => .error .access
    | _, .access => .error .access
    | _, _ => .error (.poison (if x.frame.isSome then 0x1C else 0x44) x.idx x.frame true)

/-- Insert by falling floor of κ, rising index. -/
def insertCand (x : Cand) : List Cand → List Cand
  | [] => [x]
  | y :: t => if y.floor < x.floor ∨ (y.floor = x.floor ∧ x.idx < y.idx) then x :: y :: t else y :: insertCand x t

/-- The visit order (R177, R180, R186). -/
def visitOrder (w : WalkCtx) (l : List Cand) : List Cand :=
  let held := l.filter (fun x => x.kind == 0)
  let pages := l.filter (fun x => x.kind != 0)
  if aMode w.tod = 2 ∨ w.exact = true then pages ++ held
  else
    held ++ pages.filter (fun x => x.kind == 1) ++ pages.filter (fun x => x.kind == 2 && x.unb) ++
    (pages.filter (fun x => x.kind == 2 && !x.unb)).foldl (fun s x => insertCand x s) []

/-! ### Computing a page-head (R181, R186) -/

/-- A key with its value row. -/
structure Key where
  k  : List Nat := []
  ks : List Nat := []
  v  : List F32 := []
  deriving DecidableEq, Repr

/-- The keys of head h of a candidate. -/
def readKeys (c : Chip) (w : WalkCtx) (x : Cand) (h : Nat) : Except WalkBad (List Key) :=
  let d := w.dim
  let hs := dHeads w.desc
  let t := x.tok
  let kb := kvRow (dKFmt w.desc) d
  let vb := kvRow (dVFmt w.desc) d
  let sb := d / 32
  let rd := srcRead c w.core w.wins x.src
  match rd (h * t * kb) (x.keys * kb), rd (kvVO hs t kb + h * t * vb) (x.keys * vb),
    rd (kvKS hs t kb vb + h * t * sb) (x.keys * sb), rd (kvVS hs t kb vb d + h * t * sb) (x.keys * sb) with
  | .ok ke, .ok ve, .ok ks, .ok vs =>
    let nat (l : List Byte) (o n : Nat) : List Nat := ((l.drop o).take n).map (·.toNat)
    let row (l : List Byte) (b f i : Nat) : List Nat :=
      let q := nat l (i * b) b
      (List.range d).map (fun j => elemCode (fun o => q.getD o 0) (codeBits f) 0 j)
    .ok ((List.range x.keys).map (fun i =>
      let vsc := nat vs (i * sb) sb
      { k := row ke kb (dKFmt w.desc) i, ks := nat ks (i * sb) sb
        v := match fmtOf (dVFmt w.desc) with
          | some g => (row ve vb (dVFmt w.desc) i).mapIdx (fun j q => toF32 g (vsc.getD (j / 32) 0) q)
          | none => [] }))
  | a, b, k, v =>
    if [a, b, k, v].any (fun q => match q with | .wait _ => true | _ => false) then .error .wait
    else if [a, b, k, v].any (fun q => q == .access) then .error .access
    else if x.kind = 0 then
      .error (.poison 0x50 (([a, b, k, v].findSome? (fun q => match q with | .poison o => some o | _ => none)).getD 0) none false)
    else .error (.poison (if x.frame.isSome then 0x1C else 0x44) x.idx x.frame true)

/-- Dot product of two rows converted to PV_FMT, of `n` positions of which `ok` says which are present. -/
def pvDot (pv n : Nat) (a b : ARow) (ok : Nat → Bool) (acc : Option F32) : AccOut :=
  match fmtOf pv with
  | some f =>
    if isMx f then
      mxDot f f (ceilDiv n 32) (fun j => (a.scales.getD j 0, b.scales.getD j 0))
        (fun j => (List.range (min 32 (n - 32 * j))).filterMap (fun i =>
          if ok (32 * j + i) then some (a.codes.getD (32 * j + i) 0, b.codes.getD (32 * j + i) 0) else none)) acc
    else
      fpDot 0 true true ((List.range n).map (fun i =>
        if ok i then some (a.vals.getD i fZero, b.vals.getD i fZero) else none)) acc
  | none => {}

/-- Values of a converted row. -/
def pvVals (pv : Nat) (a : ARow) : List F32 :=
  match fmtOf pv with
  | some f => if isMx f then a.codes.mapIdx (fun i x => mxToF32 f (a.scales.getD (i / 32) 0) x) else a.vals.map (narrow19 true)
  | none => []

/-- The score of a row and a key (R181 step 1), with the skipped block pairs. -/
def score (w : WalkCtx) (r : Nat) (k : Key) : F32 × Nat :=
  let row := w.q.getD r {}
  match fmtOf (arrayA w.tod), fmtOf (dKFmt w.desc) with
  | some fa, some fb =>
    let o := mxDot fa fb (w.dim / 32) (fun j => (row.scales.getD j 0, k.ks.getD j 0))
      (fun j => (List.range 32).map (fun i => (row.codes.getD (32 * j + i) 0, k.k.getD (32 * j + i) 0))) none
    (fMul (o.val.getD fZero) (pEpi w.par), o.skip)
  | _, _ => (fZero, 0)

/-- Array core cycles of one chunk of n keys with mh rows (R191; RECOMPUTE has a third product). -/
def chunkCc (w : WalkCtx) (n mh : Nat) : Nat :=
  let kt := if codeMx (aPv w.tod) then 128 else 64
  let qk := ceilDiv n 64 * ceilDiv w.dim kt
  ((if aMode w.tod = 2 then 2 * qk else qk) + ceilDiv w.dim 64 * ceilDiv n kt) * max mh 16

/-- One row of one chunk in PREFILL and DECODE (R181). -/
def chunkRow (w : WalkCtx) (n pr : Nat) (ks : List Key) (vcols : List ARow) (r : Nat) (a : WalkAcc) : WalkAcc :=
  let pv := aPv w.tod
  let xs := (ks.take pr).map (score w r)
  let m := (canonRed fMax none (xs.map (fun x => some x.1))).getD fNegInf
  let p := (List.range n).map (fun i =>
    if i < pr then sfExp2 w.bank (fSub ((xs.getD i (fZero, 0)).1) m) else fZero)
  let pc := convRow 0 pv p
  let os := vcols.map (fun v => pvDot pv n pc v (fun i => decide (i < pr)) none)
  let part : Part := { m := m, l := canonSum (pvVals pv pc), o := os.map (fun o => o.val.getD fZero) }
  let st := a.rows.getD r {}
  { a with
    rows := setAt a.rows r { st with part := softMerge w.bank st.part part, n := (st.n + pr) % 2 ^ 32 }
    sat := sat32 a.sat pc.sat, crush := sat32 a.crush pc.crush
    skip := sat32 a.skip ((xs.map (·.2)).sum + (os.map (·.skip)).sum) }

/-- One row of one chunk in RECOMPUTE (R186): p and dS by key, and dQ. -/
def gradRow (w : WalkCtx) (n pr : Nat) (ks : List Key) (kcols : List ARow) (r : Nat) (a : WalkAcc) :
    WalkAcc × List F32 × List F32 :=
  let pv := aPv w.tod
  let (dO, delta, am, sc) := w.grad.getD r ([], fZero, fZero, fZero)
  let xs := (ks.take pr).map (score w r)
  let doc := convRow 0 pv dO
  let p := (List.range n).map (fun i =>
    if i < pr ∧ am ≠ fNegInf then fMul (sfExp2 w.bank (fSub ((xs.getD i (fZero, 0)).1) am)) sc else fZero)
  let dp := (ks.take pr).map (fun k => pvDot pv w.dim doc (convRow 0 pv k.v) (fun _ => true) none)
  let ds := (List.range n).map (fun i =>
    if i < pr then fMul (p.getD i fZero) (fSub (((dp.getD i {}).val).getD fZero) delta) else fZero)
  let dsc := convRow 0 pv ds
  let acc := a.dq.getD r []
  let os := kcols.mapIdx (fun j k => pvDot pv n dsc k (fun i => decide (i < pr)) (acc.getD j none))
  ({ a with
     dq := setAt a.dq r (os.map (·.val))
     rows := setAt a.rows r { a.rows.getD r {} with n := ((a.rows.getD r {}).n + pr) % 2 ^ 32 }
     skip := sat32 a.skip ((xs.map (·.2)).sum + (dp.map (·.skip)).sum + (os.map (·.skip)).sum) }, p, ds)

/-- Visit page-head (x, hi): its chunks in ascending token slot. -/
def visitHead (c : Chip) (w : WalkCtx) (x : Cand) (hi : Nat) (a : WalkAcc) : WalkAcc :=
  match readKeys c w x (aHead0 w.tod + hi) with
  | .error e => { a with
      visited := a.visited + 1, bad := some e
      touched := match x.src with | .frame t f => a.touched ++ [(t, f)] | _ => a.touched }
  | .ok keys =>
    let csz := min 128 x.tok
    let rows := w.rowsOf hi
    let pv := aPv w.tod
    let a0 : WalkAcc := { a with
      visited := a.visited + 1
      touched := match x.src with | .frame t f => a.touched ++ [(t, f)] | _ => a.touched }
    (List.range (ceilDiv keys.length csz)).foldl (fun s ci =>
      let ks := (keys.drop (ci * csz)).take csz
      let pr (r : Nat) : Nat := min ks.length (w.present x r - ci * csz)
      let s1 : WalkAcc := { s with arr := sat32 s.arr (chunkCc w csz rows.length) }
      if aMode w.tod = 2 then
        let kv := ks.map (fun k => match fmtOf (dKFmt w.desc) with
          | some g => k.k.mapIdx (fun j q => toF32 g (k.ks.getD (j / 32) 0) q)
          | none => [])
        let kcols := (List.range w.dim).map (fun d => convRow 0 pv ((List.range csz).map (fun i => (kv.getD i []).getD d fZero)))
        let r0 : WalkAcc × List Byte × List Byte := (s1, [], [])
        let res := rows.foldl (fun (q : WalkAcc × List Byte × List Byte) r =>
          let g := gradRow w csz (pr r) ks kcols r q.1
          let tile (l : List F32) : List Byte := (l ++ List.replicate (128 - l.length) fZero).flatMap (fun y => leBytes 4 y.toNat)
          (g.1, q.2.1 ++ tile g.2.1, q.2.2 ++ tile g.2.2)) r0
        let hdr := leBytes 4 x.idx ++ leBytes 4 (aHead0 w.tod + hi) ++ leBytes 4 ci ++ leBytes 4 x.first ++
          leBytes 4 ks.length ++ List.replicate 12 0#8
        { res.1 with grad := res.1.grad ++ hdr ++ res.2.1 ++ res.2.2 }
      else
        let vcols := (List.range w.dim).map (fun d =>
          convRow 0 pv ((List.range csz).map (fun i => ((ks.getD i {}).v).getD d fZero)))
        let s2 : WalkAcc := { s1 with
          sat := sat32 s1.sat ((vcols.map (·.sat)).sum), crush := sat32 s1.crush ((vcols.map (·.crush)).sum) }
        rows.foldl (fun q r => chunkRow w csz (pr r) ks vcols r q) s2) a0

/-- The decision on page-head (x, hi) at place j (R178, R186) and its work or its skip figures (R179). -/
def headStep (c : Chip) (w : WalkCtx) (j : Nat) (x : Cand) (hi : Nat) (a : WalkAcc) : WalkAcc :=
  if a.bad.isSome then a else
  let rows := w.rowsOf hi
  let rs := rows.filter (fun r => decide (0 < w.present x r))
  if rs = [] then a else
  let b (r : Nat) : F32 := (x.bnds.getD hi []).getD (rows.idxOf r) fNaN
  let can := !w.exact && x.kind == 2 && !x.unb
  let ref (r : Nat) : F32 :=
    if aMode w.tod = 2 then (w.grad.getD r ([], fZero, fZero, fZero)).2.2.1
    else if j < 8 then fNegInf else (a.snaps.getD (j - 8) []).getD r fNegInf
  if can && rs.all (fun r => (aMode w.tod == 2 || isFin (ref r)) && fLt (b r) (fSub (ref r) w.tau)) then
    rows.foldl (fun s r =>
      let st := s.rows.getD r {}
      { s with rows := setAt s.rows r { st with smax := fMax st.smax (b r), keys := sat32 st.keys (w.present x r) } })
      { a with skipped := a.skipped + 1 }
  else visitHead c w x hi a

/-- The whole walk from a starting state of the rows. -/
def walkAll (c : Chip) (w : WalkCtx) (start : List RowSt) : WalkAcc :=
  let a0 : WalkAcc := { rows := start, dq := start.map (fun _ => List.replicate w.dim none) }
  match candidates c w with
  | .error e => { a0 with bad := some e }
  | .ok l =>
    match (if w.exact then .ok l else collect (l.map (fun x => (boundCand c w x).map some))) with
    | .error e => { a0 with bad := some e }
    | .ok l' =>
      (visitOrder w l').zipIdx.foldl (fun a y =>
        let s := (List.range (aHn w.tod)).foldl (fun q hi => headStep c w y.2 y.1 hi q) a
        { s with snaps := s.snaps ++ [s.rows.map (fun r => r.part.m)] }) a0

/-! ### Partial blocks (R183, R184) -/

def partHdr (rows d slot layer pos : Nat) : List Byte :=
  leBytes 4 (rows + 2 ^ 16 * d) ++ leBytes 4 (slot + 2 ^ 8 * layer) ++ leBytes 4 pos ++ List.replicate 52 0#8
def partRow (x : RowSt) : List Byte :=
  leBytes 4 x.part.m.toNat ++ leBytes 4 x.part.l.toNat ++ leBytes 4 x.n ++ leBytes 4 x.keys ++ leBytes 4 x.smax.toNat ++
  List.replicate 12 0#8 ++ x.part.o.flatMap (fun y => leBytes 4 y.toNat)
/-- Row entry of a partial block from its bytes. -/
def partRowOf (d : Nat) (l : List Byte) : RowSt :=
  let f (o : Nat) : F32 := BitVec.ofNat 32 (at_ l o 4)
  { part := { m := f 0, l := f 4, o := (List.range d).map (fun k => f (32 + 4 * k)) }
    n := at_ l 8 4, keys := at_ l 12 4, smax := f 16 }
/-- Rows of a partial block from its bytes. -/
def partRows (l : List Byte) : List RowSt :=
  let d := at_ l 2 2
  (List.range (at_ l 0 2)).map (fun r => partRowOf d ((l.drop (64 + r * (32 + 4 * d))).take (32 + 4 * d)))
/-- Merge two rows, the earlier first (R135, R184). -/
def mergeRow (b : Bank) (x y : RowSt) : RowSt :=
  { part := softMerge b x.part y.part, n := (x.n + y.n) % 2 ^ 32, keys := sat32 x.keys y.keys, smax := fMax x.smax y.smax }
/-- Join two partial blocks of one shape: header of the first. -/
def mergeParts (b : Bank) (x y : List Byte) : List Byte :=
  x.take 64 ++ (List.zipWith (mergeRow b) (partRows x) (partRows y)).flatMap partRow

/-- PMERGE (R184): SLOT and LAYER of the first block, since a PMERGE has no stream handle (DESIGN CHOICE, log 16), and merged
rows; none where a block has another shape. -/
def pmerge (b : Bank) (mb d kb : Nat) (blk : Nat → List Byte) : Option ((Nat × Nat) × List RowSt) :=
  let bs := (List.range kb).map blk
  if bs.any (fun l => decide (at_ l 0 2 ≠ mb ∨ at_ l 2 2 ≠ d)) then none
  else
    match bs with
    | [] => none
    | x :: r => some ((fld 4 0 (at_ x 4 4), fld 14 8 (at_ x 4 4)), r.foldl (fun a y => List.zipWith (mergeRow b) a (partRows y)) (partRows x))

/-! ### Threshold banks (R189, R190) -/

/-- A valid threshold: +0, positive finite or +infinity. -/
def thrOk (x : Nat) : Bool := decide (x ≤ 0x7F800000)
/-- Shadow threshold i of PWU n. -/
def Chip.thrShadow (c : Chip) (n i : Nat) : Nat := c.rg (ra (pgPwu n) (0x400 + 4 * i))
def Chip.thrActive (c : Chip) (n i : Nat) : F32 := Tab.get (fun _ => 0x7F800000#32) (c.pwu n).active i
/-- Lowest invalid shadow entry. -/
def Chip.thrBad (c : Chip) (n : Nat) : Option Nat := (List.range 256).find? (fun i => !thrOk (c.thrShadow n i))

/-- A write of THR_FLIP_HI arms the flip (R190, R10); one while ARMED is ignored (R351). -/
def thrArm (n hi : Nat) (c : Chip) : Chip :=
  let a := ra (pgPwu n) 0x108
  if (c.pwu n).armed then ignored (a + 4) hi c
  else
    let c1 := pairApply a hi c
    let b := c1.rg64 a
    armCe (pgPwu n) b (c1.setPwu n { c1.pwu n with armed := true, late := decide (b ≤ c1.beat), flipAt := c1.armedAt b })

def thrCancel (n : Nat) (c : Chip) : Chip := c.setPwu n { c.pwu n with armed := false }

/-- Swap the banks of PWU n. -/
def thrSwap (n : Nat) (c : Chip) : Chip :=
  let p := c.pwu n
  let new := (List.range 256).map (fun i => BitVec.ofNat 32 (c.thrShadow n i))
  let old := (List.range 256).map (fun i => c.thrActive n i)
  let c1 := old.zipIdx.foldl (fun k x => k.setRg (ra (pgPwu n) (0x400 + 4 * x.2)) x.1.toNat) c
  c1.setPwu n { p with active := Tab.setList (fun _ => 0x7F800000#32) [] 0 new, gen := p.gen + 1, armed := false }

/-- The flip of every PWU armed for a beat that has come: all or none (R189, R133). -/
def thrFlipAll (c : Chip) : Chip :=
  let come := (List.range 24).filter (fun n => (c.pwu n).armed && c.cascadeDue (c.pwu n).flipAt)
  let first := (come.map (fun n => (c.pwu n).flipAt)).foldl min c.beat
  let due := come.filter (fun n => (c.pwu n).flipAt == first)
  if due = [] then c
  else if due.all (fun n => (c.thrBad n).isNone) then
    forEach due (fun n k => lateFire (pgPwu n) (c.pwu n).flipAt (thrSwap n k)) c
  else
    ucSlice (pgPwu (due.headD 0)) 9 0 0 0
      (forEach due (fun n k => k.setPwu n { k.pwu n with armed := false, missed := true }) c)

end Sys2Proof.Machine
end

