-- ==== Sys2Proof/Machine/Queue.lean ====
section
/-! DEFINITION. Completion queues (R364 to R368): configuration, room, reservations and writing an entry. -/

namespace Sys2Proof.Machine

/-- Key of a register that QSEL banks (R373). -/
def qKey (q off : Nat) : Nat := bank q pgMbp off
def Chip.sqBase (c : Chip) (q : Nat) : Nat := c.rg64 (qKey q 0x130)
def Chip.sqSize (c : Chip) (q : Nat) : Nat := c.rg (qKey q 0x138)
def Chip.cqBase (c : Chip) (q : Nat) : Nat := c.rg64 (qKey q 0x140)
def Chip.cqSize (c : Chip) (q : Nat) : Nat := c.rg (qKey q 0x148)
/-- Entries reserved: one per started entry, and those of token TODs (R366, R368). -/
def Queue.reserved (q : Queue) : Nat := q.started.length + q.tokens
/-- Entries written and not acknowledged. -/
def Queue.used (q : Queue) : Nat := (q.cqTail + 65536 - q.cqHead) % 65536
/-- n more completion entries can be reserved. -/
def Chip.cqRoom (c : Chip) (q n : Nat) : Bool :=
  decide ((c.queue q).used + (c.queue q).reserved + n ≤ c.cqSize q)

/-- Write one completion entry and push it while the session is KEYED (R367, R354). -/
def cqPush (q kind status count cid detail : Nat) (data : List Nat) (c : Chip) : Chip :=
  let x := c.queue q
  let sz := max 1 (c.cqSize q)
  let phase := if x.cqTail / sz % 2 = 0 then 1 else 0
  let e := leBytes 4 (kind + 4 * phase + 2 ^ 8 * (status % 256) + 2 ^ 16 * (count % 16)) ++ leBytes 4 cid ++
    leBytes 8 c.cad.now ++ leBytes 4 detail ++ leBytes 4 0 ++ (List.range 10).flatMap (fun i => leBytes 4 (wd data i))
  let c1 := (c.store (c.cqBase q + 64 * (x.cqTail % sz)) e).setQueue q { x with cqTail := (x.cqTail + 1) % 65536 }
  if c1.mbp.sess = 2 then sendFrame { type := 0x21, qid := q, body := e } c1 else c1

end Sys2Proof.Machine
end

