-- ==== Sys2Proof/Machine/WorkCounter.lean ====
section
/-! DEFINITION. Topiary records and work counters (R93 to R114): arming, segments and walks, grants,
expiry, retiring, the staging slots and the window. -/

namespace Sys2Proof.Machine

/-! ### Topiary record (R93) -/

def topFold (t : List Nat) : Nat := fld 31 16 (wd t 0)
def topM (t : List Nat) : Nat := wd t 1
def topN (t : List Nat) : Nat := wd t 2
def topK (t : List Nat) : Nat := wd t 3
def topH (t : List Nat) : Nat := fld 15 0 (wd t 4)
def topMbEn (t : List Nat) : Bool := bit 16 (wd t 4)
def topFmtA (t : List Nat) : Nat := fld 3 0 (wd t 5)
def topFmtB (t : List Nat) : Nat := fld 7 4 (wd t 5)
def topFmtOut (t : List Nat) : Nat := fld 11 8 (wd t 5)
def topSparse (t : List Nat) : Nat := fld 13 12 (wd t 5)
def topMask (t : List Nat) : Nat := fld 23 0 (wd t 6)
def topVector (t : List Nat) : Bool := fld 7 0 (wd t 0) == 2
/-- Tile sizes: level 0, 1, 2 and dimension 0 M, 1 N, 2 K. -/
def topTile (t : List Nat) (level dim : Nat) : Nat := wd t (8 + 4 * level + dim)
def top64 (t : List Nat) (k : Nat) : Nat := wd t k + 2 ^ 32 * wd t (k + 1)

/-- The checks of R94, R106 on a record of cluster `cl`. A VECTOR record has K = 0, so its L2_TK, L1_TK and L0_TK are
not looked at: they cannot equal K and be at least 1 at once (DEDUCED, log 22). -/
def topBad (cl : Nat) (t : List Nat) : Bool :=
  let v := topVector t
  let kd := fld 7 0 (wd t 0)
  let rows := topM t * topFold t
  let top (d : Nat) : Nat := match d with | 0 => rows | 1 => topN t | _ => topK t
  let dims := if v then [0, 1] else [0, 1, 2]
  let order0 := fld 2 0 (wd t 15)
  !(kd == 1 || kd == 2) || fld 15 8 (wd t 0) != 0 || topFold t == 0 ||
  decide (topM t = 0 ∨ 2 ^ 31 < topM t ∨ topN t = 0 ∨ 2 ^ 31 < topN t) ||
  (if v then topK t != 0 else decide (topK t = 0 ∨ 2 ^ 24 ≤ topK t)) ||
  topH t == 0 || fld 31 17 (wd t 4) != 0 || fld 31 14 (wd t 5) != 0 ||
  decide (13 < topFmtA t ∨ 13 < topFmtB t ∨ 13 < topFmtOut t ∨ topSparse t = 3) ||
  fld 31 24 (wd t 6) != 0 || !bit cl (topMask t) ||
  fld 31 6 (wd t 7) != 0 || bit 3 (wd t 7) || fld 31 10 (wd t 19) != 0 || fld 7 6 (wd t 19) != 0 || bit 3 (wd t 19) ||
  wd t 11 != 0 || fld 31 3 (wd t 15) != 0 ||
  !([0, 2].contains (fld 5 4 (wd t 7))) || !([0, 2].contains (fld 5 4 (wd t 19))) ||
  fld 9 8 (wd t 19) == 0 ||
  decide (5 < order0) || decide (1 < fld 2 0 (wd t 7)) || decide (1 < fld 2 0 (wd t 19)) ||
  (!v && (topTile t 2 2 != topK t || topTile t 1 2 != topK t)) ||
  (!v && decide (topTile t 0 2 < topK t) && (decide (1 < order0) || topTile t 0 2 % 64 != 0)) ||
  dims.any (fun d => topTile t 0 d == 0 || decide (topTile t 1 d < topTile t 0 d) ||
    decide (topTile t 2 d < topTile t 1 d) || decide (top d < topTile t 2 d)) ||
  [21, 23, 25, 27, 29, 31, 33, 35].any (fun k => fld 31 16 (wd t k) != 0) ||
  fld 31 16 (wd t 43) != 0 || [45, 46, 47].any (fun k => fld 31 24 (wd t k) != 0)

/-- The Hilbert point d of side 2^n (R107). -/
def curvePoint (n d : Nat) : Nat × Nat :=
  let r := (List.range n).foldl (fun (q : Nat × Nat × Nat) k =>
    let s := 2 ^ k
    let rx := q.2.2 / 2 % 2
    let ry := (q.2.2 ^^^ rx) % 2
    let p := if ry = 0 then (if rx = 1 then (s - 1 - q.2.1, s - 1 - q.1) else (q.2.1, q.1)) else (q.1, q.2.1)
    (p.1 + s * rx, p.2 + s * ry, q.2.2 / 4)) (0, 0, d)
  (r.1, r.2.1)

/-- Smallest n with 2^n at least k. -/
def ceilLog2 (k : Nat) : Nat := if k ≤ 1 then 0 else Nat.log2 (k - 1) + 1

/-- Walk of a TI x TJ grid in visiting order (R94, R107). -/
def walkGrid (order curve ti tj : Nat) : List (Nat × Nat) :=
  if curve = 2 then
    let n := ceilLog2 (max ti tj)
    (List.range (4 ^ n)).filterMap (fun d =>
      let p := curvePoint n d
      let q := if order = 1 ∨ order = 5 then (p.2, p.1) else p
      if q.1 < ti ∧ q.2 < tj then some q else none)
  else if order = 0 then (List.range (ti * tj)).map (fun x => (x / tj, x % tj))
  else (List.range (ti * tj)).map (fun x => (x % ti, x / ti))

/-- Blocks of the whole operation (R105): (instance, block row, block column). -/
def allBlocks (t : List Nat) (rowsOf : List Nat) : List (Nat × Nat × Nat) :=
  (List.range (topH t)).flatMap (fun h =>
    let r := rowsOf.getD h (topM t) * topFold t
    if r = 0 then [] else
    (walkGrid (fld 2 0 (wd t 7)) (fld 5 4 (wd t 7)) (ceilDiv r (topTile t 2 0)) (ceilDiv (topN t) (topTile t 2 1))).map
      (fun p => (h, p.1, p.2)))

/-- Leases of one block, in L2 order: (instance, lease row i, lease column j) over the operation's grid of
L1 tiles, in whose units R109 counts. Where L2_TM is no multiple of L1_TM (or L2_TN of L1_TN) the block's first lease is
the L1 tile that holds its first row, so that leases of neighbouring blocks share rows (DESIGN CHOICE, log 22: R105 gives
no grid for them). -/
def blockLeases (t : List Nat) (rowsOf : List Nat) (b : Nat × Nat × Nat) : List (Nat × Nat × Nat) :=
  let r := rowsOf.getD b.1 (topM t) * topFold t
  let m0 := b.2.1 * topTile t 2 0
  let n0 := b.2.2 * topTile t 2 1
  let mh := min (topTile t 2 0) (r - m0)
  let nw := min (topTile t 2 1) (topN t - n0)
  (walkGrid (fld 2 0 (wd t 19)) (fld 5 4 (wd t 19)) (ceilDiv mh (topTile t 1 0)) (ceilDiv nw (topTile t 1 1))).map
    (fun p => (b.1, m0 / topTile t 1 0 + p.1, n0 / topTile t 1 1 + p.2))

/-- The leases of a counter's segment, in value order. -/
def segLeases (k : Counter) : List (Nat × Nat × Nat) :=
  (((allBlocks k.top k.rowsOf).drop k.seg0).take k.segN).flatMap (blockLeases k.top k.rowsOf)

/-- The block of value v, as its number within the operation and its place (h, block row, block column). -/
def leaseBlock (k : Counter) (v : Nat) : Nat × Nat × Nat × Nat :=
  ((((allBlocks k.top k.rowsOf).zipIdx.drop k.seg0).take k.segN).flatMap (fun b =>
    (blockLeases k.top k.rowsOf b.1).map (fun _ => (b.2, b.1)))).getD v (0, 0, 0, 0)

/-- Coordinates of value v: (h, i, j). -/
def coords (k : Counter) (v : Nat) : Nat × Nat × Nat :=
  if k.top = [] then (0, v, 0) else (segLeases k).getD v (0, 0, 0)

/-- Clusters of a mask that hold a core in the applied work map, ascending (R105). -/
def maskClusters (c : Chip) (mask : Nat) : List Nat :=
  (List.range 24).filter (fun cl => bit cl mask && (List.range 8).any (fun i => (c.core (8 * cl + i)).mapApp))

/-- Arm counter `idx` of core n's cluster from the descriptor at `arg` (R105, R106): the fault code, or the
new chip. A misaligned descriptor, one outside its space or in SPACE 2 to 4, and an MB_TABLE that cannot be read give
ARM_INVALID; poison in the descriptor or the record is not looked at (DESIGN CHOICE, log 22). The default lease length
is read here (DEDUCED, log 22). -/
def armCounter (n idx arg : Nat) (wins : List (Nat × Nat × Nat)) (c : Chip) : Except Nat Chip :=
  let cl := n / 8
  let old := c.ctr cl idx
  if old.armed && (old.leased != 0 || old.nDone != old.total) then .error 0x24
  else if !awOk01 arg || awOfs arg % 16 != 0 || !awFits arg 16 then .error 0x25
  else
    let r := rdAw c n wins arg
    let topAw := rd4 r 0
    let limit := rd4 r 4
    let lease := rd4 r 8
    if fld 31 16 lease != 0 || rd4 r 12 != 0 then .error 0x25
    else
      let len := if lease = 0 then c.rg (ra (pgClus cl) 0x100) else lease
      let k := c.clus cl
      let arm (x : Counter) : Chip :=
        c.setClus cl { (k.setCtr idx { x with armed := true, done := decide (x.total = 0), epoch := old.epoch, lease := len,
                                              armOrd := k.ord + 1, map := (List.range 8).filter (fun i => (c.core (8 * cl + i)).mapApp) }) with
                       ord := k.ord + 1 }
      if topAw = 0 then
        if limit = 0 ∨ 0xFFFFFFFD < limit then .error 0x25 else .ok (arm { total := limit })
      else if limit != 0 || !(awSpace topAw == 1 && fld 27 24 topAw == 0) || awOfs topAw % 64 != 0 || !awFits topAw 192 then
        .error 0x25
      else
        let q := rdAw c n wins topAw
        let t := (List.range 48).map (fun i => rd4 q (4 * i))
        if topBad cl t then .error 0x25
        else
          let tab : Option (List Nat) :=
            if topMbEn t then
              match c.tasRead (top64 t 20) (4 * topH t) with
              | .ok l => some (leWords (topH t) l)
              | _ => none
            else some (List.replicate (topH t) (topM t))
          match tab with
          | none => .error 0x25
          | some rows =>
            if rows.any (fun x => decide (topM t < x)) then .error 0x26
            else
              let cls := maskClusters c (topMask t)
              let b := (allBlocks t rows).length
              let q' := max 1 cls.length
              match cls.idxOf? cl with
              | none => .ok (arm { top := t, rowsOf := rows })
              | some rk =>
                let s0 := rk * b / q'
                let x : Counter := { top := t, rowsOf := rows, seg0 := s0, segN := (rk + 1) * b / q' - s0 }
                .ok (arm { x with total := (segLeases x).length })

/-! ### Staging slots (R112) -/

def up64 (n : Nat) : Nat := ceilDiv n 64 * 64
def up16 (n : Nat) : Nat := ceilDiv n 16 * 16

/-- Packed strides of the operand areas, by the columns of a tile that they hold: A, A scales, B, B scales, metadata.
A row of a VECTOR operand holds `w` columns, any other the whole of K. -/
def areaStride (t : List Nat) (w i : Nat) : Nat :=
  let k := if topVector t then w else topK t
  match i with
  | 0 => up16 (rowBytes (codeBits (topFmtA t)) k)
  | 1 => if codeMx (topFmtA t) then ceilDiv k 32 else 0
  | 2 => if topVector t then 0 else up16 (rowBytes (codeBits (topFmtB t)) (storedLen (topSparse t) k))
  | 3 => if topVector t || !codeMx (topFmtB t) then 0 else ceilDiv k 32
  | _ => if topVector t || topSparse t == 0 then 0 else k / 32 * (if topSparse t = 1 then 3 else 2)

/-- Sizes of the areas of a tile of level 1 or 2: A, A scales, B, B scales, metadata, and for a slot OUT and OUT scales
(R112). A block buffer of the cluster cache holds the five operand areas of the L2 tile (DESIGN CHOICE, log 22: the spec
gives no layout for it). -/
def tileAreas (t : List Nat) (level : Nat) : List Nat :=
  let m := topTile t level 0
  let n := topTile t level 1
  [m * areaStride t n 0, m * areaStride t n 1, n * areaStride t n 2, n * areaStride t n 3, n * areaStride t n 4] ++
  (if level = 1 then [m * up16 (rowBytes (codeBits (topFmtOut t)) n), if codeMx (topFmtOut t) then m * ceilDiv n 32 else 0] else [])

def tileSize (t : List Nat) (level : Nat) : Nat := ((tileAreas t level).map up64).sum
/-- Offset of area i within a slot or a block buffer. -/
def areaOfs (t : List Nat) (level i : Nat) : Nat := (((tileAreas t level).take i).map up64).sum
def slotSize (t : List Nat) : Nat := tileSize t 1
def slotBase (t : List Nat) (slot : Nat) : Nat := fld 23 0 (wd t 46) + slot * slotSize t
/-- Block buffers (R93), and where buffer i lies in the cluster cache. -/
def topBufs (t : List Nat) : Nat := fld 9 8 (wd t 19)
def bufBase (t : List Nat) (i : Nat) : Nat := fld 23 0 (wd t 47) + i * tileSize t 2
/-- The slots and the window lie in the scratchpad, the block buffers in the cluster cache (R17). -/
def stageFits (t : List Nat) : Bool :=
  decide (slotBase t 2 ≤ 0x200000 ∧ fld 23 0 (wd t 45) + slotSize t ≤ 0x200000 ∧ bufBase t (topBufs t) ≤ 0x800000)

/-- Carousel record fields (R115). -/
def carU (r : List Nat) : Nat := fld 4 0 (wd r 0)
def carRotate (r : List Nat) : Bool := bit 8 (wd r 0)
def carBytes (r : List Nat) : Nat := fld 23 0 (wd r 1)
def carPockets (r : List Nat) : Nat := fld 23 0 (wd r 2)
def carWindow (r : List Nat) : Nat := fld 23 0 (wd r 3)
def carMask (r : List Nat) : Nat := fld 23 0 (wd r 4)

/-- The carousel's pockets and window lie in the scratchpad, and its fields have their ranges (R17, R115). -/
def carOk (r : List Nat) : Bool :=
  decide (1 ≤ carU r ∧ carU r ≤ 16 ∧ carBytes r ≠ 0 ∧ carBytes r % 64 = 0) &&
  decide (carPockets r + (carU r + 1) * carBytes r ≤ 0x200000 ∧ carWindow r + carBytes r ≤ 0x200000) &&
  fld 7 5 (wd r 0) == 0 && fld 31 9 (wd r 0) == 0 && [1, 2, 3, 4].all (fun i => fld 31 24 (wd r i) == 0) &&
  [5, 6, 7].all (fun i => wd r i == 0)

/-- The windows that alias core n's scratchpad now (R112, R116): (offset, size, target). The lease window stands on the
slot of the newest staged lease while that lease's counter is armed, whether or not the lease is still held. -/
def windows (c : Chip) (n : Nat) : List (Nat × Nat × Nat) :=
  let k := c.core n
  (match k.win with
   | some l =>
     let x := c.ctr (n / 8) l.wc
     if x.armed && x.armOrd == l.ord then [(fld 23 0 (wd l.top 45), slotSize l.top, slotBase l.top l.slot)] else []
   | none => []) ++
  (match k.car with
   | some q => [(carWindow q.rcd, carBytes q.rcd, carPockets q.rcd + q.t % (carU q.rcd + 1) * carBytes q.rcd)]
   | none => [])

/-! ### Leases -/

/-- One and the same lease. -/
def Lease.same (a b : Lease) : Bool := a.wc == b.wc && a.epoch == b.epoch && a.ord == b.ord

/-- A value awaits reissue; reissue lists stay sorted. -/
def giveBack (l : Lease) (k : Counter) : Counter :=
  { k with reissue := insertAsc l.value k.reissue, leased := k.leased - 1 }

/-- A lease of core n expires (R109): the held one, or one being retired. Its value awaits reissue. -/
def expireLease (n : Nat) (l : Lease) (c : Chip) : Chip :=
  if l.expired then c else
  let k := c.core n
  let x := c.ctr (n / 8) l.wc
  let up (y : Lease) : Lease := if y.same l then { y with expired := true } else y
  let c1 := c.setCore n { k with lease := k.lease.map up, retiring := k.retiring.map up }
  if x.armed && !x.done && x.armOrd == l.ord then c1.setCtr (n / 8) l.wc (giveBack l x) else c1
/-- The leases that core n holds or is retiring. -/
def Core.leases (k : Core) : List Lease := k.lease.toList ++ k.retiring
/-- The held lease of a core expires at once (R98, R109). -/
def expireHeld (n : Nat) (c : Chip) : Chip :=
  match (c.core n).lease with | some l => expireLease n l c | none => c
/-- Every lease of a core expires at once: a soft reset or an abort drops it (R109). -/
def expireAll (n : Nat) (c : Chip) : Chip := (c.core n).leases.foldl (fun k l => expireLease n l k) c

/-- Disarm a counter and expire its leases (R104): its registers read 0 (R459). -/
def disarm (cl idx : Nat) (c : Chip) : Chip :=
  let c1 := forEach (List.range 8) (fun i k =>
    (k.core (8 * cl + i)).leases.foldl (fun q l => if l.wc = idx then expireLease (8 * cl + i) l q else q) k) c
  c1.setCtr cl idx {}

/-- Grant value v to core n at the current beat (R109): the six registers, the lease. EXH and PEND fall (R101). -/
def grant (n wc dest v : Nat) (stage : Bool) (c : Chip) : Chip :=
  let cl := n / 8
  let x := c.ctr cl wc
  let ep := (x.epoch + 1) % 2 ^ 32
  let (h, i, j) := coords x v
  let rows := x.rowsOf.getD h (topM x.top) * topFold x.top
  let rb := if x.top = [] then 0 else min (topTile x.top 1 0) (rows - i * topTile x.top 1 0)
  let cb := if x.top = [] then 0 else min (topTile x.top 1 1) (topN x.top - j * topTile x.top 1 1)
  let k := c.core n
  let st := stage && x.top != []
  let l : Lease := { wc := wc, epoch := ep, value := v, h := h, i := i, j := j, rows := rb, cols := cb,
                     expiry := c.beat + x.lease, len := x.lease, staged := st, slot := k.stageNext, top := x.top, ord := x.armOrd }
  let x' : Counter := { x with
    epoch := ep, leased := x.leased + 1
    next := if x.reissue.contains v then x.next else v + 1
    reissue := x.reissue.filter (· != v) }
  let c1 := (c.setCtr cl wc x').setCore n { k with
    lease := some l, flags := k.flags / 4 * 4
    stageNext := if st then 1 - k.stageNext else k.stageNext
    fill := if st then k.fill ++ [l] else k.fill
    win := if st then some l else k.win }
  [v, h, i, j, rb, cb].zipIdx.foldl (fun q p => q.setRg (ra (pgCore n) (0x140 + 4 * (dest + p.2))) p.1) c1

/-- The value a FETCH_INC would get: the lowest awaiting reissue, else the next fresh one (R108). -/
def nextValue (x : Counter) : Option Nat :=
  match x.reissue with
  | v :: _ => some v
  | [] => if x.next < x.total then some x.next else none

end Sys2Proof.Machine
end

