-- ==== Sys2Proof/Machine/TodExec.lean ====
section
/-! DEFINITION. Running a tile operation descriptor (R72 to R91): issue, holds, the run's tiles, its faults
and its completion record; and the roll of a scale-plan entry (R51 to R53). -/

namespace Sys2Proof.Machine

/-! ### List control shared by the sequencer -/

def coreReg (n off : Nat) : Nat := ra (pgCore n) off
def Chip.listLen (c : Chip) (n : Nat) : Nat := c.rg (coreReg n 0x104)
def Chip.sq (c : Chip) (n i : Nat) : Nat := c.rg (coreReg n (0x140 + 4 * i))
def Chip.setSq (c : Chip) (n i v : Nat) : Chip := c.setRg (coreReg n (0x140 + 4 * i)) v

/-- Who latches a slot for a walk of core n. -/
def walkWho (n : Nat) : Nat := 0x2000 + n

/-- A list fault (R102): FAULTED with its code, entries not begun dropped, a UC scoped to the operation. -/
def listFault (n code : Nat) (c : Chip) : Chip :=
  let k := c.core n
  let tag := match k.runs with | r :: _ => tTag r.tod | [] => 0
  ucOp (pgCore n) 10 (opId n tag) code k.pc
    (c.setCore n { k with st := 4, fault := code, blocked := .none, runs := k.runs.filter (·.begun) })

/-- Next program counter after the body's end has been considered (R101): innermost loop first. Answers
loops, pc and the index register to write. -/
def advance : List LoopFrame → Nat → List LoopFrame × Nat × Option (Nat × Nat)
  | [], pc => ([], pc, none)
  | f :: r, pc =>
    if pc ≤ f.last then (f :: r, pc, none)
    else if 0 < f.left then
      ({ f with left := f.left - 1, idx := f.idx + 1 } :: r, f.first, f.reg.map (fun q => (q, f.idx + 1)))
    else advance r pc

/-- Move core n's list to `pc`, closing or repeating loops. -/
def goTo (n pc : Nat) (c : Chip) : Chip :=
  let k := c.core n
  let a := advance k.loops pc
  let c1 := c.setCore n { k with loops := a.1, pc := a.2.1 }
  match a.2.2 with
  | some (q, i) => c1.setSq n q i
  | none => c1

/-- The entry at PC, or the list's fault code. -/
def listEntry (c : Chip) (n : Nat) : Except Nat (List Nat) :=
  let b := c.rg (coreReg n 0x100)
  let off := 64 * (c.core n).pc
  let w := windows c n
  if spaceLimit (awSpace b) < awOfs b + off + 64 then .error 0x28
  else if (poisonAw c n w b off 64).isSome then .error 0x2A
  else .ok ((List.range 16).map (fun i => rd4 (rdAw c n w b) (off + 4 * i)))

/-- Opcodes of list entries (R68, R100). -/
def isTodOp (op : Nat) : Bool := op == 1 || op == 2 || op == 4
def isCtlOp (op : Nat) : Bool := decide (0x80 ≤ op ∧ op ≤ 0x85)

/-- Act on the entry at PC of a RUNNING list when it has the opcode asked for; an entry that cannot be read
or has a reserved opcode faults the list. -/
def withEntry (n : Nat) (want : Nat → Bool) (f : List Nat → Chip → Chip) (c : Chip) : Chip :=
  let k := c.core n
  if k.st ≠ 1 ∨ k.stopping = true ∨ c.listLen n ≤ k.pc ∨ k.runs.any (fun r => decide (16 ≤ r.status)) then c
  else
    match listEntry c n with
    | .error e => listFault n e c
    | .ok t =>
      if want (tOp t) then f t c
      else if isTodOp (tOp t) || isCtlOp (tOp t) then c
      else listFault n 0x20 c

/-! ### Issue (R73 stages 1 to 4) -/

/-- The parameter block, zeros where the TOD uses none or it does not fit. -/
def readPar (c : Chip) (n : Nat) (t : List Nat) : List Nat :=
  if usesPar t && awOk01 (tParam t) && awFits (tParam t) 64 then
    (List.range 16).map (fun i => rd4 (rdAw c n (windows c n) (tParam t)) (4 * i))
  else List.replicate 16 0

/-- Status, FAULT_OFS and FAULT_VAL at issue. -/
def issueFault (c : Chip) (n : Nat) (t p : List Nat) : Option (Nat × Nat × Nat) :=
  match (if usesPar t && awOk01 (tParam t) && awFits (tParam t) 64 then poisonAw c n (windows c n) (tParam t) 0 64 else none) with
  | some x => some (0x18, 0x34, x)
  | none => issueBad c (c.core n).pred t p

/-- TOD_ISSUE: read and check; a TOD that passes waits for its holds, one that fails ends with its status. -/
def todIssue (n : Nat) (c : Chip) : Chip :=
  withEntry n isTodOp (fun t c =>
    let k := c.core n
    let p := readPar c n t
    match issueFault c n t p with
    | some (s, o, v) =>
      let r : TodRun := { tod := t, par := p, ended := true, status := s, faultOfs := o, faultVal := v, issueNow := c.cad.now, lease := k.lease }
      c.setCore n { k with pred := none, runs := k.runs ++ [r] }
    | none =>
      c.setCore n { k with st := 3, runs := k.runs ++ [{ tod := t, par := p, issueNow := c.cad.now }] }) c

/-! ### Holds (R74, R79, R99, R368) -/

/-- TAS address of a buffer that a TOD names. -/
def bufAddr (c : Chip) (n : Nat) (aw : Nat) : Nat := awAddr n (windows c n) aw 0

/-- The TOD stores through a scale-plan entry (R49, R80). -/
def usesPlan (t : List Nat) : Bool := !isAttn t && !tNoDrain t && codeInt (tFmtOut t)

/-- The scale-plan entry of a TOD. -/
def splanAddr (c : Chip) (n : Nat) (t p : List Nat) : Option Nat :=
  if usesPlan t then some (bufAddr c n (pSplan p)) else none

/-- Row-statistic buffers that a TOD reads (R86, R88). -/
def readsStat (t p : List Nat) : List Nat :=
  (if tDscale t || tNorm t || (isAttn t && aMode t == 2) then [pRstatIn p] else []) ++
  (if tRstatCont t && ((!isAttn t && !tNoDrain t && tRowop t != 0) || (isAttn t && aMode t == 0)) then [pRstatOut p] else [])

/-- Collectives a TOD would consume: PROV_DEP while uncommitted, and those of provisional buffers. -/
def newProv (c : Chip) (n : Nat) (t p : List Nat) : List Nat :=
  (if tProvDep t != 0 && c.collOpen (tProvDep t) then [tProvDep t] else []) ++
  (readsStat t p).flatMap (fun aw => Tab.get (fun _ => []) c.provBufs (bufAddr c n aw))

/-- A buffer that it reads has PROV set. -/
def readsProv (c : Chip) (n : Nat) (t p : List Nat) : Bool :=
  (readsStat t p).any (fun aw => bit 5 (rd4 (rdAw c n (windows c n) aw) 4))

/-- Provisional TODs in flight that will count in a scale-plan entry's PROV_CNT at their records (R51). -/
def provRuns (c : Chip) (a : Nat) : Nat :=
  ((List.range 192).map (fun n => (c.core n).runs.countP (fun r =>
    r.begun && r.prov != [] && usesPlan r.tod && awAddr n r.windows (pSplan r.par) 0 == a))).sum

/-- Some hold is in force for the last TOD of the core: that of an ATTN also while a walk of the core runs, since a page
walk unit runs at most one walk for each core (R166). -/
def held (c : Chip) (n : Nat) (r : TodRun) : Bool :=
  let k := c.core n
  let t := r.tod
  let earlier := k.runs.dropLast
  let ex := holdExts c t r.par
  let prov := k.provSet ++ newProv c n t r.par
  let isProv := prov != [] || readsProv c n t r.par
  let sp := splanAddr c n t r.par
  let active := earlier.filter (fun x => !x.ended && !isVector x.tod)
  let big (x : TodRun) : Bool := decide (32768 < accEntries x.tod)
  let head := (k.cplHead + 65536 - c.rg (coreReg n 0x124)) % 65536
  earlier.any (fun e => (holdExts c e.tod e.par).any (fun o => o.out && ex.any (extOverlap o))) ||
  (restricted t && isProv) ||
  (match sp with
   | some a => (isProv && decide (63 ≤ fld 15 10 (c.le (a + 8) 4) + provRuns c a)) || c.rolls.contains a
   | none => false) ||
  (!isVector t && (if big r then !active.isEmpty else active.any big || decide (1 < active.length))) ||
  (isAttn t && !aPmerge t && earlier.any (fun x => x.walk.isSome && !x.ended)) ||
  (bit 3 (c.rg (coreReg n 0x10C)) && c.rg (coreReg n 0x11C) ≤ head) ||
  (decide (0 < tokenRows t) && !c.cqRoom (fld 4 0 (tOut t)) (tokenRows t))

/-! ### Issue proper (R73 stage 6) -/

/-- A bound, or the poisoned word it lies in. -/
def boundOf (c : Chip) (n : Nat) (t : List Nat) (i : Nat) : Except Nat Nat :=
  if !usesBnd t i then .ok 0
  else
    match tBsrc t i with
    | 0 => .ok (tBnd t i)
    | 1 => .ok (c.sq n (tBnd t i % 32))
    | _ =>
      let w := windows c n
      match poisonAw c n w (4 * tBnd t i) 0 4 with
      | some x => .error x
      | none => .ok (rd4 (rdAw c n w (4 * tBnd t i)) 0)

def tMax (t : List Nat) (i : Nat) : Nat := match i with | 0 => tM t | 1 => tN t | _ => tK t

/-- The first bound that is poisoned or above its maximum. -/
def boundBad (c : Chip) (n : Nat) (t : List Nat) : Option (Nat × Nat × Nat) :=
  (List.range 3).findSome? (fun i =>
    if !usesBnd t i then none else
    match boundOf c n t i with
    | .error x => some (0x18, bndOfs i, x)
    | .ok v => if tMax t i < v then some (0x14, bndOfs i, v) else none)

def boundVal (c : Chip) (n : Nat) (t : List Nat) (i : Nat) : Nat :=
  match boundOf c n t i with | .ok v => v | .error _ => 0

/-- The TOD writes a row-statistic buffer (R87). -/
def isProducer (t : List Nat) : Bool :=
  (!isAttn t && !tNoDrain t && tRowop t != 0) || (isAttn t && aRstatOut t)
def statKind (t : List Nat) : Nat := if isAttn t then 4 else tRowop t

/-- Checks at issue of the row-statistic buffers (R87, R88) and of the scale-plan entry (R50). -/
def bufferBad (c : Chip) (n : Nat) (t p : List Nat) : Option (Nat × Nat × Nat) :=
  let w := windows c n
  let hd (aw k : Nat) : Nat := rd4 (rdAw c n w aw) (4 * k)
  let cont := tRstatCont t && isProducer t
  let uses := tDscale t || tNorm t || (isAttn t && aMode t == 2)
  let po := pRstatOut p
  let pi := pRstatIn p
  if isProducer t && (poisonAw c n w po 0 16).isSome then some (0x18, 0x5C, (poisonAw c n w po 0 16).getD 0)
  else if uses && (poisonAw c n w pi 0 16).isSome then some (0x18, 0x58, (poisonAw c n w pi 0 16).getD 0)
  else if isProducer t && (decide (hd po 0 < tM t) || (cont && fld 3 0 (hd po 1) != statKind t)) then some (0x16, 0x5C, po)
  else if uses && (!bit 4 (hd pi 1) || decide (hd pi 0 < tM t) || (tNorm t && fld 3 0 (hd pi 1) != 3) ||
      (isAttn t && aMode t == 2 && fld 3 0 (hd pi 1) != 4)) then some (0x16, 0x58, pi)
  else if usesPlan t && (poisonAw c n w (pSplan p) 0 128).isSome then some (0x18, 0x64, (poisonAw c n w (pSplan p) 0 128).getD 0)
  else if usesPlan t && splanBad t (hd (pSplan p) 1) (hd (pSplan p) 2) then some (0x10, 0x64, pSplan p)
  else none

/-- Logical K of one B tile of a MATMUL (R60). -/
def tileK (t : List Nat) : Nat :=
  match fmtOf (arrayA t), fmtOf (tFmtB t) with
  | some fa, some fb =>
    match arrMode fa fb with
    | .bit8 => if tSparse t = 0 then 128 else 256
    | .bit4 => if tSparse t = 0 then 256 else 512
    | .fp19 => 64
  | _, _ => 64

/-- Core cycles of one B tile in every pass (R60, R61). -/
def tileCc (t : List Nat) (mb : Nat) : Nat := (tPasses t + 1) * max mb (if tSparse t = 2 then 8 else 16)

/-- Array-busy core cycles of a MATMUL (R60, R61). -/
def matmulCc (t : List Nat) (mb nb kb : Nat) : Nat := ceilDiv nb 64 * ceilDiv kb (tileK t) * tileCc t mb

/-- Core cycles of a MATMUL that ends before B tile (i, j): the tiles before it (R61, R77). -/
def doneCc (r : TodRun) (i j : Nat) : Nat :=
  if isMatmul r.tod then matmulCc r.tod r.mb (64 * i) r.kb + j * tileCc r.tod r.mb else r.arrayCc

/-- The lease a run was issued under is still current at this beat (R109, R111). -/
def leaseLive (c : Chip) (n : Nat) (r : TodRun) : Bool :=
  match r.lease with
  | none => true
  | some l =>
    ((c.core n).lease.toList ++ (c.core n).retiring).any (fun x =>
      x.same l && !x.expired && decide (c.beat < x.expiry))

/-- A store of a run: a write to the cluster cache under a lease that has expired is discarded (R111). -/
def putAw (n : Nat) (r : TodRun) (aw off : Nat) (l : List Byte) (c : Chip) : Chip :=
  if awSpace aw = 1 ∧ leaseLive c n r = false then c
  else
    let a := awAddr n r.windows aw off
    if l = [] then c
    else if (List.range l.length).all (fun i => awAddr n r.windows aw (off + i) == a + i) then c.store a l
    else l.zipIdx.foldl (fun k x => k.store (awAddr n r.windows aw (off + x.2)) [x.1]) c

/-- Header word 0x04 of RSTAT_OUT at issue (R86, R87). -/
def stampStat (n : Nat) (r : TodRun) (c : Chip) : Chip :=
  let t := r.tod
  if !isProducer t then c else
  let aw := pRstatOut r.par
  let c1 := putAw n r aw 4 (leBytes 4 (statKind t + 32 * b2n r.provis)) c
  let a := awAddr n r.windows aw 0
  { c1 with provBufs := Tab.set (fun _ => []) c1.provBufs a (if r.provis then r.prov else []) }

/-- A row-statistic entry from and to bytes. -/
def statOf (r : Rd) (m : Nat) : RStat :=
  let o := 0x10 + 16 * m
  { a := rdF r o, b := rdF r (o + 4), n := rd4 r (o + 8) }
def statBytes (e : RStat) (scale : F32) : List Byte :=
  leBytes 4 e.a.toNat ++ leBytes 4 e.b.toNat ++ leBytes 4 e.n ++ leBytes 4 scale.toNat

/-- The bank a run latched: the active one, or the shadow after one flip (R85, R133). -/
def runBank (c : Chip) (n : Nat) (r : TodRun) : Bank :=
  let s := (c.clus (n / 8)).sfu
  if (s.gen.toNat + r.sfuGen) % 2 = 0 then s.active else s.shadow

/-- Write one entry of a producer: its value, and SCALE with FINAL's entry when RSTAT_FIN is set. -/
def putStat (n : Nat) (r : TodRun) (m : Nat) (e : RStat) (c : Chip) : Chip :=
  let rd := rdAw c n r.windows (pRstatOut r.par)
  let sc := if tRstatFin r.tod then finalScale (runBank c n r) (statKind r.tod) (rdF rd 8) e else rdF rd (0x1C + 16 * m)
  putAw n r (pRstatOut r.par) (0x10 + 16 * m) (statBytes e sc) c

/-- Set FINAL (R87). -/
def setFinal (n : Nat) (r : TodRun) (c : Chip) : Chip :=
  if isProducer r.tod && tRstatFin r.tod then
    let w := rd4 (rdAw c n r.windows (pRstatOut r.par)) 4
    putAw n r (pRstatOut r.par) 4 (leBytes 4 (setFld 4 4 w 1)) c
  else c

/-- What a TOD with a bound of 0 writes (R76); the accumulator it leaves is settled at its record (`keepAcc`). -/
def emptyWrites (n : Nat) (r : TodRun) (c : Chip) : Chip :=
  let t := r.tod
  if isAttn t || tNoDrain t then c
  else
    let c1 := if tRowop t = 0 then c else
      setFinal n r (forEach (List.range r.mb) (fun m k =>
        let e := if tRstatCont t then statOf (rdAw k n r.windows (pRstatOut r.par)) m else idStat (tRowop t)
        if tRstatCont t && !tRstatFin t then k else putStat n r m e k) c)
    if tColop t = 0 ∨ tColCont t = true then c1
    else putAw n r (pColred r.par) 0
      ((List.range r.nb).flatMap (fun _ => leBytes 4 (if tColop t = 2 then fNegInf else fZero).toNat)) c1

/-- What a reader of a slot's pages on core n latches: within a ring step, what the step's start latched; else
the slot as it stands (R161). -/
def readerLatch (c : Chip) (n slot : Nat) : Latch :=
  let s := c.slot slot
  let now : Latch := { root := s.root, gen := s.dirGen, lens := s.lens }
  if (c.core n).byGroup.isSome then (s.latches.find? (fun l => decide (0x3000 ≤ l.who ∧ l.who < 0x4000))).getD now else now

/-- Begin a TOD whose holds have released. -/
def beginTod (n : Nat) (r0 : TodRun) (c : Chip) : Chip :=
  let k := c.core n
  let t := r0.tod
  let p := r0.par
  let fail (s o v : Nat) : Chip :=
    c.setCore n { k with st := 1, pred := none, runs := k.runs.dropLast ++
      [{ r0 with ended := true, status := s, faultOfs := o, faultVal := v, issueNow := c.cad.now, lease := k.lease,
                 mb := boundVal c n t 0, nb := boundVal c n t 1, kb := boundVal c n t 2, sfuGen := (c.clus (n / 8)).sfu.gen.toNat }] }
  match boundBad c n t with
  | some (s, o, v) => fail s o v
  | none =>
    match bufferBad c n t p with
    | some (s, o, v) => fail s o v
    | none =>
      let mb := boundVal c n t 0
      let nb := boundVal c n t 1
      let kb := boundVal c n t 2
      let prov := (k.provSet ++ newProv c n t p).dedup
      let isProv := prov != [] || readsProv c n t p
      let empty := mb == 0 || (!isAttn t && nb == 0) || (!isVector t && kb == 0)
      let sp := splanAddr c n t p
      let sl := c.slot (aSlot t)
      let walks := isAttn t && !aPmerge t
      let lt := readerLatch c n (aSlot t)
      let r : TodRun := { r0 with
        begun := true, ended := empty, status := if empty then 1 else 0, issueNow := c.cad.now
        mb := mb, nb := nb, kb := kb, prov := prov, provis := isProv, lease := k.lease
        sfuGen := (c.clus (n / 8)).sfu.gen.toNat
        scale := (match sp with | some a => BitVec.ofNat 32 (c.le a 4) | none => 0#32)
        windows := windows c n
        walk := if walks && !empty then
            some { root := lt.root, dirGen := lt.gen, len := lt.lens.getD (aLayer t) 0, tau := c.thrActive (n / 8) (aThr t), desc := sl.words }
          else none
        arrayCc := if isMatmul t && !empty then matmulCc t mb nb kb else 0 }
      let q := fld 4 0 (tOut t)
      let c1 := if tokenRows t = 0 then c else c.setQueue q { c.queue q with tokens := (c.queue q).tokens + tokenRows t }
      let c2 := c1.setCore n { k with
        st := 1, provSet := prov, runs := k.runs.dropLast ++ [r]
        pred := if isMatmul t && tNoDrain t then some (tM t, tN t) else none }
      let c3 := { c2 with plans := (match sp with
        | some a => if c2.plans.contains a then c2.plans else c2.plans ++ [a]
        | none => c2.plans) }
      let c4 := stampStat n r c3
      let c5 := if walks && !empty then addLatch (aSlot t) { lt with who := walkWho n } c4 else c4
      let c6 := if empty then emptyWrites n r c5 else c5
      goTo n (k.pc + 1) c6

/-- TOD_HOLD_RELEASE. -/
def holdRelease (n : Nat) (c : Chip) : Chip :=
  let k := c.core n
  match k.runs.getLast? with
  | some r => if k.st ≠ 3 ∨ r.begun = true ∨ r.ended = true ∨ held c n r = true then c else beginTod n r c
  | none => c

/-! ### The tiles of a run -/

/-- Operand view of a run. -/
def runView (c : Chip) (n : Nat) (r : TodRun) : View :=
  { tod := r.tod, par := r.par, mb := r.mb, nb := r.nb, kb := r.kb, bank := runBank c n r, scale := r.scale
    dim := if isAttn r.tod then (match r.walk with | some w => dDim w.desc | none => tN r.tod) else 0 }
def runMem (c : Chip) (n : Nat) (r : TodRun) : Mem := rdAw c n r.windows

/-- Columns of the next output tile: all of them under NO_DRAIN. -/
def tileCols (r : TodRun) : Nat × Nat :=
  if tNoDrain r.tod then (0, r.nb) else (64 * r.tiles, min r.nb (64 * r.tiles + 64))

/-- Byte ranges that the next tile loads: FAULT_OFS, address word, offset, length (R77). The entries that a joining
statistic reads are loaded with the last tile. -/
def tileLoads (r : TodRun) : List (Nat × Nat × Nat × Nat) :=
  let t := r.tod
  let p := r.par
  let v := isVector t
  let d := match r.walk with | some w => dDim w.desc | none => tN t
  let at_ := isAttn t
  let bound := if at_ then d else if v then r.nb else r.kb
  let rows := List.range r.mb
  let wa := codeBits (tFmtA t)
  let (n0, n1) := tileCols r
  let cols := (List.range (n1 - n0)).map (n0 + ·)
  let scols := if at_ then d / 32 else if v then ceilDiv (tN t) 32 else tK t / 32
  (if at_ && aPmerge t then
     (List.range r.kb).map (fun i => (0x18, tA t, i * tALd t, 64 + tM t * (32 + 4 * d)))
   else if tTransA t then (List.range bound).map (fun k => (0x18, tA t, k * tALd t, rowBytes wa r.mb))
   else rows.map (fun m => (0x18, tA t, m * tALd t, rowBytes wa bound))) ++
  (if codeMx (tFmtA t) && !(at_ && aPmerge t) then
     rows.map (fun m => (0x40, pAScl p, m * scols, ceilDiv bound 32)) else []) ++
  (if tDscale t || tNorm t || (at_ && aMode t == 2) then [(0x58, pRstatIn p, 0, 16 + 16 * r.mb)] else []) ++
  (if tNorm t then [(0x54, pNorm p, 0, 4 * bound), (0x54, pNorm p, 4 * rowLen t d, 4 * bound)] else []) ++
  (if isMatmul t then
     (if tTransB t then
        (List.range r.kb).map (fun k => (0x1C, tB t, k * tBLd t + codeBits (tFmtB t) * n0 / 8, rowBytes (codeBits (tFmtB t)) (n1 - n0)))
      else cols.map (fun j => (0x1C, tB t, j * tBLd t, rowBytes (codeBits (tFmtB t)) (storedLen (tSparse t) (ceilDiv r.kb 4 * 4))))) ++
     (if codeMx (tFmtB t) then cols.map (fun j => (0x44, pBScl p, j * (tK t / 32), ceilDiv r.kb 32)) else []) ++
     (if tSparse t ≠ 0 then
        cols.map (fun j => (0x4C, pMeta p, j * (tK t / 32) * (if tSparse t = 1 then 3 else 2), ceilDiv r.kb 32 * (if tSparse t = 1 then 3 else 2)))
      else []) ++
     (if tAcc t ≠ 2 then [] else if tNoDrain t then (List.range (tM t)).map (fun m => (0x20, tC t, m * tCLd t, 4 * tN t))
      else rows.map (fun m => (0x20, tC t, m * tCLd t + 4 * n0, 4 * (n1 - n0))))
   else []) ++
  (if !at_ && tResid t && !tNoDrain t then
     rows.map (fun m => (0x20, tC t, m * tCLd t + codeBits (tFmtC t) * n0 / 8, rowBytes (codeBits (tFmtC t)) (n1 - n0))) else []) ++
  (if !at_ && tBias t && !tNoDrain t then [(0x50, pBias p, 4 * n0, 4 * (n1 - n0))] else []) ++
  (if !at_ && !tNoDrain t && decide (r.nb ≤ n1) then
     (if tRowop t != 0 && tRstatCont t then [(0x5C, pRstatOut p, 16, 16 * r.mb)] else []) ++
     (if tColop t != 0 && tColCont t then [(0x60, pColred p, 0, 4 * r.nb)] else []) else []) ++
  (if at_ && aMode t == 2 then
     rows.map (fun m => (0x20, tC t, m * tCLd t, rowBytes (codeBits (tFmtC t)) d)) ++ [(0x50, pHeld p, 0, 4 * r.mb)] else []) ++
  (if at_ && aMode t == 0 && tRstatCont t then
     rows.map (fun m => (0x24, tOut t, m * tOutLd t, 4 * d)) ++
     [(0x5C, pRstatOut p, 0, 16 + 16 * r.mb), (0x4C, pSkipOut p, 0, 8 * r.mb)] else [])

/-- The first poisoned input of the next tile. -/
def tilePoison (c : Chip) (n : Nat) (r : TodRun) : Option (Nat × Nat) :=
  (tileLoads r).findSome? (fun x => (poisonAw c n r.windows x.2.1 x.2.2.1 x.2.2.2).map (fun v => (x.1, v)))

/-- Starting rows of an ATTN TOD (R181, R182). -/
def attnStart (c : Chip) (n : Nat) (r : TodRun) : List RowSt :=
  let t := r.tod
  let d := (runView c n r).dim
  let rd := runMem c n r
  if aMode t = 0 ∧ tRstatCont t = true then
    (List.range r.mb).map (fun m =>
      let e := statOf (rd (pRstatOut r.par)) m
      { part := { m := e.a, l := e.b, o := (List.range d).map (fun k => rdF (rd (tOut t)) (m * tOutLd t + 4 * k)) }
        n := e.n, smax := rdF (rd (pSkipOut r.par)) (8 * m), keys := rd4 (rd (pSkipOut r.par)) (8 * m + 4) })
  else (List.range r.mb).map (fun _ => { part := { o := List.replicate d fZero } })

/-- The walk of an ATTN run and the maximum of its Q rows after P0. -/
def attnWork (c : Chip) (n : Nat) (r : TodRun) : WalkAcc × F32 × Nat × Nat :=
  let t := r.tod
  let v := runView c n r
  let rd := runMem c n r
  let rows := (List.range r.mb).map (arrRow v rd)
  let l := r.walk.getD {}
  let f32 (aw o : Nat) : F32 := rdF (rd aw) o
  let dO (m : Nat) : List F32 :=
    match fmtOf (tFmtC t) with
    | some g => (List.range v.dim).map (fun i =>
        toF32 g (Config.gradScale m (i / 32)) (elemCode (rd (tC t)) (fmtBits g) (m * tCLd t) i))
    | none => []
  let w : WalkCtx := {
    core := n, tod := t, par := r.par, mb := r.mb, kb := r.kb, bank := v.bank, wins := r.windows
    root := l.root, len := l.len, tau := l.tau, desc := l.desc, q := rows.map (·.1)
    grad := if aMode t = 2 then (List.range r.mb).map (fun m =>
        (dO m, f32 (pHeld r.par) (4 * m), f32 (pRstatIn r.par) (0x10 + 16 * m), f32 (pRstatIn r.par) (0x1C + 16 * m))) else [] }
  (walkAll c w (attnStart c n r), amaxOf (rows.map (·.2)), (rows.map (·.1.sat)).sum, (rows.map (·.1.crush)).sum)

/-- The oldest run that has begun and not ended. -/
def nextRun (c : Chip) (n : Nat) : Option TodRun := (c.core n).runs.find? (fun r => r.begun && !r.ended)
/-- Replace that run. -/
def setRun (n : Nat) (x : TodRun) (c : Chip) : Chip :=
  let k := c.core n
  match k.runs.findIdx? (fun r => r.begun && !r.ended) with
  | some i => c.setCore n { k with runs := setAt k.runs i x }
  | none => c

/-- End a run with a status that stops the list; its walk's latch is released. -/
def endRun (n : Nat) (r : TodRun) (status ofs val cc : Nat) (c : Chip) : Chip :=
  let c1 := setRun n { r with ended := true, status := status, faultOfs := ofs, faultVal := val, arrayCc := cc } c
  if r.walk.isSome then unlatch (aSlot r.tod) (walkWho n) c1 else c1

/-- A malformed sparsity code in the next B tiles, and the core cycles that the array has been busy (R65). -/
def metaHit (c : Chip) (n : Nat) (r : TodRun) : Option (Nat × Nat) :=
  let t := r.tod
  if isMatmul t && tSparse t == 1 then
    (metaBad (runMem c n r (pMeta r.par)) (tK t) r.kb (tileK t) (tileCols r).1 (tileCols r).2).map
      (fun x => (x.1, doneCc r (r.tiles + x.2.1) x.2.2))
  else none

/-- META_FAULT. -/
def metaFault (n : Nat) (c : Chip) : Chip :=
  match nextRun c n with
  | some r => match metaHit c n r with | some x => endRun n r 0x15 0x4C x.1 x.2 c | none => c
  | none => c

/-- What stops the walk of an ATTN run, if anything, with the page-heads visited and skipped before. -/
def walkStop (c : Chip) (n : Nat) (r : TodRun) : Option (WalkBad × WalkAcc) :=
  if isAttn r.tod && !aPmerge r.tod then
    let a := (attnWork c n r).1
    a.bad.map (fun b => (b, a))
  else none
/-- What a walk of core n has done, also when it stops: its page walk unit counts the page-heads decided (R190), and the
frames visited have been used (R320). -/
def countWalk (n : Nat) (a : WalkAcc) (c : Chip) : Chip :=
  a.touched.foldl (fun k f => k.touch f.1 f.2)
    ((c.bumpRg (ra (pgPwu (n / 8)) 0x118) a.visited).bumpRg (ra (pgPwu (n / 8)) 0x11C) a.skipped)

/-- TOD_POISON: an uncorrectable error in what the next tile loads, or in what the walk reads. -/
def todPoison (n : Nat) (c : Chip) : Chip :=
  match nextRun c n with
  | none => c
  | some r =>
    match tilePoison c n r with
    | some (o, v) => endRun n r 0x18 o v (doneCc r r.tiles 0) c
    | none =>
      match walkStop c n r with
      | some (.poison o v frame fault, a) =>
        let c1 := countWalk n a (endRun n r 0x18 o v r.arrayCc c)
        let c2 := match frame with
          | some f => poisonEntry (aSlot r.tod) (aLayer r.tod) v f.1 f.2 c1
          | none => if fault then ucSeqAt (pgPwu (n / 8)) (aSlot r.tod) 8 v (aLayer r.tod) c1 else c1
        if fault then faultSlot (aSlot r.tod) 0 0 c2 else c2
      | _ => c

/-! ### Storing (E7) -/

/-- Codes, scales and statistics of values stored in FMT_OUT (R45, R49); the last MX block is whole (R80). -/
def storeCodes (t : List Nat) (scale : F32) (x : List F32) (st : StoreStats) : List Nat × List Nat × StoreStats :=
  match fmtOf (tFmtOut t) with
  | some .int32 => (x.map (·.toNat), [], x.foldl (fun s v => observe false false (fOfInt v.toInt) s) st)
  | some f =>
    if isMx f then
      let bs := (blocks 32 x).map (fun b => (b, deriveBlock f (padBlock b)))
      let s := bs.foldl (fun s b =>
        let s1 := (List.zip b.1 b.2.elems).foldl (fun q y => observe y.2.crush y.2.sat y.1 q) s
        { s1 with skipW := s1.skipW + b2n b.2.skip }) st
      (bs.flatMap (fun b => b.2.elems.map (·.code)), bs.map (fun b => b.2.scale), s)
    else if isIntFmt f then
      let q := x.map (fun v => (v, intQuant f scale v))
      (q.map (fun y => y.2.code), [], q.foldl (fun s y => observe y.2.crush y.2.sat y.1 s) st)
    else (x.map (·.toNat), [], x.foldl (fun s v => observe false false v s) st)
  | none => ([], [], st)

/-- Pack codes after `have` bytes' place, keeping the bits of the last byte that are not stored to. -/
def packKeep (w : Nat) (old : Nat) (l : List Nat) : List Byte :=
  let nb := rowBytes w l.length
  let b := (packCodes w l).take nb
  let r := w * l.length % 8
  if r = 0 then b
  else b.dropLast ++ [BitVec.ofNat 8 ((b.getLast?.getD 0#8).toNat % 2 ^ r + old / 2 ^ r * 2 ^ r)]

/-- Store columns n0 onward of row m in SPACE 0 or 1. -/
def storeRow (n : Nat) (r : TodRun) (m n0 : Nat) (x : List F32) (acc : Chip × StoreStats) : Chip × StoreStats :=
  let t := r.tod
  let w := codeBits (tFmtOut t)
  let cols := if isAttn t then x.length else tN t
  let (codes, scs, st) := storeCodes t r.scale x acc.2
  let off := m * tOutLd t + w * n0 / 8
  let old := (acc.1.byteAt (awAddr n r.windows (tOut t) (off + w * codes.length / 8))).toNat
  let c1 := putAw n r (tOut t) off (packKeep w old codes) acc.1
  let c2 := if codeMx (tFmtOut t) then
      putAw n r (pOutScl r.par) (m * ceilDiv cols 32 + n0 / 32) (scs.map (BitVec.ofNat 8)) c1 else c1
  (c2, st)

/-- The rows of a TOD to the append port (R69, R153). -/
def appendOut (n : Nat) (r : TodRun) (rows : List (List F32)) (c : Chip) (stats : StoreStats) : Chip × StoreStats :=
  let t := r.tod
  let packed := rows.foldl (fun (a : List (List Byte × List Byte) × StoreStats) x =>
    let (codes, scs, st) := storeCodes t r.scale x a.2
    (a.1 ++ [(packCodes (codeBits (tFmtOut t)) codes, scs.map (BitVec.ofNat 8))], st)) ([], stats)
  (if leaseLive c n r then appendRows (awOfs (tOut t)) (tFmtOut t) r.nb packed.1 c else c, packed.2)

/-! ### Draining -/

/-- Values of row m, columns n0 to n1, after E4, with their bookkeeping (R78, R81). -/
structure TileRow where
  vals  : List F32 := []
  skip  : Nat := 0
  ovf   : Bool := false
  amaxA : F32 := 0#32
  amaxC : F32 := 0#32
  sat   : Nat := 0
  crush : Nat := 0
  raw   : List (Option W32) := []
  deriving DecidableEq, Repr

/-- Accumulator start of entry (m, j). -/
def accStart (c : Chip) (n : Nat) (r : TodRun) (m j : Nat) : Option W32 :=
  match tAcc r.tod with
  | 1 => Tab.get (fun _ => none) (c.core n).acc (m * tN r.tod + j)
  | 2 => some (rdF (runMem c n r (tC r.tod)) (m * tCLd r.tod + 4 * j))
  | _ => none

def tileRow (c : Chip) (n : Nat) (r : TodRun) (m n0 n1 : Nat) : TileRow :=
  let t := r.tod
  let v := runView c n r
  let rd := runMem c n r
  let stages := epiStages v rd m n0
  if isVector t then
    let p := proRow v rd m
    let x := (p.vals.drop n0).take (n1 - n0)
    { vals := runStages t (tPro t == 0) stages x, amaxA := p.amax, amaxC := amaxOf (residVals v rd m n0 (n1 - n0)) }
  else
    let a := arrRow v rd m
    let o := (List.range (n1 - n0)).map (fun j => dotMN v rd a.1 (n0 + j) (accStart c n r m (n0 + j)))
    let int := codeInt (arrayA t)
    let out (q : AccOut) : F32 :=
      let w := q.val.getD fZero
      if int && tFmtOut t != 0xD then fOfInt w.toInt else w
    { vals := if tNoDrain t then [] else runStages t false stages (o.map out)
      skip := (o.map (·.skip)).sum, ovf := o.any (·.ovf), amaxA := a.2
      amaxC := if tNoDrain t then fZero else amaxOf (residVals v rd m n0 (n1 - n0))
      sat := a.1.sat, crush := a.1.crush, raw := o.map (·.val) }

/-- Bookkeeping of a set of tile rows in the run. -/
def noteRows (rows : List TileRow) (r : TodRun) : TodRun :=
  { r with
    skipBlk := sat32 r.skipBlk ((rows.map (·.skip)).sum)
    intOvf := r.intOvf || rows.any (·.ovf)
    amaxA := fMax r.amaxA (amaxOf (rows.map (·.amaxA)))
    amaxC := fMax r.amaxC (amaxOf (rows.map (·.amaxC)))
    proSat := if r.tiles = 0 then sat32 r.proSat ((rows.map (·.sat)).sum) else r.proSat
    proCrush := if r.tiles = 0 then sat32 r.proCrush ((rows.map (·.crush)).sum) else r.proCrush }

/-- The whole output is stored at the last tile (R69, R86). -/
def atOnce (t : List Nat) : Bool := !isAttn t && (tRowop t == 4 || decide (2 ≤ awSpace (tOut t)))

/-- A stage comes before the row operation (R81, R89). -/
def stageBefore (t : List Nat) : Bool :=
  isMatmul t || tPro t != 0 || tScale t || tBias t || tAct t != 0 || tResid t

/-- One tile of a MATMUL or VECTOR run. -/
def drainTile (n : Nat) (r : TodRun) (c : Chip) : Chip :=
  let t := r.tod
  let (n0, n1) := tileCols r
  let rows := (List.range r.mb).map (fun m => tileRow c n r m n0 n1)
  let last := decide (r.nb ≤ n1)
  let soft := tRowop t == 4
  let r1 : TodRun := { noteRows rows r with
    tiles := r.tiles + 1, ended := last
    vals := if r.tiles = 0 then rows.map (·.vals) else List.zipWith (· ++ ·) r.vals (rows.map (·.vals)) }
  let sm := r1.vals.map (fun x => softRow (runBank c n r) (if stageBefore t then boundary t x else x))
  let r2 : TodRun := if soft && last then
      { r1 with vals := sm.map (·.1), rowStat := sm.map (fun y => (y.2.1, y.2.2, y.1.length)) } else r1
  let whole := soft || decide (2 ≤ awSpace (tOut t))
  let res : Chip × StoreStats :=
    if awSpace (tOut t) = 3 then
      if last then appendOut n r2 r2.vals c r2.stats else (c, r2.stats)
    else if awSpace (tOut t) = 4 then
      (c, if last then r2.vals.foldl (fun s x => (storeCodes t r2.scale x s).2.2) r2.stats else r2.stats)
    else if whole then
      if last then r2.vals.zipIdx.foldl (fun a x => storeRow n r2 x.2 0 x.1 a) (c, r2.stats) else (c, r2.stats)
    else rows.zipIdx.foldl (fun a x => storeRow n r2 x.2 n0 x.1.vals a) (c, r2.stats)
  setRun n { r2 with stats := res.2 } res.1

/-- Skip figures of the rows (R179). -/
def skipBytes (rows : List RowSt) : List Byte :=
  rows.flatMap (fun x => leBytes 4 x.smax.toNat ++ leBytes 4 x.keys)

/-- The whole of an ATTN run but PMERGE. -/
def drainWalk (n : Nat) (r : TodRun) (c : Chip) : Chip :=
  let t := r.tod
  let p := r.par
  let (a, am, sat, crush) := attnWork c n r
  match a.bad with
  | some .access => ucOp pgMtm 9 0 0 0 (countWalk n a (endRun n r 0x13 0x44 (pPage0 p) r.arrayCc c))
  | some _ => c
  | none =>
    let d := (runView c n r).dim
    let r1 : TodRun := { r with
      ended := true, amaxA := am, proSat := sat32 sat a.sat, proCrush := sat32 crush a.crush
      skipBlk := a.skip, arrayCc := a.arr, tiles := if aMode t = 1 then 1 else ceilDiv d 64
      rowStat := a.rows.map (fun x => (x.part.m, x.part.l, x.n)) }
    let outRows := if aMode t = 2 then a.dq.map (fun q => q.map (fun y => y.getD fZero)) else a.rows.map (fun x => x.part.o)
    let res : Chip × StoreStats :=
      if aMode t = 1 then
        (putAw n r (tOut t) 0 (partHdr r.mb d (aSlot t) (aLayer t) (pPos0 p) ++ a.rows.flatMap partRow) c,
          (outRows.flatten).foldl (fun s v => observe false false v s) r.stats)
      else outRows.zipIdx.foldl (fun q x => storeRow n r1 x.2 0 x.1 q) (c, r.stats)
    let c1 := if aMode t = 1 then res.1 else putAw n r (pSkipOut p) 0 (skipBytes a.rows) res.1
    let c2 := if aMode t = 2 then putAw n r (pGrad p) 0 a.grad c1 else c1
    let c4 := countWalk n a c2
    unlatch (aSlot t) (walkWho n) (setRun n { r1 with stats := res.2 } c4)

/-- A PMERGE run (R184). -/
def drainMerge (n : Nat) (r : TodRun) (c : Chip) : Chip :=
  let t := r.tod
  let d := tN t
  let rd := runMem c n r (tA t)
  let blk (i : Nat) : List Byte :=
    (List.range (64 + r.mb * (32 + 4 * d))).map (fun o => BitVec.ofNat 8 (rd (i * tALd t + o)))
  match pmerge (runBank c n r) r.mb d r.kb blk with
  | none => endRun n r 0x16 0x18 (tA t) r.arrayCc c
  | some (h, rows) =>
    let c1 := putAw n r (tOut t) 0 (partHdr r.mb d h.1 h.2 (pPos0 r.par) ++ rows.flatMap partRow) c
    setRun n { r with
      ended := true, tiles := 1, rowStat := rows.map (fun x => (x.part.m, x.part.l, x.n))
      stats := ((rows.map (fun x => x.part.o)).flatten).foldl (fun s v => observe false false v s) r.stats } c1

/-- OUTPUT_TILE_DRAIN: the next tile of the oldest run that has begun, unless a load of it is faulty. A
CONTINUE run reads the accumulators that its predecessor leaves at its record. -/
def tileDrain (n : Nat) (c : Chip) : Chip :=
  match nextRun c n with
  | none => c
  | some r =>
    let t := r.tod
    let first := (c.core n).runs.findIdx? (fun x => x.begun && !x.ended) == some 0
    if (tilePoison c n r).isSome || (metaHit c n r).isSome || tNoDrain t || (isMatmul t && tAcc t == 1 && !first) then c
    else if isAttn t then (if aPmerge t then drainMerge n r c else drainWalk n r c)
    else drainTile n r c

/-! ### The record (R91) -/

/-- Row and column statistics of a completed run (R83, R87). -/
def writeStats (n : Nat) (r : TodRun) (c : Chip) : Chip :=
  let t := r.tod
  let bk := runBank c n r
  if isAttn t then
    if aRstatOut t then
      setFinal n r (r.rowStat.zipIdx.foldl (fun k x =>
        putStat n r x.2 { a := x.1.1, b := x.1.2.1, n := x.1.2.2 } k) c)
    else c
  else
    let c1 := if tRowop t = 0 then c else
      setFinal n r (r.vals.zipIdx.foldl (fun k x =>
        let sm := r.rowStat.getD x.2 (fZero, fZero, 0)
        let e := rowStat bk (tRowop t) x.1 (sm.1, sm.2.1)
        let e' := if tRstatCont t then joinStat bk (tRowop t) (statOf (rdAw k n r.windows (pRstatOut r.par)) x.2) e else e
        putStat n r x.2 e' k) c)
    if tColop t = 0 then c1 else
      let f := if tColop t = 1 then fAdd else fMax
      forEach (List.range r.nb) (fun j k =>
        let v := (canonRed f none (r.vals.map (fun x => some (x.getD j fZero)))).getD fZero
        let e := rdF (rdAw k n r.windows (pColred r.par)) (4 * j)
        putAw n r (pColred r.par) (4 * j) (leBytes 4 ((if tColCont t then f e v else v).toNat)) k) c1

/-- The contribution of a store to its scale-plan entry (R51): provisional while a collective that it has consumed is
uncommitted. -/
def contribute (n : Nat) (r : TodRun) (c : Chip) : Chip :=
  let t := r.tod
  if isAttn t || tNoDrain t || !codeInt (tFmtOut t) then c else
  let aw := pSplan r.par
  let a := awAddr n r.windows aw 0
  if awSpace aw = 1 ∧ leaseLive c n r = false then c
  else if r.prov != [] then
    let w := c.le (a + 8) 4
    let c1 := (c.storeLe (a + 0x10) 4 (fMax (BitVec.ofNat 32 (c.le (a + 0x10) 4)) r.stats.amax).toNat).storeLe (a + 8) 4
      (setFld 15 10 w (fld 15 10 w + 1))
    { c1 with contribs := c1.contribs ++ [(a, r.prov)] }
  else c.storeLe (a + 0xC) 4 (fMax (BitVec.ofNat 32 (c.le (a + 0xC) 4)) r.stats.amax).toNat

/-- Token entries of a run, and the release of its reservation (R368). -/
def tokens (n : Nat) (r : TodRun) (c : Chip) : Chip :=
  let t := r.tod
  if tokenRows t = 0 then c else
  let q := fld 4 0 (tOut t)
  let c1 := c.setQueue q { c.queue q with tokens := (c.queue q).tokens - tokenRows t }
  if r.status = 0 ∧ leaseLive c n r = true then
    r.vals.zipIdx.foldl (fun k x =>
      cqPush q 1 0 r.nb (tTag t) (x.2 % 65536 + 2 ^ 16 * tFmtOut t) (x.1.map (·.toNat)) k) c1
  else c1

/-- Accumulators that a NO_DRAIN run leaves (R68, R76, R78), with its bookkeeping: under LOAD_C every planned entry has
started as its C. -/
def keepAcc (n : Nat) (r : TodRun) (c : Chip) : Chip × TodRun :=
  let t := r.tod
  let rows := (List.range r.mb).map (fun m => tileRow c n r m 0 r.nb)
  let rd := runMem c n r (tC t)
  let base : Tab (Option W32) := match tAcc t with
    | 1 => (c.core n).acc
    | 2 => if r.status = 1 then (c.core n).acc else
        Tab.setList (fun _ => none) [] 0 ((List.range (tM t)).flatMap (fun m =>
          (List.range (tN t)).map (fun j => some (rdF rd (m * tCLd t + 4 * j)))))
    | _ => []
  let acc := rows.zipIdx.foldl (fun a x => x.1.raw.zipIdx.foldl (fun b y =>
    Tab.set (fun _ => none) b (x.2 * tN t + y.2) y.1) a) base
  (c.setCore n { c.core n with acc := acc }, { noteRows rows r with ended := true })

/-- The 128-byte record, with the histogram extension wherever the TOD enables it (R58, R91). -/
def recBytes (n : Nat) (r : TodRun) (status : Nat) (now : Nat) : List Byte :=
  let t := r.tod
  let hist := tHist t && !tNoDrain t
  let dbuf := r.begun && !isVector t && decide (accEntries t ≤ 32768)
  let defer := tDefer t && isProducer t && tRstatFin t && decide (status < 16)
  let w1 := status + 2 ^ 8 * b2n r.provis + 2 ^ 9 * b2n defer + 2 ^ 10 * b2n hist + 2 ^ 11 * b2n r.intOvf +
    2 ^ 12 * b2n (tBitmatch t) + 2 ^ 13 * b2n dbuf + 2 ^ 16 * n + 2 ^ 24 * tOp t
  let (ep, wc) := match r.lease with | some l => (l.epoch, l.wc) | none => (0, 0)
  let s (v : Nat) : Nat := min v 0xFFFFFFFF
  leBytes 4 (tTag t) ++ leBytes 4 w1 ++ leBytes 8 r.issueNow ++ leBytes 8 now ++
  leBytes 4 r.mb ++ leBytes 4 r.nb ++ leBytes 4 r.kb ++ leBytes 4 ep ++ leBytes 4 (wc + 2 ^ 16 * tProvDep t) ++
  leBytes 4 (s r.arrayCc) ++ leBytes 4 (s ((now - r.issueNow) * 7 / 10)) ++ leBytes 4 (s r.skipBlk) ++
  leBytes 4 (s r.stats.sat) ++ leBytes 4 (s r.stats.crush) ++ leBytes 4 (s r.stats.skipW) ++
  leBytes 4 (s r.proSat) ++ leBytes 4 (s r.proCrush) ++ leBytes 4 r.stats.amax.toNat ++ leBytes 4 r.amaxA.toNat ++
  leBytes 4 r.amaxC.toNat ++ leBytes 4 (if atOnce t && decide (16 ≤ status) then 0 else r.tiles) ++ leBytes 4 r.scale.toNat ++ leBytes 4 r.sfuGen ++
  leBytes 4 (r.faultOfs % 256) ++ leBytes 4 r.faultVal ++ List.replicate 20 0#8 ++
  (if hist then (List.range 64).flatMap (fun b => leBytes 4 ((r.stats.hist.lookup b).getD 0)) else [])

/-- A record extends the expiry of its lease, and a provisional run marks it (R109, R113). -/
def extendLease (n : Nat) (r : TodRun) (c : Chip) : Chip :=
  match r.lease with
  | none => c
  | some l =>
    let up (x : Lease) : Lease :=
      if x.same l then
        { x with
          expiry := if !x.expired && decide (c.beat < x.expiry) then c.beat + x.len else x.expiry
          prov := if r.provis then (x.prov ++ r.prov).dedup else x.prov }
      else x
    let k := c.core n
    c.setCore n { k with lease := k.lease.map up, retiring := k.retiring.map up }

/-- Write the record of the oldest run and retire the run. -/
def writeRecord (n : Nat) (r : TodRun) (c : Chip) : Chip :=
  let live := leaseLive c n r
  let c1 := if r.status = 0 ∧ tNoDrain r.tod = false then contribute n r (writeStats n r c) else c
  let c2 := tokens n r c1
  let status := if r.status < 2 ∧ live = false then 2 else r.status
  let k := c2.core n
  let b := c2.rg (coreReg n 0x118)
  let slots := c2.rg (coreReg n 0x11C)
  let off := 384 * (k.cplHead % max 1 slots)
  let full : Bool := slots ≤ (k.cplHead + 65536 - c2.rg (coreReg n 0x124)) % 65536
  let c3 := c2.setCore n { k with runs := k.runs.drop 1, lastEmpty := status == 1 }
  let c4 := extendLease n r c3
  if spaceLimit (awSpace b) < awOfs b + off + 384 then listFault n 0x28 c4
  else
    let a := awAddr n [] b off
    let c5 := c4.store a (recBytes n r status c.cad.now)
    let k5 := c5.core n
    let c6 := c5.setCore n { k5 with
      cplHead := (k5.cplHead + 1) % 65536, cplLost := if full then sat32 k5.cplLost 1 else k5.cplLost }
    if 16 ≤ status then
      ucOp (pgCore n) 10 (opId n (tTag r.tod)) status (c6.core n).pc
        (c6.setCore n { c6.core n with
          st := 4, fault := status, blocked := .none, stopping := false, runs := (c6.core n).runs.filter (·.begun) })
    else if (c6.core n).stopping && (c6.core n).runs.isEmpty then c6.setCore n { c6.core n with st := 0, stopping := false }
    else c6

/-- COMPLETION_RECORD: the oldest run, once it has ended; a NO_DRAIN run ends here. -/
def completionRecord (n : Nat) (c : Chip) : Chip :=
  match (c.core n).runs with
  | [] => c
  | r :: _ =>
    if r.ended then
      writeRecord n r (if r.status = 1 ∧ isMatmul r.tod = true ∧ tNoDrain r.tod = true then (keepAcc n { r with mb := 0 } c).1 else c)
    else if r.begun && tNoDrain r.tod && (tilePoison c n r).isNone && (metaHit c n r).isNone then
      let x := keepAcc n r c
      writeRecord n x.2 x.1
    else c

/-! ### Scale plans (R51 to R53) -/

/-- Step boundary of a slot: its entries are to roll (R52). -/
def planBoundary (slot : Nat) (c : Chip) : Chip :=
  { c with rolls := (c.rolls ++ c.plans.filter (fun a =>
      bit 21 (c.le (a + 4) 4) && fld 20 16 (c.le (a + 4) 4) == slot)).dedup }

/-- Some TOD that latched the entry is still in flight. -/
def latchedBy (c : Chip) (a : Nat) : Bool :=
  (List.range 192).any (fun n => (c.core n).runs.any (fun r =>
    r.begun && !isAttn r.tod && !tNoDrain r.tod && codeInt (tFmtOut r.tod) && awAddr n r.windows (pSplan r.par) 0 == a))

/-- The roll of R52. -/
def rollEntry (a : Nat) (c : Chip) : Chip :=
  let w1 := c.le (a + 4) 4
  let w2 := c.le (a + 8) 4
  let depth := max 1 (fld 8 4 w1)
  let head := fld 3 0 w2
  let c1 := c.storeLe (a + 0x40 + 4 * head) 4 (c.le (a + 0xC) 4)
  let filled := min (fld 8 4 w2 + 1) depth
  let h := ((List.range filled).map (fun i => (BitVec.ofNat 32 (c1.le (a + 0x40 + 4 * i) 4) : F32))).foldl fMax fZero
  let q := match fld 3 0 w1 with | 0 => 127 | 1 => 255 | 2 => 7 | _ => 15
  let w2' := setFld 8 4 (setFld 3 0 w2 ((head + 1) % depth)) filled
  let c2 := (c1.storeLe (a + 8) 4 (if h = fInf then setFld 9 9 w2' 1 else w2')).storeLe (a + 0xC) 4 0
  if h = fInf then c2
  else if isZero h then c2.storeLe a 4 fOne.toNat
  else
    let s := match num h with
      | .fin _ m e => divF32 q 0 m (e + fld 12 9 w1)
      | _ => fOne
    let s' := if bit 13 w1 && isFin s && !isZero s then roundF32 false 1 (floorLog2 s) else s
    c2.storeLe a 4 s'.toNat

/-- SCALE_PLAN_ROLL: a waiting roll is written once nothing holds it (R53). -/
def scalePlanRoll (a : Nat) (c : Chip) : Chip :=
  if c.rolls.contains a && !latchedBy c a && fld 15 10 (c.le (a + 8) 4) == 0 then
    { rollEntry a c with rolls := c.rolls.erase a }
  else c

/-- A collective's provisional contributions and buffers are retired: merged on a commit, discarded on an
abort (R51, R86). -/
def retireProv (id : Nat) (commit : Bool) (c : Chip) : Chip :=
  let mine := c.contribs.filter (fun x => x.2.contains id)
  let rest := c.contribs.filter (fun x => !x.2.contains id)
  let kept := if commit then mine.filterMap (fun x =>
    let l := x.2.filter (· != id)
    if l = [] then none else some (x.1, l)) else []
  let gone := if commit then mine.filter (fun x => x.2.all (· == id)) else mine
  let c1 := gone.foldl (fun k x =>
    let a := x.1
    let w := k.le (a + 8) 4
    let p : F32 := BitVec.ofNat 32 (k.le (a + 0x10) 4)
    let k1 := if commit then k.storeLe (a + 0xC) 4 (fMax (BitVec.ofNat 32 (k.le (a + 0xC) 4)) p).toNat
      else k.storeLe (a + 0x10) 4 0
    let n := fld 15 10 w - 1
    let k2 := k1.storeLe (a + 8) 4 (setFld 15 10 w n)
    if n = 0 then k2.storeLe (a + 0x10) 4 0 else k2) c
  let c2 := { c1 with contribs := rest ++ kept }
  c2.provBufs.foldl (fun k x =>
    if x.2.contains id then
      let l := if commit then x.2.filter (· != id) else []
      let k1 := { k with provBufs := Tab.set (fun _ => []) k.provBufs x.1 l }
      if commit && l.isEmpty then k1.storeLe (x.1 + 4) 4 (setFld 5 5 (k1.le (x.1 + 4) 4) 0) else k1
    else k) c2

end Sys2Proof.Machine
end

