-- ==== Sys2Proof/Machine/Sequencer.lean ====
section
/-! DEFINITION. The core sequencer's launches, control operations, leases, staging and carousel (R95 to
R119). -/

namespace Sys2Proof.Machine

/-! ### The weight carousel (R115 to R119) -/

/-- The carousel record of a cluster (log 12). -/
def carRecord (c : Chip) (cl : Nat) : List Nat := leWords 8 (c.bytes (Config.carouselRecord cl % 2 ^ 48) 32)
/-- Cores of a carousel: those of its mask that the applied work map holds (R116). -/
def carCores (c : Chip) (r : List Nat) : List Nat :=
  (List.range 192).filter (fun m => bit (m / 8) (carMask r) && (c.core m).mapApp)

/-- The place of core n in the carousel that its cluster's record and the applied work map give now: what a step start
latches (R16, R116). -/
def carPlace (c : Chip) (n : Nat) : Option Carousel :=
  let r := carRecord c (n / 8)
  let ms := carCores c r
  if carOk r then (ms.idxOf? n).map (fun q => { rank := q, rcd := r, cores := ms }) else none

/-- The carousel that another running core holds and that core n takes part in. -/
def carShared (c : Chip) (n : Nat) : Option Carousel :=
  (List.range 192).findSome? (fun m =>
    match (c.core m).car with
    | some q => if m != n && q.cores.contains n && (c.core m).st != 0 && (c.core m).st != 4 then some q else none
    | none => none)

/-- At a launch a core takes its place: the one latched at the step start that launches it; else, for a launch of
software's, the carousel of the cores that run already, or a new one (R116; log 12). -/
def carStart (n : Nat) (grp : Option Nat) (c : Chip) : Chip :=
  let k := c.core n
  if grp.isSome then c.setCore n { k with car := k.carNext, carNext := none }
  else
    match carShared c n with
    | some q => c.setCore n { k with car := (q.cores.idxOf? n).map (fun i => { rank := i, rcd := q.rcd, cores := q.cores }) }
    | none => c.setCore n { k with car := carPlace c n, carDue := [] }

/-- A step start latches the place of a core that it is to launch. -/
def carLatch (n : Nat) (c : Chip) : Chip := c.setCore n { c.core n with carNext := carPlace c n, carDue := [] }

def carOf (c : Chip) (n : Nat) : List Nat := match (c.core n).car with | some q => q.rcd | none => []
def carPass (q : Carousel) : Nat := q.cores.length * carU q.rcd
/-- Byte address of pocket j of core n. -/
def pocket (q : Carousel) (n j : Nat) : Nat := padBase n + carPockets q.rcd + j * carBytes q.rcd
/-- The unit of step t is in its pocket (R116, R117). -/
def unitIn (q : Carousel) (t : Nat) : Bool := !carRotate q.rcd || decide (t < carU q.rcd + q.landed)

/-- The current unit of core n is done: it is sent to the next rank of the cores latched, and the window moves on
(R117). The send reads the pocket out at once, and the unit waits at the next core, launched or not. -/
def carDone (n : Nat) (c : Chip) : Chip :=
  match (c.core n).car with
  | none => c
  | some q =>
    let c1 := c.setCore n { c.core n with car := some { q with t := q.t + 1 } }
    if !carRotate q.rcd then c1 else
    let nxt := q.cores.getD ((q.rank + 1) % max 1 q.cores.length) n
    let b := c.bytes (pocket q n (q.t % (carU q.rcd + 1))) (carBytes q.rcd)
    c1.setCore nxt { c1.core nxt with carDue := (c1.core nxt).carDue ++ [b] }

/-- After an abort the units go on moving to the end of the pass (R119). -/
def carDrain (n : Nat) : Nat → Chip → Chip
  | 0, c => c
  | f + 1, c =>
    match (c.core n).car with
    | none => c
    | some q =>
      if !q.drain then c
      else if !carRotate q.rcd || q.t % max 1 (carPass q) = 0 then c.setCore n { c.core n with car := some { q with drain := false } }
      else if unitIn q q.t then carDrain n f (carDone n c)
      else c

/-- CAROUSEL_UNIT_LAND: the oldest waiting unit lands once its pocket has been read out (R117). -/
def carLand (n : Nat) (c : Chip) : Chip :=
  match (c.core n).car, (c.core n).carDue with
  | some q, b :: rest =>
    if q.t < q.landed then c
    else
      let c1 := c.store (pocket q n ((q.landed + carU q.rcd) % (carU q.rcd + 1))) b
      let c2 := c1.setCore n { c1.core n with car := some { q with landed := q.landed + 1 }, carDue := rest }
      carDrain n (carPass q + 1) c2
  | _, _ => c

/-- An abort reaches core n in a rotating pass (R119). -/
def carAbort (n : Nat) (c : Chip) : Chip :=
  match (c.core n).car with
  | some q => carDrain n (carPass q + 1) (c.setCore n { c.core n with car := some { q with drain := true } })
  | none => c

/-- A pass still rotates, or its last units are still to land: step boundaries wait (R119). -/
def carBusy (c : Chip) : Bool :=
  (List.range 192).any (fun n =>
    let k := c.core n
    match k.car with
    | some q => carRotate q.rcd && (k.carDue != [] ||
        (q.t % max 1 (carPass q) != 0 && (q.drain || (k.st != 0 && k.st != 4))))
    | none => false)

/-! ### Leases (R108 to R113) -/

/-- One byte of the TAS as it stands. -/
def rawByte (c : Chip) (a : Nat) : Byte :=
  match c.place a with
  | .mem x => c.byteAt x
  | .low t i o => c.frameByte t i o
  | _ => 0#8

/-- A copy by a cluster DMA engine of n bits from bit address s to bit address d, written by `put`; the other bits of
the bytes it touches stay, and poison marks travel with their words (R431). -/
def dmaBits (put : Nat → List Byte → Chip → Chip) (s d n : Nat) (c : Chip) : Chip :=
  if n = 0 then c else
  let sa := s / 8
  let sn := ceilDiv (s % 8 + n) 8
  let da := d / 8
  let dn := ceilDiv (d % 8 + n) 8
  let copy (k : Chip) : Chip :=
    let v := leNat ((List.range sn).map (fun i => rawByte c (sa + i))) / 2 ^ (s % 8) % 2 ^ n
    let old := leNat ((List.range dn).map (fun i => rawByte c (da + i)))
    put da (leBytes dn (old - old / 2 ^ (d % 8) % 2 ^ n * 2 ^ (d % 8) + v * 2 ^ (d % 8))) k
  match c.tasRead sa sn with
  | .ok _ => copy (noteRead sa sn c)
  | .access => badAddr sa c
  | .wait _ => c
  | .poison _ =>
    (List.range dn).foldl (fun k i =>
      match c.tasRead (sa + i) 1, c.place (da + i) with
      | .poison _, .mem x => k.mark x 1
      | .poison _, .low t f o => { k with lowPoison := Tab.set (fun _ => false) k.lowPoison (lowKey t f o / 8) true }
      | _, _ => k) (copy c)

/-- Byte offset of row r of an operand with group and row strides (R96). -/
def foldRow (t : List Nat) (rs gs r : Nat) : Nat := r / topFold t * 16 * rs + r % topFold t * 16 * gs

/-- A part of the operation's (M, N) grid: its first row and column, and how many. -/
structure Region where
  x  : Nat := 0
  nx : Nat := 0
  y  : Nat := 0
  ny : Nat := 0
  deriving DecidableEq, Repr

/-- The lease tile of a lease, and the block (h, block row, block column) of a counter. -/
def leaseRegion (l : Lease) : Region :=
  { x := l.i * topTile l.top 1 0, nx := l.rows, y := l.j * topTile l.top 1 1, ny := l.cols }
def blockRegion (k : Counter) (b : Nat × Nat × Nat) : Region :=
  let x := b.2.1 * topTile k.top 2 0
  let y := b.2.2 * topTile k.top 2 1
  { x := x, nx := min (topTile k.top 2 0) (k.rowsOf.getD b.1 (topM k.top) * topFold k.top - x)
    y := y, ny := min (topTile k.top 2 1) (topN k.top - y) }

/-- Lines of operand area i in a region: rows for A and its scales, columns for B, its scales and metadata. -/
def Region.lines (g : Region) (t : List Nat) (i : Nat) : List Nat :=
  if areaStride t g.ny i = 0 then []
  else if i < 2 then (List.range g.nx).map (g.x + ·) else (List.range g.ny).map (g.y + ·)

/-- Bit offset within a line of a VECTOR operand of its column `q`; every other line starts at its first bit. -/
def lineBit (t : List Nat) (i q : Nat) : Nat :=
  if !topVector t then 0 else if i = 0 then codeBits (topFmtA t) * q else 8 * (q / 32)
/-- Bits of a line of area i over `w` columns of a region. -/
def lineLen (t : List Nat) (w i : Nat) : Nat :=
  let k := if topVector t then w else topK t
  match i with
  | 0 => codeBits (topFmtA t) * k
  | 2 => codeBits (topFmtB t) * storedLen (topSparse t) k
  | _ => 8 * areaStride t w i

/-- Bit address in the tier range of line q of area i of instance h, from column y (R93, R96). -/
def tierBit (t : List Nat) (h i q y : Nat) : Nat :=
  let k := if topVector t then topN t else topK t
  lineBit t i y + 8 * (match i with
    | 0 => top64 t 22 + h * top64 t 36 + foldRow t (fld 15 0 (wd t 42)) (fld 15 0 (wd t 44)) q
    | 1 => top64 t 28 + h * (topM t * topFold t * ceilDiv k 32) + q * ceilDiv k 32
    | 2 => top64 t 24 + h * top64 t 38 + q * 16 * fld 31 16 (wd t 42)
    | 3 => top64 t 30 + h * (topN t * ceilDiv k 32) + q * ceilDiv k 32
    | _ => top64 t 32 + h * (topN t * areaStride t k 4) + q * areaStride t k 4)
/-- Bit address of line q of area i in a slot or buffer at `base` that holds region g as a tile of a level (R112). -/
def tileBit (t : List Nat) (level base : Nat) (g : Region) (i q y : Nat) : Nat :=
  lineBit t i (y - g.y) +
  8 * (base + areaOfs t level i + (q - (if i < 2 then g.x else g.y)) * areaStride t (topTile t level 1) i)

/-- Two tiles of one operand need the same rows of A, or the same columns of B (R95). -/
def sharesLines (t : List Nat) (i : Nat) (h x y h' x' y' : Nat) : Bool :=
  !topVector t && h == h' && (if i < 2 then x == x' else y == y')

/-- Where block buffer i of a cluster lies. -/
def bufAt (cl : Nat) (t : List Nat) (blk : Nat) : Nat := cacheBase cl + bufBase t (blk % max 1 (topBufs t))
/-- The block buffer that a block takes holds it. -/
def bufHolds (c : Chip) (cl ord blk : Nat) (t : List Nat) : Bool :=
  ((c.clus cl).bufs.getD (blk % max 1 (topBufs t)) none) == some { ord := ord, blk := blk }

/-- Copies that bring a block into its buffer: from the buffer that holds the block before it where they share lines,
else from the tier range (R95). -/
def blockCopies (c : Chip) (cl : Nat) (k : Counter) (blk : Nat) (b : Nat × Nat × Nat) : List (Nat × Nat × Nat) :=
  let t := k.top
  if bufHolds c cl k.armOrd blk t then [] else
  let g := blockRegion k b
  let p := (allBlocks t k.rowsOf).getD (blk - 1) (0, 0, 0)
  let old := decide (k.seg0 < blk) && bufHolds c cl k.armOrd (blk - 1) t
  (List.range 5).flatMap (fun i =>
    (g.lines t i).map (fun q =>
      (if old && sharesLines t i b.1 b.2.1 b.2.2 p.1 p.2.1 p.2.2 then
         tileBit t 2 (bufAt cl t (blk - 1)) (blockRegion k p) i q g.y
       else tierBit t b.1 i q g.y,
       tileBit t 2 (bufAt cl t blk) g i q g.y, lineLen t g.ny i)))

/-- Copies that fill the operand areas of a lease's slot (R112): from the other slot where it holds the lines, else
from the block buffer, and from the tier range for lines outside the block (R95). -/
def leaseCopies (c : Chip) (n : Nat) (l : Lease) : List (Nat × Nat × Nat) :=
  let t := l.top
  let k := c.ctr (n / 8) l.wc
  let g := leaseRegion l
  let (blk, b) := leaseBlock k l.value
  let gb := blockRegion k b
  let other := (c.core n).slotHas.getD (1 - l.slot) none
  let inBlock (i q : Nat) : Bool :=
    (if i < 2 then decide (gb.x ≤ q ∧ q < gb.x + gb.nx) else decide (gb.y ≤ q ∧ q < gb.y + gb.ny)) &&
    (!topVector t || decide (gb.y ≤ g.y ∧ g.y + g.ny ≤ gb.y + gb.ny))
  (List.range 5).flatMap (fun i =>
    (g.lines t i).map (fun q =>
      (match other with
       | some p =>
         if p.wc == l.wc && p.ord == l.ord && sharesLines t i l.h l.i l.j p.h p.i p.j then
           tileBit t 1 (padBase n + slotBase t p.slot) (leaseRegion p) i q g.y
         else if inBlock i q then tileBit t 2 (bufAt (n / 8) t blk) gb i q g.y
         else tierBit t l.h i q g.y
       | none =>
         if inBlock i q then tileBit t 2 (bufAt (n / 8) t blk) gb i q g.y else tierBit t l.h i q g.y,
       tileBit t 1 (padBase n + slotBase t l.slot) g i q g.y, lineLen t g.ny i)))

/-- The copies of one fill: the block into its buffer where it is not there, then the lease into its slot. A lease whose
counter has been disarmed is not filled. -/
def fillCopies (c : Chip) (n : Nat) (l : Lease) : List (Nat × Nat × Nat) :=
  let k := c.ctr (n / 8) l.wc
  if !k.armed || k.armOrd != l.ord then [] else
  let b := leaseBlock k l.value
  blockCopies c (n / 8) k b.1 b.2 ++ leaseCopies c n l

/-- Bytes that a copy touches at its destination. -/
def copySpan (x : Nat × Nat × Nat) : Nat × Nat := (x.2.1 / 8, ceilDiv (x.2.1 + x.2.2) 8)

/-- STAGING_FILL: the oldest fill, once the lease that last used the slot is done with it (R113). -/
def stagingFill (n : Nat) (c : Chip) : Chip :=
  let k := c.core n
  match k.fill with
  | [] => c
  | l :: rest =>
    let x := c.ctr (n / 8) l.wc
    let blk := (leaseBlock x l.value).1
    let q := fillCopies c n l
    if (k.retiring ++ k.writeback).any (fun y => y.staged && y.slot == l.slot && !y.same l) ||
       q.any (fun y => match c.tasRead (y.1 / 8) (ceilDiv (y.1 % 8 + y.2.2) 8) with | .wait _ => true | _ => false) then c
    else
      let c1 := c.setCore n { k with fill := rest, slotHas := setAt k.slotHas l.slot (some l) }
      let c2 := if x.armed && x.armOrd == l.ord then
          c1.setClus (n / 8) { c1.clus (n / 8) with
            bufs := setAt (c1.clus (n / 8)).bufs (blk % max 1 (topBufs l.top)) (some { ord := l.ord, blk := blk }) }
        else c1
      q.foldl (fun d y => dmaBits (fun a b e => e.store a b) y.1 y.2.1 y.2.2 d) c2

/-- Copies of a lease's write-back: the OUT areas to their places (R113). -/
def writebackCopies (n : Nat) (l : Lease) : List (Nat × Nat × Nat) :=
  let t := l.top
  let bo := codeBits (topFmtOut t)
  let base := padBase n + slotBase t l.slot
  let g := leaseRegion l
  let sc := ceilDiv (topN t) 32
  let rows := List.range l.rows
  rows.map (fun r =>
    (8 * (base + areaOfs t 1 5 + r * up16 (rowBytes bo (topTile t 1 1))),
     8 * (top64 t 26 + l.h * top64 t 40 + foldRow t (fld 15 0 (wd t 43)) (fld 31 16 (wd t 44)) (g.x + r)) + bo * g.y, bo * l.cols)) ++
  (if !codeMx (topFmtOut t) then [] else
    rows.map (fun r =>
      (8 * (base + areaOfs t 1 6 + r * ceilDiv (topTile t 1 1) 32),
       8 * (top64 t 34 + l.h * (topM t * topFold t * sc) + (g.x + r) * sc + g.y / 32), 8 * ceilDiv l.cols 32)))

/-- LEASE_WRITEBACK: the OUT areas go to their places, after the commit where a TOD was provisional
(R113). -/
def leaseWriteback (n : Nat) (c : Chip) : Chip :=
  let k := c.core n
  match k.writeback.find? (fun l => l.prov.all (fun id => !c.collOpen id)) with
  | none => c
  | some l =>
    (writebackCopies n l).foldl (fun d y => dmaBits (fun a b e => (tasWrite a b e).1) y.1 y.2.1 y.2.2 d)
      (c.setCore n { k with writeback := k.writeback.erase l })

/-- The held lease starts to be retired (R108, R110). -/
def startRetire (n : Nat) (c : Chip) : Chip :=
  let k := c.core n
  c.setCore n { k with lease := none, retiring := k.retiring ++ k.lease.toList }

/-- LEASE_RETIRE: the oldest lease of which every TOD has written its record (R110). STALE then says whether this lease,
the last, had expired (R101). -/
def leaseRetire (n : Nat) (c : Chip) : Chip :=
  let k := c.core n
  match k.retiring.find? (fun l => !k.runs.any (fun r => match r.lease with
      | some x => x.same l
      | none => false)) with
  | none => c
  | some l =>
    let c0 := if c.beat < l.expiry then c else expireLease n l c
    let k0 := c0.core n
    let k1 := { k0 with retiring := k0.retiring.filter (fun x => !x.same l) }
    if l.expired || decide (l.expiry ≤ c.beat) then c0.setCore n { k1 with flags := setFld 2 2 k1.flags 1 }
    else
      let x := c0.ctr (n / 8) l.wc
      let d := x.nDone + 1
      (c0.setCore n { k1 with
        flags := setFld 2 2 k1.flags 0, writeback := if l.staged then k1.writeback ++ [l] else k1.writeback }).setCtr (n / 8) l.wc
        { x with nDone := d, leased := x.leased - 1, done := decide (d = x.total) }

/-- LEASE_EXPIRE: leases of core n whose expiry beat has come (R109). -/
def leaseExpire (n : Nat) (c : Chip) : Chip :=
  ((c.core n).leases.filter (fun l => !l.expired && c.come l.expiry)).foldl
    (fun k l => latePassed (pgClus (n / 8)) l.expiry (ce (pgClus (n / 8)) 12 l.wc l.value (expireLease n l k))) c

/-! ### Launch, stop and end (R97, R98) -/

/-- The fault code of a launch, if its checks fail. -/
def launchBad (c : Chip) (n : Nat) : Option Nat :=
  let b := c.rg (coreReg n 0x100)
  let l := c.rg (coreReg n 0x108)
  let q := c.rg (coreReg n 0x118)
  let slots := c.rg (coreReg n 0x11C)
  if c.listLen n = 0 ∨ 65535 < c.listLen n ∨ isPow2 slots = false ∨ 1024 < slots ∨
     !(awOk01 b && awOk01 l && awOk01 q) ∨ awOfs b % 64 ≠ 0 ∨ awOfs l % 128 ≠ 0 ∨ awOfs q % 128 ≠ 0 then some 0x29
  else if !awFits l 128 then some 0x28
  else if (poisonAw c n (windows c n) l 0 128).isSome then some 0x2A
  else none

/-- Launch the list of core n; `car` says that the core takes its place in the carousel. -/
def launchList (n : Nat) (grp : Option Nat) (car : Bool) (c : Chip) : Chip :=
  match launchBad c n with
  | some e => listFault n e c
  | none =>
    let rd := rdAw c n (windows c n) (c.rg (coreReg n 0x108))
    let c1 := forEach (List.range 32) (fun i k => k.setSq n i (rd4 rd (4 * i))) c
    let k := c1.core n
    let c2 := c1.setCore n { k with
      st := 1, fault := 0, pc := 0, loops := [], flags := 0, cplHead := 0, cplLost := 0, launched := c.beat
      byGroup := grp, blocked := .none, lastEmpty := false, pred := none, provSet := [], seen := []
      ckptOrd := (c.clus (n / 8)).ord, ckpt := true, stopping := false, pending := none }
    if car then carStart n grp c2 else c2

/-- A launch that an RCU step start left waiting for the list's end (R260). -/
def launchPending (n : Nat) (c : Chip) : Chip :=
  let k := c.core n
  if k.pending.isSome ∧ (k.st = 0 ∨ k.st = 4) ∧ c.enabled (pgCore n) = true then launchList n k.pending true c else c

/-- LIST_CTL.START (R98). -/
def listStart (n v : Nat) (c : Chip) : Chip :=
  let k := c.core n
  let ctl := c.rg (coreReg n 0x10C)
  if (k.st ≠ 0 ∧ k.st ≠ 4) ∨ c.enabled (pgCore n) = false then ignored (coreReg n 0x10C) v c
  else if bit 2 ctl then
    let b := c.rg64 (coreReg n 0x110)
    if b ≤ c.beat then
      itemLate (pgCore n) b (c.setCore n { k with st := 5, fault := 0, startAt := c.beat + 1, startLate := true })
    else c.setCore n { k with st := 5, fault := 0, startAt := b, startLate := false }
  else launchList n none true c

/-- AT_BEAT_LAUNCH: a cascade item at START_BEAT (R98, R245). -/
def atBeatLaunch (n : Nat) (c : Chip) : Chip :=
  let k := c.core n
  if k.st = 5 ∧ c.cascadeDue k.startAt = true then
    let c1 := lateFire (pgCore n) k.startAt (c.setCore n { k with st := 0 })
    if c.enabled (pgCore n) then launchList n none true c1 else ignored (coreReg n 0x10C) (c.rg (coreReg n 0x10C)) c1
  else c

/-- LIST_CTL.STOP (R98). -/
def listStop (n : Nat) (c : Chip) : Chip :=
  let k := c.core n
  if k.st = 0 ∨ k.st = 4 then c
  else
    let c1 := expireHeld n c
    let k1 := c1.core n
    let runs := k1.runs.filter (fun r => r.begun || r.ended)
    c1.setCore n { k1 with
      runs := runs, lease := none, blocked := .none, pending := none, carNext := none, fill := []
      flags := if k.lease.isSome then setFld 2 2 k1.flags 1 else k1.flags
      st := if runs = [] then 0 else 1, stopping := decide (runs ≠ []) }

/-- LIST_DONE: the list is at its end and every TOD has written its record (R98). -/
def listDone (n : Nat) (c : Chip) : Chip :=
  let k := c.core n
  if k.st = 1 ∧ k.stopping = false ∧ c.listLen n ≤ k.pc ∧ k.runs = [] then
    let c1 := leaseRetire n (startRetire n c)
    irqQuiet (pgCore n) 0 (c1.setCore n { c1.core n with st := 0, loops := [] })
  else c

/-! ### Control operations (R100 to R102) -/

/-- Words beyond those an entry uses are 0. -/
def restZero (t : List Nat) (k : Nat) : Bool := fld 31 8 (wd t 0) == 0 && (t.drop k).all (· == 0)

/-- LOOP. -/
def loopEntry (n : Nat) (c : Chip) : Chip :=
  withEntry n (· == 0x80) (fun t c =>
    let k := c.core n
    let cnt := fld 23 0 (wd t 1)
    let src := fld 25 24 (wd t 1)
    let body := fld 15 0 (wd t 2)
    let last := k.pc + body
    let outer := match k.loops with | f :: _ => f.last | [] => c.listLen n - 1
    if !restZero t 3 || fld 31 26 (wd t 1) != 0 || fld 31 22 (wd t 2) != 0 || src == 3 || body == 0 ||
       (src == 1 && decide (31 < cnt)) then listFault n 0x20 c
    else if 4 ≤ k.loops.length ∨ outer < last then listFault n 0x21 c
    else if src = 2 ∧ 0x200000 < 4 * cnt + 4 then listFault n 0x28 c
    else if src = 2 ∧ (poisonAw c n (windows c n) (4 * cnt) 0 4).isSome then listFault n 0x2A c
    else
      let v := if src = 0 then cnt else if src = 1 then c.sq n cnt else rd4 (rdAw c n (windows c n) (4 * cnt)) 0
      if v = 0 then goTo n (last + 1) c
      else
        let reg := if bit 21 (wd t 2) then some (fld 20 16 (wd t 2)) else none
        let c1 := c.setCore n { k with
          loops := { first := k.pc + 1, last := last, left := v - 1, reg := reg } :: k.loops, pc := k.pc + 1 }
        match reg with | some q => c1.setSq n q 0 | none => c1) c

/-- A WAIT's condition. -/
def waitOk (c : Chip) (n kind idx amt : Nat) : Bool :=
  match kind with
  | 0 => decide (amt ≤ c.rg (flagReg (n / 8) idx))
  | 1 => (c.ctr (n / 8) idx).done
  | 2 =>
    match (c.core n).car with
    | some q => !q.drain && (List.range amt).all (fun i => unitIn q (q.t + i) ||
        decide (carPass q ≤ q.t % max 1 (carPass q) + i))
    | none => false
  | _ => (c.core n).seen.contains idx && !c.collOpen idx

/-- A WAIT completes: a flag wait subtracts its amount. -/
def waitEnd (n kind idx amt : Nat) (c : Chip) : Chip :=
  let c1 := if kind = 0 then c.setRg (flagReg (n / 8) idx) (c.rg (flagReg (n / 8) idx) - amt) else c
  let k := c1.core n
  goTo n (k.pc + 1) (c1.setCore n { k with st := 1, blocked := .none })

/-- WAIT. -/
def waitEntry (n : Nat) (c : Chip) : Chip :=
  withEntry n (· == 0x81) (fun t c =>
    let k := c.core n
    let kind := fld 3 0 (wd t 1)
    let idx := fld 11 4 (wd t 1)
    let amt := fld 31 16 (wd t 1)
    let u := match k.car with | some _ => carU (carOf c n) | none => 0
    if !restZero t 3 || fld 15 12 (wd t 1) != 0 || fld 31 16 (wd t 2) != 0 || decide (3 < kind) || amt == 0 ||
       (decide (kind < 2) && decide (63 < idx)) || (kind == 2 && (idx != 0 || decide (u + 1 < amt) || k.car.isNone)) ||
       (kind == 3 && idx == 0) then listFault n 0x20 c
    else if waitOk c n kind idx amt then waitEnd n kind idx amt c
    else
      let tm := fld 15 0 (wd t 2)
      c.setCore n { k with st := 2, blocked := .wait kind idx amt (if tm = 0 then 0 else c.beat + tm) }) c

/-- WAIT_COMPLETE. -/
def waitComplete (n : Nat) (c : Chip) : Chip :=
  match (c.core n).blocked with
  | .wait kind idx amt _ => if (c.core n).st = 2 ∧ waitOk c n kind idx amt = true then waitEnd n kind idx amt c else c
  | _ => c

/-- WAIT_TIMEOUT (R102). -/
def waitTimeout (n : Nat) (c : Chip) : Chip :=
  let late (d : Nat) : Bool := d != 0 && c.come d && (c.core n).st == 2
  match (c.core n).blocked with
  | .wait kind idx amt d => if late d && !waitOk c n kind idx amt then listFault n 0x23 (latePassed (pgCore n) d c) else c
  | .fetch _ _ _ _ d => if late d then listFault n 0x23 (latePassed (pgCore n) d c) else c
  | _ => c

/-- SIGNAL (R101), once every earlier TOD has written its record. -/
def signalEntry (n : Nat) (c : Chip) : Chip :=
  withEntry n (· == 0x82) (fun t c =>
    let k := c.core n
    let kind := fld 3 0 (wd t 1)
    let idx := fld 11 4 (wd t 1)
    let cl := fld 16 12 (wd t 1)
    let amt := fld 31 17 (wd t 1)
    if k.runs ≠ [] then c
    else if !restZero t 3 || decide (2 < kind) || amt == 0 || (decide (kind < 2) && decide (63 < idx)) ||
       (kind == 2 && (idx != 0 || k.car.isNone)) || decide (23 < cl) || (kind != 0 && cl != 0) then listFault n 0x20 c
    else if kind = 0 then
      match addFlag cl idx amt c with
      | some c1 => goTo n (k.pc + 1) c1
      | none => listFault n 0x27 c
    else if kind = 1 ∧ (fld 27 24 (wd t 2) ≠ 0 ∨ 4 < awSpace (wd t 2)) then listFault n 0x20 c
    else if kind = 1 then
      match armCounter n idx (wd t 2) (windows c n) c with
      | .ok c1 => goTo n (k.pc + 1) c1
      | .error e => listFault n e c
    else
      match k.car with
      | some q => if q.drain || !unitIn q q.t then c else goTo n (k.pc + 1) (carDone n c)
      | none => c) c

/-- BRANCH_FLAG's flags (R101, R97 SEQ_FLAGS): STALE stands while the held lease, or the last, has expired. -/
def seqFlags (k : Core) : Nat :=
  (if k.leases.any (·.expired) then setFld 2 2 k.flags 1 else k.flags) + 8 * b2n (k.provSet != []) + 16 * b2n k.lastEmpty +
  32 * b2n (match k.loops with | f :: _ => f.left == 0 | [] => false)

/-- BRANCH_FLAG. -/
def branchEntry (n : Nat) (c : Chip) : Chip :=
  withEntry n (· == 0x84) (fun t c =>
    let k := c.core n
    let f := fld 2 0 (wd t 1)
    let tgt := fld 31 16 (wd t 1)
    let inside := match k.loops with | l :: _ => decide (l.first ≤ tgt ∧ tgt ≤ l.last) | [] => true
    if !restZero t 2 || fld 15 4 (wd t 1) != 0 || decide (5 < f) then listFault n 0x20 c
    else if !inside || decide (c.listLen n ≤ tgt) then listFault n 0x22 c
    else if bit f (seqFlags k) == bit 3 (wd t 1) then c.setCore n { k with pc := tgt }
    else goTo n (k.pc + 1) c) c

/-- BEAT_WAIT. A base in a sequencer register is a 32-bit beat (R246); a target that is the current beat has passed
(DEDUCED from R10, log 22). -/
def beatWait (n : Nat) (c : Chip) : Chip :=
  withEntry n (· == 0x85) (fun t c =>
    let k := c.core n
    let b := fld 1 0 (wd t 1)
    if !restZero t 3 || fld 31 7 (wd t 1) != 0 || decide (1 < b) then listFault n 0x20 c
    else
      let tgt := (if b = 0 then k.launched else fullBeat c.beat (c.sq n (fld 6 2 (wd t 1)))) + wd t 2
      if tgt ≤ c.beat then itemLate (pgCore n) tgt (c.setCore n { k with st := 2, blocked := .beat (c.beat + 1) true })
      else c.setCore n { k with st := 2, blocked := .beat tgt false }) c

/-- BEAT_WAIT_RELEASE. -/
def beatRelease (n : Nat) (c : Chip) : Chip :=
  let k := c.core n
  match k.blocked with
  | .beat t _ =>
    if k.st = 2 ∧ c.come t = true then goTo n (k.pc + 1) (latePassed (pgCore n) t (c.setCore n { k with st := 1, blocked := .none }))
    else c
  | _ => c

/-- The value a FETCH_INC of core n would get: a hub assigns work to the cores of its latched map only (R16). -/
def valueFor (n : Nat) (x : Counter) : Option Nat := if x.map.contains (n % 8) then nextValue x else none

/-- A FETCH_INC with STAGE needs more scratchpad or cluster cache than there is (R17; code 0x25, log 22). -/
def stageBad (n wc : Nat) (stage : Bool) (c : Chip) : Bool :=
  let x := c.ctr (n / 8) wc
  stage && x.armed && x.top != [] && !stageFits x.top

/-- What a FETCH_INC does once its lease is being retired: none while it blocks (R108, R109). -/
def fetchTry (n wc dest : Nat) (stage nowait : Bool) (c : Chip) : Option Chip :=
  let x := c.ctr (n / 8) wc
  let k := c.core n
  let flag (v : Nat) (q : Chip) : Chip := q.setCore n { q.core n with flags := (k.flags / 4 * 4) + v }
  if !x.armed then none
  else if x.done then some (flag 1 (c.setSq n dest 0xFFFFFFFF))
  else
    match valueFor n x with
    | some v => some (grant n wc dest v stage c)
    | none => if nowait then some (flag 2 (c.setSq n dest 0xFFFFFFFE)) else none

/-- FETCH_INC. With RETIRE_ONLY it finds nothing: EXH and PEND fall (R101). -/
def fetchInc (n : Nat) (c : Chip) : Chip :=
  withEntry n (· == 0x83) (fun t c =>
    let k := c.core n
    let wc := fld 5 0 (wd t 1)
    let dest := fld 12 8 (wd t 1)
    if !restZero t 2 || fld 7 6 (wd t 1) != 0 || fld 15 13 (wd t 1) != 0 || fld 31 19 (wd t 1) != 0 || decide (26 < dest) then
      listFault n 0x20 c
    else
      let c1 := leaseRetire n (startRetire n c)
      if bit 18 (wd t 1) then
        goTo n (k.pc + 1) (c1.setCore n { c1.core n with flags := (c1.core n).flags / 4 * 4 })
      else if stageBad n wc (bit 16 (wd t 1)) c1 then listFault n 0x25 c1
      else
        match fetchTry n wc dest (bit 16 (wd t 1)) (bit 17 (wd t 1)) c1 with
        | some c2 => goTo n (k.pc + 1) c2
        | none => c1.setCore n { c1.core n with st := 2, blocked := .fetch wc dest (bit 16 (wd t 1)) (bit 17 (wd t 1)) 0 }) c

/-- FETCH_INC_GRANT: a blocked FETCH_INC goes on. Of the cores of a cluster that wait for one counter, the lowest
is served first (R108). -/
def fetchGrant (n : Nat) (c : Chip) : Chip :=
  let k := c.core n
  match k.blocked with
  | .fetch wc dest stage nowait _ =>
    let earlier := (List.range (n % 8)).any (fun i => match (c.core (n / 8 * 8 + i)).blocked with
      | .fetch w _ _ _ _ => w == wc && (c.core (n / 8 * 8 + i)).st == 2 && (c.ctr (n / 8) wc).map.contains i
      | _ => false)
    if k.st ≠ 2 ∨ earlier = true then c
    else if stageBad n wc stage c then listFault n 0x25 c
    else
      match fetchTry n wc dest stage nowait c with
      | some c1 => goTo n (k.pc + 1) (c1.setCore n { c1.core n with st := 1, blocked := .none })
      | none => c
  | _ => c

/-! ### Aborts (R75, R114, R305) -/

/-- The hub of a cluster disarms the counters armed after the step-start checkpoint of any of its cores
(R114). -/
def abortHub (cl : Nat) (c : Chip) : Chip :=
  let marks := (List.range 8).filterMap (fun i =>
    let k := c.core (8 * cl + i)
    if k.ckpt then some k.ckptOrd else none)
  match marks with
  | [] => c
  | m :: r =>
    let lo := r.foldl min m
    forEach (List.range 64) (fun i k => if (k.ctr cl i).armed && decide (lo < (k.ctr cl i).armOrd) then disarm cl i k else k) c

/-- What TODs dropped without a record hold: walk latches and token reservations. -/
def freeRuns (n : Nat) (l : List TodRun) (c : Chip) : Chip :=
  let c1 := (l.filter (fun r => r.walk.isSome && !r.ended)).foldl (fun q r => unlatch (aSlot r.tod) (walkWho n) q) c
  l.foldl (fun q r =>
    if tokenRows r.tod = 0 ∨ r.begun = false then q else
    let i := fld 4 0 (tOut r.tod)
    q.setQueue i { q.queue i with tokens := (q.queue i).tokens - tokenRows r.tod }) c1

/-- A core returns to the step-start checkpoint and launches again (R75, R305). TODs that have not begun
their records write none. A step launch that waits for the list's end waits on (R260). A lease of a counter that stays armed expires with it (DEDUCED, log 22). -/
def abortCore (n id : Nat) (c : Chip) : Chip :=
  let c1 := expireAll n (abortHub (n / 8) c)
  let k := c1.core n
  let c3 := (freeRuns n k.runs c1).setCore n { k with
    runs := [], blocked := .none, st := 0, loops := [], lease := none, retiring := [], fill := [], stopping := false
    writeback := k.writeback.filter (fun l => !l.prov.contains id), provSet := [] }
  if k.ckpt && c.enabled (pgCore n) then
    let c4 := launchList n k.byGroup false (carAbort n c3)
    c4.setCore n { c4.core n with pending := k.pending }
  else c3

/-- A command of core n: whatever ends its list lets a waiting launch follow (R260). -/
def coreCmd (n : Nat) (f : Chip → Chip) : Chip → Chip := work (fun c => launchPending n (f c))

end Sys2Proof.Machine
end

