-- ==== Sys2Proof/Machine/SfuCtl.lean ====
section
/-! DEFINITION. Loading and flipping the special-function tables (R129 to R133). -/

namespace Sys2Proof.Machine

def sfuReg (cl off : Nat) : Nat := ra (pgClus cl) off

/-- OLD_REFS: TODs of the cluster that still run on the shadow bank (R132, R133). -/
def oldRefs (c : Chip) (cl : Nat) : Nat :=
  ((List.range 8).map (fun i => (c.core (8 * cl + i)).runs.countP (fun r =>
    r.begun && (r.sfuGen + (c.clus cl).sfu.gen.toNat) % 2 == 1))).sum

def setSfu (cl : Nat) (x : Sfu) (c : Chip) : Chip := c.setClus cl { c.clus cl with sfu := x }

/-- SFU_LOAD. -/
def sfuLoad (cl v : Nat) (c : Chip) : Chip :=
  let s := (c.clus cl).sfu
  if s.armed then ignored (sfuReg cl 0x608) v (setSfu cl { s with loadErr := 7 } c)
  else setSfu cl { s with state := 1, loadErr := 0, fault := 0 } c

/-- A load that failed. -/
def sfuLoadFail (cl code seg : Nat) (c : Chip) : Chip :=
  ce (pgClus cl) 10 code seg (setSfu cl { (c.clus cl).sfu with state := 3, loadErr := code, fault := seg } c)

/-- The image goes into the shadow bank, checked (R131); with cluster 0 the LRT's copy follows. -/
def sfuLoadDone (cl : Nat) (c : Chip) : Chip :=
  let s := (c.clus cl).sfu
  let a := c.rg64 (sfuReg cl 0x600)
  if s.state ≠ 1 ∨ oldRefs c cl ≠ 0 then c
  else
    match c.tasRead a imageSize with
    | .wait _ => c
    | .poison _ => sfuLoadFail cl 6 0 c
    | .access => sfuLoadFail cl 6 0 (badAddr a c)
    | .ok l =>
      let c1 := setSfu cl { s with shadow := imageBank l, state := 2 } (noteRead a imageSize c)
      let r := imageCheck l
      if r.1 ≠ 0 then sfuLoadFail cl r.1 r.2 c1
      else if cl = 0 then { c1 with lrtShadow := imageBank l } else c1

/-- A write of SFU_FLIP_HI arms the flip; one while ARMED is ignored (R351). -/
def sfuFlipArm (cl hi : Nat) (c : Chip) : Chip :=
  if (c.clus cl).sfu.armed then ignored (sfuReg cl 0x614) hi c else
  let c1 := pairApply (sfuReg cl 0x610) hi c
  let b := c1.rg64 (sfuReg cl 0x610)
  armCe (pgClus cl) b (setSfu cl { (c1.clus cl).sfu with armed := true, flipAt := c1.armedAt b, late := decide (b ≤ c1.beat) } c1)

/-- Swap the banks of one cluster; the LRT's with cluster 0's. -/
def sfuSwap (cl : Nat) (c : Chip) : Chip :=
  let s := (c.clus cl).sfu
  let c1 := setSfu cl { s with active := s.shadow, shadow := s.active, gen := s.gen + 1, armed := false, state := 2 } c
  if cl = 0 then { c1 with lrtExp := c1.lrtShadow, lrtShadow := c1.lrtExp, lrtGen := c1.lrtGen + 1 } else c1

/-- The flip of every cluster armed for a beat that has come: all or none (R133). -/
def sfuFlipAll (c : Chip) : Chip :=
  let come := (List.range 24).filter (fun n => (c.clus n).sfu.armed && c.cascadeDue (c.clus n).sfu.flipAt)
  let first := (come.map (fun n => (c.clus n).sfu.flipAt)).foldl min c.beat
  let due := come.filter (fun n => (c.clus n).sfu.flipAt == first)
  if due = [] then c
  else if due.all (fun n => (c.clus n).sfu.state == 2) then
    forEach due (fun n k => lateFire (pgClus n) (c.clus n).sfu.flipAt (sfuSwap n k)) c
  else
    ucSlice (pgClus (due.headD 0)) 11 0 0 0
      (forEach due (fun n k => setSfu n { (k.clus n).sfu with armed := false, missed := true } k) c)

/-- SFU_DISARM. -/
def sfuDisarm (cl : Nat) (c : Chip) : Chip := setSfu cl { (c.clus cl).sfu with armed := false } c

end Sys2Proof.Machine
end

