-- ==== Sys2Proof/Machine/Cadence.lean ====
section
/-! DEFINITION. The cadence unit (R228 to R251): beats, markers and frames, measuring and choosing a parent,
holdover, loss and relock, masters, and arming of the event table. -/

namespace Sys2Proof.Machine

def cadReg (off : Nat) : Nat := ra pgCad off
def updCad (f : Cad → Cad) (c : Chip) : Chip := { c with cad := f c.cad }
/-- Change the cadence state: a change sets IRQ_STS bit 0 (R230). Leaving UNSYNC or LOST ends the time in which
cascade items are deferred; they fire at the first beat boundary after LOCKED or MASTER (R242). -/
def cadState (st : Nat) (c : Chip) : Chip :=
  let k := c.cad
  if k.st = st then c
  else
    let leave := k.st == 0 || k.st == 5
    let k1 : Cad := { k with
      st := st
      offTo := if leave && st != 0 && st != 5 then c.beat + 1 else k.offTo
      onAt := if st = 5 then none else if (st = 1 ∨ st = 3) ∧ k.onAt = none then some (c.beat + 1) else k.onAt
      offFrom := if st = 5 ∧ k.onAt ≠ none then c.beat else k.offFrom
      holdB := if st = 4 ∨ st = 5 then (if k.st = 4 ∨ k.st = 5 then k.holdB else 0) else 0 }
    irq pgCad 0 { c with cad := k1 }

/-! ### Frames (R234, R235) -/

/-- CRC-8 of bits 0 to n-1 of a number, in ascending order. -/
def crc8 : Nat → Nat → Nat → Nat
  | 0, _, a => a
  | n + 1, v, a =>
    let t := (a / 128 + v) % 2
    crc8 n (v / 2) (2 * a % 256 ^^^ (if t = 1 then 7 else 0))
/-- Number spelled by nibbles, the first lowest. -/
def nibNat : List Nat → Nat
  | [] => 0
  | x :: t => x % 16 + 16 * nibNat t
def nibs : Nat → Nat → List Nat
  | 0, _ => []
  | n + 1, v => v % 16 :: nibs n (v / 16)
/-- Two's complement of 32 bits. -/
def i32 (v : Nat) : Int := if v % 2 ^ 32 < 2 ^ 31 then (v % 2 ^ 32 : Nat) else (v % 2 ^ 32 : Nat) - 2 ^ 32
def u32 (x : Int) : Nat := (x % 2 ^ 32).toNat

/-- The frame that port p sends over the 32 beats from `beat`. -/
def frameOf (c : Chip) (p beat : Nat) : List Nat :=
  let k := c.cad
  let t := match (k.port p).ta with | some x => u32 x | none => 0x80000000
  let v := beat % 2 ^ 54 + 2 ^ 56 * t + 2 ^ 88 * k.master + 2 ^ 100 * k.mepoch + 2 ^ 108 * k.hops + 2 ^ 116 * k.st
  nibs 32 (v + 2 ^ 120 * crc8 120 v 0)

/-- e is a newer epoch than f (R232). -/
def epochNewer (e f : Nat) : Bool :=
  let d := (e + 256 - f % 256) % 256
  decide (1 ≤ d ∧ d ≤ 127)
/-- An announcement takes precedence over another (R232). -/
def higher (mepoch master mepoch' master' : Nat) : Bool :=
  epochNewer mepoch mepoch' || (mepoch == mepoch' && decide (master < master'))

/-- Admissible as a parent (R237); in UNSYNC any announcement is, unless an override has named one (R244). -/
def Chip.admissible (c : Chip) (p : Nat) : Bool :=
  let l := (c.link p).st
  let q := c.cad.port p
  (l == 4 || l == 5 || l == 9) &&
  (match q.frameAt with | some b => decide (c.beat < b + 64) | none => false) &&
  ((q.master == c.cad.master && q.mepoch == c.cad.mepoch) || (c.cad.st == 0 && !c.cad.bound) ||
    higher q.mepoch q.master c.cad.mepoch c.cad.master) &&
  q.sync && q.ta.isSome && !q.tbad

/-- Of the admissible ports that `ok` admits, the one of lowest HOPS, then lowest index (R237). -/
def Chip.bestParent (c : Chip) (ok : Nat → Bool) : Option Nat :=
  ((List.range 6).filter (fun p => c.admissible p && ok p)).foldl (fun a p => match a with
    | some b => if (c.cad.port p).hops < (c.cad.port b).hops then some p else some b
    | none => some p) none

/-! ### Following (R237, R242) -/

/-- What an acquisition from UNSYNC disarms: flips, launches and event-table entries (R242). -/
def disarmAll (c : Chip) : Chip :=
  let c1 := forEach (List.range 24) (fun n k => thrCancel n (sfuDisarm n k)) { c with rtArmed := false }
  let c2 := forEach (List.range 192) (fun n k =>
    let q := k.core n
    let q1 := if q.st = 5 then { q with st := 0 } else q
    k.setCore n { q1 with blocked := match q1.blocked with | .beat _ l => .beat (c.beat + 1) l | b => b }) c1
  updCad (fun k => { k with evt := [], skipFrom := 0, skipTo := 0 }) c2

/-- What a port last heard, when the counter steps by d beats. -/
def MarkRx.shift (d : Int) (q : MarkRx) : MarkRx :=
  let f : Nat → Nat := fun b => ((b : Int) + d).toNat
  { q with frameAt := q.frameAt.map f, seenAt := q.seenAt.map f, badAt := q.badAt.map f, tryAt := q.tryAt.map f }

/-- Beats of a port's link delay (R236): what a frame that has just arrived is older by. -/
def delayBeats (q : MarkRx) : Nat := match q.delay with | some d => d.toNat / 65536 | none => 0
/-- The own beat of nibble 0 of a frame whose last nibble came at `b` (R235; DEDUCED, log 25: in whole beats). -/
def nibble0 (q : MarkRx) (b : Nat) : Int := (b : Int) - 31 - delayBeats q

/-- Acquire the parent at port p: the counter steps, its ticks stop, or it slews. -/
def acquire (p : Nat) (c : Chip) : Chip :=
  let k := c.cad
  let q := k.port p
  let own : Int := nibble0 q (q.frameAt.getD c.beat)
  let diff : Int := ((q.beat : Int) - own) * 65536 - (q.ofs.getD 0)
  let old := k.st
  let follow (x : Chip) : Chip :=
    cadState 2 (updCad (fun y => { y with
      parent := p, hops := min 255 (q.hops + 1), master := q.master, mepoch := q.mepoch, missing := 0, within := 0
      offset := q.ofs }) x)
  let step (x : Chip) : Chip := updCad (fun y =>
    let now := ((y.now : Int) + diff / 64).toNat
    let d : Int := ((now / 1024 : Nat) : Int) - ((y.now / 1024 : Nat) : Int)
    (List.range 6).foldl (fun z p => z.setPort p ((z.port p).shift d)) { y with now := now }) x
  if old = 0 then
    let c1 := follow (step c)
    ce pgCad 11 p 0 (disarmAll c1)
  else if 256 * 64 < diff then
    let b := c.beat
    let c1 := follow (step c)
    updCad (fun y => { y with skipFrom := b, skipTo := y.now / 1024 }) c1
  else if diff < -(256 * 64) then updCad (fun y => { y with stop := diff.natAbs / 64 }) (follow c)
  else follow c

/-- A change of parent without a step. -/
def newParent (p : Nat) (c : Chip) : Chip :=
  updCad (fun k => { k with parent := p, hops := min 255 ((k.port p).hops + 1), missing := 0, offset := (k.port p).ofs }) c

/-- A parent that is no longer admissible is left at once for an admissible port of lower HOPS (R237). -/
def parentCheck (c : Chip) : Chip :=
  let k := c.cad
  if (k.st = 2 ∨ k.st = 3) ∧ c.admissible k.parent = false then
    match c.bestParent (fun p => decide ((k.port p).hops < k.hops)) with
    | some p => newParent p c
    | none => c
  else c

/-- A frame accepted on port p: a new master, a parent found, or a better one (R232, R237, R242). -/
def afterFrame (p : Nat) (c : Chip) : Chip :=
  let k := c.cad
  let q := k.port p
  if !c.admissible p then c
  else if k.st ≠ 0 ∧ higher q.mepoch q.master k.mepoch k.master = true then ce pgCad 11 q.master q.mepoch (acquire p c)
  else if k.st = 0 then (match c.bestParent (fun x => decide (2 ≤ (k.port x).frames)) with | some b => acquire b c | none => c)
  else if k.st = 4 ∨ k.st = 5 then (match c.bestParent (fun _ => true) with | some b => acquire b c | none => c)
  else if k.st = 2 ∨ k.st = 3 then
    if q.hops + 2 ≤ k.hops then newParent p c else c
  else c

/-- A frame's 32 nibbles are here: accept it or count it (R235). Until a frame has told where frames begin, each 32 beats
without one that checks count as one (DESIGN CHOICE, log 25). -/
def checkFrame (p : Nat) (c : Chip) : Chip :=
  let k := c.cad
  let q := k.port p
  let v := nibNat q.nibbles
  let good := q.nibbles.length == 32 && crc8 120 (v % 2 ^ 120) 0 == fld 127 120 v && fld 4 0 v == 0 && decide (fld 119 116 v ≤ 5)
  if good then
    let consecutive := match q.frameAt with | some b => b + 32 == c.beat | none => false
    let q1 : MarkRx := { q with
      frameAt := some c.beat, tryAt := some c.beat, frames := if consecutive then q.frames + 1 else 1
      beat := fld 55 0 v, tmeas := i32 (fld 87 56 v), tbad := fld 87 56 v == 0x80000000, master := fld 98 88 v
      mepoch := fld 107 100 v, hops := fld 115 108 v, st := fld 119 116 v, nibbles := [] }
    let k := { k with heard := k.heard || k.readyAt.isSome }
    if k.st = 3 ∧ (q1.beat : Int) ≠ nibble0 q c.beat then
      ce pgCad 8 p (q1.beat % 2 ^ 32) { c with cad := k.setPort p { q1 with frameAt := none } }
    else afterFrame p { c with cad := k.setPort p q1 }
  else
    match q.tryAt with
    | none => updCad (fun y => y.setPort p { q with tryAt := some (c.beat - 1) }) c
    | some b =>
      if b + 32 ≤ c.beat then
        (c.bumpRg (cadReg 0x120) 1) |> updCad (fun y => y.setPort p { q with tryAt := some c.beat, frames := 0 })
      else c

/-- A marker is discarded: counted at once, and not again as missing (R233). -/
def markLost (p : Nat) (c : Chip) : Chip :=
  updCad (fun k => k.setPort p { k.port p with badAt := some c.beat }) (c.bumpRg (cadReg 0x11C) 1)
/-- A marker has come on port p (R233). -/
def markArrive (p data : Nat) (c : Chip) : Chip :=
  if 6 ≤ data % 8 then markLost p c
  else
    let q := c.cad.port p
    let l := (q.nibbles ++ [fld 7 4 data])
    let q1 := { q with sync := bit 3 data, seenAt := some c.beat, nibbles := l.drop (l.length - 32) }
    parentCheck (checkFrame p (updCad (fun k => k.setPort p q1) c))

/-! ### The beat point (R229, R233) -/

/-- A port on which markers run. -/
def marks (c : Chip) (p : Nat) : Bool := let s := (c.link p).st; s == 4 || s == 5 || s == 9

/-- BEAT_POINT: the counter passes to the next beat; markers are counted and placed for sending. While the ticks stop
(R242) a beat's time passes and the counter does not move (DESIGN CHOICE, log 25: the command is a beat's time). -/
def beatPoint (c : Chip) : Chip :=
  if 1024 ≤ c.cad.stop then updCad (fun k => { k with stop := k.stop - 1024 }) c
  else
  let old := c.beat
  let b := old + 1
  let k := c.cad
  let lost := (List.range 6).countP (fun p => marks c p && (k.port p).badAt != some old &&
    (match (k.port p).seenAt with | some x => decide (x < old) | none => false))
  let pm := match (k.port k.parent).seenAt with | some x => decide (x < old) | none => true
  let near := match k.offset with | some o => decide (o.natAbs ≤ 64) | none => false
  let k1 : Cad := { k with
    now := b * 1024, stop := 0
    missing := if k.parent < 6 then (if pm then k.missing + 1 else 0) else 0
    within := if k.st = 2 ∧ near = true then k.within + 1 else 0
    holdB := if k.st = 4 ∨ k.st = 5 then sat32 k.holdB 1 else k.holdB
    discAge := sat32 k.discAge 1 }
  let c1 := { c with cad := k1 }
  let c2 := if lost = 0 then c1 else c1.bumpRg (cadReg 0x11C) lost
  let sync := if k.st = 1 ∨ k.st = 2 ∨ k.st = 3 then 8 else 0
  parentCheck <| forEach (List.range 6) (fun p q =>
    if marks q p then
      let fr := if b % 32 = 0 then frameOf q p b else Tab.get (fun _ => []) q.cad.txFrames p
      let q1 := updCad (fun y => { y with txFrames := Tab.set (fun _ => []) y.txFrames p fr }) q
      q1.setLink p { q1.link p with mark := some (sync + 16 * fr.getD (b % 32) 0) }
    else q) c2

/-- A steering figure that no rule states, within R238's 50 ppm (log 5). -/
def freeAdj (draw : Nat) : Int := ((Config.freeWord draw).toNat % 100001 : Int) - 50000

/-- LINK_MEASURE: the mean over a frame period, in 2^-6 ns; fewer than 16 markers give none (R236). -/
def linkMeasure (p n : Nat) (mean : Int) (c : Chip) : Chip :=
  let q := c.cad.port p
  let ta := if 16 ≤ n then some mean else none
  let (d, o) : Option Int × Option Int := match ta with
    | some t => if q.tbad then (none, none) else (some ((t + q.tmeas) / 2), some ((t - q.tmeas) / 2))
    | none => (none, none)
  let c1 := updCad (fun k => k.setPort p { q with ta := ta, delay := d, ofs := o }) c
  parentCheck (if c1.cad.parent = p then
    updCad (fun k => { k with offset := o, freqAdj := freeAdj c.draw }) { c1 with draw := c1.draw + 1 }
  else c1)

/-! ### States (R231, R238, R240, R241, R244) -/

/-- MASTER_ELECTION: any frame accepted under R235 since READY counts, whatever its STATE. -/
def masterElection (c : Chip) : Chip :=
  let k := c.cad
  match k.readyAt with
  | some b =>
    if c.mst = true ∧ k.st = 0 ∧ k.heard = false ∧ b + 2048 ≤ c.beat then
      cadState 1 (updCad (fun y => { y with mepoch := 0, master := c.posId, hops := 0, parent := 7, offset := none }) c)
    else c
  | none => c

/-- CADENCE_LOCK. -/
def cadenceLock (c : Chip) : Chip :=
  let near := match c.cad.offset with | some o => decide (o.natAbs ≤ 64) | none => false
  if c.cad.st = 2 ∧ 32 ≤ c.cad.within ∧ near = true then cadState 3 c else c

/-- HOLDOVER_ENTRY: no marker from the parent for 8 beats, or SYNC 0; another admissible port of lower HOPS
takes over instead. -/
def holdoverEntry (c : Chip) : Chip :=
  let k := c.cad
  if (k.st = 2 ∨ k.st = 3) ∧ (8 ≤ k.missing ∨ (k.port k.parent).sync = false) then
    match c.bestParent (fun p => decide ((k.port p).hops < k.hops) && p != k.parent) with
    | some p => newParent p c
    | none => ce pgCad 9 k.parent k.missing (cadState 4 (updCad (fun y => { y with parent := 7, offset := none }) c))
  else c

/-- LOST_ENTRY. -/
def lostEntry (c : Chip) : Chip :=
  if c.cad.st = 4 ∧ 4096 ≤ c.cad.holdB then ucSlice pgCad 10 c.cad.holdB 0 0 (cadState 5 c) else c

/-- A TIME frame's offset of the master's beat point from the reference (R243, R370). -/
def timeOffset (d : Int) (c : Chip) : Chip :=
  if c.cad.st = 1 ∧ bit 0 (c.rg (cadReg 0x12C)) = true then
    updCad (fun k => { k with discOfs := d, discAge := 0, freqAdj := freeAdj c.draw }) { c with draw := c.draw + 1 }
  else c

/-- OVERRIDE_TAKEOVER: the target becomes MASTER, every other module adopts the master and epoch. -/
def overrideTake (c : Chip) : Chip :=
  match c.cad.override with
  | none => c
  | some o =>
    if c.beat < o.at_ then c
    else
      let c1 := updCad (fun k => { k with override := none, mepoch := o.mepoch, master := o.target, bound := true }) c
      if o.target = c.posId then
        ce pgCad 11 o.target o.mepoch (cadState 1 (updCad (fun k => { k with hops := 0, parent := 7, offset := none }) c1))
      else
        let c2 := if c.cad.st = 1 then cadState 4 c1 else c1
        ce pgCad 11 o.target o.mepoch c2

/-! ### The event table (R247, R248) -/

def evtBeat (w : List Nat) : Nat := wd w 0 + 2 ^ 32 * fld 21 0 (wd w 1)
def evtAction (w : List Nat) : Nat := fld 27 24 (wd w 1)
def evtCascade (w : List Nat) : Bool := bit 28 (wd w 1)
def evtAddr (w : List Nat) : Nat := fld 23 0 (wd w 2)
def evtPeriod (w : List Nat) : Nat := fld 15 0 (wd w 4)
def evtCount (w : List Nat) : Nat := fld 31 16 (wd w 4)

def Chip.evtIdx (c : Chip) : Nat := fld 7 0 (c.rg (cadReg 0x180))
def evtResult (code : Nat) (c : Chip) : Chip := c.setRg (cadReg 0x188) code
/-- State of an entry: a cascade entry whose beat has come in UNSYNC or LOST is DEFERRED. -/
def evtState (c : Chip) (i : Nat) : Nat :=
  let e := c.cad.ent i
  if e.st = 0 then 0 else if evtCascade e.words && decide (e.at_ ≤ c.beat) && !c.cascadeDue e.at_ then 2 else 1

/-- EVT_ARM. -/
def evtArm (c : Chip) : Chip :=
  let i := c.evtIdx
  let w := (List.range 8).map (fun k => c.rg (cadReg (0x190 + 4 * k)))
  let pg := evtAddr w / 0x1000
  let bad := fld 23 22 (wd w 1) != 0 || fld 31 29 (wd w 1) != 0 || evtAction w == 0 || decide (3 < evtAction w) ||
    fld 31 24 (wd w 2) != 0 || evtAddr w % 4 != 0 || wd w 6 != 0 || wd w 7 != 0
  if (c.cad.ent i).st ≠ 0 then evtResult 1 c
  else if bad then evtResult 2 c
  else if pg = pgCad ∨ pg = pgMgt ∨ pg = pgSec ∨ (pg = pgPwr ∧ evtAddr w % 0x1000 ≠ 0x104) then evtResult 3 c
  else if c.cad.st = 0 then evtResult 5 c
  else
    let late := decide (evtBeat w ≤ c.beat)
    evtResult (if late then 4 else 0) (updCad (fun k => k.setEnt i
      { st := 1, words := w, at_ := c.armedAt (evtBeat w), left := evtCount w }) (armCe pgCad (evtBeat w) c))

/-- EVT_READ: the entry as it stands, COUNT telling the firings left, and its state in [1:0] of the last word (DESIGN
CHOICE, log 25: no rule gives the state a place in EVT_DATA). -/
def evtRead (c : Chip) : Chip :=
  let e := c.cad.ent c.evtIdx
  let w := (e.words.set 4 (fld 15 0 (wd e.words 4) + 2 ^ 16 * e.left)).set 7 (evtState c c.evtIdx)
  evtResult 0 (forEach (List.range 8) (fun k q => q.setRg (cadReg (0x190 + 4 * k)) (wd w k)) c)

/-- EVT_CANCEL. -/
def evtCancel (c : Chip) : Chip :=
  let i := c.evtIdx
  let e := c.cad.ent i
  evtResult (if e.firedAt = some c.beat then 6 else 0) (updCad (fun k => k.setEnt i {}) c)

end Sys2Proof.Machine
end

