-- ==== Sys2Proof/Machine/Collective.lean ====
section
/-! DEFINITION. Collective operations (R287 to R309): arming, runs, chunk streams, staging, router
reductions, the sillage window, votes, commits and aborts. -/

namespace Sys2Proof.Machine

/-! ### Ring descriptor (R252) and the positions of a ring's members (R212) -/

def rId (w : List Nat) : Nat := fld 15 0 (wd w 0)
def rDecode (w : List Nat) : Bool := fld 17 16 (wd w 0) == 1
def rGroup (w : List Nat) : Nat := fld 28 24 (wd w 0)
def rSlot (w : List Nat) : Nat := fld 4 0 (wd w 1)
def rPlane (w : List Nat) : Nat := fld 10 8 (wd w 1)
def rRingW (w : List Nat) : Nat := fld 15 12 (wd w 1)
def rI0 (w : List Nat) : Nat := fld 23 16 (wd w 1)
def rL (w : List Nat) : Nat := fld 31 24 (wd w 1) + 1
def rStep (w : List Nat) : Nat := fld 15 0 (wd w 2)
def rMaxExt (w : List Nat) : Nat := fld 31 16 (wd w 2)
def rStall (w : List Nat) : Nat := fld 15 0 (wd w 3)
def rS0 (w : List Nat) : Nat := wd w 4 + 2 ^ 32 * wd w 5
def rK0 (w : List Nat) : Nat := wd w 6
def rDoneFlag (w : List Nat) : Nat := fld 5 0 (wd w 7)
def rDoneAmt (w : List Nat) : Nat := fld 15 8 (wd w 7)
def rMc (w : List Nat) : Nat := fld 26 16 (wd w 7)
def rMask (w : List Nat) (n : Nat) : Bool := bit (n % 32) (wd w (8 + n / 32))
def rLayer0 (w : List Nat) : Nat := fld 6 0 (wd w 14)
def rRpl (w : List Nat) : Nat := fld 15 8 (wd w 14)
def rBlkFirst (w : List Nat) : Nat := fld 19 0 (wd w 15)
def rBlkPages (w : List Nat) : Nat := fld 12 0 (wd w 16)
def rBuf (w : List Nat) : Nat := fld 23 0 (wd w 17)
def rBt (w : List Nat) : Nat := fld 23 0 (wd w 18)
def rQrdy (w : List Nat) : Nat := fld 5 0 (wd w 19)
def rQarr (w : List Nat) : Nat := fld 13 8 (wd w 19)
def rPrdy (w : List Nat) : Nat := fld 21 16 (wd w 19)
def rRes (w : List Nat) : Nat := fld 29 24 (wd w 19)
def rQsrc (w : List Nat) : Nat := fld 23 0 (wd w 20)
def rQdst (w : List Nat) : Nat := fld 23 0 (wd w 21)
def rQbytes (w : List Nat) : Nat := fld 16 0 (wd w 22)
def rPart (w : List Nat) : Nat := fld 23 0 (wd w 23)
def rResOfs (w : List Nat) : Nat := fld 23 0 (wd w 24)
def rMrows (w : List Nat) : Nat := fld 15 0 (wd w 25)
def rColl (w : List Nat) : Nat := fld 7 0 (wd w 26)
def rOwner0 (w : List Nat) : Nat := fld 7 0 (wd w 27)

/-- Position of ring index i (R212); no module has it where it leaves the ranges of R208. -/
def ringPos (c : Chip) (w : List Nat) (i : Nat) : Nat :=
  let ex := max 1 (c.ext 0)
  let row := i / ex
  let col := i % ex
  let x := c.org 0 + (if row % 2 = 0 then col else ex - 1 - col)
  let y := c.org 1 + rRingW w * c.ry + row
  let z := c.org 2 + rPlane w
  if x < 16 ∧ y < 16 ∧ z < 8 then mkId x y z else 2048
/-- Position of member m. -/
def memberPos (c : Chip) (w : List Nat) (m : Nat) : Nat := ringPos c w (rI0 w + m)
/-- Member at a position. -/
def memberAt (c : Chip) (w : List Nat) (i : Nat) : Option Nat := (List.range (rL w)).find? (fun m => memberPos c w m == i)

/-! ### Descriptor (R287) -/

def kOp (w : List Nat) : Nat := fld 2 0 (wd w 0)
def kRouter (w : List Nat) : Bool := bit 3 (wd w 0)
def kRed (w : List Nat) : Nat := fld 5 4 (wd w 0)
def kInt (w : List Nat) : Bool := bit 6 (wd w 0)
def kTn (w : List Nat) : Bool := bit 7 (wd w 0)
def kRoot (w : List Nat) : Nat := fld 15 8 (wd w 0)
def kGroup (w : List Nat) : Nat := fld 26 16 (wd w 0)
def kBytes (w : List Nat) : Nat := wd w 1
def kChunk (w : List Nat) : Nat := 2 ^ fld 4 0 (wd w 2)
def kInfl (w : List Nat) : Nat := fld 12 8 (wd w 2)
def kWin (w : List Nat) : Nat := fld 22 16 (wd w 2)
def kRerun (w : List Nat) : Nat := fld 27 24 (wd w 2)
def kDetach (w : List Nat) : Nat := fld 15 0 (wd w 3)
def kDue (w : List Nat) : Nat := fld 31 16 (wd w 3)
def kSrc (w : List Nat) : Nat := wd w 4 + 2 ^ 32 * wd w 5
def kDst (w : List Nat) : Nat := wd w 6 + 2 ^ 32 * wd w 7
def kCnt (w : List Nat) : Nat := wd w 8 + 2 ^ 32 * wd w 9
def kStg (w : List Nat) : Nat := fld 23 0 (wd w 10)
def kWinOfs (w : List Nat) : Nat := fld 23 0 (wd w 11)
def kStart (w : List Nat) : Nat := fld 5 0 (wd w 12)
def kLand (w : List Nat) : Nat := fld 13 8 (wd w 12)
def kReady (w : List Nat) : Nat := fld 21 16 (wd w 12)
def kRes (w : List Nat) : Nat := fld 29 24 (wd w 12)
def kTime (w : List Nat) : Nat := fld 15 0 (wd w 13)
def kMask (w : List Nat) (n : Nat) : Bool := bit (n % 32) (wd w (14 + n / 32))
def kMaskCores (w : List Nat) : List Nat := (List.range 192).filter (kMask w)
/-- A ring sum on the cores. -/
def kRingSum (w : List Nat) : Bool := !kRouter w && (kOp w == 1 || kOp w == 2)
/-- A run with a multicast stream. -/
def kMulti (w : List Nat) : Bool := kRouter w || kOp w == 5

/-- Malformed under R4, or breaking R287 or R290, for a group of `p` members (0: not known): a field that OP and ALG do not
use is 0. A BARRIER moves no data, and only a multicast has a window. -/
def collMalformed (w : List Nat) (p : Nat) : Bool :=
  let op := kOp w
  let chunky := op != 6
  let range (lo hi v : Nat) (used : Bool) : Bool := if used then decide (v < lo ∨ hi < v) else v != 0
  op == 0 || op == 7 || fld 31 27 (wd w 0) != 0 || (kRouter w && op != 1) ||
  (!kRouter w && kRed w != 0) || (kInt w && !(kRouter w && kRed w == 0)) ||
  (op != 5 && kRoot w != 0) || decide (256 ≤ kGroup w) ||
  fld 7 5 (wd w 2) != 0 || fld 15 13 (wd w 2) != 0 || bit 23 (wd w 2) || fld 31 28 (wd w 2) != 0 ||
  range 12 16 (fld 4 0 (wd w 2)) chunky || range 4 16 (kInfl w) chunky || range 4 64 (kWin w) (kMulti w) ||
  (if kMulti w then kDetach w == 0 else kDetach w != 0 || kWinOfs w != 0) ||
  (!chunky && (kTn w || kDue w != 0 || kRes w != 0)) ||
  (kSrc w / 2 ^ 48 != 0) || (kDst w / 2 ^ 48 != 0) || (kCnt w / 2 ^ 48 != 0) ||
  (op == 6 && (kSrc w != 0 || kDst w != 0)) || (op != 4 && kCnt w != 0) ||
  (!kRingSum w && (kStg w != 0 || kLand w != 0 || kReady w != 0)) ||
  fld 31 24 (wd w 10) != 0 || fld 31 24 (wd w 11) != 0 ||
  fld 7 6 (wd w 12) != 0 || fld 15 14 (wd w 12) != 0 || fld 23 22 (wd w 12) != 0 || fld 31 30 (wd w 12) != 0 ||
  decide (56 < kLand w ∨ 56 < kReady w) || fld 31 16 (wd w 13) != 0 || decide (kTime w < 16) ||
  (w.drop 20).any (· != 0) ||
  (if op = 6 then kBytes w != 0 else if kRouter w then kBytes w % 4 != 0 || kBytes w == 0 || (kRed w == 3 && decide (65536 < kBytes w))
   else if op = 1 ∨ op = 2 then (p != 0 && kBytes w % (4 * p) != 0) || kBytes w == 0 else kBytes w == 0) ||
  (op == 5 && p != 0 && decide (p ≤ kRoot w))

/-- Participating cores of a RING SUM run that begins now (R297). -/
def kCores (c : Chip) (w : List Nat) : List Nat := (kMaskCores w).filter (fun n => (c.core n).mapApp)
/-- The staging slots of Pc cores lie within a scratchpad (R297). -/
def stagingFits (w : List Nat) (pc : Nat) : Bool :=
  decide (kStg w + ceilDiv (kInfl w) (max 1 pc) * 3 * kChunk w ≤ 0x200000)

/-- COLL_CMD ARM: the code of R288, with the context bound when it is 0. Staging slots are measured with the cores then in the
work map; a run that begins with fewer, which they do not fit, has cause CORES (DESIGN CHOICE, log 26). -/
def collArm (id : Nat) (c : Chip) : Chip :=
  let code (n : Nat) : Chip := { c with collResult := n }
  if id = 0 ∨ (c.coll id).st ≠ 0 then code 1
  else
    let a := c.rg64 (ra pgLrt 0x204)
    match (if a % 128 = 0 ∧ a + 128 ≤ t0Size then c.tasRead a 128 else .access) with
    | .ok l =>
      let w := leWords 32 l
      if collMalformed w 0 then code 2
      else if c.grpBad (kGroup w) then code 3
      else
        let g := c.grp (kGroup w)
        if collMalformed w (gvCount g) then code 2
        else if kMaskCores w = [] ∨ 0x800000 < kWinOfs w + kWin w * kChunk w ∨
            (kRingSum w && !stagingFits w (kCores c w).length) = true then code 4
        else
          { c.setColl id { st := 1, words := w, rank := (gvRankOf g c.posId).getD 0, parts := gvCount g } with collResult := 0 }
    | _ => code 2

/-- COLL_CMD DISARM. -/
def collDisarm (id : Nat) (c : Chip) : Chip :=
  let x := c.coll id
  if x.st = 1 ∨ x.st = 5 then { retireProv id false (c.setColl id {}) with collResult := 0 } else { c with collResult := 1 }

/-! ### Packets (R294, R295) -/

/-- The 16-byte collective header. -/
def collHdr (id attempt part last clean fail cause run chunk ck : Nat) : List Byte :=
  leBytes 4 (id + 2 ^ 8 * attempt + 2 ^ 12 * part + 2 ^ 14 * last + 2 ^ 15 * clean + 2 ^ 16 * fail + 2 ^ 20 * cause) ++
  leBytes 4 run ++ leBytes 4 chunk ++ leBytes 4 ck

/-- Module of a rank of the context's group. -/
def collPeer (c : Chip) (x : Coll) (r : Nat) : Nat :=
  match x.ring with
  | some g => memberPos c (c.ring g).words r
  | none => gvRank (c.grp (kGroup x.words)) r

/-- A control packet; `dst` 256 is the group. -/
def sendCtl (id kind dst fail cause chunk ck : Nat) (c : Chip) : Chip :=
  let x := c.coll id
  let b := collHdr id x.attempt 0 0 0 fail cause x.run chunk ck
  sendPkt { dest := if dst = 256 then kGroup x.words else collPeer c x dst, mcast := dst == 256, kind := kind, tag := x.rank, body := b } c

/-- DUE of the data packets of the run (R268, R287). -/
def collDue (c : Chip) (x : Coll) : Nat :=
  match x.ring with
  | some r => ((c.ring r).start + (c.ring r).stepBeats) % 2 ^ 32
  | none => if kDue x.words = 0 then 0xFFFFFFFF else (x.start + kDue x.words) % 2 ^ 32

/-- Ring and step tag of a merge's packets (R254). -/
def collTag (c : Chip) (x : Coll) : Nat :=
  match x.ring with
  | some r => rId (c.ring r).words + 2 ^ 16 * ((c.ring r).step % 65536)
  | none => x.rank

/-- A chunk or piece in parts of at most 16,384 bytes. -/
def sendData (id kind dst chunk ck clean : Nat) (l : List Byte) (c : Chip) : Chip :=
  let x := c.coll id
  let n := max 1 (ceilDiv l.length 16384)
  forEach (List.range n) (fun i k =>
    let b := collHdr id x.attempt i (b2n (i + 1 == n)) clean 0 0 x.run chunk ck ++ (l.drop (16384 * i)).take 16384
    sendPkt { dest := if dst = 256 then kGroup x.words else collPeer c x dst, mcast := dst == 256, kind := kind
              due := collDue c x, tag := if kind = 0x17 ∨ kind = 0x18 then collTag c x else x.rank, cls := if kTn x.words then 0 else 1, body := b } k) c

def hId (p : Packet) : Nat := fld 7 0 (at_ p.body 0 4)
def hAttempt (p : Packet) : Nat := fld 11 8 (at_ p.body 0 4)
def hPart (p : Packet) : Nat := fld 13 12 (at_ p.body 0 4)
def hLast (p : Packet) : Bool := bit 14 (at_ p.body 0 4)
def hClean (p : Packet) : Bool := bit 15 (at_ p.body 0 4)
def hFail (p : Packet) : Bool := bit 16 (at_ p.body 0 4)
def hCause (p : Packet) : Nat := fld 23 20 (at_ p.body 0 4)
def hRun (p : Packet) : Nat := at_ p.body 4 4
def hChunk (p : Packet) : Nat := at_ p.body 8 4
def hCk (p : Packet) : Nat := at_ p.body 12 4
/-- Rank of a packet's sender. -/
def hRank (c : Chip) (x : Coll) (p : Packet) : Nat :=
  match x.ring with
  | some g => (memberAt c (c.ring g).words p.src).getD 0
  | none => (gvRankOf (c.grp (kGroup x.words)) p.src).getD (fld 7 0 p.tag)

/-! ### Abort and commit (R303 to R306) -/

/-- Cores that a run's abort returns to the checkpoint (R305). -/
def collCores (c : Chip) (id : Nat) : List Nat :=
  (List.range 192).filter (fun n => kMask (c.coll id).words n || (c.core n).provSet.contains id)

/-- The streams, chunks and repairs of a run are dropped; who is detached stays so until the run ends (R301). -/
def clearRun (x : Coll) : Coll :=
  { x with cores := [], tx := [], rx := [], reduced := [], sentCk := [], dstCk := [], pieces := [], kids := [], results := [],
           votes := [], asked := false, verdict := false, fullAt := none, allClean := true, copied := false
           out := (x.out ++ (x.tx.filter (·.det)).map (·.dst)).dedup }

/-- The RUNNING decode ring whose merge a context is. -/
def queryRing (c : Chip) (id : Nat) : Option Nat :=
  (List.range 32).find? (fun x => (c.ring x).st == 3 && rDecode (c.ring x).words && rColl (c.ring x).words == id)
/-- An attempt's query is dropped with it. -/
def queryReset (id attempt : Nat) (c : Chip) : Chip :=
  match queryRing c id with
  | some x =>
    let r := c.ring x
    c.setRing x { r with
      qtx := [], qCks := [], qFull := none, qrx := {}, qAtt := attempt, qDone := false, qBad := none
      qOut := (r.qOut ++ (r.qtx.filter (·.det)).map (·.dst)).dedup }
  | none => c

/-- Steps 1 to 3 of R305. -/
def abortRun (id cause : Nat) (c : Chip) : Chip :=
  let cores := collCores c id
  let x := c.coll id
  let c1 := c.setColl id { clearRun x with st := 4, attempt := (x.attempt + 1) % 16, cause := cause }
  let c2 := queryReset id ((x.attempt + 1) % 16) (retireProv id false (forEach cores (fun n k => abortCore n id k) c1))
  ce pgLrt 13 cause id (irq pgLrt 4 (c2.bumpRg (ra pgLrt 0x220) 1))

/-- A run enters FAILED and the lists of its cores stop (R306). -/
def failState (id cause : Nat) (c : Chip) : Chip :=
  let cores := collCores c id
  let c1 := c.setColl id { clearRun (c.coll id) with st := 5, cause := cause }
  irq pgLrt 5 (forEach cores listStop c1)
/-- A run fails (R306). -/
def failRun (id cause : Nat) (c : Chip) : Chip := ucOp pgLrt 14 (id + 2 ^ 31) cause 0 (failState id cause c)

/-- Rank 0 sends its one ABORT of the attempt (R305, R306). -/
def decideAbort (id cause : Nat) (fail : Bool) (c : Chip) : Chip :=
  let x := c.coll id
  if x.verdict then c
  else
    let spent := !fail && decide (kRerun x.words < x.attempt + 1)
    let cs := if spent then 11 else cause
    let f := fail || spent
    let c1 := sendCtl id 0x2A 256 (b2n f) cs 0 0 c
    if f then failRun id cs c1 else abortRun id cs c1

/-- This member finds an abort cause (R303, R305); after its vote it asks no more. -/
def foundCause (id cause : Nat) (c : Chip) : Chip :=
  let x := c.coll id
  if (x.st ≠ 2 ∧ x.st ≠ 3) ∨ x.asked = true then c
  else if x.rank = 0 then decideAbort id cause (decide (8 ≤ cause)) c
  else
    let c1 := c.setColl id { x with asked := true, cause := cause }
    if x.st = 3 then c1 else sendCtl id 0x28 0 (b2n (decide (8 ≤ cause))) cause 0 0 c1

/-- COMMIT (R304). -/
def commitRun (id : Nat) (c : Chip) : Chip :=
  let x := c.coll id
  if x.st ≠ 2 ∧ x.st ≠ 3 then c
  else
    let c1 := c.setColl id { clearRun x with st := 1, doneRun := x.run, ring := none }
    let c2 := forEach (List.range 192) (fun n k =>
      let q := k.core n
      k.setCore n { q with
        provSet := q.provSet.filter (· != id), runs := q.runs.map (fun r => { r with prov := r.prov.filter (· != id) })
        seen := if q.st = 0 ∨ q.seen.contains id then q.seen else q.seen ++ [id] }) c1
    let c3 := match x.ring with | some r => c2.setRing r { c2.ring r with merged := true } | none => c2
    retireProv id true c3

/-- Rank 0 commits a run on every member. -/
def sendCommit (id : Nat) (c : Chip) : Chip :=
  let x := c.coll id
  if x.verdict then c else commitRun id (sendCtl id 0x29 256 0 0 0 0 (c.setColl id { x with verdict := true }))

/-! ### Ring geometry (R290 to R292) -/

def Coll.shard (x : Coll) : Nat := if kOp x.words = 3 then kBytes x.words else kBytes x.words / max 1 x.parts
def Coll.nc (x : Coll) : Nat := max 1 (ceilDiv x.shard (kChunk x.words))
def Coll.nred (x : Coll) : Nat := if kOp x.words = 3 then 0 else (x.parts - 1) * x.nc
def Coll.ringTotal (x : Coll) : Nat := x.nred + (if kOp x.words = 2 then 0 else (x.parts - 1) * x.nc)
/-- Length of chunk c of a shard. -/
def Coll.chunkLen (x : Coll) (c : Nat) : Nat := min (kChunk x.words) (x.shard - c * kChunk x.words)
/-- Rank r - d, modulo the group. -/
def Coll.back (x : Coll) (d : Nat) : Nat := (x.rank + x.parts * (d / max 1 x.parts + 1) - d) % max 1 x.parts
/-- Core that owns staging slot of received chunk k. -/
def Coll.slotCore (x : Coll) (k : Nat) : Nat := x.cores.getD (k % kInfl x.words % max 1 x.cores.length) 0
/-- Address of area 0 IN, 1 OWN, 2 OUT of the staging slot of received chunk k (R297). -/
def Coll.slotAddr (x : Coll) (k area : Nat) : Nat :=
  padBase (x.slotCore k) + kStg x.words + (k % kInfl x.words / max 1 x.cores.length * 3 + area) * kChunk x.words
/-- Shard that received chunk k belongs to. -/
def Coll.rxShard (x : Coll) (k : Nat) : Nat :=
  if k < x.nred then x.back (2 + k / x.nc) else x.back (1 + (k - x.nred) / x.nc)
/-- Place of chunk c of shard s in DST. -/
def Coll.dstAddr (x : Coll) (s c : Nat) : Nat :=
  kDst x.words + (if kOp x.words = 2 then 0 else s * x.shard) + c * kChunk x.words
def Coll.dstIdx (x : Coll) (s c : Nat) : Nat := if kOp x.words = 2 then c else s * x.nc + c
/-- Pieces of a router run (R299). -/
def Coll.npiece (x : Coll) : Nat := ceilDiv (kBytes x.words) 65536
def Coll.pieceLen (x : Coll) (i : Nat) : Nat := min 65536 (kBytes x.words - 65536 * i)
/-- Chunks of DST. -/
def Coll.need (x : Coll) : Nat :=
  if kRouter x.words then x.npiece
  else match kOp x.words with
    | 1 | 3 => x.parts * x.nc
    | 2 => x.nc
    | 5 => ceilDiv (kBytes x.words) (kChunk x.words)
    | _ => 0

/-- Source and destination buffers of a ring's merge (R266, R267). -/
def collSrc (c : Chip) (x : Coll) : Nat :=
  match x.ring with | some r => cacheBase 0 + rPart (c.ring r).words | none => kSrc x.words
def collDst (c : Chip) (x : Coll) : Nat :=
  match x.ring with | some r => cacheBase 0 + rResOfs (c.ring r).words | none => kDst x.words

/-- Address and length of chunk k of the stream to `dst`. -/
def chunkPlace (c : Chip) (x : Coll) (dst k : Nat) : Nat × Nat :=
  let w := x.words
  if kRouter w then (collDst c x + 65536 * k, x.pieceLen k)
  else if kOp w = 5 then (kSrc w + k * kChunk w, min (kChunk w) (kBytes w - k * kChunk w))
  else if kOp w = 4 then
    let n := match x.tx.find? (fun t => t.dst == dst) with | some t => t.bytes | none => 0
    (kSrc w + dst * kBytes w + k * kChunk w, min (kChunk w) (n - k * kChunk w))
  else
    let ci := k % x.nc
    let len := x.chunkLen ci
    if k < x.nc then (kSrc w + (if kOp w = 3 then 0 else x.back 1 * x.shard) + ci * kChunk w, len)
    else if k - x.nc < x.nred then (x.slotAddr (k - x.nc) 2, len)
    else (x.dstAddr (x.rxShard (k - x.nc)) ci, len)

/-- The sillage window's copy of chunk k (R300). -/
def winAddr (x : Coll) (k : Nat) : Nat := cacheBase 0 + kWinOfs x.words + k % max 1 (kWin x.words) * kChunk x.words

/-! ### Landing in DST -/

/-- Raise flag RES of every cluster that holds a core of CORE_MASK (R298). -/
def raiseRes (id : Nat) (c : Chip) : Chip :=
  let x := c.coll id
  match x.ring with
  | some r => (addFlag 0 (rRes (c.ring r).words) 1 c).getD c
  | none =>
    forEach ((List.range 24).filter (fun cl => (kMaskCores x.words).any (fun n => n / 8 == cl))) (fun cl k =>
      (addFlag cl (kRes x.words) 1 k).getD k) c

/-- Write bytes of DST, chunk `idx` in DST order; a refused write is cause POISON. -/
def toDst (id idx addr : Nat) (l : List Byte) (c : Chip) : Chip :=
  let r := tasWrite addr l c
  if r.2 ≠ 0 then foundCause id 3 r.1
  else
    let x := r.1.coll id
    let cks := if (x.dstCk.any (fun p => p.1 == idx)) then x.dstCk else x.dstCk ++ [(idx, crc32 l)]
    let c1 := r.1.setColl id { x with dstCk := cks }
    if cks.length = x.need ∧ x.dstCk.length ≠ x.need then raiseRes id c1 else c1

/-- DIGEST (R302). -/
def digest (x : Coll) : Nat :=
  if !kRouter x.words && (kOp x.words == 1 || kOp x.words == 3 || kOp x.words == 5) then
    crc32 ((List.range x.need).flatMap (fun i => leBytes 4 ((x.dstCk.lookup i).getD 0)))
  else 0

/-! ### Router tree (R266, R299) -/

/-- Bank of the LRT's exp2 of a latched generation. -/
def lrtBank (c : Chip) (gen : W32) : Bank := if (c.lrtGen.toNat + gen.toNat) % 2 = 0 then c.lrtExp else c.lrtShadow

/-- The join of R292, the accumulated operand first; none where shapes differ. -/
def routerJoin (c : Chip) (x : Coll) (a b : List Byte) : Option (List Byte) :=
  let w := x.words
  if a.length ≠ b.length then none
  else if kRed w = 3 then
    let want := match x.ring with
      | some r => decide (at_ b 0 2 = rMrows (c.ring r).words ∧ at_ b 2 2 = dDim (c.slot (c.ring r).slot).words)
      | none => true
    if want && at_ a 0 2 == at_ b 0 2 && at_ a 2 2 == at_ b 2 2 && a.length == 64 + at_ a 0 2 * (32 + 4 * at_ a 2 2) then
      some (mergeParts (lrtBank c x.lrtGen) a b)
    else none
  else
    let f (p q : Nat) : Nat :=
      let u : W32 := BitVec.ofNat 32 p
      let v : W32 := BitVec.ofNat 32 q
      (if kRed w = 1 then fMax u v else if kRed w = 2 then fMin u v else if kInt w then u + v else fAdd u v).toNat
    let n := a.length / 4
    some ((List.zipWith f (leWords n a) (leWords n b)).flatMap (leBytes 4))

/-- Child that piece p still waits for. -/
def pieceKid (x : Coll) (p : Piece) : Option Nat :=
  if x.rank % 2 ^ p.lam = 0 ∧ x.rank + 2 ^ (p.lam - 1) < x.parts then some (x.rank + 2 ^ (p.lam - 1)) else none
/-- Tree parent of a rank. -/
def treeParent (r : Nat) : Nat := r - (r &&& (2 ^ 32 - r % 2 ^ 32))

/-- Reduction memory in use, in bytes: twice its block from a merge's first join to its send, at rank 0 that of the result
(R268). -/
def rmemUsed (c : Chip) : Nat :=
  (c.colls.map (fun e => ((e.2.pieces.filter (fun p =>
    decide (1 < p.lam) && (!p.sent || e.2.results.any (fun r => r.1 == p.idx)))).map (fun p => 2 * p.acc.length)).sum)).sum
def rmemFree (c : Chip) : Nat := 0x200000 - rmemUsed c

def setPiece (id : Nat) (p : Piece) (c : Chip) : Chip :=
  let x := c.coll id
  c.setColl id { x with pieces := x.pieces.map (fun q => if q.idx = p.idx then p else q) }

/-- A piece whose joins are done leaves this node. -/
def sendPiece (id : Nat) (p : Piece) (c : Chip) : Chip :=
  let x := c.coll id
  let clean := p.clean && !x.asked
  let c1 := setPiece id { p with sent := true } c
  if x.rank = 0 then
    let y := c1.coll id
    c1.setColl id { y with results := y.results ++ [(p.idx, p.acc)], allClean := y.allClean && clean }
  else
    sendData id (if x.ring.isSome then 0x17 else 0x22) (treeParent x.rank) p.idx (crc32 p.acc) (b2n clean) p.acc c1

/-- Join what has landed for piece idx, as far as it goes and reduction memory reaches. -/
def advancePiece (id idx : Nat) : Nat → Chip → Chip
  | 0, c => c
  | f + 1, c =>
    let x := c.coll id
    match x.pieces.find? (fun p => p.idx == idx && !p.sent) with
    | none => c
    | some p =>
      match pieceKid x p with
      | none => sendPiece id p c
      | some r =>
        match x.kids.find? (fun k => k.1 == r && k.2.1 == idx) with
        | none => c
        | some k =>
          if p.lam = 1 ∧ rmemFree c < 2 * p.acc.length then c
          else
            match routerJoin c x p.acc k.2.2.2 with
            | none => foundCause id 4 c
            | some a =>
              let c1 := setPiece id { p with acc := a, lam := p.lam + 1, clean := p.clean && k.2.2.1 } c
              let y := c1.coll id
              advancePiece id idx f (c1.setColl id { y with kids := y.kids.erase k })

/-- Enter the next pieces, at most INFLIGHT in the tree (R299). -/
def enterPieces (id : Nat) : Nat → Chip → Chip
  | 0, c => c
  | f + 1, c =>
    let x := c.coll id
    let i := x.pieces.length
    let inTree := x.pieces.countP (fun p => !(x.dstCk.any (fun d => d.1 == p.idx)))
    if x.st ≠ 2 ∨ x.npiece ≤ i ∨ max 1 (kInfl x.words) ≤ inTree then c
    else
      match tasFetch (collSrc c x + 65536 * i) (x.pieceLen i) c with
      | (c1, .ok l) =>
        let y := c1.coll id
        enterPieces id f (advancePiece id i 16 (c1.setColl id { y with pieces := y.pieces ++ [{ idx := i, acc := l }] }))
      | (c1, .wait _) => c1
      | (c1, _) => foundCause id 3 c1

/-- Joins that found no reduction memory, and pieces whose read was held, are tried again. -/
def routerTurn (id : Nat) (c : Chip) : Chip :=
  enterPieces id (kInfl (c.coll id).words + 1) ((c.coll id).pieces.foldl (fun k p => advancePiece id p.idx 16 k) c)

/-- Every subtree was clean, and the last result has gone out and reached the detached: rank 0 commits
(R301, R304). -/
def routerCommit (id : Nat) (c : Chip) : Chip :=
  let x := c.coll id
  match x.tx.find? (fun t => t.dst == 256) with
  | some g =>
    if kRouter x.words && x.st == 2 && x.rank == 0 && x.allClean && !x.asked && g.next == x.npiece &&
       x.tx.all (fun t => !t.det || decide (x.npiece ≤ t.landed)) then sendCommit id c else c
  | none => c

/-! ### Starting a run (R289 to R297) -/

/-- Count table word i of an ALL_TO_ALL. -/
def cntWord (c : Chip) (x : Coll) (i : Nat) : Option Nat :=
  match c.tasRead (kCnt x.words + 4 * i) 4 with | .ok l => some (leNat l) | _ => none
/-- Chunks of a block of n bytes: a block that ends on a chunk border below its capacity is closed by an empty
chunk, as an empty block is (R293). -/
def blockChunks (w : List Nat) (n : Nat) : Nat :=
  if n % kChunk w = 0 ∧ n < kBytes w then n / kChunk w + 1 else ceilDiv n (kChunk w)

/-- A copy within the member: SRC to DST; a held read leaves it for later (R339). -/
def localCopy (id idx src dst n : Nat) (c : Chip) : Chip :=
  match tasFetch src n c with
  | (c1, .ok l) => toDst id idx dst l c1
  | (c1, .wait _) => c1
  | (c1, _) => foundCause id 3 c1

/-- Every block of an ALL_TO_ALL is in place: flag RES (R298). -/
def blocksIn (id : Nat) (c : Chip) : Chip :=
  let x := c.coll id
  if x.st = 2 ∧ x.copied = true ∧ x.rx.all (·.done) = true then raiseRes id c else c
/-- The member's own copies that are not made yet: its shard of an ALL_GATHER, its block of an ALL_TO_ALL (R291, R293). -/
def ownCopies (id : Nat) (c : Chip) : Chip :=
  let x := c.coll id
  let w := x.words
  if kRouter w then c
  else match kOp w with
    | 3 => forEach (List.range x.nc) (fun i k =>
        if (k.coll id).dstCk.any (fun p => p.1 == x.dstIdx x.rank i) then k
        else localCopy id (x.dstIdx x.rank i) (kSrc w + i * kChunk w) (x.dstAddr x.rank i) (x.chunkLen i) k) c
    | 4 =>
      if x.copied then c
      else
        let n := (cntWord c x x.rank).getD 0
        match (if n = 0 then (c, .ok []) else tasFetch (kSrc w + x.rank * kBytes w) n c) with
        | (q, .ok l) =>
          let r := tasWrite (kDst w + x.rank * kBytes w) l q
          if r.2 ≠ 0 then foundCause id 3 r.1
          else
            let k := (tasWrite (kCnt w + 4 * (x.parts + x.rank)) (leBytes 4 n) r.1).1
            blocksIn id (k.setColl id { k.coll id with copied := true })
        | (q, .wait _) => q
        | (q, _) => foundCause id 3 q
    | _ => c

/-- Streams of a run. -/
def openStreams (c : Chip) (x : Coll) : Coll :=
  let w := x.words
  let others := (List.range x.parts).filter (· != x.rank)
  if kRouter w then
    if x.rank = 0 then { x with
      tx := { dst := 256, total := x.npiece } :: others.map (fun q => { dst := q, total := x.npiece, det := x.out.contains q }) }
    else { x with rx := [{ src := 0 }] }
  else match kOp w with
    | 1 | 2 | 3 =>
      { x with
        tx := [{ dst := (x.rank + 1) % x.parts, total := x.ringTotal }], rx := [{ src := x.back 1 }]
        cores := if kOp w = 3 then [] else kCores c w }
    | 4 =>
      { x with
        tx := ((List.range (x.parts - 1)).map (fun i => (x.rank + 1 + i) % x.parts)).map (fun q =>
          let n := (cntWord c x q).getD 0
          { dst := q, total := blockChunks w n, bytes := n })
        rx := others.map (fun q => { src := q }) }
    | 5 =>
      let n := ceilDiv (kBytes w) (kChunk w)
      if x.rank = kRoot w then { x with
        tx := { dst := 256, total := n } :: others.map (fun q => { dst := q, total := n, det := x.out.contains q }) }
      else { x with rx := [{ src := kRoot w }] }
    | _ => x

/-- Begin the next run, or the next attempt of an aborted one (R289). -/
def beginRun (id : Nat) (ring : Option Nat) (c : Chip) : Chip :=
  let x := c.coll id
  let w := x.words
  let x1 : Coll := { clearRun x with
    st := 2, run := if x.st = 1 then (x.run + 1) % 2 ^ 32 else x.run, attempt := if x.st = 1 then 0 else x.attempt
    detached := x.detached && x.st != 1, out := if x.st = 1 then [] else x.out, start := c.beat, ring := ring
    rank := match ring with | some r => (c.ring r).member | none => (gvRankOf (c.grp (kGroup w)) c.posId).getD 0
    parts := match ring with | some r => rL (c.ring r).words | none => gvCount (c.grp (kGroup w))
    lrtGen := match ring with | some r => (c.ring r).lrtGen | none => c.lrtGen }
  let c1 := c.setColl id (openStreams c x1)
  if kRouter w then enterPieces id (kInfl w + 1) c1
  else match kOp w with
    | 1 | 2 =>
      let pc := (c1.coll id).cores.length
      if pc = 0 ∨ stagingFits w pc = false then foundCause id 9 c1 else c1
    | 4 =>
      let ns := (List.range x.parts).map (cntWord c x)
      if ns.any (·.isNone) then foundCause id 3 c1
      else if ns.any (fun n => decide (kBytes w < n.getD 0)) then foundCause id 8 c1
      else ownCopies id c1
    | _ => ownCopies id c1

/-- A decode ring's merge: the RCU starts its runs and no START does (R288). -/
def ringOwned (c : Chip) (id : Nat) : Bool :=
  (List.range 32).any (fun x => (c.ring x).st != 0 && rDecode (c.ring x).words && rColl (c.ring x).words == id)
/-- The count table is being refetched: a START waits for it (R339). -/
def cntHeld (c : Chip) (x : Coll) : Bool :=
  kOp x.words == 4 && (match c.tasRead (kCnt x.words) (4 * x.parts) with | .wait _ => true | _ => false)

/-- COLLECTIVE_START: flag START of cluster 0, the previous run committed, empty provisional sets. -/
def collStart (id : Nat) (c : Chip) : Chip :=
  let x := c.coll id
  let f := flagReg 0 (kStart x.words)
  if (x.st = 1 ∨ (x.st = 4 ∧ x.ring = none)) ∧ ringOwned c id = false ∧ cntHeld c x = false ∧ 1 ≤ c.rg f ∧ (kMaskCores x.words).all (fun n => (c.core n).provSet.isEmpty) then
    beginRun id none (c.setRg f (c.rg f - 1))
  else c

/-! ### Sending (R296, R300 to R302) -/

def setTx (id : Nat) (t : TxStream) (c : Chip) : Chip :=
  let x := c.coll id
  c.setColl id { x with tx := x.tx.map (fun y => if y.dst = t.dst then t else y) }

def ckKey (dst k : Nat) : Nat := dst * 2 ^ 32 + k
/-- Keep the CK of a chunk sent in this attempt. -/
def noteCk (id dst k ck : Nat) (c : Chip) : Chip :=
  let x := c.coll id
  c.setColl id { x with sentCk := (ckKey dst k, ck) :: x.sentCk.filter (fun p => p.1 != ckKey dst k) }

/-- The window has room for the next chunk of the group stream. -/
def windowOpen (x : Coll) (g : TxStream) : Bool :=
  x.tx.all (fun t => t.dst == 256 || t.det || decide (g.next < t.landed + kWin x.words))
/-- Since when the window has been full (R300). -/
def noteWindow (id : Nat) (c : Chip) : Chip :=
  let x := c.coll id
  match x.tx.find? (fun t => t.dst == 256) with
  | none => c
  | some g =>
    if windowOpen x g || decide (g.total ≤ g.next) then c.setColl id { x with fullAt := none }
    else if x.fullAt.isNone then c.setColl id { x with fullAt := some c.beat } else c

/-- The bytes of chunk k to `dst`: from the window while it still holds a multicast chunk, else from memory. -/
def chunkRead (c : Chip) (x : Coll) (dst k : Nat) : Nat × Nat :=
  let p := chunkPlace c x dst k
  match x.tx.find? (fun t => t.dst == 256) with
  | some g => if kMulti x.words && decide (k < g.next ∧ g.next ≤ k + kWin x.words ∧ p.2 ≤ kChunk x.words) then (winAddr x k, p.2) else p
  | none => p

/-- Send chunk k to `dst` as `kind`; answers with the chunk read from memory. -/
def sendChunk (id kind dst k : Nat) (c : Chip) : Chip :=
  let x := c.coll id
  let p := chunkRead c x dst k
  match (if p.2 = 0 then (c, .ok []) else tasFetch p.1 p.2 c) with
  | (c1, .ok l) =>
    let key := if kMulti x.words then ckKey 256 k else ckKey dst k
    let ck := (x.sentCk.lookup key).getD (crc32 l)
    sendData id kind dst k ck 0 l (if kMulti x.words then noteCk id 256 k ck c1 else noteCk id dst k ck c1)
  | (c1, .wait _) => c1
  | (c1, _) => foundCause id 3 c1

/-- The bytes of chunk k to `dst` can be read now: no granule of it is being refetched (R339). -/
def chunkReady (c : Chip) (x : Coll) (dst k : Nat) : Bool :=
  let p := chunkRead c x dst k
  match c.tasRead p.1 p.2 with | .wait _ => false | _ => true

/-- Chunk k of the group stream goes out: into the sillage window, to the group, and to the sender's own DST (R300). -/
def castChunk (id : Nat) (g : TxStream) (l : List Byte) (c : Chip) : Chip :=
  let x := c.coll id
  let k := g.next
  let q1 := c.store (winAddr x k) (l.take (kChunk x.words))
  let q2 := sendData id (if x.ring.isSome then 0x18 else 0x21) 256 k (crc32 l) 0 l (noteCk id 256 k (crc32 l) q1)
  toDst id k (if kRouter x.words then collDst c x + 65536 * k else kDst x.words + k * kChunk x.words) l
    (setTx id { g with next := k + 1 } q2)

/-- CHUNK_SEND of the group stream: the next chunk, or rank 0's next finished piece. -/
def sendGroup (id : Nat) (g : TxStream) (c : Chip) : Chip :=
  let x := c.coll id
  let k := g.next
  if g.total ≤ k ∨ windowOpen x g = false then noteWindow id c
  else
    if kRouter x.words then
      match x.results.find? (fun r => r.1 == k) with
      | none => c
      | some r => routerCommit id (enterPieces id 2 (noteWindow id (castChunk id g r.2 (c.setColl id { x with results := x.results.erase r }))))
    else
      let p := chunkPlace c x 256 k
      match tasFetch p.1 p.2 c with
      | (c1, .ok l) => noteWindow id (castChunk id g l c1)
      | (c1, .wait _) => c1
      | (c1, _) => foundCause id 3 c1

/-- Received chunk that chunk k of a ring stream forwards has been reduced or has landed (R291). -/
def forwardable (x : Coll) (k : Nat) : Bool :=
  if k < x.nc then true
  else if k - x.nc < x.nred then x.reduced.contains (k - x.nc)
  else match x.rx with | r :: _ => r.landed.contains (k - x.nc) | [] => false

/-- A forwarded chunk read again from DST still has the CK it landed with (R302). -/
def forwardOk (c : Chip) (x : Coll) (k : Nat) : Bool :=
  if k < x.nc ∨ k - x.nc < x.nred then true
  else
    let p := chunkPlace c x 0 k
    match c.tasRead p.1 p.2, x.rx with
    | .ok l, r :: _ => (r.cks.lookup (k - x.nc)).getD 0 == crc32 l
    | _, _ => true

/-- CHUNK_SEND: the next chunk of the stream to `dst` (256: the group; a detached receiver: REPLAY), once its bytes can be
read; what waited for a read or for reduction memory goes on first. -/
def chunkSend (id dst : Nat) (c0 : Chip) : Chip :=
  let x0 := c0.coll id
  if x0.st ≠ 2 ∨ x0.asked = true then c0
  else
    let c := if kRouter x0.words then routerTurn id c0 else ownCopies id c0
    let x := c.coll id
    if x.st ≠ 2 ∨ x.asked = true then c else
    match x.tx.find? (fun t => t.dst == min dst 256) with
    | none => c
    | some t =>
      let w := x.words
      if t.dst = 256 then sendGroup id t c
      else if !chunkReady c x t.dst t.next then c
      else if kMulti w then
        let sent := match x.tx.find? (fun g => g.dst == 256) with | some g => g.next | none => 0
        if t.det ∧ t.next < sent ∧ t.next < t.landed + max 1 (kInfl w) then
          setTx id { t with next := t.next + 1 } (sendChunk id 0x23 t.dst t.next c)
        else c
      else if t.total ≤ t.next ∨ t.freed + kInfl w ≤ t.next then c
      else if kOp w = 4 then
        let before := x.tx.takeWhile (fun y => y.dst != t.dst)
        if before.any (fun y => decide (y.next < y.total)) then c
        else setTx id { t with next := t.next + 1 } (sendChunk id 0x20 t.dst t.next c)
      else if !forwardable x t.next then c
      else if !forwardOk c x t.next then foundCause id 2 c
      else setTx id { t with next := t.next + 1 } (sendChunk id 0x20 t.dst t.next c)

/-- The receivers that hold a full window back (R300). -/
def slowOnes (tx : List TxStream) (win next : Nat) : List TxStream :=
  tx.filter (fun t => t.dst != 256 && !t.det && decide (t.landed + win ≤ next))
/-- What every detach brings: the count, DETACH_LAST, IRQ_STS bit 6 and a CE. -/
def noteDetach (id rank : Nat) (c : Chip) : Chip :=
  ce pgLrt 15 rank id (irq pgLrt 6 { c.bumpRg (ra pgLrt 0x228) 1 with detachLast := rank + 2 ^ 8 * id })
/-- Rank 0 detaches a receiver and tells it from which chunk it is sent REPLAY (R300). -/
def detachOne (id : Nat) (c : Chip) (t : TxStream) : Chip :=
  noteDetach id t.dst (sendCtl id 0x26 t.dst 0 0 t.landed 0 (setTx id { t with det := true, next := t.landed } c))

/-! ### The query of a decode ring (R265, R300 to R302) -/

/-- Chunk of the query stream: that of the ring's collective, whole where none is armed (log 27). -/
def qChunk (c : Chip) (r : Ring) : Nat :=
  let k := c.coll (rColl r.words)
  if k.st = 0 then max 1 (rQbytes r.words) else kChunk k.words
def qTotal (c : Chip) (r : Ring) : Nat := ceilDiv (rQbytes r.words) (qChunk c r)
/-- Run and attempt of the merge that the query belongs to. -/
def qRun (c : Chip) (r : Ring) : Nat :=
  let k := c.coll (rColl r.words)
  if k.st = 1 then (k.run + 1) % 2 ^ 32 else k.run
def qAttempt (c : Chip) (r : Ring) : Nat :=
  let k := c.coll (rColl r.words)
  if k.st = 1 then 0 else k.attempt
/-- The merge's context with the query's streams in place of its own. -/
def qView (c : Chip) (r : Ring) : Coll := { c.coll (rColl r.words) with tx := r.qtx }
/-- A cause that the query meets: the merge's, or kept until that begins. -/
def queryFail (x cause : Nat) (c : Chip) : Chip :=
  let r := c.ring x
  let id := rColl r.words
  if (c.coll id).ring = some x then foundCause id cause c
  else c.setRing x { r with qBad := some (r.qBad.getD cause) }

/-- One chunk of the query, as QUERY to the group or as REPLAY to a member. -/
def querySendChunk (x kind dst k : Nat) (l : List Byte) (c : Chip) : Chip :=
  let r := c.ring x
  let n := max 1 (ceilDiv l.length 16384)
  let ck := (r.qCks.lookup k).getD (crc32 l)
  forEach (List.range n) (fun i q =>
    sendPkt { dest := if dst = 256 then rMc r.words else memberPos c r.words dst, mcast := dst == 256, kind := kind, cls := 0
              due := if kind = 0x16 then 0xFFFFFFFF else (r.start + r.stepBeats) % 2 ^ 32
              tag := if kind = 0x16 then rId r.words + 2 ^ 16 * (r.step % 65536) else r.member
              body := collHdr (rColl r.words) (qAttempt c r) i (b2n (i + 1 == n)) 0 0 0 (qRun c r) k ck ++
                (l.drop (16384 * i)).take 16384 } q)
    (c.setRing x { r with qCks := (k, ck) :: r.qCks.filter (fun p => p.1 != k) })
/-- A control packet of the query stream to a member. -/
def queryCtl (x kind dst chunk ck : Nat) (c : Chip) : Chip :=
  let r := c.ring x
  sendPkt { dest := memberPos c r.words dst, kind := kind, tag := r.member
            body := collHdr (rColl r.words) (qAttempt c r) 0 0 0 0 0 (qRun c r) chunk ck } c
/-- Chunk k for a replay: from the window while that holds it, else from QSRC. -/
def queryBytes (c : Chip) (r : Ring) (next k : Nat) : RdAns :=
  let q := qView c r
  let n := min (qChunk c r) (rQbytes r.words - k * qChunk c r)
  c.tasRead (if q.st ≠ 0 ∧ next ≤ k + kWin q.words then winAddr q k else cacheBase 0 + rQsrc r.words + k * qChunk c r) n
def setQtx (x : Nat) (t : TxStream) (c : Chip) : Chip :=
  let r := c.ring x
  c.setRing x { r with qtx := r.qtx.map (fun y => if y.dst = t.dst then t else y) }

/-- The query stream as far as it goes: the group's next chunks while the window is open, then the replays of detached
members, at most INFLIGHT outstanding; and since when the window has been full. -/
def queryTurn (x : Nat) : Nat → Chip → Chip
  | 0, c => c
  | f + 1, c =>
    let r := c.ring x
    let q := qView c r
    match r.qtx.find? (fun t => t.dst == 256) with
    | none => c
    | some g =>
      let open_ := q.st == 0 || windowOpen q g
      if g.next < g.total ∧ open_ = true then
        match c.tasRead (cacheBase 0 + rQsrc r.words + g.next * qChunk c r) (min (qChunk c r) (rQbytes r.words - g.next * qChunk c r)) with
        | .ok l =>
          let c1 := if q.st = 0 then c else c.store (winAddr q g.next) l
          queryTurn x f (setQtx x { g with next := g.next + 1 } (querySendChunk x 0x16 256 g.next l c1))
        | _ => queryFail x 3 c
      else
        match r.qtx.find? (fun t => t.dst != 256 && t.det && decide (t.next < g.next ∧ t.next < t.landed + max 1 (kInfl q.words))) with
        | some t =>
          match queryBytes c r g.next t.next with
          | .ok l => queryTurn x f (setQtx x { t with next := t.next + 1 } (querySendChunk x 0x23 t.dst t.next l c))
          | _ => queryFail x 3 c
        | none =>
          c.setRing x { r with qFull := if g.next < g.total ∧ open_ = false then some (r.qFull.getD c.beat) else none }

/-- Store chunk k of the query rows in every cluster cache. -/
def queryStore (c0 : Chip) (r : Ring) (k : Nat) (l : List Byte) (c : Chip) : Chip :=
  let o := rQdst r.words + k * qChunk c0 r
  forEach (List.range 24) (fun cl q => q.store (cacheBase cl + o) (l.take (0x800000 - o))) c
/-- The rows are all here: QARR of every cluster (R265). -/
def queryHere (x : Nat) (c : Chip) : Chip :=
  let r := c.ring x
  forEach (List.range 24) (fun cl k => (addFlag cl (rQarr r.words) 1 k).getD k) (c.setRing x { r with qDone := true })

/-- DETACH_TIMEOUT of the query stream. -/
def queryDetach (x : Nat) (c : Chip) : Chip :=
  let r := c.ring x
  let q := qView c r
  match r.qFull, r.qtx.find? (fun t => t.dst == 256) with
  | some b, some g =>
    if b + kDetach q.words ≤ c.beat then
      queryTurn x 5000 ((slowOnes r.qtx (kWin q.words) g.next).foldl (fun k t =>
        noteDetach (rColl r.words) t.dst (queryCtl x 0x26 t.dst t.landed 0 (setQtx x { t with det := true, next := t.landed } k))) c)
    else c
  | _, _ => c

/-- DETACH_TIMEOUT (R300): of the context's multicast, and of the query of its ring. -/
def detachTimeout (id : Nat) (c : Chip) : Chip :=
  let x := c.coll id
  let c1 := match x.fullAt, x.tx.find? (fun t => t.dst == 256) with
    | some b, some g =>
      if x.st = 2 ∧ b + kDetach x.words ≤ c.beat then
        noteWindow id ((slowOnes x.tx (kWin x.words) g.next).foldl (detachOne id) c)
      else c
    | _, _ => c
  match queryRing c1 id with
  | some r => queryDetach r c1
  | none => c1

/-! ### Receiving (R295 to R302) -/

/-- How a packet's run and attempt stand to the context's (R295, R305): it is for the run at hand, of the past,
or of the future. -/
inductive Era where
  | now | past | later
  deriving DecidableEq, Repr

def eraOf (x : Coll) (p : Packet) : Era :=
  if hRun p = x.run then
    (if hAttempt p = x.attempt then (if x.st = 4 then .later else if x.st = 1 then .past else .now)
     else if hAttempt p < x.attempt then .past else .later)
  else if serialLt (hRun p) x.run then .past else .later

/-- Act on a collective packet of the run at hand; one of the past is discarded, one of the future waits and
makes a running member abort first (R305). An ABORT of the next run acts on a member that has not begun it yet. -/
def collPkt (p : Packet) (f : Nat → Coll → Chip → Chip) (c : Chip) : Chip :=
  let id := hId p
  let x := c.coll id
  if p.body.length < 16 ∨ x.st = 0 ∨ x.st = 5 then takePkt p c
  else
    match eraOf x p with
    | .past =>
      let c1 := takePkt p c
      if p.kind = 0x28 ∧ x.rank = 0 ∧ x.st = 1 ∧ hRun p = x.run then ce pgLrt 13 (hCause p) id c1 else c1
    | .later =>
      if x.st = 2 ∨ x.st = 3 then abortRun id x.cause c
      else if p.kind = 0x2A ∧ x.st = 1 ∧ hRun p = (x.run + 1) % 2 ^ 32 then
        let y : Coll := { x with st := 2, run := hRun p, attempt := hAttempt p, detached := false, out := [] }
        f id y ((takePkt p c).setColl id y)
      else c
    | .now => f id x (takePkt p c)

def setRx (id : Nat) (r : RxStream) (c : Chip) : Chip :=
  let x := c.coll id
  c.setColl id { x with rx := x.rx.map (fun y => if y.src = r.src then r else y) }
def getRx (x : Coll) (src : Nat) : Option RxStream := x.rx.find? (fun r => r.src == src)

/-- RACK: how many chunks have landed and how many slots are freed (R296). -/
def sendRack (id src : Nat) (c : Chip) : Chip :=
  match getRx (c.coll id) src with
  | some r => sendCtl id 0x24 src 0 0 (firstGap 0 r.landed) (firstGap 0 r.freed) c
  | none => c

/-- Add one part of a chunk to what has come; answers the whole chunk with its last part. -/
def assemble (r : RxStream) (p : Packet) : RxStream × Option (List Byte) :=
  let k := hChunk p
  let (n, have_) := (r.asm.lookup k).getD (0, [])
  let d := p.body.drop 16
  let rest := r.asm.filter (fun a => a.1 != k)
  if hPart p ≠ n then ({ r with asm := rest }, none)
  else if hLast p then ({ r with asm := rest }, some (have_ ++ d))
  else ({ r with asm := rest ++ [(k, n + 1, have_ ++ d)] }, none)

/-- A whole chunk k is here, checked: it lands (R293, R298, R299). -/
def landChunk (id src k : Nat) (l : List Byte) (c : Chip) : Chip :=
  let x := c.coll id
  let w := x.words
  match getRx x src with
  | none => c
  | some r0 =>
    let r : RxStream := { r0 with
      landed := insertAsc k r0.landed, cks := (k, crc32 l) :: r0.cks.filter (fun q => q.1 != k), bad := r0.bad.filter (· != k) }
    let direct (y : RxStream) : RxStream := { y with freed := insertAsc k y.freed }
    if kRouter w then
      let c1 := toDst id k (collDst c x + 65536 * k) l (setRx id (direct r) c)
      enterPieces id 2 (sendRack id src c1)
    else if kOp w = 5 then
      sendRack id src (toDst id k (kDst w + k * kChunk w) l (setRx id (direct r) c))
    else if kOp w = 4 then
      let n := r.bytes + l.length
      let last := if l.length < kChunk w ∨ kBytes w ≤ k * kChunk w + l.length then some k else r.last
      let fin := match last with | some z => decide (z < firstGap 0 r.landed) | none => false
      let q := tasWrite (kDst w + src * kBytes w + k * kChunk w) l (setRx id { direct r with bytes := n, last := last, done := fin } c)
      let c1 := if q.2 ≠ 0 then foundCause id 3 q.1 else q.1
      let c2 := if fin then blocksIn id (tasWrite (kCnt w + 4 * (x.parts + src)) (leBytes 4 n) c1).1 else c1
      sendRack id src c2
    else if k < x.nred then
      let c1 := setRx id r c
      let own := kSrc w + x.rxShard k * x.shard + k % x.nc * kChunk w
      match tasFetch own l.length c1 with
      | (c2, .ok o) =>
        let n := x.slotCore k
        let c3 := (c2.store (x.slotAddr k 0) l).store (x.slotAddr k 1) o
        sendRack id src ((addFlag (n / 8) (kLand w + n % 8) 1 c3).getD c3)
      | (c2, _) => foundCause id 3 c2
    else
      let s := x.rxShard k
      sendRack id src (toDst id (x.dstIdx s (k % x.nc)) (x.dstAddr s (k % x.nc)) l (setRx id (direct r) c))

/-- A part of a data chunk: with its last part it is checked against CK (R302). -/
def dataPart (p : Packet) (id : Nat) (x : Coll) (c : Chip) : Chip :=
  let src := hRank c x p
  match getRx x src with
  | none => c
  | some r =>
    let k := hChunk p
    if r.landed.contains k then c
    else
      let a := assemble r p
      let c1 := setRx id a.1 c
      match a.2 with
      | none => c1
      | some l =>
        if crc32 l = hCk p then landChunk id src k l c1
        else if r.bad.contains k then foundCause id 1 c1
        else
          let c2 := setRx id { a.1 with bad := k :: a.1.bad } c1
          ce pgLrt 8 k id (sendCtl id 0x25 src 0 0 k 0 (c2.bumpRg (ra pgLrt 0x224) 1))

/-- The member's own input of the same range is being refetched: the chunk waits for it (R298, R339). -/
def ownHeld (c : Chip) (x : Coll) (p : Packet) : Bool :=
  let k := hChunk p
  kRingSum x.words && decide (k < x.nred) && hLast p && x.st == 2 && eraOf x p == .now &&
  (match c.tasRead (kSrc x.words + x.rxShard k * x.shard + k % x.nc * kChunk x.words) (x.chunkLen (k % x.nc)) with
   | .wait _ => true
   | _ => false)

/-- DATA: a chunk that needs a staging slot waits until the slot's areas are free (R298). -/
def onData (p : Packet) (c : Chip) : Chip :=
  let x := c.coll (hId p)
  let k := hChunk p
  if ownHeld c x p then c else
  let full := match x.rx with
    | r :: _ => kRingSum x.words && decide (k < x.nred) && decide (firstGap 0 r.freed + kInfl x.words ≤ k)
    | [] => false
  if full && eraOf x p == .now && x.st == 2 then c else collPkt p (dataPart p) c

/-- MDATA: a detached receiver discards the multicast copies (R301). -/
def onMdata (p : Packet) (c : Chip) : Chip :=
  collPkt p (fun id x k => if x.detached then k else dataPart p id x k) c

/-- A part of a query chunk on a member of the ring: checked and landed as any chunk is (R300, R302). -/
def queryPart (x : Nat) (p : Packet) (c : Chip) : Chip :=
  let r := c.ring x
  let k := hChunk p
  let id := rColl r.words
  if r.qDone ∨ r.qrx.landed.contains k = true then c
  else
    let a := assemble r.qrx p
    let c1 := c.setRing x { r with qrx := a.1 }
    match a.2 with
    | none => c1
    | some l =>
      if crc32 l = hCk p then
        let n : RxStream := { a.1 with landed := insertAsc k a.1.landed, bad := a.1.bad.filter (· != k) }
        let c2 := queryStore c r k l (c1.setRing x { r with qrx := n })
        let got := firstGap 0 n.landed
        queryCtl x 0x24 r.owner got got (if qTotal c r ≤ got then queryHere x c2 else c2)
      else if a.1.bad.contains k then queryFail x 1 c1
      else
        let c2 := c1.setRing x { r with qrx := { a.1 with bad := k :: a.1.bad } }
        ce pgLrt 8 k id (queryCtl x 0x25 r.owner k 0 (c2.bumpRg (ra pgLrt 0x224) 1))

/-- The ring whose query stream a packet of a context belongs to: here the query has not all come, or it has not all landed
at the packet's sender; the packet is of the merge to come and of its attempt (log 27). -/
def queryOf (c : Chip) (p : Packet) : Option Nat :=
  match queryRing c (hId p) with
  | some x =>
    let r := c.ring x
    let open_ := if p.kind = 0x23 ∨ p.kind = 0x26 then !r.qDone
      else match memberAt c r.words p.src with
        | some m => r.qtx.any (fun t => t.dst == m && decide (t.landed < t.total))
        | none => false
    if open_ && hRun p == qRun c r && hAttempt p == qAttempt c r then some x else none
  | none => none

/-- RACK, REPAIR and DETACH of a query stream, and its REPLAY. -/
def queryMsg (x : Nat) (p : Packet) (c : Chip) : Chip :=
  let r := c.ring x
  let m := (memberAt c r.words p.src).getD 0
  let next := match r.qtx.find? (fun t => t.dst == 256) with | some g => g.next | none => 0
  match p.kind with
  | 0x23 => if r.qDet || r.qrx.bad.contains (hChunk p) then queryPart x p c else c
  | 0x24 =>
    match r.qtx.find? (fun t => t.dst == m) with
    | some t => queryTurn x 5000 (setQtx x { t with landed := max t.landed (hChunk p), freed := max t.freed (hCk p) } c)
    | none => c
  | 0x25 =>
    match queryBytes c r next (hChunk p) with
    | .ok l => querySendChunk x 0x23 m (hChunk p) l c
    | _ => queryFail x 3 c
  | _ => c.setRing x { r with qDet := true, qrx := { r.qrx with asm := [] } }

/-- A packet of a query stream goes to its ring, any other to its run. -/
def orQuery (f : Packet → Chip → Chip) (p : Packet) (c : Chip) : Chip :=
  match queryOf c p with
  | some x => queryMsg x p (takePkt p c)
  | none => f p c

/-- COLL_REPLAY: for a detached receiver, or for a chunk under repair. -/
def onReplay (p : Packet) (c : Chip) : Chip :=
  if ownHeld c (c.coll (hId p)) p then c else
  orQuery (fun p => collPkt p (fun id x k =>
    match getRx x (hRank c x p) with
    | some r => if x.detached || r.bad.contains (hChunk p) then dataPart p id x k else k
    | none => k)) p c

/-- A child's piece waits: its first join finds no reduction memory beside the whole pieces of an earlier DUE (R268). -/
def rpartWaits (c : Chip) (p : Packet) : Bool :=
  let x := c.coll (hId p)
  let size := 2 * x.pieceLen (hChunk p)
  let first := match x.pieces.find? (fun q => q.idx == hChunk p && !q.sent) with | some q => q.lam == 1 | none => false
  let before := c.delivered.countP (fun q => (q.kind == 0x22 || q.kind == 0x17) && hLast q && serialLt q.due p.due)
  hLast p && first && x.st == 2 && eraOf x p == .now && decide (rmemFree c < size * (before + 1))

/-- RPART and PARTIAL: a piece of a child, which joins as far as it can (R266). -/
def onRpart (p : Packet) (c : Chip) : Chip :=
  if rpartWaits c p then c
  else
    collPkt p (fun id x k =>
      let src := hRank c x p
      let key := src * 2 ^ 16 + hChunk p
      let r0 : RxStream := (getRx x (1000 + src)).getD { src := 1000 + src }
      let a := assemble r0 p
      let y := { x with rx := x.rx.filter (fun r => r.src != 1000 + src) ++ [a.1] }
      let k1 := k.setColl id y
      match a.2 with
      | none => k1
      | some l =>
        if crc32 l ≠ hCk p then
          if a.1.bad.contains key then foundCause id 1 k1
          else
            let k2 := k1.setColl id { y with rx := y.rx.map (fun r => if r.src = 1000 + src then { r with bad := key :: r.bad } else r) }
            ce pgLrt 8 (hChunk p) id (sendCtl id 0x25 src 0 0 (hChunk p) 0 (k2.bumpRg (ra pgLrt 0x224) 1))
        else advancePiece id (hChunk p) 16 (k1.setColl id { y with kids := y.kids ++ [(src, hChunk p, hClean p, l)] })) c

/-- REDUCE_READY: a core has formed its lowest chunk's sum (R298). -/
def reduceReady (id n : Nat) (c : Chip) : Chip :=
  let x := c.coll id
  let w := x.words
  let f := flagReg (n / 8) (kReady w + n % 8)
  match x.rx with
  | [] => c
  | r :: _ =>
    match r.landed.find? (fun k => decide (k < x.nred) && !x.reduced.contains k && x.slotCore k == n) with
    | none => c
    | some k =>
      if x.st ≠ 2 ∨ !kRingSum w ∨ c.rg f = 0 then c
      else
        let c1 := c.setRg f (c.rg f - 1)
        let ci := k % x.nc
        let last := decide (x.nred ≤ k + x.nc)
        let c2 := c1.setColl id { x with reduced := k :: x.reduced }
        let c3 := if last then
            match tasFetch (x.slotAddr k 2) (x.chunkLen ci) c2 with
            | (q, .ok l) => toDst id (x.dstIdx x.rank ci) (x.dstAddr x.rank ci) l q
            | (q, _) => foundCause id 3 q
          else c2
        if last ∧ kOp w = 2 then
          match getRx (c3.coll id) r.src with
          | some y => sendRack id r.src (setRx id { y with freed := insertAsc k y.freed } c3)
          | none => c3
        else c3

/-- RACK: the sender's counts; OUT areas that the successor's landed count covers are free (R296, R298). -/
def onRack : Packet → Chip → Chip := orQuery (fun p c =>
  collPkt p (fun id x k =>
    let src := hRank c x p
    match x.tx.find? (fun t => t.dst == src) with
    | none => k
    | some t =>
      let t1 := { t with landed := max t.landed (hChunk p), freed := max t.freed (hCk p) }
      let k1 := setTx id t1 k
      if kRingSum x.words then
        match (k1.coll id).rx with
        | r :: _ =>
          let now := x.reduced.filter (fun j => !r.freed.contains j && decide (j + x.nc < t1.landed))
          if now = [] then k1
          else sendRack id r.src (setRx id { r with freed := now.foldl (fun l j => insertAsc j l) r.freed } k1)
        | [] => k1
      else routerCommit id (noteWindow id k1)) c)

/-- REPAIR: the chunk is sent again as REPLAY, once its bytes can be read (R302, R339). -/
def onRepair : Packet → Chip → Chip := orQuery (fun p c =>
  let y := c.coll (hId p)
  let dst := hRank c y p
  if y.st == 2 && eraOf y p == .now && y.tx.any (fun t => t.dst == dst) && !chunkReady c y dst (hChunk p) then c else
  collPkt p (fun id x k =>
    let src := hRank c x p
    if x.tx.any (fun t => t.dst == src) then sendChunk id 0x23 src (hChunk p) k
    else
      match x.pieces.find? (fun q => q.idx == hChunk p && q.sent) with
      | some q => sendData id (if x.ring.isSome then 0x17 else 0x22) src q.idx (crc32 q.acc) (b2n q.clean) q.acc k
      | none => k) c)

/-- DETACH (R301). -/
def onDetach : Packet → Chip → Chip := orQuery (fun p c =>
  collPkt p (fun id x k => k.setColl id { x with detached := true, rx := x.rx.map (fun r => { r with asm := [] }) }) c)

/-! ### Votes (R304) -/

/-- The member's part is complete. -/
def partDone (x : Coll) : Bool :=
  let w := x.words
  match kOp w with
  | 1 | 2 | 3 =>
    (match x.rx with | r :: _ => decide (x.ringTotal ≤ firstGap 0 r.landed) | [] => false) &&
    (List.range x.nred).all (x.reduced.contains ·) &&
    x.tx.all (fun t => decide (t.total ≤ t.next ∧ t.total ≤ t.landed)) && x.dstCk.length == x.need
  | 4 => x.copied && x.rx.all (·.done) && x.tx.all (fun t => decide (t.total ≤ t.next ∧ t.total ≤ t.landed))
  | 5 => x.dstCk.length == x.need && x.tx.all (fun t => t.dst == 256 || decide (t.total ≤ t.landed))
  | _ => true

/-- Rank 0 has taken a vote. -/
def takeVote (id rank dig : Nat) (c : Chip) : Chip :=
  let x := c.coll id
  let vs := (rank, dig) :: x.votes.filter (fun v => v.1 != rank)
  let c1 := c.setColl id { x with votes := vs }
  if vs.length < x.parts then c1
  else if vs.all (fun v => v.2 == dig) then sendCommit id c1
  else decideAbort id 6 false c1

/-- VOTE_SEND; an own copy that waited for a read is tried first. -/
def voteSend (id : Nat) (c0 : Chip) : Chip :=
  let c := if (c0.coll id).st = 2 ∧ (c0.coll id).asked = false then ownCopies id c0 else c0
  let x := c.coll id
  if x.st = 2 ∧ kRouter x.words = false ∧ x.asked = false ∧ partDone x = true then
    let c1 := c.setColl id { x with st := 3 }
    if x.rank = 0 then takeVote id 0 (digest x) c1 else sendCtl id 0x27 0 0 0 0 (digest x) c1
  else c

/-- VOTE. -/
def onVote (p : Packet) (c : Chip) : Chip :=
  collPkt p (fun id x k => if x.rank = 0 then takeVote id (hRank c x p) (hCk p) k else k) c

/-- ABORT_REQ. -/
def onAbortReq (p : Packet) (c : Chip) : Chip :=
  collPkt p (fun id x k => if x.rank = 0 then decideAbort id (hCause p) (hFail p) k else k) c

/-- COMMIT. -/
def onCommit (p : Packet) (c : Chip) : Chip := collPkt p (fun id _ k => commitRun id k) c

/-- ABORT. -/
def onAbort (p : Packet) (c : Chip) : Chip :=
  collPkt p (fun id _ k => if hFail p then failRun id (hCause p) k else abortRun id (hCause p) k) c

/-- RUN_TIMEOUT (R303). -/
def runTimeout (id : Nat) (c : Chip) : Chip :=
  let x := c.coll id
  if (x.st = 2 ∨ x.st = 3) ∧ x.start + kTime x.words ≤ c.beat then foundCause id 7 c else c

/-- RUN_FAIL (R306). -/
def runFail (id : Nat) (c : Chip) : Chip :=
  let x := c.coll id
  if (x.st = 2 ∨ x.st = 3) ∧ x.start + 2 * kTime x.words ≤ c.beat then failRun id 7 c else c

/-- A port left UP with packets lost: a run that lost packets of its own is to be aborted, its QUERY among them (R277, R303,
R308). -/
def collLost (l : List Packet) (c : Chip) : Chip :=
  l.foldl (fun k p =>
    let id := hId p
    let ofQuery := match queryRing k id with
      | some x => if p.src = k.posId ∧ (p.kind = 0x16 ∨ p.kind = 0x23) ∧ (k.ring x).qtx ≠ [] ∧ hRun p = qRun k (k.ring x) ∧
            hAttempt p = qAttempt k (k.ring x) then some x else none
      | none => none
    match ofQuery with
    | some x => queryFail x 5 k
    | none =>
    if p.src = k.posId ∧ (p.kind = 0x17 ∨ p.kind = 0x18 ∨ (0x20 ≤ p.kind ∧ p.kind ≤ 0x2A)) ∧
       hRun p = (k.coll id).run ∧ hAttempt p = (k.coll id).attempt then foundCause id 5 k else k) c

end Sys2Proof.Machine
end

