-- ==== Sys2Proof/Machine/Ring.lean ====
section
/-! DEFINITION. The ring circulation unit (R252 to R281): forming, step starts, done beats, block rotation,
query and merge, plans, extensions, stalls, holds and teardown. -/

namespace Sys2Proof.Machine

/-- The throttle level in force (R378). -/
def Chip.level (c : Chip) : Nat := max c.pwr.plan c.pwr.emerg
/-- Contexts of a step group that are not FREE and not DISBANDING, and those that are RUNNING. -/
def groupRings (c : Chip) (g : Nat) : List Nat :=
  (List.range 32).filter (fun x => (c.ring x).st != 0 && (c.ring x).st != 6 && rGroup (c.ring x).words == g)
def runRings (c : Chip) (g : Nat) : List Nat := (groupRings c g).filter (fun x => (c.ring x).st == 3)
/-- Some context is RUNNING (R16). -/
def anyRunning (c : Chip) : Bool := (List.range 32).any (fun x => (c.ring x).st == 3)
/-- The context of a RING_ID. -/
def ringOf (c : Chip) (id : Nat) : Option Nat :=
  (List.range 32).find? (fun x => (c.ring x).st != 0 && rId (c.ring x).words == id)
/-- The group step at hand: the latest that a context RUNNING, HELD or STALLED has reached; one left STALLED behind does not
hold the others (R256, R259, R275). -/
def groupStep (c : Chip) (g : Nat) : Option Nat :=
  (((groupRings c g).filter (fun x => decide (3 ≤ (c.ring x).st))).map (fun x => (c.ring x).gstep)).foldl (fun a k =>
    match a with
    | some b => some (if serialLt (b % 2 ^ 32) (k % 2 ^ 32) then k else b)
    | none => some k) none
/-- Reader id of a ring's latch (R161). -/
def ringWho (x : Nat) : Nat := 0x3000 + x
def updRing (x : Nat) (f : Ring → Ring) (c : Chip) : Chip := c.setRing x (f (c.ring x))
/-- b is later than a as a 32-bit step index. -/
def stepLt (a b : Nat) : Bool := serialLt (a % 2 ^ 32) (b % 2 ^ 32)
def ringReg (off : Nat) : Nat := ra pgRcu off

/-! ### Messages (R254) -/

/-- Send a ring packet to member `dst`, 256 for all. What a port loss sends again is kept (R277). -/
def ringSend (x kind dst cls hi due : Nat) (body : List Byte) (c : Chip) : Chip :=
  let r := c.ring x
  let p : Packet :=
    { dest := if dst = 256 then rMc r.words else memberPos c r.words (dst % rL r.words), mcast := dst == 256, kind := kind
      due := due, tag := rId r.words + 2 ^ 16 * (hi % 65536), cls := cls, body := body }
  let keep := [0x14, 0x15, 0x19, 0x1A, 0x1B].contains kind
  sendPkt p (if keep then c.setRing x { r with recent := r.recent ++ [p] } else c)

/-- A packet for no context here is discarded with a CE. -/
def ringDiscard (p : Packet) (c : Chip) : Chip := ce pgRcu 11 p.kind p.src (takePkt p c)
/-- Act on a ring packet with its context; a DISBANDING ring takes no part. -/
def ringPkt (p : Packet) (f : Nat → Ring → Chip → Chip) (c : Chip) : Chip :=
  match ringOf c (fld 15 0 p.tag) with
  | none => ringDiscard p c
  | some x => if (c.ring x).st = 6 then takePkt p c else f x (c.ring x) (takePkt p c)

/-- Sends again what a lost port may have lost of these rings (R277). -/
def ringResend (l : List Nat) (c : Chip) : Chip :=
  forEach l (fun x k => (k.ring x).recent.foldl (fun q p => sendPkt p q) k) c
/-- Rings whose packets leave by port p: to the successor, or by the members' group. -/
def ringsOn (c : Chip) (p : Nat) : List Nat :=
  (List.range 32).filter (fun x =>
    let r := c.ring x
    r.st != 0 && r.st != 6 &&
      ((c.egress (memberPos c r.words ((r.member + 1) % rL r.words)) 1).2 == p ||
       (c.mcPorts (c.grp (rMc r.words)) 6).1.contains p))

/-! ### Disband (R278) -/

/-- A ring's merge that has not committed is discarded as on an abort: its cores return to the checkpoint (R278, R305). -/
def dropMerge (x : Nat) (c : Chip) : Chip :=
  let id := rColl (c.ring x).words
  let k := c.coll id
  if k.ring = some x ∧ 2 ≤ k.st ∧ k.st ≤ 4 then
    retireProv id false (forEach (collCores c id) (fun n q => abortCore n id q)
      (c.setColl id { clearRun k with st := 1, ring := none }))
  else c

/-- Disband at once; cause 9 came from a DISBAND message and goes no further. -/
def dissolve (x cause : Nat) (c : Chip) : Chip :=
  let r := c.ring x
  let c1 := if cause = 9 then c else ringSend x 0x13 256 0 r.step 0xFFFFFFFF (leBytes 4 (if cause = 0 then 9 else cause)) c
  let c2 := unlatch r.slot (ringWho x) (dropMerge x c1)
  let c3 := if r.st = 1 then c2 else c2.setSlot r.slot { c2.slot r.slot with inRing := false }
  ce pgRcu 12 cause x (updRing x (fun y => { y with
    st := 6, cause := cause, qtx := [], qrx := {}, qFull := none, recent := [], bufs := [{}, {}], plans := [], dones := [], disband := none, resume := none }) c3)

/-- Disband: a RUNNING ring at its next step start. -/
def disbandRing (x cause : Nat) (c : Chip) : Chip :=
  let r := c.ring x
  if r.st = 3 then c.setRing x { r with disband := some (r.disband.getD cause) }
  else if r.st = 0 ∨ r.st = 6 then c else dissolve x cause c

/-- RING_DISBAND: the RING_CMD command. -/
def ringDisband (x : Nat) (c : Chip) : Chip :=
  if (c.ring x).st = 0 ∨ (c.ring x).st = 6 then { c with rcuResult := 1 }
  else { disbandRing x 0 c with rcuResult := 0 }

/-- A packet of the ring waits in some queue of the module. -/
def ringQueued (c : Chip) (id : Nat) : Bool :=
  (List.range 6).any (fun p =>
    let l := c.link p
    (l.queue ++ l.cur.filterMap (fun e => e.map (·.1)) ++ l.unacked.map (·.2)).any (fun q =>
      let k := at_ q.bytes 3 1
      decide (0x10 ≤ k ∧ k ≤ 0x1B) && at_ q.bytes 24 2 == id))

/-- DISBAND_COMPLETE. -/
def disbandDone (x : Nat) (c : Chip) : Chip :=
  let r := c.ring x
  if r.st = 6 ∧ ringQueued c (rId r.words) = false then
    irq pgRcu 1 (c.setRing x { cause := r.cause, missBeats := r.missBeats, missMember := r.missMember })
  else c

/-- Put a ring into STALLED. -/
def stallRing (x cause : Nat) (c : Chip) : Chip :=
  let r := c.ring x
  let c1 := irq pgRcu 3 (c.setRing x { r with st := 5, cause := cause, phase := 0 })
  match r.disband with | some d => dissolve x d c1 | none => c1
/-- Stall every RUNNING ring of a group. -/
def stallGroup (g cause : Nat) (c : Chip) : Chip := forEach (runRings c g) (fun x k => stallRing x cause k) c

/-! ### Forming (R253, R255, R256) -/

/-- Malformed: a reserved value or bit, a field of the other mode, or a length or region out of range. -/
def ringMalformed (w : List Nat) (slotWords : List Nat) : Bool :=
  let z (hi lo k : Nat) : Bool := fld hi lo (wd w k) != 0
  let dec := rDecode w
  z 23 17 0 || z 31 29 0 || z 7 5 1 || bit 11 (wd w 1) || rL w == 1 || decide (rStep w < 64 ∨ rStall w < 16) ||
  z 31 16 3 || z 31 22 5 || z 7 6 7 || z 31 27 7 || rDoneAmt w == 0 || decide (255 < rMc w) ||
  decide (4032 < rStep w + rMaxExt w + rStall w) || (w.drop 28).any (· != 0) ||
  (if dec then
    ((w.drop 14).take 5).any (· != 0) || z 7 6 19 || z 15 14 19 || z 23 22 19 || z 31 30 19 || z 31 24 20 || z 31 24 21 ||
    z 31 17 22 || z 31 24 23 || z 31 24 24 || z 31 16 25 || z 31 8 26 || z 31 8 27 ||
    rQbytes w == 0 || decide (65536 < rQbytes w) || rColl w == 0 || rMrows w == 0 || decide (rL w ≤ rOwner0 w) ||
    (slotWords != [] && decide (65536 < 64 + rMrows w * (32 + 4 * dDim slotWords)))
   else
    ((w.drop 19).take 9).any (· != 0) || bit 7 (wd w 14) || z 31 16 14 || z 31 20 15 || z 31 13 16 || z 31 24 17 || z 31 24 18 ||
    rRpl w == 0 || rBlkPages w == 0 || decide (4096 < rBlkPages w) || decide (0x800000 < rBt w + 64 * rBlkPages w) ||
    (slotWords != [] &&
      decide (0x800000 < rBuf w + 2 * ceilDiv (rBlkPages w) 24 * (ceilDiv (usedSize slotWords) 4096 * 4096))))

/-- The checks of FORM: words and cause. -/
def formCheck (c : Chip) : List Nat × Nat :=
  let a := c.rg64 (ringReg 0x104)
  match (if a % 128 = 0 ∧ a + 128 ≤ t0Size then c.tasRead a 128 else .access) with
  | .ok l =>
    let w := leWords 32 l
    let s := c.slot (rSlot w)
    let len := c.ext 0 * c.ry
    let own := (List.range len).find? (fun i => ringPos c w i == c.posId)
    let live_ := (List.range 32).filter (fun x => (c.ring x).st != 0)
    let same := live_.filter (fun x => rGroup (c.ring x).words == rGroup w)
    let differs (x : Nat) : Bool :=
      let r := c.ring x
      rDecode r.words != rDecode w || r.stepBeats != rStep w || rMaxExt r.words != rMaxExt w || rStall r.words != rStall w ||
      (r.words.drop 8).take 6 != (w.drop 8).take 6 || rDoneFlag r.words != rDoneFlag w || rDoneAmt r.words != rDoneAmt w
    (w,
      if ringMalformed w (if s.st = 0 then [] else s.words) || c.grpBad (rMc w) then 1
      else if s.st ≠ 2 ∨ s.inRing = true ∨ live_.any (fun x => (c.ring x).slot == rSlot w) = true ∨ dMembers s.words ≠ rL w ∨
          (match own with | some i => i != rI0 w + dMember s.words | none => false) = true then 2
      else if own ≠ some (rI0 w + dMember s.words) ∨ len < rI0 w + rL w then 3
      else if same.any differs = true ∨ (rDecode w = false ∧ same ≠ []) then 4
      else if c.cad.st ≠ 1 ∧ c.cad.st ≠ 3 then 8
      else 0)
  | _ => ([], 1)

/-- Bytes that JOIN carries: the descriptor's first 28, SEQ_UID and MEMBER. -/
def joinBody (r : Ring) : List Byte := (r.words.take 7).flatMap (leBytes 4) ++ leBytes 4 r.uid ++ leBytes 4 r.member
/-- JOIN to both neighbours. -/
def sendJoins (x : Nat) (c : Chip) : Chip :=
  let r := c.ring x
  let l := rL r.words
  let who := if l = 2 then [1 - r.member] else [(r.member + l - 1) % l, (r.member + 1) % l]
  forEach who (fun m k => ringSend x 0x10 m 0 r.step 0xFFFFFFFF (joinBody r) k)
    (c.setRing x { r with joinAt := c.beat })

/-- FORM goes on once both JOINs match (R255 step 3). -/
def formProgress (x : Nat) (c : Chip) : Chip :=
  let r := c.ring x
  if r.st = 1 ∧ r.joinP ∧ r.joinS ∧ r.formSent = false ∧ (r.member = 0 ∨ r.formHeld = true) then
    ringSend x 0x11 ((r.member + 1) % rL r.words) 0 r.step 0xFFFFFFFF [] (c.setRing x { r with formSent := true })
  else c

/-- A JOIN meets its FORM command. -/
def matchJoin (x src : Nat) (body : List Byte) (c : Chip) : Chip :=
  let r := c.ring x
  let l := rL r.words
  let m := at_ body 0x20 4
  let mine := joinBody r
  if r.st ≠ 1 then c
  else if body.take 16 = mine.take 16 ∧ at_ body 0x1C 4 = r.uid ∧ (m = (r.member + 1) % l ∨ m = (r.member + l - 1) % l) ∧
      memberPos c r.words m = src then
    formProgress x (c.setRing x { r with
      joinP := r.joinP || m == (r.member + l - 1) % l, joinS := r.joinS || m == (r.member + 1) % l })
  else disbandRing x 5 c

/-- FORM. -/
def formRing (x : Nat) (c : Chip) : Chip :=
  if (c.ring x).st ≠ 0 then { c with rcuResult := 1 }
  else
    let (w, bad) := formCheck c
    if bad ≠ 0 then irq pgRcu 1 { updRing x (fun r => { r with cause := bad }) c with rcuResult := 2 }
    else
      let s := c.slot (rSlot w)
      let k := (rK0 w + 2 ^ 32 - 1) % 2 ^ 32
      let r : Ring := { st := 1, words := w, uid := wd s.words 1, member := dMember s.words, slot := rSlot w, stepBeats := rStep w
                        formAt := c.beat, step := k, gstep := k, owner := rOwner0 w }
      let c1 := sendJoins x { c.setRing x r with rcuResult := 0 }
      let held_ := c1.joins.filter (fun j => j.ringId == rId w)
      held_.foldl (fun q j => matchJoin x j.src j.body q) { c1 with joins := c1.joins.filter (fun j => j.ringId != rId w) }

/-- JOIN received: matched, or held for a FORM command that has not come. -/
def onJoin (p : Packet) (c : Chip) : Chip :=
  let id := fld 15 0 p.tag
  let c1 := takePkt p c
  match ringOf c id with
  | some x => matchJoin x p.src p.body c1
  | none => { c1 with joins := c1.joins ++ [{ ringId := id, src := p.src, beat := c.beat, body := p.body }] }

/-- JOIN_RESEND. -/
def joinResend (x : Nat) (c : Chip) : Chip :=
  let r := c.ring x
  if r.st = 1 ∧ (r.joinP && r.joinS) = false ∧ r.joinAt + 64 ≤ c.beat then sendJoins x c else c

def Chip.formTime (c : Chip) : Nat := c.rg (ringReg 0x148)
/-- JOIN_HOLD_EXPIRE. -/
def joinExpire (id : Nat) (c : Chip) : Chip :=
  { c with joins := c.joins.filter (fun j => !(j.ringId == id && decide (j.beat + c.formTime ≤ c.beat))) }
/-- FORM_TIMEOUT. -/
def formLate (x : Nat) (c : Chip) : Chip :=
  let r := c.ring x
  if r.st = 1 ∧ r.formAt + c.formTime ≤ c.beat then disbandRing x 7 c else c

/-- FORM message: on member 0 it has come round, and GO or a late disband follows. A join of a group that nothing runs on
member 0 counts from step 0 (DESIGN CHOICE, log 27). -/
def onForm (p : Packet) (c : Chip) : Chip :=
  ringPkt p (fun x r k =>
    if r.st ≠ 1 then k
    else if r.member ≠ 0 then formProgress x (k.setRing x { r with formHeld := true })
    else if r.formSent = false ∨ r.goSent = true then k
    else
      let s := rS0 r.words
      if s ≠ 0 ∧ s < k.beat + rL r.words + 64 then disbandRing x 6 k
      else
        let g := groupStep k (rGroup r.words)
        let body := if s ≠ 0 then leBytes 4 0 ++ leBytes 8 s else leBytes 4 1 ++ leBytes 8 ((g.getD 0 + 2) % 2 ^ 32)
        ringSend x 0x12 1 0 r.step 0xFFFFFFFF body (k.setRing x { r with goSent := true })) c

/-- GO: the ring is FORMED (R255 step 5, R256). -/
def onGo (p : Packet) (c : Chip) : Chip :=
  ringPkt p (fun x r k =>
    if r.st ≠ 1 ∨ (r.member = 0 ∧ r.goSent = false) then k
    else
      let v := at_ p.body 4 8
      let join := at_ p.body 0 4 != 0
      let k1 := k.setRing x { r with st := 2, s0 := if join then 0 else v, joinStep := if join then some v else none }
      let k2 := irq pgRcu 0 (k1.setSlot r.slot { k1.slot r.slot with inRing := true })
      if r.member = 0 then k2 else ringSend x 0x12 ((r.member + 1) % rL r.words) 0 r.step 0xFFFFFFFF p.body k2) c

/-- DISBAND message: cause 0 stalls the ring (R274, R278). -/
def onDisband (p : Packet) (c : Chip) : Chip :=
  ringPkt p (fun x r k =>
    if at_ p.body 0 4 = 0 then (if r.st = 3 then stallRing x 7 k else k) else disbandRing x 9 k) c

/-! ### Extensions (R272) -/

def noteExt (x step beats : Nat) (c : Chip) : Chip :=
  updRing x (fun r => { r with exts := r.exts ++ [(step, min beats (rMaxExt r.words))] }) c
/-- X_k of the current step. -/
def Ring.ext (r : Ring) : Nat := ((r.exts.filter (fun e => e.1 == r.gstep)).map (·.2)).foldl max 0
/-- EXTEND for these rings at the level in force; cause 1 temperature, 2 current, 3 another group's throttle. -/
def extendRings (l : List Nat) (cause : Nat) (c : Chip) : Chip :=
  let lv := c.level
  if lv = 0 then c else
  forEach l (fun x k =>
    let r := k.ring x
    let left := r.start + r.stepBeats - k.beat
    let b := min (ceilDiv (left * lv) ((16 - lv) * 16) * 16) 65535
    noteExt x r.gstep b (ringSend x 0x1A 256 0 r.step 0xFFFFFFFF (leBytes 4 r.gstep ++ leBytes 4 (b + 2 ^ 16 * cause)) k)) c
/-- Cause that an emergency trigger gives (R272): temperature before current. -/
def Chip.emergCause (c : Chip) : Nat := if fld 1 0 c.pwr.trig ≠ 0 then 1 else 2
/-- Emergency throttle: EXTEND for every RUNNING ring (R272). -/
def extendAll (cause : Nat) (c : Chip) : Chip := extendRings ((List.range 32).filter (fun x => (c.ring x).st == 3)) cause c
/-- EMERG_LEVEL returns to 0 once the last trigger has cleared (R379). -/
def emergReturn (c : Chip) : Chip :=
  if c.pwr.returning then irq pgPwr 1 { c with pwr := { c.pwr with emerg := 0, returning := false } } else c
/-- EXTEND received. -/
def onExtend (p : Packet) (c : Chip) : Chip :=
  ringPkt p (fun x _ k => noteExt x (at_ p.body 0 4) (at_ p.body 4 2) k) c

/-! ### Plans (R269 to R271) -/

/-- RING_CMD PLAN. -/
def planCmd (x : Nat) (c : Chip) : Chip :=
  let r := c.ring x
  let arg := c.rg (ringReg 0x110)
  let t := c.rg (ringReg 0x10C)
  let d := (t + 2 ^ 32 - r.gstep % 2 ^ 32) % 2 ^ 32
  if r.st < 2 ∨ 5 < r.st ∨ fld 3 0 arg = 0 ∨ 4 < fld 3 0 arg then { c with rcuResult := 1 }
  else if d < 2 ∨ 2 ^ 31 ≤ d then { c with rcuResult := 3 }
  else
    let c1 := ringSend x 0x1B 256 0 r.step 0xFFFFFFFF (leBytes 4 t ++ leBytes 4 arg) c
    { updRing x (fun y => { y with plans := y.plans ++ [(t, fld 3 0 arg, fld 31 8 arg)] }) c1 with rcuResult := 0 }

/-- PLAN received: a repeat is ignored; one for a step that has started stalls the group. -/
def onPlan (p : Packet) (c : Chip) : Chip :=
  ringPkt p (fun x r k =>
    let t := at_ p.body 0 4
    let e := (t, at_ p.body 4 1 % 16, at_ p.body 5 3)
    if r.plans.contains e then k
    else if 3 ≤ r.st && !stepLt r.gstep t then stallGroup (rGroup r.words) 10 k
    else k.setRing x { r with plans := r.plans ++ [e] }) c

/-- The work of a RUNNING ring's step has not ended, so that a deeper level stretches it past its boundary (R270; DEDUCED: the
work that is left is taken to reach to the boundary, log 27). -/
def passesBoundary (c : Chip) (y : Nat) : Bool :=
  let r := c.ring y
  r.st == 3 && !r.worked && decide (c.beat < r.start + r.stepBeats)

/-- One PLAN at its step start. A SWITCH to a slot that another context serves fails as one that is in a ring (R19; DEDUCED,
log 27). -/
def applyPlan (x op arg : Nat) (c : Chip) : Chip :=
  let r := c.ring x
  let g := rGroup r.words
  if r.st ≠ 3 then c
  else match op with
  | 1 =>
    let lv := c.level
    let c1 := { c with pwr := { c.pwr with plan := arg % 16 } }
    if lv < c1.level then extendRings ((List.range 32).filter (fun y => rGroup (c.ring y).words != g && passesBoundary c y)) 3 c1
    else c1
  | 2 =>
    let v := arg % 65536
    if 64 ≤ v ∧ v + rMaxExt r.words + rStall r.words ≤ 4032 then
      forEach (groupRings c g) (fun y k => updRing y (fun q => { q with stepBeats := v }) k) c
    else ce pgRcu 11 0x1B v c
  | 3 =>
    let n := arg % 32
    let old := c.slot r.slot
    let new := c.slot n
    let taken := (List.range 32).any (fun y => (c.ring y).st != 0 && (c.ring y).slot == n)
    if new.st = 2 ∧ new.inRing = false ∧ taken = false ∧ dMembers new.words = dMembers old.words ∧ dMember new.words = dMember old.words then
      let c1 := unlatch r.slot (ringWho x) c
      let c2 := c1.setSlot r.slot { c1.slot r.slot with inRing := false }
      let c3 := c2.setSlot n { c2.slot n with inRing := true }
      latchSlot n (ringWho x) (c3.setRing x { r with slot := n })
    else stallGroup g 11 c
  | _ => dissolve x 0 c

/-! ### Prefill rotation (R262 to R264) -/

/-- j, the step within its round, and the layer, of the ring step index k. -/
def rotJ (r : Ring) (k : Nat) : Nat := (k + 2 ^ 32 - rK0 r.words) % 2 ^ 32 % rL r.words
def rotLayer (r : Ring) (k : Nat) : Nat :=
  rLayer0 r.words + (k + 2 ^ 32 - rK0 r.words) % 2 ^ 32 / rL r.words / max 1 (rRpl r.words)
def rotU (w : List Nat) : Nat := ceilDiv (usedSize w) 4096 * 4096
/-- Address of byte `o` of the n-th carried page of buffer b. -/
def rotAddr (r : Ring) (slotWords : List Nat) (b n o : Nat) : Nat :=
  cacheBase (n % 24) + rBuf r.words + (b * ceilDiv (rBlkPages r.words) 24 + n / 24) * rotU slotWords + o
/-- Store bytes of the block data from `off` on: a chunk may span two pages. -/
def rotStore (r : Ring) (slotWords : List Nat) (b : Nat) : Nat → Nat → List Byte → Chip → Chip
  | 0, _, _, c => c
  | f + 1, off, l, c =>
    let u := max 1 (usedSize slotWords)
    let n := u - off % u
    if l = [] then c else rotStore r slotWords b f (off + n) (l.drop n) (c.store (rotAddr r slotWords b (off / u) (off % u)) (l.take n))

/-- The latch of a ring on its slot. -/
def ringLatch (c : Chip) (x : Nat) : Latch :=
  ((c.slot (c.ring x).slot).latches.find? (fun l => l.who == ringWho x)).getD {}

/-- Tokens and data of the member's own block; none where a page is poisoned. -/
def ownBlock (c : Chip) (x layer : Nat) : Option (List Nat × List (Nat × Nat)) :=
  let r := c.ring x
  let s := c.slot r.slot
  let l := ringLatch c x
  let t := dTpp s.words
  let len := l.lens.getD layer 0
  let ps := (List.range (rBlkPages r.words)).map (fun i =>
    let p := rBlkFirst r.words + i
    if len ≤ p * t then some (0, none) else
    let a := pteAddr c l.root layer p
    let e := c.le a 8
    if (c.poisonIn a 8).isSome then none
    else if !eValid e then some (0, none)
    else if eBad e || ePois e || c.frameBad (eTier e) (eFrame e) 0 (usedSize s.words) then none
    else some (min t (len - p * t), some (eTier e, eFrame e)))
  if ps.any (·.isNone) then none
  else some (ps.map (fun q => (q.getD (0, none)).1), ps.filterMap (fun q => (q.getD (0, none)).2))

/-- Send a block: its header and its chunks. -/
def sendBlock (x src layer : Nat) (tokens : List Nat) (data : List Byte) (c : Chip) : Chip :=
  let r := c.ring x
  let nxt := (r.member + 1) % rL r.words
  let due := (r.start + r.stepBeats) % 2 ^ 32
  let hdr := leBytes 4 r.step ++ leBytes 4 (src + 2 ^ 8 * layer + 2 ^ 16 * tokens.countP (· != 0)) ++
    leBytes 4 (rBlkFirst r.words) ++ leBytes 4 0 ++ tokens.flatMap (leBytes 2)
  forEach (List.range (ceilDiv data.length 65536)) (fun i k =>
    ringSend x 0x15 nxt 1 i due ((data.drop (65536 * i)).take 65536) k) (ringSend x 0x14 nxt 1 r.step due hdr c)

/-- Block table of the held buffer, written to every cluster cache (R264). -/
def blockTable (x b : Nat) (c : Chip) : Chip :=
  let r := c.ring x
  let s := c.slot r.slot
  let q := r.bufs.getD b {}
  let pages := (List.range q.tokens.length).filter (fun p => q.tokens.getD p 0 != 0)
  let ent (n : Nat) : List Byte :=
    let p := pages.getD n 0
    leBytes 8 (rotAddr r s.words b n 0) ++ leBytes 8 0 ++
    leBytes 4 ((q.src * dQuota s.words + (rBlkFirst r.words + p) * dTpp s.words) % 2 ^ 32) ++
    leBytes 4 (q.tokens.getD p 0) ++ leBytes 8 0
  let l := (List.range pages.length).flatMap ent
  forEach (List.range 24) (fun cl k => k.store (cacheBase cl + rBt r.words + b * rBlkPages r.words * 32) l) c

/-- The step's send: the member's own block, or the held buffer's (R262). A poisoned block is not sent and
faults the slot (R431). -/
def rotSend (x : Nat) (c : Chip) : Chip :=
  let r := c.ring x
  let j := rotJ r r.step
  let s := c.slot r.slot
  let u := usedSize s.words
  if j + 1 = rL r.words then c
  else if j = 0 then
    let layer := rotLayer r r.step
    match ownBlock c x layer with
    | none => faultSlot r.slot 0 0 c
    | some (tok, fr) =>
      let c1 := fr.foldl (fun k f => k.touch f.1 f.2) c
      sendBlock x r.member layer tok (fr.flatMap (fun f => c.frameBytes f.1 f.2 0 u)) c1
  else
    let b := (j - 1) % 2
    let q := r.bufs.getD b {}
    let n := q.tokens.countP (· != 0)
    if (List.range n).any (fun i => (c.poisonIn (rotAddr r s.words b i 0) u).isSome) then faultSlot r.slot 0 0 c
    else sendBlock x q.src q.layer q.tokens ((List.range n).flatMap (fun i => c.bytes (rotAddr r s.words b i 0) u)) c

/-- Buffer that the step receives into. -/
def rxBuf (r : Ring) : Option Nat := if rotJ r r.step + 1 < rL r.words then some (rotJ r r.step % 2) else none
def bufChunks (s : Slot) (q : RingBuf) : Nat := ceilDiv (q.tokens.countP (· != 0) * usedSize s.words) 65536
/-- The block of the step has landed whole. -/
def rxDone (c : Chip) (r : Ring) : Bool :=
  match rxBuf r with
  | none => true
  | some b =>
    let q := r.bufs.getD b {}
    q.hdr && q.step == r.step && q.chunks.length == bufChunks (c.slot r.slot) q

/-- BLOCK_HDR: of the step at hand it is taken, of a later one it waits (R262). -/
def onBlockHdr (p : Packet) (c : Chip) : Chip :=
  match ringOf c (fld 15 0 p.tag) with
  | none => ringDiscard p c
  | some x =>
    let r := c.ring x
    let st := at_ p.body 0 4
    if r.st = 6 ∨ rDecode r.words = true then takePkt p c
    else if stepLt r.step st then c
    else if st ≠ r.step then takePkt p c
    else match rxBuf r with
      | none => takePkt p c
      | some b =>
        let q := r.bufs.getD b {}
        if q.hdr ∧ q.step = st then takePkt p c
        else
          let n : RingBuf := { step := st, src := at_ p.body 4 1, layer := at_ p.body 5 1 % 128, hdr := true
                               tokens := (List.range (rBlkPages r.words)).map (fun i => at_ p.body (16 + 2 * i) 2) }
          (takePkt p c).setRing x { r with bufs := setAt r.bufs b n }

/-- BLOCK_DATA: a chunk of the block whose header came last; behind a header that waits, it waits. -/
def onBlockData (p : Packet) (c : Chip) : Chip :=
  let id := fld 15 0 p.tag
  match ringOf c id with
  | none => ringDiscard p c
  | some x =>
    let r := c.ring x
    let s := c.slot r.slot
    if (c.delivered.takeWhile (fun q => q != p)).any (fun q => q.kind == 0x14 && fld 15 0 q.tag == id) then c
    else match rxBuf r with
      | none => takePkt p c
      | some b =>
        let q := r.bufs.getD b {}
        let i := fld 31 16 p.tag
        if r.st = 6 ∨ q.hdr = false ∨ q.step ≠ r.step ∨ bufChunks s q ≤ i then takePkt p c
        else
          let c1 := rotStore r s.words b 1100 (65536 * i) p.body (takePkt p c)
          c1.setRing x { r with bufs := setAt r.bufs b { q with chunks := if q.chunks.contains i then q.chunks else insertAsc i q.chunks } }

/-! ### Query and merge (R265 to R267) -/

/-- QUERY_SEND: the owner takes QRDY and opens the step's query stream, its own copy landing at once (R265), or goes on with
the stream that is open; poisoned rows reach nobody. -/
def querySend (x : Nat) (c : Chip) : Chip :=
  let r := c.ring x
  let f := flagReg 0 (rQrdy r.words)
  if r.st ≠ 3 ∨ rDecode r.words = false ∨ r.owner ≠ r.member then c
  else if r.qtx ≠ [] then queryTurn x 5000 c
  else if c.rg f = 0 then c
  else
    let c1 := c.setRg f (c.rg f - 1)
    match c1.tasRead (cacheBase 0 + rQsrc r.words) (rQbytes r.words) with
    | .ok l =>
      let n := qTotal c r
      let others := (List.range (rL r.words)).filter (· != r.member)
      let q := { r with qtx := { dst := 256, total := n } :: others.map (fun m => { dst := m, total := n, det := r.qOut.contains m }) }
      let c2 := (List.range n).foldl (fun k i => queryStore c r i ((l.drop (i * qChunk c r)).take (qChunk c r)) k) (c1.setRing x q)
      queryTurn x 5000 (queryHere x c2)
    | _ => queryFail x 3 c1

/-- QUERY received: one of a later step waits; one of an earlier attempt, or for a detached member, is discarded. -/
def onQuery (p : Packet) (c : Chip) : Chip :=
  match ringOf c (fld 15 0 p.tag) with
  | none => ringDiscard p c
  | some x =>
    let r := c.ring x
    let t := fld 31 16 p.tag
    let d := (t + 65536 - r.step % 65536) % 65536
    if r.st = 3 ∧ d = 0 then
      let c1 := takePkt p c
      if p.body.length < 16 ∨ r.qDet = true ∨ hAttempt p < r.qAtt then c1
      else if r.qAtt < hAttempt p then queryPart x p (c1.setRing x { r with qrx := {}, qDone := false, qAtt := hAttempt p })
      else queryPart x p c1
    else if r.st ≠ 6 ∧ 0 < d ∧ d < 32768 then c
    else takePkt p c

/-- The context of a merge is armed as R288 requires. -/
def mergeArmed (r : Ring) (k : Coll) (d : Nat) : Bool :=
  let w := k.words
  (k.st == 1 || k.st == 4) && kOp w == 1 && kRouter w && kRed w == 3 && kTn w && kGroup w == rMc r.words &&
  kBytes w == 64 + rMrows r.words * (32 + 4 * d)

/-- PARTIAL_HANDOFF. -/
def partialHandoff (x : Nat) (c : Chip) : Chip :=
  let r := c.ring x
  let f := flagReg 0 (rPrdy r.words)
  let id := rColl r.words
  let k := c.coll id
  if r.st ≠ 3 ∨ rDecode r.words = false ∨ c.rg f = 0 ∨ k.st = 2 ∨ k.st = 3 then c
  else
    let c1 := c.setRg f (c.rg f - 1)
    if mergeArmed r k (dDim (c.slot r.slot).words) then
      let c2 := beginRun id (some x) (c1.setRing x { c1.ring x with qBad := none })
      match r.qBad with | some cause => foundCause id cause c2 | none => c2
    else if k.st = 1 ∨ k.st = 4 then foundCause id 10 (beginRun id (some x) c1)
    else ucOp pgLrt 14 (id + 2 ^ 31) 10 0 (irq pgLrt 5 c1)

/-- PARTIAL and RESULT. -/
def onPartial (p : Packet) (c : Chip) : Chip :=
  if (ringOf c (fld 15 0 p.tag)).isNone then ringDiscard p c else onRpart p c
def onResult (p : Packet) (c : Chip) : Chip :=
  if (ringOf c (fld 15 0 p.tag)).isNone then ringDiscard p c else onMdata p c

/-! ### Done beats and the barrier (R258, R259, R273 to R276) -/

/-- The DONEs of the current step that a ring holds. -/
def Ring.now (r : Ring) : List RingDone := r.dones.filter (fun d => d.step == r.gstep)
/-- Every DONE of the group's step is held. -/
def barrier (c : Chip) (g : Nat) : Bool :=
  (runRings c g).all (fun x => let r := c.ring x; (List.range (rL r.words)).all (fun m => r.now.any (fun d => d.member == m)))
/-- All DONEs of the group, each with its ring. -/
def groupDones (c : Chip) (g : Nat) : List (Nat × RingDone) :=
  (runRings c g).flatMap (fun x => (c.ring x).now.map (fun d => (x, d)))
/-- The DONE whose done beat is latest. -/
def lastDone (l : List (Nat × RingDone)) : Option (Nat × RingDone) :=
  l.foldl (fun a d => match a with | some b => if b.2.beat < d.2.beat then some d else a | none => some d) none
def groupBase (c : Chip) (g : Nat) : Nat :=
  match runRings c g with | x :: _ => (c.ring x).start + (c.ring x).stepBeats | [] => 0
/-- S_{k+1} (R259). -/
def nextStart (c : Chip) (g : Nat) : Nat :=
  max (groupBase c g) ((match lastDone (groupDones c g) with | some d => d.2.beat | none => 0) + fld 7 0 (c.rg (ringReg 0x140)))

/-- A DONE is held; a repeat is ignored. The last one of a step that has come after S_{k+1} logs a CE. -/
def holdDone (x : Nat) (d : RingDone) (c : Chip) : Chip :=
  let r := c.ring x
  if r.dones.any (fun e => e.member == d.member && e.step == d.step) then c
  else
    let g := rGroup r.words
    let before := barrier c g
    let c1 := c.setRing x { r with dones := r.dones ++ [d] }
    if r.st = 3 && !before && barrier c1 g && decide (nextStart c1 g < c1.beat) then
      ce pgRcu 8 (nextStart c1 g % 2 ^ 32) g c1
    else c1

/-- DONE_MESSAGE; a FORMED ring keeps those of the step that it will join (R256). -/
def onDone (p : Packet) (c : Chip) : Chip :=
  ringPkt p (fun x r k =>
    let w := at_ p.body 8 4
    let st := at_ p.body 0 4
    match memberAt k r.words p.src with
    | some m =>
      if 3 ≤ r.st ∧ stepLt st r.gstep = true then k
      else holdDone x { member := m, step := st, beat := fullBeat r.start (at_ p.body 4 4), stop := bit 0 w, hold := bit 1 w
                        owner := fld 15 8 w } k
    | none => k) c

/-- The clusters with a core of CORE_MASK. -/
def workClusters (w : List Nat) : List Nat := (List.range 24).filter (fun cl => (List.range 8).any (fun i => rMask w (8 * cl + i)))
/-- Take the work flags of the group's step once all have reached DONE_AMOUNT. -/
def takeWork (g : Nat) (c : Chip) : Chip :=
  match runRings c g with
  | [] => c
  | x :: _ =>
    let w := (c.ring x).words
    let fs := (workClusters w).map (fun cl => flagReg cl (rDoneFlag w))
    if (c.ring x).worked || fs.any (fun f => decide (c.rg f < rDoneAmt w)) then c
    else forEach (runRings c g) (fun y k => updRing y (fun r => { r with worked := true }) k)
      (fs.foldl (fun k f => k.setRg f (k.rg f - rDoneAmt w)) c)

/-- A block packet of the ring is still unacknowledged (R258). -/
def blockUnacked (c : Chip) (id : Nat) : Bool :=
  (List.range 6).any (fun p =>
    let l := c.link p
    (l.queue ++ l.cur.filterMap (fun e => e.map (·.1)) ++ l.unacked.map (·.2)).any (fun q =>
      let k := at_ q.bytes 3 1
      (k == 0x14 || k == 0x15) && at_ q.bytes 24 2 == id && at_ q.bytes 4 2 == c.posId))

/-- STEP_DONE: the member's step has ended for a ring; DONE is multicast with the done beat. -/
def stepDone (x : Nat) (c0 : Chip) : Chip :=
  if (c0.ring x).st ≠ 3 then c0 else
  let c := takeWork (rGroup (c0.ring x).words) c0
  let r := c.ring x
  let s := c.slot r.slot
  let ready := if rDecode r.words then r.merged || s.st != 2 else !blockUnacked c (rId r.words) && rxDone c r
  if r.ended = true ∨ r.worked = false ∨ ready = false ∨ r.phase ≠ 0 then c
  else
    let d := c.beat
    let stop := s.st == 3 || s.st == 4
    let room := r.start + r.stepBeats + rMaxExt r.words + rStall r.words - d
    let hold := (c.cad.st != 1 && c.cad.st != 3 && c.cad.st != 4) || (c.cad.st == 4 && decide (4096 ≤ c.cad.holdB + room))
    let owner := if rDecode r.words && r.owner == r.member && decide (dQuota s.words ≤ s.len (s.lens.length - 1) ∧ s.lens ≠ []) &&
        decide (r.member + 1 < rL r.words) then r.member + 1 else 255
    let body := leBytes 4 r.gstep ++ leBytes 4 d ++ leBytes 4 (b2n stop + 2 * b2n hold + 2 ^ 8 * owner)
    holdDone x { member := r.member, step := r.gstep, beat := d, stop := stop, hold := hold, owner := owner }
      (ringSend x 0x19 256 0 r.step 0xFFFFFFFF body (c.setRing x { r with ended := true }))

/-- STALL_TIMEOUT (R274). -/
def stallTimeout (g : Nat) (c : Chip) : Chip :=
  match runRings c g with
  | [] => c
  | x :: t =>
    let r := c.ring x
    let ext := ((x :: t).map (fun y => (c.ring y).ext)).foldl max 0
    if r.phase ≠ 0 ∨ barrier c g = true ∨ c.beat < r.start + r.stepBeats + ext + rStall r.words then c
    else
      let c1 := forEach (x :: t) (fun y k =>
        stallRing y 7 (ringSend y 0x13 256 0 (k.ring y).step 0xFFFFFFFF (leBytes 4 0) k)) c
      logTogether pgRcu ((x :: t).map (fun y =>
        let s := c.slot (c.ring y).slot
        { cls := 2, scope := 2, cause := 10, page := pgRcu, scopeId := s.desc + 2 ^ 16 * (c.ring y).slot, d0 := y })) c1

/-- RESTART (R276). -/
def restartRing (x : Nat) (c : Chip) : Chip :=
  let r := c.ring x
  let b := c.rg64 (ringReg 0x114)
  if !(r.st == 4 || (r.st == 5 && (r.cause == 7 || r.cause == 2) && (c.slot r.slot).st == 2)) then { c with rcuResult := 1 }
  else if b < c.beat + 64 then { c with rcuResult := 4 }
  else { c.setRing x { r with resume := some b } with rcuResult := 0 }

/-! ### Step start (R260, R261) -/

/-- The work map in force follows the pending one (R16). -/
def applyMap (c : Chip) : Chip :=
  forEach (List.range 192) (fun n k => let q := k.core n; k.setCore n { q with mapApp := q.mapPend }) c

/-- A deadline miss is recorded by every ring of the group, and by the latest member as a CE (R273). -/
def recordMiss (g s : Nat) (c : Chip) : Chip :=
  let beyond := s - groupBase c g
  if beyond = 0 then c
  else
    let late := lastDone (groupDones c g)
    let m := match late with | some d => d.2.member | none => 0
    let c1 := forEach (runRings c g) (fun x k =>
      updRing x (fun r => { r with missBeats := min beyond 65535, missMember := m }) (k.bumpRg (bank x pgRcu 0x138) 1)) c
    let mine := match late with | some d => d.2.member == (c.ring d.1).member | none => false
    let c2 := irq pgRcu 2 c1
    if mine then ce pgRcu 9 beyond m c2 else c2

/-- Rings that a start at beat s, the group's step k, takes in: formed ones and restarted ones whose slot is READY (R149, R256,
R276). -/
def enters (c : Chip) (r : Ring) (s k : Nat) : Bool :=
  (c.slot r.slot).st == 2 && enterNow r s k
where enterNow (r : Ring) (s k : Nat) : Bool :=
  (r.st == 2 && (match r.joinStep with | some j => !stepLt k j | none => decide (r.s0 ≤ s))) ||
  ((r.st == 4 || r.st == 5) && (match r.resume with | some b => decide (b ≤ s) | none => false))

/-- The end of the old step: misses, stops and owners, a ring whose slot has left READY stopping with cause SLOT (R149, R275); then a hold, or the disbands and the rings that enter.
Answers whether a start follows. -/
def closeStep (g s : Nat) (c : Chip) : Chip × Bool :=
  let run := runRings c g
  let c1 := if run = [] then c else recordMiss g s c
  let hold := (groupDones c g).any (·.2.hold)
  let c2 := forEach run (fun x k =>
    let r := k.ring x
    let o := match r.now.find? (fun d => d.member == r.owner && d.owner != 255) with | some d => d.owner | none => r.owner
    let k1 := k.setRing x { r with owner := o }
    if r.now.any (·.stop) ∨ (k.slot r.slot).st ≠ 2 then stallRing x 2 k1
    else if hold then
      let k2 := irq pgRcu 4 (updRing x (fun q => { q with st := 4, cause := 8 }) k1)
      match r.disband with | some d => dissolve x d k2 | none => k2
    else match r.disband with | some d => dissolve x d k1 | none => k1) c1
  if hold then (c2, false)
  else
    let k0 := match groupStep c2 g with
      | some k => k
      | none => match groupRings c2 g with | x :: _ => (c2.ring x).gstep | [] => 0
    let k := (k0 + 1) % 2 ^ 32
    let c3 := forEach (groupRings c2 g) (fun x q =>
      let r := q.ring x
      if r.st = 3 then q.setRing x { r with gstep := k0 }
      else if enters c2 r s k then q.setRing x { r with st := 3, cause := 0, resume := none, joinStep := none, gstep := k0 }
      else q) c2
    (c3, runRings c3 g != [])

/-- Words 28 to 31 of the launch blocks (R261). -/
def launchWords (c : Chip) (g s : Nat) : List Nat :=
  match runRings c g with
  | [] => [0, 0, 0, 0]
  | x :: _ =>
    let r := c.ring x
    if rDecode r.words then
      [(runRings c g).foldl (fun a y => a + 2 ^ y) 0, s % 2 ^ 32, r.gstep,
       (runRings c g).foldl (fun a y => if (c.ring y).owner = (c.ring y).member then a + 2 ^ y else a) 0]
    else
      let j := rotJ r r.step
      if j = 0 then [0, s % 2 ^ 32, r.step, 2]
      else [(r.bufs.getD ((j - 1) % 2) {}).tokens.countP (· != 0), s % 2 ^ 32, r.step, (j - 1) % 2]

/-- Write the launch words of core n and launch its list, or leave the launch to the list's end. -/
def stepLaunch (g : Nat) (ws : List Nat) (n : Nat) (c : Chip) : Chip :=
  let b := c.rg (coreReg n 0x108)
  let c1 := if awOk01 b && awFits b 128 then c.store (awAddr n (windows c n) b 112) (ws.flatMap (leBytes 4)) else c
  if c1.enabled (pgCore n) = false then c1
  else
    let c2 := carLatch n c1
    if (c2.core n).st = 0 ∨ (c2.core n).st = 4 then launchList n (some g) true c2
    else c2.setCore n { c2.core n with pending := some g }

/-- What a ring's new step starts from. -/
def newStep (s : Nat) (r : Ring) : Ring :=
  let k := (r.step + 1) % 2 ^ 32
  let g := (r.gstep + 1) % 2 ^ 32
  { r with
    phase := 0, step := k, gstep := g, start := s, worked := false, ended := false, merged := false
    qtx := [], qCks := [], qFull := none, qOut := [], qrx := {}, qAtt := 0, qDone := false, qDet := false, qBad := none
    exts := r.exts.filter (fun e => !stepLt e.1 g), dones := r.dones.filter (fun d => !stepLt d.step g)
    plans := r.plans.filter (fun p => !stepLt p.1 ((g + 2 ^ 32 - 1) % 2 ^ 32))
    recent := r.recent.filter (fun p => p.kind != 0x14 && p.kind != 0x15 &&
      (fld 31 16 p.tag == k % 65536 || fld 31 16 p.tag == r.step % 65536)) }

/-- Parts 3 to 7 of R260. -/
def finishStart (g s : Nat) (c : Chip) : Chip :=
  let ringPlans (k : Chip) : List (Nat × Nat × Nat) :=
    (runRings k g).flatMap (fun x => ((k.ring x).plans.filter (fun p => p.1 == ((k.ring x).gstep + 1) % 2 ^ 32)).map
      (fun p => (x, p.2.1, p.2.2)))
  let first := match runRings c g with | x :: _ => (c.ring x).phase | [] => 2
  let c1 := if first < 2 then
      forEach (runRings c g) (fun x k => updRing x (fun r => { r with phase := 2 }) k)
        ((ringPlans c).foldl (fun k p => applyPlan p.1 p.2.1 p.2.2 k) c)
    else c
  if carBusy c1 then c1
  else
    let c2 := applyMap c1
    let c3 := forEach (runRings c2 g) (fun x k => updRing x (newStep s) k) c2
    let held_ := forEach (runRings c3 g) (fun x k =>
      let r := k.ring x
      if !rDecode r.words && rotJ r r.step != 0 then blockTable x ((rotJ r r.step - 1) % 2) k else k) c3
    let ws := launchWords held_ g s
    let mask := match runRings held_ g with | x :: _ => (held_.ring x).words | [] => []
    let c4 := forEach ((List.range 192).filter (fun n => rMask mask n && (held_.core n).mapApp)) (fun n k => stepLaunch g ws n k) held_
    let c5 := forEach (runRings c4 g) (fun x k => if rDecode (k.ring x).words then k else rotSend x k) c4
    if c5.pwr.emerg = 0 then c5 else extendRings (runRings c5 g) c5.emergCause c5

/-- Entries of a slot whose roll still waits. -/
def rollWaits (c : Chip) (slot : Nat) : Bool := c.rolls.any (fun a => fld 20 16 (c.le (a + 4) 4) == slot)

/-- The start beat of a group's next step: the first step's where no ring runs, S_{k+1} once the barrier has closed. -/
def startDue (c : Chip) (g : Nat) : Option Nat :=
  let beats := (groupRings c g).filterMap (fun x =>
    let r := c.ring x
    if r.st = 2 ∧ r.joinStep = none then some r.s0 else if r.st = 4 ∨ r.st = 5 then r.resume else none)
  if runRings c g = [] then (match beats with | b :: l => some (l.foldl min b) | [] => none)
  else if barrier c g then some (nextStart c g) else none
/-- Parts 1 and 2 of R260 at beat s: a late CE, the return of an emergency level, the latches and the scale plans. -/
def openStart (g s : Nat) (c : Chip) : Chip :=
  forEach (runRings (emergReturn (lateFire pgRcu s c)) g) (fun x k =>
    let n := (k.ring x).slot
    planBoundary n (latchSlot n (ringWho x) (updRing x (fun r => { r with phase := 1, s0 := s, lrtGen := k.lrtGen })
      (unlatch n (ringWho x) k)))) (emergReturn (lateFire pgRcu s c))
/-- Rolls that wait are tried, and the rest of the start follows once none of the group's slots waits for one. -/
def goStart (g s : Nat) (c : Chip) : Chip :=
  let c1 := c.rolls.foldl (fun k a => scalePlanRoll a k) c
  if (runRings c1 g).any (fun x => rollWaits c1 (c1.ring x).slot) then c1 else finishStart g s c1

/-- STEP_START: the parts of R260 as far as they go; rolls that wait and a carousel pass delay the rest. -/
def stepStart (g : Nat) (c : Chip) : Chip :=
  match (runRings c g).filter (fun x => (c.ring x).phase != 0) with
  | x :: _ =>
    let s := (c.ring x).s0
    if (runRings c g).any (fun y => rollWaits c (c.ring y).slot) then goStart g s c else finishStart g s c
  | [] =>
    match startDue c g with
    | none => c
    | some s =>
      let hold := (groupDones c g).any (·.2.hold)
      if c.beat < s ∨ (hold = false ∧ (c.cascadeDue s = false ∨ c.cad.st = 2)) then c
      else if (closeStep g s c).2 then goStart g s (openStart g s (closeStep g s c).1) else (closeStep g s c).1

/-- WORK_MAP_APPLY (R16): while no ring runs, a change of the pending map takes effect once a beat boundary has come
after it. -/
def workMapApply (c : Chip) : Chip :=
  if anyRunning c then c
  else forEach (List.range 192) (fun n k =>
    let q := k.core n
    if q.mapAt < k.beat then k.setCore n { q with mapApp := q.mapPend } else k) c

end Sys2Proof.Machine
end

