-- ==== Sys2Proof/Machine/Sha256.lean ====
section
/-! DEFINITION. SHA-256 (FIPS 180-4), HMAC and HKDF (RFC 2104, RFC 5869), which R357, R397 and R405 apply,
and the bytes of a frame on the wire. -/

namespace Sys2Proof.Machine

/-- Bits of a root, from the highest of `n` down: the largest `r` with `r ^ k` at most `v`. -/
def rootBits (k v : Nat) : Nat → Nat → Nat
  | 0, r => r
  | n + 1, r => rootBits k v n (if (r + 2 ^ n) ^ k ≤ v then r + 2 ^ n else r)
/-- The primes below 312, 64 of them. -/
def smallPrimes : List Nat :=
  (List.range 312).filter (fun p => decide (2 ≤ p) && (List.range 18).all (fun d => d < 2 || p ≤ d || p % d != 0))
/-- The first 32 bits behind the point of the k-th root of a prime: the standard's constants. -/
def rootFraction (k p : Nat) : W32 := BitVec.ofNat 32 (rootBits k (p * 2 ^ (32 * k)) 37 0)
/-- The round constants, of cube roots, and the initial value, of the square roots of eight primes. -/
def shaK : List W32 := smallPrimes.map (rootFraction 3)
def shaInit : List W32 := (smallPrimes.take 8).map (rootFraction 2)

def rotr (n : Nat) (x : W32) : W32 := x.rotateRight n
/-- Big-endian number of a byte list, and n bytes of a number. -/
def beNat (l : List Byte) : Nat := l.foldl (fun a b => 256 * a + b.toNat) 0
def beBytes (n v : Nat) : List Byte := (leBytes n v).reverse

/-- Sum modulo 2 of the rotations of a word by the counts given. -/
def turns (ns : List Nat) (x : W32) : W32 := ns.foldl (fun z n => z ^^^ rotr n x) 0#32

/-- The next word of the message schedule, from the last sixteen (newest first). -/
def shaNext (w : List W32) : W32 :=
  let mix (ns : List Nat) (sh i : Nat) : W32 := turns ns (w.getD i 0) ^^^ (w.getD i 0 >>> sh)
  w.getD 15 0 + w.getD 6 0 + mix [7, 18] 3 14 + mix [17, 19] 10 1

/-- One round. The eight working words are two shift registers of four, newest first; k and w are added as one. -/
def shaRound (s : List W32 × List W32) (kw : W32) : List W32 × List W32 :=
  let p (i : Nat) : W32 := s.1.getD i 0
  let q (i : Nat) : W32 := s.2.getD i 0
  let u := kw + q 3 + turns [6, 11, 25] (q 0) + (q 2 ^^^ (q 0 &&& (q 1 ^^^ q 2)))
  let v := turns [2, 13, 22] (p 0) + ((p 0 &&& (p 1 ||| p 2)) ||| (p 1 &&& p 2))
  ((u + v) :: s.1.take 3, (p 3 + u) :: s.2.take 3)

/-- All rounds: the constants still to use, the block's words still to use, the last sixteen words. -/
def shaRounds : List W32 → List W32 → List W32 → List W32 × List W32 → List W32 × List W32
  | [], _, _, s => s
  | k :: ks, x :: xs, w, s => shaRounds ks xs (x :: w) (shaRound s (k + x))
  | k :: ks, [], w, s => shaRounds ks [] ((shaNext w :: w).take 16) (shaRound s (k + shaNext w))

/-- One block of 64 bytes. -/
def shaBlock (h : List W32) (blk : List Byte) : List W32 :=
  let words := (List.range 16).map (fun i => (BitVec.ofNat 32 (beNat ((blk.drop (4 * i)).take 4)) : W32))
  let r := shaRounds shaK words [] (h.take 4, h.drop 4)
  List.zipWith (· + ·) h (r.1 ++ r.2)

def shaBlocks : Nat → List W32 → List Byte → List W32
  | 0, h, _ => h
  | n + 1, h, l => shaBlocks n (shaBlock h (l.take 64)) (l.drop 64)

/-- SHA-256. -/
def sha256 (l : List Byte) : List Byte :=
  let z := (119 - l.length % 64) % 64
  let m := l ++ [0x80#8] ++ List.replicate z 0#8 ++ beBytes 8 (8 * l.length)
  (shaBlocks (m.length / 64) shaInit m).flatMap (fun w => beBytes 4 w.toNat)

/-- HMAC-SHA-256. -/
def hmac (key msg : List Byte) : List Byte :=
  let k0 := if 64 < key.length then sha256 key else key
  let k := k0 ++ List.replicate (64 - k0.length) 0#8
  sha256 (k.map (fun b => b ^^^ 0x5C#8) ++ sha256 (k.map (fun b => b ^^^ 0x36#8) ++ msg))

/-- HKDF-Extract, and HKDF-Expand to n bytes (at most 96 here). -/
def hkdfExtract (salt ikm : List Byte) : List Byte := hmac salt ikm
def hkdfExpand (prk info : List Byte) (n : Nat) : List Byte :=
  let t1 := hmac prk (info ++ [1#8])
  let t2 := hmac prk (t1 ++ info ++ [2#8])
  let t3 := hmac prk (t2 ++ info ++ [3#8])
  (t1 ++ t2 ++ t3).take n

def ascii (s : String) : List Byte := s.toList.map (fun ch => BitVec.ofNat 8 ch.toNat)

/-- Key and IV of direction 0 (to the module) or 1 (from it) in an epoch (R357). -/
def epochKey (secret : List Byte) (epoch dir : Nat) : List Byte × List Byte :=
  let m := hkdfExpand secret (ascii "MBOIP EPOCH" ++ [BitVec.ofNat 8 epoch]) 72
  ((m.drop (32 * dir)).take 32, (m.drop (64 + 4 * dir)).take 4)

/-- The frame header (R353). -/
def frameHdr (f : Frame) : List Byte :=
  leBytes 4 (f.type + 2 ^ 8 * f.qid + 2 ^ 16 * b2n f.prot + 2 ^ 24 * f.epoch) ++ leBytes 4 f.body.length ++
  leBytes 8 f.ctr ++ leBytes 8 f.addr ++ leBytes 4 f.tag ++ leBytes 4 f.status
/-- A frame that the module sends, as its flits carry it: a protected body encrypted, its tag behind it. -/
def frameWire (c : Chip) (f : Frame) : List Byte :=
  if f.prot then
    let k := epochKey c.mbp.secret f.epoch 1
    frameHdr f ++ Config.gcmSeal k.1 (k.2 ++ leBytes 8 f.ctr) (frameHdr f) f.body
  else frameHdr f ++ f.body

end Sys2Proof.Machine
end

