-- ==== Sys2Proof/Machine/Tiers.lean ====
section
/-! DEFINITION. Memory tiers and migration (R310 to R342): accesses to the tier range, uncorrectable errors
and refetch, regions, migrations, eviction and promotion, lending, the prefetch schedule, expanders. -/

namespace Sys2Proof.Machine

/-! ### Small parts -/

/-- Word 0 of a map entry with another frame, no longer MOVING. -/
def gAt (w tier frame : Nat) : Nat := setFld 37 37 (setFld 32 30 (setFld 29 0 w frame) tier) 0
/-- Word 1 with another home. -/
def hAt (w tier frame : Nat) : Nat := setFld 32 30 (setFld 29 0 w frame) tier
/-- Entry of the region table (R339). -/
def Chip.regEntry (c : Chip) (r : Nat) : List Nat := leWords 8 (c.bytes (c.regionBase + 32 * r) 32)
def rgFirst (e : List Nat) : Nat := fld 27 0 (wd e 0)
def rgCount (e : List Nat) : Nat := fld 27 0 (wd e 1)
/-- PEER positions listed; a reserved NPEER lists none (R4). -/
def rgPeers (e : List Nat) : List Nat :=
  if 4 < fld 2 0 (wd e 4) then [] else [fld 10 0 (wd e 2), fld 26 16 (wd e 2), fld 10 0 (wd e 3), fld 26 16 (wd e 3)].take (fld 2 0 (wd e 4))
/-- A reserved value or bit stands in an entry (R4, R339). -/
def rgReserved (e : List Nat) : Bool :=
  fld 31 28 (wd e 0) != 0 || fld 31 28 (wd e 1) != 0 || fld 15 11 (wd e 2) != 0 || fld 31 27 (wd e 2) != 0 ||
  fld 15 11 (wd e 3) != 0 || fld 31 27 (wd e 3) != 0 || decide (4 < fld 2 0 (wd e 4)) || fld 7 3 (wd e 4) != 0 ||
  fld 31 9 (wd e 4) != 0 || wd e 5 != 0 || wd e 6 != 0 || wd e 7 != 0
/-- Granules of a region. -/
def Chip.regGranules (c : Chip) (r : Nat) : List Nat :=
  let e := c.regEntry r
  (List.range (rgCount e)).map (rgFirst e + ·)
/-- The CRC of a granule's payload in a frame, and the one its record holds (R314). -/
def Chip.granCrc (c : Chip) (tier f : Nat) : Nat := crc32 (c.frameBytes tier f 0 payloadSize)
def Chip.granRec (c : Chip) (tier f : Nat) : Nat := metaW c tier f 8

/-- Granules whose map entry is VALID. -/
def Chip.usedMap (c : Chip) : List Nat :=
  c.mem.filterMap (fun e =>
    if c.mapTab ≤ e.1 ∧ e.1 < c.mapTab + 16 * c.granules ∧ (e.1 - c.mapTab) % 16 = 4 ∧ bit 1 e.2.toNat = true
    then some ((e.1 - c.mapTab) / 16) else none)
/-- Base and count of the records of a loan or a T2 slot, the number of frames, and its frame prefix. -/
def Chip.loanRecs (c : Chip) (l : Nat) : Nat := c.loanArea + l * c.loanMax * 16
def Chip.slotRecs (c : Chip) (s : Nat) : Nat := c.rg64 (bank (s % 4) (pgCxl (s / 4)) 0x120)
/-- Records that are not FREE. -/
def Chip.loanUsed (c : Chip) (l : Nat) : List Nat := c.usedRecs (c.loanRecs l) (c.loan l).frames
def Chip.slotUsed (c : Chip) (s : Nat) : List Nat := c.usedRecs (c.slotRecs s) (c.t2s s).frames
/-- Referenced frames: those that are neither FREE nor BAD. -/
def Chip.refd (c : Chip) (tier : Nat) (pre : Nat) (l : List Nat) : List Nat :=
  l.filter (fun i => c.recKind tier (pre + i) != 6)
def Chip.loanRefd (c : Chip) (l : Nat) : List Nat := c.refd 1 (l * 2 ^ 26) (c.loanUsed l)
def Chip.slotRefd (c : Chip) (s : Nat) : List Nat := c.refd 2 (s * 2 ^ 27) (c.slotUsed s)

/-- A free frame of the lowest borrowed loan that has one. -/
def Chip.lowT1 (c : Chip) : Option Nat :=
  (List.range 16).findSome? (fun l =>
    if (c.loan l).st = 2 then
      let k := firstGap 0 (c.loanUsed l)
      if k < (c.loan l).frames then some (l * 2 ^ 26 + k) else none
    else none)
/-- A free frame of the ONLINE slot with the most free frames, the lower slot on a tie; `skip` is left out. -/
def Chip.lowT2 (c : Chip) (skip : Option Nat) : Option Nat :=
  let free (s : Nat) : Nat := if (c.t2s s).st = 2 ∧ skip ≠ some s then (c.t2s s).frames - (c.slotUsed s).length else 0
  let s := (List.range 8).foldl (fun b s => if free b < free s then s else b) 0
  if free s = 0 then none else some (s * 2 ^ 27 + firstGap 0 (c.slotUsed s))
/-- The destination of a frame that leaves T0 (R321). -/
def Chip.lowDest (c : Chip) (kv : Bool) : Option (Nat × Nat) :=
  let d := fld 5 4 c.mtmCtl
  let t1 := if (d = 0 ∨ d = 2) ∧ (kv = false ∨ bit 3 c.mtmCtl = true) then c.lowT1.map (fun f => (1, f)) else none
  let t2 := if d = 0 ∨ d = 1 then (c.lowT2 none).map (fun f => (2, f)) else none
  t1.or t2

/-! ### Frame copies (R318) -/

/-- Who latches a slot for a migration's read (R161). -/
def migWho (id : Nat) : Nat := 0x4000 + id
/-- The bound slot whose directory a migration reads. -/
def Mig.slot : Mig → Option Nat
  | m => match m.kind with
    | .demoteKv s _ _ _ _ => s
    | .raiseKv s _ _ _ => s
    | .promoteKv s _ _ => some s
    | _ => none
def Mig.granule : Mig → Option Nat
  | m => match m.kind with
    | .evictGranule g => some g
    | .homeGranule g => some g
    | .copy2 g => some g
    | .prefetch g => some g
    | .vacate g _ => some g
    | _ => none
def Chip.migFree (c : Chip) : Bool := decide (c.mtm.migs.length < 16)
/-- Set or clear MOVING of what a migration moves. -/
def setMoving (m : Mig) (on : Bool) (c : Chip) : Chip :=
  match m.granule with
  | some g => c.setMapW g 0 (setFld 37 37 (c.mapW g 0) (b2n on))
  | none => c.setRecW m.srcTier m.src 0 (setFld 8 8 (c.recW m.srcTier m.src 0) (b2n on))

/-- Send an RREAD for part of a loan frame and remember it (R325, R327). -/
def sendRread (mig due loan frame off len : Nat) (c : Chip) : Chip :=
  let t := c.mtm.nextTag % 65535 + 1
  let p : Packet := { dest := (c.loan loan).peer, kind := 1, cls := 2, due := due, tag := loan
                      body := leBytes 4 frame ++ leBytes 4 off ++ leBytes 4 len ++ leBytes 4 t }
  let q : RemReq := { tag := t, pkt := p, loan := loan, deadline := c.beat + fld 15 0 (c.rg (mtmReg 0x1D4))
                      mig := mig, off := off, len := len }
  sendPkt p { c with mtm := { c.mtm with nextTag := t, reqs := c.mtm.reqs ++ [q] } }

/-- The beat by which a short reserve is to be full again (R157). -/
def Chip.shortDue (c : Chip) : Nat :=
  let bs := (List.range 32).filterMap (fun n =>
    let s := c.slot n
    if 1 ≤ s.st ∧ s.st ≤ 4 ∧ s.short ≠ 0 then s.shortAt.map (· + dSlack s.words) else none)
  match bs with | [] => 0xFFFFFFFF | b :: t => t.foldl min b % 2 ^ 32
/-- DUE of a copy (R333): a prefetch's need beat; an eviction for a short reserve; others have none. -/
def migDue (c : Chip) (k : MigKind) (srcTier : Nat) : Nat :=
  match k with
  | .prefetch g => match c.mtm.pfCopies.find? (fun p => p.granule == g && !p.landed) with | some p => p.need % 2 ^ 32 | none => 0xFFFFFFFF
  | .demoteKv _ _ _ _ _ => if srcTier = 0 then c.shortDue else 0xFFFFFFFF
  | .evictGranule _ => c.shortDue
  | _ => 0xFFFFFFFF
/-- Start a copy: the destination is FILLING, the source MOVING; a T1 source is read by RREADs. -/
def beginMig (kind : MigKind) (srcTier src dstTier dst : Nat) (c : Chip) : Chip :=
  let id := c.mtm.nextMig
  let m : Mig := { id := id, kind := kind, srcTier := srcTier, src := src, dstTier := dstTier, dst := dst, due := migDue c kind srcTier }
  let c1 := setMoving m true { c with mtm := { c.mtm with nextMig := id + 1, migs := c.mtm.migs ++ [m] } }
  let c2 := if dstTier = 0 then c1 else c1.setRec dstTier dst 5 0 0 0 0 0
  let c3 := match m.slot with
    | some n => latchSlot n (migWho id) c2
    | none => c2
  if srcTier = 1 then
    [(0, 65536), (65536, 65536), (131072, 65536), (196608, 65536), (262144, 4096)].foldl
      (fun k x => sendRread id m.due (fld 29 26 src) (fld 25 0 src) x.1 x.2 k) c3
  else c3

/-- Take a migration off the list, with its requests and its latch. -/
def dropMig (m : Mig) (c : Chip) : Chip :=
  let c1 := { c with mtm := { c.mtm with
    migs := c.mtm.migs.filter (fun x => x.id != m.id)
    reqs := c.mtm.reqs.filter (fun r => r.granule.isSome || r.mig != m.id) } }
  match m.slot with
  | some n => unlatch n (migWho m.id) c1
  | none => c1

/-- Abandon a copy: the destination returns to FREE, with its shelf entry (R318, R322). -/
def abandon (m : Mig) (c : Chip) : Chip :=
  let c1 := setMoving m false (dropMig m c)
  let c2 := if m.dstTier = 0 then noteLow (c1.freeRec 0 m.dst)
    else if c1.recKind m.dstTier m.dst = 5 then c1.freeRec m.dstTier m.dst else c1
  match m.kind with
  | .demoteKv _ _ _ _ s => c2.dropShelf s
  | _ => c2
def abandonIf (p : Mig → Bool) (c : Chip) : Chip :=
  (c.mtm.migs.filter p).foldl (fun k m => abandon m k) c

/-! ### Refetch (R339) -/

def Chip.refetchOf (c : Chip) (g : Nat) : Option Refetch := c.mtm.refetch.find? (fun r => r.granule == g)
def setRefetch (r : Refetch) (c : Chip) : Chip :=
  { c with mtm := { c.mtm with refetch := c.mtm.refetch.filter (fun x => x.granule != r.granule) ++ [r] } }
def endRefetch (g src : Nat) (c : Chip) : Chip :=
  irq pgMtm 3 { c with mtm := { c.mtm with
    refetch := c.mtm.refetch.filter (fun x => x.granule != g), lastSrc := src, lastG := g
    reqs := c.mtm.reqs.filter (fun r => r.granule != some g) } }

/-- A source's data for a granule: payload and record words GIDX, REGION and CRC. Accepted only when the CRC
matches; the frame is written, word 0 switches to it and the held reads are released. -/
def offerRefetch (g src : Nat) (pay : List Byte) (crc : Nat) (c : Chip) : Option Chip :=
  if crc32 pay ≠ crc then none
  else
    let w := c.mapW g 0
    let held := (c.refetchOf g).bind (·.frame)
    let got : Option (Nat × Chip) := match held with
      | some f => some (f, c)
      | none => match takeFrame 5 (gRegion w) g c with
        | some x => some x
        | none => c.spareFrame.map (fun f => (f, c.zero (c.frameAddr f) frameSize))
    got.map (fun x =>
      let f := x.1
      let c1 := (x.2.store (x.2.frameAddr f) (pay ++ leBytes 4 g ++ leBytes 4 (gRegion w) ++ leBytes 4 crc)).setRec
        0 f 3 1 (gRegion w) 0 g 0
      endRefetch g src (c1.setMapW g 0 (setFld 35 35 (setFld 33 33 (gAt w 0 f) 1) 0)))

/-- Ask the next source of a refetch: a peer by GREAD, the second copy, the control node. -/
def nextSource (g : Nat) (c : Chip) : Chip :=
  match c.refetchOf g with
  | none => c
  | some r =>
    let w := c.mapW g 0
    match r.peers with
    | p :: rest =>
      let t := c.mtm.nextTag % 65535 + 1
      let pkt : Packet := { dest := p, kind := 6, cls := 1, due := r.due, tag := 0
                            body := leBytes 4 (gRegion w) ++ leBytes 4 (g - rgFirst (c.regEntry (gRegion w))) ++ leBytes 4 t }
      let q : RemReq := { tag := t, pkt := pkt, deadline := c.beat + fld 15 0 (c.rg (mtmReg 0x1D4))
                          granule := some g, len := payloadSize }
      sendPkt pkt (setRefetch { r with peers := rest, src := 1 }
        { c with mtm := { c.mtm with nextTag := t, reqs := c.mtm.reqs ++ [q] } })
    | [] =>
      let h := c.mapW g 1
      let f := hCopy2Frame h
      let two := r.src < 2 && hCopy2 h && !c.frameBad 2 f 0 frameSize
      let fromCopy := if two then offerRefetch g 2 (c.frameBytes 2 f 0 payloadSize) (c.granRec 2 f) c else none
      match fromCopy with
      | some c1 => c1
      | none => if r.src < 3 then event 4 pgMtm [g] (setRefetch { r with src := 3 } c) else c

/-- A granule is poisoned: a frame is taken for it and its sources are asked in order. -/
def startRefetch (g : Nat) (c : Chip) : Chip :=
  if (c.refetchOf g).isSome then c
  else
    let w := c.mapW g 0
    let got : Option (Nat × Chip) := match takeFrame 5 (gRegion w) g c with
      | some x => some x
      | none => c.spareFrame.map (fun f => (f, (c.zero (c.frameAddr f) frameSize).setRec 0 f 5 0 (gRegion w) 0 g 0))
    let c1 := match got with | some x => x.2 | none => c
    let e := c1.regEntry (gRegion w)
    let ps := if gRegion w < 31 ∧ rgFirst e ≤ g ∧ g < rgFirst e + rgCount e then rgPeers e else []
    nextSource g (setRefetch { granule := g, frame := got.map (·.1), peers := ps, due := c.mtm.reqDue
                               deadline := c1.beat + fld 15 0 (c1.rg (mtmReg 0x194)) } c1)

/-- Poison a granule: POISONED in word 0, and refetch. -/
def poisonGranule (g : Nat) (c : Chip) : Chip :=
  startRefetch g (c.setMapW g 0 (setFld 37 37 (setFld 35 35 (c.mapW g 0) 1) 0))

/-! ### Uncorrectable errors (R338) -/

/-- A frame of any tier is retired as BAD. -/
def retireBad (tier f : Nat) (c : Chip) : Chip :=
  if tier = 0 ∨ c.lowAlive tier f = true then c.setRec tier f 6 0 0 0 0 0 else c

/-- A granule's serving frame is bad. Its migrations are abandoned. -/
def granuleBad (g : Nat) (c : Chip) : Chip :=
  let c0 := abandonIf (fun m => m.granule == some g) c
  let w := c0.mapW g 0
  let h := c0.mapW g 1
  let t := gTier w
  let f := gFrame w
  if gPoison w then c0
  else if t = 0 ∧ hTier h ≠ 0 ∧ c0.frameBad (hTier h) (hFrame h) 0 frameSize = false then
    noteLow ((retireBad 0 f c0).setMapW g 0 (setFld 36 36 (gAt w (hTier h) (hFrame h)) 0))
  else
    let c1 := retireBad t f c0
    let c2 := if hTier h = 0 then c1
      else if hTier h = t ∧ hFrame h = f then c1.setMapW g 1 (hAt h 0 0)
      else (retireBad (hTier h) (hFrame h) c1).setMapW g 1 (hAt h 0 0)
    poisonGranule g c2

/-- Directory entries (addresses) at a layer and page that name a frame: of the bound slots, and of the parked
descriptor `desc`. -/
def Chip.namers (c : Chip) (tier f desc : Nat) : List (Option Nat × Nat × Nat) :=
  let layer := fld 7 0 (metaW c tier f 4)
  let page := metaW c tier f 8
  let hit (a : Nat) : Bool := let e := c.le a 8; eValid e && eTier e == tier && eFrame e == f
  let ok (w : List Nat) : Bool := decide (layer < dLayers w ∧ page < dBlocks w * 512)
  let bound := (List.range 32).filterMap (fun n =>
    let s := c.slot n
    if 1 ≤ s.st ∧ s.st ≤ 5 ∧ ok s.words = true ∧ hit (pteAddr c s.root layer page) = true
    then some (some n, s.desc, pteAddr c s.root layer page) else none)
  let w := leWords 12 (c.bytes (c.descAddr desc) 48)
  let parked := if c.seqTab ≠ 0 ∧ fld 1 0 (wd w 0) = 2 ∧ ok w = true ∧ hit (pteAddr c (dRoot w) layer page) = true
    then [(none, desc, pteAddr c (dRoot w) layer page)] else []
  bound ++ parked

/-- Descriptor index that a KV frame's record names (R316). -/
def Chip.descOf (c : Chip) (tier f : Nat) : Nat := fld 11 0 (c.recW tier f (if tier = 0 then 2 else 3))

/-- A KV frame is bad: POISONED is set in every entry that names it. -/
def kvBad (tier f : Nat) (c : Chip) : Chip :=
  (c.namers tier f (c.descOf tier f)).foldl (fun k x => k.storeLe x.2.2 8 (setFld 35 35 (k.le x.2.2 8) 1)) (badFrame tier f c)

/-- The pool frame in which an address of T0 direct lies. -/
def Chip.poolFrame (c : Chip) (a : Nat) : Option Nat :=
  if c.poolEn ∧ c.frameBase ≤ a ∧ a < c.frameBase + frameSize * c.frameCount
  then some ((a - c.frameBase) / frameSize) else none

/-- UNCORRECTABLE_FOUND by a scrub at a T0 address. -/
def scrubBad (a : Nat) (c : Chip) : Chip :=
  let c1 := foundBad 0 0 a c
  match c1.poolFrame a with
  | none => c1
  | some f =>
    if c1.recKind 0 f = 2 then kvBad 0 f c1
    else if c1.recKind 0 f = 3 then granuleBad (fld 27 0 (c1.recW 0 f 2)) c1
    else c1

/-- UNCORRECTABLE_FOUND by a read of the tier range. A marked word of an SRAM was logged when it was marked (R430). -/
def readBad (a : Nat) (c : Chip) : Chip :=
  if 0x800000000000 ≤ a then c
  else if 0x400000000000 ≤ a then
    let g := (a - 0x400000000000) / payloadSize
    let w := c.mapW g 0
    granuleBad g (foundBad (gTier w) (gFrame w) a c)
  else foundBad 0 0 a c

/-! ### MEMORY_ACCESS (R312 to R317) -/

/-- A read waits while its granule is refetched (R339). -/
def holdRead (g : Nat) (c : Chip) : Chip :=
  let c1 := startRefetch g c
  match c1.refetchOf g with
  | some r =>
    let d := c.mtm.reqDue
    setRefetch { r with
      waiting := r.waiting + 1
      due := if d ≠ 0xFFFFFFFF ∧ (r.due = 0xFFFFFFFF ∨ serialLt d r.due = true) then d else r.due } c1
  | none => c1

/-- A read of n bytes with all that it brings: served, an access error, poison, or held. -/
def readServe (a n : Nat) (c : Chip) : Chip × RdAns :=
  if !c.extentOk a n then (badAddr a c, .access)
  else
    match c.tasRead a n with
    | .ok l => (noteRead a n c, .ok l)
    | .access => (badAddr a c, .access)
    | .wait g => (holdRead g c, .wait g)
    | .poison x =>
      let c1 := readBad x c
      match c1.tasRead a n with
      | .ok l => (noteRead a n c1, .ok l)
      | .wait g => (holdRead g c1, .wait g)
      | _ => (c1, .poison x)

/-- A read's answer to its requester; a held read has none yet. -/
def memRead (a n : Nat) (c : Chip) : Chip :=
  if n = 0 then c
  else
    let r := readServe a n c
    match r.2 with
    | .ok l => { r.1 with answer := { data := l } }
    | .access => { r.1 with answer := { error := true } }
    | .poison _ => { r.1 with answer := { poison := true, data := List.replicate n 0#8 } }
    | .wait _ => r.1

/-- A write: its bytes, dropped when protected, or an access error. -/
def memWrite (a : Nat) (l : List Byte) (c : Chip) : Chip :=
  if l = [] then c else
  let r := tasWrite a l c
  { r.1 with answer := { error := r.2 == 1 } }

def memoryAccess (write : Bool) (a n : Nat) (l : List Byte) (c : Chip) : Chip :=
  if write then memWrite a l c else memRead a n c

/-! ### GDDR7 (R310, R311, R374) -/

/-- GMC_SCRUB of one 128-byte line. -/
def gmcScrub (i a : Nat) (found : LineRead) (c : Chip) : Chip :=
  let line := a / 128 * 128
  let pg := pgGmc i
  if t0Size ≤ a then c
  else
    let c0 := if t0Size ≤ line + 12288 then c.setGmc i { c.gmc i with scrubAt := c.beat } else c
    match found with
    | .clean => c0
    | .corrected => addrErr (ce pg 8) line (c0.bumpRg (ra pg 0x104) 1)
    | .uncorrectable =>
      let c1 := ((c0.bumpRg (ra pg 0x108) 1).setRg (ra pg 0x10C) (line % 2 ^ 32)).setRg (ra pg 0x110) (line / 2 ^ 32)
      let c2 := addrErr (fun d0 d1 k => logErr { cls := 1, cause := 9, page := pg, d0 := d0, d1 := d1 } k) line
        (irq pg 0 (c1.mark line 128))
      scrubBad line c2

/-- The beats of GMC i's refresh window (R311). -/
def refreshDue (i : Nat) (c : Chip) : Bool :=
  let w := c.rg (mtmReg 0x16C)
  let p := fld 15 0 w
  p != 0 && (c.beat + 2 * p - (fld 31 16 w + i * p / 12) % p) % p == 0
/-- REFRESH_WINDOW: the GMC serves nothing for this beat; what waits is served after it. -/
def refreshWindow (i : Nat) (c : Chip) : Chip :=
  if refreshDue i c ∧ c.pwr.st ≠ 3 then c.setGmc i { c.gmc i with refresh := some c.beat } else c

/-! ### Moving KV frames (R321 to R324) -/

/-- A DEMOTE or MOVE entry for one page (R158). -/
def moveEdit (tier layer page frame : Nat) : List Nat :=
  [(if tier = 0 then 3 else 4) + 32 * layer + 4096 * tier, page, 1, frame]

/-- Name a landed copy: by a publication, or in place while the sequence is parked (R322). -/
def renameKv (m : Mig) (slot : Option Nat) (desc layer page : Nat) (home : Option (Nat × Nat)) (c : Chip) : Chip :=
  match slot with
  | some n =>
    mtmPublish n { edits := [moveEdit m.dstTier layer page m.dst], home := home, dst := some (m.dstTier, m.dst)
                   src := some (m.srcTier, m.src) } c
  | none =>
    let w := leWords 12 (c.bytes (c.descAddr desc) 48)
    let a := pteAddr c (dRoot w) layer page
    let e := c.le a 8
    if eTier e = m.srcTier ∧ eFrame e = m.src ∧ eValid e = true ∧ fld 1 0 (wd w 0) = 2 then
      let c1 := setRef m.dstTier m.dst 1 (c.storeLe a 8 (setFld 32 30 (setFld 29 0 e m.dst) m.dstTier))
      if m.srcTier = 0 then dropT0 m.src c1 else dropLow m.srcTier m.src c1
    else if m.dstTier = 0 then noteLow (c.freeRec 0 m.dst) else dropLow m.dstTier m.dst c

/-- The T0 frame of a granule with a home leaves T0 (R322). -/
def goHome (g : Nat) (c : Chip) : Chip :=
  let w := c.mapW g 0
  let h := c.mapW g 1
  if gTier w = 0 ∧ hTier h ≠ 0 then
    noteLow ((c.freeRec 0 (gFrame w)).setMapW g 0 (setFld 36 36 (gAt w (hTier h) (hFrame h)) 0))
  else c

/-- The bytes of a landed copy: a T0 frame, an expander's frame, or RWRITEs and an RSEAL to the lender (R318,
R325, R327). -/
def fillFrame (m : Mig) (c : Chip) : Chip :=
  let l := c.frameBytes m.srcTier m.src 0 frameSize
  if m.dstTier = 0 then c.store (c.frameAddr m.dst) l
  else
    let c1 := c.fillLow m.dstTier m.dst 0 l
    if m.dstTier = 1 then
      let ctx := fld 29 26 m.dst
      let f := fld 25 0 m.dst
      let msg (kind : Nat) (b : List Byte) (k : Chip) : Chip :=
        sendPkt { dest := (k.loan ctx).peer, kind := kind, cls := 2, due := m.due, tag := ctx, body := leBytes 4 f ++ b } k
      msg 4 [] ([0, 65528, 131056, 196584, 262112].foldl (fun k o => msg 3 (leBytes 4 o ++ (l.drop o).take 65528) k) c1)
    else c1

/-- What a copy that matched leads to. -/
def landMig (m : Mig) (c : Chip) : Chip :=
  match m.kind with
  | .demoteKv slot desc layer page shelf =>
    renameKv m slot desc layer page none
      ((writeShelf shelf m.dstTier m.dst c).setRec m.dstTier m.dst 2 1 31 1 shelf desc)
  | .raiseKv slot desc layer page => renameKv m slot desc layer page none (c.setRec 0 m.dst 2 1 31 0 desc 0)
  | .promoteKv slot layer page =>
    let desc := c.descOf m.srcTier m.src
    let c1 := (setRef m.srcTier m.src 2 c).setRec 0 m.dst 2 1 31 0 desc 0
    renameKv m (some slot) desc layer page (some (m.srcTier, m.src)) (c1.bumpRg (mtmReg 0x168) 1)
  | .evictGranule g =>
    let c1 := (c.setRec m.dstTier m.dst 3 1 (gRegion (c.mapW g 0)) 1 g 0).setMapW g 1 (hAt (c.mapW g 1) m.dstTier m.dst)
    goHome g c1
  | .homeGranule g =>
    ((c.setRec m.dstTier m.dst 3 1 (gRegion (c.mapW g 0)) 1 g 0).setMapW g 1 (hAt (c.mapW g 1) m.dstTier m.dst)).setMapW g 0
      (setFld 37 37 (c.mapW g 0) 0)
  | .copy2 g =>
    ((c.setRec 2 m.dst 3 1 (gRegion (c.mapW g 0)) 1 g 0).setMapW g 1
      (setFld 63 34 (setFld 33 33 (c.mapW g 1) 1) m.dst)).setMapW g 0 (setFld 37 37 (c.mapW g 0) 0)
  | .prefetch g =>
    let pin := c.mtm.pfCopies.any (fun p => p.granule == g && p.pin)
    let w := c.mapW g 0
    let c1 := (c.setRec 0 m.dst 3 1 (gRegion w) 0 g 0).setMapW g 0 (setFld 36 36 (gAt w 0 m.dst) (b2n pin))
    { c1 with mtm := { c1.mtm with pfCopies :=
      (c1.mtm.pfCopies.filter (fun p => p.granule != g || p.drop.isSome)).map (fun p => if p.granule = g then { p with landed := true } else p) } }
  | .vacate g second =>
    let w := c.mapW g 0
    let h := c.mapW g 1
    let c1 := c.setRec m.dstTier m.dst 3 1 (gRegion w) 1 g 0
    if second then dropLow 2 (hCopy2Frame h) ((c1.setMapW g 1 (setFld 63 34 h m.dst)).setMapW g 0 (setFld 37 37 w 0))
    else
      let c2 := c1.setMapW g 1 (hAt h m.dstTier m.dst)
      let c3 := if gTier w = hTier h ∧ gFrame w = hFrame h then c2.setMapW g 0 (gAt w m.dstTier m.dst)
        else c2.setMapW g 0 (setFld 37 37 w 0)
      dropLow (hTier h) (hFrame h) c3

/-- A source found bad by a migration (R338). -/
def migBad (m : Mig) (c : Chip) : Chip :=
  let c1 := foundBad m.srcTier m.src 0 (abandon m c)
  match m.granule with
  | some g =>
    match m.kind with
    | .vacate _ true =>
      let h := c1.mapW g 1
      (retireBad 2 (hCopy2Frame h) c1).setMapW g 1 (setFld 63 33 h 0)
    | _ => granuleBad g c1
  | none => kvBad m.srcTier m.src c1

/-- The copy's CRC matches the source's own (R318). -/
def migMatches (m : Mig) (c : Chip) : Bool :=
  match m.granule with
  | some _ => c.granCrc m.srcTier m.src == c.granRec m.srcTier m.src
  | none => sealCrc c m.srcTier m.src == metaW c m.srcTier m.src 0x18

/-! ### Vacating loans and slots, regions, the prefetch schedule: starting copies -/

/-- Granules and KV frames leave a loan that is being reclaimed or a slot that drains. `src` is a referenced
frame there. -/
def vacateFrame (tier f : Nat) (c : Chip) : Chip :=
  if !c.migFree || bit 8 (c.recW tier f 0) then c
  else if c.recKind tier f = 3 then
    let g := fld 27 0 (c.recW tier f 2)
    let w := c.mapW g 0
    let h := c.mapW g 1
    let second := tier == 2 && hCopy2 h && hCopy2Frame h == f
    if gMoving w then c
    else if second then
      match c.lowT2 (some (fld 29 27 (hFrame h))) |>.or (c.lowT2 none) with
      | some d => beginMig (.vacate g true) tier f 2 d c
      | none => c
    else
      match c.lowDest false with
      | some d => beginMig (.vacate g false) tier f d.1 d.2 c
      | none => c
  else if c.recKind tier f = 2 then
    match c.namers tier f (c.descOf tier f) with
    | [] =>
      -- a home that only a T0 copy holds: the MTM drops its reference
      match (c.usedRecs c.rec0 c.frameCount).find? (fun i => bit 7 (c.recW 0 i 0) && c.recW 0 i 3 == f + 2 ^ 30 * tier) with
      | some i => dropLow tier f (c.setRecW 0 i 0 (setFld 7 7 (c.recW 0 i 0) 0))
      | none => c
    | x :: _ =>
      let layer := fld 7 0 (metaW c tier f 4)
      let page := metaW c tier f 8
      let ok := match x.1 with | some n => decide (2 ≤ (c.slot n).st ∧ (c.slot n).st ≤ 4) | none => true
      if !ok then c else
      let low := if ePin (c.le x.2.2 8) then none else c.lowDest true
      match low, c.takeShelf with
      | some d, some (s, c1) => beginMig (.demoteKv x.1 x.2.1 layer page s) tier f d.1 d.2 c1
      | _, _ =>
        match takeFrame 5 31 x.2.1 c with
        | some (k, c1) => beginMig (.raiseKv x.1 x.2.1 layer page) tier f 0 k c1
        | none => c
  else c

/-- Start what the vacating loans and draining slots still need. -/
def vacateMore (c : Chip) : Chip :=
  let c1 := forEach (List.range 16) (fun l k =>
    if (k.loan l).st = 3 then forEach (k.loanRefd l) (fun i q => vacateFrame 1 (l * 2 ^ 26 + i) q) k else k) c
  forEach (List.range 8) (fun s k =>
    if (k.t2s s).st = 3 then forEach (k.slotRefd s) (fun i q => vacateFrame 2 (s * 2 ^ 27 + i) q) k else k) c1

/-- Whether a region's command has a granule left to copy. -/
def regionNeeds (cmd g : Nat) (c : Chip) : Bool :=
  let w := c.mapW g 0
  let h := c.mapW g 1
  gValid w && gRo w && !gPoison w && (if cmd = 2 then hTier h == 0 else !hCopy2 h)
def regionEnd (st code : Nat) (c : Chip) : Chip :=
  { c with mtm := { c.mtm with regionSt := st, regionCode := code, regionNow := none } }
/-- Go on with REGION_CMD HOME or COPY2. -/
def regionMore (c : Chip) : Chip :=
  match c.mtm.regionNow with
  | none => c
  | some (r, cmd) =>
    let go := forEach (c.regGranules r) (fun g k =>
      let w := k.mapW g 0
      if k.mtm.regionNow.isNone || !k.migFree || gMoving w || !regionNeeds cmd g k then k
      else
        let h := k.mapW g 1
        let home := if hTier h = 2 then some (fld 29 27 (hFrame h)) else none
        let dst := if cmd = 2 then k.lowDest false else ((k.lowT2 home).or (k.lowT2 none)).map (fun f => (2, f))
        match dst with
        | some d => beginMig (if cmd = 2 then .homeGranule g else .copy2 g) (gTier w) (gFrame w) d.1 d.2 k
        | none => regionEnd 3 2 k) c
    if go.mtm.regionNow.isSome && (c.regGranules r).all (fun g => !regionNeeds cmd g go) then regionEnd 2 0 go else go

/-- Start the copies that prefetch records still wait for. -/
def prefetchMore (c : Chip) : Chip :=
  c.mtm.pfCopies.foldl (fun k p =>
    let w := k.mapW p.granule 0
    if p.landed || !k.migFree || gMoving w || gPoison w || gTier w == 0 then k
    else match takeFrame 5 (gRegion w) p.granule k with
      | some (f, k1) => beginMig (.prefetch p.granule) (gTier w) (gFrame w) 0 f k1
      | none => k) c

/-- Start every copy that waits, as far as 16 migrations allow (R321); none start while a drydown entry runs
(R340). -/
def pump (c : Chip) : Chip :=
  if c.pwr.st = 2 then c else prefetchMore (regionMore (vacateMore c))

/-- FRAME_COPY_COMPLETE. -/
def frameCopyComplete (i : Nat) (c : Chip) : Chip :=
  match c.mtm.migs[i]? with
  | none => c
  | some m =>
    if c.mtm.reqs.any (fun r => r.granule.isNone && r.mig == m.id) then c
    else if c.frameBad m.srcTier m.src 0 frameSize || !migMatches m c then pump (migBad m c)
    else pump (landMig m (dropMig m (fillFrame m c)))

/-! ### Eviction and promotion (R321 to R323) -/

/-- T0 frames of an account (R319): bad and lent ones belong to none. -/
def Chip.acctUsed (c : Chip) (a : Nat) : Nat :=
  (c.usedRecs c.rec0 c.frameCount).countP (fun i =>
    fld 13 9 (c.recW 0 i 0) == a && c.recKind 0 i != 6 && c.recKind 0 i != 7)

/-- How a T0 frame could leave: nothing if it is no candidate. -/
inductive Leave where
  | home (slot layer page tier frame : Nat)
  | copyKv (slot : Option Nat) (desc layer page shelf tier frame : Nat)
  | parkedHome (desc layer page tier frame : Nat)
  | granHome (g : Nat)
  | copyGran (g tier frame : Nat)
  deriving DecidableEq, Repr

/-- The conditions of R321 on one frame, with what its leaving takes. -/
def Chip.canLeave (c : Chip) (f : Nat) : Option Leave :=
  let w0 := c.recW 0 f 0
  let acct := fld 13 9 w0
  if c.acctUsed acct ≤ c.rg (bank acct pgMtm 0x158) then none
  else if fld 3 0 w0 = 3 then
    let g := fld 27 0 (c.recW 0 f 2)
    let w := c.mapW g 0
    let h := c.mapW g 1
    if !gRo w || gPinned w || gPoison w || gMoving w || gTier w != 0 || gFrame w != f then none
    else if hTier h ≠ 0 then some (.granHome g)
    else (c.lowDest false).map (fun d => .copyGran g d.1 d.2)
  else if fld 3 0 w0 = 2 then
    if refCnt c 0 f ≠ 1 || !bit 4 w0 || bit 5 w0 || bit 6 w0 || bit 8 w0 then none
    else
      match c.namers 0 f (c.descOf 0 f) with
      | [x] =>
        let e := c.le x.2.2 8
        let layer := fld 7 0 (metaW c 0 f 4)
        let page := metaW c 0 f 8
        let ok := match x.1 with | some n => decide (2 ≤ (c.slot n).st ∧ (c.slot n).st ≤ 4) | none => true
        if !ok || ePin e || ePois e || !eFull e then none
        else if bit 7 w0 then
          let k := c.recW 0 f 3
          match x.1 with
          | some n => some (.home n layer page (fld 31 30 k) (fld 29 0 k))
          | none => some (.parkedHome x.2.1 layer page (fld 31 30 k) (fld 29 0 k))
        else
          match c.takeShelf, c.lowDest true with
          | some (s, _), some d => some (.copyKv x.1 x.2.1 layer page s d.1 d.2)
          | _, _ => none
      | _ => none
  else none

/-- The oldest frame that can leave; ties go to the lower index. -/
def Chip.victim (c : Chip) : Option (Nat × Leave) :=
  (c.usedRecs c.rec0 c.frameCount).foldl (fun b f =>
    match c.canLeave f with
    | none => b
    | some l =>
      match b with
      | none => some (f, l)
      | some (g, _) => if serialLt (c.recW 0 f 1) (c.recW 0 g 1) then some (f, l) else b) none

/-- Move a victim out (R322). -/
def evictFrame (f : Nat) (l : Leave) (c : Chip) : Chip :=
  match l with
  | .home n layer page t h =>
    let c1 := c.setRecW 0 f 0 (setFld 8 8 (c.recW 0 f 0) 1)
    mtmPublish n { edits := [moveEdit t layer page h], src := some (0, f) } c1
  | .parkedHome desc layer page t h =>
    let a := pteAddr c (dRoot (leWords 12 (c.bytes (c.descAddr desc) 48))) layer page
    let c1 := c.storeLe a 8 (setFld 32 30 (setFld 29 0 (c.le a 8) h) t)
    -- the home's reference is now the entry's
    dropT0 f (setRef t h 1 (c1.setRecW 0 f 0 (setFld 7 7 (c1.recW 0 f 0) 0)))
  | .copyKv slot desc layer page s t d =>
    beginMig (.demoteKv slot desc layer page s) 0 f t d
      { c with mtm := { c.mtm with shelf := insertAsc s c.mtm.shelf } }
  | .granHome g => goHome g c
  | .copyGran g t d => beginMig (.evictGranule g) 0 f t d c

/-- Whether the MTM evicts (R321): a short reserve, the pool below LOW or not yet back at HIGH, a prefetch
that has no frame. -/
def Chip.mustEvict (c : Chip) : Bool :=
  let w := c.rg (mtmReg 0x150)
  (List.range 32).any (fun n => let s := c.slot n; decide (1 ≤ s.st ∧ s.st ≤ 4 ∧ s.short ≠ 0)) ||
  decide (c.poolFree < fld 15 0 w * 64) || (c.mtm.evicting && decide (c.poolFree < fld 31 16 w * 64)) ||
  c.mtm.pfCopies.any (fun p => !p.landed && gTier (c.mapW p.granule 0) != 0 && !gMoving (c.mapW p.granule 0))

/-- EVICTION. -/
def eviction (c : Chip) : Chip :=
  if !c.poolEn || !c.mustEvict || !c.migFree || c.pwr.st == 2 then c
  else
    let w := c.rg (mtmReg 0x150)
    let ev := decide (c.poolFree < fld 15 0 w * 64) || (c.mtm.evicting && decide (c.poolFree < fld 31 16 w * 64))
    let c1 := { c with mtm := { c.mtm with evicting := ev } }
    match c1.victim with
    | some (f, l) => pump (evictFrame f l (c1.bumpRg (mtmReg 0x160) 1))
    | none => ce pgMtm 14 0 0 (irq pgMtm 1 (c1.bumpRg (mtmReg 0x164) 1))

/-- PROMOTION, for a visit of a walk to a page in T1 or T2. -/
def promotion (n layer page : Nat) (c : Chip) : Chip :=
  let s := c.slot n
  if !bit 2 c.mtmCtl || !c.migFree || !decide (2 ≤ s.st ∧ s.st ≤ 4) || c.pwr.st == 2 ||
     decide (c.poolFree ≤ fld 15 0 (c.rg (mtmReg 0x150)) * 64) ||
     decide (dLayers s.words ≤ layer ∨ dBlocks s.words * 512 ≤ page) then c
  else
    let e := pte c s.root layer page
    let t := eTier e
    let f := eFrame e
    if !eValid e || t == 0 || ePois e || c.frameBad t f 0 1 || c.recKind t f != 2 || refCnt c t f != 1 ||
       bit 8 (c.recW t f 0) then c
    else match takeFrame 5 31 s.desc c with
      | some (k, c1) => beginMig (.promoteKv n layer page) t f 0 k c1
      | none => c

/-! ### Regions (R314) -/

/-- A granule is sealed: its record written, RO set in its entry and in its frame's record. -/
def sealGranule (r g : Nat) (c : Chip) : Chip :=
  let f := gFrame (c.mapW g 0)
  let a := c.frameAddr f
  let c1 := c.store (a + payloadSize)
    (leBytes 4 g ++ leBytes 4 r ++ leBytes 4 (crc32 (c.bytes a payloadSize)) ++ List.replicate 4084 0#8)
  (c1.setMapW g 0 (setFld 34 34 (c1.mapW g 0) 1)).setRecW 0 f 0 (setFld 4 4 (c1.recW 0 f 0) 1)

/-- REGION_CMD SEAL. -/
def regionSeal (r v : Nat) (c : Chip) : Chip :=
  if 31 ≤ r then ignored (mtmReg 0x1A0) v c
  else
    let gs := c.regGranules r
    if rgReserved (c.regEntry r) ||
       gs.any (fun g => decide (c.granules ≤ g) || !gValid (c.mapW g 0) || gReserved (c.mapW g 0) || gTier (c.mapW g 0) != 0) then regionEnd 3 1 c
    else
      let c1 := forEach gs (sealGranule r) c
      let e := c1.regionBase + 32 * r + 0x10
      regionEnd 2 0 (c1.storeLe e 4 (setFld 8 8 (c1.le e 4) 1))

/-- REGION_CMD HOME and COPY2. -/
def regionStart (r cmd v : Nat) (c : Chip) : Chip :=
  if 31 ≤ r ∨ c.mtm.regionNow.isSome then ignored (mtmReg 0x1A0) v c
  else pump { c with mtm := { c.mtm with regionSt := 1, regionCode := 0, regionNow := some (r, cmd) } }

/-! ### Lending (R325 to R328) -/

/-- Loan map entry i of lent context l (R326). -/
def Chip.loanMapAt (c : Chip) (l i : Nat) : Nat := c.loanArea + l * c.loanMax * 16 + 4 * i
def Chip.lentFrame (c : Chip) (l i : Nat) : Nat := c.le (c.loanMapAt l i) 4
/-- A loan's state changes: IRQ_STS bit 4 (R341). -/
def setLoanSt (l st : Nat) (c : Chip) : Chip := irq pgMtm 4 (c.setLoan l { c.loan l with st := st })
/-- The lent context that a borrower's message names, and the borrowed one that a lender's names. -/
def Chip.lentTo (c : Chip) (p : Packet) : Option Nat :=
  ((List.range 16).map (16 + ·)).find? (fun l =>
    let x := c.loan l
    (x.st == 2 || x.st == 3) && x.peer == p.src && x.peerCtx == fld 4 0 p.tag)
def Chip.borrowedFrom (c : Chip) (p : Packet) : Option Nat :=
  (List.range 16).find? (fun l =>
    let x := c.loan l
    (x.st == 2 || x.st == 3) && x.peer == p.src && x.peerCtx == fld 4 0 p.tag)
def loanMsg (l kind : Nat) (body : List Byte) (c : Chip) : Chip :=
  sendPkt { dest := (c.loan l).peer, kind := kind, cls := 0, tag := l, body := body } c
/-- A command's status (R341). -/
def loanStatus (l n : Nat) (c : Chip) : Chip := c.setLoan l { c.loan l with cmd := n }

/-- LOAN_CMD OFFER. -/
def loanOfferCmd (l : Nat) (c : Chip) : Chip :=
  if l < 16 ∨ (c.loan l).st ≠ 0 then loanStatus l 1 c
  else
    let peer := fld 10 0 (c.rg (bank l pgMtm 0x1B0))
    let n := fld 25 0 (c.rg (bank l pgMtm 0x1B4))
    if c.poolFree < n + fld 29 0 (c.rg (mtmReg 0x1CC)) ∨ c.loanMax < n ∨ (c.egress peer 0).1 ≠ c.sliceId then
      loanStatus l 2 c
    else
      let c1 := forEach (List.range n) (fun i k =>
        match takeFrame 7 31 0 k with
        | some (f, k1) => k1.storeLe (k1.loanMapAt l i) 4 f
        | none => k) c
      loanMsg l 0x30 (leBytes 4 n) (irq pgMtm 4 (c1.setLoan l { st := 1, peer := peer, frames := n }))

/-- LOAN_OFFER received. -/
def onOffer (p : Packet) (c : Chip) : Chip :=
  let n := fld 25 0 (at_ p.body 0 4)
  let free := (List.range 16).find? (fun l => (c.loan l).st == 0)
  match free with
  | some l =>
    if bit 6 c.mtmCtl ∧ n ≤ c.loanMax then
      let c1 := (c.zero (c.loanRecs l) (16 * n)).setLoan l { st := 2, peer := p.src, peerCtx := fld 4 0 p.tag, frames := n }
      let c2 := (c1.setRg (bank l pgMtm 0x1B0) p.src).setRg (bank l pgMtm 0x1B4) n
      loanMsg l 0x31 (leBytes 4 l) (irq pgMtm 4 c2)
    else sendPkt { dest := p.src, kind := 0x32, cls := 0, tag := p.tag, body := [0#8] } c
  | none => sendPkt { dest := p.src, kind := 0x32, cls := 0, tag := p.tag, body := [0#8] } c

def Chip.offeredTo (c : Chip) (peer : Nat) : Option Nat :=
  ((List.range 16).map (16 + ·)).find? (fun l => (c.loan l).st == 1 && (c.loan l).peer == peer)
/-- LOAN_ACCEPT received. -/
def onAccept (p : Packet) (c : Chip) : Chip :=
  match c.offeredTo p.src with
  | some l => setLoanSt l 2 (c.setLoan l { c.loan l with peerCtx := fld 4 0 (at_ p.body 0 4) })
  | none => c
/-- Return lent frames to the pool, zeroed. -/
def returnLent (l : Nat) (c : Chip) : Chip :=
  let c1 := forEach (List.range (c.loan l).frames) (fun i k =>
    let f := k.lentFrame l i
    (k.zero (k.frameAddr f) frameSize).freeRec 0 f) c
  noteLow (irq pgMtm 4 (c1.setLoan l {}))
/-- LOAN_DECLINE received. -/
def onDecline (p : Packet) (c : Chip) : Chip :=
  match c.offeredTo p.src with
  | some l => returnLent l c
  | none => c

/-- LOAN_CMD RECLAIM. -/
def loanReclaimCmd (l : Nat) (c : Chip) : Chip :=
  if l < 16 ∨ (c.loan l).st ≠ 2 then loanStatus l 1 c
  else
    let d := c.beat + fld 23 0 (c.rg (mtmReg 0x1D0))
    loanMsg l 0x33 (leBytes 4 d) (setLoanSt l 3 (c.setLoan l { c.loan l with cmd := 0, deadline := some d }))
/-- LOAN_CMD RETURN. -/
def loanReturnCmd (l : Nat) (c : Chip) : Chip :=
  if 16 ≤ l ∨ (c.loan l).st ≠ 2 then loanStatus l 1 c
  else pump (setLoanSt l 3 (c.setLoan l { c.loan l with cmd := 0 }))
/-- RECLAIM received. -/
def onReclaim (p : Packet) (c : Chip) : Chip :=
  match c.borrowedFrom p with
  | some l =>
    if (c.loan l).st = 2 then
      pump (setLoanSt l 3 (c.setLoan l { c.loan l with deadline := some (at_ p.body 0 4) }))
    else c
  | none => c
/-- VACATE_COMPLETE: nothing of the loan is referenced, in quarantine or being filled. -/
def vacateComplete (l : Nat) (c : Chip) : Chip :=
  if l < 16 ∧ (c.loan l).st = 3 ∧ (c.loan l).sent = false ∧ c.loanRefd l = [] ∧
     c.quar.any (fun q => !q.unit && q.tier == 1 && fld 29 26 q.idx == l) = false then
    loanMsg l 0x34 [0#8] (c.setLoan l { c.loan l with sent := true })
  else c
/-- VACATED received. -/
def onVacated (p : Packet) (c : Chip) : Chip :=
  match c.lentTo p with
  | some l => returnLent l (loanMsg l 0x35 [0#8] c)
  | none => c
/-- LOAN_END received. -/
def onLoanEnd (p : Packet) (c : Chip) : Chip :=
  match c.borrowedFrom p with
  | some l => irq pgMtm 4 ((c.zero (c.loanRecs l) (16 * (c.loan l).frames)).setLoan l {})
  | none => c
/-- RECLAIM_DEADLINE: once, and the lender goes on serving. -/
def reclaimDeadline (l : Nat) (c : Chip) : Chip :=
  let x := c.loan l
  match x.deadline with
  | some d =>
    if 16 ≤ l ∧ x.st = 3 ∧ d ≤ c.beat ∧ x.passed = false then
      ce pgMtm 13 l d (irq pgMtm 5 (c.setLoan l { x with passed := true }))
    else c
  | none => c

/-- What lies on a tier part that is gone: copies into it are abandoned, and homes there are cleared (R337,
R340). -/
def clearHomes (tier part : Nat) (c : Chip) : Chip :=
  let there (t f : Nat) : Bool := t == tier && (if tier = 1 then fld 29 26 f else fld 29 27 f) == part
  let c1 := abandonIf (fun m => there m.dstTier m.dst) c
  let c2 := forEach (c1.usedRecs c1.rec0 c1.frameCount) (fun i k =>
    let x := k.recW 0 i 3
    if bit 7 (k.recW 0 i 0) && there (fld 31 30 x) (fld 29 0 x) then k.setRecW 0 i 0 (setFld 7 7 (k.recW 0 i 0) 0) else k) c1
  let c3 := forEach c2.usedMap (fun g k =>
    let h := k.mapW g 1
    let k1 := if there (hTier h) (hFrame h) then k.setMapW g 1 (hAt h 0 0) else k
    if tier = 2 ∧ hCopy2 h = true ∧ there 2 (hCopy2Frame h) = true then k1.setMapW g 1 (setFld 63 33 (k1.mapW g 1) 0) else k1) c2
  c3

/-- A lender is lost (R328): the borrowed context is GONE and its frames are uncorrectable. -/
def loanLost (l : Nat) (c : Chip) : Chip :=
  let c1 := setLoanSt l 4 c
  let c2 := { c1 with mtm := { c1.mtm with reqs := c1.mtm.reqs.filter (fun r => r.granule.isSome || r.loan != l) } }
  ucSlice pgMtm 13 l 0 0 (clearHomes 1 l c2)

/-- A route leads to a module: for some class (R214). -/
def Chip.reaches (c : Chip) (dest : Nat) : Bool :=
  (List.range 3).any (fun k => let o := (c.egress dest k).2; o == 6 || (decide (o < 6) && c.portUp o))
/-- Loans whose lender no route reaches any more are lost (R328). -/
def loansCut (c : Chip) : Chip :=
  forEach (List.range 16) (fun l k =>
    let x := k.loan l
    if (x.st = 2 ∨ x.st = 3) ∧ k.reaches x.peer = false then loanLost l k else k) c

/-- An RERR to a requester (R325). -/
def sendRerr (p : Packet) (tag cause : Nat) (c : Chip) : Chip :=
  sendPkt { dest := p.src, kind := 7, cls := 0, tag := p.tag, body := leBytes 4 tag ++ leBytes 4 cause } c
/-- RDATA packets with a request's bytes: bodies of at most 65,536 bytes, in order. -/
def sendRdata (p : Packet) (tag : Nat) (l : List Byte) (c : Chip) : Chip :=
  forEach (List.range (max 1 (ceilDiv l.length 65532))) (fun i k =>
    sendPkt { dest := p.src, kind := 2, cls := p.cls, due := p.due, tag := p.tag
              body := leBytes 4 tag ++ (l.drop (65532 * i)).take 65532 } k) c

/-- RREAD received. -/
def onRread (p : Packet) (c : Chip) : Chip :=
  let i := fld 25 0 (at_ p.body 0 4)
  let off := fld 18 0 (at_ p.body 4 4)
  let len := fld 16 0 (at_ p.body 8 4)
  let tag := fld 15 0 (at_ p.body 12 4)
  match c.lentTo p with
  | none => sendRerr p tag 1 c
  | some l =>
    if (c.loan l).frames ≤ i ∨ len = 0 ∨ 65536 < len ∨ frameSize < off + len then sendRerr p tag 2 c
    else
      let f := c.lentFrame l i
      if c.frameBad 0 f off len then sendRerr p tag 3 c else sendRdata p tag (c.frameBytes 0 f off len) c

/-- RWRITE received. -/
def onRwrite (p : Packet) (c : Chip) : Chip :=
  let i := fld 25 0 (at_ p.body 0 4)
  let off := fld 18 0 (at_ p.body 4 4)
  let d := p.body.drop 8
  match c.lentTo p with
  | none => sendRerr p 0 1 c
  | some l =>
    if (c.loan l).frames ≤ i ∨ frameSize < off + d.length then sendRerr p 0 2 c
    else if (c.loan l).sealed.contains i then sendRerr p 0 2 (addrErr (ucOp pgMtm 8 0) (c.frameAddr (c.lentFrame l i) + off) c)
    else c.store (c.frameAddr (c.lentFrame l i) + off) d
/-- RSEAL and RFREE received. -/
def onRseal (p : Packet) (on : Bool) (c : Chip) : Chip :=
  let i := fld 25 0 (at_ p.body 0 4)
  match c.lentTo p with
  | some l =>
    let x := c.loan l
    if x.frames ≤ i then c
    else c.setLoan l { x with sealed := if on then insertAsc i x.sealed else x.sealed.filter (· != i) }
  | none => c

/-- GREAD received. -/
def onGread (p : Packet) (c : Chip) : Chip :=
  let r := fld 4 0 (at_ p.body 0 4)
  let o := fld 27 0 (at_ p.body 4 4)
  let tag := fld 15 0 (at_ p.body 8 4)
  let e := c.regEntry r
  let g := rgFirst e + o
  if 31 ≤ r ∨ rgCount e ≤ o ∨ c.granules ≤ g then sendRerr p tag 2 c
  else
    let w := c.mapW g 0
    if !gValid w || gTier w != 0 then sendRerr p tag 4 c
    else if gPoison w || c.frameBad 0 (gFrame w) 0 payloadSize then sendRerr p tag 3 c
    else sendRdata p tag (c.frameBytes 0 (gFrame w) 0 payloadSize) (noteRead (0x400000000000 + g * payloadSize) 1 c)

def Chip.reqOf (c : Chip) (tag : Nat) : Option RemReq := c.mtm.reqs.find? (fun r => r.tag == tag)
def dropReq (tag : Nat) (c : Chip) : Chip := { c with mtm := { c.mtm with reqs := c.mtm.reqs.filter (fun r => r.tag != tag) } }

/-- RDATA received: a request is complete once every byte it asked for has come. -/
def onRdata (p : Packet) (c : Chip) : Chip :=
  let tag := fld 15 0 (at_ p.body 0 4)
  match c.reqOf tag with
  | none => c
  | some r =>
    if p.src ≠ r.pkt.dest then c
    else
      let got := r.got ++ p.body.drop 4
      if got.length < r.len then
        { c with mtm := { c.mtm with reqs := c.mtm.reqs.map (fun q => if q.tag = tag then { q with got := got } else q) } }
      else
        let c1 := dropReq tag c
        match r.granule with
        | none =>
          match c1.mtm.migs.find? (fun m => m.id == r.mig) with
          | some m => c1.fillLow 1 m.src r.off (got.take r.len)
          | none => c1
        | some g =>
          if gPoison (c1.mapW g 0) then
            -- the CRC of the module's own record of the granule: that of the frame last named
            match offerRefetch g 1 (got.take r.len) (c1.granRec (gTier (c1.mapW g 0)) (gFrame (c1.mapW g 0))) c1 with
            | some c2 => c2
            | none => nextSource g c1
          else c1

/-! ### Service (R311, R332) -/

/-- T0 ranges that an access reads or writes: of granules those in T0. -/
def Chip.t0Ranges (c : Chip) (a n : Nat) : List (Nat × Nat) :=
  if a < t0Size then [(a, n)]
  else (granulesOf a n).filterMap (fun g =>
    let w := c.mapW g 0
    let g0 := 0x400000000000 + g * payloadSize
    let lo := max a g0
    let hi := min (a + n) (g0 + payloadSize)
    if g < c.granules ∧ gValid w = true ∧ gTier w = 0 then some (c.frameAddr (gFrame w) + (lo - g0), hi - lo) else none)
/-- The channel of a line of T0 (R310): the run it stands in touches each channel once. -/
def lineChannel (line : Nat) : Nat := Config.runOrder (line / 96) ⟨line % 96, Nat.mod_lt _ (by decide)⟩
/-- The GMC for which a line of T0 waits: one in its refresh window, or with the line's channel being retrained. -/
def Chip.lineHeld (c : Chip) (line : Nat) : Option Nat :=
  let ch := lineChannel line
  let g := c.gmc (ch / 8)
  if g.refresh = some c.beat ∨ bit (ch % 8) g.steered = true then some (ch / 8) else none
/-- The GMC for which a request to these ranges waits. -/
def Chip.heldAt (c : Chip) (rs : List (Nat × Nat)) : Option Nat :=
  if (List.range 12).all (fun i => (c.gmc i).refresh != some c.beat && (c.gmc i).steered == 0) then none
  else rs.findSome? (fun r =>
    if r.2 = 0 then none
    else (List.range ((r.1 + r.2 - 1) / 128 - r.1 / 128 + 1)).findSome? (fun i => c.lineHeld (r.1 / 128 + i)))
/-- T0 ranges of a request. -/
def Chip.reqRanges (c : Chip) : GmcWhat → List (Nat × Nat)
  | .access _ a n _ => c.t0Ranges a n
  | .rread p =>
    match c.lentTo p with
    | some l => [(c.frameAddr (c.lentFrame l (fld 25 0 (at_ p.body 0 4))) + fld 18 0 (at_ p.body 4 4), fld 16 0 (at_ p.body 8 4))]
    | none => []
  | .gread p => c.t0Ranges (0x400000000000 + (rgFirst (c.regEntry (fld 4 0 (at_ p.body 0 4))) + fld 27 0 (at_ p.body 4 4)) * payloadSize) payloadSize
/-- Serve a request. -/
def serveReq (w : GmcWhat) (due : Nat) (c : Chip) : Chip :=
  match w with
  | .access wr a n l =>
    let k := memoryAccess wr a n l { c with mtm := { c.mtm with reqDue := due } }
    { k with mtm := { k.mtm with reqDue := 0xFFFFFFFF } }
  | .rread p => onRread p c
  | .gread p => onGread p c
/-- A request comes: it waits at a GMC that does not serve it now, or is served. -/
def gmcRequest (q : GmcReq) (c : Chip) : Chip :=
  match c.heldAt (c.reqRanges q.what) with
  | some i => c.setGmc i { c.gmc i with waiting := (c.gmc i).waiting ++ [q] }
  | none => serveReq q.what q.due c

/-- The order of service: earliest DUE as a serial number, none being last; then class; then age. -/
def reqBefore (a b : GmcReq) : Bool :=
  if a.due = b.due then decide (a.cls < b.cls)
  else if a.due = 0xFFFFFFFF then false else if b.due = 0xFFFFFFFF then true else serialLt a.due b.due
/-- The request served next: every sixteenth service is for the oldest without a DUE. -/
def nextServed (turn : Nat) (l : List GmcReq) : Option GmcReq :=
  let best := l.foldl (fun b q => match b with | some x => if reqBefore q x then some q else b | none => some q) none
  if turn = 15 then (l.find? (fun q => q.due == 0xFFFFFFFF)).orElse (fun _ => best) else best
/-- One service of GMC i; an access that waits no more leaves its answer. -/
def serveOne (i : Nat) (c : Chip) : Chip :=
  let g := c.gmc i
  match nextServed g.turn g.waiting with
  | none => c
  | some q =>
    let c1 := c.setGmc i { g with
      waiting := g.waiting.erase q
      turn := if g.waiting.any (fun x => x.due == 0xFFFFFFFF) then (g.turn + 1) % 16 else 0 }
    match c1.heldAt (c1.reqRanges q.what), q.what with
    | some _, _ => gmcRequest q c1
    | none, .access wr a n l =>
      let c2 := serveReq (.access wr a n l) q.due c1
      { c2 with served := c2.served ++ [c2.answer] }
    | none, w => serveReq w q.due c1
/-- What waits at GMC i is served. -/
def serveGmc (i : Nat) (c : Chip) : Chip := (c.gmc i).waiting.foldl (fun k _ => serveOne i k) c
/-- At a beat boundary the requests that waited for a refresh window are served (R311). -/
def serveWaiting (c : Chip) : Chip :=
  if (List.range 12).all (fun i => (c.gmc i).waiting == []) then c
  else forEach (List.range 12) serveGmc { c with served := [] }

/-- RERR received. A reserved cause or bit makes it malformed, and it is rejected: its request goes on to its timeout
(R4, R327). -/
def onRerr (p : Packet) (c : Chip) : Chip :=
  if fld 31 16 (at_ p.body 0 4) ≠ 0 ∨ at_ p.body 4 4 = 0 ∨ 4 < at_ p.body 4 4 then c else
  match c.reqOf (fld 15 0 (at_ p.body 0 4)) with
  | none => c
  | some r =>
    if p.src ≠ r.pkt.dest then c
    else
      let c1 := dropReq r.tag c
      let cause := fld 3 0 (at_ p.body 4 4)
      match r.granule with
      | some g => nextSource g c1
      | none =>
        if cause = 1 then loanLost r.loan c1
        else match c1.mtm.migs.find? (fun m => m.id == r.mig) with
          | some m => if cause = 3 then pump (migBad m c1) else abandon m c1
          | none => c1

/-- LOAN_REQUEST_TIMEOUT (R327): sent again once; then the lender counts as lost, or the next source of a
refetch is asked. -/
def loanRequestTimeout (tag : Nat) (c : Chip) : Chip :=
  match c.reqOf tag with
  | none => c
  | some r =>
    if c.beat < r.deadline then c
    else if r.resent = false then
      sendPkt r.pkt { c with mtm := { c.mtm with reqs := c.mtm.reqs.map (fun q =>
        if q.tag = tag then { q with resent := true, got := [], deadline := c.beat + fld 15 0 (c.rg (mtmReg 0x1D4)) } else q) } }
    else match r.granule with
      | some g => nextSource g (dropReq tag c)
      | none => loanLost r.loan (dropReq tag c)

/-- REFETCH_TIMEOUT: the held reads complete with poison, and each reader's operation takes a UC. -/
def refetchTimeout (g : Nat) (c : Chip) : Chip :=
  match c.refetchOf g with
  | none => c
  | some r =>
    if c.beat < r.deadline then c
    else
      let c1 := match r.frame with | some f => noteLow (c.freeRec 0 f) | none => c
      let c2 := (List.range r.waiting).foldl (fun k _ => ucOp pgMtm 11 0 g 0 k) (endRefetch g 4 c1)
      if r.waiting = 0 then c2 else { c2 with answer := { poison := true } }

/-! ### The prefetch schedule (R329 to R331) -/

def Chip.pfCfg (c : Chip) : Nat := c.rg (mtmReg 0x178)
def Chip.pfLen (c : Chip) : Nat := fld 12 0 c.pfCfg
def Chip.pfCtx (c : Chip) : Nat := fld 20 16 c.pfCfg
def Chip.pfBeats (c : Chip) : Bool := bit 24 c.pfCfg
/-- Record i: its eight words. -/
def Chip.pfRec (c : Chip) (i : Nat) : List Nat := leWords 8 (c.bytes (c.rg64 (mtmReg 0x170) + 32 * i) 32)
/-- A record breaks R329. -/
def pfBad (period : Nat) (w : List Nat) : Bool :=
  fld 31 28 (wd w 0) != 0 || fld 31 16 (wd w 1) != 0 || fld 15 0 (wd w 1) == 0 || decide (period ≤ wd w 2) ||
  fld 15 0 (wd w 3) == 0 || fld 31 1 (wd w 4) != 0 || wd w 5 != 0 || wd w 6 != 0 || wd w 7 != 0
/-- AT does not decrease. -/
def rising : List Nat → Bool
  | a :: b :: t => decide (a ≤ b) && rising (b :: t)
  | _ => true

/-- PF_CMD GO: started, or refused while STATE stays (R329, R457); a first beat that has passed is late (R10). -/
def pfGo (v : Nat) (c : Chip) : Chip :=
  let n := c.pfLen
  let rs := (List.range n).map c.pfRec
  let bad := decide (n = 0 ∨ 4096 < n) || c.rg64 (mtmReg 0x170) % 32 != 0 || c.rg (mtmReg 0x17C) == 0 ||
    rs.any (pfBad (c.rg (mtmReg 0x17C))) || !rising (rs.map (fun w => wd w 2)) || c.mtm.pfSt == 1 || !bit 1 c.mtmCtl
  if bad then ignored (mtmReg 0x188) v c
  else
    let c1 := { c with mtm := { c.mtm with pfSt := 1, pfNext := 0, pfPass := 0 } }
    if c.pfBeats then armCe pgMtm (c.rg64 (mtmReg 0x180)) c1 else c1
/-- PF_CMD STOP. -/
def pfStop (v : Nat) (c : Chip) : Chip :=
  if c.mtm.pfSt = 1 then { c with mtm := { c.mtm with pfSt := 2 } } else ignored (mtmReg 0x188) v c

/-- Where the schedule stands: group step or beat, and the beat at which that step started. -/
def Chip.pfNow (c : Chip) : Option (Nat × Nat) :=
  if c.pfBeats then some (c.beat, c.beat)
  else
    let r := c.ring c.pfCtx
    if r.st = 3 ∨ r.st = 4 ∨ r.st = 5 then some (r.gstep, r.start) else none

/-- A granule of a record that is issued: one in T0 counts as used, one in a lower tier gets a copy unless one is on its way. -/
def pfGranule (need : Nat) (drop : Option Nat) (pin : Bool) (g : Nat) (c : Chip) : Chip :=
  let e := c.mapW g 0
  if c.granules ≤ g ∨ gValid e = false then c
  else if gTier e = 0 then c.touch 0 (gFrame e)
  else if c.mtm.pfCopies.any (fun p => p.granule == g && !p.landed) then c
  else { c with mtm := { c.mtm with pfCopies := c.mtm.pfCopies.filter (fun p => p.granule != g) ++
    [{ granule := g, need := need, drop := drop, pin := pin }] } }
/-- The schedule goes on to its next record, after the last one to the next pass. -/
def pfNextRec (c : Chip) : Chip :=
  if c.mtm.pfNext + 1 < c.pfLen then { c with mtm := { c.mtm with pfNext := c.mtm.pfNext + 1 } }
  else { c with mtm := { c.mtm with pfNext := 0, pfPass := c.mtm.pfPass + 1 } }

/-- PREFETCH_ISSUE: the next record, once its point has come. -/
def prefetchIssue (c : Chip) : Chip :=
  if c.mtm.pfSt ≠ 1 ∨ bit 1 c.mtmCtl = false ∨ c.pwr.st = 2 ∨ c.pwr.st = 3 then c
  else if c.pfBeats = false ∧ (c.ring c.pfCtx).st = 0 then { c with mtm := { c.mtm with pfSt := 2 } }
  else
    match c.pfNow with
    | none => c
    | some (pos, start) =>
      let w := c.pfRec c.mtm.pfNext
      let pt := c.rg64 (mtmReg 0x180) + c.mtm.pfPass * c.rg (mtmReg 0x17C) + wd w 2
      if pos < pt ∨ (c.pfBeats = true ∧ c.come pt = false) then c
      else
        let ahead := fld 15 0 (wd w 3)
        let keep := fld 31 16 (wd w 3)
        let need := if c.pfBeats then pt + ahead else start + ahead * (c.ring c.pfCtx).stepBeats
        let drop := if keep = 0xFFFF then none else some (pt + ahead + keep)
        pump (pfNextRec (forEach ((List.range (fld 15 0 (wd w 1))).map (fld 27 0 (wd w 0) + ·)) (pfGranule need drop (bit 0 (wd w 4))) c))

/-- PREFETCH_LATE. -/
def prefetchLate (g : Nat) (c : Chip) : Chip :=
  match c.mtm.pfCopies.find? (fun p => p.granule == g && !p.landed && !p.late && decide (p.need ≤ c.beat)) with
  | none => c
  | some p =>
    let c1 := { c with mtm := { c.mtm with pfCopies := c.mtm.pfCopies.map (fun q => if q = p then { q with late := true } else q) } }
    ce pgMtm 12 g (p.need % 2 ^ 32) (irq pgMtm 2 (c1.bumpRg (mtmReg 0x190) 1))

/-- PREFETCH_DROP: a copy that a record made leaves T0 again. -/
def prefetchDrop (g : Nat) (c : Chip) : Chip :=
  match c.mtm.pfCopies.find? (fun p => p.granule == g), c.pfNow with
  | some p, some (pos, _) =>
    match p.drop with
    | some d =>
      if pos < d then c
      else
        let c1 := { c with mtm := { c.mtm with pfCopies := c.mtm.pfCopies.filter (fun q => q.granule != g) } }
        let c2 := abandonIf (fun m => m.kind == .prefetch g) c1
        if p.landed && !gMoving (c2.mapW g 0) && !gPoison (c2.mapW g 0) then goHome g c2 else c2
    | none => c
  | _, _ => c

/-! ### Expanders (R334 to R337, R415) -/

/-- A T2 slot changes state: its bit of the CXL page's IRQ_STS (R342). -/
def setT2St (s : Nat) (x : T2) (c : Chip) : Chip := irq (pgCxl (s / 4)) (s % 4) (c.setT2 s x)
/-- The code of R335 for a device, 0 for none. -/
def deviceCode (s : Nat) (d : CxlDevice) (c : Chip) : Nat :=
  let others := ((List.range 8).filter (· != s)).map (fun i =>
    let t := c.t2s i
    if 1 ≤ t.st ∧ t.st ≤ 3 then t.capMiB else 0)
  if !d.type3 then 1 else if !d.flit256 then 2 else if d.capMiB = 0 then 3
  else if 4194304 < others.sum + d.capMiB then 4
  else if bit 1 (c.rg (ra (pgCxl (s / 4)) 0x104)) && !d.ideUp then 5
  else if d.deepSwitch then 6 else 0

/-- CXL_DEVICE_ADD. A device that the life-cycle record lists is sanitised before it can come ONLINE (R415). -/
def cxlDeviceAdd (s : Nat) (d : CxlDevice) (c : Chip) : Chip :=
  let t := c.t2s s
  if t.st = 0 ∨ t.st = 4 ∨ t.st = 5 then
    let code := deviceCode s d c
    let listed := c.flash.sanList.contains d.serial
    let pg := pgCxl (s / 4)
    let c1 := c.setCxl (s / 4) { st := 2, width := d.width, rate := d.rate, switch := d.viaSwitch, ide := d.ideUp }
    if code ≠ 0 then ce pg 11 s code (setT2St s { st := 5, refuse := code, dev := d } c1)
    else if c.flash.wipePend && !listed && decide (8 ≤ c.flash.sanList.length) then
      ucSlice pg 11 s d.serial 0 (setT2St s { st := 5, dev := d } c1)
    else
      let must := c.flash.wipePend || listed
      let c2 := if must && !listed then { c1 with flash := { c1.flash with sanList := c1.flash.sanList ++ [d.serial] } } else c1
      setT2St s { st := 1, dev := d, capMiB := d.capMiB, sanitize := must } c2
  else c

/-- SLOT_CMD ONLINE. -/
def cxlOnline (s v : Nat) (c : Chip) : Chip :=
  let t := c.t2s s
  let a := c.slotRecs s
  let n := t.capMiB * 1048576 / frameSize
  if t.st ≠ 1 ∨ t.sanitize = true ∨ a % 16 ≠ 0 ∨ t0Size < a + 16 * n then
    ignored (bank (s % 4) (pgCxl (s / 4)) 0x128) v c
  else setT2St s { t with st := 2, frames := n } (c.zero a (16 * n))
/-- SLOT_CMD DRAIN. -/
def cxlDrain (s v : Nat) (c : Chip) : Chip :=
  let t := c.t2s s
  if t.st ≠ 2 then ignored (bank (s % 4) (pgCxl (s / 4)) 0x128) v c
  else pump (setT2St s { t with st := 3 } c)
/-- SLOT_CMD OFFLINE. -/
def cxlOffline (s v : Nat) (c : Chip) : Chip :=
  let t := c.t2s s
  if (t.st = 2 ∨ t.st = 3) ∧ c.slotRefd s = [] then
    setT2St s {} (c.zero (c.slotRecs s) (16 * t.frames))
  else if t.st = 1 ∨ t.st = 5 then setT2St s {} c
  else ignored (bank (s % 4) (pgCxl (s / 4)) 0x128) v c

/-- CXL_SURPRISE_REMOVAL. -/
def cxlSurprise (s : Nat) (c : Chip) : Chip :=
  let t := c.t2s s
  if 1 ≤ t.st ∧ t.st ≤ 3 then
    let c1 := setT2St s { t with st := 4 } c
    ucSlice (pgCxl (s / 4)) 9 s 0 0 (if t.st = 1 then c1 else clearHomes 2 s c1)
  else if t.st = 5 then setT2St s {} c
  else c

/-- SANITIZE_COMPLETE: success takes the device off the list. -/
def sanitizeComplete (s : Nat) (ok : Bool) (c : Chip) : Chip :=
  let t := c.t2s s
  if t.st = 1 ∧ t.sanitize = true then
    if ok then
      let c1 := { c with flash := { c.flash with sanList := c.flash.sanList.filter (· != t.dev.serial) } }
      c1.setT2 s { t with sanitize := false }
    else ce (pgCxl (s / 4)) 12 s 0 c
  else c

end Sys2Proof.Machine
end

