-- ==== Sys2Proof/Machine/Ports.lean ====
section
/-! DEFINITION. Flit links and peer ports (R192 to R227, R352): flits, retry, credits, arbitration, training,
discovery and admission, loss of a port, and the routing-table banks. -/

namespace Sys2Proof.Machine

/-! ### Flits (R195, R196) -/

/-- A credit pair's index, 2 x class + VC. -/
def pairIdx (cls vc : Nat) : Nat := 2 * cls + vc
def updLink (n : Nat) (f : Link → Link) (c : Chip) : Chip := c.setLink n (f (c.link n))
/-- Page whose registers and errors a link has: the port's, or the MBP's. -/
def linkPage (n : Nat) : Nat := if n < 6 then pgPort n else pgMbp
def retryCfg (n : Nat) (c : Chip) : Nat := if n < 6 then c.rg (ra (pgPort n) 0x130) else c.rg (ra pgMbp 0x154)
def trainTries (n : Nat) (c : Chip) : Nat := fld 3 0 (if n < 6 then c.rg (ra (pgPort n) 0x134) else c.rg (ra pgMbp 0x158))

/-- The 256 bytes of a flit: header fields, ACK, the credit report of pair `cr`, the marker, payload, CRC. -/
def flitBytes (f : Flit) (ack cr count : Nat) (mark : Option Nat) : List Byte :=
  let h := f.type + 2 ^ 4 * f.vc + 2 ^ 5 * f.cls + 2 ^ 7 * b2n f.sop + 2 ^ 8 * b2n f.eop + 2 ^ 9 * f.data.length +
    2 ^ 17 * f.seq + 2 ^ 29 * ack + 2 ^ 41 * (cr / 2) + 2 ^ 43 * (cr % 2) + 2 ^ 44 * (count % 1024) +
    (match mark with | some m => 2 ^ 54 + 2 ^ 55 * m | none => 0)
  let l := leBytes 10 h ++ f.data ++ List.replicate (242 - f.data.length) 0#8
  l ++ leBytes 4 (crc32 l)

/-- A flit as received: header number and payload. -/
def flitHdr (l : List Byte) : Nat := leNat (l.take 10)
def flitData (l : List Byte) : List Byte := (l.drop 10).take (fld 16 9 (flitHdr l))
/-- A flit that is bad of itself: its CRC, a reserved TYPE or CLASS, or its LEN range. -/
def flitBad (l : List Byte) : Bool :=
  let h := flitHdr l
  let t := fld 3 0 h
  let n := fld 16 9 h
  l.length != 256 || crc32 (l.take 252) != at_ l 252 4 || decide (3 < t) || fld 6 5 h == 3 ||
  (if t = 1 ∨ t = 3 then n == 0 || decide (242 < n) else n != 0)

/-! ### Sending (R206, R207, R233) -/

/-- Send a flit: it is the link's last flit, with ACK, the credits of the next pair and a waiting marker. -/
def emit (n : Nat) (f : Flit) (c : Chip) : Chip :=
  let l := c.link n
  let pairs := if n = 6 then [0, 2, 4] else [0, 1, 2, 3, 4, 5]
  let cr := pairs.getD (l.crPtr % pairs.length) 0
  let st := l.st
  let m := if n < 6 ∧ (st = 4 ∨ st = 5 ∨ st = 9) then l.mark else none
  let launch := (Config.freeWord c.draw).toNat % 6
  let m' := m.map (fun x => x + launch)
  let c1 := c.setLink n { l with
    lastFlit := flitBytes f l.rxAck cr (l.freed.getD cr 0) m', crPtr := (l.crPtr + 1) % pairs.length
    mark := if m.isSome then none else l.mark }
  if m.isSome then { c1 with draw := c1.draw + 1 } else c1

/-- Send a sequenced flit for the first time: it stays in the replay buffer until acknowledged. -/
def emitSeq (n : Nat) (f : Flit) (c : Chip) : Chip :=
  let l := c.link n
  let f' := { f with seq := l.txSeq }
  emit n f' (c.setLink n { l with
    txSeq := (l.txSeq + 1) % 4096, replay := l.replay ++ [f'], ackAt := if l.replay = [] then c.beat else l.ackAt })

/-- Class of a frame type (R354). -/
def frameCls (t : Nat) : Nat :=
  if [0x18, 0x19, 0x1C, 0x1D, 0x20, 0x21].contains t then 1 else if t = 0x3C ∨ t = 0x3D then 2 else 0

/-- DUE of a queued packet as it competes: none is later than every other (R207). -/
def dueBefore (a b : QPkt) : Bool :=
  if a.due = b.due then decide (a.ord < b.ord ∨ (a.ord = b.ord ∧ a.inp < b.inp))
  else if a.due = 0xFFFFFFFF then false else if b.due = 0xFFFFFFFF then true else serialLt a.due b.due

/-- The packet of (class, VC) that starts next: the heads of the queues, one for each input and VC. -/
def nextStartable (l : Link) (cls vc : Nat) : Option QPkt :=
  let q := l.queue.filter (fun x => x.cls == cls && x.vc == vc)
  let heads := (List.range 7).filterMap (fun i => q.find? (fun x => x.inp == i))
  heads.foldl (fun a x => match a with | some y => if dueBefore x y then some x else some y | none => some x) none

/-- What (class, VC) would send: the packet at hand, once its next flit is here, or the next one; and the flits of it
already sent. -/
def pending (l : Link) (cls vc : Nat) : Option (QPkt × Nat) :=
  if l.credits.getD (pairIdx cls vc) 0 = 0 then none
  else match l.cur.getD (pairIdx cls vc) none with
    | some x => if x.2 < x.1.flits.length then some x else none
    | none => (nextStartable l cls vc).map (fun q => (q, 0))

/-- The (class, VC) that sends next. Of two packets not yet started the channels' rule is R207's; otherwise the channels
take turns (R202). -/
def chooseData (l : Link) : Option (Nat × Nat × QPkt × Nat) :=
  (List.range 3).findSome? (fun cls =>
    let t := l.turn.getD cls 0
    match pending l cls t, pending l cls (1 - t) with
    | some x, some y =>
      if x.2 = 0 ∧ y.2 = 0 ∧ dueBefore y.1 x.1 = true then some (cls, 1 - t, y.1, y.2) else some (cls, t, x.1, x.2)
    | some x, none => some (cls, t, x.1, x.2)
    | none, some x => some (cls, 1 - t, x.1, x.2)
    | none, none => none)

/-- Send flit `k` of a packet; its space in the receive buffer that it came to is free once the last copy has left
(R286). -/
def sendData_ (n cls vc : Nat) (q : QPkt) (k : Nat) (c : Chip) : Chip :=
  let l := c.link n
  let i := pairIdx cls vc
  let fin := q.whole && decide (q.flits.length ≤ k + 1)
  let c1 := freeBufs (c.setLink n { l with
    queue := if k = 0 then l.queue.filter (fun x => x.ord != q.ord) else l.queue
    cur := setAt l.cur i (if fin then none else some (q, k + 1)), turn := setAt l.turn cls (1 - vc)
    credits := setAt l.credits i (l.credits.getD i 0 - 1)
    unacked := l.unacked.filter (fun u => u.2.ord != q.ord) ++ [(l.txSeq, q)] })
  emitSeq n { type := 1, vc := vc, cls := cls, sop := k == 0, eop := fin, data := q.flits.getD k [] } c1

/-- The control link's frames enter its queue, by class (R353). -/
def loadFrames (c : Chip) : Chip :=
  if (c.link 6).st ≠ 4 then c
  else c.mbp.out.foldl (fun k f =>
    let y := k.link 6
    let q : QPkt := { cls := frameCls f.type, ord := k.pktOrd, flits := flitsOf (frameWire c f) }
    { k.setLink 6 { y with queue := y.queue ++ [q] } with pktOrd := k.pktOrd + 1 }) { c with mbp := { c.mbp with out := [] } }

/-- A state in which the link carries link control. -/
def carriesCtl (n st : Nat) : Bool :=
  if n < 6 then st == 1 || st == 2 || st == 3 || st == 4 || st == 5 || st == 6 || st == 9 else st == 4

/-- FLIT_SEND: one flit slot (R206). A replayed DATA flit is ready only where the port carries DATA, a new sequenced
flit only while fewer than 2,047 are unacknowledged (R198). -/
def flitSend (n : Nat) (c0 : Chip) : Chip :=
  let c := if n = 6 then loadFrames c0 else c0
  let l := c.link n
  if l.st = 8 ∧ n < 6 then emit n {} c
  else if !carriesCtl n l.st then c
  else
    let room := decide (l.replay.length < 2047)
    let again := l.resend.head?.filter (fun f => l.st == 4 || f.type == 3)
    match again, (if room then l.lctl.head? else none), (if l.st = 4 ∧ room = true then chooseData l else none) with
    | some f, _, _ => emit n f (c.setLink n { l with resend := l.resend.tail })
    | none, some b, _ =>
      emitSeq n { type := 3, sop := true, eop := true, data := b.take 242 } (c.setLink n { l with lctl := l.lctl.tail })
    | none, none, some (cls, vc, q, k) => sendData_ n cls vc q k c
    | none, none, none =>
      if l.st = 1 ∨ l.st = 6 then c
      else if l.nakDue then emit n { type := 2 } (c.setLink n { l with nakDue := false })
      else emit n {} c

/-! ### States of a port (R219) -/

/-- Change a port's state: IRQ_STS bit 0 and its event. A marker waits only where markers run (R233), and the parent
may be admissible no longer (R237). -/
def portState (n st : Nat) (c : Chip) : Chip :=
  if (c.link n).st = st then c
  else parentCheck (irq (linkPage n) 0
    (updLink n (fun l => { l with st := st, mark := if st = 4 ∨ st = 5 ∨ st = 9 then l.mark else none }) c))

/-- A link's state of sequence, credits and receive buffers as a new link has it. -/
def freshLink (l : Link) : Link :=
  { l with
    txSeq := 0, replay := [], resend := [], replays := 0, rxSeq := 0, rxAck := 4095, nakSent := false, nakDue := false
    credits := [0, 0, 0, 0, 0, 0], crSeen := [0, 0, 0, 0, 0, 0], freed := [0, 0, 0, 0, 0, 0], crPtr := 0, lctl := []
    cur := [none, none, none, none, none, none], rx := [none, none, none, none, none, none], bufs := [], lctlRx := [], lctlIn := []
    unacked := [], mark := none, turn := [0, 0, 0], identHeld := none }

/-- The port carries packets: UP, or been UP and not left for DOWN, OFF or REFUSED (retraining, in low power, or with
another peer after a retraining). -/
def wasUp (l : Link) : Bool := l.carried || l.st == 4

/-- Packets that a port's loss takes with it: those of which flits are unacknowledged, and those being sent. -/
def lostPkts (l : Link) : List QPkt :=
  let cur := l.cur.filterMap (fun e => e.map (·.1))
  (l.unacked.map (·.2)).filter (fun q => !cur.contains q) ++ cur

/-- Route a queued packet again, as by the input and channel that it came by (R225). The group table names no other port
for a copy of a multicast: that copy finds no route (R217). -/
def reroute (q : QPkt) (c : Chip) : Chip :=
  let p := ptOf q.cls q.bytes
  if p.mcast then dropRoute p.dest c
  else
    let r := routePkt p q.inp c
    spread q p.dest r.2 r.1

/-- A port leaves for DOWN, OFF or REFUSED (R225): what was in flight is lost and counted, what was queued is
routed again, packets that were arriving end, the rings and collectives act on their losses, and loans that no route
reaches are lost (R328). -/
def portLoss (n st : Nat) (c : Chip) : Chip :=
  if wasUp (c.link n) then
    let rings := ringsOn (updLink n (fun y => { y with st := 4 }) c) n
    let c0 := closeRx n c
    let l := c0.link n
    let lost := lostPkts l
    let cnt (k : Nat) : Nat := lost.countP (fun q => q.cls == k)
    let c1 := portState n st (c0.setLink n { freshLink l with
      queue := [], admitted := false, carried := false, sentAdmit := false, gotAdmit := false })
    let c2 := l.queue.foldl (fun k q => reroute q k) c1
    let c3 := freeBufs (ucSlice (pgPort n) 10 (cnt 0) (cnt 1) (cnt 2) c2)
    let gone := lost ++ l.queue.filter (fun q => bit 11 (at_ q.bytes 0 4))
    loansCut (ringResend rings (collLost (gone.map (fun q => ptOf q.cls q.bytes)) c3))
  else
    portState n st (c.setLink n { freshLink (c.link n) with
      admitted := false, carried := false, sentAdmit := false, gotAdmit := false })

/-- Start training from the beginning (R209, R220): not on an axis of size 1, nor outside the torus. -/
def startTrain (n : Nat) (c : Chip) : Chip :=
  if !c.torusOk || c.size (n / 2) == 1 || !c.enabled (pgPort n) then c
  else
    let c1 := if wasUp (c.link n) then portLoss n 0 c else c
    let l := c1.link n
    portState n 1 (c1.setLink n { freshLink l with
      tries := 1, locked := 0, refuse := 0, prev := 0, sentAdmit := false, gotAdmit := false, admitted := false, identIn := false
      identOut := false, left := false })

/-- Enter RETRAIN: the link layer's state is kept (R199). No port trains outside the torus (R209): there it enters OFF. -/
def startRetrain (n lanes : Nat) (c : Chip) : Chip :=
  if n < 6 ∧ c.torusOk = false then portLoss n 0 c
  else
    let l := c.link n
    let c1 := c.setLink n { l with
      prev := if l.st = 6 then l.prev else l.st, tries := 1, locked := lanes, identIn := false, identOut := false
      identHeld := none, replays := 0 }
    let c2 := if n < 6 then c1.bumpRg (ra (pgPort n) 0x148) 1 else c1
    ce (linkPage n) 9 lanes 0 (portState n 6 c2)

/-! ### Retry (R197, R198) -/

/-- Send again every unacknowledged flit, in order; each replay is counted and logged (R198). -/
def replayNow (n : Nat) (c : Chip) : Chip :=
  let l := c.link n
  if l.replay = [] then c
  else
    let k := l.replays + 1
    let c1 := c.setLink n { l with resend := l.replay, replays := k, ackAt := c.beat }
    let c2 := if n < 6 then c1.bumpRg (ra (pgPort n) 0x144) 1 else c1
    ce (linkPage n) 8 l.replay.length k c2

/-- A NAK or a timeout: a replay, or RETRAIN once LIMIT replays in a row have passed without an ACK. In RETRAIN nothing
is replayed before the port is back (R199). -/
def startReplay (n : Nat) (c : Chip) : Chip :=
  let l := c.link n
  if l.replay = [] ∨ l.st = 6 then c
  else if fld 15 8 (retryCfg n c) ≤ l.replays ∧ l.st ≠ 1 then startRetrain n l.locked c
  else replayNow n c

/-- State to which a port returns from RETRAIN: LOWPOWER is what UP and MARKER are in drydown, and ends with it (R224). -/
def backTo (l : Link) (c : Chip) : Nat :=
  let base := if l.prev = 9 then l.lp else l.prev
  if (c.pwr.st = 3 ∨ c.pwr.st = 4) ∧ (base = 4 ∨ base = 5) then 9 else base
/-- RETRAIN has succeeded with the same peer: the port returns to its state and replays from ACK + 1 (R199). -/
def retrainEnd (n : Nat) (c : Chip) : Chip :=
  let l := c.link n
  let st := backTo l c
  replayNow n (portState n st (c.setLink n { l with lp := if l.prev = 9 then l.lp else l.prev, refuse := 0, ackAt := c.beat }))

/-- RETRY_TIMEOUT. -/
def retryTimeout (n : Nat) (c : Chip) : Chip :=
  let l := c.link n
  if l.replay ≠ [] ∧ l.resend = [] ∧ carriesCtl n l.st = true ∧ l.st ≠ 6 ∧ l.ackAt + fld 7 0 (retryCfg n c) ≤ c.beat then
    startReplay n c
  else c

/-- Use a good flit's ACK and its credit report of pair `cr`; a report of the reserved class is none (R196, R4). -/
def useAck (n ack cr count : Nat) (c : Chip) : Chip :=
  let l := c.link n
  let l1 : Link := match l.replay.findIdx? (fun f => f.seq == ack) with
    | some i =>
      let gone := (l.replay.take (i + 1)).map (·.seq)
      { l with
        replay := l.replay.drop (i + 1), resend := l.resend.filter (fun f => !gone.contains f.seq), replays := 0, ackAt := c.beat
        unacked := l.unacked.filter (fun u =>
          !gone.contains u.1 || l.cur.any (fun e => e.map (fun x => x.1.ord) == some u.2.ord)) }
    | none => l
  let d := (count + 1024 - l1.crSeen.getD cr 0) % 1024
  c.setLink n (if 6 ≤ cr then l1 else
    { l1 with credits := setAt l1.credits cr (l1.credits.getD cr 0 + d), crSeen := setAt l1.crSeen cr count })

/-- A discard: one NAK after the last accepted flit; FLIT_BAD counts the sequenced ones, of TYPE `t` (R227). -/
def discard (n t : Nat) (c : Chip) : Chip :=
  let c1 := updLink n (fun l => if l.nakSent then l else { l with nakSent := true, nakDue := true }) c
  if n < 6 ∧ (t = 1 ∨ t = 3) then c1.bumpRg (ra (pgPort n) 0x140) 1 else c1

/-- A packet's first flit: routed at once, its copies queued, and its place in a receive buffer taken (R200, R214). A
packet that was still arriving on the pair has come to no end. -/
def openPkt (n cls vc : Nat) (d : List Byte) (c : Chip) : Chip :=
  let i := pairIdx cls vc
  let c0 := match (c.link n).rx.getD i none with | some x => closePkt x.ord c | none => c
  if n = 6 then updLink n (fun l => { l with rx := setAt l.rx i (some {}) }) c0
  else
    let p := ptOf cls d
    let r := routePkt p n c0
    let o := r.1.pktOrd
    let c1 := spread { cls := cls, inp := n, vin := vc, due := p.due, ord := o, whole := false } p.dest r.2
      { r.1 with pktOrd := o + 1 }
    updLink n (fun l => { l with
      rx := setAt l.rx i (some { ord := o, here := r.2.here }), bufs := l.bufs ++ [{ ord := o, pair := i }] }) c1

/-- A frame that the module does not accept is counted (R355). -/
def countAuth (c : Chip) : Chip := irq pgMbp 3 (c.bumpRg (ra pgMbp 0x110) 1)
/-- A frame has arrived whole: one of a type that the control node sends waits for its command; one of a reserved type,
or of a type that only the module sends, is discarded, counted in AUTH_FAIL and logged (R4, R354, R355). -/
def frameHere (l : List Byte) (c : Chip) : Chip :=
  let t := at_ l 0 1
  if [0x01, 0x03, 0x05, 0x06, 0x07, 0x10, 0x11, 0x18, 0x19, 0x20, 0x22, 0x29, 0x30, 0x38, 0x3C, 0x40].contains t then
    { c with mbp := { c.mbp with arrived := c.mbp.arrived ++ [l] } }
  else ce pgMbp 8 t (at_ l 24 4) (countAuth c)

/-- An accepted DATA flit: it goes on in every copy of its packet, which is delivered here when whole. A flit of no
packet is dropped. The control link keeps what comes until it is read, and gives its space back at once. -/
def acceptData (n : Nat) (h : Nat) (d : List Byte) (c : Chip) : Chip :=
  let vc := fld 4 4 h
  let cls := fld 6 5 h
  let i := pairIdx cls vc
  let fin := bit 8 h
  let free (k : Chip) : Chip := updLink n (fun l => { l with freed := setAt l.freed i ((l.freed.getD i 0 + 1) % 1024) }) k
  let c1 := if bit 7 h then openPkt n cls vc d c else c
  match (c1.link n).rx.getD i none with
  | none => free c1
  | some x0 =>
    let x := if x0.here then { x0 with bytes := x0.bytes ++ d } else x0
    let c2 := updLink n (fun l => { l with rx := setAt l.rx i (if fin then none else some x) }) c1
    if n = 6 then
      let c3 := free c2
      if fin then frameHere x.bytes c3 else c3
    else
      let c3 := updLink n (fun l => { l with
        bufs := l.bufs.map (fun b => if b.ord = x.ord then { b with came := b.came + 1, whole := fin } else b) }) (addFlit x.ord d fin c2)
      let c4 := freeBufs c3
      if fin && x.here then deliver (ptOf cls x.bytes) n c4 else c4

/-- An accepted LCTL flit: whole bodies wait for their commands. -/
def acceptCtl (n : Nat) (h : Nat) (d : List Byte) (c : Chip) : Chip :=
  updLink n (fun l =>
    let b := if bit 7 h then d else l.lctlRx ++ d
    if bit 8 h then { l with lctlRx := [], lctlIn := l.lctlIn ++ [b.drop 32] } else { l with lctlRx := b }) c
/-- The 16-flit buffer of link control has room (R200). -/
def ctlRoom (l : Link) : Bool := decide (l.lctlIn.length + (l.lctlRx.length + 241) / 242 < 16)
/-- An IDENT whole in one LCTL flit. -/
def isIdent (h : Nat) (d : List Byte) : Bool := bit 7 h && bit 8 h && at_ d 32 1 == 1

/-- FLIT_RECEIVE (R194 to R200): an uncorrectable codeword overlaps the flit; of the codewords that came with it so
many were the first to be counted as uncorrectable, and so many were corrected (FEC_UNCORR and FEC_CORR, R227). While a
port trains, an IDENT out of sequence is taken without it: a peer that is new counts from its own start (DESIGN CHOICE,
log 24). A full link-control buffer discards (DESIGN CHOICE, log 24). -/
def flitReceive (n : Nat) (bytes : List Byte) (badWord : Bool) (uncorrectable corrected : Nat) (c : Chip) : Chip :=
  let l := c.link n
  if !carriesCtl n l.st then c
  else
    let ck := if n < 6 ∧ corrected ≠ 0 then c.bumpRg (ra (pgPort n) 0x138) corrected else c
    let c0 := if n < 6 ∧ uncorrectable ≠ 0 then ck.bumpRg (ra (pgPort n) 0x13C) uncorrectable else ck
    let h := flitHdr bytes
    let t := fld 3 0 h
    if badWord || flitBad bytes then discard n t (if n < 6 ∧ bit 54 h = true then markLost n c0 else c0)
    else
      let cc := fld 42 41 h
      let c1 := useAck n (fld 40 29 h) (if cc = 3 then 6 else pairIdx cc (fld 43 43 h)) (fld 53 44 h) c0
      let c2 := if n < 6 ∧ bit 54 h = true ∧ marks c1 n = true then markArrive n (fld 62 55 h) c1 else c1
      let d := flitData bytes
      if t = 0 then c2
      else if t = 2 then startReplay n c2
      else if t = 3 ∧ ctlRoom (c2.link n) = false then discard n t c2
      else if fld 28 17 h ≠ (c2.link n).rxSeq then
        if t = 3 ∧ (l.st = 1 ∨ l.st = 6) ∧ isIdent h d = true then acceptCtl n h d c2 else discard n t c2
      else
        let c3 := updLink n (fun y => { y with
          rxSeq := (y.rxSeq + 1) % 4096, rxAck := fld 28 17 h, nakSent := false, nakDue := false }) c2
        if t = 3 then acceptCtl n h d c3
        else if wasUp l then acceptData n h d c3 else c3

/-! ### Discovery and admission (R220 to R224) -/

/-- A link-control body of a subtype, of its 64 bytes (R221). -/
def ctlBody (sub code : Nat) : List Byte := leBytes 4 (sub + 2 ^ 8 + 2 ^ 16 * code) ++ List.replicate 60 0#8
/-- A link-control packet: the header of R203 and its body. -/
def ctlPkt (c : Chip) (n : Nat) (b : List Byte) : List Byte :=
  ptBytes { dest := c.neighbour n, slice := c.sliceId, src := c.posId, body := b }
def sendCtlBody (n : Nat) (b : List Byte) (c : Chip) : Chip :=
  updLink n (fun l => { l with lctl := l.lctl ++ [ctlPkt c n b] }) c

/-- The module's own IDENT on port n. -/
def identBody (c : Chip) (n : Nat) : List Byte :=
  leBytes 4 (1 + 2 ^ 8) ++ leBytes 4 (c.posId + 2 ^ 12 * n + 2 ^ 16 * c.lc + 2 ^ 24 * c.sliceId) ++
  leBytes 4 (c.torus % 2 ^ 20) ++ [64, 64, 1024, 1024, 512, 512].flatMap (leBytes 2) ++ leBytes 8 0 ++ c.sec.devDigest.take 32

/-- The own IDENT goes out. -/
def sendIdent (n : Nat) (c : Chip) : Chip :=
  updLink n (fun l => { l with identOut := true }) (sendCtlBody n (identBody c n) c)
/-- IDENT_SEND: repeated until the peer's has come, and sent once at least. -/
def identSend (n : Nat) (c : Chip) : Chip :=
  let l := c.link n
  if (l.st = 1 ∨ l.st = 6) ∧ (l.identIn = false ∨ l.identOut = false) then sendIdent n c else c

/-- PORT_TRAIN. -/
def portTrain (n : Nat) (c : Chip) : Chip := startTrain n c

/-- Both sides have admitted: UP, or MARKER for a peer of another slice (R223); in drydown LOWPOWER instead (R224).
What a former peer has not acknowledged is gone with it (R199). -/
def goUp (n : Nat) (c : Chip) : Chip :=
  let l := c.link n
  match l.peer with
  | some p =>
    if l.sentAdmit ∧ l.gotAdmit then
      let st := if p.slice = c.sliceId then 4 else 5
      portState n (if c.pwr.st = 3 ∨ c.pwr.st = 4 then 9 else st)
        (c.setLink n { l with credits := p.credits, admitted := true, carried := st == 4 || l.carried, lp := st, unacked := [] })
    else c
  | none => c

/-- Admit the peer. -/
def admit_ (n : Nat) (c : Chip) : Chip :=
  goUp n (sendCtlBody n (ctlBody 2 0) (updLink n (fun l => { l with sentAdmit := true }) c))

/-- Refuse the peer with a code: REFUSE goes out at once, and the port enters REFUSED. -/
def refusePeer (n code : Nat) (c : Chip) : Chip :=
  let c1 := emitSeq n { type := 3, sop := true, eop := true, data := ctlPkt c n (ctlBody 3 code) } c
  ce (pgPort n) 11 code 0 (updLink n (fun l => { l with refuse := code }) (portLoss n 8 c1))

/-- PORT_ADMIT and PORT_REFUSE act in HOLD only. -/
def portAdmit (n : Nat) (c : Chip) : Chip := if (c.link n).st = 3 then admit_ n c else c
def portRefuse (n : Nat) (c : Chip) : Chip := if (c.link n).st = 3 then refusePeer n 5 c else c

/-- The code of an IDENT's first failed check, 0 for none (R222). -/
def identCheck (c : Chip) (n : Nat) (b : List Byte) : Nat :=
  let w0 := at_ b 0 4
  let w1 := at_ b 4 4
  let w2 := at_ b 8 4
  let lc := fld 18 16 w1
  let clean := b.length == 64 && fld 7 0 w0 == 1 && fld 15 8 w0 == 1 && fld 31 16 w0 == 0 && bit 11 w1 == false && bit 15 w1 == false &&
    fld 23 19 w1 == 0 && decide (lc ≤ 4) && decide (fld 14 12 w1 ≤ 5) && fld 7 5 w2 == 0 && fld 15 13 w2 == 0 && fld 31 20 w2 == 0 &&
    at_ b 0x18 8 == 0
  if !clean then 6
  else if fld 10 0 w1 ≠ c.neighbour n then 1
  else if fld 14 12 w1 ≠ opposite n then 2
  else if w2 ≠ c.torus then 3
  else if !(lc == c.lc && (lc == 2 || lc == 3)) then 4
  else 0

def peerOf (b : List Byte) : Peer :=
  let w1 := at_ b 4 4
  let w2 := at_ b 8 4
  { module := fld 10 0 w1, port := fld 14 12 w1, lc := fld 18 16 w1, slice := fld 31 24 w1, sx := fld 4 0 w2, sy := fld 12 8 w2
    sz := fld 19 16 w2, credits := (List.range 6).map (fun i => at_ b (0xC + 2 * i) 2), digest := (b.drop 0x20).take 32 }

/-- A peer other than before the retraining: the replay buffer, what is being sent and the credits go, and both sides
count from their start (R199). The packets that this loses are counted if the port is then lost (R225). -/
def otherPeer (l : Link) : Link :=
  { freshLink l with queue := l.queue, unacked := (lostPkts l).map (fun q => (4096, q)) }

/-- The checked IDENT of all lanes locked (R199, R222): in RETRAIN the same peer goes on where it was; a new peer is
checked. -/
def identTake (n : Nat) (b : List Byte) (c0 : Chip) : Chip :=
  let c := if (c0.link n).identOut then c0 else sendIdent n c0
  let l := c.link n
  let p := peerOf b
  let same := match l.peer with | some q => q.module == p.module && q.port == p.port && q.digest == p.digest | none => false
  if l.st = 6 ∧ same = true then retrainEnd n (c.setLink n { l with identIn := true, identHeld := none })
  else
    let code := identCheck c n b
    let c' := if l.st = 6 then closeRx n c else c
    let l1 := if l.st = 6 then otherPeer (c'.link n) else l
    let c1 := portState n 2 (c'.setLink n { l1 with
      identIn := true, identHeld := none, sentAdmit := false, gotAdmit := false, admitted := false, refuse := 0 })
    if code ≠ 0 then refusePeer n code c1
    else
      let c2 := updLink n (fun y => { y with peer := some p }) c1
      if bit 0 (c.rg (ra pgLrt 0x118)) then irq (pgPort n) 1 (portState n 3 c2) else admit_ n c2

/-- IDENT: it is taken once all 8 lanes hold lock (R193, R220), until when it waits, and while the torus is set
(R209). -/
def identMsg (n : Nat) (b : List Byte) (c0 : Chip) : Chip :=
  let c := updLink n (fun l => { l with lctlIn := l.lctlIn.filter (fun x => at_ x 0 1 != 1) }) c0
  let l := c.link n
  if (l.st ≠ 1 ∧ l.st ≠ 6) ∨ c.torusOk = false then c
  else if l.locked ≠ 255 then c.setLink n { l with identHeld := some b }
  else identTake n b c

/-- ADMIT received. -/
def admitMsg (n : Nat) (c0 : Chip) : Chip :=
  let c := updLink n (fun l => { l with lctlIn := l.lctlIn.eraseP (fun b => at_ b 0 1 == 2) }) c0
  if (c.link n).st = 2 ∨ (c.link n).st = 3 then goUp n (updLink n (fun l => { l with gotAdmit := true }) c) else c

/-- REFUSE received during admission. -/
def refuseMsg (n code : Nat) (c0 : Chip) : Chip :=
  let c := updLink n (fun l => { l with lctlIn := l.lctlIn.eraseP (fun b => at_ b 0 1 == 3) }) c0
  let l := c.link n
  if 1 ≤ l.st ∧ l.st ≤ 3 then
    ce (pgPort n) 11 code 1 (updLink n (fun y => { y with refuse := code % 16 }) (portState n 8 c))
  else c

/-- LEAVE received: OFF until light returns (R224). -/
def leaveMsg (n : Nat) (c0 : Chip) : Chip :=
  let c := updLink n (fun l => { l with lctlIn := l.lctlIn.eraseP (fun b => at_ b 0 1 == 4) }) c0
  let l := c.link n
  if l.st = 0 ∨ l.st = 7 then c else updLink n (fun y => { y with left := true }) (portLoss n 0 c)
/-- LIGHT_RETURN. -/
def lightReturn (n : Nat) (c : Chip) : Chip := if (c.link n).st = 0 ∧ (c.link n).left = true then startTrain n c else c

/-- MARK_DOWN (R227). -/
def markDown (n : Nat) (c : Chip) : Chip := if (c.link n).st = 7 then c else portLoss n 7 c

/-- TRAIN_TRY_END: an IDENT that waited for the lock is taken; a failed try is followed by the next, and the last by
DOWN (R220); code 7 shows while the next try runs (R222). No try follows outside the torus (R209). -/
def trainTryEnd (n lanes : Nat) (inTime : Bool) (c : Chip) : Chip :=
  let l := c.link n
  if l.st ≠ 1 ∧ l.st ≠ 6 then c
  else if !c.torusOk then portLoss n 0 c
  else if lanes = 255 ∧ inTime = true then
    let c1 := c.setLink n { l with locked := lanes }
    match l.identHeld with
    | some b => identTake n b c1
    | none => c1
  else
    if trainTries n c ≤ l.tries then
      let c1 := c.setLink n { l with locked := lanes, refuse := 0 }
      if wasUp l then portLoss n 7 c1 else ucSlice (pgPort n) 10 0 0 0 (portLoss n 7 c1)
    else c.setLink n { l with locked := lanes, refuse := 7, tries := l.tries + 1, identHeld := none }

/-- LANE_LOCK_LOSS; in LOWPOWER only lane 0 is in use. -/
def laneLockLoss (n lanes : Nat) (c : Chip) : Chip :=
  let l := c.link n
  if lanes = 255 then c
  else if l.st = 1 ∨ l.st = 6 then c.setLink n { l with locked := lanes }
  else if (2 ≤ l.st ∧ l.st ≤ 5) ∨ (l.st = 9 ∧ bit 0 lanes = false) then startRetrain n lanes c
  else c

/-- BLK_CTL.ENABLE of a port page (R210, R220, R224): answers whether the enable is taken. A port leaves DOWN only on
TRAIN, so that one disabled there stays DOWN. -/
def portEnable (n : Nat) (on : Bool) (v : Nat) (c : Chip) : Chip × Bool :=
  if on then
    if !c.sliceOk then (ce pgLrt 12 (ra (pgPort n) 8) v c, false) else (startTrain n (c.setRg (ra (pgPort n) 8) (c.rg (ra (pgPort n) 8) ||| 1)), true)
  else
    let l := c.link n
    let c1 := if 2 ≤ l.st ∧ l.st ≤ 5 ∨ l.st = 9 then
        emitSeq n { type := 3, sop := true, eop := true, data := ctlPkt c n (ctlBody 4 0) } c else c
    (if l.st = 7 then c1 else portLoss n 0 c1, true)

/-! ### The control link's training (R352) -/

/-- The timers of MEM_RD and MEM_WR stop: deadlines become beats left (R363). Held DMA_RD frames are dropped:
the control node sends them again (R360). -/
def stopTimers (c : Chip) : Chip :=
  { c with mbp := { c.mbp with mem := c.mbp.mem.map (fun r => { r with deadline := r.deadline - c.beat }), held := [] } }
/-- A KEYED session is suspended for RESUME_BEATS (R359). -/
def suspend (c : Chip) : Chip :=
  if c.mbp.sess = 2 then
    let c1 := stopTimers c
    irq pgMbp 1 { c1 with mbp := { c1.mbp with sess := 3, resumeBy := some (c.beat + max 1 (c.rg (ra pgMbp 0x108))) } }
  else c
/-- The link enters DOWN: its state is discarded and the session suspended (R352, R359); the next try starts
64 ms later. -/
def mboipDown (c : Chip) : Chip :=
  let c1 := suspend (portState 6 7 (c.setLink 6 { freshLink (c.link 6) with queue := [] }))
  { c1 with mbp := { c1.mbp with retryAt := c.beat + 62500 } }
/-- Training of the Mboip link starts; `tries` counts this try as one of TRIES. -/
def mboipTrain (tries : Nat) (c : Chip) : Chip :=
  portState 6 1 (c.setLink 6 { freshLink (c.link 6) with queue := [], tries := tries, locked := 0, prev := 0 })
/-- MBOIP_TRAIN_TRY_END: a RETRAIN that succeeds keeps the link's state, and suspends the session when lock had
been lost; a new link starts with the credits of R352. -/
def mboipTryEnd (lanes : Nat) (c : Chip) : Chip :=
  let l := c.link 6
  if l.st ≠ 1 ∧ l.st ≠ 6 then c
  else if lanes = 3 then
    if l.st = 6 then
      let c1 := replayNow 6 (portState 6 4 (c.setLink 6 { l with locked := 3, tries := 0, ackAt := c.beat }))
      if l.locked = 3 then c1 else suspend c1
    else portState 6 4 (c.setLink 6 { l with locked := 3, tries := 0, credits := [64, 0, 512, 0, 256, 0] })
  else
    let c1 := c.setLink 6 { l with locked := lanes, tries := l.tries + 1 }
    if trainTries 6 c ≤ l.tries then mboipDown c1 else c1
/-- MBOIP_RETRY_TIMER: from DOWN one try every 64 ms (the loader keeps no beats: each timer starts one). -/
def mboipRetry (c : Chip) : Chip :=
  if (c.link 6).st = 7 ∧ (c.mbp.retryAt ≤ c.beat ∨ c.phase = .loader ∨ c.phase = .retired) then mboipTrain 15 c else c

/-! ### Routing-table banks (R218) -/

/-- RT_FLIP_ARM. -/
def rtFlipArm (hi : Nat) (c : Chip) : Chip :=
  let a := ra pgLrt 0x120
  if c.rtArmed then ignored (a + 4) hi c
  else
    let c1 := pairApply a hi c
    let b := c1.rg64 a
    armCe pgLrt b { c1 with rtArmed := true, rtAt := c1.armedAt b }

/-- First register of the shadow bank, and its words. -/
def rtShadow : Nat := ra 0x400 0
def Chip.rtShadowTab (c : Chip) : Tab W32 :=
  (c.regs.filter (fun e => decide (rtShadow ≤ e.1 ∧ e.1 < rtShadow + 0x8000))).map (fun e => ((e.1 - rtShadow) / 4, e.2))
/-- The shadow bank becomes these words. -/
def setRtShadow (t : Tab W32) (c : Chip) : Chip :=
  t.foldl (fun k e => k.setRg (rtShadow + 4 * e.1) e.2.toNat) { c with regs := Tab.clear rtShadow (rtShadow + 0x8000) c.regs }

/-- RT_FLIP: a cascade item at its beat. -/
def rtFlip (c : Chip) : Chip :=
  if c.rtArmed && c.cascadeDue c.rtAt then
    let c1 := setRtShadow c.rtActive { c with rtActive := c.rtShadowTab, rtArmed := false, rtGen := c.rtGen + 1#32 }
    lateFire pgLrt c.rtAt c1
  else c

/-- RT_CTL.COPY and DISARM. -/
def rtCopy (v : Nat) (c : Chip) : Chip := if c.rtArmed then ignored (ra pgLrt 0x12C) v c else setRtShadow c.rtActive c
def rtDisarm (c : Chip) : Chip := { c with rtArmed := false }

end Sys2Proof.Machine
end

