-- ==== Sys2Proof/Machine/Flash.lean ====
section
/-! DEFINITION. Flash operations under the hold-up check (R381, R382), the error log (R426, R440), monitors,
margins, the ageing record and maintenance windows (R433 to R441). -/

namespace Sys2Proof.Machine

def tamReg (off : Nat) : Nat := ra pgTam off
def pwrReg (off : Nat) : Nat := ra pgPwr off
def updTam (f : Tam → Tam) (c : Chip) : Chip := { c with tam := f c.tam }
def updAge (f : Ageing → Ageing) : Chip → Chip := updTam (fun t => { t with age := f t.age })
def updPwr (f : Pwr → Pwr) (c : Chip) : Chip := { c with pwr := f c.pwr }
def nat0 (t : Tab Nat) (k : Nat) : Nat := Tab.get (fun _ => 0) t k
def setNat0 (t : Tab Nat) (k v : Nat) : Tab Nat := Tab.set (fun _ => 0) t k v
def w0 (t : Tab W32) (k : Nat) : Nat := (Tab.get (fun _ => 0#32) t k).toNat

/-! ### The hold-up check (R381) -/

/-- An operation of 8 ms may start: both sides in units of 0.05 nJ. -/
def holdOk (c : Chip) : Bool :=
  let p := c.pwr
  let cap := min 1800 p.cap
  let m := fld 3 0 (c.rg (pwrReg 0x118))
  decide (3600 ≤ p.vhold ∧ m * (9600000000 + (if p.shed then 0 else 6800000000)) ≤ cap * (p.vhold * p.vhold - 3600 * 3600))

/-- Records that the error log area holds (R426). -/
def logRoom : Nat := 0x19EF0000 / 32
/-- Every record in the queue is committed; where the area is full its oldest erase blocks go first (R426). -/
def commitLog (c : Chip) : Chip :=
  let l := c.flash.errLog ++ c.tam.queue.map (·.1)
  let blk := max 1 Config.eraseRecords
  updTam (fun t => { t with queue := [] })
    { c with flash := { c.flash with errLog := l.drop ((l.length - logRoom + blk - 1) / blk * blk), logSeq := c.flash.logSeq + c.tam.queue.length } }

/-- A monotonic counter goes up by 1; at its end it stays (R399). -/
def incCounter (i : Nat) (t : Tab Nat) : Tab Nat := setNat0 t i (min 0xFFFFFFFF (nat0 t i + 1))

/-- The commits of R382, the only operations that start in hold-up (R380, R392). -/
def FlashOp.record (op : FlashOp) : Bool := op == .errLog || op == .ageing

/-- What a flash operation does once it may run. -/
def doFlash (op : FlashOp) (c : Chip) : Chip :=
  match op with
  | .errLog => commitLog c
  | .ageing =>
    let a := { c.tam.age with opBeats := c.tam.age.opBeats + (c.beat - c.tam.ckptLast) }
    updTam (fun t => { t with age := a, ckptLast := c.beat }) { c with flash := { c.flash with age := a } }
  | .counter i =>
    let c1 := { c with flash := { c.flash with counters := incCounter i c.flash.counters } }
    if 4 ≤ i then irq pgMgt 1 { c1 with sec := { c1.sec with ctrSt := 2, ctrPend := none } } else c1
  | .image => { c with flash := { c.flash with image := {} }, sec := { c.sec with imgSt := 2 } }
  | .lifecycle => c

/-- Start a flash operation, or defer it (R381); in hold-up only the commits of R382 may start (R392). -/
def startFlash (op : FlashOp) (c : Chip) : Chip :=
  let c1 := irq pgPwr 6 (c.bumpRg (pwrReg 0x144) 1)
  if c.pwr.st = 5 ∧ op.record = false then c1
  else if holdOk c then doFlash op c
  else if c.pwr.defer.any (fun d => d.1 == op) then c
  else
    let c2 := updPwr (fun p => { p with defer := p.defer ++ [(op, c.beat)] }) c1
    if op = .ageing then irq pgTam 5 c2 else c2

/-- FLASH_DEFER_RETRY: every 1,024 beats, VHOLD measured now. -/
def flashRetry (vhold : Nat) (c0 : Chip) : Chip :=
  let c := updPwr (fun p => { p with vhold := vhold }) c0
  c.pwr.defer.foldl (fun k d =>
    if d.2 < k.beat ∧ (k.beat - d.2) % 1024 = 0 ∧ holdOk k = true ∧ (k.pwr.st ≠ 5 ∨ d.1.record = true) then
      doFlash d.1 (updPwr (fun p => { p with defer := p.defer.filter (fun x => x.1 != d.1) }) k)
    else k) c

/-- The request behind an operation that never started ends (R421): CTR_STS REFUSED, IMG_STS FAILED. -/
def flashDropped (op : FlashOp) (c : Chip) : Chip :=
  match op with
  | .counter _ => { c with sec := { c.sec with ctrSt := 3, ctrPend := none } }
  | .image => irq pgMgt 0 { c with sec := { c.sec with imgSt := 4, imgCode := 7, pendImg := none } }
  | _ => c

/-- FLASH_DEFER_EXPIRE: 65,536 beats with the input in range. -/
def flashExpire (c : Chip) : Chip :=
  if c.pwr.st = 5 ∨ c.pwr.vin < 5800 ∨ 8400 < c.pwr.vin then c
  else
    c.pwr.defer.foldl (fun k d =>
      if d.2 + 65536 ≤ k.beat then
        ucOp pgMgt 10 0 d.2 0 (flashDropped d.1 (updPwr (fun p => { p with defer := p.defer.filter (fun x => x.1 != d.1) }) k))
      else k) c

/-! ### The error log (R426, R440) -/

/-- ERROR_LOG_COMMIT. -/
def errorLogCommit (c : Chip) : Chip := if c.tam.queue = [] then c else startFlash .errLog c

/-- LOG_CMD GO: records by number, the first committed being 1. -/
def logCopy (c : Chip) : Chip :=
  let f := c.rg (tamReg 0x134)
  let n := c.rg (tamReg 0x138)
  let d := c.rg64 (tamReg 0x13C)
  let l := c.flash.errLog
  let oldest := c.flash.logSeq - l.length + 1
  if n = 0 ∨ f < oldest ∨ c.flash.logSeq < f + n - 1 ∨ d % 32 ≠ 0 ∨ t0Size < d + 32 * n then
    updTam (fun t => { t with logStatus := 3 }) c
  else
    let bytes := ((l.drop (f - oldest)).take n).flatMap (fun e => (recWords e).flatMap (leBytes 4))
    updTam (fun t => { t with logStatus := 2 }) (tasWrite d bytes c).1

/-! ### Margins (R436) -/

/-- (top - bottom) percent, rounded down; none where the record holds no baseline. -/
def pctOf (num den : Int) : Option Nat := if den ≤ 0 then none else some (min 100 (100 * (max 0 num) / den).toNat)
def Chip.monS (c : Chip) (i : Nat) : Option Int := (Tab.get (fun _ => none) c.tam.mon i).map (·.toInt)
def Chip.monU (c : Chip) (i : Nat) : Option Nat := (Tab.get (fun _ => none) c.tam.mon i).map (·.toNat)
def minOpt (a b : Option Nat) : Option Nat :=
  match a, b with | some x, some y => some (min x y) | some x, none => some x | none, y => y

/-- Remaining margin of a GDDR7 channel, 8 x GMC + channel. -/
def chMargin (c : Chip) (k : Nat) : Option Nat :=
  let g := c.gmc (k / 8)
  let one (now bol : Nat) : Option Nat := pctOf ((fld 15 0 now : Int) - 100) ((fld 15 0 bol : Int) - 100)
  minOpt (one (w0 g.rd (k % 8)) (w0 c.tam.age.bolRd k)) (one (w0 g.wr (k % 8)) (w0 c.tam.age.bolWr k))
/-- Monitor index of eye lane j: 48 peer lanes and two of the Mboip. -/
def eyeMon (j : Nat) : Nat := if j < 48 then 168 + j else 264 + (j - 48)
/-- The resources: 0 core voltage, 1-7 lasers, 8-57 eyes, 58-153 GDDR7 channels, 154-155 regulators. -/
def marginOf (c : Chip) (r : Nat) : Option Nat :=
  let a := c.tam.age
  if r = 0 then pctOf (24 - (a.vofs : Int)) 24
  else if r < 8 then
    let e := r - 1
    pctOf ((nat0 a.eol e : Int) - (nat0 a.bias e : Int)) ((nat0 a.eol e : Int) - (nat0 a.bias0 e : Int))
  else if r < 58 then
    (c.monU (eyeMon (r - 8))).bind (fun v => pctOf ((fld 15 0 v : Int) - 15) ((nat0 a.eye0 (r - 8) : Int) - 15))
  else if r < 154 then (if (c.gmc ((r - 58) / 8)).up = 0 then none else chMargin c (r - 58))
  else (c.monU (280 + (r - 154))).bind (fun v => pctOf ((v : Int) - 800) ((nat0 a.eff0 (r - 154) : Int) - 800))

/-- Margins again, with the advisory and what is exhausted. -/
def updMargins (c : Chip) : Chip :=
  let ms := (List.range 156).filterMap (fun r => (marginOf c r).map (fun m => (r, m)))
  let low := ms.foldl (fun b x => match b with | some y => if x.2 < y.2 then some x else b | none => some x) none
  let (w, p) := low.getD (0, 100)
  let ex := (ms.filter (fun x => x.2 == 0)).map (·.1)
  let was := c.tam.adv
  let old := c.tam.exhausted
  let c1 := updAge (fun a => { a with margins := ms })
    (updTam (fun t => { t with pct := p, worst := w, adv := decide (p < 10), exhausted := ex }) c)
  let c2 := if p < 10 ∧ was = false then ce pgTam 9 w p (irq pgTam 1 c1) else c1
  (ex.filter (fun r => !old.contains r)).foldl (fun k r => ucSlice pgTam 10 r 0 0 (irq pgTam 2 k)) c2

/-- MONITOR_SAMPLE: indices 216 to 263 hold nothing. -/
def monitorSample (i : Nat) (v : W32) (c : Chip) : Chip :=
  if 216 ≤ i ∧ i < 264 then c
  else
    let c1 := updTam (fun t => { t with mon := Tab.set (fun _ => none) t.mon i (some v) }) c
    let low := (List.range 144).any (fun j => match c1.monS j with | some x => decide (x < 20) | none => false)
    let c2 := updTam (fun t => { t with slackFrom := if low then (match t.slackFrom with | some b => some b | none => some c1.beat) else none }) c1
    updMargins c2

/-- VOLTAGE_STEP (R434). -/
def voltageStep (c : Chip) : Chip :=
  match c.tam.slackFrom with
  | some b =>
    if b + 2 ^ 20 ≤ c.beat ∧ c.tam.age.vofs < 24 then
      let c1 := updAge (fun a => { a with vofs := a.vofs + 1 }) (updTam (fun t => { t with slackFrom := some c.beat }) c)
      updMargins (ce pgTam 8 0 c1.tam.age.vofs c1)
    else c
  | none => c

/-- LASER_STEP (R434): 0.5 mA, at most one step in 1,024 beats, never above LASER_EOL. -/
def laserStep (e : Nat) (c : Chip) : Chip :=
  match c.monS (273 + e) with
  | some o =>
    let a := c.tam.age
    let last := Tab.get (fun _ => 0) c.tam.laserAt e
    if o + 50 < Tab.get (fun _ => 0) a.target e ∧ nat0 a.bias e + 50 ≤ nat0 a.eol e ∧ (last = 0 ∨ last + 1024 ≤ c.beat) then
      let c1 := updAge (fun x => { x with bias := setNat0 x.bias e (nat0 x.bias e + 50) })
        (updTam (fun t => { t with laserAt := setNat0 t.laserAt e c.beat }) c)
      updMargins (ce pgTam 8 (1 + e) (nat0 c1.tam.age.bias e) c1)
    else c
  | none => c

/-- AGEING_CHECKPOINT (R437); in hold-up it follows the error records (R382). -/
def ageingCheckpoint (c : Chip) : Chip :=
  if c.pwr.st = 5 ∧ c.tam.queue ≠ [] then c
  else if c.pwr.st = 5 ∨ c.tam.ckptLast + max 0x10000 (c.rg (tamReg 0x174)) ≤ c.beat then startFlash .ageing c else c

/-! ### Windows (R435, R440) -/

def winCfg (c : Chip) : Nat := c.rg (tamReg 0x160)
def winKind (c : Chip) : Nat := fld 2 0 (winCfg c)
def winTarget (c : Chip) : Nat := fld 15 8 (winCfg c)
def winChan (c : Chip) : Nat := fld 18 16 (winCfg c)
/-- The configured window names a target that exists. -/
def winOk (c : Chip) : Bool :=
  match winKind c with
  | 1 => decide (winTarget c < 6)
  | 2 => decide (winTarget c < 12)
  | 3 => decide (winTarget c < 192)
  | 4 => true
  | _ => false
/-- The target is free: not in drydown, no refresh window of the same GMC, the port in a state to retrain. -/
def winFree (c : Chip) : Bool :=
  (c.pwr.st == 1) &&
  (match winKind c with
   | 1 => let s := (c.link (winTarget c)).st; decide (2 ≤ s ∧ s ≤ 5) || s == 7
   | 2 => (c.gmc (winTarget c)).refresh != some c.beat
   | 4 => let s := (c.link 6).st; s == 4
   | _ => true)
/-- Measured margins of a training, which no rule states (log 5). -/
def trainChan (i ch : Nat) (c : Chip) : Chip :=
  let g := c.gmc i
  let r := Config.freeWord c.draw
  let w := Config.freeWord (c.draw + 1)
  let c1 := c.setGmc i { g with
    rd := Tab.set (fun _ => 0#32) g.rd ch r, wr := Tab.set (fun _ => 0#32) g.wr ch w
    trainAt := setNat0 g.trainAt ch c.beat }
  updAge (fun a => { a with gddrRd := Tab.set (fun _ => 0#32) a.gddrRd (8 * i + ch) r
                            gddrWr := Tab.set (fun _ => 0#32) a.gddrWr (8 * i + ch) w }) { c1 with draw := c.draw + 2 }

/-- A window's work starts. -/
def winStart (c : Chip) : Chip :=
  let c1 := updTam (fun t => { t with winSt := 2, winFail := false }) c
  let n := winTarget c
  match winKind c with
  | 1 => if (c.link n).st = 7 then c1 else startRetrain n (c.link n).locked c1
  | 2 => c1.setGmc n { c1.gmc n with steered := (c1.gmc n).steered ||| 2 ^ winChan c }
  | 3 => c1.setCore n { (c1.core n).pend false c.beat with inTest := true }
  | _ => startRetrain 6 (c.link 6).locked c1

/-- WINDOW_ARM: a write of WIN_BEAT_HI. -/
def windowArm (hi : Nat) (c : Chip) : Chip :=
  if c.tam.winSt = 2 ∨ winOk c = false then ignored (tamReg 0x168) hi c
  else
    let c1 := pairApply (tamReg 0x164) hi c
    let b := c1.rg64 (tamReg 0x164)
    armCe pgTam b (updTam (fun t => { t with winSt := 1, winFail := false, winAt := c1.armedAt b }) c1)
/-- WINDOW_START: at its beat, or with a CE when the target is free again. -/
def windowStart (c : Chip) : Chip :=
  if c.tam.winSt = 1 ∧ c.come c.tam.winAt = true ∧ winFree c = true then
    winStart (if c.tam.winAt < c.beat then itemLate pgTam c.tam.winAt c else c)
  else c
/-- WIN_GO. -/
def winGo (v : Nat) (c : Chip) : Chip :=
  if c.tam.winSt = 2 ∨ winOk c = false ∨ winFree c = false then ignored (tamReg 0x16C) v c else winStart c
/-- WIN_CANCEL. -/
def winCancel (v : Nat) (c : Chip) : Chip :=
  if c.tam.winSt = 1 then updTam (fun t => { t with winSt := 0 }) c else ignored (tamReg 0x16C) v c

/-- A core fails its self-test (R438). -/
def testFailed (n : Nat) (c : Chip) : Chip :=
  let c1 := c.setCore n { (c.core n).pend false c.beat with failed := true, inTest := false }
  let c2 := c1.setRg (ra (pgCore n) 8) (c1.rg (ra (pgCore n) 8) / 2 * 2)
  ce (pgCore n) 11 n (nat0 c2.tam.age.failures n + 1)
    (updAge (fun a => { a with failures := setNat0 a.failures n (nat0 a.failures n + 1) }) c2)

/-- WINDOW_DONE. A core's test runs once no group launches it and its list is IDLE. -/
def windowDone (ok : Bool) (c : Chip) : Chip :=
  let n := winTarget c
  if c.tam.winSt ≠ 2 ∨ (winKind c = 3 ∧ ((c.core n).mapApp = true ∨ (c.core n).st ≠ 0)) then c
  else
    let c1 := irq pgTam (if ok then 3 else 4) (updTam (fun t => { t with winSt := 3, winFail := !ok }) c)
    match winKind c with
    | 1 =>
      if (c.link n).st ≠ 6 then c1
      else if ok then retrainEnd n (c1.setLink n { c1.link n with locked := 255 })
      else trainTryEnd n 0 false c1
    | 2 =>
      let g := c1.gmc n
      let b := 2 ^ winChan c
      let c2 := trainChan n (winChan c) (c1.setGmc n { g with
        steered := g.steered - (if bit (winChan c) g.steered then b else 0)
        retrains := setNat0 g.retrains (winChan c) (min 65535 (nat0 g.retrains (winChan c) + 1)) })
      if ok then serveGmc n { updMargins c2 with served := [] }
      else
        let g2 := c2.gmc n
        let c3 := irq (pgGmc n) 1 (c2.setGmc n { g2 with up := g2.up - (if bit (winChan c) g2.up then b else 0) })
        logErr { cls := 3, scope := 4, cause := 10, page := pgGmc n, d0 := winChan c } c3
    | 3 =>
      if ok then c1.setCore n { (c1.core n).pend (bit 0 (c1.rg (ra (pgCore n) 8))) c1.beat with inTest := false }
      else testFailed n c1
    | _ =>
      if (c.link 6).st ≠ 6 then c1
      else if ok then retrainEnd 6 (c1.setLink 6 { c1.link 6 with locked := 3 })
      else mboipDown c1

end Sys2Proof.Machine
end

