-- ==== Sys2Proof/Machine/Boot.lean ====
section
/-! DEFINITION. Boot, measurement, identity, image update, signed commands and life cycle (R384, R394 to R420),
and the module reset. -/

namespace Sys2Proof.Machine

def updSec (f : Sec → Sec) (c : Chip) : Chip := { c with sec := f c.sec }
def updFlash (f : Flash → Flash) (c : Chip) : Chip := { c with flash := f c.flash }

/-! ### The image (R395, R396) -/

def imSvn (l : List Byte) : Nat := at_ l 8 1
def imVersion (l : List Byte) : Nat := at_ l 0xC 4
def imTable (l : List Byte) : Nat := at_ l 0x18 4
/-- The FAIL code of an image, 0 for none. An uncorrectable flash read (6) is none of this model's inputs. -/
def imageFail (im : Image) (floor lc : Nat) : Nat :=
  let l := im.bytes
  let n := at_ l 0x10 4
  if l.length < 0x100 ∨ at_ l 0 4 ≠ 0x49364D42 then 1
  else if at_ l 4 1 ≠ 1 ∨ at_ l 5 3 ≠ 0 ∨ at_ l 9 3 ≠ 0 ∨ 64 < imSvn l ∨ fld 31 5 (at_ l 0x14 4) ≠ 0 ∨
      (l.drop 0x1C).take 0xE4 ≠ List.replicate 0xE4 0#8 ∨ n % 64 ≠ 0 ∨ 0x3000000 < n ∨ n < 0x100 + 7856 ∨ n ≠ l.length ∨
      imTable l % 64 ≠ 0 ∨ imTable l < 0x100 ∨ n - 7856 < imTable l + imageSize then 2
  else if im.sigOk = false then 3
  else if imSvn l < floor then 4
  else if bit lc (at_ l 0x14 4) = false then 5
  else 0
/-- R403's code for a refused image. -/
def refusalOf (fail : Nat) : Nat := if fail ≤ 2 then 3 else fail + 1

/-! ### Measurement and identity (R397, R405) -/

def extend (m d : List Byte) : List Byte := sha256 (m ++ d)
def zero32 : List Byte := List.replicate 32 0#8
/-- SHA-256 of the control-node key, or 32 zero bytes while none is installed. -/
def cnDigest (c : Chip) : List Byte := if c.flash.cnKey = [] then zero32 else sha256 c.flash.cnKey
def configBlock (c : Chip) : List Byte :=
  leBytes 1 c.lc ++ leBytes 1 c.otp.svn ++ leBytes 1 (imSvn c.flash.image.bytes) ++ leBytes 4 c.otp.config ++
  sha256 c.otp.vendorFw ++ cnDigest c
def devSeed (c : Chip) : List Byte := hkdfExpand (hkdfExtract [] c.otp.uds) (ascii "BM6 DEVID") 48

/-! ### Reset and boot (R384, R394, R402, R415, R416) -/

/-- No valid life-cycle record exists, or it has WIPE_PENDING set (R409). -/
def Chip.wipeDue (c : Chip) : Bool := c.flash.wipePend || (c.lc == 1 && c.flash.lcState != 1)

/-- Erase every user area of flash (R400, R415). -/
def eraseUser (c : Chip) : Chip :=
  updFlash (fun f => { f with counters := f.counters.filter (fun e => decide (e.1 < 4)), errLog := [], logSeq := 0 }) c

/-- The boot ROM on a wiped module. `loader`: LOADER was asked for. -/
def boot (loader : Bool) (c : Chip) : Chip :=
  let im := c.flash.image
  let fail := imageFail im c.otp.svn c.lc
  let m0 := extend zero32 Config.bootRomDigest
  let m2 := extend zero32 (sha256 (configBlock c))
  let ok := fail == 0 && !loader
  let m1 := if ok then extend zero32 (sha256 im.bytes) else zero32
  let dead := c.otp.retire
  let dev := if dead then [] else Config.slhPublic (devSeed c)
  let alias_ := if dead then [] else hkdfExpand (hkdfExtract (m0 ++ m1 ++ m2) (devSeed c)) (ascii "BM6 ALIAS") 48
  let c1 := updSec (fun s => { s with
    bootFail := if loader then 0 else fail
    version := if ok then imVersion im.bytes else 0, svn := if ok then imSvn im.bytes else 0
    m0 := m0, m1 := m1, m2 := m2, m3 := zero32, devPk := dev, aliasSeed := alias_
    devDigest := if dead then zero32 else sha256 dev }) c
  let c2 := mboipTrain 1 c1
  if dead then { eraseUser c2 with phase := .retired }
  else if !ok then { c2 with phase := .loader, mbp := { c2.mbp with sess := 4 } }
  else
    let c3 := if c2.wipeDue then updFlash (fun f => { f with wipePend := true }) (eraseUser c2) else c2
    let c4 := updFlash (fun f => { f with counters := incCounter 1 f.counters }) c3
    { updTam (fun t => { t with age := c4.flash.age }) c4 with phase := .starting }

/-- A module reset: everything but flash, OTP and the latched straps is wiped (R384). -/
def moduleReset (cause : Nat) (loader : Bool) (c : Chip) : Chip :=
  boot loader
    { flash := c.flash, otp := c.otp, straps := c.straps, posId := c.posId, mst := c.mst, draw := c.draw
      pwr := { vin := c.pwr.vin, vhold := c.pwr.vhold, cap := c.pwr.cap, pin := c.pwr.pin, tj := c.pwr.tj, cause := cause } }

/-- The module is off: flash and OTP remain. -/
def powerOff (c : Chip) : Chip := { flash := c.flash, otp := c.otp, straps := c.straps, draw := c.draw }

/-- POWER_ON: VIN rises through 60 V while the module is off (R375, R386). HOLD_CAP is what pre-charge
measures (log 5). -/
def powerOn (vin : Nat) (c : Chip) : Chip :=
  if c.phase = .off ∧ 6000 ≤ vin then
    let cap := (Config.freeWord c.draw).toNat % 4096
    let c1 := boot false
      { flash := c.flash, otp := c.otp, straps := c.straps, posId := c.straps % 2048, mst := !bit 11 c.straps
        draw := c.draw + 1, pwr := { vin := vin, vhold := vin, cap := cap } }
    if c1.phase = .starting ∧ cap < 1440 then ce pgPwr 14 cap 0 (irq pgPwr 7 c1) else c1
  else c

/-- A start-up step failed: STATE FAILED with its cause (R386, R439). -/
def startFail (cause : Nat) (c : Chip) : Chip :=
  updPwr (fun p => { p with st := 6 }) (updTam (fun t => { t with startFail := cause }) c)

/-- Start-up is under way. -/
def Chip.startingUp (c : Chip) : Bool := c.phase == .starting && c.pwr.st == 0

/-- CORE_SELF_TEST at start-up (R438): a core whose count has reached 3 is left out without a test. A core that
passes enters the work map with ENABLE set (R16, R348; DEDUCED, log 29). -/
def coreSelfTest (failed : List Nat) (c : Chip) : Chip :=
  if !c.startingUp || c.pwr.tested then c
  else
    let c1 := forEach (List.range 192) (fun n k =>
      if 3 ≤ nat0 k.tam.age.failures n then k.setCore n { k.core n with failed := true }
      else if failed.contains n then testFailed n k
      else (k.setCore n { k.core n with mapPend := true, mapApp := true }).setRg (ra (pgCore n) 8) 1) c
    let out := (List.range 192).countP (fun n => (c1.core n).failed)
    let c2 := updPwr (fun p => { p with tested := true }) c1
    if 8 < out then startFail 4 c2 else c2

/-- GDDR7_TRAINING_DONE: 96 channels in service, the memory wiped. -/
def gddrTrained (ok : Bool) (c : Chip) : Chip :=
  if !c.startingUp || c.pwr.gddr then c
  else if !ok then startFail 2 c
  else
    let c1 := forEach (List.range 12) (fun i k =>
      forEach (List.range 8) (fun ch q => trainChan i ch q) (k.setGmc i { k.gmc i with up := 255 })) c
    updPwr (fun p => { p with gddr := true }) (c1.zero 0 t0Size)

/-- The reference tables go into both banks of every cluster and of the LRT (R132). -/
def loadReference (l : List Byte) (c : Chip) : Chip :=
  let b := imageBank l
  let c1 := forEach (List.range 24) (fun cl k =>
    setSfu cl { (k.clus cl).sfu with active := b, shadow := b, gen := 1#32, state := 2 } k) c
  updSec (fun s => { s with m3 := extend s.m3 (sha256 l) }) { c1 with lrtExp := b, lrtShadow := b, lrtGen := 1#32 }

/-- READY: every step has passed, or STATE FAILED. In DEPLOYED the PWR page is locked (R417); the life-cycle
record is committed with WIPE_PENDING cleared (R415). -/
def ready (railOk opticsOk flashOk : Bool) (c : Chip) : Chip :=
  if !c.startingUp then c
  else if !railOk then startFail 1 c
  else if !opticsOk then startFail 3 c
  else if !flashOk then startFail 5 c
  else if !c.pwr.tested || !c.pwr.gddr then c
  else
    let l := (c.flash.image.bytes.drop (imTable c.flash.image.bytes)).take imageSize
    if (imageCheck l).1 ≠ 0 then startFail 6 c
    else
      let c1 := loadReference l c
      let c2 := if c1.lc = 0 then c1 else updFlash (fun f => { f with wipePend := false, lcState := c1.lc }) c1
      let c3 := updPwr (fun p => { p with st := 1, bootTime := (Config.freeWord c2.draw).toNat % 2001 })
        { c2 with phase := .running, draw := c2.draw + 1, cad := { c2.cad with readyAt := some c2.beat } }
      let c4 := if c3.lc = 2 then c3.setRg (pwrReg 0x2C) 1 else c3
      if c4.mbp.sess = 2 then event 2 pgPwr [c4.rg (pwrReg 0x20), 31] c4 else c4

/-! ### Image update and counters (R399, R401) -/

/-- IMG_CMD UPDATE. `sigOk`: the staged image's signature verifies (log 9). -/
def imgUpdate (sigOk : Bool) (v : Nat) (c : Chip) : Chip :=
  let busy := c.sec.imgSt == 1 || c.sec.imgSt == 2 || c.sec.lcReset.isSome || c.pwr.defer.any (fun d => d.1 == .lifecycle)
  if busy || c.mbp.sess != 2 || c.pwr.st != 1 then ignored (ra pgMgt 0x11C) v c
  else
    let a := c.rg64 (ra pgMgt 0x110)
    let n := c.rg (ra pgMgt 0x118)
    let fail (code : Nat) (k : Chip) : Chip := irq pgMgt 0 (updSec (fun s => { s with imgSt := 4, imgCode := code, pendImg := none }) k)
    if a % 64 ≠ 0 ∨ n = 0 ∨ t0Size < a + n then fail 1 c
    else
      match c.tasRead a n with
      | .ok l =>
        let im : Image := { bytes := l, sigOk := sigOk }
        let f := imageFail im c.otp.svn c.lc
        if f ≠ 0 then fail (refusalOf f) c
        else startFlash .image (updSec (fun s => { s with imgSt := 1, imgCode := 0, pendImg := some im }) c)
      | _ => fail 3 c

/-- IMAGE_UPDATE_COMPLETE. -/
def imageDone (ok : Bool) (c : Chip) : Chip :=
  if c.sec.imgSt ≠ 2 then c
  else
    let c1 := updFlash (fun f => { f with
      image := if ok then c.sec.pendImg.getD {} else {}, counters := incCounter 2 f.counters }) c
    irq pgMgt 0 (updSec (fun s => { s with imgSt := if ok then 3 else 4, imgCode := if ok then 0 else 7, pendImg := none }) c1)

/-- CTR_INC: operator counters only, never past their end. -/
def ctrInc (v : Nat) (c : Chip) : Chip :=
  let i := fld 3 0 (c.rg (ra pgMgt 0x124))
  if c.sec.ctrSt = 1 then ignored (ra pgMgt 0x12C) v c
  else if i < 4 ∨ nat0 c.flash.counters i = 0xFFFFFFFF then updSec (fun s => { s with ctrSt := 3 }) c
  else startFlash (.counter i) (updSec (fun s => { s with ctrSt := 1, ctrPend := some i }) c)

/-- EXT_CMD: M3 is extended with EXT_DATA. -/
def extCmd (c : Chip) : Chip :=
  let d := (List.range 8).flatMap (fun i => leBytes 4 (c.rg (ra pgSec (0x1B0 + 4 * i))))
  updSec (fun s => { s with m3 := extend s.m3 d }) c

/-! ### Signed commands (R411 to R414) -/

/-- What becomes of a signed command: accepted, its signature failed, or a refusal code. -/
inductive Verdict where
  | accept
  | badSig
  | refuse (code : Nat)
  deriving DecidableEq, Repr

def sgType (l : List Byte) : Nat := at_ l 0 1
def sgArg (l : List Byte) : Nat := at_ l 0x2C 4
def sgKey (l : List Byte) : List Byte := (l.drop 0x30).take 32
/-- Reserved fields of the envelope, and fields another TYPE uses. -/
def sgBad (l : List Byte) : Bool :=
  let t := sgType l
  let a := sgArg l
  l.length != 7936 || at_ l 4 2 != 7936 || at_ l 1 3 != 0 || at_ l 6 2 != 0 || t == 0 || decide (3 < t) ||
  (t != 1 && at_ l 0x28 4 != 0) || ((t != 1 || fld 2 0 a != 1) && sgKey l != zero32) ||
  (if t = 1 then fld 31 3 a != 0 else if t = 2 then fld 31 24 a != 0 || fld 15 11 a != 0 else fld 31 7 a != 0)
/-- The transitions of R413. -/
def moveOk (src dst : Nat) : Bool :=
  [(0, 1), (1, 2), (2, 3), (3, 2), (3, 1), (1, 4), (2, 4), (3, 4)].contains (src, dst)
/-- MEPOCH a is newer than b (R232): a serial number of 8 bits. -/
def mepochNewer (a b : Nat) : Bool := let d := (a + 256 - b) % 256; decide (1 ≤ d ∧ d < 128)

/-- The checks of R412, in its table's order behind the signature. `sv`, `sc`: the signature verifies under
VENDOR_PROV_PK, under the control-node key. -/
def judge (c : Chip) (l : List Byte) (sv sc : Bool) : Verdict :=
  let t := sgType l
  let new := fld 2 0 (sgArg l)
  let cn := sc && c.flash.cnKey != []
  let sig := if t = 1 ∧ new = 1 then sv else if t = 1 ∧ new = 4 then sv || cn else cn
  let s := c.lc
  if sgBad l then .refuse 1
  else if !sig then .badSig
  else if s = 4 ∨ (t = 2 ∧ s ≠ 2 ∧ s ≠ 3) then .refuse 2
  else if (if t = 2 then (l.drop 8).take 32 != zero32 else (l.drop 8).take 32 != c.sec.devDigest) then
    .refuse (if t = 2 then 1 else 3)
  else if t = 1 ∧ at_ l 0x28 4 ≠ nat0 c.flash.counters 0 then .refuse 4
  else if t = 1 ∧ moveOk s new = false then .refuse 5
  else if t = 3 ∧ (c.sec.svn < fld 6 0 (sgArg l) ∨ fld 6 0 (sgArg l) ≤ c.otp.svn ∨ 64 < fld 6 0 (sgArg l)) then
    .refuse 6
  else if t = 1 ∧ (c.sec.imgSt = 1 ∨ c.sec.imgSt = 2) then .refuse 7
  else if t = 2 ∧ mepochNewer (fld 23 16 (sgArg l)) c.cad.mepoch = false then .refuse 8
  else .accept

/-- An accepted transition's record and further work (R413, R414); the life-cycle reset follows 1,024 beats
later. -/
def transition (l : List Byte) (c : Chip) : Chip :=
  let new := fld 2 0 (sgArg l)
  let c1 := updFlash (fun f => { f with
    lcState := if new = 4 then f.lcState else new, wipePend := true
    counters := incCounter 0 f.counters
    cnKey := if new = 1 then sgKey l else if new = 4 then [] else f.cnKey
    prov := if new = 4 then [] else f.prov }) c
  let c2 := { c1 with otp := { c1.otp with prov := c1.otp.prov || new == 1, retire := c1.otp.retire || new == 4 } }
  updSec (fun s => { s with lcReset := some (c2.beat + 1024) }) c2

/-- LIFECYCLE_RESET. -/
def lifecycleReset (c : Chip) : Chip :=
  match c.sec.lcReset with
  | some b => if b ≤ c.beat then moduleReset 4 false c else c
  | none => c

end Sys2Proof.Machine
end

