-- ==== Sys2Proof/Machine/Power.lean ====
section
/-! DEFINITION. The power unit (R375 to R393): input bands, power-fail, throttle levels, emergency triggers,
resets and drydown. -/

namespace Sys2Proof.Machine

/-! ### Input (R375, R380, R383, R445) -/

/-- The warning bands of VIN in 10 mV: 1 for 58 to 60 V, 2 for 80 to 84 V, 0 otherwise. -/
def band (v : Nat) : Nat := if 5800 ≤ v ∧ v < 6000 then 1 else if 8000 < v ∧ v ≤ 8400 then 2 else 0

/-- VIN_BAND_ENTRY: one CE at each entry. -/
def vinBand (v : Nat) (c : Chip) : Chip :=
  let c1 := updPwr (fun p => { p with vin := v }) c
  if band v ≠ 0 ∧ band v ≠ band c.pwr.vin then ce pgPwr 8 v 0 c1 else c1

/-- Power-fail with cause 9, or OV with cause 10: everything but the management load is shed. -/
def powerFailure (cause v : Nat) (c : Chip) : Chip :=
  if c.pwr.st = 5 then c
  else
    let c1 := updPwr (fun p => { p with st := 5, vin := v }) c
    logErr { cls := 3, scope := 4, cause := cause, page := pgPwr, d0 := v } (irq pgPwr 2 c1)
def powerFail (v : Nat) (c : Chip) : Chip := if v < 5800 then powerFailure 9 v c else c
def overvoltage (v : Nat) (c : Chip) : Chip := if 8400 < v then powerFailure 10 v c else c
def senseOpen (c : Chip) : Chip := powerFailure 9 c.pwr.vin c
/-- VIN_RETURN in hold-up: a module reset. -/
def vinReturn (v : Nat) (c : Chip) : Chip :=
  if c.pwr.st = 5 ∧ 6000 < v then moduleReset 5 false (updPwr (fun p => { p with vin := v, vhold := v }) c) else c
/-- HOLDUP_EXHAUSTED. -/
def holdupOut (vhold : Nat) (c : Chip) : Chip := if c.pwr.st = 5 ∧ vhold ≤ 3600 then powerOff c else c

/-! ### Emergency triggers (R379) -/

/-- Level that the uncleared triggers require. -/
def Pwr.required (p : Pwr) : Nat :=
  max (max (if bit 0 p.trig then 4 else 0) (if bit 1 p.trig then 8 else 0))
    (max (if bit 2 p.trig then 8 else 0) (if bit 3 p.trig then p.ocLevel else 0))

/-- Set triggers, in the mask; a rise of the level reaches every core and the RCU in the next core cycle. -/
def raiseTriggers (new : Nat) (c : Chip) : Chip :=
  let p := c.pwr
  let oc := bit 3 new && !bit 3 p.trig
  let p1 : Pwr := { p with trig := p.trig ||| new, returning := false
                           ocLevel := if oc then 2 else p.ocLevel, ocNext := if oc then c.beat + 1024 else p.ocNext }
  let lv := p1.required
  let c1 := { c with pwr := { p1 with emerg := lv } }
  if p.emerg < lv then extendAll c1.emergCause (irq pgPwr 0 c1) else c1

/-- EMERGENCY_TRIGGER: hottest junction in 1/16 °C, mean powers over 20 µs and 10 ms in W. In drydown no level
changes (R392). -/
def emergencyTrigger (tj : Int) (p20 p10 : Nat) (c : Chip) : Chip :=
  let c1 := updPwr (fun p => { p with tj := tj, pin := p10 }) c
  let m := (if 1600 ≤ tj then 1 else 0) + (if 1648 ≤ tj then 2 else 0) + (if 1550 < p20 then 4 else 0) + (if 1400 < p10 then 8 else 0)
  if c.pwr.st = 3 ∨ m = 0 ∨ (m ||| c.pwr.trig) = c.pwr.trig then c1 else raiseTriggers m c1

/-- OC_AVG_STEP: by 2 again after each 1,024 beats, up to 12, while the condition holds. -/
def ocStep (p10 : Nat) (c : Chip) : Chip :=
  let c1 := updPwr (fun p => { p with pin := p10 }) c
  if bit 3 c.pwr.trig && decide (c.pwr.ocNext ≤ c.beat) then
    if 1400 < p10 then
      raiseTriggers 8 (updPwr (fun p => { p with ocLevel := min 12 (p.ocLevel + 2), ocNext := c.beat + 1024 }) c1)
    else updPwr (fun p => { p with ocNext := c.beat + 1024 }) c1
  else c1

/-- Bit of a trigger in TRIG, and its clear condition after `beats`. -/
def trigBit : Trigger → Nat
  | .ot1 => 0
  | .ot2 => 1
  | .ocPeak => 2
  | .ocAvg => 3
def trigClears (t : Trigger) (tj : Int) (p10 beats : Nat) : Bool :=
  match t with
  | .ot1 => decide (tj < 1552 ∧ 1024 ≤ beats)
  | .ot2 => decide (tj < 1600 ∧ 1024 ≤ beats)
  | .ocPeak => decide (p10 < 1300 ∧ 4096 ≤ beats)
  | .ocAvg => decide (p10 < 1300 ∧ 4096 ≤ beats)

/-- TRIGGER_CLEAR: the level falls to what the others require; after the last it waits for its return. -/
def triggerClear (t : Trigger) (tj : Int) (p10 beats : Nat) (c : Chip) : Chip :=
  let p := c.pwr
  let b := trigBit t
  let c1 := updPwr (fun p => { p with tj := tj, pin := p10 }) c
  if bit b p.trig && trigClears t tj p10 beats then
    let p1 : Pwr := { c1.pwr with trig := p.trig - 2 ^ b }
    if fld 3 0 p1.trig = 0 then { c1 with pwr := { p1 with returning := decide (p.emerg ≠ 0) } }
    else { c1 with pwr := { p1 with emerg := p1.required } }
  else c1

/-- EMERGENCY_RETURN with no RUNNING ring; with one, the next held step start does it (R260). -/
def emergencyReturn (c : Chip) : Chip := if anyRunning c then c else emergReturn c

/-- TRIP: compute is shed and an FE logged. -/
def trip (tj : Int) (c : Chip) : Chip :=
  let c1 := updPwr (fun p => { p with tj := tj }) c
  if tj < 1760 ∨ c.pwr.trip = true then c1
  else
    logErr { cls := 3, scope := 4, cause := 13, page := pgPwr, d0 := (tj % 2 ^ 16).toNat }
      (updPwr (fun p => { p with trip := true, trig := p.trig ||| 16 }) c1)
/-- HOLD of TAM.FE_CTL defers the reset of an FE (R428). -/
def feHold (c : Chip) : Bool := bit 0 (c.rg (tamReg 0x108))
/-- TRIP_COOLED_RESET. -/
def tripCooled (tj : Int) (c : Chip) : Chip :=
  if c.pwr.trip = true ∧ tj < 1552 ∧ feHold c = false then
    moduleReset 2 false (errorLogCommit (updPwr (fun p => { p with tj := tj }) c))
  else updPwr (fun p => { p with tj := tj }) c
/-- FE_RESET. -/
def feReset (c : Chip) : Chip :=
  match c.pwr.feAt with
  | some b => if b ≤ c.beat ∧ feHold c = false then moduleReset 2 false (errorLogCommit c) else c
  | none => c
/-- ROMON_WATCHDOG (R384): MGT cause 11. -/
def watchdog (c : Chip) : Chip :=
  moduleReset 3 false (errorLogCommit (logErr { cls := 2, scope := 3, cause := 11, page := pgMgt, scopeId := c.sliceId } c))

/-! ### Levels and reset commands (R378, R384) -/

/-- PLAN_LEVEL_WRITE: taken at the next beat boundary, only while every RCU context is FREE. -/
def planLevelWrite (v : Nat) (c : Chip) : Chip :=
  if (List.range 32).any (fun x => (c.ring x).st != 0) then ignored (pwrReg 0x104) v c
  else updPwr (fun p => { p with planNext := some (v % 16) }) (c.setRg (pwrReg 0x104) (v % 16))
/-- At a beat boundary a written level comes into force. -/
def planApply (c : Chip) : Chip :=
  match c.pwr.planNext with
  | some v => updPwr (fun p => { p with plan := v, planNext := none }) c
  | none => c
/-- RST_CMD. -/
def rstCmd (v : Nat) (c : Chip) : Chip :=
  if v % 65536 = 0xB6B6 then moduleReset 1 false c else ignored (pwrReg 0x13C) v c
/-- LOADER_REQ (R402, R410). -/
def loaderReq (v : Nat) (c : Chip) : Chip :=
  if v % 65536 = 0x10AD ∧ (c.lc = 1 ∨ c.lc = 3) then moduleReset 1 true c else ignored (ra pgMgt 0x134) v c

/-! ### Drydown (R387 to R391) -/

def wakeBeat (c : Chip) : Nat := c.rg64 (pwrReg 0x124)
def retBanks (c : Chip) (n : Nat) : Nat := fld 7 0 (c.rg (bank n pgPwr 0x134))
def popCount8 (n : Nat) : Nat := (List.range 8).countP (fun i => bit i n)
/-- Banks designated for retention. -/
def retTotal (c : Chip) : Nat := ((List.range 192).map (fun n => popCount8 (retBanks c n))).sum
/-- The pages that drydown gates (R458). -/
def gatedPages : List Nat := (List.range 192).map pgCore ++ (List.range 24).map pgClus ++ (List.range 24).map pgPwu
/-- The code of R387, 0 when ENTER is accepted. -/
def ddRefusal (c : Chip) : Nat :=
  if c.pwr.st ≠ 1 then 1
  else if (List.range 32).any (fun x => (c.ring x).st != 0) then 2
  else if (List.range 16).any (fun l => (c.loan (16 + l)).st != 0) then 3
  else if gatedPages.any (fun p => !bit 2 (c.rg (ra p 8))) then 4
  else if 128 < retTotal c then 5
  else if wakeBeat c ≠ 0 ∧ wakeBeat c < c.beat + 6837 then 6
  else if (List.range 192).any (fun n => (c.core n).st != 0) ||
      (List.range 24).any (fun cl => (c.clus cl).ctrs.any (fun k => k.2.armed)) then 7
  else 0

/-- DD_ENTER. -/
def ddEnter (c : Chip) : Chip :=
  let code := ddRefusal c
  if code ≠ 0 then irq pgPwr 5 (updPwr (fun p => { p with ddResult := code }) c)
  else updPwr (fun p => { p with st := 2, ddResult := 0, exitReq := false }) c

/-- At the end of the entry a port in UP or DEGRADED goes to LOWPOWER and keeps which (R224, R388). -/
def portRest (p : Nat) (c : Chip) : Chip :=
  if (c.link p).st = 4 ∨ (c.link p).st = 5 then portState p 9 (updLink p (fun l => { l with lp := l.st }) c) else c

/-- DRYDOWN_ENTRY_COMPLETE, once collectives and copies have ended: an EXIT given meanwhile, or a wake beat
that has come, starts the exit at once. -/
def ddEntered (c : Chip) : Chip :=
  if c.pwr.st ≠ 2 ∨ c.colls.any (fun k => decide (2 ≤ k.2.st ∧ k.2.st ≤ 4)) = true ∨ c.mtm.migs ≠ [] then c
  else
    let c1 := forEach (List.range 6) portRest c
    let c2 := irq pgPwr 3 (updPwr (fun p => { p with st := 3 }) c1)
    let w := wakeBeat c2
    if w ≠ 0 ∧ w ≤ c2.beat then itemLate pgPwr w (updPwr (fun p => { p with st := 4 }) c2)
    else if c2.pwr.exitReq then updPwr (fun p => { p with st := 4, exitReq := false }) c2 else c2

/-- DD_CMD EXIT. -/
def ddExit (v : Nat) (c : Chip) : Chip :=
  if c.pwr.st = 3 then updPwr (fun p => { p with st := 4 }) c
  else if c.pwr.st = 2 then updPwr (fun p => { p with exitReq := true }) c
  else ignored (pwrReg 0x120) v c
/-- DRYDOWN_WAKE: the exit starts so that it ends at the wake beat; one already passed is late (R10). -/
def ddWake (c : Chip) : Chip :=
  let w := wakeBeat c
  if c.pwr.st = 3 ∧ w ≠ 0 ∧ w ≤ c.beat + 4883 then
    let c1 := updPwr (fun p => { p with st := 4 }) c
    if w ≤ c.beat then itemLate pgPwr w c1 else c1
  else c

/-- The SRAM that drydown loses (R389): accumulators, banks not designated, cluster caches. -/
def zeroLost (c : Chip) : Chip :=
  let c1 := forEach (List.range 192) (fun n k =>
    let k1 := k.setCore n { k.core n with acc := [] }
    forEach (List.range 8) (fun b q => if bit b (retBanks q n) then q else q.zero (padBase n + b * 0x40000) 0x40000) k1) c
  forEach (List.range 24) (fun cl k => k.zero (cacheBase cl) 0x800000) c1

/-- At the end of the exit a LOWPOWER port of `back` has the state that it kept, another goes DOWN (R224, R391). -/
def portWake (back : List Nat) (p : Nat) (c : Chip) : Chip :=
  if (c.link p).st ≠ 9 then c else if back.contains p then portState p (c.link p).lp c else portLoss p 7 c

/-- DRYDOWN_EXIT_COMPLETE: the ports in `back` have their lanes again, the others go DOWN. -/
def ddExited (back : List Nat) (c : Chip) : Chip :=
  if c.pwr.st ≠ 4 then c
  else
    let c1 := forEach (List.range 6) (portWake back) (zeroLost c)
    irq pgPwr 4 (updPwr (fun p => { p with st := 1 }) c1)

end Sys2Proof.Machine
end

