-- ==== Sys2Proof/Machine/RegView.lean ====
section
/-! DEFINITION. Reading the register window: the registers whose fields the module computes (the RO rows of
each block's register table), and a register read under R5 to R8 and R346. -/

namespace Sys2Proof.Machine

/-- Word i of a byte list. -/
def wordAt (l : List Byte) (i : Nat) : Nat := at_ l (4 * i) 4
/-- A word whose bit i is set where the predicate holds for lo + i. -/
def bitsOf (f : Nat → Bool) (lo : Nat) : Nat := ((List.range 32).filter (fun i => f (lo + i))).foldl (fun a i => a + 2 ^ i) 0

/-- Core n (R97). -/
def coreView (c : Chip) (n o : Nat) : Nat :=
  let k := c.core n
  match o with
  | 0x120 => k.cplHead % 65536
  | 0x128 => k.cplLost
  | 0x12C => k.st + 2 ^ 8 * k.fault + 2 ^ 16 * k.pc
  | 0x130 => seqFlags k
  | 0x134 => match k.lease with | some l => l.wc + 256 | none => 0
  | 0x138 => match k.lease with | some l => l.epoch | none => 0
  | _ => 0

/-- Cluster n (R104, R132). -/
def clusView (c : Chip) (n o : Nat) : Nat :=
  let s := (c.clus n).sfu
  if 0x200 ≤ o ∧ o < 0x300 then (c.ctr n ((o - 0x200) / 4)).next
  else if 0x300 ≤ o ∧ o < 0x400 then (c.ctr n ((o - 0x300) / 4)).epoch
  else match o with
  | 0x104 => bitsOf (fun i => (c.ctr n i).armed) 0
  | 0x108 => bitsOf (fun i => (c.ctr n i).armed) 32
  | 0x10C => bitsOf (fun i => (c.ctr n i).done) 0
  | 0x110 => bitsOf (fun i => (c.ctr n i).done) 32
  | 0x60C => s.state + 4 * b2n s.armed + 8 * b2n s.missed + 16 * s.loadErr + 2 ^ 16 * min 65535 (oldRefs c n)
  | 0x618 => s.gen.toNat
  | 0x61C => s.active.id.toNat
  | 0x620 => s.shadow.id.toNat
  | 0x624 => s.fault
  | _ => 0

/-- Walks of a cluster's cores in progress. -/
def walksOf (c : Chip) (n : Nat) : Nat :=
  ((List.range 8).map (fun i => (c.core (8 * n + i)).runs.countP (fun r => r.walk.isSome && !r.ended))).sum

/-- Page walk unit n (R190). -/
def pwuView (c : Chip) (n o : Nat) : Nat :=
  let p := c.pwu n
  if 0x800 ≤ o ∧ o < 0xC00 then (c.thrActive n ((o - 0x800) / 4)).toNat
  else match o with
  | 0x100 => min 8 (walksOf c n)
  | 0x104 => p.gen.toNat
  | 0x110 => b2n p.armed + 2 * b2n p.missed + (match c.thrBad n with | none => 4 | some i => 256 * i)
  | _ => 0

/-- Slot n (R152). -/
def slotView (c : Chip) (n o : Nat) : Nat :=
  let s := c.slot n
  match o with
  | 0x104 => s.sts
  | 0x108 => s.len (s.lens.length - 1)
  | 0x10C => s.dirGen
  | 0x110 => horizonOf n c
  | 0x114 => quarOf n c
  | 0x118 => s.cause + 256 * s.layer
  | 0x11C => s.lost
  | 0x134 => s.pubSt + 16 * s.pubCode + 2 ^ 16 * s.pubIdx
  | 0x138 => s.pubGen
  | 0x13C => s.short
  | _ => 0

/-- The LRT (R226, R309); COLL_SEL chooses the collective context. -/
def lrtView (c : Chip) (o : Nat) : Nat :=
  let x := c.coll (fld 7 0 (c.rg (ra pgLrt 0x210)))
  match o with
  | 0x100 => c.posId + 2 ^ 16 * b2n c.mst
  | 0x11C => c.rtGen.toNat
  | 0x128 => b2n c.rtArmed
  | 0x13C => let i := c.rg (ra pgLrt 0x138); c.rtW (fld 10 0 i) (fld 13 12 i)
  | 0x20C => c.collResult
  | 0x214 => x.st + 16 * x.attempt + 2 ^ 8 * x.rank + 2 ^ 16 * x.cause + 2 ^ 20 * b2n x.detached
  | 0x218 => x.run
  | 0x21C => x.doneRun
  | 0x22C => c.detachLast
  | 0x230 => rmemFree c / 1024
  | _ => 0

/-- Port n (R227). -/
def portView (c : Chip) (n o : Nat) : Nat :=
  let l := c.link n
  let p := l.peer.getD {}
  if 0x110 ≤ o ∧ o < 0x130 then wordAt p.digest ((o - 0x110) / 4)
  else match o with
  | 0x104 => l.st + 16 * l.refuse + 2 ^ 8 * l.locked + 2 ^ 16 * l.tries
  | 0x108 => p.module + 2 ^ 12 * p.port + 2 ^ 16 * p.lc + 2 ^ 24 * p.slice
  | 0x10C => p.sx + 2 ^ 8 * p.sy + 2 ^ 16 * p.sz
  | _ => 0

/-- The cadence unit (R251). -/
def cadView (c : Chip) (o : Nat) : Nat :=
  let k := c.cad
  if 0x130 ≤ o ∧ o < 0x148 then (match (k.port ((o - 0x130) / 4)).delay with | some d => u32 d | none => 0xFFFFFFFF)
  else if 0x150 ≤ o ∧ o < 0x168 then (match (k.port ((o - 0x150) / 4)).ofs with | some d => u32 d | none => 0x80000000)
  else match o with
  | 0x100 => k.now % 2 ^ 32
  | 0x104 => k.now / 2 ^ 32
  | 0x108 => k.st + 16 * k.parent + 2 ^ 8 * k.hops + 2 ^ 16 * k.mepoch
  | 0x10C => k.master
  | 0x110 => match k.offset with | some d => u32 d | none => 0x80000000
  | 0x114 => u32 k.freqAdj
  | 0x118 => k.holdB
  | 0x124 => u32 k.discOfs
  | 0x128 => k.discAge
  | 0x188 => fld 3 0 (c.rg (cadReg 0x188)) + 16 * evtState c c.evtIdx
  | 0x18C => 256 - (List.range 256).countP (fun i => (k.ent i).st != 0)
  | _ => 0

/-- The RCU (R280); RING_SEL chooses the context. -/
def rcuView (c : Chip) (o : Nat) : Nat :=
  let r := c.ring (fld 4 0 (c.rg (ringReg 0x120)))
  match o with
  | 0x11C => c.rcuResult
  | 0x124 => r.st + 16 * r.cause + 2 ^ 8 * r.member + 2 ^ 16 * r.owner + 2 ^ 24 * rGroup r.words
  | 0x128 => r.step
  | 0x12C => r.start % 2 ^ 32
  | 0x130 => r.start / 2 ^ 32
  | 0x134 => r.ext
  | 0x13C => r.missBeats + 2 ^ 16 * r.missMember
  | 0x144 => bitsOf (fun x => (c.ring x).st == 3) 0
  | _ => 0

/-- The MTM (R341); ACCT_SEL and LOAN_SEL choose. -/
def mtmView (c : Chip) (o : Nat) : Nat :=
  let m := c.mtm
  let l := fld 4 0 (c.rg (mtmReg 0x1A8))
  match o with
  | 0x144 => c.poolFree
  | 0x148 => c.unitFree
  | 0x14C => if c.poolEn then c.shelfCount - m.shelf.length else 0
  | 0x15C => c.acctUsed (fld 4 0 (c.rg (mtmReg 0x154)))
  | 0x18C => m.pfSt + 2 ^ 16 * m.pfNext
  | 0x198 => min 255 m.refetch.length + 2 ^ 8 * m.lastSrc
  | 0x19C => m.lastG
  | 0x1A4 => m.regionSt + 16 * m.regionCode
  | 0x1B8 => (c.loan l).st + 16 * (c.loan l).cmd
  | 0x1BC => (c.loanRefd l).length
  | _ => 0

/-- CXL root port n (R342); SLOT_SEL chooses the slot. -/
def cxlSel (c : Chip) (n : Nat) : Nat := 4 * n + fld 1 0 (c.rg (ra (pgCxl n) 0x108))
def cxlView (c : Chip) (n o : Nat) : Nat :=
  let x := c.cxlp n
  let s := cxlSel c n
  let t := c.t2s s
  match o with
  | 0x100 => x.st + 16 * x.width + 2 ^ 10 * x.rate + 2 ^ 12 * b2n x.switch + 2 ^ 13 * b2n x.ide
  | 0x10C => t.st + 16 * t.refuse
  | 0x110 => t.capMiB
  | 0x114 => t.frames
  | 0x118 => t.frames - (c.slotUsed s).length
  | 0x11C => (c.slotRefd s).length
  | _ => 0

/-- GDDR7 controller n (R374, R441); CH_SEL chooses the channel. -/
def gmcView (c : Chip) (n o : Nat) : Nat :=
  let g := c.gmc n
  let ch := fld 2 0 (c.rg (ra (pgGmc n) 0x200))
  match o with
  | 0x100 => g.up + 2 ^ 8 * g.steered
  | 0x10C => c.rg (ra (pgGmc n) 0x10C)
  | 0x110 => c.rg (ra (pgGmc n) 0x110)
  | 0x114 => min 0xFFFFFFFF (c.beat - g.scrubAt)
  | 0x204 => w0 g.rd ch
  | 0x208 => w0 g.wr ch
  | 0x20C => w0 c.tam.age.bolRd (8 * n + ch)
  | 0x210 => w0 c.tam.age.bolWr (8 * n + ch)
  | 0x214 => nat0 g.trainAt ch % 2 ^ 32
  | 0x218 => nat0 g.trainAt ch / 2 ^ 32
  | 0x21C => min 65535 (nat0 g.retrains ch)
  | 0x220 => (chMargin c (8 * n + ch)).getD 0
  | _ => 0

/-- The state of a queue (R366, R373): 0 OFF, 1 RUN, 2 FENCE, 3 CQ_WAIT, 4 PAUSED. -/
def queueState (c : Chip) (q : Nat) : Nat :=
  let x := c.queue q
  let w := c.le (c.sqBase q + 64 * (x.sqHead % max 1 (c.sqSize q))) 4
  if x.on = false then 0
  else if c.pwr.st = 2 ∨ c.pwr.st = 3 ∨ c.pwr.st = 4 then 4
  else if x.sqHead = x.sqTail then 1
  else if bit 8 w && x.started != [] then 2
  else if c.cqRoom q 1 = false then 3
  else 1

/-- The control-link endpoint (R373); QSEL chooses the queue. -/
def mbpView (c : Chip) (o : Nat) : Nat :=
  let m := c.mbp
  let q := fld 5 0 (c.rg (ra pgMbp 0x124))
  let x := c.queue q
  match o with
  | 0x100 => (c.link 6).st + 2 ^ 8 * (c.link 6).locked
  | 0x104 => m.sess + 2 ^ 8 * m.rxEpoch
  | 0x10C => m.lastTag
  | 0x118 => m.evtNext
  | 0x11C => match m.events with | e :: _ => e.eseq | [] => m.evtNext
  | 0x120 => m.evtLost
  | 0x12C => queueState c q
  | 0x13C => x.sqTail + 2 ^ 16 * x.sqHead
  | 0x14C => x.cqTail + 2 ^ 16 * x.cqHead
  | 0x150 => x.reserved
  | _ => 0

/-- The power unit (R393). -/
def pwrView (c : Chip) (o : Nat) : Nat :=
  let p := c.pwr
  match o with
  | 0x100 => p.st + 16 * c.level + 2 ^ 8 * p.plan + 2 ^ 12 * p.emerg + 2 ^ 16 * p.trig
  | 0x108 => p.vin
  | 0x10C => p.pin
  | 0x110 => p.vhold
  | 0x114 => p.cap
  | 0x11C => (p.tj % 2 ^ 16).toNat
  | 0x12C => p.ddResult
  | 0x138 => retTotal c
  | 0x140 => p.cause
  | 0x148 => p.bootTime
  | _ => 0

/-- The MGT page (R419); CTR_SEL chooses the counter. -/
def mgtView (c : Chip) (o : Nat) : Nat :=
  let s := c.sec
  match o with
  | 0x100 => s.version
  | 0x104 => s.svn + 2 ^ 8 * c.otp.svn
  | 0x108 => (match c.phase with | .starting => 1 | .running => 1 | .loader => 2 | _ => 0) + 2 ^ 8 * s.bootFail
  | 0x10C => nat0 c.flash.counters 1
  | 0x120 => s.imgSt + 2 ^ 8 * s.imgCode
  | 0x128 => nat0 c.flash.counters (fld 3 0 (c.rg (ra pgMgt 0x124)))
  | 0x130 => s.ctrSt
  | _ => 0

/-- The SEC page (R420). -/
def secView (c : Chip) (o : Nat) : Nat :=
  let s := c.sec
  if 0x10C ≤ o ∧ o < 0x12C then wordAt s.devDigest ((o - 0x10C) / 4)
  else if 0x130 ≤ o ∧ o < 0x150 then wordAt s.m0 ((o - 0x130) / 4)
  else if 0x150 ≤ o ∧ o < 0x170 then wordAt s.m1 ((o - 0x150) / 4)
  else if 0x170 ≤ o ∧ o < 0x190 then wordAt s.m2 ((o - 0x170) / 4)
  else if 0x190 ≤ o ∧ o < 0x1B0 then wordAt s.m3 ((o - 0x190) / 4)
  else if 0x1D8 ≤ o ∧ o < 0x1F8 then wordAt (cnDigest c) ((o - 0x1D8) / 4)
  else match o with
  | 0x100 => c.lc + 8 * b2n c.flash.wipePend + 2 ^ 8 * min 15 c.flash.sanList.length
  | 0x104 => nat0 c.flash.counters 0
  | 0x108 => s.lcResult
  | 0x12C => c.otp.svn + 2 ^ 8 * b2n c.otp.prov + 2 ^ 9 * b2n c.otp.retire
  | 0x1D4 => s.reportSeq
  | _ => 0

/-- The TAM page (R440) but for WANT; MON_SEL chooses the monitor, and the engine of LASER_EOL. -/
def tamView (c : Chip) (o : Nat) : Nat :=
  let t := c.tam
  let i := fld 8 0 (c.rg (tamReg 0x148))
  if 0x110 ≤ o ∧ o < 0x130 then
    (match t.queue with | (e, _) :: _ => wd (recWords e) ((o - 0x110) / 4) | [] => 0)
  else match o with
  | 0x100 => t.queue.length + 32 * b2n (t.queue.any (·.2))
  | 0x10C => t.startFail
  | 0x130 => c.flash.logSeq
  | 0x144 => 2 ^ 8 * t.logStatus
  | 0x14C => match Tab.get (fun _ => none) t.mon i with | some v => v.toNat | none => 0
  | 0x150 => t.age.vofs
  | 0x154 => if 266 ≤ i ∧ i < 273 then nat0 t.age.eol (i - 266) else if 273 ≤ i ∧ i < 280 then nat0 t.age.eol (i - 273) else 0
  | 0x158 => t.pct + 2 ^ 8 * t.worst + 2 ^ 16 * b2n t.adv
  | 0x170 => t.winSt + 16 * b2n t.winFail
  | 0x178 => t.ckptLast % 2 ^ 32
  | 0x17C => t.feExtra
  | _ => 0

/-- A block is trained or initialised: BLK_STS.READY (R347; log 19). -/
def blkReady (c : Chip) (b : Blk) (n : Nat) : Bool :=
  match b with
  | .port => let s := (c.link n).st; s == 4 || s == 5 || s == 9
  | .mbp => (c.link 6).st == 4
  | .gmc => (c.gmc n).up != 0
  | .cxl => (c.cxlp n).st == 2
  | .core => c.pwr.tested && !(c.core n).failed
  | _ => c.phase == .running
/-- Work in progress: BLK_STS.BUSY (R347, R348; log 19). -/
def blkBusy (c : Chip) (b : Blk) (n page : Nat) : Bool :=
  c.busy.contains page ||
  (match b with
   | .core => let s := (c.core n).st; decide (1 ≤ s ∧ s ≤ 3)
   | .clus => (c.clus n).sfu.state == 1
   | .pwu => walksOf c n != 0
   | .rcu => anyRunning c
   | .mtm => c.mtm.migs != []
   | _ => false)
/-- The page is power-gated in drydown (R388, R391). -/
def isGated (c : Chip) (b : Blk) : Bool := bit 1 (blkCap b) && (c.pwr.st == 3 || c.pwr.st == 4)
/-- The generation, ARMED and MISSED that GEN mirrors (R351). -/
def genView (c : Chip) (b : Blk) (n : Nat) : Nat :=
  let w (g : Nat) (a m : Bool) : Nat := g % 65536 + 2 ^ 16 * b2n a + 2 ^ 17 * b2n m
  match b with
  | .clus => let s := (c.clus n).sfu; w s.gen.toNat s.armed s.missed
  | .pwu => let p := c.pwu n; w p.gen.toNat p.armed p.missed
  | .lrt => w c.rtGen.toNat c.rtArmed false
  | .slot => let s := c.slot n; w s.dirGen (s.pubSt == 1) false
  | _ => 0

/-- The computed part of the common header (R347, R458). -/
def headView (c : Chip) (b : Blk) (n page o : Nat) : Nat :=
  match o with
  | 0 => 1 + 2 ^ 8 * n + 2 ^ 16 * blkType b
  | 4 => blkCap b + 2 ^ 16 * b2n (b == .core && (c.core n).mapApp)
  | 0xC => b2n (blkReady c b n) + 2 * b2n (blkBusy c b n page) + 4 * b2n (isGated c b) + 8 * b2n (c.wiped.contains page)
  | 0x1C => c.rg (ra page 0x1C)
  | 0x28 => genView c b n
  | _ => 0

/-- The computed fields of a register; n is the block's instance. -/
def roView (c : Chip) (b : Blk) (n page o : Nat) : Nat :=
  if o < 0x100 then headView c b n page o
  else match b with
  | .mgt => mgtView c o | .sec => secView c o | .pwr => pwrView c o | .tam => tamView c o | .mbp => mbpView c o
  | .cad => cadView c o | .rcu => rcuView c o | .lrt => lrtView c o | .port => portView c n o | .mtm => mtmView c o
  | .gmc => gmcView c n o | .cxl => cxlView c n o | .core => coreView c n o | .clus => clusView c n o
  | .pwu => pwuView c n o | .slot => slotView c n o | .rt => 0

/-- Where a register's stored fields lie: a register that a selector of its page banks is kept by item. -/
def regKey (c : Chip) (a : Nat) : Nat :=
  let p := a / 0x1000
  let o := a % 0x1000
  let sel : Nat :=
    if p = pgPwr ∧ o = 0x134 then fld 7 0 (c.rg (pwrReg 0x130))
    else if p = pgMbp ∧ 0x128 ≤ o ∧ o ≤ 0x150 then fld 5 0 (c.rg (ra pgMbp 0x124))
    else if p = pgMtm ∧ o = 0x158 then fld 4 0 (c.rg (mtmReg 0x154))
    else if p = pgMtm ∧ (o = 0x1B0 ∨ o = 0x1B4) then fld 4 0 (c.rg (mtmReg 0x1A8))
    else if p = pgRcu ∧ o = 0x138 then fld 4 0 (c.rg (ringReg 0x120))
    else if (p = pgCxl 0 ∨ p = pgCxl 1) ∧ 0x120 ≤ o then fld 1 0 (c.rg (ra p 0x108))
    else 0
  bank sel p o

/-- The value of a register, the fields a read shows (R6, R7). -/
def regValue (c : Chip) (a : Nat) : Nat :=
  match regRow a, pageBlk (a / 0x1000) with
  | some r, some (b, p0) =>
    let page := a / 0x1000
    (c.rg (regKey c a) &&& (r.rw ||| r.rwl ||| (if a % 0x1000 < 0x100 then r.w1c else 0))) |||
      (roView c b (page - p0) page (a % 0x1000) &&& (r.ro ||| (if a % 0x1000 < 0x100 then 0 else r.w1c)))
  | _, _ => 0

/-- Registers of the window, 16,384 pages of 4 KiB. -/
def windowSize : Nat := 0x4000000

/-- An access that fails under R5 or R346. -/
def accessError (c : Chip) : Chip := { c with answer := { error := true } }

/-- Read a register (R5 to R8): WANT is free (log 5); a low half latches its high half, and the next read of
the high half gives it. -/
def readReg (a : Nat) (c : Chip) : Chip :=
  let ok (v : Nat) (k : Chip) : Chip := { k with answer := { value := BitVec.ofNat 32 v } }
  if a % 4 ≠ 0 then accessError c
  else if windowSize ≤ a ∨ (pageBlk (a / 0x1000)).isNone then ce pgMbp 9 (a % 2 ^ 32) 0 (accessError c)
  else if a = tamReg 0x15C then ok ((Config.freeWord c.draw).toNat % 512) { c with draw := c.draw + 1 }
  else
    match regRow a with
    | none => ok 0 c
    | some r =>
      let key := regKey c a
      if r.pair = 1 then
        ok (regValue c a) { c with pairLatch := Tab.set (fun _ => none) c.pairLatch key (some (BitVec.ofNat 32 (regValue c (a + 4)))) }
      else if r.pair = 2 then
        let low := regKey c (a - 4)
        match Tab.get (fun _ => none) c.pairLatch low with
        | some v => ok v.toNat { c with pairLatch := Tab.set (fun _ => none) c.pairLatch low none }
        | none => ok (regValue c a) c
      else ok (regValue c a) c

end Sys2Proof.Machine
end

