-- ==== Sys2Proof/Machine/RegAccess.lean ====
section
/-! DEFINITION. Writing the register window (R5 to R9, R347 to R350, R457 to R459): the header's actions, the
actions behind each block's WO and arming registers, and the event table's firings (R249). -/

namespace Sys2Proof.Machine

/-! ### Soft reset, wipe, enable, lock (R347, R348, R459) -/

/-- A soft reset of core n: the running TOD and list end without a record. -/
def softCore (n : Nat) (c : Chip) : Chip :=
  let c1 := expireAll n c
  let k := c1.core n
  (freeRuns n k.runs c1).setCore n { k with
    st := 0, fault := 0, pc := 0, loops := [], flags := 0, cplHead := 0, cplLost := 0, blocked := .none, runs := [], lease := none
    retiring := [], lastEmpty := false, pred := none, provSet := [], stopping := false, pending := none, fill := [], win := none
    car := none, carNext := none, carDue := [], ckpt := false }

/-- A soft reset of cluster n: flags, counters and transfers; the table registers stay. -/
def softClus (n : Nat) (c : Chip) : Chip :=
  let c1 := forEach (List.range 64) (fun i k => disarm n i k)
    { c with regs := Tab.clear (flagReg n 0) (flagReg n 64) c.regs }
  forEach (List.range 8) (fun i k =>
    k.setCore (8 * n + i) { k.core (8 * n + i) with fill := [], writeback := [] }) c1

/-- A soft reset of page walk unit n drops the TODs whose walks it runs. -/
def softPwu (n : Nat) (c : Chip) : Chip :=
  forEach (List.range 8) (fun i k =>
    let x := k.core (8 * n + i)
    let walk (r : TodRun) : Bool := r.walk.isSome && !r.ended
    (freeRuns (8 * n + i) (x.runs.filter walk) k).setCore (8 * n + i) { x with runs := x.runs.filter (fun r => !walk r) }) c

/-- BLK_CTL.SOFT_RESET (R348). -/
def softReset (page v : Nat) (c : Chip) : Chip :=
  match pageBlk page with
  | some (b, p0) =>
    if isGated c b then ignored (ra page 8) v c
    else match b with
    | .core => softCore (page - p0) c
    | .clus => softClus (page - p0) c
    | .pwu => softPwu (page - p0) c
    | .rt => c
    | _ => ignored (ra page 8) v c
  | none => ce pgMbp 9 (ra page 8) v (accessError c)

/-- BLK_CTL.WIPE_REQ, while ENABLE is clear (R348). -/
def wipeReq (page v : Nat) (c : Chip) : Chip :=
  match pageBlk page with
  | some (.rt, _) => c
  | some (b, _) =>
    if bit 2 (blkCap b) && !c.enabled page && !isGated c b then
      { c with busy := if c.busy.contains page then c.busy else c.busy ++ [page], wiped := c.wiped.erase page }
    else ignored (ra page 8) v c
  | none => ce pgMbp 9 (ra page 8) v (accessError c)

/-- The SRAM of a wiped page is zero; a PWU's walk buffers hold nothing that the model keeps. -/
def wipeDone (page : Nat) (c : Chip) : Chip :=
  if c.busy.contains page then
    let c1 := { c with busy := c.busy.erase page, wiped := c.wiped.erase page ++ [page] }
    match pageBlk page with
    | some (.core, p0) => (c1.setCore (page - p0) { c1.core (page - p0) with acc := [] }).zero (padBase (page - p0)) 0x200000
    | some (.clus, p0) => c1.zero (cacheBase (page - p0)) 0x800000
    | _ => c1
  else c

/-- BLK_CTL.ENABLE changes (R348, R16, R210). -/
def blockEnable (page : Nat) (on : Bool) (v : Nat) (c : Chip) : Chip :=
  match pageBlk page with
  | none => ce pgMbp 9 (ra page 8) v (accessError c)
  | some (.rt, _) => c
  | some (b, p0) =>
    if c.enabled page = on then c
    else
      let set (k : Chip) : Chip :=
        let w := k.rg (ra page 8)
        let k1 := k.setRg (ra page 8) (setFld 0 0 w (b2n on))
        { k1 with wiped := if on then k1.wiped.erase page else k1.wiped }
      match b with
      | .port =>
        let r := portEnable (page - p0) on v c
        if r.2 then set r.1 else r.1
      | .core =>
        let k := set c
        let x := k.core (page - p0)
        k.setCore (page - p0) (x.pend (on && !x.failed && !x.inTest) c.beat)
      | _ => set c

/-- BLK_LOCK is set until the next module reset (R347). -/
def blkLock (page v : Nat) (c : Chip) : Chip :=
  match pageBlk page with
  | none => ce pgMbp 9 (ra page 0x2C) v (accessError c)
  | some (.rt, _) => c
  | some _ => c.setRg (ra page 0x2C) 1

/-! ### Error injection (R349) -/

/-- Scope of a UC of a cause: the narrowest that its chapter names (R349); log 20 for those whose chapter names
none. -/
def ucScope (b : Blk) (cause : Nat) : Nat :=
  match b, cause with
  | .slot, 8 => 2 | .slot, 9 => 2 | .rcu, 10 => 2
  | .clus, 11 => 3 | .pwu, 9 => 3 | .port, 10 => 3 | .port, 12 => 3 | .lrt, 10 => 3 | .lrt, 11 => 3 | .cad, 10 => 3
  | .mtm, 13 => 3 | .cxl, 9 => 3 | .cxl, 11 => 3 | .tam, 10 => 3 | .mgt, 11 => 3
  | _, _ => 1

/-- What a block serves now: a core's operation, a collective run, a slot, or nothing. -/
inductive Served where
  | core (n : Nat) | coll (id : Nat) | slot (n : Nat) | none
  deriving DecidableEq, Repr

/-- A core whose list runs. -/
def coreActive (c : Chip) (n : Nat) : Bool := decide (1 ≤ (c.core n).st ∧ (c.core n).st ≤ 3)
/-- The item of the given scope that page's block serves. -/
def served (c : Chip) (b : Blk) (n scope : Nat) : Served :=
  let firstCore (p : Nat → Bool) : Served :=
    match ((List.range 8).map (8 * n + ·)).find? p with | some m => .core m | Option.none => .none
  match b with
  | .core => if scope = 1 ∧ coreActive c n = true then .core n else .none
  | .clus => if scope = 1 then firstCore (coreActive c) else .none
  | .pwu => if scope = 1 then firstCore (fun m => (c.core m).runs.any (fun r => r.walk.isSome && !r.ended)) else .none
  | .lrt =>
    if scope = 1 then
      match (List.range 256).find? (fun i => decide (2 ≤ (c.coll i).st ∧ (c.coll i).st ≤ 4)) with
      | some i => .coll i | Option.none => .none
    else .none
  | .rcu => if scope = 2 then
      match (List.range 32).find? (fun x => (c.ring x).st == 3) with
      | some x => .slot (c.ring x).slot | Option.none => .none
    else .none
  | .slot => if scope = 2 ∧ (c.slot n).st ≠ 0 then .slot n else .none
  | _ => .none

/-- SCOPE_ID of the item (R422). -/
def servedId (c : Chip) : Served → Nat
  | .core n => opId n (match (c.core n).runs with | r :: _ => tTag r.tod | [] => 0)
  | .coll i => i + 2 ^ 31
  | .slot n => (c.slot n).desc + 2 ^ 16 * n
  | .none => 0

/-- The outcome of R421 for the item: its TOD ends POISON, or its list faults; its run fails; its slot stalls
or faults. -/
def endServed (cause : Nat) : Served → Chip → Chip
  | .core n, c =>
    match (c.core n).runs.find? (fun r => r.begun && !r.ended) with
    | some r => endRun n r 0x18 0 0 (doneCc r r.tiles 0) c
    | Option.none => c.setCore n { c.core n with st := 4, fault := 0x2A, blocked := .none, runs := (c.core n).runs.filter (·.begun) }
  | .coll i, c => failState i 3 c
  | .slot n, c =>
    let s := c.slot n
    if cause = 9 then (if s.st = 2 ∨ s.st = 3 then slotEvent n (c.setSlot n { s with st := 4 }) else c)
    else if s.st = 2 then slotEvent n (c.setSlot n { s with st := 3 }) else c
  | .none, c => c

/-- ERR_INJ with GO (R349). -/
def errInj (page v : Nat) (c : Chip) : Chip :=
  match pageBlk page with
  | none => ce pgMbp 9 (ra page 0x18) v (accessError c)
  | some (b, p0) =>
    let cls := fld 3 0 v
    let cause := fld 12 8 v
    if bit 16 v = false ∨ b = .rt then c
    else if (c.lc = 1 ∨ c.lc = 3) ∧ bit 3 (blkCap b) = true ∧ cls ≤ 3 ∧ (blkCauses b).contains cause = true ∧ isGated c b = false then
      let scope := if cls < 2 then 0 else if cls = 3 then 4 else ucScope b cause
      let it := if cls = 2 then served c b (page - p0) scope else .none
      let id := if scope = 3 then c.sliceId else servedId c it
      endServed cause it (logErr { cls := cls, scope := scope, injected := true, cause := cause, page := page, scopeId := id } c)
    else ignored (ra page 0x18) v c

/-! ### Queue control (R364) -/

/-- A base and a size of a ring. -/
def ringOk (base size : Nat) : Bool := base % 64 == 0 && isPow2 size && decide (16 ≤ size ∧ size ≤ 4096 ∧ base + 64 * size ≤ t0Size)

/-- Both rings of a queue empty once a reset's started entries and tokens are done (R364, R372). -/
def queueSettle (q : Nat) (c : Chip) : Chip :=
  let x := c.queue q
  if x.resetting = true ∧ x.started = [] ∧ x.tokens = 0 then
    c.setQueue q { x with resetting := false, sqHead := x.sqTail, cqHead := x.cqTail }
  else c

/-- Completions in submission order (R366), as far as entries have their status and the ring has room. -/
def queueFlush (q : Nat) : Nat → Chip → Chip
  | 0, c => c
  | n + 1, c =>
    let x := c.queue q
    match x.started with
    | [] => queueSettle q c
    | e :: r =>
      match e.status with
      | none => c
      | some s =>
        if bit 9 (wd e.words 0) ∧ s = 0 then queueFlush q n (c.setQueue q { x with started := r })
        else if x.used < c.cqSize q then
          queueFlush q n (cqPush q 0 s 0 (wd e.words 1) e.detail [] (c.setQueue q { x with started := r }))
        else c
/-- Flush every started entry that can go. -/
def flushQueue (q : Nat) (c : Chip) : Chip := queueFlush q ((c.queue q).started.length + 1) c

/-- The words of the entry at an index. -/
def sqEntry (c : Chip) (q i : Nat) : List Nat := leWords 16 (c.bytes (c.sqBase q + 64 * (i % max 1 (c.sqSize q))) 64)

/-- Q_CTL.ENABLE. -/
def qEnable (q : Nat) (on : Bool) (v : Nat) (c : Chip) : Chip :=
  let x := c.queue q
  if 32 < q ∨ x.on = on then c
  else if on then
    if ringOk (c.sqBase q) (c.sqSize q) && ringOk (c.cqBase q) (c.cqSize q) then
      let c1 := (c.zero (c.sqBase q) (64 * c.sqSize q)).zero (c.cqBase q) (64 * c.cqSize q)
      (c1.setQueue q { on := true }).setRg (qKey q 0x128) 1
    else ignored (qKey q 0x128) v c
  else (c.setQueue q { x with on := false }).setRg (qKey q 0x128) 0

/-- Q_CTL.RESET: what has not started completes ABORTED. -/
def qReset (q : Nat) (c : Chip) : Chip :=
  let x := c.queue q
  if 32 < q ∨ x.on = false then c
  else
    let n := (x.sqTail + 65536 - x.sqHead) % 65536
    let more := (List.range n).map (fun i => ({ words := sqEntry c q (x.sqHead + i), status := some 9 } : Entry))
    flushQueue q (c.setQueue q { x with started := x.started ++ more, sqHead := x.sqTail, resetting := true })

/-! ### Writing a register -/

/-- Store the RW and unlocked RWL fields of a register and clear RW1C bits; a pair's halves under R8. -/
def plainWrite (a v : Nat) (c : Chip) : Chip :=
  match regRow a with
  | none => c
  | some r =>
    let key := regKey c a
    let locked := bit 0 (c.rg (ra (a / 0x1000) 0x2C)) && a / 0x1000 < 0x400
    let m := r.rw ||| (if locked then 0 else r.rwl)
    if r.pair = 1 then
      if m = 0 then c else { c with pairStage := Tab.set (fun _ => none) c.pairStage key (some (BitVec.ofNat 32 v)) }
    else if r.pair = 2 then if m = 0 then c else pairApply (regKey c (a - 4)) (v % 2 ^ 32) c
    else
      let old := c.rg key
      c.setRg key ((old - (old &&& (m ||| (r.w1c &&& v)))) ||| (v &&& m))

/-- The fields with a value of 0 in a write of RETRY_CFG keep theirs, each with a CE (R227, R373). -/
def retryWrite (a v : Nat) (c : Chip) : Chip :=
  let old := c.rg a
  let t := if fld 7 0 v = 0 then fld 7 0 old else fld 7 0 v
  let l := if fld 15 8 v = 0 then fld 15 8 old else fld 15 8 v
  let c1 := c.setRg a (t + 2 ^ 8 * l)
  let c2 := if fld 7 0 v = 0 then ignored a v c1 else c1
  if fld 15 8 v = 0 then ignored a v c2 else c2

/-- A group entry that an armed context or a formed ring names (R284). -/
def groupHeld (c : Chip) (g : Nat) : Bool :=
  c.colls.any (fun k => k.2.st != 0 && kGroup k.2.words == g) ||
  c.rings.any (fun k => decide (2 ≤ k.2.st ∧ k.2.st ≤ 5) && rMc k.2.words == g)

/-- Writes of the common header (R347). -/
def headWrite (page o v : Nat) (c : Chip) : Chip :=
  let a := ra page o
  match o with
  | 0x008 =>
    let c1 := c.setRg a (setFld 2 2 (c.rg a) (fld 2 2 v))
    let c2 := blockEnable page (bit 0 v) v c1
    let c3 := if bit 1 v then softReset page v c2 else c2
    if bit 3 v then wipeReq page v c3 else c3
  | 0x010 =>
    let c1 := plainWrite a v c
    if c1.rg a = 0 then c1.setRg (ra page 0x1C) 0 else c1
  | 0x018 => if bit 16 v then errInj page v c else c
  | 0x02C => if bit 0 v then blkLock page v c else c
  | _ => plainWrite a v c

/-- Act on a WO bit of a gated or live page: in drydown the action of a gated page is ignored (R390). -/
def actGated (gated : Bool) (a v : Nat) (f : Chip → Chip) (c : Chip) : Chip := if gated then ignored a v c else f c

/-- Writes of CORE n. -/
def coreWrite (gated : Bool) (n o v : Nat) (c : Chip) : Chip :=
  let a := ra (pgCore n) o
  let st := (c.core n).st
  if 0x140 ≤ o ∧ o < 0x1C0 then (if st = 0 ∨ st = 4 then plainWrite a v c else c)
  else if o = 0x10C then
    let c1 := plainWrite a v c
    if bit 0 v || bit 1 v then
      actGated gated a v (fun k =>
        let k1 := if bit 0 v then coreCmd n (listStart n v) k else k
        if bit 1 v then coreCmd n (listStop n) k1 else k1) c1
    else c1
  else plainWrite a v c

/-- Writes of CLUS n. -/
def clusWrite (gated : Bool) (n o v : Nat) (c : Chip) : Chip :=
  let a := ra (pgClus n) o
  let s := (c.clus n).sfu
  match o with
  | 0x114 => if bit 8 v then actGated gated a v (work (disarm n (fld 5 0 v))) c else c
  | 0x608 => if bit 0 v then actGated gated a v (run (sfuLoad n v)) c else c
  | 0x60C => if bit 3 v then setSfu n { s with missed := false } c else c
  | 0x610 => if s.armed then ignored a v c else plainWrite a v c
  | 0x614 => sfuFlipArm n v c
  | 0x628 => if bit 0 v then actGated gated a v (sfuDisarm n) c else c
  | _ => plainWrite a v c

/-- Writes of PWU n. -/
def pwuWrite (gated : Bool) (n o v : Nat) (c : Chip) : Chip :=
  let a := ra (pgPwu n) o
  let p := c.pwu n
  if 0x400 ≤ o ∧ o < 0x800 then (if p.armed then ignored a v c else plainWrite a v c)
  else match o with
  | 0x108 => if p.armed then ignored a v c else plainWrite a v c
  | 0x10C => thrArm n v c
  | 0x110 => if bit 1 v then c.setPwu n { p with missed := false } else c
  | 0x114 => if bit 0 v then actGated gated a v (thrCancel n) c else c
  | _ => plainWrite a v c

/-- Writes of slot n's page. -/
def slotWrite (n o v : Nat) (c : Chip) : Chip :=
  let a := ra (pgSlot n) o
  match o with
  | 0x100 => run (slotCmd n v) c
  | 0x12C => if (c.slot n).pubSt = 1 then ignored a v c else plainWrite a v c
  | 0x130 => run (pubArm n v) c
  | 0x148 => if bit 0 v then run (pubDisarm n v) c else c
  | 0x1F0 => if n = 0 then plainWrite a v c else c
  | 0x1F4 => if n = 0 then plainWrite a v c else c
  | _ => plainWrite a v c

/-- COLL_CMD; a reserved code is refused as malformed (R309; log 19). -/
def collCmd (v : Nat) (c : Chip) : Chip :=
  match fld 1 0 v with
  | 1 => collArm (fld 15 8 v) c
  | 2 => collDisarm (fld 15 8 v) c
  | _ => { c with collResult := 2 }

/-- Writes of the LRT page. -/
def lrtWrite (o v : Nat) (c : Chip) : Chip :=
  let a := ra pgLrt o
  if 0x800 ≤ o then (if groupHeld c ((o - 0x800) / 8) then ignored a v c else plainWrite a v c)
  else match o with
  | 0x120 => if c.rtArmed then ignored a v c else plainWrite a v c
  | 0x124 => rtFlipArm v c
  | 0x12C =>
    let c1 := if bit 0 v then rtCopy v c else c
    if bit 1 v then rtDisarm c1 else c1
  | 0x200 => work (collCmd v) c
  | _ => plainWrite a v c

/-- Writes of PORT n. -/
def portWrite (n o v : Nat) (c : Chip) : Chip :=
  let a := ra (pgPort n) o
  match o with
  | 0x100 =>
    let c1 := if bit 0 v then portTrain n c else c
    let c2 := if bit 1 v then portAdmit n c1 else c1
    let c3 := if bit 2 v then portRefuse n c2 else c2
    if bit 3 v then markDown n c3 else c3
  | 0x130 => retryWrite a v c
  | 0x134 => if fld 3 0 v = 0 then ignored a v c else plainWrite a v c
  | _ => plainWrite a v c

/-- Writes of the CAD page. -/
def cadWrite (o v : Nat) (c : Chip) : Chip :=
  if o = 0x184 then
    match fld 1 0 v with
    | 1 => evtArm c
    | 2 => evtRead c
    | 3 => evtCancel c
    | _ => c
  else plainWrite (ra pgCad o) v c

/-- RING_CMD; a reserved code is a wrong state (R280; log 19). -/
def ringCmd (v : Nat) (c : Chip) : Chip :=
  let x := fld 12 8 v
  match fld 3 0 v with
  | 1 => formRing x c
  | 2 => ringDisband x c
  | 3 => planCmd x c
  | 4 => restartRing x c
  | _ => { c with rcuResult := 1 }
/-- Writes of the RCU page. -/
def rcuWrite (o v : Nat) (c : Chip) : Chip :=
  if o = 0x100 then work (ringCmd v) c else plainWrite (ra pgRcu o) v c

/-- Writes of the MTM page: the area registers only while POOL_EN is clear (R319). -/
def mtmWrite (o v : Nat) (c : Chip) : Chip :=
  let a := ra pgMtm o
  let l := fld 4 0 (c.rg (mtmReg 0x1A8))
  if 0x104 ≤ o ∧ o ≤ 0x140 then (if c.poolEn then ignored a v c else plainWrite a v c)
  else match o with
  | 0x188 => run (fun k => let k1 := if bit 0 v then pfGo v k else k; if bit 1 v then pfStop v k1 else k1) c
  | 0x1A0 =>
    (match fld 9 8 v with
     | 1 => run (regionSeal (fld 4 0 v) v) c
     | 0 => c
     | m => run (regionStart (fld 4 0 v) m v) c)
  | 0x1AC =>
    (match fld 1 0 v with
     | 1 => run (loanOfferCmd l) c
     | 2 => run (loanReclaimCmd l) c
     | 3 => run (loanReturnCmd l) c
     | _ => c)
  | _ => plainWrite a v c

/-- Writes of CXL n. -/
def cxlWrite (n o v : Nat) (c : Chip) : Chip :=
  if o = 0x128 then
    match fld 1 0 v with
    | 1 => run (cxlOnline (cxlSel c n) v) c
    | 2 => run (cxlDrain (cxlSel c n) v) c
    | 3 => run (cxlOffline (cxlSel c n) v) c
    | _ => c
  else plainWrite (ra (pgCxl n) o) v c

/-- Writes of the MBP page: bases and sizes only while the queue is off (R364). -/
def mbpWrite (o v : Nat) (c : Chip) : Chip :=
  let a := ra pgMbp o
  let q := fld 5 0 (c.rg (ra pgMbp 0x124))
  if 0x130 ≤ o ∧ o < 0x150 then (if (c.queue q).on then c else plainWrite a v c)
  else match o with
  | 0x128 =>
    let c1 := qEnable q (bit 0 v) v c
    if bit 1 v then qReset q c1 else c1
  | 0x154 => retryWrite a v c
  | 0x158 => if fld 3 0 v = 0 then ignored a v c else plainWrite a v c
  | _ => plainWrite a v c

/-- Writes of the PWR page. -/
def pwrWrite (o v : Nat) (c : Chip) : Chip :=
  let a := pwrReg o
  match o with
  | 0x104 => planLevelWrite v c
  | 0x118 => if fld 3 0 v = 0 ∨ 8 < fld 3 0 v then ignored a v c else plainWrite a v c
  | 0x120 =>
    (match fld 1 0 v with
     | 1 => ddEnter c
     | 2 => ddExit v c
     | _ => c)
  | 0x134 => if c.pwr.st = 1 then plainWrite a v c else c
  | 0x13C => rstCmd v c
  | _ => plainWrite a v c

/-- Writes of the MGT page. An image's signature through a plain register write verifies or not (log 9). -/
def mgtWrite (o v : Nat) (c : Chip) : Chip :=
  match o with
  | 0x11C => if bit 0 v then imgUpdate ((Config.freeWord c.draw).toNat % 2 == 1) v { c with draw := c.draw + 1 } else c
  | 0x12C => if bit 0 v then ctrInc v c else c
  | 0x134 => loaderReq v c
  | _ => plainWrite (ra pgMgt o) v c

/-- Writes of the TAM page. -/
def tamWrite (o v : Nat) (c : Chip) : Chip :=
  match o with
  | 0x144 => if bit 0 v then run logCopy c else c
  | 0x168 => run (windowArm v) c
  | 0x16C =>
    let c1 := if bit 0 v then run (winGo v) c else c
    if bit 1 v then run (winCancel v) c1 else c1
  | _ => plainWrite (tamReg o) v c

/-- A write of a block-specific register. -/
def blkWrite (b : Blk) (n page o v : Nat) (c : Chip) : Chip :=
  match b with
  | .mgt => mgtWrite o v c
  | .sec => if o = 0x1D0 then (if bit 0 v then extCmd c else c) else plainWrite (ra page o) v c
  | .pwr => pwrWrite o v c
  | .tam => tamWrite o v c
  | .mbp => mbpWrite o v c
  | .cad => cadWrite o v c
  | .rcu => rcuWrite o v c
  | .lrt => lrtWrite o v c
  | .port => portWrite n o v c
  | .mtm => mtmWrite o v c
  | .gmc => plainWrite (ra page o) v c
  | .cxl => cxlWrite n o v c
  | .core => coreWrite (isGated c b) n o v c
  | .clus => clusWrite (isGated c b) n o v c
  | .pwu => pwuWrite (isGated c b) n o v c
  | .slot => slotWrite n o v c
  | .rt => if c.rtArmed then ce pgLrt 31 (ra page o) v c else plainWrite (ra page o) v c

/-- Write a register: an access that is not aligned, or whose page is unmapped, fails (R5, R346); a reserved
offset ignores the write (R7). -/
def regWrite (a v : Nat) (c : Chip) : Chip :=
  if a % 4 ≠ 0 then accessError c
  else
    match pageBlk (a / 0x1000) with
    | none => ce pgMbp 9 (a % 2 ^ 32) v (accessError c)
    | some (b, p0) =>
      let page := a / 0x1000
      let o := a % 0x1000
      let c0 := { c with answer := {} }
      if (regRow a).isNone then c0
      else if o < 0x100 ∧ b ≠ .rt then headWrite page o v c0
      else blkWrite b (page - p0) page o v c0

/-- REGISTER_WRITE: the control node's write of a core cycle, then the management processor's (R9). An access of
another size than four bytes fails (R5). -/
def registerWrite (a size : Nat) (cn mp : Option W32) (c : Chip) : Chip :=
  let one (w : Option W32) (k : Chip) : Chip :=
    match w with
    | none => k
    | some v => if size ≠ 4 then accessError k else regWrite a v.toNat k
  one mp (one cn c)

/-- PAIR_LOW_READ and PAIR_HIGH_WRITE (R8). -/
def pairLowRead (a : Nat) (c : Chip) : Chip :=
  if a % 4 ≠ 0 then accessError c
  else match regRow a with | some r => if r.pair = 1 then readReg a c else c | none => c
def pairHighWrite (a v : Nat) (c : Chip) : Chip :=
  if a % 4 ≠ 0 then accessError c
  else match regRow a with | some r => if r.pair = 2 then regWrite a v c else c | none => c

/-! ### The event table fires (R249) -/

/-- The write of an event-table entry: a locked RWL register ignores it with a CE. -/
def evtWrite (a v : Nat) (c : Chip) : Chip :=
  let lockedRwl := match regRow a with | some r => r.rwl != 0 && bit 0 (c.rg (ra (a / 0x1000) 0x2C)) | none => false
  if lockedRwl then ignored a v c else regWrite a v c

/-- Entry i is due at this beat and has not fired in it. -/
def evtDue (c : Chip) (i : Nat) : Bool :=
  let e := c.cad.ent i
  e.st != 0 && e.firedAt != some c.beat && c.come e.at_ && (!evtCascade e.words || c.cascadeDue e.at_)
/-- An entry fires: its write, its notification, and its next firing. -/
def evtFire (i : Nat) (c : Chip) : Chip :=
  if !evtDue c i then c
  else
    let e := c.cad.ent i
    let again := evtPeriod e.words != 0 && e.left != 1
    let next : EvtEntry := if again then { e with at_ := e.at_ + evtPeriod e.words, left := e.left - 1, firedAt := some c.beat } else { firedAt := some c.beat }
    let c1 := updCad (fun k => k.setEnt i next) (if evtCascade e.words then lateFire pgCad e.at_ c else latePassed pgCad e.at_ c)
    let c2 := if evtAction e.words % 2 = 1 then evtWrite (evtAddr e.words) (wd e.words 3) c1 else c1
    if 2 ≤ evtAction e.words then event 3 pgCad [i, wd e.words 5] c2 else c2
/-- EVENT_TABLE_FIRE: in ascending index. -/
def eventTableFire (c : Chip) : Chip := forEach (List.range 256) evtFire c

end Sys2Proof.Machine
end

