-- ==== Sys2Proof/Machine/Control.lean ====
section
/-! DEFINITION. Frames of the control link (R352 to R363, R369 to R371): acceptance, sessions, register and
memory access, events, attestation, and the loader's recovery (R402, R403). -/

namespace Sys2Proof.Machine

def updMbp (f : Mbp → Mbp) (c : Chip) : Chip := { c with mbp := f c.mbp }

/-! ### Attestation reports (R407) -/

/-- A field of n bytes. -/
def fit (n : Nat) (l : List Byte) : List Byte := l.take n ++ List.replicate (n - l.length) 0#8

/-- Bytes 0x0000 to 0x43FF of a report over 32 bytes of caller data. -/
def reportBody (c : Chip) (caller : List Byte) : List Byte :=
  let s := c.sec
  let ms := fit 32 s.m0 ++ fit 32 s.m1 ++ fit 32 s.m2 ++ fit 32 s.m3
  let ldr := decide (c.phase = .loader)
  let apk := fit 32 (Config.slhPublic s.aliasSeed)
  leBytes 4 1 ++ leBytes 4 (c.lc + 8 * b2n ldr) ++ leBytes 4 c.posId ++ leBytes 4 (s.svn + 2 ^ 8 * c.otp.svn) ++
  leBytes 4 (nat0 c.flash.counters 1) ++ leBytes 4 s.reportSeq ++ leBytes 8 c.cad.now ++ fit 32 caller ++ ms ++
  leBytes 4 s.version ++ leBytes 4 ((List.range 192).countP (fun n => (c.core n).mapApp)) ++ List.replicate 56 0#8 ++
  apk ++ fit 32 s.devPk ++ fit 17088 (Config.slhSign (devSeed c) (apk ++ ms.take 96))

/-- SEC signs a report: REPORT_SEQ counts it. -/
def signReport (caller : List Byte) (c : Chip) : Chip × List Byte :=
  let c1 := updSec (fun s => { s with reportSeq := (s.reportSeq + 1) % 2 ^ 32 }) c
  let b := reportBody c1 caller
  (c1, b ++ fit 17088 (Config.slhSign c.sec.aliasSeed b))

/-! ### Sessions (R355 to R359) -/

/-- The session's keys are in use: KEYED, or the loader's keyed session. -/
def Chip.keyed (c : Chip) : Bool := c.mbp.sess == 2 || c.mbp.keyedLdr

/-- Change SESS_STS.STATE: IRQ_STS bit 1. -/
def sessState (st : Nat) (c : Chip) : Chip :=
  if c.mbp.sess = st then c else irq pgMbp 1 (updMbp (fun m => { m with sess := st }) c)

/-- The session ends: NONE, or the loader without a keyed session. S is discarded; queues, events and LAST_TAG
stay. -/
def endSession (c : Chip) : Chip :=
  let c1 := if c.mbp.sess = 2 then stopTimers c else c
  let c2 := updMbp (fun m => { m with secret := [], keyedLdr := false, handshake := false, resumeBy := none, attest := [] }) c1
  if c.mbp.sess = 4 then c2 else sessState 0 c2

/-- SESSION_END goes out, protected when keyed (R354). -/
def sendEnd (c : Chip) : Chip := sendFrame { type := 0x07, prot := c.keyed } c

/-- The state block of SESSION_OK (R359). -/
def stateBlock (c : Chip) : List Byte :=
  let m := c.mbp
  let acked := match m.events with | e :: _ => e.eseq | [] => m.evtNext
  leBytes 4 m.lastTag ++ leBytes 4 m.evtNext ++ leBytes 4 acked ++ leBytes 4 0 ++
  (List.range 33).flatMap (fun q =>
    let x := c.queue q
    leBytes 2 x.sqTail ++ leBytes 2 x.sqHead ++ leBytes 2 x.cqTail ++ leBytes 2 x.cqHead)

/-- Push again every completion entry from CQ_HEAD. -/
def pushAgain (c : Chip) : Chip :=
  forEach (List.range 33) (fun q k =>
    let x := k.queue q
    if x.on then
      forEach (List.range x.used) (fun i k1 =>
        let e := k1.bytes (k1.cqBase q + 64 * ((x.cqHead + i) % max 1 (k1.cqSize q))) 64
        sendFrame { type := 0x21, qid := q, body := e } k1) k
    else k) c

/-- MEM_RD and MEM_WR that waited go out, and the timers run on (R363). -/
def resumeMem (c : Chip) : Chip :=
  let l := c.mbp.mem
  let c1 := updMbp (fun m => { m with mem := l.map (fun r => { r with sent := true, deadline := c.beat + r.deadline }) }) c
  (l.filter (fun r => !r.sent)).foldl (fun k r => sendFrame r.frame k) c1

/-- A KEYED session opens, new or resumed: SESSION_OK goes first, then completions and events again. -/
def openSession (c : Chip) : Chip :=
  let c1 := if c.mbp.sess = 2 then c else raiseIrq pgMbp 1 (updMbp (fun m => { m with sess := 2 }) c)
  let c2 := pushAgain (sendFrame { type := 0x04, body := stateBlock c1 } c1)
  resumeMem (c1.mbp.events.foldl (fun k e => sendEvent e k) c2)

/-! ### Acceptance (R353 to R355, R358) -/

/-- A type that R354 protects. -/
def isProtected (t : Nat) : Bool := t != 1 && t != 3 && t != 0x3C
/-- A type that the control node requests with, and that a RESP answers (R361). -/
def isRequest (t : Nat) : Bool := [0x10, 0x11, 0x18, 0x19, 0x20, 0x22].contains t
/-- A write-like request (R360). -/
def isWriteLike (t : Nat) : Bool := [0x11, 0x19, 0x20, 0x22].contains t

/-- The session state accepts the frame (R355, R371). -/
def accepts (c : Chip) (f : Frame) : Bool :=
  let t := f.type
  match c.mbp.sess with
  | 4 => t == 1 || t == 3 || t == 0x3C || (c.mbp.keyedLdr && f.prot && (t == 0x38 || t == 6 || t == 7))
  | 2 => t != 0x3C && (!isProtected t || f.prot)
  | 3 => t == 1 || t == 3 || (t == 5 && f.prot)
  | _ => t == 1 || t == 3

/-- The frame's epoch and counter are the next of its direction (R358); RESUME brings an epoch 1 to 4 later and
CTR 0 (R359). -/
def inOrder (c : Chip) (f : Frame) : Bool :=
  if f.type = 5 then
    let d := (f.epoch + 256 - c.mbp.rxEpoch) % 256
    decide (1 ≤ d ∧ d ≤ 4 ∧ f.ctr = 0)
  else f.epoch == c.mbp.rxEpoch && f.ctr == c.mbp.rxCtr


/-- A refused protected frame: SESSION_END, NONE and a UC (R358). -/
def refuseAuth (f : Frame) (c : Chip) : Chip :=
  ucOp pgMbp 8 (f.tag % 2 ^ 32) f.type 0 (endSession (sendEnd (countAuth c)))

/-- Answer a request (R361). -/
def respond (f : Frame) (status : Nat) (body : List Byte) (c : Chip) : Chip :=
  if c.mbp.sess = 2 then
    sendFrame { type := 0x40, qid := f.qid, prot := true, tag := f.tag, status := status, body := body } c
  else c

/-- Malformed: a CE, and STATUS 2 to a request (R353). -/
def malformed (f : Frame) (c : Chip) : Chip :=
  let c1 := ce pgMbp 10 f.type f.tag c
  if isRequest f.type then respond f 2 [] c1 else c1

/-- The module takes frames: from the start of Romon, in the loader, and HELLO while RETIRED (R355, R385, R416). -/
def takesFrames (c : Chip) (t : Nat) : Bool :=
  match c.phase with
  | .starting => true
  | .running => true
  | .loader => true
  | .retired => t == 1
  | .off => false

/-- A received frame of a type: accepted under R355, verified under R358, checked under R353, then its effect. -/
def onFrame (t : Nat) (f : Frame) (go : Chip → Chip) (c : Chip) : Chip :=
  if f.type ≠ t ∨ takesFrames c t = false then c
  else if c.phase = .retired then sendEnd (updMbp (fun m => { m with arrived := m.arrived.drop 1 }) c)
  else
    let c0 := updMbp (fun m => { m with arrived := m.arrived.drop 1 }) c
    if !accepts c f then ce pgMbp 8 f.type f.tag (countAuth c0)
    else if isProtected t then
      if !f.authentic || !inOrder c f then refuseAuth f c0
      else
        let c1 := if t = 5 then c0 else updMbp (fun m => { m with rxCtr := m.rxCtr + 1 }) c0
        if f.broken then malformed f c1 else go c1
    else if f.broken || f.prot then malformed f c0
    else go c0

/-! ### HELLO, KEYX, RESUME, REKEY, SESSION_END -/

/-- HELLO: `nm` and `ek` are the module's fresh nonce and encapsulation key (log 9). An old session stays in
force. -/
def hello (f : Frame) (nm ek : List Byte) : Chip → Chip :=
  onFrame 0x01 f (fun c =>
    if f.body.length ≠ 32 then malformed f c
    else
      let t := sha256 (f.body ++ nm ++ ek)
      let r := signReport t c
      let c1 := updMbp (fun m => { m with nc := f.body, nm := nm, trans := t, handshake := true }) r.1
      let c2 := if c1.mbp.sess = 0 then sessState 1 c1 else c1
      sendFrame { type := 0x02, prot := false, body := nm ++ ek ++ r.2 } c2)

/-- KEYX: `sigOk`, the signature over SHA-256(T ‖ ct) verifies; `ss`, the decapsulated secret (log 9). -/
def keyx (f : Frame) (sigOk : Bool) (ss : List Byte) : Chip → Chip :=
  onFrame 0x03 f (fun c =>
    let m := c.mbp
    if f.body.length ≠ 1088 + 7856 then malformed f c
    else if m.handshake = false ∨ sigOk = false ∨ (c.lc ≠ 0 ∧ c.flash.cnKey = []) then
      let c1 := sendEnd (updMbp (fun m => { m with handshake := false }) c)
      ce pgMbp 8 f.type 0 (if m.sess = 1 then sessState 0 c1 else c1)
    else
      let c1 := if m.sess = 2 then stopTimers c else c
      let c2 := updMbp (fun m => { m with
        secret := hkdfExtract (m.nc ++ m.nm) ss, epoch := 0, rxEpoch := 0, rxCtr := 0, txCtr := 0, handshake := false
        resumeBy := none, attest := [], keyedLdr := m.sess == 4 }) c1
      if m.sess = 4 then sendFrame { type := 0x04, body := stateBlock c2 } c2 else openSession c2)

/-- Events before ESEQ n are acknowledged (R359, R369). -/
def ackEvents (n : Nat) (c : Chip) : Chip :=
  updMbp (fun m => { m with events := m.events.filter (fun e => !serialLt e.eseq n) }) c

/-- RESUME: epoch e' in both directions; its body tells the first unacknowledged event. -/
def resumeFrame (f : Frame) : Chip → Chip :=
  onFrame 0x05 f (fun c =>
    if 2 ^ 32 ≤ leNat f.body then malformed f c
    else openSession (ackEvents (leNat (f.body.take 4)) (updMbp (fun m => { m with
      epoch := f.epoch, rxEpoch := f.epoch, rxCtr := 1, txCtr := 0, resumeBy := none }) c)))

/-- REKEY: the receiving direction takes the next epoch; from 255 the session ends. -/
def rekey (f : Frame) : Chip → Chip :=
  onFrame 0x06 f (fun c =>
    if c.mbp.rxEpoch = 255 then endSession c
    else updMbp (fun m => { m with rxEpoch := m.rxEpoch + 1, rxCtr := 0 }) c)

def sessionEnd (f : Frame) : Chip → Chip := onFrame 0x07 f endSession

/-- RESUME_TIMEOUT: S is discarded. -/
def resumeTimeout (c : Chip) : Chip :=
  match c.mbp.resumeBy with
  | some b => if c.mbp.sess = 3 ∧ b ≤ c.beat then endSession c else c
  | none => c

/-! ### Requests (R360 to R362, R364, R367) -/

/-- A request: a write-like one that LAST_TAG covers does nothing (R360). -/
def onRequest (t : Nat) (f : Frame) (go : Chip → Chip) : Chip → Chip :=
  onFrame t f (fun c =>
    let later := serialLt c.mbp.lastTag f.tag
    if isWriteLike t && !later then respond f 0 [] c
    else go (if later then updMbp (fun m => { m with lastTag := f.tag }) c else c))

/-- Read COUNT registers: the words read before the first that fails. -/
def readWords : Nat → Nat → Chip → Chip × List Nat × Bool
  | 0, _, c => (c, [], true)
  | n + 1, a, c =>
    let c1 := readReg a c
    if c1.answer.error then (c1, [], false)
    else
      let r := readWords n (a + 4) c1
      (r.1, c1.answer.value.toNat :: r.2.1, r.2.2)

/-- REG_READ. -/
def regRead (f : Frame) : Chip → Chip :=
  onRequest 0x10 f (fun c =>
    let n := leNat f.body
    if n = 0 ∨ 64 < n ∨ windowSize ≤ f.addr then malformed f c
    else
      let r := readWords n f.addr c
      respond f (if r.2.2 then 0 else 1) (leBytes 4 r.2.1.length ++ r.2.1.flatMap (leBytes 4)) r.1)

/-- Write words in ascending address; a failing word, or a reset that a word starts, stops the request. -/
def writeRegs : List Nat → Nat → Chip → Chip × Nat × Bool
  | [], _, c => (c, 0, true)
  | v :: l, a, c =>
    let c1 := regWrite a v c
    if c1.answer.error then (c1, 0, false)
    else if c1.mbp.sess ≠ c.mbp.sess then (c1, 1, true)
    else
      let r := writeRegs l (a + 4) c1
      (r.1, r.2.1 + 1, r.2.2)

/-- REG_WRITE. -/
def regWriteFrame (f : Frame) : Chip → Chip :=
  onRequest 0x11 f (fun c =>
    let n := at_ f.body 0 4
    if n = 0 ∨ 64 < n ∨ f.body.length ≠ 4 + 4 * n ∨ windowSize ≤ f.addr then malformed f c
    else
      let r := writeRegs (leWords n (f.body.drop 4)) f.addr c
      respond f (if r.2.2 then 0 else 1) (leBytes 4 r.2.1) r.1)

/-- The tier range cannot be reached: GDDR7 not wiped yet (R385), or memory is unpowered in hold-up. -/
def memClosed (c : Chip) (a : Nat) : Bool := (a < 0x800000000000 && !c.pwr.gddr) || c.pwr.st == 5

/-- Serve a DMA_RD: a read whose granule is being refetched waits. -/
def serveDma (f : Frame) (c : Chip) : Chip :=
  let n := leNat f.body
  let r := readServe f.addr n c
  match r.2 with
  | .ok l => respond f 0 l r.1
  | .access => respond f 1 [] r.1
  | .poison _ => respond f 4 (List.replicate n 0#8) r.1
  | .wait _ => updMbp (fun m => { m with held := m.held ++ [f] }) r.1

/-- DMA_RD. -/
def dmaRd (f : Frame) : Chip → Chip :=
  onRequest 0x18 f (fun c =>
    let n := leNat f.body
    if n = 0 ∨ 65536 < n ∨ 2 ^ 48 ≤ f.addr then malformed f c
    else if memClosed c f.addr then respond f 1 [] c
    else serveDma f c)

/-- Answer the held DMA_RD frames whose refetch has ended: data, or poison when no source served it. -/
def settleHeld (c : Chip) : Chip :=
  c.mbp.held.foldl (fun k f =>
    let n := leNat f.body
    let drop : Chip := updMbp (fun m => { m with held := m.held.erase f }) k
    match k.tasRead f.addr n with
    | .wait g => if (k.refetchOf g).isSome then k else respond f 4 (List.replicate n 0#8) drop
    | _ => serveDma f drop) c

/-- DMA_WR. -/
def dmaWr (f : Frame) : Chip → Chip :=
  onRequest 0x19 f (fun c =>
    let n := f.body.length
    if n = 0 ∨ 65536 < n ∨ 2 ^ 48 ≤ f.addr then malformed f c
    else if memClosed c f.addr then respond f 1 [] c
    else
      let r := tasWrite f.addr f.body c
      respond f r.2 [] r.1)

/-- SQ_WRITE. -/
def sqWrite (f : Frame) : Chip → Chip :=
  onRequest 0x20 f (fun c =>
    let q := f.qid
    let x := c.queue q
    let n := f.body.length / 64
    if 32 < q ∨ f.body.length % 64 ≠ 0 ∨ n = 0 ∨ 1023 < n then malformed f c
    else if x.on = false then respond f 6 [] c
    else if c.sqSize q < (x.sqTail + 65536 - x.sqHead) % 65536 + n then respond f 5 [] c
    else
      let c1 := forEach (List.range n) (fun i k =>
        k.store (k.sqBase q + 64 * ((x.sqTail + i) % max 1 (k.sqSize q))) ((f.body.drop (64 * i)).take 64)) c
      respond f 0 [] (c1.setQueue q { x with sqTail := (x.sqTail + n) % 65536 }))

/-- CQ_ACK. -/
def cqAck (f : Frame) : Chip → Chip :=
  onRequest 0x22 f (fun c =>
    let q := f.qid
    let x := c.queue q
    let h := leNat f.body
    if 32 < q ∨ 65536 ≤ h then malformed f c
    else if x.on = false then respond f 6 [] c
    else if x.used < (h + 65536 - x.cqHead) % 65536 then malformed f c
    else respond f 0 [] (flushQueue q (c.setQueue q { x with cqHead := h })))

/-! ### Events, time, attestation -/

def eventAck (f : Frame) : Chip → Chip :=
  onFrame 0x29 f (fun c => if 2 ^ 32 ≤ leNat f.body then malformed f c else ackEvents ((leNat f.body + 1) % 2 ^ 32) c)

def timeFrame (f : Frame) : Chip → Chip :=
  onFrame 0x30 f (fun c => if 2 ^ 32 ≤ leNat f.body then malformed f c else timeOffset (i32 (leNat f.body)) c)

/-- ATTEST_REQ: with four waiting, a further frame waits in the link's buffer (R408). -/
def attestReq (f : Frame) (c : Chip) : Chip :=
  if 4 ≤ c.mbp.attest.length then c
  else onFrame 0x38 f (fun k =>
    if f.body.length ≠ 32 then malformed f k else updMbp (fun m => { m with attest := m.attest ++ [(f.tag, f.body)] }) k) c

/-- ATTEST_REPORT_READY. -/
def attestReady (c : Chip) : Chip :=
  match c.mbp.attest with
  | [] => c
  | (tag, caller) :: t =>
    if c.keyed then
      let r := signReport caller c
      sendFrame { type := 0x39, tag := tag, body := r.2 } (updMbp (fun m => { m with attest := t }) r.1)
    else c

/-! ### Recovery (R402, R403) -/

/-- RECOVERY_RESP with the request's TAG. -/
def recoveryAnswer (f : Frame) (code : Nat) (c : Chip) : Chip :=
  sendFrame { type := 0x3D, prot := false, tag := f.tag, body := leBytes 4 code ++ leBytes 4 c.sec.units.length } c

/-- RECOVERY_CHUNK: the body goes into the staging area. -/
def recoveryChunk (f : Frame) (c : Chip) : Chip :=
  if f.body = [] then c
  else onFrame 0x3C f (fun k =>
    let n := f.body.length
    if f.addr % 64 ≠ 0 ∨ n % 64 ≠ 0 ∨ 0x3000000 < f.addr + n then recoveryAnswer f 1 k
    else
      let new := (List.range (n / 64)).map (fun i => f.addr / 64 + i)
      recoveryAnswer f 0 (updSec (fun s => { s with
        staged := Tab.setList (fun _ => 0#8) s.staged f.addr f.body
        units := s.units ++ new.filter (fun u => !s.units.contains u) }) k)) c

/-- Program a checked image, read it back and reset the module; a deferred program answers 8 and waits. -/
def programImage (f : Frame) (sigOk programOk : Bool) (c : Chip) : Chip :=
  let im : Image := { bytes := Tab.getList (fun _ => 0#8) c.sec.staged 0 f.addr, sigOk := sigOk }
  if !holdOk c then
    let c1 := updSec (fun s => { s with commit := some (f, sigOk, programOk) }) (c.bumpRg (pwrReg 0x144) 1)
    if c.sec.commit.isSome then c1 else recoveryAnswer f 8 c1
  else
    let c1 := updSec (fun s => { s with commit := none }) (updFlash (fun x => { x with
      image := if programOk then im else {}, counters := incCounter 2 x.counters }) c)
    if !programOk then recoveryAnswer f 7 c1
    else
      let out := (recoveryAnswer f 0 c1).mbp.out
      updMbp (fun m => { m with out := out }) (moduleReset 1 false c1)

/-- RECOVERY_COMMIT: the staged image is checked, programmed and read back, and the module resets. `sigOk`: its
signature verifies (log 9); `programOk`: the read-back compares. -/
def recoveryCommit (f : Frame) (sigOk programOk : Bool) (c : Chip) : Chip :=
  if f.body ≠ [] then c
  else onFrame 0x3C f (fun k =>
    let n := f.addr
    if n % 64 ≠ 0 ∨ 0x3000000 < n then recoveryAnswer f 1 k
    else if !(List.range (n / 64)).all (fun u => k.sec.units.contains u) then recoveryAnswer f 2 k
    else
      let im : Image := { bytes := Tab.getList (fun _ => 0#8) k.sec.staged 0 n, sigOk := sigOk }
      let fail := imageFail im k.otp.svn k.lc
      if fail ≠ 0 then recoveryAnswer f (refusalOf fail) k
      else programImage f sigOk programOk (updSec (fun s => { s with commit := none }) k)) c

/-- The loader's retry of a deferred program, VHOLD measured now. -/
def recoveryRetry (vhold : Nat) (c0 : Chip) : Chip :=
  let c := updPwr (fun p => { p with vhold := vhold }) c0
  match c.sec.commit with
  | some (f, s, p) => programImage f s p c
  | none => c

end Sys2Proof.Machine
end

