-- ==== Sys2Proof/Machine/Queues.lean ====
section
/-! DEFINITION. Queue entries and their requests to the control node's memory (R363 to R367), and the signed
commands of the admin queue (R398, R411 to R414). -/

namespace Sys2Proof.Machine

/-! ### Entries (R365) -/

def eOp (w : List Nat) : Nat := fld 7 0 (wd w 0)
def eFence (w : List Nat) : Bool := bit 8 (wd w 0)
def eCn (w : List Nat) : Nat := wd w 2 + 2 ^ 32 * wd w 3
def eTas (w : List Nat) : Nat := wd w 4 + 2 ^ 32 * wd w 5
def eLen (w : List Nat) : Nat := fld 27 0 (wd w 6)
def eFlag (w : List Nat) : Nat := fld 5 0 (wd w 7)
def eAmount (w : List Nat) : Nat := fld 23 8 (wd w 7)
def eMask (w : List Nat) : Nat := fld 23 0 (wd w 8)
/-- The queue accepts the OP. -/
def acceptsOp (q op : Nat) : Bool :=
  decide (1 ≤ op ∧ op ≤ 5) || (op == 6 && decide (q < 32)) || ((op == 0x10 || op == 0x11 || op == 0x12) && q == 32)
/-- A signal's AMOUNT is in range. -/
def signalOk (w : List Nat) : Bool := eMask w == 0 || eAmount w != 0

/-- The queue could start its next entry (R366). -/
def startable (c : Chip) (q : Nat) : Bool :=
  let x := c.queue q
  x.on && !x.resetting && x.sqHead != x.sqTail && decide (x.started.length < 8) && c.cqRoom q 1 &&
    (!eFence (sqEntry c q x.sqHead) || x.started == [])
/-- The queue that starts an entry next: admin first, then the slot queues in turn. -/
def nextQueue (c : Chip) : Option Nat :=
  (32 :: (List.range 32).map (fun i => (c.mbp.lastQ + 1 + i) % 32)).find? (startable c)

/-- Start the queue's next entry: it joins the started ones, at the index answered. -/
def takeEntry (q : Nat) (c : Chip) : Chip × Nat :=
  let x := c.queue q
  let w := sqEntry c q x.sqHead
  let c1 := c.setQueue q { x with started := x.started ++ [{ words := w }], sqHead := (x.sqHead + 1) % 65536 }
  (if q < 32 then updMbp (fun m => { m with lastQ := q }) c1 else c1, x.started.length)

/-- Change a started entry. -/
def updEntry (q i : Nat) (f : Entry → Entry) (c : Chip) : Chip :=
  let x := c.queue q
  c.setQueue q { x with started := x.started.modify i f }
/-- An entry has its status; completions go out in submission order. -/
def finish (q i status detail : Nat) (c : Chip) : Chip :=
  flushQueue q (updEntry q i (fun e => { e with status := some status, detail := detail, req := none }) c)

/-- Execute a queue's next entry when its OP is one of `ops`; NOP also takes an entry that is malformed by its
OP. Nothing happens while queues pause (R366). -/
def queueCmd (q : Nat) (ops : List Nat) (go : Nat → List Nat → Chip → Chip) (c : Chip) : Chip :=
  if c.pwr.st ≠ 1 ∨ nextQueue c ≠ some q then c
  else
    let w := sqEntry c q (c.queue q).sqHead
    if acceptsOp q (eOp w) then
      if ops.contains (eOp w) then
        let r := takeEntry q c
        go r.2 w r.1
      else c
    else if ops.contains 1 then
      let r := takeEntry q c
      finish q r.2 1 0 r.1
    else c

/-- The signal of an entry: a flag that would pass 0xFFFF keeps its value (R365). -/
def signalFlags (w : List Nat) (c : Chip) : Chip × Nat :=
  ((List.range 24).filter (fun cl => bit cl (eMask w))).foldl (fun k cl =>
    match addFlag cl (eFlag w) (eAmount w) k.1 with
    | some c1 => (c1, k.2)
    | none => (k.1, 7)) (c, 0)
/-- The entry's work is done: its signal, then its status. -/
def finishSignal (q i : Nat) (w : List Nat) (c : Chip) : Chip :=
  let r := signalFlags w c
  finish q i r.2 0 r.1

/-! ### Requests to control-node memory (R363) -/

def memTimeoutBeats (c : Chip) : Nat := max 1 (fld 15 0 (c.rg (ra pgMbp 0x114)))
/-- Bytes of one MEM_RD or MEM_WR. -/
def memPart : Nat := 65536

/-- Issue a request for `n` bytes at offset `off` of an entry's bytes: `data` for MEM_WR, none for MEM_RD. While
the session is not KEYED it waits. -/
def memRequest (q i off n : Nat) (data : Option (List Byte)) (w : List Nat) (c : Chip) : Chip :=
  let t := (c.mbp.nextTag + 1) % 2 ^ 32
  let f : Frame := match data with
    | some l => { type := 0x1D, qid := q, addr := eCn w + off, tag := t, body := l }
    | none => { type := 0x1C, qid := q, addr := eCn w + off, tag := t, body := leBytes 4 n }
  let on := c.mbp.sess == 2
  let r : MemReq := { tag := t, q := q, frame := f, off := off, len := n, sent := on
                      deadline := (if on then c.beat else 0) + memTimeoutBeats c }
  let c1 := updEntry q i (fun e => { e with req := some t }) (updMbp (fun m => { m with nextTag := t, mem := m.mem ++ [r] }) c)
  if on then sendFrame f c1 else c1

/-- Read the next part of an entry of n bytes from the control node. -/
def pullNext (q i off n : Nat) (w : List Nat) (c : Chip) : Chip := memRequest q i off (min memPart (n - off)) none w c

/-- Write the next part of a PUSH to the control node; a read of a granule being refetched waits. -/
def pushNext (q i off : Nat) (w : List Nat) (c : Chip) : Chip :=
  let n := min memPart (eLen w - off)
  let r := readServe (eTas w + off) n c
  match r.2 with
  | .ok l => memRequest q i off n (some l) w r.1
  | .access => finish q i 2 0 r.1
  | .poison _ => finish q i 4 0 r.1
  | .wait _ => updEntry q i (fun e => { e with waitAt := some off }) r.1

/-- Reads of PUSH entries that waited for a refetch which has ended. -/
def settlePush (c : Chip) : Chip :=
  forEach (List.range 33) (fun q k =>
    forEach (List.range (k.queue q).started.length) (fun i k1 =>
      match (k1.queue q).started[i]? with
      | some e =>
        match e.waitAt with
        | some off =>
          let n := min memPart (eLen e.words - off)
          let k2 := updEntry q i (fun e => { e with waitAt := none }) k1
          match k1.tasRead (eTas e.words + off) n with
          | .wait g => if (k1.refetchOf g).isSome then k1 else finish q i 4 0 k2
          | _ => pushNext q i off e.words k2
        | none => k1
      | none => k1) k) c
/-- After a refetch may have ended: what waited for it goes on (R339). -/
def settle (c : Chip) : Chip := settlePush (settleHeld c)

/-- Apply a REG_BATCH's pairs in order; the index of the first that fails (R365). -/
def batchWrite : List Byte → Nat → Nat → Chip → Chip × Option Nat
  | _, 0, _, c => (c, none)
  | l, n + 1, i, c =>
    let c1 := regWrite (at_ l 0 4) (at_ l 4 4) c
    if c1.answer.error then (c1, some i)
    else if c1.mbp.sess ≠ c.mbp.sess then (c1, none)
    else batchWrite (l.drop 8) n (i + 1) c1

/-- A REFETCH_FILL has its bytes: they are offered for the granule unless it is no longer poisoned (R339, R372). -/
def fillOffer (q i : Nat) (w : List Nat) (l : List Byte) (c : Chip) : Chip :=
  let g := eLen w
  let crc := at_ l (payloadSize + 8) 4
  if gPoison (c.mapW g 0) = false then finish q i 0 0 c
  else if at_ l payloadSize 4 ≠ g ∨ crc32 (l.take payloadSize) ≠ crc then finish q i 10 0 c
  else
    match offerRefetch g 3 (l.take payloadSize) crc c with
    | some c1 => settle (finish q i 0 0 c1)
    | none => finish q i 6 0 c

/-- Bytes that an entry reads from the control node or writes to it. -/
def entryBytes (w : List Nat) : Nat :=
  if eOp w = 0x10 then 8 * eLen w else if eOp w = 0x11 then frameSize else eLen w

/-- A request of entry i of queue q is answered with STATUS 0 and its bytes. -/
def memDone (q i : Nat) (e : Entry) (r : MemReq) (data : List Byte) (c0 : Chip) : Chip :=
  let w := e.words
  let c := updEntry q i (fun e => { e with req := none }) c0
  let nxt := r.off + r.len
  let more := decide (nxt < entryBytes w)
  let op := eOp w
  if op = 0x02 then
    let x := if memClosed c (eTas w) then (c, 1) else tasWrite (eTas w + r.off) data c
    if x.2 = 1 then finish q i 2 0 x.1
    else if x.2 ≠ 0 then finish q i 3 0 x.1
    else if more then pullNext q i nxt (eLen w) w x.1 else finishSignal q i w x.1
  else if op = 0x03 then (if more then pushNext q i nxt w c else finishSignal q i w c)
  else
    let got := e.got ++ data
    let c1 := updEntry q i (fun e => { e with got := got }) c
    if more then pullNext q i nxt (entryBytes w) w c1
    else if op = 0x10 then
      let b := batchWrite got (eLen w) 0 c1
      match b.2 with
      | some k => finish q i 2 k b.1
      | none => finish q i 0 0 b.1
    else if op = 0x11 then fillOffer q i w got c1
    else c1

/-- The started entry that waits for a request. -/
def waitingEntry (c : Chip) (r : MemReq) : Option (Nat × Entry) :=
  let l := (c.queue r.q).started
  match l.findIdx? (fun e => e.req == some r.tag) with
  | some i => (l[i]?).map (fun e => (i, e))
  | none => none

/-- A request fails its entry with REMOTE. -/
def memFail (r : MemReq) (c : Chip) : Chip :=
  let c1 := updMbp (fun m => { m with mem := m.mem.filter (fun x => x.tag != r.tag) }) c
  match waitingEntry c r with
  | some (i, _) => finish r.q i 5 0 c1
  | none => c1

/-- RESP: the control node's answer to a MEM_RD or MEM_WR. -/
def memResp (f : Frame) : Chip → Chip :=
  onFrame 0x40 f (fun c =>
    match c.mbp.mem.find? (fun r => r.tag == f.tag) with
    | none => c
    | some r =>
      if f.status ≠ 0 then memFail r c
      else if f.body.length ≠ (if r.frame.type = 0x1C then r.len else 0) then malformed f c
      else
        let c1 := updMbp (fun m => { m with mem := m.mem.filter (fun x => x.tag != r.tag) }) c
        match waitingEntry c r with
        | some (i, e) => memDone r.q i e r f.body c1
        | none => c1)

/-- MEM_TIMEOUT: sent again once; the second timeout fails the entry. -/
def memTimeout (tag : Nat) (c : Chip) : Chip :=
  match c.mbp.mem.find? (fun r => r.tag == tag) with
  | none => c
  | some r =>
    if c.mbp.sess ≠ 2 ∨ c.beat < r.deadline then c
    else if r.resent then ucOp pgMbp 12 tag r.q 0 (memFail r c)
    else
      let up (x : MemReq) : MemReq := if x.tag = tag then { x with resent := true, deadline := c.beat + memTimeoutBeats c } else x
      sendFrame r.frame (updMbp (fun m => { m with mem := m.mem.map up }) c)

/-! ### The operations (R365) -/

def nopEntry (q : Nat) : Chip → Chip := queueCmd q [1] (fun i _ c => finish q i 0 0 c)

/-- The TAS range of an entry exists and can be reached (R344, R385). -/
def rangeOpen (c : Chip) (w : List Nat) (n : Nat) : Bool := c.extentOk (eTas w) n && !memClosed c (eTas w)
/-- An entry's bad range: ACCESS, with the MTM's record when the range does not exist. -/
def badRange (q i : Nat) (w : List Nat) (n : Nat) (c : Chip) : Chip :=
  finish q i 2 0 (if c.extentOk (eTas w) n then c else badAddr (eTas w) c)

/-- PULL. -/
def pullEntry (q : Nat) : Chip → Chip := queueCmd q [2] (fun i w c =>
  if eLen w = 0 ∨ 0x1000000 < eLen w ∨ signalOk w = false then finish q i 1 0 c
  else if !rangeOpen c w (eLen w) then badRange q i w (eLen w) c
  else pullNext q i 0 (eLen w) w c)

/-- PUSH. -/
def pushEntry (q : Nat) : Chip → Chip := queueCmd q [3] (fun i w c =>
  if eLen w = 0 ∨ 0x1000000 < eLen w ∨ signalOk w = false then finish q i 1 0 c
  else if !rangeOpen c w (eLen w) then badRange q i w (eLen w) c
  else pushNext q i 0 w c)

/-- SIGNAL. -/
def queueSignal (q : Nat) : Chip → Chip := queueCmd q [4] (fun i w c =>
  if signalOk w then finishSignal q i w c else finish q i 1 0 c)

/-- WRITE_WORDS. -/
def wordsEntry (q : Nat) : Chip → Chip := queueCmd q [5] (fun i w c =>
  let n := eLen w
  if n = 0 ∨ 7 < n ∨ signalOk w = false then finish q i 1 0 c
  else if !rangeOpen c w (4 * n) then badRange q i w (4 * n) c
  else
    let r := tasWrite (eTas w) ((List.range n).flatMap (fun k => leBytes 4 (wd w (9 + k)))) c
    if r.2 = 0 then finishSignal q i w r.1 else finish q i (if r.2 = 1 then 2 else 3) 0 r.1)

/-- A slot in BINDING, PARKING or RELEASING. -/
def passing (s : Slot) : Bool := s.st == 1 || s.st == 5 || s.st == 6
/-- The SLOT_CMD entry i of slot queue q: done when the slot has refused or has left its transient state. -/
def slotOutcome (q i : Nat) (c : Chip) : Chip :=
  let s := c.slot q
  if s.refuse ≠ 0 then finish q i 6 s.refuse c
  else if passing s then c else finish q i 0 s.sts c

/-- SLOT_CMD. -/
def slotEntry (q : Nat) : Chip → Chip := queueCmd q [6] (fun i w c =>
  let v := wd w 6
  if fld 3 0 v = 0 ∨ 5 < fld 3 0 v then finish q i 1 0 c
  else slotOutcome q i (slotCmd q v (c.setSlot q { c.slot q with refuse := 0 })))

/-- A SLOT_CMD entry that waits for the slot. -/
def slotWaits (e : Entry) : Bool := eOp e.words == 6 && e.status == none
/-- The slot may have left its transient state: a BIND that ran out of time is back in IDLE, refused. -/
def slotSettle (n : Nat) (c : Chip) : Chip :=
  let s := c.slot n
  let l := (c.queue n).started
  match l.findIdx? slotWaits with
  | some i =>
    if passing s then c
    else if fld 3 0 (wd (((l[i]?).map (·.words)).getD []) 6) = 1 ∧ s.st = 0 then finish n i 6 s.refuse c
    else finish n i 0 s.sts c
  | none => c

/-- REG_BATCH. -/
def batchEntry (q : Nat) : Chip → Chip := queueCmd q [0x10] (fun i w c =>
  if eLen w = 0 ∨ 4096 < eLen w then finish q i 1 0 c else pullNext q i 0 (8 * eLen w) w c)

/-- REFETCH_FILL. -/
def fillEntry (q : Nat) : Chip → Chip := queueCmd q [0x11] (fun i w c =>
  if c.granules ≤ eLen w then finish q i 2 0 c else pullNext q i 0 frameSize w c)

/-! ### Signed commands -/

/-- A SIGNED entry whose bytes are all here. -/
def signedHere (e : Entry) : Bool := eOp e.words == 0x12 && e.status == none && e.req == none && e.got.length == eLen e.words

/-- The oldest SIGNED entry whose bytes are here is judged when its TYPE is one of this command's; otherwise a
SIGNED entry starts. -/
def signedEntry (q : Nat) (mine : Nat → Bool) (go : Nat → List Byte → Chip → Chip) (c : Chip) : Chip :=
  if c.pwr.st ≠ 1 then c
  else
    let l := (c.queue q).started
    match l.findIdx? signedHere with
    | some i =>
      let b := ((l[i]?).map (·.got)).getD []
      if mine (sgType b) then go i b c else c
    | none => queueCmd q [0x12] (fun i w k =>
        if eLen w = 0 ∨ 65536 < eLen w then finish q i 1 0 k else pullNext q i 0 (eLen w) w k) c

/-- A refused signed command: its code in LC_RESULT and DETAIL (R412). -/
def refuseSigned (q i : Nat) (log : Chip → Chip) (v : Verdict) (c : Chip) : Chip :=
  match v with
  | .refuse code => finish q i 6 code (log (updSec (fun s => { s with lcResult := code }) c))
  | .badSig => finish q i 8 0 (log c)
  | .accept => c

/-- LC_TRANSITION (R414): also judges an envelope of a reserved TYPE. The commit of its record may be deferred. -/
def lcTransition (q : Nat) (sv sc : Bool) : Chip → Chip :=
  signedEntry q (fun t => t != 2 && t != 3) (fun i b c =>
    if c.pwr.defer.any (fun d => d.1 == .lifecycle) ∨ c.sec.lcReset.isSome = true then c
    else
      match judge c b sv sc with
      | .accept =>
        if holdOk c then finish q i 0 0 (transition b c)
        else startFlash .lifecycle c
      | v => refuseSigned q i (ce pgSec 8 (sgType b) 0) v c)

/-- MASTER_OVERRIDE (R244): it takes effect at the next beat boundary. -/
def masterOverride (q : Nat) (sc : Bool) : Chip → Chip :=
  signedEntry q (fun t => t == 2) (fun i b c =>
    match judge c b false sc with
    | .accept =>
      finish q i 0 0 (updCad (fun k => { k with
        override := some { target := fld 10 0 (sgArg b), mepoch := fld 23 16 (sgArg b), at_ := c.beat + 1 } }) c)
    | v => refuseSigned q i (ce pgCad 13 (fld 10 0 (sgArg b)) (fld 23 16 (sgArg b))) v c)

/-- SVN_COMMIT (R398). -/
def svnCommit (q : Nat) (sc : Bool) : Chip → Chip :=
  signedEntry q (fun t => t == 3) (fun i b c =>
    match judge c b false sc with
    | .accept =>
      finish q i 0 0 { c with otp := { c.otp with svn := fld 6 0 (sgArg b) } }
    | v => refuseSigned q i (ce pgSec 8 (sgType b) 0) v c)

end Sys2Proof.Machine
end

