-- ==== Sys2Proof/Machine/Act.lean ====
section
/-! DEFINITION. How a command acts: its operation on the module, the queue untouched; and the conditions that
commands share. -/

namespace Sys2Proof.Machine

/-- A command whose effect is an operation on the module. -/
def act (f : Chip → Chip) (s : State) : Host.Outcome State Fault Refusal := .next { s with chip := f s.chip }

/-- Act while the module is on: the loader and a retired module keep their control link (R402, R416). -/
def awake (f : Chip → Chip) (c : Chip) : Chip := if c.phase = .off then c else f c

/-- A write of command bits on a page that drydown gates is ignored (R390). -/
def gated (b : Blk) (a v : Nat) (f : Chip → Chip) : Chip → Chip := live (fun c => if isGated c b then ignored a v c else f c)

/-- A packet of its KIND (R204). -/
def message (kind : Nat) (f : Packet → Chip → Chip) (p : Packet) (c : Chip) : Chip := if p.kind = kind then f p c else c

/-- A packet for the memory tiers: it leaves the receive buffer, and reads that waited for a refetch may go on. -/
def tierMsg (kind : Nat) (f : Packet → Chip → Chip) : Packet → Chip → Chip :=
  message kind (fun p c => settle (f p (takePkt p c)))

/-- FLASH_DEFER_RETRY (R381): in the loader it is the recovery commit that waits (R403). -/
def deferRetry (vhold : Nat) (c : Chip) : Chip :=
  if c.phase = .loader then recoveryRetry vhold c else live (flashRetry vhold) c

end Sys2Proof.Machine
end

