-- ==== Sys2Proof/Machine/CmdCadence.lean ====
section
/-! DEFINITION. Commands of the cadence unit and its event table (R228 to R251). Each is one
operation of its chapter under the condition that the part of the module it needs is powered. -/

namespace Sys2Proof.Machine

/-- BEAT_POINT (R229). -/
def execBeatPoint (s : State) : Host.Outcome State Fault Refusal :=
  act (live (fun c => serveWaiting (planApply (Machine.beatPoint c)))) s
/-- LINK_MEASURE (R236). -/
def execLinkMeasure (port : PortId) (markers : Nat) (mean : Int) (s : State) : Host.Outcome State Fault Refusal :=
  act (live (Machine.linkMeasure port markers mean)) s
/-- MASTER_ELECTION (R231). -/
def execMasterElection (s : State) : Host.Outcome State Fault Refusal := act (live Machine.masterElection) s
/-- CADENCE_LOCK (R238). -/
def execCadenceLock (s : State) : Host.Outcome State Fault Refusal := act (live Machine.cadenceLock) s
/-- HOLDOVER_ENTRY (R240). -/
def execHoldoverEntry (s : State) : Host.Outcome State Fault Refusal := act (live Machine.holdoverEntry) s
/-- LOST_ENTRY (R241). -/
def execLostEntry (s : State) : Host.Outcome State Fault Refusal := act (live Machine.lostEntry) s
/-- TIME (R370). -/
def execTime (f : Frame) (s : State) : Host.Outcome State Fault Refusal := act (timeFrame f) s
/-- OVERRIDE_TAKEOVER (R244). -/
def execOverrideTakeover (s : State) : Host.Outcome State Fault Refusal := act (live overrideTake) s
/-- EVT_ARM (R248). -/
def execEvtArm (s : State) : Host.Outcome State Fault Refusal := act (live Machine.evtArm) s
/-- EVT_READ (R248). -/
def execEvtRead (s : State) : Host.Outcome State Fault Refusal := act (live Machine.evtRead) s
/-- EVT_CANCEL (R248). -/
def execEvtCancel (s : State) : Host.Outcome State Fault Refusal := act (live Machine.evtCancel) s
/-- EVENT_TABLE_FIRE (R249). -/
def execEventTableFire (s : State) : Host.Outcome State Fault Refusal := act (live Machine.eventTableFire) s

end Sys2Proof.Machine
end

