-- ==== Sys2Proof/Machine/CmdColl.lean ====
section
/-! DEFINITION. Commands of the collective engine (R287 to R309). Each is one
operation of its chapter under the condition that the part of the module it needs is powered. -/

namespace Sys2Proof.Machine

/-- COLL_ARM (R288). -/
def execCollArm (id : CollId) (s : State) : Host.Outcome State Fault Refusal := act (work (Machine.collArm id)) s
/-- COLL_DISARM (R288). -/
def execCollDisarm (id : CollId) (s : State) : Host.Outcome State Fault Refusal :=
  act (work (Machine.collDisarm id)) s
/-- COLLECTIVE_START (R289). -/
def execCollectiveStart (id : CollId) (s : State) : Host.Outcome State Fault Refusal := act (work (collStart id)) s
/-- CHUNK_SEND (R296). -/
def execChunkSend (id : CollId) (dst : Nat) (s : State) : Host.Outcome State Fault Refusal :=
  act (work (Machine.chunkSend id dst)) s
/-- DATA (R298). -/
def execData (p : Packet) (s : State) : Host.Outcome State Fault Refusal := act (work (message 0x20 onData p)) s
/-- REDUCE_READY (R298). -/
def execReduceReady (id : CollId) (core : CoreId) (s : State) : Host.Outcome State Fault Refusal :=
  act (work (Machine.reduceReady id core)) s
/-- MDATA (R299). -/
def execMdata (p : Packet) (s : State) : Host.Outcome State Fault Refusal := act (work (message 0x21 onMdata p)) s
/-- RPART (R299). -/
def execRpart (p : Packet) (s : State) : Host.Outcome State Fault Refusal := act (work (message 0x22 onRpart p)) s
/-- COLL_REPLAY (R301). -/
def execCollReplay (p : Packet) (s : State) : Host.Outcome State Fault Refusal :=
  act (work (message 0x23 onReplay p)) s
/-- RACK (R296). -/
def execRack (p : Packet) (s : State) : Host.Outcome State Fault Refusal := act (work (message 0x24 onRack p)) s
/-- REPAIR (R302). -/
def execRepair (p : Packet) (s : State) : Host.Outcome State Fault Refusal := act (work (message 0x25 onRepair p)) s
/-- DETACH (R301). -/
def execDetach (p : Packet) (s : State) : Host.Outcome State Fault Refusal := act (work (message 0x26 onDetach p)) s
/-- DETACH_TIMEOUT (R300). -/
def execDetachTimeout (id : CollId) (s : State) : Host.Outcome State Fault Refusal :=
  act (work (Machine.detachTimeout id)) s
/-- VOTE_SEND (R304). -/
def execVoteSend (id : CollId) (s : State) : Host.Outcome State Fault Refusal := act (work (Machine.voteSend id)) s
/-- VOTE (R304). -/
def execVote (p : Packet) (s : State) : Host.Outcome State Fault Refusal := act (work (message 0x27 onVote p)) s
/-- ABORT_REQ (R305). -/
def execAbortReq (p : Packet) (s : State) : Host.Outcome State Fault Refusal :=
  act (work (message 0x28 onAbortReq p)) s
/-- COMMIT (R304). -/
def execCommit (p : Packet) (s : State) : Host.Outcome State Fault Refusal := act (work (message 0x29 onCommit p)) s
/-- ABORT (R305). -/
def execAbort (p : Packet) (s : State) : Host.Outcome State Fault Refusal := act (work (message 0x2A onAbort p)) s
/-- RUN_TIMEOUT (R303). -/
def execRunTimeout (id : CollId) (s : State) : Host.Outcome State Fault Refusal :=
  act (work (Machine.runTimeout id)) s
/-- RUN_FAIL (R306). -/
def execRunFail (id : CollId) (s : State) : Host.Outcome State Fault Refusal := act (work (Machine.runFail id)) s

end Sys2Proof.Machine
end

