-- ==== Sys2Proof/Machine/CmdCore.lean ====
section
/-! DEFINITION. Commands of the compute cores, the sequencer, leases and the table flips (R52, R65, R73 to R133). Each is one
operation of its chapter under the condition that the part of the module it needs is powered. -/

namespace Sys2Proof.Machine

/-- TOD_ISSUE (R73). -/
def execTodIssue (core : CoreId) (s : State) : Host.Outcome State Fault Refusal :=
  act (coreCmd core (Machine.todIssue core)) s
/-- TOD_HOLD_RELEASE (R74). -/
def execTodHoldRelease (core : CoreId) (s : State) : Host.Outcome State Fault Refusal :=
  act (coreCmd core (holdRelease core)) s
/-- META_FAULT (R65). -/
def execMetaFault (core : CoreId) (s : State) : Host.Outcome State Fault Refusal :=
  act (coreCmd core (Machine.metaFault core)) s
/-- TOD_POISON (R77). -/
def execTodPoison (core : CoreId) (s : State) : Host.Outcome State Fault Refusal :=
  act (coreCmd core (Machine.todPoison core)) s
/-- OUTPUT_TILE_DRAIN (R80). -/
def execOutputTileDrain (core : CoreId) (s : State) : Host.Outcome State Fault Refusal :=
  act (coreCmd core (tileDrain core)) s
/-- COMPLETION_RECORD (R91). -/
def execCompletionRecord (core : CoreId) (s : State) : Host.Outcome State Fault Refusal :=
  act (coreCmd core (Machine.completionRecord core)) s
/-- LIST_START (R98). -/
def execListStart (core : CoreId) (s : State) : Host.Outcome State Fault Refusal :=
  act (gated .core (ra (pgCore core) 0x10C) 1 (coreCmd core (Machine.listStart core 1))) s
/-- LIST_STOP (R98). -/
def execListStop (core : CoreId) (s : State) : Host.Outcome State Fault Refusal :=
  act (gated .core (ra (pgCore core) 0x10C) 2 (coreCmd core (Machine.listStop core))) s
/-- AT_BEAT_LAUNCH (R98). -/
def execAtBeatLaunch (core : CoreId) (s : State) : Host.Outcome State Fault Refusal :=
  act (coreCmd core (Machine.atBeatLaunch core)) s
/-- LIST_DONE (R98). -/
def execListDone (core : CoreId) (s : State) : Host.Outcome State Fault Refusal :=
  act (coreCmd core (Machine.listDone core)) s
/-- LOOP (R101). -/
def execLoop (core : CoreId) (s : State) : Host.Outcome State Fault Refusal := act (coreCmd core (loopEntry core)) s
/-- WAIT (R100). -/
def execWait (core : CoreId) (s : State) : Host.Outcome State Fault Refusal := act (coreCmd core (waitEntry core)) s
/-- WAIT_COMPLETE (R100). -/
def execWaitComplete (core : CoreId) (s : State) : Host.Outcome State Fault Refusal :=
  act (coreCmd core (Machine.waitComplete core)) s
/-- WAIT_TIMEOUT (R102). -/
def execWaitTimeout (core : CoreId) (s : State) : Host.Outcome State Fault Refusal :=
  act (coreCmd core (Machine.waitTimeout core)) s
/-- SIGNAL (R101). -/
def execSignal (core : CoreId) (s : State) : Host.Outcome State Fault Refusal :=
  act (coreCmd core (signalEntry core)) s
/-- FETCH_INC (R108). -/
def execFetchInc (core : CoreId) (s : State) : Host.Outcome State Fault Refusal :=
  act (coreCmd core (Machine.fetchInc core)) s
/-- FETCH_INC_GRANT (R108). -/
def execFetchIncGrant (core : CoreId) (s : State) : Host.Outcome State Fault Refusal :=
  act (coreCmd core (fetchGrant core)) s
/-- BRANCH_FLAG (R101). -/
def execBranchFlag (core : CoreId) (s : State) : Host.Outcome State Fault Refusal :=
  act (coreCmd core (branchEntry core)) s
/-- BEAT_WAIT (R101). -/
def execBeatWait (core : CoreId) (s : State) : Host.Outcome State Fault Refusal :=
  act (coreCmd core (Machine.beatWait core)) s
/-- BEAT_WAIT_RELEASE (R101). -/
def execBeatWaitRelease (core : CoreId) (s : State) : Host.Outcome State Fault Refusal :=
  act (coreCmd core (beatRelease core)) s
/-- WC_DISARM (R104). -/
def execWcDisarm (cl : ClusterId) (idx : CounterId) (s : State) : Host.Outcome State Fault Refusal :=
  act (gated .clus (ra (pgClus cl) 0x114) (idx + 2 ^ 8) (work (disarm cl idx))) s
/-- LEASE_RETIRE (R110). -/
def execLeaseRetire (core : CoreId) (s : State) : Host.Outcome State Fault Refusal :=
  act (coreCmd core (Machine.leaseRetire core)) s
/-- LEASE_EXPIRE (R109). -/
def execLeaseExpire (core : CoreId) (s : State) : Host.Outcome State Fault Refusal :=
  act (coreCmd core (Machine.leaseExpire core)) s
/-- STAGING_FILL (R113). -/
def execStagingFill (core : CoreId) (s : State) : Host.Outcome State Fault Refusal :=
  act (coreCmd core (Machine.stagingFill core)) s
/-- LEASE_WRITEBACK (R113). -/
def execLeaseWriteback (core : CoreId) (s : State) : Host.Outcome State Fault Refusal :=
  act (coreCmd core (Machine.leaseWriteback core)) s
/-- CAROUSEL_UNIT_LAND (R117). -/
def execCarouselUnitLand (core : CoreId) (s : State) : Host.Outcome State Fault Refusal :=
  act (coreCmd core (carLand core)) s
/-- SCALE_PLAN_ROLL (R52). -/
def execScalePlanRoll (addr : Nat) (s : State) : Host.Outcome State Fault Refusal :=
  act (work (Machine.scalePlanRoll addr)) s
/-- SFU_LOAD (R133). -/
def execSfuLoad (cl : ClusterId) (s : State) : Host.Outcome State Fault Refusal :=
  act (gated .clus (ra (pgClus cl) 0x608) 1 (run (Machine.sfuLoad cl 1))) s
/-- SFU_LOAD_COMPLETE (R131). -/
def execSfuLoadComplete (cl : ClusterId) (s : State) : Host.Outcome State Fault Refusal :=
  act (work (sfuLoadDone cl)) s
/-- SFU_FLIP_ARM (R132). -/
def execSfuFlipArm (cl : ClusterId) (hi : W32) (s : State) : Host.Outcome State Fault Refusal :=
  act (live (Machine.sfuFlipArm cl hi.toNat)) s
/-- SFU_FLIP (R133). -/
def execSfuFlip (s : State) : Host.Outcome State Fault Refusal := act (run sfuFlipAll) s
/-- SFU_DISARM (R132). -/
def execSfuDisarm (cl : ClusterId) (s : State) : Host.Outcome State Fault Refusal :=
  act (gated .clus (ra (pgClus cl) 0x628) 1 (Machine.sfuDisarm cl)) s

end Sys2Proof.Machine
end

