-- ==== Sys2Proof/Machine/CmdFabric.lean ====
section
/-! DEFINITION. Commands of the flit links, the peer ports and the routing tables (R192 to R227). Each is one
operation of its chapter under the condition that the part of the module it needs is powered. -/

namespace Sys2Proof.Machine

/-- FLIT_SEND (R206). -/
def execFlitSend (link : LinkId) (s : State) : Host.Outcome State Fault Refusal :=
  act (awake (Machine.flitSend link)) s
/-- FLIT_RECEIVE (R197). -/
def execFlitReceive (link : LinkId) (bytes : List Byte) (badCodeword : Bool) (fec : FecCount) (s : State) :
    Host.Outcome State Fault Refusal :=
  act (awake (Machine.flitReceive link bytes badCodeword fec.uncorrectable fec.corrected)) s
/-- RETRY_TIMEOUT (R198). -/
def execRetryTimeout (link : LinkId) (s : State) : Host.Outcome State Fault Refusal :=
  act (awake (Machine.retryTimeout link)) s
/-- PORT_TRAIN (R220). -/
def execPortTrain (port : PortId) (s : State) : Host.Outcome State Fault Refusal :=
  act (live (Machine.portTrain port)) s
/-- PORT_ADMIT (R222). -/
def execPortAdmit (port : PortId) (s : State) : Host.Outcome State Fault Refusal :=
  act (live (Machine.portAdmit port)) s
/-- PORT_REFUSE (R222). -/
def execPortRefuse (port : PortId) (s : State) : Host.Outcome State Fault Refusal :=
  act (live (Machine.portRefuse port)) s
/-- MARK_DOWN (R227). -/
def execMarkDown (port : PortId) (s : State) : Host.Outcome State Fault Refusal :=
  act (live (Machine.markDown port)) s
/-- TRAIN_TRY_END (R220). -/
def execTrainTryEnd (port : PortId) (lanes : Byte) (identInTime : Bool) (s : State) : Host.Outcome State Fault Refusal :=
  act (live (Machine.trainTryEnd port lanes.toNat identInTime)) s
/-- LANE_LOCK_LOSS (R220). -/
def execLaneLockLoss (port : PortId) (lanes : Byte) (s : State) : Host.Outcome State Fault Refusal :=
  act (live (Machine.laneLockLoss port lanes.toNat)) s
/-- LIGHT_RETURN (R224). -/
def execLightReturn (port : PortId) (s : State) : Host.Outcome State Fault Refusal :=
  act (live (Machine.lightReturn port)) s
/-- IDENT_SEND (R221). -/
def execIdentSend (port : PortId) (s : State) : Host.Outcome State Fault Refusal :=
  act (live (Machine.identSend port)) s
/-- IDENT (R222). -/
def execIdent (port : PortId) (body : List Byte) (s : State) : Host.Outcome State Fault Refusal :=
  act (live (identMsg port body)) s
/-- ADMIT (R223). -/
def execAdmitMsg (port : PortId) (s : State) : Host.Outcome State Fault Refusal :=
  act (live (Machine.admitMsg port)) s
/-- LEAVE (R224). -/
def execLeave (port : PortId) (s : State) : Host.Outcome State Fault Refusal := act (live (leaveMsg port)) s
/-- RT_FLIP_ARM (R218). -/
def execRtFlipArm (hi : W32) (s : State) : Host.Outcome State Fault Refusal :=
  act (live (Machine.rtFlipArm hi.toNat)) s
/-- RT_FLIP (R218). -/
def execRtFlip (s : State) : Host.Outcome State Fault Refusal := act (run Machine.rtFlip) s
/-- RT_COPY (R218). -/
def execRtCopy (s : State) : Host.Outcome State Fault Refusal := act (live (Machine.rtCopy 1)) s
/-- RT_DISARM (R226). -/
def execRtDisarm (s : State) : Host.Outcome State Fault Refusal := act (live Machine.rtDisarm) s
/-- REFUSE (R221). -/
def execRefuseMsg (port : PortId) (code : Nat) (s : State) : Host.Outcome State Fault Refusal :=
  act (live (Machine.refuseMsg port code)) s

end Sys2Proof.Machine
end

