-- ==== Sys2Proof/Machine/CmdLink.lean ====
section
/-! DEFINITION. Commands of the control link, its queues and the signed commands (R352 to R373, R411 to R414). Each is one
operation of its chapter under the condition that the part of the module it needs is powered. -/

namespace Sys2Proof.Machine

/-- HELLO (R356). -/
def execHello (f : Frame) (nm ek : List Byte) (s : State) : Host.Outcome State Fault Refusal :=
  act (Machine.hello f nm ek) s
/-- KEYX (R356). -/
def execKeyx (f : Frame) (sigOk : Bool) (ss : List Byte) (s : State) : Host.Outcome State Fault Refusal :=
  act (Machine.keyx f sigOk ss) s
/-- RESUME_FRAME (R359). -/
def execResumeFrame (f : Frame) (s : State) : Host.Outcome State Fault Refusal := act (Machine.resumeFrame f) s
/-- REKEY (R358). -/
def execRekey (f : Frame) (s : State) : Host.Outcome State Fault Refusal := act (Machine.rekey f) s
/-- SESSION_END (R356). -/
def execSessionEnd (f : Frame) (s : State) : Host.Outcome State Fault Refusal := act (Machine.sessionEnd f) s
/-- REG_READ (R361). -/
def execRegRead (f : Frame) (s : State) : Host.Outcome State Fault Refusal := act (Machine.regRead f) s
/-- REG_WRITE_FRAME (R361). -/
def execRegWriteFrame (f : Frame) (s : State) : Host.Outcome State Fault Refusal := act (Machine.regWriteFrame f) s
/-- DMA_RD (R362). -/
def execDmaRd (f : Frame) (s : State) : Host.Outcome State Fault Refusal := act (Machine.dmaRd f) s
/-- DMA_WR (R362). -/
def execDmaWr (f : Frame) (s : State) : Host.Outcome State Fault Refusal := act (Machine.dmaWr f) s
/-- SQ_WRITE (R364). -/
def execSqWrite (f : Frame) (s : State) : Host.Outcome State Fault Refusal := act (Machine.sqWrite f) s
/-- CQ_ACK (R367). -/
def execCqAck (f : Frame) (s : State) : Host.Outcome State Fault Refusal := act (Machine.cqAck f) s
/-- EVENT_ACK (R369). -/
def execEventAck (f : Frame) (s : State) : Host.Outcome State Fault Refusal := act (Machine.eventAck f) s
/-- ATTEST_REQ (R371). -/
def execAttestReq (f : Frame) (s : State) : Host.Outcome State Fault Refusal := act (Machine.attestReq f) s
/-- ATTEST_REPORT_READY (R408). -/
def execAttestReportReady (s : State) : Host.Outcome State Fault Refusal := act (awake attestReady) s
/-- RESP (R363). -/
def execResp (f : Frame) (s : State) : Host.Outcome State Fault Refusal := act (memResp f) s
/-- MEM_TIMEOUT (R363). -/
def execMemTimeout (reqTag : Nat) (s : State) : Host.Outcome State Fault Refusal :=
  act (awake (Machine.memTimeout reqTag)) s
/-- RESUME_TIMEOUT (R359). -/
def execResumeTimeout (s : State) : Host.Outcome State Fault Refusal := act (awake Machine.resumeTimeout) s
/-- MBOIP_TRAIN_TRY_END (R352). -/
def execMboipTrainTryEnd (lanes : BitVec 2) (s : State) : Host.Outcome State Fault Refusal :=
  act (awake (mboipTryEnd lanes.toNat)) s
/-- MBOIP_RETRY_TIMER (R352). -/
def execMboipRetryTimer (s : State) : Host.Outcome State Fault Refusal := act (awake mboipRetry) s
/-- RECOVERY_CHUNK (R402). -/
def execRecoveryChunk (f : Frame) (s : State) : Host.Outcome State Fault Refusal := act (Machine.recoveryChunk f) s
/-- RECOVERY_COMMIT (R402). -/
def execRecoveryCommit (f : Frame) (sigOk programOk : Bool) (s : State) : Host.Outcome State Fault Refusal :=
  act (Machine.recoveryCommit f sigOk programOk) s
/-- Q_ENABLE (R364). -/
def execQEnable (q : QueueId) (on : Bool) (s : State) : Host.Outcome State Fault Refusal :=
  act (live (Machine.qEnable q on (b2n on))) s
/-- Q_RESET (R364). -/
def execQReset (q : QueueId) (s : State) : Host.Outcome State Fault Refusal := act (live (Machine.qReset q)) s
/-- NOP (R365). -/
def execNop (q : QueueId) (s : State) : Host.Outcome State Fault Refusal := act (run (nopEntry q)) s
/-- PULL (R365). -/
def execPull (q : QueueId) (s : State) : Host.Outcome State Fault Refusal := act (run (pullEntry q)) s
/-- PUSH (R365). -/
def execPush (q : QueueId) (s : State) : Host.Outcome State Fault Refusal := act (run (pushEntry q)) s
/-- QUEUE_SIGNAL (R365). -/
def execQueueSignal (q : QueueId) (s : State) : Host.Outcome State Fault Refusal :=
  act (run (Machine.queueSignal q)) s
/-- WRITE_WORDS (R365). -/
def execWriteWords (q : QueueId) (s : State) : Host.Outcome State Fault Refusal := act (run (wordsEntry q)) s
/-- QUEUE_SLOT_CMD (R365). -/
def execQueueSlotCmd (q : QueueId) (s : State) : Host.Outcome State Fault Refusal := act (run (slotEntry q)) s
/-- REG_BATCH (R365). -/
def execRegBatch (q : QueueId) (s : State) : Host.Outcome State Fault Refusal := act (run (batchEntry q)) s
/-- REFETCH_FILL (R339). -/
def execRefetchFill (q : QueueId) (s : State) : Host.Outcome State Fault Refusal := act (run (fillEntry q)) s
/-- LC_TRANSITION (R414). -/
def execLcTransition (q : QueueId) (sigVendor sigCn : Bool) (s : State) : Host.Outcome State Fault Refusal :=
  act (run (Machine.lcTransition q sigVendor sigCn)) s
/-- MASTER_OVERRIDE (R244). -/
def execMasterOverride (q : QueueId) (sigCn : Bool) (s : State) : Host.Outcome State Fault Refusal :=
  act (run (Machine.masterOverride q sigCn)) s
/-- SVN_COMMIT (R398). -/
def execSvnCommit (q : QueueId) (sigCn : Bool) (s : State) : Host.Outcome State Fault Refusal :=
  act (run (Machine.svnCommit q sigCn)) s

end Sys2Proof.Machine
end

