-- ==== Sys2Proof/Machine/CmdPower.lean ====
section
/-! DEFINITION. Commands of the power unit, boot, flash, trust and telemetry (R375 to R445). Each is one
operation of its chapter under the condition that the part of the module it needs is powered. -/

namespace Sys2Proof.Machine

/-- FE_RESET (R428). -/
def execFeReset (s : State) : Host.Outcome State Fault Refusal := act (live Machine.feReset) s
/-- ERROR_LOG_COMMIT (R426). -/
def execErrorLogCommit (s : State) : Host.Outcome State Fault Refusal := act (live Machine.errorLogCommit) s
/-- LIFECYCLE_RESET (R414). -/
def execLifecycleReset (s : State) : Host.Outcome State Fault Refusal := act (live Machine.lifecycleReset) s
/-- POWER_ON (R386). -/
def execPowerOn (vin : Nat) (s : State) : Host.Outcome State Fault Refusal := act (Machine.powerOn vin) s
/-- CORE_SELF_TEST (R438). -/
def execCoreSelfTest (failed : List CoreId) (s : State) : Host.Outcome State Fault Refusal :=
  act (Machine.coreSelfTest (failed.map (·.val))) s
/-- GDDR7_TRAINING_DONE (R386). -/
def execGddr7TrainingDone (ok : Bool) (s : State) : Host.Outcome State Fault Refusal := act (gddrTrained ok) s
/-- READY (R386). -/
def execReady (railOk opticsOk flashOk : Bool) (s : State) : Host.Outcome State Fault Refusal :=
  act (Machine.ready railOk opticsOk flashOk) s
/-- VIN_BAND_ENTRY (R375). -/
def execVinBandEntry (vin : Nat) (s : State) : Host.Outcome State Fault Refusal := act (live (vinBand vin)) s
/-- POWER_FAIL (R380). -/
def execPowerFail (vin : Nat) (s : State) : Host.Outcome State Fault Refusal := act (awake (Machine.powerFail vin)) s
/-- OVERVOLTAGE (R375). -/
def execOvervoltage (vin : Nat) (s : State) : Host.Outcome State Fault Refusal :=
  act (awake (Machine.overvoltage vin)) s
/-- SENSE_N_OPEN (R445). -/
def execSenseNOpen (s : State) : Host.Outcome State Fault Refusal := act (awake senseOpen) s
/-- FLASH_DEFER_RETRY (R381). -/
def execFlashDeferRetry (vhold : Nat) (s : State) : Host.Outcome State Fault Refusal := act (deferRetry vhold) s
/-- FLASH_DEFER_EXPIRE (R381). -/
def execFlashDeferExpire (s : State) : Host.Outcome State Fault Refusal := act (live flashExpire) s
/-- VIN_RETURN (R383). -/
def execVinReturn (vin : Nat) (s : State) : Host.Outcome State Fault Refusal := act (awake (Machine.vinReturn vin)) s
/-- HOLDUP_EXHAUSTED (R383). -/
def execHoldupExhausted (vhold : Nat) (s : State) : Host.Outcome State Fault Refusal :=
  act (awake (holdupOut vhold)) s
/-- EMERGENCY_TRIGGER (R379). -/
def execEmergencyTrigger (tj : Int) (p20us p10ms : Nat) (s : State) : Host.Outcome State Fault Refusal :=
  act (live (Machine.emergencyTrigger tj p20us p10ms)) s
/-- OC_AVG_STEP (R379). -/
def execOcAvgStep (p10ms : Nat) (s : State) : Host.Outcome State Fault Refusal := act (live (ocStep p10ms)) s
/-- TRIGGER_CLEAR (R379). -/
def execTriggerClear (t : Trigger) (tj : Int) (p10ms beats : Nat) (s : State) : Host.Outcome State Fault Refusal :=
  act (live (Machine.triggerClear t tj p10ms beats)) s
/-- EMERGENCY_RETURN (R379). -/
def execEmergencyReturn (s : State) : Host.Outcome State Fault Refusal := act (live Machine.emergencyReturn) s
/-- TRIP (R379). -/
def execTrip (tj : Int) (s : State) : Host.Outcome State Fault Refusal := act (live (Machine.trip tj)) s
/-- PLAN_LEVEL_WRITE (R378). -/
def execPlanLevelWrite (value : W32) (s : State) : Host.Outcome State Fault Refusal :=
  act (live (Machine.planLevelWrite value.toNat)) s
/-- RST_CMD (R384). -/
def execRstCmd (value : W32) (s : State) : Host.Outcome State Fault Refusal :=
  act (live (Machine.rstCmd value.toNat)) s
/-- DD_ENTER (R387). -/
def execDdEnter (s : State) : Host.Outcome State Fault Refusal := act (live Machine.ddEnter) s
/-- DRYDOWN_ENTRY_COMPLETE (R388). -/
def execDrydownEntryComplete (s : State) : Host.Outcome State Fault Refusal := act (live ddEntered) s
/-- DD_EXIT (R391). -/
def execDdExit (s : State) : Host.Outcome State Fault Refusal := act (live (Machine.ddExit 2)) s
/-- DRYDOWN_WAKE (R391). -/
def execDrydownWake (s : State) : Host.Outcome State Fault Refusal := act (live ddWake) s
/-- DRYDOWN_EXIT_COMPLETE (R391). -/
def execDrydownExitComplete (portsBack : List PortId) (s : State) : Host.Outcome State Fault Refusal :=
  act (live (ddExited (portsBack.map (·.val)))) s
/-- IMG_UPDATE (R401). -/
def execImgUpdate (sigOk : Bool) (s : State) : Host.Outcome State Fault Refusal :=
  act (live (Machine.imgUpdate sigOk 1)) s
/-- IMAGE_UPDATE_COMPLETE (R401). -/
def execImageUpdateComplete (ok : Bool) (s : State) : Host.Outcome State Fault Refusal := act (live (imageDone ok)) s
/-- LOADER_REQ (R402). -/
def execLoaderReq (value : W32) (s : State) : Host.Outcome State Fault Refusal :=
  act (live (Machine.loaderReq value.toNat)) s
/-- CTR_INC (R399). -/
def execCtrInc (s : State) : Host.Outcome State Fault Refusal := act (live (Machine.ctrInc 1)) s
/-- EXT_CMD (R397). -/
def execExtCmd (s : State) : Host.Outcome State Fault Refusal := act (live Machine.extCmd) s
/-- LOG_COPY (R440). -/
def execLogCopy (s : State) : Host.Outcome State Fault Refusal := act (run Machine.logCopy) s
/-- MONITOR_SAMPLE (R433). -/
def execMonitorSample (idx : Fin 282) (value : W32) (s : State) : Host.Outcome State Fault Refusal :=
  act (live (Machine.monitorSample idx value)) s
/-- VOLTAGE_STEP (R434). -/
def execVoltageStep (s : State) : Host.Outcome State Fault Refusal := act (live Machine.voltageStep) s
/-- LASER_STEP (R434). -/
def execLaserStep (engine : Fin 7) (s : State) : Host.Outcome State Fault Refusal :=
  act (live (Machine.laserStep engine)) s
/-- WINDOW_ARM (R435). -/
def execWindowArm (hi : W32) (s : State) : Host.Outcome State Fault Refusal :=
  act (run (Machine.windowArm hi.toNat)) s
/-- WINDOW_START (R435). -/
def execWindowStart (s : State) : Host.Outcome State Fault Refusal := act (run Machine.windowStart) s
/-- WIN_GO (R440). -/
def execWinGo (s : State) : Host.Outcome State Fault Refusal := act (run (Machine.winGo 1)) s
/-- WIN_CANCEL (R440). -/
def execWinCancel (s : State) : Host.Outcome State Fault Refusal := act (run (Machine.winCancel 2)) s
/-- WINDOW_DONE (R435). -/
def execWindowDone (ok : Bool) (s : State) : Host.Outcome State Fault Refusal := act (run (Machine.windowDone ok)) s
/-- AGEING_CHECKPOINT (R437). -/
def execAgeingCheckpoint (s : State) : Host.Outcome State Fault Refusal := act (live Machine.ageingCheckpoint) s
/-- ROMON_WATCHDOG (R384). -/
def execRomonWatchdog (s : State) : Host.Outcome State Fault Refusal := act (live watchdog) s
/-- TRIP_COOLED_RESET (R428). -/
def execTripCooledReset (tj : Int) (s : State) : Host.Outcome State Fault Refusal := act (live (tripCooled tj)) s

end Sys2Proof.Machine
end

