-- ==== Sys2Proof/Machine/CmdRegs.lean ====
section
/-! DEFINITION. Commands of the register window (R5 to R9, R16, R347 to R349). Each is one
operation of its chapter under the condition that the part of the module it needs is powered. -/

namespace Sys2Proof.Machine

/-- REGISTER_WRITE (R6). -/
def execRegisterWrite (addr size : Nat) (cn mp : Option W32) (s : State) : Host.Outcome State Fault Refusal :=
  act (live (Machine.registerWrite addr size cn mp)) s
/-- PAIR_LOW_READ (R8). -/
def execPairLowRead (addr : Nat) (s : State) : Host.Outcome State Fault Refusal :=
  act (live (Machine.pairLowRead addr)) s
/-- PAIR_HIGH_WRITE (R8). -/
def execPairHighWrite (addr : Nat) (value : W32) (s : State) : Host.Outcome State Fault Refusal :=
  act (live (Machine.pairHighWrite addr value.toNat)) s
/-- WORK_MAP_APPLY (R16). -/
def execWorkMapApply (s : State) : Host.Outcome State Fault Refusal := act (run Machine.workMapApply) s
/-- SOFT_RESET (R348). -/
def execSoftReset (page : PageId) (s : State) : Host.Outcome State Fault Refusal :=
  act (live (Machine.softReset page 2)) s
/-- WIPE_REQ (R348). -/
def execWipeReq (page : PageId) (s : State) : Host.Outcome State Fault Refusal :=
  act (live (Machine.wipeReq page 8)) s
/-- WIPE_DONE (R348). -/
def execWipeDone (page : PageId) (s : State) : Host.Outcome State Fault Refusal :=
  act (live (Machine.wipeDone page)) s
/-- BLOCK_ENABLE (R348). -/
def execBlockEnable (page : PageId) (on : Bool) (s : State) : Host.Outcome State Fault Refusal :=
  act (live (Machine.blockEnable page on (b2n on))) s
/-- BLK_LOCK (R347). -/
def execBlkLock (page : PageId) (s : State) : Host.Outcome State Fault Refusal :=
  act (live (Machine.blkLock page 1)) s
/-- ERR_INJ (R349). -/
def execErrInj (page : PageId) (value : W32) (s : State) : Host.Outcome State Fault Refusal :=
  act (live (Machine.errInj page value.toNat)) s

end Sys2Proof.Machine
end

