-- ==== Sys2Proof/Machine/CmdRings.lean ====
section
/-! DEFINITION. Commands of the ring circulation unit (R252 to R286). Each is one
operation of its chapter under the condition that the part of the module it needs is powered. -/

namespace Sys2Proof.Machine

/-- FORM (R255). -/
def execForm (ctx : RingId) (s : State) : Host.Outcome State Fault Refusal := act (work (formRing ctx)) s
/-- JOIN (R255). -/
def execJoin (p : Packet) (s : State) : Host.Outcome State Fault Refusal := act (work (message 0x10 onJoin p)) s
/-- JOIN_RESEND (R255). -/
def execJoinResend (ctx : RingId) (s : State) : Host.Outcome State Fault Refusal :=
  act (work (Machine.joinResend ctx)) s
/-- JOIN_HOLD_EXPIRE (R255). -/
def execJoinHoldExpire (ringId : Nat) (s : State) : Host.Outcome State Fault Refusal :=
  act (work (joinExpire ringId)) s
/-- FORM_MESSAGE (R255). -/
def execFormMessage (p : Packet) (s : State) : Host.Outcome State Fault Refusal :=
  act (work (message 0x11 onForm p)) s
/-- GO (R255). -/
def execGo (p : Packet) (s : State) : Host.Outcome State Fault Refusal := act (work (message 0x12 onGo p)) s
/-- FORM_TIMEOUT (R255). -/
def execFormTimeout (ctx : RingId) (s : State) : Host.Outcome State Fault Refusal := act (work (formLate ctx)) s
/-- RING_DISBAND (R278). -/
def execRingDisband (ctx : RingId) (s : State) : Host.Outcome State Fault Refusal :=
  act (work (Machine.ringDisband ctx)) s
/-- DISBAND_MESSAGE (R278). -/
def execDisbandMessage (p : Packet) (s : State) : Host.Outcome State Fault Refusal :=
  act (work (message 0x13 onDisband p)) s
/-- DISBAND_COMPLETE (R278). -/
def execDisbandComplete (ctx : RingId) (s : State) : Host.Outcome State Fault Refusal :=
  act (work (disbandDone ctx)) s
/-- PLAN (R269). -/
def execPlan (ctx : RingId) (s : State) : Host.Outcome State Fault Refusal := act (work (planCmd ctx)) s
/-- PLAN_MESSAGE (R269). -/
def execPlanMessage (p : Packet) (s : State) : Host.Outcome State Fault Refusal :=
  act (work (message 0x1B onPlan p)) s
/-- RESTART (R276). -/
def execRestart (ctx : RingId) (s : State) : Host.Outcome State Fault Refusal := act (work (restartRing ctx)) s
/-- STEP_START (R260). -/
def execStepStart (group : GroupId) (s : State) : Host.Outcome State Fault Refusal :=
  act (work (Machine.stepStart group)) s
/-- STEP_DONE (R258). -/
def execStepDone (ctx : RingId) (s : State) : Host.Outcome State Fault Refusal := act (work (Machine.stepDone ctx)) s
/-- DONE_MESSAGE (R259). -/
def execDoneMessage (p : Packet) (s : State) : Host.Outcome State Fault Refusal :=
  act (work (message 0x19 onDone p)) s
/-- STALL_TIMEOUT (R274). -/
def execStallTimeout (group : GroupId) (s : State) : Host.Outcome State Fault Refusal :=
  act (work (Machine.stallTimeout group)) s
/-- BLOCK_HDR (R263). -/
def execBlockHdr (p : Packet) (s : State) : Host.Outcome State Fault Refusal :=
  act (work (message 0x14 onBlockHdr p)) s
/-- BLOCK_DATA (R263). -/
def execBlockData (p : Packet) (s : State) : Host.Outcome State Fault Refusal :=
  act (work (message 0x15 onBlockData p)) s
/-- QUERY_SEND (R265). -/
def execQuerySend (ctx : RingId) (s : State) : Host.Outcome State Fault Refusal :=
  act (work (Machine.querySend ctx)) s
/-- QUERY (R265). -/
def execQuery (p : Packet) (s : State) : Host.Outcome State Fault Refusal := act (work (message 0x16 onQuery p)) s
/-- PARTIAL_HANDOFF (R266). -/
def execPartialHandoff (ctx : RingId) (s : State) : Host.Outcome State Fault Refusal :=
  act (work (Machine.partialHandoff ctx)) s
/-- PARTIAL (R266). -/
def execPartialMsg (p : Packet) (s : State) : Host.Outcome State Fault Refusal :=
  act (work (message 0x17 onPartial p)) s
/-- RESULT (R267). -/
def execResult (p : Packet) (s : State) : Host.Outcome State Fault Refusal := act (work (message 0x18 onResult p)) s
/-- EXTEND (R272). -/
def execExtend (p : Packet) (s : State) : Host.Outcome State Fault Refusal := act (work (message 0x1A onExtend p)) s

end Sys2Proof.Machine
end

