-- ==== Sys2Proof/Machine/CmdSlots.lean ====
section
/-! DEFINITION. Commands of the sequence slots and the page walk units (R149 to R190). Each is one
operation of its chapter under the condition that the part of the module it needs is powered. -/

namespace Sys2Proof.Machine

/-- BIND (R164). -/
def execBind (slot : SlotId) (desc : Nat) (s : State) : Host.Outcome State Fault Refusal :=
  act (run (slotCmd slot (1 + 2 ^ 16 * desc))) s
/-- BIND_COMPLETE (R150). -/
def execBindComplete (slot : SlotId) (s : State) : Host.Outcome State Fault Refusal :=
  act (run (fun c => slotSettle slot (bindDone slot c))) s
/-- BIND_TIMEOUT (R150). -/
def execBindTimeout (slot : SlotId) (s : State) : Host.Outcome State Fault Refusal :=
  act (run (fun c => slotSettle slot (bindLate slot c))) s
/-- PARK (R163). -/
def execPark (slot : SlotId) (s : State) : Host.Outcome State Fault Refusal := act (run (slotCmd slot 2)) s
/-- PARK_COMPLETE (R163). -/
def execParkComplete (slot : SlotId) (s : State) : Host.Outcome State Fault Refusal :=
  act (run (fun c => slotSettle slot (parkDone slot c))) s
/-- RELEASE (R164). -/
def execRelease (slot : SlotId) (s : State) : Host.Outcome State Fault Refusal := act (run (slotCmd slot 3)) s
/-- RELEASE_COMPLETE (R150). -/
def execReleaseComplete (slot : SlotId) (s : State) : Host.Outcome State Fault Refusal :=
  act (run (fun c => slotSettle slot (releaseDone slot c))) s
/-- RESUME (R151). -/
def execResume (slot : SlotId) (s : State) : Host.Outcome State Fault Refusal := act (run (slotCmd slot 4)) s
/-- CLEAR_FAULT (R151). -/
def execClearFault (slot : SlotId) (s : State) : Host.Outcome State Fault Refusal := act (run (slotCmd slot 5)) s
/-- APPEND_ROW (R153). -/
def execAppendRow (handle fmt n : Nat) (elems scales : List Byte) (s : State) : Host.Outcome State Fault Refusal :=
  act (run (Machine.appendRow handle fmt n elems scales)) s
/-- PAGE_SEAL (R156). -/
def execPageSeal (slot : SlotId) (layer : Nat) (s : State) : Host.Outcome State Fault Refusal :=
  act (run (sealPage slot layer)) s
/-- RESERVE_REFILL (R155). -/
def execReserveRefill (slot : SlotId) (layer : Nat) (s : State) : Host.Outcome State Fault Refusal :=
  act (run (refillReserve slot layer)) s
/-- RESERVE_SLACK_EXPIRE (R157). -/
def execReserveSlackExpire (slot : SlotId) (s : State) : Host.Outcome State Fault Refusal :=
  act (run (slackExpire slot)) s
/-- PUBLICATION_ARM (R159). -/
def execPublicationArm (slot : SlotId) (hi : W32) (s : State) : Host.Outcome State Fault Refusal :=
  act (run (pubArm slot hi.toNat)) s
/-- PUBLICATION_BUILD_DONE (R159). -/
def execPublicationBuildDone (slot : SlotId) (s : State) : Host.Outcome State Fault Refusal :=
  act (run (pubBuilt slot)) s
/-- PUBLICATION_SWAP (R160). -/
def execPublicationSwap (slot : SlotId) (s : State) : Host.Outcome State Fault Refusal := act (run (pubSwap slot)) s
/-- PUB_DISARM (R159). -/
def execPubDisarm (slot : SlotId) (s : State) : Host.Outcome State Fault Refusal :=
  act (run (Machine.pubDisarm slot 1)) s
/-- QUARANTINE_RELEASE (R162). -/
def execQuarantineRelease (idx : Nat) (s : State) : Host.Outcome State Fault Refusal := act (run (quarTurn idx)) s
/-- THR_FLIP_ARM (R190). -/
def execThrFlipArm (pwu : ClusterId) (hi : W32) (s : State) : Host.Outcome State Fault Refusal :=
  act (live (thrArm pwu hi.toNat)) s
/-- THR_FLIP (R189). -/
def execThrFlip (s : State) : Host.Outcome State Fault Refusal := act (run thrFlipAll) s
/-- THR_DISARM (R190). -/
def execThrDisarm (pwu : ClusterId) (s : State) : Host.Outcome State Fault Refusal :=
  act (gated .pwu (ra (pgPwu pwu) 0x114) 1 (thrCancel pwu)) s

end Sys2Proof.Machine
end

