-- ==== Sys2Proof/Machine/CmdTiers.lean ====
section
/-! DEFINITION. Commands of the memory tiers (R310 to R342). Each is one
operation of its chapter under the condition that the part of the module it needs is powered. -/

namespace Sys2Proof.Machine

/-- MEMORY_ACCESS (R312). -/
def execMemoryAccess (way : AccessWay) (addr len : Nat) (data : List Byte) (s : State) :
    Host.Outcome State Fault Refusal :=
  act (run (gmcRequest { what := .access way.write addr len data, due := way.due, cls := way.cls })) s
/-- REGION_SEAL (R314). -/
def execRegionSeal (region : Nat) (s : State) : Host.Outcome State Fault Refusal :=
  act (run (Machine.regionSeal region (region + 2 ^ 8))) s
/-- REGION_HOME (R314). -/
def execRegionHome (region : Nat) (s : State) : Host.Outcome State Fault Refusal :=
  act (run (regionStart region 2 (region + 2 ^ 9))) s
/-- REGION_COPY2 (R314). -/
def execRegionCopy2 (region : Nat) (s : State) : Host.Outcome State Fault Refusal :=
  act (run (regionStart region 3 (region + 2 ^ 8 * 3))) s
/-- FRAME_COPY_COMPLETE (R318). -/
def execFrameCopyComplete (idx : Nat) (s : State) : Host.Outcome State Fault Refusal :=
  act (run (Machine.frameCopyComplete idx)) s
/-- EVICTION (R321). -/
def execEviction (s : State) : Host.Outcome State Fault Refusal := act (run Machine.eviction) s
/-- PROMOTION (R323). -/
def execPromotion (slot : SlotId) (layer page : Nat) (s : State) : Host.Outcome State Fault Refusal :=
  act (run (Machine.promotion slot layer page)) s
/-- GMC_SCRUB (R310). -/
def execGmcScrub (gmc : GmcId) (addr : Nat) (found : LineRead) (s : State) : Host.Outcome State Fault Refusal :=
  act (run (Machine.gmcScrub gmc addr found)) s
/-- REFRESH_WINDOW (R311). -/
def execRefreshWindow (gmc : GmcId) (s : State) : Host.Outcome State Fault Refusal :=
  act (run (Machine.refreshWindow gmc)) s
/-- LOAN_OFFER_CMD (R326). -/
def execLoanOfferCmd (ctx : LoanId) (s : State) : Host.Outcome State Fault Refusal :=
  act (run (Machine.loanOfferCmd ctx)) s
/-- LOAN_RECLAIM_CMD (R328). -/
def execLoanReclaimCmd (ctx : LoanId) (s : State) : Host.Outcome State Fault Refusal :=
  act (run (Machine.loanReclaimCmd ctx)) s
/-- LOAN_RETURN_CMD (R328). -/
def execLoanReturnCmd (ctx : LoanId) (s : State) : Host.Outcome State Fault Refusal :=
  act (run (Machine.loanReturnCmd ctx)) s
/-- LOAN_OFFER (R326). -/
def execLoanOffer (p : Packet) (s : State) : Host.Outcome State Fault Refusal := act (run (tierMsg 0x30 onOffer p)) s
/-- LOAN_ACCEPT (R326). -/
def execLoanAccept (p : Packet) (s : State) : Host.Outcome State Fault Refusal :=
  act (run (tierMsg 0x31 onAccept p)) s
/-- LOAN_DECLINE (R326). -/
def execLoanDecline (p : Packet) (s : State) : Host.Outcome State Fault Refusal :=
  act (run (tierMsg 0x32 onDecline p)) s
/-- RECLAIM (R328). -/
def execReclaim (p : Packet) (s : State) : Host.Outcome State Fault Refusal := act (run (tierMsg 0x33 onReclaim p)) s
/-- VACATE_COMPLETE (R328). -/
def execVacateComplete (ctx : LoanId) (s : State) : Host.Outcome State Fault Refusal :=
  act (run (Machine.vacateComplete ctx)) s
/-- VACATED (R328). -/
def execVacated (p : Packet) (s : State) : Host.Outcome State Fault Refusal := act (run (tierMsg 0x34 onVacated p)) s
/-- LOAN_END (R328). -/
def execLoanEnd (p : Packet) (s : State) : Host.Outcome State Fault Refusal := act (run (tierMsg 0x35 onLoanEnd p)) s
/-- RECLAIM_DEADLINE (R328). -/
def execReclaimDeadline (ctx : LoanId) (s : State) : Host.Outcome State Fault Refusal :=
  act (run (Machine.reclaimDeadline ctx)) s
/-- RREAD (R327). -/
def execRread (p : Packet) (s : State) : Host.Outcome State Fault Refusal := act (run (tierMsg 0x01 (fun q => gmcRequest { what := .rread q, due := q.due, cls := q.cls }) p)) s
/-- RDATA (R327). -/
def execRdata (p : Packet) (s : State) : Host.Outcome State Fault Refusal := act (run (tierMsg 0x02 onRdata p)) s
/-- RWRITE (R327). -/
def execRwrite (p : Packet) (s : State) : Host.Outcome State Fault Refusal := act (run (tierMsg 0x03 onRwrite p)) s
/-- RSEAL (R327). -/
def execRseal (p : Packet) (s : State) : Host.Outcome State Fault Refusal :=
  act (run (tierMsg 0x04 (fun q => onRseal q true) p)) s
/-- RFREE (R325). -/
def execRfree (p : Packet) (s : State) : Host.Outcome State Fault Refusal :=
  act (run (tierMsg 0x05 (fun q => onRseal q false) p)) s
/-- GREAD (R339). -/
def execGread (p : Packet) (s : State) : Host.Outcome State Fault Refusal := act (run (tierMsg 0x06 (fun q => gmcRequest { what := .gread q, due := q.due, cls := q.cls }) p)) s
/-- RERR (R325). -/
def execRerr (p : Packet) (s : State) : Host.Outcome State Fault Refusal := act (run (tierMsg 0x07 onRerr p)) s
/-- LOAN_REQUEST_TIMEOUT (R327). -/
def execLoanRequestTimeout (reqTag : Nat) (s : State) : Host.Outcome State Fault Refusal :=
  act (run (fun c => settle (Machine.loanRequestTimeout reqTag c))) s
/-- PF_GO (R329). -/
def execPfGo (s : State) : Host.Outcome State Fault Refusal := act (run (Machine.pfGo 1)) s
/-- PF_STOP (R341). -/
def execPfStop (s : State) : Host.Outcome State Fault Refusal := act (run (Machine.pfStop 2)) s
/-- PREFETCH_ISSUE (R330). -/
def execPrefetchIssue (s : State) : Host.Outcome State Fault Refusal := act (run Machine.prefetchIssue) s
/-- PREFETCH_LATE (R331). -/
def execPrefetchLate (granule : Nat) (s : State) : Host.Outcome State Fault Refusal :=
  act (run (Machine.prefetchLate granule)) s
/-- PREFETCH_DROP (R330). -/
def execPrefetchDrop (granule : Nat) (s : State) : Host.Outcome State Fault Refusal :=
  act (run (Machine.prefetchDrop granule)) s
/-- REFETCH_TIMEOUT (R339). -/
def execRefetchTimeout (granule : Nat) (s : State) : Host.Outcome State Fault Refusal :=
  act (run (fun c => settle (Machine.refetchTimeout granule c))) s
/-- CXL_DEVICE_ADD (R335). -/
def execCxlDeviceAdd (slot : T2Slot) (dev : CxlDevice) (s : State) : Host.Outcome State Fault Refusal :=
  act (live (Machine.cxlDeviceAdd slot dev)) s
/-- CXL_ONLINE (R335). -/
def execCxlOnline (slot : T2Slot) (s : State) : Host.Outcome State Fault Refusal :=
  act (run (Machine.cxlOnline slot 1)) s
/-- CXL_DRAIN (R336). -/
def execCxlDrain (slot : T2Slot) (s : State) : Host.Outcome State Fault Refusal :=
  act (run (Machine.cxlDrain slot 2)) s
/-- CXL_OFFLINE (R336). -/
def execCxlOffline (slot : T2Slot) (s : State) : Host.Outcome State Fault Refusal :=
  act (run (Machine.cxlOffline slot 3)) s
/-- CXL_SURPRISE_REMOVAL (R337). -/
def execCxlSurpriseRemoval (slot : T2Slot) (s : State) : Host.Outcome State Fault Refusal :=
  act (live (cxlSurprise slot)) s
/-- SANITIZE_COMPLETE (R415). -/
def execSanitizeComplete (slot : T2Slot) (ok : Bool) (s : State) : Host.Outcome State Fault Refusal :=
  act (live (Machine.sanitizeComplete slot ok)) s

end Sys2Proof.Machine
end

