-- ==== Sys2Proof/Machine/Dispatch.lean ====
section
/-! DEFINITION. One arm for each command. -/

namespace Sys2Proof.Machine

def exec (i : Instr) (s : State) : Host.Outcome State Fault Refusal :=
  match i with
  | .registerWrite addr size cn mp => Sys2Proof.Machine.execRegisterWrite addr size cn mp s
  | .pairLowRead addr => Sys2Proof.Machine.execPairLowRead addr s
  | .pairHighWrite addr value => Sys2Proof.Machine.execPairHighWrite addr value s
  | .workMapApply => Sys2Proof.Machine.execWorkMapApply s
  | .softReset page => Sys2Proof.Machine.execSoftReset page s
  | .wipeReq page => Sys2Proof.Machine.execWipeReq page s
  | .wipeDone page => Sys2Proof.Machine.execWipeDone page s
  | .blockEnable page on => Sys2Proof.Machine.execBlockEnable page on s
  | .blkLock page => Sys2Proof.Machine.execBlkLock page s
  | .errInj page value => Sys2Proof.Machine.execErrInj page value s
  | .todIssue core => Sys2Proof.Machine.execTodIssue core s
  | .todHoldRelease core => Sys2Proof.Machine.execTodHoldRelease core s
  | .metaFault core => Sys2Proof.Machine.execMetaFault core s
  | .todPoison core => Sys2Proof.Machine.execTodPoison core s
  | .outputTileDrain core => Sys2Proof.Machine.execOutputTileDrain core s
  | .completionRecord core => Sys2Proof.Machine.execCompletionRecord core s
  | .listStart core => Sys2Proof.Machine.execListStart core s
  | .listStop core => Sys2Proof.Machine.execListStop core s
  | .atBeatLaunch core => Sys2Proof.Machine.execAtBeatLaunch core s
  | .listDone core => Sys2Proof.Machine.execListDone core s
  | .loop core => Sys2Proof.Machine.execLoop core s
  | .wait core => Sys2Proof.Machine.execWait core s
  | .waitComplete core => Sys2Proof.Machine.execWaitComplete core s
  | .waitTimeout core => Sys2Proof.Machine.execWaitTimeout core s
  | .signal core => Sys2Proof.Machine.execSignal core s
  | .fetchInc core => Sys2Proof.Machine.execFetchInc core s
  | .fetchIncGrant core => Sys2Proof.Machine.execFetchIncGrant core s
  | .branchFlag core => Sys2Proof.Machine.execBranchFlag core s
  | .beatWait core => Sys2Proof.Machine.execBeatWait core s
  | .beatWaitRelease core => Sys2Proof.Machine.execBeatWaitRelease core s
  | .wcDisarm cl idx => Sys2Proof.Machine.execWcDisarm cl idx s
  | .leaseRetire core => Sys2Proof.Machine.execLeaseRetire core s
  | .leaseExpire core => Sys2Proof.Machine.execLeaseExpire core s
  | .stagingFill core => Sys2Proof.Machine.execStagingFill core s
  | .leaseWriteback core => Sys2Proof.Machine.execLeaseWriteback core s
  | .carouselUnitLand core => Sys2Proof.Machine.execCarouselUnitLand core s
  | .scalePlanRoll addr => Sys2Proof.Machine.execScalePlanRoll addr s
  | .sfuLoad cl => Sys2Proof.Machine.execSfuLoad cl s
  | .sfuLoadComplete cl => Sys2Proof.Machine.execSfuLoadComplete cl s
  | .sfuFlipArm cl hi => Sys2Proof.Machine.execSfuFlipArm cl hi s
  | .sfuFlip => Sys2Proof.Machine.execSfuFlip s
  | .sfuDisarm cl => Sys2Proof.Machine.execSfuDisarm cl s
  | .bind slot desc => Sys2Proof.Machine.execBind slot desc s
  | .bindComplete slot => Sys2Proof.Machine.execBindComplete slot s
  | .bindTimeout slot => Sys2Proof.Machine.execBindTimeout slot s
  | .park slot => Sys2Proof.Machine.execPark slot s
  | .parkComplete slot => Sys2Proof.Machine.execParkComplete slot s
  | .release slot => Sys2Proof.Machine.execRelease slot s
  | .releaseComplete slot => Sys2Proof.Machine.execReleaseComplete slot s
  | .resume slot => Sys2Proof.Machine.execResume slot s
  | .clearFault slot => Sys2Proof.Machine.execClearFault slot s
  | .appendRow handle fmt n elems scales => Sys2Proof.Machine.execAppendRow handle fmt n elems scales s
  | .pageSeal slot layer => Sys2Proof.Machine.execPageSeal slot layer s
  | .reserveRefill slot layer => Sys2Proof.Machine.execReserveRefill slot layer s
  | .reserveSlackExpire slot => Sys2Proof.Machine.execReserveSlackExpire slot s
  | .publicationArm slot hi => Sys2Proof.Machine.execPublicationArm slot hi s
  | .publicationBuildDone slot => Sys2Proof.Machine.execPublicationBuildDone slot s
  | .publicationSwap slot => Sys2Proof.Machine.execPublicationSwap slot s
  | .pubDisarm slot => Sys2Proof.Machine.execPubDisarm slot s
  | .quarantineRelease idx => Sys2Proof.Machine.execQuarantineRelease idx s
  | .thrFlipArm pwu hi => Sys2Proof.Machine.execThrFlipArm pwu hi s
  | .thrFlip => Sys2Proof.Machine.execThrFlip s
  | .thrDisarm pwu => Sys2Proof.Machine.execThrDisarm pwu s
  | .flitSend link => Sys2Proof.Machine.execFlitSend link s
  | .flitReceive link bytes badCodeword fec => Sys2Proof.Machine.execFlitReceive link bytes badCodeword fec s
  | .retryTimeout link => Sys2Proof.Machine.execRetryTimeout link s
  | .portTrain port => Sys2Proof.Machine.execPortTrain port s
  | .portAdmit port => Sys2Proof.Machine.execPortAdmit port s
  | .portRefuse port => Sys2Proof.Machine.execPortRefuse port s
  | .markDown port => Sys2Proof.Machine.execMarkDown port s
  | .trainTryEnd port lanes identInTime => Sys2Proof.Machine.execTrainTryEnd port lanes identInTime s
  | .laneLockLoss port lanes => Sys2Proof.Machine.execLaneLockLoss port lanes s
  | .lightReturn port => Sys2Proof.Machine.execLightReturn port s
  | .identSend port => Sys2Proof.Machine.execIdentSend port s
  | .ident port body => Sys2Proof.Machine.execIdent port body s
  | .admitMsg port => Sys2Proof.Machine.execAdmitMsg port s
  | .leave port => Sys2Proof.Machine.execLeave port s
  | .rtFlipArm hi => Sys2Proof.Machine.execRtFlipArm hi s
  | .rtFlip => Sys2Proof.Machine.execRtFlip s
  | .rtCopy => Sys2Proof.Machine.execRtCopy s
  | .rtDisarm => Sys2Proof.Machine.execRtDisarm s
  | .beatPoint => Sys2Proof.Machine.execBeatPoint s
  | .linkMeasure port markers mean => Sys2Proof.Machine.execLinkMeasure port markers mean s
  | .masterElection => Sys2Proof.Machine.execMasterElection s
  | .cadenceLock => Sys2Proof.Machine.execCadenceLock s
  | .holdoverEntry => Sys2Proof.Machine.execHoldoverEntry s
  | .lostEntry => Sys2Proof.Machine.execLostEntry s
  | .time f => Sys2Proof.Machine.execTime f s
  | .overrideTakeover => Sys2Proof.Machine.execOverrideTakeover s
  | .evtArm => Sys2Proof.Machine.execEvtArm s
  | .evtRead => Sys2Proof.Machine.execEvtRead s
  | .evtCancel => Sys2Proof.Machine.execEvtCancel s
  | .eventTableFire => Sys2Proof.Machine.execEventTableFire s
  | .form ctx => Sys2Proof.Machine.execForm ctx s
  | .join p => Sys2Proof.Machine.execJoin p s
  | .joinResend ctx => Sys2Proof.Machine.execJoinResend ctx s
  | .joinHoldExpire ringId => Sys2Proof.Machine.execJoinHoldExpire ringId s
  | .formMessage p => Sys2Proof.Machine.execFormMessage p s
  | .go p => Sys2Proof.Machine.execGo p s
  | .formTimeout ctx => Sys2Proof.Machine.execFormTimeout ctx s
  | .ringDisband ctx => Sys2Proof.Machine.execRingDisband ctx s
  | .disbandMessage p => Sys2Proof.Machine.execDisbandMessage p s
  | .disbandComplete ctx => Sys2Proof.Machine.execDisbandComplete ctx s
  | .plan ctx => Sys2Proof.Machine.execPlan ctx s
  | .planMessage p => Sys2Proof.Machine.execPlanMessage p s
  | .restart ctx => Sys2Proof.Machine.execRestart ctx s
  | .stepStart group => Sys2Proof.Machine.execStepStart group s
  | .stepDone ctx => Sys2Proof.Machine.execStepDone ctx s
  | .doneMessage p => Sys2Proof.Machine.execDoneMessage p s
  | .stallTimeout group => Sys2Proof.Machine.execStallTimeout group s
  | .blockHdr p => Sys2Proof.Machine.execBlockHdr p s
  | .blockData p => Sys2Proof.Machine.execBlockData p s
  | .querySend ctx => Sys2Proof.Machine.execQuerySend ctx s
  | .query p => Sys2Proof.Machine.execQuery p s
  | .partialHandoff ctx => Sys2Proof.Machine.execPartialHandoff ctx s
  | .partialMsg p => Sys2Proof.Machine.execPartialMsg p s
  | .result p => Sys2Proof.Machine.execResult p s
  | .extend p => Sys2Proof.Machine.execExtend p s
  | .collArm id => Sys2Proof.Machine.execCollArm id s
  | .collDisarm id => Sys2Proof.Machine.execCollDisarm id s
  | .collectiveStart id => Sys2Proof.Machine.execCollectiveStart id s
  | .chunkSend id dst => Sys2Proof.Machine.execChunkSend id dst s
  | .data p => Sys2Proof.Machine.execData p s
  | .reduceReady id core => Sys2Proof.Machine.execReduceReady id core s
  | .mdata p => Sys2Proof.Machine.execMdata p s
  | .rpart p => Sys2Proof.Machine.execRpart p s
  | .collReplay p => Sys2Proof.Machine.execCollReplay p s
  | .rack p => Sys2Proof.Machine.execRack p s
  | .repair p => Sys2Proof.Machine.execRepair p s
  | .detach p => Sys2Proof.Machine.execDetach p s
  | .detachTimeout id => Sys2Proof.Machine.execDetachTimeout id s
  | .voteSend id => Sys2Proof.Machine.execVoteSend id s
  | .vote p => Sys2Proof.Machine.execVote p s
  | .abortReq p => Sys2Proof.Machine.execAbortReq p s
  | .commit p => Sys2Proof.Machine.execCommit p s
  | .abort p => Sys2Proof.Machine.execAbort p s
  | .runTimeout id => Sys2Proof.Machine.execRunTimeout id s
  | .runFail id => Sys2Proof.Machine.execRunFail id s
  | .memoryAccess way addr len data => Sys2Proof.Machine.execMemoryAccess way addr len data s
  | .feReset => Sys2Proof.Machine.execFeReset s
  | .errorLogCommit => Sys2Proof.Machine.execErrorLogCommit s
  | .regionSeal region => Sys2Proof.Machine.execRegionSeal region s
  | .regionHome region => Sys2Proof.Machine.execRegionHome region s
  | .regionCopy2 region => Sys2Proof.Machine.execRegionCopy2 region s
  | .frameCopyComplete idx => Sys2Proof.Machine.execFrameCopyComplete idx s
  | .eviction => Sys2Proof.Machine.execEviction s
  | .promotion slot layer page => Sys2Proof.Machine.execPromotion slot layer page s
  | .gmcScrub gmc addr found => Sys2Proof.Machine.execGmcScrub gmc addr found s
  | .refreshWindow gmc => Sys2Proof.Machine.execRefreshWindow gmc s
  | .loanOfferCmd ctx => Sys2Proof.Machine.execLoanOfferCmd ctx s
  | .loanReclaimCmd ctx => Sys2Proof.Machine.execLoanReclaimCmd ctx s
  | .loanReturnCmd ctx => Sys2Proof.Machine.execLoanReturnCmd ctx s
  | .loanOffer p => Sys2Proof.Machine.execLoanOffer p s
  | .loanAccept p => Sys2Proof.Machine.execLoanAccept p s
  | .loanDecline p => Sys2Proof.Machine.execLoanDecline p s
  | .reclaim p => Sys2Proof.Machine.execReclaim p s
  | .vacateComplete ctx => Sys2Proof.Machine.execVacateComplete ctx s
  | .vacated p => Sys2Proof.Machine.execVacated p s
  | .loanEnd p => Sys2Proof.Machine.execLoanEnd p s
  | .reclaimDeadline ctx => Sys2Proof.Machine.execReclaimDeadline ctx s
  | .rread p => Sys2Proof.Machine.execRread p s
  | .rdata p => Sys2Proof.Machine.execRdata p s
  | .rwrite p => Sys2Proof.Machine.execRwrite p s
  | .rseal p => Sys2Proof.Machine.execRseal p s
  | .rfree p => Sys2Proof.Machine.execRfree p s
  | .gread p => Sys2Proof.Machine.execGread p s
  | .rerr p => Sys2Proof.Machine.execRerr p s
  | .loanRequestTimeout reqTag => Sys2Proof.Machine.execLoanRequestTimeout reqTag s
  | .pfGo => Sys2Proof.Machine.execPfGo s
  | .pfStop => Sys2Proof.Machine.execPfStop s
  | .prefetchIssue => Sys2Proof.Machine.execPrefetchIssue s
  | .prefetchLate granule => Sys2Proof.Machine.execPrefetchLate granule s
  | .prefetchDrop granule => Sys2Proof.Machine.execPrefetchDrop granule s
  | .refetchTimeout granule => Sys2Proof.Machine.execRefetchTimeout granule s
  | .cxlDeviceAdd slot dev => Sys2Proof.Machine.execCxlDeviceAdd slot dev s
  | .cxlOnline slot => Sys2Proof.Machine.execCxlOnline slot s
  | .cxlDrain slot => Sys2Proof.Machine.execCxlDrain slot s
  | .cxlOffline slot => Sys2Proof.Machine.execCxlOffline slot s
  | .cxlSurpriseRemoval slot => Sys2Proof.Machine.execCxlSurpriseRemoval slot s
  | .sanitizeComplete slot ok => Sys2Proof.Machine.execSanitizeComplete slot ok s
  | .hello f nm ek => Sys2Proof.Machine.execHello f nm ek s
  | .keyx f sigOk ss => Sys2Proof.Machine.execKeyx f sigOk ss s
  | .resumeFrame f => Sys2Proof.Machine.execResumeFrame f s
  | .rekey f => Sys2Proof.Machine.execRekey f s
  | .sessionEnd f => Sys2Proof.Machine.execSessionEnd f s
  | .regRead f => Sys2Proof.Machine.execRegRead f s
  | .regWriteFrame f => Sys2Proof.Machine.execRegWriteFrame f s
  | .dmaRd f => Sys2Proof.Machine.execDmaRd f s
  | .dmaWr f => Sys2Proof.Machine.execDmaWr f s
  | .sqWrite f => Sys2Proof.Machine.execSqWrite f s
  | .cqAck f => Sys2Proof.Machine.execCqAck f s
  | .eventAck f => Sys2Proof.Machine.execEventAck f s
  | .attestReq f => Sys2Proof.Machine.execAttestReq f s
  | .attestReportReady => Sys2Proof.Machine.execAttestReportReady s
  | .resp f => Sys2Proof.Machine.execResp f s
  | .memTimeout reqTag => Sys2Proof.Machine.execMemTimeout reqTag s
  | .resumeTimeout => Sys2Proof.Machine.execResumeTimeout s
  | .mboipTrainTryEnd lanes => Sys2Proof.Machine.execMboipTrainTryEnd lanes s
  | .mboipRetryTimer => Sys2Proof.Machine.execMboipRetryTimer s
  | .recoveryChunk f => Sys2Proof.Machine.execRecoveryChunk f s
  | .recoveryCommit f sigOk programOk => Sys2Proof.Machine.execRecoveryCommit f sigOk programOk s
  | .qEnable q on => Sys2Proof.Machine.execQEnable q on s
  | .qReset q => Sys2Proof.Machine.execQReset q s
  | .nop q => Sys2Proof.Machine.execNop q s
  | .pull q => Sys2Proof.Machine.execPull q s
  | .push q => Sys2Proof.Machine.execPush q s
  | .queueSignal q => Sys2Proof.Machine.execQueueSignal q s
  | .writeWords q => Sys2Proof.Machine.execWriteWords q s
  | .queueSlotCmd q => Sys2Proof.Machine.execQueueSlotCmd q s
  | .regBatch q => Sys2Proof.Machine.execRegBatch q s
  | .refetchFill q => Sys2Proof.Machine.execRefetchFill q s
  | .lcTransition q sigVendor sigCn => Sys2Proof.Machine.execLcTransition q sigVendor sigCn s
  | .masterOverride q sigCn => Sys2Proof.Machine.execMasterOverride q sigCn s
  | .svnCommit q sigCn => Sys2Proof.Machine.execSvnCommit q sigCn s
  | .lifecycleReset => Sys2Proof.Machine.execLifecycleReset s
  | .powerOn vin => Sys2Proof.Machine.execPowerOn vin s
  | .coreSelfTest failed => Sys2Proof.Machine.execCoreSelfTest failed s
  | .gddr7TrainingDone ok => Sys2Proof.Machine.execGddr7TrainingDone ok s
  | .ready railOk opticsOk flashOk => Sys2Proof.Machine.execReady railOk opticsOk flashOk s
  | .vinBandEntry vin => Sys2Proof.Machine.execVinBandEntry vin s
  | .powerFail vin => Sys2Proof.Machine.execPowerFail vin s
  | .overvoltage vin => Sys2Proof.Machine.execOvervoltage vin s
  | .senseNOpen => Sys2Proof.Machine.execSenseNOpen s
  | .flashDeferRetry vhold => Sys2Proof.Machine.execFlashDeferRetry vhold s
  | .flashDeferExpire => Sys2Proof.Machine.execFlashDeferExpire s
  | .vinReturn vin => Sys2Proof.Machine.execVinReturn vin s
  | .holdupExhausted vhold => Sys2Proof.Machine.execHoldupExhausted vhold s
  | .emergencyTrigger tj p20us p10ms => Sys2Proof.Machine.execEmergencyTrigger tj p20us p10ms s
  | .ocAvgStep p10ms => Sys2Proof.Machine.execOcAvgStep p10ms s
  | .triggerClear t tj p10ms beats => Sys2Proof.Machine.execTriggerClear t tj p10ms beats s
  | .emergencyReturn => Sys2Proof.Machine.execEmergencyReturn s
  | .trip tj => Sys2Proof.Machine.execTrip tj s
  | .planLevelWrite value => Sys2Proof.Machine.execPlanLevelWrite value s
  | .rstCmd value => Sys2Proof.Machine.execRstCmd value s
  | .ddEnter => Sys2Proof.Machine.execDdEnter s
  | .drydownEntryComplete => Sys2Proof.Machine.execDrydownEntryComplete s
  | .ddExit => Sys2Proof.Machine.execDdExit s
  | .drydownWake => Sys2Proof.Machine.execDrydownWake s
  | .drydownExitComplete portsBack => Sys2Proof.Machine.execDrydownExitComplete portsBack s
  | .imgUpdate sigOk => Sys2Proof.Machine.execImgUpdate sigOk s
  | .imageUpdateComplete ok => Sys2Proof.Machine.execImageUpdateComplete ok s
  | .loaderReq value => Sys2Proof.Machine.execLoaderReq value s
  | .ctrInc => Sys2Proof.Machine.execCtrInc s
  | .extCmd => Sys2Proof.Machine.execExtCmd s
  | .logCopy => Sys2Proof.Machine.execLogCopy s
  | .monitorSample idx value => Sys2Proof.Machine.execMonitorSample idx value s
  | .voltageStep => Sys2Proof.Machine.execVoltageStep s
  | .laserStep engine => Sys2Proof.Machine.execLaserStep engine s
  | .windowArm hi => Sys2Proof.Machine.execWindowArm hi s
  | .windowStart => Sys2Proof.Machine.execWindowStart s
  | .winGo => Sys2Proof.Machine.execWinGo s
  | .winCancel => Sys2Proof.Machine.execWinCancel s
  | .windowDone ok => Sys2Proof.Machine.execWindowDone ok s
  | .ageingCheckpoint => Sys2Proof.Machine.execAgeingCheckpoint s
  | .romonWatchdog => Sys2Proof.Machine.execRomonWatchdog s
  | .refuseMsg port code => Sys2Proof.Machine.execRefuseMsg port code s
  | .tripCooledReset tj => Sys2Proof.Machine.execTripCooledReset tj s

end Sys2Proof.Machine
end

