-- ==== Sys2Proof/WellFormed.lean ====
section
/-! DEFINITION. Well-formed commands: operands that can reach the module. What a packet, a frame or a register says
of itself is judged by the module and is no matter of form here. -/

namespace Sys2Proof

/-- Bytes of GDDR7 data (R310). -/
def t0Bytes : Nat := 0x1740000000

/-- A frame's fields fit the header of R353, and its type is the command's. -/
def Frame.fits (f : Frame) (type : Nat) : Bool :=
  f.type == type && decide (f.qid < 64 ∧ f.epoch < 256 ∧ f.ctr < 2 ^ 48 ∧ f.addr < 2 ^ 64 ∧ f.tag < 2 ^ 32 ∧ f.status < 256 ∧
    f.body.length ≤ 65536)

/-- A packet's fields fit the header of R203, and its KIND is the command's. -/
def Packet.fits (p : Packet) (kind : Nat) : Bool :=
  p.kind == kind && decide (p.dest < 2048 ∧ p.slice < 256 ∧ p.src < 2048 ∧ p.due < 2 ^ 32 ∧ p.addr < 2 ^ 64 ∧ p.tag < 2 ^ 32 ∧
    p.cls < 3 ∧ p.body.length ≤ 65536)

/-- The command is well formed. -/
def wellFormed : Instr → Bool
  | .registerWrite addr _ _ _ => decide (addr < 2 ^ 26)
  | .pairLowRead addr => decide (addr < 2 ^ 26)
  | .pairHighWrite addr _ => decide (addr < 2 ^ 26)
  | .workMapApply => true
  | .softReset _ => true
  | .wipeReq _ => true
  | .wipeDone _ => true
  | .blockEnable _ _ => true
  | .blkLock _ => true
  | .errInj _ _ => true
  | .todIssue _ => true
  | .todHoldRelease _ => true
  | .metaFault _ => true
  | .todPoison _ => true
  | .outputTileDrain _ => true
  | .completionRecord _ => true
  | .listStart _ => true
  | .listStop _ => true
  | .atBeatLaunch _ => true
  | .listDone _ => true
  | .loop _ => true
  | .wait _ => true
  | .waitComplete _ => true
  | .waitTimeout _ => true
  | .signal _ => true
  | .fetchInc _ => true
  | .fetchIncGrant _ => true
  | .branchFlag _ => true
  | .beatWait _ => true
  | .beatWaitRelease _ => true
  | .wcDisarm _ _ => true
  | .leaseRetire _ => true
  | .leaseExpire _ => true
  | .stagingFill _ => true
  | .leaseWriteback _ => true
  | .carouselUnitLand _ => true
  | .scalePlanRoll addr => decide (addr < 2 ^ 48 ∧ addr % 64 = 0)
  | .sfuLoad _ => true
  | .sfuLoadComplete _ => true
  | .sfuFlipArm _ _ => true
  | .sfuFlip => true
  | .sfuDisarm _ => true
  | .bind _ desc => decide (desc < 4096)
  | .bindComplete _ => true
  | .bindTimeout _ => true
  | .park _ => true
  | .parkComplete _ => true
  | .release _ => true
  | .releaseComplete _ => true
  | .resume _ => true
  | .clearFault _ => true
  | .appendRow handle fmt n _ _ => decide (handle < 65536 ∧ fmt < 16 ∧ 0 < n)
  | .pageSeal _ layer => decide (layer < 128)
  | .reserveRefill _ layer => decide (layer < 128)
  | .reserveSlackExpire _ => true
  | .publicationArm _ _ => true
  | .publicationBuildDone _ => true
  | .publicationSwap _ => true
  | .pubDisarm _ => true
  | .quarantineRelease _ => true
  | .thrFlipArm _ _ => true
  | .thrFlip => true
  | .thrDisarm _ => true
  | .flitSend _ => true
  | .flitReceive _ bytes _ _ => bytes.length == 256
  | .retryTimeout _ => true
  | .portTrain _ => true
  | .portAdmit _ => true
  | .portRefuse _ => true
  | .markDown _ => true
  | .trainTryEnd _ _ _ => true
  | .laneLockLoss _ _ => true
  | .lightReturn _ => true
  | .identSend _ => true
  | .ident _ body => body.length == 64
  | .admitMsg _ => true
  | .leave _ => true
  | .rtFlipArm _ => true
  | .rtFlip => true
  | .rtCopy => true
  | .rtDisarm => true
  | .beatPoint => true
  | .linkMeasure _ markers _ => decide (markers ≤ 33)
  | .masterElection => true
  | .cadenceLock => true
  | .holdoverEntry => true
  | .lostEntry => true
  | .time f => f.fits 0x30
  | .overrideTakeover => true
  | .evtArm => true
  | .evtRead => true
  | .evtCancel => true
  | .eventTableFire => true
  | .form _ => true
  | .join p => p.fits 0x10
  | .joinResend _ => true
  | .joinHoldExpire ringId => decide (ringId < 65536)
  | .formMessage p => p.fits 0x11
  | .go p => p.fits 0x12
  | .formTimeout _ => true
  | .ringDisband _ => true
  | .disbandMessage p => p.fits 0x13
  | .disbandComplete _ => true
  | .plan _ => true
  | .planMessage p => p.fits 0x1B
  | .restart _ => true
  | .stepStart _ => true
  | .stepDone _ => true
  | .doneMessage p => p.fits 0x19
  | .stallTimeout _ => true
  | .blockHdr p => p.fits 0x14
  | .blockData p => p.fits 0x15
  | .querySend _ => true
  | .query p => p.fits 0x16
  | .partialHandoff _ => true
  | .partialMsg p => p.fits 0x17
  | .result p => p.fits 0x18
  | .extend p => p.fits 0x1A
  | .collArm _ => true
  | .collDisarm _ => true
  | .collectiveStart _ => true
  | .chunkSend _ dst => decide (dst ≤ 256)
  | .data p => p.fits 0x20
  | .reduceReady _ _ => true
  | .mdata p => p.fits 0x21
  | .rpart p => p.fits 0x22
  | .collReplay p => p.fits 0x23
  | .rack p => p.fits 0x24
  | .repair p => p.fits 0x25
  | .detach p => p.fits 0x26
  | .detachTimeout _ => true
  | .voteSend _ => true
  | .vote p => p.fits 0x27
  | .abortReq p => p.fits 0x28
  | .commit p => p.fits 0x29
  | .abort p => p.fits 0x2A
  | .runTimeout _ => true
  | .runFail _ => true
  | .memoryAccess way addr len data => decide (addr < 2 ^ 48 ∧ way.due < 2 ^ 32 ∧ way.cls < 3) && (if way.write then data.length == len else data.isEmpty)
  | .feReset => true
  | .errorLogCommit => true
  | .regionSeal region => decide (region < 31)
  | .regionHome region => decide (region < 31)
  | .regionCopy2 region => decide (region < 31)
  | .frameCopyComplete idx => decide (idx < 16)
  | .eviction => true
  | .promotion _ layer page => decide (layer < 128 ∧ page < 2 ^ 20)
  | .gmcScrub _ addr _ => decide (addr < t0Bytes)
  | .refreshWindow _ => true
  | .loanOfferCmd _ => true
  | .loanReclaimCmd _ => true
  | .loanReturnCmd _ => true
  | .loanOffer p => p.fits 0x30
  | .loanAccept p => p.fits 0x31
  | .loanDecline p => p.fits 0x32
  | .reclaim p => p.fits 0x33
  | .vacateComplete _ => true
  | .vacated p => p.fits 0x34
  | .loanEnd p => p.fits 0x35
  | .reclaimDeadline _ => true
  | .rread p => p.fits 0x01
  | .rdata p => p.fits 0x02
  | .rwrite p => p.fits 0x03
  | .rseal p => p.fits 0x04
  | .rfree p => p.fits 0x05
  | .gread p => p.fits 0x06
  | .rerr p => p.fits 0x07
  | .loanRequestTimeout reqTag => decide (reqTag < 65536)
  | .pfGo => true
  | .pfStop => true
  | .prefetchIssue => true
  | .prefetchLate granule => decide (granule < 2 ^ 28)
  | .prefetchDrop granule => decide (granule < 2 ^ 28)
  | .refetchTimeout granule => decide (granule < 2 ^ 28)
  | .cxlDeviceAdd _ dev => decide (dev.capMiB < 2 ^ 23 ∧ dev.width ≤ 16 ∧ dev.rate ≤ 3)
  | .cxlOnline _ => true
  | .cxlDrain _ => true
  | .cxlOffline _ => true
  | .cxlSurpriseRemoval _ => true
  | .sanitizeComplete _ _ => true
  | .hello f nm ek => f.fits 0x01 && nm.length == 32 && ek.length == 1184
  | .keyx f _ ss => f.fits 0x03 && ss.length == 32
  | .resumeFrame f => f.fits 0x05
  | .rekey f => f.fits 0x06
  | .sessionEnd f => f.fits 0x07
  | .regRead f => f.fits 0x10
  | .regWriteFrame f => f.fits 0x11
  | .dmaRd f => f.fits 0x18
  | .dmaWr f => f.fits 0x19
  | .sqWrite f => f.fits 0x20
  | .cqAck f => f.fits 0x22
  | .eventAck f => f.fits 0x29
  | .attestReq f => f.fits 0x38
  | .attestReportReady => true
  | .resp f => f.fits 0x40
  | .memTimeout reqTag => decide (reqTag < 2 ^ 32)
  | .resumeTimeout => true
  | .mboipTrainTryEnd _ => true
  | .mboipRetryTimer => true
  | .recoveryChunk f => f.fits 0x3C && !f.body.isEmpty
  | .recoveryCommit f _ _ => f.fits 0x3C && f.body.isEmpty
  | .qEnable _ _ => true
  | .qReset _ => true
  | .nop _ => true
  | .pull _ => true
  | .push _ => true
  | .queueSignal _ => true
  | .writeWords _ => true
  | .queueSlotCmd _ => true
  | .regBatch _ => true
  | .refetchFill _ => true
  | .lcTransition _ _ _ => true
  | .masterOverride _ _ => true
  | .svnCommit _ _ => true
  | .lifecycleReset => true
  | .powerOn _ => true
  | .coreSelfTest failed => decide failed.Nodup
  | .gddr7TrainingDone _ => true
  | .ready _ _ _ => true
  | .vinBandEntry _ => true
  | .powerFail _ => true
  | .overvoltage _ => true
  | .senseNOpen => true
  | .flashDeferRetry _ => true
  | .flashDeferExpire => true
  | .vinReturn _ => true
  | .holdupExhausted _ => true
  | .emergencyTrigger _ _ _ => true
  | .ocAvgStep _ => true
  | .triggerClear _ _ _ _ => true
  | .emergencyReturn => true
  | .trip _ => true
  | .planLevelWrite _ => true
  | .rstCmd _ => true
  | .ddEnter => true
  | .drydownEntryComplete => true
  | .ddExit => true
  | .drydownWake => true
  | .drydownExitComplete portsBack => decide portsBack.Nodup
  | .imgUpdate _ => true
  | .imageUpdateComplete _ => true
  | .loaderReq _ => true
  | .ctrInc => true
  | .extCmd => true
  | .logCopy => true
  | .monitorSample _ _ => true
  | .voltageStep => true
  | .laserStep _ => true
  | .windowArm _ => true
  | .windowStart => true
  | .winGo => true
  | .winCancel => true
  | .windowDone _ => true
  | .ageingCheckpoint => true
  | .romonWatchdog => true
  | .refuseMsg _ code => decide (code < 16)
  | .tripCooledReset _ => true

end Sys2Proof
end

