-- ==== Sys2Proof/Safety.lean ====
section
/-! DEFINITION. What counts as a safe run, in the terms the statements use. -/

namespace Sys2Proof.Machine

/-- The sparse tables that hold memory and registers have their one canonical form. -/
def Chip.canonical (c : Chip) : Bool :=
  Tab.wf (fun _ => 0#8) c.mem && Tab.wf (fun _ => 0#8) c.lower && Tab.wf regReset c.regs

/-- Every waiting command is well formed. -/
def State.queueOk (s : State) : Bool := s.pending.all wellFormed

/-- A retired module after its wipe: off, or in die reset with its peer ports OFF (R416). -/
def Chip.dead (c : Chip) : Prop :=
  c.otp.retire = true ∧ (c.phase = .off ∨ c.phase = .retired) ∧ ∀ p < 6, (c.link p).st = 0

/-- Romon runs: registers, control link, cadence, ports and monitors are at work (R385, R386). -/
abbrev Chip.isOn (c : Chip) : Prop := c.phase = .running ∨ c.phase = .starting
/-- READY has been reported and the module is not in hold-up (R380, R386). -/
abbrev Chip.isReady (c : Chip) : Prop := c.phase = .running ∧ c.pwr.st ≠ 5
/-- Compute is powered: not shed (R380, R428), not gated in drydown (R388 to R391). -/
abbrev Chip.isPowered (c : Chip) : Prop :=
  c.phase = .running ∧ c.pwr.shed = false ∧ c.pwr.st ≠ 3 ∧ c.pwr.st ≠ 4 ∧ c.pwr.st ≠ 5

/-- The command completes: exec answers a next state, the waiting commands as before, in which the module is as P says. -/
def Does (i : Instr) (s : State) (P : Chip → Prop) : Prop :=
  ∃ t, exec i s = .next t ∧ t.pending = s.pending ∧ P t.chip

/-- The index registers of a core's active loops exist (R101); every list that LOOP builds has this. -/
abbrev Chip.loopsOk (c : Chip) (n : Nat) : Prop := ∀ f ∈ (c.core n).loops, f.reg.getD 0 < 32

/-- The list of a powered core runs and stands at an entry with the words t (R97, R98). -/
abbrev Chip.atEntry (c : Chip) (n : Nat) (t : List Nat) : Prop :=
  c.isPowered ∧ (c.core n).st = 1 ∧ (c.core n).stopping = false ∧ (c.core n).pc < c.listLen n ∧
  (∀ r ∈ (c.core n).runs, r.status < 16) ∧ c.loopsOk n ∧ (listEntry c n).toOption = some t

/-- The runs of a core: those that have ended and await their records, the one that drains, those behind it. -/
abbrev Chip.drains (c : Chip) (n : Nat) (a : List TodRun) (r : TodRun) (l : List TodRun) : Prop :=
  c.isPowered ∧ (c.core n).runs = a ++ r :: l ∧ (∀ x ∈ a, x.begun = true → x.ended = true) ∧ r.begun = true ∧ r.ended = false ∧
  ((c.core n).st = 1 ∨ (c.core n).st = 2 ∨ (c.core n).st = 3)

/-- The module once a FETCH_INC of core n has retired the lease that the core holds (R108, R110). -/
abbrev Chip.putDown (c : Chip) (n : Nat) : Chip := leaseRetire n (startRetire n c)

/-- The list of core n goes on to the next entry (R101): past a body's end with iterations left back to its first entry,
with the index one higher and written to its register. -/
abbrev Chip.goesOn (o c : Chip) (n : Nat) : Prop :=
  (c.core n).st = 1 ∧ (c.core n).pc = (advance (o.core n).loops ((o.core n).pc + 1)).2.1 ∧
  (c.core n).loops = (advance (o.core n).loops ((o.core n).pc + 1)).1 ∧
  ∀ q i, (advance (o.core n).loops ((o.core n).pc + 1)).2.2 = some (q, i) → c.sq n q = i % 2 ^ 32

/-- The operation c has been carried out on o, and a step launch that waits for the list's end has followed (R260). -/
abbrev Chip.thenLaunch (c : Chip) (n : Nat) (P : Chip → Prop) : Prop := ∃ k : Chip, c = launchPending n k ∧ P k

/-- The module once the control link's waiting frames have entered its queue, for link 6 (R353). -/
abbrev Chip.loaded (c : Chip) (n : Nat) : Chip := if n = 6 then loadFrames c else c
/-- No flit stands to be sent again in the state that the link is in (R206). -/
abbrev Link.noneAgain (l : Link) : Prop := ∀ f ∈ l.resend.head?, l.st ≠ 4 ∧ f.type ≠ 3

/-- The low half that a write of the high half applies: the one that waits, else the register's (R8). -/
abbrev Chip.lowHalf (c : Chip) (a : Nat) : Nat :=
  match Tab.get (fun _ => none) c.pairStage a with | some v => v.toNat | none => c.rg a

/-- Bytes that the next drained tile of a run stores: its rows of OUT, and for MX their scales; a whole last MX block,
and at the last tile of a softmax every column (R69, R80, R86). -/
def tileStores (n : Nat) (r : TodRun) (a : Nat) : Prop :=
  let t := r.tod
  let w := codeBits (tFmtOut t)
  let lo := if tRowop t = 4 then 0 else (tileCols r).1
  let len := (tileCols r).2 - lo
  ∃ m < r.mb,
    (∃ i < rowBytes w (if codeMx (tFmtOut t) then 32 * ceilDiv len 32 else len),
      a = awAddr n r.windows (tOut t) (m * tOutLd t + w * lo / 8 + i)) ∨
    (codeMx (tFmtOut t) = true ∧ ∃ i < ceilDiv len 32,
      a = awAddr n r.windows (pOutScl r.par) (m * ceilDiv (tN t) 32 + lo / 32 + i))

/-- The pages of a core, a cluster and a port (R345). -/
def corePage (n : CoreId) : PageId := ⟨0x100 + n.val, by omega⟩
def clusPage (n : ClusterId) : PageId := ⟨0x200 + n.val, by omega⟩
def portPage (n : PortId) : PageId := ⟨0x008 + n.val, by omega⟩

/-- Registers that logging an error of a page may write: ERR_STS and ERR_NEST of the page, the telemetry unit's
IRQ_STS and lost-record count, the control link's IRQ_STS (R347, R369, R424). -/
def errRegs (page : Nat) : List Nat := [ra page 0x10, ra page 0x1C, ra pgTam 0x20, ra pgTam 0x104, ra pgMbp 0x20]

/-- An error of the class and cause shows in the page's ERR_STS. -/
def Chip.hasErr (c : Chip) (page cls cause : Nat) : Bool := bit cls (c.rg (ra page 0x10)) && bit cause (c.rg (ra page 0x10))

/-- From one module to the next, an error of the page has been logged, with its record and event, and nothing else has
happened (R423, R427). -/
def Chip.logs (o c : Chip) (page cls cause : Nat) : Prop :=
  c = { o with regs := c.regs, mbp := c.mbp, tam := c.tam } ∧ (∀ a, a ∉ errRegs page → c.rg a = o.rg a) ∧
  c.hasErr page cls cause = true

/-- The module takes control frames of the type: from the start of Romon and in the loader, not while RETIRED (R355). -/
abbrev Chip.listens (c : Chip) (t : Nat) : Prop := takesFrames c t = true ∧ c.phase ≠ .retired

/-- A control frame of a type that the module takes: the session accepts it, it verifies and comes in order
when protected, and its fields are sound (R353, R355, R358). -/
abbrev Chip.takes (c : Chip) (t : Nat) (f : Frame) : Prop :=
  f.type = t ∧ c.listens t ∧ accepts c f = true ∧ f.broken = false ∧
  (if isProtected t = true then f.authentic = true ∧ inOrder c f = true else f.prot = false)

/-- The control link once it has taken the frame that stands first: its counter is one higher when protected. -/
def Mbp.took (m : Mbp) (t : Nat) : Mbp :=
  if isProtected t = true ∧ t ≠ 5 then { m with arrived := m.arrived.drop 1, rxCtr := m.rxCtr + 1 }
  else { m with arrived := m.arrived.drop 1 }

/-- The module once the frame that stands first in the link's buffer is out of it. -/
abbrev Chip.heard (c : Chip) : Chip := { c with mbp := { c.mbp with arrived := c.mbp.arrived.drop 1 } }
/-- The module once it has taken a frame of the type. -/
abbrev Chip.took (c : Chip) (t : Nat) : Chip := { c with mbp := c.mbp.took t }

/-- A collective packet of a kind for the run at hand of its context (R295, R305). -/
abbrev Chip.nowPkt (c : Chip) (k : Nat) (p : Packet) : Prop :=
  p.kind = k ∧ 16 ≤ p.body.length ∧ ((c.coll (hId p)).st = 2 ∨ (c.coll (hId p)).st = 3) ∧ eraOf (c.coll (hId p)) p = .now

/-- The module once what waited in a context for a read or for reduction memory has gone on (R299, R339). -/
abbrev Chip.caught (c : Chip) (id : Nat) : Chip := if kRouter (c.coll id).words = true then routerTurn id c else ownCopies id c
/-- A DATA packet's chunk has a free staging slot where it needs one, and its own input can be read (R298, R339). -/
abbrev Chip.dataRoom (c : Chip) (p : Packet) : Prop :=
  ownHeld c (c.coll (hId p)) p = false ∧
  (kRingSum (c.coll (hId p)).words = true → (c.coll (hId p)).st = 2 → hChunk p < (c.coll (hId p)).nred →
    ∀ r ∈ (c.coll (hId p)).rx.head?, hChunk p < firstGap 0 r.freed + kInfl (c.coll (hId p)).words)

/-- A message has had the effect k, and reads that waited for a refetch have gone on as far as they can (R339). -/
abbrev Chip.settled (c : Chip) (P : Chip → Prop) : Prop := ∃ k : Chip, c = settle k ∧ P k
/-- The memory controllers serve a request now: none of its lines waits for a refresh window or a retraining (R311, R332). -/
abbrev Chip.serves (c : Chip) (w : GmcWhat) : Prop := c.heldAt (c.reqRanges w) = none
/-- The module while it serves an access of this DUE. -/
abbrev Chip.withDue (c : Chip) (due : Nat) : Chip := { c with mtm := { c.mtm with reqDue := due } }

/-- No read of the control node waits for a refetch: neither a DMA_RD frame nor a queue entry (R339). -/
abbrev Chip.noHeld (c : Chip) : Prop :=
  c.mbp.held = [] ∧ ∀ q < 33, ∀ e ∈ (c.queue q).started, e.waitAt = none

/-- The module once it has taken a request: LAST_TAG is the request's when that is later (R360). -/
abbrev Chip.req (c : Chip) (t : Nat) (f : Frame) : Chip :=
  { c with mbp := { c.mbp.took t with lastTag := if serialLt c.mbp.lastTag f.tag = true then f.tag else c.mbp.lastTag } }

/-- From one module to the next a RESP to the request has been sent, with this STATUS and body (R361). -/
abbrev Chip.answers (o c : Chip) (f : Frame) (status : Nat) (body : List Byte) : Prop :=
  ∃ g ∈ c.mbp.out.drop o.mbp.out.length, g.type = 0x40 ∧ g.tag = f.tag ∧ g.qid = f.qid ∧ g.status = status ∧ g.body = body

/-- From one module to the next a frame of a type has been sent. -/
abbrev Chip.sends (o c : Chip) (t : Nat) : Prop := ∃ g ∈ c.mbp.out.drop o.mbp.out.length, g.type = t

/-- The queue's next entry has the words w and the OP; nothing of the queue is started, and it is its turn (R366). -/
abbrev Chip.nextEntry (c : Chip) (q op : Nat) (w : List Nat) : Prop :=
  c.isReady ∧ c.pwr.st = 1 ∧ nextQueue c = some q ∧ (c.queue q).started = [] ∧ w = sqEntry c q (c.queue q).sqHead ∧
  eOp w = op ∧ acceptsOp q op = true

/-- The queue's next entry has the words w and one of the OPs that the queue accepts, and it is its turn (R366). -/
abbrev Chip.turnOf (c : Chip) (q op : Nat) (w : List Nat) : Prop :=
  c.isReady ∧ c.pwr.st = 1 ∧ nextQueue c = some q ∧ w = sqEntry c q (c.queue q).sqHead ∧ eOp w = op ∧ acceptsOp q op = true

/-- Address of a queue's next completion entry. -/
def Chip.cplAt (c : Chip) (q : Nat) : Nat := c.cqBase q + 64 * ((c.queue q).cqTail % max 1 (c.cqSize q))

/-- The entry has left the queue with a completion entry: PHASE and STATUS, CID, BEAT, DETAIL (R367). -/
abbrev Chip.completes (o c : Chip) (q : Nat) (w : List Nat) (status detail : Nat) : Prop :=
  c.queue q = { o.queue q with sqHead := ((o.queue q).sqHead + 1) % 65536, cqTail := ((o.queue q).cqTail + 1) % 65536 } ∧
  c.le (o.cplAt q) 4 = (if (o.queue q).cqTail / max 1 (o.cqSize q) % 2 = 0 then 4 else 0) + 256 * status ∧
  c.le (o.cplAt q + 4) 4 = wd w 1 ∧ c.le (o.cplAt q + 8) 8 = o.cad.now % 2 ^ 64 ∧ c.le (o.cplAt q + 16) 4 = detail

/-- The entry is started and waits for control-node memory: a request of the type and length at CN_ADDR (R363, R365). -/
abbrev Chip.requests (o c : Chip) (q : Nat) (w : List Nat) (t n : Nat) (body : List Byte) : Prop :=
  (c.queue q).started.length = 1 ∧ (c.queue q).sqHead = ((o.queue q).sqHead + 1) % 65536 ∧
  (c.queue q).cqTail = (o.queue q).cqTail ∧ c.mem = o.mem ∧
  ∃ r ∈ c.mbp.mem, r.q = q ∧ r.tag = (o.mbp.nextTag + 1) % 2 ^ 32 ∧ r.frame.type = t ∧ r.frame.addr = eCn w ∧ r.len = n ∧
    r.frame.body = body ∧ r.off = 0 ∧ r.sent = (o.mbp.sess == 2)

/-- From one module to the next a module reset with this cause, then the boot ROM: volatile state is wiped; OTP, straps
and the firmware image stay; the image decides whether start-up or the loader follows (R384, R386, R402, R416). -/
abbrev Chip.resets (o c : Chip) (cause : Nat) : Prop :=
  c.pwr.cause = cause ∧ c.mem = [] ∧ c.lower = [] ∧ c.cores = [] ∧ c.slots = [] ∧ c.rings = [] ∧ c.colls = [] ∧
  c.mbp.queues = [] ∧ c.mbp.lastTag = 0 ∧ c.pwr.shed = false ∧ c.cad.now = 0 ∧ c.otp = o.otp ∧ c.straps = o.straps ∧
  c.posId = o.posId ∧ c.flash.image = o.flash.image ∧
  c.phase = if o.otp.retire = true then .retired
    else if imageFail o.flash.image o.otp.svn o.lc = 0 then .starting else .loader

/-- The command of the admin queue finds a signed command whose bytes are all there, alone among the started (R365). -/
abbrev Chip.signedIs (c : Chip) (q : Nat) (e : Entry) : Prop :=
  c.isReady ∧ c.pwr.st = 1 ∧ (c.queue q).started = [e] ∧ signedHere e = true

/-- The oldest signed command of a queue whose bytes are all there is entry i, with the bytes b (R411). -/
abbrev Chip.signedAt (c : Chip) (q i : Nat) (b : List Byte) : Prop :=
  c.isReady ∧ c.pwr.st = 1 ∧ (c.queue q).started.findIdx? signedHere = some i ∧
  b = (((c.queue q).started[i]?).map (·.got)).getD []

/-- The signed command has completed with a status: its entry has left the queue. -/
abbrev Chip.signedEnds (o c : Chip) (q status detail : Nat) : Prop :=
  (c.queue q).started = [] ∧ (c.queue q).cqTail = ((o.queue q).cqTail + 1) % 65536 ∧
  fld 15 8 (c.le (o.cplAt q) 4) = status ∧ c.le (o.cplAt q + 16) 4 = detail

end Sys2Proof.Machine
end

