-- ==== Sys2Proof/Certificates/Slice0/Obligations.lean ====
section
/-! DEFINITION. The statements for the provers. -/

open Sys2Proof Sys2Proof.Machine


/-! ## The block as a whole -/

/-- A step takes the command at the front of the queue and answers exec of it on the module with the queue's rest;
with no command waiting the module idles (the model's choice, log 10). -/
def Obligations.FrontOfQueue : Prop :=
  (∀ (i : Instr) (l : List Instr) (k : Chip),
    step { pending := i :: l, chip := k } = exec i { pending := l, chip := k }) ∧
  (∀ (s : State),
    s.pending = [] →
    step s = .next s)

/-- No command ends in a fault or a refusal, and none touches the commands that wait behind it: a command whose own
condition does not hold has no effect (the model's reading, log 2). -/
def Obligations.EveryCommandAnswers : Prop :=
  ∀ (i : Instr) (s : State),
    ∃ t, exec i s = .next t ∧ t.pending = s.pending

/-- Before power-on the module is off: no command waits, memory and lower tiers hold nothing, every register reads its
reset value, no core runs, slots, rings, collectives and loans are free, ports are OFF, the cadence unit is UNSYNC at
beat 0, no session stands, and no fuse is burned (erased flash and OTP: the model's choice, log 7). -/
def Obligations.ResetState : Prop :=
  State.reset.pending = [] ∧ State.reset.chip.phase = .off ∧ State.reset.chip.mem = [] ∧ State.reset.chip.lower = [] ∧
    (∀ a r, a < windowSize → regRow a = some r → State.reset.chip.rg a = r.reset % 2 ^ 32) ∧ (∀ n, (State.reset.chip.core n).st = 0) ∧ (∀ n, (State.reset.chip.slot n).st = 0) ∧
    (∀ n, (State.reset.chip.ring n).st = 0) ∧ (∀ n, (State.reset.chip.coll n).st = 0) ∧ (∀ n, (State.reset.chip.loan n).st = 0) ∧
    (∀ p, (State.reset.chip.link p).st = 0) ∧ State.reset.chip.cad.st = 0 ∧ State.reset.chip.beat = 0 ∧ State.reset.chip.mbp.sess = 0 ∧
    State.reset.chip.otp.retire = false ∧ State.reset.chip.otp.prov = false

/-- State.reset has its tables in canonical form and an empty queue; with the RETIRE fuse burned beside it, the module
is dead in the sense of the invariant RetiredStays. -/
def Obligations.ResetInvariant : Prop :=
  State.reset.chip.canonical = true ∧ State.reset.queueOk = true ∧
    ({ State.reset.chip with otp := { State.reset.chip.otp with retire := true } } : Chip).dead

/-- Storing a list of bytes at an address puts them there and leaves every other byte; a stored little-endian number
of n bytes reads back modulo 2 to the 8n; the canonical form is kept (the list of cells is the model's own form, log
4). -/
def Obligations.MemoryStores : Prop :=
  (∀ (k : Chip) (a : Nat) (l : List Byte) (x : Nat),
    (k.store a l).byteAt x = (if a ≤ x ∧ x < a + l.length then l.getD (x - a) 0#8 else k.byteAt x)) ∧
  (∀ (k : Chip) (a n v : Nat),
    (k.storeLe a n v).le a n = v % 2 ^ (8 * n)) ∧
  (∀ (k : Chip) (a : Nat) (l : List Byte),
    Tab.wf (fun _ => 0#8) k.mem = true →
    Tab.wf (fun _ => 0#8) (k.store a l).mem = true)

/-- While the module is off, every command but POWER_ON leaves the whole state as it is. -/
def Obligations.OffModule : Prop :=
  ∀ (i : Instr) (s : State),
    s.chip.phase = .off →
    ∀ v, i ≠ .powerOn v →
    exec i s = .next s

/-- A retired module after its wipe is off or in die reset, its peer ports OFF, and no step changes that: whatever
command stands at the front of the queue, the RETIRE fuse stays burned, the module never starts, and its peer ports
stay OFF (R416). -/
def Obligations.RetiredStays : Prop :=
  (∀ (s t : State),
    s.chip.dead →
    step s = .next t →
    t.chip.dead) ∧
  (∀ (s : State) (v : Nat),
    s.chip.otp.retire = true →
    s.chip.phase = .off →
    6000 ≤ v →
    Does (.powerOn v) s (fun c =>
      c.phase = .retired ∧ (∀ p < 6, (c.link p).st = 0) ∧ c.lc = 4))


/-! ## The register window -/

/-- A register access that is not an aligned 32-bit one, read or write, completes with an access error and changes no
register (R5); one to an unmapped page does too and is logged as a CE of the control link, and a reserved offset of a
mapped page ignores a write (R346, R7). -/
def Obligations.AccessErrors : Prop :=
  (∀ (s : State) (a size : Nat) (cn mp : Option W32),
    s.chip.isOn →
    a % 4 ≠ 0 ∨ size ≠ 4 →
    cn ≠ none ∨ mp ≠ none →
    Does (.registerWrite a size cn mp) s (fun c =>
      c = { s.chip with answer := { error := true } })) ∧
  (∀ (s : State) (a : Nat) (v : W32),
    s.chip.isOn →
    a % 4 ≠ 0 →
    Does (.pairHighWrite a v) s (fun c =>
      c = { s.chip with answer := { error := true } })) ∧
  (∀ (s : State) (a : Nat),
    s.chip.isOn →
    a % 4 ≠ 0 →
    Does (.pairLowRead a) s (fun c =>
      c = { s.chip with answer := { error := true } })) ∧
  (∀ (s : State) (a : Nat) (v : W32),
    s.chip.isOn →
    a % 4 = 0 →
    pageBlk (a / 0x1000) = none →
    Does (.registerWrite a 4 (some v) none) s (fun c =>
      c.answer.error = true ∧ ({ s.chip with answer := c.answer } : Chip).logs c pgMbp 0 9)) ∧
  (∀ (s : State) (a : Nat) (v : W32),
    s.chip.isOn →
    a % 4 = 0 →
    pageBlk (a / 0x1000) ≠ none →
    regRow a = none →
    Does (.registerWrite a 4 none (some v)) s (fun c =>
      c = { s.chip with answer := {} })) ∧
  (∀ (k : Chip) (a : Nat),
    a % 4 = 0 →
    a < windowSize →
    pageBlk (a / 0x1000) ≠ none →
    regRow a = none →
    readReg a k = { k with answer := {} })

/-- Two writes to one register in one core cycle are the control node's write followed by the management processor's
(R9): wherever the first leaves the module on, the pair acts as the second after the first. -/
def Obligations.WriteOrder : Prop :=
  ∀ (s t : State) (a size : Nat) (v w : W32),
    s.chip.isOn →
    exec (.registerWrite a size (some v) none) s = .next t →
    t.chip.isOn →
    exec (.registerWrite a size (some v) (some w)) s = exec (.registerWrite a size none (some w)) t

/-- REGISTER_WRITE stores into a register: for the sequencer registers SQ0 to SQ31 of a core whose list is not
running, the management processor's word wins over the control node's of the same core cycle (R6, R9, R97), and no
other register, no memory and no core changes; while the list runs the write changes nothing. -/
def Obligations.RegisterWriteStores : Prop :=
  (∀ (s : State) (n : CoreId) (i : Nat) (cn mp : Option W32),
    s.chip.isOn →
    i < 32 →
    (s.chip.core n).st = 0 ∨ (s.chip.core n).st = 4 →
    Does (.registerWrite (coreReg n (0x140 + 4 * i)) 4 cn mp) s (fun c =>
      c.rg (coreReg n (0x140 + 4 * i)) = (mp.getD (cn.getD (BitVec.ofNat 32 (s.chip.rg (coreReg n (0x140 + 4 * i)))))).toNat ∧
      (∀ a, a ≠ coreReg n (0x140 + 4 * i) → c.rg a = s.chip.rg a) ∧ c.mem = s.chip.mem ∧ c.core n = s.chip.core n)) ∧
  (∀ (s : State) (n : CoreId) (i : Nat) (v : W32),
    s.chip.isOn →
    i < 32 →
    (s.chip.core n).st ≠ 0 →
    (s.chip.core n).st ≠ 4 →
    Does (.registerWrite (coreReg n (0x140 + 4 * i)) 4 (some v) none) s (fun c =>
      c = { s.chip with answer := {} }))

/-- PAIR_LOW_READ gives the low half and latches the high half: whatever the module does meanwhile to the registers'
views, the next read of the high half gives the value of that moment. PAIR_HIGH_WRITE applies the staged low half and
the new high half together, shown for the launch beat of a core; with nothing staged it applies the current low half
(R8). -/
def Obligations.RegisterPairs : Prop :=
  (∀ (s : State) (a : Nat) (r r' : RegRow),
    s.chip.isOn →
    a % 4 = 0 →
    a + 4 < windowSize →
    regRow a = some r →
    r.pair = 1 →
    regRow (a + 4) = some r' →
    r'.pair = 2 →
    Does (.pairLowRead a) s (fun c =>
      c.answer.value = BitVec.ofNat 32 (regValue s.chip a) ∧ c.regs = s.chip.regs ∧ c.mem = s.chip.mem ∧
      ∀ k : Chip, k.pairLatch = c.pairLatch → k.regs = c.regs →
        (readReg (a + 4) k).answer.value = BitVec.ofNat 32 (regValue s.chip (a + 4)))) ∧
  (∀ (s : State) (n : CoreId) (lo v : W32),
    s.chip.isOn →
    Tab.get (fun _ => none) s.chip.pairStage (coreReg n 0x110) = some lo →
    Does (.pairHighWrite (coreReg n 0x114) v) s (fun c =>
      c.rg64 (coreReg n 0x110) = lo.toNat + 2 ^ 32 * (v.toNat % 2 ^ 22) ∧
      (∀ a, a ≠ coreReg n 0x110 → a ≠ coreReg n 0x114 → c.rg a = s.chip.rg a) ∧ c.mem = s.chip.mem)) ∧
  (∀ (s : State) (n : CoreId) (v : W32),
    s.chip.isOn →
    Tab.get (fun _ => none) s.chip.pairStage (coreReg n 0x110) = none →
    Does (.pairHighWrite (coreReg n 0x114) v) s (fun c =>
      c.rg64 (coreReg n 0x110) = s.chip.rg (coreReg n 0x110) + 2 ^ 32 * (v.toNat % 2 ^ 22)))

/-- WORK_MAP_APPLY with no ring context RUNNING takes each pending change of the map that a beat boundary has
followed, and with one RUNNING leaves the map to the next step start (R16). SOFT_RESET of a CORE, CLUS or PWU page,
outside drydown, returns its running state to reset values and keeps what R459 keeps; on any other page, or on a page
gated in drydown, it is ignored with a CE cause 31 (R348, R390). WIPE_REQ on such a page with ENABLE clear sets BUSY,
and WIPE_DONE zeroes exactly the page's data SRAM and sets WIPED; with ENABLE set or on another page it is ignored
with a CE (R348). BLOCK_ENABLE writes ENABLE of any page, clears WIPED when it sets it, and asks a core into or out of
the map (R348, R16). BLK_LOCK sets LOCK of any page (R347). -/
def Obligations.BlockControl : Prop :=
  (∀ (s : State),
    s.chip.isReady →
    ∀ r < 32, (s.chip.ring r).st ≠ 3 →
    Does (.workMapApply) s (fun c =>
      (∀ n < 192, c.core n = { s.chip.core n with mapApp := if (s.chip.core n).mapAt < s.chip.beat then (s.chip.core n).mapPend else (s.chip.core n).mapApp }) ∧
      c = { s.chip with cores := c.cores })) ∧
  (∀ (s : State) (r : Nat),
    s.chip.isReady →
    r < 32 →
    (s.chip.ring r).st = 3 →
    Does (.workMapApply) s (fun c =>
      c = s.chip)) ∧
  (∀ (s : State) (n : CoreId),
    s.chip.isOn →
    s.chip.pwr.st ≠ 3 →
    s.chip.pwr.st ≠ 4 →
    Does (.softReset (corePage n)) s (fun c =>
      (c.core n).st = 0 ∧ (c.core n).fault = 0 ∧ (c.core n).pc = 0 ∧ (c.core n).loops = [] ∧ (c.core n).flags = 0 ∧ (c.core n).cplHead = 0 ∧ (c.core n).cplLost = 0 ∧
      (c.core n).lease = none ∧ (c.core n).retiring = [] ∧ (c.core n).blocked = .none ∧ (c.core n).runs = [] ∧ (c.core n).pending = none ∧ (c.core n).car = none ∧
      (c.core n).acc = (s.chip.core n).acc ∧ (c.core n).mapApp = (s.chip.core n).mapApp ∧ (c.core n).mapPend = (s.chip.core n).mapPend ∧
      (∀ l ∈ (s.chip.core n).leases, l.expired = false → (s.chip.ctr (n / 8) l.wc).armed = true → (s.chip.ctr (n / 8) l.wc).done = false →
        (s.chip.ctr (n / 8) l.wc).armOrd = l.ord → l.value ∈ (c.ctr (n / 8) l.wc).reissue) ∧
      c.regs = s.chip.regs ∧ c.mem = s.chip.mem ∧ ∀ m, m ≠ n → c.core m = s.chip.core m)) ∧
  (∀ (s : State) (cl : ClusterId),
    s.chip.isOn →
    s.chip.pwr.st ≠ 3 →
    s.chip.pwr.st ≠ 4 →
    Does (.softReset (clusPage cl)) s (fun c =>
      (∀ i < 64, c.rg (flagReg cl i) = 0 ∧ c.ctr cl i = {}) ∧ (∀ i < 8, (c.core (8 * cl + i)).fill = [] ∧ (c.core (8 * cl + i)).writeback = [] ∧
        ∀ l ∈ (c.core (8 * cl + i)).leases, l.wc < 64 → l.expired = true) ∧
      (∀ a, (∀ i < 64, a ≠ flagReg cl i) → c.rg a = s.chip.rg a) ∧ (c.clus cl).sfu = (s.chip.clus cl).sfu ∧ (∀ k, k ≠ cl.val → c.clus k = s.chip.clus k) ∧ c.mem = s.chip.mem)) ∧
  (∀ (s : State) (p : PageId) (n : ClusterId),
    s.chip.isOn →
    s.chip.pwr.st ≠ 3 →
    s.chip.pwr.st ≠ 4 →
    p.val = pgPwu n →
    Does (.softReset p) s (fun c =>
      (∀ i < 8, (c.core (8 * n + i)).runs = (s.chip.core (8 * n + i)).runs.filter (fun r => r.walk.isNone || r.ended)) ∧ c.pwus = s.chip.pwus ∧ c.regs = s.chip.regs ∧ c.mem = s.chip.mem ∧
      ∀ m, (∀ i < 8, m ≠ 8 * n.val + i) → c.core m = s.chip.core m)) ∧
  (∀ (s : State) (p : PageId) (b : Blk) (p0 : Nat),
    s.chip.isOn →
    pageBlk p = some (b, p0) →
    b ≠ .rt →
    (b ≠ .core ∧ b ≠ .clus ∧ b ≠ .pwu) ∨ isGated s.chip b = true →
    Does (.softReset p) s (fun c =>
      s.chip.logs c p 0 31)) ∧
  (∀ (s : State) (p : PageId) (b : Blk) (p0 : Nat),
    s.chip.isOn →
    pageBlk p = some (b, p0) →
    b = .core ∨ b = .clus ∨ b = .pwu →
    isGated s.chip b = false →
    s.chip.enabled p = false →
    Does (.wipeReq p) s (fun c =>
      p.val ∈ c.busy ∧ c = { s.chip with busy := c.busy, wiped := s.chip.wiped.erase p })) ∧
  (∀ (s : State) (p : PageId) (b : Blk) (p0 : Nat),
    s.chip.isOn →
    pageBlk p = some (b, p0) →
    b ≠ .rt →
    (b ≠ .core ∧ b ≠ .clus ∧ b ≠ .pwu) ∨ isGated s.chip b = true ∨ s.chip.enabled p = true →
    Does (.wipeReq p) s (fun c =>
      s.chip.logs c p 0 31)) ∧
  (∀ (s : State) (n : CoreId),
    s.chip.isOn →
    pgCore n ∈ s.chip.busy →
    Memory.wf s.chip.mem →
    Does (.wipeDone (corePage n)) s (fun c =>
      pgCore n ∈ c.wiped ∧ (c.core n).acc = [] ∧ (∀ a, padBase n ≤ a → a < padBase n + 0x200000 → c.byteAt a = 0#8) ∧
      (∀ a, a < padBase n ∨ padBase n + 0x200000 ≤ a → c.byteAt a = s.chip.byteAt a) ∧ c.regs = s.chip.regs ∧ c.busy = s.chip.busy.erase (pgCore n))) ∧
  (∀ (s : State) (n : ClusterId),
    s.chip.isOn →
    pgClus n ∈ s.chip.busy →
    Memory.wf s.chip.mem →
    Does (.wipeDone (clusPage n)) s (fun c =>
      pgClus n ∈ c.wiped ∧ (∀ a, cacheBase n ≤ a → a < cacheBase n + 0x800000 → c.byteAt a = 0#8) ∧
      (∀ a, a < cacheBase n ∨ cacheBase n + 0x800000 ≤ a → c.byteAt a = s.chip.byteAt a) ∧ c.regs = s.chip.regs ∧ c.clusters = s.chip.clusters ∧ c.busy = s.chip.busy.erase (pgClus n))) ∧
  (∀ (s : State) (p : PageId) (n : ClusterId),
    s.chip.isOn →
    p.val = pgPwu n →
    p.val ∈ s.chip.busy →
    Does (.wipeDone p) s (fun c =>
      p.val ∈ c.wiped ∧ c = { s.chip with busy := s.chip.busy.erase p, wiped := c.wiped })) ∧
  (∀ (s : State) (n : CoreId) (on : Bool),
    s.chip.isOn →
    s.chip.enabled (pgCore n) ≠ on →
    Does (.blockEnable (corePage n) on) s (fun c =>
      c.enabled (pgCore n) = on ∧ (∀ a, a ≠ coreReg n 8 → c.rg a = s.chip.rg a) ∧ (c.core n).mapPend = (on && !(s.chip.core n).failed && !(s.chip.core n).inTest) ∧ (c.core n).mapApp = (s.chip.core n).mapApp ∧
      (∀ m, m ≠ n → c.core m = s.chip.core m) ∧ c.mem = s.chip.mem ∧ c.wiped = if on = true then s.chip.wiped.erase (pgCore n) else s.chip.wiped)) ∧
  (∀ (s : State) (p : PageId) (b : Blk) (p0 : Nat) (on : Bool),
    s.chip.isOn →
    pageBlk p = some (b, p0) →
    b ≠ .rt →
    b ≠ .core →
    b ≠ .port →
    s.chip.enabled p ≠ on →
    Does (.blockEnable p on) s (fun c =>
      c.enabled p = on ∧ (∀ a, a ≠ ra p 8 → c.rg a = s.chip.rg a) ∧ c = { s.chip with regs := c.regs, wiped := if on = true then s.chip.wiped.erase p else s.chip.wiped })) ∧
  (∀ (s : State) (p : PageId) (b : Blk) (p0 : Nat),
    s.chip.isOn →
    pageBlk p = some (b, p0) →
    b ≠ .rt →
    Does (.blkLock p) s (fun c =>
      c = s.chip.setRg (ra p 0x2C) 1))

/-- ERR_INJ with GO, in PROVISIONED or SERVICE, on any page whose block honours it and that drydown does not gate, for
a CLASS 0 to 3 and a cause of the block: a CE or DE is logged as one found by the block and nothing else happens; a UC
sets its class and cause, and where the block serves an item that item ends (shown for a core's running TOD: it ends
POISON); an FE also sheds compute. Anything else is ignored with a CE cause 31 (R349, R421, R428, R457). -/
def Obligations.ErrorInjection : Prop :=
  (∀ (s : State) (p : PageId) (b : Blk) (p0 k cls : Nat),
    s.chip.isOn →
    pageBlk p = some (b, p0) →
    s.chip.lc = 1 ∨ s.chip.lc = 3 →
    isGated s.chip b = false →
    k ∈ blkCauses b →
    cls < 2 →
    Does (.errInj p (BitVec.ofNat 32 (cls + 2 ^ 8 * k + 2 ^ 16))) s (fun c =>
      s.chip.logs c p cls k)) ∧
  (∀ (s : State) (p : PageId) (b : Blk) (p0 k : Nat),
    s.chip.isOn →
    pageBlk p = some (b, p0) →
    s.chip.lc = 1 ∨ s.chip.lc = 3 →
    isGated s.chip b = false →
    k ∈ blkCauses b →
    served s.chip b (p - p0) (ucScope b k) = .none →
    Does (.errInj p (BitVec.ofNat 32 (2 + 2 ^ 8 * k + 2 ^ 16))) s (fun c =>
      c.hasErr p 2 k = true ∧ c.mem = s.chip.mem ∧ (bit 1 (s.chip.rg (ra p 0x10)) = false → bit 2 (s.chip.rg (ra p 0x10)) = false → c.cores = s.chip.cores))) ∧
  (∀ (s : State) (n : CoreId) (r : TodRun) (l : List TodRun) (k : Nat),
    s.chip.isOn →
    s.chip.pwr.st ≠ 3 →
    s.chip.pwr.st ≠ 4 →
    s.chip.lc = 1 ∨ s.chip.lc = 3 →
    k ∈ blkCauses .core →
    1 ≤ (s.chip.core n).st →
    (s.chip.core n).st ≤ 3 →
    (s.chip.core n).runs = r :: l →
    r.begun = true →
    r.ended = false →
    s.chip.rg (coreReg n 0x10) = 0 →
    Does (.errInj (corePage n) (BitVec.ofNat 32 (2 + 2 ^ 8 * k + 2 ^ 16))) s (fun c =>
      c.hasErr (pgCore n) 2 k = true ∧ ∃ x : TodRun, (c.core n).runs = x :: l ∧ x.ended = true ∧ x.status = 0x18 ∧ x.tod = r.tod)) ∧
  (∀ (s : State) (p : PageId) (b : Blk) (p0 k : Nat),
    s.chip.isOn →
    pageBlk p = some (b, p0) →
    s.chip.lc = 1 ∨ s.chip.lc = 3 →
    isGated s.chip b = false →
    k ∈ blkCauses b →
    Does (.errInj p (BitVec.ofNat 32 (3 + 2 ^ 8 * k + 2 ^ 16))) s (fun c =>
      c.hasErr p 3 k = true ∧ c.pwr.shed = true ∧ (∀ n < 192, (c.core n).st = 0 ∧ (c.core n).runs = []) ∧ c.mem = s.chip.mem)) ∧
  (∀ (s : State) (p : PageId) (b : Blk) (p0 : Nat) (v : W32),
    s.chip.isOn →
    pageBlk p = some (b, p0) →
    b ≠ .rt →
    bit 16 v.toNat = true →
    (s.chip.lc ≠ 1 ∧ s.chip.lc ≠ 3) ∨ 3 < fld 3 0 v.toNat ∨ fld 12 8 v.toNat ∉ blkCauses b ∨ isGated s.chip b = true →
    Does (.errInj p v) s (fun c =>
      s.chip.logs c p 0 31)) ∧
  (∀ (s : State) (p : PageId) (v : W32),
    s.chip.isOn →
    pageBlk p ≠ none →
    v.toNat / 2 ^ 16 % 2 = 0 →
    Does (.errInj p v) s (fun c =>
      c = s.chip))


/-! ## Cores, sequencer, leases, tables -/

/-- TOD_ISSUE takes the TOD at the list's entry, whatever its opcode MATMUL, VECTOR or ATTN (R68, R73). One that
passes the checks of stages 1 to 4 waits for its holds with its words and parameter block as read; one that fails ends
with the status, FAULT_OFS and FAULT_VAL of its first failing check, and the list keeps running until its record. A
set reserved bit of word 0 is the first decode check: status 0x10 at offset 0. -/
def Obligations.TodIssue : Prop :=
  (∀ (s : State) (n : CoreId) (t : List Nat),
    s.chip.atEntry n t →
    isTodOp (tOp t) = true →
    issueFault s.chip n t (readPar s.chip n t) = none →
    Does (.todIssue n) s (fun c =>
      c = s.chip.setCore n { s.chip.core n with
        st := 3, runs := (s.chip.core n).runs ++ [{ tod := t, par := readPar s.chip n t, issueNow := s.chip.cad.now }] })) ∧
  (∀ (s : State) (n : CoreId) (t : List Nat) (st ofs val : Nat),
    s.chip.atEntry n t →
    isTodOp (tOp t) = true →
    issueFault s.chip n t (readPar s.chip n t) = some (st, ofs, val) →
    Does (.todIssue n) s (fun c =>
      ∃ r : TodRun, r.ended = true ∧ r.status = st ∧ r.faultOfs = ofs ∧ r.faultVal = val ∧ r.tod = t ∧
      c = s.chip.setCore n { s.chip.core n with pred := none, runs := (s.chip.core n).runs ++ [r] })) ∧
  (∀ (s : State) (n : CoreId) (t : List Nat),
    s.chip.atEntry n t →
    isTodOp (tOp t) = true →
    s.chip.poison = [] →
    wd t 0 / 2 ^ 30 % 4 ≠ 0 →
    Does (.todIssue n) s (fun c =>
      ∃ r : TodRun, r.ended = true ∧ r.status = 0x10 ∧ r.faultOfs = 0 ∧ r.faultVal = wd t 0 ∧
      c = s.chip.setCore n { s.chip.core n with pred := none, runs := (s.chip.core n).runs ++ [r] }))

/-- TOD_HOLD_RELEASE of the last TOD of a waiting core, when no hold is in force (R74, R79): with bounds that lie
within their maxima and sound row-statistic buffers and scale-plan entry the TOD begins with the bounds read and the
list goes on (R73, R101); with a bound of 0 it has ended DONE_EMPTY (R76). A bound above its maximum ends the TOD with
BOUND_FAULT, a buffer or scale-plan entry that is not sound with the status of its check. -/
def Obligations.TodBegins : Prop :=
  (∀ (s : State) (n : CoreId) (l : List TodRun) (r : TodRun),
    s.chip.isPowered →
    (s.chip.core n).st = 3 →
    (s.chip.core n).runs = l ++ [r] →
    r.begun = false →
    r.ended = false →
    held s.chip n r = false →
    boundBad s.chip n r.tod = none →
    bufferBad s.chip n r.tod r.par = none →
    Does (.todHoldRelease n) s (fun c =>
      s.chip.goesOn c n ∧ (∃ x : TodRun, x.begun = true ∧ x.tod = r.tod ∧ x.mb = boundVal s.chip n r.tod 0 ∧ x.nb = boundVal s.chip n r.tod 1 ∧
        x.kb = boundVal s.chip n r.tod 2 ∧ x.issueNow = s.chip.cad.now ∧ x.lease = (s.chip.core n).lease ∧ (x.mb = 0 → x.ended = true ∧ x.status = 1) ∧
        (c.core n).runs = l ++ [x]) ∧ (∀ m, m ≠ n → c.core m = s.chip.core m))) ∧
  (∀ (s : State) (n : CoreId) (l : List TodRun) (r : TodRun) (st ofs val : Nat),
    s.chip.isPowered →
    (s.chip.core n).st = 3 →
    (s.chip.core n).runs = l ++ [r] →
    r.begun = false →
    r.ended = false →
    held s.chip n r = false →
    boundBad s.chip n r.tod = some (st, ofs, val) →
    Does (.todHoldRelease n) s (fun c =>
      ∃ x : TodRun, x.ended = true ∧ x.status = st ∧ x.faultOfs = ofs ∧ x.faultVal = val ∧
      c = s.chip.setCore n { s.chip.core n with st := 1, pred := none, runs := l ++ [x] })) ∧
  (∀ (s : State) (n : CoreId) (l : List TodRun) (r : TodRun) (st ofs val : Nat),
    s.chip.isPowered →
    (s.chip.core n).st = 3 →
    (s.chip.core n).runs = l ++ [r] →
    r.begun = false →
    r.ended = false →
    held s.chip n r = false →
    boundBad s.chip n r.tod = none →
    bufferBad s.chip n r.tod r.par = some (st, ofs, val) →
    Does (.todHoldRelease n) s (fun c =>
      ∃ x : TodRun, x.ended = true ∧ x.status = st ∧ x.faultOfs = ofs ∧ x.faultVal = val ∧
      c = s.chip.setCore n { s.chip.core n with st := 1, pred := none, runs := l ++ [x] }))

/-- META_FAULT and TOD_POISON end the TOD that drains with their status, whatever runs before it await their records:
a sparsity code 6 or 7 in a checked group of the next B tile gives META_FAULT at offset 0x4C (R65); a poisoned word
among the bytes that the next tile loads gives POISON (R77), and so does one that a walk reads (R172, R188). For the
first two no byte of memory and no register changes. -/
def Obligations.TodFaults : Prop :=
  (∀ (s : State) (n : CoreId) (a : List TodRun) (r : TodRun) (l : List TodRun) (v cc : Nat),
    s.chip.drains n a r l →
    r.walk = none →
    metaHit s.chip n r = some (v, cc) →
    Does (.metaFault n) s (fun c =>
      (c.core n).runs = a ++ { r with ended := true, status := 0x15, faultOfs := 0x4C, faultVal := v, arrayCc := cc } :: l ∧ c.mem = s.chip.mem ∧ c.regs = s.chip.regs ∧ ∀ m, m ≠ n → c.core m = s.chip.core m)) ∧
  (∀ (s : State) (n : CoreId) (a : List TodRun) (r : TodRun) (l : List TodRun) (o v : Nat),
    s.chip.drains n a r l →
    tilePoison s.chip n r = some (o, v) →
    Does (.todPoison n) s (fun c =>
      (c.core n).runs = a ++ { r with ended := true, status := 0x18, faultOfs := o, faultVal := v, arrayCc := doneCc r r.tiles 0 } :: l ∧ c.mem = s.chip.mem ∧ c.regs = s.chip.regs ∧ ∀ m, m ≠ n → c.core m = s.chip.core m)) ∧
  (∀ (s : State) (n : CoreId) (a : List TodRun) (r : TodRun) (l : List TodRun) (o v : Nat) (f : Option (Nat × Nat)) (u : Bool) (w : WalkAcc),
    s.chip.drains n a r l →
    tilePoison s.chip n r = none →
    walkStop s.chip n r = some (.poison o v f u, w) →
    Does (.todPoison n) s (fun c =>
      (c.core n).runs = a ++ { r with ended := true, status := 0x18, faultOfs := o, faultVal := v } :: l ∧ ∀ m, m ≠ n → c.core m = s.chip.core m))

/-- OUTPUT_TILE_DRAIN of the run that drains, with sound loads (R80): a MATMUL or VECTOR run of any output space
counts one more tile and ends with the last, its status unchanged; with OUT in the scratchpad or the cluster cache
every byte outside the rows and scales that the tile stores stays, and so do all registers; with OUT in another space
nothing is written before the last tile. An ATTN walk that meets no error, and a PMERGE whose blocks join, end with
their one tile (R182 to R184). -/
def Obligations.TileDrain : Prop :=
  (∀ (s : State) (n : CoreId) (a : List TodRun) (r : TodRun) (l : List TodRun),
    s.chip.drains n a r l →
    tNoDrain r.tod = false →
    tilePoison s.chip n r = none →
    metaHit s.chip n r = none →
    isAttn r.tod = false →
    isMatmul r.tod = true → tAcc r.tod = 1 → a = [] →
    Does (.outputTileDrain n) s (fun c =>
      (∃ x : TodRun, (c.core n).runs = a ++ x :: l ∧ x.tiles = r.tiles + 1 ∧ x.ended = decide (r.nb ≤ (tileCols r).2) ∧ x.status = r.status ∧ x.tod = r.tod ∧ x.mb = r.mb ∧ x.nb = r.nb) ∧
      (∀ m, m ≠ n → c.core m = s.chip.core m) ∧ (awSpace (tOut r.tod) < 2 → c.regs = s.chip.regs ∧ ((∀ x ∈ r.vals, x.length ≤ 64 * r.tiles) → ∀ q, ¬ tileStores n r q → c.byteAt q = s.chip.byteAt q)) ∧
      (2 ≤ awSpace (tOut r.tod) → (tileCols r).2 < r.nb → c = s.chip.setCore n (c.core n)))) ∧
  (∀ (s : State) (n : CoreId) (a : List TodRun) (r : TodRun) (l : List TodRun),
    s.chip.drains n a r l →
    tNoDrain r.tod = false →
    tilePoison s.chip n r = none →
    metaHit s.chip n r = none →
    isAttn r.tod = true →
    aPmerge r.tod = false →
    (attnWork s.chip n r).1.bad = none →
    Does (.outputTileDrain n) s (fun c =>
      ∃ x : TodRun, (c.core n).runs = a ++ x :: l ∧ x.ended = true ∧ x.status = r.status ∧ x.tod = r.tod ∧ (∀ m, m ≠ n → c.core m = s.chip.core m))) ∧
  (∀ (s : State) (n : CoreId) (a : List TodRun) (r : TodRun) (l : List TodRun) (hd : Nat × Nat) (rows : List RowSt),
    s.chip.drains n a r l →
    tNoDrain r.tod = false →
    tilePoison s.chip n r = none →
    metaHit s.chip n r = none →
    isAttn r.tod = true →
    aPmerge r.tod = true →
    pmerge (runBank s.chip n r) r.mb (tN r.tod) r.kb (fun i => (List.range (64 + r.mb * (32 + 4 * tN r.tod))).map (fun o => BitVec.ofNat 8 (runMem s.chip n r (tA r.tod) (i * tALd r.tod + o)))) = some (hd, rows) →
    Does (.outputTileDrain n) s (fun c =>
      ∃ x : TodRun, (c.core n).runs = a ++ x :: l ∧ x.ended = true ∧ x.status = r.status ∧ x.tiles = 1 ∧ c.regs = s.chip.regs ∧ (∀ m, m ≠ n → c.core m = s.chip.core m)))

/-- COMPLETION_RECORD of the oldest run, once it has ended, or a NO_DRAIN run once its loads are sound (R91): the
record goes to the next completion slot, with TAG in its first word and the status in the low byte of its second,
STALE in place of a completed status when the lease is no longer current (R111); CPL_HEAD advances; the list goes on,
and one that STOP ended becomes IDLE with its last record (R98); a status of 16 or above faults the list with it, and
a step launch that waits then follows (R260). -/
def Obligations.CompletionRecord : Prop :=
  (∀ (s : State) (n : CoreId) (r : TodRun) (l : List TodRun) (a : Nat),
    s.chip.isPowered →
    (s.chip.core n).runs = r :: l →
    (s.chip.core n).st ≠ 0 →
    (s.chip.core n).st ≠ 4 →
    r.ended = true →
    r.status < 16 →
    awFits (s.chip.rg (coreReg n 0x118)) (384 * ((s.chip.core n).cplHead % max 1 (s.chip.rg (coreReg n 0x11C))) + 384) = true →
    a = awAddr n [] (s.chip.rg (coreReg n 0x118)) (384 * ((s.chip.core n).cplHead % max 1 (s.chip.rg (coreReg n 0x11C)))) →
    Does (.completionRecord n) s (fun c =>
      c.thenLaunch n (fun k => k.le a 4 = tTag r.tod % 2 ^ 32 ∧ k.le (a + 4) 1 = (if r.status < 2 ∧ leaseLive s.chip n r = false then 2 else r.status) ∧
      (k.core n).cplHead = ((s.chip.core n).cplHead + 1) % 65536 ∧ (k.core n).runs = l ∧
      (k.core n).st = (if (s.chip.core n).stopping = true ∧ l = [] then 0 else (s.chip.core n).st)))) ∧
  (∀ (s : State) (n : CoreId) (r : TodRun) (l : List TodRun) (a : Nat),
    s.chip.isPowered →
    (s.chip.core n).runs = r :: l →
    (s.chip.core n).st ≠ 0 →
    (s.chip.core n).st ≠ 4 →
    r.ended = false →
    r.begun = true →
    tNoDrain r.tod = true →
    tilePoison s.chip n r = none →
    metaHit s.chip n r = none →
    r.status = 0 →
    awFits (s.chip.rg (coreReg n 0x118)) (384 * ((s.chip.core n).cplHead % max 1 (s.chip.rg (coreReg n 0x11C))) + 384) = true →
    a = awAddr n [] (s.chip.rg (coreReg n 0x118)) (384 * ((s.chip.core n).cplHead % max 1 (s.chip.rg (coreReg n 0x11C)))) →
    Does (.completionRecord n) s (fun c =>
      c.thenLaunch n (fun k => k.le a 4 = tTag r.tod % 2 ^ 32 ∧ k.le (a + 4) 1 = (if leaseLive s.chip n r = false then 2 else 0) ∧
      (k.core n).cplHead = ((s.chip.core n).cplHead + 1) % 65536 ∧ (k.core n).runs = l ∧
      (k.core n).st = (if (s.chip.core n).stopping = true ∧ l = [] then 0 else (s.chip.core n).st)))) ∧
  (∀ (s : State) (n : CoreId) (r : TodRun) (l : List TodRun) (a : Nat),
    s.chip.isPowered →
    (s.chip.core n).runs = r :: l →
    r.ended = true →
    16 ≤ r.status →
    s.chip.rg (coreReg n 0x10) = 0 →
    awFits (s.chip.rg (coreReg n 0x118)) (384 * ((s.chip.core n).cplHead % max 1 (s.chip.rg (coreReg n 0x11C))) + 384) = true →
    a = awAddr n [] (s.chip.rg (coreReg n 0x118)) (384 * ((s.chip.core n).cplHead % max 1 (s.chip.rg (coreReg n 0x11C)))) →
    Does (.completionRecord n) s (fun c =>
      c.thenLaunch n (fun k => k.le a 4 = tTag r.tod % 2 ^ 32 ∧ k.le (a + 4) 1 = r.status % 256 ∧ (k.core n).cplHead = ((s.chip.core n).cplHead + 1) % 65536 ∧
      (k.core n).st = 4 ∧ (k.core n).fault = r.status ∧ k.hasErr (pgCore n) 2 10 = true)))

/-- LIST_START of an IDLE or FAULTED list with ENABLE set launches it: SQ0 to SQ31 are loaded from the launch block
and the sequencer starts at entry 0; list registers that fail a check fault with their code, 0x29 for a length of 0;
with AT_BEAT the launch is armed for START_BEAT, or for the next beat with a CE when that beat has passed; while a
list runs, or with ENABLE clear, the write is ignored with a CE cause 31. LIST_STOP drops what has not begun, and the
held lease expires. AT_BEAT_LAUNCH fires at START_BEAT. LIST_DONE at LIST_LEN with every record written retires the
held lease, goes IDLE and sets IRQ_STS bit 0 (R98), and a step launch that waits for the list's end then follows
(R260). -/
def Obligations.ListControl : Prop :=
  (∀ (s : State) (n : CoreId),
    s.chip.isPowered →
    (s.chip.core n).st = 0 ∨ (s.chip.core n).st = 4 →
    s.chip.enabled (pgCore n) = true →
    bit 2 (s.chip.rg (coreReg n 0x10C)) = false →
    launchBad s.chip n = none →
    Does (.listStart n) s (fun c =>
      (c.core n).st = 1 ∧ (c.core n).pc = 0 ∧ (c.core n).fault = 0 ∧ (c.core n).loops = [] ∧ (c.core n).flags = 0 ∧ (c.core n).cplHead = 0 ∧
      (c.core n).cplLost = 0 ∧ (c.core n).launched = s.chip.beat ∧ (c.core n).provSet = [] ∧ c.mem = s.chip.mem ∧
      ∀ i < 32, c.sq n i = rd4 (rdAw s.chip n (windows s.chip n) (s.chip.rg (coreReg n 0x108))) (4 * i) % 2 ^ 32)) ∧
  (∀ (s : State) (n : CoreId) (e : Nat),
    s.chip.isPowered →
    (s.chip.core n).pending = none →
    (s.chip.core n).st = 0 ∨ (s.chip.core n).st = 4 →
    s.chip.enabled (pgCore n) = true →
    bit 2 (s.chip.rg (coreReg n 0x10C)) = false →
    launchBad s.chip n = some e →
    s.chip.rg (coreReg n 0x10) = 0 →
    Does (.listStart n) s (fun c =>
      (s.chip.setCore n { s.chip.core n with st := 4, fault := e, blocked := .none, runs := (s.chip.core n).runs.filter (·.begun) }).logs c (pgCore n) 2 10 ∧
      (s.chip.listLen n = 0 → e = 0x29))) ∧
  (∀ (s : State) (n : CoreId),
    s.chip.isPowered →
    (s.chip.core n).st = 0 ∨ (s.chip.core n).st = 4 →
    s.chip.enabled (pgCore n) = true →
    bit 2 (s.chip.rg (coreReg n 0x10C)) = true →
    s.chip.beat < s.chip.rg64 (coreReg n 0x110) →
    Does (.listStart n) s (fun c =>
      c = s.chip.setCore n { s.chip.core n with st := 5, fault := 0, startAt := s.chip.rg64 (coreReg n 0x110), startLate := false })) ∧
  (∀ (s : State) (n : CoreId),
    s.chip.isPowered →
    (s.chip.core n).st = 0 ∨ (s.chip.core n).st = 4 →
    s.chip.enabled (pgCore n) = true →
    bit 2 (s.chip.rg (coreReg n 0x10C)) = true →
    s.chip.rg64 (coreReg n 0x110) ≤ s.chip.beat →
    Does (.listStart n) s (fun c =>
      (s.chip.setCore n { s.chip.core n with st := 5, fault := 0, startAt := s.chip.beat + 1, startLate := true }).logs c pgCad 0 12)) ∧
  (∀ (s : State) (n : CoreId),
    s.chip.isPowered →
    (s.chip.core n).pending = none →
    ((s.chip.core n).st ≠ 0 ∧ (s.chip.core n).st ≠ 4) ∨ s.chip.enabled (pgCore n) = false →
    Does (.listStart n) s (fun c =>
      s.chip.logs c (pgCore n) 0 31)) ∧
  (∀ (s : State) (n : CoreId),
    s.chip.isPowered →
    (s.chip.core n).st ≠ 0 →
    (s.chip.core n).st ≠ 4 →
    Does (.listStop n) s (fun c =>
      (c.core n).runs = (s.chip.core n).runs.filter (fun r => r.begun || r.ended) ∧ (c.core n).lease = none ∧ (c.core n).blocked = .none ∧ (c.core n).pc = (s.chip.core n).pc ∧
      (c.core n).pending = none ∧ ((c.core n).runs = [] → (c.core n).st = 0) ∧ c.mem = s.chip.mem ∧ c.regs = s.chip.regs ∧
      ∀ l, (s.chip.core n).lease = some l → l.expired = false → (s.chip.ctr (n / 8) l.wc).armed = true → (s.chip.ctr (n / 8) l.wc).done = false →
        (s.chip.ctr (n / 8) l.wc).armOrd = l.ord → l.value ∈ (c.ctr (n / 8) l.wc).reissue)) ∧
  (∀ (s : State) (n : CoreId),
    s.chip.isPowered →
    (s.chip.core n).st = 0 ∨ (s.chip.core n).st = 4 →
    (s.chip.core n).pending = none →
    Does (.listStop n) s (fun c =>
      c = s.chip)) ∧
  (∀ (s : State) (n : CoreId),
    s.chip.isPowered →
    (s.chip.core n).st = 5 →
    s.chip.cascadeDue (s.chip.core n).startAt = true →
    s.chip.enabled (pgCore n) = true →
    launchBad s.chip n = none →
    Does (.atBeatLaunch n) s (fun c =>
      (c.core n).st = 1 ∧ (c.core n).pc = 0 ∧ (c.core n).launched = s.chip.beat ∧ c.mem = s.chip.mem ∧
      ∀ i < 32, c.sq n i = rd4 (rdAw s.chip n (windows s.chip n) (s.chip.rg (coreReg n 0x108))) (4 * i) % 2 ^ 32)) ∧
  (∀ (s : State) (n : CoreId),
    s.chip.isPowered →
    (s.chip.core n).st = 1 →
    (s.chip.core n).stopping = false →
    s.chip.listLen n ≤ (s.chip.core n).pc →
    (s.chip.core n).runs = [] →
    Does (.listDone n) s (fun c =>
      c.thenLaunch n (fun k => (k.core n).st = 0 ∧ (k.core n).loops = [] ∧ (k.core n).lease = none ∧ bit 0 (k.rg (coreReg n 0x20)) = true ∧ k.mem = s.chip.mem ∧ (∀ m, m ≠ n → k.core m = s.chip.core m))))

/-- LOOP enters its body COUNT times, the count taken from the entry, a sequencer register or a scratchpad word, with
index 0 written when IDX_EN is set; a COUNT of 0 skips the body; a fifth nesting level or a body past the enclosing
one faults with 0x21. BRANCH_FLAG goes to TARGET when the flag equals SENSE and otherwise on, and a target outside the
innermost body or the list faults with 0x22; leaving the last entry of a body with iterations left returns to its
first entry with the index one higher (R100, R101). -/
def Obligations.LoopsAndBranches : Prop :=
  (∀ (s : State) (n : CoreId) (t : List Nat) (v : Nat),
    s.chip.atEntry n t →
    tOp t = 0x80 →
    restZero t 3 = true →
    wd t 1 / 2 ^ 26 % 64 = 0 →
    wd t 2 / 2 ^ 22 % 1024 = 0 →
    wd t 2 % 65536 ≠ 0 →
    (s.chip.core n).loops.length < 4 →
    (s.chip.core n).pc + wd t 2 % 65536 ≤ (match (s.chip.core n).loops with | f :: _ => f.last | [] => s.chip.listLen n - 1) →
    (fld 25 24 (wd t 1) = 0 ∧ v = fld 23 0 (wd t 1)) ∨ (fld 25 24 (wd t 1) = 1 ∧ fld 23 0 (wd t 1) < 32 ∧ v = s.chip.sq n (fld 23 0 (wd t 1))) ∨
      (fld 25 24 (wd t 1) = 2 ∧ 4 * fld 23 0 (wd t 1) + 4 ≤ 0x200000 ∧ poisonAw s.chip n (windows s.chip n) (4 * fld 23 0 (wd t 1)) 0 4 = none ∧
        v = rd4 (rdAw s.chip n (windows s.chip n) (4 * fld 23 0 (wd t 1))) 0) →
    v ≠ 0 →
    Does (.loop n) s (fun c =>
      (c.core n).st = 1 ∧ (c.core n).pc = (s.chip.core n).pc + 1 ∧ (∃ f : LoopFrame, (c.core n).loops = f :: (s.chip.core n).loops ∧ f.first = (s.chip.core n).pc + 1 ∧
        f.last = (s.chip.core n).pc + wd t 2 % 65536 ∧ f.left = v - 1 ∧ f.idx = 0) ∧
      (bit 21 (wd t 2) = true → c.sq n (fld 20 16 (wd t 2)) = 0) ∧ c.mem = s.chip.mem)) ∧
  (∀ (s : State) (n : CoreId) (t : List Nat),
    s.chip.atEntry n t →
    tOp t = 0x80 →
    restZero t 3 = true →
    wd t 1 / 2 ^ 26 % 64 = 0 →
    wd t 2 / 2 ^ 22 % 1024 = 0 →
    wd t 2 % 65536 ≠ 0 →
    (s.chip.core n).loops.length < 4 →
    (s.chip.core n).pc + wd t 2 % 65536 ≤ (match (s.chip.core n).loops with | f :: _ => f.last | [] => s.chip.listLen n - 1) →
    (fld 25 24 (wd t 1) = 0 ∧ 0 = fld 23 0 (wd t 1)) ∨ (fld 25 24 (wd t 1) = 1 ∧ fld 23 0 (wd t 1) < 32 ∧ 0 = s.chip.sq n (fld 23 0 (wd t 1))) ∨
      (fld 25 24 (wd t 1) = 2 ∧ 4 * fld 23 0 (wd t 1) + 4 ≤ 0x200000 ∧ poisonAw s.chip n (windows s.chip n) (4 * fld 23 0 (wd t 1)) 0 4 = none ∧
        0 = rd4 (rdAw s.chip n (windows s.chip n) (4 * fld 23 0 (wd t 1))) 0) →
    Does (.loop n) s (fun c =>
      (c.core n).st = 1 ∧ (c.core n).pc = (advance (s.chip.core n).loops ((s.chip.core n).pc + wd t 2 % 65536 + 1)).2.1 ∧ (c.core n).loops = (advance (s.chip.core n).loops ((s.chip.core n).pc + wd t 2 % 65536 + 1)).1 ∧ c.mem = s.chip.mem)) ∧
  (∀ (s : State) (n : CoreId) (t : List Nat),
    s.chip.atEntry n t →
    tOp t = 0x80 →
    restZero t 3 = true →
    wd t 1 / 2 ^ 26 % 64 = 0 →
    wd t 2 / 2 ^ 22 % 1024 = 0 →
    wd t 2 % 65536 ≠ 0 →
    (s.chip.core n).pending = none →
    fld 25 24 (wd t 1) ≠ 3 →
    fld 25 24 (wd t 1) = 1 → fld 23 0 (wd t 1) < 32 →
    4 ≤ (s.chip.core n).loops.length ∨ (match (s.chip.core n).loops with | f :: _ => f.last | [] => s.chip.listLen n - 1) < (s.chip.core n).pc + wd t 2 % 65536 →
    s.chip.rg (coreReg n 0x10) = 0 →
    Does (.loop n) s (fun c =>
      (c.core n).st = 4 ∧ (c.core n).fault = 0x21 ∧ (c.core n).pc = (s.chip.core n).pc ∧ c.hasErr (pgCore n) 2 10 = true ∧ c.mem = s.chip.mem)) ∧
  (∀ (s : State) (n : CoreId) (t : List Nat),
    s.chip.atEntry n t →
    tOp t = 0x84 →
    restZero t 2 = true →
    fld 15 4 (wd t 1) = 0 →
    fld 2 0 (wd t 1) ≤ 5 →
    wd t 1 / 65536 % 65536 < s.chip.listLen n →
    ∀ f ∈ (s.chip.core n).loops.head?, f.first ≤ wd t 1 / 65536 % 65536 ∧ wd t 1 / 65536 % 65536 ≤ f.last →
    bit (fld 2 0 (wd t 1)) (seqFlags (s.chip.core n)) = bit 3 (wd t 1) →
    Does (.branchFlag n) s (fun c =>
      c = s.chip.setCore n { s.chip.core n with pc := wd t 1 / 65536 % 65536 })) ∧
  (∀ (s : State) (n : CoreId) (t : List Nat),
    s.chip.atEntry n t →
    tOp t = 0x84 →
    restZero t 2 = true →
    fld 15 4 (wd t 1) = 0 →
    fld 2 0 (wd t 1) ≤ 5 →
    wd t 1 / 65536 % 65536 < s.chip.listLen n →
    ∀ f ∈ (s.chip.core n).loops.head?, f.first ≤ wd t 1 / 65536 % 65536 ∧ wd t 1 / 65536 % 65536 ≤ f.last →
    bit (fld 2 0 (wd t 1)) (seqFlags (s.chip.core n)) ≠ bit 3 (wd t 1) →
    Does (.branchFlag n) s (fun c =>
      s.chip.goesOn c n ∧ c.mem = s.chip.mem ∧ ((s.chip.core n).loops = [] → c = s.chip.setCore n { s.chip.core n with pc := (s.chip.core n).pc + 1 }))) ∧
  (∀ (s : State) (n : CoreId) (t : List Nat) (f : LoopFrame) (l : List LoopFrame),
    s.chip.atEntry n t →
    tOp t = 0x84 →
    restZero t 2 = true →
    fld 15 4 (wd t 1) = 0 →
    fld 2 0 (wd t 1) ≤ 5 →
    wd t 1 / 65536 % 65536 < s.chip.listLen n →
    (s.chip.core n).loops = f :: l →
    f.first ≤ wd t 1 / 65536 % 65536 →
    wd t 1 / 65536 % 65536 ≤ f.last →
    bit (fld 2 0 (wd t 1)) (seqFlags (s.chip.core n)) ≠ bit 3 (wd t 1) →
    (s.chip.core n).pc = f.last →
    0 < f.left →
    Does (.branchFlag n) s (fun c =>
      (c.core n).pc = f.first ∧ (c.core n).loops = { f with left := f.left - 1, idx := f.idx + 1 } :: l ∧
      (∀ q < 32, f.reg = some q → c.sq n q = (f.idx + 1) % 2 ^ 32) ∧ c.mem = s.chip.mem)) ∧
  (∀ (s : State) (n : CoreId) (t : List Nat),
    s.chip.atEntry n t →
    tOp t = 0x84 →
    restZero t 2 = true →
    fld 15 4 (wd t 1) = 0 →
    fld 2 0 (wd t 1) ≤ 5 →
    (s.chip.core n).pending = none →
    s.chip.listLen n ≤ wd t 1 / 65536 % 65536 ∨ ∃ f ∈ (s.chip.core n).loops.head?, wd t 1 / 65536 % 65536 < f.first ∨ f.last < wd t 1 / 65536 % 65536 →
    s.chip.rg (coreReg n 0x10) = 0 →
    Does (.branchFlag n) s (fun c =>
      (c.core n).st = 4 ∧ (c.core n).fault = 0x22 ∧ c.hasErr (pgCore n) 2 10 = true ∧ c.mem = s.chip.mem))

/-- A WAIT of any KIND whose condition holds goes on, and one of KIND 0 subtracts AMOUNT from its flag; one whose
condition does not hold blocks the list, with a deadline when TIMEOUT is not 0; a blocked WAIT completes once the
condition holds; one that outlasts its TIMEOUT faults the list with 0x23 (R100, R101, R102). -/
def Obligations.Waits : Prop :=
  (∀ (s : State) (n : CoreId) (t : List Nat) (kind idx amt : Nat),
    s.chip.atEntry n t →
    tOp t = 0x81 →
    restZero t 3 = true →
    wd t 1 = kind + 16 * idx + 65536 * amt →
    wd t 2 < 65536 →
    0 < amt →
    amt < 65536 →
    (kind < 2 ∧ idx < 64) ∨ (kind = 2 ∧ idx = 0 ∧ ∃ q : Carousel, (s.chip.core n).car = some q ∧ amt ≤ carU q.rcd + 1) ∨ (kind = 3 ∧ 0 < idx ∧ idx < 256) →
    waitOk s.chip n kind idx amt = true →
    Does (.wait n) s (fun c =>
      s.chip.goesOn c n ∧ (kind = 0 → amt ≤ s.chip.rg (flagReg (n / 8) idx) ∧ c.rg (flagReg (n / 8) idx) = s.chip.rg (flagReg (n / 8) idx) - amt) ∧ c.mem = s.chip.mem ∧
      ∀ m i, i < 64 → (kind ≠ 0 ∨ m ≠ n.val / 8 ∨ i ≠ idx) → c.rg (flagReg m i) = s.chip.rg (flagReg m i))) ∧
  (∀ (s : State) (n : CoreId) (t : List Nat) (idx amt : Nat),
    s.chip.atEntry n t →
    tOp t = 0x81 →
    restZero t 3 = true →
    wd t 1 = 16 * idx + 65536 * amt →
    wd t 2 < 65536 →
    idx < 64 →
    0 < amt →
    amt < 65536 →
    amt ≤ s.chip.rg (flagReg (n / 8) idx) →
    Does (.wait n) s (fun c =>
      c.rg (flagReg (n / 8) idx) = s.chip.rg (flagReg (n / 8) idx) - amt ∧ (c.core n).st = 1 ∧ ((s.chip.core n).loops = [] → (c.core n).pc = (s.chip.core n).pc + 1) ∧ c.mem = s.chip.mem ∧
      ∀ m i, i < 64 → (m ≠ n.val / 8 ∨ i ≠ idx) → c.rg (flagReg m i) = s.chip.rg (flagReg m i))) ∧
  (∀ (s : State) (n : CoreId) (t : List Nat) (kind idx amt : Nat),
    s.chip.atEntry n t →
    tOp t = 0x81 →
    restZero t 3 = true →
    wd t 1 = kind + 16 * idx + 65536 * amt →
    wd t 2 < 65536 →
    0 < amt →
    amt < 65536 →
    (kind < 2 ∧ idx < 64) ∨ (kind = 2 ∧ idx = 0 ∧ ∃ q : Carousel, (s.chip.core n).car = some q ∧ amt ≤ carU q.rcd + 1) ∨ (kind = 3 ∧ 0 < idx ∧ idx < 256) →
    waitOk s.chip n kind idx amt = false →
    Does (.wait n) s (fun c =>
      c = s.chip.setCore n { s.chip.core n with st := 2, blocked := .wait kind idx amt (if wd t 2 = 0 then 0 else s.chip.beat + wd t 2) })) ∧
  (∀ (s : State) (n : CoreId) (kind idx amt d : Nat),
    s.chip.isPowered →
    (s.chip.core n).st = 2 →
    (s.chip.core n).blocked = .wait kind idx amt d →
    s.chip.loopsOk n →
    waitOk s.chip n kind idx amt = true →
    Does (.waitComplete n) s (fun c =>
      s.chip.goesOn c n ∧ (c.core n).blocked = .none ∧ (kind = 0 → idx < 64 → amt ≤ s.chip.rg (flagReg (n / 8) idx) ∧ c.rg (flagReg (n / 8) idx) = s.chip.rg (flagReg (n / 8) idx) - amt) ∧ c.mem = s.chip.mem)) ∧
  (∀ (s : State) (n : CoreId) (kind idx amt d : Nat),
    s.chip.isPowered →
    (s.chip.core n).st = 2 →
    (s.chip.core n).blocked = .wait kind idx amt d →
    waitOk s.chip n kind idx amt = false →
    d ≠ 0 →
    s.chip.come d = true →
    Does (.waitTimeout n) s (fun c =>
      c = listFault n 0x23 (latePassed (pgCore n) d s.chip))) ∧
  (∀ (s : State) (n : CoreId) (kind idx amt d : Nat),
    s.chip.isPowered →
    (s.chip.core n).blocked = .wait kind idx amt d →
    d = 0 ∨ s.chip.come d = false ∨ (s.chip.core n).st ≠ 2 ∨ waitOk s.chip n kind idx amt = true →
    Does (.waitTimeout n) s (fun c =>
      c = s.chip)) ∧
  (∀ (s : State) (n : CoreId) (kind idx amt d : Nat),
    s.chip.isPowered →
    (s.chip.core n).pending = none →
    (s.chip.core n).st = 2 →
    (s.chip.core n).blocked = .wait kind idx amt d →
    waitOk s.chip n kind idx amt = false →
    d ≠ 0 →
    s.chip.come d = true →
    s.chip.rg (coreReg n 0x10) = 0 →
    Does (.waitTimeout n) s (fun c =>
      (c.core n).st = 4 ∧ (c.core n).fault = 0x23 ∧ (c.core n).blocked = .none ∧ (c.core n).runs = (s.chip.core n).runs.filter (·.begun) ∧ c.hasErr (pgCore n) 2 10 = true ∧ c.mem = s.chip.mem ∧ ∀ m, m ≠ n → c.core m = s.chip.core m))

/-- BEAT_WAIT blocks the list until its base beat plus OFFSET, the base being the launch beat or the 32-bit beat of a
sequencer register (R101, R246); a target that has passed waits for the next beat boundary and logs a CE of the
cadence unit (R10). BEAT_WAIT_RELEASE releases it once the target has come, and the list goes on. -/
def Obligations.BeatWaits : Prop :=
  (∀ (s : State) (n : CoreId) (t : List Nat) (tgt : Nat),
    s.chip.atEntry n t →
    tOp t = 0x85 →
    restZero t 3 = true →
    wd t 1 / 128 = 0 →
    fld 1 0 (wd t 1) ≤ 1 →
    tgt = (if fld 1 0 (wd t 1) = 0 then (s.chip.core n).launched else fullBeat s.chip.beat (s.chip.sq n (wd t 1 / 4))) + wd t 2 →
    s.chip.beat < tgt →
    Does (.beatWait n) s (fun c =>
      c = s.chip.setCore n { s.chip.core n with st := 2, blocked := .beat tgt false })) ∧
  (∀ (s : State) (n : CoreId) (t : List Nat) (tgt : Nat),
    s.chip.atEntry n t →
    tOp t = 0x85 →
    restZero t 3 = true →
    wd t 1 / 128 = 0 →
    fld 1 0 (wd t 1) ≤ 1 →
    tgt = (if fld 1 0 (wd t 1) = 0 then (s.chip.core n).launched else fullBeat s.chip.beat (s.chip.sq n (wd t 1 / 4))) + wd t 2 →
    tgt ≤ s.chip.beat →
    Does (.beatWait n) s (fun c =>
      (s.chip.setCore n { s.chip.core n with st := 2, blocked := .beat (s.chip.beat + 1) true }).logs c pgCad 0 12)) ∧
  (∀ (s : State) (n : CoreId) (b : Nat) (l : Bool),
    s.chip.isPowered →
    (s.chip.core n).st = 2 →
    (s.chip.core n).blocked = .beat b l →
    s.chip.loopsOk n →
    s.chip.come b = true →
    Does (.beatWaitRelease n) s (fun c =>
      s.chip.goesOn c n ∧ (c.core n).blocked = .none ∧ c.mem = s.chip.mem))

/-- SIGNAL, once every earlier TOD has its record: KIND 0 adds AMOUNT to a cluster's flag, and faults with 0x27 when
the flag would pass 0xFFFF; KIND 1 arms a work counter of the core's cluster from a descriptor, a plain counter with
the limit of the descriptor, or one of a topiary record (R105, R106), and a descriptor that fails faults with its
code; KIND 2 ends a carousel unit, which goes to the next rank (R101, R117). FETCH_INC retires the lease held, and
grants the lowest value awaiting reissue, else the next one: the value and its coordinates go to the destination
registers and the core holds a lease of it; a done counter answers 0xFFFF_FFFF with EXH, NOWAIT answers 0xFFFF_FFFE
with PEND when no value is there, and without NOWAIT the core blocks (R108). A blocked FETCH_INC is granted once a
value is there, and ends so too when the counter is done. WC_DISARM clears the counter and expires its leases (R104).
-/
def Obligations.SignalAndFetch : Prop :=
  (∀ (s : State) (n : CoreId) (t : List Nat) (idx cl amt : Nat),
    s.chip.atEntry n t →
    (s.chip.core n).runs = [] →
    tOp t = 0x82 →
    restZero t 3 = true →
    wd t 1 = 16 * idx + 4096 * cl + 2 ^ 17 * amt →
    idx < 64 →
    cl < 24 →
    0 < amt →
    amt < 2 ^ 15 →
    s.chip.rg (flagReg cl idx) + amt ≤ 0xFFFF →
    Does (.signal n) s (fun c =>
      c.rg (flagReg cl idx) = s.chip.rg (flagReg cl idx) + amt ∧ s.chip.goesOn c n ∧ ((s.chip.core n).loops = [] → (c.core n).pc = (s.chip.core n).pc + 1) ∧ c.mem = s.chip.mem ∧
      ∀ m i, i < 64 → (m ≠ cl ∨ i ≠ idx) → c.rg (flagReg m i) = s.chip.rg (flagReg m i))) ∧
  (∀ (s : State) (n : CoreId) (t : List Nat) (idx cl amt : Nat),
    s.chip.atEntry n t →
    (s.chip.core n).runs = [] →
    tOp t = 0x82 →
    restZero t 3 = true →
    (s.chip.core n).pending = none →
    wd t 1 = 16 * idx + 4096 * cl + 2 ^ 17 * amt →
    idx < 64 →
    cl < 24 →
    0 < amt →
    amt < 2 ^ 15 →
    0xFFFF < s.chip.rg (flagReg cl idx) + amt →
    s.chip.rg (coreReg n 0x10) = 0 →
    Does (.signal n) s (fun c =>
      (c.core n).st = 4 ∧ (c.core n).fault = 0x27 ∧ c.rg (flagReg cl idx) = s.chip.rg (flagReg cl idx) ∧ c.hasErr (pgCore n) 2 10 = true)) ∧
  (∀ (s : State) (n : CoreId) (t : List Nat) (idx amt lim len : Nat),
    s.chip.atEntry n t →
    (s.chip.core n).runs = [] →
    tOp t = 0x82 →
    restZero t 3 = true →
    wd t 1 = 1 + 16 * idx + 2 ^ 17 * amt →
    idx < 64 →
    0 < amt →
    amt < 2 ^ 15 →
    (s.chip.ctr (n / 8) idx).armed = true → (s.chip.ctr (n / 8) idx).leased = 0 ∧ (s.chip.ctr (n / 8) idx).nDone = (s.chip.ctr (n / 8) idx).total →
    awOk01 (wd t 2) = true →
    awOfs (wd t 2) % 16 = 0 →
    awFits (wd t 2) 16 = true →
    rd4 (rdAw s.chip n (windows s.chip n) (wd t 2)) 0 = 0 →
    rd4 (rdAw s.chip n (windows s.chip n) (wd t 2)) 4 = lim →
    1 ≤ lim →
    lim ≤ 0xFFFFFFFD →
    rd4 (rdAw s.chip n (windows s.chip n) (wd t 2)) 8 = len →
    len < 65536 →
    rd4 (rdAw s.chip n (windows s.chip n) (wd t 2)) 12 = 0 →
    Does (.signal n) s (fun c =>
      s.chip.goesOn c n ∧ (∃ x : Counter, c.ctr (n / 8) idx = x ∧ x.armed = true ∧ x.done = false ∧ x.total = lim ∧ x.next = 0 ∧ x.nDone = 0 ∧ x.leased = 0 ∧ x.reissue = [] ∧ x.top = [] ∧
        x.epoch = (s.chip.ctr (n / 8) idx).epoch ∧ x.lease = (if len = 0 then s.chip.rg (ra (pgClus (n / 8)) 0x100) else len)) ∧ c.mem = s.chip.mem ∧
      ∀ m i, (m ≠ n.val / 8 ∨ i ≠ idx) → c.ctr m i = s.chip.ctr m i)) ∧
  (∀ (s : State) (n : CoreId) (t : List Nat) (idx amt : Nat) (k : Chip),
    s.chip.atEntry n t →
    (s.chip.core n).runs = [] →
    tOp t = 0x82 →
    restZero t 3 = true →
    wd t 1 = 1 + 16 * idx + 2 ^ 17 * amt →
    idx < 64 →
    0 < amt →
    amt < 2 ^ 15 →
    armCounter n idx (wd t 2) (windows s.chip n) s.chip = .ok k →
    Does (.signal n) s (fun c =>
      s.chip.goesOn c n ∧ c.ctr (n / 8) idx = k.ctr (n / 8) idx ∧ (c.ctr (n / 8) idx).armed = true ∧ ((c.ctr (n / 8) idx).done = true ↔ (c.ctr (n / 8) idx).total = 0) ∧ c.mem = s.chip.mem ∧
      ((c.ctr (n / 8) idx).top ≠ [] → topBad (n / 8) (c.ctr (n / 8) idx).top = false ∧ (∀ x ∈ (c.ctr (n / 8) idx).rowsOf, x ≤ topM (c.ctr (n / 8) idx).top)) ∧
      ∀ m i, (m ≠ n.val / 8 ∨ i ≠ idx) → c.ctr m i = s.chip.ctr m i)) ∧
  (∀ (s : State) (n : CoreId) (t : List Nat) (idx amt e : Nat),
    s.chip.atEntry n t →
    (s.chip.core n).runs = [] →
    tOp t = 0x82 →
    restZero t 3 = true →
    (s.chip.core n).pending = none →
    wd t 1 = 1 + 16 * idx + 2 ^ 17 * amt →
    idx < 64 →
    0 < amt →
    amt < 2 ^ 15 →
    fld 27 24 (wd t 2) = 0 →
    awSpace (wd t 2) ≤ 4 →
    armCounter n idx (wd t 2) (windows s.chip n) s.chip = .error e →
    s.chip.rg (coreReg n 0x10) = 0 →
    Does (.signal n) s (fun c =>
      (c.core n).st = 4 ∧ (c.core n).fault = e ∧ c.hasErr (pgCore n) 2 10 = true ∧ (e = 0x24 ∨ e = 0x25 ∨ e = 0x26) ∧ ∀ m i, c.ctr m i = s.chip.ctr m i)) ∧
  (∀ (s : State) (n : CoreId) (t : List Nat) (amt : Nat) (q : Carousel),
    s.chip.atEntry n t →
    (s.chip.core n).runs = [] →
    tOp t = 0x82 →
    restZero t 3 = true →
    wd t 1 = 2 + 2 ^ 17 * amt →
    0 < amt →
    amt < 2 ^ 15 →
    (s.chip.core n).car = some q →
    q.drain = false →
    unitIn q q.t = true →
    Does (.signal n) s (fun c =>
      s.chip.goesOn c n ∧ (c.core n).car = some { q with t := q.t + 1 } ∧ c.mem = s.chip.mem ∧ c.clusters = s.chip.clusters ∧
      (carRotate q.rcd = true → ∀ m, m = q.cores.getD ((q.rank + 1) % max 1 q.cores.length) n →
        (c.core m).carDue = (s.chip.core m).carDue ++ [s.chip.bytes (pocket q n (q.t % (carU q.rcd + 1))) (carBytes q.rcd)]))) ∧
  (∀ (s : State) (n : CoreId) (t : List Nat) (wc dest v fl : Nat),
    s.chip.atEntry n t →
    tOp t = 0x83 →
    restZero t 2 = true →
    wd t 1 = wc + 256 * dest + 65536 * fl →
    wc < 64 →
    dest ≤ 26 →
    fl < 8 →
    fl < 4 →
    stageBad n wc (bit 0 fl) (s.chip.putDown n) = false →
    ((s.chip.putDown n).ctr (n / 8) wc).armed = true →
    ((s.chip.putDown n).ctr (n / 8) wc).done = false →
    valueFor n ((s.chip.putDown n).ctr (n / 8) wc) = some v →
    Does (.fetchInc n) s (fun c =>
      s.chip.goesOn c n ∧ (c.core n).blocked = .none ∧ (∃ l : Lease, (c.core n).lease = some l ∧ l.wc = wc ∧ l.value = v ∧ l.expired = false ∧ l.epoch = ((s.chip.putDown n).ctr (n / 8) wc).epoch.succ % 2 ^ 32 ∧
        l.expiry = s.chip.beat + ((s.chip.putDown n).ctr (n / 8) wc).lease ∧ (l.h, l.i, l.j) = coords ((s.chip.putDown n).ctr (n / 8) wc) v ∧ l.staged = (bit 0 fl && ((s.chip.putDown n).ctr (n / 8) wc).top != [])) ∧
      (c.ctr (n / 8) wc).leased = ((s.chip.putDown n).ctr (n / 8) wc).leased + 1 ∧ (c.core n).flags % 4 = 0 ∧ c.mem = s.chip.mem ∧
      ((advance (s.chip.core n).loops ((s.chip.core n).pc + 1)).2.2 = none → c.sq n dest = v % 2 ^ 32 ∧ c.sq n (dest + 1) = (coords ((s.chip.putDown n).ctr (n / 8) wc) v).1 % 2 ^ 32 ∧ c.sq n (dest + 2) = (coords ((s.chip.putDown n).ctr (n / 8) wc) v).2.1 % 2 ^ 32 ∧
        c.sq n (dest + 3) = (coords ((s.chip.putDown n).ctr (n / 8) wc) v).2.2 % 2 ^ 32))) ∧
  (∀ (s : State) (n : CoreId) (t : List Nat) (wc dest fl : Nat),
    s.chip.atEntry n t →
    tOp t = 0x83 →
    restZero t 2 = true →
    wd t 1 = wc + 256 * dest + 65536 * fl →
    wc < 64 →
    dest ≤ 26 →
    fl < 8 →
    fl < 4 →
    stageBad n wc (bit 0 fl) (s.chip.putDown n) = false →
    ((s.chip.putDown n).ctr (n / 8) wc).armed = true →
    ((s.chip.putDown n).ctr (n / 8) wc).done = true →
    Does (.fetchInc n) s (fun c =>
      s.chip.goesOn c n ∧ (c.core n).lease = none ∧ (c.core n).flags % 4 = 1 ∧ c.clusters = (s.chip.putDown n).clusters ∧ c.mem = s.chip.mem ∧ ((advance (s.chip.core n).loops ((s.chip.core n).pc + 1)).2.2 = none → c.sq n dest = 0xFFFFFFFF))) ∧
  (∀ (s : State) (n : CoreId) (t : List Nat) (wc dest fl : Nat),
    s.chip.atEntry n t →
    tOp t = 0x83 →
    restZero t 2 = true →
    wd t 1 = wc + 256 * dest + 65536 * fl →
    wc < 64 →
    dest ≤ 26 →
    fl < 8 →
    fl = 2 ∨ fl = 3 →
    stageBad n wc (bit 0 fl) (s.chip.putDown n) = false →
    ((s.chip.putDown n).ctr (n / 8) wc).armed = true →
    ((s.chip.putDown n).ctr (n / 8) wc).done = false →
    valueFor n ((s.chip.putDown n).ctr (n / 8) wc) = none →
    Does (.fetchInc n) s (fun c =>
      s.chip.goesOn c n ∧ (c.core n).lease = none ∧ (c.core n).flags % 4 = 2 ∧ c.clusters = (s.chip.putDown n).clusters ∧ c.mem = s.chip.mem ∧ ((advance (s.chip.core n).loops ((s.chip.core n).pc + 1)).2.2 = none → c.sq n dest = 0xFFFFFFFE))) ∧
  (∀ (s : State) (n : CoreId) (t : List Nat) (wc dest fl : Nat),
    s.chip.atEntry n t →
    tOp t = 0x83 →
    restZero t 2 = true →
    wd t 1 = wc + 256 * dest + 65536 * fl →
    wc < 64 →
    dest ≤ 26 →
    fl < 8 →
    fl < 4 →
    stageBad n wc (bit 0 fl) (s.chip.putDown n) = false →
    ((s.chip.putDown n).ctr (n / 8) wc).armed = false ∨ (((s.chip.putDown n).ctr (n / 8) wc).done = false ∧ fl < 2 ∧ valueFor n ((s.chip.putDown n).ctr (n / 8) wc) = none) →
    Does (.fetchInc n) s (fun c =>
      c = (s.chip.putDown n).setCore n { (s.chip.putDown n).core n with st := 2, blocked := .fetch wc dest (bit 0 fl) (bit 1 fl) 0 })) ∧
  (∀ (s : State) (n : CoreId) (t : List Nat) (wc dest fl : Nat),
    s.chip.atEntry n t →
    tOp t = 0x83 →
    restZero t 2 = true →
    wd t 1 = wc + 256 * dest + 65536 * fl →
    wc < 64 →
    dest ≤ 26 →
    fl < 8 →
    4 ≤ fl →
    Does (.fetchInc n) s (fun c =>
      s.chip.goesOn c n ∧ (c.core n).lease = none ∧ (c.core n).flags % 4 = 0 ∧ (c.core n).retiring = ((s.chip.putDown n).core n).retiring ∧ c.clusters = (s.chip.putDown n).clusters ∧ c.mem = s.chip.mem)) ∧
  (∀ (s : State) (n : CoreId) (wc dest d v : Nat) (stage nw : Bool),
    s.chip.isPowered →
    (s.chip.core n).st = 2 →
    (s.chip.core n).blocked = .fetch wc dest stage nw d →
    s.chip.loopsOk n →
    dest ≤ 26 →
    ∀ i < n.val % 8, ∀ w e g h d, (s.chip.core (n / 8 * 8 + i)).blocked = .fetch w e g h d → (s.chip.core (n / 8 * 8 + i)).st = 2 → i ∈ (s.chip.ctr (n / 8) wc).map → w ≠ wc →
    stageBad n wc stage s.chip = false →
    (s.chip.ctr (n / 8) wc).armed = true →
    (s.chip.ctr (n / 8) wc).done = false →
    valueFor n (s.chip.ctr (n / 8) wc) = some v →
    Does (.fetchIncGrant n) s (fun c =>
      s.chip.goesOn c n ∧ (c.core n).blocked = .none ∧ (∃ l : Lease, (c.core n).lease = some l ∧ l.wc = wc ∧ l.value = v ∧ l.expired = false ∧ l.epoch = (s.chip.ctr (n / 8) wc).epoch.succ % 2 ^ 32 ∧
        l.expiry = s.chip.beat + (s.chip.ctr (n / 8) wc).lease ∧ (l.h, l.i, l.j) = coords (s.chip.ctr (n / 8) wc) v ∧ l.staged = (stage && (s.chip.ctr (n / 8) wc).top != [])) ∧
      (c.ctr (n / 8) wc).leased = (s.chip.ctr (n / 8) wc).leased + 1 ∧ (c.core n).flags % 4 = 0 ∧ c.mem = s.chip.mem ∧
      ((advance (s.chip.core n).loops ((s.chip.core n).pc + 1)).2.2 = none → c.sq n dest = v % 2 ^ 32 ∧ c.sq n (dest + 1) = (coords (s.chip.ctr (n / 8) wc) v).1 % 2 ^ 32 ∧ c.sq n (dest + 2) = (coords (s.chip.ctr (n / 8) wc) v).2.1 % 2 ^ 32 ∧
        c.sq n (dest + 3) = (coords (s.chip.ctr (n / 8) wc) v).2.2 % 2 ^ 32))) ∧
  (∀ (s : State) (n : CoreId) (wc dest d : Nat) (stage nw : Bool),
    s.chip.isPowered →
    (s.chip.core n).st = 2 →
    (s.chip.core n).blocked = .fetch wc dest stage nw d →
    s.chip.loopsOk n →
    dest ≤ 26 →
    ∀ i < n.val % 8, ∀ w e g h d, (s.chip.core (n / 8 * 8 + i)).blocked = .fetch w e g h d → (s.chip.core (n / 8 * 8 + i)).st = 2 → i ∈ (s.chip.ctr (n / 8) wc).map → w ≠ wc →
    stageBad n wc stage s.chip = false →
    (s.chip.ctr (n / 8) wc).armed = true →
    (s.chip.ctr (n / 8) wc).done = true →
    Does (.fetchIncGrant n) s (fun c =>
      s.chip.goesOn c n ∧ (c.core n).blocked = .none ∧ (c.core n).flags % 4 = 1 ∧ c.clusters = s.chip.clusters ∧ c.mem = s.chip.mem ∧ ((advance (s.chip.core n).loops ((s.chip.core n).pc + 1)).2.2 = none → c.sq n dest = 0xFFFFFFFF))) ∧
  (∀ (s : State) (n : CoreId) (wc dest d : Nat) (stage nw : Bool),
    s.chip.isPowered →
    (s.chip.core n).st = 2 →
    (s.chip.core n).blocked = .fetch wc dest stage nw d →
    s.chip.loopsOk n →
    dest ≤ 26 →
    ∀ i < n.val % 8, ∀ w e g h d, (s.chip.core (n / 8 * 8 + i)).blocked = .fetch w e g h d → (s.chip.core (n / 8 * 8 + i)).st = 2 → i ∈ (s.chip.ctr (n / 8) wc).map → w ≠ wc →
    stageBad n wc stage s.chip = false →
    nw = true →
    (s.chip.ctr (n / 8) wc).armed = true →
    (s.chip.ctr (n / 8) wc).done = false →
    valueFor n (s.chip.ctr (n / 8) wc) = none →
    Does (.fetchIncGrant n) s (fun c =>
      s.chip.goesOn c n ∧ (c.core n).blocked = .none ∧ (c.core n).flags % 4 = 2 ∧ c.clusters = s.chip.clusters ∧ c.mem = s.chip.mem ∧ ((advance (s.chip.core n).loops ((s.chip.core n).pc + 1)).2.2 = none → c.sq n dest = 0xFFFFFFFE))) ∧
  (∀ (s : State) (cl : ClusterId) (idx : CounterId),
    s.chip.isPowered →
    Does (.wcDisarm cl idx) s (fun c =>
      c.ctr cl idx = {} ∧ (∀ j, j ≠ idx.val → (c.ctr cl j).armed = (s.chip.ctr cl j).armed) ∧ (∀ i < 8, ∀ l ∈ (c.core (8 * cl + i)).leases, l.wc = idx → l.expired = true) ∧ c.mem = s.chip.mem ∧ c.regs = s.chip.regs))

/-- LEASE_RETIRE commits the oldest retiring lease of which every TOD has written its record, if it is current: its
counter counts one more value done and sets DONE with the last (R110), and a staged lease waits for its write-back. A
lease that has expired commits nothing and sets STALE. LEASE_EXPIRE at the expiry beat makes a lease expired, held or
retiring, puts its value back for reissue and logs a CE of the cluster (R109). -/
def Obligations.Leases : Prop :=
  (∀ (s : State) (n : CoreId) (a b : List Lease) (l : Lease),
    s.chip.isPowered →
    (s.chip.core n).retiring = a ++ l :: b →
    ∀ x ∈ a, ∃ r ∈ (s.chip.core n).runs, ∃ y, r.lease = some y ∧ y.same x = true →
    ∀ r ∈ (s.chip.core n).runs, ∀ y, r.lease = some y → y.same l = false →
    l.expired = false →
    s.chip.beat < l.expiry →
    Does (.leaseRetire n) s (fun c =>
      c.thenLaunch n (fun k => (k.core n).retiring = (a ++ l :: b).filter (fun x => !x.same l) ∧ (k.core n).writeback = (s.chip.core n).writeback ++ (if l.staged then [l] else []) ∧ (k.ctr (n / 8) l.wc).nDone = (s.chip.ctr (n / 8) l.wc).nDone + 1 ∧
      ((k.ctr (n / 8) l.wc).done = true ↔ (s.chip.ctr (n / 8) l.wc).nDone + 1 = (s.chip.ctr (n / 8) l.wc).total) ∧ (k.core n).flags = setFld 2 2 (s.chip.core n).flags 0 ∧ (k.core n).lease = (s.chip.core n).lease ∧ k.mem = s.chip.mem ∧ k.regs = s.chip.regs ∧ ∀ m, m ≠ n → k.core m = s.chip.core m))) ∧
  (∀ (s : State) (n : CoreId) (a b : List Lease) (l : Lease),
    s.chip.isPowered →
    (s.chip.core n).retiring = a ++ l :: b →
    ∀ x ∈ a, ∃ r ∈ (s.chip.core n).runs, ∃ y, r.lease = some y ∧ y.same x = true →
    ∀ r ∈ (s.chip.core n).runs, ∀ y, r.lease = some y → y.same l = false →
    l.expired = true ∨ l.expiry ≤ s.chip.beat →
    Does (.leaseRetire n) s (fun c =>
      c.thenLaunch n (fun k => (k.core n).retiring = (a ++ l :: b).filter (fun x => !x.same l) ∧ bit 2 (k.core n).flags = true ∧ (k.ctr (n / 8) l.wc).nDone = (s.chip.ctr (n / 8) l.wc).nDone ∧ (k.core n).writeback = (s.chip.core n).writeback ∧ k.mem = s.chip.mem ∧ k.regs = s.chip.regs ∧
      (l.expired = true → k.clusters = s.chip.clusters) ∧ (l.expired = false → (s.chip.ctr (n / 8) l.wc).armed = true → (s.chip.ctr (n / 8) l.wc).done = false → (s.chip.ctr (n / 8) l.wc).armOrd = l.ord → l.value ∈ (k.ctr (n / 8) l.wc).reissue)))) ∧
  (∀ (s : State) (n : CoreId) (l : Lease),
    s.chip.isPowered →
    (s.chip.core n).lease = some l →
    (s.chip.core n).retiring = [] →
    l.expired = false →
    s.chip.come l.expiry = true →
    (s.chip.ctr (n / 8) l.wc).armed = true →
    (s.chip.ctr (n / 8) l.wc).done = false →
    (s.chip.ctr (n / 8) l.wc).armOrd = l.ord →
    Does (.leaseExpire n) s (fun c =>
      c.thenLaunch n (fun k => (k.core n).lease = some { l with expired := true } ∧ l.value ∈ (k.ctr (n / 8) l.wc).reissue ∧ (k.ctr (n / 8) l.wc).leased = (s.chip.ctr (n / 8) l.wc).leased - 1 ∧
      k.hasErr (pgClus (n / 8)) 0 12 = true ∧ k.mem = s.chip.mem))) ∧
  (∀ (s : State) (n : CoreId) (l : Lease),
    s.chip.isPowered →
    l ∈ (s.chip.core n).leases →
    l.expired = false →
    s.chip.come l.expiry = true →
    Does (.leaseExpire n) s (fun c =>
      c.thenLaunch n (fun k => { l with expired := true } ∈ (k.core n).leases ∧ k.hasErr (pgClus (n / 8)) 0 12 = true ∧ k.mem = s.chip.mem ∧ (k.core n).runs = (s.chip.core n).runs ∧
      ((s.chip.ctr (n / 8) l.wc).armed = true → (s.chip.ctr (n / 8) l.wc).done = false → (s.chip.ctr (n / 8) l.wc).armOrd = l.ord → l.value ∈ (k.ctr (n / 8) l.wc).reissue))))

/-- STAGING_FILL of the oldest lease that waits for its slot, once no other lease that used the slot is still being
retired or written back and no source waits for a refetch (R113): the slot holds that lease, and every byte outside
the destinations of the copies stays (R95, R112). LEASE_WRITEBACK takes the oldest lease whose collectives have
committed from the list, and copies its rows to their places, leaving every other byte (R113). CAROUSEL_UNIT_LAND
lands the oldest unit that waits, once its pocket has been read out, in that pocket and stores nothing else (R117). -/
def Obligations.Staging : Prop :=
  (∀ (s : State) (n : CoreId) (l : Lease) (f : List Lease),
    s.chip.isPowered →
    (s.chip.core n).fill = l :: f →
    ∀ y ∈ (s.chip.core n).retiring ++ (s.chip.core n).writeback, y.staged = true → y.slot = l.slot → y.same l = true →
    ∀ y ∈ fillCopies s.chip n l, (match s.chip.tasRead (y.1 / 8) (ceilDiv (y.1 % 8 + y.2.2) 8) with | .wait _ => false | _ => true) = true →
    Does (.stagingFill n) s (fun c =>
      c.thenLaunch n (fun k => (k.core n).fill = f ∧ (k.core n).slotHas = setAt (s.chip.core n).slotHas l.slot (some l) ∧ (k.core n).runs = (s.chip.core n).runs ∧
      ∀ a, (∀ x ∈ fillCopies s.chip n l, a < (copySpan x).1 ∨ (copySpan x).2 ≤ a) → k.byteAt a = s.chip.byteAt a))) ∧
  (∀ (s : State) (n : CoreId) (a b : List Lease) (l : Lease),
    s.chip.isPowered →
    (s.chip.core n).writeback = a ++ l :: b →
    ∀ x ∈ a, ∃ i ∈ x.prov, s.chip.collOpen i = true →
    ∀ i ∈ l.prov, s.chip.collOpen i = false →
    Does (.leaseWriteback n) s (fun c =>
      c.thenLaunch n (fun k => (k.core n).writeback = (a ++ l :: b).erase l ∧ (k.core n).runs = (s.chip.core n).runs ∧ (l.rows = 0 → k = s.chip.setCore n (k.core n)) ∧
      ((∀ x ∈ writebackCopies n l, (copySpan x).2 ≤ t0Size) → ∀ q, (∀ x ∈ writebackCopies n l, q < (copySpan x).1 ∨ (copySpan x).2 ≤ q) → k.byteAt q = s.chip.byteAt q)))) ∧
  (∀ (s : State) (n : CoreId) (q : Carousel) (b : List Byte) (d : List (List Byte)),
    s.chip.isPowered →
    (s.chip.core n).car = some q →
    (s.chip.core n).carDue = b :: d →
    q.landed ≤ q.t →
    Does (.carouselUnitLand n) s (fun c =>
      c.thenLaunch n (fun k => (q.drain = false → (k.core n).car = some { q with landed := q.landed + 1 } ∧ (k.core n).carDue = d) ∧
      (∀ i < b.length, k.byteAt (pocket q n ((q.landed + carU q.rcd) % (carU q.rcd + 1)) + i) = b.getD i 0#8) ∧
      (∀ a, (∀ i < b.length, a ≠ pocket q n ((q.landed + carU q.rcd) % (carU q.rcd + 1)) + i) → k.byteAt a = s.chip.byteAt a) ∧ k.regs = s.chip.regs)))

/-- SCALE_PLAN_ROLL of an entry whose roll waits, which no TOD in flight has latched and whose PROV_CNT is 0 (R52,
R53): the roll is done once, the history gets CUR_AMAX at its head, the head and the fill advance within the depth,
CUR_AMAX becomes 0, an all-zero history gives CUR_SCALE 1.0, and no byte outside the 128-byte entry changes; while
PROV_CNT is not 0 nothing changes. -/
def Obligations.ScalePlanRoll : Prop :=
  (∀ (s : State) (a : Nat),
    s.chip.isPowered →
    a ∈ s.chip.rolls →
    latchedBy s.chip a = false →
    fld 15 10 (s.chip.le (a + 8) 4) = 0 →
    fld 8 4 (s.chip.le (a + 4) 4) ≤ 16 →
    Does (.scalePlanRoll a) s (fun c =>
      c.rolls = s.chip.rolls.erase a ∧ c.le (a + 0xC) 4 = 0 ∧ c.le (a + 0x40 + 4 * fld 3 0 (s.chip.le (a + 8) 4)) 4 = s.chip.le (a + 0xC) 4 ∧
      fld 3 0 (c.le (a + 8) 4) = (fld 3 0 (s.chip.le (a + 8) 4) + 1) % max 1 (fld 8 4 (s.chip.le (a + 4) 4)) ∧
      fld 8 4 (c.le (a + 8) 4) = min (fld 8 4 (s.chip.le (a + 8) 4) + 1) (max 1 (fld 8 4 (s.chip.le (a + 4) 4))) ∧
      (∀ x, x < a ∨ a + 128 ≤ x → c.byteAt x = s.chip.byteAt x) ∧ c.regs = s.chip.regs)) ∧
  (∀ (s : State) (a : Nat),
    s.chip.isPowered →
    a ∈ s.chip.rolls →
    latchedBy s.chip a = false →
    fld 15 10 (s.chip.le (a + 8) 4) = 0 →
    fld 8 4 (s.chip.le (a + 4) 4) = 1 →
    fld 3 0 (s.chip.le (a + 8) 4) = 0 →
    s.chip.le (a + 0xC) 4 = 0 →
    Does (.scalePlanRoll a) s (fun c =>
      c.rolls = s.chip.rolls.erase a ∧ c.le a 4 = 0x3F800000 ∧ c.le (a + 0xC) 4 = 0 ∧ (∀ x, x < a ∨ a + 128 ≤ x → c.byteAt x = s.chip.byteAt x) ∧ c.regs = s.chip.regs)) ∧
  (∀ (s : State) (a : Nat),
    s.chip.isPowered →
    a ∈ s.chip.rolls →
    fld 15 10 (s.chip.le (a + 8) 4) ≠ 0 →
    Does (.scalePlanRoll a) s (fun c =>
      c = s.chip))

/-- SFU_LOAD starts a load, or is refused with LOAD_ERR 7 and a CE cause 31 while a flip is armed. SFU_LOAD_COMPLETE,
once no TOD runs on the shadow bank, reads and checks the image: a good one is the shadow bank and READY, a bad one
sets ERROR with the code and logs a CE cause 10, and an image that cannot be read is code 6 (R131, R133). SFU_FLIP_ARM
applies the beat pair, its low half the staged one when one waits, and arms for that beat, or the next one with a CE
when it has passed (R8, R10). SFU_DISARM cancels. -/
def Obligations.SfuLoads : Prop :=
  (∀ (s : State) (cl : ClusterId),
    s.chip.isReady →
    s.chip.pwr.st ≠ 3 →
    s.chip.pwr.st ≠ 4 →
    (s.chip.clus cl).sfu.armed = false →
    Does (.sfuLoad cl) s (fun c =>
      c = s.chip.setClus cl { s.chip.clus cl with sfu := { (s.chip.clus cl).sfu with state := 1, loadErr := 0, fault := 0 } })) ∧
  (∀ (s : State) (cl : ClusterId),
    s.chip.isReady →
    s.chip.pwr.st ≠ 3 →
    s.chip.pwr.st ≠ 4 →
    (s.chip.clus cl).sfu.armed = true →
    Does (.sfuLoad cl) s (fun c =>
      (s.chip.setClus cl { s.chip.clus cl with sfu := { (s.chip.clus cl).sfu with loadErr := 7 } }).logs c (pgClus cl) 0 31)) ∧
  (∀ (s : State) (cl : ClusterId) (l : List Byte),
    s.chip.isPowered →
    (s.chip.clus cl).sfu.state = 1 →
    oldRefs s.chip cl = 0 →
    s.chip.tasRead (s.chip.rg64 (sfuReg cl 0x600)) imageSize = .ok l →
    Does (.sfuLoadComplete cl) s (fun c =>
      (c.clus cl).sfu.shadow = imageBank l ∧ (c.clus cl).sfu.active = (s.chip.clus cl).sfu.active ∧ (c.clus cl).sfu.gen = (s.chip.clus cl).sfu.gen ∧
      ((imageCheck l).1 = 0 → (c.clus cl).sfu.state = 2) ∧
      ((imageCheck l).1 ≠ 0 → (c.clus cl).sfu.state = 3 ∧ (c.clus cl).sfu.loadErr = (imageCheck l).1 ∧ c.hasErr (pgClus cl) 0 10 = true) ∧ ∀ m, m ≠ cl.val → c.clus m = s.chip.clus m)) ∧
  (∀ (s : State) (cl : ClusterId) (a : Nat),
    s.chip.isPowered →
    (s.chip.clus cl).sfu.state = 1 →
    oldRefs s.chip cl = 0 →
    s.chip.tasRead (s.chip.rg64 (sfuReg cl 0x600)) imageSize = .poison a →
    Does (.sfuLoadComplete cl) s (fun c =>
      (c.clus cl).sfu = { (s.chip.clus cl).sfu with state := 3, loadErr := 6, fault := 0 } ∧ c.hasErr (pgClus cl) 0 10 = true ∧ (∀ m, m ≠ cl.val → c.clus m = s.chip.clus m) ∧ c.mem = s.chip.mem)) ∧
  (∀ (s : State) (cl : ClusterId),
    s.chip.isPowered →
    (s.chip.clus cl).sfu.state = 1 →
    oldRefs s.chip cl = 0 →
    s.chip.tasRead (s.chip.rg64 (sfuReg cl 0x600)) imageSize = .access →
    Does (.sfuLoadComplete cl) s (fun c =>
      (c.clus cl).sfu = { (s.chip.clus cl).sfu with state := 3, loadErr := 6, fault := 0 } ∧ c.hasErr (pgClus cl) 0 10 = true ∧ (∀ m, m ≠ cl.val → c.clus m = s.chip.clus m))) ∧
  (∀ (s : State) (cl : ClusterId) (hi : W32) (b : Nat),
    s.chip.isOn →
    (s.chip.clus cl).sfu.armed = false →
    b = s.chip.lowHalf (sfuReg cl 0x610) + 2 ^ 32 * (hi.toNat % 2 ^ 22) →
    Does (.sfuFlipArm cl hi) s (fun c =>
      (c.clus cl).sfu.armed = true ∧ (c.clus cl).sfu.flipAt = s.chip.armedAt b ∧ (c.clus cl).sfu.active = (s.chip.clus cl).sfu.active ∧ c.mem = s.chip.mem ∧ c.rg64 (sfuReg cl 0x610) = b ∧
      (b ≤ s.chip.beat → c.hasErr pgCad 0 12 = true))) ∧
  (∀ (s : State) (cl : ClusterId) (hi : W32),
    s.chip.isOn →
    (s.chip.clus cl).sfu.armed = true →
    Does (.sfuFlipArm cl hi) s (fun c =>
      s.chip.logs c (pgClus cl) 0 31)) ∧
  (∀ (s : State) (cl : ClusterId),
    s.chip.isOn →
    s.chip.pwr.st ≠ 3 →
    s.chip.pwr.st ≠ 4 →
    Does (.sfuDisarm cl) s (fun c =>
      c = s.chip.setClus cl { s.chip.clus cl with sfu := { (s.chip.clus cl).sfu with armed := false } }))

/-- SFU_FLIP at the earliest flip beat that has come (R133): when every cluster armed for that beat is READY, each of
them swaps its banks, counts its generation and disarms; when one is not READY, none swaps, every one of them disarms
and sets MISSED, and the slice logs a UC. Clusters armed for another beat, and those not armed, stay as they are; with
no flip due nothing changes. -/
def Obligations.SfuFlip : Prop :=
  (∀ (s : State) (b : Nat),
    s.chip.isReady →
    s.chip.cascadeDue b = true →
    ∃ n < 24, (s.chip.clus n).sfu.armed = true ∧ (s.chip.clus n).sfu.flipAt = b →
    ∀ n < 24, (s.chip.clus n).sfu.armed = true → s.chip.cascadeDue (s.chip.clus n).sfu.flipAt = true → b ≤ (s.chip.clus n).sfu.flipAt →
    ∀ n < 24, (s.chip.clus n).sfu.armed = true → (s.chip.clus n).sfu.flipAt = b → (s.chip.clus n).sfu.state = 2 →
    Does (.sfuFlip) s (fun c =>
      (∀ n < 24, (s.chip.clus n).sfu.armed = true → (s.chip.clus n).sfu.flipAt = b → (c.clus n).sfu.active = (s.chip.clus n).sfu.shadow ∧ (c.clus n).sfu.shadow = (s.chip.clus n).sfu.active ∧
        (c.clus n).sfu.gen = (s.chip.clus n).sfu.gen + 1 ∧ (c.clus n).sfu.armed = false) ∧
      (∀ n < 24, (s.chip.clus n).sfu.armed = false ∨ (s.chip.clus n).sfu.flipAt ≠ b → c.clus n = s.chip.clus n) ∧ c.mem = s.chip.mem)) ∧
  (∀ (s : State) (b : Nat),
    s.chip.isReady →
    s.chip.cascadeDue b = true →
    ∃ n < 24, (s.chip.clus n).sfu.armed = true ∧ (s.chip.clus n).sfu.flipAt = b ∧ (s.chip.clus n).sfu.state ≠ 2 →
    ∀ n < 24, (s.chip.clus n).sfu.armed = true → s.chip.cascadeDue (s.chip.clus n).sfu.flipAt = true → b ≤ (s.chip.clus n).sfu.flipAt →
    Does (.sfuFlip) s (fun c =>
      (∀ n < 24, (s.chip.clus n).sfu.armed = true → (s.chip.clus n).sfu.flipAt = b → (c.clus n).sfu.active = (s.chip.clus n).sfu.active ∧ (c.clus n).sfu.gen = (s.chip.clus n).sfu.gen ∧
        (c.clus n).sfu.armed = false ∧ (c.clus n).sfu.missed = true) ∧ c.pwr = s.chip.pwr ∧
      (∀ n < 24, (s.chip.clus n).sfu.armed = false ∨ (s.chip.clus n).sfu.flipAt ≠ b → c.clus n = s.chip.clus n) ∧ c.mem = s.chip.mem)) ∧
  (∀ (s : State),
    s.chip.isReady →
    ∀ n < 24, (s.chip.clus n).sfu.armed = true → s.chip.cascadeDue (s.chip.clus n).sfu.flipAt = false →
    Does (.sfuFlip) s (fun c =>
      c = s.chip))


/-! ## Sequence slots -/

/-- BIND checks a NEW or PARKED descriptor and puts the slot into BINDING with the descriptor's root, generation and
lengths, the descriptor marked BOUND; in any state but IDLE it is refused with code 1, without a descriptor table with
code 4, for a descriptor in another state with code 2 and for a malformed one with code 3, each with a CE cause 12
(R138, R150, R164). BIND_COMPLETE enters READY once every reserve is full, and not before; BIND_TIMEOUT gives up with
code 5 after EVICT_SLACK. -/
def Obligations.SlotBind : Prop :=
  (∀ (s : State) (n : SlotId) (desc : Nat) (w : List Nat) (l : List Byte),
    s.chip.isReady →
    desc < 4096 →
    (s.chip.slot n).st = 0 →
    s.chip.seqTab ≠ 0 →
    s.chip.seqTab + 2 ^ 20 ≤ t0Size →
    w = leWords 12 (s.chip.bytes (s.chip.descAddr desc) 48) →
    fld 1 0 (wd w 0) = 0 ∨ fld 1 0 (wd w 0) = 2 →
    s.chip.tasRead (dLenTab w) (4 * min 128 (dLayers w)) = .ok l →
    descBad w (leWords (min 128 (dLayers w)) l) = false →
    ∀ i < 20, s.chip.le (s.chip.descAddr desc + 0x30 + 4 * i) 4 = 0 →
    Does (.bind n desc) s (fun c =>
      (c.slot n).st = 1 ∧ (c.slot n).desc = desc ∧ (c.slot n).words = w ∧ (c.slot n).root = dRoot w ∧ (c.slot n).dirGen = wd w 8 ∧ (c.slot n).lens = leWords (min 128 (dLayers w)) l ∧ (c.slot n).lost = 0 ∧
      (s.chip.poolEn = false → c.le (s.chip.descAddr desc) 4 = 1 + 2 ^ 8 * n) ∧ ∀ m, m ≠ n.val → c.slot m = s.chip.slot m)) ∧
  (∀ (s : State) (n : SlotId) (desc : Nat),
    s.chip.isReady →
    desc < 4096 →
    (s.chip.slot n).st ≠ 0 →
    Does (.bind n desc) s (fun c =>
      (s.chip.setSlot n { s.chip.slot n with refuse := 1 }).logs c (pgSlot n) 0 12)) ∧
  (∀ (s : State) (n : SlotId) (desc : Nat),
    s.chip.isReady →
    desc < 4096 →
    (s.chip.slot n).st = 0 →
    s.chip.seqTab = 0 ∨ t0Size < s.chip.seqTab + 2 ^ 20 →
    Does (.bind n desc) s (fun c =>
      (s.chip.setSlot n { s.chip.slot n with refuse := 4 }).logs c (pgSlot n) 0 12)) ∧
  (∀ (s : State) (n : SlotId) (desc : Nat) (w : List Nat),
    s.chip.isReady →
    desc < 4096 →
    (s.chip.slot n).st = 0 →
    s.chip.seqTab ≠ 0 →
    s.chip.seqTab + 2 ^ 20 ≤ t0Size →
    w = leWords 12 (s.chip.bytes (s.chip.descAddr desc) 48) →
    fld 1 0 (wd w 0) = 1 ∨ fld 1 0 (wd w 0) = 3 →
    Does (.bind n desc) s (fun c =>
      (s.chip.setSlot n { s.chip.slot n with refuse := 2 }).logs c (pgSlot n) 0 12)) ∧
  (∀ (s : State) (n : SlotId) (desc : Nat) (w : List Nat) (l : List Byte),
    s.chip.isReady →
    desc < 4096 →
    (s.chip.slot n).st = 0 →
    s.chip.seqTab ≠ 0 →
    s.chip.seqTab + 2 ^ 20 ≤ t0Size →
    w = leWords 12 (s.chip.bytes (s.chip.descAddr desc) 48) →
    fld 1 0 (wd w 0) = 0 ∨ fld 1 0 (wd w 0) = 2 →
    s.chip.tasRead (dLenTab w) (4 * min 128 (dLayers w)) = .ok l →
    descBad w (leWords (min 128 (dLayers w)) l) = true ∨ ∃ i < 20, s.chip.le (s.chip.descAddr desc + 0x30 + 4 * i) 4 ≠ 0 →
    Does (.bind n desc) s (fun c =>
      (c.slot n) = { s.chip.slot n with refuse := 3 } ∧ c.hasErr (pgSlot n) 0 12 = true ∧ c.mem = s.chip.mem ∧ ∀ m, m ≠ n.val → c.slot m = s.chip.slot m)) ∧
  (∀ (s : State) (n : SlotId),
    s.chip.isReady →
    (s.chip.slot n).st = 1 →
    (s.chip.slot n).short = 0 →
    Does (.bindComplete n) s (fun c =>
      c.slot n = { s.chip.slot n with st := 2, refuse := 0, shortAt := none } ∧ ∀ m, m ≠ n.val → c.slot m = s.chip.slot m)) ∧
  (∀ (s : State) (n : SlotId),
    s.chip.isReady →
    (s.chip.slot n).st = 1 →
    (s.chip.slot n).short ≠ 0 →
    Does (.bindComplete n) s (fun c =>
      c = s.chip)) ∧
  (∀ (s : State) (n : SlotId),
    s.chip.isReady →
    (s.chip.slot n).st = 1 →
    (s.chip.slot n).short ≠ 0 →
    (s.chip.slot n).bindAt + dSlack (s.chip.slot n).words ≤ s.chip.beat →
    Does (.bindTimeout n) s (fun c =>
      c.slot n = { refuse := 5, lost := (s.chip.slot n).lost } ∧ c.hasErr (pgSlot n) 0 12 = true ∧
      ((∀ e ∈ (s.chip.queue n).started, slotWaits e = false) → c.le (s.chip.descAddr (s.chip.slot n).desc) 4 = wd (s.chip.slot n).words 0 % 2 ^ 32)))

/-- PARK of a slot that is in no ring, every position whole, goes to PARKING; with an incomplete position it is
refused with code 6, in a ring or in another state with code 1 (R163). RELEASE raises DIR_GEN and goes to RELEASING,
and is refused with code 1 in a ring or in another state (R164). PARK_COMPLETE and RELEASE_COMPLETE return to IDLE
once the slot's quarantine is empty, and not before; APPEND_LOST stays until the next BIND (R152). -/
def Obligations.SlotParkRelease : Prop :=
  (∀ (s : State) (n : SlotId),
    s.chip.isReady →
    (s.chip.slot n).st = 2 ∨ (s.chip.slot n).st = 3 →
    (s.chip.slot n).inRing = false →
    (s.chip.slot n).whole = true →
    Does (.park n) s (fun c =>
      (c.slot n).st = 5 ∧ (c.slot n).refuse = 0 ∧ (c.slot n).desc = (s.chip.slot n).desc ∧ (c.slot n).root = (s.chip.slot n).root ∧ (c.slot n).lens = (s.chip.slot n).lens ∧
      (c.slot n).publ = none ∧ (c.slot n).lost = (s.chip.slot n).lost ∧ ∀ r ∈ (c.slot n).reserve, r = [])) ∧
  (∀ (s : State) (n : SlotId),
    s.chip.isReady →
    (s.chip.slot n).st = 2 ∨ (s.chip.slot n).st = 3 →
    (s.chip.slot n).inRing = false →
    (s.chip.slot n).whole = false →
    Does (.park n) s (fun c =>
      (s.chip.setSlot n { s.chip.slot n with refuse := 6 }).logs c (pgSlot n) 0 12)) ∧
  (∀ (s : State) (n : SlotId),
    s.chip.isReady →
    (s.chip.slot n).inRing = true ∨ ((s.chip.slot n).st ≠ 2 ∧ (s.chip.slot n).st ≠ 3) →
    Does (.park n) s (fun c =>
      (s.chip.setSlot n { s.chip.slot n with refuse := 1 }).logs c (pgSlot n) 0 12)) ∧
  (∀ (s : State) (n : SlotId),
    s.chip.isReady →
    (s.chip.slot n).st = 5 →
    quarOf n s.chip = 0 →
    Does (.parkComplete n) s (fun c =>
      c.slot n = { lost := (s.chip.slot n).lost } ∧ ∀ m, m ≠ n.val → c.slot m = s.chip.slot m)) ∧
  (∀ (s : State) (n : SlotId),
    s.chip.isReady →
    (s.chip.slot n).st = 5 →
    quarOf n s.chip ≠ 0 →
    Does (.parkComplete n) s (fun c =>
      c = s.chip)) ∧
  (∀ (s : State) (n : SlotId),
    s.chip.isReady →
    (s.chip.slot n).st = 2 ∨ (s.chip.slot n).st = 3 ∨ (s.chip.slot n).st = 4 →
    (s.chip.slot n).inRing = false →
    Does (.release n) s (fun c =>
      (c.slot n).st = 6 ∧ (c.slot n).refuse = 0 ∧ (c.slot n).dirGen = ((s.chip.slot n).dirGen + 1) % 2 ^ 32 ∧ (c.slot n).publ = none ∧ (c.slot n).lost = (s.chip.slot n).lost)) ∧
  (∀ (s : State) (n : SlotId),
    s.chip.isReady →
    (s.chip.slot n).inRing = true ∨ ((s.chip.slot n).st ≠ 2 ∧ (s.chip.slot n).st ≠ 3 ∧ (s.chip.slot n).st ≠ 4) →
    Does (.release n) s (fun c =>
      (s.chip.setSlot n { s.chip.slot n with refuse := 1 }).logs c (pgSlot n) 0 12)) ∧
  (∀ (s : State) (n : SlotId),
    s.chip.isReady →
    (s.chip.slot n).st = 6 →
    (s.chip.slot n).toQuar = [] →
    quarOf n s.chip = 0 →
    Does (.releaseComplete n) s (fun c =>
      c.slot n = { lost := (s.chip.slot n).lost } ∧ ∀ m, m ≠ n.val → c.slot m = s.chip.slot m)) ∧
  (∀ (s : State) (n : SlotId),
    s.chip.isReady →
    (s.chip.slot n).st = 6 →
    (s.chip.slot n).toQuar ≠ [] ∨ quarOf n s.chip ≠ 0 →
    Does (.releaseComplete n) s (fun c =>
      c = s.chip))

/-- RESUME returns an APPEND_STALL slot to READY with every cursor at its layer's LEN, when no reserve is short and a
slot stalled at its quota has room; otherwise it is refused with code 5, in another state with code 1. CLEAR_FAULT
does the same for a FAULTED slot (R151). -/
def Obligations.SlotResume : Prop :=
  (∀ (s : State) (n : SlotId),
    s.chip.isReady →
    (s.chip.slot n).st = 3 →
    (s.chip.slot n).short = 0 →
    (s.chip.slot n).cause ≠ 2 ∨ (s.chip.slot n).len (s.chip.slot n).layer < dQuota (s.chip.slot n).words →
    Does (.resume n) s (fun c =>
      c = s.chip.setSlot n { (s.chip.slot n).resetCursors with st := 2, refuse := 0, cause := 0 })) ∧
  (∀ (s : State) (n : SlotId),
    s.chip.isReady →
    (s.chip.slot n).st = 3 →
    (s.chip.slot n).short ≠ 0 ∨ ((s.chip.slot n).cause = 2 ∧ dQuota (s.chip.slot n).words ≤ (s.chip.slot n).len (s.chip.slot n).layer) →
    Does (.resume n) s (fun c =>
      (s.chip.setSlot n { s.chip.slot n with refuse := 5 }).logs c (pgSlot n) 0 12)) ∧
  (∀ (s : State) (n : SlotId),
    s.chip.isReady →
    (s.chip.slot n).st ≠ 3 →
    Does (.resume n) s (fun c =>
      (s.chip.setSlot n { s.chip.slot n with refuse := 1 }).logs c (pgSlot n) 0 12)) ∧
  (∀ (s : State) (n : SlotId),
    s.chip.isReady →
    (s.chip.slot n).st = 4 →
    Does (.clearFault n) s (fun c =>
      c = s.chip.setSlot n { (s.chip.slot n).resetCursors with st := 2, refuse := 0, cause := 0 })) ∧
  (∀ (s : State) (n : SlotId),
    s.chip.isReady →
    (s.chip.slot n).st ≠ 4 →
    Does (.clearFault n) s (fun c =>
      (s.chip.setSlot n { s.chip.slot n with refuse := 1 }).logs c (pgSlot n) 0 12))

/-- APPEND_ROW to a READY slot advances the cursor of its layer, head and kind by one, and LEN becomes the minimum of
the layer's cursors (R153); the first row of a page takes the lowest frame of the layer's reserve (R155). A row of
another shape or format, or for a slot that is neither READY nor in APPEND_STALL, is discarded, counted and logged as
a UC cause 10; one at the quota stalls the slot with cause 2, and one that finds the reserve empty faults it with
cause 3 (R150). PAGE_SEAL sets FULL in the entry and removes the seal (R156). RESERVE_REFILL gives the layer the
lowest free frame as RESERVE (R155). RESERVE_SLACK_EXPIRE puts a slot still short into APPEND_STALL, cause 1 (R157).
-/
def Obligations.Appends : Prop :=
  (∀ (s : State) (n : SlotId) (kind head layer fmt nb pos : Nat) (el sc : List Byte),
    s.chip.isReady →
    kind < 2 →
    head < dHeads (s.chip.slot n).words →
    dHeads (s.chip.slot n).words ≤ 8 →
    layer < dLayers (s.chip.slot n).words →
    layer < 128 →
    layer < (s.chip.slot n).lens.length →
    layer < (s.chip.slot n).reserve.length →
    16 * layer + 16 ≤ (s.chip.slot n).cursors.length →
    nb = dDim (s.chip.slot n).words →
    fmt = (if kind = 0 then dKFmt (s.chip.slot n).words else dVFmt (s.chip.slot n).words) →
    pos = (s.chip.slot n).cursor layer head kind →
    (s.chip.slot n).st = 2 →
    pos < dQuota (s.chip.slot n).words →
    eValid (pte s.chip (s.chip.slot n).root layer (pos / dTpp (s.chip.slot n).words)) = true →
    Does (.appendRow (n + 32 * kind + 64 * head + 512 * layer) fmt nb el sc) s (fun c =>
      (c.slot n).cursors = (s.chip.slot n).cursors.set (16 * layer + 2 * head + kind) (pos + 1) ∧
      (c.slot n).len layer = ((c.slot n).layerCur layer).foldl min (pos + 1) ∧
      (c.slot n).lost = (s.chip.slot n).lost ∧ (c.slot n).st = 2 ∧ ∀ m, m ≠ n.val → c.slot m = s.chip.slot m ∧
      (c.slot n).reserve = (s.chip.slot n).reserve)) ∧
  (∀ (s : State) (n : SlotId) (kind head layer fmt nb pos : Nat) (el sc : List Byte) (f : Nat) (r : List Nat),
    s.chip.isReady →
    kind < 2 →
    head < dHeads (s.chip.slot n).words →
    dHeads (s.chip.slot n).words ≤ 8 →
    layer < dLayers (s.chip.slot n).words →
    layer < 128 →
    layer < (s.chip.slot n).lens.length →
    layer < (s.chip.slot n).reserve.length →
    16 * layer + 16 ≤ (s.chip.slot n).cursors.length →
    nb = dDim (s.chip.slot n).words →
    fmt = (if kind = 0 then dKFmt (s.chip.slot n).words else dVFmt (s.chip.slot n).words) →
    pos = (s.chip.slot n).cursor layer head kind →
    (s.chip.slot n).st = 2 →
    pos < dQuota (s.chip.slot n).words →
    eValid (pte s.chip (s.chip.slot n).root layer (pos / dTpp (s.chip.slot n).words)) = false →
    (s.chip.slot n).reserve.getD layer [] = f :: r →
    Does (.appendRow (n + 32 * kind + 64 * head + 512 * layer) fmt nb el sc) s (fun c =>
      (c.slot n).cursors = (s.chip.slot n).cursors.set (16 * layer + 2 * head + kind) (pos + 1) ∧
      (c.slot n).len layer = ((c.slot n).layerCur layer).foldl min (pos + 1) ∧
      (c.slot n).lost = (s.chip.slot n).lost ∧ (c.slot n).st = 2 ∧ ∀ m, m ≠ n.val → c.slot m = s.chip.slot m ∧
      (c.slot n).reserve = (s.chip.slot n).reserve.set layer r)) ∧
  (∀ (s : State) (n : SlotId) (h fmt nb : Nat) (el sc : List Byte),
    s.chip.isReady →
    h % 32 = n.val →
    ((s.chip.slot n).st ≠ 2 ∧ (s.chip.slot n).st ≠ 3) ∨ dHeads (s.chip.slot n).words ≤ fld 8 6 h ∨ dLayers (s.chip.slot n).words ≤ fld 15 9 h ∨ nb ≠ dDim (s.chip.slot n).words ∨ fmt ≠ (if fld 5 5 h = 0 then dKFmt (s.chip.slot n).words else dVFmt (s.chip.slot n).words) →
    (s.chip.slot n).lost < 0xFFFFFFFF →
    s.chip.rg (ra (pgSlot n) 0x10) = 0 →
    Does (.appendRow h fmt nb el sc) s (fun c =>
      (c.slot n).lost = (s.chip.slot n).lost + 1 ∧ c.hasErr (pgSlot n) 2 10 = true ∧ c.mem = s.chip.mem ∧ (c.slot n).st = (s.chip.slot n).st)) ∧
  (∀ (s : State) (n : SlotId) (kind head layer fmt nb pos : Nat) (el sc : List Byte),
    s.chip.isReady →
    kind < 2 →
    head < dHeads (s.chip.slot n).words →
    dHeads (s.chip.slot n).words ≤ 8 →
    layer < dLayers (s.chip.slot n).words →
    layer < 128 →
    layer < (s.chip.slot n).lens.length →
    layer < (s.chip.slot n).reserve.length →
    16 * layer + 16 ≤ (s.chip.slot n).cursors.length →
    nb = dDim (s.chip.slot n).words →
    fmt = (if kind = 0 then dKFmt (s.chip.slot n).words else dVFmt (s.chip.slot n).words) →
    pos = (s.chip.slot n).cursor layer head kind →
    (s.chip.slot n).st = 2 →
    dQuota (s.chip.slot n).words ≤ pos →
    (s.chip.slot n).lost < 0xFFFFFFFF →
    s.chip.rg (ra (pgSlot n) 0x10) = 0 →
    Does (.appendRow (n + 32 * kind + 64 * head + 512 * layer) fmt nb el sc) s (fun c =>
      (c.slot n).lost = (s.chip.slot n).lost + 1 ∧ c.hasErr (pgSlot n) 2 10 = true ∧ c.mem = s.chip.mem ∧ (c.slot n).st = 3 ∧ (c.slot n).cause = 2 ∧ (c.slot n).layer = layer ∧ c.hasErr (pgSlot n) 2 8 = true)) ∧
  (∀ (s : State) (n : SlotId) (kind head layer fmt nb pos : Nat) (el sc : List Byte),
    s.chip.isReady →
    kind < 2 →
    head < dHeads (s.chip.slot n).words →
    dHeads (s.chip.slot n).words ≤ 8 →
    layer < dLayers (s.chip.slot n).words →
    layer < 128 →
    layer < (s.chip.slot n).lens.length →
    layer < (s.chip.slot n).reserve.length →
    16 * layer + 16 ≤ (s.chip.slot n).cursors.length →
    nb = dDim (s.chip.slot n).words →
    fmt = (if kind = 0 then dKFmt (s.chip.slot n).words else dVFmt (s.chip.slot n).words) →
    pos = (s.chip.slot n).cursor layer head kind →
    (s.chip.slot n).st = 2 ∨ (s.chip.slot n).st = 3 →
    pos < dQuota (s.chip.slot n).words →
    eValid (pte s.chip (s.chip.slot n).root layer (pos / dTpp (s.chip.slot n).words)) = false →
    (s.chip.slot n).reserve.getD layer [] = [] →
    (s.chip.slot n).lost < 0xFFFFFFFF →
    s.chip.rg (ra (pgSlot n) 0x10) = 0 →
    Does (.appendRow (n + 32 * kind + 64 * head + 512 * layer) fmt nb el sc) s (fun c =>
      (c.slot n).lost = (s.chip.slot n).lost + 1 ∧ c.hasErr (pgSlot n) 2 10 = true ∧ c.mem = s.chip.mem ∧ (c.slot n).st = 4 ∧ (c.slot n).cause = 3 ∧ (c.slot n).layer = layer ∧ c.hasErr (pgSlot n) 2 9 = true)) ∧
  (∀ (s : State) (h fmt nb : Nat) (el sc : List Byte),
    s.chip.isReady →
    Does (.appendRow h fmt nb el sc) s (fun c =>
      let n := fld 4 0 h; let k := appendOne h fmt nb el sc s.chip; let d := (k.slot n).lost - (s.chip.slot n).lost; let a := ra (pgSlot n) 0x10; let k1 := k.setRg a (s.chip.rg a); let k2 := (if (s.chip.slot n).st = 0 then ucOp (pgSlot n) 10 0 d h k1 else ucSeq n 10 d h k1);
      c = (if d = 0 then k else k2.setRg a (k2.rg a ||| k.rg a)))) ∧
  (∀ (s : State) (h fmt nb : Nat) (el sc : List Byte),
    ((s.chip.slot (fld 4 0 h)).st ≠ 2 ∧ (s.chip.slot (fld 4 0 h)).st ≠ 3) ∨ dHeads (s.chip.slot (fld 4 0 h)).words ≤ fld 8 6 h ∨ dLayers (s.chip.slot (fld 4 0 h)).words ≤ fld 15 9 h ∨ nb ≠ dDim (s.chip.slot (fld 4 0 h)).words ∨ fmt ≠ (if fld 5 5 h = 0 then dKFmt (s.chip.slot (fld 4 0 h)).words else dVFmt (s.chip.slot (fld 4 0 h)).words) →
    appendOne h fmt nb el sc s.chip = loseRow (fld 4 0 h) s.chip) ∧
  (∀ (s : State) (n : SlotId) (kind head layer fmt nb pos : Nat) (el sc : List Byte),
    kind < 2 →
    head < dHeads (s.chip.slot n).words →
    dHeads (s.chip.slot n).words ≤ 8 →
    layer < dLayers (s.chip.slot n).words →
    layer < 128 →
    layer < (s.chip.slot n).lens.length →
    layer < (s.chip.slot n).reserve.length →
    16 * layer + 16 ≤ (s.chip.slot n).cursors.length →
    nb = dDim (s.chip.slot n).words →
    fmt = (if kind = 0 then dKFmt (s.chip.slot n).words else dVFmt (s.chip.slot n).words) →
    pos = (s.chip.slot n).cursor layer head kind →
    (s.chip.slot n).st = 2 ∨ (s.chip.slot n).st = 3 →
    dQuota (s.chip.slot n).words ≤ pos →
    appendOne (n + 32 * kind + 64 * head + 512 * layer) fmt nb el sc s.chip = stallSlot n 2 layer (loseRow n s.chip)) ∧
  (∀ (s : State) (n : SlotId) (kind head layer fmt nb pos : Nat) (el sc : List Byte),
    kind < 2 →
    head < dHeads (s.chip.slot n).words →
    dHeads (s.chip.slot n).words ≤ 8 →
    layer < dLayers (s.chip.slot n).words →
    layer < 128 →
    layer < (s.chip.slot n).lens.length →
    layer < (s.chip.slot n).reserve.length →
    16 * layer + 16 ≤ (s.chip.slot n).cursors.length →
    nb = dDim (s.chip.slot n).words →
    fmt = (if kind = 0 then dKFmt (s.chip.slot n).words else dVFmt (s.chip.slot n).words) →
    pos = (s.chip.slot n).cursor layer head kind →
    (s.chip.slot n).st = 2 ∨ (s.chip.slot n).st = 3 →
    pos < dQuota (s.chip.slot n).words →
    eValid (pte s.chip (s.chip.slot n).root layer (pos / dTpp (s.chip.slot n).words)) = false →
    (s.chip.slot n).reserve.getD layer [] = [] →
    appendOne (n + 32 * kind + 64 * head + 512 * layer) fmt nb el sc s.chip = faultSlot n 3 layer (loseRow n s.chip)) ∧
  (∀ (s : State) (n : SlotId) (kind head layer fmt nb pos : Nat) (el sc : List Byte),
    kind < 2 →
    head < dHeads (s.chip.slot n).words →
    dHeads (s.chip.slot n).words ≤ 8 →
    layer < dLayers (s.chip.slot n).words →
    layer < 128 →
    layer < (s.chip.slot n).lens.length →
    layer < (s.chip.slot n).reserve.length →
    16 * layer + 16 ≤ (s.chip.slot n).cursors.length →
    nb = dDim (s.chip.slot n).words →
    fmt = (if kind = 0 then dKFmt (s.chip.slot n).words else dVFmt (s.chip.slot n).words) →
    pos = (s.chip.slot n).cursor layer head kind →
    (s.chip.slot n).st = 3 →
    pos < dQuota (s.chip.slot n).words →
    eValid (pte s.chip (s.chip.slot n).root layer (pos / dTpp (s.chip.slot n).words)) = true ∨ (s.chip.slot n).reserve.getD layer [] ≠ [] →
    (s.chip.slot n).cause ≠ 1 ∨ inStep s.chip n = false →
    appendOne (n + 32 * kind + 64 * head + 512 * layer) fmt nb el sc s.chip = loseRow n s.chip) ∧
  (∀ (s : State) (n : SlotId) (layer p a f : Nat),
    s.chip.isReady →
    (s.chip.slot n).seals.find? (fun x => x.1 == layer) = some (layer, p) →
    a = pteAddr s.chip (s.chip.slot n).root layer p →
    f = eFrame (s.chip.le a 8) →
    Does (.pageSeal n layer) s (fun c =>
      let m := s.chip.frameAddr f + payloadSize; let k := ((s.chip.setSlot n { s.chip.slot n with seals := (s.chip.slot n).seals.erase (layer, p) }).storeLe (m + 0x18) 4 (sealCrc s.chip 0 f)).storeLe (m + 0x10) 4 (setFld 9 0 (setFld 16 16 (s.chip.le (m + 0x10) 4) 1) (dTpp (s.chip.slot n).words));
      let j := k.storeLe a 8 (setFld 54 45 (setFld 34 34 (s.chip.le a 8) 1) (dTpp (s.chip.slot n).words)); c = j.setRecW 0 f 0 (setFld 4 4 (j.recW 0 f 0) 1))) ∧
  (∀ (s : State) (n : SlotId) (layer : Nat),
    s.chip.isReady →
    (s.chip.slot n).seals.find? (fun x => x.1 == layer) = none →
    Does (.pageSeal n layer) s (fun c =>
      c = s.chip)) ∧
  (∀ (s : State) (n : SlotId) (layer p a : Nat),
    s.chip.isReady →
    (s.chip.slot n).seals.find? (fun x => x.1 == layer) = some (layer, p) →
    a = pteAddr s.chip (s.chip.slot n).root layer p →
    s.chip.recAddr 0 (eFrame (s.chip.le a 8)) + 4 ≤ a ∨ a + 8 ≤ s.chip.recAddr 0 (eFrame (s.chip.le a 8)) →
    Does (.pageSeal n layer) s (fun c =>
      eFull (c.le a 8) = true ∧ (c.slot n).seals = (s.chip.slot n).seals.erase (layer, p) ∧ c.regs = s.chip.regs ∧ ∀ m, m ≠ n.val → c.slot m = s.chip.slot m)) ∧
  (∀ (s : State) (n : SlotId) (layer : Nat),
    s.chip.isReady →
    1 ≤ (s.chip.slot n).st →
    (s.chip.slot n).st ≤ 4 →
    layer < (s.chip.slot n).reserve.length →
    Does (.reserveRefill n layer) s (fun c =>
      c = noteShort n (fillReserve n layer s.chip))) ∧
  (∀ (s : State) (n : SlotId) (layer : Nat),
    s.chip.isReady →
    (s.chip.slot n).st = 0 ∨ 4 < (s.chip.slot n).st ∨ (s.chip.slot n).reserve.length ≤ layer →
    Does (.reserveRefill n layer) s (fun c =>
      c = s.chip)) ∧
  (∀ (s : State) (n : SlotId) (layer k : Nat),
    s.chip.isReady →
    1 ≤ (s.chip.slot n).st →
    (s.chip.slot n).st ≤ 4 →
    layer < (s.chip.slot n).reserve.length →
    ((s.chip.slot n).reserve.getD layer []).length < dRsv (s.chip.slot n).words →
    s.chip.freeFrame = some k →
    Does (.reserveRefill n layer) s (fun c =>
      (c.slot n).reserve = (s.chip.slot n).reserve.set layer (insertAsc k ((s.chip.slot n).reserve.getD layer [])) ∧ c.recKind 0 k = 1 ∧ (c.slot n).st = (s.chip.slot n).st)) ∧
  (∀ (s : State) (n : SlotId) (b : Nat),
    s.chip.isReady →
    (s.chip.slot n).st = 2 →
    (s.chip.slot n).shortAt = some b →
    b + dSlack (s.chip.slot n).words ≤ s.chip.beat →
    Does (.reserveSlackExpire n) s (fun c =>
      c = stallSlot n 1 (((s.chip.slot n).reserve.findIdx? (fun r => decide (r.length < dRsv (s.chip.slot n).words))).getD 0) s.chip)) ∧
  (∀ (s : State) (n : SlotId) (b : Nat),
    s.chip.isReady →
    (s.chip.slot n).st = 2 →
    (s.chip.slot n).shortAt = some b →
    b + dSlack (s.chip.slot n).words ≤ s.chip.beat →
    s.chip.rg (ra (pgSlot n) 0x10) = 0 →
    Does (.reserveSlackExpire n) s (fun c =>
      (c.slot n).st = 3 ∧ (c.slot n).cause = 1 ∧ c.hasErr (pgSlot n) 2 8 = true ∧ c.mem = s.chip.mem)) ∧
  (∀ (s : State) (n : SlotId),
    s.chip.isReady →
    (s.chip.slot n).st ≠ 2 ∨ (∀ b, (s.chip.slot n).shortAt = some b → s.chip.beat < b + dSlack (s.chip.slot n).words) →
    Does (.reserveSlackExpire n) s (fun c =>
      c = s.chip))

/-- PUBLICATION_ARM with a list that cannot be read is refused with code 1 and a CE cause 11; with a list that checks
it arms and builds; with one that does not check it is refused with the code and index of the failing edit; during a
build of the MTM it waits, armed; while ARMED it is ignored (R158, R159). PUBLICATION_BUILD_DONE makes the copies
ready for their beat, or for the next beat with a CE when that has passed; an MTM publication takes the next beat.
PUBLICATION_SWAP at the beat swaps ROOT, raises DIR_GEN, publishes it in PUB_GEN and sets PUBLISHED for either origin,
unless a check on LEN or on a cursor now fails (R159, R160). PUB_DISARM cancels a software publication and returns its
units. -/
def Obligations.Publications : Prop :=
  (∀ (s : State) (n : SlotId) (hi : W32),
    s.chip.isReady →
    (s.chip.slot n).pubSt ≠ 1 →
    (s.chip.slot n).publ = none →
    fld 10 0 (s.chip.rg (ra (pgSlot n) 0x128)) = 0 →
    Does (.publicationArm n hi) s (fun c =>
      (c.slot n).pubSt = 3 ∧ (c.slot n).pubCode = 1 ∧ (c.slot n).publ = none ∧ c.hasErr (pgSlot n) 0 11 = true ∧ c.mem = s.chip.mem)) ∧
  (∀ (s : State) (n : SlotId) (hi : W32) (l : List Byte) (k : Nat),
    s.chip.isReady →
    (s.chip.slot n).pubSt ≠ 1 →
    (s.chip.slot n).publ = none →
    k = fld 10 0 (s.chip.rg (ra (pgSlot n) 0x128)) →
    1 ≤ k →
    k ≤ 1024 →
    s.chip.rg64 (ra (pgSlot n) 0x120) % 16 = 0 →
    (pairApply (ra (pgSlot n) 0x12C) hi.toNat s.chip).tasRead (s.chip.rg64 (ra (pgSlot n) 0x120)) (16 * k) = .ok l →
    (startBuild n { sw := true, edits := (List.range k).map (fun i => leWords 4 (l.drop (16 * i))), at_ := (pairApply (ra (pgSlot n) 0x12C) hi.toNat s.chip).rg64 (ra (pgSlot n) 0x12C) } (pairApply (ra (pgSlot n) 0x12C) hi.toNat s.chip)).toOption.isSome = true →
    Does (.publicationArm n hi) s (fun c =>
      (c.slot n).pubSt = 1 ∧ (∃ p : Publ, (c.slot n).publ = some p ∧ p.sw = true ∧ p.built = false ∧ p.edits = (List.range k).map (fun i => leWords 4 (l.drop (16 * i))) ∧ p.at_ = (pairApply (ra (pgSlot n) 0x12C) hi.toNat s.chip).rg64 (ra (pgSlot n) 0x12C)) ∧ c.mem = s.chip.mem ∧ (c.slot n).root = (s.chip.slot n).root)) ∧
  (∀ (s : State) (n : SlotId) (hi : W32) (l : List Byte) (k : Nat) (b : Nat × Nat),
    s.chip.isReady →
    (s.chip.slot n).pubSt ≠ 1 →
    (s.chip.slot n).publ = none →
    k = fld 10 0 (s.chip.rg (ra (pgSlot n) 0x128)) →
    1 ≤ k →
    k ≤ 1024 →
    s.chip.rg64 (ra (pgSlot n) 0x120) % 16 = 0 →
    (pairApply (ra (pgSlot n) 0x12C) hi.toNat s.chip).tasRead (s.chip.rg64 (ra (pgSlot n) 0x120)) (16 * k) = .ok l →
    startBuild n { sw := true, edits := (List.range k).map (fun i => leWords 4 (l.drop (16 * i))), at_ := (pairApply (ra (pgSlot n) 0x12C) hi.toNat s.chip).rg64 (ra (pgSlot n) 0x12C) } (pairApply (ra (pgSlot n) 0x12C) hi.toNat s.chip) = .error b →
    Does (.publicationArm n hi) s (fun c =>
      (c.slot n).pubSt = 3 ∧ (c.slot n).pubCode = b.1 ∧ (c.slot n).pubIdx = b.2 ∧ (c.slot n).publ = none ∧ c.hasErr (pgSlot n) 0 11 = true ∧ c.mem = s.chip.mem ∧ (c.slot n).root = (s.chip.slot n).root)) ∧
  (∀ (s : State) (n : SlotId) (hi : W32),
    s.chip.isReady →
    (s.chip.slot n).pubSt ≠ 1 →
    (s.chip.slot n).publ ≠ none →
    Does (.publicationArm n hi) s (fun c =>
      (c.slot n).pubSt = 1 ∧ (c.slot n).armWait ≠ none ∧ (c.slot n).publ = (s.chip.slot n).publ)) ∧
  (∀ (s : State) (n : SlotId) (hi : W32),
    s.chip.isReady →
    (s.chip.slot n).pubSt = 1 →
    Does (.publicationArm n hi) s (fun c =>
      s.chip.logs c (pgSlot n) 0 31)) ∧
  (∀ (s : State) (n : SlotId) (p : Publ),
    s.chip.isReady →
    (s.chip.slot n).publ = some p →
    p.built = false →
    p.sw = true →
    s.chip.beat < p.at_ →
    Does (.publicationBuildDone n) s (fun c =>
      c = s.chip.setSlot n { s.chip.slot n with publ := some { p with built := true, late := false } })) ∧
  (∀ (s : State) (n : SlotId) (p : Publ),
    s.chip.isReady →
    (s.chip.slot n).publ = some p →
    p.built = false →
    p.sw = true →
    p.at_ ≤ s.chip.beat →
    Does (.publicationBuildDone n) s (fun c =>
      (s.chip.setSlot n { s.chip.slot n with publ := some { p with built := true, late := true, at_ := s.chip.beat + 1 } }).logs c pgCad 0 12)) ∧
  (∀ (s : State) (n : SlotId) (p : Publ),
    s.chip.isReady →
    (s.chip.slot n).publ = some p →
    p.built = false →
    p.sw = false →
    Does (.publicationBuildDone n) s (fun c =>
      c = s.chip.setSlot n { s.chip.slot n with publ := some { p with built := true, late := false, at_ := s.chip.beat + 1 } })) ∧
  (∀ (s : State) (n : SlotId) (p : Publ) (lens : List Nat),
    s.chip.isReady →
    (s.chip.slot n).publ = some p →
    p.built = true →
    s.chip.come p.at_ = true →
    swapLens (s.chip.slot n) p.edits = .ok lens →
    Does (.publicationSwap n) s (fun c =>
      (c.slot n).dirGen = ((s.chip.slot n).dirGen + 1) % 2 ^ 32 ∧ (c.slot n).pubGen = (c.slot n).dirGen ∧ (c.slot n).lens = lens ∧
      (c.slot n).root = (writeCopies n p { p.res with lens := lens } s.chip).2 ∧ (∀ m, m ≠ n.val → (c.slot m).root = (s.chip.slot m).root) ∧
      ((s.chip.slot n).armWait = none → (c.slot n).pubSt = 2 ∧ ((s.chip.slot n).mtmWait = [] → (c.slot n).publ = none)))) ∧
  (∀ (s : State) (n : SlotId) (p : Publ) (b : Nat × Nat),
    s.chip.isReady →
    (s.chip.slot n).publ = some p →
    p.built = true →
    s.chip.come p.at_ = true →
    p.sw = true →
    swapLens (s.chip.slot n) p.edits = .error b →
    Does (.publicationSwap n) s (fun c =>
      (c.slot n).root = (s.chip.slot n).root ∧ (c.slot n).dirGen = (s.chip.slot n).dirGen ∧ c.hasErr (pgSlot n) 0 11 = true ∧ (∀ u ∈ p.units, (s.chip.slot n).armWait = none → (s.chip.slot n).mtmWait = [] → u ∉ c.mtm.units) ∧
      ((s.chip.slot n).armWait = none → (c.slot n).pubSt = 3 ∧ (c.slot n).pubCode = b.1 ∧ (c.slot n).pubIdx = b.2 ∧ ((s.chip.slot n).mtmWait = [] → (c.slot n).publ = none)))) ∧
  (∀ (s : State) (n : SlotId) (p : Publ),
    s.chip.isReady →
    (s.chip.slot n).publ = some p →
    p.built = false ∨ s.chip.come p.at_ = false →
    Does (.publicationSwap n) s (fun c =>
      c = s.chip)) ∧
  (∀ (s : State) (n : SlotId) (p : Publ),
    s.chip.isReady →
    (s.chip.slot n).publ = some p →
    p.sw = true →
    Does (.pubDisarm n) s (fun c =>
      (c.slot n).root = (s.chip.slot n).root ∧ (c.slot n).dirGen = (s.chip.slot n).dirGen ∧
      ((s.chip.slot n).armWait = none → (c.slot n).pubSt = 0 ∧ ((s.chip.slot n).mtmWait = [] → (c.slot n).publ = none ∧ (∀ u ∈ p.units, u ∉ c.mtm.units) ∧ c.mem = s.chip.mem)))) ∧
  (∀ (s : State) (n : SlotId) (p : Publ),
    s.chip.isReady →
    (s.chip.slot n).publ = some p →
    p.sw = false →
    (s.chip.slot n).armWait ≠ none →
    Does (.pubDisarm n) s (fun c =>
      c = s.chip.setSlot n { s.chip.slot n with armWait := none, pubSt := 0 })) ∧
  (∀ (s : State) (n : SlotId),
    s.chip.isReady →
    (s.chip.slot n).publ = none →
    Does (.pubDisarm n) s (fun c =>
      s.chip.logs c (pgSlot n) 0 31))

/-- QUARANTINE_RELEASE of an entry whose tag HORIZON has reached removes it, and what a RELEASE has still to hand over
takes the room; a T0 frame with at most one reference is then free (R162). An entry whose tag HORIZON has not reached
stays. -/
def Obligations.QuarantineRelease : Prop :=
  (∀ (s : State) (i : Nat) (q : Quar),
    s.chip.isReady →
    s.chip.quar[i]? = some q →
    serialLt (horizonOf q.slot s.chip) q.tag = false →
    Does (.quarantineRelease i) s (fun c =>
      c.quar.take (s.chip.quar.length - 1) = s.chip.quar.eraseIdx i ∧ ((∀ m < 32, (s.chip.slot m).toQuar = []) → c.quar = s.chip.quar.eraseIdx i))) ∧
  (∀ (s : State) (i : Nat) (q : Quar),
    s.chip.isReady →
    s.chip.quar[i]? = some q →
    q.unit = false →
    q.tier = 0 →
    serialLt (horizonOf q.slot s.chip) q.tag = false →
    refCnt s.chip 0 q.idx ≤ 1 →
    bit 6 (s.chip.recW 0 q.idx 0) = false →
    bit 7 (s.chip.recW 0 q.idx 0) = false →
    (∀ m < 32, (s.chip.slot m).toQuar = []) →
    Does (.quarantineRelease i) s (fun c =>
      c.quar = s.chip.quar.eraseIdx i ∧ c.recKind 0 q.idx = 0 ∧ ∀ m, c.slot m = s.chip.slot m)) ∧
  (∀ (s : State) (i : Nat) (q : Quar),
    s.chip.isReady →
    s.chip.quar[i]? = some q →
    serialLt (horizonOf q.slot s.chip) q.tag = true →
    Does (.quarantineRelease i) s (fun c =>
      c.quar.take s.chip.quar.length = s.chip.quar ∧ ((∀ m < 32, (s.chip.slot m).toQuar = []) → c.quar = s.chip.quar ∧ c.mem = s.chip.mem ∧ c.regs = s.chip.regs ∧ ∀ m, c.slot m = s.chip.slot m)))

/-- THR_FLIP_ARM applies the beat pair, its low half the staged one when one waits, and arms for that beat, or the
next one with a CE when it has passed; while armed it is ignored with a CE cause 31 (R8, R10, R351). THR_FLIP at the
earliest flip beat that has come swaps the banks of every page walk unit armed for it when all their shadow entries
are valid: the active entries become the shadow's and the generation rises; otherwise none flips and each sets MISSED
(R189, R190). THR_DISARM cancels. -/
def Obligations.ThresholdFlips : Prop :=
  (∀ (s : State) (n : ClusterId) (hi : W32) (b : Nat),
    s.chip.isOn →
    (s.chip.pwu n).armed = false →
    b = s.chip.lowHalf (ra (pgPwu n) 0x108) + 2 ^ 32 * (hi.toNat % 2 ^ 22) →
    Does (.thrFlipArm n hi) s (fun c =>
      (c.pwu n).armed = true ∧ (c.pwu n).flipAt = s.chip.armedAt b ∧ (c.pwu n).active = (s.chip.pwu n).active ∧ (c.pwu n).gen = (s.chip.pwu n).gen ∧ (b ≤ s.chip.beat → c.hasErr pgCad 0 12 = true))) ∧
  (∀ (s : State) (n : ClusterId) (hi : W32),
    s.chip.isOn →
    (s.chip.pwu n).armed = true →
    Does (.thrFlipArm n hi) s (fun c =>
      s.chip.logs c (pgPwu n) 0 31)) ∧
  (∀ (s : State) (b : Nat),
    s.chip.isReady →
    s.chip.cascadeDue b = true →
    ∃ n < 24, (s.chip.pwu n).armed = true ∧ (s.chip.pwu n).flipAt = b →
    ∀ n < 24, (s.chip.pwu n).armed = true → s.chip.cascadeDue (s.chip.pwu n).flipAt = true → b ≤ (s.chip.pwu n).flipAt →
    ∀ n < 24, (s.chip.pwu n).armed = true → (s.chip.pwu n).flipAt = b → s.chip.thrBad n = none →
    Does (.thrFlip) s (fun c =>
      (∀ n < 24, (s.chip.pwu n).armed = true → (s.chip.pwu n).flipAt = b → (∀ i < 256, (c.thrActive n i).toNat = s.chip.thrShadow n i) ∧ (c.pwu n).gen = (s.chip.pwu n).gen + 1 ∧ (c.pwu n).armed = false) ∧
      (∀ n < 24, (s.chip.pwu n).armed = false ∨ (s.chip.pwu n).flipAt ≠ b → c.pwu n = s.chip.pwu n) ∧ c.mem = s.chip.mem)) ∧
  (∀ (s : State) (b : Nat),
    s.chip.isReady →
    s.chip.cascadeDue b = true →
    ∃ n < 24, (s.chip.pwu n).armed = true ∧ (s.chip.pwu n).flipAt = b ∧ s.chip.thrBad n ≠ none →
    ∀ n < 24, (s.chip.pwu n).armed = true → s.chip.cascadeDue (s.chip.pwu n).flipAt = true → b ≤ (s.chip.pwu n).flipAt →
    Does (.thrFlip) s (fun c =>
      (∀ n < 24, (s.chip.pwu n).armed = true → (s.chip.pwu n).flipAt = b → (c.pwu n).active = (s.chip.pwu n).active ∧ (c.pwu n).gen = (s.chip.pwu n).gen ∧ (c.pwu n).armed = false ∧ (c.pwu n).missed = true) ∧
      (∀ n < 24, (s.chip.pwu n).armed = false ∨ (s.chip.pwu n).flipAt ≠ b → c.pwu n = s.chip.pwu n) ∧ c.mem = s.chip.mem)) ∧
  (∀ (s : State),
    s.chip.isReady →
    ∀ n < 24, (s.chip.pwu n).armed = true → s.chip.cascadeDue (s.chip.pwu n).flipAt = false →
    Does (.thrFlip) s (fun c =>
      c = s.chip)) ∧
  (∀ (s : State) (n : ClusterId),
    s.chip.isOn →
    s.chip.pwr.st ≠ 3 →
    s.chip.pwr.st ≠ 4 →
    Does (.thrDisarm n) s (fun c =>
      c = s.chip.setPwu n { s.chip.pwu n with armed := false }))


/-! ## Cadence and event table -/

/-- BEAT_POINT passes the counter to the next beat, tick 0, and places on each port on which markers run a marker that
carries SYNC and the next nibble of the frame, fixed at each beat that is a multiple of 32 (R229, R233, R234); while
the ticks stop the counter stays (R242). LINK_MEASURE gives T_A from 16 markers or more, the delay and the offset, and
none from fewer or while the peer marks its own invalid (R236); from the parent it sets the module's offset and steers
within 50 ppm (R238). A TIME frame sets the MASTER's discipline offset while DISC is enabled, and is only taken
otherwise (R243). -/
def Obligations.CadenceTime : Prop :=
  (∀ (s : State),
    s.chip.isOn →
    s.chip.cad.stop < 1024 →
    Does (.beatPoint) s (fun c =>
      c.beat = s.chip.beat + 1 ∧ c.cad.now = 1024 * (s.chip.beat + 1) ∧ c.cad.st = s.chip.cad.st ∧ c.cad.master = s.chip.cad.master ∧ c.cad.mepoch = s.chip.cad.mepoch ∧
      ((∀ i < 12, (s.chip.gmc i).waiting = []) → c.cores = s.chip.cores ∧ c.mem = s.chip.mem ∧ (∀ p < 6, marks s.chip p = false → c.link p = s.chip.link p)))) ∧
  (∀ (s : State) (p : PortId),
    s.chip.isOn →
    s.chip.cad.stop < 1024 →
    marks s.chip p = true →
    Does (.beatPoint) s (fun c =>
      (c.link p).mark = some ((if s.chip.cad.st = 1 ∨ s.chip.cad.st = 2 ∨ s.chip.cad.st = 3 then 8 else 0) +
        16 * (if (s.chip.beat + 1) % 32 = 0 then frameOf s.chip p (s.chip.beat + 1) else Tab.get (fun _ => []) s.chip.cad.txFrames p).getD ((s.chip.beat + 1) % 32) 0))) ∧
  (∀ (s : State),
    s.chip.isOn →
    1024 ≤ s.chip.cad.stop →
    Does (.beatPoint) s (fun c =>
      c.beat = s.chip.beat ∧ c.cad.now = s.chip.cad.now ∧ c.cad.stop = s.chip.cad.stop - 1024 ∧ c.cad.st = s.chip.cad.st)) ∧
  (∀ (s : State) (p : PortId) (k : Nat) (m : Int),
    s.chip.isOn →
    16 ≤ k →
    (s.chip.cad.port p).tbad = false →
    Does (.linkMeasure p k m) s (fun c =>
      c.cad.port p = { s.chip.cad.port p with ta := some m, delay := some ((m + (s.chip.cad.port p).tmeas) / 2), ofs := some ((m - (s.chip.cad.port p).tmeas) / 2) } ∧ c.cad.now = s.chip.cad.now ∧ c.cores = s.chip.cores ∧ c.mem = s.chip.mem ∧
      (s.chip.cad.parent ≠ p → c.cad.freqAdj = s.chip.cad.freqAdj))) ∧
  (∀ (s : State) (p : PortId) (k : Nat) (m : Int),
    s.chip.isOn →
    16 ≤ k →
    (s.chip.cad.port p).tbad = true →
    Does (.linkMeasure p k m) s (fun c =>
      c.cad.port p = { s.chip.cad.port p with ta := some m, delay := none, ofs := none } ∧ c.cad.now = s.chip.cad.now ∧ (s.chip.cad.parent = p → c.cad.parent = p → c.cad.offset = none))) ∧
  (∀ (s : State) (p : PortId) (k : Nat) (m : Int),
    s.chip.isOn →
    k < 16 →
    Does (.linkMeasure p k m) s (fun c =>
      c.cad.port p = { s.chip.cad.port p with ta := none, delay := none, ofs := none } ∧ c.cad.now = s.chip.cad.now ∧ (s.chip.cad.parent = p → c.cad.parent = p → c.cad.offset = none))) ∧
  (∀ (s : State) (p : PortId) (k : Nat) (m : Int),
    s.chip.isOn →
    16 ≤ k →
    (s.chip.cad.port p).tbad = false →
    s.chip.cad.parent = p →
    Does (.linkMeasure p k m) s (fun c =>
      (c.cad.parent = p → c.cad.offset = some ((m - (s.chip.cad.port p).tmeas) / 2)) ∧ ((s.chip.cad.st ≠ 2 ∧ s.chip.cad.st ≠ 3) ∨ s.chip.admissible p = true → c.cad.parent = p) ∧ -50000 ≤ c.cad.freqAdj ∧ c.cad.freqAdj ≤ 50000 ∧ c.cad.now = s.chip.cad.now)) ∧
  (∀ (s : State) (f : Frame),
    s.chip.takes 0x30 f →
    leNat f.body < 2 ^ 32 →
    s.chip.cad.st = 1 →
    bit 0 (s.chip.rg (cadReg 0x12C)) = true →
    Does (.time f) s (fun c =>
      c.cad.discOfs = i32 (leNat f.body) ∧ c.cad.discAge = 0 ∧ -50000 ≤ c.cad.freqAdj ∧ c.cad.freqAdj ≤ 50000 ∧ c.cad.now = s.chip.cad.now ∧ c.mbp = s.chip.mbp.took 0x30)) ∧
  (∀ (s : State) (f : Frame),
    s.chip.takes 0x30 f →
    leNat f.body < 2 ^ 32 →
    s.chip.cad.st ≠ 1 ∨ bit 0 (s.chip.rg (cadReg 0x12C)) = false →
    Does (.time f) s (fun c =>
      c = { s.chip with mbp := s.chip.mbp.took 0x30 }))

/-- MASTER_ELECTION makes a module with MST_N low MASTER when it has accepted no frame within 2,048 beats of READY,
with MEPOCH 0 and its own ID, the count running on (R231). CADENCE_LOCK enters LOCKED after 32 beats within 1 ns
(R238). HOLDOVER_ENTRY enters HOLDOVER after 8 missing markers or at SYNC 0 unless a port of lower HOPS is admissible,
which then becomes the parent (R240). LOST_ENTRY follows after 4,096 beats with a UC of the slice (R241).
OVERRIDE_TAKEOVER makes the target MASTER and every module adopt master and epoch (R244); that another module's old
MASTER goes to HOLDOVER is the model's reading (log 25). Each of them does nothing while its condition does not hold.
-/
def Obligations.CadenceStates : Prop :=
  (∀ (s : State) (b : Nat),
    s.chip.isOn →
    s.chip.cad.readyAt = some b →
    s.chip.mst = true →
    s.chip.cad.st = 0 →
    s.chip.cad.heard = false →
    b + 2048 ≤ s.chip.beat →
    Does (.masterElection) s (fun c =>
      c.cad.st = 1 ∧ c.cad.mepoch = 0 ∧ c.cad.master = s.chip.posId ∧ c.cad.hops = 0 ∧ c.cad.now = s.chip.cad.now ∧ bit 0 (c.rg (cadReg 0x20)) = true)) ∧
  (∀ (s : State),
    s.chip.isOn →
    s.chip.mst = false ∨ s.chip.cad.heard = true ∨ s.chip.cad.st ≠ 0 ∨ (∀ b, s.chip.cad.readyAt = some b → s.chip.beat < b + 2048) →
    Does (.masterElection) s (fun c =>
      c = s.chip)) ∧
  (∀ (s : State) (o : Int),
    s.chip.isOn →
    s.chip.cad.st = 2 →
    32 ≤ s.chip.cad.within →
    s.chip.cad.offset = some o →
    o.natAbs ≤ 64 →
    Does (.cadenceLock) s (fun c =>
      c.cad.st = 3 ∧ c.cad.now = s.chip.cad.now ∧ c.cad.parent = s.chip.cad.parent ∧ c.mem = s.chip.mem)) ∧
  (∀ (s : State),
    s.chip.isOn →
    s.chip.cad.within < 32 ∨ s.chip.cad.st ≠ 2 ∨ (∀ o, s.chip.cad.offset = some o → 64 < o.natAbs) →
    Does (.cadenceLock) s (fun c =>
      c = s.chip)) ∧
  (∀ (s : State),
    s.chip.isOn →
    s.chip.cad.st = 2 ∨ s.chip.cad.st = 3 →
    8 ≤ s.chip.cad.missing ∨ (s.chip.cad.port s.chip.cad.parent).sync = false →
    ∀ p < 6, p ≠ s.chip.cad.parent → s.chip.admissible p = true → s.chip.cad.hops ≤ (s.chip.cad.port p).hops →
    Does (.holdoverEntry) s (fun c =>
      c.cad.st = 4 ∧ c.cad.parent = 7 ∧ c.hasErr pgCad 0 9 = true ∧ c.cad.now = s.chip.cad.now ∧ c.cad.freqAdj = s.chip.cad.freqAdj ∧ c.cores = s.chip.cores)) ∧
  (∀ (s : State) (p : Nat),
    s.chip.isOn →
    s.chip.cad.st = 2 ∨ s.chip.cad.st = 3 →
    8 ≤ s.chip.cad.missing ∨ (s.chip.cad.port s.chip.cad.parent).sync = false →
    s.chip.bestParent (fun x => decide ((s.chip.cad.port x).hops < s.chip.cad.hops) && x != s.chip.cad.parent) = some p →
    Does (.holdoverEntry) s (fun c =>
      c.cad.st = s.chip.cad.st ∧ c.cad.parent = p ∧ c.cad.hops = min 255 ((s.chip.cad.port p).hops + 1) ∧ c.cad.missing = 0 ∧ c.cad.now = s.chip.cad.now ∧ c.regs = s.chip.regs)) ∧
  (∀ (s : State),
    s.chip.isOn →
    (s.chip.cad.missing < 8 ∧ (s.chip.cad.port s.chip.cad.parent).sync = true) ∨ (s.chip.cad.st ≠ 2 ∧ s.chip.cad.st ≠ 3) →
    Does (.holdoverEntry) s (fun c =>
      c = s.chip)) ∧
  (∀ (s : State),
    s.chip.isOn →
    s.chip.cad.st = 4 →
    4096 ≤ s.chip.cad.holdB →
    Does (.lostEntry) s (fun c =>
      c = ucSlice pgCad 10 s.chip.cad.holdB 0 0 (cadState 5 s.chip))) ∧
  (∀ (s : State),
    s.chip.isOn →
    s.chip.cad.st = 4 →
    4096 ≤ s.chip.cad.holdB →
    s.chip.rg (ra pgCad 0x10) = 0 →
    Does (.lostEntry) s (fun c =>
      c.cad.st = 5 ∧ c.hasErr pgCad 2 10 = true ∧ c.cad.now = s.chip.cad.now ∧ c.cad.freqAdj = s.chip.cad.freqAdj ∧ c.rings = s.chip.rings)) ∧
  (∀ (s : State),
    s.chip.isOn →
    s.chip.cad.st ≠ 4 ∨ s.chip.cad.holdB < 4096 →
    Does (.lostEntry) s (fun c =>
      c = s.chip)) ∧
  (∀ (s : State) (o : Override),
    s.chip.isOn →
    s.chip.cad.override = some o →
    o.at_ ≤ s.chip.beat →
    o.target = s.chip.posId →
    Does (.overrideTakeover) s (fun c =>
      c.cad.st = 1 ∧ c.cad.master = o.target ∧ c.cad.mepoch = o.mepoch ∧ c.cad.hops = 0 ∧ c.cad.override = none ∧ c.cad.now = s.chip.cad.now ∧ c.hasErr pgCad 0 11 = true)) ∧
  (∀ (s : State) (o : Override),
    s.chip.isOn →
    s.chip.cad.override = some o →
    o.at_ ≤ s.chip.beat →
    o.target ≠ s.chip.posId →
    Does (.overrideTakeover) s (fun c =>
      c.cad.st = (if s.chip.cad.st = 1 then 4 else s.chip.cad.st) ∧ c.cad.master = o.target ∧ c.cad.mepoch = o.mepoch ∧ c.cad.override = none ∧ c.cad.now = s.chip.cad.now ∧ c.hasErr pgCad 0 11 = true)) ∧
  (∀ (s : State),
    s.chip.isOn →
    ∀ o, s.chip.cad.override = some o → s.chip.beat < o.at_ →
    Does (.overrideTakeover) s (fun c =>
      c = s.chip))

/-- EVT_ARM arms a free entry from EVT_DATA with result 0, or with result 4 and a CE when its beat has passed; a used
entry gives 1, a malformed one 2, a forbidden page 3, UNSYNC 5, each changing nothing else (R247, R248). EVT_READ
gives an entry's words, COUNT telling the firings left, EVT_CANCEL frees it, with result 6 in the beat in which it
fired. EVENT_TABLE_FIRE fires what is due: the write as the control node's register write would do it, the
notification as an event, once or again a PERIOD later; with nothing due it does nothing (R249). -/
def Obligations.EventTable : Prop :=
  (∀ (s : State) (w : List Nat),
    s.chip.isOn →
    w = (List.range 8).map (fun k => s.chip.rg (cadReg (0x190 + 4 * k))) →
    (s.chip.cad.ent s.chip.evtIdx).st = 0 →
    fld 23 22 (wd w 1) = 0 →
    fld 31 29 (wd w 1) = 0 →
    1 ≤ evtAction w →
    evtAction w ≤ 3 →
    fld 31 24 (wd w 2) = 0 →
    evtAddr w % 4 = 0 →
    wd w 6 = 0 →
    wd w 7 = 0 →
    ∀ p ∈ [pgCad, pgMgt, pgSec, pgPwr], evtAddr w / 0x1000 ≠ p →
    s.chip.cad.st ≠ 0 →
    s.chip.beat < evtBeat w →
    Does (.evtArm) s (fun c =>
      c.cad.ent s.chip.evtIdx = { st := 1, words := w, at_ := evtBeat w, left := evtCount w } ∧ c.rg (cadReg 0x188) = 0 ∧ (∀ j, j ≠ s.chip.evtIdx → c.cad.ent j = s.chip.cad.ent j) ∧ c.mem = s.chip.mem)) ∧
  (∀ (s : State) (w : List Nat),
    s.chip.isOn →
    w = (List.range 8).map (fun k => s.chip.rg (cadReg (0x190 + 4 * k))) →
    (s.chip.cad.ent s.chip.evtIdx).st = 0 →
    fld 23 22 (wd w 1) = 0 →
    fld 31 29 (wd w 1) = 0 →
    1 ≤ evtAction w →
    evtAction w ≤ 3 →
    fld 31 24 (wd w 2) = 0 →
    evtAddr w % 4 = 0 →
    wd w 6 = 0 →
    wd w 7 = 0 →
    evtAddr w / 0x1000 = pgPwr →
    evtAddr w % 0x1000 = 0x104 →
    s.chip.cad.st ≠ 0 →
    evtBeat w ≤ s.chip.beat →
    Does (.evtArm) s (fun c =>
      c.cad.ent s.chip.evtIdx = { st := 1, words := w, at_ := s.chip.beat + 1, left := evtCount w } ∧ c.rg (cadReg 0x188) = 4 ∧ c.hasErr pgCad 0 12 = true)) ∧
  (∀ (s : State),
    s.chip.isOn →
    (s.chip.cad.ent s.chip.evtIdx).st ≠ 0 →
    Does (.evtArm) s (fun c =>
      c = s.chip.setRg (cadReg 0x188) 1)) ∧
  (∀ (s : State) (w : List Nat),
    s.chip.isOn →
    w = (List.range 8).map (fun k => s.chip.rg (cadReg (0x190 + 4 * k))) →
    (s.chip.cad.ent s.chip.evtIdx).st = 0 →
    evtAction w = 0 ∨ 3 < evtAction w ∨ evtAddr w % 4 ≠ 0 ∨ wd w 6 ≠ 0 ∨ wd w 7 ≠ 0 →
    Does (.evtArm) s (fun c =>
      c = s.chip.setRg (cadReg 0x188) 2)) ∧
  (∀ (s : State) (w : List Nat),
    s.chip.isOn →
    w = (List.range 8).map (fun k => s.chip.rg (cadReg (0x190 + 4 * k))) →
    (s.chip.cad.ent s.chip.evtIdx).st = 0 →
    fld 23 22 (wd w 1) = 0 →
    fld 31 29 (wd w 1) = 0 →
    1 ≤ evtAction w →
    evtAction w ≤ 3 →
    fld 31 24 (wd w 2) = 0 →
    evtAddr w % 4 = 0 →
    wd w 6 = 0 →
    wd w 7 = 0 →
    evtAddr w / 0x1000 = pgCad ∨ evtAddr w / 0x1000 = pgMgt ∨ evtAddr w / 0x1000 = pgSec →
    Does (.evtArm) s (fun c =>
      c = s.chip.setRg (cadReg 0x188) 3)) ∧
  (∀ (s : State) (w : List Nat),
    s.chip.isOn →
    w = (List.range 8).map (fun k => s.chip.rg (cadReg (0x190 + 4 * k))) →
    (s.chip.cad.ent s.chip.evtIdx).st = 0 →
    fld 23 22 (wd w 1) = 0 →
    fld 31 29 (wd w 1) = 0 →
    1 ≤ evtAction w →
    evtAction w ≤ 3 →
    fld 31 24 (wd w 2) = 0 →
    evtAddr w % 4 = 0 →
    wd w 6 = 0 →
    wd w 7 = 0 →
    ∀ p ∈ [pgCad, pgMgt, pgSec, pgPwr], evtAddr w / 0x1000 ≠ p →
    s.chip.cad.st = 0 →
    Does (.evtArm) s (fun c =>
      c = s.chip.setRg (cadReg 0x188) 5)) ∧
  (∀ (s : State),
    s.chip.isOn →
    Does (.evtRead) s (fun c =>
      (∀ k < 8, k ≠ 4 → k ≠ 7 → c.rg (cadReg (0x190 + 4 * k)) = wd (s.chip.cad.ent s.chip.evtIdx).words k % 2 ^ 32) ∧ c.rg (cadReg 0x188) = 0 ∧ c.cad = s.chip.cad ∧ c.mem = s.chip.mem ∧
      ((s.chip.cad.ent s.chip.evtIdx).words.length = 8 → c.rg (cadReg 0x1A0) = (evtPeriod (s.chip.cad.ent s.chip.evtIdx).words + 2 ^ 16 * (s.chip.cad.ent s.chip.evtIdx).left) % 2 ^ 32 ∧ c.rg (cadReg 0x1AC) = evtState s.chip s.chip.evtIdx) ∧
      ((s.chip.cad.ent s.chip.evtIdx).words = [] → c.rg (cadReg 0x1A0) = 0 ∧ c.rg (cadReg 0x1AC) = 0))) ∧
  (∀ (s : State),
    s.chip.isOn →
    Does (.evtCancel) s (fun c =>
      (c.cad.ent s.chip.evtIdx).st = 0 ∧ c.rg (cadReg 0x188) = (if (s.chip.cad.ent s.chip.evtIdx).firedAt = some s.chip.beat then 6 else 0) ∧ (∀ j, j ≠ s.chip.evtIdx → c.cad.ent j = s.chip.cad.ent j) ∧ c.mem = s.chip.mem)) ∧
  (∀ (s : State),
    s.chip.isOn →
    ∀ i < 256, evtDue s.chip i = false →
    Does (.eventTableFire) s (fun c =>
      c = s.chip)) ∧
  (∀ (s : State) (i : Nat),
    s.chip.isOn →
    i < 256 →
    evtDue s.chip i = true →
    ∀ j < 256, evtDue s.chip j = true → evtAction (s.chip.cad.ent j).words = 2 →
    Does (.eventTableFire) s (fun c =>
      c.cad.ent i = (if evtPeriod (s.chip.cad.ent i).words ≠ 0 ∧ (s.chip.cad.ent i).left ≠ 1 then
        { s.chip.cad.ent i with at_ := (s.chip.cad.ent i).at_ + evtPeriod (s.chip.cad.ent i).words, left := (s.chip.cad.ent i).left - 1, firedAt := some s.chip.beat }
        else { firedAt := some s.chip.beat }) ∧ (∀ j < 256, evtDue s.chip j = false → c.cad.ent j = s.chip.cad.ent j) ∧ c.cad.now = s.chip.cad.now ∧ c.cad.st = s.chip.cad.st ∧ c.mem = s.chip.mem ∧ c.cores = s.chip.cores ∧
      (s.chip.mbp.sess ≠ 2 → s.chip.mbp.events.length + 512 < 1024 → s.chip.mbp.evtLost = 0 → ∃ e ∈ c.mbp.events, e.kind = 3 ∧ e.page = pgCad ∧ e.now = s.chip.cad.now ∧ e.payload = [i, wd (s.chip.cad.ent i).words 5]))) ∧
  (∀ (s : State) (i : Nat),
    s.chip.isOn →
    i < 256 →
    ∀ j < 256, evtDue s.chip j = true ↔ j = i →
    evtAction (s.chip.cad.ent i).words = 2 →
    evtCascade (s.chip.cad.ent i).words = false →
    s.chip.passed (s.chip.cad.ent i).at_ = false →
    Does (.eventTableFire) s (fun c =>
      c.cad = s.chip.cad.setEnt i (if evtPeriod (s.chip.cad.ent i).words ≠ 0 ∧ (s.chip.cad.ent i).left ≠ 1 then
        { s.chip.cad.ent i with at_ := (s.chip.cad.ent i).at_ + evtPeriod (s.chip.cad.ent i).words, left := (s.chip.cad.ent i).left - 1, firedAt := some s.chip.beat }
        else { firedAt := some s.chip.beat }) ∧
      (s.chip.mbp.events.length < 1024 → s.chip.mbp.evtLost = 0 → s.chip.mbp.sess ≠ 2 →
        c.mbp.events = s.chip.mbp.events ++ [{ eseq := s.chip.mbp.evtNext, kind := 3, page := pgCad, now := s.chip.cad.now, payload := [i, wd (s.chip.cad.ent i).words 5] }]) ∧ c.mem = s.chip.mem)) ∧
  (∀ (s : State) (i : Nat) (k : Chip),
    s.chip.isOn →
    i < 256 →
    ∀ j < i, evtDue s.chip j = false →
    evtDue s.chip i = true →
    evtAction (s.chip.cad.ent i).words = 1 ∨ evtAction (s.chip.cad.ent i).words = 3 →
    k = evtWrite (evtAddr (s.chip.cad.ent i).words) (wd (s.chip.cad.ent i).words 3) (updCad (fun y => y.setEnt i (if evtPeriod (s.chip.cad.ent i).words ≠ 0 ∧ (s.chip.cad.ent i).left ≠ 1 then
        { s.chip.cad.ent i with at_ := (s.chip.cad.ent i).at_ + evtPeriod (s.chip.cad.ent i).words, left := (s.chip.cad.ent i).left - 1, firedAt := some s.chip.beat }
        else { firedAt := some s.chip.beat }))
      (if evtCascade (s.chip.cad.ent i).words = true then lateFire pgCad (s.chip.cad.ent i).at_ s.chip else latePassed pgCad (s.chip.cad.ent i).at_ s.chip)) →
    ∀ j < 256, i < j → evtDue k j = false →
    Does (.eventTableFire) s (fun c =>
      c = (if evtAction (s.chip.cad.ent i).words = 3 then event 3 pgCad [i, wd (s.chip.cad.ent i).words 5] k else k))) ∧
  (∀ (s : State),
    s.chip.isOn →
    ∀ j < 256, evtDue s.chip j = true ↔ j = 255 →
    evtAction (s.chip.cad.ent 255).words = 1 →
    evtCascade (s.chip.cad.ent 255).words = false →
    evtPeriod (s.chip.cad.ent 255).words = 0 →
    s.chip.passed (s.chip.cad.ent 255).at_ = false →
    Does (.eventTableFire) s (fun c =>
      c = evtWrite (evtAddr (s.chip.cad.ent 255).words) (wd (s.chip.cad.ent 255).words 3) { s.chip with cad := s.chip.cad.setEnt 255 { firedAt := some s.chip.beat } }))


/-! ## Links and ports -/

/-- FLIT_SEND sends one flit: the oldest flit to be sent again that the state allows, else a link-control body, else a
DATA flit for which a credit stands, else a NAK that is due, else an idle flit; the first sending of a sequenced flit
puts it into the replay buffer under the next SEQ, of which at most 2,047 are unacknowledged; a waiting marker goes
with the flit (R196, R197, R198, R206, R233). FLIT_RECEIVE discards a bad flit and one out of sequence with one NAK,
and accepts the next in sequence; it uses the ACK and the credits of every good one, and replays on a NAK (R197,
R198). A packet of one flit for this module is delivered, and a frame of a type that the control node sends waits for
its command (R204, R354). RETRY_TIMEOUT replays every unacknowledged flit, or enters RETRAIN once LIMIT replays have
passed without an ACK (R198). -/
def Obligations.FlitLink : Prop :=
  (∀ (s : State) (n : LinkId) (f : Flit) (t : List Flit),
    s.chip.phase ≠ .off →
    carriesCtl n ((s.chip.loaded n).link n).st = true →
    ((s.chip.loaded n).link n).resend = f :: t →
    f.type = 3 ∨ ((s.chip.loaded n).link n).st = 4 →
    Does (.flitSend n) s (fun c =>
      (c.link n).resend = t ∧ (c.link n).replay = ((s.chip.loaded n).link n).replay ∧ (c.link n).txSeq = ((s.chip.loaded n).link n).txSeq ∧ (c.link n).queue = ((s.chip.loaded n).link n).queue ∧
      ∃ cr m, (c.link n).lastFlit = flitBytes f ((s.chip.loaded n).link n).rxAck cr (((s.chip.loaded n).link n).freed.getD cr 0) m)) ∧
  (∀ (s : State) (n : LinkId) (b : List Byte) (t : List (List Byte)),
    s.chip.phase ≠ .off →
    carriesCtl n ((s.chip.loaded n).link n).st = true →
    ((s.chip.loaded n).link n).noneAgain →
    ((s.chip.loaded n).link n).lctl = b :: t →
    ((s.chip.loaded n).link n).replay.length < 2047 →
    Does (.flitSend n) s (fun c =>
      (c.link n).lctl = t ∧ (c.link n).txSeq = (((s.chip.loaded n).link n).txSeq + 1) % 4096 ∧ (c.link n).resend = ((s.chip.loaded n).link n).resend ∧
      (c.link n).replay = ((s.chip.loaded n).link n).replay ++ [{ type := 3, sop := true, eop := true, data := b.take 242, seq := ((s.chip.loaded n).link n).txSeq }] ∧ (c.link n).queue = ((s.chip.loaded n).link n).queue ∧ (c.link n).credits = ((s.chip.loaded n).link n).credits)) ∧
  (∀ (s : State) (n : LinkId) (cls vc : Nat) (q : QPkt) (k : Nat),
    s.chip.phase ≠ .off →
    ((s.chip.loaded n).link n).st = 4 →
    ((s.chip.loaded n).link n).resend = [] →
    ((s.chip.loaded n).link n).lctl = [] →
    ((s.chip.loaded n).link n).replay.length < 2047 →
    chooseData ((s.chip.loaded n).link n) = some (cls, vc, q, k) →
    Does (.flitSend n) s (fun c =>
      (c.link n).credits = setAt ((s.chip.loaded n).link n).credits (2 * cls + vc) (((s.chip.loaded n).link n).credits.getD (2 * cls + vc) 0 - 1) ∧ (c.link n).txSeq = (((s.chip.loaded n).link n).txSeq + 1) % 4096 ∧
      (∃ f : Flit, (c.link n).replay = ((s.chip.loaded n).link n).replay ++ [f] ∧ f.type = 1 ∧ f.cls = cls ∧ f.vc = vc ∧ f.seq = ((s.chip.loaded n).link n).txSeq ∧
        f.data = q.flits.getD k [] ∧ f.sop = decide (k = 0) ∧ f.eop = (q.whole && decide (q.flits.length ≤ k + 1))))) ∧
  (∀ (s : State) (n : LinkId),
    s.chip.phase ≠ .off →
    carriesCtl n ((s.chip.loaded n).link n).st = true →
    ((s.chip.loaded n).link n).st ≠ 1 →
    ((s.chip.loaded n).link n).st ≠ 6 →
    ((s.chip.loaded n).link n).noneAgain →
    ((s.chip.loaded n).link n).lctl = [] ∨ 2047 ≤ ((s.chip.loaded n).link n).replay.length →
    ((s.chip.loaded n).link n).st = 4 → ((s.chip.loaded n).link n).replay.length < 2047 → chooseData ((s.chip.loaded n).link n) = none →
    Does (.flitSend n) s (fun c =>
      (c.link n).txSeq = ((s.chip.loaded n).link n).txSeq ∧ (c.link n).replay = ((s.chip.loaded n).link n).replay ∧ (c.link n).nakDue = false ∧
      ∃ cr m, (c.link n).lastFlit = flitBytes { type := if ((s.chip.loaded n).link n).nakDue = true then 2 else 0 } ((s.chip.loaded n).link n).rxAck cr (((s.chip.loaded n).link n).freed.getD cr 0) m ∧ (((s.chip.loaded n).link n).mark = none → m = none))) ∧
  (∀ (s : State) (n : LinkId) (x : Nat),
    s.chip.phase ≠ .off →
    n.val < 6 →
    (s.chip.link n).st = 4 ∨ (s.chip.link n).st = 5 ∨ (s.chip.link n).st = 9 →
    (s.chip.link n).mark = some x →
    Does (.flitSend n) s (fun c =>
      (c.link n).mark = none ∧ (c.link n).st = (s.chip.link n).st ∧ c.mem = s.chip.mem)) ∧
  (∀ (s : State) (n : LinkId),
    s.chip.phase ≠ .off →
    n.val < 6 →
    (s.chip.link n).st = 8 →
    Does (.flitSend n) s (fun c =>
      (∃ cr, (c.link n).lastFlit = flitBytes {} (s.chip.link n).rxAck cr ((s.chip.link n).freed.getD cr 0) none) ∧ (c.link n).txSeq = (s.chip.link n).txSeq ∧ (c.link n).replay = (s.chip.link n).replay)) ∧
  (∀ (s : State) (n : LinkId),
    s.chip.phase ≠ .off →
    n.val < 6 →
    (s.chip.link n).st = 0 ∨ (s.chip.link n).st = 7 ∨ (((s.chip.link n).st = 1 ∨ (s.chip.link n).st = 6) ∧ (s.chip.link n).resend = [] ∧ (s.chip.link n).lctl = []) →
    Does (.flitSend n) s (fun c =>
      c = s.chip)) ∧
  (∀ (s : State) (n : LinkId) (b : List Byte) (w : Bool) (u m : Nat),
    s.chip.phase ≠ .off →
    carriesCtl n (s.chip.link n).st = true →
    w = true ∨ flitBad b = true →
    Does (.flitReceive n b w { uncorrectable := u, corrected := m }) s (fun c =>
      (n.val < 6 → c.rg (ra (pgPort n) 0x138) = sat32 (s.chip.rg (ra (pgPort n) 0x138)) m ∧ c.rg (ra (pgPort n) 0x13C) = sat32 (s.chip.rg (ra (pgPort n) 0x13C)) u) ∧ (n.val < 6 → c.rg (ra (pgPort n) 0x140) = sat32 (s.chip.rg (ra (pgPort n) 0x140)) (if fld 3 0 (flitHdr b) = 1 ∨ fld 3 0 (flitHdr b) = 3 then 1 else 0)) ∧ (c.link n).nakSent = true ∧ ((s.chip.link n).nakSent = false → (c.link n).nakDue = true) ∧ (c.link n).replay = (s.chip.link n).replay ∧
      (c.link n).rxSeq = (s.chip.link n).rxSeq ∧ (c.link n).rx = (s.chip.link n).rx ∧ (c.link n).lctlIn = (s.chip.link n).lctlIn ∧ (c.link n).st = (s.chip.link n).st ∧ c.mem = s.chip.mem ∧ c.mbp = s.chip.mbp)) ∧
  (∀ (s : State) (n : LinkId) (b : List Byte) (u m : Nat),
    s.chip.phase ≠ .off →
    carriesCtl n (s.chip.link n).st = true →
    flitBad b = false →
    fld 3 0 (flitHdr b) = 1 ∨ fld 3 0 (flitHdr b) = 3 →
    fld 28 17 (flitHdr b) ≠ (s.chip.link n).rxSeq →
    ((s.chip.link n).st = 1 ∨ (s.chip.link n).st = 6) → isIdent (flitHdr b) (flitData b) = false →
    Does (.flitReceive n b false { uncorrectable := u, corrected := m }) s (fun c =>
      (n.val < 6 → bit 54 (flitHdr b) = false → c.rg (ra (pgPort n) 0x138) = sat32 (s.chip.rg (ra (pgPort n) 0x138)) m) ∧ (c.link n).nakSent = true ∧ ((s.chip.link n).nakSent = false → (c.link n).nakDue = true) ∧ (c.link n).rxSeq = (s.chip.link n).rxSeq ∧ (c.link n).rx = (s.chip.link n).rx ∧ (c.link n).lctlIn = (s.chip.link n).lctlIn ∧ (c.link n).st = (s.chip.link n).st ∧ (bit 54 (flitHdr b) = false → c.mbp = s.chip.mbp))) ∧
  (∀ (s : State) (n : LinkId) (b : List Byte) (u m : Nat),
    s.chip.phase ≠ .off →
    carriesCtl n (s.chip.link n).st = true →
    flitBad b = false →
    fld 3 0 (flitHdr b) = 3 →
    fld 28 17 (flitHdr b) = (s.chip.link n).rxSeq →
    ctlRoom (s.chip.link n) = true →
    Does (.flitReceive n b false { uncorrectable := u, corrected := m }) s (fun c =>
      (c.link n).rxSeq = ((s.chip.link n).rxSeq + 1) % 4096 ∧ (c.link n).rxAck = (s.chip.link n).rxSeq ∧ (c.link n).nakSent = false ∧ (c.link n).nakDue = false ∧ (c.link n).st = (s.chip.link n).st ∧
      (bit 8 (flitHdr b) = true → (c.link n).lctlIn = (s.chip.link n).lctlIn ++ [(if bit 7 (flitHdr b) = true then flitData b else (s.chip.link n).lctlRx ++ flitData b).drop 32] ∧ (c.link n).lctlRx = []) ∧
      (bit 8 (flitHdr b) = false → (c.link n).lctlIn = (s.chip.link n).lctlIn ∧ (c.link n).lctlRx = if bit 7 (flitHdr b) = true then flitData b else (s.chip.link n).lctlRx ++ flitData b))) ∧
  (∀ (s : State) (n : LinkId) (b : List Byte) (u m : Nat),
    s.chip.phase ≠ .off →
    carriesCtl n (s.chip.link n).st = true →
    flitBad b = false →
    fld 3 0 (flitHdr b) = 3 →
    ctlRoom (s.chip.link n) = false →
    Does (.flitReceive n b false { uncorrectable := u, corrected := m }) s (fun c =>
      (c.link n).nakSent = true ∧ (c.link n).rxSeq = (s.chip.link n).rxSeq ∧ (c.link n).rx = (s.chip.link n).rx ∧ (c.link n).lctlIn = (s.chip.link n).lctlIn ∧ (c.link n).st = (s.chip.link n).st)) ∧
  (∀ (s : State) (n : LinkId) (b : List Byte) (u m : Nat),
    s.chip.phase ≠ .off →
    carriesCtl n (s.chip.link n).st = true →
    flitBad b = false →
    fld 3 0 (flitHdr b) = 3 →
    fld 28 17 (flitHdr b) ≠ (s.chip.link n).rxSeq →
    ctlRoom (s.chip.link n) = true →
    (s.chip.link n).st = 1 ∨ (s.chip.link n).st = 6 →
    isIdent (flitHdr b) (flitData b) = true →
    Does (.flitReceive n b false { uncorrectable := u, corrected := m }) s (fun c =>
      (c.link n).lctlIn = (s.chip.link n).lctlIn ++ [(flitData b).drop 32] ∧ (c.link n).rxSeq = (s.chip.link n).rxSeq ∧ (c.link n).st = (s.chip.link n).st)) ∧
  (∀ (s : State) (n : LinkId) (b : List Byte) (u m : Nat),
    s.chip.phase ≠ .off →
    carriesCtl n (s.chip.link n).st = true →
    flitBad b = false →
    fld 3 0 (flitHdr b) = 1 →
    fld 28 17 (flitHdr b) = (s.chip.link n).rxSeq →
    Does (.flitReceive n b false { uncorrectable := u, corrected := m }) s (fun c =>
      (c.link n).rxSeq = ((s.chip.link n).rxSeq + 1) % 4096 ∧ (c.link n).rxAck = (s.chip.link n).rxSeq ∧ (c.link n).nakSent = false ∧ (c.link n).nakDue = false ∧ (c.link n).st = (s.chip.link n).st)) ∧
  (∀ (s : State) (n : LinkId) (b : List Byte) (u m : Nat) (p : Packet),
    s.chip.phase ≠ .off →
    carriesCtl n (s.chip.link n).st = true →
    flitBad b = false →
    n.val < 6 →
    wasUp (s.chip.link n) = true →
    fld 3 0 (flitHdr b) = 1 →
    fld 28 17 (flitHdr b) = (s.chip.link n).rxSeq →
    bit 7 (flitHdr b) = true →
    bit 8 (flitHdr b) = true →
    p = ptOf (fld 6 5 (flitHdr b)) (flitData b) →
    (s.chip.link n).rx.getD (2 * fld 6 5 (flitHdr b) + fld 4 4 (flitHdr b)) none = none →
    (s.chip.link n).rx.length = 6 →
    p.mcast = false →
    p.dest = s.chip.posId →
    p.slice = s.chip.sliceId →
    p.rsvd = false →
    knownKind p.kind = true →
    Does (.flitReceive n b false { uncorrectable := u, corrected := m }) s (fun c =>
      c.delivered = s.chip.delivered ++ [p] ∧ (c.link n).rxSeq = ((s.chip.link n).rxSeq + 1) % 4096)) ∧
  (∀ (s : State) (n : LinkId) (b : List Byte) (u m : Nat),
    s.chip.phase ≠ .off →
    carriesCtl n (s.chip.link n).st = true →
    flitBad b = false →
    n.val = 6 →
    fld 3 0 (flitHdr b) = 1 →
    fld 28 17 (flitHdr b) = (s.chip.link n).rxSeq →
    bit 7 (flitHdr b) = true →
    bit 8 (flitHdr b) = true →
    fld 4 4 (flitHdr b) = 0 →
    (s.chip.link n).rx.length = 6 →
    (flitData b).headD 0#8 ∈ [0x01#8, 0x03#8, 0x05#8, 0x06#8, 0x07#8, 0x10#8, 0x11#8, 0x18#8, 0x19#8, 0x20#8, 0x22#8, 0x29#8, 0x30#8, 0x38#8, 0x3C#8, 0x40#8] →
    (s.chip.link n).rx.getD (2 * fld 6 5 (flitHdr b)) none = none →
    Does (.flitReceive n b false { uncorrectable := u, corrected := m }) s (fun c =>
      c.mbp.arrived = s.chip.mbp.arrived ++ [flitData b] ∧ (c.link n).rxSeq = ((s.chip.link n).rxSeq + 1) % 4096)) ∧
  (∀ (s : State) (n : LinkId) (b : List Byte) (u m : Nat) (i : Nat),
    s.chip.phase ≠ .off →
    carriesCtl n (s.chip.link n).st = true →
    flitBad b = false →
    fld 3 0 (flitHdr b) = 0 →
    (s.chip.link n).replay.findIdx? (fun f => f.seq == fld 40 29 (flitHdr b)) = some i →
    Does (.flitReceive n b false { uncorrectable := u, corrected := m }) s (fun c =>
      (c.link n).replay = (s.chip.link n).replay.drop (i + 1) ∧ (c.link n).replays = 0 ∧ (c.link n).rxSeq = (s.chip.link n).rxSeq ∧ (c.link n).st = (s.chip.link n).st ∧
      (n.val < 6 → bit 54 (flitHdr b) = false → c.rg (ra (pgPort n) 0x138) = sat32 (s.chip.rg (ra (pgPort n) 0x138)) m))) ∧
  (∀ (s : State) (n : LinkId) (b : List Byte) (u m : Nat) (cr : Nat),
    s.chip.phase ≠ .off →
    carriesCtl n (s.chip.link n).st = true →
    flitBad b = false →
    fld 3 0 (flitHdr b) = 0 →
    fld 42 41 (flitHdr b) ≠ 3 →
    cr = 2 * fld 42 41 (flitHdr b) + fld 43 43 (flitHdr b) →
    (s.chip.link n).credits.length = 6 →
    (s.chip.link n).crSeen.length = 6 →
    Does (.flitReceive n b false { uncorrectable := u, corrected := m }) s (fun c =>
      (c.link n).credits.getD cr 0 = (s.chip.link n).credits.getD cr 0 + (fld 53 44 (flitHdr b) + 1024 - (s.chip.link n).crSeen.getD cr 0) % 1024 ∧ (c.link n).crSeen.getD cr 0 = fld 53 44 (flitHdr b) ∧
      (∀ i, i ≠ cr → (c.link n).credits.getD i 0 = (s.chip.link n).credits.getD i 0))) ∧
  (∀ (s : State) (n : LinkId) (b : List Byte) (u m : Nat),
    s.chip.phase ≠ .off →
    carriesCtl n (s.chip.link n).st = true →
    flitBad b = false →
    fld 3 0 (flitHdr b) = 2 →
    (s.chip.link n).replay.findIdx? (fun f => f.seq == fld 40 29 (flitHdr b)) = none →
    (s.chip.link n).replay ≠ [] →
    (s.chip.link n).st ≠ 6 →
    (s.chip.link n).replays < fld 15 8 (retryCfg n s.chip) ∨ (s.chip.link n).st = 1 →
    Does (.flitReceive n b false { uncorrectable := u, corrected := m }) s (fun c =>
      (c.link n).resend = (s.chip.link n).replay ∧ (c.link n).replay = (s.chip.link n).replay ∧ (c.link n).replays = (s.chip.link n).replays + 1 ∧ (c.link n).st = (s.chip.link n).st ∧ c.hasErr (linkPage n) 0 8 = true)) ∧
  (∀ (s : State) (n : LinkId) (b : List Byte) (w : Bool) (u m : Nat),
    s.chip.phase ≠ .off →
    carriesCtl n (s.chip.link n).st = false →
    Does (.flitReceive n b w { uncorrectable := u, corrected := m }) s (fun c =>
      c = s.chip)) ∧
  (∀ (s : State) (n : LinkId),
    s.chip.phase ≠ .off →
    carriesCtl n (s.chip.link n).st = true →
    (s.chip.link n).st ≠ 6 →
    (s.chip.link n).replay ≠ [] →
    (s.chip.link n).resend = [] →
    (s.chip.link n).ackAt + fld 7 0 (retryCfg n s.chip) ≤ s.chip.beat →
    (s.chip.link n).replays < fld 15 8 (retryCfg n s.chip) ∨ (s.chip.link n).st = 1 →
    Does (.retryTimeout n) s (fun c =>
      (c.link n).resend = (s.chip.link n).replay ∧ (c.link n).replay = (s.chip.link n).replay ∧ (c.link n).replays = (s.chip.link n).replays + 1 ∧ (c.link n).st = (s.chip.link n).st ∧ c.hasErr (linkPage n) 0 8 = true)) ∧
  (∀ (s : State) (n : LinkId),
    s.chip.phase ≠ .off →
    carriesCtl n (s.chip.link n).st = true →
    (s.chip.link n).st ≠ 6 →
    (s.chip.link n).st ≠ 1 →
    (s.chip.link n).replay ≠ [] →
    (s.chip.link n).resend = [] →
    (s.chip.link n).ackAt + fld 7 0 (retryCfg n s.chip) ≤ s.chip.beat →
    fld 15 8 (retryCfg n s.chip) ≤ (s.chip.link n).replays →
    n.val < 6 → s.chip.torusOk = true →
    Does (.retryTimeout n) s (fun c =>
      (c.link n).st = 6 ∧ (c.link n).prev = (s.chip.link n).st ∧ (c.link n).replay = (s.chip.link n).replay ∧ (c.link n).txSeq = (s.chip.link n).txSeq ∧ (c.link n).rxSeq = (s.chip.link n).rxSeq ∧ c.hasErr (linkPage n) 0 9 = true)) ∧
  (∀ (s : State) (n : LinkId),
    s.chip.phase ≠ .off →
    (s.chip.link n).replay = [] ∨ (s.chip.link n).resend ≠ [] ∨ s.chip.beat < (s.chip.link n).ackAt + fld 7 0 (retryCfg n s.chip) →
    Does (.retryTimeout n) s (fun c =>
      c = s.chip))

/-- PORT_TRAIN starts training of an enabled port whose axis is longer than 1, and otherwise does nothing (R209,
R220). TRAIN_TRY_END with all lanes locked in time takes an IDENT that waited; a failed try is counted, and the last
goes to DOWN with a UC of the slice; outside the torus the port is OFF (R209, R220). LANE_LOCK_LOSS enters RETRAIN,
keeping the link layer's state; in LOWPOWER only lane 0 counts (R199, R220). MARK_DOWN enters DOWN; a port that was UP
loses its admission, with a UC (R225, R227). LIGHT_RETURN brings a port that a LEAVE took to OFF back to TRAIN (R224).
-/
def Obligations.PortTraining : Prop :=
  (∀ (s : State) (n : PortId),
    s.chip.isOn →
    s.chip.torusOk = true →
    s.chip.size (n / 2) ≠ 1 →
    s.chip.enabled (pgPort n) = true →
    Does (.portTrain n) s (fun c =>
      (c.link n).st = 1 ∧ (c.link n).tries = 1 ∧ (c.link n).admitted = false ∧ (c.link n).replay = [] ∧ (c.link n).txSeq = 0 ∧ (wasUp (s.chip.link n) = false → (∀ m, m ≠ n.val → c.link m = s.chip.link m) ∧ c.mem = s.chip.mem))) ∧
  (∀ (s : State) (n : PortId),
    s.chip.isOn →
    s.chip.torusOk = false ∨ s.chip.size (n / 2) = 1 ∨ s.chip.enabled (pgPort n) = false →
    Does (.portTrain n) s (fun c =>
      c = s.chip)) ∧
  (∀ (s : State) (n : PortId),
    s.chip.isOn →
    (s.chip.link n).st = 1 ∨ (s.chip.link n).st = 6 →
    s.chip.torusOk = true →
    (s.chip.link n).identHeld = none →
    Does (.trainTryEnd n 255#8 true) s (fun c =>
      c = s.chip.setLink n { s.chip.link n with locked := 255 })) ∧
  (∀ (s : State) (n : PortId) (b : List Byte),
    s.chip.isOn →
    (s.chip.link n).st = 1 →
    s.chip.torusOk = true →
    (s.chip.link n).identHeld = some b →
    identCheck s.chip n b = 0 →
    bit 0 (s.chip.rg (ra pgLrt 0x118)) = false →
    Does (.trainTryEnd n 255#8 true) s (fun c =>
      (c.link n).st = 2 ∧ (c.link n).peer = some (peerOf b) ∧ (c.link n).identIn = true ∧ (c.link n).sentAdmit = true ∧ (c.link n).admitted = false ∧ (c.link n).locked = 255)) ∧
  (∀ (s : State) (n : PortId) (l : Byte) (t : Bool),
    s.chip.isOn →
    (s.chip.link n).st = 1 ∨ (s.chip.link n).st = 6 →
    s.chip.torusOk = true →
    l ≠ 255#8 ∨ t = false →
    (s.chip.link n).tries < trainTries n s.chip →
    Does (.trainTryEnd n l t) s (fun c =>
      c = s.chip.setLink n { s.chip.link n with locked := l.toNat, refuse := 7, tries := (s.chip.link n).tries + 1, identHeld := none })) ∧
  (∀ (s : State) (n : PortId) (l : Byte) (t : Bool),
    s.chip.isOn →
    (s.chip.link n).st = 1 ∨ (s.chip.link n).st = 6 →
    s.chip.torusOk = true →
    l ≠ 255#8 ∨ t = false →
    trainTries n s.chip ≤ (s.chip.link n).tries →
    s.chip.rg (ra (pgPort n) 0x10) = 0 →
    Does (.trainTryEnd n l t) s (fun c =>
      (c.link n).st = 7 ∧ (c.link n).refuse = 0 ∧ (c.link n).admitted = false ∧ c.hasErr (pgPort n) 2 10 = true ∧ (wasUp (s.chip.link n) = false → (∀ m, m ≠ n.val → c.link m = s.chip.link m)))) ∧
  (∀ (s : State) (n : PortId) (l : Byte) (t : Bool),
    s.chip.isOn →
    (s.chip.link n).st = 1 ∨ (s.chip.link n).st = 6 →
    s.chip.torusOk = false →
    Does (.trainTryEnd n l t) s (fun c =>
      (c.link n).st = 0 ∧ (c.link n).admitted = false)) ∧
  (∀ (s : State) (n : PortId) (l : Byte),
    s.chip.isOn →
    s.chip.torusOk = true →
    (2 ≤ (s.chip.link n).st ∧ (s.chip.link n).st ≤ 5 ∧ l ≠ 255#8) ∨ ((s.chip.link n).st = 9 ∧ bit 0 l.toNat = false) →
    Does (.laneLockLoss n l) s (fun c =>
      (c.link n).st = 6 ∧ (c.link n).prev = (s.chip.link n).st ∧ (c.link n).locked = l.toNat ∧ (c.link n).replay = (s.chip.link n).replay ∧ (c.link n).txSeq = (s.chip.link n).txSeq ∧
      (c.link n).rxSeq = (s.chip.link n).rxSeq ∧ (c.link n).credits = (s.chip.link n).credits ∧ c.hasErr (pgPort n) 0 9 = true)) ∧
  (∀ (s : State) (n : PortId) (l : Byte),
    s.chip.isOn →
    (s.chip.link n).st = 1 ∨ (s.chip.link n).st = 6 →
    l ≠ 255#8 →
    Does (.laneLockLoss n l) s (fun c =>
      c = s.chip.setLink n { s.chip.link n with locked := l.toNat })) ∧
  (∀ (s : State) (n : PortId) (l : Byte),
    s.chip.isOn →
    l = 255#8 ∨ ((s.chip.link n).st = 9 ∧ bit 0 l.toNat = true) →
    Does (.laneLockLoss n l) s (fun c =>
      c = s.chip)) ∧
  (∀ (s : State) (n : PortId),
    s.chip.isOn →
    wasUp (s.chip.link n) = false →
    (s.chip.link n).st ≠ 7 →
    Does (.markDown n) s (fun c =>
      (c.link n).st = 7 ∧ (c.link n).admitted = false ∧ (c.link n).replay = [] ∧ (∀ m, m ≠ n.val → c.link m = s.chip.link m) ∧ c.mem = s.chip.mem)) ∧
  (∀ (s : State) (n : PortId),
    s.chip.isOn →
    wasUp (s.chip.link n) = true →
    (s.chip.link n).st ≠ 7 →
    s.chip.rg (ra (pgPort n) 0x10) = 0 →
    Does (.markDown n) s (fun c =>
      (c.link n).st = 7 ∧ (c.link n).admitted = false ∧ (c.link n).carried = false ∧ (c.link n).replay = [] ∧ c.hasErr (pgPort n) 2 10 = true)) ∧
  (∀ (s : State) (n : PortId),
    s.chip.isOn →
    (s.chip.link n).st = 7 →
    Does (.markDown n) s (fun c =>
      c = s.chip)) ∧
  (∀ (s : State) (n : PortId),
    s.chip.isOn →
    s.chip.torusOk = true →
    s.chip.size (n / 2) ≠ 1 →
    s.chip.enabled (pgPort n) = true →
    (s.chip.link n).st = 0 →
    (s.chip.link n).left = true →
    Does (.lightReturn n) s (fun c =>
      (c.link n).st = 1 ∧ (c.link n).left = false ∧ (c.link n).tries = 1)) ∧
  (∀ (s : State) (n : PortId),
    s.chip.isOn →
    (s.chip.link n).left = false ∨ (s.chip.link n).st ≠ 0 →
    Does (.lightReturn n) s (fun c =>
      c = s.chip))

/-- IDENT_SEND queues the module's IDENT while the peer's has not come, and once at least (R221). IDENT, taken once
all 8 lanes hold lock, that passes every check records the peer and admits it, or waits in HOLD for PORT_ADMIT and
PORT_REFUSE; one that fails sends REFUSE and enters REFUSED with its code and a CE (R193, R222). In RETRAIN the same
peer returns the port to its state and replays, and a new one is checked with both sides counting from their start
(R199). ADMIT of both sides brings the port UP, or to MARKER when the peer is of another slice, with the peer's
credits, and in drydown to LOWPOWER (R223, R224). REFUSE and LEAVE received take the port to REFUSED and OFF (R222,
R224). -/
def Obligations.Admission : Prop :=
  (∀ (s : State) (n : PortId),
    s.chip.isOn →
    (s.chip.link n).st = 1 ∨ (s.chip.link n).st = 6 →
    (s.chip.link n).identIn = false ∨ (s.chip.link n).identOut = false →
    Does (.identSend n) s (fun c =>
      c = s.chip.setLink n { s.chip.link n with lctl := (s.chip.link n).lctl ++ [ctlPkt s.chip n (identBody s.chip n)], identOut := true })) ∧
  (∀ (s : State) (n : PortId),
    s.chip.isOn →
    ((s.chip.link n).st ≠ 1 ∧ (s.chip.link n).st ≠ 6) ∨ ((s.chip.link n).identIn = true ∧ (s.chip.link n).identOut = true) →
    Does (.identSend n) s (fun c =>
      c = s.chip)) ∧
  (∀ (s : State) (n : PortId) (b : List Byte),
    s.chip.isOn →
    s.chip.torusOk = true →
    (s.chip.link n).locked = 255 →
    (s.chip.link n).st = 1 →
    identCheck s.chip n b = 0 →
    bit 0 (s.chip.rg (ra pgLrt 0x118)) = true →
    Does (.ident n b) s (fun c =>
      (c.link n).st = 3 ∧ (c.link n).peer = some (peerOf b) ∧ (c.link n).identIn = true ∧ (c.link n).sentAdmit = false ∧ bit 1 (c.rg (ra (pgPort n) 0x20)) = true)) ∧
  (∀ (s : State) (n : PortId) (b : List Byte),
    s.chip.isOn →
    s.chip.torusOk = true →
    (s.chip.link n).locked = 255 →
    (s.chip.link n).st = 1 →
    identCheck s.chip n b = 0 →
    bit 0 (s.chip.rg (ra pgLrt 0x118)) = false →
    Does (.ident n b) s (fun c =>
      (c.link n).st = 2 ∧ (c.link n).peer = some (peerOf b) ∧ (c.link n).identIn = true ∧ (c.link n).sentAdmit = true ∧ (c.link n).admitted = false)) ∧
  (∀ (s : State) (n : PortId) (b : List Byte) (code : Nat),
    s.chip.isOn →
    s.chip.torusOk = true →
    (s.chip.link n).locked = 255 →
    (s.chip.link n).st = 1 →
    identCheck s.chip n b = code →
    code ≠ 0 →
    Does (.ident n b) s (fun c =>
      (c.link n).st = 8 ∧ (c.link n).refuse = code ∧ (c.link n).sentAdmit = false ∧ c.hasErr (pgPort n) 0 11 = true)) ∧
  (∀ (s : State) (n : PortId) (b : List Byte) (q : Peer),
    s.chip.isOn →
    s.chip.torusOk = true →
    (s.chip.link n).locked = 255 →
    (s.chip.link n).st = 6 →
    (s.chip.link n).peer = some q →
    q.module = (peerOf b).module ∧ q.port = (peerOf b).port ∧ q.digest = (peerOf b).digest →
    Does (.ident n b) s (fun c =>
      (c.link n).st = backTo (s.chip.link n) s.chip ∧ (c.link n).replay = (s.chip.link n).replay ∧ ((s.chip.link n).replay ≠ [] → (c.link n).resend = (s.chip.link n).replay) ∧ (c.link n).txSeq = (s.chip.link n).txSeq ∧
      (c.link n).rxSeq = (s.chip.link n).rxSeq ∧ (c.link n).credits = (s.chip.link n).credits ∧ (c.link n).identIn = true)) ∧
  (∀ (s : State) (n : PortId) (b : List Byte),
    s.chip.isOn →
    s.chip.torusOk = true →
    (s.chip.link n).locked = 255 →
    (s.chip.link n).st = 6 →
    ∀ q ∈ (s.chip.link n).peer, ¬ (q.module = (peerOf b).module ∧ q.port = (peerOf b).port ∧ q.digest = (peerOf b).digest) →
    identCheck s.chip n b = 0 →
    bit 0 (s.chip.rg (ra pgLrt 0x118)) = false →
    Does (.ident n b) s (fun c =>
      (c.link n).st = 2 ∧ (c.link n).peer = some (peerOf b) ∧ (c.link n).identIn = true ∧ (c.link n).sentAdmit = true ∧ (c.link n).admitted = false ∧ (c.link n).replay = [] ∧ (c.link n).txSeq = 0 ∧ (c.link n).rxSeq = 0 ∧ (c.link n).rxAck = 4095)) ∧
  (∀ (s : State) (n : PortId) (b : List Byte),
    s.chip.isOn →
    (s.chip.link n).st = 1 ∨ (s.chip.link n).st = 6 →
    s.chip.torusOk = true →
    (s.chip.link n).locked ≠ 255 →
    Does (.ident n b) s (fun c =>
      (c.link n).identHeld = some b ∧ (c.link n).st = (s.chip.link n).st ∧ c.regs = s.chip.regs ∧ (∀ m, m ≠ n.val → c.link m = s.chip.link m))) ∧
  (∀ (s : State) (n : PortId),
    s.chip.isOn →
    (s.chip.link n).st = 3 →
    (s.chip.link n).gotAdmit = false →
    Does (.portAdmit n) s (fun c =>
      (c.link n).sentAdmit = true ∧ (c.link n).st = 3 ∧ (c.link n).lctl = (s.chip.link n).lctl ++ [ctlPkt s.chip n (ctlBody 2 0)])) ∧
  (∀ (s : State) (n : PortId) (p : Peer),
    s.chip.isOn →
    (s.chip.link n).st = 3 →
    (s.chip.link n).gotAdmit = true →
    (s.chip.link n).peer = some p →
    Does (.portAdmit n) s (fun c =>
      (c.link n).admitted = true ∧ (c.link n).credits = p.credits ∧ (c.link n).st = (if s.chip.pwr.st = 3 ∨ s.chip.pwr.st = 4 then 9 else if p.slice = s.chip.sliceId then 4 else 5))) ∧
  (∀ (s : State) (n : PortId),
    s.chip.isOn →
    (s.chip.link n).st ≠ 3 →
    Does (.portAdmit n) s (fun c =>
      c = s.chip)) ∧
  (∀ (s : State) (n : PortId),
    s.chip.isOn →
    (s.chip.link n).st = 3 →
    Does (.portRefuse n) s (fun c =>
      (c.link n).st = 8 ∧ (c.link n).refuse = 5 ∧ (c.link n).admitted = false ∧ c.hasErr (pgPort n) 0 11 = true)) ∧
  (∀ (s : State) (n : PortId),
    s.chip.isOn →
    (s.chip.link n).st ≠ 3 →
    Does (.portRefuse n) s (fun c =>
      c = s.chip)) ∧
  (∀ (s : State) (n : PortId) (p : Peer),
    s.chip.isOn →
    (s.chip.link n).st = 2 ∨ (s.chip.link n).st = 3 →
    (s.chip.link n).sentAdmit = true →
    (s.chip.link n).peer = some p →
    Does (.admitMsg n) s (fun c =>
      (c.link n).admitted = true ∧ (c.link n).credits = p.credits ∧ (c.link n).st = (if s.chip.pwr.st = 3 ∨ s.chip.pwr.st = 4 then 9 else if p.slice = s.chip.sliceId then 4 else 5))) ∧
  (∀ (s : State) (n : PortId),
    s.chip.isOn →
    (s.chip.link n).st = 2 ∨ (s.chip.link n).st = 3 →
    (s.chip.link n).sentAdmit = false →
    Does (.admitMsg n) s (fun c =>
      (c.link n).gotAdmit = true ∧ (c.link n).st = (s.chip.link n).st ∧ (c.link n).admitted = (s.chip.link n).admitted)) ∧
  (∀ (s : State) (n : PortId),
    s.chip.isOn →
    (s.chip.link n).st ≠ 2 →
    (s.chip.link n).st ≠ 3 →
    Does (.admitMsg n) s (fun c =>
      c = s.chip.setLink n { s.chip.link n with lctlIn := (s.chip.link n).lctlIn.eraseP (fun x => at_ x 0 1 == 2) })) ∧
  (∀ (s : State) (n : PortId) (code : Nat),
    s.chip.isOn →
    1 ≤ (s.chip.link n).st →
    (s.chip.link n).st ≤ 3 →
    Does (.refuseMsg n code) s (fun c =>
      (c.link n).st = 8 ∧ (c.link n).refuse = code % 16 ∧ c.hasErr (pgPort n) 0 11 = true)) ∧
  (∀ (s : State) (n : PortId) (code : Nat),
    s.chip.isOn →
    (s.chip.link n).st = 0 ∨ 4 ≤ (s.chip.link n).st →
    Does (.refuseMsg n code) s (fun c =>
      c = s.chip.setLink n { s.chip.link n with lctlIn := (s.chip.link n).lctlIn.eraseP (fun x => at_ x 0 1 == 3) })) ∧
  (∀ (s : State) (n : PortId),
    s.chip.isOn →
    (s.chip.link n).st ≠ 0 →
    (s.chip.link n).st ≠ 7 →
    Does (.leave n) s (fun c =>
      (c.link n).st = 0 ∧ (c.link n).left = true ∧ (c.link n).admitted = false ∧ (wasUp (s.chip.link n) = false → (∀ m, m ≠ n.val → c.link m = s.chip.link m)))) ∧
  (∀ (s : State) (n : PortId),
    s.chip.isOn →
    (s.chip.link n).st = 0 ∨ (s.chip.link n).st = 7 →
    Does (.leave n) s (fun c =>
      c = s.chip.setLink n { s.chip.link n with lctlIn := (s.chip.link n).lctlIn.eraseP (fun x => at_ x 0 1 == 4) }))

/-- RT_FLIP_ARM applies the beat pair, its low half the staged one when one waits, and arms, for the next beat with a
CE when the beat has passed (R8, R10), or is ignored with a CE while armed; RT_FLIP at its beat makes the shadow bank
active and the active bank shadow, and RT_GEN rises; RT_COPY copies the active bank into the shadow, ignored with a CE
while armed; RT_DISARM cancels (R218). -/
def Obligations.RoutingBanks : Prop :=
  (∀ (s : State) (hi : W32) (b : Nat),
    s.chip.isOn →
    s.chip.rtArmed = false →
    b = s.chip.lowHalf (ra pgLrt 0x120) + 2 ^ 32 * (hi.toNat % 2 ^ 22) →
    Does (.rtFlipArm hi) s (fun c =>
      c.rtArmed = true ∧ c.rtAt = s.chip.armedAt b ∧ c.rtActive = s.chip.rtActive ∧ c.rtGen = s.chip.rtGen ∧ c.mem = s.chip.mem ∧ (b ≤ s.chip.beat → c.hasErr pgCad 0 12 = true))) ∧
  (∀ (s : State) (hi : W32),
    s.chip.isOn →
    s.chip.rtArmed = true →
    Does (.rtFlipArm hi) s (fun c =>
      s.chip.logs c pgLrt 0 31)) ∧
  (∀ (s : State),
    s.chip.isReady →
    s.chip.rtArmed = true →
    s.chip.cascadeDue s.chip.rtAt = true →
    Does (.rtFlip) s (fun c =>
      c.rtActive = s.chip.rtShadowTab ∧ c.rtGen = s.chip.rtGen + 1#32 ∧ c.rtArmed = false ∧ c.links = s.chip.links ∧ c.mem = s.chip.mem ∧
      (s.chip.wasDeferred s.chip.rtAt = false → s.chip.passed s.chip.rtAt = false → c.regs = (setRtShadow s.chip.rtActive s.chip).regs) ∧
      (s.chip.wasDeferred s.chip.rtAt = true ∨ s.chip.passed s.chip.rtAt = true → c.hasErr pgCad 0 12 = true))) ∧
  (∀ (s : State),
    s.chip.isReady →
    s.chip.rtArmed = false ∨ s.chip.cascadeDue s.chip.rtAt = false →
    Does (.rtFlip) s (fun c =>
      c = s.chip)) ∧
  (∀ (s : State),
    s.chip.isOn →
    s.chip.rtArmed = false →
    Does (.rtCopy) s (fun c =>
      c = setRtShadow s.chip.rtActive s.chip)) ∧
  (∀ (s : State),
    s.chip.isOn →
    s.chip.rtArmed = true →
    Does (.rtCopy) s (fun c =>
      s.chip.logs c pgLrt 0 31)) ∧
  (∀ (s : State),
    s.chip.isOn →
    Does (.rtDisarm) s (fun c =>
      c = { s.chip with rtArmed := false }))


/-! ## Collectives -/

/-- COLL_ARM binds a FREE context to a sound descriptor in T0 whose group holds the module, with result 0; context 0
or a bound one gives result 1, a descriptor that is malformed or not to be read there 2, a bad group 3, an empty
CORE_MASK or staging and window areas that do not fit 4, each changing nothing else (R287, R288). COLL_DISARM frees an
ARMED or FAILED context, else answers 1. COLLECTIVE_START takes one from flag START of cluster 0 and begins the next
run with attempt 0, or the next attempt, at this beat (R289); without the flag, with provisional sets not empty, or
for a decode ring's merge it does nothing. -/
def Obligations.CollectiveContexts : Prop :=
  (∀ (s : State) (id : CollId) (l : List Byte) (w : List Nat),
    s.chip.isPowered →
    id.val ≠ 0 →
    (s.chip.coll id).st = 0 →
    s.chip.rg64 (ra pgLrt 0x204) % 128 = 0 →
    s.chip.rg64 (ra pgLrt 0x204) + 128 ≤ t0Size →
    s.chip.tasRead (s.chip.rg64 (ra pgLrt 0x204)) 128 = .ok l →
    w = leWords 32 l →
    collMalformed w (gvCount (s.chip.grp (kGroup w))) = false →
    collMalformed w 0 = false →
    s.chip.grpBad (kGroup w) = false →
    kMaskCores w ≠ [] →
    kWinOfs w + kWin w * kChunk w ≤ 0x800000 →
    kRingSum w = true → stagingFits w (kCores s.chip w).length = true →
    Does (.collArm id) s (fun c =>
      (c.coll id).st = 1 ∧ (c.coll id).words = w ∧ (c.coll id).run = 0 ∧ some (c.coll id).rank = gvRankOf (s.chip.grp (kGroup w)) s.chip.posId ∧ (c.coll id).parts = gvCount (s.chip.grp (kGroup w)) ∧
      c.collResult = 0 ∧ (∀ m, m ≠ id.val → c.coll m = s.chip.coll m) ∧ c.mem = s.chip.mem ∧ c.regs = s.chip.regs)) ∧
  (∀ (s : State) (id : CollId),
    s.chip.isPowered →
    id.val = 0 ∨ (s.chip.coll id).st ≠ 0 →
    Does (.collArm id) s (fun c =>
      c = { s.chip with collResult := 1 })) ∧
  (∀ (s : State) (id : CollId),
    s.chip.isPowered →
    id.val ≠ 0 →
    (s.chip.coll id).st = 0 →
    s.chip.rg64 (ra pgLrt 0x204) % 128 ≠ 0 ∨ t0Size < s.chip.rg64 (ra pgLrt 0x204) + 128 ∨ s.chip.tasRead (s.chip.rg64 (ra pgLrt 0x204)) 128 = .access →
    Does (.collArm id) s (fun c =>
      c = { s.chip with collResult := 2 })) ∧
  (∀ (s : State) (id : CollId) (l : List Byte),
    s.chip.isPowered →
    id.val ≠ 0 →
    (s.chip.coll id).st = 0 →
    s.chip.rg64 (ra pgLrt 0x204) % 128 = 0 →
    s.chip.rg64 (ra pgLrt 0x204) + 128 ≤ t0Size →
    s.chip.tasRead (s.chip.rg64 (ra pgLrt 0x204)) 128 = .ok l →
    collMalformed (leWords 32 l) 0 = true ∨
      (s.chip.grpBad (kGroup (leWords 32 l)) = false ∧ collMalformed (leWords 32 l) (gvCount (s.chip.grp (kGroup (leWords 32 l)))) = true) →
    Does (.collArm id) s (fun c =>
      c = { s.chip with collResult := 2 })) ∧
  (∀ (s : State) (id : CollId) (l : List Byte),
    s.chip.isPowered →
    id.val ≠ 0 →
    (s.chip.coll id).st = 0 →
    s.chip.rg64 (ra pgLrt 0x204) % 128 = 0 →
    s.chip.rg64 (ra pgLrt 0x204) + 128 ≤ t0Size →
    s.chip.tasRead (s.chip.rg64 (ra pgLrt 0x204)) 128 = .ok l →
    collMalformed (leWords 32 l) 0 = false →
    s.chip.grpBad (kGroup (leWords 32 l)) = true →
    Does (.collArm id) s (fun c =>
      c = { s.chip with collResult := 3 })) ∧
  (∀ (s : State) (id : CollId) (l : List Byte) (w : List Nat),
    s.chip.isPowered →
    id.val ≠ 0 →
    (s.chip.coll id).st = 0 →
    s.chip.rg64 (ra pgLrt 0x204) % 128 = 0 →
    s.chip.rg64 (ra pgLrt 0x204) + 128 ≤ t0Size →
    s.chip.tasRead (s.chip.rg64 (ra pgLrt 0x204)) 128 = .ok l →
    w = leWords 32 l →
    collMalformed w (gvCount (s.chip.grp (kGroup w))) = false →
    collMalformed w 0 = false →
    s.chip.grpBad (kGroup w) = false →
    kMaskCores w = [] ∨ 0x800000 < kWinOfs w + kWin w * kChunk w ∨ (kRingSum w = true ∧ stagingFits w (kCores s.chip w).length = false) →
    Does (.collArm id) s (fun c =>
      c = { s.chip with collResult := 4 })) ∧
  (∀ (s : State) (id : CollId),
    s.chip.isPowered →
    (s.chip.coll id).st = 1 ∨ (s.chip.coll id).st = 5 →
    Does (.collDisarm id) s (fun c =>
      c.coll id = {} ∧ c.collResult = 0 ∧ (∀ m, m ≠ id.val → c.coll m = s.chip.coll m) ∧ c.regs = s.chip.regs)) ∧
  (∀ (s : State) (id : CollId),
    s.chip.isPowered →
    (s.chip.coll id).st ≠ 1 →
    (s.chip.coll id).st ≠ 5 →
    Does (.collDisarm id) s (fun c =>
      c = { s.chip with collResult := 1 })) ∧
  (∀ (s : State) (id : CollId) (f : Nat),
    s.chip.isPowered →
    (s.chip.coll id).st = 1 ∨ ((s.chip.coll id).st = 4 ∧ (s.chip.coll id).ring = none) →
    ringOwned s.chip id = false →
    cntHeld s.chip (s.chip.coll id) = false →
    f = flagReg 0 (kStart (s.chip.coll id).words) →
    1 ≤ s.chip.rg f →
    ∀ n ∈ kMaskCores (s.chip.coll id).words, (s.chip.core n).provSet = [] →
    Does (.collectiveStart id) s (fun c =>
      c = beginRun id none (s.chip.setRg f (s.chip.rg f - 1)) ∧ (c.coll id).words = (s.chip.coll id).words ∧ (c.coll id).start = s.chip.beat ∧
      (c.coll id).run = if (s.chip.coll id).st = 1 then ((s.chip.coll id).run + 1) % 2 ^ 32 else (s.chip.coll id).run)) ∧
  (∀ (s : State) (id : CollId) (w : List Nat),
    s.chip.isPowered →
    w = (s.chip.coll id).words →
    (s.chip.coll id).st = 1 ∨ ((s.chip.coll id).st = 4 ∧ (s.chip.coll id).ring = none) →
    ringOwned s.chip id = false →
    1 ≤ s.chip.rg (flagReg 0 (kStart w)) →
    ∀ n ∈ kMaskCores w, (s.chip.core n).provSet = [] →
    kRouter w = false →
    (kOp w = 5 ∨ kOp w = 6) ∨ ((kOp w = 1 ∨ kOp w = 2) ∧ kCores s.chip w ≠ [] ∧ stagingFits w (kCores s.chip w).length = true) →
    Does (.collectiveStart id) s (fun c =>
      (c.coll id).st = 2 ∧ (c.coll id).run = (if (s.chip.coll id).st = 1 then ((s.chip.coll id).run + 1) % 2 ^ 32 else (s.chip.coll id).run) ∧
      (c.coll id).attempt = (if (s.chip.coll id).st = 1 then 0 else (s.chip.coll id).attempt) ∧ (c.coll id).start = s.chip.beat ∧ (c.coll id).words = w ∧
      c.rg (flagReg 0 (kStart w)) = s.chip.rg (flagReg 0 (kStart w)) - 1 ∧ c.mem = s.chip.mem ∧ c.cores = s.chip.cores)) ∧
  (∀ (s : State) (id : CollId),
    s.chip.isPowered →
    s.chip.rg (flagReg 0 (kStart (s.chip.coll id).words)) = 0 ∨ ringOwned s.chip id = true ∨ (s.chip.coll id).st = 0 ∨ (s.chip.coll id).st = 2 ∨ (s.chip.coll id).st = 3 ∨ (s.chip.coll id).st = 5 ∨
      ∃ n ∈ kMaskCores (s.chip.coll id).words, (s.chip.core n).provSet ≠ [] →
    Does (.collectiveStart id) s (fun c =>
      c = s.chip))

/-- CHUNK_SEND sends the next chunk of a stream while a credit of INFLIGHT stands and its bytes can be read, and keeps
its CK (R296, R302); the group stream goes out while the window is open (R300), a detached receiver is sent REPLAY
(R301). A chunk received whole whose CK matches lands; one that fails its check is remembered and asked for with
REPAIR, counted and logged as a CE, and failing again is cause 1 (R298, R302). A DATA packet with no free staging slot
waits (R298). RACK raises the counts of a stream and frees the OUT areas that its landed count covers (R296, R298);
REPAIR sends the chunk again; DETACH and DETACH_TIMEOUT detach a receiver (R300, R301). REDUCE_READY of a core forms a
chunk's sum and stores the last one in DST (R298). -/
def Obligations.CollectiveStreams : Prop :=
  (∀ (s : State) (id : CollId) (k : Chip) (x : Coll) (t : TxStream),
    s.chip.isPowered →
    (s.chip.coll id).st = 2 →
    (s.chip.coll id).asked = false →
    k = s.chip.caught id →
    x = k.coll id →
    x.st = 2 →
    x.asked = false →
    x.tx.find? (fun y => y.dst == t.dst) = some t →
    t.dst < 256 →
    kMulti x.words = false →
    chunkReady k x t.dst t.next = true →
    t.next < t.total →
    t.next < t.freed + kInfl x.words →
    kOp x.words = 4 → ∀ y ∈ x.tx.takeWhile (fun y => y.dst != t.dst), y.total ≤ y.next →
    kOp x.words ≠ 4 → forwardable x t.next = true ∧ forwardOk k x t.next = true →
    Does (.chunkSend id t.dst) s (fun c =>
      c = setTx id { t with next := t.next + 1 } (sendChunk id 0x20 t.dst t.next k))) ∧
  (∀ (s : State) (id : CollId) (k : Chip) (x : Coll) (t : TxStream) (a n : Nat) (l : List Byte),
    s.chip.isPowered →
    (s.chip.coll id).st = 2 →
    (s.chip.coll id).asked = false →
    k = s.chip.caught id →
    x = k.coll id →
    x.st = 2 →
    x.asked = false →
    x.tx = [t] →
    t.dst < 256 →
    kMulti x.words = false →
    t.next < t.total →
    t.next < t.freed + kInfl x.words →
    kOp x.words ≠ 4 → forwardable x t.next = true ∧ forwardOk k x t.next = true →
    (a, n) = chunkPlace k x t.dst t.next →
    n ≠ 0 →
    k.tasRead a n = .ok l →
    Does (.chunkSend id t.dst) s (fun c =>
      (c.coll id).tx = [{ t with next := t.next + 1 }] ∧ (c.coll id).st = 2 ∧ (c.coll id).rx = x.rx ∧
      (c.coll id).sentCk.lookup (ckKey t.dst t.next) = some ((x.sentCk.lookup (ckKey t.dst t.next)).getD (crc32 l)))) ∧
  (∀ (s : State) (id : CollId) (k : Chip) (x : Coll) (t : TxStream) (a n : Nat) (l : List Byte),
    s.chip.isPowered →
    (s.chip.coll id).st = 2 →
    (s.chip.coll id).asked = false →
    k = s.chip.caught id →
    x = k.coll id →
    x.st = 2 →
    x.asked = false →
    x.tx.find? (fun y => y.dst == 256) = some t →
    t.dst = 256 →
    kRouter x.words = false →
    t.next < t.total →
    windowOpen x t = true →
    (a, n) = chunkPlace k x 256 t.next →
    k.tasRead a n = .ok l →
    Does (.chunkSend id 256) s (fun c =>
      c = noteWindow id (castChunk id t l (tasFetch a n k).1))) ∧
  (∀ (s : State) (id : CollId) (k : Chip) (x : Coll) (t : TxStream) (q : Nat × List Byte),
    s.chip.isPowered →
    (s.chip.coll id).st = 2 →
    (s.chip.coll id).asked = false →
    k = s.chip.caught id →
    x = k.coll id →
    x.st = 2 →
    x.asked = false →
    x.tx.find? (fun y => y.dst == 256) = some t →
    t.dst = 256 →
    kRouter x.words = true →
    t.next < t.total →
    windowOpen x t = true →
    x.results.find? (fun r => r.1 == t.next) = some q →
    Does (.chunkSend id 256) s (fun c =>
      c = routerCommit id (enterPieces id 2 (noteWindow id (castChunk id t q.2 (k.setColl id { x with results := x.results.erase q })))))) ∧
  (∀ (s : State) (id : CollId) (k : Chip) (x : Coll) (t g : TxStream),
    s.chip.isPowered →
    (s.chip.coll id).st = 2 →
    (s.chip.coll id).asked = false →
    k = s.chip.caught id →
    x = k.coll id →
    x.st = 2 →
    x.asked = false →
    x.tx.find? (fun y => y.dst == t.dst) = some t →
    t.dst < 256 →
    kMulti x.words = true →
    chunkReady k x t.dst t.next = true →
    t.det = true →
    x.tx.find? (fun y => y.dst == 256) = some g →
    t.next < g.next →
    t.next < t.landed + max 1 (kInfl x.words) →
    Does (.chunkSend id t.dst) s (fun c =>
      c = setTx id { t with next := t.next + 1 } (sendChunk id 0x23 t.dst t.next k))) ∧
  (∀ (s : State) (id : CollId) (k : Chip) (x : Coll) (dst : Nat),
    s.chip.isPowered →
    (s.chip.coll id).st = 2 →
    (s.chip.coll id).asked = false →
    k = s.chip.caught id →
    x = k.coll id →
    x.st = 2 →
    x.asked = false →
    ∀ t ∈ x.tx.find? (fun y => y.dst == min dst 256), t.dst ≠ 256 ∧ kMulti x.words = false ∧ (t.total ≤ t.next ∨ t.freed + kInfl x.words ≤ t.next) →
    Does (.chunkSend id dst) s (fun c =>
      c = k)) ∧
  (∀ (s : State) (id : CollId) (k : Chip) (x : Coll) (t : TxStream),
    s.chip.isPowered →
    (s.chip.coll id).st = 2 →
    (s.chip.coll id).asked = false →
    k = s.chip.caught id →
    x = k.coll id →
    x.st = 2 →
    x.asked = false →
    x.tx.find? (fun y => y.dst == 256) = some t →
    t.dst = 256 →
    t.total ≤ t.next ∨ windowOpen x t = false →
    Does (.chunkSend id 256) s (fun c =>
      c = noteWindow id k)) ∧
  (∀ (s : State) (id : CollId) (dst : Nat),
    s.chip.isPowered →
    (s.chip.coll id).st ≠ 2 ∨ (s.chip.coll id).asked = true →
    Does (.chunkSend id dst) s (fun c =>
      c = s.chip)) ∧
  (∀ (s : State) (p : Packet) (r : RxStream) (l : List Byte),
    s.chip.isPowered →
    s.chip.nowPkt 0x20 p →
    s.chip.dataRoom p →
    getRx (s.chip.coll (hId p)) (hRank s.chip (s.chip.coll (hId p)) p) = some r →
    hChunk p ∉ r.landed →
    (assemble r p).2 = some l →
    crc32 l = hCk p →
    Does (.data p) s (fun c =>
      c = landChunk (hId p) (hRank s.chip (s.chip.coll (hId p)) p) (hChunk p) l (setRx (hId p) (assemble r p).1 (takePkt p s.chip)))) ∧
  (∀ (s : State) (id k : Nat) (p : Packet) (r : RxStream) (l : List Byte),
    s.chip.isPowered →
    s.chip.nowPkt 0x20 p →
    id = hId p →
    k = hChunk p →
    kRouter (s.chip.coll id).words = false →
    kOp (s.chip.coll id).words = 1 ∨ kOp (s.chip.coll id).words = 3 →
    (s.chip.coll id).nred ≤ k →
    (s.chip.coll id).rx = [r] →
    r.src = hRank s.chip (s.chip.coll id) p →
    k ∉ r.landed →
    hPart p = 0 →
    hLast p = true →
    r.asm = [] →
    l = p.body.drop 16 →
    crc32 l = hCk p →
    l ≠ [] →
    (s.chip.coll id).dstAddr ((s.chip.coll id).rxShard k) (k % (s.chip.coll id).nc) + l.length ≤ t0Size →
    (s.chip.coll id).dstAddr ((s.chip.coll id).rxShard k) (k % (s.chip.coll id).nc) % payloadSize + l.length ≤ payloadSize →
    ∀ i < l.length, s.chip.guarded ((s.chip.coll id).dstAddr ((s.chip.coll id).rxShard k) (k % (s.chip.coll id).nc) + i) = false →
    Does (.data p) s (fun c =>
      (∃ y : RxStream, (c.coll id).rx = [y] ∧ k ∈ y.landed ∧ k ∈ y.freed) ∧ (∀ i < l.length, c.byteAt ((s.chip.coll id).dstAddr ((s.chip.coll id).rxShard k) (k % (s.chip.coll id).nc) + i) = l.getD i 0#8) ∧
      (∀ a, (∀ i < l.length, a ≠ (s.chip.coll id).dstAddr ((s.chip.coll id).rxShard k) (k % (s.chip.coll id).nc) + i) → c.byteAt a = s.chip.byteAt a))) ∧
  (∀ (s : State) (id k : Nat) (p : Packet) (r : RxStream) (l o : List Byte),
    s.chip.isPowered →
    s.chip.nowPkt 0x20 p →
    s.chip.dataRoom p →
    id = hId p →
    k = hChunk p →
    kRingSum (s.chip.coll id).words = true →
    k < (s.chip.coll id).nred →
    (s.chip.coll id).rx = [r] →
    r.src = hRank s.chip (s.chip.coll id) p →
    k ∉ r.landed →
    (assemble r p).2 = some l →
    crc32 l = hCk p →
    l.length ≤ kChunk (s.chip.coll id).words →
    s.chip.tasRead (kSrc (s.chip.coll id).words + (s.chip.coll id).rxShard k * (s.chip.coll id).shard + k % (s.chip.coll id).nc * kChunk (s.chip.coll id).words) l.length = .ok o →
    o.length = l.length →
    Does (.data p) s (fun c =>
      (∃ y : RxStream, (c.coll id).rx = [y] ∧ k ∈ y.landed ∧ y.freed = r.freed) ∧ (∀ i < l.length, c.byteAt ((s.chip.coll id).slotAddr k 0 + i) = l.getD i 0#8) ∧
      (∀ i < l.length, c.byteAt ((s.chip.coll id).slotAddr k 1 + i) = o.getD i 0#8))) ∧
  (∀ (s : State) (p : Packet) (r : RxStream),
    s.chip.isPowered →
    s.chip.nowPkt 0x20 p →
    s.chip.dataRoom p →
    getRx (s.chip.coll (hId p)) (hRank s.chip (s.chip.coll (hId p)) p) = some r →
    hChunk p ∉ r.landed →
    (assemble r p).2 = none →
    Does (.data p) s (fun c =>
      c = setRx (hId p) (assemble r p).1 (takePkt p s.chip))) ∧
  (∀ (s : State) (p : Packet) (r : RxStream) (l : List Byte),
    s.chip.isPowered →
    s.chip.nowPkt 0x20 p →
    s.chip.dataRoom p →
    getRx (s.chip.coll (hId p)) (hRank s.chip (s.chip.coll (hId p)) p) = some r →
    hChunk p ∉ r.landed →
    (assemble r p).2 = some l →
    crc32 l ≠ hCk p →
    hChunk p ∉ r.bad →
    Does (.data p) s (fun c =>
      (∃ y : RxStream, getRx (c.coll (hId p)) (hRank s.chip (s.chip.coll (hId p)) p) = some y ∧ y.bad = hChunk p :: r.bad ∧ y.landed = r.landed) ∧ c.hasErr pgLrt 0 8 = true ∧ c.mem = s.chip.mem ∧ (c.coll (hId p)).st = (s.chip.coll (hId p)).st)) ∧
  (∀ (s : State) (p : Packet) (r : RxStream) (l : List Byte),
    s.chip.isPowered →
    s.chip.nowPkt 0x20 p →
    s.chip.dataRoom p →
    getRx (s.chip.coll (hId p)) (hRank s.chip (s.chip.coll (hId p)) p) = some r →
    hChunk p ∉ r.landed →
    (assemble r p).2 = some l →
    crc32 l ≠ hCk p →
    hChunk p ∈ r.bad →
    Does (.data p) s (fun c =>
      c = foundCause (hId p) 1 (setRx (hId p) (assemble r p).1 (takePkt p s.chip)))) ∧
  (∀ (s : State) (p : Packet),
    s.chip.isPowered →
    s.chip.nowPkt 0x20 p →
    s.chip.dataRoom p →
    ∀ r ∈ getRx (s.chip.coll (hId p)) (hRank s.chip (s.chip.coll (hId p)) p), hChunk p ∈ r.landed →
    Does (.data p) s (fun c =>
      c = (takePkt p s.chip))) ∧
  (∀ (s : State) (p : Packet),
    s.chip.isPowered →
    s.chip.nowPkt 0x20 p →
    ¬ s.chip.dataRoom p →
    Does (.data p) s (fun c =>
      c = s.chip)) ∧
  (∀ (s : State) (p : Packet),
    s.chip.isPowered →
    s.chip.nowPkt 0x21 p →
    (s.chip.coll (hId p)).detached = true →
    Does (.mdata p) s (fun c =>
      c = takePkt p s.chip)) ∧
  (∀ (s : State) (p : Packet) (r : RxStream) (l : List Byte),
    s.chip.isPowered →
    s.chip.nowPkt 0x21 p →
    (s.chip.coll (hId p)).detached = false →
    getRx (s.chip.coll (hId p)) (hRank s.chip (s.chip.coll (hId p)) p) = some r →
    hChunk p ∉ r.landed →
    (assemble r p).2 = some l →
    crc32 l = hCk p →
    Does (.mdata p) s (fun c =>
      c = landChunk (hId p) (hRank s.chip (s.chip.coll (hId p)) p) (hChunk p) l (setRx (hId p) (assemble r p).1 (takePkt p s.chip)))) ∧
  (∀ (s : State) (p : Packet) (r : RxStream),
    s.chip.isPowered →
    s.chip.nowPkt 0x21 p →
    (s.chip.coll (hId p)).detached = false →
    getRx (s.chip.coll (hId p)) (hRank s.chip (s.chip.coll (hId p)) p) = some r →
    hChunk p ∉ r.landed →
    (assemble r p).2 = none →
    Does (.mdata p) s (fun c =>
      c = setRx (hId p) (assemble r p).1 (takePkt p s.chip))) ∧
  (∀ (s : State) (p : Packet) (r : RxStream) (l : List Byte),
    s.chip.isPowered →
    s.chip.nowPkt 0x21 p →
    (s.chip.coll (hId p)).detached = false →
    getRx (s.chip.coll (hId p)) (hRank s.chip (s.chip.coll (hId p)) p) = some r →
    hChunk p ∉ r.landed →
    (assemble r p).2 = some l →
    crc32 l ≠ hCk p →
    hChunk p ∉ r.bad →
    Does (.mdata p) s (fun c =>
      (∃ y : RxStream, getRx (c.coll (hId p)) (hRank s.chip (s.chip.coll (hId p)) p) = some y ∧ y.bad = hChunk p :: r.bad ∧ y.landed = r.landed) ∧ c.hasErr pgLrt 0 8 = true ∧ c.mem = s.chip.mem ∧ (c.coll (hId p)).st = (s.chip.coll (hId p)).st)) ∧
  (∀ (s : State) (id k : Nat) (p : Packet) (r : RxStream) (l : List Byte),
    s.chip.isPowered →
    s.chip.nowPkt 0x21 p →
    id = hId p →
    k = hChunk p →
    (s.chip.coll id).detached = false →
    kRouter (s.chip.coll id).words = false →
    kOp (s.chip.coll id).words = 5 →
    (s.chip.coll id).rx = [r] →
    r.src = hRank s.chip (s.chip.coll id) p →
    k ∉ r.landed →
    hPart p = 0 →
    hLast p = true →
    r.asm = [] →
    l = p.body.drop 16 →
    crc32 l = hCk p →
    l ≠ [] →
    kDst (s.chip.coll id).words + k * kChunk (s.chip.coll id).words + l.length ≤ t0Size →
    (kDst (s.chip.coll id).words + k * kChunk (s.chip.coll id).words) % payloadSize + l.length ≤ payloadSize →
    ∀ i < l.length, s.chip.guarded (kDst (s.chip.coll id).words + k * kChunk (s.chip.coll id).words + i) = false →
    Does (.mdata p) s (fun c =>
      (∃ y : RxStream, (c.coll id).rx = [y] ∧ k ∈ y.landed ∧ k ∈ y.freed) ∧ (∀ i < l.length, c.byteAt (kDst (s.chip.coll id).words + k * kChunk (s.chip.coll id).words + i) = l.getD i 0#8))) ∧
  (∀ (s : State) (id : Nat) (p : Packet),
    s.chip.isPowered →
    s.chip.nowPkt 0x22 p →
    id = hId p →
    ∀ q ∈ (s.chip.coll id).pieces, q.idx ≠ hChunk p →
    getRx (s.chip.coll id) (1000 + hRank s.chip (s.chip.coll id) p) = none →
    hPart p = 0 →
    hLast p = true →
    crc32 (p.body.drop 16) = hCk p →
    Does (.rpart p) s (fun c =>
      (c.coll id).kids = (s.chip.coll id).kids ++ [(hRank s.chip (s.chip.coll id) p, hChunk p, hClean p, p.body.drop 16)] ∧ (c.coll id).pieces = (s.chip.coll id).pieces ∧ c.mem = s.chip.mem ∧ c.regs = s.chip.regs ∧ c.links = s.chip.links)) ∧
  (∀ (s : State) (p : Packet) (n : Nat) (r : RxStream) (y : Coll) (l : List Byte),
    s.chip.isPowered →
    s.chip.nowPkt 0x22 p →
    rpartWaits s.chip p = false →
    n = (hRank s.chip (s.chip.coll (hId p)) p) →
    r = (getRx (s.chip.coll (hId p)) (1000 + n)).getD { src := 1000 + n } →
    y = { (s.chip.coll (hId p)) with rx := (s.chip.coll (hId p)).rx.filter (fun q => q.src != 1000 + n) ++ [(assemble r p).1] } →
    (assemble r p).2 = some l →
    crc32 l = hCk p →
    Does (.rpart p) s (fun c =>
      c = advancePiece (hId p) (hChunk p) 16 ((takePkt p s.chip).setColl (hId p) { y with kids := y.kids ++ [(n, hChunk p, hClean p, l)] }))) ∧
  (∀ (s : State) (p : Packet) (n : Nat) (r : RxStream) (y : Coll),
    s.chip.isPowered →
    s.chip.nowPkt 0x22 p →
    rpartWaits s.chip p = false →
    n = (hRank s.chip (s.chip.coll (hId p)) p) →
    r = (getRx (s.chip.coll (hId p)) (1000 + n)).getD { src := 1000 + n } →
    y = { (s.chip.coll (hId p)) with rx := (s.chip.coll (hId p)).rx.filter (fun q => q.src != 1000 + n) ++ [(assemble r p).1] } →
    (assemble r p).2 = none →
    Does (.rpart p) s (fun c =>
      c = (takePkt p s.chip).setColl (hId p) y)) ∧
  (∀ (s : State) (p : Packet) (n : Nat) (r : RxStream) (y : Coll) (l : List Byte),
    s.chip.isPowered →
    s.chip.nowPkt 0x22 p →
    rpartWaits s.chip p = false →
    n = (hRank s.chip (s.chip.coll (hId p)) p) →
    r = (getRx (s.chip.coll (hId p)) (1000 + n)).getD { src := 1000 + n } →
    y = { (s.chip.coll (hId p)) with rx := (s.chip.coll (hId p)).rx.filter (fun q => q.src != 1000 + n) ++ [(assemble r p).1] } →
    (assemble r p).2 = some l →
    crc32 l ≠ hCk p →
    n * 2 ^ 16 + hChunk p ∉ r.bad →
    Does (.rpart p) s (fun c =>
      (c.coll (hId p)).kids = (s.chip.coll (hId p)).kids ∧ (c.coll (hId p)).pieces = (s.chip.coll (hId p)).pieces ∧ c.hasErr pgLrt 0 8 = true ∧ c.mem = s.chip.mem)) ∧
  (∀ (s : State) (p : Packet),
    s.chip.isPowered →
    p.kind = 0x22 →
    rpartWaits s.chip p = true →
    Does (.rpart p) s (fun c =>
      c = s.chip)) ∧
  (∀ (s : State) (p : Packet) (r : RxStream),
    s.chip.isPowered →
    s.chip.nowPkt 0x23 p →
    ownHeld s.chip (s.chip.coll (hId p)) p = false →
    queryOf s.chip p = none →
    (s.chip.coll (hId p)).detached = false →
    getRx (s.chip.coll (hId p)) (hRank s.chip (s.chip.coll (hId p)) p) = some r →
    hChunk p ∉ r.bad →
    Does (.collReplay p) s (fun c =>
      c = takePkt p s.chip)) ∧
  (∀ (s : State) (p : Packet) (r : RxStream) (l : List Byte),
    s.chip.isPowered →
    s.chip.nowPkt 0x23 p →
    ownHeld s.chip (s.chip.coll (hId p)) p = false →
    queryOf s.chip p = none →
    getRx (s.chip.coll (hId p)) (hRank s.chip (s.chip.coll (hId p)) p) = some r →
    (s.chip.coll (hId p)).detached = true ∨ hChunk p ∈ r.bad →
    hChunk p ∉ r.landed →
    (assemble r p).2 = some l →
    crc32 l = hCk p →
    Does (.collReplay p) s (fun c =>
      c = landChunk (hId p) (hRank s.chip (s.chip.coll (hId p)) p) (hChunk p) l (setRx (hId p) (assemble r p).1 (takePkt p s.chip)))) ∧
  (∀ (s : State) (p : Packet) (r : RxStream),
    s.chip.isPowered →
    s.chip.nowPkt 0x23 p →
    ownHeld s.chip (s.chip.coll (hId p)) p = false →
    queryOf s.chip p = none →
    getRx (s.chip.coll (hId p)) (hRank s.chip (s.chip.coll (hId p)) p) = some r →
    (s.chip.coll (hId p)).detached = true ∨ hChunk p ∈ r.bad →
    hChunk p ∉ r.landed →
    (assemble r p).2 = none →
    Does (.collReplay p) s (fun c =>
      c = setRx (hId p) (assemble r p).1 (takePkt p s.chip))) ∧
  (∀ (s : State) (p : Packet) (x : Nat),
    s.chip.isPowered →
    p.kind = 0x23 →
    ownHeld s.chip (s.chip.coll (hId p)) p = false →
    queryOf s.chip p = some x →
    Does (.collReplay p) s (fun c =>
      c = if (s.chip.ring x).qDet = true ∨ hChunk p ∈ (s.chip.ring x).qrx.bad then queryPart x p (takePkt p s.chip) else (takePkt p s.chip))) ∧
  (∀ (s : State) (id : Nat) (p : Packet) (t : TxStream),
    s.chip.isPowered →
    s.chip.nowPkt 0x24 p →
    queryOf s.chip p = none →
    id = hId p →
    kRingSum (s.chip.coll id).words = false →
    kRouter (s.chip.coll id).words = false →
    (s.chip.coll id).tx = [t] →
    t.dst = hRank s.chip (s.chip.coll id) p →
    t.dst ≠ 256 →
    Does (.rack p) s (fun c =>
      (c.coll id).tx = [{ t with landed := max t.landed (hChunk p), freed := max t.freed (hCk p) }] ∧ (c.coll id).rx = (s.chip.coll id).rx ∧ c.mem = s.chip.mem ∧ c.regs = s.chip.regs ∧ c.links = s.chip.links)) ∧
  (∀ (s : State) (p : Packet) (t : TxStream),
    s.chip.isPowered →
    s.chip.nowPkt 0x24 p →
    queryOf s.chip p = none →
    kRingSum (s.chip.coll (hId p)).words = false →
    (s.chip.coll (hId p)).tx.find? (fun t => t.dst == (hRank s.chip (s.chip.coll (hId p)) p)) = some t →
    Does (.rack p) s (fun c =>
      c = routerCommit (hId p) (noteWindow (hId p) (setTx (hId p) { t with landed := max t.landed (hChunk p), freed := max t.freed (hCk p) } (takePkt p s.chip))))) ∧
  (∀ (s : State) (p : Packet) (t : TxStream) (r : RxStream) (m : List Nat),
    s.chip.isPowered →
    s.chip.nowPkt 0x24 p →
    queryOf s.chip p = none →
    kRingSum (s.chip.coll (hId p)).words = true →
    (s.chip.coll (hId p)).tx.find? (fun t => t.dst == (hRank s.chip (s.chip.coll (hId p)) p)) = some t →
    (s.chip.coll (hId p)).rx.head? = some r →
    m = (s.chip.coll (hId p)).reduced.filter (fun j => !r.freed.contains j && decide (j + (s.chip.coll (hId p)).nc < max t.landed (hChunk p))) →
    Does (.rack p) s (fun c =>
      c = (if m = [] then id else fun q => sendRack (hId p) r.src (setRx (hId p) { r with freed := m.foldl (fun l j => insertAsc j l) r.freed } q))
        (setTx (hId p) { t with landed := max t.landed (hChunk p), freed := max t.freed (hCk p) } (takePkt p s.chip)))) ∧
  (∀ (s : State) (p : Packet) (x m : Nat) (t : TxStream),
    s.chip.isPowered →
    p.kind = 0x24 →
    queryOf s.chip p = some x →
    m = (memberAt s.chip (s.chip.ring x).words p.src).getD 0 →
    (s.chip.ring x).qtx.find? (fun t => t.dst == m) = some t →
    Does (.rack p) s (fun c =>
      c = queryTurn x 5000 (setQtx x { t with landed := max t.landed (hChunk p), freed := max t.freed (hCk p) } (takePkt p s.chip)))) ∧
  (∀ (s : State) (id : Nat) (p : Packet),
    s.chip.isPowered →
    s.chip.nowPkt 0x25 p →
    queryOf s.chip p = none →
    id = hId p →
    (s.chip.coll id).tx.any (fun t => t.dst == hRank s.chip (s.chip.coll id) p) = true →
    chunkReady s.chip (s.chip.coll (hId p)) (hRank s.chip (s.chip.coll (hId p)) p) (hChunk p) = true →
    Does (.repair p) s (fun c =>
      c = sendChunk id 0x23 (hRank s.chip (s.chip.coll id) p) (hChunk p) (takePkt p s.chip))) ∧
  (∀ (s : State) (p : Packet) (q : Piece),
    s.chip.isPowered →
    s.chip.nowPkt 0x25 p →
    queryOf s.chip p = none →
    (s.chip.coll (hId p)).tx.any (fun t => t.dst == (hRank s.chip (s.chip.coll (hId p)) p)) = false →
    (s.chip.coll (hId p)).pieces.find? (fun q => q.idx == hChunk p && q.sent) = some q →
    Does (.repair p) s (fun c =>
      c = sendData (hId p) (if (s.chip.coll (hId p)).ring.isSome = true then 0x17 else 0x22) (hRank s.chip (s.chip.coll (hId p)) p) q.idx (crc32 q.acc) (b2n q.clean) q.acc (takePkt p s.chip))) ∧
  (∀ (s : State) (p : Packet),
    s.chip.isPowered →
    s.chip.nowPkt 0x25 p →
    queryOf s.chip p = none →
    (s.chip.coll (hId p)).st = 2 →
    (s.chip.coll (hId p)).tx.any (fun t => t.dst == (hRank s.chip (s.chip.coll (hId p)) p)) = true →
    chunkReady s.chip (s.chip.coll (hId p)) (hRank s.chip (s.chip.coll (hId p)) p) (hChunk p) = false →
    Does (.repair p) s (fun c =>
      c = s.chip)) ∧
  (∀ (s : State) (p : Packet) (x m g : Nat) (l : List Byte),
    s.chip.isPowered →
    p.kind = 0x25 →
    queryOf s.chip p = some x →
    m = (memberAt s.chip (s.chip.ring x).words p.src).getD 0 →
    g = (((s.chip.ring x).qtx.find? (fun t => t.dst == 256)).map (·.next)).getD 0 →
    queryBytes s.chip (s.chip.ring x) g (hChunk p) = .ok l →
    Does (.repair p) s (fun c =>
      c = querySendChunk x 0x23 m (hChunk p) l (takePkt p s.chip))) ∧
  (∀ (s : State) (p : Packet),
    s.chip.isPowered →
    s.chip.nowPkt 0x26 p →
    queryOf s.chip p = none →
    Does (.detach p) s (fun c =>
      (c.coll (hId p)).detached = true ∧ (∀ r ∈ (c.coll (hId p)).rx, r.asm = []) ∧ (c.coll (hId p)).st = (s.chip.coll (hId p)).st ∧ c.mem = s.chip.mem ∧ c.regs = s.chip.regs)) ∧
  (∀ (s : State) (p : Packet) (x : Nat),
    s.chip.isPowered →
    p.kind = 0x26 →
    queryOf s.chip p = some x →
    Does (.detach p) s (fun c =>
      (c.ring x).qDet = true ∧ (c.ring x).qrx.asm = [] ∧ (c.ring x).qrx.landed = (s.chip.ring x).qrx.landed ∧ c.mem = s.chip.mem ∧ c.colls = s.chip.colls ∧ c.regs = s.chip.regs)) ∧
  (∀ (s : State) (id : CollId) (b : Nat) (g : TxStream) (k : Chip),
    s.chip.isPowered →
    (s.chip.coll id).st = 2 →
    (s.chip.coll id).fullAt = some b →
    b + kDetach (s.chip.coll id).words ≤ s.chip.beat →
    (s.chip.coll id).tx.find? (fun t => t.dst == 256) = some g →
    k = noteWindow id ((slowOnes (s.chip.coll id).tx (kWin (s.chip.coll id).words) g.next).foldl (detachOne id) s.chip) →
    Does (.detachTimeout id) s (fun c =>
      (queryRing k id = none → c = k) ∧ ∀ r, queryRing k id = some r → c = queryDetach r k)) ∧
  (∀ (s : State) (id : CollId) (b : Nat) (g t : TxStream),
    s.chip.isPowered →
    (s.chip.coll id).st = 2 →
    (s.chip.coll id).fullAt = some b →
    b + kDetach (s.chip.coll id).words ≤ s.chip.beat →
    (s.chip.coll id).tx = [g, t] →
    g.dst = 256 →
    t.dst < 256 →
    t.det = false →
    t.landed + kWin (s.chip.coll id).words ≤ g.next →
    queryRing s.chip id = none →
    Does (.detachTimeout id) s (fun c =>
      (c.coll id).tx = [g, { t with det := true, next := t.landed }] ∧ c.hasErr pgLrt 0 15 = true ∧ c.detachLast = t.dst + 2 ^ 8 * id ∧ (c.coll id).fullAt = none ∧ c.mem = s.chip.mem)) ∧
  (∀ (s : State) (id : CollId),
    s.chip.isPowered →
    ∀ b ∈ (s.chip.coll id).fullAt, s.chip.beat < b + kDetach (s.chip.coll id).words →
    queryRing s.chip id = none →
    Does (.detachTimeout id) s (fun c =>
      c = s.chip)) ∧
  (∀ (s : State) (id : CollId) (r : Nat),
    s.chip.isPowered →
    ∀ b ∈ (s.chip.coll id).fullAt, s.chip.beat < b + kDetach (s.chip.coll id).words →
    queryRing s.chip id = some r →
    Does (.detachTimeout id) s (fun c =>
      c = queryDetach r s.chip)) ∧
  (∀ (s : State) (id : CollId) (n : CoreId) (r : RxStream) (k : Nat),
    s.chip.isPowered →
    (s.chip.coll id).st = 2 →
    kRingSum (s.chip.coll id).words = true →
    (s.chip.coll id).rx.head? = some r →
    r.landed.find? (fun k => decide (k < (s.chip.coll id).nred) && !(s.chip.coll id).reduced.contains k && (s.chip.coll id).slotCore k == n.val) = some k →
    k + (s.chip.coll id).nc < (s.chip.coll id).nred →
    1 ≤ s.chip.rg (flagReg (n / 8) (kReady (s.chip.coll id).words + n % 8)) →
    Does (.reduceReady id n) s (fun c =>
      (c.coll id).reduced = k :: (s.chip.coll id).reduced ∧ c.rg (flagReg (n / 8) (kReady (s.chip.coll id).words + n % 8)) = s.chip.rg (flagReg (n / 8) (kReady (s.chip.coll id).words + n % 8)) - 1 ∧ c.mem = s.chip.mem ∧ c.links = s.chip.links)) ∧
  (∀ (s : State) (id : CollId) (n : CoreId) (r : RxStream) (k a : Nat) (l : List Byte),
    s.chip.isPowered →
    (s.chip.coll id).st = 2 →
    kRingSum (s.chip.coll id).words = true →
    (s.chip.coll id).rx.head? = some r →
    r.landed.find? (fun k => decide (k < (s.chip.coll id).nred) && !(s.chip.coll id).reduced.contains k && (s.chip.coll id).slotCore k == n.val) = some k →
    (s.chip.coll id).nred ≤ k + (s.chip.coll id).nc →
    1 ≤ s.chip.rg (flagReg (n / 8) (kReady (s.chip.coll id).words + n % 8)) →
    s.chip.tasRead ((s.chip.coll id).slotAddr k 2) ((s.chip.coll id).chunkLen (k % (s.chip.coll id).nc)) = .ok l →
    l ≠ [] →
    a = (s.chip.coll id).dstAddr (s.chip.coll id).rank (k % (s.chip.coll id).nc) →
    a + l.length ≤ t0Size →
    a % payloadSize + l.length ≤ payloadSize →
    ∀ i < l.length, s.chip.guarded (a + i) = false →
    Does (.reduceReady id n) s (fun c =>
      (c.coll id).reduced = k :: (s.chip.coll id).reduced ∧ (∀ i < l.length, c.byteAt (a + i) = l.getD i 0#8) ∧ (∀ b, (∀ i < l.length, b ≠ a + i) → c.byteAt b = s.chip.byteAt b))) ∧
  (∀ (s : State) (id : CollId) (n : CoreId),
    s.chip.isPowered →
    (s.chip.coll id).st ≠ 2 ∨ kRingSum (s.chip.coll id).words = false ∨ s.chip.rg (flagReg (n / 8) (kReady (s.chip.coll id).words + n % 8)) = 0 ∨ (s.chip.coll id).rx = [] →
    Does (.reduceReady id n) s (fun c =>
      c = s.chip))

/-- A member whose part is complete votes with its DIGEST (R304). Rank 0 holds the votes, commits once every member
has voted the same, and aborts with cause 6 when votes differ. COMMIT ends the run: the context is ARMED again and its
cores owe it nothing (R304). ABORT returns the context to ABORTING with the next attempt, or to FAILED (R305, R306);
where no attempt is left the run fails with cause 11. RUN_TIMEOUT asks for an abort, RUN_FAIL fails the run after
twice TIMEOUT (R303, R306). A packet of a past run is discarded; one of the next attempt or run makes a running member
abort first (R305). -/
def Obligations.CollectiveVerdicts : Prop :=
  (∀ (s : State) (id : CollId) (k : Chip) (x : Coll),
    s.chip.isPowered →
    (s.chip.coll id).st = 2 →
    (s.chip.coll id).asked = false →
    k = ownCopies id s.chip →
    x = k.coll id →
    x.st = 2 →
    x.asked = false →
    kRouter x.words = false →
    partDone x = true →
    x.rank ≠ 0 →
    Does (.voteSend id) s (fun c =>
      c = sendCtl id 0x27 0 0 0 0 (digest x) (k.setColl id { x with st := 3 }))) ∧
  (∀ (s : State) (id : CollId) (k : Chip) (x : Coll),
    s.chip.isPowered →
    (s.chip.coll id).st = 2 →
    (s.chip.coll id).asked = false →
    k = ownCopies id s.chip →
    x = k.coll id →
    x.st = 2 →
    x.asked = false →
    kRouter x.words = false →
    partDone x = true →
    x.rank = 0 →
    Does (.voteSend id) s (fun c =>
      c = takeVote id 0 (digest x) (k.setColl id { x with st := 3 }))) ∧
  (∀ (s : State) (id : CollId) (k : Chip) (x : Coll),
    s.chip.isPowered →
    (s.chip.coll id).st = 2 →
    (s.chip.coll id).asked = false →
    k = ownCopies id s.chip →
    x = k.coll id →
    x.st = 2 →
    x.asked = false →
    kRouter x.words = false →
    partDone x = true →
    x.rank = 0 →
    x.votes = [] →
    2 ≤ x.parts →
    Does (.voteSend id) s (fun c =>
      c.coll id = { x with st := 3, votes := [(0, digest x)] } ∧ (∀ m, m ≠ id.val → c.coll m = k.coll m) ∧ c.regs = k.regs ∧ c.links = k.links ∧ c.cores = k.cores)) ∧
  (∀ (s : State) (id : CollId),
    s.chip.isPowered →
    (s.chip.coll id).st ≠ 2 ∨ (s.chip.coll id).asked = true →
    Does (.voteSend id) s (fun c =>
      c = s.chip)) ∧
  (∀ (s : State) (id : CollId) (k : Chip) (x : Coll),
    s.chip.isPowered →
    (s.chip.coll id).st = 2 →
    (s.chip.coll id).asked = false →
    k = ownCopies id s.chip →
    x = k.coll id →
    kRouter x.words = true ∨ partDone x = false →
    Does (.voteSend id) s (fun c =>
      c = k)) ∧
  (∀ (s : State) (p : Packet) (vs : List (Nat × Nat)),
    s.chip.isPowered →
    s.chip.nowPkt 0x27 p →
    (s.chip.coll (hId p)).rank = 0 →
    vs = ((hRank s.chip (s.chip.coll (hId p)) p), hCk p) :: (s.chip.coll (hId p)).votes.filter (fun v => v.1 != (hRank s.chip (s.chip.coll (hId p)) p)) →
    vs.length < (s.chip.coll (hId p)).parts →
    Does (.vote p) s (fun c =>
      c = (takePkt p s.chip).setColl (hId p) { (s.chip.coll (hId p)) with votes := vs })) ∧
  (∀ (s : State) (p : Packet) (vs : List (Nat × Nat)),
    s.chip.isPowered →
    s.chip.nowPkt 0x27 p →
    (s.chip.coll (hId p)).rank = 0 →
    (s.chip.coll (hId p)).verdict = false →
    vs = ((hRank s.chip (s.chip.coll (hId p)) p), hCk p) :: (s.chip.coll (hId p)).votes.filter (fun v => v.1 != (hRank s.chip (s.chip.coll (hId p)) p)) →
    (s.chip.coll (hId p)).parts ≤ vs.length →
    ∀ v ∈ vs, v.2 = hCk p →
    Does (.vote p) s (fun c =>
      (c.coll (hId p)).st = 1 ∧ (c.coll (hId p)).doneRun = (s.chip.coll (hId p)).run ∧ (c.coll (hId p)).words = (s.chip.coll (hId p)).words ∧ (∀ n < 192, hId p ∉ (c.core n).provSet) ∧ (∀ n < 192, ∀ r ∈ (c.core n).runs, hId p ∉ r.prov))) ∧
  (∀ (s : State) (p : Packet) (vs : List (Nat × Nat)),
    s.chip.isPowered →
    s.chip.nowPkt 0x27 p →
    (s.chip.coll (hId p)).rank = 0 →
    (s.chip.coll (hId p)).verdict = false →
    vs = ((hRank s.chip (s.chip.coll (hId p)) p), hCk p) :: (s.chip.coll (hId p)).votes.filter (fun v => v.1 != (hRank s.chip (s.chip.coll (hId p)) p)) →
    (s.chip.coll (hId p)).parts ≤ vs.length →
    ∃ v ∈ vs, v.2 ≠ hCk p →
    (s.chip.coll (hId p)).attempt + 1 ≤ kRerun (s.chip.coll (hId p)).words →
    Does (.vote p) s (fun c =>
      (c.coll (hId p)).st = 4 ∧ (c.coll (hId p)).cause = 6 ∧ (c.coll (hId p)).attempt = ((s.chip.coll (hId p)).attempt + 1) % 16 ∧ (c.coll (hId p)).run = (s.chip.coll (hId p)).run ∧ c.hasErr pgLrt 0 13 = true)) ∧
  (∀ (s : State) (p : Packet) (vs : List (Nat × Nat)),
    s.chip.isPowered →
    s.chip.nowPkt 0x27 p →
    (s.chip.coll (hId p)).rank = 0 →
    (s.chip.coll (hId p)).verdict = false →
    vs = ((hRank s.chip (s.chip.coll (hId p)) p), hCk p) :: (s.chip.coll (hId p)).votes.filter (fun v => v.1 != (hRank s.chip (s.chip.coll (hId p)) p)) →
    (s.chip.coll (hId p)).parts ≤ vs.length →
    ∃ v ∈ vs, v.2 ≠ hCk p →
    kRerun (s.chip.coll (hId p)).words < (s.chip.coll (hId p)).attempt + 1 →
    Does (.vote p) s (fun c =>
      (c.coll (hId p)).st = 5 ∧ (c.coll (hId p)).cause = 11 ∧ (c.coll (hId p)).run = (s.chip.coll (hId p)).run ∧ c.hasErr pgLrt 2 14 = true)) ∧
  (∀ (s : State) (p : Packet),
    s.chip.isPowered →
    s.chip.nowPkt 0x27 p →
    (s.chip.coll (hId p)).rank ≠ 0 →
    Does (.vote p) s (fun c =>
      c = (takePkt p s.chip))) ∧
  (∀ (s : State) (p : Packet),
    s.chip.isPowered →
    s.chip.nowPkt 0x28 p →
    (s.chip.coll (hId p)).rank = 0 →
    (s.chip.coll (hId p)).verdict = false →
    hFail p = false →
    (s.chip.coll (hId p)).attempt + 1 ≤ kRerun (s.chip.coll (hId p)).words →
    Does (.abortReq p) s (fun c =>
      (c.coll (hId p)).st = 4 ∧ (c.coll (hId p)).cause = hCause p ∧ (c.coll (hId p)).attempt = ((s.chip.coll (hId p)).attempt + 1) % 16 ∧ (c.coll (hId p)).run = (s.chip.coll (hId p)).run ∧ c.hasErr pgLrt 0 13 = true)) ∧
  (∀ (s : State) (p : Packet),
    s.chip.isPowered →
    s.chip.nowPkt 0x28 p →
    (s.chip.coll (hId p)).rank = 0 →
    (s.chip.coll (hId p)).verdict = false →
    hFail p = false →
    kRerun (s.chip.coll (hId p)).words < (s.chip.coll (hId p)).attempt + 1 →
    Does (.abortReq p) s (fun c =>
      (c.coll (hId p)).st = 5 ∧ (c.coll (hId p)).cause = 11 ∧ (c.coll (hId p)).run = (s.chip.coll (hId p)).run ∧ c.hasErr pgLrt 2 14 = true)) ∧
  (∀ (s : State) (p : Packet),
    s.chip.isPowered →
    s.chip.nowPkt 0x28 p →
    (s.chip.coll (hId p)).rank = 0 →
    (s.chip.coll (hId p)).verdict = false →
    hFail p = true →
    Does (.abortReq p) s (fun c =>
      (c.coll (hId p)).st = 5 ∧ (c.coll (hId p)).cause = hCause p ∧ (c.coll (hId p)).run = (s.chip.coll (hId p)).run ∧ c.hasErr pgLrt 2 14 = true)) ∧
  (∀ (s : State) (p : Packet),
    s.chip.isPowered →
    p.kind = 0x28 →
    16 ≤ p.body.length →
    (s.chip.coll (hId p)).st = 1 →
    (s.chip.coll (hId p)).rank = 0 →
    hRun p = (s.chip.coll (hId p)).run →
    hAttempt p ≤ (s.chip.coll (hId p)).attempt →
    Does (.abortReq p) s (fun c =>
      c = ce pgLrt 13 (hCause p) (hId p) (takePkt p s.chip))) ∧
  (∀ (s : State) (p : Packet),
    s.chip.isPowered →
    s.chip.nowPkt 0x29 p →
    Does (.commit p) s (fun c =>
      (c.coll (hId p)).st = 1 ∧ (c.coll (hId p)).doneRun = (s.chip.coll (hId p)).run ∧ (c.coll (hId p)).words = (s.chip.coll (hId p)).words ∧ (∀ n < 192, hId p ∉ (c.core n).provSet) ∧ (∀ n < 192, ∀ r ∈ (c.core n).runs, hId p ∉ r.prov) ∧ (∀ r ∈ (s.chip.coll (hId p)).ring, (c.ring r).merged = true) ∧ c.regs = s.chip.regs)) ∧
  (∀ (s : State) (p : Packet),
    s.chip.isPowered →
    s.chip.nowPkt 0x2A p →
    hFail p = false →
    Does (.abort p) s (fun c =>
      (c.coll (hId p)).st = 4 ∧ (c.coll (hId p)).cause = hCause p ∧ (c.coll (hId p)).attempt = ((s.chip.coll (hId p)).attempt + 1) % 16 ∧ (c.coll (hId p)).run = (s.chip.coll (hId p)).run ∧ c.hasErr pgLrt 0 13 = true)) ∧
  (∀ (s : State) (p : Packet),
    s.chip.isPowered →
    s.chip.nowPkt 0x2A p →
    hFail p = true →
    Does (.abort p) s (fun c =>
      (c.coll (hId p)).st = 5 ∧ (c.coll (hId p)).cause = hCause p ∧ (c.coll (hId p)).run = (s.chip.coll (hId p)).run ∧ c.hasErr pgLrt 2 14 = true)) ∧
  (∀ (s : State) (p : Packet),
    s.chip.isPowered →
    p.kind = 0x2A →
    16 ≤ p.body.length →
    (s.chip.coll (hId p)).st = 1 →
    hRun p = ((s.chip.coll (hId p)).run + 1) % 2 ^ 32 →
    hRun p ≠ (s.chip.coll (hId p)).run →
    hFail p = false →
    Does (.abort p) s (fun c =>
      (c.coll (hId p)).st = 4 ∧ (c.coll (hId p)).run = hRun p ∧ (c.coll (hId p)).attempt = (hAttempt p + 1) % 16 ∧ (c.coll (hId p)).cause = hCause p ∧ c.hasErr pgLrt 0 13 = true)) ∧
  (∀ (s : State) (p : Packet),
    s.chip.isPowered →
    p.kind = 0x20 →
    16 ≤ p.body.length →
    (s.chip.coll (hId p)).st = 2 ∨ (s.chip.coll (hId p)).st = 3 →
    eraOf (s.chip.coll (hId p)) p = .later →
    Does (.data p) s (fun c =>
      c = abortRun (hId p) (s.chip.coll (hId p)).cause s.chip)) ∧
  (∀ (s : State) (p : Packet),
    s.chip.isPowered →
    p.kind = 0x20 →
    p.body.length < 16 ∨ (s.chip.coll (hId p)).st = 0 ∨ (s.chip.coll (hId p)).st = 5 ∨ eraOf (s.chip.coll (hId p)) p = .past →
    Does (.data p) s (fun c =>
      c = (takePkt p s.chip))) ∧
  (∀ (s : State) (id : CollId),
    s.chip.isPowered →
    (s.chip.coll id).st = 2 →
    (s.chip.coll id).rank ≠ 0 →
    (s.chip.coll id).asked = false →
    (s.chip.coll id).start + kTime (s.chip.coll id).words ≤ s.chip.beat →
    Does (.runTimeout id) s (fun c =>
      c = sendCtl id 0x28 0 0 7 0 0 (s.chip.setColl id { s.chip.coll id with asked := true, cause := 7 }))) ∧
  (∀ (s : State) (id : CollId),
    s.chip.isPowered →
    (s.chip.coll id).st = 3 →
    (s.chip.coll id).rank ≠ 0 →
    (s.chip.coll id).asked = false →
    (s.chip.coll id).start + kTime (s.chip.coll id).words ≤ s.chip.beat →
    Does (.runTimeout id) s (fun c =>
      c = s.chip.setColl id { s.chip.coll id with asked := true, cause := 7 })) ∧
  (∀ (s : State) (id : CollId),
    s.chip.isPowered →
    (s.chip.coll id).st = 2 ∨ (s.chip.coll id).st = 3 →
    (s.chip.coll id).rank = 0 →
    (s.chip.coll id).asked = false →
    (s.chip.coll id).verdict = false →
    (s.chip.coll id).start + kTime (s.chip.coll id).words ≤ s.chip.beat →
    Does (.runTimeout id) s (fun c =>
      (if kRerun (s.chip.coll id).words < (s.chip.coll id).attempt + 1 then (c.coll id).st = 5 ∧ (c.coll id).cause = 11 ∧ c.hasErr pgLrt 2 14 = true
      else (c.coll id).st = 4 ∧ (c.coll id).cause = 7 ∧ (c.coll id).attempt = ((s.chip.coll id).attempt + 1) % 16 ∧ c.hasErr pgLrt 0 13 = true))) ∧
  (∀ (s : State) (id : CollId),
    s.chip.isPowered →
    s.chip.beat < (s.chip.coll id).start + kTime (s.chip.coll id).words ∨ (s.chip.coll id).asked = true ∨ ((s.chip.coll id).st ≠ 2 ∧ (s.chip.coll id).st ≠ 3) →
    Does (.runTimeout id) s (fun c =>
      c = s.chip)) ∧
  (∀ (s : State) (id : CollId),
    s.chip.isPowered →
    (s.chip.coll id).st = 2 ∨ (s.chip.coll id).st = 3 →
    (s.chip.coll id).start + 2 * kTime (s.chip.coll id).words ≤ s.chip.beat →
    Does (.runFail id) s (fun c =>
      (c.coll id).st = 5 ∧ (c.coll id).cause = 7 ∧ (c.coll id).run = (s.chip.coll id).run ∧ c.hasErr pgLrt 2 14 = true)) ∧
  (∀ (s : State) (id : CollId),
    s.chip.isPowered →
    s.chip.beat < (s.chip.coll id).start + 2 * kTime (s.chip.coll id).words ∨ ((s.chip.coll id).st ≠ 2 ∧ (s.chip.coll id).st ≠ 3) →
    Does (.runFail id) s (fun c =>
      c = s.chip))


/-! ## Rings -/

/-- FORM of a FREE context with a sound descriptor starts forming, sends JOIN to both neighbours and answers 0; a
bound context answers 1, a refused descriptor 2 with its cause (R253, R255). JOIN marks the neighbour it matches,
disbands with cause 5 where it does not match, and is held where no FORM has come; FORM and GO messages go round the
ring, and GO makes it FORMED with its slot in the ring (R255, R256). A timeout, a command or a message disbands it, a
RUNNING ring at its next step start; DISBAND_COMPLETE frees the context, the cause kept (R278). -/
def Obligations.RingForming : Prop :=
  (∀ (s : State) (x : RingId) (w : List Nat) (k : Chip),
    s.chip.isPowered →
    (s.chip.ring x).st = 0 →
    formCheck s.chip = (w, 0) →
    k = sendJoins x { (s.chip.setRing x { st := 1, words := w, uid := wd (s.chip.slot (rSlot w)).words 1, member := dMember (s.chip.slot (rSlot w)).words, slot := rSlot w, stepBeats := rStep w, formAt := s.chip.beat, step := (rK0 w + 2 ^ 32 - 1) % 2 ^ 32, gstep := (rK0 w + 2 ^ 32 - 1) % 2 ^ 32, owner := rOwner0 w }) with rcuResult := 0 } →
    Does (.form x) s (fun c =>
      c = (k.joins.filter (fun j => j.ringId == rId w)).foldl (fun q j => matchJoin x j.src j.body q) { k with joins := k.joins.filter (fun j => j.ringId != rId w) })) ∧
  (∀ (s : State) (x : RingId),
    s.chip.isPowered →
    (s.chip.ring x).st = 0 →
    (formCheck s.chip).2 = 0 →
    ∀ j ∈ s.chip.joins, j.ringId ≠ rId (formCheck s.chip).1 →
    Does (.form x) s (fun c =>
      (c.ring x).st = 1 ∧ (c.ring x).words = (formCheck s.chip).1 ∧ (c.ring x).slot = rSlot (formCheck s.chip).1 ∧ (c.ring x).member = dMember (s.chip.slot (rSlot (formCheck s.chip).1)).words ∧
      (c.ring x).formAt = s.chip.beat ∧ (c.ring x).joinAt = s.chip.beat ∧ c.rcuResult = 0 ∧ (∀ m, m ≠ x.val → c.ring m = s.chip.ring m) ∧ c.slots = s.chip.slots)) ∧
  (∀ (s : State) (x : RingId),
    s.chip.isPowered →
    (s.chip.ring x).st ≠ 0 →
    Does (.form x) s (fun c =>
      c = { s.chip with rcuResult := 1 })) ∧
  (∀ (s : State) (x : RingId),
    s.chip.isPowered →
    (s.chip.ring x).st = 0 →
    (formCheck s.chip).2 ≠ 0 →
    Does (.form x) s (fun c =>
      (c.ring x).st = 0 ∧ (c.ring x).cause = (formCheck s.chip).2 ∧ c.rcuResult = 2 ∧ c.slots = s.chip.slots)) ∧
  (∀ (s : State) (x : Nat) (p : Packet),
    s.chip.isPowered →
    p.kind = 0x10 →
    ringOf s.chip (fld 15 0 p.tag) = some x →
    (s.chip.ring x).st = 1 →
    p.body.take 16 = (joinBody (s.chip.ring x)).take 16 ∧ at_ p.body 0x1C 4 = (s.chip.ring x).uid ∧
      (at_ p.body 0x20 4 = ((s.chip.ring x).member + 1) % rL (s.chip.ring x).words ∨ at_ p.body 0x20 4 = ((s.chip.ring x).member + rL (s.chip.ring x).words - 1) % rL (s.chip.ring x).words) ∧ memberPos s.chip (s.chip.ring x).words (at_ p.body 0x20 4) = p.src →
    Does (.join p) s (fun c =>
      c = formProgress x ((takePkt p s.chip).setRing x { s.chip.ring x with joinP := (s.chip.ring x).joinP || at_ p.body 0x20 4 == ((s.chip.ring x).member + rL (s.chip.ring x).words - 1) % rL (s.chip.ring x).words, joinS := (s.chip.ring x).joinS || at_ p.body 0x20 4 == ((s.chip.ring x).member + 1) % rL (s.chip.ring x).words }))) ∧
  (∀ (s : State) (x : Nat) (p : Packet),
    s.chip.isPowered →
    p.kind = 0x10 →
    ringOf s.chip (fld 15 0 p.tag) = some x →
    (s.chip.ring x).st = 1 →
    (s.chip.ring x).member ≠ 0 →
    (s.chip.ring x).formHeld = false →
    p.body.take 16 = (joinBody (s.chip.ring x)).take 16 ∧ at_ p.body 0x1C 4 = (s.chip.ring x).uid ∧
      (at_ p.body 0x20 4 = ((s.chip.ring x).member + 1) % rL (s.chip.ring x).words ∨ at_ p.body 0x20 4 = ((s.chip.ring x).member + rL (s.chip.ring x).words - 1) % rL (s.chip.ring x).words) ∧ memberPos s.chip (s.chip.ring x).words (at_ p.body 0x20 4) = p.src →
    at_ p.body 0x20 4 = ((s.chip.ring x).member + 1) % rL (s.chip.ring x).words →
    Does (.join p) s (fun c =>
      (c.ring x).joinS = true ∧ (c.ring x).st = 1 ∧ (c.ring x).formSent = (s.chip.ring x).formSent ∧ c.slots = s.chip.slots ∧ c.mem = s.chip.mem)) ∧
  (∀ (s : State) (x : Nat) (p : Packet),
    s.chip.isPowered →
    p.kind = 0x10 →
    ringOf s.chip (fld 15 0 p.tag) = some x →
    (s.chip.ring x).st = 1 →
    ¬ (p.body.take 16 = (joinBody (s.chip.ring x)).take 16 ∧ at_ p.body 0x1C 4 = (s.chip.ring x).uid ∧
      (at_ p.body 0x20 4 = ((s.chip.ring x).member + 1) % rL (s.chip.ring x).words ∨ at_ p.body 0x20 4 = ((s.chip.ring x).member + rL (s.chip.ring x).words - 1) % rL (s.chip.ring x).words) ∧ memberPos s.chip (s.chip.ring x).words (at_ p.body 0x20 4) = p.src) →
    Does (.join p) s (fun c =>
      (c.ring x).st = 6 ∧ (c.ring x).cause = 5 ∧ c.hasErr pgRcu 0 12 = true)) ∧
  (∀ (s : State) (x : Nat) (p : Packet),
    s.chip.isPowered →
    p.kind = 0x10 →
    ringOf s.chip (fld 15 0 p.tag) = some x →
    (s.chip.ring x).st ≠ 1 →
    Does (.join p) s (fun c =>
      c = (takePkt p s.chip))) ∧
  (∀ (s : State) (p : Packet),
    s.chip.isPowered →
    p.kind = 0x10 →
    ringOf s.chip (fld 15 0 p.tag) = none →
    Does (.join p) s (fun c =>
      c = { takePkt p s.chip with joins := s.chip.joins ++ [{ ringId := fld 15 0 p.tag, src := p.src, beat := s.chip.beat, body := p.body }] })) ∧
  (∀ (s : State) (x : RingId),
    s.chip.isPowered →
    (s.chip.ring x).st = 1 →
    (s.chip.ring x).joinP = false ∨ (s.chip.ring x).joinS = false →
    (s.chip.ring x).joinAt + 64 ≤ s.chip.beat →
    Does (.joinResend x) s (fun c =>
      c = sendJoins x s.chip)) ∧
  (∀ (s : State) (x : RingId),
    s.chip.isPowered →
    (s.chip.ring x).st ≠ 1 ∨ ((s.chip.ring x).joinP = true ∧ (s.chip.ring x).joinS = true) ∨ s.chip.beat < (s.chip.ring x).joinAt + 64 →
    Does (.joinResend x) s (fun c =>
      c = s.chip)) ∧
  (∀ (s : State) (i : Nat),
    s.chip.isPowered →
    Does (.joinHoldExpire i) s (fun c =>
      c = { s.chip with joins := s.chip.joins.filter (fun j => !(j.ringId == i && decide (j.beat + s.chip.rg (ringReg 0x148) ≤ s.chip.beat))) })) ∧
  (∀ (s : State) (x : Nat) (p : Packet),
    s.chip.isPowered →
    p.kind = 0x11 →
    ringOf s.chip (fld 15 0 p.tag) = some x →
    (s.chip.ring x).st ≠ 6 →
    (s.chip.ring x).st = 1 →
    (s.chip.ring x).member ≠ 0 →
    Does (.formMessage p) s (fun c =>
      c = formProgress x ((takePkt p s.chip).setRing x { s.chip.ring x with formHeld := true }))) ∧
  (∀ (s : State) (x : Nat) (p : Packet),
    s.chip.isPowered →
    p.kind = 0x11 →
    ringOf s.chip (fld 15 0 p.tag) = some x →
    (s.chip.ring x).st ≠ 6 →
    (s.chip.ring x).st = 1 →
    (s.chip.ring x).member ≠ 0 →
    (s.chip.ring x).formSent = false →
    Does (.formMessage p) s (fun c =>
      (c.ring x).formHeld = true ∧ (c.ring x).st = 1 ∧ (c.ring x).formSent = ((s.chip.ring x).joinP && (s.chip.ring x).joinS) ∧ c.slots = s.chip.slots)) ∧
  (∀ (s : State) (x : Nat) (p : Packet) (b : List Byte),
    s.chip.isPowered →
    p.kind = 0x11 →
    ringOf s.chip (fld 15 0 p.tag) = some x →
    (s.chip.ring x).st ≠ 6 →
    (s.chip.ring x).st = 1 →
    (s.chip.ring x).member = 0 →
    (s.chip.ring x).formSent = true →
    (s.chip.ring x).goSent = false →
    rS0 (s.chip.ring x).words = 0 ∨ s.chip.beat + rL (s.chip.ring x).words + 64 ≤ rS0 (s.chip.ring x).words →
    b = (if rS0 (s.chip.ring x).words ≠ 0 then leBytes 4 0 ++ leBytes 8 (rS0 (s.chip.ring x).words) else leBytes 4 1 ++ leBytes 8 (((groupStep s.chip (rGroup (s.chip.ring x).words)).getD 0 + 2) % 2 ^ 32)) →
    Does (.formMessage p) s (fun c =>
      (c.ring x).goSent = true ∧ (c.ring x).st = 1 ∧ c = ringSend x 0x12 1 0 (s.chip.ring x).step 0xFFFFFFFF b ((takePkt p s.chip).setRing x { s.chip.ring x with goSent := true }))) ∧
  (∀ (s : State) (x : Nat) (p : Packet),
    s.chip.isPowered →
    p.kind = 0x11 →
    ringOf s.chip (fld 15 0 p.tag) = some x →
    (s.chip.ring x).st ≠ 6 →
    (s.chip.ring x).st = 1 →
    (s.chip.ring x).member = 0 →
    (s.chip.ring x).formSent = true →
    (s.chip.ring x).goSent = false →
    rS0 (s.chip.ring x).words ≠ 0 →
    rS0 (s.chip.ring x).words < s.chip.beat + rL (s.chip.ring x).words + 64 →
    Does (.formMessage p) s (fun c =>
      (c.ring x).st = 6 ∧ (c.ring x).cause = 6 ∧ c.hasErr pgRcu 0 12 = true)) ∧
  (∀ (s : State) (x : Nat) (p : Packet),
    s.chip.isPowered →
    p.kind = 0x11 →
    ringOf s.chip (fld 15 0 p.tag) = some x →
    (s.chip.ring x).st ≠ 6 →
    (s.chip.ring x).st ≠ 1 ∨ ((s.chip.ring x).member = 0 ∧ ((s.chip.ring x).formSent = false ∨ (s.chip.ring x).goSent = true)) →
    Does (.formMessage p) s (fun c =>
      c = (takePkt p s.chip))) ∧
  (∀ (s : State) (x : Nat) (p : Packet),
    s.chip.isPowered →
    p.kind = 0x12 →
    ringOf s.chip (fld 15 0 p.tag) = some x →
    (s.chip.ring x).st ≠ 6 →
    (s.chip.ring x).st = 1 →
    (s.chip.ring x).member = 0 → (s.chip.ring x).goSent = true →
    Does (.go p) s (fun c =>
      (c.ring x).st = 2 ∧ (c.ring x).s0 = (if at_ p.body 0 4 = 0 then at_ p.body 4 8 else 0) ∧ (c.ring x).joinStep = (if at_ p.body 0 4 = 0 then none else some (at_ p.body 4 8)) ∧
      (c.slot (s.chip.ring x).slot).inRing = true ∧ bit 0 (c.rg (ringReg 0x20)) = true)) ∧
  (∀ (s : State) (x : Nat) (p : Packet),
    s.chip.isPowered →
    p.kind = 0x12 →
    ringOf s.chip (fld 15 0 p.tag) = some x →
    (s.chip.ring x).st ≠ 6 →
    (s.chip.ring x).st = 1 →
    (s.chip.ring x).member = 0 →
    (s.chip.ring x).goSent = true →
    at_ p.body 0 4 = 1 →
    Does (.go p) s (fun c =>
      (c.ring x).st = 2 ∧ (c.ring x).joinStep = some (at_ p.body 4 8) ∧ (c.slot (s.chip.ring x).slot).inRing = true ∧ c.links = s.chip.links ∧ c.cores = s.chip.cores)) ∧
  (∀ (s : State) (x : Nat) (p : Packet),
    s.chip.isPowered →
    p.kind = 0x12 →
    ringOf s.chip (fld 15 0 p.tag) = some x →
    (s.chip.ring x).st ≠ 6 →
    (s.chip.ring x).st ≠ 1 ∨ ((s.chip.ring x).member = 0 ∧ (s.chip.ring x).goSent = false) →
    Does (.go p) s (fun c =>
      c = (takePkt p s.chip))) ∧
  (∀ (s : State) (x : RingId),
    s.chip.isPowered →
    (s.chip.ring x).st = 1 →
    (s.chip.ring x).formAt + s.chip.formTime ≤ s.chip.beat →
    Does (.formTimeout x) s (fun c =>
      (c.ring x).st = 6 ∧ (c.ring x).cause = 7 ∧ c.hasErr pgRcu 0 12 = true)) ∧
  (∀ (s : State) (x : RingId),
    s.chip.isPowered →
    (s.chip.ring x).st ≠ 1 ∨ s.chip.beat < (s.chip.ring x).formAt + s.chip.formTime →
    Does (.formTimeout x) s (fun c =>
      c = s.chip)) ∧
  (∀ (s : State) (x : RingId),
    s.chip.isPowered →
    (s.chip.ring x).st = 0 ∨ (s.chip.ring x).st = 6 →
    Does (.ringDisband x) s (fun c =>
      c = { s.chip with rcuResult := 1 })) ∧
  (∀ (s : State) (x : RingId),
    s.chip.isPowered →
    (s.chip.ring x).st = 3 →
    Does (.ringDisband x) s (fun c =>
      c.ring x = { s.chip.ring x with disband := some ((s.chip.ring x).disband.getD 0) } ∧ c.rcuResult = 0 ∧ c.slots = s.chip.slots ∧ c.links = s.chip.links)) ∧
  (∀ (s : State) (x : RingId),
    s.chip.isPowered →
    (s.chip.ring x).st = 1 ∨ (s.chip.ring x).st = 2 ∨ (s.chip.ring x).st = 4 ∨ (s.chip.ring x).st = 5 →
    Does (.ringDisband x) s (fun c =>
      (c.ring x).st = 6 ∧ (c.ring x).cause = 0 ∧ ((s.chip.ring x).st ≠ 1 → (c.slot (s.chip.ring x).slot).inRing = false) ∧ c.rcuResult = 0 ∧ c.hasErr pgRcu 0 12 = true)) ∧
  (∀ (s : State) (x : Nat) (p : Packet),
    s.chip.isPowered →
    p.kind = 0x13 →
    ringOf s.chip (fld 15 0 p.tag) = some x →
    (s.chip.ring x).st ≠ 6 →
    at_ p.body 0 4 = 0 →
    (s.chip.ring x).st = 3 →
    (s.chip.ring x).disband = none →
    Does (.disbandMessage p) s (fun c =>
      (c.ring x).st = 5 ∧ (c.ring x).cause = 7 ∧ (c.ring x).phase = 0 ∧ c.slots = s.chip.slots ∧ bit 3 (c.rg (ringReg 0x20)) = true)) ∧
  (∀ (s : State) (x : Nat) (p : Packet) (d : Nat),
    s.chip.isPowered →
    p.kind = 0x13 →
    ringOf s.chip (fld 15 0 p.tag) = some x →
    (s.chip.ring x).st ≠ 6 →
    at_ p.body 0 4 = 0 →
    (s.chip.ring x).st = 3 →
    (s.chip.ring x).disband = some d →
    Does (.disbandMessage p) s (fun c =>
      (c.ring x).st = 6 ∧ (c.ring x).cause = d ∧ (c.slot (s.chip.ring x).slot).inRing = false ∧ c.hasErr pgRcu 0 12 = true)) ∧
  (∀ (s : State) (x : Nat) (p : Packet),
    s.chip.isPowered →
    p.kind = 0x13 →
    ringOf s.chip (fld 15 0 p.tag) = some x →
    (s.chip.ring x).st ≠ 6 →
    at_ p.body 0 4 = 0 →
    (s.chip.ring x).st ≠ 3 →
    Does (.disbandMessage p) s (fun c =>
      c = (takePkt p s.chip))) ∧
  (∀ (s : State) (x : Nat) (p : Packet),
    s.chip.isPowered →
    p.kind = 0x13 →
    ringOf s.chip (fld 15 0 p.tag) = some x →
    (s.chip.ring x).st ≠ 6 →
    at_ p.body 0 4 ≠ 0 →
    (s.chip.ring x).st = 3 →
    Does (.disbandMessage p) s (fun c =>
      c = (takePkt p s.chip).setRing x { s.chip.ring x with disband := some ((s.chip.ring x).disband.getD 9) })) ∧
  (∀ (s : State) (x : Nat) (p : Packet),
    s.chip.isPowered →
    p.kind = 0x13 →
    ringOf s.chip (fld 15 0 p.tag) = some x →
    (s.chip.ring x).st ≠ 6 →
    at_ p.body 0 4 ≠ 0 →
    (s.chip.ring x).st ≠ 0 →
    (s.chip.ring x).st ≠ 3 →
    Does (.disbandMessage p) s (fun c =>
      (c.ring x).st = 6 ∧ (c.ring x).cause = 9 ∧ c.links = s.chip.links)) ∧
  (∀ (s : State) (x : RingId),
    s.chip.isPowered →
    (s.chip.ring x).st = 6 →
    ringQueued s.chip (rId (s.chip.ring x).words) = false →
    Does (.disbandComplete x) s (fun c =>
      c.ring x = { cause := (s.chip.ring x).cause, missBeats := (s.chip.ring x).missBeats, missMember := (s.chip.ring x).missMember } ∧ bit 1 (c.rg (ringReg 0x20)) = true ∧ (∀ m, m ≠ x.val → c.ring m = s.chip.ring m))) ∧
  (∀ (s : State) (x : RingId),
    s.chip.isPowered →
    (s.chip.ring x).st ≠ 6 ∨ ringQueued s.chip (rId (s.chip.ring x).words) = true →
    Does (.disbandComplete x) s (fun c =>
      c = s.chip))

/-- STEP_START at the start beat of a FORMED ring, or at the next start once the barrier has closed, closes the old
step and makes the parts of the new one as far as they go (R256, R259, R260); a start that waits for a roll or a
carousel pass goes on with a later STEP_START. STEP_DONE takes the work flags, and sends DONE and holds it once work,
blocks or merge of the step are complete (R258); a DONE_MESSAGE is held for its step (R259). PLAN and PLAN_MESSAGE
keep a plan for a step at least two ahead; one that has come too late stalls the group (R269, R271). EXTEND is kept up
to MAX_EXT (R272). STALL_TIMEOUT stalls the group whose barrier has not closed, with a UC (R274). RESTART sets a beat
at least 64 ahead (R276). -/
def Obligations.RingSteps : Prop :=
  (∀ (s : State) (g : GroupId) (b : Nat),
    s.chip.isPowered →
    ∀ y ∈ runRings s.chip g, (s.chip.ring y).phase = 0 →
    startDue s.chip g = some b →
    b ≤ s.chip.beat →
    (groupDones s.chip g).any (·.2.hold) = true ∨ (s.chip.cascadeDue b = true ∧ s.chip.cad.st ≠ 2) →
    (closeStep g b s.chip).2 = true →
    Does (.stepStart g) s (fun c =>
      c = goStart g b (openStart g b (closeStep g b s.chip).1))) ∧
  (∀ (s : State) (g : GroupId) (b : Nat),
    s.chip.isPowered →
    ∀ y ∈ runRings s.chip g, (s.chip.ring y).phase = 0 →
    startDue s.chip g = some b →
    b ≤ s.chip.beat →
    (groupDones s.chip g).any (·.2.hold) = true ∨ (s.chip.cascadeDue b = true ∧ s.chip.cad.st ≠ 2) →
    (closeStep g b s.chip).2 = false →
    Does (.stepStart g) s (fun c =>
      c = (closeStep g b s.chip).1)) ∧
  (∀ (s : State) (g : GroupId) (x : Nat),
    s.chip.isPowered →
    ((runRings s.chip g).filter (fun y => (s.chip.ring y).phase != 0)).head? = some x →
    Does (.stepStart g) s (fun c =>
      c = if (runRings s.chip g).any (fun y => rollWaits s.chip (s.chip.ring y).slot) = true then goStart g (s.chip.ring x).s0 s.chip else finishStart g (s.chip.ring x).s0 s.chip)) ∧
  (∀ (s : State) (g : GroupId),
    s.chip.isPowered →
    ∀ y ∈ runRings s.chip g, (s.chip.ring y).phase = 0 →
    ∀ b ∈ startDue s.chip g, s.chip.beat < b ∨ ((groupDones s.chip g).any (·.2.hold) = false ∧ (s.chip.cascadeDue b = false ∨ s.chip.cad.st = 2)) →
    Does (.stepStart g) s (fun c =>
      c = s.chip)) ∧
  (∀ (s : State) (g : GroupId) (x : Nat),
    s.chip.isPowered →
    groupRings s.chip g = [x] →
    (s.chip.ring x).st = 2 →
    (s.chip.ring x).joinStep = none →
    (s.chip.ring x).s0 ≤ s.chip.beat →
    s.chip.cascadeDue (s.chip.ring x).s0 = true →
    s.chip.cad.st ≠ 2 →
    (s.chip.slot (s.chip.ring x).slot).st = 2 →
    s.chip.rolls = [] →
    s.chip.plans = [] →
    (s.chip.ring x).plans = [] →
    carBusy s.chip = false →
    Does (.stepStart g) s (fun c =>
      (c.ring x).st = 3 ∧ (c.ring x).step = ((s.chip.ring x).step + 1) % 2 ^ 32 ∧ (c.ring x).gstep = ((s.chip.ring x).gstep + 1) % 2 ^ 32 ∧ (c.ring x).start = (s.chip.ring x).s0 ∧
      (c.ring x).phase = 0 ∧ (c.ring x).ended = false ∧ (c.ring x).words = (s.chip.ring x).words ∧ (∀ m, m ≠ x → c.ring m = s.chip.ring m))) ∧
  (∀ (s : State) (g : GroupId) (x b : Nat),
    s.chip.isPowered →
    groupRings s.chip g = [x] →
    (s.chip.ring x).st = 3 →
    (s.chip.ring x).phase = 0 →
    (s.chip.ring x).disband = none →
    barrier s.chip g = true →
    b = nextStart s.chip g →
    b ≤ s.chip.beat →
    s.chip.cascadeDue b = true →
    s.chip.cad.st ≠ 2 →
    ∀ d ∈ (s.chip.ring x).now, d.stop = false ∧ d.hold = false →
    (s.chip.slot (s.chip.ring x).slot).st = 2 →
    s.chip.rolls = [] →
    s.chip.plans = [] →
    (s.chip.ring x).plans = [] →
    carBusy s.chip = false →
    Does (.stepStart g) s (fun c =>
      (c.ring x).st = 3 ∧ (c.ring x).step = ((s.chip.ring x).step + 1) % 2 ^ 32 ∧ (c.ring x).gstep = ((s.chip.ring x).gstep + 1) % 2 ^ 32 ∧ (c.ring x).start = b ∧
      (c.ring x).phase = 0 ∧ (c.ring x).worked = false ∧ (c.ring x).ended = false ∧ (c.ring x).merged = false ∧ (∀ m, m ≠ x → c.ring m = s.chip.ring m))) ∧
  (∀ (s : State) (x : RingId) (k : Chip) (r : Ring),
    s.chip.isPowered →
    (s.chip.ring x).st = 3 →
    k = takeWork (rGroup (s.chip.ring x).words) s.chip →
    r = k.ring x →
    r.ended = false →
    r.worked = true →
    r.phase = 0 →
    if rDecode r.words = true then r.merged = true ∨ (k.slot r.slot).st ≠ 2 else blockUnacked k (rId r.words) = false ∧ rxDone k r = true →
    Does (.stepDone x) s (fun c =>
      (c.ring x).ended = true ∧ (c.ring x).st = 3 ∧ (∃ d : RingDone, d ∈ (c.ring x).dones ∧ d.member = r.member ∧ d.step = r.gstep) ∧
      ((∀ d ∈ r.dones, d.member = r.member → d.step ≠ r.gstep) → ∃ d : RingDone, (c.ring x).dones = r.dones ++ [d] ∧ d.member = r.member ∧ d.step = r.gstep ∧ d.beat = s.chip.beat ∧ d.stop = ((k.slot r.slot).st == 3 || (k.slot r.slot).st == 4)))) ∧
  (∀ (s : State) (x : RingId) (k : Chip) (r : Ring),
    s.chip.isPowered →
    (s.chip.ring x).st = 3 →
    k = takeWork (rGroup (s.chip.ring x).words) s.chip →
    r = k.ring x →
    r.ended = true ∨ r.worked = false ∨ r.phase ≠ 0 ∨ ¬ (if rDecode r.words = true then r.merged = true ∨ (k.slot r.slot).st ≠ 2 else blockUnacked k (rId r.words) = false ∧ rxDone k r = true) →
    Does (.stepDone x) s (fun c =>
      c = k)) ∧
  (∀ (s : State) (x : RingId) (y : Nat) (w : List Nat),
    s.chip.isPowered →
    (s.chip.ring x).st = 3 →
    (runRings s.chip (rGroup (s.chip.ring x).words)).head? = some y →
    w = (s.chip.ring y).words →
    (s.chip.ring y).worked = false →
    ∀ cl ∈ workClusters w, rDoneAmt w ≤ s.chip.rg (flagReg cl (rDoneFlag w)) →
    Does (.stepDone x) s (fun c =>
      (c.ring x).worked = true ∧ ∀ cl ∈ workClusters w, c.rg (flagReg cl (rDoneFlag w)) = s.chip.rg (flagReg cl (rDoneFlag w)) - rDoneAmt w)) ∧
  (∀ (s : State) (x : RingId),
    s.chip.isPowered →
    (s.chip.ring x).st ≠ 3 →
    Does (.stepDone x) s (fun c =>
      c = s.chip)) ∧
  (∀ (s : State) (x : Nat) (p : Packet) (m : Nat),
    s.chip.isPowered →
    p.kind = 0x19 →
    ringOf s.chip (fld 15 0 p.tag) = some x →
    (s.chip.ring x).st ≠ 6 →
    memberAt s.chip (s.chip.ring x).words p.src = some m →
    3 ≤ (s.chip.ring x).st → stepLt (at_ p.body 0 4) (s.chip.ring x).gstep = false →
    ∀ d ∈ (s.chip.ring x).dones, d.member = m → d.step ≠ at_ p.body 0 4 →
    Does (.doneMessage p) s (fun c =>
      (c.ring x).dones = (s.chip.ring x).dones ++ [{ member := m, step := at_ p.body 0 4, beat := fullBeat (s.chip.ring x).start (at_ p.body 4 4), stop := bit 0 (at_ p.body 8 4), hold := bit 1 (at_ p.body 8 4), owner := fld 15 8 (at_ p.body 8 4) }] ∧
      (c.ring x).st = (s.chip.ring x).st ∧ c.mem = s.chip.mem)) ∧
  (∀ (s : State) (x : Nat) (p : Packet) (m : Nat),
    s.chip.isPowered →
    p.kind = 0x19 →
    ringOf s.chip (fld 15 0 p.tag) = some x →
    (s.chip.ring x).st ≠ 6 →
    memberAt s.chip (s.chip.ring x).words p.src = some m →
    (3 ≤ (s.chip.ring x).st ∧ stepLt (at_ p.body 0 4) (s.chip.ring x).gstep = true) ∨ ∃ d ∈ (s.chip.ring x).dones, d.member = m ∧ d.step = at_ p.body 0 4 →
    Does (.doneMessage p) s (fun c =>
      c = takePkt p s.chip)) ∧
  (∀ (s : State) (x : Nat) (p : Packet),
    s.chip.isPowered →
    p.kind = 0x19 →
    ringOf s.chip (fld 15 0 p.tag) = some x →
    (s.chip.ring x).st ≠ 6 →
    memberAt s.chip (s.chip.ring x).words p.src = none →
    Does (.doneMessage p) s (fun c =>
      c = takePkt p s.chip)) ∧
  (∀ (s : State) (x : RingId),
    s.chip.isPowered →
    2 ≤ (s.chip.ring x).st →
    (s.chip.ring x).st ≤ 5 →
    1 ≤ fld 3 0 (s.chip.rg (ringReg 0x110)) →
    fld 3 0 (s.chip.rg (ringReg 0x110)) ≤ 4 →
    2 ≤ (s.chip.rg (ringReg 0x10C) + 2 ^ 32 - (s.chip.ring x).gstep % 2 ^ 32) % 2 ^ 32 →
    (s.chip.rg (ringReg 0x10C) + 2 ^ 32 - (s.chip.ring x).gstep % 2 ^ 32) % 2 ^ 32 < 2 ^ 31 →
    Does (.plan x) s (fun c =>
      (c.ring x).plans = (s.chip.ring x).plans ++ [(s.chip.rg (ringReg 0x10C), fld 3 0 (s.chip.rg (ringReg 0x110)), fld 31 8 (s.chip.rg (ringReg 0x110)))] ∧ c.rcuResult = 0 ∧ (c.ring x).st = (s.chip.ring x).st)) ∧
  (∀ (s : State) (x : RingId),
    s.chip.isPowered →
    2 ≤ (s.chip.ring x).st →
    (s.chip.ring x).st ≤ 5 →
    1 ≤ fld 3 0 (s.chip.rg (ringReg 0x110)) →
    fld 3 0 (s.chip.rg (ringReg 0x110)) ≤ 4 →
    (s.chip.rg (ringReg 0x10C) + 2 ^ 32 - (s.chip.ring x).gstep % 2 ^ 32) % 2 ^ 32 < 2 ∨ 2 ^ 31 ≤ (s.chip.rg (ringReg 0x10C) + 2 ^ 32 - (s.chip.ring x).gstep % 2 ^ 32) % 2 ^ 32 →
    Does (.plan x) s (fun c =>
      c = { s.chip with rcuResult := 3 })) ∧
  (∀ (s : State) (x : RingId),
    s.chip.isPowered →
    (s.chip.ring x).st < 2 ∨ 5 < (s.chip.ring x).st ∨ fld 3 0 (s.chip.rg (ringReg 0x110)) = 0 ∨ 4 < fld 3 0 (s.chip.rg (ringReg 0x110)) →
    Does (.plan x) s (fun c =>
      c = { s.chip with rcuResult := 1 })) ∧
  (∀ (s : State) (x : Nat) (p : Packet),
    s.chip.isPowered →
    p.kind = 0x1B →
    ringOf s.chip (fld 15 0 p.tag) = some x →
    (s.chip.ring x).st ≠ 6 →
    (at_ p.body 0 4, at_ p.body 4 1 % 16, at_ p.body 5 3) ∉ (s.chip.ring x).plans →
    (s.chip.ring x).st < 3 ∨ stepLt (s.chip.ring x).gstep (at_ p.body 0 4) = true →
    Does (.planMessage p) s (fun c =>
      (c.ring x).plans = (s.chip.ring x).plans ++ [(at_ p.body 0 4, at_ p.body 4 1 % 16, at_ p.body 5 3)] ∧ (c.ring x).st = (s.chip.ring x).st ∧ c.regs = s.chip.regs)) ∧
  (∀ (s : State) (x : Nat) (p : Packet),
    s.chip.isPowered →
    p.kind = 0x1B →
    ringOf s.chip (fld 15 0 p.tag) = some x →
    (s.chip.ring x).st ≠ 6 →
    (at_ p.body 0 4, at_ p.body 4 1 % 16, at_ p.body 5 3) ∈ (s.chip.ring x).plans →
    Does (.planMessage p) s (fun c =>
      c = (takePkt p s.chip))) ∧
  (∀ (s : State) (x : Nat) (p : Packet),
    s.chip.isPowered →
    p.kind = 0x1B →
    ringOf s.chip (fld 15 0 p.tag) = some x →
    (s.chip.ring x).st ≠ 6 →
    (at_ p.body 0 4, at_ p.body 4 1 % 16, at_ p.body 5 3) ∉ (s.chip.ring x).plans →
    3 ≤ (s.chip.ring x).st →
    stepLt (s.chip.ring x).gstep (at_ p.body 0 4) = false →
    Does (.planMessage p) s (fun c =>
      c = stallGroup (rGroup (s.chip.ring x).words) 10 (takePkt p s.chip))) ∧
  (∀ (s : State) (g : Nat) (x : Nat) (p : Packet),
    s.chip.isPowered →
    p.kind = 0x1B →
    ringOf s.chip (fld 15 0 p.tag) = some x →
    (s.chip.ring x).st ≠ 6 →
    (at_ p.body 0 4, at_ p.body 4 1 % 16, at_ p.body 5 3) ∉ (s.chip.ring x).plans →
    stepLt (s.chip.ring x).gstep (at_ p.body 0 4) = false →
    (s.chip.ring x).st = 3 →
    (s.chip.ring x).disband = none →
    g = rGroup (s.chip.ring x).words →
    runRings s.chip g = [x] →
    Does (.planMessage p) s (fun c =>
      (c.ring x).st = 5 ∧ (c.ring x).cause = 10 ∧ (c.ring x).plans = (s.chip.ring x).plans ∧ c.slots = s.chip.slots)) ∧
  (∀ (s : State) (x : Nat) (p : Packet),
    s.chip.isPowered →
    p.kind = 0x1A →
    ringOf s.chip (fld 15 0 p.tag) = some x →
    (s.chip.ring x).st ≠ 6 →
    Does (.extend p) s (fun c =>
      c.ring x = { s.chip.ring x with exts := (s.chip.ring x).exts ++ [(at_ p.body 0 4, min (at_ p.body 4 2) (rMaxExt (s.chip.ring x).words))] } ∧ c.regs = s.chip.regs ∧ c.mem = s.chip.mem)) ∧
  (∀ (s : State) (g : GroupId) (y : Nat),
    s.chip.isPowered →
    (runRings s.chip g).head? = some y →
    (s.chip.ring y).phase = 0 →
    barrier s.chip g = false →
    (s.chip.ring y).start + (s.chip.ring y).stepBeats + ((runRings s.chip g).map (fun y => (s.chip.ring y).ext)).foldl max 0 + rStall (s.chip.ring y).words ≤ s.chip.beat →
    Does (.stallTimeout g) s (fun c =>
      c.hasErr pgRcu 2 10 = true ∧ ∀ x ∈ runRings s.chip g, if (s.chip.ring x).disband = none then (c.ring x).st = 5 ∧ (c.ring x).cause = 7 else (c.ring x).st = 6)) ∧
  (∀ (s : State) (g : GroupId) (x : Nat),
    s.chip.isPowered →
    runRings s.chip g = [x] →
    (s.chip.ring x).phase = 0 →
    (s.chip.ring x).disband = none →
    barrier s.chip g = false →
    (s.chip.ring x).start + (s.chip.ring x).stepBeats + (s.chip.ring x).ext + rStall (s.chip.ring x).words ≤ s.chip.beat →
    Does (.stallTimeout g) s (fun c =>
      (c.ring x).st = 5 ∧ (c.ring x).cause = 7 ∧ c.hasErr pgRcu 2 10 = true ∧ c.slots = s.chip.slots)) ∧
  (∀ (s : State) (g : GroupId),
    s.chip.isPowered →
    runRings s.chip g = [] ∨ barrier s.chip g = true ∨ ∃ y ∈ (runRings s.chip g).head?, (s.chip.ring y).phase ≠ 0 ∨ s.chip.beat < (s.chip.ring y).start + (s.chip.ring y).stepBeats + ((runRings s.chip g).map (fun y => (s.chip.ring y).ext)).foldl max 0 + rStall (s.chip.ring y).words →
    Does (.stallTimeout g) s (fun c =>
      c = s.chip)) ∧
  (∀ (s : State) (x : RingId),
    s.chip.isPowered →
    (s.chip.ring x).st = 4 ∨ ((s.chip.ring x).st = 5 ∧ ((s.chip.ring x).cause = 7 ∨ (s.chip.ring x).cause = 2) ∧ (s.chip.slot (s.chip.ring x).slot).st = 2) →
    s.chip.beat + 64 ≤ s.chip.rg64 (ringReg 0x114) →
    Does (.restart x) s (fun c =>
      c = { s.chip.setRing x { s.chip.ring x with resume := some (s.chip.rg64 (ringReg 0x114)) } with rcuResult := 0 })) ∧
  (∀ (s : State) (x : RingId),
    s.chip.isPowered →
    (s.chip.ring x).st = 4 ∨ ((s.chip.ring x).st = 5 ∧ ((s.chip.ring x).cause = 7 ∨ (s.chip.ring x).cause = 2) ∧ (s.chip.slot (s.chip.ring x).slot).st = 2) →
    s.chip.rg64 (ringReg 0x114) < s.chip.beat + 64 →
    Does (.restart x) s (fun c =>
      c = { s.chip with rcuResult := 4 })) ∧
  (∀ (s : State) (x : RingId),
    s.chip.isPowered →
    ¬ ((s.chip.ring x).st = 4 ∨ ((s.chip.ring x).st = 5 ∧ ((s.chip.ring x).cause = 7 ∨ (s.chip.ring x).cause = 2) ∧ (s.chip.slot (s.chip.ring x).slot).st = 2)) →
    Does (.restart x) s (fun c =>
      c = { s.chip with rcuResult := 1 }))

/-- BLOCK_HDR of the step is taken into the buffer that receives, one of a later step waits, and BLOCK_DATA lands its
chunk (R262, R263). QUERY_SEND of the owner takes one from QRDY, lands the query rows in every cluster cache and sends
them chunk by chunk while the window is open, each cache raising QARR; a chunk of QUERY received lands the same way,
the last one raising QARR, and is repaired as any chunk is (R265, R300 to R302). PARTIAL_HANDOFF takes one from PRDY
and starts the merge in the ring's collective context; PARTIAL and RESULT carry it on (R266, R267). A packet for no
ring here is discarded with a CE (R254). -/
def Obligations.RingData : Prop :=
  (∀ (s : State) (x b : Nat) (p : Packet),
    s.chip.isPowered →
    p.kind = 0x14 →
    ringOf s.chip (fld 15 0 p.tag) = some x →
    (s.chip.ring x).st ≠ 6 →
    rDecode (s.chip.ring x).words = false →
    at_ p.body 0 4 = (s.chip.ring x).step →
    rxBuf (s.chip.ring x) = some b →
    ¬ (((s.chip.ring x).bufs.getD b {}).hdr = true ∧ ((s.chip.ring x).bufs.getD b {}).step = at_ p.body 0 4) →
    Does (.blockHdr p) s (fun c =>
      (c.ring x).bufs = setAt (s.chip.ring x).bufs b { step := at_ p.body 0 4, src := at_ p.body 4 1, layer := at_ p.body 5 1 % 128, hdr := true, tokens := (List.range (rBlkPages (s.chip.ring x).words)).map (fun i => at_ p.body (16 + 2 * i) 2) } ∧
      (c.ring x).st = (s.chip.ring x).st ∧ c.mem = s.chip.mem ∧ c.regs = s.chip.regs)) ∧
  (∀ (s : State) (x : Nat) (p : Packet),
    s.chip.isPowered →
    p.kind = 0x14 →
    ringOf s.chip (fld 15 0 p.tag) = some x →
    (s.chip.ring x).st ≠ 6 →
    rDecode (s.chip.ring x).words = false →
    stepLt (s.chip.ring x).step (at_ p.body 0 4) = true →
    Does (.blockHdr p) s (fun c =>
      c = s.chip)) ∧
  (∀ (s : State) (x : Nat) (p : Packet),
    s.chip.isPowered →
    p.kind = 0x14 →
    ringOf s.chip (fld 15 0 p.tag) = some x →
    (s.chip.ring x).st = 6 ∨ rDecode (s.chip.ring x).words = true ∨
      (stepLt (s.chip.ring x).step (at_ p.body 0 4) = false ∧ (at_ p.body 0 4 ≠ (s.chip.ring x).step ∨ rxBuf (s.chip.ring x) = none ∨ ∃ b ∈ rxBuf (s.chip.ring x), ((s.chip.ring x).bufs.getD b {}).hdr = true ∧ ((s.chip.ring x).bufs.getD b {}).step = at_ p.body 0 4)) →
    Does (.blockHdr p) s (fun c =>
      c = (takePkt p s.chip))) ∧
  (∀ (s : State) (p : Packet),
    s.chip.isPowered →
    p.kind = 0x14 →
    ringOf s.chip (fld 15 0 p.tag) = none →
    Does (.blockHdr p) s (fun c =>
      c.hasErr pgRcu 0 11 = true ∧ c.rings = s.chip.rings ∧ c.colls = s.chip.colls ∧ c.mem = s.chip.mem)) ∧
  (∀ (s : State) (x b : Nat) (p : Packet),
    s.chip.isPowered →
    p.kind = 0x15 →
    ringOf s.chip (fld 15 0 p.tag) = some x →
    (s.chip.ring x).st ≠ 6 →
    (s.chip.delivered.takeWhile (fun q => q != p)).any (fun q => q.kind == 0x14 && fld 15 0 q.tag == fld 15 0 p.tag) = false →
    rxBuf (s.chip.ring x) = some b →
    ((s.chip.ring x).bufs.getD b {}).hdr = true →
    ((s.chip.ring x).bufs.getD b {}).step = (s.chip.ring x).step →
    fld 31 16 p.tag < bufChunks (s.chip.slot (s.chip.ring x).slot) ((s.chip.ring x).bufs.getD b {}) →
    Does (.blockData p) s (fun c =>
      c = (rotStore (s.chip.ring x) (s.chip.slot (s.chip.ring x).slot).words b 1100 (65536 * fld 31 16 p.tag) p.body (takePkt p s.chip)).setRing x { s.chip.ring x with bufs := setAt (s.chip.ring x).bufs b { (s.chip.ring x).bufs.getD b {} with chunks := if ((s.chip.ring x).bufs.getD b {}).chunks.contains (fld 31 16 p.tag) = true then ((s.chip.ring x).bufs.getD b {}).chunks else insertAsc (fld 31 16 p.tag) ((s.chip.ring x).bufs.getD b {}).chunks } })) ∧
  (∀ (s : State) (x b : Nat) (p : Packet),
    s.chip.isPowered →
    p.kind = 0x15 →
    ringOf s.chip (fld 15 0 p.tag) = some x →
    (s.chip.ring x).st ≠ 6 →
    (s.chip.delivered.takeWhile (fun q => q != p)).any (fun q => q.kind == 0x14 && fld 15 0 q.tag == fld 15 0 p.tag) = false →
    rxBuf (s.chip.ring x) = some b →
    ((s.chip.ring x).bufs.getD b {}).hdr = true →
    ((s.chip.ring x).bufs.getD b {}).step = (s.chip.ring x).step →
    fld 31 16 p.tag < bufChunks (s.chip.slot (s.chip.ring x).slot) ((s.chip.ring x).bufs.getD b {}) →
    b < (s.chip.ring x).bufs.length →
    Does (.blockData p) s (fun c =>
      fld 31 16 p.tag ∈ ((c.ring x).bufs.getD b {}).chunks ∧ (c.ring x).st = (s.chip.ring x).st ∧ c.regs = s.chip.regs ∧ c.links = s.chip.links)) ∧
  (∀ (s : State) (x : Nat) (p : Packet),
    s.chip.isPowered →
    p.kind = 0x15 →
    ringOf s.chip (fld 15 0 p.tag) = some x →
    (s.chip.delivered.takeWhile (fun q => q != p)).any (fun q => q.kind == 0x14 && fld 15 0 q.tag == fld 15 0 p.tag) = true →
    Does (.blockData p) s (fun c =>
      c = s.chip)) ∧
  (∀ (s : State) (x : Nat) (p : Packet),
    s.chip.isPowered →
    p.kind = 0x15 →
    ringOf s.chip (fld 15 0 p.tag) = some x →
    (s.chip.delivered.takeWhile (fun q => q != p)).any (fun q => q.kind == 0x14 && fld 15 0 q.tag == fld 15 0 p.tag) = false →
    (s.chip.ring x).st = 6 ∨ ∀ b ∈ rxBuf (s.chip.ring x), ((s.chip.ring x).bufs.getD b {}).hdr = false ∨ ((s.chip.ring x).bufs.getD b {}).step ≠ (s.chip.ring x).step ∨ bufChunks (s.chip.slot (s.chip.ring x).slot) ((s.chip.ring x).bufs.getD b {}) ≤ fld 31 16 p.tag →
    Does (.blockData p) s (fun c =>
      c = takePkt p s.chip)) ∧
  (∀ (s : State) (p : Packet),
    s.chip.isPowered →
    p.kind = 0x15 →
    ringOf s.chip (fld 15 0 p.tag) = none →
    Does (.blockData p) s (fun c =>
      c.hasErr pgRcu 0 11 = true ∧ c.rings = s.chip.rings ∧ c.colls = s.chip.colls ∧ c.mem = s.chip.mem)) ∧
  (∀ (s : State) (x : RingId) (l : List Byte),
    s.chip.isPowered →
    (s.chip.ring x).st = 3 →
    rDecode (s.chip.ring x).words = true →
    (s.chip.ring x).owner = (s.chip.ring x).member →
    (s.chip.ring x).qtx = [] →
    1 ≤ s.chip.rg (flagReg 0 (rQrdy (s.chip.ring x).words)) →
    s.chip.tasRead (cacheBase 0 + rQsrc (s.chip.ring x).words) (rQbytes (s.chip.ring x).words) = .ok l →
    Does (.querySend x) s (fun c =>
      c = queryTurn x 5000 (queryHere x ((List.range (qTotal s.chip (s.chip.ring x))).foldl (fun k i => queryStore s.chip (s.chip.ring x) i ((l.drop (i * qChunk s.chip (s.chip.ring x))).take (qChunk s.chip (s.chip.ring x))) k)
      ((s.chip.setRg (flagReg 0 (rQrdy (s.chip.ring x).words)) (s.chip.rg (flagReg 0 (rQrdy (s.chip.ring x).words)) - 1)).setRing x { s.chip.ring x with qtx := { dst := 256, total := qTotal s.chip (s.chip.ring x) } :: ((List.range (rL (s.chip.ring x).words)).filter (· != (s.chip.ring x).member)).map (fun m => { dst := m, total := qTotal s.chip (s.chip.ring x), det := (s.chip.ring x).qOut.contains m }) }))))) ∧
  (∀ (s : State) (x : RingId) (l : List Byte) (w : List Nat),
    s.chip.isPowered →
    (s.chip.ring x).st = 3 →
    rDecode (s.chip.ring x).words = true →
    (s.chip.ring x).owner = (s.chip.ring x).member →
    (s.chip.ring x).qtx = [] →
    1 ≤ s.chip.rg (flagReg 0 (rQrdy (s.chip.ring x).words)) →
    s.chip.tasRead (cacheBase 0 + rQsrc (s.chip.ring x).words) (rQbytes (s.chip.ring x).words) = .ok l →
    rQdst (s.chip.ring x).words + l.length ≤ 0x800000 →
    rQrdy (s.chip.ring x).words ≠ rQarr (s.chip.ring x).words →
    ∀ cl < 24, s.chip.rg (flagReg cl (rQarr (s.chip.ring x).words)) < 0xFFFF →
    w = (s.chip.coll (rColl (s.chip.ring x).words)).words →
    (s.chip.coll (rColl (s.chip.ring x).words)).st = 0 ∨ kWinOfs w + max 1 (kWin w) * kChunk w ≤ rQdst (s.chip.ring x).words ∨ rQdst (s.chip.ring x).words + l.length ≤ kWinOfs w →
    Does (.querySend x) s (fun c =>
      c.rg (flagReg 0 (rQrdy (s.chip.ring x).words)) = s.chip.rg (flagReg 0 (rQrdy (s.chip.ring x).words)) - 1 ∧ (∀ cl < 24, c.rg (flagReg cl (rQarr (s.chip.ring x).words)) = s.chip.rg (flagReg cl (rQarr (s.chip.ring x).words)) + 1) ∧
      (∀ cl < 24, ∀ i < l.length, c.byteAt (cacheBase cl + rQdst (s.chip.ring x).words + i) = l.getD i 0#8) ∧ (c.ring x).st = 3)) ∧
  (∀ (s : State) (x : RingId),
    s.chip.isPowered →
    (s.chip.ring x).st = 3 →
    rDecode (s.chip.ring x).words = true →
    (s.chip.ring x).owner = (s.chip.ring x).member →
    (s.chip.ring x).qtx ≠ [] →
    Does (.querySend x) s (fun c =>
      c = queryTurn x 5000 s.chip)) ∧
  (∀ (s : State) (x : RingId),
    s.chip.isPowered →
    (s.chip.ring x).st ≠ 3 ∨ rDecode (s.chip.ring x).words = false ∨ (s.chip.ring x).owner ≠ (s.chip.ring x).member ∨ ((s.chip.ring x).qtx = [] ∧ s.chip.rg (flagReg 0 (rQrdy (s.chip.ring x).words)) = 0) →
    Does (.querySend x) s (fun c =>
      c = s.chip)) ∧
  (∀ (s : State) (x : Nat) (p : Packet),
    s.chip.isPowered →
    p.kind = 0x16 →
    ringOf s.chip (fld 15 0 p.tag) = some x →
    (s.chip.ring x).st = 3 →
    fld 31 16 p.tag = (s.chip.ring x).step % 65536 →
    16 ≤ p.body.length →
    (s.chip.ring x).qDet = false →
    hAttempt p = (s.chip.ring x).qAtt →
    Does (.query p) s (fun c =>
      c = queryPart x p (takePkt p s.chip))) ∧
  (∀ (s : State) (x : Nat) (p : Packet) (l : List Byte),
    s.chip.isPowered →
    p.kind = 0x16 →
    ringOf s.chip (fld 15 0 p.tag) = some x →
    (s.chip.ring x).st = 3 →
    fld 31 16 p.tag = (s.chip.ring x).step % 65536 →
    16 ≤ p.body.length →
    (s.chip.ring x).qDet = false →
    hAttempt p = (s.chip.ring x).qAtt →
    (s.chip.ring x).qDone = false →
    hChunk p ∉ (s.chip.ring x).qrx.landed →
    (assemble (s.chip.ring x).qrx p).2 = some l →
    crc32 l = hCk p →
    rQdst (s.chip.ring x).words + hChunk p * qChunk s.chip (s.chip.ring x) + l.length ≤ 0x800000 →
    Does (.query p) s (fun c =>
      hChunk p ∈ (c.ring x).qrx.landed ∧ (∀ cl < 24, ∀ i < l.length, c.byteAt (cacheBase cl + rQdst (s.chip.ring x).words + hChunk p * qChunk s.chip (s.chip.ring x) + i) = l.getD i 0#8) ∧ (c.ring x).st = 3 ∧
      (qTotal s.chip (s.chip.ring x) ≤ firstGap 0 (c.ring x).qrx.landed → (c.ring x).qDone = true ∧ ∀ cl < 24, s.chip.rg (flagReg cl (rQarr (s.chip.ring x).words)) < 0xFFFF → c.rg (flagReg cl (rQarr (s.chip.ring x).words)) = s.chip.rg (flagReg cl (rQarr (s.chip.ring x).words)) + 1))) ∧
  (∀ (s : State) (x : Nat) (p : Packet),
    s.chip.isPowered →
    p.kind = 0x16 →
    ringOf s.chip (fld 15 0 p.tag) = some x →
    (s.chip.ring x).st = 3 →
    fld 31 16 p.tag = (s.chip.ring x).step % 65536 →
    16 ≤ p.body.length →
    (s.chip.ring x).qDet = false →
    (s.chip.ring x).qAtt < hAttempt p →
    Does (.query p) s (fun c =>
      c = queryPart x p ((takePkt p s.chip).setRing x { s.chip.ring x with qrx := {}, qDone := false, qAtt := hAttempt p }))) ∧
  (∀ (s : State) (x : Nat) (p : Packet),
    s.chip.isPowered →
    p.kind = 0x16 →
    ringOf s.chip (fld 15 0 p.tag) = some x →
    (s.chip.ring x).st = 3 →
    fld 31 16 p.tag = (s.chip.ring x).step % 65536 →
    p.body.length < 16 ∨ (s.chip.ring x).qDet = true ∨ hAttempt p < (s.chip.ring x).qAtt →
    Does (.query p) s (fun c =>
      c = (takePkt p s.chip))) ∧
  (∀ (s : State) (x : Nat) (p : Packet),
    s.chip.isPowered →
    p.kind = 0x16 →
    ringOf s.chip (fld 15 0 p.tag) = some x →
    (s.chip.ring x).st ≠ 6 →
    fld 31 16 p.tag = ((s.chip.ring x).step + 1) % 65536 →
    Does (.query p) s (fun c =>
      c = s.chip)) ∧
  (∀ (s : State) (p : Packet),
    s.chip.isPowered →
    p.kind = 0x16 →
    ringOf s.chip (fld 15 0 p.tag) = none →
    Does (.query p) s (fun c =>
      c.hasErr pgRcu 0 11 = true ∧ c.rings = s.chip.rings ∧ c.colls = s.chip.colls ∧ c.mem = s.chip.mem)) ∧
  (∀ (s : State) (x : RingId) (k : Chip),
    s.chip.isPowered →
    (s.chip.ring x).st = 3 →
    rDecode (s.chip.ring x).words = true →
    1 ≤ s.chip.rg (flagReg 0 (rPrdy (s.chip.ring x).words)) →
    mergeArmed (s.chip.ring x) (s.chip.coll (rColl (s.chip.ring x).words)) (dDim (s.chip.slot (s.chip.ring x).slot).words) = true →
    k = beginRun (rColl (s.chip.ring x).words) (some x.val) ((s.chip.setRg (flagReg 0 (rPrdy (s.chip.ring x).words)) (s.chip.rg (flagReg 0 (rPrdy (s.chip.ring x).words)) - 1)).setRing x { s.chip.ring x with qBad := none }) →
    Does (.partialHandoff x) s (fun c =>
      ((s.chip.ring x).qBad = none → c = k) ∧ ∀ q ∈ (s.chip.ring x).qBad, c = foundCause (rColl (s.chip.ring x).words) q k)) ∧
  (∀ (s : State) (x : RingId),
    s.chip.isPowered →
    (s.chip.ring x).st = 3 →
    rDecode (s.chip.ring x).words = true →
    (s.chip.ring x).member ≠ 0 →
    (s.chip.ring x).qBad = none →
    1 ≤ s.chip.rg (flagReg 0 (rPrdy (s.chip.ring x).words)) →
    mergeArmed (s.chip.ring x) (s.chip.coll (rColl (s.chip.ring x).words)) (dDim (s.chip.slot (s.chip.ring x).slot).words) = true →
    Does (.partialHandoff x) s (fun c =>
      (c.coll (rColl (s.chip.ring x).words)).ring = some x.val ∧ (c.coll (rColl (s.chip.ring x).words)).st = 2 ∧ (c.coll (rColl (s.chip.ring x).words)).rank = (s.chip.ring x).member ∧ (c.coll (rColl (s.chip.ring x).words)).start = s.chip.beat ∧
      ((s.chip.coll (rColl (s.chip.ring x).words)).st = 1 → (c.coll (rColl (s.chip.ring x).words)).run = ((s.chip.coll (rColl (s.chip.ring x).words)).run + 1) % 2 ^ 32) ∧
      c.rg (flagReg 0 (rPrdy (s.chip.ring x).words)) = s.chip.rg (flagReg 0 (rPrdy (s.chip.ring x).words)) - 1)) ∧
  (∀ (s : State) (x : RingId) (k : Chip),
    s.chip.isPowered →
    (s.chip.ring x).st = 3 →
    rDecode (s.chip.ring x).words = true →
    1 ≤ s.chip.rg (flagReg 0 (rPrdy (s.chip.ring x).words)) →
    (s.chip.coll (rColl (s.chip.ring x).words)).st ≠ 2 →
    (s.chip.coll (rColl (s.chip.ring x).words)).st ≠ 3 →
    mergeArmed (s.chip.ring x) (s.chip.coll (rColl (s.chip.ring x).words)) (dDim (s.chip.slot (s.chip.ring x).slot).words) = false →
    k = s.chip.setRg (flagReg 0 (rPrdy (s.chip.ring x).words)) (s.chip.rg (flagReg 0 (rPrdy (s.chip.ring x).words)) - 1) →
    Does (.partialHandoff x) s (fun c =>
      c = if (s.chip.coll (rColl (s.chip.ring x).words)).st = 1 ∨ (s.chip.coll (rColl (s.chip.ring x).words)).st = 4 then foundCause (rColl (s.chip.ring x).words) 10 (beginRun (rColl (s.chip.ring x).words) (some x.val) k) else ucOp pgLrt 14 (rColl (s.chip.ring x).words + 2 ^ 31) 10 0 (irq pgLrt 5 k))) ∧
  (∀ (s : State) (x : RingId),
    s.chip.isPowered →
    (s.chip.ring x).st ≠ 3 ∨ rDecode (s.chip.ring x).words = false ∨ s.chip.rg (flagReg 0 (rPrdy (s.chip.ring x).words)) = 0 ∨ (s.chip.coll (rColl (s.chip.ring x).words)).st = 2 ∨ (s.chip.coll (rColl (s.chip.ring x).words)).st = 3 →
    Does (.partialHandoff x) s (fun c =>
      c = s.chip)) ∧
  (∀ (s : State) (x : Nat) (p : Packet),
    s.chip.isPowered →
    ringOf s.chip (fld 15 0 p.tag) = some x →
    s.chip.nowPkt 0x17 p →
    ∀ q ∈ (s.chip.coll (hId p)).pieces, q.idx ≠ hChunk p →
    getRx (s.chip.coll (hId p)) (1000 + hRank s.chip (s.chip.coll (hId p)) p) = none →
    hPart p = 0 →
    hLast p = true →
    crc32 (p.body.drop 16) = hCk p →
    Does (.partialMsg p) s (fun c =>
      (c.coll (hId p)).kids = (s.chip.coll (hId p)).kids ++ [(hRank s.chip (s.chip.coll (hId p)) p, hChunk p, hClean p, p.body.drop 16)] ∧ c.mem = s.chip.mem ∧ c.regs = s.chip.regs)) ∧
  (∀ (s : State) (x : Nat) (p : Packet) (n : Nat) (r : RxStream) (y : Coll) (l : List Byte),
    s.chip.isPowered →
    ringOf s.chip (fld 15 0 p.tag) = some x →
    s.chip.nowPkt 0x17 p →
    rpartWaits s.chip p = false →
    n = (hRank s.chip (s.chip.coll (hId p)) p) →
    r = (getRx (s.chip.coll (hId p)) (1000 + n)).getD { src := 1000 + n } →
    y = { (s.chip.coll (hId p)) with rx := (s.chip.coll (hId p)).rx.filter (fun q => q.src != 1000 + n) ++ [(assemble r p).1] } →
    (assemble r p).2 = some l →
    crc32 l = hCk p →
    Does (.partialMsg p) s (fun c =>
      c = advancePiece (hId p) (hChunk p) 16 ((takePkt p s.chip).setColl (hId p) { y with kids := y.kids ++ [(n, hChunk p, hClean p, l)] }))) ∧
  (∀ (s : State) (x : Nat) (p : Packet) (n : Nat) (r : RxStream) (y : Coll),
    s.chip.isPowered →
    ringOf s.chip (fld 15 0 p.tag) = some x →
    s.chip.nowPkt 0x17 p →
    rpartWaits s.chip p = false →
    n = (hRank s.chip (s.chip.coll (hId p)) p) →
    r = (getRx (s.chip.coll (hId p)) (1000 + n)).getD { src := 1000 + n } →
    y = { (s.chip.coll (hId p)) with rx := (s.chip.coll (hId p)).rx.filter (fun q => q.src != 1000 + n) ++ [(assemble r p).1] } →
    (assemble r p).2 = none →
    Does (.partialMsg p) s (fun c =>
      c = (takePkt p s.chip).setColl (hId p) y)) ∧
  (∀ (s : State) (x : Nat) (p : Packet) (n : Nat) (r : RxStream) (y : Coll) (l : List Byte),
    s.chip.isPowered →
    ringOf s.chip (fld 15 0 p.tag) = some x →
    s.chip.nowPkt 0x17 p →
    rpartWaits s.chip p = false →
    n = (hRank s.chip (s.chip.coll (hId p)) p) →
    r = (getRx (s.chip.coll (hId p)) (1000 + n)).getD { src := 1000 + n } →
    y = { (s.chip.coll (hId p)) with rx := (s.chip.coll (hId p)).rx.filter (fun q => q.src != 1000 + n) ++ [(assemble r p).1] } →
    (assemble r p).2 = some l →
    crc32 l ≠ hCk p →
    n * 2 ^ 16 + hChunk p ∉ r.bad →
    Does (.partialMsg p) s (fun c =>
      (c.coll (hId p)).kids = (s.chip.coll (hId p)).kids ∧ (c.coll (hId p)).pieces = (s.chip.coll (hId p)).pieces ∧ c.hasErr pgLrt 0 8 = true ∧ c.mem = s.chip.mem)) ∧
  (∀ (s : State) (p : Packet),
    s.chip.isPowered →
    p.kind = 0x17 →
    ringOf s.chip (fld 15 0 p.tag) = none →
    Does (.partialMsg p) s (fun c =>
      c.hasErr pgRcu 0 11 = true ∧ c.rings = s.chip.rings ∧ c.colls = s.chip.colls ∧ c.mem = s.chip.mem)) ∧
  (∀ (s : State) (x : Nat) (p : Packet) (r : RxStream) (l : List Byte),
    s.chip.isPowered →
    ringOf s.chip (fld 15 0 p.tag) = some x →
    s.chip.nowPkt 0x18 p →
    (s.chip.coll (hId p)).detached = false →
    getRx (s.chip.coll (hId p)) (hRank s.chip (s.chip.coll (hId p)) p) = some r →
    hChunk p ∉ r.landed →
    (assemble r p).2 = some l →
    crc32 l = hCk p →
    Does (.result p) s (fun c =>
      c = landChunk (hId p) (hRank s.chip (s.chip.coll (hId p)) p) (hChunk p) l (setRx (hId p) (assemble r p).1 (takePkt p s.chip)))) ∧
  (∀ (s : State) (x : Nat) (p : Packet) (r : RxStream),
    s.chip.isPowered →
    ringOf s.chip (fld 15 0 p.tag) = some x →
    s.chip.nowPkt 0x18 p →
    (s.chip.coll (hId p)).detached = false →
    getRx (s.chip.coll (hId p)) (hRank s.chip (s.chip.coll (hId p)) p) = some r →
    hChunk p ∉ r.landed →
    (assemble r p).2 = none →
    Does (.result p) s (fun c =>
      c = setRx (hId p) (assemble r p).1 (takePkt p s.chip))) ∧
  (∀ (s : State) (x : Nat) (p : Packet),
    s.chip.isPowered →
    ringOf s.chip (fld 15 0 p.tag) = some x →
    s.chip.nowPkt 0x18 p →
    (s.chip.coll (hId p)).detached = true →
    Does (.result p) s (fun c =>
      c = (takePkt p s.chip))) ∧
  (∀ (s : State) (x k : Nat) (p : Packet) (r : RxStream),
    s.chip.isPowered →
    ringOf s.chip (fld 15 0 p.tag) = some x →
    s.chip.nowPkt 0x18 p →
    k = hChunk p →
    (s.chip.coll (hId p)).detached = false →
    (s.chip.coll (hId p)).rank ≠ 0 →
    kRouter (s.chip.coll (hId p)).words = true →
    (s.chip.coll (hId p)).rx = [r] →
    r.src = hRank s.chip (s.chip.coll (hId p)) p →
    k ∉ r.landed →
    hPart p = 0 →
    hLast p = true →
    r.asm = [] →
    crc32 (p.body.drop 16) = hCk p →
    Does (.result p) s (fun c =>
      ∃ y : RxStream, (c.coll (hId p)).rx = [y] ∧ k ∈ y.landed ∧ k ∈ y.freed)) ∧
  (∀ (s : State) (p : Packet),
    s.chip.isPowered →
    p.kind = 0x18 →
    ringOf s.chip (fld 15 0 p.tag) = none →
    Does (.result p) s (fun c =>
      c.hasErr pgRcu 0 11 = true ∧ c.rings = s.chip.rings ∧ c.colls = s.chip.colls ∧ c.mem = s.chip.mem))


/-! ## Memory tiers -/

/-- A read answers the bytes that stand there; a write to T0 direct, a scratchpad or a cluster cache stores its bytes,
but where a byte of its range is protected nothing of that part is stored and a UC scoped to the operation is logged
(R312, R316). A write to a VALID granule in T0 goes to the frame its entry names, one to a sealed granule or to a
lower tier is dropped with a UC, the first one to a granule without a frame takes a zeroed frame; a read of a granule
that is not VALID and an extent that does not exist answer an access error, logged (R312 to R314). A read that meets
poison answers poison and logs a DE (R338); one that meets a poisoned granule waits for its refetch (R339). A request
for a line in a refresh window or a channel in retraining waits at its GMC (R311, R332). GMC_SCRUB leaves a clean line
alone, counts a corrected one with a CE and marks an uncorrectable one, counted, with a DE (R310). REFRESH_WINDOW
takes the window at the GMC's beats and at no other (R311). -/
def Obligations.TierAccess : Prop :=
  (∀ (s : State) (a n due cls : Nat) (d : List Byte) (l : List Byte),
    s.chip.isReady →
    s.chip.serves (.access false a n d) →
    n ≠ 0 →
    s.chip.extentOk a n = true →
    s.chip.tasRead a n = .ok l →
    Does (.memoryAccess { write := false, due := due, cls := cls } a n d) s (fun c =>
      c = ({ noteRead a n (s.chip.withDue due) with answer := { data := l } } : Chip).withDue 0xFFFFFFFF ∧ c.answer.data = l)) ∧
  (∀ (s : State) (a n due cls : Nat) (d : List Byte),
    s.chip.isReady →
    s.chip.serves (.access false a n d) →
    n ≠ 0 →
    a + n ≤ t0Size →
    s.chip.poisonIn a n = none →
    Does (.memoryAccess { write := false, due := due, cls := cls } a n d) s (fun c =>
      c.answer = { data := s.chip.bytes a n } ∧ c.mem = s.chip.mem ∧ c.regs = s.chip.regs)) ∧
  (∀ (s : State) (a n due cls : Nat) (d : List Byte),
    s.chip.isReady →
    s.chip.serves (.access false a n d) →
    n ≠ 0 →
    s.chip.extentOk a n = false ∨ s.chip.tasRead a n = .access →
    Does (.memoryAccess { write := false, due := due, cls := cls } a n d) s (fun c =>
      c.answer = { error := true } ∧ c.mem = s.chip.mem ∧ c.hasErr pgMtm 2 9 = true)) ∧
  (∀ (s : State) (a n due cls : Nat) (d : List Byte) (g : Nat),
    s.chip.isReady →
    s.chip.serves (.access false a n d) →
    0x400000000000 ≤ a →
    a < 0x800000000000 →
    n ≠ 0 →
    s.chip.extentOk a n = true →
    g = (a - 0x400000000000) / payloadSize →
    gValid (s.chip.mapW g 0) = false →
    Does (.memoryAccess { write := false, due := due, cls := cls } a n d) s (fun c =>
      c.answer = { error := true } ∧ c.mem = s.chip.mem ∧ c.hasErr pgMtm 2 9 = true)) ∧
  (∀ (s : State) (a n due cls : Nat) (d : List Byte),
    s.chip.isReady →
    s.chip.serves (.access false a n d) →
    n ≠ 0 →
    a + n ≤ t0Size →
    (s.chip.poisonIn a n).isSome = true →
    Does (.memoryAccess { write := false, due := due, cls := cls } a n d) s (fun c =>
      c.answer = { poison := true, data := List.replicate n 0#8 } ∧ c.mem = s.chip.mem ∧ c.hasErr pgMtm 1 10 = true)) ∧
  (∀ (s : State) (a n due cls : Nat) (d : List Byte) (x : Nat) (k : Chip),
    s.chip.isReady →
    s.chip.serves (.access false a n d) →
    n ≠ 0 →
    s.chip.extentOk a n = true →
    s.chip.tasRead a n = .poison x →
    k = readBad x (s.chip.withDue due) →
    Does (.memoryAccess { write := false, due := due, cls := cls } a n d) s (fun c =>
      (∀ l, k.tasRead a n = .ok l → c = ({ noteRead a n k with answer := { data := l } } : Chip).withDue 0xFFFFFFFF) ∧ (∀ g, k.tasRead a n = .wait g → c = (holdRead g k).withDue 0xFFFFFFFF) ∧
      ((k.tasRead a n = .access ∨ ∃ y, k.tasRead a n = .poison y) → c.answer = { poison := true, data := List.replicate n 0#8 }))) ∧
  (∀ (s : State) (a n due cls : Nat) (d : List Byte) (g : Nat),
    s.chip.isReady →
    s.chip.serves (.access false a n d) →
    n ≠ 0 →
    s.chip.extentOk a n = true →
    s.chip.tasRead a n = .wait g →
    Does (.memoryAccess { write := false, due := due, cls := cls } a n d) s (fun c =>
      c = (holdRead g (s.chip.withDue due)).withDue 0xFFFFFFFF ∧ c.answer = s.chip.answer ∧ (∀ r ∈ s.chip.refetchOf g, ∃ q ∈ c.refetchOf g, q.waiting = r.waiting + 1 ∧ q.frame = r.frame))) ∧
  (∀ (s : State) (a n due cls : Nat) (d : List Byte),
    s.chip.isReady →
    s.chip.serves (.access true a n d) →
    d ≠ [] →
    a < 0x400000000000 ∨ 0x800000000000 ≤ a →
    s.chip.extentOk a d.length = true →
    ∀ i < d.length, s.chip.guarded (a + i) = false →
    Does (.memoryAccess { write := true, due := due, cls := cls } a n d) s (fun c =>
      c.answer = {} ∧ (∀ i < d.length, c.byteAt (a + i) = d.getD i 0#8) ∧ (∀ b, b < a ∨ a + d.length ≤ b → c.byteAt b = s.chip.byteAt b) ∧ c.regs = s.chip.regs)) ∧
  (∀ (s : State) (a n due cls : Nat) (d : List Byte),
    s.chip.isReady →
    s.chip.serves (.access true a n d) →
    d ≠ [] →
    a < 0x400000000000 ∨ 0x800000000000 ≤ a →
    s.chip.extentOk a d.length = true →
    a % payloadSize + d.length ≤ payloadSize →
    ∃ i < d.length, s.chip.guarded (a + i) = true →
    Does (.memoryAccess { write := true, due := due, cls := cls } a n d) s (fun c =>
      c.mem = s.chip.mem ∧ c.hasErr pgMtm 2 8 = true ∧ c.answer.error = false)) ∧
  (∀ (s : State) (a n due cls : Nat) (d : List Byte),
    s.chip.isReady →
    s.chip.serves (.access true a n d) →
    d ≠ [] →
    s.chip.extentOk a d.length = false →
    Does (.memoryAccess { write := true, due := due, cls := cls } a n d) s (fun c =>
      c.answer = { error := true } ∧ c.mem = s.chip.mem ∧ c.hasErr pgMtm 2 9 = true)) ∧
  (∀ (s : State) (a n due cls : Nat) (d : List Byte),
    s.chip.isReady →
    s.chip.serves (.access true a n d) →
    d ≠ [] →
    Does (.memoryAccess { write := true, due := due, cls := cls } a n d) s (fun c =>
      c = ({ (tasWrite a d (s.chip.withDue due)).1 with answer := { error := (tasWrite a d (s.chip.withDue due)).2 == 1 } } : Chip).withDue 0xFFFFFFFF)) ∧
  (∀ (s : State) (a n due cls : Nat) (d : List Byte) (g : Nat),
    s.chip.isReady →
    s.chip.serves (.access true a n d) →
    0x400000000000 ≤ a →
    a < 0x800000000000 →
    d ≠ [] →
    a % payloadSize + d.length ≤ payloadSize →
    g = (a - 0x400000000000) / payloadSize →
    g < s.chip.granules →
    s.chip.extentOk a d.length = true →
    gReserved (s.chip.mapW g 0) = false →
    gValid (s.chip.mapW g 0) = true →
    gRo (s.chip.mapW g 0) = true ∨ gTier (s.chip.mapW g 0) ≠ 0 →
    Does (.memoryAccess { write := true, due := due, cls := cls } a n d) s (fun c =>
      c.mem = s.chip.mem ∧ c.hasErr pgMtm 2 8 = true ∧ c.answer.error = false)) ∧
  (∀ (s : State) (a n due cls : Nat) (d : List Byte) (g : Nat),
    s.chip.isReady →
    s.chip.serves (.access true a n d) →
    0x400000000000 ≤ a →
    a < 0x800000000000 →
    d ≠ [] →
    a % payloadSize + d.length ≤ payloadSize →
    g = (a - 0x400000000000) / payloadSize →
    g < s.chip.granules →
    s.chip.extentOk a d.length = true →
    gReserved (s.chip.mapW g 0) = false →
    gValid (s.chip.mapW g 0) = true →
    gRo (s.chip.mapW g 0) = false →
    gTier (s.chip.mapW g 0) = 0 →
    Does (.memoryAccess { write := true, due := due, cls := cls } a n d) s (fun c =>
      c = ({ (s.chip.withDue due).store (s.chip.frameAddr (gFrame (s.chip.mapW g 0)) + a % payloadSize) d with answer := {} } : Chip).withDue 0xFFFFFFFF)) ∧
  (∀ (s : State) (a n due cls : Nat) (d : List Byte) (g : Nat) (k : Chip),
    s.chip.isReady →
    s.chip.serves (.access true a n d) →
    0x400000000000 ≤ a →
    a < 0x800000000000 →
    d ≠ [] →
    a % payloadSize + d.length ≤ payloadSize →
    g = (a - 0x400000000000) / payloadSize →
    g < s.chip.granules →
    s.chip.extentOk a d.length = true →
    gReserved (s.chip.mapW g 0) = false →
    gValid (s.chip.mapW g 0) = false →
    granuleFirst g (s.chip.withDue due) = some k →
    Does (.memoryAccess { write := true, due := due, cls := cls } a n d) s (fun c =>
      c = ({ k.store (k.frameAddr (gFrame (k.mapW g 0)) + a % payloadSize) d with answer := {} } : Chip).withDue 0xFFFFFFFF)) ∧
  (∀ (s : State) (a n due cls : Nat) (d : List Byte) (g : Nat),
    s.chip.isReady →
    s.chip.serves (.access true a n d) →
    0x400000000000 ≤ a →
    a < 0x800000000000 →
    d ≠ [] →
    a % payloadSize + d.length ≤ payloadSize →
    g = (a - 0x400000000000) / payloadSize →
    g < s.chip.granules →
    s.chip.extentOk a d.length = true →
    gReserved (s.chip.mapW g 0) = true ∨ (gValid (s.chip.mapW g 0) = false ∧ granuleFirst g (s.chip.withDue due) = none) →
    Does (.memoryAccess { write := true, due := due, cls := cls } a n d) s (fun c =>
      c.answer = { error := true } ∧ c.mem = s.chip.mem ∧ c.hasErr pgMtm 2 9 = true)) ∧
  (∀ (s : State) (a n due cls : Nat) (d : List Byte) (w : Bool) (i : Nat),
    s.chip.isReady →
    s.chip.heldAt (s.chip.reqRanges (.access w a n d)) = some i →
    Does (.memoryAccess { write := w, due := due, cls := cls } a n d) s (fun c =>
      c = s.chip.setGmc i { s.chip.gmc i with waiting := (s.chip.gmc i).waiting ++ [{ what := .access w a n d, due := due, cls := cls }] })) ∧
  (∀ (s : State) (n : GmcId) (i : Nat),
    s.chip.isReady →
    t0Size ≤ i ∨ i / 128 * 128 + 12288 < t0Size →
    Does (.gmcScrub n i .clean) s (fun c =>
      c = s.chip)) ∧
  (∀ (s : State) (n : GmcId) (i : Nat),
    s.chip.isReady →
    i < t0Size →
    t0Size ≤ i / 128 * 128 + 12288 →
    Does (.gmcScrub n i .clean) s (fun c =>
      c = s.chip.setGmc n { s.chip.gmc n with scrubAt := s.chip.beat })) ∧
  (∀ (s : State) (n : GmcId) (i : Nat),
    s.chip.isReady →
    i < t0Size →
    Does (.gmcScrub n i .corrected) s (fun c =>
      c.hasErr (pgGmc n) 0 8 = true ∧ c.rg (ra (pgGmc n) 0x104) = sat32 (s.chip.rg (ra (pgGmc n) 0x104)) 1 ∧ c.mem = s.chip.mem ∧ c.poison = s.chip.poison)) ∧
  (∀ (s : State) (n : GmcId) (i : Nat),
    s.chip.isReady →
    i < t0Size →
    Does (.gmcScrub n i .uncorrectable) s (fun c =>
      c.hasErr (pgGmc n) 1 9 = true ∧ c.hasErr pgMtm 1 10 = true ∧ c.rg (ra (pgGmc n) 0x108) = sat32 (s.chip.rg (ra (pgGmc n) 0x108)) 1 ∧ c.rg (ra (pgGmc n) 0x10C) = (i / 128 * 128) % 2 ^ 32)) ∧
  (∀ (s : State) (n : GmcId) (i : Nat),
    s.chip.isReady →
    i < t0Size →
    s.chip.poolFrame (i / 128 * 128) = none →
    Does (.gmcScrub n i .uncorrectable) s (fun c =>
      c.hasErr (pgGmc n) 1 9 = true ∧ c.hasErr pgMtm 1 10 = true ∧ c.rg (ra (pgGmc n) 0x108) = sat32 (s.chip.rg (ra (pgGmc n) 0x108)) 1 ∧
      c.poison = (s.chip.mark (i / 128 * 128) 128).poison ∧ c.mem = s.chip.mem)) ∧
  (∀ (s : State) (n : GmcId),
    s.chip.isReady →
    s.chip.pwr.st ≠ 3 →
    refreshDue n s.chip = true →
    Does (.refreshWindow n) s (fun c =>
      c = s.chip.setGmc n { s.chip.gmc n with refresh := some s.chip.beat })) ∧
  (∀ (s : State) (n : GmcId),
    s.chip.isReady →
    refreshDue n s.chip = false ∨ s.chip.pwr.st = 3 →
    Does (.refreshWindow n) s (fun c =>
      c = s.chip))

/-- REGION_CMD SEAL ends with code 1 where a granule is not VALID in T0; otherwise it sets RO in every granule's entry
and writes each record with its CRC-32, and SEALED (R314). HOME and COPY2 are refused while one runs, end at once when
no granule needs a copy, and else start copies (R314). FRAME_COPY_COMPLETE writes the whole destination when the copy
matches (R318). EVICTION does nothing when no frame is needed, starts the victim's copy, or counts a failure with a CE
(R321, R322). PROMOTION copies a lower-tier page to T0 where promotion is on and the pool allows it (R323). -/
def Obligations.TierRegions : Prop :=
  (∀ (s : State) (r : Nat),
    s.chip.isReady →
    31 ≤ r →
    Does (.regionSeal r) s (fun c =>
      s.chip.logs c pgMtm 0 31)) ∧
  (∀ (s : State) (r : Nat),
    s.chip.isReady →
    r < 31 →
    rgReserved (s.chip.regEntry r) = true ∨ ∃ g ∈ s.chip.regGranules r, s.chip.granules ≤ g ∨ gValid (s.chip.mapW g 0) = false ∨ gReserved (s.chip.mapW g 0) = true ∨ gTier (s.chip.mapW g 0) ≠ 0 →
    Does (.regionSeal r) s (fun c =>
      c = { s.chip with mtm := { s.chip.mtm with regionSt := 3, regionCode := 1, regionNow := none } })) ∧
  (∀ (s : State) (r : Nat) (k : Chip),
    s.chip.isReady →
    r < 31 →
    rgReserved (s.chip.regEntry r) = false →
    ∀ g ∈ s.chip.regGranules r, g < s.chip.granules ∧ gValid (s.chip.mapW g 0) = true ∧ gReserved (s.chip.mapW g 0) = false ∧ gTier (s.chip.mapW g 0) = 0 →
    k = forEach (s.chip.regGranules r) (sealGranule r) s.chip →
    Does (.regionSeal r) s (fun c =>
      c = regionEnd 2 0 (k.storeLe (k.regionBase + 32 * r + 0x10) 4 (setFld 8 8 (k.le (k.regionBase + 32 * r + 0x10) 4) 1)) ∧ c.mtm.regionSt = 2 ∧ c.mtm.regionCode = 0)) ∧
  (∀ (s : State) (r : Nat),
    s.chip.isReady →
    r < 31 →
    rgReserved (s.chip.regEntry r) = false →
    ∀ g ∈ s.chip.regGranules r, g < s.chip.granules ∧ gValid (s.chip.mapW g 0) = true ∧ gReserved (s.chip.mapW g 0) = false ∧ gTier (s.chip.mapW g 0) = 0 →
    s.chip.regionBase + 1024 ≤ s.chip.mapTab →
    s.chip.mapTab + 16 * s.chip.granules ≤ s.chip.frameBase →
    Does (.regionSeal r) s (fun c =>
      c.mtm.regionSt = 2 ∧ c.mtm.regionCode = 0 ∧ bit 8 (c.le (s.chip.regionBase + 32 * r + 0x10) 4) = true ∧ (∀ g ∈ s.chip.regGranules r, gRo (c.mapW g 0) = true) ∧
      (∀ g, s.chip.regGranules r = [g] → c.le (s.chip.frameAddr (gFrame (s.chip.mapW g 0)) + payloadSize) 4 = g ∧ c.le (s.chip.frameAddr (gFrame (s.chip.mapW g 0)) + payloadSize + 4) 4 = r ∧
        c.le (s.chip.frameAddr (gFrame (s.chip.mapW g 0)) + payloadSize + 8) 4 = crc32 (s.chip.bytes (s.chip.frameAddr (gFrame (s.chip.mapW g 0))) payloadSize)))) ∧
  (∀ (s : State) (r : Nat),
    s.chip.isReady →
    r < 31 →
    s.chip.mtm.regionNow = none →
    Does (.regionHome r) s (fun c =>
      c = pump { s.chip with mtm := { s.chip.mtm with regionSt := 1, regionCode := 0, regionNow := some (r, 2) } })) ∧
  (∀ (s : State) (r : Nat),
    s.chip.isReady →
    31 ≤ r ∨ s.chip.mtm.regionNow.isSome = true →
    Does (.regionHome r) s (fun c =>
      s.chip.logs c pgMtm 0 31)) ∧
  (∀ (s : State) (r : Nat),
    s.chip.isReady →
    r < 31 →
    s.chip.mtm.regionNow = none →
    s.chip.pwr.st ≠ 2 →
    ∀ l < 16, (s.chip.loan l).st ≠ 3 →
    ∀ t < 8, (s.chip.t2s t).st ≠ 3 →
    s.chip.mtm.pfCopies = [] →
    ∀ g ∈ s.chip.regGranules r, regionNeeds 2 g s.chip = false →
    Does (.regionHome r) s (fun c =>
      c = { s.chip with mtm := { s.chip.mtm with regionSt := 2, regionCode := 0 } })) ∧
  (∀ (s : State) (r : Nat),
    s.chip.isReady →
    r < 31 →
    s.chip.mtm.regionNow = none →
    Does (.regionCopy2 r) s (fun c =>
      c = pump { s.chip with mtm := { s.chip.mtm with regionSt := 1, regionCode := 0, regionNow := some (r, 3) } })) ∧
  (∀ (s : State) (r : Nat),
    s.chip.isReady →
    31 ≤ r ∨ s.chip.mtm.regionNow.isSome = true →
    Does (.regionCopy2 r) s (fun c =>
      s.chip.logs c pgMtm 0 31)) ∧
  (∀ (s : State) (r : Nat),
    s.chip.isReady →
    r < 31 →
    s.chip.mtm.regionNow = none →
    s.chip.pwr.st ≠ 2 →
    ∀ l < 16, (s.chip.loan l).st ≠ 3 →
    ∀ t < 8, (s.chip.t2s t).st ≠ 3 →
    s.chip.mtm.pfCopies = [] →
    ∀ g ∈ s.chip.regGranules r, regionNeeds 3 g s.chip = false →
    Does (.regionCopy2 r) s (fun c =>
      c = { s.chip with mtm := { s.chip.mtm with regionSt := 2, regionCode := 0 } })) ∧
  (∀ (s : State) (r g d : Nat),
    s.chip.isReady →
    r < 31 →
    s.chip.mtm.regionNow = none →
    s.chip.mtm.migs = [] →
    s.chip.pwr.st ≠ 2 →
    ∀ l < 16, (s.chip.loan l).st ≠ 3 →
    ∀ t < 8, (s.chip.t2s t).st ≠ 3 →
    s.chip.mtm.pfCopies = [] →
    s.chip.regGranules r = [g] →
    regionNeeds 2 g s.chip = true →
    gMoving (s.chip.mapW g 0) = false →
    s.chip.lowDest false = some (2, d) →
    Does (.regionHome r) s (fun c =>
      ∃ m ∈ c.mtm.migs, m.kind = .homeGranule g ∧ m.srcTier = gTier (s.chip.mapW g 0) ∧ m.src = gFrame (s.chip.mapW g 0) ∧ m.dstTier = 2 ∧ m.dst = d)) ∧
  (∀ (s : State) (i : Nat),
    s.chip.isReady →
    s.chip.mtm.migs[i]? = none →
    Does (.frameCopyComplete i) s (fun c =>
      c = s.chip)) ∧
  (∀ (s : State) (i : Nat) (m : Mig),
    s.chip.isReady →
    s.chip.mtm.migs[i]? = some m →
    s.chip.mtm.reqs.any (fun r => r.granule.isNone && r.mig == m.id) = true →
    Does (.frameCopyComplete i) s (fun c =>
      c = s.chip)) ∧
  (∀ (s : State) (i : Nat) (m : Mig),
    s.chip.isReady →
    s.chip.mtm.migs[i]? = some m →
    s.chip.mtm.reqs.any (fun r => r.granule.isNone && r.mig == m.id) = false →
    s.chip.frameBad m.srcTier m.src 0 frameSize = false →
    migMatches m s.chip = true →
    Does (.frameCopyComplete i) s (fun c =>
      c = pump (landMig m (dropMig m (fillFrame m s.chip))))) ∧
  (∀ (s : State) (i : Nat) (m : Mig),
    s.chip.isReady →
    s.chip.mtm.migs[i]? = some m →
    s.chip.mtm.reqs.any (fun r => r.granule.isNone && r.mig == m.id) = false →
    s.chip.frameBad m.srcTier m.src 0 frameSize = true ∨ migMatches m s.chip = false →
    Does (.frameCopyComplete i) s (fun c =>
      c = pump (migBad m s.chip))) ∧
  (∀ (s : State) (i : Nat) (m : Mig),
    s.chip.isReady →
    s.chip.mtm.migs[i]? = some m →
    s.chip.mtm.reqs = [] →
    m.dstTier = 2 →
    s.chip.frameBad m.srcTier m.src 0 frameSize = false →
    migMatches m s.chip = true →
    Does (.frameCopyComplete i) s (fun c =>
      ∀ o < frameSize, Tab.get (fun _ => 0#8) c.lower (lowKey 2 m.dst o) = s.chip.frameByte m.srcTier m.src o)) ∧
  (∀ (s : State),
    s.chip.isReady →
    s.chip.poolEn = false ∨ s.chip.mustEvict = false ∨ s.chip.migFree = false ∨ s.chip.pwr.st = 2 →
    Does (.eviction) s (fun c =>
      c = s.chip)) ∧
  (∀ (s : State) (f : Nat) (l : Leave),
    s.chip.isReady →
    s.chip.poolEn = true →
    s.chip.mustEvict = true →
    s.chip.migFree = true →
    s.chip.pwr.st ≠ 2 →
    s.chip.victim = some (f, l) →
    Does (.eviction) s (fun c =>
      ∃ ev, c = pump (evictFrame f l (({ s.chip with mtm := { s.chip.mtm with evicting := ev } } : Chip).bumpRg (mtmReg 0x160) 1)))) ∧
  (∀ (s : State) (f g t d : Nat),
    s.chip.isReady →
    s.chip.poolEn = true →
    s.chip.mustEvict = true →
    s.chip.migFree = true →
    s.chip.pwr.st ≠ 2 →
    s.chip.victim = some (f, .copyGran g t d) →
    Does (.eviction) s (fun c =>
      (∃ m ∈ c.mtm.migs, m.kind = .evictGranule g ∧ m.srcTier = 0 ∧ m.src = f ∧ m.dstTier = t ∧ m.dst = d) ∧ c.rg (mtmReg 0x160) = sat32 (s.chip.rg (mtmReg 0x160)) 1)) ∧
  (∀ (s : State),
    s.chip.isReady →
    s.chip.poolEn = true →
    s.chip.mustEvict = true →
    s.chip.migFree = true →
    s.chip.pwr.st ≠ 2 →
    s.chip.victim = none →
    Does (.eviction) s (fun c =>
      c.rg (mtmReg 0x164) = sat32 (s.chip.rg (mtmReg 0x164)) 1 ∧ bit 1 (c.rg (mtmReg 0x20)) = true ∧ c.hasErr pgMtm 0 14 = true ∧ c.mem = s.chip.mem ∧ c.mtm.migs = s.chip.mtm.migs)) ∧
  (∀ (s : State) (n : SlotId) (l pg : Nat),
    s.chip.isReady →
    bit 2 s.chip.mtmCtl = false ∨ s.chip.migFree = false ∨ s.chip.pwr.st = 2 ∨ (s.chip.slot n).st < 2 ∨ 4 < (s.chip.slot n).st ∨ s.chip.poolFree ≤ fld 15 0 (s.chip.rg (mtmReg 0x150)) * 64 ∨
      dLayers (s.chip.slot n).words ≤ l ∨ dBlocks (s.chip.slot n).words * 512 ≤ pg ∨ eTier (pte s.chip (s.chip.slot n).root l pg) = 0 ∨ eValid (pte s.chip (s.chip.slot n).root l pg) = false ∨ ePois (pte s.chip (s.chip.slot n).root l pg) = true ∨ s.chip.freeFrame = none →
    Does (.promotion n l pg) s (fun c =>
      c = s.chip)) ∧
  (∀ (s : State) (n : SlotId) (l pg e k : Nat),
    s.chip.isReady →
    s.chip.pwr.st ≠ 2 →
    bit 2 s.chip.mtmCtl = true →
    s.chip.migFree = true →
    2 ≤ (s.chip.slot n).st →
    (s.chip.slot n).st ≤ 4 →
    fld 15 0 (s.chip.rg (mtmReg 0x150)) * 64 < s.chip.poolFree →
    l < dLayers (s.chip.slot n).words →
    pg < dBlocks (s.chip.slot n).words * 512 →
    e = pte s.chip (s.chip.slot n).root l pg →
    eValid e = true →
    eTier e ≠ 0 →
    ePois e = false →
    s.chip.frameBad (eTier e) (eFrame e) 0 1 = false →
    s.chip.recKind (eTier e) (eFrame e) = 2 →
    refCnt s.chip (eTier e) (eFrame e) = 1 →
    bit 8 (s.chip.recW (eTier e) (eFrame e) 0) = false →
    s.chip.freeFrame = some k →
    Does (.promotion n l pg) s (fun c =>
      ∃ m ∈ c.mtm.migs, m.kind = .promoteKv n l pg ∧ m.srcTier = eTier e ∧ m.src = eFrame e ∧ m.dstTier = 0 ∧ m.dst = k))

/-- LOAN_CMD OFFER of a FREE lent context takes frames and offers them; it answers status 1 or 2 where the context or
the three checks do not allow it (R326). LOAN_OFFER takes the lowest FREE borrowed context or is declined; LOAN_ACCEPT
makes the lent context ACTIVE, LOAN_DECLINE frees it (R326). RECLAIM, at either side, enters RECLAIMING with its
deadline, RETURN does so at the borrower; VACATE_COMPLETE sends VACATED once nothing is referenced; VACATED and
LOAN_END free the contexts; a deadline that passes is logged once and changes nothing else (R328). -/
def Obligations.TierLending : Prop :=
  (∀ (s : State) (l : LoanId),
    s.chip.isReady →
    l.val < 16 ∨ (s.chip.loan l).st ≠ 0 →
    Does (.loanOfferCmd l) s (fun c =>
      c = s.chip.setLoan l { s.chip.loan l with cmd := 1 })) ∧
  (∀ (s : State) (l : LoanId) (q n : Nat),
    s.chip.isReady →
    16 ≤ l.val →
    (s.chip.loan l).st = 0 →
    q = fld 10 0 (s.chip.rg (bank l pgMtm 0x1B0)) →
    n = fld 25 0 (s.chip.rg (bank l pgMtm 0x1B4)) →
    s.chip.poolFree < n + fld 29 0 (s.chip.rg (mtmReg 0x1CC)) ∨ s.chip.loanMax < n ∨ (s.chip.egress q 0).1 ≠ s.chip.sliceId →
    Does (.loanOfferCmd l) s (fun c =>
      c = s.chip.setLoan l { s.chip.loan l with cmd := 2 })) ∧
  (∀ (s : State) (l : LoanId) (q n : Nat),
    s.chip.isReady →
    16 ≤ l.val →
    (s.chip.loan l).st = 0 →
    q = fld 10 0 (s.chip.rg (bank l pgMtm 0x1B0)) →
    n = fld 25 0 (s.chip.rg (bank l pgMtm 0x1B4)) →
    n + fld 29 0 (s.chip.rg (mtmReg 0x1CC)) ≤ s.chip.poolFree →
    n ≤ s.chip.loanMax →
    (s.chip.egress q 0).1 = s.chip.sliceId →
    Does (.loanOfferCmd l) s (fun c =>
      c.loan l = { st := 1, peer := q, frames := n } ∧ bit 4 (c.rg (mtmReg 0x20)) = true ∧ ∀ m, m ≠ l.val → c.loan m = s.chip.loan m)) ∧
  (∀ (s : State) (p : Packet) (l n : Nat),
    s.chip.isReady →
    p.kind = 0x30 →
    n = fld 25 0 (at_ p.body 0 4) →
    l < 16 →
    (s.chip.loan l).st = 0 →
    ∀ m < l, (s.chip.loan m).st ≠ 0 →
    bit 6 s.chip.mtmCtl = true →
    n ≤ s.chip.loanMax →
    Does (.loanOffer p) s (fun c =>
      c.settled (fun c => c.loan l = { st := 2, peer := p.src, peerCtx := fld 4 0 p.tag, frames := n } ∧ bit 4 (c.rg (mtmReg 0x20)) = true ∧ ∀ m, m ≠ l → c.loan m = s.chip.loan m))) ∧
  (∀ (s : State) (p : Packet),
    s.chip.isReady →
    p.kind = 0x30 →
    bit 6 s.chip.mtmCtl = false ∨ s.chip.loanMax < fld 25 0 (at_ p.body 0 4) ∨ ∀ m < 16, (s.chip.loan m).st ≠ 0 →
    Does (.loanOffer p) s (fun c =>
      c.settled (fun c => c.mtm = s.chip.mtm ∧ c.mem = s.chip.mem))) ∧
  (∀ (s : State) (p : Packet) (l : Nat),
    s.chip.isReady →
    p.kind = 0x31 →
    s.chip.offeredTo p.src = some l →
    Does (.loanAccept p) s (fun c =>
      c.settled (fun c => c.loan l = { s.chip.loan l with st := 2, peerCtx := fld 4 0 (at_ p.body 0 4) } ∧ c.mem = s.chip.mem ∧ ∀ m, m ≠ l → c.loan m = s.chip.loan m))) ∧
  (∀ (s : State) (p : Packet),
    s.chip.isReady →
    p.kind = 0x31 →
    s.chip.offeredTo p.src = none →
    Does (.loanAccept p) s (fun c =>
      c = settle (takePkt p s.chip))) ∧
  (∀ (s : State) (p : Packet) (l : Nat),
    s.chip.isReady →
    p.kind = 0x32 →
    s.chip.offeredTo p.src = some l →
    Does (.loanDecline p) s (fun c =>
      c.settled (fun c => c.loan l = {} ∧ ∀ m, m ≠ l → c.loan m = s.chip.loan m))) ∧
  (∀ (s : State) (p : Packet),
    s.chip.isReady →
    p.kind = 0x32 →
    s.chip.offeredTo p.src = none →
    Does (.loanDecline p) s (fun c =>
      c = settle (takePkt p s.chip))) ∧
  (∀ (s : State) (l : LoanId),
    s.chip.isReady →
    l.val < 16 ∨ (s.chip.loan l).st ≠ 2 →
    Does (.loanReclaimCmd l) s (fun c =>
      c = s.chip.setLoan l { s.chip.loan l with cmd := 1 })) ∧
  (∀ (s : State) (l : LoanId),
    s.chip.isReady →
    16 ≤ l.val →
    (s.chip.loan l).st = 2 →
    Does (.loanReclaimCmd l) s (fun c =>
      c.loan l = { s.chip.loan l with st := 3, cmd := 0, deadline := some (s.chip.beat + fld 23 0 (s.chip.rg (mtmReg 0x1D0))) } ∧ c.mem = s.chip.mem ∧ ∀ m, m ≠ l.val → c.loan m = s.chip.loan m)) ∧
  (∀ (s : State) (l : LoanId),
    s.chip.isReady →
    16 ≤ l.val ∨ (s.chip.loan l).st ≠ 2 →
    Does (.loanReturnCmd l) s (fun c =>
      c = s.chip.setLoan l { s.chip.loan l with cmd := 1 })) ∧
  (∀ (s : State) (l : LoanId),
    s.chip.isReady →
    l.val < 16 →
    (s.chip.loan l).st = 2 →
    Does (.loanReturnCmd l) s (fun c =>
      c.loan l = { s.chip.loan l with st := 3, cmd := 0 } ∧ ∀ m, m ≠ l.val → c.loan m = s.chip.loan m)) ∧
  (∀ (s : State) (p : Packet) (l : Nat),
    s.chip.isReady →
    p.kind = 0x33 →
    s.chip.borrowedFrom p = some l →
    (s.chip.loan l).st = 2 →
    Does (.reclaim p) s (fun c =>
      c.settled (fun c => c.loan l = { s.chip.loan l with st := 3, deadline := some (at_ p.body 0 4) } ∧ ∀ m, m ≠ l → c.loan m = s.chip.loan m))) ∧
  (∀ (s : State) (p : Packet) (l : Nat),
    s.chip.isReady →
    p.kind = 0x33 →
    s.chip.borrowedFrom p = some l →
    (s.chip.loan l).st ≠ 2 →
    Does (.reclaim p) s (fun c =>
      c = settle (takePkt p s.chip))) ∧
  (∀ (s : State) (p : Packet),
    s.chip.isReady →
    p.kind = 0x33 →
    s.chip.borrowedFrom p = none →
    Does (.reclaim p) s (fun c =>
      c = settle (takePkt p s.chip))) ∧
  (∀ (s : State) (l : LoanId),
    s.chip.isReady →
    l.val < 16 →
    (s.chip.loan l).st = 3 →
    (s.chip.loan l).sent = false →
    s.chip.loanRefd l = [] →
    s.chip.quar.any (fun q => !q.unit && q.tier == 1 && fld 29 26 q.idx == l.val) = false →
    Does (.vacateComplete l) s (fun c =>
      c.loan l = { s.chip.loan l with sent := true } ∧ c.mem = s.chip.mem ∧ ∀ m, m ≠ l.val → c.loan m = s.chip.loan m)) ∧
  (∀ (s : State) (l : LoanId),
    s.chip.isReady →
    16 ≤ l.val ∨ (s.chip.loan l).st ≠ 3 ∨ (s.chip.loan l).sent = true ∨ s.chip.loanRefd l ≠ [] ∨ s.chip.quar.any (fun q => !q.unit && q.tier == 1 && fld 29 26 q.idx == l.val) = true →
    Does (.vacateComplete l) s (fun c =>
      c = s.chip)) ∧
  (∀ (s : State) (p : Packet) (l : Nat),
    s.chip.isReady →
    p.kind = 0x34 →
    s.chip.lentTo p = some l →
    Does (.vacated p) s (fun c =>
      c.settled (fun c => c.loan l = {} ∧ ∀ m, m ≠ l → c.loan m = s.chip.loan m))) ∧
  (∀ (s : State) (p : Packet),
    s.chip.isReady →
    p.kind = 0x34 →
    s.chip.lentTo p = none →
    Does (.vacated p) s (fun c =>
      c = settle (takePkt p s.chip))) ∧
  (∀ (s : State) (p : Packet) (l : Nat),
    s.chip.isReady →
    p.kind = 0x35 →
    s.chip.borrowedFrom p = some l →
    Does (.loanEnd p) s (fun c =>
      c.settled (fun c => c.loan l = {} ∧ ∀ m, m ≠ l → c.loan m = s.chip.loan m))) ∧
  (∀ (s : State) (p : Packet),
    s.chip.isReady →
    p.kind = 0x35 →
    s.chip.borrowedFrom p = none →
    Does (.loanEnd p) s (fun c =>
      c = settle (takePkt p s.chip))) ∧
  (∀ (s : State) (l : LoanId) (d : Nat),
    s.chip.isReady →
    16 ≤ l.val →
    (s.chip.loan l).st = 3 →
    (s.chip.loan l).deadline = some d →
    d ≤ s.chip.beat →
    (s.chip.loan l).passed = false →
    Does (.reclaimDeadline l) s (fun c =>
      c.loan l = { s.chip.loan l with passed := true } ∧ bit 5 (c.rg (mtmReg 0x20)) = true ∧ c.hasErr pgMtm 0 13 = true ∧ c.mem = s.chip.mem)) ∧
  (∀ (s : State) (l : LoanId),
    s.chip.isReady →
    l.val < 16 ∨ (s.chip.loan l).passed = true ∨ (s.chip.loan l).st ≠ 3 ∨ ∀ d ∈ (s.chip.loan l).deadline, s.chip.beat < d →
    Does (.reclaimDeadline l) s (fun c =>
      c = s.chip))

/-- A lender serves RREAD with the frame's bytes and stores RWRITE's bytes, except of an unknown loan, out of range, a
bad frame or to a sealed frame, which it answers with RERR; RSEAL and RFREE set and clear a frame's seal (R325, R327).
GREAD is served from an unpoisoned T0 copy of the granule, else answered with RERR (R339). A request for a line that
no GMC serves now waits there (R311, R332). RDATA fills the frame, or is offered for a refetched granule, once every
byte has come; RERR 1 and the second timeout make a borrowed loan GONE; the first timeout sends the request again
(R327, R328). REFETCH_TIMEOUT ends a refetch with source 4; held reads take poison and a UC (R339). PF_CMD, and issue,
lateness and drop of a prefetch record (R329 to R331). -/
def Obligations.TierRemote : Prop :=
  (∀ (s : State) (p : Packet),
    s.chip.isReady →
    p.kind = 1 →
    s.chip.serves (.rread p) →
    s.chip.lentTo p = none →
    Does (.rread p) s (fun c =>
      c = settle (sendRerr p (fld 15 0 (at_ p.body 12 4)) 1 (takePkt p s.chip)))) ∧
  (∀ (s : State) (p : Packet) (l i o n : Nat),
    s.chip.isReady →
    p.kind = 1 →
    s.chip.serves (.rread p) →
    s.chip.lentTo p = some l →
    i = fld 25 0 (at_ p.body 0 4) →
    o = fld 18 0 (at_ p.body 4 4) →
    n = fld 16 0 (at_ p.body 8 4) →
    i < (s.chip.loan l).frames →
    1 ≤ n →
    n ≤ 65536 →
    o + n ≤ frameSize →
    Does (.rread p) s (fun c =>
      c = settle (if s.chip.frameBad 0 (s.chip.lentFrame l i) o n = true then sendRerr p (fld 15 0 (at_ p.body 12 4)) 3 (takePkt p s.chip) else sendRdata p (fld 15 0 (at_ p.body 12 4)) (s.chip.frameBytes 0 (s.chip.lentFrame l i) o n) (takePkt p s.chip)))) ∧
  (∀ (s : State) (p : Packet) (l i : Nat),
    s.chip.isReady →
    p.kind = 1 →
    s.chip.serves (.rread p) →
    s.chip.lentTo p = some l →
    i = fld 25 0 (at_ p.body 0 4) →
    (s.chip.loan l).frames ≤ i ∨ fld 16 0 (at_ p.body 8 4) = 0 ∨ 65536 < fld 16 0 (at_ p.body 8 4) ∨ frameSize < fld 18 0 (at_ p.body 4 4) + fld 16 0 (at_ p.body 8 4) →
    Does (.rread p) s (fun c =>
      c = settle (sendRerr p (fld 15 0 (at_ p.body 12 4)) 2 (takePkt p s.chip)))) ∧
  (∀ (s : State) (p : Packet) (i : Nat),
    s.chip.isReady →
    p.kind = 1 →
    s.chip.heldAt (s.chip.reqRanges (.rread p)) = some i →
    Does (.rread p) s (fun c =>
      c = settle ((takePkt p s.chip).setGmc i { s.chip.gmc i with waiting := (s.chip.gmc i).waiting ++ [{ what := .rread p, due := p.due, cls := p.cls }] }))) ∧
  (∀ (s : State) (p : Packet),
    s.chip.isReady →
    p.kind = 3 →
    s.chip.lentTo p = none →
    Does (.rwrite p) s (fun c =>
      c = settle (sendRerr p 0 1 (takePkt p s.chip)))) ∧
  (∀ (s : State) (p : Packet) (l i : Nat),
    s.chip.isReady →
    p.kind = 3 →
    s.chip.lentTo p = some l →
    i = fld 25 0 (at_ p.body 0 4) →
    (s.chip.loan l).frames ≤ i ∨ frameSize < fld 18 0 (at_ p.body 4 4) + (p.body.drop 8).length →
    Does (.rwrite p) s (fun c =>
      c = settle (sendRerr p 0 2 (takePkt p s.chip)))) ∧
  (∀ (s : State) (p : Packet) (l i o : Nat),
    s.chip.isReady →
    p.kind = 3 →
    s.chip.lentTo p = some l →
    i = fld 25 0 (at_ p.body 0 4) →
    o = fld 18 0 (at_ p.body 4 4) →
    i < (s.chip.loan l).frames →
    o + (p.body.drop 8).length ≤ frameSize →
    (s.chip.loan l).sealed.contains i = false →
    Does (.rwrite p) s (fun c =>
      c = settle ((takePkt p s.chip).store (s.chip.frameAddr (s.chip.lentFrame l i) + o) (p.body.drop 8)))) ∧
  (∀ (s : State) (p : Packet) (l i : Nat),
    s.chip.isReady →
    p.kind = 3 →
    s.chip.lentTo p = some l →
    i = fld 25 0 (at_ p.body 0 4) →
    i < (s.chip.loan l).frames →
    fld 18 0 (at_ p.body 4 4) + (p.body.drop 8).length ≤ frameSize →
    (s.chip.loan l).sealed.contains i = true →
    Does (.rwrite p) s (fun c =>
      c.settled (fun c => c.mem = s.chip.mem ∧ c.hasErr pgMtm 2 8 = true ∧ c.mtm = s.chip.mtm))) ∧
  (∀ (s : State) (p : Packet) (l i : Nat),
    s.chip.isReady →
    p.kind = 4 →
    s.chip.lentTo p = some l →
    i = fld 25 0 (at_ p.body 0 4) →
    i < (s.chip.loan l).frames →
    Does (.rseal p) s (fun c =>
      c = settle ((takePkt p s.chip).setLoan l { s.chip.loan l with sealed := insertAsc i (s.chip.loan l).sealed }))) ∧
  (∀ (s : State) (p : Packet),
    s.chip.isReady →
    p.kind = 4 →
    ∀ l ∈ s.chip.lentTo p, (s.chip.loan l).frames ≤ fld 25 0 (at_ p.body 0 4) →
    Does (.rseal p) s (fun c =>
      c = settle (takePkt p s.chip))) ∧
  (∀ (s : State) (p : Packet) (l i : Nat),
    s.chip.isReady →
    p.kind = 5 →
    s.chip.lentTo p = some l →
    i = fld 25 0 (at_ p.body 0 4) →
    i < (s.chip.loan l).frames →
    Does (.rfree p) s (fun c =>
      c = settle ((takePkt p s.chip).setLoan l { s.chip.loan l with sealed := (s.chip.loan l).sealed.filter (· != i) }))) ∧
  (∀ (s : State) (p : Packet),
    s.chip.isReady →
    p.kind = 5 →
    ∀ l ∈ s.chip.lentTo p, (s.chip.loan l).frames ≤ fld 25 0 (at_ p.body 0 4) →
    Does (.rfree p) s (fun c =>
      c = settle (takePkt p s.chip))) ∧
  (∀ (s : State) (p : Packet) (r o g : Nat),
    s.chip.isReady →
    p.kind = 6 →
    s.chip.serves (.gread p) →
    r = fld 4 0 (at_ p.body 0 4) →
    o = fld 27 0 (at_ p.body 4 4) →
    r < 31 →
    o < rgCount (s.chip.regEntry r) →
    g = rgFirst (s.chip.regEntry r) + o →
    g < s.chip.granules →
    gValid (s.chip.mapW g 0) = true →
    gTier (s.chip.mapW g 0) = 0 →
    Does (.gread p) s (fun c =>
      c = settle (if gPoison (s.chip.mapW g 0) = true ∨ s.chip.frameBad 0 (gFrame (s.chip.mapW g 0)) 0 payloadSize = true then sendRerr p (fld 15 0 (at_ p.body 8 4)) 3 (takePkt p s.chip)
      else sendRdata p (fld 15 0 (at_ p.body 8 4)) (s.chip.frameBytes 0 (gFrame (s.chip.mapW g 0)) 0 payloadSize) (noteRead (0x400000000000 + g * payloadSize) 1 (takePkt p s.chip))))) ∧
  (∀ (s : State) (p : Packet) (r o g : Nat),
    s.chip.isReady →
    p.kind = 6 →
    s.chip.serves (.gread p) →
    r = fld 4 0 (at_ p.body 0 4) →
    o = fld 27 0 (at_ p.body 4 4) →
    r < 31 →
    o < rgCount (s.chip.regEntry r) →
    g = rgFirst (s.chip.regEntry r) + o →
    g < s.chip.granules →
    gValid (s.chip.mapW g 0) = false ∨ gTier (s.chip.mapW g 0) ≠ 0 →
    Does (.gread p) s (fun c =>
      c = settle (sendRerr p (fld 15 0 (at_ p.body 8 4)) 4 (takePkt p s.chip)))) ∧
  (∀ (s : State) (p : Packet) (r o : Nat),
    s.chip.isReady →
    p.kind = 6 →
    s.chip.serves (.gread p) →
    r = fld 4 0 (at_ p.body 0 4) →
    o = fld 27 0 (at_ p.body 4 4) →
    31 ≤ r ∨ rgCount (s.chip.regEntry r) ≤ o ∨ s.chip.granules ≤ rgFirst (s.chip.regEntry r) + o →
    Does (.gread p) s (fun c =>
      c = settle (sendRerr p (fld 15 0 (at_ p.body 8 4)) 2 (takePkt p s.chip)))) ∧
  (∀ (s : State) (p : Packet) (i : Nat),
    s.chip.isReady →
    p.kind = 6 →
    s.chip.heldAt (s.chip.reqRanges (.gread p)) = some i →
    Does (.gread p) s (fun c =>
      c = settle ((takePkt p s.chip).setGmc i { s.chip.gmc i with waiting := (s.chip.gmc i).waiting ++ [{ what := .gread p, due := p.due, cls := p.cls }] }))) ∧
  (∀ (s : State) (p : Packet),
    s.chip.isReady →
    p.kind = 2 →
    ∀ r ∈ s.chip.reqOf (fld 15 0 (at_ p.body 0 4)), p.src ≠ r.pkt.dest →
    Does (.rdata p) s (fun c =>
      c = settle (takePkt p s.chip))) ∧
  (∀ (s : State) (p : Packet) (t : Nat) (r : RemReq),
    s.chip.isReady →
    p.kind = 2 →
    t = fld 15 0 (at_ p.body 0 4) →
    s.chip.reqOf t = some r →
    p.src = r.pkt.dest →
    (r.got ++ p.body.drop 4).length < r.len →
    Does (.rdata p) s (fun c =>
      c = settle { (takePkt p s.chip) with mtm := { s.chip.mtm with reqs := s.chip.mtm.reqs.map (fun q => if q.tag = t then { q with got := r.got ++ p.body.drop 4 } else q) } })) ∧
  (∀ (s : State) (p : Packet) (t : Nat) (r : RemReq) (m : Mig),
    s.chip.isReady →
    p.kind = 2 →
    t = fld 15 0 (at_ p.body 0 4) →
    s.chip.reqOf t = some r →
    p.src = r.pkt.dest →
    r.granule = none →
    r.len ≤ (r.got ++ p.body.drop 4).length →
    s.chip.mtm.migs.find? (fun m => m.id == r.mig) = some m →
    Does (.rdata p) s (fun c =>
      c = settle ((dropReq t (takePkt p s.chip)).fillLow 1 m.src r.off ((r.got ++ p.body.drop 4).take r.len)))) ∧
  (∀ (s : State) (p : Packet) (t : Nat) (r : RemReq),
    s.chip.isReady →
    p.kind = 2 →
    t = fld 15 0 (at_ p.body 0 4) →
    s.chip.reqOf t = some r →
    p.src = r.pkt.dest →
    r.len ≤ (r.got ++ p.body.drop 4).length →
    (r.granule = none ∧ s.chip.mtm.migs.find? (fun m => m.id == r.mig) = none) ∨ ∃ g ∈ r.granule, gPoison (s.chip.mapW g 0) = false →
    Does (.rdata p) s (fun c =>
      c = settle (dropReq t (takePkt p s.chip)))) ∧
  (∀ (s : State) (p : Packet) (t g : Nat) (r : RemReq),
    s.chip.isReady →
    p.kind = 2 →
    t = fld 15 0 (at_ p.body 0 4) →
    s.chip.reqOf t = some r →
    p.src = r.pkt.dest →
    r.granule = some g →
    gPoison (s.chip.mapW g 0) = true →
    r.len ≤ (r.got ++ p.body.drop 4).length →
    Does (.rdata p) s (fun c =>
      c = settle ((offerRefetch g 1 ((r.got ++ p.body.drop 4).take r.len) (s.chip.granRec (gTier (s.chip.mapW g 0)) (gFrame (s.chip.mapW g 0))) (dropReq t (takePkt p s.chip))).getD (nextSource g (dropReq t (takePkt p s.chip)))))) ∧
  (∀ (s : State) (p : Packet),
    s.chip.isReady →
    p.kind = 7 →
    fld 31 16 (at_ p.body 0 4) ≠ 0 ∨ at_ p.body 4 4 = 0 ∨ 4 < at_ p.body 4 4 ∨ ∀ r ∈ s.chip.reqOf (fld 15 0 (at_ p.body 0 4)), p.src ≠ r.pkt.dest →
    Does (.rerr p) s (fun c =>
      c = settle (takePkt p s.chip))) ∧
  (∀ (s : State) (p : Packet) (t : Nat) (r : RemReq),
    s.chip.isReady →
    p.kind = 7 →
    fld 31 16 (at_ p.body 0 4) = 0 →
    1 ≤ at_ p.body 4 4 →
    at_ p.body 4 4 ≤ 4 →
    t = fld 15 0 (at_ p.body 0 4) →
    s.chip.reqOf t = some r →
    p.src = r.pkt.dest →
    r.granule = none →
    at_ p.body 4 4 = 1 →
    Does (.rerr p) s (fun c =>
      c.settled (fun c => (c.loan r.loan).st = 4 ∧ c.hasErr pgMtm 2 13 = true))) ∧
  (∀ (s : State) (p : Packet) (t g : Nat) (r : RemReq),
    s.chip.isReady →
    p.kind = 7 →
    fld 31 16 (at_ p.body 0 4) = 0 →
    1 ≤ at_ p.body 4 4 →
    at_ p.body 4 4 ≤ 4 →
    t = fld 15 0 (at_ p.body 0 4) →
    s.chip.reqOf t = some r →
    p.src = r.pkt.dest →
    r.granule = some g →
    Does (.rerr p) s (fun c =>
      c = settle (nextSource g (dropReq r.tag (takePkt p s.chip))))) ∧
  (∀ (s : State) (p : Packet) (t : Nat) (r : RemReq) (m : Mig),
    s.chip.isReady →
    p.kind = 7 →
    fld 31 16 (at_ p.body 0 4) = 0 →
    1 ≤ at_ p.body 4 4 →
    at_ p.body 4 4 ≤ 4 →
    t = fld 15 0 (at_ p.body 0 4) →
    s.chip.reqOf t = some r →
    p.src = r.pkt.dest →
    r.granule = none →
    at_ p.body 4 4 ≠ 1 →
    s.chip.mtm.migs.find? (fun m => m.id == r.mig) = some m →
    Does (.rerr p) s (fun c =>
      c = settle (if at_ p.body 4 4 = 3 then pump (migBad m (dropReq r.tag (takePkt p s.chip))) else abandon m (dropReq r.tag (takePkt p s.chip))))) ∧
  (∀ (s : State) (p : Packet) (t : Nat) (r : RemReq),
    s.chip.isReady →
    p.kind = 7 →
    fld 31 16 (at_ p.body 0 4) = 0 →
    1 ≤ at_ p.body 4 4 →
    at_ p.body 4 4 ≤ 4 →
    t = fld 15 0 (at_ p.body 0 4) →
    s.chip.reqOf t = some r →
    p.src = r.pkt.dest →
    r.granule = none →
    at_ p.body 4 4 ≠ 1 →
    s.chip.mtm.migs.find? (fun m => m.id == r.mig) = none →
    Does (.rerr p) s (fun c =>
      c = settle (dropReq r.tag (takePkt p s.chip)))) ∧
  (∀ (s : State) (t : Nat),
    s.chip.isReady →
    ∀ r ∈ s.chip.reqOf t, s.chip.beat < r.deadline →
    Does (.loanRequestTimeout t) s (fun c =>
      c = settle s.chip)) ∧
  (∀ (s : State) (t : Nat) (r : RemReq),
    s.chip.isReady →
    s.chip.reqOf t = some r →
    r.deadline ≤ s.chip.beat →
    r.resent = false →
    Does (.loanRequestTimeout t) s (fun c =>
      c = settle (sendPkt r.pkt { s.chip with mtm := { s.chip.mtm with reqs := s.chip.mtm.reqs.map (fun q =>
        if q.tag = t then { q with resent := true, got := [], deadline := s.chip.beat + fld 15 0 (s.chip.rg (mtmReg 0x1D4)) } else q) } }))) ∧
  (∀ (s : State) (t g : Nat) (r : RemReq),
    s.chip.isReady →
    s.chip.reqOf t = some r →
    r.deadline ≤ s.chip.beat →
    r.resent = true →
    r.granule = some g →
    Does (.loanRequestTimeout t) s (fun c =>
      c = settle (nextSource g (dropReq t s.chip)))) ∧
  (∀ (s : State) (t : Nat) (r : RemReq),
    s.chip.isReady →
    s.chip.reqOf t = some r →
    r.deadline ≤ s.chip.beat →
    r.resent = true →
    r.granule = none →
    Does (.loanRequestTimeout t) s (fun c =>
      c.settled (fun c => (c.loan r.loan).st = 4 ∧ c.hasErr pgMtm 2 13 = true))) ∧
  (∀ (s : State) (g : Nat),
    s.chip.isReady →
    ∀ r ∈ s.chip.refetchOf g, s.chip.beat < r.deadline →
    Does (.refetchTimeout g) s (fun c =>
      c = settle s.chip)) ∧
  (∀ (s : State) (g : Nat) (r : Refetch),
    s.chip.isReady →
    s.chip.refetchOf g = some r →
    r.deadline ≤ s.chip.beat →
    Does (.refetchTimeout g) s (fun c =>
      c.settled (fun c => c.refetchOf g = none ∧ c.mtm.lastSrc = 4 ∧ c.mtm.lastG = g ∧ (r.frame = none → c.mem = s.chip.mem) ∧ bit 3 (c.rg (mtmReg 0x20)) = true ∧
      (r.waiting ≠ 0 → c.answer.poison = true ∧ c.hasErr pgMtm 2 11 = true)))) ∧
  (∀ (s : State),
    s.chip.isReady →
    1 ≤ s.chip.pfLen →
    s.chip.pfLen ≤ 4096 →
    s.chip.rg64 (mtmReg 0x170) % 32 = 0 →
    s.chip.rg (mtmReg 0x17C) ≠ 0 →
    ∀ i < s.chip.pfLen, pfBad (s.chip.rg (mtmReg 0x17C)) (s.chip.pfRec i) = false →
    rising ((List.range s.chip.pfLen).map (fun i => wd (s.chip.pfRec i) 2)) = true →
    s.chip.mtm.pfSt ≠ 1 →
    bit 1 s.chip.mtmCtl = true →
    Does (.pfGo) s (fun c =>
      c = (if s.chip.pfBeats = true then armCe pgMtm (s.chip.rg64 (mtmReg 0x180)) else id) { s.chip with mtm := { s.chip.mtm with pfSt := 1, pfNext := 0, pfPass := 0 } } ∧ c.mtm.pfSt = 1 ∧ c.mtm.pfNext = 0 ∧ c.mtm.pfPass = 0)) ∧
  (∀ (s : State),
    s.chip.isReady →
    s.chip.pfLen = 0 ∨ 4096 < s.chip.pfLen ∨ s.chip.rg64 (mtmReg 0x170) % 32 ≠ 0 ∨ s.chip.rg (mtmReg 0x17C) = 0 ∨ (∃ i < s.chip.pfLen, pfBad (s.chip.rg (mtmReg 0x17C)) (s.chip.pfRec i) = true) ∨
      rising ((List.range s.chip.pfLen).map (fun i => wd (s.chip.pfRec i) 2)) = false ∨ s.chip.mtm.pfSt = 1 ∨ bit 1 s.chip.mtmCtl = false →
    Does (.pfGo) s (fun c =>
      s.chip.logs c pgMtm 0 31)) ∧
  (∀ (s : State),
    s.chip.isReady →
    s.chip.mtm.pfSt = 1 →
    Does (.pfStop) s (fun c =>
      c = { s.chip with mtm := { s.chip.mtm with pfSt := 2 } })) ∧
  (∀ (s : State),
    s.chip.isReady →
    s.chip.mtm.pfSt ≠ 1 →
    Does (.pfStop) s (fun c =>
      s.chip.logs c pgMtm 0 31)) ∧
  (∀ (s : State),
    s.chip.isReady →
    s.chip.mtm.pfSt ≠ 1 ∨ bit 1 s.chip.mtmCtl = false ∨ s.chip.pwr.st = 2 ∨ s.chip.pwr.st = 3 →
    Does (.prefetchIssue) s (fun c =>
      c = s.chip)) ∧
  (∀ (s : State),
    s.chip.isReady →
    s.chip.pwr.st ≠ 2 →
    s.chip.pwr.st ≠ 3 →
    s.chip.mtm.pfSt = 1 →
    bit 1 s.chip.mtmCtl = true →
    s.chip.pfBeats = false →
    (s.chip.ring s.chip.pfCtx).st = 0 →
    Does (.prefetchIssue) s (fun c =>
      c = { s.chip with mtm := { s.chip.mtm with pfSt := 2 } })) ∧
  (∀ (s : State) (pt pos start need : Nat) (w : List Nat) (drop : Option Nat),
    s.chip.isReady →
    s.chip.mtm.pfSt = 1 →
    bit 1 s.chip.mtmCtl = true →
    s.chip.pwr.st ≠ 2 →
    s.chip.pwr.st ≠ 3 →
    s.chip.pfBeats = true ∨ (s.chip.ring s.chip.pfCtx).st ≠ 0 →
    s.chip.pfNow = some (pos, start) →
    w = s.chip.pfRec s.chip.mtm.pfNext →
    pt = s.chip.rg64 (mtmReg 0x180) + s.chip.mtm.pfPass * s.chip.rg (mtmReg 0x17C) + wd w 2 →
    pt ≤ pos →
    s.chip.pfBeats = true → s.chip.come pt = true →
    need = (if s.chip.pfBeats = true then pt + fld 15 0 (wd w 3) else start + fld 15 0 (wd w 3) * (s.chip.ring s.chip.pfCtx).stepBeats) →
    drop = (if fld 31 16 (wd w 3) = 0xFFFF then none else some (pt + fld 15 0 (wd w 3) + fld 31 16 (wd w 3))) →
    Does (.prefetchIssue) s (fun c =>
      c = pump (pfNextRec (forEach ((List.range (fld 15 0 (wd w 1))).map (fld 27 0 (wd w 0) + ·)) (pfGranule need drop (bit 0 (wd w 4))) s.chip)))) ∧
  (∀ (s : State),
    s.chip.isReady →
    s.chip.mtm.pfSt = 1 →
    bit 1 s.chip.mtmCtl = true →
    s.chip.pwr.st ≠ 2 →
    s.chip.pwr.st ≠ 3 →
    s.chip.pfBeats = true ∨ (s.chip.ring s.chip.pfCtx).st ≠ 0 →
    ∀ q ∈ s.chip.pfNow, q.1 < s.chip.rg64 (mtmReg 0x180) + s.chip.mtm.pfPass * s.chip.rg (mtmReg 0x17C) + wd (s.chip.pfRec s.chip.mtm.pfNext) 2 →
    Does (.prefetchIssue) s (fun c =>
      c = s.chip)) ∧
  (∀ (s : State) (g pt : Nat) (w : List Nat),
    s.chip.isReady →
    s.chip.pwr.st = 1 →
    s.chip.mtm.pfSt = 1 →
    bit 1 s.chip.mtmCtl = true →
    s.chip.pfBeats = true →
    w = s.chip.pfRec s.chip.mtm.pfNext →
    pt = s.chip.rg64 (mtmReg 0x180) + s.chip.mtm.pfPass * s.chip.rg (mtmReg 0x17C) + wd w 2 →
    pt ≤ s.chip.beat →
    s.chip.come pt = true →
    fld 15 0 (wd w 1) = 1 →
    g = fld 27 0 (wd w 0) →
    g < s.chip.granules →
    gValid (s.chip.mapW g 0) = true →
    gTier (s.chip.mapW g 0) ≠ 0 →
    ∀ q ∈ s.chip.mtm.pfCopies, q.granule ≠ g →
    Does (.prefetchIssue) s (fun c =>
      (∃ q ∈ c.mtm.pfCopies, q.granule = g ∧ q.need = pt + fld 15 0 (wd w 3) ∧ q.pin = bit 0 (wd w 4) ∧ q.landed = false) ∧ (s.chip.mtm.pfNext + 1 < s.chip.pfLen → c.mtm.pfNext = s.chip.mtm.pfNext + 1) ∧
      (s.chip.pfLen ≤ s.chip.mtm.pfNext + 1 → c.mtm.pfNext = 0 ∧ c.mtm.pfPass = s.chip.mtm.pfPass + 1))) ∧
  (∀ (s : State) (g : Nat) (q : PfCopy),
    s.chip.isReady →
    s.chip.mtm.pfCopies.find? (fun p => p.granule == g && !p.landed && !p.late && decide (p.need ≤ s.chip.beat)) = some q →
    Does (.prefetchLate g) s (fun c =>
      c.hasErr pgMtm 0 12 = true ∧ c.rg (mtmReg 0x190) = sat32 (s.chip.rg (mtmReg 0x190)) 1 ∧ bit 2 (c.rg (mtmReg 0x20)) = true ∧ c.mem = s.chip.mem)) ∧
  (∀ (s : State) (g : Nat),
    s.chip.isReady →
    ∀ q ∈ s.chip.mtm.pfCopies, q.granule = g → q.landed = true ∨ q.late = true ∨ s.chip.beat < q.need →
    Does (.prefetchLate g) s (fun c =>
      c = s.chip)) ∧
  (∀ (s : State) (g : Nat) (q : PfCopy) (d pos st : Nat) (k : Chip),
    s.chip.isReady →
    s.chip.mtm.pfCopies.find? (fun p => p.granule == g) = some q →
    q.drop = some d →
    s.chip.pfNow = some (pos, st) →
    d ≤ pos →
    k = abandonIf (fun m => m.kind == .prefetch g) { s.chip with mtm := { s.chip.mtm with pfCopies := s.chip.mtm.pfCopies.filter (fun q => q.granule != g) } } →
    Does (.prefetchDrop g) s (fun c =>
      c = (if q.landed = true ∧ gMoving (k.mapW g 0) = false ∧ gPoison (k.mapW g 0) = false then goHome g k else k) ∧ ∀ p ∈ c.mtm.pfCopies, p.granule ≠ g)) ∧
  (∀ (s : State) (g : Nat),
    s.chip.isReady →
    ∀ q ∈ s.chip.mtm.pfCopies.find? (fun p => p.granule == g), ∀ d ∈ q.drop, ∀ n ∈ s.chip.pfNow, n.1 < d →
    Does (.prefetchDrop g) s (fun c =>
      c = s.chip))

/-- A device added to an EMPTY, GONE or REFUSED slot takes it as PRESENT, or REFUSED with the code of R335; a device
that must be sanitised first is listed with its serial number (R415). SLOT_CMD ONLINE of a PRESENT, sanitised device
with a sound record area clears every record and enters ONLINE with its frames; DRAIN, OFFLINE and a surprise removal
as R336 and R337 say, commands in another state being ignored with a CE. SANITIZE_COMPLETE takes the device off the
list, or logs a CE (R415). -/
def Obligations.Expanders : Prop :=
  (∀ (s : State) (n : T2Slot) (d : CxlDevice),
    s.chip.isOn →
    (s.chip.t2s n).st = 0 ∨ (s.chip.t2s n).st = 4 ∨ (s.chip.t2s n).st = 5 →
    deviceCode n d s.chip = 0 →
    s.chip.flash.wipePend = false →
    s.chip.flash.sanList.contains d.serial = false →
    Does (.cxlDeviceAdd n d) s (fun c =>
      c.t2s n = { st := 1, dev := d, capMiB := d.capMiB } ∧ bit (n % 4) (c.rg (ra (pgCxl (n / 4)) 0x20)) = true ∧ c.flash = s.chip.flash ∧ c.mem = s.chip.mem ∧ ∀ m, m ≠ n.val → c.t2s m = s.chip.t2s m)) ∧
  (∀ (s : State) (n : T2Slot) (d : CxlDevice),
    s.chip.isOn →
    (s.chip.t2s n).st = 0 ∨ (s.chip.t2s n).st = 4 ∨ (s.chip.t2s n).st = 5 →
    deviceCode n d s.chip ≠ 0 →
    Does (.cxlDeviceAdd n d) s (fun c =>
      c.t2s n = { st := 5, refuse := deviceCode n d s.chip, dev := d } ∧ bit (n % 4) (c.rg (ra (pgCxl (n / 4)) 0x20)) = true ∧ c.hasErr (pgCxl (n / 4)) 0 11 = true ∧ ∀ m, m ≠ n.val → c.t2s m = s.chip.t2s m)) ∧
  (∀ (s : State) (n : T2Slot) (d : CxlDevice),
    s.chip.isOn →
    (s.chip.t2s n).st = 0 ∨ (s.chip.t2s n).st = 4 ∨ (s.chip.t2s n).st = 5 →
    deviceCode n d s.chip = 0 →
    s.chip.flash.wipePend = true →
    s.chip.flash.sanList.contains d.serial = false →
    s.chip.flash.sanList.length < 8 →
    Does (.cxlDeviceAdd n d) s (fun c =>
      (c.t2s n).st = 1 ∧ (c.t2s n).sanitize = true ∧ c.flash.sanList = s.chip.flash.sanList ++ [d.serial])) ∧
  (∀ (s : State) (n : T2Slot) (d : CxlDevice),
    s.chip.isOn →
    (s.chip.t2s n).st = 0 ∨ (s.chip.t2s n).st = 4 ∨ (s.chip.t2s n).st = 5 →
    deviceCode n d s.chip = 0 →
    s.chip.flash.sanList.contains d.serial = true →
    Does (.cxlDeviceAdd n d) s (fun c =>
      (c.t2s n).st = 1 ∧ (c.t2s n).sanitize = true ∧ c.flash = s.chip.flash ∧ bit (n % 4) (c.rg (ra (pgCxl (n / 4)) 0x20)) = true)) ∧
  (∀ (s : State) (n : T2Slot) (d : CxlDevice),
    s.chip.isOn →
    (s.chip.t2s n).st = 0 ∨ (s.chip.t2s n).st = 4 ∨ (s.chip.t2s n).st = 5 →
    deviceCode n d s.chip = 0 →
    s.chip.flash.wipePend = true →
    s.chip.flash.sanList.contains d.serial = false →
    8 ≤ s.chip.flash.sanList.length →
    Does (.cxlDeviceAdd n d) s (fun c =>
      (c.t2s n).st = 5 ∧ c.flash = s.chip.flash ∧ bit (n % 4) (c.rg (ra (pgCxl (n / 4)) 0x20)) = true ∧ c.hasErr (pgCxl (n / 4)) 2 11 = true)) ∧
  (∀ (s : State) (n : T2Slot) (d : CxlDevice),
    s.chip.isOn →
    1 ≤ (s.chip.t2s n).st →
    (s.chip.t2s n).st ≤ 3 →
    Does (.cxlDeviceAdd n d) s (fun c =>
      c = s.chip)) ∧
  (∀ (s : State) (n : T2Slot) (a k : Nat),
    s.chip.isReady →
    (s.chip.t2s n).st = 1 →
    (s.chip.t2s n).sanitize = false →
    a = s.chip.slotRecs n →
    a % 16 = 0 →
    k = (s.chip.t2s n).capMiB * 1048576 / frameSize →
    a + 16 * k ≤ t0Size →
    Does (.cxlOnline n) s (fun c =>
      c.t2s n = { s.chip.t2s n with st := 2, frames := k } ∧ (∀ i < 16 * k, c.byteAt (a + i) = 0#8) ∧ bit (n % 4) (c.rg (ra (pgCxl (n / 4)) 0x20)) = true ∧ ∀ m, m ≠ n.val → c.t2s m = s.chip.t2s m)) ∧
  (∀ (s : State) (n : T2Slot),
    s.chip.isReady →
    (s.chip.t2s n).st ≠ 1 ∨ (s.chip.t2s n).sanitize = true ∨ s.chip.slotRecs n % 16 ≠ 0 ∨ t0Size < s.chip.slotRecs n + 16 * ((s.chip.t2s n).capMiB * 1048576 / frameSize) →
    Does (.cxlOnline n) s (fun c =>
      s.chip.logs c (pgCxl (n / 4)) 0 31)) ∧
  (∀ (s : State) (n : T2Slot),
    s.chip.isReady →
    (s.chip.t2s n).st = 2 →
    Does (.cxlDrain n) s (fun c =>
      c = pump (setT2St n { s.chip.t2s n with st := 3 } s.chip))) ∧
  (∀ (s : State) (n : T2Slot),
    s.chip.isReady →
    (s.chip.t2s n).st = 2 →
    Does (.cxlDrain n) s (fun c =>
      c.t2s n = { s.chip.t2s n with st := 3 } ∧ bit (n % 4) (c.rg (ra (pgCxl (n / 4)) 0x20)) = true ∧ ∀ m, m ≠ n.val → c.t2s m = s.chip.t2s m)) ∧
  (∀ (s : State) (n : T2Slot),
    s.chip.isReady →
    (s.chip.t2s n).st ≠ 2 →
    Does (.cxlDrain n) s (fun c =>
      s.chip.logs c (pgCxl (n / 4)) 0 31)) ∧
  (∀ (s : State) (n : T2Slot),
    s.chip.isReady →
    (((s.chip.t2s n).st = 2 ∨ (s.chip.t2s n).st = 3) ∧ s.chip.slotRefd n = []) ∨ (s.chip.t2s n).st = 1 ∨ (s.chip.t2s n).st = 5 →
    Does (.cxlOffline n) s (fun c =>
      c.t2s n = {} ∧ bit (n % 4) (c.rg (ra (pgCxl (n / 4)) 0x20)) = true ∧ ∀ m, m ≠ n.val → c.t2s m = s.chip.t2s m)) ∧
  (∀ (s : State) (n : T2Slot),
    s.chip.isReady →
    (((s.chip.t2s n).st = 2 ∨ (s.chip.t2s n).st = 3) ∧ s.chip.slotRefd n ≠ []) ∨ (s.chip.t2s n).st = 0 ∨ (s.chip.t2s n).st = 4 →
    Does (.cxlOffline n) s (fun c =>
      s.chip.logs c (pgCxl (n / 4)) 0 31)) ∧
  (∀ (s : State) (n : T2Slot),
    s.chip.isOn →
    1 ≤ (s.chip.t2s n).st →
    (s.chip.t2s n).st ≤ 3 →
    Does (.cxlSurpriseRemoval n) s (fun c =>
      c.t2s n = { s.chip.t2s n with st := 4 } ∧ bit (n % 4) (c.rg (ra (pgCxl (n / 4)) 0x20)) = true ∧ c.hasErr (pgCxl (n / 4)) 2 9 = true ∧ (∀ o i k, fld 29 27 i = n.val → c.frameBad 2 i o k = true) ∧ ∀ m, m ≠ n.val → c.t2s m = s.chip.t2s m)) ∧
  (∀ (s : State) (n : T2Slot),
    s.chip.isOn →
    (s.chip.t2s n).st = 5 →
    Does (.cxlSurpriseRemoval n) s (fun c =>
      c.t2s n = {} ∧ bit (n % 4) (c.rg (ra (pgCxl (n / 4)) 0x20)) = true ∧ ∀ m, m ≠ n.val → c.t2s m = s.chip.t2s m)) ∧
  (∀ (s : State) (n : T2Slot),
    s.chip.isOn →
    (s.chip.t2s n).st = 0 ∨ (s.chip.t2s n).st = 4 →
    Does (.cxlSurpriseRemoval n) s (fun c =>
      c = s.chip)) ∧
  (∀ (s : State) (n : T2Slot),
    s.chip.isOn →
    (s.chip.t2s n).st = 1 →
    (s.chip.t2s n).sanitize = true →
    Does (.sanitizeComplete n true) s (fun c =>
      c.t2s n = { s.chip.t2s n with sanitize := false } ∧ c.flash.sanList = s.chip.flash.sanList.filter (· != (s.chip.t2s n).dev.serial) ∧ ∀ m, m ≠ n.val → c.t2s m = s.chip.t2s m)) ∧
  (∀ (s : State) (n : T2Slot),
    s.chip.isOn →
    (s.chip.t2s n).st = 1 →
    (s.chip.t2s n).sanitize = true →
    Does (.sanitizeComplete n false) s (fun c =>
      s.chip.logs c (pgCxl (n / 4)) 0 12)) ∧
  (∀ (s : State) (n : T2Slot) (k : Bool),
    s.chip.isOn →
    (s.chip.t2s n).st ≠ 1 ∨ (s.chip.t2s n).sanitize = false →
    Does (.sanitizeComplete n k) s (fun c =>
      c = s.chip))


/-! ## Control link -/

/-- HELLO answers HELLO_ACK with the nonce and the key, T over both nonces and the key, and a report; NONE becomes
HANDSHAKE, an old session stays (R356). KEYX that verifies takes S and epoch 0 and opens the session with SESSION_OK
as its first frame; one that fails sends SESSION_END with a CE (R356, R357). RESUME takes its epoch in both directions
(R359). REKEY takes the next epoch, from 255 it ends the session; SESSION_END and a RESUME that does not come end it,
S discarded, queues and LAST_TAG kept (R358, R359). A frame that the state does not accept is counted with a CE; a
protected frame whose tag or counter fails ends the session with a UC (R355, R358). Reports are asked for and sent
(R371). The link's training takes a lost lock or a loss to SUSPENDED (R352, R359). -/
def Obligations.Sessions : Prop :=
  (∀ (s : State) (f : Frame) (nm ek : List Byte),
    s.chip.takes 1 f →
    f.body.length = 32 →
    Does (.hello f nm ek) s (fun c =>
      c.mbp.nc = f.body ∧ c.mbp.nm = nm ∧ c.mbp.trans = sha256 (f.body ++ nm ++ ek) ∧ c.mbp.handshake = true ∧ c.mbp.sess = (if s.chip.mbp.sess = 0 then 1 else s.chip.mbp.sess) ∧ c.mbp.secret = s.chip.mbp.secret ∧
      c.sec.reportSeq = (s.chip.sec.reportSeq + 1) % 2 ^ 32 ∧ (∃ g ∈ c.mbp.out.drop s.chip.mbp.out.length, g.type = 2 ∧ g.prot = false ∧ g.body.take (nm ++ ek).length = nm ++ ek))) ∧
  (∀ (s : State) (f : Frame) (nm ek : List Byte),
    s.chip.takes 1 f →
    f.body.length ≠ 32 →
    s.chip.mbp.txCtr < 2 ^ 46 →
    Does (.hello f nm ek) s (fun c =>
      c.hasErr pgMbp 0 10 = true ∧ c.mbp.sess = s.chip.mbp.sess ∧ c.mbp.handshake = s.chip.mbp.handshake ∧ c.mbp.nc = s.chip.mbp.nc)) ∧
  (∀ (s : State) (f : Frame) (ss : List Byte),
    s.chip.takes 3 f →
    f.body.length = 8944 →
    s.chip.mbp.handshake = true →
    s.chip.lc = 0 ∨ s.chip.flash.cnKey ≠ [] →
    s.chip.mbp.sess ≠ 4 →
    Does (.keyx f true ss) s (fun c =>
      c.mbp.secret = hkdfExtract (s.chip.mbp.nc ++ s.chip.mbp.nm) ss ∧ c.mbp.rxEpoch = 0 ∧ c.mbp.rxCtr = 0 ∧ c.mbp.handshake = false ∧ c.mbp.resumeBy = none ∧
      (c.mbp.out[s.chip.mbp.out.length]?).map (fun g => (g.type, g.prot, g.epoch, g.ctr)) = some (4, true, 0, 0) ∧ c.mbp.queues = s.chip.mbp.queues ∧ c.mbp.lastTag = s.chip.mbp.lastTag ∧
      (s.chip.mbp.events = [] → s.chip.mbp.mem = [] → (∀ q < 33, (s.chip.queue q).on = false) → c.mbp.sess = 2 ∧ c.mbp.epoch = 0))) ∧
  (∀ (s : State) (f : Frame) (ok : Bool) (ss : List Byte),
    s.chip.takes 3 f →
    f.body.length = 8944 →
    s.chip.mbp.handshake = false ∨ ok = false ∨ (s.chip.lc ≠ 0 ∧ s.chip.flash.cnKey = []) →
    s.chip.mbp.txCtr < 2 ^ 46 →
    Does (.keyx f ok ss) s (fun c =>
      c.mbp.sess = (if s.chip.mbp.sess = 1 then 0 else s.chip.mbp.sess) ∧ c.mbp.handshake = false ∧ c.mbp.secret = s.chip.mbp.secret ∧ c.hasErr pgMbp 0 8 = true ∧ s.chip.sends c 7)) ∧
  (∀ (s : State) (f : Frame),
    s.chip.takes 5 f →
    leNat f.body < 2 ^ 32 →
    Does (.resumeFrame f) s (fun c =>
      c.mbp.rxEpoch = f.epoch ∧ c.mbp.rxCtr = 1 ∧ c.mbp.resumeBy = none ∧ c.mbp.secret = s.chip.mbp.secret ∧ (c.mbp.out[s.chip.mbp.out.length]?).map (fun g => (g.type, g.prot, g.epoch, g.ctr)) = some (4, true, f.epoch, 0) ∧
      (s.chip.mbp.events = [] → s.chip.mbp.mem = [] → (∀ q < 33, (s.chip.queue q).on = false) → c.mbp.sess = 2 ∧ c.mbp.epoch = f.epoch))) ∧
  (∀ (s : State) (f : Frame),
    s.chip.takes 6 f →
    s.chip.mbp.rxEpoch ≠ 255 →
    Does (.rekey f) s (fun c =>
      c = { s.chip with mbp := { s.chip.mbp.took 6 with rxEpoch := s.chip.mbp.rxEpoch + 1, rxCtr := 0 } })) ∧
  (∀ (s : State) (f : Frame),
    s.chip.takes 6 f →
    s.chip.mbp.rxEpoch = 255 →
    Does (.rekey f) s (fun c =>
      c.mbp.secret = [] ∧ (s.chip.mbp.sess = 2 → c.mbp.sess = 0) ∧ c.mbp.queues = s.chip.mbp.queues ∧ c.mbp.lastTag = s.chip.mbp.lastTag)) ∧
  (∀ (s : State) (f : Frame),
    s.chip.takes 7 f →
    Does (.sessionEnd f) s (fun c =>
      c.mbp.secret = [] ∧ (s.chip.mbp.sess = 2 → c.mbp.sess = 0) ∧ c.mbp.queues = s.chip.mbp.queues ∧ c.mbp.lastTag = s.chip.mbp.lastTag)) ∧
  (∀ (s : State) (b : Nat),
    s.chip.phase ≠ .off →
    s.chip.mbp.resumeBy = some b →
    s.chip.mbp.sess = 3 →
    b ≤ s.chip.beat →
    Does (.resumeTimeout) s (fun c =>
      c.mbp.sess = 0 ∧ c.mbp.secret = [] ∧ c.mbp.queues = s.chip.mbp.queues ∧ c.mbp.lastTag = s.chip.mbp.lastTag)) ∧
  (∀ (s : State) (b : Nat),
    s.chip.phase ≠ .off →
    s.chip.mbp.resumeBy = some b →
    s.chip.mbp.sess ≠ 3 ∨ s.chip.beat < b →
    Does (.resumeTimeout) s (fun c =>
      c = s.chip)) ∧
  (∀ (s : State) (f : Frame),
    s.chip.isOn →
    f.type = 0x10 →
    s.chip.mbp.sess = 2 →
    f.prot = true →
    f.authentic = false ∨ inOrder s.chip f = false →
    Does (.regRead f) s (fun c =>
      c.mbp.sess = 0 ∧ c.mbp.secret = [] ∧ c.hasErr pgMbp 2 8 = true ∧ c.rg (ra pgMbp 0x110) = sat32 (s.chip.rg (ra pgMbp 0x110)) 1 ∧ c.mem = s.chip.mem ∧ c.mbp.queues = s.chip.mbp.queues ∧ s.chip.sends c 7)) ∧
  (∀ (s : State) (f : Frame),
    s.chip.isOn →
    f.type = 0x10 →
    s.chip.mbp.sess ≠ 2 ∨ f.prot = false →
    Does (.regRead f) s (fun c =>
      c.hasErr pgMbp 0 8 = true ∧ c.rg (ra pgMbp 0x110) = sat32 (s.chip.rg (ra pgMbp 0x110)) 1 ∧ c.mem = s.chip.mem ∧ c.mbp.queues = s.chip.mbp.queues ∧ c.mbp.lastTag = s.chip.mbp.lastTag)) ∧
  (∀ (s : State) (f : Frame),
    s.chip.takes 0x38 f →
    f.body.length = 32 →
    s.chip.mbp.attest.length < 4 →
    Does (.attestReq f) s (fun c =>
      c = { s.chip with mbp := { s.chip.mbp.took 0x38 with attest := s.chip.mbp.attest ++ [(f.tag, f.body)] } })) ∧
  (∀ (s : State) (f : Frame),
    4 ≤ s.chip.mbp.attest.length →
    Does (.attestReq f) s (fun c =>
      c = s.chip)) ∧
  (∀ (s : State) (tag : Nat) (b : List Byte) (t : List (Nat × List Byte)),
    s.chip.phase ≠ .off →
    s.chip.mbp.attest = (tag, b) :: t →
    s.chip.keyed = true →
    Does (.attestReportReady) s (fun c =>
      c.mbp.attest = t ∧ c.sec.reportSeq = (s.chip.sec.reportSeq + 1) % 2 ^ 32 ∧ (∃ g ∈ c.mbp.out.drop s.chip.mbp.out.length, g.type = 0x39 ∧ g.tag = tag))) ∧
  (∀ (s : State),
    s.chip.phase ≠ .off →
    s.chip.mbp.attest = [] ∨ s.chip.keyed = false →
    Does (.attestReportReady) s (fun c =>
      c = s.chip)) ∧
  (∀ (s : State) (l : BitVec 2),
    s.chip.phase ≠ .off →
    (s.chip.link 6).st ≠ 1 →
    (s.chip.link 6).st ≠ 6 →
    Does (.mboipTrainTryEnd l) s (fun c =>
      c = s.chip)) ∧
  (∀ (s : State),
    s.chip.phase ≠ .off →
    (s.chip.link 6).st = 1 →
    Does (.mboipTrainTryEnd 3#2) s (fun c =>
      (c.link 6).st = 4 ∧ (c.link 6).credits = [64, 0, 512, 0, 256, 0] ∧ (c.link 6).locked = 3 ∧ bit 0 (c.rg (ra pgMbp 0x20)) = true)) ∧
  (∀ (s : State),
    s.chip.phase ≠ .off →
    (s.chip.link 6).st = 6 →
    s.chip.mbp.txCtr < 2 ^ 46 →
    Does (.mboipTrainTryEnd 3#2) s (fun c =>
      (c.link 6).st = 4 ∧ (c.link 6).replay = (s.chip.link 6).replay ∧ (c.link 6).txSeq = (s.chip.link 6).txSeq ∧ (c.link 6).resend = (s.chip.link 6).replay ∧
      c.mbp.sess = (if s.chip.mbp.sess = 2 ∧ (s.chip.link 6).locked ≠ 3 then 3 else s.chip.mbp.sess))) ∧
  (∀ (s : State) (l : BitVec 2),
    s.chip.phase ≠ .off →
    (s.chip.link 6).st = 1 ∨ (s.chip.link 6).st = 6 →
    l ≠ 3#2 →
    (s.chip.link 6).tries < trainTries 6 s.chip →
    Does (.mboipTrainTryEnd l) s (fun c =>
      c = s.chip.setLink 6 { s.chip.link 6 with locked := l.toNat, tries := (s.chip.link 6).tries + 1 })) ∧
  (∀ (s : State) (l : BitVec 2),
    s.chip.phase ≠ .off →
    (s.chip.link 6).st = 1 ∨ (s.chip.link 6).st = 6 →
    l ≠ 3#2 →
    trainTries 6 s.chip ≤ (s.chip.link 6).tries →
    s.chip.mbp.txCtr < 2 ^ 46 →
    Does (.mboipTrainTryEnd l) s (fun c =>
      (c.link 6).st = 7 ∧ (c.link 6).replay = [] ∧ (c.link 6).queue = [] ∧ c.mbp.sess = (if s.chip.mbp.sess = 2 then 3 else s.chip.mbp.sess) ∧ c.mbp.retryAt = s.chip.beat + 62500 ∧ c.mbp.secret = s.chip.mbp.secret)) ∧
  (∀ (s : State),
    s.chip.phase ≠ .off →
    (s.chip.link 6).st = 7 →
    s.chip.mbp.retryAt ≤ s.chip.beat →
    Does (.mboipRetryTimer) s (fun c =>
      (c.link 6).st = 1)) ∧
  (∀ (s : State),
    s.chip.phase ≠ .off →
    (s.chip.link 6).st ≠ 7 →
    Does (.mboipRetryTimer) s (fun c =>
      c = s.chip)) ∧
  (∀ (s : State) (f : Frame) (nm ek : List Byte),
    f.type = 1 →
    s.chip.listens 1 →
    f.broken = true ∨ f.prot = true →
    Does (.hello f nm ek) s (fun c =>
      c = malformed f (s.chip.took 1))) ∧
  (∀ (s : State) (f : Frame) (nm ek : List Byte),
    s.chip.phase ≠ .off →
    f.type ≠ 1 ∨ takesFrames s.chip 1 = false →
    Does (.hello f nm ek) s (fun c =>
      c = s.chip)) ∧
  (∀ (s : State) (f : Frame) (a : Bool) (ss : List Byte),
    f.type = 3 →
    s.chip.listens 3 →
    f.broken = true ∨ f.prot = true →
    Does (.keyx f a ss) s (fun c =>
      c = malformed f (s.chip.took 3))) ∧
  (∀ (s : State) (f : Frame) (a : Bool) (ss : List Byte),
    s.chip.phase ≠ .off →
    f.type ≠ 3 ∨ takesFrames s.chip 3 = false →
    Does (.keyx f a ss) s (fun c =>
      c = s.chip)) ∧
  (∀ (s : State) (f : Frame),
    f.type = 5 →
    s.chip.listens 5 →
    accepts s.chip f = false →
    Does (.resumeFrame f) s (fun c =>
      c = ce pgMbp 8 f.type f.tag (countAuth s.chip.heard))) ∧
  (∀ (s : State) (f : Frame),
    f.type = 5 →
    s.chip.listens 5 →
    accepts s.chip f = true →
    f.authentic = false ∨ inOrder s.chip f = false →
    Does (.resumeFrame f) s (fun c =>
      c = refuseAuth f s.chip.heard)) ∧
  (∀ (s : State) (f : Frame),
    f.type = 5 →
    s.chip.listens 5 →
    accepts s.chip f = true →
    f.authentic = true →
    inOrder s.chip f = true →
    f.broken = true →
    Does (.resumeFrame f) s (fun c =>
      c = malformed f (s.chip.took 5))) ∧
  (∀ (s : State) (f : Frame),
    s.chip.phase ≠ .off →
    f.type ≠ 5 ∨ takesFrames s.chip 5 = false →
    Does (.resumeFrame f) s (fun c =>
      c = s.chip)) ∧
  (∀ (s : State) (f : Frame),
    f.type = 6 →
    s.chip.listens 6 →
    accepts s.chip f = false →
    Does (.rekey f) s (fun c =>
      c = ce pgMbp 8 f.type f.tag (countAuth s.chip.heard))) ∧
  (∀ (s : State) (f : Frame),
    f.type = 6 →
    s.chip.listens 6 →
    accepts s.chip f = true →
    f.authentic = false ∨ inOrder s.chip f = false →
    Does (.rekey f) s (fun c =>
      c = refuseAuth f s.chip.heard)) ∧
  (∀ (s : State) (f : Frame),
    f.type = 6 →
    s.chip.listens 6 →
    accepts s.chip f = true →
    f.authentic = true →
    inOrder s.chip f = true →
    f.broken = true →
    Does (.rekey f) s (fun c =>
      c = malformed f (s.chip.took 6))) ∧
  (∀ (s : State) (f : Frame),
    s.chip.phase ≠ .off →
    f.type ≠ 6 ∨ takesFrames s.chip 6 = false →
    Does (.rekey f) s (fun c =>
      c = s.chip)) ∧
  (∀ (s : State) (f : Frame),
    f.type = 7 →
    s.chip.listens 7 →
    accepts s.chip f = false →
    Does (.sessionEnd f) s (fun c =>
      c = ce pgMbp 8 f.type f.tag (countAuth s.chip.heard))) ∧
  (∀ (s : State) (f : Frame),
    f.type = 7 →
    s.chip.listens 7 →
    accepts s.chip f = true →
    f.authentic = false ∨ inOrder s.chip f = false →
    Does (.sessionEnd f) s (fun c =>
      c = refuseAuth f s.chip.heard)) ∧
  (∀ (s : State) (f : Frame),
    f.type = 7 →
    s.chip.listens 7 →
    accepts s.chip f = true →
    f.authentic = true →
    inOrder s.chip f = true →
    f.broken = true →
    Does (.sessionEnd f) s (fun c =>
      c = malformed f (s.chip.took 7))) ∧
  (∀ (s : State) (f : Frame),
    s.chip.phase ≠ .off →
    f.type ≠ 7 ∨ takesFrames s.chip 7 = false →
    Does (.sessionEnd f) s (fun c =>
      c = s.chip)) ∧
  (∀ (s : State) (f : Frame),
    f.type = 0x38 →
    s.chip.listens 0x38 →
    accepts s.chip f = false →
    s.chip.mbp.attest.length < 4 →
    Does (.attestReq f) s (fun c =>
      c = ce pgMbp 8 f.type f.tag (countAuth s.chip.heard))) ∧
  (∀ (s : State) (f : Frame),
    f.type = 0x38 →
    s.chip.listens 0x38 →
    accepts s.chip f = true →
    f.authentic = false ∨ inOrder s.chip f = false →
    s.chip.mbp.attest.length < 4 →
    Does (.attestReq f) s (fun c =>
      c = refuseAuth f s.chip.heard)) ∧
  (∀ (s : State) (f : Frame),
    f.type = 0x38 →
    s.chip.listens 0x38 →
    accepts s.chip f = true →
    f.authentic = true →
    inOrder s.chip f = true →
    f.broken = true →
    s.chip.mbp.attest.length < 4 →
    Does (.attestReq f) s (fun c =>
      c = malformed f (s.chip.took 0x38))) ∧
  (∀ (s : State) (f : Frame),
    s.chip.phase ≠ .off →
    f.type ≠ 0x38 ∨ takesFrames s.chip 0x38 = false →
    s.chip.mbp.attest.length < 4 →
    Does (.attestReq f) s (fun c =>
      c = s.chip)) ∧
  (∀ (s : State) (f : Frame) (nm ek : List Byte),
    f.type = 1 →
    s.chip.phase = .retired →
    Does (.hello f nm ek) s (fun c =>
      c = sendEnd s.chip.heard)) ∧
  (∀ (s : State) (f : Frame) (nm ek : List Byte),
    s.chip.takes 1 f →
    f.body.length = 32 →
    Does (.hello f nm ek) s (fun c =>
      let r := signReport (sha256 (f.body ++ nm ++ ek)) (s.chip.took 1); let k := updMbp (fun m => { m with nc := f.body, nm := nm, trans := sha256 (f.body ++ nm ++ ek), handshake := true }) r.1;
      c = sendFrame { type := 2, prot := false, body := nm ++ ek ++ r.2 } (if k.mbp.sess = 0 then sessState 1 k else k))) ∧
  (∀ (s : State) (f : Frame) (nm ek : List Byte),
    s.chip.takes 1 f →
    f.body.length ≠ 32 →
    Does (.hello f nm ek) s (fun c =>
      c = malformed f (s.chip.took 1))) ∧
  (∀ (s : State) (f : Frame) (a : Bool) (ss : List Byte),
    s.chip.takes 3 f →
    f.body.length ≠ 8944 →
    Does (.keyx f a ss) s (fun c =>
      c = malformed f (s.chip.took 3))) ∧
  (∀ (s : State) (f : Frame) (a : Bool) (ss : List Byte),
    s.chip.takes 3 f →
    f.body.length = 8944 →
    s.chip.mbp.handshake = false ∨ a = false ∨ (s.chip.lc ≠ 0 ∧ s.chip.flash.cnKey = []) →
    Does (.keyx f a ss) s (fun c =>
      let k := sendEnd (updMbp (fun m => { m with handshake := false }) (s.chip.took 3)); c = ce pgMbp 8 3 0 (if s.chip.mbp.sess = 1 then sessState 0 k else k))) ∧
  (∀ (s : State) (f : Frame) (ss : List Byte),
    s.chip.takes 3 f →
    f.body.length = 8944 →
    s.chip.mbp.handshake = true →
    s.chip.lc = 0 ∨ s.chip.flash.cnKey ≠ [] →
    Does (.keyx f true ss) s (fun c =>
      let k := updMbp (fun m => { m with secret := hkdfExtract (m.nc ++ m.nm) ss, epoch := 0, rxEpoch := 0, rxCtr := 0, txCtr := 0, handshake := false, resumeBy := none, attest := [], keyedLdr := s.chip.mbp.sess == 4 }) (if s.chip.mbp.sess = 2 then stopTimers (s.chip.took 3) else s.chip.took 3);
      c = (if s.chip.mbp.sess = 4 then sendFrame { type := 4, body := stateBlock k } k else openSession k))) ∧
  (∀ (s : State) (f : Frame),
    s.chip.takes 5 f →
    leNat f.body < 2 ^ 32 →
    Does (.resumeFrame f) s (fun c =>
      c = openSession (ackEvents (leNat (f.body.take 4)) (updMbp (fun m => { m with epoch := f.epoch, rxEpoch := f.epoch, rxCtr := 1, txCtr := 0, resumeBy := none }) s.chip.heard)))) ∧
  (∀ (s : State) (f : Frame),
    s.chip.takes 5 f →
    2 ^ 32 ≤ leNat f.body →
    Does (.resumeFrame f) s (fun c =>
      c = malformed f s.chip.heard)) ∧
  (∀ (s : State) (f : Frame),
    s.chip.takes 6 f →
    s.chip.mbp.rxEpoch = 255 →
    Does (.rekey f) s (fun c =>
      c = endSession (s.chip.took 6))) ∧
  (∀ (s : State) (f : Frame),
    s.chip.takes 7 f →
    Does (.sessionEnd f) s (fun c =>
      c = endSession (s.chip.took 7))) ∧
  (∀ (s : State) (b : Nat),
    s.chip.phase ≠ .off →
    s.chip.mbp.resumeBy = some b →
    s.chip.mbp.sess = 3 →
    b ≤ s.chip.beat →
    Does (.resumeTimeout) s (fun c =>
      c = endSession s.chip)) ∧
  (∀ (s : State),
    s.chip.phase ≠ .off →
    s.chip.mbp.resumeBy = none →
    Does (.resumeTimeout) s (fun c =>
      c = s.chip)) ∧
  (∀ (s : State) (f : Frame),
    s.chip.takes 0x38 f →
    f.body.length ≠ 32 →
    s.chip.mbp.attest.length < 4 →
    Does (.attestReq f) s (fun c =>
      c = malformed f (s.chip.took 0x38))) ∧
  (∀ (s : State) (tag : Nat) (b : List Byte) (t : List (Nat × List Byte)),
    s.chip.phase ≠ .off →
    s.chip.mbp.attest = (tag, b) :: t →
    s.chip.keyed = true →
    Does (.attestReportReady) s (fun c =>
      let r := signReport b s.chip; c = sendFrame { type := 0x39, tag := tag, body := r.2 } (updMbp (fun m => { m with attest := t }) r.1))) ∧
  (∀ (s : State),
    s.chip.phase ≠ .off →
    (s.chip.link 6).st = 1 →
    Does (.mboipTrainTryEnd 3#2) s (fun c =>
      c = portState 6 4 (s.chip.setLink 6 { s.chip.link 6 with locked := 3, tries := 0, credits := [64, 0, 512, 0, 256, 0] }))) ∧
  (∀ (s : State),
    s.chip.phase ≠ .off →
    (s.chip.link 6).st = 6 →
    Does (.mboipTrainTryEnd 3#2) s (fun c =>
      let k := replayNow 6 (portState 6 4 (s.chip.setLink 6 { s.chip.link 6 with locked := 3, tries := 0, ackAt := s.chip.beat })); c = (if (s.chip.link 6).locked = 3 then k else suspend k))) ∧
  (∀ (s : State) (l : BitVec 2),
    s.chip.phase ≠ .off →
    (s.chip.link 6).st = 1 ∨ (s.chip.link 6).st = 6 →
    l ≠ 3#2 →
    trainTries 6 s.chip ≤ (s.chip.link 6).tries →
    Does (.mboipTrainTryEnd l) s (fun c =>
      c = mboipDown (s.chip.setLink 6 { s.chip.link 6 with locked := l.toNat, tries := (s.chip.link 6).tries + 1 }))) ∧
  (∀ (s : State),
    s.chip.phase ≠ .off →
    (s.chip.link 6).st = 7 →
    s.chip.mbp.retryAt ≤ s.chip.beat ∨ s.chip.phase = .loader ∨ s.chip.phase = .retired →
    Does (.mboipRetryTimer) s (fun c =>
      c = mboipTrain 15 s.chip)) ∧
  (∀ (s : State),
    s.chip.phase ≠ .off →
    (s.chip.link 6).st = 7 →
    s.chip.beat < s.chip.mbp.retryAt →
    s.chip.isOn →
    Does (.mboipRetryTimer) s (fun c =>
      c = s.chip))

/-- A write-like request whose TAG is not later than LAST_TAG is answered OK and does nothing (R360). REG_READ and
REG_WRITE read and write COUNT registers in ascending order and stop at a failing word; DMA_RD and DMA_WR read and
write the address space; each is answered by one RESP with the status of R361 (R362). SQ_WRITE puts its entries in at
SQ_TAIL or is answered FULL or DISABLED; CQ_ACK takes a CQ_HEAD within the written entries and no other (R364, R367).
EVENT_ACK releases events (R369). A RESP completes its MEM_RD or MEM_WR; without one the request is sent again once,
then fails (R363). Q_CTL.ENABLE checks and clears both rings; RESET empties them (R364). -/
def Obligations.LinkRequests : Prop :=
  (∀ (s : State) (f : Frame),
    s.chip.takes 0x11 f →
    serialLt s.chip.mbp.lastTag f.tag = false →
    Does (.regWriteFrame f) s (fun c =>
      s.chip.answers c f 0 [] ∧ c.mem = s.chip.mem ∧ c.cores = s.chip.cores ∧ c.slots = s.chip.slots ∧ c.mbp.queues = s.chip.mbp.queues ∧ c.mbp.lastTag = s.chip.mbp.lastTag)) ∧
  (∀ (s : State) (f : Frame),
    s.chip.takes 0x19 f →
    serialLt s.chip.mbp.lastTag f.tag = false →
    Does (.dmaWr f) s (fun c =>
      s.chip.answers c f 0 [] ∧ c.mem = s.chip.mem ∧ c.cores = s.chip.cores ∧ c.slots = s.chip.slots ∧ c.mbp.queues = s.chip.mbp.queues ∧ c.mbp.lastTag = s.chip.mbp.lastTag)) ∧
  (∀ (s : State) (f : Frame),
    s.chip.takes 0x20 f →
    serialLt s.chip.mbp.lastTag f.tag = false →
    Does (.sqWrite f) s (fun c =>
      s.chip.answers c f 0 [] ∧ c.mem = s.chip.mem ∧ c.cores = s.chip.cores ∧ c.slots = s.chip.slots ∧ c.mbp.queues = s.chip.mbp.queues ∧ c.mbp.lastTag = s.chip.mbp.lastTag)) ∧
  (∀ (s : State) (f : Frame),
    s.chip.takes 0x22 f →
    serialLt s.chip.mbp.lastTag f.tag = false →
    Does (.cqAck f) s (fun c =>
      s.chip.answers c f 0 [] ∧ c.mem = s.chip.mem ∧ c.cores = s.chip.cores ∧ c.slots = s.chip.slots ∧ c.mbp.queues = s.chip.mbp.queues ∧ c.mbp.lastTag = s.chip.mbp.lastTag)) ∧
  (∀ (s : State) (f : Frame) (n : Nat),
    s.chip.takes 0x10 f →
    n = leNat f.body →
    1 ≤ n →
    n ≤ 64 →
    f.addr < windowSize →
    Does (.regRead f) s (fun c =>
      let r := readWords n f.addr (s.chip.req 0x10 f); c = respond f (if r.2.2 = true then 0 else 1) (leBytes 4 r.2.1.length ++ r.2.1.flatMap (leBytes 4)) r.1)) ∧
  (∀ (s : State) (f : Frame),
    s.chip.takes 0x10 f →
    leNat f.body = 0 ∨ 64 < leNat f.body ∨ windowSize ≤ f.addr →
    s.chip.mbp.txCtr < 2 ^ 46 →
    Does (.regRead f) s (fun c =>
      s.chip.answers c f 2 [] ∧ c.hasErr pgMbp 0 10 = true ∧ c.mem = s.chip.mem)) ∧
  (∀ (s : State) (f : Frame) (n : Nat),
    s.chip.takes 0x11 f →
    serialLt s.chip.mbp.lastTag f.tag = true →
    n = at_ f.body 0 4 →
    1 ≤ n →
    n ≤ 64 →
    f.body.length = 4 + 4 * n →
    f.addr < windowSize →
    Does (.regWriteFrame f) s (fun c =>
      let r := writeRegs (leWords n (f.body.drop 4)) f.addr (s.chip.req 0x11 f); c = respond f (if r.2.2 = true then 0 else 1) (leBytes 4 r.2.1) r.1)) ∧
  (∀ (s : State) (f : Frame) (n : Nat),
    s.chip.takes 0x18 f →
    n = leNat f.body →
    1 ≤ n →
    n ≤ 65536 →
    f.addr + n ≤ t0Size →
    s.chip.pwr.gddr = true →
    s.chip.pwr.st ≠ 5 →
    s.chip.poisonIn f.addr n = none →
    Does (.dmaRd f) s (fun c =>
      s.chip.answers c f 0 (s.chip.bytes f.addr n) ∧ c.mem = s.chip.mem)) ∧
  (∀ (s : State) (f : Frame) (n : Nat),
    s.chip.takes 0x18 f →
    n = leNat f.body →
    1 ≤ n →
    n ≤ 65536 →
    f.addr + n ≤ t0Size →
    s.chip.pwr.gddr = true →
    s.chip.pwr.st ≠ 5 →
    (s.chip.poisonIn f.addr n).isSome = true →
    s.chip.mbp.txCtr < 2 ^ 46 →
    Does (.dmaRd f) s (fun c =>
      s.chip.answers c f 4 (List.replicate n 0#8) ∧ c.mem = s.chip.mem ∧ c.hasErr pgMtm 1 10 = true)) ∧
  (∀ (s : State) (f : Frame),
    s.chip.takes 0x18 f →
    1 ≤ leNat f.body →
    leNat f.body ≤ 65536 →
    f.addr < 0x800000000000 →
    s.chip.pwr.gddr = false →
    Does (.dmaRd f) s (fun c =>
      s.chip.answers c f 1 [] ∧ c.mem = s.chip.mem)) ∧
  (∀ (s : State) (f : Frame) (n : Nat),
    s.chip.takes 0x19 f →
    serialLt s.chip.mbp.lastTag f.tag = true →
    n = f.body.length →
    1 ≤ n →
    n ≤ 65536 →
    f.addr + n ≤ t0Size →
    s.chip.pwr.gddr = true →
    s.chip.pwr.st ≠ 5 →
    f.addr % payloadSize + n ≤ payloadSize →
    ∀ i < n, s.chip.guarded (f.addr + i) = false →
    Does (.dmaWr f) s (fun c =>
      s.chip.answers c f 0 [] ∧ c.mem = (s.chip.store f.addr f.body).mem ∧ c.mbp.lastTag = f.tag)) ∧
  (∀ (s : State) (f : Frame) (n : Nat),
    s.chip.takes 0x19 f →
    serialLt s.chip.mbp.lastTag f.tag = true →
    n = f.body.length →
    1 ≤ n →
    n ≤ 65536 →
    f.addr + n ≤ t0Size →
    s.chip.pwr.gddr = true →
    s.chip.pwr.st ≠ 5 →
    f.addr % payloadSize + n ≤ payloadSize →
    ∃ i < n, s.chip.guarded (f.addr + i) = true →
    s.chip.mbp.txCtr < 2 ^ 46 →
    Does (.dmaWr f) s (fun c =>
      s.chip.answers c f 3 [] ∧ c.mem = s.chip.mem ∧ c.hasErr pgMtm 2 8 = true)) ∧
  (∀ (s : State) (f : Frame) (n : Nat),
    s.chip.takes 0x20 f →
    serialLt s.chip.mbp.lastTag f.tag = true →
    f.qid ≤ 32 →
    f.body.length = 64 * n →
    1 ≤ n →
    n ≤ 1023 →
    (s.chip.queue f.qid).on = true →
    ((s.chip.queue f.qid).sqTail + 65536 - (s.chip.queue f.qid).sqHead) % 65536 + n ≤ s.chip.sqSize f.qid →
    Does (.sqWrite f) s (fun c =>
      s.chip.answers c f 0 [] ∧ c.queue f.qid = { s.chip.queue f.qid with sqTail := ((s.chip.queue f.qid).sqTail + n) % 65536 } ∧
      (∀ i < n, ∀ j < 64, c.byteAt (s.chip.sqBase f.qid + 64 * (((s.chip.queue f.qid).sqTail + i) % s.chip.sqSize f.qid) + j) = f.body.getD (64 * i + j) 0#8))) ∧
  (∀ (s : State) (f : Frame) (n : Nat),
    s.chip.takes 0x20 f →
    serialLt s.chip.mbp.lastTag f.tag = true →
    f.qid ≤ 32 →
    f.body.length = 64 * n →
    1 ≤ n →
    n ≤ 1023 →
    (s.chip.queue f.qid).on = true →
    s.chip.sqSize f.qid < ((s.chip.queue f.qid).sqTail + 65536 - (s.chip.queue f.qid).sqHead) % 65536 + n →
    Does (.sqWrite f) s (fun c =>
      s.chip.answers c f 5 [] ∧ c.mbp.queues = s.chip.mbp.queues ∧ c.mem = s.chip.mem)) ∧
  (∀ (s : State) (f : Frame) (n : Nat),
    s.chip.takes 0x20 f →
    serialLt s.chip.mbp.lastTag f.tag = true →
    f.qid ≤ 32 →
    f.body.length = 64 * n →
    1 ≤ n →
    n ≤ 1023 →
    (s.chip.queue f.qid).on = false →
    Does (.sqWrite f) s (fun c =>
      s.chip.answers c f 6 [] ∧ c.mbp.queues = s.chip.mbp.queues ∧ c.mem = s.chip.mem)) ∧
  (∀ (s : State) (f : Frame) (h : Nat),
    s.chip.takes 0x22 f →
    serialLt s.chip.mbp.lastTag f.tag = true →
    f.qid ≤ 32 →
    h = leNat f.body →
    h < 65536 →
    (s.chip.queue f.qid).on = true →
    (s.chip.queue f.qid).started = [] →
    (s.chip.queue f.qid).resetting = false →
    (h + 65536 - (s.chip.queue f.qid).cqHead) % 65536 ≤ (s.chip.queue f.qid).used →
    Does (.cqAck f) s (fun c =>
      s.chip.answers c f 0 [] ∧ c.queue f.qid = { s.chip.queue f.qid with cqHead := h } ∧ c.mem = s.chip.mem)) ∧
  (∀ (s : State) (f : Frame) (h : Nat),
    s.chip.takes 0x22 f →
    serialLt s.chip.mbp.lastTag f.tag = true →
    f.qid ≤ 32 →
    h = leNat f.body →
    h < 65536 →
    (s.chip.queue f.qid).on = true →
    (s.chip.queue f.qid).used < (h + 65536 - (s.chip.queue f.qid).cqHead) % 65536 →
    s.chip.mbp.txCtr < 2 ^ 46 →
    Does (.cqAck f) s (fun c =>
      s.chip.answers c f 2 [] ∧ c.mbp.queues = s.chip.mbp.queues ∧ c.hasErr pgMbp 0 10 = true)) ∧
  (∀ (s : State) (f : Frame),
    s.chip.takes 0x29 f →
    leNat f.body < 2 ^ 32 →
    Does (.eventAck f) s (fun c =>
      c = { s.chip with mbp := { s.chip.mbp.took 0x29 with events := s.chip.mbp.events.filter (fun e => !serialLt e.eseq ((leNat f.body + 1) % 2 ^ 32)) } })) ∧
  (∀ (s : State) (f : Frame),
    s.chip.takes 0x40 f →
    s.chip.mbp.mem.find? (fun r => r.tag == f.tag) = none →
    Does (.resp f) s (fun c =>
      c = { s.chip with mbp := s.chip.mbp.took 0x40 })) ∧
  (∀ (s : State) (f : Frame) (r : MemReq),
    s.chip.takes 0x40 f →
    s.chip.mbp.mem.find? (fun r => r.tag == f.tag) = some r →
    f.status ≠ 0 →
    waitingEntry s.chip r = none →
    Does (.resp f) s (fun c =>
      c = { s.chip with mbp := { s.chip.mbp.took 0x40 with mem := s.chip.mbp.mem.filter (fun x => x.tag != r.tag) } })) ∧
  (∀ (s : State) (f : Frame) (r : MemReq) (e : Entry),
    s.chip.takes 0x40 f →
    s.chip.mbp.mem.find? (fun r => r.tag == f.tag) = some r →
    f.status ≠ 0 →
    (s.chip.queue r.q).started = [e] →
    e.req = some r.tag →
    (s.chip.queue r.q).resetting = false →
    (s.chip.queue r.q).used < s.chip.cqSize r.q →
    wd e.words 1 < 2 ^ 32 →
    Does (.resp f) s (fun c =>
      (c.queue r.q).started = [] ∧ (c.queue r.q).cqTail = ((s.chip.queue r.q).cqTail + 1) % 65536 ∧ c.le (s.chip.cplAt r.q + 4) 4 = wd e.words 1 ∧ fld 15 8 (c.le (s.chip.cplAt r.q) 4) = 5 ∧ (∀ x ∈ c.mbp.mem, x.tag ≠ f.tag))) ∧
  (∀ (s : State) (f : Frame) (r : MemReq) (e : Entry),
    s.chip.takes 0x40 f →
    s.chip.mbp.mem.find? (fun r => r.tag == f.tag) = some r →
    f.status = 0 →
    r.frame.type = 0x1C →
    f.body.length = r.len →
    1 ≤ r.len →
    (s.chip.queue r.q).started = [e] →
    e.req = some r.tag →
    eOp e.words = 2 →
    r.off + r.len = eLen e.words →
    eTas e.words + eLen e.words ≤ t0Size →
    (eTas e.words + r.off) % payloadSize + r.len ≤ payloadSize →
    ∀ i < r.len, s.chip.guarded (eTas e.words + r.off + i) = false →
    s.chip.pwr.gddr = true →
    s.chip.pwr.st ≠ 5 →
    eMask e.words = 0 →
    Does (.resp f) s (fun c =>
      (∀ a, a + 64 ≤ s.chip.cplAt r.q ∨ s.chip.cplAt r.q + 64 ≤ a → c.byteAt a = (s.chip.store (eTas e.words + r.off) f.body).byteAt a) ∧ (∀ x ∈ c.mbp.mem, x.tag ≠ f.tag))) ∧
  (∀ (s : State) (t : Nat),
    s.chip.phase ≠ .off →
    s.chip.mbp.mem.find? (fun r => r.tag == t) = none ∨ s.chip.mbp.sess ≠ 2 →
    Does (.memTimeout t) s (fun c =>
      c = s.chip)) ∧
  (∀ (s : State) (t : Nat) (r : MemReq),
    s.chip.phase ≠ .off →
    s.chip.mbp.sess = 2 →
    s.chip.mbp.mem.find? (fun r => r.tag == t) = some r →
    r.deadline ≤ s.chip.beat →
    r.resent = false →
    Does (.memTimeout t) s (fun c =>
      (∃ x ∈ c.mbp.mem, x.tag = t ∧ x.resent = true ∧ x.deadline = s.chip.beat + memTimeoutBeats s.chip) ∧ s.chip.sends c r.frame.type ∧ c.mbp.queues = s.chip.mbp.queues)) ∧
  (∀ (s : State) (t : Nat) (r : MemReq),
    s.chip.phase ≠ .off →
    s.chip.mbp.sess = 2 →
    s.chip.mbp.mem.find? (fun r => r.tag == t) = some r →
    r.deadline ≤ s.chip.beat →
    r.resent = true →
    Does (.memTimeout t) s (fun c =>
      (∀ x ∈ c.mbp.mem, x.tag ≠ t) ∧ c.hasErr pgMbp 2 12 = true)) ∧
  (∀ (s : State) (q : QueueId),
    s.chip.isOn →
    (s.chip.queue q).on = false →
    ringOk (s.chip.sqBase q) (s.chip.sqSize q) = true →
    ringOk (s.chip.cqBase q) (s.chip.cqSize q) = true →
    Does (.qEnable q true) s (fun c =>
      c.queue q = { on := true } ∧ (∀ i < 64 * s.chip.sqSize q, c.byteAt (s.chip.sqBase q + i) = 0#8) ∧ (∀ i < 64 * s.chip.cqSize q, c.byteAt (s.chip.cqBase q + i) = 0#8) ∧ ∀ k, k ≠ q.val → c.queue k = s.chip.queue k)) ∧
  (∀ (s : State) (q : QueueId),
    s.chip.isOn →
    (s.chip.queue q).on = false →
    ringOk (s.chip.sqBase q) (s.chip.sqSize q) = false ∨ ringOk (s.chip.cqBase q) (s.chip.cqSize q) = false →
    Does (.qEnable q true) s (fun c =>
      s.chip.logs c pgMbp 0 31 ∧ c.mbp.queues = s.chip.mbp.queues)) ∧
  (∀ (s : State) (q : QueueId),
    s.chip.isOn →
    (s.chip.queue q).on = true →
    Does (.qEnable q false) s (fun c =>
      c.queue q = { s.chip.queue q with on := false } ∧ c.mem = s.chip.mem)) ∧
  (∀ (s : State) (q : QueueId),
    s.chip.isOn →
    (s.chip.queue q).on = true →
    (s.chip.queue q).started = [] →
    (s.chip.queue q).tokens = 0 →
    (s.chip.queue q).sqHead = (s.chip.queue q).sqTail →
    (s.chip.queue q).sqTail < 65536 →
    Does (.qReset q) s (fun c =>
      c.queue q = { s.chip.queue q with resetting := false, sqHead := (s.chip.queue q).sqTail, cqHead := (s.chip.queue q).cqTail } ∧ c.mem = s.chip.mem)) ∧
  (∀ (s : State) (q : QueueId),
    s.chip.isOn →
    (s.chip.queue q).on = true →
    (s.chip.queue q).started = [] →
    (s.chip.queue q).tokens = 0 →
    (s.chip.queue q).sqHead < 65535 →
    (s.chip.queue q).sqTail = (s.chip.queue q).sqHead + 1 →
    (s.chip.queue q).used < s.chip.cqSize q →
    Does (.qReset q) s (fun c =>
      (c.queue q).sqHead = (c.queue q).sqTail ∧ (c.queue q).cqHead = (c.queue q).cqTail ∧ (c.queue q).resetting = false ∧ (c.queue q).cqTail = ((s.chip.queue q).cqTail + 1) % 65536 ∧ fld 15 8 (c.le (s.chip.cplAt q) 4) = 9)) ∧
  (∀ (s : State) (f : Frame),
    f.type = 0x10 →
    s.chip.listens 0x10 →
    accepts s.chip f = false →
    Does (.regRead f) s (fun c =>
      c = ce pgMbp 8 f.type f.tag (countAuth s.chip.heard))) ∧
  (∀ (s : State) (f : Frame),
    f.type = 0x10 →
    s.chip.listens 0x10 →
    accepts s.chip f = true →
    f.authentic = false ∨ inOrder s.chip f = false →
    Does (.regRead f) s (fun c =>
      c = refuseAuth f s.chip.heard)) ∧
  (∀ (s : State) (f : Frame),
    f.type = 0x10 →
    s.chip.listens 0x10 →
    accepts s.chip f = true →
    f.authentic = true →
    inOrder s.chip f = true →
    f.broken = true →
    Does (.regRead f) s (fun c =>
      c = malformed f (s.chip.took 0x10))) ∧
  (∀ (s : State) (f : Frame),
    s.chip.phase ≠ .off →
    f.type ≠ 0x10 ∨ takesFrames s.chip 0x10 = false →
    Does (.regRead f) s (fun c =>
      c = s.chip)) ∧
  (∀ (s : State) (f : Frame),
    f.type = 0x11 →
    s.chip.listens 0x11 →
    accepts s.chip f = false →
    Does (.regWriteFrame f) s (fun c =>
      c = ce pgMbp 8 f.type f.tag (countAuth s.chip.heard))) ∧
  (∀ (s : State) (f : Frame),
    f.type = 0x11 →
    s.chip.listens 0x11 →
    accepts s.chip f = true →
    f.authentic = false ∨ inOrder s.chip f = false →
    Does (.regWriteFrame f) s (fun c =>
      c = refuseAuth f s.chip.heard)) ∧
  (∀ (s : State) (f : Frame),
    f.type = 0x11 →
    s.chip.listens 0x11 →
    accepts s.chip f = true →
    f.authentic = true →
    inOrder s.chip f = true →
    f.broken = true →
    Does (.regWriteFrame f) s (fun c =>
      c = malformed f (s.chip.took 0x11))) ∧
  (∀ (s : State) (f : Frame),
    s.chip.phase ≠ .off →
    f.type ≠ 0x11 ∨ takesFrames s.chip 0x11 = false →
    Does (.regWriteFrame f) s (fun c =>
      c = s.chip)) ∧
  (∀ (s : State) (f : Frame),
    f.type = 0x18 →
    s.chip.listens 0x18 →
    accepts s.chip f = false →
    Does (.dmaRd f) s (fun c =>
      c = ce pgMbp 8 f.type f.tag (countAuth s.chip.heard))) ∧
  (∀ (s : State) (f : Frame),
    f.type = 0x18 →
    s.chip.listens 0x18 →
    accepts s.chip f = true →
    f.authentic = false ∨ inOrder s.chip f = false →
    Does (.dmaRd f) s (fun c =>
      c = refuseAuth f s.chip.heard)) ∧
  (∀ (s : State) (f : Frame),
    f.type = 0x18 →
    s.chip.listens 0x18 →
    accepts s.chip f = true →
    f.authentic = true →
    inOrder s.chip f = true →
    f.broken = true →
    Does (.dmaRd f) s (fun c =>
      c = malformed f (s.chip.took 0x18))) ∧
  (∀ (s : State) (f : Frame),
    s.chip.phase ≠ .off →
    f.type ≠ 0x18 ∨ takesFrames s.chip 0x18 = false →
    Does (.dmaRd f) s (fun c =>
      c = s.chip)) ∧
  (∀ (s : State) (f : Frame),
    f.type = 0x19 →
    s.chip.listens 0x19 →
    accepts s.chip f = false →
    Does (.dmaWr f) s (fun c =>
      c = ce pgMbp 8 f.type f.tag (countAuth s.chip.heard))) ∧
  (∀ (s : State) (f : Frame),
    f.type = 0x19 →
    s.chip.listens 0x19 →
    accepts s.chip f = true →
    f.authentic = false ∨ inOrder s.chip f = false →
    Does (.dmaWr f) s (fun c =>
      c = refuseAuth f s.chip.heard)) ∧
  (∀ (s : State) (f : Frame),
    f.type = 0x19 →
    s.chip.listens 0x19 →
    accepts s.chip f = true →
    f.authentic = true →
    inOrder s.chip f = true →
    f.broken = true →
    Does (.dmaWr f) s (fun c =>
      c = malformed f (s.chip.took 0x19))) ∧
  (∀ (s : State) (f : Frame),
    s.chip.phase ≠ .off →
    f.type ≠ 0x19 ∨ takesFrames s.chip 0x19 = false →
    Does (.dmaWr f) s (fun c =>
      c = s.chip)) ∧
  (∀ (s : State) (f : Frame),
    f.type = 0x20 →
    s.chip.listens 0x20 →
    accepts s.chip f = false →
    Does (.sqWrite f) s (fun c =>
      c = ce pgMbp 8 f.type f.tag (countAuth s.chip.heard))) ∧
  (∀ (s : State) (f : Frame),
    f.type = 0x20 →
    s.chip.listens 0x20 →
    accepts s.chip f = true →
    f.authentic = false ∨ inOrder s.chip f = false →
    Does (.sqWrite f) s (fun c =>
      c = refuseAuth f s.chip.heard)) ∧
  (∀ (s : State) (f : Frame),
    f.type = 0x20 →
    s.chip.listens 0x20 →
    accepts s.chip f = true →
    f.authentic = true →
    inOrder s.chip f = true →
    f.broken = true →
    Does (.sqWrite f) s (fun c =>
      c = malformed f (s.chip.took 0x20))) ∧
  (∀ (s : State) (f : Frame),
    s.chip.phase ≠ .off →
    f.type ≠ 0x20 ∨ takesFrames s.chip 0x20 = false →
    Does (.sqWrite f) s (fun c =>
      c = s.chip)) ∧
  (∀ (s : State) (f : Frame),
    f.type = 0x22 →
    s.chip.listens 0x22 →
    accepts s.chip f = false →
    Does (.cqAck f) s (fun c =>
      c = ce pgMbp 8 f.type f.tag (countAuth s.chip.heard))) ∧
  (∀ (s : State) (f : Frame),
    f.type = 0x22 →
    s.chip.listens 0x22 →
    accepts s.chip f = true →
    f.authentic = false ∨ inOrder s.chip f = false →
    Does (.cqAck f) s (fun c =>
      c = refuseAuth f s.chip.heard)) ∧
  (∀ (s : State) (f : Frame),
    f.type = 0x22 →
    s.chip.listens 0x22 →
    accepts s.chip f = true →
    f.authentic = true →
    inOrder s.chip f = true →
    f.broken = true →
    Does (.cqAck f) s (fun c =>
      c = malformed f (s.chip.took 0x22))) ∧
  (∀ (s : State) (f : Frame),
    s.chip.phase ≠ .off →
    f.type ≠ 0x22 ∨ takesFrames s.chip 0x22 = false →
    Does (.cqAck f) s (fun c =>
      c = s.chip)) ∧
  (∀ (s : State) (f : Frame),
    f.type = 0x29 →
    s.chip.listens 0x29 →
    accepts s.chip f = false →
    Does (.eventAck f) s (fun c =>
      c = ce pgMbp 8 f.type f.tag (countAuth s.chip.heard))) ∧
  (∀ (s : State) (f : Frame),
    f.type = 0x29 →
    s.chip.listens 0x29 →
    accepts s.chip f = true →
    f.authentic = false ∨ inOrder s.chip f = false →
    Does (.eventAck f) s (fun c =>
      c = refuseAuth f s.chip.heard)) ∧
  (∀ (s : State) (f : Frame),
    f.type = 0x29 →
    s.chip.listens 0x29 →
    accepts s.chip f = true →
    f.authentic = true →
    inOrder s.chip f = true →
    f.broken = true →
    Does (.eventAck f) s (fun c =>
      c = malformed f (s.chip.took 0x29))) ∧
  (∀ (s : State) (f : Frame),
    s.chip.phase ≠ .off →
    f.type ≠ 0x29 ∨ takesFrames s.chip 0x29 = false →
    Does (.eventAck f) s (fun c =>
      c = s.chip)) ∧
  (∀ (s : State) (f : Frame),
    f.type = 0x40 →
    s.chip.listens 0x40 →
    accepts s.chip f = false →
    Does (.resp f) s (fun c =>
      c = ce pgMbp 8 f.type f.tag (countAuth s.chip.heard))) ∧
  (∀ (s : State) (f : Frame),
    f.type = 0x40 →
    s.chip.listens 0x40 →
    accepts s.chip f = true →
    f.authentic = false ∨ inOrder s.chip f = false →
    Does (.resp f) s (fun c =>
      c = refuseAuth f s.chip.heard)) ∧
  (∀ (s : State) (f : Frame),
    f.type = 0x40 →
    s.chip.listens 0x40 →
    accepts s.chip f = true →
    f.authentic = true →
    inOrder s.chip f = true →
    f.broken = true →
    Does (.resp f) s (fun c =>
      c = malformed f (s.chip.took 0x40))) ∧
  (∀ (s : State) (f : Frame),
    s.chip.phase ≠ .off →
    f.type ≠ 0x40 ∨ takesFrames s.chip 0x40 = false →
    Does (.resp f) s (fun c =>
      c = s.chip)) ∧
  (∀ (s : State) (f : Frame),
    s.chip.takes 0x11 f →
    serialLt s.chip.mbp.lastTag f.tag = false →
    Does (.regWriteFrame f) s (fun c =>
      c = respond f 0 [] (s.chip.took 0x11))) ∧
  (∀ (s : State) (f : Frame),
    s.chip.takes 0x19 f →
    serialLt s.chip.mbp.lastTag f.tag = false →
    Does (.dmaWr f) s (fun c =>
      c = respond f 0 [] (s.chip.took 0x19))) ∧
  (∀ (s : State) (f : Frame),
    s.chip.takes 0x20 f →
    serialLt s.chip.mbp.lastTag f.tag = false →
    Does (.sqWrite f) s (fun c =>
      c = respond f 0 [] (s.chip.took 0x20))) ∧
  (∀ (s : State) (f : Frame),
    s.chip.takes 0x22 f →
    serialLt s.chip.mbp.lastTag f.tag = false →
    Does (.cqAck f) s (fun c =>
      c = respond f 0 [] (s.chip.took 0x22))) ∧
  (∀ (s : State) (f : Frame),
    s.chip.takes 0x10 f →
    leNat f.body = 0 ∨ 64 < leNat f.body ∨ windowSize ≤ f.addr →
    Does (.regRead f) s (fun c =>
      c = malformed f (s.chip.req 0x10 f))) ∧
  (∀ (s : State) (f : Frame),
    s.chip.takes 0x11 f →
    serialLt s.chip.mbp.lastTag f.tag = true →
    at_ f.body 0 4 = 0 ∨ 64 < at_ f.body 0 4 ∨ f.body.length ≠ 4 + 4 * at_ f.body 0 4 ∨ windowSize ≤ f.addr →
    Does (.regWriteFrame f) s (fun c =>
      c = malformed f (s.chip.req 0x11 f))) ∧
  (∀ (s : State) (f : Frame),
    s.chip.takes 0x18 f →
    1 ≤ leNat f.body →
    leNat f.body ≤ 65536 →
    f.addr < 2 ^ 48 →
    memClosed s.chip f.addr = false →
    Does (.dmaRd f) s (fun c =>
      c = serveDma f (s.chip.req 0x18 f))) ∧
  (∀ (s : State) (f : Frame),
    s.chip.takes 0x18 f →
    1 ≤ leNat f.body →
    leNat f.body ≤ 65536 →
    f.addr < 2 ^ 48 →
    memClosed s.chip f.addr = true →
    Does (.dmaRd f) s (fun c =>
      c = respond f 1 [] (s.chip.req 0x18 f))) ∧
  (∀ (s : State) (f : Frame),
    s.chip.takes 0x18 f →
    leNat f.body = 0 ∨ 65536 < leNat f.body ∨ 2 ^ 48 ≤ f.addr →
    Does (.dmaRd f) s (fun c =>
      c = malformed f (s.chip.req 0x18 f))) ∧
  (∀ (s : State) (f : Frame),
    s.chip.takes 0x19 f →
    serialLt s.chip.mbp.lastTag f.tag = true →
    1 ≤ f.body.length →
    f.body.length ≤ 65536 →
    f.addr < 2 ^ 48 →
    memClosed s.chip f.addr = false →
    Does (.dmaWr f) s (fun c =>
      let r := tasWrite f.addr f.body (s.chip.req 0x19 f); c = respond f r.2 [] r.1)) ∧
  (∀ (s : State) (f : Frame),
    s.chip.takes 0x19 f →
    serialLt s.chip.mbp.lastTag f.tag = true →
    1 ≤ f.body.length →
    f.body.length ≤ 65536 →
    f.addr < 2 ^ 48 →
    memClosed s.chip f.addr = true →
    Does (.dmaWr f) s (fun c =>
      c = respond f 1 [] (s.chip.req 0x19 f))) ∧
  (∀ (s : State) (f : Frame),
    s.chip.takes 0x19 f →
    serialLt s.chip.mbp.lastTag f.tag = true →
    f.body.length = 0 ∨ 65536 < f.body.length ∨ 2 ^ 48 ≤ f.addr →
    Does (.dmaWr f) s (fun c =>
      c = malformed f (s.chip.req 0x19 f))) ∧
  (∀ (s : State) (f : Frame),
    s.chip.takes 0x20 f →
    serialLt s.chip.mbp.lastTag f.tag = true →
    32 < f.qid ∨ f.body.length % 64 ≠ 0 ∨ f.body.length / 64 = 0 ∨ 1023 < f.body.length / 64 →
    Does (.sqWrite f) s (fun c =>
      c = malformed f (s.chip.req 0x20 f))) ∧
  (∀ (s : State) (f : Frame) (n : Nat),
    s.chip.takes 0x20 f →
    serialLt s.chip.mbp.lastTag f.tag = true →
    f.qid ≤ 32 →
    f.body.length = 64 * n →
    1 ≤ n →
    n ≤ 1023 →
    (s.chip.queue f.qid).on = false →
    Does (.sqWrite f) s (fun c =>
      c = respond f 6 [] (s.chip.req 0x20 f))) ∧
  (∀ (s : State) (f : Frame) (n : Nat),
    s.chip.takes 0x20 f →
    serialLt s.chip.mbp.lastTag f.tag = true →
    f.qid ≤ 32 →
    f.body.length = 64 * n →
    1 ≤ n →
    n ≤ 1023 →
    (s.chip.queue f.qid).on = true →
    s.chip.sqSize f.qid < ((s.chip.queue f.qid).sqTail + 65536 - (s.chip.queue f.qid).sqHead) % 65536 + n →
    Does (.sqWrite f) s (fun c =>
      c = respond f 5 [] (s.chip.req 0x20 f))) ∧
  (∀ (s : State) (f : Frame) (h : Nat),
    s.chip.takes 0x22 f →
    serialLt s.chip.mbp.lastTag f.tag = true →
    f.qid ≤ 32 →
    h = leNat f.body →
    h < 65536 →
    (s.chip.queue f.qid).on = true →
    (h + 65536 - (s.chip.queue f.qid).cqHead) % 65536 ≤ (s.chip.queue f.qid).used →
    Does (.cqAck f) s (fun c =>
      c = respond f 0 [] (flushQueue f.qid ((s.chip.req 0x22 f).setQueue f.qid { s.chip.queue f.qid with cqHead := h })))) ∧
  (∀ (s : State) (f : Frame),
    s.chip.takes 0x22 f →
    serialLt s.chip.mbp.lastTag f.tag = true →
    f.qid ≤ 32 →
    leNat f.body < 65536 →
    (s.chip.queue f.qid).on = false →
    Does (.cqAck f) s (fun c =>
      c = respond f 6 [] (s.chip.req 0x22 f))) ∧
  (∀ (s : State) (f : Frame),
    s.chip.takes 0x22 f →
    serialLt s.chip.mbp.lastTag f.tag = true →
    32 < f.qid ∨ 65536 ≤ leNat f.body ∨ (s.chip.queue f.qid).on = true ∧ (s.chip.queue f.qid).used < (leNat f.body + 65536 - (s.chip.queue f.qid).cqHead) % 65536 →
    Does (.cqAck f) s (fun c =>
      c = malformed f (s.chip.req 0x22 f))) ∧
  (∀ (s : State) (f : Frame),
    s.chip.takes 0x29 f →
    2 ^ 32 ≤ leNat f.body →
    Does (.eventAck f) s (fun c =>
      c = malformed f (s.chip.took 0x29))) ∧
  (∀ (s : State) (f : Frame) (r : MemReq),
    s.chip.takes 0x40 f →
    s.chip.mbp.mem.find? (fun r => r.tag == f.tag) = some r →
    f.status ≠ 0 →
    Does (.resp f) s (fun c =>
      c = memFail r (s.chip.took 0x40))) ∧
  (∀ (s : State) (f : Frame) (r : MemReq),
    s.chip.takes 0x40 f →
    s.chip.mbp.mem.find? (fun r => r.tag == f.tag) = some r →
    f.status = 0 →
    f.body.length ≠ (if r.frame.type = 0x1C then r.len else 0) →
    Does (.resp f) s (fun c =>
      c = malformed f (s.chip.took 0x40))) ∧
  (∀ (s : State) (f : Frame) (r : MemReq),
    s.chip.takes 0x40 f →
    s.chip.mbp.mem.find? (fun r => r.tag == f.tag) = some r →
    f.status = 0 →
    f.body.length = (if r.frame.type = 0x1C then r.len else 0) →
    waitingEntry s.chip r = none →
    Does (.resp f) s (fun c =>
      c = { s.chip with mbp := { s.chip.mbp.took 0x40 with mem := s.chip.mbp.mem.filter (fun x => x.tag != r.tag) } })) ∧
  (∀ (s : State) (f : Frame) (r : MemReq) (i : Nat) (e : Entry),
    s.chip.takes 0x40 f →
    s.chip.mbp.mem.find? (fun r => r.tag == f.tag) = some r →
    f.status = 0 →
    f.body.length = (if r.frame.type = 0x1C then r.len else 0) →
    waitingEntry s.chip r = some (i, e) →
    eOp e.words = 2 →
    memClosed s.chip (eTas e.words) = false →
    Does (.resp f) s (fun c =>
      let k := updEntry r.q i (fun e => { e with req := none }) { s.chip with mbp := { s.chip.mbp.took 0x40 with mem := s.chip.mbp.mem.filter (fun x => x.tag != r.tag) } }; let x := tasWrite (eTas e.words + r.off) f.body k;
      c = (if x.2 = 1 then finish r.q i 2 0 x.1 else if x.2 ≠ 0 then finish r.q i 3 0 x.1 else if r.off + r.len < eLen e.words then pullNext r.q i (r.off + r.len) (eLen e.words) e.words x.1 else finishSignal r.q i e.words x.1))) ∧
  (∀ (s : State) (f : Frame) (r : MemReq) (i : Nat) (e : Entry),
    s.chip.takes 0x40 f →
    s.chip.mbp.mem.find? (fun r => r.tag == f.tag) = some r →
    f.status = 0 →
    f.body.length = (if r.frame.type = 0x1C then r.len else 0) →
    waitingEntry s.chip r = some (i, e) →
    eOp e.words = 2 →
    memClosed s.chip (eTas e.words) = true →
    Does (.resp f) s (fun c =>
      let k := updEntry r.q i (fun e => { e with req := none }) { s.chip with mbp := { s.chip.mbp.took 0x40 with mem := s.chip.mbp.mem.filter (fun x => x.tag != r.tag) } }; c = finish r.q i 2 0 k)) ∧
  (∀ (s : State) (f : Frame) (r : MemReq) (i : Nat) (e : Entry),
    s.chip.takes 0x40 f →
    s.chip.mbp.mem.find? (fun r => r.tag == f.tag) = some r →
    f.status = 0 →
    f.body.length = (if r.frame.type = 0x1C then r.len else 0) →
    waitingEntry s.chip r = some (i, e) →
    eOp e.words = 3 →
    r.off + r.len < entryBytes e.words →
    Does (.resp f) s (fun c =>
      let k := updEntry r.q i (fun e => { e with req := none }) { s.chip with mbp := { s.chip.mbp.took 0x40 with mem := s.chip.mbp.mem.filter (fun x => x.tag != r.tag) } }; c = pushNext r.q i (r.off + r.len) e.words k)) ∧
  (∀ (s : State) (f : Frame) (r : MemReq) (i : Nat) (e : Entry),
    s.chip.takes 0x40 f →
    s.chip.mbp.mem.find? (fun r => r.tag == f.tag) = some r →
    f.status = 0 →
    f.body.length = (if r.frame.type = 0x1C then r.len else 0) →
    waitingEntry s.chip r = some (i, e) →
    eOp e.words = 3 →
    entryBytes e.words ≤ r.off + r.len →
    Does (.resp f) s (fun c =>
      let k := updEntry r.q i (fun e => { e with req := none }) { s.chip with mbp := { s.chip.mbp.took 0x40 with mem := s.chip.mbp.mem.filter (fun x => x.tag != r.tag) } }; c = finishSignal r.q i e.words k)) ∧
  (∀ (s : State) (f : Frame) (r : MemReq) (i : Nat) (e : Entry),
    s.chip.takes 0x40 f →
    s.chip.mbp.mem.find? (fun r => r.tag == f.tag) = some r →
    f.status = 0 →
    f.body.length = (if r.frame.type = 0x1C then r.len else 0) →
    waitingEntry s.chip r = some (i, e) →
    eOp e.words = 0x10 →
    r.off + r.len < entryBytes e.words →
    Does (.resp f) s (fun c =>
      let k := updEntry r.q i (fun e => { e with req := none }) { s.chip with mbp := { s.chip.mbp.took 0x40 with mem := s.chip.mbp.mem.filter (fun x => x.tag != r.tag) } }; c = pullNext r.q i (r.off + r.len) (entryBytes e.words) e.words (updEntry r.q i (fun x => { x with got := e.got ++ f.body }) k))) ∧
  (∀ (s : State) (f : Frame) (r : MemReq) (i : Nat) (e : Entry),
    s.chip.takes 0x40 f →
    s.chip.mbp.mem.find? (fun r => r.tag == f.tag) = some r →
    f.status = 0 →
    f.body.length = (if r.frame.type = 0x1C then r.len else 0) →
    waitingEntry s.chip r = some (i, e) →
    eOp e.words = 0x10 →
    entryBytes e.words ≤ r.off + r.len →
    Does (.resp f) s (fun c =>
      let k := updEntry r.q i (fun e => { e with req := none }) { s.chip with mbp := { s.chip.mbp.took 0x40 with mem := s.chip.mbp.mem.filter (fun x => x.tag != r.tag) } }; let b := batchWrite (e.got ++ f.body) (eLen e.words) 0 (updEntry r.q i (fun x => { x with got := e.got ++ f.body }) k);
      c = finish r.q i (if b.2.isSome = true then 2 else 0) (b.2.getD 0) b.1)) ∧
  (∀ (s : State) (f : Frame) (r : MemReq) (i : Nat) (e : Entry),
    s.chip.takes 0x40 f →
    s.chip.mbp.mem.find? (fun r => r.tag == f.tag) = some r →
    f.status = 0 →
    f.body.length = (if r.frame.type = 0x1C then r.len else 0) →
    waitingEntry s.chip r = some (i, e) →
    eOp e.words = 0x11 →
    r.off + r.len < entryBytes e.words →
    Does (.resp f) s (fun c =>
      let k := updEntry r.q i (fun e => { e with req := none }) { s.chip with mbp := { s.chip.mbp.took 0x40 with mem := s.chip.mbp.mem.filter (fun x => x.tag != r.tag) } }; c = pullNext r.q i (r.off + r.len) (entryBytes e.words) e.words (updEntry r.q i (fun x => { x with got := e.got ++ f.body }) k))) ∧
  (∀ (s : State) (f : Frame) (r : MemReq) (i : Nat) (e : Entry),
    s.chip.takes 0x40 f →
    s.chip.mbp.mem.find? (fun r => r.tag == f.tag) = some r →
    f.status = 0 →
    f.body.length = (if r.frame.type = 0x1C then r.len else 0) →
    waitingEntry s.chip r = some (i, e) →
    eOp e.words = 0x11 →
    entryBytes e.words ≤ r.off + r.len →
    Does (.resp f) s (fun c =>
      let k := updEntry r.q i (fun e => { e with req := none }) { s.chip with mbp := { s.chip.mbp.took 0x40 with mem := s.chip.mbp.mem.filter (fun x => x.tag != r.tag) } }; c = fillOffer r.q i e.words (e.got ++ f.body) (updEntry r.q i (fun x => { x with got := e.got ++ f.body }) k))) ∧
  (∀ (s : State) (t : Nat) (r : MemReq),
    s.chip.phase ≠ .off →
    s.chip.mbp.mem.find? (fun r => r.tag == t) = some r →
    s.chip.beat < r.deadline →
    Does (.memTimeout t) s (fun c =>
      c = s.chip)) ∧
  (∀ (s : State) (t : Nat) (r : MemReq),
    s.chip.phase ≠ .off →
    s.chip.mbp.sess = 2 →
    s.chip.mbp.mem.find? (fun r => r.tag == t) = some r →
    r.deadline ≤ s.chip.beat →
    r.resent = false →
    Does (.memTimeout t) s (fun c =>
      c = sendFrame r.frame (updMbp (fun m => { m with mem := m.mem.map (fun x => if x.tag = t then { x with resent := true, deadline := s.chip.beat + memTimeoutBeats s.chip } else x) }) s.chip))) ∧
  (∀ (s : State) (t : Nat) (r : MemReq),
    s.chip.phase ≠ .off →
    s.chip.mbp.sess = 2 →
    s.chip.mbp.mem.find? (fun r => r.tag == t) = some r →
    r.deadline ≤ s.chip.beat →
    r.resent = true →
    Does (.memTimeout t) s (fun c =>
      c = ucOp pgMbp 12 t r.q 0 (memFail r s.chip))) ∧
  (∀ (s : State) (q : QueueId) (b : Bool),
    s.chip.isOn →
    (s.chip.queue q).on = b →
    Does (.qEnable q b) s (fun c =>
      c = s.chip)) ∧
  (∀ (s : State) (q : QueueId),
    s.chip.isOn →
    (s.chip.queue q).on = false →
    ringOk (s.chip.sqBase q) (s.chip.sqSize q) = true →
    ringOk (s.chip.cqBase q) (s.chip.cqSize q) = true →
    Does (.qEnable q true) s (fun c =>
      c = (((s.chip.zero (s.chip.sqBase q) (64 * s.chip.sqSize q)).zero (s.chip.cqBase q) (64 * s.chip.cqSize q)).setQueue q { on := true }).setRg (qKey q 0x128) 1)) ∧
  (∀ (s : State) (q : QueueId),
    s.chip.isOn →
    (s.chip.queue q).on = true →
    Does (.qEnable q false) s (fun c =>
      c = (s.chip.setQueue q { s.chip.queue q with on := false }).setRg (qKey q 0x128) 0)) ∧
  (∀ (s : State) (q : QueueId),
    s.chip.isOn →
    (s.chip.queue q).on = false →
    Does (.qReset q) s (fun c =>
      c = s.chip)) ∧
  (∀ (s : State) (q : QueueId),
    s.chip.isOn →
    (s.chip.queue q).on = true →
    Does (.qReset q) s (fun c =>
      let x := s.chip.queue q; c = flushQueue q (s.chip.setQueue q { x with started := x.started ++ (List.range ((x.sqTail + 65536 - x.sqHead) % 65536)).map (fun i => { words := sqEntry s.chip q (x.sqHead + i), status := some 9 }), sqHead := x.sqTail, resetting := true })))

/-- A command executes its queue's next entry when that is next among the queues and its OP is the command's;
otherwise it does nothing (R366). NOP completes OK; an OP the queue does not accept completes MALFORMED (R365). SIGNAL
adds AMOUNT to the flag of each cluster named, one that would pass 0xFFFF keeps its flag and completes FLAG_OVF.
WRITE_WORDS stores its words; PULL, REG_BATCH and REFETCH_FILL read control-node memory, PUSH writes it, with LEN and
index checks; SLOT_CMD answers with the slot's refusal or state. The completion entry carries PHASE, STATUS, CID, BEAT
and DETAIL (R367). -/
def Obligations.QueueEntries : Prop :=
  (∀ (s : State) (q : QueueId) (w : List Nat),
    s.chip.nextEntry q 1 w →
    bit 9 (wd w 0) = false →
    Does (.nop q) s (fun c =>
      s.chip.completes c q w 0 0)) ∧
  (∀ (s : State) (q : QueueId) (w : List Nat),
    s.chip.nextEntry q 1 w →
    bit 9 (wd w 0) = true →
    Does (.nop q) s (fun c =>
      c.queue q = { s.chip.queue q with sqHead := ((s.chip.queue q).sqHead + 1) % 65536 } ∧ c.mem = s.chip.mem)) ∧
  (∀ (s : State) (q : QueueId) (w : List Nat),
    s.chip.isReady →
    s.chip.pwr.st = 1 →
    nextQueue s.chip = some q.val →
    (s.chip.queue q).started = [] →
    w = sqEntry s.chip q (s.chip.queue q).sqHead →
    acceptsOp q (eOp w) = false →
    Does (.nop q) s (fun c =>
      s.chip.completes c q w 1 0)) ∧
  (∀ (s : State) (q : QueueId),
    s.chip.isReady →
    s.chip.pwr.st ≠ 1 ∨ nextQueue s.chip ≠ some q.val →
    Does (.nop q) s (fun c =>
      c = s.chip)) ∧
  (∀ (s : State) (q : QueueId) (w : List Nat) (k : Nat),
    s.chip.nextEntry q 4 w →
    bit 9 (wd w 0) = false →
    k < 24 →
    eMask w = 2 ^ k →
    1 ≤ eAmount w →
    s.chip.rg (flagReg k (eFlag w)) + eAmount w ≤ 0xFFFF →
    Does (.queueSignal q) s (fun c =>
      s.chip.completes c q w 0 0 ∧ c.rg (flagReg k (eFlag w)) = s.chip.rg (flagReg k (eFlag w)) + eAmount w ∧ (∀ j < 24, j ≠ k → c.rg (flagReg j (eFlag w)) = s.chip.rg (flagReg j (eFlag w))))) ∧
  (∀ (s : State) (q : QueueId) (w : List Nat) (k : Nat),
    s.chip.nextEntry q 4 w →
    k < 24 →
    eMask w = 2 ^ k →
    1 ≤ eAmount w →
    0xFFFF < s.chip.rg (flagReg k (eFlag w)) + eAmount w →
    Does (.queueSignal q) s (fun c =>
      s.chip.completes c q w 7 0 ∧ c.rg (flagReg k (eFlag w)) = s.chip.rg (flagReg k (eFlag w)))) ∧
  (∀ (s : State) (q : QueueId) (w : List Nat),
    s.chip.nextEntry q 4 w →
    eMask w ≠ 0 →
    eAmount w = 0 →
    Does (.queueSignal q) s (fun c =>
      s.chip.completes c q w 1 0 ∧ c.rg (flagReg 0 (eFlag w)) = s.chip.rg (flagReg 0 (eFlag w)))) ∧
  (∀ (s : State) (q : QueueId) (w : List Nat) (n : Nat),
    s.chip.nextEntry q 5 w →
    bit 9 (wd w 0) = false →
    n = 4 * eLen w →
    eLen w ≤ 7 →
    1 ≤ n →
    eTas w + n ≤ t0Size →
    s.chip.pwr.gddr = true →
    eMask w = 0 →
    eTas w % payloadSize + n ≤ payloadSize →
    ∀ i < n, s.chip.guarded (eTas w + i) = false →
    Does (.writeWords q) s (fun c =>
      s.chip.completes c q w 0 0 ∧ (∀ a, a < s.chip.cplAt q ∨ s.chip.cplAt q + 64 ≤ a → c.byteAt a = (s.chip.store (eTas w) ((List.range (eLen w)).flatMap (fun k => leBytes 4 (wd w (9 + k))))).byteAt a))) ∧
  (∀ (s : State) (q : QueueId) (w : List Nat),
    s.chip.nextEntry q 5 w →
    eLen w = 0 ∨ 7 < eLen w →
    Does (.writeWords q) s (fun c =>
      s.chip.completes c q w 1 0)) ∧
  (∀ (s : State) (q : QueueId) (w : List Nat) (n : Nat),
    s.chip.nextEntry q 2 w →
    n = eLen w →
    n ≤ 0x1000000 →
    1 ≤ n →
    eTas w + n ≤ t0Size →
    s.chip.pwr.gddr = true →
    signalOk w = true →
    Does (.pull q) s (fun c =>
      s.chip.requests c q w 0x1C (min 65536 n) (leBytes 4 (min 65536 n)))) ∧
  (∀ (s : State) (q : QueueId) (w : List Nat),
    s.chip.nextEntry q 2 w →
    eLen w = 0 ∨ 0x1000000 < eLen w ∨ signalOk w = false →
    Does (.pull q) s (fun c =>
      s.chip.completes c q w 1 0)) ∧
  (∀ (s : State) (q : QueueId) (w : List Nat) (n : Nat),
    s.chip.nextEntry q 3 w →
    n = eLen w →
    n ≤ 65536 →
    1 ≤ n →
    eTas w + n ≤ t0Size →
    s.chip.pwr.gddr = true →
    signalOk w = true →
    s.chip.poisonIn (eTas w) n = none →
    Does (.push q) s (fun c =>
      s.chip.requests c q w 0x1D n (s.chip.bytes (eTas w) n))) ∧
  (∀ (s : State) (q : QueueId) (w : List Nat),
    s.chip.nextEntry q 3 w →
    1 ≤ eLen w →
    eLen w ≤ 0x1000000 →
    signalOk w = true →
    eTas w < 0x800000000000 →
    s.chip.extentOk (eTas w) (eLen w) = true →
    s.chip.pwr.gddr = false →
    Does (.push q) s (fun c =>
      s.chip.completes c q w 2 0)) ∧
  (∀ (s : State) (q : QueueId) (w : List Nat),
    s.chip.nextEntry q 6 w →
    fld 3 0 (wd w 6) = 0 ∨ 5 < fld 3 0 (wd w 6) →
    Does (.queueSlotCmd q) s (fun c =>
      s.chip.completes c q w 1 0 ∧ c.slots = s.chip.slots)) ∧
  (∀ (s : State) (q : QueueId) (w : List Nat),
    s.chip.nextEntry q 6 w →
    fld 3 0 (wd w 6) = 4 →
    (s.chip.slot q).st ≠ 3 →
    Does (.queueSlotCmd q) s (fun c =>
      s.chip.completes c q w 6 1 ∧ c.hasErr (pgSlot q) 0 12 = true ∧ (c.slot q).st = (s.chip.slot q).st)) ∧
  (∀ (s : State) (q : QueueId) (w : List Nat),
    s.chip.nextEntry q 6 w →
    bit 9 (wd w 0) = false →
    fld 3 0 (wd w 6) = 4 →
    (s.chip.slot q).st = 3 →
    (s.chip.slot q).short = 0 →
    (s.chip.slot q).cause ≠ 2 →
    (s.chip.slot q).desc < 4096 →
    Does (.queueSlotCmd q) s (fun c =>
      s.chip.completes c q w 0 (c.slot q).sts ∧ (c.slot q).st = 2)) ∧
  (∀ (s : State) (q : QueueId) (w : List Nat),
    s.chip.nextEntry q 0x10 w →
    1 ≤ eLen w →
    eLen w ≤ 4096 →
    Does (.regBatch q) s (fun c =>
      s.chip.requests c q w 0x1C (8 * eLen w) (leBytes 4 (8 * eLen w)))) ∧
  (∀ (s : State) (q : QueueId) (w : List Nat),
    s.chip.nextEntry q 0x10 w →
    eLen w = 0 ∨ 4096 < eLen w →
    Does (.regBatch q) s (fun c =>
      s.chip.completes c q w 1 0)) ∧
  (∀ (s : State) (q : QueueId) (w : List Nat),
    s.chip.nextEntry q 0x11 w →
    eLen w < s.chip.granules →
    Does (.refetchFill q) s (fun c =>
      s.chip.requests c q w 0x1C 65536 (leBytes 4 65536))) ∧
  (∀ (s : State) (q : QueueId) (w : List Nat),
    s.chip.nextEntry q 0x11 w →
    s.chip.granules ≤ eLen w →
    Does (.refetchFill q) s (fun c =>
      s.chip.completes c q w 2 0)) ∧
  (∀ (s : State) (q : QueueId) (w : List Nat),
    s.chip.isReady →
    s.chip.pwr.st = 1 →
    nextQueue s.chip = some q.val →
    w = sqEntry s.chip q (s.chip.queue q).sqHead →
    acceptsOp q (eOp w) = true →
    eOp w ≠ 1 →
    Does (.nop q) s (fun c =>
      c = s.chip)) ∧
  (∀ (s : State) (q : QueueId) (w : List Nat),
    s.chip.isReady →
    s.chip.pwr.st = 1 →
    nextQueue s.chip = some q.val →
    w = sqEntry s.chip q (s.chip.queue q).sqHead →
    acceptsOp q (eOp w) = true →
    eOp w ≠ 2 →
    Does (.pull q) s (fun c =>
      c = s.chip)) ∧
  (∀ (s : State) (q : QueueId) (w : List Nat),
    s.chip.isReady →
    s.chip.pwr.st = 1 →
    nextQueue s.chip = some q.val →
    w = sqEntry s.chip q (s.chip.queue q).sqHead →
    acceptsOp q (eOp w) = true →
    eOp w ≠ 3 →
    Does (.push q) s (fun c =>
      c = s.chip)) ∧
  (∀ (s : State) (q : QueueId) (w : List Nat),
    s.chip.isReady →
    s.chip.pwr.st = 1 →
    nextQueue s.chip = some q.val →
    w = sqEntry s.chip q (s.chip.queue q).sqHead →
    acceptsOp q (eOp w) = true →
    eOp w ≠ 4 →
    Does (.queueSignal q) s (fun c =>
      c = s.chip)) ∧
  (∀ (s : State) (q : QueueId) (w : List Nat),
    s.chip.isReady →
    s.chip.pwr.st = 1 →
    nextQueue s.chip = some q.val →
    w = sqEntry s.chip q (s.chip.queue q).sqHead →
    acceptsOp q (eOp w) = true →
    eOp w ≠ 5 →
    Does (.writeWords q) s (fun c =>
      c = s.chip)) ∧
  (∀ (s : State) (q : QueueId) (w : List Nat),
    s.chip.isReady →
    s.chip.pwr.st = 1 →
    nextQueue s.chip = some q.val →
    w = sqEntry s.chip q (s.chip.queue q).sqHead →
    acceptsOp q (eOp w) = true →
    eOp w ≠ 6 →
    Does (.queueSlotCmd q) s (fun c =>
      c = s.chip)) ∧
  (∀ (s : State) (q : QueueId) (w : List Nat),
    s.chip.isReady →
    s.chip.pwr.st = 1 →
    nextQueue s.chip = some q.val →
    w = sqEntry s.chip q (s.chip.queue q).sqHead →
    acceptsOp q (eOp w) = true →
    eOp w ≠ 0x10 →
    Does (.regBatch q) s (fun c =>
      c = s.chip)) ∧
  (∀ (s : State) (q : QueueId) (w : List Nat),
    s.chip.isReady →
    s.chip.pwr.st = 1 →
    nextQueue s.chip = some q.val →
    w = sqEntry s.chip q (s.chip.queue q).sqHead →
    acceptsOp q (eOp w) = true →
    eOp w ≠ 0x11 →
    Does (.refetchFill q) s (fun c =>
      c = s.chip)) ∧
  (∀ (s : State) (q : QueueId) (w : List Nat),
    s.chip.isReady →
    s.chip.pwr.st = 1 →
    nextQueue s.chip = some q.val →
    w = sqEntry s.chip q (s.chip.queue q).sqHead →
    acceptsOp q (eOp w) = false →
    Does (.pull q) s (fun c =>
      c = s.chip)) ∧
  (∀ (s : State) (q : QueueId) (w : List Nat),
    s.chip.isReady →
    s.chip.pwr.st = 1 →
    nextQueue s.chip = some q.val →
    w = sqEntry s.chip q (s.chip.queue q).sqHead →
    acceptsOp q (eOp w) = false →
    Does (.push q) s (fun c =>
      c = s.chip)) ∧
  (∀ (s : State) (q : QueueId) (w : List Nat),
    s.chip.isReady →
    s.chip.pwr.st = 1 →
    nextQueue s.chip = some q.val →
    w = sqEntry s.chip q (s.chip.queue q).sqHead →
    acceptsOp q (eOp w) = false →
    Does (.queueSignal q) s (fun c =>
      c = s.chip)) ∧
  (∀ (s : State) (q : QueueId) (w : List Nat),
    s.chip.isReady →
    s.chip.pwr.st = 1 →
    nextQueue s.chip = some q.val →
    w = sqEntry s.chip q (s.chip.queue q).sqHead →
    acceptsOp q (eOp w) = false →
    Does (.writeWords q) s (fun c =>
      c = s.chip)) ∧
  (∀ (s : State) (q : QueueId) (w : List Nat),
    s.chip.isReady →
    s.chip.pwr.st = 1 →
    nextQueue s.chip = some q.val →
    w = sqEntry s.chip q (s.chip.queue q).sqHead →
    acceptsOp q (eOp w) = false →
    Does (.queueSlotCmd q) s (fun c =>
      c = s.chip)) ∧
  (∀ (s : State) (q : QueueId) (w : List Nat),
    s.chip.isReady →
    s.chip.pwr.st = 1 →
    nextQueue s.chip = some q.val →
    w = sqEntry s.chip q (s.chip.queue q).sqHead →
    acceptsOp q (eOp w) = false →
    Does (.regBatch q) s (fun c =>
      c = s.chip)) ∧
  (∀ (s : State) (q : QueueId) (w : List Nat),
    s.chip.isReady →
    s.chip.pwr.st = 1 →
    nextQueue s.chip = some q.val →
    w = sqEntry s.chip q (s.chip.queue q).sqHead →
    acceptsOp q (eOp w) = false →
    Does (.refetchFill q) s (fun c =>
      c = s.chip)) ∧
  (∀ (s : State) (q : QueueId),
    s.chip.isReady →
    s.chip.pwr.st ≠ 1 ∨ nextQueue s.chip ≠ some q.val →
    Does (.pull q) s (fun c =>
      c = s.chip)) ∧
  (∀ (s : State) (q : QueueId),
    s.chip.isReady →
    s.chip.pwr.st ≠ 1 ∨ nextQueue s.chip ≠ some q.val →
    Does (.push q) s (fun c =>
      c = s.chip)) ∧
  (∀ (s : State) (q : QueueId),
    s.chip.isReady →
    s.chip.pwr.st ≠ 1 ∨ nextQueue s.chip ≠ some q.val →
    Does (.queueSignal q) s (fun c =>
      c = s.chip)) ∧
  (∀ (s : State) (q : QueueId),
    s.chip.isReady →
    s.chip.pwr.st ≠ 1 ∨ nextQueue s.chip ≠ some q.val →
    Does (.writeWords q) s (fun c =>
      c = s.chip)) ∧
  (∀ (s : State) (q : QueueId),
    s.chip.isReady →
    s.chip.pwr.st ≠ 1 ∨ nextQueue s.chip ≠ some q.val →
    Does (.queueSlotCmd q) s (fun c =>
      c = s.chip)) ∧
  (∀ (s : State) (q : QueueId),
    s.chip.isReady →
    s.chip.pwr.st ≠ 1 ∨ nextQueue s.chip ≠ some q.val →
    Does (.regBatch q) s (fun c =>
      c = s.chip)) ∧
  (∀ (s : State) (q : QueueId),
    s.chip.isReady →
    s.chip.pwr.st ≠ 1 ∨ nextQueue s.chip ≠ some q.val →
    Does (.refetchFill q) s (fun c =>
      c = s.chip)) ∧
  (∀ (s : State) (q : QueueId) (w : List Nat),
    s.chip.turnOf q 1 w →
    Does (.nop q) s (fun c =>
      let r := takeEntry q s.chip; c = finish q r.2 0 0 r.1)) ∧
  (∀ (s : State) (q : QueueId) (w : List Nat),
    s.chip.isReady →
    s.chip.pwr.st = 1 →
    nextQueue s.chip = some q.val →
    w = sqEntry s.chip q (s.chip.queue q).sqHead →
    acceptsOp q (eOp w) = false →
    Does (.nop q) s (fun c =>
      let r := takeEntry q s.chip; c = finish q r.2 1 0 r.1)) ∧
  (∀ (s : State) (q : QueueId) (w : List Nat),
    s.chip.turnOf q 4 w →
    signalOk w = true →
    Does (.queueSignal q) s (fun c =>
      let r := takeEntry q s.chip; c = finishSignal q r.2 w r.1)) ∧
  (∀ (s : State) (q : QueueId) (w : List Nat),
    s.chip.turnOf q 4 w →
    signalOk w = false →
    Does (.queueSignal q) s (fun c =>
      let r := takeEntry q s.chip; c = finish q r.2 1 0 r.1)) ∧
  (∀ (s : State) (q : QueueId) (w : List Nat),
    s.chip.turnOf q 5 w →
    eLen w = 0 ∨ 7 < eLen w ∨ signalOk w = false →
    Does (.writeWords q) s (fun c =>
      let r := takeEntry q s.chip; c = finish q r.2 1 0 r.1)) ∧
  (∀ (s : State) (q : QueueId) (w : List Nat),
    s.chip.turnOf q 5 w →
    1 ≤ eLen w →
    eLen w ≤ 7 →
    signalOk w = true →
    rangeOpen s.chip w (4 * eLen w) = false →
    Does (.writeWords q) s (fun c =>
      let r := takeEntry q s.chip; c = badRange q r.2 w (4 * eLen w) r.1)) ∧
  (∀ (s : State) (q : QueueId) (w : List Nat),
    s.chip.turnOf q 5 w →
    1 ≤ eLen w →
    eLen w ≤ 7 →
    signalOk w = true →
    rangeOpen s.chip w (4 * eLen w) = true →
    Does (.writeWords q) s (fun c =>
      let r := takeEntry q s.chip; let x := tasWrite (eTas w) ((List.range (eLen w)).flatMap (fun k => leBytes 4 (wd w (9 + k)))) r.1;
      c = (if x.2 = 0 then finishSignal q r.2 w x.1 else finish q r.2 (if x.2 = 1 then 2 else 3) 0 x.1))) ∧
  (∀ (s : State) (q : QueueId) (w : List Nat),
    s.chip.turnOf q 2 w →
    eLen w = 0 ∨ 0x1000000 < eLen w ∨ signalOk w = false →
    Does (.pull q) s (fun c =>
      let r := takeEntry q s.chip; c = finish q r.2 1 0 r.1)) ∧
  (∀ (s : State) (q : QueueId) (w : List Nat),
    s.chip.turnOf q 2 w →
    1 ≤ eLen w →
    eLen w ≤ 0x1000000 →
    signalOk w = true →
    rangeOpen s.chip w (eLen w) = false →
    Does (.pull q) s (fun c =>
      let r := takeEntry q s.chip; c = badRange q r.2 w (eLen w) r.1)) ∧
  (∀ (s : State) (q : QueueId) (w : List Nat),
    s.chip.turnOf q 2 w →
    1 ≤ eLen w →
    eLen w ≤ 0x1000000 →
    signalOk w = true →
    rangeOpen s.chip w (eLen w) = true →
    Does (.pull q) s (fun c =>
      let r := takeEntry q s.chip; c = pullNext q r.2 0 (eLen w) w r.1)) ∧
  (∀ (s : State) (q : QueueId) (w : List Nat),
    s.chip.turnOf q 3 w →
    eLen w = 0 ∨ 0x1000000 < eLen w ∨ signalOk w = false →
    Does (.push q) s (fun c =>
      let r := takeEntry q s.chip; c = finish q r.2 1 0 r.1)) ∧
  (∀ (s : State) (q : QueueId) (w : List Nat),
    s.chip.turnOf q 3 w →
    1 ≤ eLen w →
    eLen w ≤ 0x1000000 →
    signalOk w = true →
    rangeOpen s.chip w (eLen w) = false →
    Does (.push q) s (fun c =>
      let r := takeEntry q s.chip; c = badRange q r.2 w (eLen w) r.1)) ∧
  (∀ (s : State) (q : QueueId) (w : List Nat),
    s.chip.turnOf q 3 w →
    1 ≤ eLen w →
    eLen w ≤ 0x1000000 →
    signalOk w = true →
    rangeOpen s.chip w (eLen w) = true →
    Does (.push q) s (fun c =>
      let r := takeEntry q s.chip; c = pushNext q r.2 0 w r.1)) ∧
  (∀ (s : State) (q : QueueId) (w : List Nat),
    s.chip.turnOf q 6 w →
    fld 3 0 (wd w 6) = 0 ∨ 5 < fld 3 0 (wd w 6) →
    Does (.queueSlotCmd q) s (fun c =>
      let r := takeEntry q s.chip; c = finish q r.2 1 0 r.1)) ∧
  (∀ (s : State) (q : QueueId) (w : List Nat),
    s.chip.turnOf q 6 w →
    1 ≤ fld 3 0 (wd w 6) →
    fld 3 0 (wd w 6) ≤ 5 →
    Does (.queueSlotCmd q) s (fun c =>
      let r := takeEntry q s.chip; c = slotOutcome q r.2 (slotCmd q (wd w 6) (r.1.setSlot q { r.1.slot q with refuse := 0 })))) ∧
  (∀ (s : State) (q : QueueId) (w : List Nat),
    s.chip.turnOf q 0x10 w →
    eLen w = 0 ∨ 4096 < eLen w →
    Does (.regBatch q) s (fun c =>
      let r := takeEntry q s.chip; c = finish q r.2 1 0 r.1)) ∧
  (∀ (s : State) (q : QueueId) (w : List Nat),
    s.chip.turnOf q 0x10 w →
    1 ≤ eLen w →
    eLen w ≤ 4096 →
    Does (.regBatch q) s (fun c =>
      let r := takeEntry q s.chip; c = pullNext q r.2 0 (8 * eLen w) w r.1)) ∧
  (∀ (s : State) (q : QueueId) (w : List Nat),
    s.chip.turnOf q 0x11 w →
    s.chip.granules ≤ eLen w →
    Does (.refetchFill q) s (fun c =>
      let r := takeEntry q s.chip; c = finish q r.2 2 0 r.1)) ∧
  (∀ (s : State) (q : QueueId) (w : List Nat),
    s.chip.turnOf q 0x11 w →
    eLen w < s.chip.granules →
    Does (.refetchFill q) s (fun c =>
      let r := takeEntry q s.chip; c = pullNext q r.2 0 frameSize w r.1))


/-! ## Power, trust, telemetry -/

/-- A new voltage band logs a CE (R375). Power-fail and OV enter HOLDUP, shed compute and log an FE, without a reset
of their own (R380, R428); a returning input resets the module, an exhausted bank turns it off (R383). A trigger
raises the level to what it requires, OC_AVG further by steps; a cleared trigger lowers it to what the others require,
the last one waits for its return (R379). TRIP sheds compute and logs an FE; its reset waits for the junction to cool;
an FE's reset waits for HOLD (R379, R428). RST_CMD, the watchdog and an FE reset the module (R384). -/
def Obligations.PowerLevels : Prop :=
  (∀ (s : State) (v : Nat),
    s.chip.isOn →
    band v ≠ 0 →
    band v ≠ band s.chip.pwr.vin →
    Does (.vinBandEntry v) s (fun c =>
      c.pwr.vin = v ∧ c.hasErr pgPwr 0 8 = true ∧ c.mem = s.chip.mem ∧ c.cores = s.chip.cores)) ∧
  (∀ (s : State) (v : Nat),
    s.chip.isOn →
    band v = 0 ∨ band v = band s.chip.pwr.vin →
    Does (.vinBandEntry v) s (fun c =>
      c = { s.chip with pwr := { s.chip.pwr with vin := v } })) ∧
  (∀ (s : State) (v : Nat),
    s.chip.phase ≠ .off →
    s.chip.pwr.st ≠ 5 →
    v < 5800 →
    Does (.powerFail v) s (fun c =>
      c.pwr.st = 5 ∧ c.pwr.feAt = s.chip.pwr.feAt ∧ c.hasErr pgPwr 3 9 = true ∧ c.pwr.shed = true ∧ (∀ n < 192, (c.core n).st = 0) ∧ c.mem = s.chip.mem ∧ c.slots = s.chip.slots)) ∧
  (∀ (s : State) (v : Nat),
    s.chip.phase ≠ .off →
    s.chip.pwr.st = 5 ∨ 5800 ≤ v →
    Does (.powerFail v) s (fun c =>
      c = s.chip)) ∧
  (∀ (s : State) (v : Nat),
    s.chip.phase ≠ .off →
    s.chip.pwr.st ≠ 5 →
    8400 < v →
    Does (.overvoltage v) s (fun c =>
      c.pwr.st = 5 ∧ c.pwr.feAt = s.chip.pwr.feAt ∧ c.hasErr pgPwr 3 10 = true ∧ c.pwr.shed = true ∧ (∀ n < 192, (c.core n).st = 0) ∧ c.mem = s.chip.mem ∧ c.slots = s.chip.slots)) ∧
  (∀ (s : State) (v : Nat),
    s.chip.phase ≠ .off →
    s.chip.pwr.st = 5 ∨ v ≤ 8400 →
    Does (.overvoltage v) s (fun c =>
      c = s.chip)) ∧
  (∀ (s : State),
    s.chip.phase ≠ .off →
    s.chip.pwr.st ≠ 5 →
    Does (.senseNOpen) s (fun c =>
      c.pwr.st = 5 ∧ c.hasErr pgPwr 3 9 = true ∧ c.pwr.shed = true ∧ (∀ n < 192, (c.core n).st = 0) ∧ c.mem = s.chip.mem ∧ c.slots = s.chip.slots)) ∧
  (∀ (s : State) (v : Nat),
    s.chip.phase ≠ .off →
    s.chip.pwr.st = 5 →
    6000 < v →
    Does (.vinReturn v) s (fun c =>
      s.chip.resets c 5 ∧ c.pwr.vin = v)) ∧
  (∀ (s : State) (v : Nat),
    s.chip.phase ≠ .off →
    s.chip.pwr.st ≠ 5 ∨ v ≤ 6000 →
    Does (.vinReturn v) s (fun c =>
      c = s.chip)) ∧
  (∀ (s : State) (v : Nat),
    s.chip.phase ≠ .off →
    s.chip.pwr.st = 5 →
    v ≤ 3600 →
    Does (.holdupExhausted v) s (fun c =>
      c.phase = .off ∧ c.mem = [] ∧ c.regs = [] ∧ c.flash = s.chip.flash ∧ c.otp = s.chip.otp)) ∧
  (∀ (s : State) (v : Nat),
    s.chip.phase ≠ .off →
    s.chip.pwr.st ≠ 5 ∨ 3600 < v →
    Does (.holdupExhausted v) s (fun c =>
      c = s.chip)) ∧
  (∀ (s : State) (t : Int) (p q : Nat),
    s.chip.isOn →
    s.chip.pwr.st ≠ 3 →
    s.chip.pwr.trig = 0 →
    1600 ≤ t →
    t < 1648 →
    p ≤ 1550 →
    q ≤ 1400 →
    Does (.emergencyTrigger t p q) s (fun c =>
      c.pwr.trig = 1 ∧ c.pwr.emerg = max 4 s.chip.pwr.emerg ∧ c.pwr.returning = false ∧ (s.chip.pwr.emerg < 4 → bit 0 (c.rg (ra pgPwr 0x20)) = true))) ∧
  (∀ (s : State) (t : Int) (p q : Nat),
    s.chip.isOn →
    s.chip.pwr.st ≠ 3 →
    s.chip.pwr.trig = 0 →
    1648 ≤ t →
    p ≤ 1550 →
    q ≤ 1400 →
    Does (.emergencyTrigger t p q) s (fun c =>
      c.pwr.trig = 3 ∧ c.pwr.emerg = max 8 s.chip.pwr.emerg ∧ c.pwr.returning = false ∧ (s.chip.pwr.emerg < 8 → bit 0 (c.rg (ra pgPwr 0x20)) = true))) ∧
  (∀ (s : State) (t : Int) (p q : Nat),
    s.chip.isOn →
    s.chip.pwr.st ≠ 3 →
    s.chip.pwr.trig = 0 →
    t < 1600 →
    1550 < p →
    q ≤ 1400 →
    Does (.emergencyTrigger t p q) s (fun c =>
      c.pwr.trig = 4 ∧ c.pwr.emerg = max 8 s.chip.pwr.emerg ∧ c.pwr.returning = false ∧ (s.chip.pwr.emerg < 8 → bit 0 (c.rg (ra pgPwr 0x20)) = true))) ∧
  (∀ (s : State) (t : Int) (p q : Nat),
    s.chip.isOn →
    s.chip.pwr.st ≠ 3 →
    s.chip.pwr.trig = 0 →
    t < 1600 →
    p ≤ 1550 →
    1400 < q →
    Does (.emergencyTrigger t p q) s (fun c =>
      c.pwr.trig = 8 ∧ c.pwr.emerg = max 2 s.chip.pwr.emerg ∧ c.pwr.returning = false ∧ (s.chip.pwr.emerg < 2 → bit 0 (c.rg (ra pgPwr 0x20)) = true))) ∧
  (∀ (s : State) (t : Int) (p q : Nat),
    s.chip.isOn →
    s.chip.pwr.st = 3 ∨ (t < 1600 ∧ p ≤ 1550 ∧ q ≤ 1400) →
    Does (.emergencyTrigger t p q) s (fun c =>
      c = { s.chip with pwr := { s.chip.pwr with tj := t, pin := q } })) ∧
  (∀ (s : State) (q : Nat),
    s.chip.isOn →
    bit 3 s.chip.pwr.trig = true →
    s.chip.pwr.ocNext ≤ s.chip.beat →
    1400 < q →
    Does (.ocAvgStep q) s (fun c =>
      c.pwr.ocLevel = min 12 (s.chip.pwr.ocLevel + 2) ∧ c.pwr.ocNext = s.chip.beat + 1024 ∧ min 12 (s.chip.pwr.ocLevel + 2) ≤ c.pwr.emerg ∧ s.chip.pwr.emerg ≤ c.pwr.emerg)) ∧
  (∀ (s : State) (q : Nat),
    s.chip.isOn →
    bit 3 s.chip.pwr.trig = false ∨ s.chip.beat < s.chip.pwr.ocNext →
    Does (.ocAvgStep q) s (fun c =>
      c = { s.chip with pwr := { s.chip.pwr with pin := q } })) ∧
  (∀ (s : State) (k : Trigger) (t : Int) (q b : Nat),
    s.chip.isOn →
    s.chip.pwr.trig = 2 ^ trigBit k →
    trigClears k t q b = true →
    Does (.triggerClear k t q b) s (fun c =>
      c.pwr.trig = 0 ∧ c.pwr.emerg = s.chip.pwr.emerg ∧ c.pwr.returning = decide (s.chip.pwr.emerg ≠ 0))) ∧
  (∀ (s : State) (t : Int) (q b : Nat),
    s.chip.isOn →
    s.chip.pwr.trig = 3 →
    trigClears .ot2 t q b = true →
    Does (.triggerClear .ot2 t q b) s (fun c =>
      c.pwr.trig = 1 ∧ c.pwr.emerg = 4 ∧ c.pwr.returning = s.chip.pwr.returning)) ∧
  (∀ (s : State) (k : Trigger) (t : Int) (q b : Nat),
    s.chip.isOn →
    bit (trigBit k) s.chip.pwr.trig = false ∨ trigClears k t q b = false →
    Does (.triggerClear k t q b) s (fun c =>
      c = { s.chip with pwr := { s.chip.pwr with tj := t, pin := q } })) ∧
  (∀ (s : State),
    s.chip.isOn →
    s.chip.pwr.returning = true →
    anyRunning s.chip = false →
    Does (.emergencyReturn) s (fun c =>
      c.pwr.emerg = 0 ∧ c.pwr.returning = false ∧ bit 1 (c.rg (ra pgPwr 0x20)) = true)) ∧
  (∀ (s : State),
    s.chip.isOn →
    s.chip.pwr.returning = false ∨ anyRunning s.chip = true →
    Does (.emergencyReturn) s (fun c =>
      c = s.chip)) ∧
  (∀ (s : State) (t : Int),
    s.chip.isOn →
    1760 ≤ t →
    s.chip.pwr.trip = false →
    Does (.trip t) s (fun c =>
      c.pwr.trip = true ∧ bit 4 c.pwr.trig = true ∧ c.pwr.feAt = s.chip.pwr.feAt ∧ c.hasErr pgPwr 3 13 = true ∧ c.pwr.shed = true ∧ (∀ n < 192, (c.core n).st = 0) ∧ c.mem = s.chip.mem ∧ c.slots = s.chip.slots)) ∧
  (∀ (s : State) (t : Int),
    s.chip.isOn →
    t < 1760 ∨ s.chip.pwr.trip = true →
    Does (.trip t) s (fun c =>
      c = { s.chip with pwr := { s.chip.pwr with tj := t } })) ∧
  (∀ (s : State) (t : Int),
    s.chip.isOn →
    s.chip.pwr.trip = true →
    t < 1552 →
    feHold s.chip = false →
    Does (.tripCooledReset t) s (fun c =>
      s.chip.resets c 2)) ∧
  (∀ (s : State) (t : Int),
    s.chip.isOn →
    s.chip.pwr.trip = false ∨ 1552 ≤ t ∨ feHold s.chip = true →
    Does (.tripCooledReset t) s (fun c =>
      c = { s.chip with pwr := { s.chip.pwr with tj := t } })) ∧
  (∀ (s : State) (b : Nat),
    s.chip.isOn →
    s.chip.pwr.feAt = some b →
    b ≤ s.chip.beat →
    feHold s.chip = false →
    Does (.feReset) s (fun c =>
      s.chip.resets c 2)) ∧
  (∀ (s : State),
    s.chip.isOn →
    s.chip.pwr.feAt = none ∨ feHold s.chip = true →
    Does (.feReset) s (fun c =>
      c = s.chip)) ∧
  (∀ (s : State) (v : W32),
    s.chip.isOn →
    v.toNat % 65536 = 0xB6B6 →
    Does (.rstCmd v) s (fun c =>
      s.chip.resets c 1)) ∧
  (∀ (s : State) (v : W32),
    s.chip.isOn →
    v.toNat % 65536 ≠ 0xB6B6 →
    Does (.rstCmd v) s (fun c =>
      s.chip.logs c pgPwr 0 31)) ∧
  (∀ (s : State),
    s.chip.isOn →
    Does (.romonWatchdog) s (fun c =>
      s.chip.resets c 3)) ∧
  (∀ (s : State) (v : W32),
    s.chip.isOn →
    ∀ x < 32, (s.chip.ring x).st = 0 →
    Does (.planLevelWrite v) s (fun c =>
      c = { s.chip.setRg (pwrReg 0x104) (v.toNat % 16) with pwr := { s.chip.pwr with planNext := some (v.toNat % 16) } })) ∧
  (∀ (s : State) (v : W32),
    s.chip.isOn →
    ∃ x < 32, (s.chip.ring x).st ≠ 0 →
    Does (.planLevelWrite v) s (fun c =>
      s.chip.logs c pgPwr 0 31)) ∧
  (∀ (s : State) (v : Nat),
    s.chip.isOn →
    band v ≠ 0 →
    band v ≠ band s.chip.pwr.vin →
    Does (.vinBandEntry v) s (fun c =>
      c = ce pgPwr 8 v 0 { s.chip with pwr := { s.chip.pwr with vin := v } })) ∧
  (∀ (s : State) (v : Nat),
    s.chip.phase ≠ .off →
    s.chip.pwr.st ≠ 5 →
    v < 5800 →
    Does (.powerFail v) s (fun c =>
      c = logErr { cls := 3, scope := 4, cause := 9, page := pgPwr, d0 := v } (irq pgPwr 2 { s.chip with pwr := { s.chip.pwr with st := 5, vin := v } }))) ∧
  (∀ (s : State) (v : Nat),
    s.chip.phase ≠ .off →
    s.chip.pwr.st ≠ 5 →
    8400 < v →
    Does (.overvoltage v) s (fun c =>
      c = logErr { cls := 3, scope := 4, cause := 10, page := pgPwr, d0 := v } (irq pgPwr 2 { s.chip with pwr := { s.chip.pwr with st := 5, vin := v } }))) ∧
  (∀ (s : State),
    s.chip.phase ≠ .off →
    s.chip.pwr.st ≠ 5 →
    Does (.senseNOpen) s (fun c =>
      c = logErr { cls := 3, scope := 4, cause := 9, page := pgPwr, d0 := s.chip.pwr.vin } (irq pgPwr 2 { s.chip with pwr := { s.chip.pwr with st := 5 } }))) ∧
  (∀ (s : State),
    s.chip.phase ≠ .off →
    s.chip.pwr.st = 5 →
    Does (.senseNOpen) s (fun c =>
      c = s.chip)) ∧
  (∀ (s : State) (v : Nat),
    s.chip.phase ≠ .off →
    s.chip.pwr.st = 5 →
    6000 < v →
    Does (.vinReturn v) s (fun c =>
      c = moduleReset 5 false { s.chip with pwr := { s.chip.pwr with vin := v, vhold := v } })) ∧
  (∀ (s : State) (v : Nat),
    s.chip.phase ≠ .off →
    s.chip.pwr.st = 5 →
    v ≤ 3600 →
    Does (.holdupExhausted v) s (fun c =>
      c = powerOff s.chip)) ∧
  (∀ (s : State) (t : Int) (p q m : Nat),
    s.chip.isOn →
    s.chip.pwr.st ≠ 3 →
    m = (if 1600 ≤ t then 1 else 0) + (if 1648 ≤ t then 2 else 0) + (if 1550 < p then 4 else 0) + (if 1400 < q then 8 else 0) →
    (m ||| s.chip.pwr.trig) ≠ s.chip.pwr.trig →
    Does (.emergencyTrigger t p q) s (fun c =>
      c = raiseTriggers m { s.chip with pwr := { s.chip.pwr with tj := t, pin := q } })) ∧
  (∀ (s : State) (t : Int) (p q m : Nat),
    s.chip.isOn →
    m = (if 1600 ≤ t then 1 else 0) + (if 1648 ≤ t then 2 else 0) + (if 1550 < p then 4 else 0) + (if 1400 < q then 8 else 0) →
    (m ||| s.chip.pwr.trig) = s.chip.pwr.trig →
    Does (.emergencyTrigger t p q) s (fun c =>
      c = { s.chip with pwr := { s.chip.pwr with tj := t, pin := q } })) ∧
  (∀ (s : State) (t : Int) (p q m : Nat),
    s.chip.isOn →
    s.chip.pwr.st ≠ 3 →
    m = (if 1600 ≤ t then 1 else 0) + (if 1648 ≤ t then 2 else 0) + (if 1550 < p then 4 else 0) + (if 1400 < q then 8 else 0) →
    (m ||| s.chip.pwr.trig) ≠ s.chip.pwr.trig →
    Does (.emergencyTrigger t p q) s (fun c =>
      c.pwr.trig = s.chip.pwr.trig ||| m ∧ c.pwr.returning = false ∧ c.pwr.emerg = c.pwr.required ∧ c.pwr.ocLevel = (if bit 3 m = true ∧ bit 3 s.chip.pwr.trig = false then 2 else s.chip.pwr.ocLevel))) ∧
  (∀ (s : State) (q : Nat),
    s.chip.isOn →
    bit 3 s.chip.pwr.trig = true →
    s.chip.pwr.ocNext ≤ s.chip.beat →
    1400 < q →
    Does (.ocAvgStep q) s (fun c =>
      c = raiseTriggers 8 { s.chip with pwr := { s.chip.pwr with pin := q, ocLevel := min 12 (s.chip.pwr.ocLevel + 2), ocNext := s.chip.beat + 1024 } })) ∧
  (∀ (s : State) (q : Nat),
    s.chip.isOn →
    bit 3 s.chip.pwr.trig = true →
    s.chip.pwr.ocNext ≤ s.chip.beat →
    q ≤ 1400 →
    Does (.ocAvgStep q) s (fun c =>
      c = { s.chip with pwr := { s.chip.pwr with pin := q, ocNext := s.chip.beat + 1024 } })) ∧
  (∀ (s : State) (k : Trigger) (t : Int) (q b : Nat),
    s.chip.isOn →
    bit (trigBit k) s.chip.pwr.trig = true →
    trigClears k t q b = true →
    fld 3 0 (s.chip.pwr.trig - 2 ^ trigBit k) = 0 →
    Does (.triggerClear k t q b) s (fun c =>
      c = { s.chip with pwr := { s.chip.pwr with tj := t, pin := q, trig := s.chip.pwr.trig - 2 ^ trigBit k, returning := decide (s.chip.pwr.emerg ≠ 0) } })) ∧
  (∀ (s : State) (k : Trigger) (t : Int) (q b : Nat),
    s.chip.isOn →
    bit (trigBit k) s.chip.pwr.trig = true →
    trigClears k t q b = true →
    fld 3 0 (s.chip.pwr.trig - 2 ^ trigBit k) ≠ 0 →
    Does (.triggerClear k t q b) s (fun c =>
      c.pwr = { s.chip.pwr with tj := t, pin := q, trig := s.chip.pwr.trig - 2 ^ trigBit k, emerg := c.pwr.required } ∧ c = { s.chip with pwr := c.pwr })) ∧
  (∀ (s : State),
    s.chip.isOn →
    s.chip.pwr.returning = true →
    anyRunning s.chip = false →
    Does (.emergencyReturn) s (fun c =>
      c = irq pgPwr 1 { s.chip with pwr := { s.chip.pwr with emerg := 0, returning := false } })) ∧
  (∀ (s : State) (t : Int),
    s.chip.isOn →
    1760 ≤ t →
    s.chip.pwr.trip = false →
    Does (.trip t) s (fun c =>
      c = logErr { cls := 3, scope := 4, cause := 13, page := pgPwr, d0 := (t % 2 ^ 16).toNat } { s.chip with pwr := { s.chip.pwr with tj := t, trip := true, trig := s.chip.pwr.trig ||| 16 } })) ∧
  (∀ (s : State) (t : Int),
    s.chip.isOn →
    s.chip.pwr.trip = true →
    t < 1552 →
    feHold s.chip = false →
    Does (.tripCooledReset t) s (fun c =>
      c = moduleReset 2 false (errorLogCommit { s.chip with pwr := { s.chip.pwr with tj := t } }))) ∧
  (∀ (s : State) (b : Nat),
    s.chip.isOn →
    s.chip.pwr.feAt = some b →
    b ≤ s.chip.beat →
    feHold s.chip = false →
    Does (.feReset) s (fun c =>
      c = moduleReset 2 false (errorLogCommit s.chip))) ∧
  (∀ (s : State) (b : Nat),
    s.chip.isOn →
    s.chip.pwr.feAt = some b →
    s.chip.beat < b →
    Does (.feReset) s (fun c =>
      c = s.chip)) ∧
  (∀ (s : State) (v : W32),
    s.chip.isOn →
    v.toNat % 65536 = 0xB6B6 →
    Does (.rstCmd v) s (fun c =>
      c = moduleReset 1 false s.chip)) ∧
  (∀ (s : State),
    s.chip.isOn →
    Does (.romonWatchdog) s (fun c =>
      c = moduleReset 3 false (errorLogCommit (logErr { cls := 2, scope := 3, cause := 11, page := pgMgt, scopeId := s.chip.sliceId } s.chip))))

/-- CORE_SELF_TEST puts every core that passes into the work map and leaves out one that fails, which it counts with a
CE, or that has failed three times; more than 8 left out fail the start-up (R438). GDDR7_TRAINING_DONE puts every
channel in service and wipes the memory (R386). READY ends the start-up with the reference tables in both banks, or
with STATE FAILED and the cause of the first failed step (R132, R386). DD_ENTER is refused with the first code of R387
that applies or starts the entry; its end gates the module, EXIT or the wake beat starts the exit, and the exit zeroes
what drydown loses and returns to READY (R388 to R391). -/
def Obligations.StartupDrydown : Prop :=
  (∀ (s : State) (l : List CoreId),
    s.chip.startingUp = true →
    s.chip.pwr.tested = false →
    ∀ n < 192, nat0 s.chip.tam.age.failures n < 3 ∧ (s.chip.core n).failed = false →
    l.length ≤ 8 →
    Does (.coreSelfTest l) s (fun c =>
      c.pwr.tested = true ∧ c.pwr.st = s.chip.pwr.st ∧
      (∀ n < 192, n ∉ l.map (·.val) → (c.core n).mapApp = true ∧ (c.core n).mapPend = true ∧ c.enabled (pgCore n) = true) ∧
      (∀ n ∈ l, (c.core n).failed = true ∧ (c.core n).mapPend = false ∧ c.enabled (pgCore n) = false ∧ nat0 c.tam.age.failures n = nat0 s.chip.tam.age.failures n + 1 ∧ c.hasErr (pgCore n) 0 11 = true))) ∧
  (∀ (s : State) (l : List CoreId),
    s.chip.startingUp = true →
    s.chip.pwr.tested = false →
    ∀ n : CoreId, n.val < 9 → n ∈ l →
    Does (.coreSelfTest l) s (fun c =>
      c.pwr.st = 6 ∧ c.tam.startFail = 4 ∧ c.phase = .starting)) ∧
  (∀ (s : State) (l : List CoreId),
    s.chip.startingUp = false ∨ s.chip.pwr.tested = true →
    Does (.coreSelfTest l) s (fun c =>
      c = s.chip)) ∧
  (∀ (s : State),
    s.chip.startingUp = true →
    s.chip.pwr.gddr = false →
    Does (.gddr7TrainingDone true) s (fun c =>
      c.pwr.gddr = true ∧ (∀ i < 12, (c.gmc i).up = 255) ∧ (∀ a, t0Size ≤ a ∨ c.byteAt a = 0#8) ∧ c.pwr.st = s.chip.pwr.st ∧ c.regs = s.chip.regs)) ∧
  (∀ (s : State),
    s.chip.startingUp = true →
    s.chip.pwr.gddr = false →
    Does (.gddr7TrainingDone false) s (fun c =>
      c.pwr.st = 6 ∧ c.tam.startFail = 2 ∧ c.phase = .starting)) ∧
  (∀ (s : State) (ok : Bool),
    s.chip.startingUp = false ∨ s.chip.pwr.gddr = true →
    Does (.gddr7TrainingDone ok) s (fun c =>
      c = s.chip)) ∧
  (∀ (s : State) (l : List Byte),
    s.chip.startingUp = true →
    s.chip.pwr.tested = true →
    s.chip.pwr.gddr = true →
    l = (s.chip.flash.image.bytes.drop (imTable s.chip.flash.image.bytes)).take imageSize →
    imageCheck l = (0, 0) →
    Does (.ready true true true) s (fun c =>
      c.phase = .running ∧ c.pwr.st = 1 ∧ c.pwr.shed = s.chip.pwr.shed ∧ (∀ n < 24, (c.clus n).sfu.active = imageBank l ∧ (c.clus n).sfu.shadow = imageBank l) ∧ c.lrtExp = imageBank l ∧ c.sec.m3 = extend s.chip.sec.m3 (sha256 l) ∧
      c.mem = s.chip.mem ∧ (s.chip.lc ≠ 0 → c.flash.wipePend = false) ∧ (s.chip.lc = 2 → bit 0 (c.rg (pwrReg 0x2C)) = true))) ∧
  (∀ (s : State) (a b d : Bool) (k : Nat),
    s.chip.startingUp = true →
    k = (if a = false then 1 else if b = false then 3 else 5) →
    (a && b && d) = false →
    Does (.ready a b d) s (fun c =>
      c.pwr.st = 6 ∧ c.tam.startFail = k ∧ c.phase = .starting)) ∧
  (∀ (s : State),
    s.chip.startingUp = true →
    s.chip.pwr.tested = true →
    s.chip.pwr.gddr = true →
    (imageCheck ((s.chip.flash.image.bytes.drop (imTable s.chip.flash.image.bytes)).take imageSize)).1 ≠ 0 →
    Does (.ready true true true) s (fun c =>
      c.pwr.st = 6 ∧ c.tam.startFail = 6 ∧ c.phase = .starting)) ∧
  (∀ (s : State) (a b d : Bool),
    s.chip.startingUp = false ∨ ((a && b && d) = true ∧ (s.chip.pwr.tested = false ∨ s.chip.pwr.gddr = false)) →
    Does (.ready a b d) s (fun c =>
      c = s.chip)) ∧
  (∀ (s : State),
    s.chip.isOn →
    ddRefusal s.chip = 0 →
    Does (.ddEnter) s (fun c =>
      c = { s.chip with pwr := { s.chip.pwr with st := 2, ddResult := 0, exitReq := false } })) ∧
  (∀ (s : State),
    s.chip.isOn →
    ddRefusal s.chip ≠ 0 →
    Does (.ddEnter) s (fun c =>
      c.pwr = { s.chip.pwr with ddResult := ddRefusal s.chip } ∧ bit 5 (c.rg (ra pgPwr 0x20)) = true ∧ c.cores = s.chip.cores ∧ c.mem = s.chip.mem)) ∧
  (∀ (s : State),
    s.chip.pwr.st ≠ 1 →
    ddRefusal s.chip = 1) ∧
  (∀ (s : State),
    s.chip.pwr.st = 1 →
    ∃ x < 32, (s.chip.ring x).st ≠ 0 →
    ddRefusal s.chip = 2) ∧
  (∀ (s : State),
    s.chip.pwr.st = 1 →
    ∀ x < 32, (s.chip.ring x).st = 0 →
    ∃ l < 16, (s.chip.loan (16 + l)).st ≠ 0 →
    ddRefusal s.chip = 3) ∧
  (∀ (s : State),
    s.chip.isOn →
    s.chip.pwr.st = 2 →
    s.chip.colls = [] →
    s.chip.mtm.migs = [] →
    wakeBeat s.chip = 0 →
    ∀ p < 6, (s.chip.link p).st ≠ 4 ∧ (s.chip.link p).st ≠ 5 →
    Does (.drydownEntryComplete) s (fun c =>
      c.pwr = { s.chip.pwr with st := if s.chip.pwr.exitReq = true then 4 else 3, exitReq := false } ∧ bit 3 (c.rg (ra pgPwr 0x20)) = true ∧ c.mem = s.chip.mem ∧ c.links = s.chip.links)) ∧
  (∀ (s : State),
    s.chip.isOn →
    s.chip.pwr.st ≠ 2 ∨ s.chip.mtm.migs ≠ [] →
    Does (.drydownEntryComplete) s (fun c =>
      c = s.chip)) ∧
  (∀ (s : State),
    s.chip.isOn →
    s.chip.pwr.st = 3 →
    Does (.ddExit) s (fun c =>
      c = { s.chip with pwr := { s.chip.pwr with st := 4 } })) ∧
  (∀ (s : State),
    s.chip.isOn →
    s.chip.pwr.st = 2 →
    Does (.ddExit) s (fun c =>
      c = { s.chip with pwr := { s.chip.pwr with exitReq := true } })) ∧
  (∀ (s : State),
    s.chip.isOn →
    s.chip.pwr.st ≠ 2 →
    s.chip.pwr.st ≠ 3 →
    Does (.ddExit) s (fun c =>
      s.chip.logs c pgPwr 0 31)) ∧
  (∀ (s : State),
    s.chip.isOn →
    s.chip.pwr.st = 3 →
    s.chip.beat < wakeBeat s.chip →
    wakeBeat s.chip ≤ s.chip.beat + 4883 →
    Does (.drydownWake) s (fun c =>
      c = { s.chip with pwr := { s.chip.pwr with st := 4 } })) ∧
  (∀ (s : State),
    s.chip.isOn →
    s.chip.pwr.st ≠ 3 ∨ wakeBeat s.chip = 0 ∨ s.chip.beat + 4883 < wakeBeat s.chip →
    Does (.drydownWake) s (fun c =>
      c = s.chip)) ∧
  (∀ (s : State) (l : List PortId),
    s.chip.isOn →
    s.chip.pwr.st = 4 →
    ∀ p < 6, (s.chip.link p).st ≠ 9 →
    Does (.drydownExitComplete l) s (fun c =>
      c.pwr = { s.chip.pwr with st := 1 } ∧ bit 4 (c.rg (ra pgPwr 0x20)) = true ∧ (∀ n < 192, (c.core n).acc = []) ∧ (∀ n < 24, ∀ i, 0x800000 ≤ i ∨ c.byteAt (cacheBase n + i) = 0#8) ∧
      (∀ n < 192, ∀ b < 8, bit b (retBanks s.chip n) = false → ∀ i, 0x40000 ≤ i ∨ c.byteAt (padBase n + b * 0x40000 + i) = 0#8) ∧ c.slots = s.chip.slots)) ∧
  (∀ (s : State) (l : List PortId),
    s.chip.isOn →
    s.chip.pwr.st ≠ 4 →
    Does (.drydownExitComplete l) s (fun c =>
      c = s.chip)) ∧
  (∀ (s : State) (l : List CoreId),
    s.chip.startingUp = true →
    s.chip.pwr.tested = false →
    Does (.coreSelfTest l) s (fun c =>
      c.pwr.tested = true ∧ (∀ n < 192, 3 ≤ nat0 s.chip.tam.age.failures n → c.core n = { s.chip.core n with failed := true }) ∧
      (∀ n < 192, nat0 s.chip.tam.age.failures n < 3 → n ∉ l.map (·.val) → c.core n = { s.chip.core n with mapPend := true, mapApp := true } ∧ c.enabled (pgCore n) = true) ∧
      (∀ n ∈ l, nat0 s.chip.tam.age.failures n < 3 → (c.core n).failed = true ∧ (c.core n).mapPend = false ∧ c.enabled (pgCore n) = false ∧ nat0 c.tam.age.failures n = nat0 s.chip.tam.age.failures n + 1 ∧ c.hasErr (pgCore n) 0 11 = true) ∧
      c.pwr.st = (if 8 < (List.range 192).countP (fun n => decide (3 ≤ nat0 s.chip.tam.age.failures n) || l.any (fun x => x.val == n) || (s.chip.core n).failed) then 6 else 0))) ∧
  (∀ (s : State),
    s.chip.startingUp = true →
    s.chip.pwr.gddr = false →
    Does (.gddr7TrainingDone true) s (fun c =>
      let k := forEach (List.range 12) (fun i k => forEach (List.range 8) (fun ch q => trainChan i ch q) (k.setGmc i { k.gmc i with up := 255 })) s.chip; c = { k.zero 0 t0Size with pwr := { s.chip.pwr with gddr := true } })) ∧
  (∀ (s : State),
    s.chip.isOn →
    s.chip.pwr.st = 2 →
    s.chip.colls.any (fun k => decide (2 ≤ k.2.st ∧ k.2.st ≤ 4)) = false →
    s.chip.mtm.migs = [] →
    wakeBeat s.chip = 0 ∨ s.chip.beat < wakeBeat s.chip →
    Does (.drydownEntryComplete) s (fun c =>
      let k := irq pgPwr 3 (updPwr (fun p => { p with st := 3 }) (forEach (List.range 6) portRest s.chip)); c = (if k.pwr.exitReq = true then updPwr (fun p => { p with st := 4, exitReq := false }) k else k))) ∧
  (∀ (s : State),
    s.chip.isOn →
    s.chip.pwr.st = 2 →
    s.chip.colls.any (fun k => decide (2 ≤ k.2.st ∧ k.2.st ≤ 4)) = false →
    s.chip.mtm.migs = [] →
    wakeBeat s.chip ≠ 0 →
    wakeBeat s.chip ≤ s.chip.beat →
    Does (.drydownEntryComplete) s (fun c =>
      let k := irq pgPwr 3 (updPwr (fun p => { p with st := 3 }) (forEach (List.range 6) portRest s.chip)); c = itemLate pgPwr (wakeBeat s.chip) (updPwr (fun p => { p with st := 4 }) k))) ∧
  (∀ (s : State) (p : Nat),
    (s.chip.link p).st = 4 ∨ (s.chip.link p).st = 5 →
    ((portRest p s.chip).link p).st = 9 ∧ ((portRest p s.chip).link p).lp = (s.chip.link p).st) ∧
  (∀ (s : State),
    s.chip.isOn →
    s.chip.pwr.st ≠ 2 ∨ s.chip.colls.any (fun k => decide (2 ≤ k.2.st ∧ k.2.st ≤ 4)) = true ∨ s.chip.mtm.migs ≠ [] →
    Does (.drydownEntryComplete) s (fun c =>
      c = s.chip)) ∧
  (∀ (s : State),
    s.chip.isOn →
    s.chip.pwr.st = 3 →
    wakeBeat s.chip ≠ 0 →
    wakeBeat s.chip ≤ s.chip.beat →
    Does (.drydownWake) s (fun c =>
      c = itemLate pgPwr (wakeBeat s.chip) { s.chip with pwr := { s.chip.pwr with st := 4 } })) ∧
  (∀ (s : State) (l : List PortId),
    s.chip.isOn →
    s.chip.pwr.st = 4 →
    Does (.drydownExitComplete l) s (fun c =>
      c = irq pgPwr 4 (updPwr (fun p => { p with st := 1 }) (forEach (List.range 6) (portWake (l.map (·.val))) (zeroLost s.chip))))) ∧
  (∀ (s : State) (l : List Nat) (p : Nat),
    (s.chip.link p).st = 9 →
    l.contains p = true →
    portWake l p s.chip = portState p (s.chip.link p).lp s.chip) ∧
  (∀ (s : State) (l : List Nat) (p : Nat),
    (s.chip.link p).st = 9 →
    l.contains p = false →
    portWake l p s.chip = portLoss p 7 s.chip) ∧
  (∀ (v : Nat) (s : State),
    s.chip.phase = .off →
    6000 ≤ v →
    Does (.powerOn v) s (fun c =>
      let k := boot false { flash := s.chip.flash, otp := s.chip.otp, straps := s.chip.straps, posId := s.chip.straps % 2048, mst := !bit 11 s.chip.straps, draw := s.chip.draw + 1, pwr := { vin := v, vhold := v, cap := (Config.freeWord s.chip.draw).toNat % 4096 } };
      c = (if k.phase = .starting ∧ (Config.freeWord s.chip.draw).toNat % 4096 < 1440 then ce pgPwr 14 ((Config.freeWord s.chip.draw).toNat % 4096) 0 (irq pgPwr 7 k) else k))) ∧
  (∀ (v : Nat) (s : State),
    s.chip.phase ≠ .off ∨ v < 6000 →
    Does (.powerOn v) s (fun c =>
      c = s.chip))

/-- IMG_UPDATE checks the staged image and either refuses it with its code or erases the image area for programming;
IMAGE_UPDATE_COMPLETE installs it or reports code 7 (R401). In the loader, RECOVERY chunks fill the staging area and a
commit is refused with its code or programs the image and resets the module (R402, R403). CTR_INC raises an operator
counter only (R399). EXT_CMD extends M3 (R397). A signed command that is accepted takes its effect and completes OK;
one that is refused completes REFUSED with the code in LC_RESULT, one with a bad signature SIGNATURE (R412 to R414,
R244, R398). LIFECYCLE_RESET resets the module once its beat has come (R414). A deferred flash operation runs at its
retry, or expires with a UC (R381). -/
def Obligations.TrustChanges : Prop :=
  (∀ (s : State) (k : Bool),
    s.chip.isOn →
    s.chip.sec.imgSt = 1 ∨ s.chip.sec.imgSt = 2 ∨ s.chip.mbp.sess ≠ 2 ∨ s.chip.pwr.st ≠ 1 →
    Does (.imgUpdate k) s (fun c =>
      s.chip.logs c pgMgt 0 31)) ∧
  (∀ (s : State) (k : Bool) (a n : Nat) (l : List Byte),
    s.chip.isOn →
    s.chip.sec.imgSt ≠ 1 →
    s.chip.sec.imgSt ≠ 2 →
    s.chip.sec.lcReset = none →
    s.chip.pwr.defer = [] →
    s.chip.mbp.sess = 2 →
    s.chip.pwr.st = 1 →
    a = s.chip.rg64 (ra pgMgt 0x110) →
    n = s.chip.rg (ra pgMgt 0x118) →
    a % 64 = 0 →
    1 ≤ n →
    a + n ≤ t0Size →
    s.chip.tasRead a n = .ok l →
    imageFail { bytes := l, sigOk := k } s.chip.otp.svn s.chip.lc = 0 →
    holdOk s.chip = true →
    Does (.imgUpdate k) s (fun c =>
      c.sec.imgSt = 2 ∧ c.sec.imgCode = 0 ∧ c.sec.pendImg = some { bytes := l, sigOk := k } ∧ c.flash = { s.chip.flash with image := {} } ∧ c.mem = s.chip.mem)) ∧
  (∀ (s : State) (k : Bool) (a n : Nat) (l : List Byte),
    s.chip.isOn →
    s.chip.sec.imgSt ≠ 1 →
    s.chip.sec.imgSt ≠ 2 →
    s.chip.sec.lcReset = none →
    s.chip.pwr.defer = [] →
    s.chip.mbp.sess = 2 →
    s.chip.pwr.st = 1 →
    a = s.chip.rg64 (ra pgMgt 0x110) →
    n = s.chip.rg (ra pgMgt 0x118) →
    a % 64 = 0 →
    1 ≤ n →
    a + n ≤ t0Size →
    s.chip.tasRead a n = .ok l →
    imageFail { bytes := l, sigOk := k } s.chip.otp.svn s.chip.lc ≠ 0 →
    Does (.imgUpdate k) s (fun c =>
      c.sec.imgSt = 4 ∧ c.sec.imgCode = refusalOf (imageFail { bytes := l, sigOk := k } s.chip.otp.svn s.chip.lc) ∧ c.flash = s.chip.flash ∧ c.mem = s.chip.mem ∧ bit 0 (c.rg (ra pgMgt 0x20)) = true)) ∧
  (∀ (s : State) (k : Bool),
    s.chip.isOn →
    s.chip.sec.imgSt = 2 →
    Does (.imageUpdateComplete k) s (fun c =>
      c.flash.image = (if k = true then s.chip.sec.pendImg.getD {} else {}) ∧ c.sec.imgSt = (if k = true then 3 else 4) ∧ c.sec.imgCode = (if k = true then 0 else 7) ∧ nat0 c.flash.counters 2 = nat0 s.chip.flash.counters 2 + 1 ∧ c.sec.pendImg = none)) ∧
  (∀ (s : State) (k : Bool),
    s.chip.isOn →
    s.chip.sec.imgSt ≠ 2 →
    Does (.imageUpdateComplete k) s (fun c =>
      c = s.chip)) ∧
  (∀ (s : State) (v : W32),
    s.chip.isOn →
    v.toNat % 65536 = 0x10AD →
    s.chip.lc = 1 ∨ s.chip.lc = 3 →
    Does (.loaderReq v) s (fun c =>
      c.phase = .loader ∧ c.mbp.sess = 4 ∧ c.pwr.cause = 1 ∧ c.mem = [] ∧ c.flash = s.chip.flash ∧ c.otp = s.chip.otp ∧ c.sec.bootFail = 0)) ∧
  (∀ (s : State) (v : W32),
    s.chip.isOn →
    v.toNat % 65536 ≠ 0x10AD ∨ s.chip.lc = 0 ∨ s.chip.lc = 2 →
    Does (.loaderReq v) s (fun c =>
      s.chip.logs c pgMgt 0 31)) ∧
  (∀ (s : State) (i : Nat),
    s.chip.isOn →
    s.chip.sec.ctrSt ≠ 1 →
    i = fld 3 0 (s.chip.rg (ra pgMgt 0x124)) →
    4 ≤ i →
    nat0 s.chip.flash.counters i ≠ 0xFFFFFFFF →
    holdOk s.chip = true →
    s.chip.pwr.st ≠ 5 →
    Does (.ctrInc) s (fun c =>
      nat0 c.flash.counters i = nat0 s.chip.flash.counters i + 1 ∧ (∀ j < 16, j ≠ i → nat0 c.flash.counters j = nat0 s.chip.flash.counters j) ∧ c.sec.ctrSt = 2 ∧ bit 1 (c.rg (ra pgMgt 0x20)) = true)) ∧
  (∀ (s : State) (i : Nat),
    s.chip.isOn →
    s.chip.sec.ctrSt ≠ 1 →
    i = fld 3 0 (s.chip.rg (ra pgMgt 0x124)) →
    i < 4 ∨ nat0 s.chip.flash.counters i = 0xFFFFFFFF →
    Does (.ctrInc) s (fun c =>
      c = { s.chip with sec := { s.chip.sec with ctrSt := 3 } })) ∧
  (∀ (s : State),
    s.chip.isOn →
    s.chip.sec.ctrSt = 1 →
    Does (.ctrInc) s (fun c =>
      s.chip.logs c pgMgt 0 31)) ∧
  (∀ (s : State),
    s.chip.isOn →
    Does (.extCmd) s (fun c =>
      c = { s.chip with sec := { s.chip.sec with m3 := sha256 (s.chip.sec.m3 ++ (List.range 8).flatMap (fun i => leBytes 4 (s.chip.rg (ra pgSec (0x1B0 + 4 * i))))) } })) ∧
  (∀ (s : State) (q : QueueId) (w : List Nat) (a b : Bool),
    s.chip.nextEntry q 0x12 w →
    1 ≤ eLen w →
    eLen w ≤ 65536 →
    Does (.lcTransition q a b) s (fun c =>
      s.chip.requests c q w 0x1C (eLen w) (leBytes 4 (eLen w)))) ∧
  (∀ (s : State) (q : QueueId) (e : Entry) (a b : Bool),
    s.chip.signedIs q e →
    sgType e.got = 1 →
    judge s.chip e.got a b = .accept →
    holdOk s.chip = true →
    s.chip.sec.lcReset = none →
    s.chip.pwr.defer = [] →
    (s.chip.queue q).resetting = false →
    (s.chip.queue q).used < s.chip.cqSize q →
    bit 9 (wd e.words 0) = false →
    Does (.lcTransition q a b) s (fun c =>
      s.chip.signedEnds c q 0 0 ∧ c.sec.lcReset = some (s.chip.beat + 1024) ∧ c.flash.wipePend = true ∧ nat0 c.flash.counters 0 = nat0 s.chip.flash.counters 0 + 1 ∧
      (fld 2 0 (sgArg e.got) ≠ 4 → c.flash.lcState = fld 2 0 (sgArg e.got) ∧ c.otp.retire = s.chip.otp.retire) ∧ (fld 2 0 (sgArg e.got) = 4 → c.otp.retire = true ∧ c.flash.prov = []) ∧
      (fld 2 0 (sgArg e.got) = 1 → c.flash.cnKey = sgKey e.got ∧ c.otp.prov = true))) ∧
  (∀ (s : State) (q : QueueId) (e : Entry) (a b : Bool) (k : Nat),
    s.chip.signedIs q e →
    sgType e.got = 1 →
    judge s.chip e.got a b = .refuse k →
    k < 16 →
    s.chip.sec.lcReset = none →
    s.chip.pwr.defer = [] →
    (s.chip.queue q).resetting = false →
    (s.chip.queue q).used < s.chip.cqSize q →
    Does (.lcTransition q a b) s (fun c =>
      s.chip.signedEnds c q 6 k ∧ c.sec.lcResult = k ∧ c.hasErr pgSec 0 8 = true ∧ c.flash = s.chip.flash ∧ c.otp = s.chip.otp)) ∧
  (∀ (s : State) (q : QueueId) (e : Entry) (b : Bool),
    s.chip.signedIs q e →
    sgType e.got = 2 →
    judge s.chip e.got false b = .accept →
    (s.chip.queue q).resetting = false →
    (s.chip.queue q).used < s.chip.cqSize q →
    bit 9 (wd e.words 0) = false →
    Does (.masterOverride q b) s (fun c =>
      s.chip.signedEnds c q 0 0 ∧ c.cad.override = some { target := fld 10 0 (sgArg e.got), mepoch := fld 23 16 (sgArg e.got), at_ := s.chip.beat + 1 } ∧ c.cad.st = s.chip.cad.st)) ∧
  (∀ (s : State) (q : QueueId) (e : Entry) (b : Bool) (k : Nat),
    s.chip.signedIs q e →
    sgType e.got = 2 →
    judge s.chip e.got false b = .refuse k →
    k < 16 →
    (s.chip.queue q).resetting = false →
    (s.chip.queue q).used < s.chip.cqSize q →
    Does (.masterOverride q b) s (fun c =>
      s.chip.signedEnds c q 6 k ∧ c.sec.lcResult = k ∧ c.hasErr pgCad 0 13 = true ∧ c.cad = s.chip.cad)) ∧
  (∀ (s : State) (q : QueueId) (e : Entry) (b : Bool),
    s.chip.signedIs q e →
    sgType e.got = 3 →
    judge s.chip e.got false b = .accept →
    (s.chip.queue q).resetting = false →
    (s.chip.queue q).used < s.chip.cqSize q →
    bit 9 (wd e.words 0) = false →
    Does (.svnCommit q b) s (fun c =>
      s.chip.signedEnds c q 0 0 ∧ c.otp = { s.chip.otp with svn := fld 6 0 (sgArg e.got) } ∧ s.chip.otp.svn < c.otp.svn ∧ c.flash = s.chip.flash)) ∧
  (∀ (s : State) (q : QueueId) (e : Entry) (b : Bool) (k : Nat),
    s.chip.signedIs q e →
    sgType e.got = 3 →
    judge s.chip e.got false b = .refuse k →
    k < 16 →
    (s.chip.queue q).resetting = false →
    (s.chip.queue q).used < s.chip.cqSize q →
    Does (.svnCommit q b) s (fun c =>
      s.chip.signedEnds c q 6 k ∧ c.sec.lcResult = k ∧ c.hasErr pgSec 0 8 = true ∧ c.otp = s.chip.otp)) ∧
  (∀ (s : State) (q : QueueId) (e : Entry) (b : Bool),
    s.chip.signedIs q e →
    sgType e.got = 3 →
    judge s.chip e.got false b = .badSig →
    (s.chip.queue q).resetting = false →
    (s.chip.queue q).used < s.chip.cqSize q →
    Does (.svnCommit q b) s (fun c =>
      s.chip.signedEnds c q 8 0 ∧ c.sec.lcResult = s.chip.sec.lcResult ∧ c.hasErr pgSec 0 8 = true ∧ c.otp = s.chip.otp)) ∧
  (∀ (s : State) (b : Nat),
    s.chip.isOn →
    s.chip.sec.lcReset = some b →
    b ≤ s.chip.beat →
    Does (.lifecycleReset) s (fun c =>
      s.chip.resets c 4)) ∧
  (∀ (s : State),
    s.chip.isOn →
    ∀ b, s.chip.sec.lcReset = some b → s.chip.beat < b →
    Does (.lifecycleReset) s (fun c =>
      c = s.chip)) ∧
  (∀ (s : State) (f : Frame),
    s.chip.phase = .loader →
    s.chip.mbp.sess = 4 →
    f.type = 0x3C →
    f.prot = false →
    f.broken = false →
    f.body ≠ [] →
    f.addr % 64 = 0 →
    f.body.length % 64 = 0 →
    f.addr + f.body.length ≤ 0x3000000 →
    Does (.recoveryChunk f) s (fun c =>
      (∀ i < f.body.length, Tab.get (fun _ => 0#8) c.sec.staged (f.addr + i) = f.body.getD i 0#8) ∧ (∀ u, f.addr / 64 ≤ u → u < (f.addr + f.body.length) / 64 → u ∈ c.sec.units) ∧ (∀ u ∈ s.chip.sec.units, u ∈ c.sec.units) ∧ (∃ g ∈ c.mbp.out, g.type = 0x3D ∧ g.tag = f.tag ∧ g.prot = false ∧ g.body.take 4 = leBytes 4 0))) ∧
  (∀ (s : State) (f : Frame),
    s.chip.phase = .loader →
    s.chip.mbp.sess = 4 →
    f.type = 0x3C →
    f.prot = false →
    f.broken = false →
    f.body ≠ [] →
    f.addr % 64 ≠ 0 ∨ f.body.length % 64 ≠ 0 ∨ 0x3000000 < f.addr + f.body.length →
    Does (.recoveryChunk f) s (fun c =>
      c.sec = s.chip.sec ∧ (∃ g ∈ c.mbp.out, g.type = 0x3D ∧ g.tag = f.tag ∧ g.prot = false ∧ g.body.take 4 = leBytes 4 1))) ∧
  (∀ (s : State) (f : Frame) (a b : Bool),
    s.chip.phase = .loader →
    s.chip.mbp.sess = 4 →
    f.type = 0x3C →
    f.prot = false →
    f.broken = false →
    f.body = [] →
    f.addr % 64 = 0 →
    f.addr ≤ 0x3000000 →
    ∃ u < f.addr / 64, u ∉ s.chip.sec.units →
    Does (.recoveryCommit f a b) s (fun c =>
      c.sec = s.chip.sec ∧ c.flash = s.chip.flash ∧ c.phase = .loader ∧ (∃ g ∈ c.mbp.out, g.type = 0x3D ∧ g.tag = f.tag ∧ g.prot = false ∧ g.body.take 4 = leBytes 4 2))) ∧
  (∀ (s : State) (f : Frame) (a b : Bool),
    s.chip.phase = .loader →
    s.chip.mbp.sess = 4 →
    f.type = 0x3C →
    f.prot = false →
    f.broken = false →
    f.body = [] →
    f.addr % 64 = 0 →
    f.addr ≤ 0x3000000 →
    ∀ u < f.addr / 64, u ∈ s.chip.sec.units →
    imageFail { bytes := Tab.getList (fun _ => 0#8) s.chip.sec.staged 0 f.addr, sigOk := a } s.chip.otp.svn s.chip.lc ≠ 0 →
    Does (.recoveryCommit f a b) s (fun c =>
      c.flash = s.chip.flash ∧ c.phase = .loader ∧ (∃ g ∈ c.mbp.out, g.type = 0x3D ∧ g.tag = f.tag ∧ g.prot = false ∧ g.body.take 4 = leBytes 4 (refusalOf (imageFail { bytes := Tab.getList (fun _ => 0#8) s.chip.sec.staged 0 f.addr, sigOk := a } s.chip.otp.svn s.chip.lc))))) ∧
  (∀ (s : State) (f : Frame),
    s.chip.phase = .loader →
    s.chip.mbp.sess = 4 →
    f.type = 0x3C →
    f.prot = false →
    f.broken = false →
    f.body = [] →
    f.addr % 64 = 0 →
    f.addr ≤ 0x3000000 →
    ∀ u < f.addr / 64, u ∈ s.chip.sec.units →
    imageFail { bytes := Tab.getList (fun _ => 0#8) s.chip.sec.staged 0 f.addr, sigOk := true } s.chip.otp.svn s.chip.lc = 0 →
    holdOk s.chip = true →
    Does (.recoveryCommit f true true) s (fun c =>
      c.flash.image = { bytes := Tab.getList (fun _ => 0#8) s.chip.sec.staged 0 f.addr, sigOk := true } ∧ c.pwr.cause = 1 ∧ c.sec.units = [] ∧ nat0 c.flash.counters 2 = nat0 s.chip.flash.counters 2 + 1 ∧ (∃ g ∈ c.mbp.out, g.type = 0x3D ∧ g.tag = f.tag ∧ g.prot = false ∧ g.body.take 4 = leBytes 4 0))) ∧
  (∀ (s : State) (v b : Nat),
    s.chip.isOn →
    s.chip.pwr.defer = [(.errLog, b)] →
    b < s.chip.beat →
    (s.chip.beat - b) % 1024 = 0 →
    holdOk { s.chip with pwr := { s.chip.pwr with vhold := v } } = true →
    Does (.flashDeferRetry v) s (fun c =>
      c.pwr.defer = [] ∧ c.pwr.vhold = v ∧ c.tam.queue = [] ∧ c.flash.logSeq = s.chip.flash.logSeq + s.chip.tam.queue.length)) ∧
  (∀ (s : State) (v b : Nat) (o : FlashOp),
    s.chip.isOn →
    s.chip.pwr.defer = [(o, b)] →
    (s.chip.beat - b) % 1024 ≠ 0 ∨ holdOk { s.chip with pwr := { s.chip.pwr with vhold := v } } = false →
    Does (.flashDeferRetry v) s (fun c =>
      c = { s.chip with pwr := { s.chip.pwr with vhold := v } })) ∧
  (∀ (s : State) (b : Nat) (o : FlashOp),
    s.chip.isOn →
    s.chip.pwr.st ≠ 5 →
    5800 ≤ s.chip.pwr.vin →
    s.chip.pwr.vin ≤ 8400 →
    s.chip.pwr.defer = [(o, b)] →
    b + 65536 ≤ s.chip.beat →
    Does (.flashDeferExpire) s (fun c =>
      c.pwr.defer = [] ∧ c.hasErr pgMgt 2 10 = true ∧ c.flash = s.chip.flash)) ∧
  (∀ (s : State),
    s.chip.isOn →
    s.chip.pwr.st = 5 ∨ ∀ d ∈ s.chip.pwr.defer, s.chip.beat < d.2 + 65536 →
    Does (.flashDeferExpire) s (fun c =>
      c = s.chip)) ∧
  (∀ (s : State) (k : Bool),
    s.chip.isOn →
    s.chip.sec.lcReset.isSome = true ∨ s.chip.pwr.defer.any (fun d => d.1 == .lifecycle) = true →
    Does (.imgUpdate k) s (fun c =>
      c = ignored (ra pgMgt 0x11C) 1 s.chip)) ∧
  (∀ (s : State) (k : Bool) (a n : Nat),
    s.chip.isOn →
    s.chip.sec.imgSt ≠ 1 →
    s.chip.sec.imgSt ≠ 2 →
    s.chip.sec.lcReset = none →
    s.chip.pwr.defer.any (fun d => d.1 == .lifecycle) = false →
    s.chip.mbp.sess = 2 →
    s.chip.pwr.st = 1 →
    a = s.chip.rg64 (ra pgMgt 0x110) →
    n = s.chip.rg (ra pgMgt 0x118) →
    a % 64 ≠ 0 ∨ n = 0 ∨ t0Size < a + n →
    Does (.imgUpdate k) s (fun c =>
      c = irq pgMgt 0 { s.chip with sec := { s.chip.sec with imgSt := 4, imgCode := 1, pendImg := none } })) ∧
  (∀ (s : State) (k : Bool) (a n : Nat),
    s.chip.isOn →
    s.chip.sec.imgSt ≠ 1 →
    s.chip.sec.imgSt ≠ 2 →
    s.chip.sec.lcReset = none →
    s.chip.pwr.defer.any (fun d => d.1 == .lifecycle) = false →
    s.chip.mbp.sess = 2 →
    s.chip.pwr.st = 1 →
    a = s.chip.rg64 (ra pgMgt 0x110) →
    n = s.chip.rg (ra pgMgt 0x118) →
    a % 64 = 0 →
    1 ≤ n →
    a + n ≤ t0Size →
    ∀ l ∈ (match s.chip.tasRead a n with | .ok l => some l | _ => none : Option (List Byte)), False →
    Does (.imgUpdate k) s (fun c =>
      c = irq pgMgt 0 { s.chip with sec := { s.chip.sec with imgSt := 4, imgCode := 3, pendImg := none } })) ∧
  (∀ (s : State) (k : Bool) (a n : Nat) (l : List Byte),
    s.chip.isOn →
    s.chip.sec.imgSt ≠ 1 →
    s.chip.sec.imgSt ≠ 2 →
    s.chip.sec.lcReset = none →
    s.chip.pwr.defer.any (fun d => d.1 == .lifecycle) = false →
    s.chip.mbp.sess = 2 →
    s.chip.pwr.st = 1 →
    a = s.chip.rg64 (ra pgMgt 0x110) →
    n = s.chip.rg (ra pgMgt 0x118) →
    a % 64 = 0 →
    1 ≤ n →
    a + n ≤ t0Size →
    s.chip.tasRead a n = .ok l →
    imageFail { bytes := l, sigOk := k } s.chip.otp.svn s.chip.lc ≠ 0 →
    Does (.imgUpdate k) s (fun c =>
      c = irq pgMgt 0 { s.chip with sec := { s.chip.sec with imgSt := 4, imgCode := refusalOf (imageFail { bytes := l, sigOk := k } s.chip.otp.svn s.chip.lc), pendImg := none } })) ∧
  (∀ (s : State) (k : Bool) (a n : Nat) (l : List Byte),
    s.chip.isOn →
    s.chip.sec.imgSt ≠ 1 →
    s.chip.sec.imgSt ≠ 2 →
    s.chip.sec.lcReset = none →
    s.chip.pwr.defer.any (fun d => d.1 == .lifecycle) = false →
    s.chip.mbp.sess = 2 →
    s.chip.pwr.st = 1 →
    a = s.chip.rg64 (ra pgMgt 0x110) →
    n = s.chip.rg (ra pgMgt 0x118) →
    a % 64 = 0 →
    1 ≤ n →
    a + n ≤ t0Size →
    s.chip.tasRead a n = .ok l →
    imageFail { bytes := l, sigOk := k } s.chip.otp.svn s.chip.lc = 0 →
    Does (.imgUpdate k) s (fun c =>
      c = startFlash .image { s.chip with sec := { s.chip.sec with imgSt := 1, imgCode := 0, pendImg := some { bytes := l, sigOk := k } } })) ∧
  (∀ (s : State) (i : Nat),
    s.chip.isOn →
    s.chip.sec.ctrSt ≠ 1 →
    i = fld 3 0 (s.chip.rg (ra pgMgt 0x124)) →
    4 ≤ i →
    nat0 s.chip.flash.counters i ≠ 0xFFFFFFFF →
    Does (.ctrInc) s (fun c =>
      c = startFlash (.counter i) { s.chip with sec := { s.chip.sec with ctrSt := 1, ctrPend := some i } })) ∧
  (∀ (s : State) (o : FlashOp),
    s.chip.pwr.st ≠ 5 ∨ o.record = true →
    holdOk s.chip = true →
    startFlash o s.chip = doFlash o s.chip) ∧
  (∀ (s : State) (o : FlashOp),
    s.chip.pwr.st ≠ 5 ∨ o.record = true →
    holdOk s.chip = false →
    s.chip.pwr.defer.any (fun d => d.1 == o) = true →
    startFlash o s.chip = s.chip) ∧
  (∀ (s : State) (o : FlashOp),
    s.chip.pwr.st ≠ 5 ∨ o.record = true →
    holdOk s.chip = false →
    s.chip.pwr.defer.any (fun d => d.1 == o) = false →
    let k := updPwr (fun p => { p with defer := p.defer ++ [(o, s.chip.beat)] }) (irq pgPwr 6 (s.chip.bumpRg (pwrReg 0x144) 1)); startFlash o s.chip = (if o = .ageing then irq pgTam 5 k else k)) ∧
  (∀ (s : State) (q : QueueId) (w : List Nat) (a b : Bool),
    (s.chip.queue q).started.findIdx? signedHere = none →
    s.chip.turnOf q 0x12 w →
    1 ≤ eLen w →
    eLen w ≤ 65536 →
    Does (.lcTransition q a b) s (fun c =>
      let r := takeEntry q s.chip; c = pullNext q r.2 0 (eLen w) w r.1)) ∧
  (∀ (s : State) (q : QueueId) (w : List Nat) (a b : Bool),
    (s.chip.queue q).started.findIdx? signedHere = none →
    s.chip.turnOf q 0x12 w →
    eLen w = 0 ∨ 65536 < eLen w →
    Does (.lcTransition q a b) s (fun c =>
      let r := takeEntry q s.chip; c = finish q r.2 1 0 r.1)) ∧
  (∀ (s : State) (q : QueueId) (w : List Nat) (b : Bool),
    (s.chip.queue q).started.findIdx? signedHere = none →
    s.chip.turnOf q 0x12 w →
    1 ≤ eLen w →
    eLen w ≤ 65536 →
    Does (.masterOverride q b) s (fun c =>
      let r := takeEntry q s.chip; c = pullNext q r.2 0 (eLen w) w r.1)) ∧
  (∀ (s : State) (q : QueueId) (w : List Nat) (b : Bool),
    (s.chip.queue q).started.findIdx? signedHere = none →
    s.chip.turnOf q 0x12 w →
    1 ≤ eLen w →
    eLen w ≤ 65536 →
    Does (.svnCommit q b) s (fun c =>
      let r := takeEntry q s.chip; c = pullNext q r.2 0 (eLen w) w r.1)) ∧
  (∀ (s : State) (q : QueueId) (i : Nat) (b : List Byte) (u v : Bool),
    s.chip.signedAt q i b →
    sgType b ≠ 2 →
    sgType b ≠ 3 →
    judge s.chip b u v = .accept →
    s.chip.pwr.defer.any (fun d => d.1 == .lifecycle) = false →
    s.chip.sec.lcReset.isSome = false →
    holdOk s.chip = true →
    Does (.lcTransition q u v) s (fun c =>
      c = finish q i 0 0 (transition b s.chip))) ∧
  (∀ (s : State) (q : QueueId) (i : Nat) (b : List Byte) (u v : Bool),
    s.chip.signedAt q i b →
    sgType b ≠ 2 →
    sgType b ≠ 3 →
    judge s.chip b u v = .accept →
    s.chip.pwr.defer.any (fun d => d.1 == .lifecycle) = false →
    s.chip.sec.lcReset.isSome = false →
    holdOk s.chip = false →
    Does (.lcTransition q u v) s (fun c =>
      c = startFlash .lifecycle s.chip)) ∧
  (∀ (s : State) (q : QueueId) (i : Nat) (b : List Byte) (u v : Bool) (k : Nat),
    s.chip.signedAt q i b →
    sgType b ≠ 2 →
    sgType b ≠ 3 →
    judge s.chip b u v = .refuse k →
    s.chip.pwr.defer.any (fun d => d.1 == .lifecycle) = false →
    s.chip.sec.lcReset.isSome = false →
    Does (.lcTransition q u v) s (fun c =>
      c = finish q i 6 k (ce pgSec 8 (sgType b) 0 (updSec (fun x => { x with lcResult := k }) s.chip)))) ∧
  (∀ (s : State) (q : QueueId) (i : Nat) (b : List Byte) (u v : Bool),
    s.chip.signedAt q i b →
    sgType b ≠ 2 →
    sgType b ≠ 3 →
    judge s.chip b u v = .badSig →
    s.chip.pwr.defer.any (fun d => d.1 == .lifecycle) = false →
    s.chip.sec.lcReset.isSome = false →
    Does (.lcTransition q u v) s (fun c =>
      c = finish q i 8 0 (ce pgSec 8 (sgType b) 0 s.chip))) ∧
  (∀ (s : State) (q : QueueId) (i : Nat) (b : List Byte) (u v : Bool),
    s.chip.signedAt q i b →
    sgType b ≠ 2 →
    sgType b ≠ 3 →
    s.chip.pwr.defer.any (fun d => d.1 == .lifecycle) = true ∨ s.chip.sec.lcReset.isSome = true →
    Does (.lcTransition q u v) s (fun c =>
      c = s.chip)) ∧
  (∀ (s : State) (q : QueueId) (i : Nat) (b : List Byte) (u v : Bool),
    s.chip.signedAt q i b →
    sgType b = 2 ∨ sgType b = 3 →
    Does (.lcTransition q u v) s (fun c =>
      c = s.chip)) ∧
  (∀ (s : State) (q : QueueId) (i : Nat) (b : List Byte) (v : Bool),
    s.chip.signedAt q i b →
    sgType b = 2 →
    judge s.chip b false v = .accept →
    Does (.masterOverride q v) s (fun c =>
      c = finish q i 0 0 (updCad (fun k => { k with override := some { target := fld 10 0 (sgArg b), mepoch := fld 23 16 (sgArg b), at_ := s.chip.beat + 1 } }) s.chip))) ∧
  (∀ (s : State) (q : QueueId) (i : Nat) (b : List Byte) (v : Bool) (k : Nat),
    s.chip.signedAt q i b →
    sgType b = 2 →
    judge s.chip b false v = .refuse k →
    Does (.masterOverride q v) s (fun c =>
      c = finish q i 6 k (ce pgCad 13 (fld 10 0 (sgArg b)) (fld 23 16 (sgArg b)) (updSec (fun x => { x with lcResult := k }) s.chip)))) ∧
  (∀ (s : State) (q : QueueId) (i : Nat) (b : List Byte) (v : Bool),
    s.chip.signedAt q i b →
    sgType b = 2 →
    judge s.chip b false v = .badSig →
    Does (.masterOverride q v) s (fun c =>
      c = finish q i 8 0 (ce pgCad 13 (fld 10 0 (sgArg b)) (fld 23 16 (sgArg b)) s.chip))) ∧
  (∀ (s : State) (q : QueueId) (i : Nat) (b : List Byte) (v : Bool),
    s.chip.signedAt q i b →
    sgType b ≠ 2 →
    Does (.masterOverride q v) s (fun c =>
      c = s.chip)) ∧
  (∀ (s : State) (q : QueueId) (i : Nat) (b : List Byte) (v : Bool),
    s.chip.signedAt q i b →
    sgType b = 3 →
    judge s.chip b false v = .accept →
    Does (.svnCommit q v) s (fun c =>
      c = finish q i 0 0 { s.chip with otp := { s.chip.otp with svn := fld 6 0 (sgArg b) } })) ∧
  (∀ (s : State) (q : QueueId) (i : Nat) (b : List Byte) (v : Bool) (k : Nat),
    s.chip.signedAt q i b →
    sgType b = 3 →
    judge s.chip b false v = .refuse k →
    Does (.svnCommit q v) s (fun c =>
      c = finish q i 6 k (ce pgSec 8 (sgType b) 0 (updSec (fun x => { x with lcResult := k }) s.chip)))) ∧
  (∀ (s : State) (q : QueueId) (i : Nat) (b : List Byte) (v : Bool),
    s.chip.signedAt q i b →
    sgType b = 3 →
    judge s.chip b false v = .badSig →
    Does (.svnCommit q v) s (fun c =>
      c = finish q i 8 0 (ce pgSec 8 (sgType b) 0 s.chip))) ∧
  (∀ (s : State) (q : QueueId) (i : Nat) (b : List Byte) (v : Bool),
    s.chip.signedAt q i b →
    sgType b ≠ 3 →
    Does (.svnCommit q v) s (fun c =>
      c = s.chip)) ∧
  (∀ (s : State) (b : Nat),
    s.chip.isOn →
    s.chip.sec.lcReset = some b →
    b ≤ s.chip.beat →
    Does (.lifecycleReset) s (fun c =>
      c = moduleReset 4 false s.chip)) ∧
  (∀ (s : State) (f : Frame),
    f.body = [] →
    Does (.recoveryChunk f) s (fun c =>
      c = s.chip)) ∧
  (∀ (s : State) (f : Frame) (a b : Bool),
    f.body ≠ [] →
    Does (.recoveryCommit f a b) s (fun c =>
      c = s.chip)) ∧
  (∀ (s : State) (f : Frame),
    f.body ≠ [] →
    f.type ≠ 0x3C ∨ takesFrames s.chip 0x3C = false →
    Does (.recoveryChunk f) s (fun c =>
      c = s.chip)) ∧
  (∀ (s : State) (f : Frame),
    f.body ≠ [] →
    f.type = 0x3C →
    s.chip.listens 0x3C →
    s.chip.mbp.sess ≠ 4 →
    Does (.recoveryChunk f) s (fun c =>
      c = ce pgMbp 8 f.type f.tag (countAuth s.chip.heard))) ∧
  (∀ (s : State) (f : Frame) (a b : Bool),
    f.body = [] →
    f.type = 0x3C →
    s.chip.listens 0x3C →
    s.chip.mbp.sess ≠ 4 →
    Does (.recoveryCommit f a b) s (fun c =>
      c = ce pgMbp 8 f.type f.tag (countAuth s.chip.heard))) ∧
  (∀ (s : State) (f : Frame),
    s.chip.phase = .loader →
    s.chip.mbp.sess = 4 →
    f.type = 0x3C →
    f.body ≠ [] →
    f.broken = true ∨ f.prot = true →
    Does (.recoveryChunk f) s (fun c =>
      c = malformed f s.chip.heard)) ∧
  (∀ (s : State) (f : Frame),
    s.chip.phase = .loader →
    s.chip.mbp.sess = 4 →
    f.type = 0x3C →
    f.prot = false →
    f.broken = false →
    f.body ≠ [] →
    f.addr % 64 = 0 →
    f.body.length % 64 = 0 →
    f.addr + f.body.length ≤ 0x3000000 →
    Does (.recoveryChunk f) s (fun c =>
      c = recoveryAnswer f 0 (updSec (fun x => { x with staged := Tab.setList (fun _ => 0#8) x.staged f.addr f.body, units := x.units ++ ((List.range (f.body.length / 64)).map (fun i => f.addr / 64 + i)).filter (fun u => !x.units.contains u) }) s.chip.heard))) ∧
  (∀ (s : State) (f : Frame),
    s.chip.phase = .loader →
    s.chip.mbp.sess = 4 →
    f.type = 0x3C →
    f.prot = false →
    f.broken = false →
    f.body ≠ [] →
    f.addr % 64 ≠ 0 ∨ f.body.length % 64 ≠ 0 ∨ 0x3000000 < f.addr + f.body.length →
    Does (.recoveryChunk f) s (fun c =>
      c = recoveryAnswer f 1 s.chip.heard)) ∧
  (∀ (s : State) (f : Frame) (a b : Bool),
    s.chip.phase = .loader →
    s.chip.mbp.sess = 4 →
    f.type = 0x3C →
    f.prot = false →
    f.broken = false →
    f.body = [] →
    f.addr % 64 ≠ 0 ∨ 0x3000000 < f.addr →
    Does (.recoveryCommit f a b) s (fun c =>
      c = recoveryAnswer f 1 s.chip.heard)) ∧
  (∀ (s : State) (f : Frame) (a b : Bool),
    s.chip.phase = .loader →
    s.chip.mbp.sess = 4 →
    f.type = 0x3C →
    f.prot = false →
    f.broken = false →
    f.body = [] →
    f.addr % 64 = 0 →
    f.addr ≤ 0x3000000 →
    ∃ u < f.addr / 64, u ∉ s.chip.sec.units →
    Does (.recoveryCommit f a b) s (fun c =>
      c = recoveryAnswer f 2 s.chip.heard)) ∧
  (∀ (s : State) (f : Frame) (a b : Bool),
    s.chip.phase = .loader →
    s.chip.mbp.sess = 4 →
    f.type = 0x3C →
    f.prot = false →
    f.broken = false →
    f.body = [] →
    f.addr % 64 = 0 →
    f.addr ≤ 0x3000000 →
    ∀ u < f.addr / 64, u ∈ s.chip.sec.units →
    imageFail { bytes := Tab.getList (fun _ => 0#8) s.chip.sec.staged 0 f.addr, sigOk := a } s.chip.otp.svn s.chip.lc ≠ 0 →
    Does (.recoveryCommit f a b) s (fun c =>
      c = recoveryAnswer f (refusalOf (imageFail { bytes := Tab.getList (fun _ => 0#8) s.chip.sec.staged 0 f.addr, sigOk := a } s.chip.otp.svn s.chip.lc)) s.chip.heard)) ∧
  (∀ (s : State) (f : Frame) (b : Bool),
    s.chip.phase = .loader →
    s.chip.mbp.sess = 4 →
    f.type = 0x3C →
    f.prot = false →
    f.broken = false →
    f.body = [] →
    f.addr % 64 = 0 →
    f.addr ≤ 0x3000000 →
    ∀ u < f.addr / 64, u ∈ s.chip.sec.units →
    imageFail { bytes := Tab.getList (fun _ => 0#8) s.chip.sec.staged 0 f.addr, sigOk := true } s.chip.otp.svn s.chip.lc = 0 →
    Does (.recoveryCommit f true b) s (fun c =>
      c = programImage f true b (updSec (fun x => { x with commit := none }) s.chip.heard))) ∧
  (∀ (s : State) (v b : Nat) (o : FlashOp),
    s.chip.isOn →
    s.chip.pwr.defer = [(o, b)] →
    b < s.chip.beat →
    (s.chip.beat - b) % 1024 = 0 →
    s.chip.pwr.st ≠ 5 ∨ o.record = true →
    holdOk { s.chip with pwr := { s.chip.pwr with vhold := v } } = true →
    Does (.flashDeferRetry v) s (fun c =>
      c = doFlash o { s.chip with pwr := { s.chip.pwr with vhold := v, defer := [] } })) ∧
  (∀ (s : State) (v : Nat),
    s.chip.isOn →
    ∀ d ∈ s.chip.pwr.defer, s.chip.beat ≤ d.2 ∨ (s.chip.beat - d.2) % 1024 ≠ 0 ∨ holdOk { s.chip with pwr := { s.chip.pwr with vhold := v } } = false ∨ s.chip.pwr.st = 5 ∧ d.1.record = false →
    Does (.flashDeferRetry v) s (fun c =>
      c = { s.chip with pwr := { s.chip.pwr with vhold := v } })) ∧
  (∀ (s : State) (v : Nat),
    s.chip.isOn →
    Does (.flashDeferRetry v) s (fun c =>
      c = s.chip.pwr.defer.foldl (fun k d => if d.2 < k.beat ∧ (k.beat - d.2) % 1024 = 0 ∧ holdOk k = true ∧ (k.pwr.st ≠ 5 ∨ d.1.record = true) then doFlash d.1 (updPwr (fun p => { p with defer := p.defer.filter (fun x => x.1 != d.1) }) k) else k) { s.chip with pwr := { s.chip.pwr with vhold := v } })) ∧
  (∀ (s : State) (v : Nat) (f : Frame) (a b : Bool),
    s.chip.phase = .loader →
    s.chip.sec.commit = some (f, a, b) →
    Does (.flashDeferRetry v) s (fun c =>
      c = programImage f a b { s.chip with pwr := { s.chip.pwr with vhold := v } })) ∧
  (∀ (s : State) (v : Nat),
    s.chip.phase = .loader →
    s.chip.sec.commit = none →
    Does (.flashDeferRetry v) s (fun c =>
      c = { s.chip with pwr := { s.chip.pwr with vhold := v } })) ∧
  (∀ (s : State) (b : Nat) (o : FlashOp),
    s.chip.isOn →
    s.chip.pwr.st ≠ 5 →
    5800 ≤ s.chip.pwr.vin →
    s.chip.pwr.vin ≤ 8400 →
    s.chip.pwr.defer = [(o, b)] →
    b + 65536 ≤ s.chip.beat →
    Does (.flashDeferExpire) s (fun c =>
      c = ucOp pgMgt 10 0 b 0 (flashDropped o { s.chip with pwr := { s.chip.pwr with defer := [] } }))) ∧
  (∀ (s : State) (i : Nat),
    (flashDropped (.counter i) s.chip).sec = { s.chip.sec with ctrSt := 3, ctrPend := none } ∧ (flashDropped .image s.chip).sec = { s.chip.sec with imgSt := 4, imgCode := 7, pendImg := none }) ∧
  (∀ (s : State),
    s.chip.isOn →
    s.chip.pwr.st ≠ 5 →
    5800 ≤ s.chip.pwr.vin →
    s.chip.pwr.vin ≤ 8400 →
    Does (.flashDeferExpire) s (fun c =>
      c = s.chip.pwr.defer.foldl (fun k d => if d.2 + 65536 ≤ k.beat then ucOp pgMgt 10 0 d.2 0 (flashDropped d.1 (updPwr (fun p => { p with defer := p.defer.filter (fun x => x.1 != d.1) }) k)) else k) s.chip)) ∧
  (∀ (s : State),
    s.chip.isOn →
    s.chip.pwr.vin < 5800 ∨ 8400 < s.chip.pwr.vin →
    Does (.flashDeferExpire) s (fun c =>
      c = s.chip))

/-- ERROR_LOG_COMMIT moves the queued records into the flash log, or is deferred and counted where the hold-up check
fails (R381, R426). LOG_COPY copies records of the log into T0 direct, or answers status 3 (R440). MONITOR_SAMPLE
keeps the sample (R433). VOLTAGE_STEP and LASER_STEP raise their adjustment by one step with a CE, within their limits
(R434). AGEING_CHECKPOINT commits the ageing record when due (R437). A maintenance window is armed, starts at its beat
when its target is free, takes the target out, and gives it back with its result; GO starts one at once, CANCEL drops
an armed one (R435, R440). -/
def Obligations.Telemetry : Prop :=
  (∀ (s : State),
    s.chip.isOn →
    s.chip.tam.queue = [] →
    Does (.errorLogCommit) s (fun c =>
      c = s.chip)) ∧
  (∀ (s : State),
    s.chip.isOn →
    s.chip.tam.queue ≠ [] →
    holdOk s.chip = true →
    Does (.errorLogCommit) s (fun c =>
      c.tam.queue = [] ∧ c.flash.logSeq = s.chip.flash.logSeq + s.chip.tam.queue.length ∧ (s.chip.flash.errLog.length + s.chip.tam.queue.length ≤ logRoom → c.flash.errLog = s.chip.flash.errLog ++ s.chip.tam.queue.map (·.1)) ∧ c.regs = s.chip.regs)) ∧
  (∀ (s : State),
    s.chip.isOn →
    s.chip.tam.queue ≠ [] →
    holdOk s.chip = false →
    s.chip.pwr.defer = [] →
    Does (.errorLogCommit) s (fun c =>
      c.pwr.defer = [(.errLog, s.chip.beat)] ∧ c.rg (pwrReg 0x144) = sat32 (s.chip.rg (pwrReg 0x144)) 1 ∧ bit 6 (c.rg (ra pgPwr 0x20)) = true ∧ c.flash = s.chip.flash)) ∧
  (∀ (s : State) (f d : Nat),
    s.chip.isReady →
    f = s.chip.rg (tamReg 0x134) →
    d = s.chip.rg64 (tamReg 0x13C) →
    s.chip.rg (tamReg 0x138) = 1 →
    s.chip.flash.logSeq - s.chip.flash.errLog.length + 1 ≤ f →
    f ≤ s.chip.flash.logSeq →
    d % 32 = 0 →
    d + 32 ≤ t0Size →
    d % payloadSize + 32 ≤ payloadSize →
    ∀ i < 32, s.chip.guarded (d + i) = false →
    s.chip.flash.errLog.length ≤ s.chip.flash.logSeq →
    Does (.logCopy) s (fun c =>
      c.tam.logStatus = 2 ∧ c.mem = (s.chip.store d ((recWords (s.chip.flash.errLog.getD (f - (s.chip.flash.logSeq - s.chip.flash.errLog.length + 1)) {})).flatMap (leBytes 4))).mem ∧ c.flash = s.chip.flash)) ∧
  (∀ (s : State),
    s.chip.isReady →
    s.chip.rg (tamReg 0x138) = 0 ∨ s.chip.flash.logSeq < s.chip.rg (tamReg 0x134) + s.chip.rg (tamReg 0x138) - 1 ∨ s.chip.rg64 (tamReg 0x13C) % 32 ≠ 0 →
    Does (.logCopy) s (fun c =>
      c = { s.chip with tam := { s.chip.tam with logStatus := 3 } })) ∧
  (∀ (s : State) (i : Fin 282) (v : W32),
    s.chip.isOn →
    i.val < 216 ∨ 264 ≤ i.val →
    Does (.monitorSample i v) s (fun c =>
      Tab.get (fun _ => none) c.tam.mon i = some v ∧ (∀ j < 282, j ≠ i.val → Tab.get (fun _ => none) c.tam.mon j = Tab.get (fun _ => none) s.chip.tam.mon j) ∧ c.mem = s.chip.mem)) ∧
  (∀ (s : State) (i : Fin 282) (v : W32),
    s.chip.isOn →
    216 ≤ i.val →
    i.val < 264 →
    Does (.monitorSample i v) s (fun c =>
      c = s.chip)) ∧
  (∀ (s : State) (b : Nat),
    s.chip.isOn →
    s.chip.tam.slackFrom = some b →
    b + 2 ^ 20 ≤ s.chip.beat →
    s.chip.tam.age.vofs < 24 →
    Does (.voltageStep) s (fun c =>
      c.tam.age.vofs = s.chip.tam.age.vofs + 1 ∧ c.tam.slackFrom = some s.chip.beat ∧ c.hasErr pgTam 0 8 = true)) ∧
  (∀ (s : State),
    s.chip.isOn →
    s.chip.tam.slackFrom = none ∨ 24 ≤ s.chip.tam.age.vofs →
    Does (.voltageStep) s (fun c =>
      c = s.chip)) ∧
  (∀ (s : State) (e : Fin 7) (o : Int),
    s.chip.isOn →
    s.chip.monS (273 + e.val) = some o →
    o + 50 < Tab.get (fun _ => 0) s.chip.tam.age.target e →
    nat0 s.chip.tam.age.bias e + 50 ≤ nat0 s.chip.tam.age.eol e →
    nat0 s.chip.tam.laserAt e = 0 ∨ nat0 s.chip.tam.laserAt e + 1024 ≤ s.chip.beat →
    Does (.laserStep e) s (fun c =>
      nat0 c.tam.age.bias e = nat0 s.chip.tam.age.bias e + 50 ∧ nat0 c.tam.laserAt e = s.chip.beat ∧ c.hasErr pgTam 0 8 = true ∧ (∀ j < 7, j ≠ e.val → nat0 c.tam.age.bias j = nat0 s.chip.tam.age.bias j))) ∧
  (∀ (s : State) (e : Fin 7),
    s.chip.isOn →
    s.chip.monS (273 + e.val) = none ∨ nat0 s.chip.tam.age.eol e < nat0 s.chip.tam.age.bias e + 50 →
    Does (.laserStep e) s (fun c =>
      c = s.chip)) ∧
  (∀ (s : State),
    s.chip.isOn →
    (s.chip.pwr.st = 5 ∧ s.chip.tam.queue = []) ∨ s.chip.pwr.st ≠ 5 ∧ s.chip.tam.ckptLast + max 0x10000 (s.chip.rg (tamReg 0x174)) ≤ s.chip.beat →
    holdOk s.chip = true →
    Does (.ageingCheckpoint) s (fun c =>
      c.flash.age = { s.chip.tam.age with opBeats := s.chip.tam.age.opBeats + (s.chip.beat - s.chip.tam.ckptLast) } ∧ c.tam.age = c.flash.age ∧ c.tam.ckptLast = s.chip.beat ∧ c.flash.errLog = s.chip.flash.errLog)) ∧
  (∀ (s : State),
    s.chip.isOn →
    s.chip.pwr.st ≠ 5 →
    s.chip.beat < s.chip.tam.ckptLast + max 0x10000 (s.chip.rg (tamReg 0x174)) →
    Does (.ageingCheckpoint) s (fun c =>
      c = s.chip)) ∧
  (∀ (s : State) (h : W32),
    s.chip.isReady →
    s.chip.tam.winSt ≠ 2 →
    winOk s.chip = true →
    Tab.get (fun _ => none) s.chip.pairStage (tamReg 0x164) = none →
    Does (.windowArm h) s (fun c =>
      c.tam.winSt = 1 ∧ c.tam.winFail = false ∧ c.tam.winAt = s.chip.armedAt (s.chip.rg (tamReg 0x164) + 2 ^ 32 * (h.toNat % 2 ^ 22)) ∧ c.mem = s.chip.mem)) ∧
  (∀ (s : State) (h : W32),
    s.chip.isReady →
    s.chip.tam.winSt = 2 ∨ winOk s.chip = false →
    Does (.windowArm h) s (fun c =>
      s.chip.logs c pgTam 0 31)) ∧
  (∀ (s : State),
    s.chip.isReady →
    s.chip.tam.winSt = 1 →
    s.chip.tam.winAt = s.chip.beat →
    winFree s.chip = true →
    winKind s.chip = 2 →
    Does (.windowStart) s (fun c =>
      c.tam.winSt = 2 ∧ c.tam.winFail = false ∧ c = { s.chip.setGmc (winTarget s.chip) { s.chip.gmc (winTarget s.chip) with steered := (s.chip.gmc (winTarget s.chip)).steered ||| 2 ^ winChan s.chip } with tam := c.tam })) ∧
  (∀ (s : State),
    s.chip.isReady →
    s.chip.tam.winSt = 1 →
    s.chip.tam.winAt ≤ s.chip.beat →
    winFree s.chip = true →
    winKind s.chip = 3 →
    Does (.windowStart) s (fun c =>
      c.tam.winSt = 2 ∧ (c.core (winTarget s.chip)).inTest = true ∧ (c.core (winTarget s.chip)).mapPend = false ∧ (s.chip.tam.winAt < s.chip.beat → c.hasErr pgCad 0 12 = true))) ∧
  (∀ (s : State),
    s.chip.isReady →
    s.chip.tam.winSt ≠ 1 ∨ s.chip.beat < s.chip.tam.winAt ∨ winFree s.chip = false →
    Does (.windowStart) s (fun c =>
      c = s.chip)) ∧
  (∀ (s : State),
    s.chip.isReady →
    s.chip.tam.winSt ≠ 2 →
    winOk s.chip = true →
    winFree s.chip = true →
    winKind s.chip = 1 →
    (s.chip.link (winTarget s.chip)).st ≠ 7 →
    s.chip.torusOk = true →
    Does (.winGo) s (fun c =>
      c.tam.winSt = 2 ∧ (c.link (winTarget s.chip)).st = 6 ∧ (c.link (winTarget s.chip)).prev = (s.chip.link (winTarget s.chip)).st ∧ c.hasErr (pgPort (winTarget s.chip)) 0 9 = true)) ∧
  (∀ (s : State),
    s.chip.isReady →
    s.chip.tam.winSt = 2 ∨ winOk s.chip = false ∨ winFree s.chip = false →
    Does (.winGo) s (fun c =>
      s.chip.logs c pgTam 0 31)) ∧
  (∀ (s : State),
    s.chip.isReady →
    s.chip.tam.winSt = 1 →
    Does (.winCancel) s (fun c =>
      c = { s.chip with tam := { s.chip.tam with winSt := 0 } })) ∧
  (∀ (s : State),
    s.chip.isReady →
    s.chip.tam.winSt ≠ 1 →
    Does (.winCancel) s (fun c =>
      s.chip.logs c pgTam 0 31)) ∧
  (∀ (s : State) (k : Bool),
    s.chip.isReady →
    s.chip.tam.winSt ≠ 2 →
    Does (.windowDone k) s (fun c =>
      c = s.chip)) ∧
  (∀ (s : State),
    s.chip.isReady →
    s.chip.tam.winSt = 2 →
    winKind s.chip = 3 →
    (s.chip.core (winTarget s.chip)).mapApp = false →
    (s.chip.core (winTarget s.chip)).st = 0 →
    Does (.windowDone true) s (fun c =>
      c.tam.winSt = 3 ∧ c.tam.winFail = false ∧ (c.core (winTarget s.chip)).inTest = false ∧ (c.core (winTarget s.chip)).mapPend = bit 0 (s.chip.rg (ra (pgCore (winTarget s.chip)) 8)) ∧ bit 3 (c.rg (ra pgTam 0x20)) = true)) ∧
  (∀ (s : State),
    s.chip.isReady →
    s.chip.tam.winSt = 2 →
    winKind s.chip = 3 →
    winTarget s.chip < 192 →
    (s.chip.core (winTarget s.chip)).mapApp = false →
    (s.chip.core (winTarget s.chip)).st = 0 →
    Does (.windowDone false) s (fun c =>
      c.tam.winSt = 3 ∧ c.tam.winFail = true ∧ (c.core (winTarget s.chip)).failed = true ∧ c.hasErr (pgCore (winTarget s.chip)) 0 11 = true ∧ nat0 c.tam.age.failures (winTarget s.chip) = nat0 s.chip.tam.age.failures (winTarget s.chip) + 1)) ∧
  (∀ (s : State),
    s.chip.isReady →
    s.chip.tam.winSt = 2 →
    winKind s.chip = 2 →
    bit (winChan s.chip) (s.chip.gmc (winTarget s.chip)).steered = true →
    Does (.windowDone true) s (fun c =>
      c.tam.winSt = 3 ∧ (c.gmc (winTarget s.chip)).steered = (s.chip.gmc (winTarget s.chip)).steered - 2 ^ winChan s.chip ∧ nat0 (c.gmc (winTarget s.chip)).retrains (winChan s.chip) = min 65535 (nat0 (s.chip.gmc (winTarget s.chip)).retrains (winChan s.chip) + 1) ∧ (c.gmc (winTarget s.chip)).up = (s.chip.gmc (winTarget s.chip)).up)) ∧
  (∀ (s : State),
    s.chip.isOn →
    s.chip.tam.queue ≠ [] →
    Does (.errorLogCommit) s (fun c =>
      c = startFlash .errLog s.chip)) ∧
  (∀ (s : State) (f n d : Nat),
    s.chip.isReady →
    f = s.chip.rg (tamReg 0x134) →
    n = s.chip.rg (tamReg 0x138) →
    d = s.chip.rg64 (tamReg 0x13C) →
    1 ≤ n →
    (s.chip.flash.logSeq - s.chip.flash.errLog.length + 1) ≤ f →
    f + n - 1 ≤ s.chip.flash.logSeq →
    d % 32 = 0 →
    d + 32 * n ≤ t0Size →
    Does (.logCopy) s (fun c =>
      c = (tasWrite d (((s.chip.flash.errLog.drop (f - (s.chip.flash.logSeq - s.chip.flash.errLog.length + 1))).take n).flatMap (fun e => (recWords e).flatMap (leBytes 4))) (updTam (fun t => { t with logStatus := 2 }) s.chip)).1)) ∧
  (∀ (s : State) (f n d : Nat),
    s.chip.isReady →
    f = s.chip.rg (tamReg 0x134) →
    n = s.chip.rg (tamReg 0x138) →
    d = s.chip.rg64 (tamReg 0x13C) →
    n = 0 ∨ f < (s.chip.flash.logSeq - s.chip.flash.errLog.length + 1) ∨ s.chip.flash.logSeq < f + n - 1 ∨ d % 32 ≠ 0 ∨ t0Size < d + 32 * n →
    Does (.logCopy) s (fun c =>
      c = { s.chip with tam := { s.chip.tam with logStatus := 3 } })) ∧
  (∀ (s : State) (i : Fin 282) (v : W32) (low : Bool),
    s.chip.isOn →
    i.val < 216 ∨ 264 ≤ i.val →
    low = (List.range 144).any (fun j => match (updTam (fun t => { t with mon := Tab.set (fun _ => none) t.mon i (some v) }) s.chip).monS j with | some x => decide (x < 20) | none => false) →
    Does (.monitorSample i v) s (fun c =>
      c = updMargins (updTam (fun t => { t with mon := Tab.set (fun _ => none) t.mon i (some v), slackFrom := if low = true then some (s.chip.tam.slackFrom.getD s.chip.beat) else none }) s.chip))) ∧
  (∀ (s : State) (b : Nat),
    s.chip.isOn →
    s.chip.tam.slackFrom = some b →
    b + 2 ^ 20 ≤ s.chip.beat →
    s.chip.tam.age.vofs < 24 →
    Does (.voltageStep) s (fun c =>
      c = updMargins (ce pgTam 8 0 (s.chip.tam.age.vofs + 1) (updTam (fun t => { t with slackFrom := some s.chip.beat, age := { t.age with vofs := t.age.vofs + 1 } }) s.chip)))) ∧
  (∀ (s : State) (b : Nat),
    s.chip.isOn →
    s.chip.tam.slackFrom = some b →
    s.chip.beat < b + 2 ^ 20 →
    Does (.voltageStep) s (fun c =>
      c = s.chip)) ∧
  (∀ (s : State) (e : Fin 7) (o : Int),
    s.chip.isOn →
    s.chip.monS (273 + e.val) = some o →
    Tab.get (fun _ => 0) s.chip.tam.age.target e ≤ o + 50 ∨ (nat0 s.chip.tam.laserAt e ≠ 0 ∧ s.chip.beat < nat0 s.chip.tam.laserAt e + 1024) →
    Does (.laserStep e) s (fun c =>
      c = s.chip)) ∧
  (∀ (s : State),
    s.chip.isOn →
    (s.chip.pwr.st = 5 ∧ s.chip.tam.queue = []) ∨ (s.chip.pwr.st ≠ 5 ∧ s.chip.tam.ckptLast + max 0x10000 (s.chip.rg (tamReg 0x174)) ≤ s.chip.beat) →
    Does (.ageingCheckpoint) s (fun c =>
      c = startFlash .ageing s.chip)) ∧
  (∀ (s : State),
    s.chip.isOn →
    s.chip.pwr.st = 5 →
    s.chip.tam.queue ≠ [] →
    Does (.ageingCheckpoint) s (fun c =>
      c = s.chip)) ∧
  (∀ (s : State) (h : W32),
    s.chip.isReady →
    s.chip.tam.winSt ≠ 2 →
    winOk s.chip = true →
    Does (.windowArm h) s (fun c =>
      let k := pairApply (tamReg 0x164) h.toNat s.chip; c = armCe pgTam (k.rg64 (tamReg 0x164)) (updTam (fun t => { t with winSt := 1, winFail := false, winAt := k.armedAt (k.rg64 (tamReg 0x164)) }) k))) ∧
  (∀ (s : State),
    s.chip.isReady →
    s.chip.tam.winSt = 1 →
    s.chip.come s.chip.tam.winAt = true →
    winFree s.chip = true →
    Does (.windowStart) s (fun c =>
      c = winStart (if s.chip.tam.winAt < s.chip.beat then itemLate pgTam s.chip.tam.winAt s.chip else s.chip))) ∧
  (∀ (s : State),
    s.chip.isReady →
    s.chip.tam.winSt = 1 →
    s.chip.come s.chip.tam.winAt = false →
    Does (.windowStart) s (fun c =>
      c = s.chip)) ∧
  (∀ (s : State),
    s.chip.isReady →
    s.chip.tam.winSt ≠ 2 →
    winOk s.chip = true →
    winFree s.chip = true →
    Does (.winGo) s (fun c =>
      c = winStart s.chip)) ∧
  (∀ (s : State),
    winKind s.chip = 1 →
    (s.chip.link (winTarget s.chip)).st ≠ 7 →
    let k := updTam (fun t => { t with winSt := 2, winFail := false }) s.chip; winStart s.chip = startRetrain (winTarget s.chip) (s.chip.link (winTarget s.chip)).locked k) ∧
  (∀ (s : State),
    winKind s.chip = 1 →
    (s.chip.link (winTarget s.chip)).st = 7 →
    let k := updTam (fun t => { t with winSt := 2, winFail := false }) s.chip; winStart s.chip = k) ∧
  (∀ (s : State),
    winKind s.chip = 2 →
    let k := updTam (fun t => { t with winSt := 2, winFail := false }) s.chip; winStart s.chip = k.setGmc (winTarget s.chip) { s.chip.gmc (winTarget s.chip) with steered := (s.chip.gmc (winTarget s.chip)).steered ||| 2 ^ winChan s.chip }) ∧
  (∀ (s : State),
    winKind s.chip = 3 →
    let k := updTam (fun t => { t with winSt := 2, winFail := false }) s.chip; winStart s.chip = k.setCore (winTarget s.chip) { (s.chip.core (winTarget s.chip)).pend false s.chip.beat with inTest := true }) ∧
  (∀ (s : State),
    winKind s.chip = 4 →
    let k := updTam (fun t => { t with winSt := 2, winFail := false }) s.chip; winStart s.chip = startRetrain 6 (s.chip.link 6).locked k) ∧
  (∀ (s : State),
    s.chip.isReady →
    s.chip.tam.winSt = 2 →
    winKind s.chip = 1 →
    (s.chip.link (winTarget s.chip)).st = 6 →
    Does (.windowDone true) s (fun c =>
      let k := irq pgTam 3 (updTam (fun t => { t with winSt := 3, winFail := false }) s.chip); c = retrainEnd (winTarget s.chip) (k.setLink (winTarget s.chip) { s.chip.link (winTarget s.chip) with locked := 255 }))) ∧
  (∀ (s : State),
    s.chip.isReady →
    s.chip.tam.winSt = 2 →
    winKind s.chip = 1 →
    (s.chip.link (winTarget s.chip)).st = 6 →
    Does (.windowDone false) s (fun c =>
      let k := irq pgTam 4 (updTam (fun t => { t with winSt := 3, winFail := true }) s.chip); c = trainTryEnd (winTarget s.chip) 0 false k)) ∧
  (∀ (s : State) (b : Bool),
    s.chip.isReady →
    s.chip.tam.winSt = 2 →
    winKind s.chip = 1 ∧ (s.chip.link (winTarget s.chip)).st ≠ 6 ∨ (winKind s.chip = 0 ∨ 4 ≤ winKind s.chip) ∧ (s.chip.link 6).st ≠ 6 →
    Does (.windowDone b) s (fun c =>
      c = irq pgTam (if b = true then 3 else 4) (updTam (fun t => { t with winSt := 3, winFail := !b }) s.chip))) ∧
  (∀ (s : State),
    s.chip.isReady →
    s.chip.tam.winSt = 2 →
    winKind s.chip = 4 →
    (s.chip.link 6).st = 6 →
    Does (.windowDone true) s (fun c =>
      let k := irq pgTam 3 (updTam (fun t => { t with winSt := 3, winFail := false }) s.chip); c = retrainEnd 6 (k.setLink 6 { s.chip.link 6 with locked := 3 }))) ∧
  (∀ (s : State),
    s.chip.isReady →
    s.chip.tam.winSt = 2 →
    winKind s.chip = 4 →
    (s.chip.link 6).st = 6 →
    Does (.windowDone false) s (fun c =>
      let k := irq pgTam 4 (updTam (fun t => { t with winSt := 3, winFail := true }) s.chip); c = mboipDown k)) ∧
  (∀ (s : State),
    s.chip.isReady →
    s.chip.tam.winSt = 2 →
    winKind s.chip = 3 →
    (s.chip.core (winTarget s.chip)).mapApp = false →
    (s.chip.core (winTarget s.chip)).st = 0 →
    Does (.windowDone true) s (fun c =>
      let k := irq pgTam 3 (updTam (fun t => { t with winSt := 3, winFail := false }) s.chip); c = k.setCore (winTarget s.chip) { (s.chip.core (winTarget s.chip)).pend (bit 0 (k.rg (ra (pgCore (winTarget s.chip)) 8))) s.chip.beat with inTest := false })) ∧
  (∀ (s : State),
    s.chip.isReady →
    s.chip.tam.winSt = 2 →
    winKind s.chip = 3 →
    (s.chip.core (winTarget s.chip)).mapApp = false →
    (s.chip.core (winTarget s.chip)).st = 0 →
    Does (.windowDone false) s (fun c =>
      let k := irq pgTam 4 (updTam (fun t => { t with winSt := 3, winFail := true }) s.chip); c = testFailed (winTarget s.chip) k)) ∧
  (∀ (s : State) (b : Bool),
    s.chip.isReady →
    s.chip.tam.winSt = 2 →
    winKind s.chip = 3 →
    (s.chip.core (winTarget s.chip)).mapApp = true ∨ (s.chip.core (winTarget s.chip)).st ≠ 0 →
    Does (.windowDone b) s (fun c =>
      c = s.chip)) ∧
  (∀ (s : State) (m : Chip),
    s.chip.isReady →
    s.chip.tam.winSt = 2 →
    winKind s.chip = 2 →
    m = trainChan (winTarget s.chip) (winChan s.chip) ((irq pgTam 3 (updTam (fun t => { t with winSt := 3, winFail := false }) s.chip)).setGmc (winTarget s.chip) { s.chip.gmc (winTarget s.chip) with steered := (s.chip.gmc (winTarget s.chip)).steered - (if bit (winChan s.chip) (s.chip.gmc (winTarget s.chip)).steered = true then 2 ^ winChan s.chip else 0), retrains := setNat0 (s.chip.gmc (winTarget s.chip)).retrains (winChan s.chip) (min 65535 (nat0 (s.chip.gmc (winTarget s.chip)).retrains (winChan s.chip) + 1)) }) →
    Does (.windowDone true) s (fun c =>
      c = serveGmc (winTarget s.chip) { updMargins m with served := [] })) ∧
  (∀ (s : State) (m : Chip),
    s.chip.isReady →
    s.chip.tam.winSt = 2 →
    winKind s.chip = 2 →
    m = trainChan (winTarget s.chip) (winChan s.chip) ((irq pgTam 4 (updTam (fun t => { t with winSt := 3, winFail := true }) s.chip)).setGmc (winTarget s.chip) { s.chip.gmc (winTarget s.chip) with steered := (s.chip.gmc (winTarget s.chip)).steered - (if bit (winChan s.chip) (s.chip.gmc (winTarget s.chip)).steered = true then 2 ^ winChan s.chip else 0), retrains := setNat0 (s.chip.gmc (winTarget s.chip)).retrains (winChan s.chip) (min 65535 (nat0 (s.chip.gmc (winTarget s.chip)).retrains (winChan s.chip) + 1)) }) →
    Does (.windowDone false) s (fun c =>
      c = logErr { cls := 3, scope := 4, cause := 10, page := pgGmc (winTarget s.chip), d0 := winChan s.chip } (irq (pgGmc (winTarget s.chip)) 1 (m.setGmc (winTarget s.chip) { m.gmc (winTarget s.chip) with up := (m.gmc (winTarget s.chip)).up - (if bit (winChan s.chip) (m.gmc (winTarget s.chip)).up = true then 2 ^ winChan s.chip else 0) }))))
end

