-- ==== Sys2Proof/Laws/Tab.lean ====
section
/-! SUPPORT. Laws of the sparse tables: reading after writing holds of every list, and every operation keeps
the canonical form. -/

namespace Sys2Proof.Machine

variable {α : Type} (d : Nat → α)

@[simp] theorem Tab.get_nil (k : Nat) : Tab.get d [] k = d k := rfl

theorem Tab.get_cons (j : Nat) (v : α) (t : Tab α) (k : Nat) :
    Tab.get d ((j, v) :: t) k = if k = j then v else if k < j then d k else Tab.get d t k := rfl

/-- Dropping the first keys up to j changes no read above j, and hides every read up to j. -/
theorem Tab.get_dropWhile (j k : Nat) (t : Tab α) :
    Tab.get d (t.dropWhile (fun e => decide (e.1 ≤ j))) k = if k ≤ j then d k else Tab.get d t k := by
  induction t with
  | nil => simp
  | cons e t ih =>
    obtain ⟨i, w⟩ := e
    rw [List.dropWhile_cons]
    by_cases h : i ≤ j
    · rw [if_pos (by simpa using h), ih, Tab.get_cons]
      split_ifs <;> first | rfl | omega
    · rw [if_neg (by simpa using h), Tab.get_cons]
      split_ifs <;> first | rfl | omega

/-- Reading after writing, for every table. -/
theorem Tab.get_set [DecidableEq α] (t : Tab α) (k : Nat) (v : α) (i : Nat) :
    Tab.get d (Tab.set d t k v) i = if i = k then v else Tab.get d t i := by
  induction t with
  | nil => simp only [Tab.set]; split_ifs <;> simp_all [Tab.get_cons]
  | cons e t ih =>
    obtain ⟨j, w⟩ := e
    by_cases h1 : k < j
    · by_cases h2 : v = d k
      · simp only [Tab.set, if_pos h1, if_pos h2, Tab.get_cons]
        split_ifs <;> first | rfl | (subst_vars; rfl) | omega
      · simp only [Tab.set, if_pos h1, if_neg h2, Tab.get_cons]
        split_ifs <;> first | rfl | omega
    · by_cases h2 : k = j
      · subst h2
        by_cases h3 : v = d k
        · simp only [Tab.set, if_neg h1, if_pos h3, if_true, Tab.get_dropWhile, Tab.get_cons]
          split_ifs <;> first | rfl | (subst_vars; rfl) | omega
        · simp only [Tab.set, if_neg h1, if_neg h3, if_true, Tab.get_cons]
          split_ifs <;> rfl
      · simp only [Tab.set, if_neg h1, if_neg h2, Tab.get_cons, ih]
        split_ifs <;> first | rfl | omega

@[simp] theorem Tab.get_set_same [DecidableEq α] (t : Tab α) (k : Nat) (v : α) :
    Tab.get d (Tab.set d t k v) k = v := by simp [Tab.get_set]

theorem Tab.get_set_other [DecidableEq α] (t : Tab α) (k : Nat) (v : α) (i : Nat) (h : i ≠ k) :
    Tab.get d (Tab.set d t k v) i = Tab.get d t i := by simp [Tab.get_set, h]

/-- Reading after a run of writes: the bytes written, and every other key as before. -/
theorem Tab.get_setList [DecidableEq α] (l : List α) (t : Tab α) (k i : Nat) :
    Tab.get d (Tab.setList d t k l) i = if k ≤ i ∧ i < k + l.length then l.getD (i - k) (d i) else Tab.get d t i := by
  induction l generalizing t k with
  | nil => simp [Tab.setList]
  | cons v r ih =>
    rw [Tab.setList, ih, Tab.get_set]
    by_cases h : i = k
    · subst h; simp
    · by_cases h2 : k + 1 ≤ i ∧ i < k + 1 + r.length
      · have h3 : k ≤ i ∧ i < k + (v :: r).length := by simp; omega
        have h4 : i - k = (i - (k + 1)) + 1 := by omega
        rw [if_pos h2, if_pos h3, h4]; simp
      · have h3 : ¬ (k ≤ i ∧ i < k + (v :: r).length) := by simp; omega
        rw [if_neg h2, if_neg h3, if_neg h]

/-! ### The canonical form -/

theorem Tab.above_iff (k : Nat) (t : Tab α) : Tab.above k t = true ↔ ∀ e ∈ t, k < e.1 := by
  simp [Tab.above, List.all_eq_true]

theorem Tab.wf_cons [DecidableEq α] (k : Nat) (v : α) (t : Tab α) :
    Tab.wf d ((k, v) :: t) = true ↔ (∀ e ∈ t, k < e.1) ∧ v ≠ d k ∧ Tab.wf d t = true := by
  simp [Tab.wf, Tab.above, List.all_eq_true, and_assoc]

theorem Tab.mem_set [DecidableEq α] (t : Tab α) (k : Nat) (v : α) (e : Nat × α) (h : e ∈ Tab.set d t k v) :
    e.1 = k ∨ e ∈ t := by
  induction t with
  | nil => simp only [Tab.set] at h; split_ifs at h <;> simp_all
  | cons a t ih =>
    obtain ⟨j, w⟩ := a
    simp only [Tab.set] at h
    split_ifs at h <;> simp_all
    · rcases h with h | h | h <;> simp_all
    · exact Or.inr (Or.inr ((List.dropWhile_sublist _).mem h))
    · rcases h with h | h <;> simp_all
    · rcases h with h | h
      · simp_all
      · rcases ih h with h | h <;> simp_all

theorem Tab.dropWhile_of_above (k : Nat) (t : Tab α) (h : ∀ e ∈ t, k < e.1) :
    t.dropWhile (fun e => decide (e.1 ≤ k)) = t := by
  cases t with
  | nil => rfl
  | cons a t => simp [List.dropWhile_cons]; intro h2; have := h a (by simp); omega

/-- Writing one key keeps the canonical form. -/
theorem Tab.wf_set [DecidableEq α] (t : Tab α) (k : Nat) (v : α) (h : Tab.wf d t = true) :
    Tab.wf d (Tab.set d t k v) = true := by
  induction t with
  | nil => simp only [Tab.set]; split_ifs <;> simp_all [Tab.wf, Tab.above]
  | cons a t ih =>
    obtain ⟨j, w⟩ := a
    rw [Tab.wf_cons] at h
    obtain ⟨h1, h2, h3⟩ := h
    simp only [Tab.set]
    split_ifs with a1 a2 a3 a4
    · exact (Tab.wf_cons d j w t).2 ⟨h1, h2, h3⟩
    · refine (Tab.wf_cons d k v _).2 ⟨?_, a2, (Tab.wf_cons d j w t).2 ⟨h1, h2, h3⟩⟩
      intro e he
      rcases List.mem_cons.1 he with rfl | he
      · exact a1
      · exact lt_trans a1 (h1 e he)
    · subst a3; rw [Tab.dropWhile_of_above _ _ h1]; exact h3
    · subst a3; exact (Tab.wf_cons d k v t).2 ⟨h1, a4, h3⟩
    · refine (Tab.wf_cons d j w _).2 ⟨?_, h2, ih h3⟩
      intro e he
      rcases Tab.mem_set d t k v e he with he | he
      · omega
      · exact h1 e he

/-- Writing a run of keys keeps the canonical form. -/
theorem Tab.wf_setList [DecidableEq α] (l : List α) (t : Tab α) (k : Nat) (h : Tab.wf d t = true) :
    Tab.wf d (Tab.setList d t k l) = true := by
  induction l generalizing t k with
  | nil => exact h
  | cons v r ih => exact ih _ _ (Tab.wf_set d t k v h)

theorem Tab.wf_filter [DecidableEq α] (p : Nat × α → Bool) (t : Tab α) (h : Tab.wf d t = true) :
    Tab.wf d (t.filter p) = true := by
  induction t with
  | nil => rfl
  | cons a t ih =>
    obtain ⟨j, w⟩ := a
    rw [Tab.wf_cons] at h
    simp only [List.filter_cons]
    split_ifs
    · exact (Tab.wf_cons d j w _).2 ⟨fun e he => h.1 e (List.mem_filter.1 he).1, h.2.1, ih h.2.2⟩
    · exact ih h.2.2

/-- Clearing a range keeps the canonical form. -/
theorem Tab.wf_clear [DecidableEq α] (lo hi : Nat) (t : Tab α) (h : Tab.wf d t = true) :
    Tab.wf d (Tab.clear lo hi t) = true := Tab.wf_filter d _ t h

/-- In a canonical table a read below every key finds nothing. -/
theorem Tab.get_of_above (k : Nat) (t : Tab α) (h : ∀ e ∈ t, k < e.1) : Tab.get d t k = d k := by
  cases t with
  | nil => rfl
  | cons a t =>
    obtain ⟨j, w⟩ := a
    have := h (j, w) (by simp)
    simp only [Tab.get_cons]; rw [if_neg (by simp at this; omega), if_pos (by simpa using this)]

/-- Reading after clearing a range of a canonical table. -/
theorem Tab.get_clear [DecidableEq α] (lo hi : Nat) (t : Tab α) (h : Tab.wf d t = true) (i : Nat) :
    Tab.get d (Tab.clear lo hi t) i = if lo ≤ i ∧ i < hi then d i else Tab.get d t i := by
  induction t with
  | nil => simp [Tab.clear]
  | cons a t ih =>
    obtain ⟨j, w⟩ := a
    rw [Tab.wf_cons] at h
    have ih := ih h.2.2
    have hab : ∀ e ∈ Tab.clear lo hi t, j < e.1 := fun e he => h.1 e (List.mem_filter.1 he).1
    have hstep : Tab.clear lo hi ((j, w) :: t) = if j < lo ∨ hi ≤ j then (j, w) :: Tab.clear lo hi t else Tab.clear lo hi t := by
      simp only [Tab.clear, List.filter_cons, decide_eq_true_eq]
    rw [hstep]
    split_ifs with h1 h2 h2
    · rw [Tab.get_cons, ih]
      have : i ≠ j := by omega
      split_ifs <;> first | rfl | omega
    · rw [Tab.get_cons, Tab.get_cons, ih]
      split_ifs <;> rfl
    · rw [ih, if_pos h2]
    · rw [ih, if_neg h2, Tab.get_cons]
      by_cases h3 : i < j
      · have h4 : i ≠ j := by omega
        rw [if_neg h4, if_pos h3]; exact Tab.get_of_above d i t (fun e he => lt_trans h3 (h.1 e he))
      · have h4 : i ≠ j := by omega
        rw [if_neg h4, if_neg h3]

end Sys2Proof.Machine
end

