-- ==== Sys2Proof/Laws/State.lean ====
section
/-! SUPPORT. One lemma per field per update of the module's state: an update of one part leaves every other part
as it was, and what was written reads back. -/

namespace Sys2Proof.Machine

variable (c : Chip)

/-! ### Chip.setRg -/

@[simp] theorem Chip.setRg_phase (a v : Nat) : (c.setRg a v).phase = c.phase := rfl
@[simp] theorem Chip.setRg_pairLatch (a v : Nat) : (c.setRg a v).pairLatch = c.pairLatch := rfl
@[simp] theorem Chip.setRg_pairStage (a v : Nat) : (c.setRg a v).pairStage = c.pairStage := rfl
@[simp] theorem Chip.setRg_answer (a v : Nat) : (c.setRg a v).answer = c.answer := rfl
@[simp] theorem Chip.setRg_served (a v : Nat) : (c.setRg a v).served = c.served := rfl
@[simp] theorem Chip.setRg_mem (a v : Nat) : (c.setRg a v).mem = c.mem := rfl
@[simp] theorem Chip.setRg_lower (a v : Nat) : (c.setRg a v).lower = c.lower := rfl
@[simp] theorem Chip.setRg_poison (a v : Nat) : (c.setRg a v).poison = c.poison := rfl
@[simp] theorem Chip.setRg_lowPoison (a v : Nat) : (c.setRg a v).lowPoison = c.lowPoison := rfl
@[simp] theorem Chip.setRg_cores (a v : Nat) : (c.setRg a v).cores = c.cores := rfl
@[simp] theorem Chip.setRg_clusters (a v : Nat) : (c.setRg a v).clusters = c.clusters := rfl
@[simp] theorem Chip.setRg_lrtExp (a v : Nat) : (c.setRg a v).lrtExp = c.lrtExp := rfl
@[simp] theorem Chip.setRg_lrtShadow (a v : Nat) : (c.setRg a v).lrtShadow = c.lrtShadow := rfl
@[simp] theorem Chip.setRg_lrtGen (a v : Nat) : (c.setRg a v).lrtGen = c.lrtGen := rfl
@[simp] theorem Chip.setRg_pwus (a v : Nat) : (c.setRg a v).pwus = c.pwus := rfl
@[simp] theorem Chip.setRg_slots (a v : Nat) : (c.setRg a v).slots = c.slots := rfl
@[simp] theorem Chip.setRg_quar (a v : Nat) : (c.setRg a v).quar = c.quar := rfl
@[simp] theorem Chip.setRg_links (a v : Nat) : (c.setRg a v).links = c.links := rfl
@[simp] theorem Chip.setRg_colls (a v : Nat) : (c.setRg a v).colls = c.colls := rfl
@[simp] theorem Chip.setRg_rings (a v : Nat) : (c.setRg a v).rings = c.rings := rfl
@[simp] theorem Chip.setRg_joins (a v : Nat) : (c.setRg a v).joins = c.joins := rfl
@[simp] theorem Chip.setRg_rcuResult (a v : Nat) : (c.setRg a v).rcuResult = c.rcuResult := rfl
@[simp] theorem Chip.setRg_collResult (a v : Nat) : (c.setRg a v).collResult = c.collResult := rfl
@[simp] theorem Chip.setRg_detachLast (a v : Nat) : (c.setRg a v).detachLast = c.detachLast := rfl
@[simp] theorem Chip.setRg_rtActive (a v : Nat) : (c.setRg a v).rtActive = c.rtActive := rfl
@[simp] theorem Chip.setRg_rtArmed (a v : Nat) : (c.setRg a v).rtArmed = c.rtArmed := rfl
@[simp] theorem Chip.setRg_rtAt (a v : Nat) : (c.setRg a v).rtAt = c.rtAt := rfl
@[simp] theorem Chip.setRg_rtLate (a v : Nat) : (c.setRg a v).rtLate = c.rtLate := rfl
@[simp] theorem Chip.setRg_rtGen (a v : Nat) : (c.setRg a v).rtGen = c.rtGen := rfl
@[simp] theorem Chip.setRg_delivered (a v : Nat) : (c.setRg a v).delivered = c.delivered := rfl
@[simp] theorem Chip.setRg_pktOrd (a v : Nat) : (c.setRg a v).pktOrd = c.pktOrd := rfl
@[simp] theorem Chip.setRg_straps (a v : Nat) : (c.setRg a v).straps = c.straps := rfl
@[simp] theorem Chip.setRg_posId (a v : Nat) : (c.setRg a v).posId = c.posId := rfl
@[simp] theorem Chip.setRg_mst (a v : Nat) : (c.setRg a v).mst = c.mst := rfl
@[simp] theorem Chip.setRg_cad (a v : Nat) : (c.setRg a v).cad = c.cad := rfl
@[simp] theorem Chip.setRg_mtm (a v : Nat) : (c.setRg a v).mtm = c.mtm := rfl
@[simp] theorem Chip.setRg_gmcs (a v : Nat) : (c.setRg a v).gmcs = c.gmcs := rfl
@[simp] theorem Chip.setRg_t2 (a v : Nat) : (c.setRg a v).t2 = c.t2 := rfl
@[simp] theorem Chip.setRg_cxl (a v : Nat) : (c.setRg a v).cxl = c.cxl := rfl
@[simp] theorem Chip.setRg_mbp (a v : Nat) : (c.setRg a v).mbp = c.mbp := rfl
@[simp] theorem Chip.setRg_pwr (a v : Nat) : (c.setRg a v).pwr = c.pwr := rfl
@[simp] theorem Chip.setRg_flash (a v : Nat) : (c.setRg a v).flash = c.flash := rfl
@[simp] theorem Chip.setRg_otp (a v : Nat) : (c.setRg a v).otp = c.otp := rfl
@[simp] theorem Chip.setRg_sec (a v : Nat) : (c.setRg a v).sec = c.sec := rfl
@[simp] theorem Chip.setRg_tam (a v : Nat) : (c.setRg a v).tam = c.tam := rfl
@[simp] theorem Chip.setRg_plans (a v : Nat) : (c.setRg a v).plans = c.plans := rfl
@[simp] theorem Chip.setRg_rolls (a v : Nat) : (c.setRg a v).rolls = c.rolls := rfl
@[simp] theorem Chip.setRg_contribs (a v : Nat) : (c.setRg a v).contribs = c.contribs := rfl
@[simp] theorem Chip.setRg_provBufs (a v : Nat) : (c.setRg a v).provBufs = c.provBufs := rfl
@[simp] theorem Chip.setRg_busy (a v : Nat) : (c.setRg a v).busy = c.busy := rfl
@[simp] theorem Chip.setRg_wiped (a v : Nat) : (c.setRg a v).wiped = c.wiped := rfl
@[simp] theorem Chip.setRg_draw (a v : Nat) : (c.setRg a v).draw = c.draw := rfl
@[simp] theorem Chip.setRg_beat_of (a v : Nat) : (c.setRg a v).beat = c.beat := rfl
@[simp] theorem Chip.setRg_lc_of (a v : Nat) : (c.setRg a v).lc = c.lc := rfl
@[simp] theorem Chip.setRg_core_of (a v : Nat) (i : Nat) : (c.setRg a v).core i = c.core i := rfl
@[simp] theorem Chip.setRg_clus_of (a v : Nat) (i : Nat) : (c.setRg a v).clus i = c.clus i := rfl
@[simp] theorem Chip.setRg_pwu_of (a v : Nat) (i : Nat) : (c.setRg a v).pwu i = c.pwu i := rfl
@[simp] theorem Chip.setRg_slot_of (a v : Nat) (i : Nat) : (c.setRg a v).slot i = c.slot i := rfl
@[simp] theorem Chip.setRg_link_of (a v : Nat) (i : Nat) : (c.setRg a v).link i = c.link i := rfl
@[simp] theorem Chip.setRg_gmc_of (a v : Nat) (i : Nat) : (c.setRg a v).gmc i = c.gmc i := rfl
@[simp] theorem Chip.setRg_t2s_of (a v : Nat) (i : Nat) : (c.setRg a v).t2s i = c.t2s i := rfl
@[simp] theorem Chip.setRg_cxlp_of (a v : Nat) (i : Nat) : (c.setRg a v).cxlp i = c.cxlp i := rfl
@[simp] theorem Chip.setRg_loan_of (a v : Nat) (i : Nat) : (c.setRg a v).loan i = c.loan i := rfl
@[simp] theorem Chip.setRg_queue_of (a v : Nat) (i : Nat) : (c.setRg a v).queue i = c.queue i := rfl
@[simp] theorem Chip.setRg_coll_of (a v : Nat) (i : Nat) : (c.setRg a v).coll i = c.coll i := rfl
@[simp] theorem Chip.setRg_ring_of (a v : Nat) (i : Nat) : (c.setRg a v).ring i = c.ring i := rfl
@[simp] theorem Chip.setRg_byteAt_of (a v : Nat) (b : Nat) : (c.setRg a v).byteAt b = c.byteAt b := rfl
@[simp] theorem Chip.setRg_ctr_of (a v : Nat) (i j : Nat) : (c.setRg a v).ctr i j = c.ctr i j := rfl
@[simp] theorem Chip.setRg_poisonIn_of (a v : Nat) (b k : Nat) : (c.setRg a v).poisonIn b k = c.poisonIn b k := rfl

/-! ### Chip.bumpRg -/

@[simp] theorem Chip.bumpRg_phase (a v : Nat) : (c.bumpRg a v).phase = c.phase := rfl
@[simp] theorem Chip.bumpRg_pairLatch (a v : Nat) : (c.bumpRg a v).pairLatch = c.pairLatch := rfl
@[simp] theorem Chip.bumpRg_pairStage (a v : Nat) : (c.bumpRg a v).pairStage = c.pairStage := rfl
@[simp] theorem Chip.bumpRg_answer (a v : Nat) : (c.bumpRg a v).answer = c.answer := rfl
@[simp] theorem Chip.bumpRg_served (a v : Nat) : (c.bumpRg a v).served = c.served := rfl
@[simp] theorem Chip.bumpRg_mem (a v : Nat) : (c.bumpRg a v).mem = c.mem := rfl
@[simp] theorem Chip.bumpRg_lower (a v : Nat) : (c.bumpRg a v).lower = c.lower := rfl
@[simp] theorem Chip.bumpRg_poison (a v : Nat) : (c.bumpRg a v).poison = c.poison := rfl
@[simp] theorem Chip.bumpRg_lowPoison (a v : Nat) : (c.bumpRg a v).lowPoison = c.lowPoison := rfl
@[simp] theorem Chip.bumpRg_cores (a v : Nat) : (c.bumpRg a v).cores = c.cores := rfl
@[simp] theorem Chip.bumpRg_clusters (a v : Nat) : (c.bumpRg a v).clusters = c.clusters := rfl
@[simp] theorem Chip.bumpRg_lrtExp (a v : Nat) : (c.bumpRg a v).lrtExp = c.lrtExp := rfl
@[simp] theorem Chip.bumpRg_lrtShadow (a v : Nat) : (c.bumpRg a v).lrtShadow = c.lrtShadow := rfl
@[simp] theorem Chip.bumpRg_lrtGen (a v : Nat) : (c.bumpRg a v).lrtGen = c.lrtGen := rfl
@[simp] theorem Chip.bumpRg_pwus (a v : Nat) : (c.bumpRg a v).pwus = c.pwus := rfl
@[simp] theorem Chip.bumpRg_slots (a v : Nat) : (c.bumpRg a v).slots = c.slots := rfl
@[simp] theorem Chip.bumpRg_quar (a v : Nat) : (c.bumpRg a v).quar = c.quar := rfl
@[simp] theorem Chip.bumpRg_links (a v : Nat) : (c.bumpRg a v).links = c.links := rfl
@[simp] theorem Chip.bumpRg_colls (a v : Nat) : (c.bumpRg a v).colls = c.colls := rfl
@[simp] theorem Chip.bumpRg_rings (a v : Nat) : (c.bumpRg a v).rings = c.rings := rfl
@[simp] theorem Chip.bumpRg_joins (a v : Nat) : (c.bumpRg a v).joins = c.joins := rfl
@[simp] theorem Chip.bumpRg_rcuResult (a v : Nat) : (c.bumpRg a v).rcuResult = c.rcuResult := rfl
@[simp] theorem Chip.bumpRg_collResult (a v : Nat) : (c.bumpRg a v).collResult = c.collResult := rfl
@[simp] theorem Chip.bumpRg_detachLast (a v : Nat) : (c.bumpRg a v).detachLast = c.detachLast := rfl
@[simp] theorem Chip.bumpRg_rtActive (a v : Nat) : (c.bumpRg a v).rtActive = c.rtActive := rfl
@[simp] theorem Chip.bumpRg_rtArmed (a v : Nat) : (c.bumpRg a v).rtArmed = c.rtArmed := rfl
@[simp] theorem Chip.bumpRg_rtAt (a v : Nat) : (c.bumpRg a v).rtAt = c.rtAt := rfl
@[simp] theorem Chip.bumpRg_rtLate (a v : Nat) : (c.bumpRg a v).rtLate = c.rtLate := rfl
@[simp] theorem Chip.bumpRg_rtGen (a v : Nat) : (c.bumpRg a v).rtGen = c.rtGen := rfl
@[simp] theorem Chip.bumpRg_delivered (a v : Nat) : (c.bumpRg a v).delivered = c.delivered := rfl
@[simp] theorem Chip.bumpRg_pktOrd (a v : Nat) : (c.bumpRg a v).pktOrd = c.pktOrd := rfl
@[simp] theorem Chip.bumpRg_straps (a v : Nat) : (c.bumpRg a v).straps = c.straps := rfl
@[simp] theorem Chip.bumpRg_posId (a v : Nat) : (c.bumpRg a v).posId = c.posId := rfl
@[simp] theorem Chip.bumpRg_mst (a v : Nat) : (c.bumpRg a v).mst = c.mst := rfl
@[simp] theorem Chip.bumpRg_cad (a v : Nat) : (c.bumpRg a v).cad = c.cad := rfl
@[simp] theorem Chip.bumpRg_mtm (a v : Nat) : (c.bumpRg a v).mtm = c.mtm := rfl
@[simp] theorem Chip.bumpRg_gmcs (a v : Nat) : (c.bumpRg a v).gmcs = c.gmcs := rfl
@[simp] theorem Chip.bumpRg_t2 (a v : Nat) : (c.bumpRg a v).t2 = c.t2 := rfl
@[simp] theorem Chip.bumpRg_cxl (a v : Nat) : (c.bumpRg a v).cxl = c.cxl := rfl
@[simp] theorem Chip.bumpRg_mbp (a v : Nat) : (c.bumpRg a v).mbp = c.mbp := rfl
@[simp] theorem Chip.bumpRg_pwr (a v : Nat) : (c.bumpRg a v).pwr = c.pwr := rfl
@[simp] theorem Chip.bumpRg_flash (a v : Nat) : (c.bumpRg a v).flash = c.flash := rfl
@[simp] theorem Chip.bumpRg_otp (a v : Nat) : (c.bumpRg a v).otp = c.otp := rfl
@[simp] theorem Chip.bumpRg_sec (a v : Nat) : (c.bumpRg a v).sec = c.sec := rfl
@[simp] theorem Chip.bumpRg_tam (a v : Nat) : (c.bumpRg a v).tam = c.tam := rfl
@[simp] theorem Chip.bumpRg_plans (a v : Nat) : (c.bumpRg a v).plans = c.plans := rfl
@[simp] theorem Chip.bumpRg_rolls (a v : Nat) : (c.bumpRg a v).rolls = c.rolls := rfl
@[simp] theorem Chip.bumpRg_contribs (a v : Nat) : (c.bumpRg a v).contribs = c.contribs := rfl
@[simp] theorem Chip.bumpRg_provBufs (a v : Nat) : (c.bumpRg a v).provBufs = c.provBufs := rfl
@[simp] theorem Chip.bumpRg_busy (a v : Nat) : (c.bumpRg a v).busy = c.busy := rfl
@[simp] theorem Chip.bumpRg_wiped (a v : Nat) : (c.bumpRg a v).wiped = c.wiped := rfl
@[simp] theorem Chip.bumpRg_draw (a v : Nat) : (c.bumpRg a v).draw = c.draw := rfl
@[simp] theorem Chip.bumpRg_beat_of (a v : Nat) : (c.bumpRg a v).beat = c.beat := rfl
@[simp] theorem Chip.bumpRg_lc_of (a v : Nat) : (c.bumpRg a v).lc = c.lc := rfl
@[simp] theorem Chip.bumpRg_core_of (a v : Nat) (i : Nat) : (c.bumpRg a v).core i = c.core i := rfl
@[simp] theorem Chip.bumpRg_clus_of (a v : Nat) (i : Nat) : (c.bumpRg a v).clus i = c.clus i := rfl
@[simp] theorem Chip.bumpRg_pwu_of (a v : Nat) (i : Nat) : (c.bumpRg a v).pwu i = c.pwu i := rfl
@[simp] theorem Chip.bumpRg_slot_of (a v : Nat) (i : Nat) : (c.bumpRg a v).slot i = c.slot i := rfl
@[simp] theorem Chip.bumpRg_link_of (a v : Nat) (i : Nat) : (c.bumpRg a v).link i = c.link i := rfl
@[simp] theorem Chip.bumpRg_gmc_of (a v : Nat) (i : Nat) : (c.bumpRg a v).gmc i = c.gmc i := rfl
@[simp] theorem Chip.bumpRg_t2s_of (a v : Nat) (i : Nat) : (c.bumpRg a v).t2s i = c.t2s i := rfl
@[simp] theorem Chip.bumpRg_cxlp_of (a v : Nat) (i : Nat) : (c.bumpRg a v).cxlp i = c.cxlp i := rfl
@[simp] theorem Chip.bumpRg_loan_of (a v : Nat) (i : Nat) : (c.bumpRg a v).loan i = c.loan i := rfl
@[simp] theorem Chip.bumpRg_queue_of (a v : Nat) (i : Nat) : (c.bumpRg a v).queue i = c.queue i := rfl
@[simp] theorem Chip.bumpRg_coll_of (a v : Nat) (i : Nat) : (c.bumpRg a v).coll i = c.coll i := rfl
@[simp] theorem Chip.bumpRg_ring_of (a v : Nat) (i : Nat) : (c.bumpRg a v).ring i = c.ring i := rfl
@[simp] theorem Chip.bumpRg_byteAt_of (a v : Nat) (b : Nat) : (c.bumpRg a v).byteAt b = c.byteAt b := rfl
@[simp] theorem Chip.bumpRg_ctr_of (a v : Nat) (i j : Nat) : (c.bumpRg a v).ctr i j = c.ctr i j := rfl
@[simp] theorem Chip.bumpRg_poisonIn_of (a v : Nat) (b k : Nat) : (c.bumpRg a v).poisonIn b k = c.poisonIn b k := rfl

/-! ### Chip.setCore -/

@[simp] theorem Chip.setCore_phase (n : Nat) (x : Core) : (c.setCore n x).phase = c.phase := rfl
@[simp] theorem Chip.setCore_regs (n : Nat) (x : Core) : (c.setCore n x).regs = c.regs := rfl
@[simp] theorem Chip.setCore_pairLatch (n : Nat) (x : Core) : (c.setCore n x).pairLatch = c.pairLatch := rfl
@[simp] theorem Chip.setCore_pairStage (n : Nat) (x : Core) : (c.setCore n x).pairStage = c.pairStage := rfl
@[simp] theorem Chip.setCore_answer (n : Nat) (x : Core) : (c.setCore n x).answer = c.answer := rfl
@[simp] theorem Chip.setCore_served (n : Nat) (x : Core) : (c.setCore n x).served = c.served := rfl
@[simp] theorem Chip.setCore_mem (n : Nat) (x : Core) : (c.setCore n x).mem = c.mem := rfl
@[simp] theorem Chip.setCore_lower (n : Nat) (x : Core) : (c.setCore n x).lower = c.lower := rfl
@[simp] theorem Chip.setCore_poison (n : Nat) (x : Core) : (c.setCore n x).poison = c.poison := rfl
@[simp] theorem Chip.setCore_lowPoison (n : Nat) (x : Core) : (c.setCore n x).lowPoison = c.lowPoison := rfl
@[simp] theorem Chip.setCore_clusters (n : Nat) (x : Core) : (c.setCore n x).clusters = c.clusters := rfl
@[simp] theorem Chip.setCore_lrtExp (n : Nat) (x : Core) : (c.setCore n x).lrtExp = c.lrtExp := rfl
@[simp] theorem Chip.setCore_lrtShadow (n : Nat) (x : Core) : (c.setCore n x).lrtShadow = c.lrtShadow := rfl
@[simp] theorem Chip.setCore_lrtGen (n : Nat) (x : Core) : (c.setCore n x).lrtGen = c.lrtGen := rfl
@[simp] theorem Chip.setCore_pwus (n : Nat) (x : Core) : (c.setCore n x).pwus = c.pwus := rfl
@[simp] theorem Chip.setCore_slots (n : Nat) (x : Core) : (c.setCore n x).slots = c.slots := rfl
@[simp] theorem Chip.setCore_quar (n : Nat) (x : Core) : (c.setCore n x).quar = c.quar := rfl
@[simp] theorem Chip.setCore_links (n : Nat) (x : Core) : (c.setCore n x).links = c.links := rfl
@[simp] theorem Chip.setCore_colls (n : Nat) (x : Core) : (c.setCore n x).colls = c.colls := rfl
@[simp] theorem Chip.setCore_rings (n : Nat) (x : Core) : (c.setCore n x).rings = c.rings := rfl
@[simp] theorem Chip.setCore_joins (n : Nat) (x : Core) : (c.setCore n x).joins = c.joins := rfl
@[simp] theorem Chip.setCore_rcuResult (n : Nat) (x : Core) : (c.setCore n x).rcuResult = c.rcuResult := rfl
@[simp] theorem Chip.setCore_collResult (n : Nat) (x : Core) : (c.setCore n x).collResult = c.collResult := rfl
@[simp] theorem Chip.setCore_detachLast (n : Nat) (x : Core) : (c.setCore n x).detachLast = c.detachLast := rfl
@[simp] theorem Chip.setCore_rtActive (n : Nat) (x : Core) : (c.setCore n x).rtActive = c.rtActive := rfl
@[simp] theorem Chip.setCore_rtArmed (n : Nat) (x : Core) : (c.setCore n x).rtArmed = c.rtArmed := rfl
@[simp] theorem Chip.setCore_rtAt (n : Nat) (x : Core) : (c.setCore n x).rtAt = c.rtAt := rfl
@[simp] theorem Chip.setCore_rtLate (n : Nat) (x : Core) : (c.setCore n x).rtLate = c.rtLate := rfl
@[simp] theorem Chip.setCore_rtGen (n : Nat) (x : Core) : (c.setCore n x).rtGen = c.rtGen := rfl
@[simp] theorem Chip.setCore_delivered (n : Nat) (x : Core) : (c.setCore n x).delivered = c.delivered := rfl
@[simp] theorem Chip.setCore_pktOrd (n : Nat) (x : Core) : (c.setCore n x).pktOrd = c.pktOrd := rfl
@[simp] theorem Chip.setCore_straps (n : Nat) (x : Core) : (c.setCore n x).straps = c.straps := rfl
@[simp] theorem Chip.setCore_posId (n : Nat) (x : Core) : (c.setCore n x).posId = c.posId := rfl
@[simp] theorem Chip.setCore_mst (n : Nat) (x : Core) : (c.setCore n x).mst = c.mst := rfl
@[simp] theorem Chip.setCore_cad (n : Nat) (x : Core) : (c.setCore n x).cad = c.cad := rfl
@[simp] theorem Chip.setCore_mtm (n : Nat) (x : Core) : (c.setCore n x).mtm = c.mtm := rfl
@[simp] theorem Chip.setCore_gmcs (n : Nat) (x : Core) : (c.setCore n x).gmcs = c.gmcs := rfl
@[simp] theorem Chip.setCore_t2 (n : Nat) (x : Core) : (c.setCore n x).t2 = c.t2 := rfl
@[simp] theorem Chip.setCore_cxl (n : Nat) (x : Core) : (c.setCore n x).cxl = c.cxl := rfl
@[simp] theorem Chip.setCore_mbp (n : Nat) (x : Core) : (c.setCore n x).mbp = c.mbp := rfl
@[simp] theorem Chip.setCore_pwr (n : Nat) (x : Core) : (c.setCore n x).pwr = c.pwr := rfl
@[simp] theorem Chip.setCore_flash (n : Nat) (x : Core) : (c.setCore n x).flash = c.flash := rfl
@[simp] theorem Chip.setCore_otp (n : Nat) (x : Core) : (c.setCore n x).otp = c.otp := rfl
@[simp] theorem Chip.setCore_sec (n : Nat) (x : Core) : (c.setCore n x).sec = c.sec := rfl
@[simp] theorem Chip.setCore_tam (n : Nat) (x : Core) : (c.setCore n x).tam = c.tam := rfl
@[simp] theorem Chip.setCore_plans (n : Nat) (x : Core) : (c.setCore n x).plans = c.plans := rfl
@[simp] theorem Chip.setCore_rolls (n : Nat) (x : Core) : (c.setCore n x).rolls = c.rolls := rfl
@[simp] theorem Chip.setCore_contribs (n : Nat) (x : Core) : (c.setCore n x).contribs = c.contribs := rfl
@[simp] theorem Chip.setCore_provBufs (n : Nat) (x : Core) : (c.setCore n x).provBufs = c.provBufs := rfl
@[simp] theorem Chip.setCore_busy (n : Nat) (x : Core) : (c.setCore n x).busy = c.busy := rfl
@[simp] theorem Chip.setCore_wiped (n : Nat) (x : Core) : (c.setCore n x).wiped = c.wiped := rfl
@[simp] theorem Chip.setCore_draw (n : Nat) (x : Core) : (c.setCore n x).draw = c.draw := rfl
@[simp] theorem Chip.setCore_rg_of (n : Nat) (x : Core) (a : Nat) : (c.setCore n x).rg a = c.rg a := rfl
@[simp] theorem Chip.setCore_rg64_of (n : Nat) (x : Core) (a : Nat) : (c.setCore n x).rg64 a = c.rg64 a := rfl
@[simp] theorem Chip.setCore_enabled_of (n : Nat) (x : Core) (a : Nat) : (c.setCore n x).enabled a = c.enabled a := rfl
@[simp] theorem Chip.setCore_beat_of (n : Nat) (x : Core) : (c.setCore n x).beat = c.beat := rfl
@[simp] theorem Chip.setCore_lc_of (n : Nat) (x : Core) : (c.setCore n x).lc = c.lc := rfl
@[simp] theorem Chip.setCore_clus_of (n : Nat) (x : Core) (i : Nat) : (c.setCore n x).clus i = c.clus i := rfl
@[simp] theorem Chip.setCore_pwu_of (n : Nat) (x : Core) (i : Nat) : (c.setCore n x).pwu i = c.pwu i := rfl
@[simp] theorem Chip.setCore_slot_of (n : Nat) (x : Core) (i : Nat) : (c.setCore n x).slot i = c.slot i := rfl
@[simp] theorem Chip.setCore_link_of (n : Nat) (x : Core) (i : Nat) : (c.setCore n x).link i = c.link i := rfl
@[simp] theorem Chip.setCore_gmc_of (n : Nat) (x : Core) (i : Nat) : (c.setCore n x).gmc i = c.gmc i := rfl
@[simp] theorem Chip.setCore_t2s_of (n : Nat) (x : Core) (i : Nat) : (c.setCore n x).t2s i = c.t2s i := rfl
@[simp] theorem Chip.setCore_cxlp_of (n : Nat) (x : Core) (i : Nat) : (c.setCore n x).cxlp i = c.cxlp i := rfl
@[simp] theorem Chip.setCore_loan_of (n : Nat) (x : Core) (i : Nat) : (c.setCore n x).loan i = c.loan i := rfl
@[simp] theorem Chip.setCore_queue_of (n : Nat) (x : Core) (i : Nat) : (c.setCore n x).queue i = c.queue i := rfl
@[simp] theorem Chip.setCore_coll_of (n : Nat) (x : Core) (i : Nat) : (c.setCore n x).coll i = c.coll i := rfl
@[simp] theorem Chip.setCore_ring_of (n : Nat) (x : Core) (i : Nat) : (c.setCore n x).ring i = c.ring i := rfl
@[simp] theorem Chip.setCore_byteAt_of (n : Nat) (x : Core) (a : Nat) : (c.setCore n x).byteAt a = c.byteAt a := rfl
@[simp] theorem Chip.setCore_ctr_of (n : Nat) (x : Core) (i j : Nat) : (c.setCore n x).ctr i j = c.ctr i j := rfl
@[simp] theorem Chip.setCore_poisonIn_of (n : Nat) (x : Core) (a k : Nat) : (c.setCore n x).poisonIn a k = c.poisonIn a k := rfl

/-! ### Chip.setClus -/

@[simp] theorem Chip.setClus_phase (n : Nat) (x : Cluster) : (c.setClus n x).phase = c.phase := rfl
@[simp] theorem Chip.setClus_regs (n : Nat) (x : Cluster) : (c.setClus n x).regs = c.regs := rfl
@[simp] theorem Chip.setClus_pairLatch (n : Nat) (x : Cluster) : (c.setClus n x).pairLatch = c.pairLatch := rfl
@[simp] theorem Chip.setClus_pairStage (n : Nat) (x : Cluster) : (c.setClus n x).pairStage = c.pairStage := rfl
@[simp] theorem Chip.setClus_answer (n : Nat) (x : Cluster) : (c.setClus n x).answer = c.answer := rfl
@[simp] theorem Chip.setClus_served (n : Nat) (x : Cluster) : (c.setClus n x).served = c.served := rfl
@[simp] theorem Chip.setClus_mem (n : Nat) (x : Cluster) : (c.setClus n x).mem = c.mem := rfl
@[simp] theorem Chip.setClus_lower (n : Nat) (x : Cluster) : (c.setClus n x).lower = c.lower := rfl
@[simp] theorem Chip.setClus_poison (n : Nat) (x : Cluster) : (c.setClus n x).poison = c.poison := rfl
@[simp] theorem Chip.setClus_lowPoison (n : Nat) (x : Cluster) : (c.setClus n x).lowPoison = c.lowPoison := rfl
@[simp] theorem Chip.setClus_cores (n : Nat) (x : Cluster) : (c.setClus n x).cores = c.cores := rfl
@[simp] theorem Chip.setClus_lrtExp (n : Nat) (x : Cluster) : (c.setClus n x).lrtExp = c.lrtExp := rfl
@[simp] theorem Chip.setClus_lrtShadow (n : Nat) (x : Cluster) : (c.setClus n x).lrtShadow = c.lrtShadow := rfl
@[simp] theorem Chip.setClus_lrtGen (n : Nat) (x : Cluster) : (c.setClus n x).lrtGen = c.lrtGen := rfl
@[simp] theorem Chip.setClus_pwus (n : Nat) (x : Cluster) : (c.setClus n x).pwus = c.pwus := rfl
@[simp] theorem Chip.setClus_slots (n : Nat) (x : Cluster) : (c.setClus n x).slots = c.slots := rfl
@[simp] theorem Chip.setClus_quar (n : Nat) (x : Cluster) : (c.setClus n x).quar = c.quar := rfl
@[simp] theorem Chip.setClus_links (n : Nat) (x : Cluster) : (c.setClus n x).links = c.links := rfl
@[simp] theorem Chip.setClus_colls (n : Nat) (x : Cluster) : (c.setClus n x).colls = c.colls := rfl
@[simp] theorem Chip.setClus_rings (n : Nat) (x : Cluster) : (c.setClus n x).rings = c.rings := rfl
@[simp] theorem Chip.setClus_joins (n : Nat) (x : Cluster) : (c.setClus n x).joins = c.joins := rfl
@[simp] theorem Chip.setClus_rcuResult (n : Nat) (x : Cluster) : (c.setClus n x).rcuResult = c.rcuResult := rfl
@[simp] theorem Chip.setClus_collResult (n : Nat) (x : Cluster) : (c.setClus n x).collResult = c.collResult := rfl
@[simp] theorem Chip.setClus_detachLast (n : Nat) (x : Cluster) : (c.setClus n x).detachLast = c.detachLast := rfl
@[simp] theorem Chip.setClus_rtActive (n : Nat) (x : Cluster) : (c.setClus n x).rtActive = c.rtActive := rfl
@[simp] theorem Chip.setClus_rtArmed (n : Nat) (x : Cluster) : (c.setClus n x).rtArmed = c.rtArmed := rfl
@[simp] theorem Chip.setClus_rtAt (n : Nat) (x : Cluster) : (c.setClus n x).rtAt = c.rtAt := rfl
@[simp] theorem Chip.setClus_rtLate (n : Nat) (x : Cluster) : (c.setClus n x).rtLate = c.rtLate := rfl
@[simp] theorem Chip.setClus_rtGen (n : Nat) (x : Cluster) : (c.setClus n x).rtGen = c.rtGen := rfl
@[simp] theorem Chip.setClus_delivered (n : Nat) (x : Cluster) : (c.setClus n x).delivered = c.delivered := rfl
@[simp] theorem Chip.setClus_pktOrd (n : Nat) (x : Cluster) : (c.setClus n x).pktOrd = c.pktOrd := rfl
@[simp] theorem Chip.setClus_straps (n : Nat) (x : Cluster) : (c.setClus n x).straps = c.straps := rfl
@[simp] theorem Chip.setClus_posId (n : Nat) (x : Cluster) : (c.setClus n x).posId = c.posId := rfl
@[simp] theorem Chip.setClus_mst (n : Nat) (x : Cluster) : (c.setClus n x).mst = c.mst := rfl
@[simp] theorem Chip.setClus_cad (n : Nat) (x : Cluster) : (c.setClus n x).cad = c.cad := rfl
@[simp] theorem Chip.setClus_mtm (n : Nat) (x : Cluster) : (c.setClus n x).mtm = c.mtm := rfl
@[simp] theorem Chip.setClus_gmcs (n : Nat) (x : Cluster) : (c.setClus n x).gmcs = c.gmcs := rfl
@[simp] theorem Chip.setClus_t2 (n : Nat) (x : Cluster) : (c.setClus n x).t2 = c.t2 := rfl
@[simp] theorem Chip.setClus_cxl (n : Nat) (x : Cluster) : (c.setClus n x).cxl = c.cxl := rfl
@[simp] theorem Chip.setClus_mbp (n : Nat) (x : Cluster) : (c.setClus n x).mbp = c.mbp := rfl
@[simp] theorem Chip.setClus_pwr (n : Nat) (x : Cluster) : (c.setClus n x).pwr = c.pwr := rfl
@[simp] theorem Chip.setClus_flash (n : Nat) (x : Cluster) : (c.setClus n x).flash = c.flash := rfl
@[simp] theorem Chip.setClus_otp (n : Nat) (x : Cluster) : (c.setClus n x).otp = c.otp := rfl
@[simp] theorem Chip.setClus_sec (n : Nat) (x : Cluster) : (c.setClus n x).sec = c.sec := rfl
@[simp] theorem Chip.setClus_tam (n : Nat) (x : Cluster) : (c.setClus n x).tam = c.tam := rfl
@[simp] theorem Chip.setClus_plans (n : Nat) (x : Cluster) : (c.setClus n x).plans = c.plans := rfl
@[simp] theorem Chip.setClus_rolls (n : Nat) (x : Cluster) : (c.setClus n x).rolls = c.rolls := rfl
@[simp] theorem Chip.setClus_contribs (n : Nat) (x : Cluster) : (c.setClus n x).contribs = c.contribs := rfl
@[simp] theorem Chip.setClus_provBufs (n : Nat) (x : Cluster) : (c.setClus n x).provBufs = c.provBufs := rfl
@[simp] theorem Chip.setClus_busy (n : Nat) (x : Cluster) : (c.setClus n x).busy = c.busy := rfl
@[simp] theorem Chip.setClus_wiped (n : Nat) (x : Cluster) : (c.setClus n x).wiped = c.wiped := rfl
@[simp] theorem Chip.setClus_draw (n : Nat) (x : Cluster) : (c.setClus n x).draw = c.draw := rfl
@[simp] theorem Chip.setClus_rg_of (n : Nat) (x : Cluster) (a : Nat) : (c.setClus n x).rg a = c.rg a := rfl
@[simp] theorem Chip.setClus_rg64_of (n : Nat) (x : Cluster) (a : Nat) : (c.setClus n x).rg64 a = c.rg64 a := rfl
@[simp] theorem Chip.setClus_enabled_of (n : Nat) (x : Cluster) (a : Nat) : (c.setClus n x).enabled a = c.enabled a := rfl
@[simp] theorem Chip.setClus_beat_of (n : Nat) (x : Cluster) : (c.setClus n x).beat = c.beat := rfl
@[simp] theorem Chip.setClus_lc_of (n : Nat) (x : Cluster) : (c.setClus n x).lc = c.lc := rfl
@[simp] theorem Chip.setClus_core_of (n : Nat) (x : Cluster) (i : Nat) : (c.setClus n x).core i = c.core i := rfl
@[simp] theorem Chip.setClus_pwu_of (n : Nat) (x : Cluster) (i : Nat) : (c.setClus n x).pwu i = c.pwu i := rfl
@[simp] theorem Chip.setClus_slot_of (n : Nat) (x : Cluster) (i : Nat) : (c.setClus n x).slot i = c.slot i := rfl
@[simp] theorem Chip.setClus_link_of (n : Nat) (x : Cluster) (i : Nat) : (c.setClus n x).link i = c.link i := rfl
@[simp] theorem Chip.setClus_gmc_of (n : Nat) (x : Cluster) (i : Nat) : (c.setClus n x).gmc i = c.gmc i := rfl
@[simp] theorem Chip.setClus_t2s_of (n : Nat) (x : Cluster) (i : Nat) : (c.setClus n x).t2s i = c.t2s i := rfl
@[simp] theorem Chip.setClus_cxlp_of (n : Nat) (x : Cluster) (i : Nat) : (c.setClus n x).cxlp i = c.cxlp i := rfl
@[simp] theorem Chip.setClus_loan_of (n : Nat) (x : Cluster) (i : Nat) : (c.setClus n x).loan i = c.loan i := rfl
@[simp] theorem Chip.setClus_queue_of (n : Nat) (x : Cluster) (i : Nat) : (c.setClus n x).queue i = c.queue i := rfl
@[simp] theorem Chip.setClus_coll_of (n : Nat) (x : Cluster) (i : Nat) : (c.setClus n x).coll i = c.coll i := rfl
@[simp] theorem Chip.setClus_ring_of (n : Nat) (x : Cluster) (i : Nat) : (c.setClus n x).ring i = c.ring i := rfl
@[simp] theorem Chip.setClus_byteAt_of (n : Nat) (x : Cluster) (a : Nat) : (c.setClus n x).byteAt a = c.byteAt a := rfl
@[simp] theorem Chip.setClus_poisonIn_of (n : Nat) (x : Cluster) (a k : Nat) : (c.setClus n x).poisonIn a k = c.poisonIn a k := rfl

/-! ### Chip.setPwu -/

@[simp] theorem Chip.setPwu_phase (n : Nat) (x : Pwu) : (c.setPwu n x).phase = c.phase := rfl
@[simp] theorem Chip.setPwu_regs (n : Nat) (x : Pwu) : (c.setPwu n x).regs = c.regs := rfl
@[simp] theorem Chip.setPwu_pairLatch (n : Nat) (x : Pwu) : (c.setPwu n x).pairLatch = c.pairLatch := rfl
@[simp] theorem Chip.setPwu_pairStage (n : Nat) (x : Pwu) : (c.setPwu n x).pairStage = c.pairStage := rfl
@[simp] theorem Chip.setPwu_answer (n : Nat) (x : Pwu) : (c.setPwu n x).answer = c.answer := rfl
@[simp] theorem Chip.setPwu_served (n : Nat) (x : Pwu) : (c.setPwu n x).served = c.served := rfl
@[simp] theorem Chip.setPwu_mem (n : Nat) (x : Pwu) : (c.setPwu n x).mem = c.mem := rfl
@[simp] theorem Chip.setPwu_lower (n : Nat) (x : Pwu) : (c.setPwu n x).lower = c.lower := rfl
@[simp] theorem Chip.setPwu_poison (n : Nat) (x : Pwu) : (c.setPwu n x).poison = c.poison := rfl
@[simp] theorem Chip.setPwu_lowPoison (n : Nat) (x : Pwu) : (c.setPwu n x).lowPoison = c.lowPoison := rfl
@[simp] theorem Chip.setPwu_cores (n : Nat) (x : Pwu) : (c.setPwu n x).cores = c.cores := rfl
@[simp] theorem Chip.setPwu_clusters (n : Nat) (x : Pwu) : (c.setPwu n x).clusters = c.clusters := rfl
@[simp] theorem Chip.setPwu_lrtExp (n : Nat) (x : Pwu) : (c.setPwu n x).lrtExp = c.lrtExp := rfl
@[simp] theorem Chip.setPwu_lrtShadow (n : Nat) (x : Pwu) : (c.setPwu n x).lrtShadow = c.lrtShadow := rfl
@[simp] theorem Chip.setPwu_lrtGen (n : Nat) (x : Pwu) : (c.setPwu n x).lrtGen = c.lrtGen := rfl
@[simp] theorem Chip.setPwu_slots (n : Nat) (x : Pwu) : (c.setPwu n x).slots = c.slots := rfl
@[simp] theorem Chip.setPwu_quar (n : Nat) (x : Pwu) : (c.setPwu n x).quar = c.quar := rfl
@[simp] theorem Chip.setPwu_links (n : Nat) (x : Pwu) : (c.setPwu n x).links = c.links := rfl
@[simp] theorem Chip.setPwu_colls (n : Nat) (x : Pwu) : (c.setPwu n x).colls = c.colls := rfl
@[simp] theorem Chip.setPwu_rings (n : Nat) (x : Pwu) : (c.setPwu n x).rings = c.rings := rfl
@[simp] theorem Chip.setPwu_joins (n : Nat) (x : Pwu) : (c.setPwu n x).joins = c.joins := rfl
@[simp] theorem Chip.setPwu_rcuResult (n : Nat) (x : Pwu) : (c.setPwu n x).rcuResult = c.rcuResult := rfl
@[simp] theorem Chip.setPwu_collResult (n : Nat) (x : Pwu) : (c.setPwu n x).collResult = c.collResult := rfl
@[simp] theorem Chip.setPwu_detachLast (n : Nat) (x : Pwu) : (c.setPwu n x).detachLast = c.detachLast := rfl
@[simp] theorem Chip.setPwu_rtActive (n : Nat) (x : Pwu) : (c.setPwu n x).rtActive = c.rtActive := rfl
@[simp] theorem Chip.setPwu_rtArmed (n : Nat) (x : Pwu) : (c.setPwu n x).rtArmed = c.rtArmed := rfl
@[simp] theorem Chip.setPwu_rtAt (n : Nat) (x : Pwu) : (c.setPwu n x).rtAt = c.rtAt := rfl
@[simp] theorem Chip.setPwu_rtLate (n : Nat) (x : Pwu) : (c.setPwu n x).rtLate = c.rtLate := rfl
@[simp] theorem Chip.setPwu_rtGen (n : Nat) (x : Pwu) : (c.setPwu n x).rtGen = c.rtGen := rfl
@[simp] theorem Chip.setPwu_delivered (n : Nat) (x : Pwu) : (c.setPwu n x).delivered = c.delivered := rfl
@[simp] theorem Chip.setPwu_pktOrd (n : Nat) (x : Pwu) : (c.setPwu n x).pktOrd = c.pktOrd := rfl
@[simp] theorem Chip.setPwu_straps (n : Nat) (x : Pwu) : (c.setPwu n x).straps = c.straps := rfl
@[simp] theorem Chip.setPwu_posId (n : Nat) (x : Pwu) : (c.setPwu n x).posId = c.posId := rfl
@[simp] theorem Chip.setPwu_mst (n : Nat) (x : Pwu) : (c.setPwu n x).mst = c.mst := rfl
@[simp] theorem Chip.setPwu_cad (n : Nat) (x : Pwu) : (c.setPwu n x).cad = c.cad := rfl
@[simp] theorem Chip.setPwu_mtm (n : Nat) (x : Pwu) : (c.setPwu n x).mtm = c.mtm := rfl
@[simp] theorem Chip.setPwu_gmcs (n : Nat) (x : Pwu) : (c.setPwu n x).gmcs = c.gmcs := rfl
@[simp] theorem Chip.setPwu_t2 (n : Nat) (x : Pwu) : (c.setPwu n x).t2 = c.t2 := rfl
@[simp] theorem Chip.setPwu_cxl (n : Nat) (x : Pwu) : (c.setPwu n x).cxl = c.cxl := rfl
@[simp] theorem Chip.setPwu_mbp (n : Nat) (x : Pwu) : (c.setPwu n x).mbp = c.mbp := rfl
@[simp] theorem Chip.setPwu_pwr (n : Nat) (x : Pwu) : (c.setPwu n x).pwr = c.pwr := rfl
@[simp] theorem Chip.setPwu_flash (n : Nat) (x : Pwu) : (c.setPwu n x).flash = c.flash := rfl
@[simp] theorem Chip.setPwu_otp (n : Nat) (x : Pwu) : (c.setPwu n x).otp = c.otp := rfl
@[simp] theorem Chip.setPwu_sec (n : Nat) (x : Pwu) : (c.setPwu n x).sec = c.sec := rfl
@[simp] theorem Chip.setPwu_tam (n : Nat) (x : Pwu) : (c.setPwu n x).tam = c.tam := rfl
@[simp] theorem Chip.setPwu_plans (n : Nat) (x : Pwu) : (c.setPwu n x).plans = c.plans := rfl
@[simp] theorem Chip.setPwu_rolls (n : Nat) (x : Pwu) : (c.setPwu n x).rolls = c.rolls := rfl
@[simp] theorem Chip.setPwu_contribs (n : Nat) (x : Pwu) : (c.setPwu n x).contribs = c.contribs := rfl
@[simp] theorem Chip.setPwu_provBufs (n : Nat) (x : Pwu) : (c.setPwu n x).provBufs = c.provBufs := rfl
@[simp] theorem Chip.setPwu_busy (n : Nat) (x : Pwu) : (c.setPwu n x).busy = c.busy := rfl
@[simp] theorem Chip.setPwu_wiped (n : Nat) (x : Pwu) : (c.setPwu n x).wiped = c.wiped := rfl
@[simp] theorem Chip.setPwu_draw (n : Nat) (x : Pwu) : (c.setPwu n x).draw = c.draw := rfl
@[simp] theorem Chip.setPwu_rg_of (n : Nat) (x : Pwu) (a : Nat) : (c.setPwu n x).rg a = c.rg a := rfl
@[simp] theorem Chip.setPwu_rg64_of (n : Nat) (x : Pwu) (a : Nat) : (c.setPwu n x).rg64 a = c.rg64 a := rfl
@[simp] theorem Chip.setPwu_enabled_of (n : Nat) (x : Pwu) (a : Nat) : (c.setPwu n x).enabled a = c.enabled a := rfl
@[simp] theorem Chip.setPwu_beat_of (n : Nat) (x : Pwu) : (c.setPwu n x).beat = c.beat := rfl
@[simp] theorem Chip.setPwu_lc_of (n : Nat) (x : Pwu) : (c.setPwu n x).lc = c.lc := rfl
@[simp] theorem Chip.setPwu_core_of (n : Nat) (x : Pwu) (i : Nat) : (c.setPwu n x).core i = c.core i := rfl
@[simp] theorem Chip.setPwu_clus_of (n : Nat) (x : Pwu) (i : Nat) : (c.setPwu n x).clus i = c.clus i := rfl
@[simp] theorem Chip.setPwu_slot_of (n : Nat) (x : Pwu) (i : Nat) : (c.setPwu n x).slot i = c.slot i := rfl
@[simp] theorem Chip.setPwu_link_of (n : Nat) (x : Pwu) (i : Nat) : (c.setPwu n x).link i = c.link i := rfl
@[simp] theorem Chip.setPwu_gmc_of (n : Nat) (x : Pwu) (i : Nat) : (c.setPwu n x).gmc i = c.gmc i := rfl
@[simp] theorem Chip.setPwu_t2s_of (n : Nat) (x : Pwu) (i : Nat) : (c.setPwu n x).t2s i = c.t2s i := rfl
@[simp] theorem Chip.setPwu_cxlp_of (n : Nat) (x : Pwu) (i : Nat) : (c.setPwu n x).cxlp i = c.cxlp i := rfl
@[simp] theorem Chip.setPwu_loan_of (n : Nat) (x : Pwu) (i : Nat) : (c.setPwu n x).loan i = c.loan i := rfl
@[simp] theorem Chip.setPwu_queue_of (n : Nat) (x : Pwu) (i : Nat) : (c.setPwu n x).queue i = c.queue i := rfl
@[simp] theorem Chip.setPwu_coll_of (n : Nat) (x : Pwu) (i : Nat) : (c.setPwu n x).coll i = c.coll i := rfl
@[simp] theorem Chip.setPwu_ring_of (n : Nat) (x : Pwu) (i : Nat) : (c.setPwu n x).ring i = c.ring i := rfl
@[simp] theorem Chip.setPwu_byteAt_of (n : Nat) (x : Pwu) (a : Nat) : (c.setPwu n x).byteAt a = c.byteAt a := rfl
@[simp] theorem Chip.setPwu_ctr_of (n : Nat) (x : Pwu) (i j : Nat) : (c.setPwu n x).ctr i j = c.ctr i j := rfl
@[simp] theorem Chip.setPwu_poisonIn_of (n : Nat) (x : Pwu) (a k : Nat) : (c.setPwu n x).poisonIn a k = c.poisonIn a k := rfl

/-! ### Chip.setSlot -/

@[simp] theorem Chip.setSlot_phase (n : Nat) (x : Slot) : (c.setSlot n x).phase = c.phase := rfl
@[simp] theorem Chip.setSlot_regs (n : Nat) (x : Slot) : (c.setSlot n x).regs = c.regs := rfl
@[simp] theorem Chip.setSlot_pairLatch (n : Nat) (x : Slot) : (c.setSlot n x).pairLatch = c.pairLatch := rfl
@[simp] theorem Chip.setSlot_pairStage (n : Nat) (x : Slot) : (c.setSlot n x).pairStage = c.pairStage := rfl
@[simp] theorem Chip.setSlot_answer (n : Nat) (x : Slot) : (c.setSlot n x).answer = c.answer := rfl
@[simp] theorem Chip.setSlot_served (n : Nat) (x : Slot) : (c.setSlot n x).served = c.served := rfl
@[simp] theorem Chip.setSlot_mem (n : Nat) (x : Slot) : (c.setSlot n x).mem = c.mem := rfl
@[simp] theorem Chip.setSlot_lower (n : Nat) (x : Slot) : (c.setSlot n x).lower = c.lower := rfl
@[simp] theorem Chip.setSlot_poison (n : Nat) (x : Slot) : (c.setSlot n x).poison = c.poison := rfl
@[simp] theorem Chip.setSlot_lowPoison (n : Nat) (x : Slot) : (c.setSlot n x).lowPoison = c.lowPoison := rfl
@[simp] theorem Chip.setSlot_cores (n : Nat) (x : Slot) : (c.setSlot n x).cores = c.cores := rfl
@[simp] theorem Chip.setSlot_clusters (n : Nat) (x : Slot) : (c.setSlot n x).clusters = c.clusters := rfl
@[simp] theorem Chip.setSlot_lrtExp (n : Nat) (x : Slot) : (c.setSlot n x).lrtExp = c.lrtExp := rfl
@[simp] theorem Chip.setSlot_lrtShadow (n : Nat) (x : Slot) : (c.setSlot n x).lrtShadow = c.lrtShadow := rfl
@[simp] theorem Chip.setSlot_lrtGen (n : Nat) (x : Slot) : (c.setSlot n x).lrtGen = c.lrtGen := rfl
@[simp] theorem Chip.setSlot_pwus (n : Nat) (x : Slot) : (c.setSlot n x).pwus = c.pwus := rfl
@[simp] theorem Chip.setSlot_quar (n : Nat) (x : Slot) : (c.setSlot n x).quar = c.quar := rfl
@[simp] theorem Chip.setSlot_links (n : Nat) (x : Slot) : (c.setSlot n x).links = c.links := rfl
@[simp] theorem Chip.setSlot_colls (n : Nat) (x : Slot) : (c.setSlot n x).colls = c.colls := rfl
@[simp] theorem Chip.setSlot_rings (n : Nat) (x : Slot) : (c.setSlot n x).rings = c.rings := rfl
@[simp] theorem Chip.setSlot_joins (n : Nat) (x : Slot) : (c.setSlot n x).joins = c.joins := rfl
@[simp] theorem Chip.setSlot_rcuResult (n : Nat) (x : Slot) : (c.setSlot n x).rcuResult = c.rcuResult := rfl
@[simp] theorem Chip.setSlot_collResult (n : Nat) (x : Slot) : (c.setSlot n x).collResult = c.collResult := rfl
@[simp] theorem Chip.setSlot_detachLast (n : Nat) (x : Slot) : (c.setSlot n x).detachLast = c.detachLast := rfl
@[simp] theorem Chip.setSlot_rtActive (n : Nat) (x : Slot) : (c.setSlot n x).rtActive = c.rtActive := rfl
@[simp] theorem Chip.setSlot_rtArmed (n : Nat) (x : Slot) : (c.setSlot n x).rtArmed = c.rtArmed := rfl
@[simp] theorem Chip.setSlot_rtAt (n : Nat) (x : Slot) : (c.setSlot n x).rtAt = c.rtAt := rfl
@[simp] theorem Chip.setSlot_rtLate (n : Nat) (x : Slot) : (c.setSlot n x).rtLate = c.rtLate := rfl
@[simp] theorem Chip.setSlot_rtGen (n : Nat) (x : Slot) : (c.setSlot n x).rtGen = c.rtGen := rfl
@[simp] theorem Chip.setSlot_delivered (n : Nat) (x : Slot) : (c.setSlot n x).delivered = c.delivered := rfl
@[simp] theorem Chip.setSlot_pktOrd (n : Nat) (x : Slot) : (c.setSlot n x).pktOrd = c.pktOrd := rfl
@[simp] theorem Chip.setSlot_straps (n : Nat) (x : Slot) : (c.setSlot n x).straps = c.straps := rfl
@[simp] theorem Chip.setSlot_posId (n : Nat) (x : Slot) : (c.setSlot n x).posId = c.posId := rfl
@[simp] theorem Chip.setSlot_mst (n : Nat) (x : Slot) : (c.setSlot n x).mst = c.mst := rfl
@[simp] theorem Chip.setSlot_cad (n : Nat) (x : Slot) : (c.setSlot n x).cad = c.cad := rfl
@[simp] theorem Chip.setSlot_mtm (n : Nat) (x : Slot) : (c.setSlot n x).mtm = c.mtm := rfl
@[simp] theorem Chip.setSlot_gmcs (n : Nat) (x : Slot) : (c.setSlot n x).gmcs = c.gmcs := rfl
@[simp] theorem Chip.setSlot_t2 (n : Nat) (x : Slot) : (c.setSlot n x).t2 = c.t2 := rfl
@[simp] theorem Chip.setSlot_cxl (n : Nat) (x : Slot) : (c.setSlot n x).cxl = c.cxl := rfl
@[simp] theorem Chip.setSlot_mbp (n : Nat) (x : Slot) : (c.setSlot n x).mbp = c.mbp := rfl
@[simp] theorem Chip.setSlot_pwr (n : Nat) (x : Slot) : (c.setSlot n x).pwr = c.pwr := rfl
@[simp] theorem Chip.setSlot_flash (n : Nat) (x : Slot) : (c.setSlot n x).flash = c.flash := rfl
@[simp] theorem Chip.setSlot_otp (n : Nat) (x : Slot) : (c.setSlot n x).otp = c.otp := rfl
@[simp] theorem Chip.setSlot_sec (n : Nat) (x : Slot) : (c.setSlot n x).sec = c.sec := rfl
@[simp] theorem Chip.setSlot_tam (n : Nat) (x : Slot) : (c.setSlot n x).tam = c.tam := rfl
@[simp] theorem Chip.setSlot_plans (n : Nat) (x : Slot) : (c.setSlot n x).plans = c.plans := rfl
@[simp] theorem Chip.setSlot_rolls (n : Nat) (x : Slot) : (c.setSlot n x).rolls = c.rolls := rfl
@[simp] theorem Chip.setSlot_contribs (n : Nat) (x : Slot) : (c.setSlot n x).contribs = c.contribs := rfl
@[simp] theorem Chip.setSlot_provBufs (n : Nat) (x : Slot) : (c.setSlot n x).provBufs = c.provBufs := rfl
@[simp] theorem Chip.setSlot_busy (n : Nat) (x : Slot) : (c.setSlot n x).busy = c.busy := rfl
@[simp] theorem Chip.setSlot_wiped (n : Nat) (x : Slot) : (c.setSlot n x).wiped = c.wiped := rfl
@[simp] theorem Chip.setSlot_draw (n : Nat) (x : Slot) : (c.setSlot n x).draw = c.draw := rfl
@[simp] theorem Chip.setSlot_rg_of (n : Nat) (x : Slot) (a : Nat) : (c.setSlot n x).rg a = c.rg a := rfl
@[simp] theorem Chip.setSlot_rg64_of (n : Nat) (x : Slot) (a : Nat) : (c.setSlot n x).rg64 a = c.rg64 a := rfl
@[simp] theorem Chip.setSlot_enabled_of (n : Nat) (x : Slot) (a : Nat) : (c.setSlot n x).enabled a = c.enabled a := rfl
@[simp] theorem Chip.setSlot_beat_of (n : Nat) (x : Slot) : (c.setSlot n x).beat = c.beat := rfl
@[simp] theorem Chip.setSlot_lc_of (n : Nat) (x : Slot) : (c.setSlot n x).lc = c.lc := rfl
@[simp] theorem Chip.setSlot_core_of (n : Nat) (x : Slot) (i : Nat) : (c.setSlot n x).core i = c.core i := rfl
@[simp] theorem Chip.setSlot_clus_of (n : Nat) (x : Slot) (i : Nat) : (c.setSlot n x).clus i = c.clus i := rfl
@[simp] theorem Chip.setSlot_pwu_of (n : Nat) (x : Slot) (i : Nat) : (c.setSlot n x).pwu i = c.pwu i := rfl
@[simp] theorem Chip.setSlot_link_of (n : Nat) (x : Slot) (i : Nat) : (c.setSlot n x).link i = c.link i := rfl
@[simp] theorem Chip.setSlot_gmc_of (n : Nat) (x : Slot) (i : Nat) : (c.setSlot n x).gmc i = c.gmc i := rfl
@[simp] theorem Chip.setSlot_t2s_of (n : Nat) (x : Slot) (i : Nat) : (c.setSlot n x).t2s i = c.t2s i := rfl
@[simp] theorem Chip.setSlot_cxlp_of (n : Nat) (x : Slot) (i : Nat) : (c.setSlot n x).cxlp i = c.cxlp i := rfl
@[simp] theorem Chip.setSlot_loan_of (n : Nat) (x : Slot) (i : Nat) : (c.setSlot n x).loan i = c.loan i := rfl
@[simp] theorem Chip.setSlot_queue_of (n : Nat) (x : Slot) (i : Nat) : (c.setSlot n x).queue i = c.queue i := rfl
@[simp] theorem Chip.setSlot_coll_of (n : Nat) (x : Slot) (i : Nat) : (c.setSlot n x).coll i = c.coll i := rfl
@[simp] theorem Chip.setSlot_ring_of (n : Nat) (x : Slot) (i : Nat) : (c.setSlot n x).ring i = c.ring i := rfl
@[simp] theorem Chip.setSlot_byteAt_of (n : Nat) (x : Slot) (a : Nat) : (c.setSlot n x).byteAt a = c.byteAt a := rfl
@[simp] theorem Chip.setSlot_ctr_of (n : Nat) (x : Slot) (i j : Nat) : (c.setSlot n x).ctr i j = c.ctr i j := rfl
@[simp] theorem Chip.setSlot_poisonIn_of (n : Nat) (x : Slot) (a k : Nat) : (c.setSlot n x).poisonIn a k = c.poisonIn a k := rfl

/-! ### Chip.setLink -/

@[simp] theorem Chip.setLink_phase (n : Nat) (x : Link) : (c.setLink n x).phase = c.phase := rfl
@[simp] theorem Chip.setLink_regs (n : Nat) (x : Link) : (c.setLink n x).regs = c.regs := rfl
@[simp] theorem Chip.setLink_pairLatch (n : Nat) (x : Link) : (c.setLink n x).pairLatch = c.pairLatch := rfl
@[simp] theorem Chip.setLink_pairStage (n : Nat) (x : Link) : (c.setLink n x).pairStage = c.pairStage := rfl
@[simp] theorem Chip.setLink_answer (n : Nat) (x : Link) : (c.setLink n x).answer = c.answer := rfl
@[simp] theorem Chip.setLink_served (n : Nat) (x : Link) : (c.setLink n x).served = c.served := rfl
@[simp] theorem Chip.setLink_mem (n : Nat) (x : Link) : (c.setLink n x).mem = c.mem := rfl
@[simp] theorem Chip.setLink_lower (n : Nat) (x : Link) : (c.setLink n x).lower = c.lower := rfl
@[simp] theorem Chip.setLink_poison (n : Nat) (x : Link) : (c.setLink n x).poison = c.poison := rfl
@[simp] theorem Chip.setLink_lowPoison (n : Nat) (x : Link) : (c.setLink n x).lowPoison = c.lowPoison := rfl
@[simp] theorem Chip.setLink_cores (n : Nat) (x : Link) : (c.setLink n x).cores = c.cores := rfl
@[simp] theorem Chip.setLink_clusters (n : Nat) (x : Link) : (c.setLink n x).clusters = c.clusters := rfl
@[simp] theorem Chip.setLink_lrtExp (n : Nat) (x : Link) : (c.setLink n x).lrtExp = c.lrtExp := rfl
@[simp] theorem Chip.setLink_lrtShadow (n : Nat) (x : Link) : (c.setLink n x).lrtShadow = c.lrtShadow := rfl
@[simp] theorem Chip.setLink_lrtGen (n : Nat) (x : Link) : (c.setLink n x).lrtGen = c.lrtGen := rfl
@[simp] theorem Chip.setLink_pwus (n : Nat) (x : Link) : (c.setLink n x).pwus = c.pwus := rfl
@[simp] theorem Chip.setLink_slots (n : Nat) (x : Link) : (c.setLink n x).slots = c.slots := rfl
@[simp] theorem Chip.setLink_quar (n : Nat) (x : Link) : (c.setLink n x).quar = c.quar := rfl
@[simp] theorem Chip.setLink_colls (n : Nat) (x : Link) : (c.setLink n x).colls = c.colls := rfl
@[simp] theorem Chip.setLink_rings (n : Nat) (x : Link) : (c.setLink n x).rings = c.rings := rfl
@[simp] theorem Chip.setLink_joins (n : Nat) (x : Link) : (c.setLink n x).joins = c.joins := rfl
@[simp] theorem Chip.setLink_rcuResult (n : Nat) (x : Link) : (c.setLink n x).rcuResult = c.rcuResult := rfl
@[simp] theorem Chip.setLink_collResult (n : Nat) (x : Link) : (c.setLink n x).collResult = c.collResult := rfl
@[simp] theorem Chip.setLink_detachLast (n : Nat) (x : Link) : (c.setLink n x).detachLast = c.detachLast := rfl
@[simp] theorem Chip.setLink_rtActive (n : Nat) (x : Link) : (c.setLink n x).rtActive = c.rtActive := rfl
@[simp] theorem Chip.setLink_rtArmed (n : Nat) (x : Link) : (c.setLink n x).rtArmed = c.rtArmed := rfl
@[simp] theorem Chip.setLink_rtAt (n : Nat) (x : Link) : (c.setLink n x).rtAt = c.rtAt := rfl
@[simp] theorem Chip.setLink_rtLate (n : Nat) (x : Link) : (c.setLink n x).rtLate = c.rtLate := rfl
@[simp] theorem Chip.setLink_rtGen (n : Nat) (x : Link) : (c.setLink n x).rtGen = c.rtGen := rfl
@[simp] theorem Chip.setLink_delivered (n : Nat) (x : Link) : (c.setLink n x).delivered = c.delivered := rfl
@[simp] theorem Chip.setLink_pktOrd (n : Nat) (x : Link) : (c.setLink n x).pktOrd = c.pktOrd := rfl
@[simp] theorem Chip.setLink_straps (n : Nat) (x : Link) : (c.setLink n x).straps = c.straps := rfl
@[simp] theorem Chip.setLink_posId (n : Nat) (x : Link) : (c.setLink n x).posId = c.posId := rfl
@[simp] theorem Chip.setLink_mst (n : Nat) (x : Link) : (c.setLink n x).mst = c.mst := rfl
@[simp] theorem Chip.setLink_cad (n : Nat) (x : Link) : (c.setLink n x).cad = c.cad := rfl
@[simp] theorem Chip.setLink_mtm (n : Nat) (x : Link) : (c.setLink n x).mtm = c.mtm := rfl
@[simp] theorem Chip.setLink_gmcs (n : Nat) (x : Link) : (c.setLink n x).gmcs = c.gmcs := rfl
@[simp] theorem Chip.setLink_t2 (n : Nat) (x : Link) : (c.setLink n x).t2 = c.t2 := rfl
@[simp] theorem Chip.setLink_cxl (n : Nat) (x : Link) : (c.setLink n x).cxl = c.cxl := rfl
@[simp] theorem Chip.setLink_mbp (n : Nat) (x : Link) : (c.setLink n x).mbp = c.mbp := rfl
@[simp] theorem Chip.setLink_pwr (n : Nat) (x : Link) : (c.setLink n x).pwr = c.pwr := rfl
@[simp] theorem Chip.setLink_flash (n : Nat) (x : Link) : (c.setLink n x).flash = c.flash := rfl
@[simp] theorem Chip.setLink_otp (n : Nat) (x : Link) : (c.setLink n x).otp = c.otp := rfl
@[simp] theorem Chip.setLink_sec (n : Nat) (x : Link) : (c.setLink n x).sec = c.sec := rfl
@[simp] theorem Chip.setLink_tam (n : Nat) (x : Link) : (c.setLink n x).tam = c.tam := rfl
@[simp] theorem Chip.setLink_plans (n : Nat) (x : Link) : (c.setLink n x).plans = c.plans := rfl
@[simp] theorem Chip.setLink_rolls (n : Nat) (x : Link) : (c.setLink n x).rolls = c.rolls := rfl
@[simp] theorem Chip.setLink_contribs (n : Nat) (x : Link) : (c.setLink n x).contribs = c.contribs := rfl
@[simp] theorem Chip.setLink_provBufs (n : Nat) (x : Link) : (c.setLink n x).provBufs = c.provBufs := rfl
@[simp] theorem Chip.setLink_busy (n : Nat) (x : Link) : (c.setLink n x).busy = c.busy := rfl
@[simp] theorem Chip.setLink_wiped (n : Nat) (x : Link) : (c.setLink n x).wiped = c.wiped := rfl
@[simp] theorem Chip.setLink_draw (n : Nat) (x : Link) : (c.setLink n x).draw = c.draw := rfl
@[simp] theorem Chip.setLink_rg_of (n : Nat) (x : Link) (a : Nat) : (c.setLink n x).rg a = c.rg a := rfl
@[simp] theorem Chip.setLink_rg64_of (n : Nat) (x : Link) (a : Nat) : (c.setLink n x).rg64 a = c.rg64 a := rfl
@[simp] theorem Chip.setLink_enabled_of (n : Nat) (x : Link) (a : Nat) : (c.setLink n x).enabled a = c.enabled a := rfl
@[simp] theorem Chip.setLink_beat_of (n : Nat) (x : Link) : (c.setLink n x).beat = c.beat := rfl
@[simp] theorem Chip.setLink_lc_of (n : Nat) (x : Link) : (c.setLink n x).lc = c.lc := rfl
@[simp] theorem Chip.setLink_core_of (n : Nat) (x : Link) (i : Nat) : (c.setLink n x).core i = c.core i := rfl
@[simp] theorem Chip.setLink_clus_of (n : Nat) (x : Link) (i : Nat) : (c.setLink n x).clus i = c.clus i := rfl
@[simp] theorem Chip.setLink_pwu_of (n : Nat) (x : Link) (i : Nat) : (c.setLink n x).pwu i = c.pwu i := rfl
@[simp] theorem Chip.setLink_slot_of (n : Nat) (x : Link) (i : Nat) : (c.setLink n x).slot i = c.slot i := rfl
@[simp] theorem Chip.setLink_gmc_of (n : Nat) (x : Link) (i : Nat) : (c.setLink n x).gmc i = c.gmc i := rfl
@[simp] theorem Chip.setLink_t2s_of (n : Nat) (x : Link) (i : Nat) : (c.setLink n x).t2s i = c.t2s i := rfl
@[simp] theorem Chip.setLink_cxlp_of (n : Nat) (x : Link) (i : Nat) : (c.setLink n x).cxlp i = c.cxlp i := rfl
@[simp] theorem Chip.setLink_loan_of (n : Nat) (x : Link) (i : Nat) : (c.setLink n x).loan i = c.loan i := rfl
@[simp] theorem Chip.setLink_queue_of (n : Nat) (x : Link) (i : Nat) : (c.setLink n x).queue i = c.queue i := rfl
@[simp] theorem Chip.setLink_coll_of (n : Nat) (x : Link) (i : Nat) : (c.setLink n x).coll i = c.coll i := rfl
@[simp] theorem Chip.setLink_ring_of (n : Nat) (x : Link) (i : Nat) : (c.setLink n x).ring i = c.ring i := rfl
@[simp] theorem Chip.setLink_byteAt_of (n : Nat) (x : Link) (a : Nat) : (c.setLink n x).byteAt a = c.byteAt a := rfl
@[simp] theorem Chip.setLink_ctr_of (n : Nat) (x : Link) (i j : Nat) : (c.setLink n x).ctr i j = c.ctr i j := rfl
@[simp] theorem Chip.setLink_poisonIn_of (n : Nat) (x : Link) (a k : Nat) : (c.setLink n x).poisonIn a k = c.poisonIn a k := rfl

/-! ### Chip.setGmc -/

@[simp] theorem Chip.setGmc_phase (n : Nat) (x : Gmc) : (c.setGmc n x).phase = c.phase := rfl
@[simp] theorem Chip.setGmc_regs (n : Nat) (x : Gmc) : (c.setGmc n x).regs = c.regs := rfl
@[simp] theorem Chip.setGmc_pairLatch (n : Nat) (x : Gmc) : (c.setGmc n x).pairLatch = c.pairLatch := rfl
@[simp] theorem Chip.setGmc_pairStage (n : Nat) (x : Gmc) : (c.setGmc n x).pairStage = c.pairStage := rfl
@[simp] theorem Chip.setGmc_answer (n : Nat) (x : Gmc) : (c.setGmc n x).answer = c.answer := rfl
@[simp] theorem Chip.setGmc_served (n : Nat) (x : Gmc) : (c.setGmc n x).served = c.served := rfl
@[simp] theorem Chip.setGmc_mem (n : Nat) (x : Gmc) : (c.setGmc n x).mem = c.mem := rfl
@[simp] theorem Chip.setGmc_lower (n : Nat) (x : Gmc) : (c.setGmc n x).lower = c.lower := rfl
@[simp] theorem Chip.setGmc_poison (n : Nat) (x : Gmc) : (c.setGmc n x).poison = c.poison := rfl
@[simp] theorem Chip.setGmc_lowPoison (n : Nat) (x : Gmc) : (c.setGmc n x).lowPoison = c.lowPoison := rfl
@[simp] theorem Chip.setGmc_cores (n : Nat) (x : Gmc) : (c.setGmc n x).cores = c.cores := rfl
@[simp] theorem Chip.setGmc_clusters (n : Nat) (x : Gmc) : (c.setGmc n x).clusters = c.clusters := rfl
@[simp] theorem Chip.setGmc_lrtExp (n : Nat) (x : Gmc) : (c.setGmc n x).lrtExp = c.lrtExp := rfl
@[simp] theorem Chip.setGmc_lrtShadow (n : Nat) (x : Gmc) : (c.setGmc n x).lrtShadow = c.lrtShadow := rfl
@[simp] theorem Chip.setGmc_lrtGen (n : Nat) (x : Gmc) : (c.setGmc n x).lrtGen = c.lrtGen := rfl
@[simp] theorem Chip.setGmc_pwus (n : Nat) (x : Gmc) : (c.setGmc n x).pwus = c.pwus := rfl
@[simp] theorem Chip.setGmc_slots (n : Nat) (x : Gmc) : (c.setGmc n x).slots = c.slots := rfl
@[simp] theorem Chip.setGmc_quar (n : Nat) (x : Gmc) : (c.setGmc n x).quar = c.quar := rfl
@[simp] theorem Chip.setGmc_links (n : Nat) (x : Gmc) : (c.setGmc n x).links = c.links := rfl
@[simp] theorem Chip.setGmc_colls (n : Nat) (x : Gmc) : (c.setGmc n x).colls = c.colls := rfl
@[simp] theorem Chip.setGmc_rings (n : Nat) (x : Gmc) : (c.setGmc n x).rings = c.rings := rfl
@[simp] theorem Chip.setGmc_joins (n : Nat) (x : Gmc) : (c.setGmc n x).joins = c.joins := rfl
@[simp] theorem Chip.setGmc_rcuResult (n : Nat) (x : Gmc) : (c.setGmc n x).rcuResult = c.rcuResult := rfl
@[simp] theorem Chip.setGmc_collResult (n : Nat) (x : Gmc) : (c.setGmc n x).collResult = c.collResult := rfl
@[simp] theorem Chip.setGmc_detachLast (n : Nat) (x : Gmc) : (c.setGmc n x).detachLast = c.detachLast := rfl
@[simp] theorem Chip.setGmc_rtActive (n : Nat) (x : Gmc) : (c.setGmc n x).rtActive = c.rtActive := rfl
@[simp] theorem Chip.setGmc_rtArmed (n : Nat) (x : Gmc) : (c.setGmc n x).rtArmed = c.rtArmed := rfl
@[simp] theorem Chip.setGmc_rtAt (n : Nat) (x : Gmc) : (c.setGmc n x).rtAt = c.rtAt := rfl
@[simp] theorem Chip.setGmc_rtLate (n : Nat) (x : Gmc) : (c.setGmc n x).rtLate = c.rtLate := rfl
@[simp] theorem Chip.setGmc_rtGen (n : Nat) (x : Gmc) : (c.setGmc n x).rtGen = c.rtGen := rfl
@[simp] theorem Chip.setGmc_delivered (n : Nat) (x : Gmc) : (c.setGmc n x).delivered = c.delivered := rfl
@[simp] theorem Chip.setGmc_pktOrd (n : Nat) (x : Gmc) : (c.setGmc n x).pktOrd = c.pktOrd := rfl
@[simp] theorem Chip.setGmc_straps (n : Nat) (x : Gmc) : (c.setGmc n x).straps = c.straps := rfl
@[simp] theorem Chip.setGmc_posId (n : Nat) (x : Gmc) : (c.setGmc n x).posId = c.posId := rfl
@[simp] theorem Chip.setGmc_mst (n : Nat) (x : Gmc) : (c.setGmc n x).mst = c.mst := rfl
@[simp] theorem Chip.setGmc_cad (n : Nat) (x : Gmc) : (c.setGmc n x).cad = c.cad := rfl
@[simp] theorem Chip.setGmc_mtm (n : Nat) (x : Gmc) : (c.setGmc n x).mtm = c.mtm := rfl
@[simp] theorem Chip.setGmc_t2 (n : Nat) (x : Gmc) : (c.setGmc n x).t2 = c.t2 := rfl
@[simp] theorem Chip.setGmc_cxl (n : Nat) (x : Gmc) : (c.setGmc n x).cxl = c.cxl := rfl
@[simp] theorem Chip.setGmc_mbp (n : Nat) (x : Gmc) : (c.setGmc n x).mbp = c.mbp := rfl
@[simp] theorem Chip.setGmc_pwr (n : Nat) (x : Gmc) : (c.setGmc n x).pwr = c.pwr := rfl
@[simp] theorem Chip.setGmc_flash (n : Nat) (x : Gmc) : (c.setGmc n x).flash = c.flash := rfl
@[simp] theorem Chip.setGmc_otp (n : Nat) (x : Gmc) : (c.setGmc n x).otp = c.otp := rfl
@[simp] theorem Chip.setGmc_sec (n : Nat) (x : Gmc) : (c.setGmc n x).sec = c.sec := rfl
@[simp] theorem Chip.setGmc_tam (n : Nat) (x : Gmc) : (c.setGmc n x).tam = c.tam := rfl
@[simp] theorem Chip.setGmc_plans (n : Nat) (x : Gmc) : (c.setGmc n x).plans = c.plans := rfl
@[simp] theorem Chip.setGmc_rolls (n : Nat) (x : Gmc) : (c.setGmc n x).rolls = c.rolls := rfl
@[simp] theorem Chip.setGmc_contribs (n : Nat) (x : Gmc) : (c.setGmc n x).contribs = c.contribs := rfl
@[simp] theorem Chip.setGmc_provBufs (n : Nat) (x : Gmc) : (c.setGmc n x).provBufs = c.provBufs := rfl
@[simp] theorem Chip.setGmc_busy (n : Nat) (x : Gmc) : (c.setGmc n x).busy = c.busy := rfl
@[simp] theorem Chip.setGmc_wiped (n : Nat) (x : Gmc) : (c.setGmc n x).wiped = c.wiped := rfl
@[simp] theorem Chip.setGmc_draw (n : Nat) (x : Gmc) : (c.setGmc n x).draw = c.draw := rfl
@[simp] theorem Chip.setGmc_rg_of (n : Nat) (x : Gmc) (a : Nat) : (c.setGmc n x).rg a = c.rg a := rfl
@[simp] theorem Chip.setGmc_rg64_of (n : Nat) (x : Gmc) (a : Nat) : (c.setGmc n x).rg64 a = c.rg64 a := rfl
@[simp] theorem Chip.setGmc_enabled_of (n : Nat) (x : Gmc) (a : Nat) : (c.setGmc n x).enabled a = c.enabled a := rfl
@[simp] theorem Chip.setGmc_beat_of (n : Nat) (x : Gmc) : (c.setGmc n x).beat = c.beat := rfl
@[simp] theorem Chip.setGmc_lc_of (n : Nat) (x : Gmc) : (c.setGmc n x).lc = c.lc := rfl
@[simp] theorem Chip.setGmc_core_of (n : Nat) (x : Gmc) (i : Nat) : (c.setGmc n x).core i = c.core i := rfl
@[simp] theorem Chip.setGmc_clus_of (n : Nat) (x : Gmc) (i : Nat) : (c.setGmc n x).clus i = c.clus i := rfl
@[simp] theorem Chip.setGmc_pwu_of (n : Nat) (x : Gmc) (i : Nat) : (c.setGmc n x).pwu i = c.pwu i := rfl
@[simp] theorem Chip.setGmc_slot_of (n : Nat) (x : Gmc) (i : Nat) : (c.setGmc n x).slot i = c.slot i := rfl
@[simp] theorem Chip.setGmc_link_of (n : Nat) (x : Gmc) (i : Nat) : (c.setGmc n x).link i = c.link i := rfl
@[simp] theorem Chip.setGmc_t2s_of (n : Nat) (x : Gmc) (i : Nat) : (c.setGmc n x).t2s i = c.t2s i := rfl
@[simp] theorem Chip.setGmc_cxlp_of (n : Nat) (x : Gmc) (i : Nat) : (c.setGmc n x).cxlp i = c.cxlp i := rfl
@[simp] theorem Chip.setGmc_loan_of (n : Nat) (x : Gmc) (i : Nat) : (c.setGmc n x).loan i = c.loan i := rfl
@[simp] theorem Chip.setGmc_queue_of (n : Nat) (x : Gmc) (i : Nat) : (c.setGmc n x).queue i = c.queue i := rfl
@[simp] theorem Chip.setGmc_coll_of (n : Nat) (x : Gmc) (i : Nat) : (c.setGmc n x).coll i = c.coll i := rfl
@[simp] theorem Chip.setGmc_ring_of (n : Nat) (x : Gmc) (i : Nat) : (c.setGmc n x).ring i = c.ring i := rfl
@[simp] theorem Chip.setGmc_byteAt_of (n : Nat) (x : Gmc) (a : Nat) : (c.setGmc n x).byteAt a = c.byteAt a := rfl
@[simp] theorem Chip.setGmc_ctr_of (n : Nat) (x : Gmc) (i j : Nat) : (c.setGmc n x).ctr i j = c.ctr i j := rfl
@[simp] theorem Chip.setGmc_poisonIn_of (n : Nat) (x : Gmc) (a k : Nat) : (c.setGmc n x).poisonIn a k = c.poisonIn a k := rfl

/-! ### Chip.setT2 -/

@[simp] theorem Chip.setT2_phase (n : Nat) (x : T2) : (c.setT2 n x).phase = c.phase := rfl
@[simp] theorem Chip.setT2_regs (n : Nat) (x : T2) : (c.setT2 n x).regs = c.regs := rfl
@[simp] theorem Chip.setT2_pairLatch (n : Nat) (x : T2) : (c.setT2 n x).pairLatch = c.pairLatch := rfl
@[simp] theorem Chip.setT2_pairStage (n : Nat) (x : T2) : (c.setT2 n x).pairStage = c.pairStage := rfl
@[simp] theorem Chip.setT2_answer (n : Nat) (x : T2) : (c.setT2 n x).answer = c.answer := rfl
@[simp] theorem Chip.setT2_served (n : Nat) (x : T2) : (c.setT2 n x).served = c.served := rfl
@[simp] theorem Chip.setT2_mem (n : Nat) (x : T2) : (c.setT2 n x).mem = c.mem := rfl
@[simp] theorem Chip.setT2_lower (n : Nat) (x : T2) : (c.setT2 n x).lower = c.lower := rfl
@[simp] theorem Chip.setT2_poison (n : Nat) (x : T2) : (c.setT2 n x).poison = c.poison := rfl
@[simp] theorem Chip.setT2_lowPoison (n : Nat) (x : T2) : (c.setT2 n x).lowPoison = c.lowPoison := rfl
@[simp] theorem Chip.setT2_cores (n : Nat) (x : T2) : (c.setT2 n x).cores = c.cores := rfl
@[simp] theorem Chip.setT2_clusters (n : Nat) (x : T2) : (c.setT2 n x).clusters = c.clusters := rfl
@[simp] theorem Chip.setT2_lrtExp (n : Nat) (x : T2) : (c.setT2 n x).lrtExp = c.lrtExp := rfl
@[simp] theorem Chip.setT2_lrtShadow (n : Nat) (x : T2) : (c.setT2 n x).lrtShadow = c.lrtShadow := rfl
@[simp] theorem Chip.setT2_lrtGen (n : Nat) (x : T2) : (c.setT2 n x).lrtGen = c.lrtGen := rfl
@[simp] theorem Chip.setT2_pwus (n : Nat) (x : T2) : (c.setT2 n x).pwus = c.pwus := rfl
@[simp] theorem Chip.setT2_slots (n : Nat) (x : T2) : (c.setT2 n x).slots = c.slots := rfl
@[simp] theorem Chip.setT2_quar (n : Nat) (x : T2) : (c.setT2 n x).quar = c.quar := rfl
@[simp] theorem Chip.setT2_links (n : Nat) (x : T2) : (c.setT2 n x).links = c.links := rfl
@[simp] theorem Chip.setT2_colls (n : Nat) (x : T2) : (c.setT2 n x).colls = c.colls := rfl
@[simp] theorem Chip.setT2_rings (n : Nat) (x : T2) : (c.setT2 n x).rings = c.rings := rfl
@[simp] theorem Chip.setT2_joins (n : Nat) (x : T2) : (c.setT2 n x).joins = c.joins := rfl
@[simp] theorem Chip.setT2_rcuResult (n : Nat) (x : T2) : (c.setT2 n x).rcuResult = c.rcuResult := rfl
@[simp] theorem Chip.setT2_collResult (n : Nat) (x : T2) : (c.setT2 n x).collResult = c.collResult := rfl
@[simp] theorem Chip.setT2_detachLast (n : Nat) (x : T2) : (c.setT2 n x).detachLast = c.detachLast := rfl
@[simp] theorem Chip.setT2_rtActive (n : Nat) (x : T2) : (c.setT2 n x).rtActive = c.rtActive := rfl
@[simp] theorem Chip.setT2_rtArmed (n : Nat) (x : T2) : (c.setT2 n x).rtArmed = c.rtArmed := rfl
@[simp] theorem Chip.setT2_rtAt (n : Nat) (x : T2) : (c.setT2 n x).rtAt = c.rtAt := rfl
@[simp] theorem Chip.setT2_rtLate (n : Nat) (x : T2) : (c.setT2 n x).rtLate = c.rtLate := rfl
@[simp] theorem Chip.setT2_rtGen (n : Nat) (x : T2) : (c.setT2 n x).rtGen = c.rtGen := rfl
@[simp] theorem Chip.setT2_delivered (n : Nat) (x : T2) : (c.setT2 n x).delivered = c.delivered := rfl
@[simp] theorem Chip.setT2_pktOrd (n : Nat) (x : T2) : (c.setT2 n x).pktOrd = c.pktOrd := rfl
@[simp] theorem Chip.setT2_straps (n : Nat) (x : T2) : (c.setT2 n x).straps = c.straps := rfl
@[simp] theorem Chip.setT2_posId (n : Nat) (x : T2) : (c.setT2 n x).posId = c.posId := rfl
@[simp] theorem Chip.setT2_mst (n : Nat) (x : T2) : (c.setT2 n x).mst = c.mst := rfl
@[simp] theorem Chip.setT2_cad (n : Nat) (x : T2) : (c.setT2 n x).cad = c.cad := rfl
@[simp] theorem Chip.setT2_mtm (n : Nat) (x : T2) : (c.setT2 n x).mtm = c.mtm := rfl
@[simp] theorem Chip.setT2_gmcs (n : Nat) (x : T2) : (c.setT2 n x).gmcs = c.gmcs := rfl
@[simp] theorem Chip.setT2_cxl (n : Nat) (x : T2) : (c.setT2 n x).cxl = c.cxl := rfl
@[simp] theorem Chip.setT2_mbp (n : Nat) (x : T2) : (c.setT2 n x).mbp = c.mbp := rfl
@[simp] theorem Chip.setT2_pwr (n : Nat) (x : T2) : (c.setT2 n x).pwr = c.pwr := rfl
@[simp] theorem Chip.setT2_flash (n : Nat) (x : T2) : (c.setT2 n x).flash = c.flash := rfl
@[simp] theorem Chip.setT2_otp (n : Nat) (x : T2) : (c.setT2 n x).otp = c.otp := rfl
@[simp] theorem Chip.setT2_sec (n : Nat) (x : T2) : (c.setT2 n x).sec = c.sec := rfl
@[simp] theorem Chip.setT2_tam (n : Nat) (x : T2) : (c.setT2 n x).tam = c.tam := rfl
@[simp] theorem Chip.setT2_plans (n : Nat) (x : T2) : (c.setT2 n x).plans = c.plans := rfl
@[simp] theorem Chip.setT2_rolls (n : Nat) (x : T2) : (c.setT2 n x).rolls = c.rolls := rfl
@[simp] theorem Chip.setT2_contribs (n : Nat) (x : T2) : (c.setT2 n x).contribs = c.contribs := rfl
@[simp] theorem Chip.setT2_provBufs (n : Nat) (x : T2) : (c.setT2 n x).provBufs = c.provBufs := rfl
@[simp] theorem Chip.setT2_busy (n : Nat) (x : T2) : (c.setT2 n x).busy = c.busy := rfl
@[simp] theorem Chip.setT2_wiped (n : Nat) (x : T2) : (c.setT2 n x).wiped = c.wiped := rfl
@[simp] theorem Chip.setT2_draw (n : Nat) (x : T2) : (c.setT2 n x).draw = c.draw := rfl
@[simp] theorem Chip.setT2_rg_of (n : Nat) (x : T2) (a : Nat) : (c.setT2 n x).rg a = c.rg a := rfl
@[simp] theorem Chip.setT2_rg64_of (n : Nat) (x : T2) (a : Nat) : (c.setT2 n x).rg64 a = c.rg64 a := rfl
@[simp] theorem Chip.setT2_enabled_of (n : Nat) (x : T2) (a : Nat) : (c.setT2 n x).enabled a = c.enabled a := rfl
@[simp] theorem Chip.setT2_beat_of (n : Nat) (x : T2) : (c.setT2 n x).beat = c.beat := rfl
@[simp] theorem Chip.setT2_lc_of (n : Nat) (x : T2) : (c.setT2 n x).lc = c.lc := rfl
@[simp] theorem Chip.setT2_core_of (n : Nat) (x : T2) (i : Nat) : (c.setT2 n x).core i = c.core i := rfl
@[simp] theorem Chip.setT2_clus_of (n : Nat) (x : T2) (i : Nat) : (c.setT2 n x).clus i = c.clus i := rfl
@[simp] theorem Chip.setT2_pwu_of (n : Nat) (x : T2) (i : Nat) : (c.setT2 n x).pwu i = c.pwu i := rfl
@[simp] theorem Chip.setT2_slot_of (n : Nat) (x : T2) (i : Nat) : (c.setT2 n x).slot i = c.slot i := rfl
@[simp] theorem Chip.setT2_link_of (n : Nat) (x : T2) (i : Nat) : (c.setT2 n x).link i = c.link i := rfl
@[simp] theorem Chip.setT2_gmc_of (n : Nat) (x : T2) (i : Nat) : (c.setT2 n x).gmc i = c.gmc i := rfl
@[simp] theorem Chip.setT2_cxlp_of (n : Nat) (x : T2) (i : Nat) : (c.setT2 n x).cxlp i = c.cxlp i := rfl
@[simp] theorem Chip.setT2_loan_of (n : Nat) (x : T2) (i : Nat) : (c.setT2 n x).loan i = c.loan i := rfl
@[simp] theorem Chip.setT2_queue_of (n : Nat) (x : T2) (i : Nat) : (c.setT2 n x).queue i = c.queue i := rfl
@[simp] theorem Chip.setT2_coll_of (n : Nat) (x : T2) (i : Nat) : (c.setT2 n x).coll i = c.coll i := rfl
@[simp] theorem Chip.setT2_ring_of (n : Nat) (x : T2) (i : Nat) : (c.setT2 n x).ring i = c.ring i := rfl
@[simp] theorem Chip.setT2_byteAt_of (n : Nat) (x : T2) (a : Nat) : (c.setT2 n x).byteAt a = c.byteAt a := rfl
@[simp] theorem Chip.setT2_ctr_of (n : Nat) (x : T2) (i j : Nat) : (c.setT2 n x).ctr i j = c.ctr i j := rfl
@[simp] theorem Chip.setT2_poisonIn_of (n : Nat) (x : T2) (a k : Nat) : (c.setT2 n x).poisonIn a k = c.poisonIn a k := rfl

/-! ### Chip.setCxl -/

@[simp] theorem Chip.setCxl_phase (n : Nat) (x : Cxl) : (c.setCxl n x).phase = c.phase := rfl
@[simp] theorem Chip.setCxl_regs (n : Nat) (x : Cxl) : (c.setCxl n x).regs = c.regs := rfl
@[simp] theorem Chip.setCxl_pairLatch (n : Nat) (x : Cxl) : (c.setCxl n x).pairLatch = c.pairLatch := rfl
@[simp] theorem Chip.setCxl_pairStage (n : Nat) (x : Cxl) : (c.setCxl n x).pairStage = c.pairStage := rfl
@[simp] theorem Chip.setCxl_answer (n : Nat) (x : Cxl) : (c.setCxl n x).answer = c.answer := rfl
@[simp] theorem Chip.setCxl_served (n : Nat) (x : Cxl) : (c.setCxl n x).served = c.served := rfl
@[simp] theorem Chip.setCxl_mem (n : Nat) (x : Cxl) : (c.setCxl n x).mem = c.mem := rfl
@[simp] theorem Chip.setCxl_lower (n : Nat) (x : Cxl) : (c.setCxl n x).lower = c.lower := rfl
@[simp] theorem Chip.setCxl_poison (n : Nat) (x : Cxl) : (c.setCxl n x).poison = c.poison := rfl
@[simp] theorem Chip.setCxl_lowPoison (n : Nat) (x : Cxl) : (c.setCxl n x).lowPoison = c.lowPoison := rfl
@[simp] theorem Chip.setCxl_cores (n : Nat) (x : Cxl) : (c.setCxl n x).cores = c.cores := rfl
@[simp] theorem Chip.setCxl_clusters (n : Nat) (x : Cxl) : (c.setCxl n x).clusters = c.clusters := rfl
@[simp] theorem Chip.setCxl_lrtExp (n : Nat) (x : Cxl) : (c.setCxl n x).lrtExp = c.lrtExp := rfl
@[simp] theorem Chip.setCxl_lrtShadow (n : Nat) (x : Cxl) : (c.setCxl n x).lrtShadow = c.lrtShadow := rfl
@[simp] theorem Chip.setCxl_lrtGen (n : Nat) (x : Cxl) : (c.setCxl n x).lrtGen = c.lrtGen := rfl
@[simp] theorem Chip.setCxl_pwus (n : Nat) (x : Cxl) : (c.setCxl n x).pwus = c.pwus := rfl
@[simp] theorem Chip.setCxl_slots (n : Nat) (x : Cxl) : (c.setCxl n x).slots = c.slots := rfl
@[simp] theorem Chip.setCxl_quar (n : Nat) (x : Cxl) : (c.setCxl n x).quar = c.quar := rfl
@[simp] theorem Chip.setCxl_links (n : Nat) (x : Cxl) : (c.setCxl n x).links = c.links := rfl
@[simp] theorem Chip.setCxl_colls (n : Nat) (x : Cxl) : (c.setCxl n x).colls = c.colls := rfl
@[simp] theorem Chip.setCxl_rings (n : Nat) (x : Cxl) : (c.setCxl n x).rings = c.rings := rfl
@[simp] theorem Chip.setCxl_joins (n : Nat) (x : Cxl) : (c.setCxl n x).joins = c.joins := rfl
@[simp] theorem Chip.setCxl_rcuResult (n : Nat) (x : Cxl) : (c.setCxl n x).rcuResult = c.rcuResult := rfl
@[simp] theorem Chip.setCxl_collResult (n : Nat) (x : Cxl) : (c.setCxl n x).collResult = c.collResult := rfl
@[simp] theorem Chip.setCxl_detachLast (n : Nat) (x : Cxl) : (c.setCxl n x).detachLast = c.detachLast := rfl
@[simp] theorem Chip.setCxl_rtActive (n : Nat) (x : Cxl) : (c.setCxl n x).rtActive = c.rtActive := rfl
@[simp] theorem Chip.setCxl_rtArmed (n : Nat) (x : Cxl) : (c.setCxl n x).rtArmed = c.rtArmed := rfl
@[simp] theorem Chip.setCxl_rtAt (n : Nat) (x : Cxl) : (c.setCxl n x).rtAt = c.rtAt := rfl
@[simp] theorem Chip.setCxl_rtLate (n : Nat) (x : Cxl) : (c.setCxl n x).rtLate = c.rtLate := rfl
@[simp] theorem Chip.setCxl_rtGen (n : Nat) (x : Cxl) : (c.setCxl n x).rtGen = c.rtGen := rfl
@[simp] theorem Chip.setCxl_delivered (n : Nat) (x : Cxl) : (c.setCxl n x).delivered = c.delivered := rfl
@[simp] theorem Chip.setCxl_pktOrd (n : Nat) (x : Cxl) : (c.setCxl n x).pktOrd = c.pktOrd := rfl
@[simp] theorem Chip.setCxl_straps (n : Nat) (x : Cxl) : (c.setCxl n x).straps = c.straps := rfl
@[simp] theorem Chip.setCxl_posId (n : Nat) (x : Cxl) : (c.setCxl n x).posId = c.posId := rfl
@[simp] theorem Chip.setCxl_mst (n : Nat) (x : Cxl) : (c.setCxl n x).mst = c.mst := rfl
@[simp] theorem Chip.setCxl_cad (n : Nat) (x : Cxl) : (c.setCxl n x).cad = c.cad := rfl
@[simp] theorem Chip.setCxl_mtm (n : Nat) (x : Cxl) : (c.setCxl n x).mtm = c.mtm := rfl
@[simp] theorem Chip.setCxl_gmcs (n : Nat) (x : Cxl) : (c.setCxl n x).gmcs = c.gmcs := rfl
@[simp] theorem Chip.setCxl_t2 (n : Nat) (x : Cxl) : (c.setCxl n x).t2 = c.t2 := rfl
@[simp] theorem Chip.setCxl_mbp (n : Nat) (x : Cxl) : (c.setCxl n x).mbp = c.mbp := rfl
@[simp] theorem Chip.setCxl_pwr (n : Nat) (x : Cxl) : (c.setCxl n x).pwr = c.pwr := rfl
@[simp] theorem Chip.setCxl_flash (n : Nat) (x : Cxl) : (c.setCxl n x).flash = c.flash := rfl
@[simp] theorem Chip.setCxl_otp (n : Nat) (x : Cxl) : (c.setCxl n x).otp = c.otp := rfl
@[simp] theorem Chip.setCxl_sec (n : Nat) (x : Cxl) : (c.setCxl n x).sec = c.sec := rfl
@[simp] theorem Chip.setCxl_tam (n : Nat) (x : Cxl) : (c.setCxl n x).tam = c.tam := rfl
@[simp] theorem Chip.setCxl_plans (n : Nat) (x : Cxl) : (c.setCxl n x).plans = c.plans := rfl
@[simp] theorem Chip.setCxl_rolls (n : Nat) (x : Cxl) : (c.setCxl n x).rolls = c.rolls := rfl
@[simp] theorem Chip.setCxl_contribs (n : Nat) (x : Cxl) : (c.setCxl n x).contribs = c.contribs := rfl
@[simp] theorem Chip.setCxl_provBufs (n : Nat) (x : Cxl) : (c.setCxl n x).provBufs = c.provBufs := rfl
@[simp] theorem Chip.setCxl_busy (n : Nat) (x : Cxl) : (c.setCxl n x).busy = c.busy := rfl
@[simp] theorem Chip.setCxl_wiped (n : Nat) (x : Cxl) : (c.setCxl n x).wiped = c.wiped := rfl
@[simp] theorem Chip.setCxl_draw (n : Nat) (x : Cxl) : (c.setCxl n x).draw = c.draw := rfl
@[simp] theorem Chip.setCxl_rg_of (n : Nat) (x : Cxl) (a : Nat) : (c.setCxl n x).rg a = c.rg a := rfl
@[simp] theorem Chip.setCxl_rg64_of (n : Nat) (x : Cxl) (a : Nat) : (c.setCxl n x).rg64 a = c.rg64 a := rfl
@[simp] theorem Chip.setCxl_enabled_of (n : Nat) (x : Cxl) (a : Nat) : (c.setCxl n x).enabled a = c.enabled a := rfl
@[simp] theorem Chip.setCxl_beat_of (n : Nat) (x : Cxl) : (c.setCxl n x).beat = c.beat := rfl
@[simp] theorem Chip.setCxl_lc_of (n : Nat) (x : Cxl) : (c.setCxl n x).lc = c.lc := rfl
@[simp] theorem Chip.setCxl_core_of (n : Nat) (x : Cxl) (i : Nat) : (c.setCxl n x).core i = c.core i := rfl
@[simp] theorem Chip.setCxl_clus_of (n : Nat) (x : Cxl) (i : Nat) : (c.setCxl n x).clus i = c.clus i := rfl
@[simp] theorem Chip.setCxl_pwu_of (n : Nat) (x : Cxl) (i : Nat) : (c.setCxl n x).pwu i = c.pwu i := rfl
@[simp] theorem Chip.setCxl_slot_of (n : Nat) (x : Cxl) (i : Nat) : (c.setCxl n x).slot i = c.slot i := rfl
@[simp] theorem Chip.setCxl_link_of (n : Nat) (x : Cxl) (i : Nat) : (c.setCxl n x).link i = c.link i := rfl
@[simp] theorem Chip.setCxl_gmc_of (n : Nat) (x : Cxl) (i : Nat) : (c.setCxl n x).gmc i = c.gmc i := rfl
@[simp] theorem Chip.setCxl_t2s_of (n : Nat) (x : Cxl) (i : Nat) : (c.setCxl n x).t2s i = c.t2s i := rfl
@[simp] theorem Chip.setCxl_loan_of (n : Nat) (x : Cxl) (i : Nat) : (c.setCxl n x).loan i = c.loan i := rfl
@[simp] theorem Chip.setCxl_queue_of (n : Nat) (x : Cxl) (i : Nat) : (c.setCxl n x).queue i = c.queue i := rfl
@[simp] theorem Chip.setCxl_coll_of (n : Nat) (x : Cxl) (i : Nat) : (c.setCxl n x).coll i = c.coll i := rfl
@[simp] theorem Chip.setCxl_ring_of (n : Nat) (x : Cxl) (i : Nat) : (c.setCxl n x).ring i = c.ring i := rfl
@[simp] theorem Chip.setCxl_byteAt_of (n : Nat) (x : Cxl) (a : Nat) : (c.setCxl n x).byteAt a = c.byteAt a := rfl
@[simp] theorem Chip.setCxl_ctr_of (n : Nat) (x : Cxl) (i j : Nat) : (c.setCxl n x).ctr i j = c.ctr i j := rfl
@[simp] theorem Chip.setCxl_poisonIn_of (n : Nat) (x : Cxl) (a k : Nat) : (c.setCxl n x).poisonIn a k = c.poisonIn a k := rfl

/-! ### Chip.setLoan -/

@[simp] theorem Chip.setLoan_phase (n : Nat) (x : Loan) : (c.setLoan n x).phase = c.phase := rfl
@[simp] theorem Chip.setLoan_regs (n : Nat) (x : Loan) : (c.setLoan n x).regs = c.regs := rfl
@[simp] theorem Chip.setLoan_pairLatch (n : Nat) (x : Loan) : (c.setLoan n x).pairLatch = c.pairLatch := rfl
@[simp] theorem Chip.setLoan_pairStage (n : Nat) (x : Loan) : (c.setLoan n x).pairStage = c.pairStage := rfl
@[simp] theorem Chip.setLoan_answer (n : Nat) (x : Loan) : (c.setLoan n x).answer = c.answer := rfl
@[simp] theorem Chip.setLoan_served (n : Nat) (x : Loan) : (c.setLoan n x).served = c.served := rfl
@[simp] theorem Chip.setLoan_mem (n : Nat) (x : Loan) : (c.setLoan n x).mem = c.mem := rfl
@[simp] theorem Chip.setLoan_lower (n : Nat) (x : Loan) : (c.setLoan n x).lower = c.lower := rfl
@[simp] theorem Chip.setLoan_poison (n : Nat) (x : Loan) : (c.setLoan n x).poison = c.poison := rfl
@[simp] theorem Chip.setLoan_lowPoison (n : Nat) (x : Loan) : (c.setLoan n x).lowPoison = c.lowPoison := rfl
@[simp] theorem Chip.setLoan_cores (n : Nat) (x : Loan) : (c.setLoan n x).cores = c.cores := rfl
@[simp] theorem Chip.setLoan_clusters (n : Nat) (x : Loan) : (c.setLoan n x).clusters = c.clusters := rfl
@[simp] theorem Chip.setLoan_lrtExp (n : Nat) (x : Loan) : (c.setLoan n x).lrtExp = c.lrtExp := rfl
@[simp] theorem Chip.setLoan_lrtShadow (n : Nat) (x : Loan) : (c.setLoan n x).lrtShadow = c.lrtShadow := rfl
@[simp] theorem Chip.setLoan_lrtGen (n : Nat) (x : Loan) : (c.setLoan n x).lrtGen = c.lrtGen := rfl
@[simp] theorem Chip.setLoan_pwus (n : Nat) (x : Loan) : (c.setLoan n x).pwus = c.pwus := rfl
@[simp] theorem Chip.setLoan_slots (n : Nat) (x : Loan) : (c.setLoan n x).slots = c.slots := rfl
@[simp] theorem Chip.setLoan_quar (n : Nat) (x : Loan) : (c.setLoan n x).quar = c.quar := rfl
@[simp] theorem Chip.setLoan_links (n : Nat) (x : Loan) : (c.setLoan n x).links = c.links := rfl
@[simp] theorem Chip.setLoan_colls (n : Nat) (x : Loan) : (c.setLoan n x).colls = c.colls := rfl
@[simp] theorem Chip.setLoan_rings (n : Nat) (x : Loan) : (c.setLoan n x).rings = c.rings := rfl
@[simp] theorem Chip.setLoan_joins (n : Nat) (x : Loan) : (c.setLoan n x).joins = c.joins := rfl
@[simp] theorem Chip.setLoan_rcuResult (n : Nat) (x : Loan) : (c.setLoan n x).rcuResult = c.rcuResult := rfl
@[simp] theorem Chip.setLoan_collResult (n : Nat) (x : Loan) : (c.setLoan n x).collResult = c.collResult := rfl
@[simp] theorem Chip.setLoan_detachLast (n : Nat) (x : Loan) : (c.setLoan n x).detachLast = c.detachLast := rfl
@[simp] theorem Chip.setLoan_rtActive (n : Nat) (x : Loan) : (c.setLoan n x).rtActive = c.rtActive := rfl
@[simp] theorem Chip.setLoan_rtArmed (n : Nat) (x : Loan) : (c.setLoan n x).rtArmed = c.rtArmed := rfl
@[simp] theorem Chip.setLoan_rtAt (n : Nat) (x : Loan) : (c.setLoan n x).rtAt = c.rtAt := rfl
@[simp] theorem Chip.setLoan_rtLate (n : Nat) (x : Loan) : (c.setLoan n x).rtLate = c.rtLate := rfl
@[simp] theorem Chip.setLoan_rtGen (n : Nat) (x : Loan) : (c.setLoan n x).rtGen = c.rtGen := rfl
@[simp] theorem Chip.setLoan_delivered (n : Nat) (x : Loan) : (c.setLoan n x).delivered = c.delivered := rfl
@[simp] theorem Chip.setLoan_pktOrd (n : Nat) (x : Loan) : (c.setLoan n x).pktOrd = c.pktOrd := rfl
@[simp] theorem Chip.setLoan_straps (n : Nat) (x : Loan) : (c.setLoan n x).straps = c.straps := rfl
@[simp] theorem Chip.setLoan_posId (n : Nat) (x : Loan) : (c.setLoan n x).posId = c.posId := rfl
@[simp] theorem Chip.setLoan_mst (n : Nat) (x : Loan) : (c.setLoan n x).mst = c.mst := rfl
@[simp] theorem Chip.setLoan_cad (n : Nat) (x : Loan) : (c.setLoan n x).cad = c.cad := rfl
@[simp] theorem Chip.setLoan_gmcs (n : Nat) (x : Loan) : (c.setLoan n x).gmcs = c.gmcs := rfl
@[simp] theorem Chip.setLoan_t2 (n : Nat) (x : Loan) : (c.setLoan n x).t2 = c.t2 := rfl
@[simp] theorem Chip.setLoan_cxl (n : Nat) (x : Loan) : (c.setLoan n x).cxl = c.cxl := rfl
@[simp] theorem Chip.setLoan_mbp (n : Nat) (x : Loan) : (c.setLoan n x).mbp = c.mbp := rfl
@[simp] theorem Chip.setLoan_pwr (n : Nat) (x : Loan) : (c.setLoan n x).pwr = c.pwr := rfl
@[simp] theorem Chip.setLoan_flash (n : Nat) (x : Loan) : (c.setLoan n x).flash = c.flash := rfl
@[simp] theorem Chip.setLoan_otp (n : Nat) (x : Loan) : (c.setLoan n x).otp = c.otp := rfl
@[simp] theorem Chip.setLoan_sec (n : Nat) (x : Loan) : (c.setLoan n x).sec = c.sec := rfl
@[simp] theorem Chip.setLoan_tam (n : Nat) (x : Loan) : (c.setLoan n x).tam = c.tam := rfl
@[simp] theorem Chip.setLoan_plans (n : Nat) (x : Loan) : (c.setLoan n x).plans = c.plans := rfl
@[simp] theorem Chip.setLoan_rolls (n : Nat) (x : Loan) : (c.setLoan n x).rolls = c.rolls := rfl
@[simp] theorem Chip.setLoan_contribs (n : Nat) (x : Loan) : (c.setLoan n x).contribs = c.contribs := rfl
@[simp] theorem Chip.setLoan_provBufs (n : Nat) (x : Loan) : (c.setLoan n x).provBufs = c.provBufs := rfl
@[simp] theorem Chip.setLoan_busy (n : Nat) (x : Loan) : (c.setLoan n x).busy = c.busy := rfl
@[simp] theorem Chip.setLoan_wiped (n : Nat) (x : Loan) : (c.setLoan n x).wiped = c.wiped := rfl
@[simp] theorem Chip.setLoan_draw (n : Nat) (x : Loan) : (c.setLoan n x).draw = c.draw := rfl
@[simp] theorem Chip.setLoan_rg_of (n : Nat) (x : Loan) (a : Nat) : (c.setLoan n x).rg a = c.rg a := rfl
@[simp] theorem Chip.setLoan_rg64_of (n : Nat) (x : Loan) (a : Nat) : (c.setLoan n x).rg64 a = c.rg64 a := rfl
@[simp] theorem Chip.setLoan_enabled_of (n : Nat) (x : Loan) (a : Nat) : (c.setLoan n x).enabled a = c.enabled a := rfl
@[simp] theorem Chip.setLoan_beat_of (n : Nat) (x : Loan) : (c.setLoan n x).beat = c.beat := rfl
@[simp] theorem Chip.setLoan_lc_of (n : Nat) (x : Loan) : (c.setLoan n x).lc = c.lc := rfl
@[simp] theorem Chip.setLoan_core_of (n : Nat) (x : Loan) (i : Nat) : (c.setLoan n x).core i = c.core i := rfl
@[simp] theorem Chip.setLoan_clus_of (n : Nat) (x : Loan) (i : Nat) : (c.setLoan n x).clus i = c.clus i := rfl
@[simp] theorem Chip.setLoan_pwu_of (n : Nat) (x : Loan) (i : Nat) : (c.setLoan n x).pwu i = c.pwu i := rfl
@[simp] theorem Chip.setLoan_slot_of (n : Nat) (x : Loan) (i : Nat) : (c.setLoan n x).slot i = c.slot i := rfl
@[simp] theorem Chip.setLoan_link_of (n : Nat) (x : Loan) (i : Nat) : (c.setLoan n x).link i = c.link i := rfl
@[simp] theorem Chip.setLoan_gmc_of (n : Nat) (x : Loan) (i : Nat) : (c.setLoan n x).gmc i = c.gmc i := rfl
@[simp] theorem Chip.setLoan_t2s_of (n : Nat) (x : Loan) (i : Nat) : (c.setLoan n x).t2s i = c.t2s i := rfl
@[simp] theorem Chip.setLoan_cxlp_of (n : Nat) (x : Loan) (i : Nat) : (c.setLoan n x).cxlp i = c.cxlp i := rfl
@[simp] theorem Chip.setLoan_queue_of (n : Nat) (x : Loan) (i : Nat) : (c.setLoan n x).queue i = c.queue i := rfl
@[simp] theorem Chip.setLoan_coll_of (n : Nat) (x : Loan) (i : Nat) : (c.setLoan n x).coll i = c.coll i := rfl
@[simp] theorem Chip.setLoan_ring_of (n : Nat) (x : Loan) (i : Nat) : (c.setLoan n x).ring i = c.ring i := rfl
@[simp] theorem Chip.setLoan_byteAt_of (n : Nat) (x : Loan) (a : Nat) : (c.setLoan n x).byteAt a = c.byteAt a := rfl
@[simp] theorem Chip.setLoan_ctr_of (n : Nat) (x : Loan) (i j : Nat) : (c.setLoan n x).ctr i j = c.ctr i j := rfl
@[simp] theorem Chip.setLoan_poisonIn_of (n : Nat) (x : Loan) (a k : Nat) : (c.setLoan n x).poisonIn a k = c.poisonIn a k := rfl

/-! ### Chip.setQueue -/

@[simp] theorem Chip.setQueue_phase (n : Nat) (x : Queue) : (c.setQueue n x).phase = c.phase := rfl
@[simp] theorem Chip.setQueue_regs (n : Nat) (x : Queue) : (c.setQueue n x).regs = c.regs := rfl
@[simp] theorem Chip.setQueue_pairLatch (n : Nat) (x : Queue) : (c.setQueue n x).pairLatch = c.pairLatch := rfl
@[simp] theorem Chip.setQueue_pairStage (n : Nat) (x : Queue) : (c.setQueue n x).pairStage = c.pairStage := rfl
@[simp] theorem Chip.setQueue_answer (n : Nat) (x : Queue) : (c.setQueue n x).answer = c.answer := rfl
@[simp] theorem Chip.setQueue_served (n : Nat) (x : Queue) : (c.setQueue n x).served = c.served := rfl
@[simp] theorem Chip.setQueue_mem (n : Nat) (x : Queue) : (c.setQueue n x).mem = c.mem := rfl
@[simp] theorem Chip.setQueue_lower (n : Nat) (x : Queue) : (c.setQueue n x).lower = c.lower := rfl
@[simp] theorem Chip.setQueue_poison (n : Nat) (x : Queue) : (c.setQueue n x).poison = c.poison := rfl
@[simp] theorem Chip.setQueue_lowPoison (n : Nat) (x : Queue) : (c.setQueue n x).lowPoison = c.lowPoison := rfl
@[simp] theorem Chip.setQueue_cores (n : Nat) (x : Queue) : (c.setQueue n x).cores = c.cores := rfl
@[simp] theorem Chip.setQueue_clusters (n : Nat) (x : Queue) : (c.setQueue n x).clusters = c.clusters := rfl
@[simp] theorem Chip.setQueue_lrtExp (n : Nat) (x : Queue) : (c.setQueue n x).lrtExp = c.lrtExp := rfl
@[simp] theorem Chip.setQueue_lrtShadow (n : Nat) (x : Queue) : (c.setQueue n x).lrtShadow = c.lrtShadow := rfl
@[simp] theorem Chip.setQueue_lrtGen (n : Nat) (x : Queue) : (c.setQueue n x).lrtGen = c.lrtGen := rfl
@[simp] theorem Chip.setQueue_pwus (n : Nat) (x : Queue) : (c.setQueue n x).pwus = c.pwus := rfl
@[simp] theorem Chip.setQueue_slots (n : Nat) (x : Queue) : (c.setQueue n x).slots = c.slots := rfl
@[simp] theorem Chip.setQueue_quar (n : Nat) (x : Queue) : (c.setQueue n x).quar = c.quar := rfl
@[simp] theorem Chip.setQueue_links (n : Nat) (x : Queue) : (c.setQueue n x).links = c.links := rfl
@[simp] theorem Chip.setQueue_colls (n : Nat) (x : Queue) : (c.setQueue n x).colls = c.colls := rfl
@[simp] theorem Chip.setQueue_rings (n : Nat) (x : Queue) : (c.setQueue n x).rings = c.rings := rfl
@[simp] theorem Chip.setQueue_joins (n : Nat) (x : Queue) : (c.setQueue n x).joins = c.joins := rfl
@[simp] theorem Chip.setQueue_rcuResult (n : Nat) (x : Queue) : (c.setQueue n x).rcuResult = c.rcuResult := rfl
@[simp] theorem Chip.setQueue_collResult (n : Nat) (x : Queue) : (c.setQueue n x).collResult = c.collResult := rfl
@[simp] theorem Chip.setQueue_detachLast (n : Nat) (x : Queue) : (c.setQueue n x).detachLast = c.detachLast := rfl
@[simp] theorem Chip.setQueue_rtActive (n : Nat) (x : Queue) : (c.setQueue n x).rtActive = c.rtActive := rfl
@[simp] theorem Chip.setQueue_rtArmed (n : Nat) (x : Queue) : (c.setQueue n x).rtArmed = c.rtArmed := rfl
@[simp] theorem Chip.setQueue_rtAt (n : Nat) (x : Queue) : (c.setQueue n x).rtAt = c.rtAt := rfl
@[simp] theorem Chip.setQueue_rtLate (n : Nat) (x : Queue) : (c.setQueue n x).rtLate = c.rtLate := rfl
@[simp] theorem Chip.setQueue_rtGen (n : Nat) (x : Queue) : (c.setQueue n x).rtGen = c.rtGen := rfl
@[simp] theorem Chip.setQueue_delivered (n : Nat) (x : Queue) : (c.setQueue n x).delivered = c.delivered := rfl
@[simp] theorem Chip.setQueue_pktOrd (n : Nat) (x : Queue) : (c.setQueue n x).pktOrd = c.pktOrd := rfl
@[simp] theorem Chip.setQueue_straps (n : Nat) (x : Queue) : (c.setQueue n x).straps = c.straps := rfl
@[simp] theorem Chip.setQueue_posId (n : Nat) (x : Queue) : (c.setQueue n x).posId = c.posId := rfl
@[simp] theorem Chip.setQueue_mst (n : Nat) (x : Queue) : (c.setQueue n x).mst = c.mst := rfl
@[simp] theorem Chip.setQueue_cad (n : Nat) (x : Queue) : (c.setQueue n x).cad = c.cad := rfl
@[simp] theorem Chip.setQueue_mtm (n : Nat) (x : Queue) : (c.setQueue n x).mtm = c.mtm := rfl
@[simp] theorem Chip.setQueue_gmcs (n : Nat) (x : Queue) : (c.setQueue n x).gmcs = c.gmcs := rfl
@[simp] theorem Chip.setQueue_t2 (n : Nat) (x : Queue) : (c.setQueue n x).t2 = c.t2 := rfl
@[simp] theorem Chip.setQueue_cxl (n : Nat) (x : Queue) : (c.setQueue n x).cxl = c.cxl := rfl
@[simp] theorem Chip.setQueue_pwr (n : Nat) (x : Queue) : (c.setQueue n x).pwr = c.pwr := rfl
@[simp] theorem Chip.setQueue_flash (n : Nat) (x : Queue) : (c.setQueue n x).flash = c.flash := rfl
@[simp] theorem Chip.setQueue_otp (n : Nat) (x : Queue) : (c.setQueue n x).otp = c.otp := rfl
@[simp] theorem Chip.setQueue_sec (n : Nat) (x : Queue) : (c.setQueue n x).sec = c.sec := rfl
@[simp] theorem Chip.setQueue_tam (n : Nat) (x : Queue) : (c.setQueue n x).tam = c.tam := rfl
@[simp] theorem Chip.setQueue_plans (n : Nat) (x : Queue) : (c.setQueue n x).plans = c.plans := rfl
@[simp] theorem Chip.setQueue_rolls (n : Nat) (x : Queue) : (c.setQueue n x).rolls = c.rolls := rfl
@[simp] theorem Chip.setQueue_contribs (n : Nat) (x : Queue) : (c.setQueue n x).contribs = c.contribs := rfl
@[simp] theorem Chip.setQueue_provBufs (n : Nat) (x : Queue) : (c.setQueue n x).provBufs = c.provBufs := rfl
@[simp] theorem Chip.setQueue_busy (n : Nat) (x : Queue) : (c.setQueue n x).busy = c.busy := rfl
@[simp] theorem Chip.setQueue_wiped (n : Nat) (x : Queue) : (c.setQueue n x).wiped = c.wiped := rfl
@[simp] theorem Chip.setQueue_draw (n : Nat) (x : Queue) : (c.setQueue n x).draw = c.draw := rfl
@[simp] theorem Chip.setQueue_rg_of (n : Nat) (x : Queue) (a : Nat) : (c.setQueue n x).rg a = c.rg a := rfl
@[simp] theorem Chip.setQueue_rg64_of (n : Nat) (x : Queue) (a : Nat) : (c.setQueue n x).rg64 a = c.rg64 a := rfl
@[simp] theorem Chip.setQueue_enabled_of (n : Nat) (x : Queue) (a : Nat) : (c.setQueue n x).enabled a = c.enabled a := rfl
@[simp] theorem Chip.setQueue_beat_of (n : Nat) (x : Queue) : (c.setQueue n x).beat = c.beat := rfl
@[simp] theorem Chip.setQueue_lc_of (n : Nat) (x : Queue) : (c.setQueue n x).lc = c.lc := rfl
@[simp] theorem Chip.setQueue_core_of (n : Nat) (x : Queue) (i : Nat) : (c.setQueue n x).core i = c.core i := rfl
@[simp] theorem Chip.setQueue_clus_of (n : Nat) (x : Queue) (i : Nat) : (c.setQueue n x).clus i = c.clus i := rfl
@[simp] theorem Chip.setQueue_pwu_of (n : Nat) (x : Queue) (i : Nat) : (c.setQueue n x).pwu i = c.pwu i := rfl
@[simp] theorem Chip.setQueue_slot_of (n : Nat) (x : Queue) (i : Nat) : (c.setQueue n x).slot i = c.slot i := rfl
@[simp] theorem Chip.setQueue_link_of (n : Nat) (x : Queue) (i : Nat) : (c.setQueue n x).link i = c.link i := rfl
@[simp] theorem Chip.setQueue_gmc_of (n : Nat) (x : Queue) (i : Nat) : (c.setQueue n x).gmc i = c.gmc i := rfl
@[simp] theorem Chip.setQueue_t2s_of (n : Nat) (x : Queue) (i : Nat) : (c.setQueue n x).t2s i = c.t2s i := rfl
@[simp] theorem Chip.setQueue_cxlp_of (n : Nat) (x : Queue) (i : Nat) : (c.setQueue n x).cxlp i = c.cxlp i := rfl
@[simp] theorem Chip.setQueue_loan_of (n : Nat) (x : Queue) (i : Nat) : (c.setQueue n x).loan i = c.loan i := rfl
@[simp] theorem Chip.setQueue_coll_of (n : Nat) (x : Queue) (i : Nat) : (c.setQueue n x).coll i = c.coll i := rfl
@[simp] theorem Chip.setQueue_ring_of (n : Nat) (x : Queue) (i : Nat) : (c.setQueue n x).ring i = c.ring i := rfl
@[simp] theorem Chip.setQueue_byteAt_of (n : Nat) (x : Queue) (a : Nat) : (c.setQueue n x).byteAt a = c.byteAt a := rfl
@[simp] theorem Chip.setQueue_ctr_of (n : Nat) (x : Queue) (i j : Nat) : (c.setQueue n x).ctr i j = c.ctr i j := rfl
@[simp] theorem Chip.setQueue_poisonIn_of (n : Nat) (x : Queue) (a k : Nat) : (c.setQueue n x).poisonIn a k = c.poisonIn a k := rfl

/-! ### Chip.setCtr -/

@[simp] theorem Chip.setCtr_phase (cl n : Nat) (x : Counter) : (c.setCtr cl n x).phase = c.phase := rfl
@[simp] theorem Chip.setCtr_regs (cl n : Nat) (x : Counter) : (c.setCtr cl n x).regs = c.regs := rfl
@[simp] theorem Chip.setCtr_pairLatch (cl n : Nat) (x : Counter) : (c.setCtr cl n x).pairLatch = c.pairLatch := rfl
@[simp] theorem Chip.setCtr_pairStage (cl n : Nat) (x : Counter) : (c.setCtr cl n x).pairStage = c.pairStage := rfl
@[simp] theorem Chip.setCtr_answer (cl n : Nat) (x : Counter) : (c.setCtr cl n x).answer = c.answer := rfl
@[simp] theorem Chip.setCtr_served (cl n : Nat) (x : Counter) : (c.setCtr cl n x).served = c.served := rfl
@[simp] theorem Chip.setCtr_mem (cl n : Nat) (x : Counter) : (c.setCtr cl n x).mem = c.mem := rfl
@[simp] theorem Chip.setCtr_lower (cl n : Nat) (x : Counter) : (c.setCtr cl n x).lower = c.lower := rfl
@[simp] theorem Chip.setCtr_poison (cl n : Nat) (x : Counter) : (c.setCtr cl n x).poison = c.poison := rfl
@[simp] theorem Chip.setCtr_lowPoison (cl n : Nat) (x : Counter) : (c.setCtr cl n x).lowPoison = c.lowPoison := rfl
@[simp] theorem Chip.setCtr_cores (cl n : Nat) (x : Counter) : (c.setCtr cl n x).cores = c.cores := rfl
@[simp] theorem Chip.setCtr_lrtExp (cl n : Nat) (x : Counter) : (c.setCtr cl n x).lrtExp = c.lrtExp := rfl
@[simp] theorem Chip.setCtr_lrtShadow (cl n : Nat) (x : Counter) : (c.setCtr cl n x).lrtShadow = c.lrtShadow := rfl
@[simp] theorem Chip.setCtr_lrtGen (cl n : Nat) (x : Counter) : (c.setCtr cl n x).lrtGen = c.lrtGen := rfl
@[simp] theorem Chip.setCtr_pwus (cl n : Nat) (x : Counter) : (c.setCtr cl n x).pwus = c.pwus := rfl
@[simp] theorem Chip.setCtr_slots (cl n : Nat) (x : Counter) : (c.setCtr cl n x).slots = c.slots := rfl
@[simp] theorem Chip.setCtr_quar (cl n : Nat) (x : Counter) : (c.setCtr cl n x).quar = c.quar := rfl
@[simp] theorem Chip.setCtr_links (cl n : Nat) (x : Counter) : (c.setCtr cl n x).links = c.links := rfl
@[simp] theorem Chip.setCtr_colls (cl n : Nat) (x : Counter) : (c.setCtr cl n x).colls = c.colls := rfl
@[simp] theorem Chip.setCtr_rings (cl n : Nat) (x : Counter) : (c.setCtr cl n x).rings = c.rings := rfl
@[simp] theorem Chip.setCtr_joins (cl n : Nat) (x : Counter) : (c.setCtr cl n x).joins = c.joins := rfl
@[simp] theorem Chip.setCtr_rcuResult (cl n : Nat) (x : Counter) : (c.setCtr cl n x).rcuResult = c.rcuResult := rfl
@[simp] theorem Chip.setCtr_collResult (cl n : Nat) (x : Counter) : (c.setCtr cl n x).collResult = c.collResult := rfl
@[simp] theorem Chip.setCtr_detachLast (cl n : Nat) (x : Counter) : (c.setCtr cl n x).detachLast = c.detachLast := rfl
@[simp] theorem Chip.setCtr_rtActive (cl n : Nat) (x : Counter) : (c.setCtr cl n x).rtActive = c.rtActive := rfl
@[simp] theorem Chip.setCtr_rtArmed (cl n : Nat) (x : Counter) : (c.setCtr cl n x).rtArmed = c.rtArmed := rfl
@[simp] theorem Chip.setCtr_rtAt (cl n : Nat) (x : Counter) : (c.setCtr cl n x).rtAt = c.rtAt := rfl
@[simp] theorem Chip.setCtr_rtLate (cl n : Nat) (x : Counter) : (c.setCtr cl n x).rtLate = c.rtLate := rfl
@[simp] theorem Chip.setCtr_rtGen (cl n : Nat) (x : Counter) : (c.setCtr cl n x).rtGen = c.rtGen := rfl
@[simp] theorem Chip.setCtr_delivered (cl n : Nat) (x : Counter) : (c.setCtr cl n x).delivered = c.delivered := rfl
@[simp] theorem Chip.setCtr_pktOrd (cl n : Nat) (x : Counter) : (c.setCtr cl n x).pktOrd = c.pktOrd := rfl
@[simp] theorem Chip.setCtr_straps (cl n : Nat) (x : Counter) : (c.setCtr cl n x).straps = c.straps := rfl
@[simp] theorem Chip.setCtr_posId (cl n : Nat) (x : Counter) : (c.setCtr cl n x).posId = c.posId := rfl
@[simp] theorem Chip.setCtr_mst (cl n : Nat) (x : Counter) : (c.setCtr cl n x).mst = c.mst := rfl
@[simp] theorem Chip.setCtr_cad (cl n : Nat) (x : Counter) : (c.setCtr cl n x).cad = c.cad := rfl
@[simp] theorem Chip.setCtr_mtm (cl n : Nat) (x : Counter) : (c.setCtr cl n x).mtm = c.mtm := rfl
@[simp] theorem Chip.setCtr_gmcs (cl n : Nat) (x : Counter) : (c.setCtr cl n x).gmcs = c.gmcs := rfl
@[simp] theorem Chip.setCtr_t2 (cl n : Nat) (x : Counter) : (c.setCtr cl n x).t2 = c.t2 := rfl
@[simp] theorem Chip.setCtr_cxl (cl n : Nat) (x : Counter) : (c.setCtr cl n x).cxl = c.cxl := rfl
@[simp] theorem Chip.setCtr_mbp (cl n : Nat) (x : Counter) : (c.setCtr cl n x).mbp = c.mbp := rfl
@[simp] theorem Chip.setCtr_pwr (cl n : Nat) (x : Counter) : (c.setCtr cl n x).pwr = c.pwr := rfl
@[simp] theorem Chip.setCtr_flash (cl n : Nat) (x : Counter) : (c.setCtr cl n x).flash = c.flash := rfl
@[simp] theorem Chip.setCtr_otp (cl n : Nat) (x : Counter) : (c.setCtr cl n x).otp = c.otp := rfl
@[simp] theorem Chip.setCtr_sec (cl n : Nat) (x : Counter) : (c.setCtr cl n x).sec = c.sec := rfl
@[simp] theorem Chip.setCtr_tam (cl n : Nat) (x : Counter) : (c.setCtr cl n x).tam = c.tam := rfl
@[simp] theorem Chip.setCtr_plans (cl n : Nat) (x : Counter) : (c.setCtr cl n x).plans = c.plans := rfl
@[simp] theorem Chip.setCtr_rolls (cl n : Nat) (x : Counter) : (c.setCtr cl n x).rolls = c.rolls := rfl
@[simp] theorem Chip.setCtr_contribs (cl n : Nat) (x : Counter) : (c.setCtr cl n x).contribs = c.contribs := rfl
@[simp] theorem Chip.setCtr_provBufs (cl n : Nat) (x : Counter) : (c.setCtr cl n x).provBufs = c.provBufs := rfl
@[simp] theorem Chip.setCtr_busy (cl n : Nat) (x : Counter) : (c.setCtr cl n x).busy = c.busy := rfl
@[simp] theorem Chip.setCtr_wiped (cl n : Nat) (x : Counter) : (c.setCtr cl n x).wiped = c.wiped := rfl
@[simp] theorem Chip.setCtr_draw (cl n : Nat) (x : Counter) : (c.setCtr cl n x).draw = c.draw := rfl
@[simp] theorem Chip.setCtr_rg_of (cl n : Nat) (x : Counter) (a : Nat) : (c.setCtr cl n x).rg a = c.rg a := rfl
@[simp] theorem Chip.setCtr_rg64_of (cl n : Nat) (x : Counter) (a : Nat) : (c.setCtr cl n x).rg64 a = c.rg64 a := rfl
@[simp] theorem Chip.setCtr_enabled_of (cl n : Nat) (x : Counter) (a : Nat) : (c.setCtr cl n x).enabled a = c.enabled a := rfl
@[simp] theorem Chip.setCtr_beat_of (cl n : Nat) (x : Counter) : (c.setCtr cl n x).beat = c.beat := rfl
@[simp] theorem Chip.setCtr_lc_of (cl n : Nat) (x : Counter) : (c.setCtr cl n x).lc = c.lc := rfl
@[simp] theorem Chip.setCtr_core_of (cl n : Nat) (x : Counter) (i : Nat) : (c.setCtr cl n x).core i = c.core i := rfl
@[simp] theorem Chip.setCtr_pwu_of (cl n : Nat) (x : Counter) (i : Nat) : (c.setCtr cl n x).pwu i = c.pwu i := rfl
@[simp] theorem Chip.setCtr_slot_of (cl n : Nat) (x : Counter) (i : Nat) : (c.setCtr cl n x).slot i = c.slot i := rfl
@[simp] theorem Chip.setCtr_link_of (cl n : Nat) (x : Counter) (i : Nat) : (c.setCtr cl n x).link i = c.link i := rfl
@[simp] theorem Chip.setCtr_gmc_of (cl n : Nat) (x : Counter) (i : Nat) : (c.setCtr cl n x).gmc i = c.gmc i := rfl
@[simp] theorem Chip.setCtr_t2s_of (cl n : Nat) (x : Counter) (i : Nat) : (c.setCtr cl n x).t2s i = c.t2s i := rfl
@[simp] theorem Chip.setCtr_cxlp_of (cl n : Nat) (x : Counter) (i : Nat) : (c.setCtr cl n x).cxlp i = c.cxlp i := rfl
@[simp] theorem Chip.setCtr_loan_of (cl n : Nat) (x : Counter) (i : Nat) : (c.setCtr cl n x).loan i = c.loan i := rfl
@[simp] theorem Chip.setCtr_queue_of (cl n : Nat) (x : Counter) (i : Nat) : (c.setCtr cl n x).queue i = c.queue i := rfl
@[simp] theorem Chip.setCtr_coll_of (cl n : Nat) (x : Counter) (i : Nat) : (c.setCtr cl n x).coll i = c.coll i := rfl
@[simp] theorem Chip.setCtr_ring_of (cl n : Nat) (x : Counter) (i : Nat) : (c.setCtr cl n x).ring i = c.ring i := rfl
@[simp] theorem Chip.setCtr_byteAt_of (cl n : Nat) (x : Counter) (a : Nat) : (c.setCtr cl n x).byteAt a = c.byteAt a := rfl
@[simp] theorem Chip.setCtr_poisonIn_of (cl n : Nat) (x : Counter) (a k : Nat) : (c.setCtr cl n x).poisonIn a k = c.poisonIn a k := rfl

/-! ### Chip.setColl -/

@[simp] theorem Chip.setColl_phase (n : Nat) (x : Coll) : (c.setColl n x).phase = c.phase := rfl
@[simp] theorem Chip.setColl_regs (n : Nat) (x : Coll) : (c.setColl n x).regs = c.regs := rfl
@[simp] theorem Chip.setColl_pairLatch (n : Nat) (x : Coll) : (c.setColl n x).pairLatch = c.pairLatch := rfl
@[simp] theorem Chip.setColl_pairStage (n : Nat) (x : Coll) : (c.setColl n x).pairStage = c.pairStage := rfl
@[simp] theorem Chip.setColl_answer (n : Nat) (x : Coll) : (c.setColl n x).answer = c.answer := rfl
@[simp] theorem Chip.setColl_served (n : Nat) (x : Coll) : (c.setColl n x).served = c.served := rfl
@[simp] theorem Chip.setColl_mem (n : Nat) (x : Coll) : (c.setColl n x).mem = c.mem := rfl
@[simp] theorem Chip.setColl_lower (n : Nat) (x : Coll) : (c.setColl n x).lower = c.lower := rfl
@[simp] theorem Chip.setColl_poison (n : Nat) (x : Coll) : (c.setColl n x).poison = c.poison := rfl
@[simp] theorem Chip.setColl_lowPoison (n : Nat) (x : Coll) : (c.setColl n x).lowPoison = c.lowPoison := rfl
@[simp] theorem Chip.setColl_cores (n : Nat) (x : Coll) : (c.setColl n x).cores = c.cores := rfl
@[simp] theorem Chip.setColl_clusters (n : Nat) (x : Coll) : (c.setColl n x).clusters = c.clusters := rfl
@[simp] theorem Chip.setColl_lrtExp (n : Nat) (x : Coll) : (c.setColl n x).lrtExp = c.lrtExp := rfl
@[simp] theorem Chip.setColl_lrtShadow (n : Nat) (x : Coll) : (c.setColl n x).lrtShadow = c.lrtShadow := rfl
@[simp] theorem Chip.setColl_lrtGen (n : Nat) (x : Coll) : (c.setColl n x).lrtGen = c.lrtGen := rfl
@[simp] theorem Chip.setColl_pwus (n : Nat) (x : Coll) : (c.setColl n x).pwus = c.pwus := rfl
@[simp] theorem Chip.setColl_slots (n : Nat) (x : Coll) : (c.setColl n x).slots = c.slots := rfl
@[simp] theorem Chip.setColl_quar (n : Nat) (x : Coll) : (c.setColl n x).quar = c.quar := rfl
@[simp] theorem Chip.setColl_links (n : Nat) (x : Coll) : (c.setColl n x).links = c.links := rfl
@[simp] theorem Chip.setColl_rings (n : Nat) (x : Coll) : (c.setColl n x).rings = c.rings := rfl
@[simp] theorem Chip.setColl_joins (n : Nat) (x : Coll) : (c.setColl n x).joins = c.joins := rfl
@[simp] theorem Chip.setColl_rcuResult (n : Nat) (x : Coll) : (c.setColl n x).rcuResult = c.rcuResult := rfl
@[simp] theorem Chip.setColl_collResult (n : Nat) (x : Coll) : (c.setColl n x).collResult = c.collResult := rfl
@[simp] theorem Chip.setColl_detachLast (n : Nat) (x : Coll) : (c.setColl n x).detachLast = c.detachLast := rfl
@[simp] theorem Chip.setColl_rtActive (n : Nat) (x : Coll) : (c.setColl n x).rtActive = c.rtActive := rfl
@[simp] theorem Chip.setColl_rtArmed (n : Nat) (x : Coll) : (c.setColl n x).rtArmed = c.rtArmed := rfl
@[simp] theorem Chip.setColl_rtAt (n : Nat) (x : Coll) : (c.setColl n x).rtAt = c.rtAt := rfl
@[simp] theorem Chip.setColl_rtLate (n : Nat) (x : Coll) : (c.setColl n x).rtLate = c.rtLate := rfl
@[simp] theorem Chip.setColl_rtGen (n : Nat) (x : Coll) : (c.setColl n x).rtGen = c.rtGen := rfl
@[simp] theorem Chip.setColl_delivered (n : Nat) (x : Coll) : (c.setColl n x).delivered = c.delivered := rfl
@[simp] theorem Chip.setColl_pktOrd (n : Nat) (x : Coll) : (c.setColl n x).pktOrd = c.pktOrd := rfl
@[simp] theorem Chip.setColl_straps (n : Nat) (x : Coll) : (c.setColl n x).straps = c.straps := rfl
@[simp] theorem Chip.setColl_posId (n : Nat) (x : Coll) : (c.setColl n x).posId = c.posId := rfl
@[simp] theorem Chip.setColl_mst (n : Nat) (x : Coll) : (c.setColl n x).mst = c.mst := rfl
@[simp] theorem Chip.setColl_cad (n : Nat) (x : Coll) : (c.setColl n x).cad = c.cad := rfl
@[simp] theorem Chip.setColl_mtm (n : Nat) (x : Coll) : (c.setColl n x).mtm = c.mtm := rfl
@[simp] theorem Chip.setColl_gmcs (n : Nat) (x : Coll) : (c.setColl n x).gmcs = c.gmcs := rfl
@[simp] theorem Chip.setColl_t2 (n : Nat) (x : Coll) : (c.setColl n x).t2 = c.t2 := rfl
@[simp] theorem Chip.setColl_cxl (n : Nat) (x : Coll) : (c.setColl n x).cxl = c.cxl := rfl
@[simp] theorem Chip.setColl_mbp (n : Nat) (x : Coll) : (c.setColl n x).mbp = c.mbp := rfl
@[simp] theorem Chip.setColl_pwr (n : Nat) (x : Coll) : (c.setColl n x).pwr = c.pwr := rfl
@[simp] theorem Chip.setColl_flash (n : Nat) (x : Coll) : (c.setColl n x).flash = c.flash := rfl
@[simp] theorem Chip.setColl_otp (n : Nat) (x : Coll) : (c.setColl n x).otp = c.otp := rfl
@[simp] theorem Chip.setColl_sec (n : Nat) (x : Coll) : (c.setColl n x).sec = c.sec := rfl
@[simp] theorem Chip.setColl_tam (n : Nat) (x : Coll) : (c.setColl n x).tam = c.tam := rfl
@[simp] theorem Chip.setColl_plans (n : Nat) (x : Coll) : (c.setColl n x).plans = c.plans := rfl
@[simp] theorem Chip.setColl_rolls (n : Nat) (x : Coll) : (c.setColl n x).rolls = c.rolls := rfl
@[simp] theorem Chip.setColl_contribs (n : Nat) (x : Coll) : (c.setColl n x).contribs = c.contribs := rfl
@[simp] theorem Chip.setColl_provBufs (n : Nat) (x : Coll) : (c.setColl n x).provBufs = c.provBufs := rfl
@[simp] theorem Chip.setColl_busy (n : Nat) (x : Coll) : (c.setColl n x).busy = c.busy := rfl
@[simp] theorem Chip.setColl_wiped (n : Nat) (x : Coll) : (c.setColl n x).wiped = c.wiped := rfl
@[simp] theorem Chip.setColl_draw (n : Nat) (x : Coll) : (c.setColl n x).draw = c.draw := rfl
@[simp] theorem Chip.setColl_rg_of (n : Nat) (x : Coll) (a : Nat) : (c.setColl n x).rg a = c.rg a := rfl
@[simp] theorem Chip.setColl_rg64_of (n : Nat) (x : Coll) (a : Nat) : (c.setColl n x).rg64 a = c.rg64 a := rfl
@[simp] theorem Chip.setColl_enabled_of (n : Nat) (x : Coll) (a : Nat) : (c.setColl n x).enabled a = c.enabled a := rfl
@[simp] theorem Chip.setColl_beat_of (n : Nat) (x : Coll) : (c.setColl n x).beat = c.beat := rfl
@[simp] theorem Chip.setColl_lc_of (n : Nat) (x : Coll) : (c.setColl n x).lc = c.lc := rfl
@[simp] theorem Chip.setColl_core_of (n : Nat) (x : Coll) (i : Nat) : (c.setColl n x).core i = c.core i := rfl
@[simp] theorem Chip.setColl_clus_of (n : Nat) (x : Coll) (i : Nat) : (c.setColl n x).clus i = c.clus i := rfl
@[simp] theorem Chip.setColl_pwu_of (n : Nat) (x : Coll) (i : Nat) : (c.setColl n x).pwu i = c.pwu i := rfl
@[simp] theorem Chip.setColl_slot_of (n : Nat) (x : Coll) (i : Nat) : (c.setColl n x).slot i = c.slot i := rfl
@[simp] theorem Chip.setColl_link_of (n : Nat) (x : Coll) (i : Nat) : (c.setColl n x).link i = c.link i := rfl
@[simp] theorem Chip.setColl_gmc_of (n : Nat) (x : Coll) (i : Nat) : (c.setColl n x).gmc i = c.gmc i := rfl
@[simp] theorem Chip.setColl_t2s_of (n : Nat) (x : Coll) (i : Nat) : (c.setColl n x).t2s i = c.t2s i := rfl
@[simp] theorem Chip.setColl_cxlp_of (n : Nat) (x : Coll) (i : Nat) : (c.setColl n x).cxlp i = c.cxlp i := rfl
@[simp] theorem Chip.setColl_loan_of (n : Nat) (x : Coll) (i : Nat) : (c.setColl n x).loan i = c.loan i := rfl
@[simp] theorem Chip.setColl_queue_of (n : Nat) (x : Coll) (i : Nat) : (c.setColl n x).queue i = c.queue i := rfl
@[simp] theorem Chip.setColl_ring_of (n : Nat) (x : Coll) (i : Nat) : (c.setColl n x).ring i = c.ring i := rfl
@[simp] theorem Chip.setColl_byteAt_of (n : Nat) (x : Coll) (a : Nat) : (c.setColl n x).byteAt a = c.byteAt a := rfl
@[simp] theorem Chip.setColl_ctr_of (n : Nat) (x : Coll) (i j : Nat) : (c.setColl n x).ctr i j = c.ctr i j := rfl
@[simp] theorem Chip.setColl_poisonIn_of (n : Nat) (x : Coll) (a k : Nat) : (c.setColl n x).poisonIn a k = c.poisonIn a k := rfl

/-! ### Chip.setRing -/

@[simp] theorem Chip.setRing_phase (n : Nat) (x : Ring) : (c.setRing n x).phase = c.phase := rfl
@[simp] theorem Chip.setRing_regs (n : Nat) (x : Ring) : (c.setRing n x).regs = c.regs := rfl
@[simp] theorem Chip.setRing_pairLatch (n : Nat) (x : Ring) : (c.setRing n x).pairLatch = c.pairLatch := rfl
@[simp] theorem Chip.setRing_pairStage (n : Nat) (x : Ring) : (c.setRing n x).pairStage = c.pairStage := rfl
@[simp] theorem Chip.setRing_answer (n : Nat) (x : Ring) : (c.setRing n x).answer = c.answer := rfl
@[simp] theorem Chip.setRing_served (n : Nat) (x : Ring) : (c.setRing n x).served = c.served := rfl
@[simp] theorem Chip.setRing_mem (n : Nat) (x : Ring) : (c.setRing n x).mem = c.mem := rfl
@[simp] theorem Chip.setRing_lower (n : Nat) (x : Ring) : (c.setRing n x).lower = c.lower := rfl
@[simp] theorem Chip.setRing_poison (n : Nat) (x : Ring) : (c.setRing n x).poison = c.poison := rfl
@[simp] theorem Chip.setRing_lowPoison (n : Nat) (x : Ring) : (c.setRing n x).lowPoison = c.lowPoison := rfl
@[simp] theorem Chip.setRing_cores (n : Nat) (x : Ring) : (c.setRing n x).cores = c.cores := rfl
@[simp] theorem Chip.setRing_clusters (n : Nat) (x : Ring) : (c.setRing n x).clusters = c.clusters := rfl
@[simp] theorem Chip.setRing_lrtExp (n : Nat) (x : Ring) : (c.setRing n x).lrtExp = c.lrtExp := rfl
@[simp] theorem Chip.setRing_lrtShadow (n : Nat) (x : Ring) : (c.setRing n x).lrtShadow = c.lrtShadow := rfl
@[simp] theorem Chip.setRing_lrtGen (n : Nat) (x : Ring) : (c.setRing n x).lrtGen = c.lrtGen := rfl
@[simp] theorem Chip.setRing_pwus (n : Nat) (x : Ring) : (c.setRing n x).pwus = c.pwus := rfl
@[simp] theorem Chip.setRing_slots (n : Nat) (x : Ring) : (c.setRing n x).slots = c.slots := rfl
@[simp] theorem Chip.setRing_quar (n : Nat) (x : Ring) : (c.setRing n x).quar = c.quar := rfl
@[simp] theorem Chip.setRing_links (n : Nat) (x : Ring) : (c.setRing n x).links = c.links := rfl
@[simp] theorem Chip.setRing_colls (n : Nat) (x : Ring) : (c.setRing n x).colls = c.colls := rfl
@[simp] theorem Chip.setRing_joins (n : Nat) (x : Ring) : (c.setRing n x).joins = c.joins := rfl
@[simp] theorem Chip.setRing_rcuResult (n : Nat) (x : Ring) : (c.setRing n x).rcuResult = c.rcuResult := rfl
@[simp] theorem Chip.setRing_collResult (n : Nat) (x : Ring) : (c.setRing n x).collResult = c.collResult := rfl
@[simp] theorem Chip.setRing_detachLast (n : Nat) (x : Ring) : (c.setRing n x).detachLast = c.detachLast := rfl
@[simp] theorem Chip.setRing_rtActive (n : Nat) (x : Ring) : (c.setRing n x).rtActive = c.rtActive := rfl
@[simp] theorem Chip.setRing_rtArmed (n : Nat) (x : Ring) : (c.setRing n x).rtArmed = c.rtArmed := rfl
@[simp] theorem Chip.setRing_rtAt (n : Nat) (x : Ring) : (c.setRing n x).rtAt = c.rtAt := rfl
@[simp] theorem Chip.setRing_rtLate (n : Nat) (x : Ring) : (c.setRing n x).rtLate = c.rtLate := rfl
@[simp] theorem Chip.setRing_rtGen (n : Nat) (x : Ring) : (c.setRing n x).rtGen = c.rtGen := rfl
@[simp] theorem Chip.setRing_delivered (n : Nat) (x : Ring) : (c.setRing n x).delivered = c.delivered := rfl
@[simp] theorem Chip.setRing_pktOrd (n : Nat) (x : Ring) : (c.setRing n x).pktOrd = c.pktOrd := rfl
@[simp] theorem Chip.setRing_straps (n : Nat) (x : Ring) : (c.setRing n x).straps = c.straps := rfl
@[simp] theorem Chip.setRing_posId (n : Nat) (x : Ring) : (c.setRing n x).posId = c.posId := rfl
@[simp] theorem Chip.setRing_mst (n : Nat) (x : Ring) : (c.setRing n x).mst = c.mst := rfl
@[simp] theorem Chip.setRing_cad (n : Nat) (x : Ring) : (c.setRing n x).cad = c.cad := rfl
@[simp] theorem Chip.setRing_mtm (n : Nat) (x : Ring) : (c.setRing n x).mtm = c.mtm := rfl
@[simp] theorem Chip.setRing_gmcs (n : Nat) (x : Ring) : (c.setRing n x).gmcs = c.gmcs := rfl
@[simp] theorem Chip.setRing_t2 (n : Nat) (x : Ring) : (c.setRing n x).t2 = c.t2 := rfl
@[simp] theorem Chip.setRing_cxl (n : Nat) (x : Ring) : (c.setRing n x).cxl = c.cxl := rfl
@[simp] theorem Chip.setRing_mbp (n : Nat) (x : Ring) : (c.setRing n x).mbp = c.mbp := rfl
@[simp] theorem Chip.setRing_pwr (n : Nat) (x : Ring) : (c.setRing n x).pwr = c.pwr := rfl
@[simp] theorem Chip.setRing_flash (n : Nat) (x : Ring) : (c.setRing n x).flash = c.flash := rfl
@[simp] theorem Chip.setRing_otp (n : Nat) (x : Ring) : (c.setRing n x).otp = c.otp := rfl
@[simp] theorem Chip.setRing_sec (n : Nat) (x : Ring) : (c.setRing n x).sec = c.sec := rfl
@[simp] theorem Chip.setRing_tam (n : Nat) (x : Ring) : (c.setRing n x).tam = c.tam := rfl
@[simp] theorem Chip.setRing_plans (n : Nat) (x : Ring) : (c.setRing n x).plans = c.plans := rfl
@[simp] theorem Chip.setRing_rolls (n : Nat) (x : Ring) : (c.setRing n x).rolls = c.rolls := rfl
@[simp] theorem Chip.setRing_contribs (n : Nat) (x : Ring) : (c.setRing n x).contribs = c.contribs := rfl
@[simp] theorem Chip.setRing_provBufs (n : Nat) (x : Ring) : (c.setRing n x).provBufs = c.provBufs := rfl
@[simp] theorem Chip.setRing_busy (n : Nat) (x : Ring) : (c.setRing n x).busy = c.busy := rfl
@[simp] theorem Chip.setRing_wiped (n : Nat) (x : Ring) : (c.setRing n x).wiped = c.wiped := rfl
@[simp] theorem Chip.setRing_draw (n : Nat) (x : Ring) : (c.setRing n x).draw = c.draw := rfl
@[simp] theorem Chip.setRing_rg_of (n : Nat) (x : Ring) (a : Nat) : (c.setRing n x).rg a = c.rg a := rfl
@[simp] theorem Chip.setRing_rg64_of (n : Nat) (x : Ring) (a : Nat) : (c.setRing n x).rg64 a = c.rg64 a := rfl
@[simp] theorem Chip.setRing_enabled_of (n : Nat) (x : Ring) (a : Nat) : (c.setRing n x).enabled a = c.enabled a := rfl
@[simp] theorem Chip.setRing_beat_of (n : Nat) (x : Ring) : (c.setRing n x).beat = c.beat := rfl
@[simp] theorem Chip.setRing_lc_of (n : Nat) (x : Ring) : (c.setRing n x).lc = c.lc := rfl
@[simp] theorem Chip.setRing_core_of (n : Nat) (x : Ring) (i : Nat) : (c.setRing n x).core i = c.core i := rfl
@[simp] theorem Chip.setRing_clus_of (n : Nat) (x : Ring) (i : Nat) : (c.setRing n x).clus i = c.clus i := rfl
@[simp] theorem Chip.setRing_pwu_of (n : Nat) (x : Ring) (i : Nat) : (c.setRing n x).pwu i = c.pwu i := rfl
@[simp] theorem Chip.setRing_slot_of (n : Nat) (x : Ring) (i : Nat) : (c.setRing n x).slot i = c.slot i := rfl
@[simp] theorem Chip.setRing_link_of (n : Nat) (x : Ring) (i : Nat) : (c.setRing n x).link i = c.link i := rfl
@[simp] theorem Chip.setRing_gmc_of (n : Nat) (x : Ring) (i : Nat) : (c.setRing n x).gmc i = c.gmc i := rfl
@[simp] theorem Chip.setRing_t2s_of (n : Nat) (x : Ring) (i : Nat) : (c.setRing n x).t2s i = c.t2s i := rfl
@[simp] theorem Chip.setRing_cxlp_of (n : Nat) (x : Ring) (i : Nat) : (c.setRing n x).cxlp i = c.cxlp i := rfl
@[simp] theorem Chip.setRing_loan_of (n : Nat) (x : Ring) (i : Nat) : (c.setRing n x).loan i = c.loan i := rfl
@[simp] theorem Chip.setRing_queue_of (n : Nat) (x : Ring) (i : Nat) : (c.setRing n x).queue i = c.queue i := rfl
@[simp] theorem Chip.setRing_coll_of (n : Nat) (x : Ring) (i : Nat) : (c.setRing n x).coll i = c.coll i := rfl
@[simp] theorem Chip.setRing_byteAt_of (n : Nat) (x : Ring) (a : Nat) : (c.setRing n x).byteAt a = c.byteAt a := rfl
@[simp] theorem Chip.setRing_ctr_of (n : Nat) (x : Ring) (i j : Nat) : (c.setRing n x).ctr i j = c.ctr i j := rfl
@[simp] theorem Chip.setRing_poisonIn_of (n : Nat) (x : Ring) (a k : Nat) : (c.setRing n x).poisonIn a k = c.poisonIn a k := rfl

/-! ### Chip.store -/

@[simp] theorem Chip.store_phase (p : Nat) (l : List Byte) : (c.store p l).phase = c.phase := rfl
@[simp] theorem Chip.store_regs (p : Nat) (l : List Byte) : (c.store p l).regs = c.regs := rfl
@[simp] theorem Chip.store_pairLatch (p : Nat) (l : List Byte) : (c.store p l).pairLatch = c.pairLatch := rfl
@[simp] theorem Chip.store_pairStage (p : Nat) (l : List Byte) : (c.store p l).pairStage = c.pairStage := rfl
@[simp] theorem Chip.store_answer (p : Nat) (l : List Byte) : (c.store p l).answer = c.answer := rfl
@[simp] theorem Chip.store_served (p : Nat) (l : List Byte) : (c.store p l).served = c.served := rfl
@[simp] theorem Chip.store_lower (p : Nat) (l : List Byte) : (c.store p l).lower = c.lower := rfl
@[simp] theorem Chip.store_lowPoison (p : Nat) (l : List Byte) : (c.store p l).lowPoison = c.lowPoison := rfl
@[simp] theorem Chip.store_cores (p : Nat) (l : List Byte) : (c.store p l).cores = c.cores := rfl
@[simp] theorem Chip.store_clusters (p : Nat) (l : List Byte) : (c.store p l).clusters = c.clusters := rfl
@[simp] theorem Chip.store_lrtExp (p : Nat) (l : List Byte) : (c.store p l).lrtExp = c.lrtExp := rfl
@[simp] theorem Chip.store_lrtShadow (p : Nat) (l : List Byte) : (c.store p l).lrtShadow = c.lrtShadow := rfl
@[simp] theorem Chip.store_lrtGen (p : Nat) (l : List Byte) : (c.store p l).lrtGen = c.lrtGen := rfl
@[simp] theorem Chip.store_pwus (p : Nat) (l : List Byte) : (c.store p l).pwus = c.pwus := rfl
@[simp] theorem Chip.store_slots (p : Nat) (l : List Byte) : (c.store p l).slots = c.slots := rfl
@[simp] theorem Chip.store_quar (p : Nat) (l : List Byte) : (c.store p l).quar = c.quar := rfl
@[simp] theorem Chip.store_links (p : Nat) (l : List Byte) : (c.store p l).links = c.links := rfl
@[simp] theorem Chip.store_colls (p : Nat) (l : List Byte) : (c.store p l).colls = c.colls := rfl
@[simp] theorem Chip.store_rings (p : Nat) (l : List Byte) : (c.store p l).rings = c.rings := rfl
@[simp] theorem Chip.store_joins (p : Nat) (l : List Byte) : (c.store p l).joins = c.joins := rfl
@[simp] theorem Chip.store_rcuResult (p : Nat) (l : List Byte) : (c.store p l).rcuResult = c.rcuResult := rfl
@[simp] theorem Chip.store_collResult (p : Nat) (l : List Byte) : (c.store p l).collResult = c.collResult := rfl
@[simp] theorem Chip.store_detachLast (p : Nat) (l : List Byte) : (c.store p l).detachLast = c.detachLast := rfl
@[simp] theorem Chip.store_rtActive (p : Nat) (l : List Byte) : (c.store p l).rtActive = c.rtActive := rfl
@[simp] theorem Chip.store_rtArmed (p : Nat) (l : List Byte) : (c.store p l).rtArmed = c.rtArmed := rfl
@[simp] theorem Chip.store_rtAt (p : Nat) (l : List Byte) : (c.store p l).rtAt = c.rtAt := rfl
@[simp] theorem Chip.store_rtLate (p : Nat) (l : List Byte) : (c.store p l).rtLate = c.rtLate := rfl
@[simp] theorem Chip.store_rtGen (p : Nat) (l : List Byte) : (c.store p l).rtGen = c.rtGen := rfl
@[simp] theorem Chip.store_delivered (p : Nat) (l : List Byte) : (c.store p l).delivered = c.delivered := rfl
@[simp] theorem Chip.store_pktOrd (p : Nat) (l : List Byte) : (c.store p l).pktOrd = c.pktOrd := rfl
@[simp] theorem Chip.store_straps (p : Nat) (l : List Byte) : (c.store p l).straps = c.straps := rfl
@[simp] theorem Chip.store_posId (p : Nat) (l : List Byte) : (c.store p l).posId = c.posId := rfl
@[simp] theorem Chip.store_mst (p : Nat) (l : List Byte) : (c.store p l).mst = c.mst := rfl
@[simp] theorem Chip.store_cad (p : Nat) (l : List Byte) : (c.store p l).cad = c.cad := rfl
@[simp] theorem Chip.store_mtm (p : Nat) (l : List Byte) : (c.store p l).mtm = c.mtm := rfl
@[simp] theorem Chip.store_gmcs (p : Nat) (l : List Byte) : (c.store p l).gmcs = c.gmcs := rfl
@[simp] theorem Chip.store_t2 (p : Nat) (l : List Byte) : (c.store p l).t2 = c.t2 := rfl
@[simp] theorem Chip.store_cxl (p : Nat) (l : List Byte) : (c.store p l).cxl = c.cxl := rfl
@[simp] theorem Chip.store_mbp (p : Nat) (l : List Byte) : (c.store p l).mbp = c.mbp := rfl
@[simp] theorem Chip.store_pwr (p : Nat) (l : List Byte) : (c.store p l).pwr = c.pwr := rfl
@[simp] theorem Chip.store_flash (p : Nat) (l : List Byte) : (c.store p l).flash = c.flash := rfl
@[simp] theorem Chip.store_otp (p : Nat) (l : List Byte) : (c.store p l).otp = c.otp := rfl
@[simp] theorem Chip.store_sec (p : Nat) (l : List Byte) : (c.store p l).sec = c.sec := rfl
@[simp] theorem Chip.store_tam (p : Nat) (l : List Byte) : (c.store p l).tam = c.tam := rfl
@[simp] theorem Chip.store_plans (p : Nat) (l : List Byte) : (c.store p l).plans = c.plans := rfl
@[simp] theorem Chip.store_rolls (p : Nat) (l : List Byte) : (c.store p l).rolls = c.rolls := rfl
@[simp] theorem Chip.store_contribs (p : Nat) (l : List Byte) : (c.store p l).contribs = c.contribs := rfl
@[simp] theorem Chip.store_provBufs (p : Nat) (l : List Byte) : (c.store p l).provBufs = c.provBufs := rfl
@[simp] theorem Chip.store_busy (p : Nat) (l : List Byte) : (c.store p l).busy = c.busy := rfl
@[simp] theorem Chip.store_wiped (p : Nat) (l : List Byte) : (c.store p l).wiped = c.wiped := rfl
@[simp] theorem Chip.store_draw (p : Nat) (l : List Byte) : (c.store p l).draw = c.draw := rfl
@[simp] theorem Chip.store_rg_of (p : Nat) (l : List Byte) (a : Nat) : (c.store p l).rg a = c.rg a := rfl
@[simp] theorem Chip.store_rg64_of (p : Nat) (l : List Byte) (a : Nat) : (c.store p l).rg64 a = c.rg64 a := rfl
@[simp] theorem Chip.store_enabled_of (p : Nat) (l : List Byte) (a : Nat) : (c.store p l).enabled a = c.enabled a := rfl
@[simp] theorem Chip.store_beat_of (p : Nat) (l : List Byte) : (c.store p l).beat = c.beat := rfl
@[simp] theorem Chip.store_lc_of (p : Nat) (l : List Byte) : (c.store p l).lc = c.lc := rfl
@[simp] theorem Chip.store_core_of (p : Nat) (l : List Byte) (i : Nat) : (c.store p l).core i = c.core i := rfl
@[simp] theorem Chip.store_clus_of (p : Nat) (l : List Byte) (i : Nat) : (c.store p l).clus i = c.clus i := rfl
@[simp] theorem Chip.store_pwu_of (p : Nat) (l : List Byte) (i : Nat) : (c.store p l).pwu i = c.pwu i := rfl
@[simp] theorem Chip.store_slot_of (p : Nat) (l : List Byte) (i : Nat) : (c.store p l).slot i = c.slot i := rfl
@[simp] theorem Chip.store_link_of (p : Nat) (l : List Byte) (i : Nat) : (c.store p l).link i = c.link i := rfl
@[simp] theorem Chip.store_gmc_of (p : Nat) (l : List Byte) (i : Nat) : (c.store p l).gmc i = c.gmc i := rfl
@[simp] theorem Chip.store_t2s_of (p : Nat) (l : List Byte) (i : Nat) : (c.store p l).t2s i = c.t2s i := rfl
@[simp] theorem Chip.store_cxlp_of (p : Nat) (l : List Byte) (i : Nat) : (c.store p l).cxlp i = c.cxlp i := rfl
@[simp] theorem Chip.store_loan_of (p : Nat) (l : List Byte) (i : Nat) : (c.store p l).loan i = c.loan i := rfl
@[simp] theorem Chip.store_queue_of (p : Nat) (l : List Byte) (i : Nat) : (c.store p l).queue i = c.queue i := rfl
@[simp] theorem Chip.store_coll_of (p : Nat) (l : List Byte) (i : Nat) : (c.store p l).coll i = c.coll i := rfl
@[simp] theorem Chip.store_ring_of (p : Nat) (l : List Byte) (i : Nat) : (c.store p l).ring i = c.ring i := rfl
@[simp] theorem Chip.store_ctr_of (p : Nat) (l : List Byte) (i j : Nat) : (c.store p l).ctr i j = c.ctr i j := rfl

/-! ### Chip.storeLe -/

@[simp] theorem Chip.storeLe_phase (p n v : Nat) : (c.storeLe p n v).phase = c.phase := rfl
@[simp] theorem Chip.storeLe_regs (p n v : Nat) : (c.storeLe p n v).regs = c.regs := rfl
@[simp] theorem Chip.storeLe_pairLatch (p n v : Nat) : (c.storeLe p n v).pairLatch = c.pairLatch := rfl
@[simp] theorem Chip.storeLe_pairStage (p n v : Nat) : (c.storeLe p n v).pairStage = c.pairStage := rfl
@[simp] theorem Chip.storeLe_answer (p n v : Nat) : (c.storeLe p n v).answer = c.answer := rfl
@[simp] theorem Chip.storeLe_served (p n v : Nat) : (c.storeLe p n v).served = c.served := rfl
@[simp] theorem Chip.storeLe_lower (p n v : Nat) : (c.storeLe p n v).lower = c.lower := rfl
@[simp] theorem Chip.storeLe_lowPoison (p n v : Nat) : (c.storeLe p n v).lowPoison = c.lowPoison := rfl
@[simp] theorem Chip.storeLe_cores (p n v : Nat) : (c.storeLe p n v).cores = c.cores := rfl
@[simp] theorem Chip.storeLe_clusters (p n v : Nat) : (c.storeLe p n v).clusters = c.clusters := rfl
@[simp] theorem Chip.storeLe_lrtExp (p n v : Nat) : (c.storeLe p n v).lrtExp = c.lrtExp := rfl
@[simp] theorem Chip.storeLe_lrtShadow (p n v : Nat) : (c.storeLe p n v).lrtShadow = c.lrtShadow := rfl
@[simp] theorem Chip.storeLe_lrtGen (p n v : Nat) : (c.storeLe p n v).lrtGen = c.lrtGen := rfl
@[simp] theorem Chip.storeLe_pwus (p n v : Nat) : (c.storeLe p n v).pwus = c.pwus := rfl
@[simp] theorem Chip.storeLe_slots (p n v : Nat) : (c.storeLe p n v).slots = c.slots := rfl
@[simp] theorem Chip.storeLe_quar (p n v : Nat) : (c.storeLe p n v).quar = c.quar := rfl
@[simp] theorem Chip.storeLe_links (p n v : Nat) : (c.storeLe p n v).links = c.links := rfl
@[simp] theorem Chip.storeLe_colls (p n v : Nat) : (c.storeLe p n v).colls = c.colls := rfl
@[simp] theorem Chip.storeLe_rings (p n v : Nat) : (c.storeLe p n v).rings = c.rings := rfl
@[simp] theorem Chip.storeLe_joins (p n v : Nat) : (c.storeLe p n v).joins = c.joins := rfl
@[simp] theorem Chip.storeLe_rcuResult (p n v : Nat) : (c.storeLe p n v).rcuResult = c.rcuResult := rfl
@[simp] theorem Chip.storeLe_collResult (p n v : Nat) : (c.storeLe p n v).collResult = c.collResult := rfl
@[simp] theorem Chip.storeLe_detachLast (p n v : Nat) : (c.storeLe p n v).detachLast = c.detachLast := rfl
@[simp] theorem Chip.storeLe_rtActive (p n v : Nat) : (c.storeLe p n v).rtActive = c.rtActive := rfl
@[simp] theorem Chip.storeLe_rtArmed (p n v : Nat) : (c.storeLe p n v).rtArmed = c.rtArmed := rfl
@[simp] theorem Chip.storeLe_rtAt (p n v : Nat) : (c.storeLe p n v).rtAt = c.rtAt := rfl
@[simp] theorem Chip.storeLe_rtLate (p n v : Nat) : (c.storeLe p n v).rtLate = c.rtLate := rfl
@[simp] theorem Chip.storeLe_rtGen (p n v : Nat) : (c.storeLe p n v).rtGen = c.rtGen := rfl
@[simp] theorem Chip.storeLe_delivered (p n v : Nat) : (c.storeLe p n v).delivered = c.delivered := rfl
@[simp] theorem Chip.storeLe_pktOrd (p n v : Nat) : (c.storeLe p n v).pktOrd = c.pktOrd := rfl
@[simp] theorem Chip.storeLe_straps (p n v : Nat) : (c.storeLe p n v).straps = c.straps := rfl
@[simp] theorem Chip.storeLe_posId (p n v : Nat) : (c.storeLe p n v).posId = c.posId := rfl
@[simp] theorem Chip.storeLe_mst (p n v : Nat) : (c.storeLe p n v).mst = c.mst := rfl
@[simp] theorem Chip.storeLe_cad (p n v : Nat) : (c.storeLe p n v).cad = c.cad := rfl
@[simp] theorem Chip.storeLe_mtm (p n v : Nat) : (c.storeLe p n v).mtm = c.mtm := rfl
@[simp] theorem Chip.storeLe_gmcs (p n v : Nat) : (c.storeLe p n v).gmcs = c.gmcs := rfl
@[simp] theorem Chip.storeLe_t2 (p n v : Nat) : (c.storeLe p n v).t2 = c.t2 := rfl
@[simp] theorem Chip.storeLe_cxl (p n v : Nat) : (c.storeLe p n v).cxl = c.cxl := rfl
@[simp] theorem Chip.storeLe_mbp (p n v : Nat) : (c.storeLe p n v).mbp = c.mbp := rfl
@[simp] theorem Chip.storeLe_pwr (p n v : Nat) : (c.storeLe p n v).pwr = c.pwr := rfl
@[simp] theorem Chip.storeLe_flash (p n v : Nat) : (c.storeLe p n v).flash = c.flash := rfl
@[simp] theorem Chip.storeLe_otp (p n v : Nat) : (c.storeLe p n v).otp = c.otp := rfl
@[simp] theorem Chip.storeLe_sec (p n v : Nat) : (c.storeLe p n v).sec = c.sec := rfl
@[simp] theorem Chip.storeLe_tam (p n v : Nat) : (c.storeLe p n v).tam = c.tam := rfl
@[simp] theorem Chip.storeLe_plans (p n v : Nat) : (c.storeLe p n v).plans = c.plans := rfl
@[simp] theorem Chip.storeLe_rolls (p n v : Nat) : (c.storeLe p n v).rolls = c.rolls := rfl
@[simp] theorem Chip.storeLe_contribs (p n v : Nat) : (c.storeLe p n v).contribs = c.contribs := rfl
@[simp] theorem Chip.storeLe_provBufs (p n v : Nat) : (c.storeLe p n v).provBufs = c.provBufs := rfl
@[simp] theorem Chip.storeLe_busy (p n v : Nat) : (c.storeLe p n v).busy = c.busy := rfl
@[simp] theorem Chip.storeLe_wiped (p n v : Nat) : (c.storeLe p n v).wiped = c.wiped := rfl
@[simp] theorem Chip.storeLe_draw (p n v : Nat) : (c.storeLe p n v).draw = c.draw := rfl
@[simp] theorem Chip.storeLe_rg_of (p n v : Nat) (a : Nat) : (c.storeLe p n v).rg a = c.rg a := rfl
@[simp] theorem Chip.storeLe_rg64_of (p n v : Nat) (a : Nat) : (c.storeLe p n v).rg64 a = c.rg64 a := rfl
@[simp] theorem Chip.storeLe_enabled_of (p n v : Nat) (a : Nat) : (c.storeLe p n v).enabled a = c.enabled a := rfl
@[simp] theorem Chip.storeLe_beat_of (p n v : Nat) : (c.storeLe p n v).beat = c.beat := rfl
@[simp] theorem Chip.storeLe_lc_of (p n v : Nat) : (c.storeLe p n v).lc = c.lc := rfl
@[simp] theorem Chip.storeLe_core_of (p n v : Nat) (i : Nat) : (c.storeLe p n v).core i = c.core i := rfl
@[simp] theorem Chip.storeLe_clus_of (p n v : Nat) (i : Nat) : (c.storeLe p n v).clus i = c.clus i := rfl
@[simp] theorem Chip.storeLe_pwu_of (p n v : Nat) (i : Nat) : (c.storeLe p n v).pwu i = c.pwu i := rfl
@[simp] theorem Chip.storeLe_slot_of (p n v : Nat) (i : Nat) : (c.storeLe p n v).slot i = c.slot i := rfl
@[simp] theorem Chip.storeLe_link_of (p n v : Nat) (i : Nat) : (c.storeLe p n v).link i = c.link i := rfl
@[simp] theorem Chip.storeLe_gmc_of (p n v : Nat) (i : Nat) : (c.storeLe p n v).gmc i = c.gmc i := rfl
@[simp] theorem Chip.storeLe_t2s_of (p n v : Nat) (i : Nat) : (c.storeLe p n v).t2s i = c.t2s i := rfl
@[simp] theorem Chip.storeLe_cxlp_of (p n v : Nat) (i : Nat) : (c.storeLe p n v).cxlp i = c.cxlp i := rfl
@[simp] theorem Chip.storeLe_loan_of (p n v : Nat) (i : Nat) : (c.storeLe p n v).loan i = c.loan i := rfl
@[simp] theorem Chip.storeLe_queue_of (p n v : Nat) (i : Nat) : (c.storeLe p n v).queue i = c.queue i := rfl
@[simp] theorem Chip.storeLe_coll_of (p n v : Nat) (i : Nat) : (c.storeLe p n v).coll i = c.coll i := rfl
@[simp] theorem Chip.storeLe_ring_of (p n v : Nat) (i : Nat) : (c.storeLe p n v).ring i = c.ring i := rfl
@[simp] theorem Chip.storeLe_ctr_of (p n v : Nat) (i j : Nat) : (c.storeLe p n v).ctr i j = c.ctr i j := rfl

/-! ### Chip.zero -/

@[simp] theorem Chip.zero_phase (p n : Nat) : (c.zero p n).phase = c.phase := rfl
@[simp] theorem Chip.zero_regs (p n : Nat) : (c.zero p n).regs = c.regs := rfl
@[simp] theorem Chip.zero_pairLatch (p n : Nat) : (c.zero p n).pairLatch = c.pairLatch := rfl
@[simp] theorem Chip.zero_pairStage (p n : Nat) : (c.zero p n).pairStage = c.pairStage := rfl
@[simp] theorem Chip.zero_answer (p n : Nat) : (c.zero p n).answer = c.answer := rfl
@[simp] theorem Chip.zero_served (p n : Nat) : (c.zero p n).served = c.served := rfl
@[simp] theorem Chip.zero_lower (p n : Nat) : (c.zero p n).lower = c.lower := rfl
@[simp] theorem Chip.zero_lowPoison (p n : Nat) : (c.zero p n).lowPoison = c.lowPoison := rfl
@[simp] theorem Chip.zero_cores (p n : Nat) : (c.zero p n).cores = c.cores := rfl
@[simp] theorem Chip.zero_clusters (p n : Nat) : (c.zero p n).clusters = c.clusters := rfl
@[simp] theorem Chip.zero_lrtExp (p n : Nat) : (c.zero p n).lrtExp = c.lrtExp := rfl
@[simp] theorem Chip.zero_lrtShadow (p n : Nat) : (c.zero p n).lrtShadow = c.lrtShadow := rfl
@[simp] theorem Chip.zero_lrtGen (p n : Nat) : (c.zero p n).lrtGen = c.lrtGen := rfl
@[simp] theorem Chip.zero_pwus (p n : Nat) : (c.zero p n).pwus = c.pwus := rfl
@[simp] theorem Chip.zero_slots (p n : Nat) : (c.zero p n).slots = c.slots := rfl
@[simp] theorem Chip.zero_quar (p n : Nat) : (c.zero p n).quar = c.quar := rfl
@[simp] theorem Chip.zero_links (p n : Nat) : (c.zero p n).links = c.links := rfl
@[simp] theorem Chip.zero_colls (p n : Nat) : (c.zero p n).colls = c.colls := rfl
@[simp] theorem Chip.zero_rings (p n : Nat) : (c.zero p n).rings = c.rings := rfl
@[simp] theorem Chip.zero_joins (p n : Nat) : (c.zero p n).joins = c.joins := rfl
@[simp] theorem Chip.zero_rcuResult (p n : Nat) : (c.zero p n).rcuResult = c.rcuResult := rfl
@[simp] theorem Chip.zero_collResult (p n : Nat) : (c.zero p n).collResult = c.collResult := rfl
@[simp] theorem Chip.zero_detachLast (p n : Nat) : (c.zero p n).detachLast = c.detachLast := rfl
@[simp] theorem Chip.zero_rtActive (p n : Nat) : (c.zero p n).rtActive = c.rtActive := rfl
@[simp] theorem Chip.zero_rtArmed (p n : Nat) : (c.zero p n).rtArmed = c.rtArmed := rfl
@[simp] theorem Chip.zero_rtAt (p n : Nat) : (c.zero p n).rtAt = c.rtAt := rfl
@[simp] theorem Chip.zero_rtLate (p n : Nat) : (c.zero p n).rtLate = c.rtLate := rfl
@[simp] theorem Chip.zero_rtGen (p n : Nat) : (c.zero p n).rtGen = c.rtGen := rfl
@[simp] theorem Chip.zero_delivered (p n : Nat) : (c.zero p n).delivered = c.delivered := rfl
@[simp] theorem Chip.zero_pktOrd (p n : Nat) : (c.zero p n).pktOrd = c.pktOrd := rfl
@[simp] theorem Chip.zero_straps (p n : Nat) : (c.zero p n).straps = c.straps := rfl
@[simp] theorem Chip.zero_posId (p n : Nat) : (c.zero p n).posId = c.posId := rfl
@[simp] theorem Chip.zero_mst (p n : Nat) : (c.zero p n).mst = c.mst := rfl
@[simp] theorem Chip.zero_cad (p n : Nat) : (c.zero p n).cad = c.cad := rfl
@[simp] theorem Chip.zero_mtm (p n : Nat) : (c.zero p n).mtm = c.mtm := rfl
@[simp] theorem Chip.zero_gmcs (p n : Nat) : (c.zero p n).gmcs = c.gmcs := rfl
@[simp] theorem Chip.zero_t2 (p n : Nat) : (c.zero p n).t2 = c.t2 := rfl
@[simp] theorem Chip.zero_cxl (p n : Nat) : (c.zero p n).cxl = c.cxl := rfl
@[simp] theorem Chip.zero_mbp (p n : Nat) : (c.zero p n).mbp = c.mbp := rfl
@[simp] theorem Chip.zero_pwr (p n : Nat) : (c.zero p n).pwr = c.pwr := rfl
@[simp] theorem Chip.zero_flash (p n : Nat) : (c.zero p n).flash = c.flash := rfl
@[simp] theorem Chip.zero_otp (p n : Nat) : (c.zero p n).otp = c.otp := rfl
@[simp] theorem Chip.zero_sec (p n : Nat) : (c.zero p n).sec = c.sec := rfl
@[simp] theorem Chip.zero_tam (p n : Nat) : (c.zero p n).tam = c.tam := rfl
@[simp] theorem Chip.zero_plans (p n : Nat) : (c.zero p n).plans = c.plans := rfl
@[simp] theorem Chip.zero_rolls (p n : Nat) : (c.zero p n).rolls = c.rolls := rfl
@[simp] theorem Chip.zero_contribs (p n : Nat) : (c.zero p n).contribs = c.contribs := rfl
@[simp] theorem Chip.zero_provBufs (p n : Nat) : (c.zero p n).provBufs = c.provBufs := rfl
@[simp] theorem Chip.zero_busy (p n : Nat) : (c.zero p n).busy = c.busy := rfl
@[simp] theorem Chip.zero_wiped (p n : Nat) : (c.zero p n).wiped = c.wiped := rfl
@[simp] theorem Chip.zero_draw (p n : Nat) : (c.zero p n).draw = c.draw := rfl
@[simp] theorem Chip.zero_rg_of (p n : Nat) (a : Nat) : (c.zero p n).rg a = c.rg a := rfl
@[simp] theorem Chip.zero_rg64_of (p n : Nat) (a : Nat) : (c.zero p n).rg64 a = c.rg64 a := rfl
@[simp] theorem Chip.zero_enabled_of (p n : Nat) (a : Nat) : (c.zero p n).enabled a = c.enabled a := rfl
@[simp] theorem Chip.zero_beat_of (p n : Nat) : (c.zero p n).beat = c.beat := rfl
@[simp] theorem Chip.zero_lc_of (p n : Nat) : (c.zero p n).lc = c.lc := rfl
@[simp] theorem Chip.zero_core_of (p n : Nat) (i : Nat) : (c.zero p n).core i = c.core i := rfl
@[simp] theorem Chip.zero_clus_of (p n : Nat) (i : Nat) : (c.zero p n).clus i = c.clus i := rfl
@[simp] theorem Chip.zero_pwu_of (p n : Nat) (i : Nat) : (c.zero p n).pwu i = c.pwu i := rfl
@[simp] theorem Chip.zero_slot_of (p n : Nat) (i : Nat) : (c.zero p n).slot i = c.slot i := rfl
@[simp] theorem Chip.zero_link_of (p n : Nat) (i : Nat) : (c.zero p n).link i = c.link i := rfl
@[simp] theorem Chip.zero_gmc_of (p n : Nat) (i : Nat) : (c.zero p n).gmc i = c.gmc i := rfl
@[simp] theorem Chip.zero_t2s_of (p n : Nat) (i : Nat) : (c.zero p n).t2s i = c.t2s i := rfl
@[simp] theorem Chip.zero_cxlp_of (p n : Nat) (i : Nat) : (c.zero p n).cxlp i = c.cxlp i := rfl
@[simp] theorem Chip.zero_loan_of (p n : Nat) (i : Nat) : (c.zero p n).loan i = c.loan i := rfl
@[simp] theorem Chip.zero_queue_of (p n : Nat) (i : Nat) : (c.zero p n).queue i = c.queue i := rfl
@[simp] theorem Chip.zero_coll_of (p n : Nat) (i : Nat) : (c.zero p n).coll i = c.coll i := rfl
@[simp] theorem Chip.zero_ring_of (p n : Nat) (i : Nat) : (c.zero p n).ring i = c.ring i := rfl
@[simp] theorem Chip.zero_ctr_of (p n : Nat) (i j : Nat) : (c.zero p n).ctr i j = c.ctr i j := rfl

/-! ### Chip.mark -/

@[simp] theorem Chip.mark_phase (p n : Nat) : (c.mark p n).phase = c.phase := rfl
@[simp] theorem Chip.mark_regs (p n : Nat) : (c.mark p n).regs = c.regs := rfl
@[simp] theorem Chip.mark_pairLatch (p n : Nat) : (c.mark p n).pairLatch = c.pairLatch := rfl
@[simp] theorem Chip.mark_pairStage (p n : Nat) : (c.mark p n).pairStage = c.pairStage := rfl
@[simp] theorem Chip.mark_answer (p n : Nat) : (c.mark p n).answer = c.answer := rfl
@[simp] theorem Chip.mark_served (p n : Nat) : (c.mark p n).served = c.served := rfl
@[simp] theorem Chip.mark_mem (p n : Nat) : (c.mark p n).mem = c.mem := rfl
@[simp] theorem Chip.mark_lower (p n : Nat) : (c.mark p n).lower = c.lower := rfl
@[simp] theorem Chip.mark_lowPoison (p n : Nat) : (c.mark p n).lowPoison = c.lowPoison := rfl
@[simp] theorem Chip.mark_cores (p n : Nat) : (c.mark p n).cores = c.cores := rfl
@[simp] theorem Chip.mark_clusters (p n : Nat) : (c.mark p n).clusters = c.clusters := rfl
@[simp] theorem Chip.mark_lrtExp (p n : Nat) : (c.mark p n).lrtExp = c.lrtExp := rfl
@[simp] theorem Chip.mark_lrtShadow (p n : Nat) : (c.mark p n).lrtShadow = c.lrtShadow := rfl
@[simp] theorem Chip.mark_lrtGen (p n : Nat) : (c.mark p n).lrtGen = c.lrtGen := rfl
@[simp] theorem Chip.mark_pwus (p n : Nat) : (c.mark p n).pwus = c.pwus := rfl
@[simp] theorem Chip.mark_slots (p n : Nat) : (c.mark p n).slots = c.slots := rfl
@[simp] theorem Chip.mark_quar (p n : Nat) : (c.mark p n).quar = c.quar := rfl
@[simp] theorem Chip.mark_links (p n : Nat) : (c.mark p n).links = c.links := rfl
@[simp] theorem Chip.mark_colls (p n : Nat) : (c.mark p n).colls = c.colls := rfl
@[simp] theorem Chip.mark_rings (p n : Nat) : (c.mark p n).rings = c.rings := rfl
@[simp] theorem Chip.mark_joins (p n : Nat) : (c.mark p n).joins = c.joins := rfl
@[simp] theorem Chip.mark_rcuResult (p n : Nat) : (c.mark p n).rcuResult = c.rcuResult := rfl
@[simp] theorem Chip.mark_collResult (p n : Nat) : (c.mark p n).collResult = c.collResult := rfl
@[simp] theorem Chip.mark_detachLast (p n : Nat) : (c.mark p n).detachLast = c.detachLast := rfl
@[simp] theorem Chip.mark_rtActive (p n : Nat) : (c.mark p n).rtActive = c.rtActive := rfl
@[simp] theorem Chip.mark_rtArmed (p n : Nat) : (c.mark p n).rtArmed = c.rtArmed := rfl
@[simp] theorem Chip.mark_rtAt (p n : Nat) : (c.mark p n).rtAt = c.rtAt := rfl
@[simp] theorem Chip.mark_rtLate (p n : Nat) : (c.mark p n).rtLate = c.rtLate := rfl
@[simp] theorem Chip.mark_rtGen (p n : Nat) : (c.mark p n).rtGen = c.rtGen := rfl
@[simp] theorem Chip.mark_delivered (p n : Nat) : (c.mark p n).delivered = c.delivered := rfl
@[simp] theorem Chip.mark_pktOrd (p n : Nat) : (c.mark p n).pktOrd = c.pktOrd := rfl
@[simp] theorem Chip.mark_straps (p n : Nat) : (c.mark p n).straps = c.straps := rfl
@[simp] theorem Chip.mark_posId (p n : Nat) : (c.mark p n).posId = c.posId := rfl
@[simp] theorem Chip.mark_mst (p n : Nat) : (c.mark p n).mst = c.mst := rfl
@[simp] theorem Chip.mark_cad (p n : Nat) : (c.mark p n).cad = c.cad := rfl
@[simp] theorem Chip.mark_mtm (p n : Nat) : (c.mark p n).mtm = c.mtm := rfl
@[simp] theorem Chip.mark_gmcs (p n : Nat) : (c.mark p n).gmcs = c.gmcs := rfl
@[simp] theorem Chip.mark_t2 (p n : Nat) : (c.mark p n).t2 = c.t2 := rfl
@[simp] theorem Chip.mark_cxl (p n : Nat) : (c.mark p n).cxl = c.cxl := rfl
@[simp] theorem Chip.mark_mbp (p n : Nat) : (c.mark p n).mbp = c.mbp := rfl
@[simp] theorem Chip.mark_pwr (p n : Nat) : (c.mark p n).pwr = c.pwr := rfl
@[simp] theorem Chip.mark_flash (p n : Nat) : (c.mark p n).flash = c.flash := rfl
@[simp] theorem Chip.mark_otp (p n : Nat) : (c.mark p n).otp = c.otp := rfl
@[simp] theorem Chip.mark_sec (p n : Nat) : (c.mark p n).sec = c.sec := rfl
@[simp] theorem Chip.mark_tam (p n : Nat) : (c.mark p n).tam = c.tam := rfl
@[simp] theorem Chip.mark_plans (p n : Nat) : (c.mark p n).plans = c.plans := rfl
@[simp] theorem Chip.mark_rolls (p n : Nat) : (c.mark p n).rolls = c.rolls := rfl
@[simp] theorem Chip.mark_contribs (p n : Nat) : (c.mark p n).contribs = c.contribs := rfl
@[simp] theorem Chip.mark_provBufs (p n : Nat) : (c.mark p n).provBufs = c.provBufs := rfl
@[simp] theorem Chip.mark_busy (p n : Nat) : (c.mark p n).busy = c.busy := rfl
@[simp] theorem Chip.mark_wiped (p n : Nat) : (c.mark p n).wiped = c.wiped := rfl
@[simp] theorem Chip.mark_draw (p n : Nat) : (c.mark p n).draw = c.draw := rfl
@[simp] theorem Chip.mark_rg_of (p n : Nat) (a : Nat) : (c.mark p n).rg a = c.rg a := rfl
@[simp] theorem Chip.mark_rg64_of (p n : Nat) (a : Nat) : (c.mark p n).rg64 a = c.rg64 a := rfl
@[simp] theorem Chip.mark_enabled_of (p n : Nat) (a : Nat) : (c.mark p n).enabled a = c.enabled a := rfl
@[simp] theorem Chip.mark_beat_of (p n : Nat) : (c.mark p n).beat = c.beat := rfl
@[simp] theorem Chip.mark_lc_of (p n : Nat) : (c.mark p n).lc = c.lc := rfl
@[simp] theorem Chip.mark_core_of (p n : Nat) (i : Nat) : (c.mark p n).core i = c.core i := rfl
@[simp] theorem Chip.mark_clus_of (p n : Nat) (i : Nat) : (c.mark p n).clus i = c.clus i := rfl
@[simp] theorem Chip.mark_pwu_of (p n : Nat) (i : Nat) : (c.mark p n).pwu i = c.pwu i := rfl
@[simp] theorem Chip.mark_slot_of (p n : Nat) (i : Nat) : (c.mark p n).slot i = c.slot i := rfl
@[simp] theorem Chip.mark_link_of (p n : Nat) (i : Nat) : (c.mark p n).link i = c.link i := rfl
@[simp] theorem Chip.mark_gmc_of (p n : Nat) (i : Nat) : (c.mark p n).gmc i = c.gmc i := rfl
@[simp] theorem Chip.mark_t2s_of (p n : Nat) (i : Nat) : (c.mark p n).t2s i = c.t2s i := rfl
@[simp] theorem Chip.mark_cxlp_of (p n : Nat) (i : Nat) : (c.mark p n).cxlp i = c.cxlp i := rfl
@[simp] theorem Chip.mark_loan_of (p n : Nat) (i : Nat) : (c.mark p n).loan i = c.loan i := rfl
@[simp] theorem Chip.mark_queue_of (p n : Nat) (i : Nat) : (c.mark p n).queue i = c.queue i := rfl
@[simp] theorem Chip.mark_coll_of (p n : Nat) (i : Nat) : (c.mark p n).coll i = c.coll i := rfl
@[simp] theorem Chip.mark_ring_of (p n : Nat) (i : Nat) : (c.mark p n).ring i = c.ring i := rfl
@[simp] theorem Chip.mark_byteAt_of (p n : Nat) (a : Nat) : (c.mark p n).byteAt a = c.byteAt a := rfl
@[simp] theorem Chip.mark_ctr_of (p n : Nat) (i j : Nat) : (c.mark p n).ctr i j = c.ctr i j := rfl

/-! ### Reading back -/

theorem Chip.setCore_core (n : Nat) (x : Core) (i : Nat) :
    (c.setCore n x).core i = if i = n then x else c.core i := Tab.get_set _ _ _ _ _
@[simp] theorem Chip.setCore_core_same (n : Nat) (x : Core) : (c.setCore n x).core n = x := Tab.get_set_same _ _ _ _
theorem Chip.setClus_clus (n : Nat) (x : Cluster) (i : Nat) :
    (c.setClus n x).clus i = if i = n then x else c.clus i := Tab.get_set _ _ _ _ _
@[simp] theorem Chip.setClus_clus_same (n : Nat) (x : Cluster) : (c.setClus n x).clus n = x := Tab.get_set_same _ _ _ _
theorem Chip.setPwu_pwu (n : Nat) (x : Pwu) (i : Nat) :
    (c.setPwu n x).pwu i = if i = n then x else c.pwu i := Tab.get_set _ _ _ _ _
@[simp] theorem Chip.setPwu_pwu_same (n : Nat) (x : Pwu) : (c.setPwu n x).pwu n = x := Tab.get_set_same _ _ _ _
theorem Chip.setSlot_slot (n : Nat) (x : Slot) (i : Nat) :
    (c.setSlot n x).slot i = if i = n then x else c.slot i := Tab.get_set _ _ _ _ _
@[simp] theorem Chip.setSlot_slot_same (n : Nat) (x : Slot) : (c.setSlot n x).slot n = x := Tab.get_set_same _ _ _ _
theorem Chip.setLink_link (n : Nat) (x : Link) (i : Nat) :
    (c.setLink n x).link i = if i = n then x else c.link i := Tab.get_set _ _ _ _ _
@[simp] theorem Chip.setLink_link_same (n : Nat) (x : Link) : (c.setLink n x).link n = x := Tab.get_set_same _ _ _ _
theorem Chip.setGmc_gmc (n : Nat) (x : Gmc) (i : Nat) :
    (c.setGmc n x).gmc i = if i = n then x else c.gmc i := Tab.get_set _ _ _ _ _
@[simp] theorem Chip.setGmc_gmc_same (n : Nat) (x : Gmc) : (c.setGmc n x).gmc n = x := Tab.get_set_same _ _ _ _
theorem Chip.setT2_t2s (n : Nat) (x : T2) (i : Nat) :
    (c.setT2 n x).t2s i = if i = n then x else c.t2s i := Tab.get_set _ _ _ _ _
@[simp] theorem Chip.setT2_t2s_same (n : Nat) (x : T2) : (c.setT2 n x).t2s n = x := Tab.get_set_same _ _ _ _
theorem Chip.setCxl_cxlp (n : Nat) (x : Cxl) (i : Nat) :
    (c.setCxl n x).cxlp i = if i = n then x else c.cxlp i := Tab.get_set _ _ _ _ _
@[simp] theorem Chip.setCxl_cxlp_same (n : Nat) (x : Cxl) : (c.setCxl n x).cxlp n = x := Tab.get_set_same _ _ _ _
theorem Chip.setLoan_loan (n : Nat) (x : Loan) (i : Nat) :
    (c.setLoan n x).loan i = if i = n then x else c.loan i := Tab.get_set _ _ _ _ _
@[simp] theorem Chip.setLoan_loan_same (n : Nat) (x : Loan) : (c.setLoan n x).loan n = x := Tab.get_set_same _ _ _ _
theorem Chip.setQueue_queue (n : Nat) (x : Queue) (i : Nat) :
    (c.setQueue n x).queue i = if i = n then x else c.queue i := Tab.get_set _ _ _ _ _
@[simp] theorem Chip.setQueue_queue_same (n : Nat) (x : Queue) : (c.setQueue n x).queue n = x := Tab.get_set_same _ _ _ _
theorem Chip.setColl_coll (n : Nat) (x : Coll) (i : Nat) :
    (c.setColl n x).coll i = if i = n then x else c.coll i := Tab.get_set _ _ _ _ _
@[simp] theorem Chip.setColl_coll_same (n : Nat) (x : Coll) : (c.setColl n x).coll n = x := Tab.get_set_same _ _ _ _
theorem Chip.setRing_ring (n : Nat) (x : Ring) (i : Nat) :
    (c.setRing n x).ring i = if i = n then x else c.ring i := Tab.get_set _ _ _ _ _
@[simp] theorem Chip.setRing_ring_same (n : Nat) (x : Ring) : (c.setRing n x).ring n = x := Tab.get_set_same _ _ _ _

theorem Chip.setRg_rg (a v b : Nat) : (c.setRg a v).rg b = if b = a then v % 2 ^ 32 else c.rg b := by
  simp only [Chip.setRg, Chip.rg, Tab.get_set]; split_ifs <;> simp
@[simp] theorem Chip.setRg_rg_same (a v : Nat) : (c.setRg a v).rg a = v % 2 ^ 32 := by simp [Chip.setRg_rg]
theorem Chip.setRg_rg_other (a v b : Nat) (h : b ≠ a) : (c.setRg a v).rg b = c.rg b := by simp [Chip.setRg_rg, h]
theorem Chip.rg_lt (a : Nat) : c.rg a < 2 ^ 32 := (Tab.get regReset c.regs a).isLt

theorem Chip.setCtr_ctr (cl n : Nat) (x : Counter) (k i : Nat) :
    (c.setCtr cl n x).ctr k i = if k = cl ∧ i = n then x else c.ctr k i := by
  simp only [Chip.setCtr, Chip.ctr, Chip.setClus_clus]
  by_cases h : k = cl
  · subst h; simp [Cluster.setCtr, Cluster.ctr, Tab.get_set]
  · simp [h]

@[simp] theorem Cad.setPort_port (k : Cad) (n : Nat) (x : MarkRx) (i : Nat) :
    (k.setPort n x).port i = if i = n then x else k.port i := Tab.get_set _ _ _ _ _
@[simp] theorem Cad.setEnt_ent (k : Cad) (n : Nat) (x : EvtEntry) (i : Nat) :
    (k.setEnt n x).ent i = if i = n then x else k.ent i := Tab.get_set _ _ _ _ _

/-- A byte read after a store: the byte stored, or the byte that was there. -/
theorem Chip.store_byteAt (p : Nat) (l : List Byte) (a : Nat) :
    (c.store p l).byteAt a = if p ≤ a ∧ a < p + l.length then l.getD (a - p) 0#8 else c.byteAt a :=
  Tab.get_setList _ _ _ _ _

@[simp] theorem leBytes_length (n v : Nat) : (leBytes n v).length = n := by
  induction n generalizing v with
  | zero => rfl
  | succ n ih => simp [leBytes, ih]

/-- A store of a number changes its own bytes only. -/
theorem Chip.storeLe_byteAt_other (p n v a : Nat) (h : a < p ∨ p + n ≤ a) : (c.storeLe p n v).byteAt a = c.byteAt a := by
  rw [Chip.storeLe, Chip.store_byteAt, if_neg]; simp; omega

/-- Every operation on stored memory keeps the canonical form. -/
theorem Chip.store_wf (p : Nat) (l : List Byte) (h : Memory.wf c.mem) : Memory.wf (c.store p l).mem :=
  Tab.wf_setList _ _ _ _ h
theorem Chip.storeLe_wf (p n v : Nat) (h : Memory.wf c.mem) : Memory.wf (c.storeLe p n v).mem := Chip.store_wf c _ _ h
theorem Chip.zero_wf (p n : Nat) (h : Memory.wf c.mem) : Memory.wf (c.zero p n).mem := Tab.wf_clear _ _ _ _ h
theorem Chip.mark_wf (p n : Nat) (h : Memory.wf c.mem) : Memory.wf (c.mark p n).mem := h
theorem Chip.setRg_wf (a v : Nat) (h : Tab.wf regReset c.regs = true) : Tab.wf regReset (c.setRg a v).regs = true :=
  Tab.wf_set _ _ _ _ h

/-- A wiped byte reads 0, and no other byte changes. -/
theorem Chip.zero_byteAt (p n a : Nat) (h : Memory.wf c.mem) :
    (c.zero p n).byteAt a = if p ≤ a ∧ a < p + n then 0#8 else c.byteAt a := Tab.get_clear _ _ _ _ h _

end Sys2Proof.Machine
end

