-- ==== Sys2Proof/Laws/Frames.lean ====
section
/-! SUPPORT. What interrupts, events, frames and error records can change: an interrupt changes the registers and the
control link only, a CE or DE beside them the error record queue, a UC beside them what a fatal error stops. -/

namespace Sys2Proof.Machine

/-- Only the registers and the control link differ. -/
def OnlyLink (c k : Chip) : Prop := ∃ r m, k = { c with regs := r, mbp := m }
/-- Only the registers, the control link and the error record queue differ. -/
def OnlyLog (c k : Chip) : Prop := ∃ r m t, k = { c with regs := r, mbp := m, tam := t }
/-- Only these, the cores and the power unit differ. -/
def OnlyStop (c k : Chip) : Prop := ∃ r m t q w, k = { c with regs := r, mbp := m, tam := t, cores := q, pwr := w }

theorem OnlyLink.refl (c : Chip) : OnlyLink c c := ⟨c.regs, c.mbp, rfl⟩
theorem OnlyLink.trans {a b c : Chip} (h : OnlyLink a b) (g : OnlyLink b c) : OnlyLink a c := by
  obtain ⟨r, m, rfl⟩ := h; obtain ⟨r', m', rfl⟩ := g; exact ⟨r', m', rfl⟩
theorem OnlyLog.refl (c : Chip) : OnlyLog c c := ⟨c.regs, c.mbp, c.tam, rfl⟩
theorem OnlyLog.trans {a b c : Chip} (h : OnlyLog a b) (g : OnlyLog b c) : OnlyLog a c := by
  obtain ⟨r, m, t, rfl⟩ := h; obtain ⟨r', m', t', rfl⟩ := g; exact ⟨r', m', t', rfl⟩
theorem OnlyLink.log {a b : Chip} (h : OnlyLink a b) : OnlyLog a b := by
  obtain ⟨r, m, rfl⟩ := h; exact ⟨r, m, a.tam, rfl⟩
theorem OnlyStop.refl (c : Chip) : OnlyStop c c := ⟨c.regs, c.mbp, c.tam, c.cores, c.pwr, rfl⟩
theorem OnlyStop.trans {a b c : Chip} (h : OnlyStop a b) (g : OnlyStop b c) : OnlyStop a c := by
  obtain ⟨r, m, t, q, w, rfl⟩ := h; obtain ⟨r', m', t', q', w', rfl⟩ := g; exact ⟨r', m', t', q', w', rfl⟩
theorem OnlyLog.stop {a b : Chip} (h : OnlyLog a b) : OnlyStop a b := by
  obtain ⟨r, m, t, rfl⟩ := h; exact ⟨r, m, t, a.cores, a.pwr, rfl⟩

theorem setRg_only (a v : Nat) (c : Chip) : OnlyLink c (c.setRg a v) := ⟨_, c.mbp, rfl⟩
theorem irqQuiet_only (p i : Nat) (c : Chip) : OnlyLink c (irqQuiet p i c) := setRg_only _ _ c
theorem putEvent_only (k p : Nat) (l : List Nat) (c : Chip) : OnlyLink c (putEvent k p l c) := ⟨c.regs, _, rfl⟩

theorem addEvent_only (k p : Nat) (l : List Nat) (c : Chip) : OnlyLink c (addEvent k p l c) := by
  unfold addEvent
  dsimp only
  split_ifs
  · exact ⟨_, _, rfl⟩
  · exact putEvent_only _ _ _ _
  · exact ⟨_, _, rfl⟩
  · exact ⟨_, _, rfl⟩

theorem raiseIrq_only (p i : Nat) (c : Chip) : OnlyLink c (raiseIrq p i c) := by
  unfold raiseIrq
  dsimp only
  split_ifs
  · exact irqQuiet_only _ _ _
  · exact (irqQuiet_only _ _ _).trans (addEvent_only _ _ _ _)

theorem sendFrame_only (f : Frame) (c : Chip) : OnlyLink c (sendFrame f c) := by
  unfold sendFrame
  dsimp only
  split
  · split
    · split
      · exact OnlyLink.trans ⟨c.regs, _, rfl⟩ (raiseIrq_only _ _ _)
      · exact ⟨c.regs, _, rfl⟩
    · exact ⟨c.regs, _, rfl⟩
  · exact ⟨c.regs, _, rfl⟩

theorem sendEvent_only (e : Event) (c : Chip) : OnlyLink c (sendEvent e c) := by
  unfold sendEvent; split
  · exact sendFrame_only _ _
  · exact OnlyLink.refl c

theorem sendNew_only (old c : Chip) : OnlyLink c (sendNew old c) := by
  unfold sendNew
  generalize List.drop _ _ = l
  induction l generalizing c with
  | nil => exact OnlyLink.refl c
  | cons e l ih => exact (sendEvent_only e c).trans (ih _)

theorem event_only (k p : Nat) (l : List Nat) (c : Chip) : OnlyLink c (event k p l c) :=
  (addEvent_only k p l c).trans (sendNew_only _ _)
theorem irq_only (p i : Nat) (c : Chip) : OnlyLink c (irq p i c) := (raiseIrq_only p i c).trans (sendNew_only _ _)

theorem enqueueRec_only (e : ErrRec) (c : Chip) : OnlyLog c (enqueueRec e c) := by
  have put : ∀ k, OnlyLog c (event 1 e.page (recWords e) { c with tam := { c.tam with queue := c.tam.queue ++ [(e, k)] } }) :=
    fun k => OnlyLog.trans ⟨c.regs, c.mbp, _, rfl⟩ (event_only _ _ _ _).log
  unfold enqueueRec
  dsimp only
  split
  · exact ⟨c.regs, c.mbp, _, rfl⟩
  · split_ifs
    · exact put _
    · exact ⟨c.regs, c.mbp, _, rfl⟩
    · exact put _
    · exact put _
    · exact ((setRg_only _ _ c).log).trans (irq_only _ _ _).log

theorem shedCores_only (c : Chip) : OnlyStop c (shedCores c) := by
  have h : ∀ (l : List Nat) (k : Chip), OnlyStop k (l.foldl (fun k n => k.setCore n (stopCore (k.core n))) k) := by
    intro l
    induction l with
    | nil => exact OnlyStop.refl
    | cons n l ih => exact fun k => OnlyStop.trans ⟨k.regs, k.mbp, k.tam, _, k.pwr, rfl⟩ (ih _)
  exact (h (List.range 192) c).trans ⟨_, _, _, _, _, rfl⟩

theorem fatal_only (e : ErrRec) (c : Chip) : OnlyStop c (fatal e c) := by
  unfold fatal
  dsimp only
  split
  · exact shedCores_only c
  · exact (shedCores_only c).trans ⟨_, _, _, _, _, rfl⟩

theorem onlyStop_fatal {c k : Chip} (P : Prop) [Decidable P] (e : ErrRec) (h : OnlyStop c k) :
    OnlyStop c (if P then fatal e k else k) := by
  split
  · exact h.trans (fatal_only _ _)
  · exact h
theorem onlyLog_rec {c k : Chip} (P : Prop) [Decidable P] (e : ErrRec) (h : OnlyLog c k) :
    OnlyLog c (if P then enqueueRec e k else k) := by
  split
  · exact h.trans (enqueueRec_only _ _)
  · exact h
theorem setRg2_only (a v b w : Nat) (c : Chip) : OnlyLog c ((c.setRg a v).setRg b w) :=
  ((setRg_only a v c).trans (setRg_only b w _)).log

theorem logErr_only (e : ErrRec) (c : Chip) : OnlyStop c (logErr e c) :=
  onlyStop_fatal _ _ (onlyLog_rec _ _ (setRg2_only _ _ _ _ c)).stop

/-- An error that becomes no FE changes the registers, the control link and the record queue only. -/
theorem logErr_only_low (e : ErrRec) (c : Chip) (h : e.cls ≤ 1) : OnlyLog c (logErr e c) := by
  have h3 : ∀ (b : Bool), ¬ ((if b then e.cls + 1 else e.cls) = 3) := by intro b; cases b <;> simp <;> omega
  unfold logErr logWith
  dsimp only
  rw [if_neg (h3 _)]
  exact onlyLog_rec _ _ (setRg2_only _ _ _ _ c)

theorem ce_only (p k d0 d1 : Nat) (c : Chip) : OnlyLog c (ce p k d0 d1 c) := logErr_only_low _ _ (by simp)
theorem itemLate_only (p b : Nat) (c : Chip) : OnlyLog c (itemLate p b c) := ce_only _ _ _ _ _
theorem ignored_only (a v : Nat) (c : Chip) : OnlyLog c (ignored a v c) := ce_only _ _ _ _ _
theorem lateFire_only (p t : Nat) (c : Chip) : OnlyLog c (lateFire p t c) := by
  unfold lateFire; split
  · exact itemLate_only _ _ _
  · exact OnlyLog.refl c
theorem armCe_only (p b : Nat) (c : Chip) : OnlyLog c (armCe p b c) := by
  unfold armCe; split
  · exact itemLate_only _ _ _
  · exact OnlyLog.refl c
theorem ucOp_only (p k i d0 d1 : Nat) (c : Chip) : OnlyStop c (ucOp p k i d0 d1 c) := logErr_only _ _
theorem ucSlice_only (p k d0 d1 d2 : Nat) (c : Chip) : OnlyStop c (ucSlice p k d0 d1 d2 c) := logErr_only _ _
theorem ucSeq_only (n k d0 d1 : Nat) (c : Chip) : OnlyStop c (ucSeq n k d0 d1 c) := logErr_only _ _

/-! ### irq -/

@[simp] theorem irq_phase (p i : Nat) (c : Chip) : (irq p i c).phase = c.phase := by obtain ⟨_, _, h⟩ := irq_only p i c; rw [h]
@[simp] theorem irq_pairLatch (p i : Nat) (c : Chip) : (irq p i c).pairLatch = c.pairLatch := by obtain ⟨_, _, h⟩ := irq_only p i c; rw [h]
@[simp] theorem irq_pairStage (p i : Nat) (c : Chip) : (irq p i c).pairStage = c.pairStage := by obtain ⟨_, _, h⟩ := irq_only p i c; rw [h]
@[simp] theorem irq_answer (p i : Nat) (c : Chip) : (irq p i c).answer = c.answer := by obtain ⟨_, _, h⟩ := irq_only p i c; rw [h]
@[simp] theorem irq_mem (p i : Nat) (c : Chip) : (irq p i c).mem = c.mem := by obtain ⟨_, _, h⟩ := irq_only p i c; rw [h]
@[simp] theorem irq_lower (p i : Nat) (c : Chip) : (irq p i c).lower = c.lower := by obtain ⟨_, _, h⟩ := irq_only p i c; rw [h]
@[simp] theorem irq_poison (p i : Nat) (c : Chip) : (irq p i c).poison = c.poison := by obtain ⟨_, _, h⟩ := irq_only p i c; rw [h]
@[simp] theorem irq_lowPoison (p i : Nat) (c : Chip) : (irq p i c).lowPoison = c.lowPoison := by obtain ⟨_, _, h⟩ := irq_only p i c; rw [h]
@[simp] theorem irq_cores (p i : Nat) (c : Chip) : (irq p i c).cores = c.cores := by obtain ⟨_, _, h⟩ := irq_only p i c; rw [h]
@[simp] theorem irq_clusters (p i : Nat) (c : Chip) : (irq p i c).clusters = c.clusters := by obtain ⟨_, _, h⟩ := irq_only p i c; rw [h]
@[simp] theorem irq_lrtExp (p i : Nat) (c : Chip) : (irq p i c).lrtExp = c.lrtExp := by obtain ⟨_, _, h⟩ := irq_only p i c; rw [h]
@[simp] theorem irq_lrtShadow (p i : Nat) (c : Chip) : (irq p i c).lrtShadow = c.lrtShadow := by obtain ⟨_, _, h⟩ := irq_only p i c; rw [h]
@[simp] theorem irq_lrtGen (p i : Nat) (c : Chip) : (irq p i c).lrtGen = c.lrtGen := by obtain ⟨_, _, h⟩ := irq_only p i c; rw [h]
@[simp] theorem irq_pwus (p i : Nat) (c : Chip) : (irq p i c).pwus = c.pwus := by obtain ⟨_, _, h⟩ := irq_only p i c; rw [h]
@[simp] theorem irq_slots (p i : Nat) (c : Chip) : (irq p i c).slots = c.slots := by obtain ⟨_, _, h⟩ := irq_only p i c; rw [h]
@[simp] theorem irq_quar (p i : Nat) (c : Chip) : (irq p i c).quar = c.quar := by obtain ⟨_, _, h⟩ := irq_only p i c; rw [h]
@[simp] theorem irq_links (p i : Nat) (c : Chip) : (irq p i c).links = c.links := by obtain ⟨_, _, h⟩ := irq_only p i c; rw [h]
@[simp] theorem irq_colls (p i : Nat) (c : Chip) : (irq p i c).colls = c.colls := by obtain ⟨_, _, h⟩ := irq_only p i c; rw [h]
@[simp] theorem irq_rings (p i : Nat) (c : Chip) : (irq p i c).rings = c.rings := by obtain ⟨_, _, h⟩ := irq_only p i c; rw [h]
@[simp] theorem irq_joins (p i : Nat) (c : Chip) : (irq p i c).joins = c.joins := by obtain ⟨_, _, h⟩ := irq_only p i c; rw [h]
@[simp] theorem irq_rcuResult (p i : Nat) (c : Chip) : (irq p i c).rcuResult = c.rcuResult := by obtain ⟨_, _, h⟩ := irq_only p i c; rw [h]
@[simp] theorem irq_collResult (p i : Nat) (c : Chip) : (irq p i c).collResult = c.collResult := by obtain ⟨_, _, h⟩ := irq_only p i c; rw [h]
@[simp] theorem irq_detachLast (p i : Nat) (c : Chip) : (irq p i c).detachLast = c.detachLast := by obtain ⟨_, _, h⟩ := irq_only p i c; rw [h]
@[simp] theorem irq_rtActive (p i : Nat) (c : Chip) : (irq p i c).rtActive = c.rtActive := by obtain ⟨_, _, h⟩ := irq_only p i c; rw [h]
@[simp] theorem irq_rtArmed (p i : Nat) (c : Chip) : (irq p i c).rtArmed = c.rtArmed := by obtain ⟨_, _, h⟩ := irq_only p i c; rw [h]
@[simp] theorem irq_rtAt (p i : Nat) (c : Chip) : (irq p i c).rtAt = c.rtAt := by obtain ⟨_, _, h⟩ := irq_only p i c; rw [h]
@[simp] theorem irq_rtLate (p i : Nat) (c : Chip) : (irq p i c).rtLate = c.rtLate := by obtain ⟨_, _, h⟩ := irq_only p i c; rw [h]
@[simp] theorem irq_rtGen (p i : Nat) (c : Chip) : (irq p i c).rtGen = c.rtGen := by obtain ⟨_, _, h⟩ := irq_only p i c; rw [h]
@[simp] theorem irq_delivered (p i : Nat) (c : Chip) : (irq p i c).delivered = c.delivered := by obtain ⟨_, _, h⟩ := irq_only p i c; rw [h]
@[simp] theorem irq_pktOrd (p i : Nat) (c : Chip) : (irq p i c).pktOrd = c.pktOrd := by obtain ⟨_, _, h⟩ := irq_only p i c; rw [h]
@[simp] theorem irq_straps (p i : Nat) (c : Chip) : (irq p i c).straps = c.straps := by obtain ⟨_, _, h⟩ := irq_only p i c; rw [h]
@[simp] theorem irq_posId (p i : Nat) (c : Chip) : (irq p i c).posId = c.posId := by obtain ⟨_, _, h⟩ := irq_only p i c; rw [h]
@[simp] theorem irq_mst (p i : Nat) (c : Chip) : (irq p i c).mst = c.mst := by obtain ⟨_, _, h⟩ := irq_only p i c; rw [h]
@[simp] theorem irq_cad (p i : Nat) (c : Chip) : (irq p i c).cad = c.cad := by obtain ⟨_, _, h⟩ := irq_only p i c; rw [h]
@[simp] theorem irq_mtm (p i : Nat) (c : Chip) : (irq p i c).mtm = c.mtm := by obtain ⟨_, _, h⟩ := irq_only p i c; rw [h]
@[simp] theorem irq_gmcs (p i : Nat) (c : Chip) : (irq p i c).gmcs = c.gmcs := by obtain ⟨_, _, h⟩ := irq_only p i c; rw [h]
@[simp] theorem irq_t2 (p i : Nat) (c : Chip) : (irq p i c).t2 = c.t2 := by obtain ⟨_, _, h⟩ := irq_only p i c; rw [h]
@[simp] theorem irq_cxl (p i : Nat) (c : Chip) : (irq p i c).cxl = c.cxl := by obtain ⟨_, _, h⟩ := irq_only p i c; rw [h]
@[simp] theorem irq_pwr (p i : Nat) (c : Chip) : (irq p i c).pwr = c.pwr := by obtain ⟨_, _, h⟩ := irq_only p i c; rw [h]
@[simp] theorem irq_flash (p i : Nat) (c : Chip) : (irq p i c).flash = c.flash := by obtain ⟨_, _, h⟩ := irq_only p i c; rw [h]
@[simp] theorem irq_otp (p i : Nat) (c : Chip) : (irq p i c).otp = c.otp := by obtain ⟨_, _, h⟩ := irq_only p i c; rw [h]
@[simp] theorem irq_sec (p i : Nat) (c : Chip) : (irq p i c).sec = c.sec := by obtain ⟨_, _, h⟩ := irq_only p i c; rw [h]
@[simp] theorem irq_tam (p i : Nat) (c : Chip) : (irq p i c).tam = c.tam := by obtain ⟨_, _, h⟩ := irq_only p i c; rw [h]
@[simp] theorem irq_plans (p i : Nat) (c : Chip) : (irq p i c).plans = c.plans := by obtain ⟨_, _, h⟩ := irq_only p i c; rw [h]
@[simp] theorem irq_rolls (p i : Nat) (c : Chip) : (irq p i c).rolls = c.rolls := by obtain ⟨_, _, h⟩ := irq_only p i c; rw [h]
@[simp] theorem irq_contribs (p i : Nat) (c : Chip) : (irq p i c).contribs = c.contribs := by obtain ⟨_, _, h⟩ := irq_only p i c; rw [h]
@[simp] theorem irq_provBufs (p i : Nat) (c : Chip) : (irq p i c).provBufs = c.provBufs := by obtain ⟨_, _, h⟩ := irq_only p i c; rw [h]
@[simp] theorem irq_busy (p i : Nat) (c : Chip) : (irq p i c).busy = c.busy := by obtain ⟨_, _, h⟩ := irq_only p i c; rw [h]
@[simp] theorem irq_wiped (p i : Nat) (c : Chip) : (irq p i c).wiped = c.wiped := by obtain ⟨_, _, h⟩ := irq_only p i c; rw [h]
@[simp] theorem irq_draw (p i : Nat) (c : Chip) : (irq p i c).draw = c.draw := by obtain ⟨_, _, h⟩ := irq_only p i c; rw [h]
@[simp] theorem irq_beat_of (p i : Nat) (c : Chip) : (irq p i c).beat = c.beat := by obtain ⟨_, _, h⟩ := irq_only p i c; rw [h]; rfl
@[simp] theorem irq_lc_of (p i : Nat) (c : Chip) : (irq p i c).lc = c.lc := by obtain ⟨_, _, h⟩ := irq_only p i c; rw [h]; rfl
@[simp] theorem irq_core_of (p i : Nat) (c : Chip) (u : Nat) : (irq p i c).core u = c.core u := by obtain ⟨_, _, h⟩ := irq_only p i c; rw [h]; rfl
@[simp] theorem irq_clus_of (p i : Nat) (c : Chip) (u : Nat) : (irq p i c).clus u = c.clus u := by obtain ⟨_, _, h⟩ := irq_only p i c; rw [h]; rfl
@[simp] theorem irq_pwu_of (p i : Nat) (c : Chip) (u : Nat) : (irq p i c).pwu u = c.pwu u := by obtain ⟨_, _, h⟩ := irq_only p i c; rw [h]; rfl
@[simp] theorem irq_slot_of (p i : Nat) (c : Chip) (u : Nat) : (irq p i c).slot u = c.slot u := by obtain ⟨_, _, h⟩ := irq_only p i c; rw [h]; rfl
@[simp] theorem irq_link_of (p i : Nat) (c : Chip) (u : Nat) : (irq p i c).link u = c.link u := by obtain ⟨_, _, h⟩ := irq_only p i c; rw [h]; rfl
@[simp] theorem irq_gmc_of (p i : Nat) (c : Chip) (u : Nat) : (irq p i c).gmc u = c.gmc u := by obtain ⟨_, _, h⟩ := irq_only p i c; rw [h]; rfl
@[simp] theorem irq_t2s_of (p i : Nat) (c : Chip) (u : Nat) : (irq p i c).t2s u = c.t2s u := by obtain ⟨_, _, h⟩ := irq_only p i c; rw [h]; rfl
@[simp] theorem irq_cxlp_of (p i : Nat) (c : Chip) (u : Nat) : (irq p i c).cxlp u = c.cxlp u := by obtain ⟨_, _, h⟩ := irq_only p i c; rw [h]; rfl
@[simp] theorem irq_loan_of (p i : Nat) (c : Chip) (u : Nat) : (irq p i c).loan u = c.loan u := by obtain ⟨_, _, h⟩ := irq_only p i c; rw [h]; rfl
@[simp] theorem irq_coll_of (p i : Nat) (c : Chip) (u : Nat) : (irq p i c).coll u = c.coll u := by obtain ⟨_, _, h⟩ := irq_only p i c; rw [h]; rfl
@[simp] theorem irq_ring_of (p i : Nat) (c : Chip) (u : Nat) : (irq p i c).ring u = c.ring u := by obtain ⟨_, _, h⟩ := irq_only p i c; rw [h]; rfl
@[simp] theorem irq_byteAt_of (p i : Nat) (c : Chip) (x : Nat) : (irq p i c).byteAt x = c.byteAt x := by obtain ⟨_, _, h⟩ := irq_only p i c; rw [h]; rfl
@[simp] theorem irq_ctr_of (p i : Nat) (c : Chip) (u v : Nat) : (irq p i c).ctr u v = c.ctr u v := by obtain ⟨_, _, h⟩ := irq_only p i c; rw [h]; rfl
@[simp] theorem irq_poisonIn_of (p i : Nat) (c : Chip) (x y : Nat) : (irq p i c).poisonIn x y = c.poisonIn x y := by obtain ⟨_, _, h⟩ := irq_only p i c; rw [h]; rfl

/-! ### irqQuiet -/

@[simp] theorem irqQuiet_phase (p i : Nat) (c : Chip) : (irqQuiet p i c).phase = c.phase := by obtain ⟨_, _, h⟩ := irqQuiet_only p i c; rw [h]
@[simp] theorem irqQuiet_pairLatch (p i : Nat) (c : Chip) : (irqQuiet p i c).pairLatch = c.pairLatch := by obtain ⟨_, _, h⟩ := irqQuiet_only p i c; rw [h]
@[simp] theorem irqQuiet_pairStage (p i : Nat) (c : Chip) : (irqQuiet p i c).pairStage = c.pairStage := by obtain ⟨_, _, h⟩ := irqQuiet_only p i c; rw [h]
@[simp] theorem irqQuiet_answer (p i : Nat) (c : Chip) : (irqQuiet p i c).answer = c.answer := by obtain ⟨_, _, h⟩ := irqQuiet_only p i c; rw [h]
@[simp] theorem irqQuiet_mem (p i : Nat) (c : Chip) : (irqQuiet p i c).mem = c.mem := by obtain ⟨_, _, h⟩ := irqQuiet_only p i c; rw [h]
@[simp] theorem irqQuiet_lower (p i : Nat) (c : Chip) : (irqQuiet p i c).lower = c.lower := by obtain ⟨_, _, h⟩ := irqQuiet_only p i c; rw [h]
@[simp] theorem irqQuiet_poison (p i : Nat) (c : Chip) : (irqQuiet p i c).poison = c.poison := by obtain ⟨_, _, h⟩ := irqQuiet_only p i c; rw [h]
@[simp] theorem irqQuiet_lowPoison (p i : Nat) (c : Chip) : (irqQuiet p i c).lowPoison = c.lowPoison := by obtain ⟨_, _, h⟩ := irqQuiet_only p i c; rw [h]
@[simp] theorem irqQuiet_cores (p i : Nat) (c : Chip) : (irqQuiet p i c).cores = c.cores := by obtain ⟨_, _, h⟩ := irqQuiet_only p i c; rw [h]
@[simp] theorem irqQuiet_clusters (p i : Nat) (c : Chip) : (irqQuiet p i c).clusters = c.clusters := by obtain ⟨_, _, h⟩ := irqQuiet_only p i c; rw [h]
@[simp] theorem irqQuiet_lrtExp (p i : Nat) (c : Chip) : (irqQuiet p i c).lrtExp = c.lrtExp := by obtain ⟨_, _, h⟩ := irqQuiet_only p i c; rw [h]
@[simp] theorem irqQuiet_lrtShadow (p i : Nat) (c : Chip) : (irqQuiet p i c).lrtShadow = c.lrtShadow := by obtain ⟨_, _, h⟩ := irqQuiet_only p i c; rw [h]
@[simp] theorem irqQuiet_lrtGen (p i : Nat) (c : Chip) : (irqQuiet p i c).lrtGen = c.lrtGen := by obtain ⟨_, _, h⟩ := irqQuiet_only p i c; rw [h]
@[simp] theorem irqQuiet_pwus (p i : Nat) (c : Chip) : (irqQuiet p i c).pwus = c.pwus := by obtain ⟨_, _, h⟩ := irqQuiet_only p i c; rw [h]
@[simp] theorem irqQuiet_slots (p i : Nat) (c : Chip) : (irqQuiet p i c).slots = c.slots := by obtain ⟨_, _, h⟩ := irqQuiet_only p i c; rw [h]
@[simp] theorem irqQuiet_quar (p i : Nat) (c : Chip) : (irqQuiet p i c).quar = c.quar := by obtain ⟨_, _, h⟩ := irqQuiet_only p i c; rw [h]
@[simp] theorem irqQuiet_links (p i : Nat) (c : Chip) : (irqQuiet p i c).links = c.links := by obtain ⟨_, _, h⟩ := irqQuiet_only p i c; rw [h]
@[simp] theorem irqQuiet_colls (p i : Nat) (c : Chip) : (irqQuiet p i c).colls = c.colls := by obtain ⟨_, _, h⟩ := irqQuiet_only p i c; rw [h]
@[simp] theorem irqQuiet_rings (p i : Nat) (c : Chip) : (irqQuiet p i c).rings = c.rings := by obtain ⟨_, _, h⟩ := irqQuiet_only p i c; rw [h]
@[simp] theorem irqQuiet_joins (p i : Nat) (c : Chip) : (irqQuiet p i c).joins = c.joins := by obtain ⟨_, _, h⟩ := irqQuiet_only p i c; rw [h]
@[simp] theorem irqQuiet_rcuResult (p i : Nat) (c : Chip) : (irqQuiet p i c).rcuResult = c.rcuResult := by obtain ⟨_, _, h⟩ := irqQuiet_only p i c; rw [h]
@[simp] theorem irqQuiet_collResult (p i : Nat) (c : Chip) : (irqQuiet p i c).collResult = c.collResult := by obtain ⟨_, _, h⟩ := irqQuiet_only p i c; rw [h]
@[simp] theorem irqQuiet_detachLast (p i : Nat) (c : Chip) : (irqQuiet p i c).detachLast = c.detachLast := by obtain ⟨_, _, h⟩ := irqQuiet_only p i c; rw [h]
@[simp] theorem irqQuiet_rtActive (p i : Nat) (c : Chip) : (irqQuiet p i c).rtActive = c.rtActive := by obtain ⟨_, _, h⟩ := irqQuiet_only p i c; rw [h]
@[simp] theorem irqQuiet_rtArmed (p i : Nat) (c : Chip) : (irqQuiet p i c).rtArmed = c.rtArmed := by obtain ⟨_, _, h⟩ := irqQuiet_only p i c; rw [h]
@[simp] theorem irqQuiet_rtAt (p i : Nat) (c : Chip) : (irqQuiet p i c).rtAt = c.rtAt := by obtain ⟨_, _, h⟩ := irqQuiet_only p i c; rw [h]
@[simp] theorem irqQuiet_rtLate (p i : Nat) (c : Chip) : (irqQuiet p i c).rtLate = c.rtLate := by obtain ⟨_, _, h⟩ := irqQuiet_only p i c; rw [h]
@[simp] theorem irqQuiet_rtGen (p i : Nat) (c : Chip) : (irqQuiet p i c).rtGen = c.rtGen := by obtain ⟨_, _, h⟩ := irqQuiet_only p i c; rw [h]
@[simp] theorem irqQuiet_delivered (p i : Nat) (c : Chip) : (irqQuiet p i c).delivered = c.delivered := by obtain ⟨_, _, h⟩ := irqQuiet_only p i c; rw [h]
@[simp] theorem irqQuiet_pktOrd (p i : Nat) (c : Chip) : (irqQuiet p i c).pktOrd = c.pktOrd := by obtain ⟨_, _, h⟩ := irqQuiet_only p i c; rw [h]
@[simp] theorem irqQuiet_straps (p i : Nat) (c : Chip) : (irqQuiet p i c).straps = c.straps := by obtain ⟨_, _, h⟩ := irqQuiet_only p i c; rw [h]
@[simp] theorem irqQuiet_posId (p i : Nat) (c : Chip) : (irqQuiet p i c).posId = c.posId := by obtain ⟨_, _, h⟩ := irqQuiet_only p i c; rw [h]
@[simp] theorem irqQuiet_mst (p i : Nat) (c : Chip) : (irqQuiet p i c).mst = c.mst := by obtain ⟨_, _, h⟩ := irqQuiet_only p i c; rw [h]
@[simp] theorem irqQuiet_cad (p i : Nat) (c : Chip) : (irqQuiet p i c).cad = c.cad := by obtain ⟨_, _, h⟩ := irqQuiet_only p i c; rw [h]
@[simp] theorem irqQuiet_mtm (p i : Nat) (c : Chip) : (irqQuiet p i c).mtm = c.mtm := by obtain ⟨_, _, h⟩ := irqQuiet_only p i c; rw [h]
@[simp] theorem irqQuiet_gmcs (p i : Nat) (c : Chip) : (irqQuiet p i c).gmcs = c.gmcs := by obtain ⟨_, _, h⟩ := irqQuiet_only p i c; rw [h]
@[simp] theorem irqQuiet_t2 (p i : Nat) (c : Chip) : (irqQuiet p i c).t2 = c.t2 := by obtain ⟨_, _, h⟩ := irqQuiet_only p i c; rw [h]
@[simp] theorem irqQuiet_cxl (p i : Nat) (c : Chip) : (irqQuiet p i c).cxl = c.cxl := by obtain ⟨_, _, h⟩ := irqQuiet_only p i c; rw [h]
@[simp] theorem irqQuiet_pwr (p i : Nat) (c : Chip) : (irqQuiet p i c).pwr = c.pwr := by obtain ⟨_, _, h⟩ := irqQuiet_only p i c; rw [h]
@[simp] theorem irqQuiet_flash (p i : Nat) (c : Chip) : (irqQuiet p i c).flash = c.flash := by obtain ⟨_, _, h⟩ := irqQuiet_only p i c; rw [h]
@[simp] theorem irqQuiet_otp (p i : Nat) (c : Chip) : (irqQuiet p i c).otp = c.otp := by obtain ⟨_, _, h⟩ := irqQuiet_only p i c; rw [h]
@[simp] theorem irqQuiet_sec (p i : Nat) (c : Chip) : (irqQuiet p i c).sec = c.sec := by obtain ⟨_, _, h⟩ := irqQuiet_only p i c; rw [h]
@[simp] theorem irqQuiet_tam (p i : Nat) (c : Chip) : (irqQuiet p i c).tam = c.tam := by obtain ⟨_, _, h⟩ := irqQuiet_only p i c; rw [h]
@[simp] theorem irqQuiet_plans (p i : Nat) (c : Chip) : (irqQuiet p i c).plans = c.plans := by obtain ⟨_, _, h⟩ := irqQuiet_only p i c; rw [h]
@[simp] theorem irqQuiet_rolls (p i : Nat) (c : Chip) : (irqQuiet p i c).rolls = c.rolls := by obtain ⟨_, _, h⟩ := irqQuiet_only p i c; rw [h]
@[simp] theorem irqQuiet_contribs (p i : Nat) (c : Chip) : (irqQuiet p i c).contribs = c.contribs := by obtain ⟨_, _, h⟩ := irqQuiet_only p i c; rw [h]
@[simp] theorem irqQuiet_provBufs (p i : Nat) (c : Chip) : (irqQuiet p i c).provBufs = c.provBufs := by obtain ⟨_, _, h⟩ := irqQuiet_only p i c; rw [h]
@[simp] theorem irqQuiet_busy (p i : Nat) (c : Chip) : (irqQuiet p i c).busy = c.busy := by obtain ⟨_, _, h⟩ := irqQuiet_only p i c; rw [h]
@[simp] theorem irqQuiet_wiped (p i : Nat) (c : Chip) : (irqQuiet p i c).wiped = c.wiped := by obtain ⟨_, _, h⟩ := irqQuiet_only p i c; rw [h]
@[simp] theorem irqQuiet_draw (p i : Nat) (c : Chip) : (irqQuiet p i c).draw = c.draw := by obtain ⟨_, _, h⟩ := irqQuiet_only p i c; rw [h]
@[simp] theorem irqQuiet_beat_of (p i : Nat) (c : Chip) : (irqQuiet p i c).beat = c.beat := by obtain ⟨_, _, h⟩ := irqQuiet_only p i c; rw [h]; rfl
@[simp] theorem irqQuiet_lc_of (p i : Nat) (c : Chip) : (irqQuiet p i c).lc = c.lc := by obtain ⟨_, _, h⟩ := irqQuiet_only p i c; rw [h]; rfl
@[simp] theorem irqQuiet_core_of (p i : Nat) (c : Chip) (u : Nat) : (irqQuiet p i c).core u = c.core u := by obtain ⟨_, _, h⟩ := irqQuiet_only p i c; rw [h]; rfl
@[simp] theorem irqQuiet_clus_of (p i : Nat) (c : Chip) (u : Nat) : (irqQuiet p i c).clus u = c.clus u := by obtain ⟨_, _, h⟩ := irqQuiet_only p i c; rw [h]; rfl
@[simp] theorem irqQuiet_pwu_of (p i : Nat) (c : Chip) (u : Nat) : (irqQuiet p i c).pwu u = c.pwu u := by obtain ⟨_, _, h⟩ := irqQuiet_only p i c; rw [h]; rfl
@[simp] theorem irqQuiet_slot_of (p i : Nat) (c : Chip) (u : Nat) : (irqQuiet p i c).slot u = c.slot u := by obtain ⟨_, _, h⟩ := irqQuiet_only p i c; rw [h]; rfl
@[simp] theorem irqQuiet_link_of (p i : Nat) (c : Chip) (u : Nat) : (irqQuiet p i c).link u = c.link u := by obtain ⟨_, _, h⟩ := irqQuiet_only p i c; rw [h]; rfl
@[simp] theorem irqQuiet_gmc_of (p i : Nat) (c : Chip) (u : Nat) : (irqQuiet p i c).gmc u = c.gmc u := by obtain ⟨_, _, h⟩ := irqQuiet_only p i c; rw [h]; rfl
@[simp] theorem irqQuiet_t2s_of (p i : Nat) (c : Chip) (u : Nat) : (irqQuiet p i c).t2s u = c.t2s u := by obtain ⟨_, _, h⟩ := irqQuiet_only p i c; rw [h]; rfl
@[simp] theorem irqQuiet_cxlp_of (p i : Nat) (c : Chip) (u : Nat) : (irqQuiet p i c).cxlp u = c.cxlp u := by obtain ⟨_, _, h⟩ := irqQuiet_only p i c; rw [h]; rfl
@[simp] theorem irqQuiet_loan_of (p i : Nat) (c : Chip) (u : Nat) : (irqQuiet p i c).loan u = c.loan u := by obtain ⟨_, _, h⟩ := irqQuiet_only p i c; rw [h]; rfl
@[simp] theorem irqQuiet_coll_of (p i : Nat) (c : Chip) (u : Nat) : (irqQuiet p i c).coll u = c.coll u := by obtain ⟨_, _, h⟩ := irqQuiet_only p i c; rw [h]; rfl
@[simp] theorem irqQuiet_ring_of (p i : Nat) (c : Chip) (u : Nat) : (irqQuiet p i c).ring u = c.ring u := by obtain ⟨_, _, h⟩ := irqQuiet_only p i c; rw [h]; rfl
@[simp] theorem irqQuiet_byteAt_of (p i : Nat) (c : Chip) (x : Nat) : (irqQuiet p i c).byteAt x = c.byteAt x := by obtain ⟨_, _, h⟩ := irqQuiet_only p i c; rw [h]; rfl
@[simp] theorem irqQuiet_ctr_of (p i : Nat) (c : Chip) (u v : Nat) : (irqQuiet p i c).ctr u v = c.ctr u v := by obtain ⟨_, _, h⟩ := irqQuiet_only p i c; rw [h]; rfl
@[simp] theorem irqQuiet_poisonIn_of (p i : Nat) (c : Chip) (x y : Nat) : (irqQuiet p i c).poisonIn x y = c.poisonIn x y := by obtain ⟨_, _, h⟩ := irqQuiet_only p i c; rw [h]; rfl

/-! ### event -/

@[simp] theorem event_phase (k p : Nat) (l : List Nat) (c : Chip) : (event k p l c).phase = c.phase := by obtain ⟨_, _, h⟩ := event_only k p l c; rw [h]
@[simp] theorem event_pairLatch (k p : Nat) (l : List Nat) (c : Chip) : (event k p l c).pairLatch = c.pairLatch := by obtain ⟨_, _, h⟩ := event_only k p l c; rw [h]
@[simp] theorem event_pairStage (k p : Nat) (l : List Nat) (c : Chip) : (event k p l c).pairStage = c.pairStage := by obtain ⟨_, _, h⟩ := event_only k p l c; rw [h]
@[simp] theorem event_answer (k p : Nat) (l : List Nat) (c : Chip) : (event k p l c).answer = c.answer := by obtain ⟨_, _, h⟩ := event_only k p l c; rw [h]
@[simp] theorem event_mem (k p : Nat) (l : List Nat) (c : Chip) : (event k p l c).mem = c.mem := by obtain ⟨_, _, h⟩ := event_only k p l c; rw [h]
@[simp] theorem event_lower (k p : Nat) (l : List Nat) (c : Chip) : (event k p l c).lower = c.lower := by obtain ⟨_, _, h⟩ := event_only k p l c; rw [h]
@[simp] theorem event_poison (k p : Nat) (l : List Nat) (c : Chip) : (event k p l c).poison = c.poison := by obtain ⟨_, _, h⟩ := event_only k p l c; rw [h]
@[simp] theorem event_lowPoison (k p : Nat) (l : List Nat) (c : Chip) : (event k p l c).lowPoison = c.lowPoison := by obtain ⟨_, _, h⟩ := event_only k p l c; rw [h]
@[simp] theorem event_cores (k p : Nat) (l : List Nat) (c : Chip) : (event k p l c).cores = c.cores := by obtain ⟨_, _, h⟩ := event_only k p l c; rw [h]
@[simp] theorem event_clusters (k p : Nat) (l : List Nat) (c : Chip) : (event k p l c).clusters = c.clusters := by obtain ⟨_, _, h⟩ := event_only k p l c; rw [h]
@[simp] theorem event_lrtExp (k p : Nat) (l : List Nat) (c : Chip) : (event k p l c).lrtExp = c.lrtExp := by obtain ⟨_, _, h⟩ := event_only k p l c; rw [h]
@[simp] theorem event_lrtShadow (k p : Nat) (l : List Nat) (c : Chip) : (event k p l c).lrtShadow = c.lrtShadow := by obtain ⟨_, _, h⟩ := event_only k p l c; rw [h]
@[simp] theorem event_lrtGen (k p : Nat) (l : List Nat) (c : Chip) : (event k p l c).lrtGen = c.lrtGen := by obtain ⟨_, _, h⟩ := event_only k p l c; rw [h]
@[simp] theorem event_pwus (k p : Nat) (l : List Nat) (c : Chip) : (event k p l c).pwus = c.pwus := by obtain ⟨_, _, h⟩ := event_only k p l c; rw [h]
@[simp] theorem event_slots (k p : Nat) (l : List Nat) (c : Chip) : (event k p l c).slots = c.slots := by obtain ⟨_, _, h⟩ := event_only k p l c; rw [h]
@[simp] theorem event_quar (k p : Nat) (l : List Nat) (c : Chip) : (event k p l c).quar = c.quar := by obtain ⟨_, _, h⟩ := event_only k p l c; rw [h]
@[simp] theorem event_links (k p : Nat) (l : List Nat) (c : Chip) : (event k p l c).links = c.links := by obtain ⟨_, _, h⟩ := event_only k p l c; rw [h]
@[simp] theorem event_colls (k p : Nat) (l : List Nat) (c : Chip) : (event k p l c).colls = c.colls := by obtain ⟨_, _, h⟩ := event_only k p l c; rw [h]
@[simp] theorem event_rings (k p : Nat) (l : List Nat) (c : Chip) : (event k p l c).rings = c.rings := by obtain ⟨_, _, h⟩ := event_only k p l c; rw [h]
@[simp] theorem event_joins (k p : Nat) (l : List Nat) (c : Chip) : (event k p l c).joins = c.joins := by obtain ⟨_, _, h⟩ := event_only k p l c; rw [h]
@[simp] theorem event_rcuResult (k p : Nat) (l : List Nat) (c : Chip) : (event k p l c).rcuResult = c.rcuResult := by obtain ⟨_, _, h⟩ := event_only k p l c; rw [h]
@[simp] theorem event_collResult (k p : Nat) (l : List Nat) (c : Chip) : (event k p l c).collResult = c.collResult := by obtain ⟨_, _, h⟩ := event_only k p l c; rw [h]
@[simp] theorem event_detachLast (k p : Nat) (l : List Nat) (c : Chip) : (event k p l c).detachLast = c.detachLast := by obtain ⟨_, _, h⟩ := event_only k p l c; rw [h]
@[simp] theorem event_rtActive (k p : Nat) (l : List Nat) (c : Chip) : (event k p l c).rtActive = c.rtActive := by obtain ⟨_, _, h⟩ := event_only k p l c; rw [h]
@[simp] theorem event_rtArmed (k p : Nat) (l : List Nat) (c : Chip) : (event k p l c).rtArmed = c.rtArmed := by obtain ⟨_, _, h⟩ := event_only k p l c; rw [h]
@[simp] theorem event_rtAt (k p : Nat) (l : List Nat) (c : Chip) : (event k p l c).rtAt = c.rtAt := by obtain ⟨_, _, h⟩ := event_only k p l c; rw [h]
@[simp] theorem event_rtLate (k p : Nat) (l : List Nat) (c : Chip) : (event k p l c).rtLate = c.rtLate := by obtain ⟨_, _, h⟩ := event_only k p l c; rw [h]
@[simp] theorem event_rtGen (k p : Nat) (l : List Nat) (c : Chip) : (event k p l c).rtGen = c.rtGen := by obtain ⟨_, _, h⟩ := event_only k p l c; rw [h]
@[simp] theorem event_delivered (k p : Nat) (l : List Nat) (c : Chip) : (event k p l c).delivered = c.delivered := by obtain ⟨_, _, h⟩ := event_only k p l c; rw [h]
@[simp] theorem event_pktOrd (k p : Nat) (l : List Nat) (c : Chip) : (event k p l c).pktOrd = c.pktOrd := by obtain ⟨_, _, h⟩ := event_only k p l c; rw [h]
@[simp] theorem event_straps (k p : Nat) (l : List Nat) (c : Chip) : (event k p l c).straps = c.straps := by obtain ⟨_, _, h⟩ := event_only k p l c; rw [h]
@[simp] theorem event_posId (k p : Nat) (l : List Nat) (c : Chip) : (event k p l c).posId = c.posId := by obtain ⟨_, _, h⟩ := event_only k p l c; rw [h]
@[simp] theorem event_mst (k p : Nat) (l : List Nat) (c : Chip) : (event k p l c).mst = c.mst := by obtain ⟨_, _, h⟩ := event_only k p l c; rw [h]
@[simp] theorem event_cad (k p : Nat) (l : List Nat) (c : Chip) : (event k p l c).cad = c.cad := by obtain ⟨_, _, h⟩ := event_only k p l c; rw [h]
@[simp] theorem event_mtm (k p : Nat) (l : List Nat) (c : Chip) : (event k p l c).mtm = c.mtm := by obtain ⟨_, _, h⟩ := event_only k p l c; rw [h]
@[simp] theorem event_gmcs (k p : Nat) (l : List Nat) (c : Chip) : (event k p l c).gmcs = c.gmcs := by obtain ⟨_, _, h⟩ := event_only k p l c; rw [h]
@[simp] theorem event_t2 (k p : Nat) (l : List Nat) (c : Chip) : (event k p l c).t2 = c.t2 := by obtain ⟨_, _, h⟩ := event_only k p l c; rw [h]
@[simp] theorem event_cxl (k p : Nat) (l : List Nat) (c : Chip) : (event k p l c).cxl = c.cxl := by obtain ⟨_, _, h⟩ := event_only k p l c; rw [h]
@[simp] theorem event_pwr (k p : Nat) (l : List Nat) (c : Chip) : (event k p l c).pwr = c.pwr := by obtain ⟨_, _, h⟩ := event_only k p l c; rw [h]
@[simp] theorem event_flash (k p : Nat) (l : List Nat) (c : Chip) : (event k p l c).flash = c.flash := by obtain ⟨_, _, h⟩ := event_only k p l c; rw [h]
@[simp] theorem event_otp (k p : Nat) (l : List Nat) (c : Chip) : (event k p l c).otp = c.otp := by obtain ⟨_, _, h⟩ := event_only k p l c; rw [h]
@[simp] theorem event_sec (k p : Nat) (l : List Nat) (c : Chip) : (event k p l c).sec = c.sec := by obtain ⟨_, _, h⟩ := event_only k p l c; rw [h]
@[simp] theorem event_tam (k p : Nat) (l : List Nat) (c : Chip) : (event k p l c).tam = c.tam := by obtain ⟨_, _, h⟩ := event_only k p l c; rw [h]
@[simp] theorem event_plans (k p : Nat) (l : List Nat) (c : Chip) : (event k p l c).plans = c.plans := by obtain ⟨_, _, h⟩ := event_only k p l c; rw [h]
@[simp] theorem event_rolls (k p : Nat) (l : List Nat) (c : Chip) : (event k p l c).rolls = c.rolls := by obtain ⟨_, _, h⟩ := event_only k p l c; rw [h]
@[simp] theorem event_contribs (k p : Nat) (l : List Nat) (c : Chip) : (event k p l c).contribs = c.contribs := by obtain ⟨_, _, h⟩ := event_only k p l c; rw [h]
@[simp] theorem event_provBufs (k p : Nat) (l : List Nat) (c : Chip) : (event k p l c).provBufs = c.provBufs := by obtain ⟨_, _, h⟩ := event_only k p l c; rw [h]
@[simp] theorem event_busy (k p : Nat) (l : List Nat) (c : Chip) : (event k p l c).busy = c.busy := by obtain ⟨_, _, h⟩ := event_only k p l c; rw [h]
@[simp] theorem event_wiped (k p : Nat) (l : List Nat) (c : Chip) : (event k p l c).wiped = c.wiped := by obtain ⟨_, _, h⟩ := event_only k p l c; rw [h]
@[simp] theorem event_draw (k p : Nat) (l : List Nat) (c : Chip) : (event k p l c).draw = c.draw := by obtain ⟨_, _, h⟩ := event_only k p l c; rw [h]
@[simp] theorem event_beat_of (k p : Nat) (l : List Nat) (c : Chip) : (event k p l c).beat = c.beat := by obtain ⟨_, _, h⟩ := event_only k p l c; rw [h]; rfl
@[simp] theorem event_lc_of (k p : Nat) (l : List Nat) (c : Chip) : (event k p l c).lc = c.lc := by obtain ⟨_, _, h⟩ := event_only k p l c; rw [h]; rfl
@[simp] theorem event_core_of (k p : Nat) (l : List Nat) (c : Chip) (u : Nat) : (event k p l c).core u = c.core u := by obtain ⟨_, _, h⟩ := event_only k p l c; rw [h]; rfl
@[simp] theorem event_clus_of (k p : Nat) (l : List Nat) (c : Chip) (u : Nat) : (event k p l c).clus u = c.clus u := by obtain ⟨_, _, h⟩ := event_only k p l c; rw [h]; rfl
@[simp] theorem event_pwu_of (k p : Nat) (l : List Nat) (c : Chip) (u : Nat) : (event k p l c).pwu u = c.pwu u := by obtain ⟨_, _, h⟩ := event_only k p l c; rw [h]; rfl
@[simp] theorem event_slot_of (k p : Nat) (l : List Nat) (c : Chip) (u : Nat) : (event k p l c).slot u = c.slot u := by obtain ⟨_, _, h⟩ := event_only k p l c; rw [h]; rfl
@[simp] theorem event_link_of (k p : Nat) (l : List Nat) (c : Chip) (u : Nat) : (event k p l c).link u = c.link u := by obtain ⟨_, _, h⟩ := event_only k p l c; rw [h]; rfl
@[simp] theorem event_gmc_of (k p : Nat) (l : List Nat) (c : Chip) (u : Nat) : (event k p l c).gmc u = c.gmc u := by obtain ⟨_, _, h⟩ := event_only k p l c; rw [h]; rfl
@[simp] theorem event_t2s_of (k p : Nat) (l : List Nat) (c : Chip) (u : Nat) : (event k p l c).t2s u = c.t2s u := by obtain ⟨_, _, h⟩ := event_only k p l c; rw [h]; rfl
@[simp] theorem event_cxlp_of (k p : Nat) (l : List Nat) (c : Chip) (u : Nat) : (event k p l c).cxlp u = c.cxlp u := by obtain ⟨_, _, h⟩ := event_only k p l c; rw [h]; rfl
@[simp] theorem event_loan_of (k p : Nat) (l : List Nat) (c : Chip) (u : Nat) : (event k p l c).loan u = c.loan u := by obtain ⟨_, _, h⟩ := event_only k p l c; rw [h]; rfl
@[simp] theorem event_coll_of (k p : Nat) (l : List Nat) (c : Chip) (u : Nat) : (event k p l c).coll u = c.coll u := by obtain ⟨_, _, h⟩ := event_only k p l c; rw [h]; rfl
@[simp] theorem event_ring_of (k p : Nat) (l : List Nat) (c : Chip) (u : Nat) : (event k p l c).ring u = c.ring u := by obtain ⟨_, _, h⟩ := event_only k p l c; rw [h]; rfl
@[simp] theorem event_byteAt_of (k p : Nat) (l : List Nat) (c : Chip) (x : Nat) : (event k p l c).byteAt x = c.byteAt x := by obtain ⟨_, _, h⟩ := event_only k p l c; rw [h]; rfl
@[simp] theorem event_ctr_of (k p : Nat) (l : List Nat) (c : Chip) (u v : Nat) : (event k p l c).ctr u v = c.ctr u v := by obtain ⟨_, _, h⟩ := event_only k p l c; rw [h]; rfl
@[simp] theorem event_poisonIn_of (k p : Nat) (l : List Nat) (c : Chip) (x y : Nat) : (event k p l c).poisonIn x y = c.poisonIn x y := by obtain ⟨_, _, h⟩ := event_only k p l c; rw [h]; rfl

/-! ### sendFrame -/

@[simp] theorem sendFrame_phase (f : Frame) (c : Chip) : (sendFrame f c).phase = c.phase := by obtain ⟨_, _, h⟩ := sendFrame_only f c; rw [h]
@[simp] theorem sendFrame_pairLatch (f : Frame) (c : Chip) : (sendFrame f c).pairLatch = c.pairLatch := by obtain ⟨_, _, h⟩ := sendFrame_only f c; rw [h]
@[simp] theorem sendFrame_pairStage (f : Frame) (c : Chip) : (sendFrame f c).pairStage = c.pairStage := by obtain ⟨_, _, h⟩ := sendFrame_only f c; rw [h]
@[simp] theorem sendFrame_answer (f : Frame) (c : Chip) : (sendFrame f c).answer = c.answer := by obtain ⟨_, _, h⟩ := sendFrame_only f c; rw [h]
@[simp] theorem sendFrame_mem (f : Frame) (c : Chip) : (sendFrame f c).mem = c.mem := by obtain ⟨_, _, h⟩ := sendFrame_only f c; rw [h]
@[simp] theorem sendFrame_lower (f : Frame) (c : Chip) : (sendFrame f c).lower = c.lower := by obtain ⟨_, _, h⟩ := sendFrame_only f c; rw [h]
@[simp] theorem sendFrame_poison (f : Frame) (c : Chip) : (sendFrame f c).poison = c.poison := by obtain ⟨_, _, h⟩ := sendFrame_only f c; rw [h]
@[simp] theorem sendFrame_lowPoison (f : Frame) (c : Chip) : (sendFrame f c).lowPoison = c.lowPoison := by obtain ⟨_, _, h⟩ := sendFrame_only f c; rw [h]
@[simp] theorem sendFrame_cores (f : Frame) (c : Chip) : (sendFrame f c).cores = c.cores := by obtain ⟨_, _, h⟩ := sendFrame_only f c; rw [h]
@[simp] theorem sendFrame_clusters (f : Frame) (c : Chip) : (sendFrame f c).clusters = c.clusters := by obtain ⟨_, _, h⟩ := sendFrame_only f c; rw [h]
@[simp] theorem sendFrame_lrtExp (f : Frame) (c : Chip) : (sendFrame f c).lrtExp = c.lrtExp := by obtain ⟨_, _, h⟩ := sendFrame_only f c; rw [h]
@[simp] theorem sendFrame_lrtShadow (f : Frame) (c : Chip) : (sendFrame f c).lrtShadow = c.lrtShadow := by obtain ⟨_, _, h⟩ := sendFrame_only f c; rw [h]
@[simp] theorem sendFrame_lrtGen (f : Frame) (c : Chip) : (sendFrame f c).lrtGen = c.lrtGen := by obtain ⟨_, _, h⟩ := sendFrame_only f c; rw [h]
@[simp] theorem sendFrame_pwus (f : Frame) (c : Chip) : (sendFrame f c).pwus = c.pwus := by obtain ⟨_, _, h⟩ := sendFrame_only f c; rw [h]
@[simp] theorem sendFrame_slots (f : Frame) (c : Chip) : (sendFrame f c).slots = c.slots := by obtain ⟨_, _, h⟩ := sendFrame_only f c; rw [h]
@[simp] theorem sendFrame_quar (f : Frame) (c : Chip) : (sendFrame f c).quar = c.quar := by obtain ⟨_, _, h⟩ := sendFrame_only f c; rw [h]
@[simp] theorem sendFrame_links (f : Frame) (c : Chip) : (sendFrame f c).links = c.links := by obtain ⟨_, _, h⟩ := sendFrame_only f c; rw [h]
@[simp] theorem sendFrame_colls (f : Frame) (c : Chip) : (sendFrame f c).colls = c.colls := by obtain ⟨_, _, h⟩ := sendFrame_only f c; rw [h]
@[simp] theorem sendFrame_rings (f : Frame) (c : Chip) : (sendFrame f c).rings = c.rings := by obtain ⟨_, _, h⟩ := sendFrame_only f c; rw [h]
@[simp] theorem sendFrame_joins (f : Frame) (c : Chip) : (sendFrame f c).joins = c.joins := by obtain ⟨_, _, h⟩ := sendFrame_only f c; rw [h]
@[simp] theorem sendFrame_rcuResult (f : Frame) (c : Chip) : (sendFrame f c).rcuResult = c.rcuResult := by obtain ⟨_, _, h⟩ := sendFrame_only f c; rw [h]
@[simp] theorem sendFrame_collResult (f : Frame) (c : Chip) : (sendFrame f c).collResult = c.collResult := by obtain ⟨_, _, h⟩ := sendFrame_only f c; rw [h]
@[simp] theorem sendFrame_detachLast (f : Frame) (c : Chip) : (sendFrame f c).detachLast = c.detachLast := by obtain ⟨_, _, h⟩ := sendFrame_only f c; rw [h]
@[simp] theorem sendFrame_rtActive (f : Frame) (c : Chip) : (sendFrame f c).rtActive = c.rtActive := by obtain ⟨_, _, h⟩ := sendFrame_only f c; rw [h]
@[simp] theorem sendFrame_rtArmed (f : Frame) (c : Chip) : (sendFrame f c).rtArmed = c.rtArmed := by obtain ⟨_, _, h⟩ := sendFrame_only f c; rw [h]
@[simp] theorem sendFrame_rtAt (f : Frame) (c : Chip) : (sendFrame f c).rtAt = c.rtAt := by obtain ⟨_, _, h⟩ := sendFrame_only f c; rw [h]
@[simp] theorem sendFrame_rtLate (f : Frame) (c : Chip) : (sendFrame f c).rtLate = c.rtLate := by obtain ⟨_, _, h⟩ := sendFrame_only f c; rw [h]
@[simp] theorem sendFrame_rtGen (f : Frame) (c : Chip) : (sendFrame f c).rtGen = c.rtGen := by obtain ⟨_, _, h⟩ := sendFrame_only f c; rw [h]
@[simp] theorem sendFrame_delivered (f : Frame) (c : Chip) : (sendFrame f c).delivered = c.delivered := by obtain ⟨_, _, h⟩ := sendFrame_only f c; rw [h]
@[simp] theorem sendFrame_pktOrd (f : Frame) (c : Chip) : (sendFrame f c).pktOrd = c.pktOrd := by obtain ⟨_, _, h⟩ := sendFrame_only f c; rw [h]
@[simp] theorem sendFrame_straps (f : Frame) (c : Chip) : (sendFrame f c).straps = c.straps := by obtain ⟨_, _, h⟩ := sendFrame_only f c; rw [h]
@[simp] theorem sendFrame_posId (f : Frame) (c : Chip) : (sendFrame f c).posId = c.posId := by obtain ⟨_, _, h⟩ := sendFrame_only f c; rw [h]
@[simp] theorem sendFrame_mst (f : Frame) (c : Chip) : (sendFrame f c).mst = c.mst := by obtain ⟨_, _, h⟩ := sendFrame_only f c; rw [h]
@[simp] theorem sendFrame_cad (f : Frame) (c : Chip) : (sendFrame f c).cad = c.cad := by obtain ⟨_, _, h⟩ := sendFrame_only f c; rw [h]
@[simp] theorem sendFrame_mtm (f : Frame) (c : Chip) : (sendFrame f c).mtm = c.mtm := by obtain ⟨_, _, h⟩ := sendFrame_only f c; rw [h]
@[simp] theorem sendFrame_gmcs (f : Frame) (c : Chip) : (sendFrame f c).gmcs = c.gmcs := by obtain ⟨_, _, h⟩ := sendFrame_only f c; rw [h]
@[simp] theorem sendFrame_t2 (f : Frame) (c : Chip) : (sendFrame f c).t2 = c.t2 := by obtain ⟨_, _, h⟩ := sendFrame_only f c; rw [h]
@[simp] theorem sendFrame_cxl (f : Frame) (c : Chip) : (sendFrame f c).cxl = c.cxl := by obtain ⟨_, _, h⟩ := sendFrame_only f c; rw [h]
@[simp] theorem sendFrame_pwr (f : Frame) (c : Chip) : (sendFrame f c).pwr = c.pwr := by obtain ⟨_, _, h⟩ := sendFrame_only f c; rw [h]
@[simp] theorem sendFrame_flash (f : Frame) (c : Chip) : (sendFrame f c).flash = c.flash := by obtain ⟨_, _, h⟩ := sendFrame_only f c; rw [h]
@[simp] theorem sendFrame_otp (f : Frame) (c : Chip) : (sendFrame f c).otp = c.otp := by obtain ⟨_, _, h⟩ := sendFrame_only f c; rw [h]
@[simp] theorem sendFrame_sec (f : Frame) (c : Chip) : (sendFrame f c).sec = c.sec := by obtain ⟨_, _, h⟩ := sendFrame_only f c; rw [h]
@[simp] theorem sendFrame_tam (f : Frame) (c : Chip) : (sendFrame f c).tam = c.tam := by obtain ⟨_, _, h⟩ := sendFrame_only f c; rw [h]
@[simp] theorem sendFrame_plans (f : Frame) (c : Chip) : (sendFrame f c).plans = c.plans := by obtain ⟨_, _, h⟩ := sendFrame_only f c; rw [h]
@[simp] theorem sendFrame_rolls (f : Frame) (c : Chip) : (sendFrame f c).rolls = c.rolls := by obtain ⟨_, _, h⟩ := sendFrame_only f c; rw [h]
@[simp] theorem sendFrame_contribs (f : Frame) (c : Chip) : (sendFrame f c).contribs = c.contribs := by obtain ⟨_, _, h⟩ := sendFrame_only f c; rw [h]
@[simp] theorem sendFrame_provBufs (f : Frame) (c : Chip) : (sendFrame f c).provBufs = c.provBufs := by obtain ⟨_, _, h⟩ := sendFrame_only f c; rw [h]
@[simp] theorem sendFrame_busy (f : Frame) (c : Chip) : (sendFrame f c).busy = c.busy := by obtain ⟨_, _, h⟩ := sendFrame_only f c; rw [h]
@[simp] theorem sendFrame_wiped (f : Frame) (c : Chip) : (sendFrame f c).wiped = c.wiped := by obtain ⟨_, _, h⟩ := sendFrame_only f c; rw [h]
@[simp] theorem sendFrame_draw (f : Frame) (c : Chip) : (sendFrame f c).draw = c.draw := by obtain ⟨_, _, h⟩ := sendFrame_only f c; rw [h]
@[simp] theorem sendFrame_beat_of (f : Frame) (c : Chip) : (sendFrame f c).beat = c.beat := by obtain ⟨_, _, h⟩ := sendFrame_only f c; rw [h]; rfl
@[simp] theorem sendFrame_lc_of (f : Frame) (c : Chip) : (sendFrame f c).lc = c.lc := by obtain ⟨_, _, h⟩ := sendFrame_only f c; rw [h]; rfl
@[simp] theorem sendFrame_core_of (f : Frame) (c : Chip) (u : Nat) : (sendFrame f c).core u = c.core u := by obtain ⟨_, _, h⟩ := sendFrame_only f c; rw [h]; rfl
@[simp] theorem sendFrame_clus_of (f : Frame) (c : Chip) (u : Nat) : (sendFrame f c).clus u = c.clus u := by obtain ⟨_, _, h⟩ := sendFrame_only f c; rw [h]; rfl
@[simp] theorem sendFrame_pwu_of (f : Frame) (c : Chip) (u : Nat) : (sendFrame f c).pwu u = c.pwu u := by obtain ⟨_, _, h⟩ := sendFrame_only f c; rw [h]; rfl
@[simp] theorem sendFrame_slot_of (f : Frame) (c : Chip) (u : Nat) : (sendFrame f c).slot u = c.slot u := by obtain ⟨_, _, h⟩ := sendFrame_only f c; rw [h]; rfl
@[simp] theorem sendFrame_link_of (f : Frame) (c : Chip) (u : Nat) : (sendFrame f c).link u = c.link u := by obtain ⟨_, _, h⟩ := sendFrame_only f c; rw [h]; rfl
@[simp] theorem sendFrame_gmc_of (f : Frame) (c : Chip) (u : Nat) : (sendFrame f c).gmc u = c.gmc u := by obtain ⟨_, _, h⟩ := sendFrame_only f c; rw [h]; rfl
@[simp] theorem sendFrame_t2s_of (f : Frame) (c : Chip) (u : Nat) : (sendFrame f c).t2s u = c.t2s u := by obtain ⟨_, _, h⟩ := sendFrame_only f c; rw [h]; rfl
@[simp] theorem sendFrame_cxlp_of (f : Frame) (c : Chip) (u : Nat) : (sendFrame f c).cxlp u = c.cxlp u := by obtain ⟨_, _, h⟩ := sendFrame_only f c; rw [h]; rfl
@[simp] theorem sendFrame_loan_of (f : Frame) (c : Chip) (u : Nat) : (sendFrame f c).loan u = c.loan u := by obtain ⟨_, _, h⟩ := sendFrame_only f c; rw [h]; rfl
@[simp] theorem sendFrame_coll_of (f : Frame) (c : Chip) (u : Nat) : (sendFrame f c).coll u = c.coll u := by obtain ⟨_, _, h⟩ := sendFrame_only f c; rw [h]; rfl
@[simp] theorem sendFrame_ring_of (f : Frame) (c : Chip) (u : Nat) : (sendFrame f c).ring u = c.ring u := by obtain ⟨_, _, h⟩ := sendFrame_only f c; rw [h]; rfl
@[simp] theorem sendFrame_byteAt_of (f : Frame) (c : Chip) (x : Nat) : (sendFrame f c).byteAt x = c.byteAt x := by obtain ⟨_, _, h⟩ := sendFrame_only f c; rw [h]; rfl
@[simp] theorem sendFrame_ctr_of (f : Frame) (c : Chip) (u v : Nat) : (sendFrame f c).ctr u v = c.ctr u v := by obtain ⟨_, _, h⟩ := sendFrame_only f c; rw [h]; rfl
@[simp] theorem sendFrame_poisonIn_of (f : Frame) (c : Chip) (x y : Nat) : (sendFrame f c).poisonIn x y = c.poisonIn x y := by obtain ⟨_, _, h⟩ := sendFrame_only f c; rw [h]; rfl

/-! ### ce -/

@[simp] theorem ce_phase (p k d0 d1 : Nat) (c : Chip) : (ce p k d0 d1 c).phase = c.phase := by obtain ⟨_, _, _, h⟩ := ce_only p k d0 d1 c; rw [h]
@[simp] theorem ce_pairLatch (p k d0 d1 : Nat) (c : Chip) : (ce p k d0 d1 c).pairLatch = c.pairLatch := by obtain ⟨_, _, _, h⟩ := ce_only p k d0 d1 c; rw [h]
@[simp] theorem ce_pairStage (p k d0 d1 : Nat) (c : Chip) : (ce p k d0 d1 c).pairStage = c.pairStage := by obtain ⟨_, _, _, h⟩ := ce_only p k d0 d1 c; rw [h]
@[simp] theorem ce_answer (p k d0 d1 : Nat) (c : Chip) : (ce p k d0 d1 c).answer = c.answer := by obtain ⟨_, _, _, h⟩ := ce_only p k d0 d1 c; rw [h]
@[simp] theorem ce_mem (p k d0 d1 : Nat) (c : Chip) : (ce p k d0 d1 c).mem = c.mem := by obtain ⟨_, _, _, h⟩ := ce_only p k d0 d1 c; rw [h]
@[simp] theorem ce_lower (p k d0 d1 : Nat) (c : Chip) : (ce p k d0 d1 c).lower = c.lower := by obtain ⟨_, _, _, h⟩ := ce_only p k d0 d1 c; rw [h]
@[simp] theorem ce_poison (p k d0 d1 : Nat) (c : Chip) : (ce p k d0 d1 c).poison = c.poison := by obtain ⟨_, _, _, h⟩ := ce_only p k d0 d1 c; rw [h]
@[simp] theorem ce_lowPoison (p k d0 d1 : Nat) (c : Chip) : (ce p k d0 d1 c).lowPoison = c.lowPoison := by obtain ⟨_, _, _, h⟩ := ce_only p k d0 d1 c; rw [h]
@[simp] theorem ce_cores (p k d0 d1 : Nat) (c : Chip) : (ce p k d0 d1 c).cores = c.cores := by obtain ⟨_, _, _, h⟩ := ce_only p k d0 d1 c; rw [h]
@[simp] theorem ce_clusters (p k d0 d1 : Nat) (c : Chip) : (ce p k d0 d1 c).clusters = c.clusters := by obtain ⟨_, _, _, h⟩ := ce_only p k d0 d1 c; rw [h]
@[simp] theorem ce_lrtExp (p k d0 d1 : Nat) (c : Chip) : (ce p k d0 d1 c).lrtExp = c.lrtExp := by obtain ⟨_, _, _, h⟩ := ce_only p k d0 d1 c; rw [h]
@[simp] theorem ce_lrtShadow (p k d0 d1 : Nat) (c : Chip) : (ce p k d0 d1 c).lrtShadow = c.lrtShadow := by obtain ⟨_, _, _, h⟩ := ce_only p k d0 d1 c; rw [h]
@[simp] theorem ce_lrtGen (p k d0 d1 : Nat) (c : Chip) : (ce p k d0 d1 c).lrtGen = c.lrtGen := by obtain ⟨_, _, _, h⟩ := ce_only p k d0 d1 c; rw [h]
@[simp] theorem ce_pwus (p k d0 d1 : Nat) (c : Chip) : (ce p k d0 d1 c).pwus = c.pwus := by obtain ⟨_, _, _, h⟩ := ce_only p k d0 d1 c; rw [h]
@[simp] theorem ce_slots (p k d0 d1 : Nat) (c : Chip) : (ce p k d0 d1 c).slots = c.slots := by obtain ⟨_, _, _, h⟩ := ce_only p k d0 d1 c; rw [h]
@[simp] theorem ce_quar (p k d0 d1 : Nat) (c : Chip) : (ce p k d0 d1 c).quar = c.quar := by obtain ⟨_, _, _, h⟩ := ce_only p k d0 d1 c; rw [h]
@[simp] theorem ce_links (p k d0 d1 : Nat) (c : Chip) : (ce p k d0 d1 c).links = c.links := by obtain ⟨_, _, _, h⟩ := ce_only p k d0 d1 c; rw [h]
@[simp] theorem ce_colls (p k d0 d1 : Nat) (c : Chip) : (ce p k d0 d1 c).colls = c.colls := by obtain ⟨_, _, _, h⟩ := ce_only p k d0 d1 c; rw [h]
@[simp] theorem ce_rings (p k d0 d1 : Nat) (c : Chip) : (ce p k d0 d1 c).rings = c.rings := by obtain ⟨_, _, _, h⟩ := ce_only p k d0 d1 c; rw [h]
@[simp] theorem ce_joins (p k d0 d1 : Nat) (c : Chip) : (ce p k d0 d1 c).joins = c.joins := by obtain ⟨_, _, _, h⟩ := ce_only p k d0 d1 c; rw [h]
@[simp] theorem ce_rcuResult (p k d0 d1 : Nat) (c : Chip) : (ce p k d0 d1 c).rcuResult = c.rcuResult := by obtain ⟨_, _, _, h⟩ := ce_only p k d0 d1 c; rw [h]
@[simp] theorem ce_collResult (p k d0 d1 : Nat) (c : Chip) : (ce p k d0 d1 c).collResult = c.collResult := by obtain ⟨_, _, _, h⟩ := ce_only p k d0 d1 c; rw [h]
@[simp] theorem ce_detachLast (p k d0 d1 : Nat) (c : Chip) : (ce p k d0 d1 c).detachLast = c.detachLast := by obtain ⟨_, _, _, h⟩ := ce_only p k d0 d1 c; rw [h]
@[simp] theorem ce_rtActive (p k d0 d1 : Nat) (c : Chip) : (ce p k d0 d1 c).rtActive = c.rtActive := by obtain ⟨_, _, _, h⟩ := ce_only p k d0 d1 c; rw [h]
@[simp] theorem ce_rtArmed (p k d0 d1 : Nat) (c : Chip) : (ce p k d0 d1 c).rtArmed = c.rtArmed := by obtain ⟨_, _, _, h⟩ := ce_only p k d0 d1 c; rw [h]
@[simp] theorem ce_rtAt (p k d0 d1 : Nat) (c : Chip) : (ce p k d0 d1 c).rtAt = c.rtAt := by obtain ⟨_, _, _, h⟩ := ce_only p k d0 d1 c; rw [h]
@[simp] theorem ce_rtLate (p k d0 d1 : Nat) (c : Chip) : (ce p k d0 d1 c).rtLate = c.rtLate := by obtain ⟨_, _, _, h⟩ := ce_only p k d0 d1 c; rw [h]
@[simp] theorem ce_rtGen (p k d0 d1 : Nat) (c : Chip) : (ce p k d0 d1 c).rtGen = c.rtGen := by obtain ⟨_, _, _, h⟩ := ce_only p k d0 d1 c; rw [h]
@[simp] theorem ce_delivered (p k d0 d1 : Nat) (c : Chip) : (ce p k d0 d1 c).delivered = c.delivered := by obtain ⟨_, _, _, h⟩ := ce_only p k d0 d1 c; rw [h]
@[simp] theorem ce_pktOrd (p k d0 d1 : Nat) (c : Chip) : (ce p k d0 d1 c).pktOrd = c.pktOrd := by obtain ⟨_, _, _, h⟩ := ce_only p k d0 d1 c; rw [h]
@[simp] theorem ce_straps (p k d0 d1 : Nat) (c : Chip) : (ce p k d0 d1 c).straps = c.straps := by obtain ⟨_, _, _, h⟩ := ce_only p k d0 d1 c; rw [h]
@[simp] theorem ce_posId (p k d0 d1 : Nat) (c : Chip) : (ce p k d0 d1 c).posId = c.posId := by obtain ⟨_, _, _, h⟩ := ce_only p k d0 d1 c; rw [h]
@[simp] theorem ce_mst (p k d0 d1 : Nat) (c : Chip) : (ce p k d0 d1 c).mst = c.mst := by obtain ⟨_, _, _, h⟩ := ce_only p k d0 d1 c; rw [h]
@[simp] theorem ce_cad (p k d0 d1 : Nat) (c : Chip) : (ce p k d0 d1 c).cad = c.cad := by obtain ⟨_, _, _, h⟩ := ce_only p k d0 d1 c; rw [h]
@[simp] theorem ce_mtm (p k d0 d1 : Nat) (c : Chip) : (ce p k d0 d1 c).mtm = c.mtm := by obtain ⟨_, _, _, h⟩ := ce_only p k d0 d1 c; rw [h]
@[simp] theorem ce_gmcs (p k d0 d1 : Nat) (c : Chip) : (ce p k d0 d1 c).gmcs = c.gmcs := by obtain ⟨_, _, _, h⟩ := ce_only p k d0 d1 c; rw [h]
@[simp] theorem ce_t2 (p k d0 d1 : Nat) (c : Chip) : (ce p k d0 d1 c).t2 = c.t2 := by obtain ⟨_, _, _, h⟩ := ce_only p k d0 d1 c; rw [h]
@[simp] theorem ce_cxl (p k d0 d1 : Nat) (c : Chip) : (ce p k d0 d1 c).cxl = c.cxl := by obtain ⟨_, _, _, h⟩ := ce_only p k d0 d1 c; rw [h]
@[simp] theorem ce_pwr (p k d0 d1 : Nat) (c : Chip) : (ce p k d0 d1 c).pwr = c.pwr := by obtain ⟨_, _, _, h⟩ := ce_only p k d0 d1 c; rw [h]
@[simp] theorem ce_flash (p k d0 d1 : Nat) (c : Chip) : (ce p k d0 d1 c).flash = c.flash := by obtain ⟨_, _, _, h⟩ := ce_only p k d0 d1 c; rw [h]
@[simp] theorem ce_otp (p k d0 d1 : Nat) (c : Chip) : (ce p k d0 d1 c).otp = c.otp := by obtain ⟨_, _, _, h⟩ := ce_only p k d0 d1 c; rw [h]
@[simp] theorem ce_sec (p k d0 d1 : Nat) (c : Chip) : (ce p k d0 d1 c).sec = c.sec := by obtain ⟨_, _, _, h⟩ := ce_only p k d0 d1 c; rw [h]
@[simp] theorem ce_plans (p k d0 d1 : Nat) (c : Chip) : (ce p k d0 d1 c).plans = c.plans := by obtain ⟨_, _, _, h⟩ := ce_only p k d0 d1 c; rw [h]
@[simp] theorem ce_rolls (p k d0 d1 : Nat) (c : Chip) : (ce p k d0 d1 c).rolls = c.rolls := by obtain ⟨_, _, _, h⟩ := ce_only p k d0 d1 c; rw [h]
@[simp] theorem ce_contribs (p k d0 d1 : Nat) (c : Chip) : (ce p k d0 d1 c).contribs = c.contribs := by obtain ⟨_, _, _, h⟩ := ce_only p k d0 d1 c; rw [h]
@[simp] theorem ce_provBufs (p k d0 d1 : Nat) (c : Chip) : (ce p k d0 d1 c).provBufs = c.provBufs := by obtain ⟨_, _, _, h⟩ := ce_only p k d0 d1 c; rw [h]
@[simp] theorem ce_busy (p k d0 d1 : Nat) (c : Chip) : (ce p k d0 d1 c).busy = c.busy := by obtain ⟨_, _, _, h⟩ := ce_only p k d0 d1 c; rw [h]
@[simp] theorem ce_wiped (p k d0 d1 : Nat) (c : Chip) : (ce p k d0 d1 c).wiped = c.wiped := by obtain ⟨_, _, _, h⟩ := ce_only p k d0 d1 c; rw [h]
@[simp] theorem ce_draw (p k d0 d1 : Nat) (c : Chip) : (ce p k d0 d1 c).draw = c.draw := by obtain ⟨_, _, _, h⟩ := ce_only p k d0 d1 c; rw [h]
@[simp] theorem ce_beat_of (p k d0 d1 : Nat) (c : Chip) : (ce p k d0 d1 c).beat = c.beat := by obtain ⟨_, _, _, h⟩ := ce_only p k d0 d1 c; rw [h]; rfl
@[simp] theorem ce_lc_of (p k d0 d1 : Nat) (c : Chip) : (ce p k d0 d1 c).lc = c.lc := by obtain ⟨_, _, _, h⟩ := ce_only p k d0 d1 c; rw [h]; rfl
@[simp] theorem ce_core_of (p k d0 d1 : Nat) (c : Chip) (u : Nat) : (ce p k d0 d1 c).core u = c.core u := by obtain ⟨_, _, _, h⟩ := ce_only p k d0 d1 c; rw [h]; rfl
@[simp] theorem ce_clus_of (p k d0 d1 : Nat) (c : Chip) (u : Nat) : (ce p k d0 d1 c).clus u = c.clus u := by obtain ⟨_, _, _, h⟩ := ce_only p k d0 d1 c; rw [h]; rfl
@[simp] theorem ce_pwu_of (p k d0 d1 : Nat) (c : Chip) (u : Nat) : (ce p k d0 d1 c).pwu u = c.pwu u := by obtain ⟨_, _, _, h⟩ := ce_only p k d0 d1 c; rw [h]; rfl
@[simp] theorem ce_slot_of (p k d0 d1 : Nat) (c : Chip) (u : Nat) : (ce p k d0 d1 c).slot u = c.slot u := by obtain ⟨_, _, _, h⟩ := ce_only p k d0 d1 c; rw [h]; rfl
@[simp] theorem ce_link_of (p k d0 d1 : Nat) (c : Chip) (u : Nat) : (ce p k d0 d1 c).link u = c.link u := by obtain ⟨_, _, _, h⟩ := ce_only p k d0 d1 c; rw [h]; rfl
@[simp] theorem ce_gmc_of (p k d0 d1 : Nat) (c : Chip) (u : Nat) : (ce p k d0 d1 c).gmc u = c.gmc u := by obtain ⟨_, _, _, h⟩ := ce_only p k d0 d1 c; rw [h]; rfl
@[simp] theorem ce_t2s_of (p k d0 d1 : Nat) (c : Chip) (u : Nat) : (ce p k d0 d1 c).t2s u = c.t2s u := by obtain ⟨_, _, _, h⟩ := ce_only p k d0 d1 c; rw [h]; rfl
@[simp] theorem ce_cxlp_of (p k d0 d1 : Nat) (c : Chip) (u : Nat) : (ce p k d0 d1 c).cxlp u = c.cxlp u := by obtain ⟨_, _, _, h⟩ := ce_only p k d0 d1 c; rw [h]; rfl
@[simp] theorem ce_loan_of (p k d0 d1 : Nat) (c : Chip) (u : Nat) : (ce p k d0 d1 c).loan u = c.loan u := by obtain ⟨_, _, _, h⟩ := ce_only p k d0 d1 c; rw [h]; rfl
@[simp] theorem ce_coll_of (p k d0 d1 : Nat) (c : Chip) (u : Nat) : (ce p k d0 d1 c).coll u = c.coll u := by obtain ⟨_, _, _, h⟩ := ce_only p k d0 d1 c; rw [h]; rfl
@[simp] theorem ce_ring_of (p k d0 d1 : Nat) (c : Chip) (u : Nat) : (ce p k d0 d1 c).ring u = c.ring u := by obtain ⟨_, _, _, h⟩ := ce_only p k d0 d1 c; rw [h]; rfl
@[simp] theorem ce_byteAt_of (p k d0 d1 : Nat) (c : Chip) (x : Nat) : (ce p k d0 d1 c).byteAt x = c.byteAt x := by obtain ⟨_, _, _, h⟩ := ce_only p k d0 d1 c; rw [h]; rfl
@[simp] theorem ce_ctr_of (p k d0 d1 : Nat) (c : Chip) (u v : Nat) : (ce p k d0 d1 c).ctr u v = c.ctr u v := by obtain ⟨_, _, _, h⟩ := ce_only p k d0 d1 c; rw [h]; rfl
@[simp] theorem ce_poisonIn_of (p k d0 d1 : Nat) (c : Chip) (x y : Nat) : (ce p k d0 d1 c).poisonIn x y = c.poisonIn x y := by obtain ⟨_, _, _, h⟩ := ce_only p k d0 d1 c; rw [h]; rfl

/-! ### itemLate -/

@[simp] theorem itemLate_phase (p b : Nat) (c : Chip) : (itemLate p b c).phase = c.phase := by obtain ⟨_, _, _, h⟩ := itemLate_only p b c; rw [h]
@[simp] theorem itemLate_pairLatch (p b : Nat) (c : Chip) : (itemLate p b c).pairLatch = c.pairLatch := by obtain ⟨_, _, _, h⟩ := itemLate_only p b c; rw [h]
@[simp] theorem itemLate_pairStage (p b : Nat) (c : Chip) : (itemLate p b c).pairStage = c.pairStage := by obtain ⟨_, _, _, h⟩ := itemLate_only p b c; rw [h]
@[simp] theorem itemLate_answer (p b : Nat) (c : Chip) : (itemLate p b c).answer = c.answer := by obtain ⟨_, _, _, h⟩ := itemLate_only p b c; rw [h]
@[simp] theorem itemLate_mem (p b : Nat) (c : Chip) : (itemLate p b c).mem = c.mem := by obtain ⟨_, _, _, h⟩ := itemLate_only p b c; rw [h]
@[simp] theorem itemLate_lower (p b : Nat) (c : Chip) : (itemLate p b c).lower = c.lower := by obtain ⟨_, _, _, h⟩ := itemLate_only p b c; rw [h]
@[simp] theorem itemLate_poison (p b : Nat) (c : Chip) : (itemLate p b c).poison = c.poison := by obtain ⟨_, _, _, h⟩ := itemLate_only p b c; rw [h]
@[simp] theorem itemLate_lowPoison (p b : Nat) (c : Chip) : (itemLate p b c).lowPoison = c.lowPoison := by obtain ⟨_, _, _, h⟩ := itemLate_only p b c; rw [h]
@[simp] theorem itemLate_cores (p b : Nat) (c : Chip) : (itemLate p b c).cores = c.cores := by obtain ⟨_, _, _, h⟩ := itemLate_only p b c; rw [h]
@[simp] theorem itemLate_clusters (p b : Nat) (c : Chip) : (itemLate p b c).clusters = c.clusters := by obtain ⟨_, _, _, h⟩ := itemLate_only p b c; rw [h]
@[simp] theorem itemLate_lrtExp (p b : Nat) (c : Chip) : (itemLate p b c).lrtExp = c.lrtExp := by obtain ⟨_, _, _, h⟩ := itemLate_only p b c; rw [h]
@[simp] theorem itemLate_lrtShadow (p b : Nat) (c : Chip) : (itemLate p b c).lrtShadow = c.lrtShadow := by obtain ⟨_, _, _, h⟩ := itemLate_only p b c; rw [h]
@[simp] theorem itemLate_lrtGen (p b : Nat) (c : Chip) : (itemLate p b c).lrtGen = c.lrtGen := by obtain ⟨_, _, _, h⟩ := itemLate_only p b c; rw [h]
@[simp] theorem itemLate_pwus (p b : Nat) (c : Chip) : (itemLate p b c).pwus = c.pwus := by obtain ⟨_, _, _, h⟩ := itemLate_only p b c; rw [h]
@[simp] theorem itemLate_slots (p b : Nat) (c : Chip) : (itemLate p b c).slots = c.slots := by obtain ⟨_, _, _, h⟩ := itemLate_only p b c; rw [h]
@[simp] theorem itemLate_quar (p b : Nat) (c : Chip) : (itemLate p b c).quar = c.quar := by obtain ⟨_, _, _, h⟩ := itemLate_only p b c; rw [h]
@[simp] theorem itemLate_links (p b : Nat) (c : Chip) : (itemLate p b c).links = c.links := by obtain ⟨_, _, _, h⟩ := itemLate_only p b c; rw [h]
@[simp] theorem itemLate_colls (p b : Nat) (c : Chip) : (itemLate p b c).colls = c.colls := by obtain ⟨_, _, _, h⟩ := itemLate_only p b c; rw [h]
@[simp] theorem itemLate_rings (p b : Nat) (c : Chip) : (itemLate p b c).rings = c.rings := by obtain ⟨_, _, _, h⟩ := itemLate_only p b c; rw [h]
@[simp] theorem itemLate_joins (p b : Nat) (c : Chip) : (itemLate p b c).joins = c.joins := by obtain ⟨_, _, _, h⟩ := itemLate_only p b c; rw [h]
@[simp] theorem itemLate_rcuResult (p b : Nat) (c : Chip) : (itemLate p b c).rcuResult = c.rcuResult := by obtain ⟨_, _, _, h⟩ := itemLate_only p b c; rw [h]
@[simp] theorem itemLate_collResult (p b : Nat) (c : Chip) : (itemLate p b c).collResult = c.collResult := by obtain ⟨_, _, _, h⟩ := itemLate_only p b c; rw [h]
@[simp] theorem itemLate_detachLast (p b : Nat) (c : Chip) : (itemLate p b c).detachLast = c.detachLast := by obtain ⟨_, _, _, h⟩ := itemLate_only p b c; rw [h]
@[simp] theorem itemLate_rtActive (p b : Nat) (c : Chip) : (itemLate p b c).rtActive = c.rtActive := by obtain ⟨_, _, _, h⟩ := itemLate_only p b c; rw [h]
@[simp] theorem itemLate_rtArmed (p b : Nat) (c : Chip) : (itemLate p b c).rtArmed = c.rtArmed := by obtain ⟨_, _, _, h⟩ := itemLate_only p b c; rw [h]
@[simp] theorem itemLate_rtAt (p b : Nat) (c : Chip) : (itemLate p b c).rtAt = c.rtAt := by obtain ⟨_, _, _, h⟩ := itemLate_only p b c; rw [h]
@[simp] theorem itemLate_rtLate (p b : Nat) (c : Chip) : (itemLate p b c).rtLate = c.rtLate := by obtain ⟨_, _, _, h⟩ := itemLate_only p b c; rw [h]
@[simp] theorem itemLate_rtGen (p b : Nat) (c : Chip) : (itemLate p b c).rtGen = c.rtGen := by obtain ⟨_, _, _, h⟩ := itemLate_only p b c; rw [h]
@[simp] theorem itemLate_delivered (p b : Nat) (c : Chip) : (itemLate p b c).delivered = c.delivered := by obtain ⟨_, _, _, h⟩ := itemLate_only p b c; rw [h]
@[simp] theorem itemLate_pktOrd (p b : Nat) (c : Chip) : (itemLate p b c).pktOrd = c.pktOrd := by obtain ⟨_, _, _, h⟩ := itemLate_only p b c; rw [h]
@[simp] theorem itemLate_straps (p b : Nat) (c : Chip) : (itemLate p b c).straps = c.straps := by obtain ⟨_, _, _, h⟩ := itemLate_only p b c; rw [h]
@[simp] theorem itemLate_posId (p b : Nat) (c : Chip) : (itemLate p b c).posId = c.posId := by obtain ⟨_, _, _, h⟩ := itemLate_only p b c; rw [h]
@[simp] theorem itemLate_mst (p b : Nat) (c : Chip) : (itemLate p b c).mst = c.mst := by obtain ⟨_, _, _, h⟩ := itemLate_only p b c; rw [h]
@[simp] theorem itemLate_cad (p b : Nat) (c : Chip) : (itemLate p b c).cad = c.cad := by obtain ⟨_, _, _, h⟩ := itemLate_only p b c; rw [h]
@[simp] theorem itemLate_mtm (p b : Nat) (c : Chip) : (itemLate p b c).mtm = c.mtm := by obtain ⟨_, _, _, h⟩ := itemLate_only p b c; rw [h]
@[simp] theorem itemLate_gmcs (p b : Nat) (c : Chip) : (itemLate p b c).gmcs = c.gmcs := by obtain ⟨_, _, _, h⟩ := itemLate_only p b c; rw [h]
@[simp] theorem itemLate_t2 (p b : Nat) (c : Chip) : (itemLate p b c).t2 = c.t2 := by obtain ⟨_, _, _, h⟩ := itemLate_only p b c; rw [h]
@[simp] theorem itemLate_cxl (p b : Nat) (c : Chip) : (itemLate p b c).cxl = c.cxl := by obtain ⟨_, _, _, h⟩ := itemLate_only p b c; rw [h]
@[simp] theorem itemLate_pwr (p b : Nat) (c : Chip) : (itemLate p b c).pwr = c.pwr := by obtain ⟨_, _, _, h⟩ := itemLate_only p b c; rw [h]
@[simp] theorem itemLate_flash (p b : Nat) (c : Chip) : (itemLate p b c).flash = c.flash := by obtain ⟨_, _, _, h⟩ := itemLate_only p b c; rw [h]
@[simp] theorem itemLate_otp (p b : Nat) (c : Chip) : (itemLate p b c).otp = c.otp := by obtain ⟨_, _, _, h⟩ := itemLate_only p b c; rw [h]
@[simp] theorem itemLate_sec (p b : Nat) (c : Chip) : (itemLate p b c).sec = c.sec := by obtain ⟨_, _, _, h⟩ := itemLate_only p b c; rw [h]
@[simp] theorem itemLate_plans (p b : Nat) (c : Chip) : (itemLate p b c).plans = c.plans := by obtain ⟨_, _, _, h⟩ := itemLate_only p b c; rw [h]
@[simp] theorem itemLate_rolls (p b : Nat) (c : Chip) : (itemLate p b c).rolls = c.rolls := by obtain ⟨_, _, _, h⟩ := itemLate_only p b c; rw [h]
@[simp] theorem itemLate_contribs (p b : Nat) (c : Chip) : (itemLate p b c).contribs = c.contribs := by obtain ⟨_, _, _, h⟩ := itemLate_only p b c; rw [h]
@[simp] theorem itemLate_provBufs (p b : Nat) (c : Chip) : (itemLate p b c).provBufs = c.provBufs := by obtain ⟨_, _, _, h⟩ := itemLate_only p b c; rw [h]
@[simp] theorem itemLate_busy (p b : Nat) (c : Chip) : (itemLate p b c).busy = c.busy := by obtain ⟨_, _, _, h⟩ := itemLate_only p b c; rw [h]
@[simp] theorem itemLate_wiped (p b : Nat) (c : Chip) : (itemLate p b c).wiped = c.wiped := by obtain ⟨_, _, _, h⟩ := itemLate_only p b c; rw [h]
@[simp] theorem itemLate_draw (p b : Nat) (c : Chip) : (itemLate p b c).draw = c.draw := by obtain ⟨_, _, _, h⟩ := itemLate_only p b c; rw [h]
@[simp] theorem itemLate_beat_of (p b : Nat) (c : Chip) : (itemLate p b c).beat = c.beat := by obtain ⟨_, _, _, h⟩ := itemLate_only p b c; rw [h]; rfl
@[simp] theorem itemLate_lc_of (p b : Nat) (c : Chip) : (itemLate p b c).lc = c.lc := by obtain ⟨_, _, _, h⟩ := itemLate_only p b c; rw [h]; rfl
@[simp] theorem itemLate_core_of (p b : Nat) (c : Chip) (u : Nat) : (itemLate p b c).core u = c.core u := by obtain ⟨_, _, _, h⟩ := itemLate_only p b c; rw [h]; rfl
@[simp] theorem itemLate_clus_of (p b : Nat) (c : Chip) (u : Nat) : (itemLate p b c).clus u = c.clus u := by obtain ⟨_, _, _, h⟩ := itemLate_only p b c; rw [h]; rfl
@[simp] theorem itemLate_pwu_of (p b : Nat) (c : Chip) (u : Nat) : (itemLate p b c).pwu u = c.pwu u := by obtain ⟨_, _, _, h⟩ := itemLate_only p b c; rw [h]; rfl
@[simp] theorem itemLate_slot_of (p b : Nat) (c : Chip) (u : Nat) : (itemLate p b c).slot u = c.slot u := by obtain ⟨_, _, _, h⟩ := itemLate_only p b c; rw [h]; rfl
@[simp] theorem itemLate_link_of (p b : Nat) (c : Chip) (u : Nat) : (itemLate p b c).link u = c.link u := by obtain ⟨_, _, _, h⟩ := itemLate_only p b c; rw [h]; rfl
@[simp] theorem itemLate_gmc_of (p b : Nat) (c : Chip) (u : Nat) : (itemLate p b c).gmc u = c.gmc u := by obtain ⟨_, _, _, h⟩ := itemLate_only p b c; rw [h]; rfl
@[simp] theorem itemLate_t2s_of (p b : Nat) (c : Chip) (u : Nat) : (itemLate p b c).t2s u = c.t2s u := by obtain ⟨_, _, _, h⟩ := itemLate_only p b c; rw [h]; rfl
@[simp] theorem itemLate_cxlp_of (p b : Nat) (c : Chip) (u : Nat) : (itemLate p b c).cxlp u = c.cxlp u := by obtain ⟨_, _, _, h⟩ := itemLate_only p b c; rw [h]; rfl
@[simp] theorem itemLate_loan_of (p b : Nat) (c : Chip) (u : Nat) : (itemLate p b c).loan u = c.loan u := by obtain ⟨_, _, _, h⟩ := itemLate_only p b c; rw [h]; rfl
@[simp] theorem itemLate_coll_of (p b : Nat) (c : Chip) (u : Nat) : (itemLate p b c).coll u = c.coll u := by obtain ⟨_, _, _, h⟩ := itemLate_only p b c; rw [h]; rfl
@[simp] theorem itemLate_ring_of (p b : Nat) (c : Chip) (u : Nat) : (itemLate p b c).ring u = c.ring u := by obtain ⟨_, _, _, h⟩ := itemLate_only p b c; rw [h]; rfl
@[simp] theorem itemLate_byteAt_of (p b : Nat) (c : Chip) (x : Nat) : (itemLate p b c).byteAt x = c.byteAt x := by obtain ⟨_, _, _, h⟩ := itemLate_only p b c; rw [h]; rfl
@[simp] theorem itemLate_ctr_of (p b : Nat) (c : Chip) (u v : Nat) : (itemLate p b c).ctr u v = c.ctr u v := by obtain ⟨_, _, _, h⟩ := itemLate_only p b c; rw [h]; rfl
@[simp] theorem itemLate_poisonIn_of (p b : Nat) (c : Chip) (x y : Nat) : (itemLate p b c).poisonIn x y = c.poisonIn x y := by obtain ⟨_, _, _, h⟩ := itemLate_only p b c; rw [h]; rfl

/-! ### ignored -/

@[simp] theorem ignored_phase (a v : Nat) (c : Chip) : (ignored a v c).phase = c.phase := by obtain ⟨_, _, _, h⟩ := ignored_only a v c; rw [h]
@[simp] theorem ignored_pairLatch (a v : Nat) (c : Chip) : (ignored a v c).pairLatch = c.pairLatch := by obtain ⟨_, _, _, h⟩ := ignored_only a v c; rw [h]
@[simp] theorem ignored_pairStage (a v : Nat) (c : Chip) : (ignored a v c).pairStage = c.pairStage := by obtain ⟨_, _, _, h⟩ := ignored_only a v c; rw [h]
@[simp] theorem ignored_answer (a v : Nat) (c : Chip) : (ignored a v c).answer = c.answer := by obtain ⟨_, _, _, h⟩ := ignored_only a v c; rw [h]
@[simp] theorem ignored_mem (a v : Nat) (c : Chip) : (ignored a v c).mem = c.mem := by obtain ⟨_, _, _, h⟩ := ignored_only a v c; rw [h]
@[simp] theorem ignored_lower (a v : Nat) (c : Chip) : (ignored a v c).lower = c.lower := by obtain ⟨_, _, _, h⟩ := ignored_only a v c; rw [h]
@[simp] theorem ignored_poison (a v : Nat) (c : Chip) : (ignored a v c).poison = c.poison := by obtain ⟨_, _, _, h⟩ := ignored_only a v c; rw [h]
@[simp] theorem ignored_lowPoison (a v : Nat) (c : Chip) : (ignored a v c).lowPoison = c.lowPoison := by obtain ⟨_, _, _, h⟩ := ignored_only a v c; rw [h]
@[simp] theorem ignored_cores (a v : Nat) (c : Chip) : (ignored a v c).cores = c.cores := by obtain ⟨_, _, _, h⟩ := ignored_only a v c; rw [h]
@[simp] theorem ignored_clusters (a v : Nat) (c : Chip) : (ignored a v c).clusters = c.clusters := by obtain ⟨_, _, _, h⟩ := ignored_only a v c; rw [h]
@[simp] theorem ignored_lrtExp (a v : Nat) (c : Chip) : (ignored a v c).lrtExp = c.lrtExp := by obtain ⟨_, _, _, h⟩ := ignored_only a v c; rw [h]
@[simp] theorem ignored_lrtShadow (a v : Nat) (c : Chip) : (ignored a v c).lrtShadow = c.lrtShadow := by obtain ⟨_, _, _, h⟩ := ignored_only a v c; rw [h]
@[simp] theorem ignored_lrtGen (a v : Nat) (c : Chip) : (ignored a v c).lrtGen = c.lrtGen := by obtain ⟨_, _, _, h⟩ := ignored_only a v c; rw [h]
@[simp] theorem ignored_pwus (a v : Nat) (c : Chip) : (ignored a v c).pwus = c.pwus := by obtain ⟨_, _, _, h⟩ := ignored_only a v c; rw [h]
@[simp] theorem ignored_slots (a v : Nat) (c : Chip) : (ignored a v c).slots = c.slots := by obtain ⟨_, _, _, h⟩ := ignored_only a v c; rw [h]
@[simp] theorem ignored_quar (a v : Nat) (c : Chip) : (ignored a v c).quar = c.quar := by obtain ⟨_, _, _, h⟩ := ignored_only a v c; rw [h]
@[simp] theorem ignored_links (a v : Nat) (c : Chip) : (ignored a v c).links = c.links := by obtain ⟨_, _, _, h⟩ := ignored_only a v c; rw [h]
@[simp] theorem ignored_colls (a v : Nat) (c : Chip) : (ignored a v c).colls = c.colls := by obtain ⟨_, _, _, h⟩ := ignored_only a v c; rw [h]
@[simp] theorem ignored_rings (a v : Nat) (c : Chip) : (ignored a v c).rings = c.rings := by obtain ⟨_, _, _, h⟩ := ignored_only a v c; rw [h]
@[simp] theorem ignored_joins (a v : Nat) (c : Chip) : (ignored a v c).joins = c.joins := by obtain ⟨_, _, _, h⟩ := ignored_only a v c; rw [h]
@[simp] theorem ignored_rcuResult (a v : Nat) (c : Chip) : (ignored a v c).rcuResult = c.rcuResult := by obtain ⟨_, _, _, h⟩ := ignored_only a v c; rw [h]
@[simp] theorem ignored_collResult (a v : Nat) (c : Chip) : (ignored a v c).collResult = c.collResult := by obtain ⟨_, _, _, h⟩ := ignored_only a v c; rw [h]
@[simp] theorem ignored_detachLast (a v : Nat) (c : Chip) : (ignored a v c).detachLast = c.detachLast := by obtain ⟨_, _, _, h⟩ := ignored_only a v c; rw [h]
@[simp] theorem ignored_rtActive (a v : Nat) (c : Chip) : (ignored a v c).rtActive = c.rtActive := by obtain ⟨_, _, _, h⟩ := ignored_only a v c; rw [h]
@[simp] theorem ignored_rtArmed (a v : Nat) (c : Chip) : (ignored a v c).rtArmed = c.rtArmed := by obtain ⟨_, _, _, h⟩ := ignored_only a v c; rw [h]
@[simp] theorem ignored_rtAt (a v : Nat) (c : Chip) : (ignored a v c).rtAt = c.rtAt := by obtain ⟨_, _, _, h⟩ := ignored_only a v c; rw [h]
@[simp] theorem ignored_rtLate (a v : Nat) (c : Chip) : (ignored a v c).rtLate = c.rtLate := by obtain ⟨_, _, _, h⟩ := ignored_only a v c; rw [h]
@[simp] theorem ignored_rtGen (a v : Nat) (c : Chip) : (ignored a v c).rtGen = c.rtGen := by obtain ⟨_, _, _, h⟩ := ignored_only a v c; rw [h]
@[simp] theorem ignored_delivered (a v : Nat) (c : Chip) : (ignored a v c).delivered = c.delivered := by obtain ⟨_, _, _, h⟩ := ignored_only a v c; rw [h]
@[simp] theorem ignored_pktOrd (a v : Nat) (c : Chip) : (ignored a v c).pktOrd = c.pktOrd := by obtain ⟨_, _, _, h⟩ := ignored_only a v c; rw [h]
@[simp] theorem ignored_straps (a v : Nat) (c : Chip) : (ignored a v c).straps = c.straps := by obtain ⟨_, _, _, h⟩ := ignored_only a v c; rw [h]
@[simp] theorem ignored_posId (a v : Nat) (c : Chip) : (ignored a v c).posId = c.posId := by obtain ⟨_, _, _, h⟩ := ignored_only a v c; rw [h]
@[simp] theorem ignored_mst (a v : Nat) (c : Chip) : (ignored a v c).mst = c.mst := by obtain ⟨_, _, _, h⟩ := ignored_only a v c; rw [h]
@[simp] theorem ignored_cad (a v : Nat) (c : Chip) : (ignored a v c).cad = c.cad := by obtain ⟨_, _, _, h⟩ := ignored_only a v c; rw [h]
@[simp] theorem ignored_mtm (a v : Nat) (c : Chip) : (ignored a v c).mtm = c.mtm := by obtain ⟨_, _, _, h⟩ := ignored_only a v c; rw [h]
@[simp] theorem ignored_gmcs (a v : Nat) (c : Chip) : (ignored a v c).gmcs = c.gmcs := by obtain ⟨_, _, _, h⟩ := ignored_only a v c; rw [h]
@[simp] theorem ignored_t2 (a v : Nat) (c : Chip) : (ignored a v c).t2 = c.t2 := by obtain ⟨_, _, _, h⟩ := ignored_only a v c; rw [h]
@[simp] theorem ignored_cxl (a v : Nat) (c : Chip) : (ignored a v c).cxl = c.cxl := by obtain ⟨_, _, _, h⟩ := ignored_only a v c; rw [h]
@[simp] theorem ignored_pwr (a v : Nat) (c : Chip) : (ignored a v c).pwr = c.pwr := by obtain ⟨_, _, _, h⟩ := ignored_only a v c; rw [h]
@[simp] theorem ignored_flash (a v : Nat) (c : Chip) : (ignored a v c).flash = c.flash := by obtain ⟨_, _, _, h⟩ := ignored_only a v c; rw [h]
@[simp] theorem ignored_otp (a v : Nat) (c : Chip) : (ignored a v c).otp = c.otp := by obtain ⟨_, _, _, h⟩ := ignored_only a v c; rw [h]
@[simp] theorem ignored_sec (a v : Nat) (c : Chip) : (ignored a v c).sec = c.sec := by obtain ⟨_, _, _, h⟩ := ignored_only a v c; rw [h]
@[simp] theorem ignored_plans (a v : Nat) (c : Chip) : (ignored a v c).plans = c.plans := by obtain ⟨_, _, _, h⟩ := ignored_only a v c; rw [h]
@[simp] theorem ignored_rolls (a v : Nat) (c : Chip) : (ignored a v c).rolls = c.rolls := by obtain ⟨_, _, _, h⟩ := ignored_only a v c; rw [h]
@[simp] theorem ignored_contribs (a v : Nat) (c : Chip) : (ignored a v c).contribs = c.contribs := by obtain ⟨_, _, _, h⟩ := ignored_only a v c; rw [h]
@[simp] theorem ignored_provBufs (a v : Nat) (c : Chip) : (ignored a v c).provBufs = c.provBufs := by obtain ⟨_, _, _, h⟩ := ignored_only a v c; rw [h]
@[simp] theorem ignored_busy (a v : Nat) (c : Chip) : (ignored a v c).busy = c.busy := by obtain ⟨_, _, _, h⟩ := ignored_only a v c; rw [h]
@[simp] theorem ignored_wiped (a v : Nat) (c : Chip) : (ignored a v c).wiped = c.wiped := by obtain ⟨_, _, _, h⟩ := ignored_only a v c; rw [h]
@[simp] theorem ignored_draw (a v : Nat) (c : Chip) : (ignored a v c).draw = c.draw := by obtain ⟨_, _, _, h⟩ := ignored_only a v c; rw [h]
@[simp] theorem ignored_beat_of (a v : Nat) (c : Chip) : (ignored a v c).beat = c.beat := by obtain ⟨_, _, _, h⟩ := ignored_only a v c; rw [h]; rfl
@[simp] theorem ignored_lc_of (a v : Nat) (c : Chip) : (ignored a v c).lc = c.lc := by obtain ⟨_, _, _, h⟩ := ignored_only a v c; rw [h]; rfl
@[simp] theorem ignored_core_of (a v : Nat) (c : Chip) (u : Nat) : (ignored a v c).core u = c.core u := by obtain ⟨_, _, _, h⟩ := ignored_only a v c; rw [h]; rfl
@[simp] theorem ignored_clus_of (a v : Nat) (c : Chip) (u : Nat) : (ignored a v c).clus u = c.clus u := by obtain ⟨_, _, _, h⟩ := ignored_only a v c; rw [h]; rfl
@[simp] theorem ignored_pwu_of (a v : Nat) (c : Chip) (u : Nat) : (ignored a v c).pwu u = c.pwu u := by obtain ⟨_, _, _, h⟩ := ignored_only a v c; rw [h]; rfl
@[simp] theorem ignored_slot_of (a v : Nat) (c : Chip) (u : Nat) : (ignored a v c).slot u = c.slot u := by obtain ⟨_, _, _, h⟩ := ignored_only a v c; rw [h]; rfl
@[simp] theorem ignored_link_of (a v : Nat) (c : Chip) (u : Nat) : (ignored a v c).link u = c.link u := by obtain ⟨_, _, _, h⟩ := ignored_only a v c; rw [h]; rfl
@[simp] theorem ignored_gmc_of (a v : Nat) (c : Chip) (u : Nat) : (ignored a v c).gmc u = c.gmc u := by obtain ⟨_, _, _, h⟩ := ignored_only a v c; rw [h]; rfl
@[simp] theorem ignored_t2s_of (a v : Nat) (c : Chip) (u : Nat) : (ignored a v c).t2s u = c.t2s u := by obtain ⟨_, _, _, h⟩ := ignored_only a v c; rw [h]; rfl
@[simp] theorem ignored_cxlp_of (a v : Nat) (c : Chip) (u : Nat) : (ignored a v c).cxlp u = c.cxlp u := by obtain ⟨_, _, _, h⟩ := ignored_only a v c; rw [h]; rfl
@[simp] theorem ignored_loan_of (a v : Nat) (c : Chip) (u : Nat) : (ignored a v c).loan u = c.loan u := by obtain ⟨_, _, _, h⟩ := ignored_only a v c; rw [h]; rfl
@[simp] theorem ignored_coll_of (a v : Nat) (c : Chip) (u : Nat) : (ignored a v c).coll u = c.coll u := by obtain ⟨_, _, _, h⟩ := ignored_only a v c; rw [h]; rfl
@[simp] theorem ignored_ring_of (a v : Nat) (c : Chip) (u : Nat) : (ignored a v c).ring u = c.ring u := by obtain ⟨_, _, _, h⟩ := ignored_only a v c; rw [h]; rfl
@[simp] theorem ignored_byteAt_of (a v : Nat) (c : Chip) (x : Nat) : (ignored a v c).byteAt x = c.byteAt x := by obtain ⟨_, _, _, h⟩ := ignored_only a v c; rw [h]; rfl
@[simp] theorem ignored_ctr_of (a v : Nat) (c : Chip) (u w : Nat) : (ignored a v c).ctr u w = c.ctr u w := by obtain ⟨_, _, _, h⟩ := ignored_only a v c; rw [h]; rfl
@[simp] theorem ignored_poisonIn_of (a v : Nat) (c : Chip) (x y : Nat) : (ignored a v c).poisonIn x y = c.poisonIn x y := by obtain ⟨_, _, _, h⟩ := ignored_only a v c; rw [h]; rfl

/-! ### lateFire -/

@[simp] theorem lateFire_phase (p t : Nat) (c : Chip) : (lateFire p t c).phase = c.phase := by obtain ⟨_, _, _, h⟩ := lateFire_only p t c; rw [h]
@[simp] theorem lateFire_pairLatch (p t : Nat) (c : Chip) : (lateFire p t c).pairLatch = c.pairLatch := by obtain ⟨_, _, _, h⟩ := lateFire_only p t c; rw [h]
@[simp] theorem lateFire_pairStage (p t : Nat) (c : Chip) : (lateFire p t c).pairStage = c.pairStage := by obtain ⟨_, _, _, h⟩ := lateFire_only p t c; rw [h]
@[simp] theorem lateFire_answer (p t : Nat) (c : Chip) : (lateFire p t c).answer = c.answer := by obtain ⟨_, _, _, h⟩ := lateFire_only p t c; rw [h]
@[simp] theorem lateFire_mem (p t : Nat) (c : Chip) : (lateFire p t c).mem = c.mem := by obtain ⟨_, _, _, h⟩ := lateFire_only p t c; rw [h]
@[simp] theorem lateFire_lower (p t : Nat) (c : Chip) : (lateFire p t c).lower = c.lower := by obtain ⟨_, _, _, h⟩ := lateFire_only p t c; rw [h]
@[simp] theorem lateFire_poison (p t : Nat) (c : Chip) : (lateFire p t c).poison = c.poison := by obtain ⟨_, _, _, h⟩ := lateFire_only p t c; rw [h]
@[simp] theorem lateFire_lowPoison (p t : Nat) (c : Chip) : (lateFire p t c).lowPoison = c.lowPoison := by obtain ⟨_, _, _, h⟩ := lateFire_only p t c; rw [h]
@[simp] theorem lateFire_cores (p t : Nat) (c : Chip) : (lateFire p t c).cores = c.cores := by obtain ⟨_, _, _, h⟩ := lateFire_only p t c; rw [h]
@[simp] theorem lateFire_clusters (p t : Nat) (c : Chip) : (lateFire p t c).clusters = c.clusters := by obtain ⟨_, _, _, h⟩ := lateFire_only p t c; rw [h]
@[simp] theorem lateFire_lrtExp (p t : Nat) (c : Chip) : (lateFire p t c).lrtExp = c.lrtExp := by obtain ⟨_, _, _, h⟩ := lateFire_only p t c; rw [h]
@[simp] theorem lateFire_lrtShadow (p t : Nat) (c : Chip) : (lateFire p t c).lrtShadow = c.lrtShadow := by obtain ⟨_, _, _, h⟩ := lateFire_only p t c; rw [h]
@[simp] theorem lateFire_lrtGen (p t : Nat) (c : Chip) : (lateFire p t c).lrtGen = c.lrtGen := by obtain ⟨_, _, _, h⟩ := lateFire_only p t c; rw [h]
@[simp] theorem lateFire_pwus (p t : Nat) (c : Chip) : (lateFire p t c).pwus = c.pwus := by obtain ⟨_, _, _, h⟩ := lateFire_only p t c; rw [h]
@[simp] theorem lateFire_slots (p t : Nat) (c : Chip) : (lateFire p t c).slots = c.slots := by obtain ⟨_, _, _, h⟩ := lateFire_only p t c; rw [h]
@[simp] theorem lateFire_quar (p t : Nat) (c : Chip) : (lateFire p t c).quar = c.quar := by obtain ⟨_, _, _, h⟩ := lateFire_only p t c; rw [h]
@[simp] theorem lateFire_links (p t : Nat) (c : Chip) : (lateFire p t c).links = c.links := by obtain ⟨_, _, _, h⟩ := lateFire_only p t c; rw [h]
@[simp] theorem lateFire_colls (p t : Nat) (c : Chip) : (lateFire p t c).colls = c.colls := by obtain ⟨_, _, _, h⟩ := lateFire_only p t c; rw [h]
@[simp] theorem lateFire_rings (p t : Nat) (c : Chip) : (lateFire p t c).rings = c.rings := by obtain ⟨_, _, _, h⟩ := lateFire_only p t c; rw [h]
@[simp] theorem lateFire_joins (p t : Nat) (c : Chip) : (lateFire p t c).joins = c.joins := by obtain ⟨_, _, _, h⟩ := lateFire_only p t c; rw [h]
@[simp] theorem lateFire_rcuResult (p t : Nat) (c : Chip) : (lateFire p t c).rcuResult = c.rcuResult := by obtain ⟨_, _, _, h⟩ := lateFire_only p t c; rw [h]
@[simp] theorem lateFire_collResult (p t : Nat) (c : Chip) : (lateFire p t c).collResult = c.collResult := by obtain ⟨_, _, _, h⟩ := lateFire_only p t c; rw [h]
@[simp] theorem lateFire_detachLast (p t : Nat) (c : Chip) : (lateFire p t c).detachLast = c.detachLast := by obtain ⟨_, _, _, h⟩ := lateFire_only p t c; rw [h]
@[simp] theorem lateFire_rtActive (p t : Nat) (c : Chip) : (lateFire p t c).rtActive = c.rtActive := by obtain ⟨_, _, _, h⟩ := lateFire_only p t c; rw [h]
@[simp] theorem lateFire_rtArmed (p t : Nat) (c : Chip) : (lateFire p t c).rtArmed = c.rtArmed := by obtain ⟨_, _, _, h⟩ := lateFire_only p t c; rw [h]
@[simp] theorem lateFire_rtAt (p t : Nat) (c : Chip) : (lateFire p t c).rtAt = c.rtAt := by obtain ⟨_, _, _, h⟩ := lateFire_only p t c; rw [h]
@[simp] theorem lateFire_rtLate (p t : Nat) (c : Chip) : (lateFire p t c).rtLate = c.rtLate := by obtain ⟨_, _, _, h⟩ := lateFire_only p t c; rw [h]
@[simp] theorem lateFire_rtGen (p t : Nat) (c : Chip) : (lateFire p t c).rtGen = c.rtGen := by obtain ⟨_, _, _, h⟩ := lateFire_only p t c; rw [h]
@[simp] theorem lateFire_delivered (p t : Nat) (c : Chip) : (lateFire p t c).delivered = c.delivered := by obtain ⟨_, _, _, h⟩ := lateFire_only p t c; rw [h]
@[simp] theorem lateFire_pktOrd (p t : Nat) (c : Chip) : (lateFire p t c).pktOrd = c.pktOrd := by obtain ⟨_, _, _, h⟩ := lateFire_only p t c; rw [h]
@[simp] theorem lateFire_straps (p t : Nat) (c : Chip) : (lateFire p t c).straps = c.straps := by obtain ⟨_, _, _, h⟩ := lateFire_only p t c; rw [h]
@[simp] theorem lateFire_posId (p t : Nat) (c : Chip) : (lateFire p t c).posId = c.posId := by obtain ⟨_, _, _, h⟩ := lateFire_only p t c; rw [h]
@[simp] theorem lateFire_mst (p t : Nat) (c : Chip) : (lateFire p t c).mst = c.mst := by obtain ⟨_, _, _, h⟩ := lateFire_only p t c; rw [h]
@[simp] theorem lateFire_cad (p t : Nat) (c : Chip) : (lateFire p t c).cad = c.cad := by obtain ⟨_, _, _, h⟩ := lateFire_only p t c; rw [h]
@[simp] theorem lateFire_mtm (p t : Nat) (c : Chip) : (lateFire p t c).mtm = c.mtm := by obtain ⟨_, _, _, h⟩ := lateFire_only p t c; rw [h]
@[simp] theorem lateFire_gmcs (p t : Nat) (c : Chip) : (lateFire p t c).gmcs = c.gmcs := by obtain ⟨_, _, _, h⟩ := lateFire_only p t c; rw [h]
@[simp] theorem lateFire_t2 (p t : Nat) (c : Chip) : (lateFire p t c).t2 = c.t2 := by obtain ⟨_, _, _, h⟩ := lateFire_only p t c; rw [h]
@[simp] theorem lateFire_cxl (p t : Nat) (c : Chip) : (lateFire p t c).cxl = c.cxl := by obtain ⟨_, _, _, h⟩ := lateFire_only p t c; rw [h]
@[simp] theorem lateFire_pwr (p t : Nat) (c : Chip) : (lateFire p t c).pwr = c.pwr := by obtain ⟨_, _, _, h⟩ := lateFire_only p t c; rw [h]
@[simp] theorem lateFire_flash (p t : Nat) (c : Chip) : (lateFire p t c).flash = c.flash := by obtain ⟨_, _, _, h⟩ := lateFire_only p t c; rw [h]
@[simp] theorem lateFire_otp (p t : Nat) (c : Chip) : (lateFire p t c).otp = c.otp := by obtain ⟨_, _, _, h⟩ := lateFire_only p t c; rw [h]
@[simp] theorem lateFire_sec (p t : Nat) (c : Chip) : (lateFire p t c).sec = c.sec := by obtain ⟨_, _, _, h⟩ := lateFire_only p t c; rw [h]
@[simp] theorem lateFire_plans (p t : Nat) (c : Chip) : (lateFire p t c).plans = c.plans := by obtain ⟨_, _, _, h⟩ := lateFire_only p t c; rw [h]
@[simp] theorem lateFire_rolls (p t : Nat) (c : Chip) : (lateFire p t c).rolls = c.rolls := by obtain ⟨_, _, _, h⟩ := lateFire_only p t c; rw [h]
@[simp] theorem lateFire_contribs (p t : Nat) (c : Chip) : (lateFire p t c).contribs = c.contribs := by obtain ⟨_, _, _, h⟩ := lateFire_only p t c; rw [h]
@[simp] theorem lateFire_provBufs (p t : Nat) (c : Chip) : (lateFire p t c).provBufs = c.provBufs := by obtain ⟨_, _, _, h⟩ := lateFire_only p t c; rw [h]
@[simp] theorem lateFire_busy (p t : Nat) (c : Chip) : (lateFire p t c).busy = c.busy := by obtain ⟨_, _, _, h⟩ := lateFire_only p t c; rw [h]
@[simp] theorem lateFire_wiped (p t : Nat) (c : Chip) : (lateFire p t c).wiped = c.wiped := by obtain ⟨_, _, _, h⟩ := lateFire_only p t c; rw [h]
@[simp] theorem lateFire_draw (p t : Nat) (c : Chip) : (lateFire p t c).draw = c.draw := by obtain ⟨_, _, _, h⟩ := lateFire_only p t c; rw [h]
@[simp] theorem lateFire_beat_of (p t : Nat) (c : Chip) : (lateFire p t c).beat = c.beat := by obtain ⟨_, _, _, h⟩ := lateFire_only p t c; rw [h]; rfl
@[simp] theorem lateFire_lc_of (p t : Nat) (c : Chip) : (lateFire p t c).lc = c.lc := by obtain ⟨_, _, _, h⟩ := lateFire_only p t c; rw [h]; rfl
@[simp] theorem lateFire_core_of (p t : Nat) (c : Chip) (u : Nat) : (lateFire p t c).core u = c.core u := by obtain ⟨_, _, _, h⟩ := lateFire_only p t c; rw [h]; rfl
@[simp] theorem lateFire_clus_of (p t : Nat) (c : Chip) (u : Nat) : (lateFire p t c).clus u = c.clus u := by obtain ⟨_, _, _, h⟩ := lateFire_only p t c; rw [h]; rfl
@[simp] theorem lateFire_pwu_of (p t : Nat) (c : Chip) (u : Nat) : (lateFire p t c).pwu u = c.pwu u := by obtain ⟨_, _, _, h⟩ := lateFire_only p t c; rw [h]; rfl
@[simp] theorem lateFire_slot_of (p t : Nat) (c : Chip) (u : Nat) : (lateFire p t c).slot u = c.slot u := by obtain ⟨_, _, _, h⟩ := lateFire_only p t c; rw [h]; rfl
@[simp] theorem lateFire_link_of (p t : Nat) (c : Chip) (u : Nat) : (lateFire p t c).link u = c.link u := by obtain ⟨_, _, _, h⟩ := lateFire_only p t c; rw [h]; rfl
@[simp] theorem lateFire_gmc_of (p t : Nat) (c : Chip) (u : Nat) : (lateFire p t c).gmc u = c.gmc u := by obtain ⟨_, _, _, h⟩ := lateFire_only p t c; rw [h]; rfl
@[simp] theorem lateFire_t2s_of (p t : Nat) (c : Chip) (u : Nat) : (lateFire p t c).t2s u = c.t2s u := by obtain ⟨_, _, _, h⟩ := lateFire_only p t c; rw [h]; rfl
@[simp] theorem lateFire_cxlp_of (p t : Nat) (c : Chip) (u : Nat) : (lateFire p t c).cxlp u = c.cxlp u := by obtain ⟨_, _, _, h⟩ := lateFire_only p t c; rw [h]; rfl
@[simp] theorem lateFire_loan_of (p t : Nat) (c : Chip) (u : Nat) : (lateFire p t c).loan u = c.loan u := by obtain ⟨_, _, _, h⟩ := lateFire_only p t c; rw [h]; rfl
@[simp] theorem lateFire_coll_of (p t : Nat) (c : Chip) (u : Nat) : (lateFire p t c).coll u = c.coll u := by obtain ⟨_, _, _, h⟩ := lateFire_only p t c; rw [h]; rfl
@[simp] theorem lateFire_ring_of (p t : Nat) (c : Chip) (u : Nat) : (lateFire p t c).ring u = c.ring u := by obtain ⟨_, _, _, h⟩ := lateFire_only p t c; rw [h]; rfl
@[simp] theorem lateFire_byteAt_of (p t : Nat) (c : Chip) (x : Nat) : (lateFire p t c).byteAt x = c.byteAt x := by obtain ⟨_, _, _, h⟩ := lateFire_only p t c; rw [h]; rfl
@[simp] theorem lateFire_ctr_of (p t : Nat) (c : Chip) (u v : Nat) : (lateFire p t c).ctr u v = c.ctr u v := by obtain ⟨_, _, _, h⟩ := lateFire_only p t c; rw [h]; rfl
@[simp] theorem lateFire_poisonIn_of (p t : Nat) (c : Chip) (x y : Nat) : (lateFire p t c).poisonIn x y = c.poisonIn x y := by obtain ⟨_, _, _, h⟩ := lateFire_only p t c; rw [h]; rfl

/-! ### armCe -/

@[simp] theorem armCe_phase (p b : Nat) (c : Chip) : (armCe p b c).phase = c.phase := by obtain ⟨_, _, _, h⟩ := armCe_only p b c; rw [h]
@[simp] theorem armCe_pairLatch (p b : Nat) (c : Chip) : (armCe p b c).pairLatch = c.pairLatch := by obtain ⟨_, _, _, h⟩ := armCe_only p b c; rw [h]
@[simp] theorem armCe_pairStage (p b : Nat) (c : Chip) : (armCe p b c).pairStage = c.pairStage := by obtain ⟨_, _, _, h⟩ := armCe_only p b c; rw [h]
@[simp] theorem armCe_answer (p b : Nat) (c : Chip) : (armCe p b c).answer = c.answer := by obtain ⟨_, _, _, h⟩ := armCe_only p b c; rw [h]
@[simp] theorem armCe_mem (p b : Nat) (c : Chip) : (armCe p b c).mem = c.mem := by obtain ⟨_, _, _, h⟩ := armCe_only p b c; rw [h]
@[simp] theorem armCe_lower (p b : Nat) (c : Chip) : (armCe p b c).lower = c.lower := by obtain ⟨_, _, _, h⟩ := armCe_only p b c; rw [h]
@[simp] theorem armCe_poison (p b : Nat) (c : Chip) : (armCe p b c).poison = c.poison := by obtain ⟨_, _, _, h⟩ := armCe_only p b c; rw [h]
@[simp] theorem armCe_lowPoison (p b : Nat) (c : Chip) : (armCe p b c).lowPoison = c.lowPoison := by obtain ⟨_, _, _, h⟩ := armCe_only p b c; rw [h]
@[simp] theorem armCe_cores (p b : Nat) (c : Chip) : (armCe p b c).cores = c.cores := by obtain ⟨_, _, _, h⟩ := armCe_only p b c; rw [h]
@[simp] theorem armCe_clusters (p b : Nat) (c : Chip) : (armCe p b c).clusters = c.clusters := by obtain ⟨_, _, _, h⟩ := armCe_only p b c; rw [h]
@[simp] theorem armCe_lrtExp (p b : Nat) (c : Chip) : (armCe p b c).lrtExp = c.lrtExp := by obtain ⟨_, _, _, h⟩ := armCe_only p b c; rw [h]
@[simp] theorem armCe_lrtShadow (p b : Nat) (c : Chip) : (armCe p b c).lrtShadow = c.lrtShadow := by obtain ⟨_, _, _, h⟩ := armCe_only p b c; rw [h]
@[simp] theorem armCe_lrtGen (p b : Nat) (c : Chip) : (armCe p b c).lrtGen = c.lrtGen := by obtain ⟨_, _, _, h⟩ := armCe_only p b c; rw [h]
@[simp] theorem armCe_pwus (p b : Nat) (c : Chip) : (armCe p b c).pwus = c.pwus := by obtain ⟨_, _, _, h⟩ := armCe_only p b c; rw [h]
@[simp] theorem armCe_slots (p b : Nat) (c : Chip) : (armCe p b c).slots = c.slots := by obtain ⟨_, _, _, h⟩ := armCe_only p b c; rw [h]
@[simp] theorem armCe_quar (p b : Nat) (c : Chip) : (armCe p b c).quar = c.quar := by obtain ⟨_, _, _, h⟩ := armCe_only p b c; rw [h]
@[simp] theorem armCe_links (p b : Nat) (c : Chip) : (armCe p b c).links = c.links := by obtain ⟨_, _, _, h⟩ := armCe_only p b c; rw [h]
@[simp] theorem armCe_colls (p b : Nat) (c : Chip) : (armCe p b c).colls = c.colls := by obtain ⟨_, _, _, h⟩ := armCe_only p b c; rw [h]
@[simp] theorem armCe_rings (p b : Nat) (c : Chip) : (armCe p b c).rings = c.rings := by obtain ⟨_, _, _, h⟩ := armCe_only p b c; rw [h]
@[simp] theorem armCe_joins (p b : Nat) (c : Chip) : (armCe p b c).joins = c.joins := by obtain ⟨_, _, _, h⟩ := armCe_only p b c; rw [h]
@[simp] theorem armCe_rcuResult (p b : Nat) (c : Chip) : (armCe p b c).rcuResult = c.rcuResult := by obtain ⟨_, _, _, h⟩ := armCe_only p b c; rw [h]
@[simp] theorem armCe_collResult (p b : Nat) (c : Chip) : (armCe p b c).collResult = c.collResult := by obtain ⟨_, _, _, h⟩ := armCe_only p b c; rw [h]
@[simp] theorem armCe_detachLast (p b : Nat) (c : Chip) : (armCe p b c).detachLast = c.detachLast := by obtain ⟨_, _, _, h⟩ := armCe_only p b c; rw [h]
@[simp] theorem armCe_rtActive (p b : Nat) (c : Chip) : (armCe p b c).rtActive = c.rtActive := by obtain ⟨_, _, _, h⟩ := armCe_only p b c; rw [h]
@[simp] theorem armCe_rtArmed (p b : Nat) (c : Chip) : (armCe p b c).rtArmed = c.rtArmed := by obtain ⟨_, _, _, h⟩ := armCe_only p b c; rw [h]
@[simp] theorem armCe_rtAt (p b : Nat) (c : Chip) : (armCe p b c).rtAt = c.rtAt := by obtain ⟨_, _, _, h⟩ := armCe_only p b c; rw [h]
@[simp] theorem armCe_rtLate (p b : Nat) (c : Chip) : (armCe p b c).rtLate = c.rtLate := by obtain ⟨_, _, _, h⟩ := armCe_only p b c; rw [h]
@[simp] theorem armCe_rtGen (p b : Nat) (c : Chip) : (armCe p b c).rtGen = c.rtGen := by obtain ⟨_, _, _, h⟩ := armCe_only p b c; rw [h]
@[simp] theorem armCe_delivered (p b : Nat) (c : Chip) : (armCe p b c).delivered = c.delivered := by obtain ⟨_, _, _, h⟩ := armCe_only p b c; rw [h]
@[simp] theorem armCe_pktOrd (p b : Nat) (c : Chip) : (armCe p b c).pktOrd = c.pktOrd := by obtain ⟨_, _, _, h⟩ := armCe_only p b c; rw [h]
@[simp] theorem armCe_straps (p b : Nat) (c : Chip) : (armCe p b c).straps = c.straps := by obtain ⟨_, _, _, h⟩ := armCe_only p b c; rw [h]
@[simp] theorem armCe_posId (p b : Nat) (c : Chip) : (armCe p b c).posId = c.posId := by obtain ⟨_, _, _, h⟩ := armCe_only p b c; rw [h]
@[simp] theorem armCe_mst (p b : Nat) (c : Chip) : (armCe p b c).mst = c.mst := by obtain ⟨_, _, _, h⟩ := armCe_only p b c; rw [h]
@[simp] theorem armCe_cad (p b : Nat) (c : Chip) : (armCe p b c).cad = c.cad := by obtain ⟨_, _, _, h⟩ := armCe_only p b c; rw [h]
@[simp] theorem armCe_mtm (p b : Nat) (c : Chip) : (armCe p b c).mtm = c.mtm := by obtain ⟨_, _, _, h⟩ := armCe_only p b c; rw [h]
@[simp] theorem armCe_gmcs (p b : Nat) (c : Chip) : (armCe p b c).gmcs = c.gmcs := by obtain ⟨_, _, _, h⟩ := armCe_only p b c; rw [h]
@[simp] theorem armCe_t2 (p b : Nat) (c : Chip) : (armCe p b c).t2 = c.t2 := by obtain ⟨_, _, _, h⟩ := armCe_only p b c; rw [h]
@[simp] theorem armCe_cxl (p b : Nat) (c : Chip) : (armCe p b c).cxl = c.cxl := by obtain ⟨_, _, _, h⟩ := armCe_only p b c; rw [h]
@[simp] theorem armCe_pwr (p b : Nat) (c : Chip) : (armCe p b c).pwr = c.pwr := by obtain ⟨_, _, _, h⟩ := armCe_only p b c; rw [h]
@[simp] theorem armCe_flash (p b : Nat) (c : Chip) : (armCe p b c).flash = c.flash := by obtain ⟨_, _, _, h⟩ := armCe_only p b c; rw [h]
@[simp] theorem armCe_otp (p b : Nat) (c : Chip) : (armCe p b c).otp = c.otp := by obtain ⟨_, _, _, h⟩ := armCe_only p b c; rw [h]
@[simp] theorem armCe_sec (p b : Nat) (c : Chip) : (armCe p b c).sec = c.sec := by obtain ⟨_, _, _, h⟩ := armCe_only p b c; rw [h]
@[simp] theorem armCe_plans (p b : Nat) (c : Chip) : (armCe p b c).plans = c.plans := by obtain ⟨_, _, _, h⟩ := armCe_only p b c; rw [h]
@[simp] theorem armCe_rolls (p b : Nat) (c : Chip) : (armCe p b c).rolls = c.rolls := by obtain ⟨_, _, _, h⟩ := armCe_only p b c; rw [h]
@[simp] theorem armCe_contribs (p b : Nat) (c : Chip) : (armCe p b c).contribs = c.contribs := by obtain ⟨_, _, _, h⟩ := armCe_only p b c; rw [h]
@[simp] theorem armCe_provBufs (p b : Nat) (c : Chip) : (armCe p b c).provBufs = c.provBufs := by obtain ⟨_, _, _, h⟩ := armCe_only p b c; rw [h]
@[simp] theorem armCe_busy (p b : Nat) (c : Chip) : (armCe p b c).busy = c.busy := by obtain ⟨_, _, _, h⟩ := armCe_only p b c; rw [h]
@[simp] theorem armCe_wiped (p b : Nat) (c : Chip) : (armCe p b c).wiped = c.wiped := by obtain ⟨_, _, _, h⟩ := armCe_only p b c; rw [h]
@[simp] theorem armCe_draw (p b : Nat) (c : Chip) : (armCe p b c).draw = c.draw := by obtain ⟨_, _, _, h⟩ := armCe_only p b c; rw [h]
@[simp] theorem armCe_beat_of (p b : Nat) (c : Chip) : (armCe p b c).beat = c.beat := by obtain ⟨_, _, _, h⟩ := armCe_only p b c; rw [h]; rfl
@[simp] theorem armCe_lc_of (p b : Nat) (c : Chip) : (armCe p b c).lc = c.lc := by obtain ⟨_, _, _, h⟩ := armCe_only p b c; rw [h]; rfl
@[simp] theorem armCe_core_of (p b : Nat) (c : Chip) (u : Nat) : (armCe p b c).core u = c.core u := by obtain ⟨_, _, _, h⟩ := armCe_only p b c; rw [h]; rfl
@[simp] theorem armCe_clus_of (p b : Nat) (c : Chip) (u : Nat) : (armCe p b c).clus u = c.clus u := by obtain ⟨_, _, _, h⟩ := armCe_only p b c; rw [h]; rfl
@[simp] theorem armCe_pwu_of (p b : Nat) (c : Chip) (u : Nat) : (armCe p b c).pwu u = c.pwu u := by obtain ⟨_, _, _, h⟩ := armCe_only p b c; rw [h]; rfl
@[simp] theorem armCe_slot_of (p b : Nat) (c : Chip) (u : Nat) : (armCe p b c).slot u = c.slot u := by obtain ⟨_, _, _, h⟩ := armCe_only p b c; rw [h]; rfl
@[simp] theorem armCe_link_of (p b : Nat) (c : Chip) (u : Nat) : (armCe p b c).link u = c.link u := by obtain ⟨_, _, _, h⟩ := armCe_only p b c; rw [h]; rfl
@[simp] theorem armCe_gmc_of (p b : Nat) (c : Chip) (u : Nat) : (armCe p b c).gmc u = c.gmc u := by obtain ⟨_, _, _, h⟩ := armCe_only p b c; rw [h]; rfl
@[simp] theorem armCe_t2s_of (p b : Nat) (c : Chip) (u : Nat) : (armCe p b c).t2s u = c.t2s u := by obtain ⟨_, _, _, h⟩ := armCe_only p b c; rw [h]; rfl
@[simp] theorem armCe_cxlp_of (p b : Nat) (c : Chip) (u : Nat) : (armCe p b c).cxlp u = c.cxlp u := by obtain ⟨_, _, _, h⟩ := armCe_only p b c; rw [h]; rfl
@[simp] theorem armCe_loan_of (p b : Nat) (c : Chip) (u : Nat) : (armCe p b c).loan u = c.loan u := by obtain ⟨_, _, _, h⟩ := armCe_only p b c; rw [h]; rfl
@[simp] theorem armCe_coll_of (p b : Nat) (c : Chip) (u : Nat) : (armCe p b c).coll u = c.coll u := by obtain ⟨_, _, _, h⟩ := armCe_only p b c; rw [h]; rfl
@[simp] theorem armCe_ring_of (p b : Nat) (c : Chip) (u : Nat) : (armCe p b c).ring u = c.ring u := by obtain ⟨_, _, _, h⟩ := armCe_only p b c; rw [h]; rfl
@[simp] theorem armCe_byteAt_of (p b : Nat) (c : Chip) (x : Nat) : (armCe p b c).byteAt x = c.byteAt x := by obtain ⟨_, _, _, h⟩ := armCe_only p b c; rw [h]; rfl
@[simp] theorem armCe_ctr_of (p b : Nat) (c : Chip) (u v : Nat) : (armCe p b c).ctr u v = c.ctr u v := by obtain ⟨_, _, _, h⟩ := armCe_only p b c; rw [h]; rfl
@[simp] theorem armCe_poisonIn_of (p b : Nat) (c : Chip) (x y : Nat) : (armCe p b c).poisonIn x y = c.poisonIn x y := by obtain ⟨_, _, _, h⟩ := armCe_only p b c; rw [h]; rfl

/-! ### ucOp -/

@[simp] theorem ucOp_phase (p k i d0 d1 : Nat) (c : Chip) : (ucOp p k i d0 d1 c).phase = c.phase := by obtain ⟨_, _, _, _, _, h⟩ := ucOp_only p k i d0 d1 c; rw [h]
@[simp] theorem ucOp_pairLatch (p k i d0 d1 : Nat) (c : Chip) : (ucOp p k i d0 d1 c).pairLatch = c.pairLatch := by obtain ⟨_, _, _, _, _, h⟩ := ucOp_only p k i d0 d1 c; rw [h]
@[simp] theorem ucOp_pairStage (p k i d0 d1 : Nat) (c : Chip) : (ucOp p k i d0 d1 c).pairStage = c.pairStage := by obtain ⟨_, _, _, _, _, h⟩ := ucOp_only p k i d0 d1 c; rw [h]
@[simp] theorem ucOp_answer (p k i d0 d1 : Nat) (c : Chip) : (ucOp p k i d0 d1 c).answer = c.answer := by obtain ⟨_, _, _, _, _, h⟩ := ucOp_only p k i d0 d1 c; rw [h]
@[simp] theorem ucOp_mem (p k i d0 d1 : Nat) (c : Chip) : (ucOp p k i d0 d1 c).mem = c.mem := by obtain ⟨_, _, _, _, _, h⟩ := ucOp_only p k i d0 d1 c; rw [h]
@[simp] theorem ucOp_lower (p k i d0 d1 : Nat) (c : Chip) : (ucOp p k i d0 d1 c).lower = c.lower := by obtain ⟨_, _, _, _, _, h⟩ := ucOp_only p k i d0 d1 c; rw [h]
@[simp] theorem ucOp_poison (p k i d0 d1 : Nat) (c : Chip) : (ucOp p k i d0 d1 c).poison = c.poison := by obtain ⟨_, _, _, _, _, h⟩ := ucOp_only p k i d0 d1 c; rw [h]
@[simp] theorem ucOp_lowPoison (p k i d0 d1 : Nat) (c : Chip) : (ucOp p k i d0 d1 c).lowPoison = c.lowPoison := by obtain ⟨_, _, _, _, _, h⟩ := ucOp_only p k i d0 d1 c; rw [h]
@[simp] theorem ucOp_clusters (p k i d0 d1 : Nat) (c : Chip) : (ucOp p k i d0 d1 c).clusters = c.clusters := by obtain ⟨_, _, _, _, _, h⟩ := ucOp_only p k i d0 d1 c; rw [h]
@[simp] theorem ucOp_lrtExp (p k i d0 d1 : Nat) (c : Chip) : (ucOp p k i d0 d1 c).lrtExp = c.lrtExp := by obtain ⟨_, _, _, _, _, h⟩ := ucOp_only p k i d0 d1 c; rw [h]
@[simp] theorem ucOp_lrtShadow (p k i d0 d1 : Nat) (c : Chip) : (ucOp p k i d0 d1 c).lrtShadow = c.lrtShadow := by obtain ⟨_, _, _, _, _, h⟩ := ucOp_only p k i d0 d1 c; rw [h]
@[simp] theorem ucOp_lrtGen (p k i d0 d1 : Nat) (c : Chip) : (ucOp p k i d0 d1 c).lrtGen = c.lrtGen := by obtain ⟨_, _, _, _, _, h⟩ := ucOp_only p k i d0 d1 c; rw [h]
@[simp] theorem ucOp_pwus (p k i d0 d1 : Nat) (c : Chip) : (ucOp p k i d0 d1 c).pwus = c.pwus := by obtain ⟨_, _, _, _, _, h⟩ := ucOp_only p k i d0 d1 c; rw [h]
@[simp] theorem ucOp_slots (p k i d0 d1 : Nat) (c : Chip) : (ucOp p k i d0 d1 c).slots = c.slots := by obtain ⟨_, _, _, _, _, h⟩ := ucOp_only p k i d0 d1 c; rw [h]
@[simp] theorem ucOp_quar (p k i d0 d1 : Nat) (c : Chip) : (ucOp p k i d0 d1 c).quar = c.quar := by obtain ⟨_, _, _, _, _, h⟩ := ucOp_only p k i d0 d1 c; rw [h]
@[simp] theorem ucOp_links (p k i d0 d1 : Nat) (c : Chip) : (ucOp p k i d0 d1 c).links = c.links := by obtain ⟨_, _, _, _, _, h⟩ := ucOp_only p k i d0 d1 c; rw [h]
@[simp] theorem ucOp_colls (p k i d0 d1 : Nat) (c : Chip) : (ucOp p k i d0 d1 c).colls = c.colls := by obtain ⟨_, _, _, _, _, h⟩ := ucOp_only p k i d0 d1 c; rw [h]
@[simp] theorem ucOp_rings (p k i d0 d1 : Nat) (c : Chip) : (ucOp p k i d0 d1 c).rings = c.rings := by obtain ⟨_, _, _, _, _, h⟩ := ucOp_only p k i d0 d1 c; rw [h]
@[simp] theorem ucOp_joins (p k i d0 d1 : Nat) (c : Chip) : (ucOp p k i d0 d1 c).joins = c.joins := by obtain ⟨_, _, _, _, _, h⟩ := ucOp_only p k i d0 d1 c; rw [h]
@[simp] theorem ucOp_rcuResult (p k i d0 d1 : Nat) (c : Chip) : (ucOp p k i d0 d1 c).rcuResult = c.rcuResult := by obtain ⟨_, _, _, _, _, h⟩ := ucOp_only p k i d0 d1 c; rw [h]
@[simp] theorem ucOp_collResult (p k i d0 d1 : Nat) (c : Chip) : (ucOp p k i d0 d1 c).collResult = c.collResult := by obtain ⟨_, _, _, _, _, h⟩ := ucOp_only p k i d0 d1 c; rw [h]
@[simp] theorem ucOp_detachLast (p k i d0 d1 : Nat) (c : Chip) : (ucOp p k i d0 d1 c).detachLast = c.detachLast := by obtain ⟨_, _, _, _, _, h⟩ := ucOp_only p k i d0 d1 c; rw [h]
@[simp] theorem ucOp_rtActive (p k i d0 d1 : Nat) (c : Chip) : (ucOp p k i d0 d1 c).rtActive = c.rtActive := by obtain ⟨_, _, _, _, _, h⟩ := ucOp_only p k i d0 d1 c; rw [h]
@[simp] theorem ucOp_rtArmed (p k i d0 d1 : Nat) (c : Chip) : (ucOp p k i d0 d1 c).rtArmed = c.rtArmed := by obtain ⟨_, _, _, _, _, h⟩ := ucOp_only p k i d0 d1 c; rw [h]
@[simp] theorem ucOp_rtAt (p k i d0 d1 : Nat) (c : Chip) : (ucOp p k i d0 d1 c).rtAt = c.rtAt := by obtain ⟨_, _, _, _, _, h⟩ := ucOp_only p k i d0 d1 c; rw [h]
@[simp] theorem ucOp_rtLate (p k i d0 d1 : Nat) (c : Chip) : (ucOp p k i d0 d1 c).rtLate = c.rtLate := by obtain ⟨_, _, _, _, _, h⟩ := ucOp_only p k i d0 d1 c; rw [h]
@[simp] theorem ucOp_rtGen (p k i d0 d1 : Nat) (c : Chip) : (ucOp p k i d0 d1 c).rtGen = c.rtGen := by obtain ⟨_, _, _, _, _, h⟩ := ucOp_only p k i d0 d1 c; rw [h]
@[simp] theorem ucOp_delivered (p k i d0 d1 : Nat) (c : Chip) : (ucOp p k i d0 d1 c).delivered = c.delivered := by obtain ⟨_, _, _, _, _, h⟩ := ucOp_only p k i d0 d1 c; rw [h]
@[simp] theorem ucOp_pktOrd (p k i d0 d1 : Nat) (c : Chip) : (ucOp p k i d0 d1 c).pktOrd = c.pktOrd := by obtain ⟨_, _, _, _, _, h⟩ := ucOp_only p k i d0 d1 c; rw [h]
@[simp] theorem ucOp_straps (p k i d0 d1 : Nat) (c : Chip) : (ucOp p k i d0 d1 c).straps = c.straps := by obtain ⟨_, _, _, _, _, h⟩ := ucOp_only p k i d0 d1 c; rw [h]
@[simp] theorem ucOp_posId (p k i d0 d1 : Nat) (c : Chip) : (ucOp p k i d0 d1 c).posId = c.posId := by obtain ⟨_, _, _, _, _, h⟩ := ucOp_only p k i d0 d1 c; rw [h]
@[simp] theorem ucOp_mst (p k i d0 d1 : Nat) (c : Chip) : (ucOp p k i d0 d1 c).mst = c.mst := by obtain ⟨_, _, _, _, _, h⟩ := ucOp_only p k i d0 d1 c; rw [h]
@[simp] theorem ucOp_cad (p k i d0 d1 : Nat) (c : Chip) : (ucOp p k i d0 d1 c).cad = c.cad := by obtain ⟨_, _, _, _, _, h⟩ := ucOp_only p k i d0 d1 c; rw [h]
@[simp] theorem ucOp_mtm (p k i d0 d1 : Nat) (c : Chip) : (ucOp p k i d0 d1 c).mtm = c.mtm := by obtain ⟨_, _, _, _, _, h⟩ := ucOp_only p k i d0 d1 c; rw [h]
@[simp] theorem ucOp_gmcs (p k i d0 d1 : Nat) (c : Chip) : (ucOp p k i d0 d1 c).gmcs = c.gmcs := by obtain ⟨_, _, _, _, _, h⟩ := ucOp_only p k i d0 d1 c; rw [h]
@[simp] theorem ucOp_t2 (p k i d0 d1 : Nat) (c : Chip) : (ucOp p k i d0 d1 c).t2 = c.t2 := by obtain ⟨_, _, _, _, _, h⟩ := ucOp_only p k i d0 d1 c; rw [h]
@[simp] theorem ucOp_cxl (p k i d0 d1 : Nat) (c : Chip) : (ucOp p k i d0 d1 c).cxl = c.cxl := by obtain ⟨_, _, _, _, _, h⟩ := ucOp_only p k i d0 d1 c; rw [h]
@[simp] theorem ucOp_flash (p k i d0 d1 : Nat) (c : Chip) : (ucOp p k i d0 d1 c).flash = c.flash := by obtain ⟨_, _, _, _, _, h⟩ := ucOp_only p k i d0 d1 c; rw [h]
@[simp] theorem ucOp_otp (p k i d0 d1 : Nat) (c : Chip) : (ucOp p k i d0 d1 c).otp = c.otp := by obtain ⟨_, _, _, _, _, h⟩ := ucOp_only p k i d0 d1 c; rw [h]
@[simp] theorem ucOp_sec (p k i d0 d1 : Nat) (c : Chip) : (ucOp p k i d0 d1 c).sec = c.sec := by obtain ⟨_, _, _, _, _, h⟩ := ucOp_only p k i d0 d1 c; rw [h]
@[simp] theorem ucOp_plans (p k i d0 d1 : Nat) (c : Chip) : (ucOp p k i d0 d1 c).plans = c.plans := by obtain ⟨_, _, _, _, _, h⟩ := ucOp_only p k i d0 d1 c; rw [h]
@[simp] theorem ucOp_rolls (p k i d0 d1 : Nat) (c : Chip) : (ucOp p k i d0 d1 c).rolls = c.rolls := by obtain ⟨_, _, _, _, _, h⟩ := ucOp_only p k i d0 d1 c; rw [h]
@[simp] theorem ucOp_contribs (p k i d0 d1 : Nat) (c : Chip) : (ucOp p k i d0 d1 c).contribs = c.contribs := by obtain ⟨_, _, _, _, _, h⟩ := ucOp_only p k i d0 d1 c; rw [h]
@[simp] theorem ucOp_provBufs (p k i d0 d1 : Nat) (c : Chip) : (ucOp p k i d0 d1 c).provBufs = c.provBufs := by obtain ⟨_, _, _, _, _, h⟩ := ucOp_only p k i d0 d1 c; rw [h]
@[simp] theorem ucOp_busy (p k i d0 d1 : Nat) (c : Chip) : (ucOp p k i d0 d1 c).busy = c.busy := by obtain ⟨_, _, _, _, _, h⟩ := ucOp_only p k i d0 d1 c; rw [h]
@[simp] theorem ucOp_wiped (p k i d0 d1 : Nat) (c : Chip) : (ucOp p k i d0 d1 c).wiped = c.wiped := by obtain ⟨_, _, _, _, _, h⟩ := ucOp_only p k i d0 d1 c; rw [h]
@[simp] theorem ucOp_draw (p k i d0 d1 : Nat) (c : Chip) : (ucOp p k i d0 d1 c).draw = c.draw := by obtain ⟨_, _, _, _, _, h⟩ := ucOp_only p k i d0 d1 c; rw [h]
@[simp] theorem ucOp_beat_of (p k i d0 d1 : Nat) (c : Chip) : (ucOp p k i d0 d1 c).beat = c.beat := by obtain ⟨_, _, _, _, _, h⟩ := ucOp_only p k i d0 d1 c; rw [h]; rfl
@[simp] theorem ucOp_lc_of (p k i d0 d1 : Nat) (c : Chip) : (ucOp p k i d0 d1 c).lc = c.lc := by obtain ⟨_, _, _, _, _, h⟩ := ucOp_only p k i d0 d1 c; rw [h]; rfl
@[simp] theorem ucOp_clus_of (p k i d0 d1 : Nat) (c : Chip) (u : Nat) : (ucOp p k i d0 d1 c).clus u = c.clus u := by obtain ⟨_, _, _, _, _, h⟩ := ucOp_only p k i d0 d1 c; rw [h]; rfl
@[simp] theorem ucOp_pwu_of (p k i d0 d1 : Nat) (c : Chip) (u : Nat) : (ucOp p k i d0 d1 c).pwu u = c.pwu u := by obtain ⟨_, _, _, _, _, h⟩ := ucOp_only p k i d0 d1 c; rw [h]; rfl
@[simp] theorem ucOp_slot_of (p k i d0 d1 : Nat) (c : Chip) (u : Nat) : (ucOp p k i d0 d1 c).slot u = c.slot u := by obtain ⟨_, _, _, _, _, h⟩ := ucOp_only p k i d0 d1 c; rw [h]; rfl
@[simp] theorem ucOp_link_of (p k i d0 d1 : Nat) (c : Chip) (u : Nat) : (ucOp p k i d0 d1 c).link u = c.link u := by obtain ⟨_, _, _, _, _, h⟩ := ucOp_only p k i d0 d1 c; rw [h]; rfl
@[simp] theorem ucOp_gmc_of (p k i d0 d1 : Nat) (c : Chip) (u : Nat) : (ucOp p k i d0 d1 c).gmc u = c.gmc u := by obtain ⟨_, _, _, _, _, h⟩ := ucOp_only p k i d0 d1 c; rw [h]; rfl
@[simp] theorem ucOp_t2s_of (p k i d0 d1 : Nat) (c : Chip) (u : Nat) : (ucOp p k i d0 d1 c).t2s u = c.t2s u := by obtain ⟨_, _, _, _, _, h⟩ := ucOp_only p k i d0 d1 c; rw [h]; rfl
@[simp] theorem ucOp_cxlp_of (p k i d0 d1 : Nat) (c : Chip) (u : Nat) : (ucOp p k i d0 d1 c).cxlp u = c.cxlp u := by obtain ⟨_, _, _, _, _, h⟩ := ucOp_only p k i d0 d1 c; rw [h]; rfl
@[simp] theorem ucOp_loan_of (p k i d0 d1 : Nat) (c : Chip) (u : Nat) : (ucOp p k i d0 d1 c).loan u = c.loan u := by obtain ⟨_, _, _, _, _, h⟩ := ucOp_only p k i d0 d1 c; rw [h]; rfl
@[simp] theorem ucOp_coll_of (p k i d0 d1 : Nat) (c : Chip) (u : Nat) : (ucOp p k i d0 d1 c).coll u = c.coll u := by obtain ⟨_, _, _, _, _, h⟩ := ucOp_only p k i d0 d1 c; rw [h]; rfl
@[simp] theorem ucOp_ring_of (p k i d0 d1 : Nat) (c : Chip) (u : Nat) : (ucOp p k i d0 d1 c).ring u = c.ring u := by obtain ⟨_, _, _, _, _, h⟩ := ucOp_only p k i d0 d1 c; rw [h]; rfl
@[simp] theorem ucOp_byteAt_of (p k i d0 d1 : Nat) (c : Chip) (x : Nat) : (ucOp p k i d0 d1 c).byteAt x = c.byteAt x := by obtain ⟨_, _, _, _, _, h⟩ := ucOp_only p k i d0 d1 c; rw [h]; rfl
@[simp] theorem ucOp_ctr_of (p k i d0 d1 : Nat) (c : Chip) (u v : Nat) : (ucOp p k i d0 d1 c).ctr u v = c.ctr u v := by obtain ⟨_, _, _, _, _, h⟩ := ucOp_only p k i d0 d1 c; rw [h]; rfl
@[simp] theorem ucOp_poisonIn_of (p k i d0 d1 : Nat) (c : Chip) (x y : Nat) : (ucOp p k i d0 d1 c).poisonIn x y = c.poisonIn x y := by obtain ⟨_, _, _, _, _, h⟩ := ucOp_only p k i d0 d1 c; rw [h]; rfl

/-! ### ucSlice -/

@[simp] theorem ucSlice_phase (p k d0 d1 d2 : Nat) (c : Chip) : (ucSlice p k d0 d1 d2 c).phase = c.phase := by obtain ⟨_, _, _, _, _, h⟩ := ucSlice_only p k d0 d1 d2 c; rw [h]
@[simp] theorem ucSlice_pairLatch (p k d0 d1 d2 : Nat) (c : Chip) : (ucSlice p k d0 d1 d2 c).pairLatch = c.pairLatch := by obtain ⟨_, _, _, _, _, h⟩ := ucSlice_only p k d0 d1 d2 c; rw [h]
@[simp] theorem ucSlice_pairStage (p k d0 d1 d2 : Nat) (c : Chip) : (ucSlice p k d0 d1 d2 c).pairStage = c.pairStage := by obtain ⟨_, _, _, _, _, h⟩ := ucSlice_only p k d0 d1 d2 c; rw [h]
@[simp] theorem ucSlice_answer (p k d0 d1 d2 : Nat) (c : Chip) : (ucSlice p k d0 d1 d2 c).answer = c.answer := by obtain ⟨_, _, _, _, _, h⟩ := ucSlice_only p k d0 d1 d2 c; rw [h]
@[simp] theorem ucSlice_mem (p k d0 d1 d2 : Nat) (c : Chip) : (ucSlice p k d0 d1 d2 c).mem = c.mem := by obtain ⟨_, _, _, _, _, h⟩ := ucSlice_only p k d0 d1 d2 c; rw [h]
@[simp] theorem ucSlice_lower (p k d0 d1 d2 : Nat) (c : Chip) : (ucSlice p k d0 d1 d2 c).lower = c.lower := by obtain ⟨_, _, _, _, _, h⟩ := ucSlice_only p k d0 d1 d2 c; rw [h]
@[simp] theorem ucSlice_poison (p k d0 d1 d2 : Nat) (c : Chip) : (ucSlice p k d0 d1 d2 c).poison = c.poison := by obtain ⟨_, _, _, _, _, h⟩ := ucSlice_only p k d0 d1 d2 c; rw [h]
@[simp] theorem ucSlice_lowPoison (p k d0 d1 d2 : Nat) (c : Chip) : (ucSlice p k d0 d1 d2 c).lowPoison = c.lowPoison := by obtain ⟨_, _, _, _, _, h⟩ := ucSlice_only p k d0 d1 d2 c; rw [h]
@[simp] theorem ucSlice_clusters (p k d0 d1 d2 : Nat) (c : Chip) : (ucSlice p k d0 d1 d2 c).clusters = c.clusters := by obtain ⟨_, _, _, _, _, h⟩ := ucSlice_only p k d0 d1 d2 c; rw [h]
@[simp] theorem ucSlice_lrtExp (p k d0 d1 d2 : Nat) (c : Chip) : (ucSlice p k d0 d1 d2 c).lrtExp = c.lrtExp := by obtain ⟨_, _, _, _, _, h⟩ := ucSlice_only p k d0 d1 d2 c; rw [h]
@[simp] theorem ucSlice_lrtShadow (p k d0 d1 d2 : Nat) (c : Chip) : (ucSlice p k d0 d1 d2 c).lrtShadow = c.lrtShadow := by obtain ⟨_, _, _, _, _, h⟩ := ucSlice_only p k d0 d1 d2 c; rw [h]
@[simp] theorem ucSlice_lrtGen (p k d0 d1 d2 : Nat) (c : Chip) : (ucSlice p k d0 d1 d2 c).lrtGen = c.lrtGen := by obtain ⟨_, _, _, _, _, h⟩ := ucSlice_only p k d0 d1 d2 c; rw [h]
@[simp] theorem ucSlice_pwus (p k d0 d1 d2 : Nat) (c : Chip) : (ucSlice p k d0 d1 d2 c).pwus = c.pwus := by obtain ⟨_, _, _, _, _, h⟩ := ucSlice_only p k d0 d1 d2 c; rw [h]
@[simp] theorem ucSlice_slots (p k d0 d1 d2 : Nat) (c : Chip) : (ucSlice p k d0 d1 d2 c).slots = c.slots := by obtain ⟨_, _, _, _, _, h⟩ := ucSlice_only p k d0 d1 d2 c; rw [h]
@[simp] theorem ucSlice_quar (p k d0 d1 d2 : Nat) (c : Chip) : (ucSlice p k d0 d1 d2 c).quar = c.quar := by obtain ⟨_, _, _, _, _, h⟩ := ucSlice_only p k d0 d1 d2 c; rw [h]
@[simp] theorem ucSlice_links (p k d0 d1 d2 : Nat) (c : Chip) : (ucSlice p k d0 d1 d2 c).links = c.links := by obtain ⟨_, _, _, _, _, h⟩ := ucSlice_only p k d0 d1 d2 c; rw [h]
@[simp] theorem ucSlice_colls (p k d0 d1 d2 : Nat) (c : Chip) : (ucSlice p k d0 d1 d2 c).colls = c.colls := by obtain ⟨_, _, _, _, _, h⟩ := ucSlice_only p k d0 d1 d2 c; rw [h]
@[simp] theorem ucSlice_rings (p k d0 d1 d2 : Nat) (c : Chip) : (ucSlice p k d0 d1 d2 c).rings = c.rings := by obtain ⟨_, _, _, _, _, h⟩ := ucSlice_only p k d0 d1 d2 c; rw [h]
@[simp] theorem ucSlice_joins (p k d0 d1 d2 : Nat) (c : Chip) : (ucSlice p k d0 d1 d2 c).joins = c.joins := by obtain ⟨_, _, _, _, _, h⟩ := ucSlice_only p k d0 d1 d2 c; rw [h]
@[simp] theorem ucSlice_rcuResult (p k d0 d1 d2 : Nat) (c : Chip) : (ucSlice p k d0 d1 d2 c).rcuResult = c.rcuResult := by obtain ⟨_, _, _, _, _, h⟩ := ucSlice_only p k d0 d1 d2 c; rw [h]
@[simp] theorem ucSlice_collResult (p k d0 d1 d2 : Nat) (c : Chip) : (ucSlice p k d0 d1 d2 c).collResult = c.collResult := by obtain ⟨_, _, _, _, _, h⟩ := ucSlice_only p k d0 d1 d2 c; rw [h]
@[simp] theorem ucSlice_detachLast (p k d0 d1 d2 : Nat) (c : Chip) : (ucSlice p k d0 d1 d2 c).detachLast = c.detachLast := by obtain ⟨_, _, _, _, _, h⟩ := ucSlice_only p k d0 d1 d2 c; rw [h]
@[simp] theorem ucSlice_rtActive (p k d0 d1 d2 : Nat) (c : Chip) : (ucSlice p k d0 d1 d2 c).rtActive = c.rtActive := by obtain ⟨_, _, _, _, _, h⟩ := ucSlice_only p k d0 d1 d2 c; rw [h]
@[simp] theorem ucSlice_rtArmed (p k d0 d1 d2 : Nat) (c : Chip) : (ucSlice p k d0 d1 d2 c).rtArmed = c.rtArmed := by obtain ⟨_, _, _, _, _, h⟩ := ucSlice_only p k d0 d1 d2 c; rw [h]
@[simp] theorem ucSlice_rtAt (p k d0 d1 d2 : Nat) (c : Chip) : (ucSlice p k d0 d1 d2 c).rtAt = c.rtAt := by obtain ⟨_, _, _, _, _, h⟩ := ucSlice_only p k d0 d1 d2 c; rw [h]
@[simp] theorem ucSlice_rtLate (p k d0 d1 d2 : Nat) (c : Chip) : (ucSlice p k d0 d1 d2 c).rtLate = c.rtLate := by obtain ⟨_, _, _, _, _, h⟩ := ucSlice_only p k d0 d1 d2 c; rw [h]
@[simp] theorem ucSlice_rtGen (p k d0 d1 d2 : Nat) (c : Chip) : (ucSlice p k d0 d1 d2 c).rtGen = c.rtGen := by obtain ⟨_, _, _, _, _, h⟩ := ucSlice_only p k d0 d1 d2 c; rw [h]
@[simp] theorem ucSlice_delivered (p k d0 d1 d2 : Nat) (c : Chip) : (ucSlice p k d0 d1 d2 c).delivered = c.delivered := by obtain ⟨_, _, _, _, _, h⟩ := ucSlice_only p k d0 d1 d2 c; rw [h]
@[simp] theorem ucSlice_pktOrd (p k d0 d1 d2 : Nat) (c : Chip) : (ucSlice p k d0 d1 d2 c).pktOrd = c.pktOrd := by obtain ⟨_, _, _, _, _, h⟩ := ucSlice_only p k d0 d1 d2 c; rw [h]
@[simp] theorem ucSlice_straps (p k d0 d1 d2 : Nat) (c : Chip) : (ucSlice p k d0 d1 d2 c).straps = c.straps := by obtain ⟨_, _, _, _, _, h⟩ := ucSlice_only p k d0 d1 d2 c; rw [h]
@[simp] theorem ucSlice_posId (p k d0 d1 d2 : Nat) (c : Chip) : (ucSlice p k d0 d1 d2 c).posId = c.posId := by obtain ⟨_, _, _, _, _, h⟩ := ucSlice_only p k d0 d1 d2 c; rw [h]
@[simp] theorem ucSlice_mst (p k d0 d1 d2 : Nat) (c : Chip) : (ucSlice p k d0 d1 d2 c).mst = c.mst := by obtain ⟨_, _, _, _, _, h⟩ := ucSlice_only p k d0 d1 d2 c; rw [h]
@[simp] theorem ucSlice_cad (p k d0 d1 d2 : Nat) (c : Chip) : (ucSlice p k d0 d1 d2 c).cad = c.cad := by obtain ⟨_, _, _, _, _, h⟩ := ucSlice_only p k d0 d1 d2 c; rw [h]
@[simp] theorem ucSlice_mtm (p k d0 d1 d2 : Nat) (c : Chip) : (ucSlice p k d0 d1 d2 c).mtm = c.mtm := by obtain ⟨_, _, _, _, _, h⟩ := ucSlice_only p k d0 d1 d2 c; rw [h]
@[simp] theorem ucSlice_gmcs (p k d0 d1 d2 : Nat) (c : Chip) : (ucSlice p k d0 d1 d2 c).gmcs = c.gmcs := by obtain ⟨_, _, _, _, _, h⟩ := ucSlice_only p k d0 d1 d2 c; rw [h]
@[simp] theorem ucSlice_t2 (p k d0 d1 d2 : Nat) (c : Chip) : (ucSlice p k d0 d1 d2 c).t2 = c.t2 := by obtain ⟨_, _, _, _, _, h⟩ := ucSlice_only p k d0 d1 d2 c; rw [h]
@[simp] theorem ucSlice_cxl (p k d0 d1 d2 : Nat) (c : Chip) : (ucSlice p k d0 d1 d2 c).cxl = c.cxl := by obtain ⟨_, _, _, _, _, h⟩ := ucSlice_only p k d0 d1 d2 c; rw [h]
@[simp] theorem ucSlice_flash (p k d0 d1 d2 : Nat) (c : Chip) : (ucSlice p k d0 d1 d2 c).flash = c.flash := by obtain ⟨_, _, _, _, _, h⟩ := ucSlice_only p k d0 d1 d2 c; rw [h]
@[simp] theorem ucSlice_otp (p k d0 d1 d2 : Nat) (c : Chip) : (ucSlice p k d0 d1 d2 c).otp = c.otp := by obtain ⟨_, _, _, _, _, h⟩ := ucSlice_only p k d0 d1 d2 c; rw [h]
@[simp] theorem ucSlice_sec (p k d0 d1 d2 : Nat) (c : Chip) : (ucSlice p k d0 d1 d2 c).sec = c.sec := by obtain ⟨_, _, _, _, _, h⟩ := ucSlice_only p k d0 d1 d2 c; rw [h]
@[simp] theorem ucSlice_plans (p k d0 d1 d2 : Nat) (c : Chip) : (ucSlice p k d0 d1 d2 c).plans = c.plans := by obtain ⟨_, _, _, _, _, h⟩ := ucSlice_only p k d0 d1 d2 c; rw [h]
@[simp] theorem ucSlice_rolls (p k d0 d1 d2 : Nat) (c : Chip) : (ucSlice p k d0 d1 d2 c).rolls = c.rolls := by obtain ⟨_, _, _, _, _, h⟩ := ucSlice_only p k d0 d1 d2 c; rw [h]
@[simp] theorem ucSlice_contribs (p k d0 d1 d2 : Nat) (c : Chip) : (ucSlice p k d0 d1 d2 c).contribs = c.contribs := by obtain ⟨_, _, _, _, _, h⟩ := ucSlice_only p k d0 d1 d2 c; rw [h]
@[simp] theorem ucSlice_provBufs (p k d0 d1 d2 : Nat) (c : Chip) : (ucSlice p k d0 d1 d2 c).provBufs = c.provBufs := by obtain ⟨_, _, _, _, _, h⟩ := ucSlice_only p k d0 d1 d2 c; rw [h]
@[simp] theorem ucSlice_busy (p k d0 d1 d2 : Nat) (c : Chip) : (ucSlice p k d0 d1 d2 c).busy = c.busy := by obtain ⟨_, _, _, _, _, h⟩ := ucSlice_only p k d0 d1 d2 c; rw [h]
@[simp] theorem ucSlice_wiped (p k d0 d1 d2 : Nat) (c : Chip) : (ucSlice p k d0 d1 d2 c).wiped = c.wiped := by obtain ⟨_, _, _, _, _, h⟩ := ucSlice_only p k d0 d1 d2 c; rw [h]
@[simp] theorem ucSlice_draw (p k d0 d1 d2 : Nat) (c : Chip) : (ucSlice p k d0 d1 d2 c).draw = c.draw := by obtain ⟨_, _, _, _, _, h⟩ := ucSlice_only p k d0 d1 d2 c; rw [h]
@[simp] theorem ucSlice_beat_of (p k d0 d1 d2 : Nat) (c : Chip) : (ucSlice p k d0 d1 d2 c).beat = c.beat := by obtain ⟨_, _, _, _, _, h⟩ := ucSlice_only p k d0 d1 d2 c; rw [h]; rfl
@[simp] theorem ucSlice_lc_of (p k d0 d1 d2 : Nat) (c : Chip) : (ucSlice p k d0 d1 d2 c).lc = c.lc := by obtain ⟨_, _, _, _, _, h⟩ := ucSlice_only p k d0 d1 d2 c; rw [h]; rfl
@[simp] theorem ucSlice_clus_of (p k d0 d1 d2 : Nat) (c : Chip) (u : Nat) : (ucSlice p k d0 d1 d2 c).clus u = c.clus u := by obtain ⟨_, _, _, _, _, h⟩ := ucSlice_only p k d0 d1 d2 c; rw [h]; rfl
@[simp] theorem ucSlice_pwu_of (p k d0 d1 d2 : Nat) (c : Chip) (u : Nat) : (ucSlice p k d0 d1 d2 c).pwu u = c.pwu u := by obtain ⟨_, _, _, _, _, h⟩ := ucSlice_only p k d0 d1 d2 c; rw [h]; rfl
@[simp] theorem ucSlice_slot_of (p k d0 d1 d2 : Nat) (c : Chip) (u : Nat) : (ucSlice p k d0 d1 d2 c).slot u = c.slot u := by obtain ⟨_, _, _, _, _, h⟩ := ucSlice_only p k d0 d1 d2 c; rw [h]; rfl
@[simp] theorem ucSlice_link_of (p k d0 d1 d2 : Nat) (c : Chip) (u : Nat) : (ucSlice p k d0 d1 d2 c).link u = c.link u := by obtain ⟨_, _, _, _, _, h⟩ := ucSlice_only p k d0 d1 d2 c; rw [h]; rfl
@[simp] theorem ucSlice_gmc_of (p k d0 d1 d2 : Nat) (c : Chip) (u : Nat) : (ucSlice p k d0 d1 d2 c).gmc u = c.gmc u := by obtain ⟨_, _, _, _, _, h⟩ := ucSlice_only p k d0 d1 d2 c; rw [h]; rfl
@[simp] theorem ucSlice_t2s_of (p k d0 d1 d2 : Nat) (c : Chip) (u : Nat) : (ucSlice p k d0 d1 d2 c).t2s u = c.t2s u := by obtain ⟨_, _, _, _, _, h⟩ := ucSlice_only p k d0 d1 d2 c; rw [h]; rfl
@[simp] theorem ucSlice_cxlp_of (p k d0 d1 d2 : Nat) (c : Chip) (u : Nat) : (ucSlice p k d0 d1 d2 c).cxlp u = c.cxlp u := by obtain ⟨_, _, _, _, _, h⟩ := ucSlice_only p k d0 d1 d2 c; rw [h]; rfl
@[simp] theorem ucSlice_loan_of (p k d0 d1 d2 : Nat) (c : Chip) (u : Nat) : (ucSlice p k d0 d1 d2 c).loan u = c.loan u := by obtain ⟨_, _, _, _, _, h⟩ := ucSlice_only p k d0 d1 d2 c; rw [h]; rfl
@[simp] theorem ucSlice_coll_of (p k d0 d1 d2 : Nat) (c : Chip) (u : Nat) : (ucSlice p k d0 d1 d2 c).coll u = c.coll u := by obtain ⟨_, _, _, _, _, h⟩ := ucSlice_only p k d0 d1 d2 c; rw [h]; rfl
@[simp] theorem ucSlice_ring_of (p k d0 d1 d2 : Nat) (c : Chip) (u : Nat) : (ucSlice p k d0 d1 d2 c).ring u = c.ring u := by obtain ⟨_, _, _, _, _, h⟩ := ucSlice_only p k d0 d1 d2 c; rw [h]; rfl
@[simp] theorem ucSlice_byteAt_of (p k d0 d1 d2 : Nat) (c : Chip) (x : Nat) : (ucSlice p k d0 d1 d2 c).byteAt x = c.byteAt x := by obtain ⟨_, _, _, _, _, h⟩ := ucSlice_only p k d0 d1 d2 c; rw [h]; rfl
@[simp] theorem ucSlice_ctr_of (p k d0 d1 d2 : Nat) (c : Chip) (u v : Nat) : (ucSlice p k d0 d1 d2 c).ctr u v = c.ctr u v := by obtain ⟨_, _, _, _, _, h⟩ := ucSlice_only p k d0 d1 d2 c; rw [h]; rfl
@[simp] theorem ucSlice_poisonIn_of (p k d0 d1 d2 : Nat) (c : Chip) (x y : Nat) : (ucSlice p k d0 d1 d2 c).poisonIn x y = c.poisonIn x y := by obtain ⟨_, _, _, _, _, h⟩ := ucSlice_only p k d0 d1 d2 c; rw [h]; rfl

/-! ### ucSeq -/

@[simp] theorem ucSeq_phase (n k d0 d1 : Nat) (c : Chip) : (ucSeq n k d0 d1 c).phase = c.phase := by obtain ⟨_, _, _, _, _, h⟩ := ucSeq_only n k d0 d1 c; rw [h]
@[simp] theorem ucSeq_pairLatch (n k d0 d1 : Nat) (c : Chip) : (ucSeq n k d0 d1 c).pairLatch = c.pairLatch := by obtain ⟨_, _, _, _, _, h⟩ := ucSeq_only n k d0 d1 c; rw [h]
@[simp] theorem ucSeq_pairStage (n k d0 d1 : Nat) (c : Chip) : (ucSeq n k d0 d1 c).pairStage = c.pairStage := by obtain ⟨_, _, _, _, _, h⟩ := ucSeq_only n k d0 d1 c; rw [h]
@[simp] theorem ucSeq_answer (n k d0 d1 : Nat) (c : Chip) : (ucSeq n k d0 d1 c).answer = c.answer := by obtain ⟨_, _, _, _, _, h⟩ := ucSeq_only n k d0 d1 c; rw [h]
@[simp] theorem ucSeq_mem (n k d0 d1 : Nat) (c : Chip) : (ucSeq n k d0 d1 c).mem = c.mem := by obtain ⟨_, _, _, _, _, h⟩ := ucSeq_only n k d0 d1 c; rw [h]
@[simp] theorem ucSeq_lower (n k d0 d1 : Nat) (c : Chip) : (ucSeq n k d0 d1 c).lower = c.lower := by obtain ⟨_, _, _, _, _, h⟩ := ucSeq_only n k d0 d1 c; rw [h]
@[simp] theorem ucSeq_poison (n k d0 d1 : Nat) (c : Chip) : (ucSeq n k d0 d1 c).poison = c.poison := by obtain ⟨_, _, _, _, _, h⟩ := ucSeq_only n k d0 d1 c; rw [h]
@[simp] theorem ucSeq_lowPoison (n k d0 d1 : Nat) (c : Chip) : (ucSeq n k d0 d1 c).lowPoison = c.lowPoison := by obtain ⟨_, _, _, _, _, h⟩ := ucSeq_only n k d0 d1 c; rw [h]
@[simp] theorem ucSeq_clusters (n k d0 d1 : Nat) (c : Chip) : (ucSeq n k d0 d1 c).clusters = c.clusters := by obtain ⟨_, _, _, _, _, h⟩ := ucSeq_only n k d0 d1 c; rw [h]
@[simp] theorem ucSeq_lrtExp (n k d0 d1 : Nat) (c : Chip) : (ucSeq n k d0 d1 c).lrtExp = c.lrtExp := by obtain ⟨_, _, _, _, _, h⟩ := ucSeq_only n k d0 d1 c; rw [h]
@[simp] theorem ucSeq_lrtShadow (n k d0 d1 : Nat) (c : Chip) : (ucSeq n k d0 d1 c).lrtShadow = c.lrtShadow := by obtain ⟨_, _, _, _, _, h⟩ := ucSeq_only n k d0 d1 c; rw [h]
@[simp] theorem ucSeq_lrtGen (n k d0 d1 : Nat) (c : Chip) : (ucSeq n k d0 d1 c).lrtGen = c.lrtGen := by obtain ⟨_, _, _, _, _, h⟩ := ucSeq_only n k d0 d1 c; rw [h]
@[simp] theorem ucSeq_pwus (n k d0 d1 : Nat) (c : Chip) : (ucSeq n k d0 d1 c).pwus = c.pwus := by obtain ⟨_, _, _, _, _, h⟩ := ucSeq_only n k d0 d1 c; rw [h]
@[simp] theorem ucSeq_slots (n k d0 d1 : Nat) (c : Chip) : (ucSeq n k d0 d1 c).slots = c.slots := by obtain ⟨_, _, _, _, _, h⟩ := ucSeq_only n k d0 d1 c; rw [h]
@[simp] theorem ucSeq_quar (n k d0 d1 : Nat) (c : Chip) : (ucSeq n k d0 d1 c).quar = c.quar := by obtain ⟨_, _, _, _, _, h⟩ := ucSeq_only n k d0 d1 c; rw [h]
@[simp] theorem ucSeq_links (n k d0 d1 : Nat) (c : Chip) : (ucSeq n k d0 d1 c).links = c.links := by obtain ⟨_, _, _, _, _, h⟩ := ucSeq_only n k d0 d1 c; rw [h]
@[simp] theorem ucSeq_colls (n k d0 d1 : Nat) (c : Chip) : (ucSeq n k d0 d1 c).colls = c.colls := by obtain ⟨_, _, _, _, _, h⟩ := ucSeq_only n k d0 d1 c; rw [h]
@[simp] theorem ucSeq_rings (n k d0 d1 : Nat) (c : Chip) : (ucSeq n k d0 d1 c).rings = c.rings := by obtain ⟨_, _, _, _, _, h⟩ := ucSeq_only n k d0 d1 c; rw [h]
@[simp] theorem ucSeq_joins (n k d0 d1 : Nat) (c : Chip) : (ucSeq n k d0 d1 c).joins = c.joins := by obtain ⟨_, _, _, _, _, h⟩ := ucSeq_only n k d0 d1 c; rw [h]
@[simp] theorem ucSeq_rcuResult (n k d0 d1 : Nat) (c : Chip) : (ucSeq n k d0 d1 c).rcuResult = c.rcuResult := by obtain ⟨_, _, _, _, _, h⟩ := ucSeq_only n k d0 d1 c; rw [h]
@[simp] theorem ucSeq_collResult (n k d0 d1 : Nat) (c : Chip) : (ucSeq n k d0 d1 c).collResult = c.collResult := by obtain ⟨_, _, _, _, _, h⟩ := ucSeq_only n k d0 d1 c; rw [h]
@[simp] theorem ucSeq_detachLast (n k d0 d1 : Nat) (c : Chip) : (ucSeq n k d0 d1 c).detachLast = c.detachLast := by obtain ⟨_, _, _, _, _, h⟩ := ucSeq_only n k d0 d1 c; rw [h]
@[simp] theorem ucSeq_rtActive (n k d0 d1 : Nat) (c : Chip) : (ucSeq n k d0 d1 c).rtActive = c.rtActive := by obtain ⟨_, _, _, _, _, h⟩ := ucSeq_only n k d0 d1 c; rw [h]
@[simp] theorem ucSeq_rtArmed (n k d0 d1 : Nat) (c : Chip) : (ucSeq n k d0 d1 c).rtArmed = c.rtArmed := by obtain ⟨_, _, _, _, _, h⟩ := ucSeq_only n k d0 d1 c; rw [h]
@[simp] theorem ucSeq_rtAt (n k d0 d1 : Nat) (c : Chip) : (ucSeq n k d0 d1 c).rtAt = c.rtAt := by obtain ⟨_, _, _, _, _, h⟩ := ucSeq_only n k d0 d1 c; rw [h]
@[simp] theorem ucSeq_rtLate (n k d0 d1 : Nat) (c : Chip) : (ucSeq n k d0 d1 c).rtLate = c.rtLate := by obtain ⟨_, _, _, _, _, h⟩ := ucSeq_only n k d0 d1 c; rw [h]
@[simp] theorem ucSeq_rtGen (n k d0 d1 : Nat) (c : Chip) : (ucSeq n k d0 d1 c).rtGen = c.rtGen := by obtain ⟨_, _, _, _, _, h⟩ := ucSeq_only n k d0 d1 c; rw [h]
@[simp] theorem ucSeq_delivered (n k d0 d1 : Nat) (c : Chip) : (ucSeq n k d0 d1 c).delivered = c.delivered := by obtain ⟨_, _, _, _, _, h⟩ := ucSeq_only n k d0 d1 c; rw [h]
@[simp] theorem ucSeq_pktOrd (n k d0 d1 : Nat) (c : Chip) : (ucSeq n k d0 d1 c).pktOrd = c.pktOrd := by obtain ⟨_, _, _, _, _, h⟩ := ucSeq_only n k d0 d1 c; rw [h]
@[simp] theorem ucSeq_straps (n k d0 d1 : Nat) (c : Chip) : (ucSeq n k d0 d1 c).straps = c.straps := by obtain ⟨_, _, _, _, _, h⟩ := ucSeq_only n k d0 d1 c; rw [h]
@[simp] theorem ucSeq_posId (n k d0 d1 : Nat) (c : Chip) : (ucSeq n k d0 d1 c).posId = c.posId := by obtain ⟨_, _, _, _, _, h⟩ := ucSeq_only n k d0 d1 c; rw [h]
@[simp] theorem ucSeq_mst (n k d0 d1 : Nat) (c : Chip) : (ucSeq n k d0 d1 c).mst = c.mst := by obtain ⟨_, _, _, _, _, h⟩ := ucSeq_only n k d0 d1 c; rw [h]
@[simp] theorem ucSeq_cad (n k d0 d1 : Nat) (c : Chip) : (ucSeq n k d0 d1 c).cad = c.cad := by obtain ⟨_, _, _, _, _, h⟩ := ucSeq_only n k d0 d1 c; rw [h]
@[simp] theorem ucSeq_mtm (n k d0 d1 : Nat) (c : Chip) : (ucSeq n k d0 d1 c).mtm = c.mtm := by obtain ⟨_, _, _, _, _, h⟩ := ucSeq_only n k d0 d1 c; rw [h]
@[simp] theorem ucSeq_gmcs (n k d0 d1 : Nat) (c : Chip) : (ucSeq n k d0 d1 c).gmcs = c.gmcs := by obtain ⟨_, _, _, _, _, h⟩ := ucSeq_only n k d0 d1 c; rw [h]
@[simp] theorem ucSeq_t2 (n k d0 d1 : Nat) (c : Chip) : (ucSeq n k d0 d1 c).t2 = c.t2 := by obtain ⟨_, _, _, _, _, h⟩ := ucSeq_only n k d0 d1 c; rw [h]
@[simp] theorem ucSeq_cxl (n k d0 d1 : Nat) (c : Chip) : (ucSeq n k d0 d1 c).cxl = c.cxl := by obtain ⟨_, _, _, _, _, h⟩ := ucSeq_only n k d0 d1 c; rw [h]
@[simp] theorem ucSeq_flash (n k d0 d1 : Nat) (c : Chip) : (ucSeq n k d0 d1 c).flash = c.flash := by obtain ⟨_, _, _, _, _, h⟩ := ucSeq_only n k d0 d1 c; rw [h]
@[simp] theorem ucSeq_otp (n k d0 d1 : Nat) (c : Chip) : (ucSeq n k d0 d1 c).otp = c.otp := by obtain ⟨_, _, _, _, _, h⟩ := ucSeq_only n k d0 d1 c; rw [h]
@[simp] theorem ucSeq_sec (n k d0 d1 : Nat) (c : Chip) : (ucSeq n k d0 d1 c).sec = c.sec := by obtain ⟨_, _, _, _, _, h⟩ := ucSeq_only n k d0 d1 c; rw [h]
@[simp] theorem ucSeq_plans (n k d0 d1 : Nat) (c : Chip) : (ucSeq n k d0 d1 c).plans = c.plans := by obtain ⟨_, _, _, _, _, h⟩ := ucSeq_only n k d0 d1 c; rw [h]
@[simp] theorem ucSeq_rolls (n k d0 d1 : Nat) (c : Chip) : (ucSeq n k d0 d1 c).rolls = c.rolls := by obtain ⟨_, _, _, _, _, h⟩ := ucSeq_only n k d0 d1 c; rw [h]
@[simp] theorem ucSeq_contribs (n k d0 d1 : Nat) (c : Chip) : (ucSeq n k d0 d1 c).contribs = c.contribs := by obtain ⟨_, _, _, _, _, h⟩ := ucSeq_only n k d0 d1 c; rw [h]
@[simp] theorem ucSeq_provBufs (n k d0 d1 : Nat) (c : Chip) : (ucSeq n k d0 d1 c).provBufs = c.provBufs := by obtain ⟨_, _, _, _, _, h⟩ := ucSeq_only n k d0 d1 c; rw [h]
@[simp] theorem ucSeq_busy (n k d0 d1 : Nat) (c : Chip) : (ucSeq n k d0 d1 c).busy = c.busy := by obtain ⟨_, _, _, _, _, h⟩ := ucSeq_only n k d0 d1 c; rw [h]
@[simp] theorem ucSeq_wiped (n k d0 d1 : Nat) (c : Chip) : (ucSeq n k d0 d1 c).wiped = c.wiped := by obtain ⟨_, _, _, _, _, h⟩ := ucSeq_only n k d0 d1 c; rw [h]
@[simp] theorem ucSeq_draw (n k d0 d1 : Nat) (c : Chip) : (ucSeq n k d0 d1 c).draw = c.draw := by obtain ⟨_, _, _, _, _, h⟩ := ucSeq_only n k d0 d1 c; rw [h]
@[simp] theorem ucSeq_beat_of (n k d0 d1 : Nat) (c : Chip) : (ucSeq n k d0 d1 c).beat = c.beat := by obtain ⟨_, _, _, _, _, h⟩ := ucSeq_only n k d0 d1 c; rw [h]; rfl
@[simp] theorem ucSeq_lc_of (n k d0 d1 : Nat) (c : Chip) : (ucSeq n k d0 d1 c).lc = c.lc := by obtain ⟨_, _, _, _, _, h⟩ := ucSeq_only n k d0 d1 c; rw [h]; rfl
@[simp] theorem ucSeq_clus_of (n k d0 d1 : Nat) (c : Chip) (u : Nat) : (ucSeq n k d0 d1 c).clus u = c.clus u := by obtain ⟨_, _, _, _, _, h⟩ := ucSeq_only n k d0 d1 c; rw [h]; rfl
@[simp] theorem ucSeq_pwu_of (n k d0 d1 : Nat) (c : Chip) (u : Nat) : (ucSeq n k d0 d1 c).pwu u = c.pwu u := by obtain ⟨_, _, _, _, _, h⟩ := ucSeq_only n k d0 d1 c; rw [h]; rfl
@[simp] theorem ucSeq_slot_of (n k d0 d1 : Nat) (c : Chip) (u : Nat) : (ucSeq n k d0 d1 c).slot u = c.slot u := by obtain ⟨_, _, _, _, _, h⟩ := ucSeq_only n k d0 d1 c; rw [h]; rfl
@[simp] theorem ucSeq_link_of (n k d0 d1 : Nat) (c : Chip) (u : Nat) : (ucSeq n k d0 d1 c).link u = c.link u := by obtain ⟨_, _, _, _, _, h⟩ := ucSeq_only n k d0 d1 c; rw [h]; rfl
@[simp] theorem ucSeq_gmc_of (n k d0 d1 : Nat) (c : Chip) (u : Nat) : (ucSeq n k d0 d1 c).gmc u = c.gmc u := by obtain ⟨_, _, _, _, _, h⟩ := ucSeq_only n k d0 d1 c; rw [h]; rfl
@[simp] theorem ucSeq_t2s_of (n k d0 d1 : Nat) (c : Chip) (u : Nat) : (ucSeq n k d0 d1 c).t2s u = c.t2s u := by obtain ⟨_, _, _, _, _, h⟩ := ucSeq_only n k d0 d1 c; rw [h]; rfl
@[simp] theorem ucSeq_cxlp_of (n k d0 d1 : Nat) (c : Chip) (u : Nat) : (ucSeq n k d0 d1 c).cxlp u = c.cxlp u := by obtain ⟨_, _, _, _, _, h⟩ := ucSeq_only n k d0 d1 c; rw [h]; rfl
@[simp] theorem ucSeq_loan_of (n k d0 d1 : Nat) (c : Chip) (u : Nat) : (ucSeq n k d0 d1 c).loan u = c.loan u := by obtain ⟨_, _, _, _, _, h⟩ := ucSeq_only n k d0 d1 c; rw [h]; rfl
@[simp] theorem ucSeq_coll_of (n k d0 d1 : Nat) (c : Chip) (u : Nat) : (ucSeq n k d0 d1 c).coll u = c.coll u := by obtain ⟨_, _, _, _, _, h⟩ := ucSeq_only n k d0 d1 c; rw [h]; rfl
@[simp] theorem ucSeq_ring_of (n k d0 d1 : Nat) (c : Chip) (u : Nat) : (ucSeq n k d0 d1 c).ring u = c.ring u := by obtain ⟨_, _, _, _, _, h⟩ := ucSeq_only n k d0 d1 c; rw [h]; rfl
@[simp] theorem ucSeq_byteAt_of (n k d0 d1 : Nat) (c : Chip) (x : Nat) : (ucSeq n k d0 d1 c).byteAt x = c.byteAt x := by obtain ⟨_, _, _, _, _, h⟩ := ucSeq_only n k d0 d1 c; rw [h]; rfl
@[simp] theorem ucSeq_ctr_of (n k d0 d1 : Nat) (c : Chip) (u v : Nat) : (ucSeq n k d0 d1 c).ctr u v = c.ctr u v := by obtain ⟨_, _, _, _, _, h⟩ := ucSeq_only n k d0 d1 c; rw [h]; rfl
@[simp] theorem ucSeq_poisonIn_of (n k d0 d1 : Nat) (c : Chip) (x y : Nat) : (ucSeq n k d0 d1 c).poisonIn x y = c.poisonIn x y := by obtain ⟨_, _, _, _, _, h⟩ := ucSeq_only n k d0 d1 c; rw [h]; rfl

/-! ### Registers -/

/-- An event leaves every register but the control link's IRQ_STS as it was. -/
theorem addEvent_rg (k p : Nat) (l : List Nat) (c : Chip) (a : Nat) (h : a ≠ ra pgMbp 0x20) :
    (addEvent k p l c).rg a = c.rg a := by
  unfold addEvent
  dsimp only
  split_ifs
  · exact Chip.setRg_rg_other c _ _ a h
  · rfl
  · rfl
  · rfl

theorem raiseIrq_rg (p i : Nat) (c : Chip) (a : Nat) (h : a ≠ ra p 0x20) (h' : a ≠ ra pgMbp 0x20) :
    (raiseIrq p i c).rg a = c.rg a := by
  unfold raiseIrq
  dsimp only
  split_ifs
  · exact Chip.setRg_rg_other c _ _ a h
  · rw [addEvent_rg _ _ _ _ _ h']; exact Chip.setRg_rg_other c _ _ a h

theorem sendFrame_rg (f : Frame) (c : Chip) (a : Nat) (h : a ≠ ra pgMbp 0x20) : (sendFrame f c).rg a = c.rg a := by
  unfold sendFrame
  dsimp only
  split
  · split
    · split
      · exact raiseIrq_rg _ _ _ a h h
      · rfl
    · rfl
  · rfl

theorem sendNew_rg (old c : Chip) (a : Nat) (h : a ≠ ra pgMbp 0x20) : (sendNew old c).rg a = c.rg a := by
  unfold sendNew
  generalize List.drop _ _ = l
  induction l generalizing c with
  | nil => rfl
  | cons e l ih =>
    rw [List.foldl_cons, ih]
    unfold sendEvent; split
    · exact sendFrame_rg _ _ a h
    · rfl

theorem event_rg (k p : Nat) (l : List Nat) (c : Chip) (a : Nat) (h : a ≠ ra pgMbp 0x20) : (event k p l c).rg a = c.rg a := by
  rw [event, sendNew_rg _ _ a h, addEvent_rg _ _ _ _ a h]

/-- An interrupt leaves every register but IRQ_STS of its page and of the control link as it was. -/
theorem irq_rg (p i : Nat) (c : Chip) (a : Nat) (h : a ≠ ra p 0x20) (h' : a ≠ ra pgMbp 0x20) : (irq p i c).rg a = c.rg a := by
  rw [irq, sendNew_rg _ _ a h', raiseIrq_rg _ _ _ a h h']

/-- An interrupt sets its IRQ_STS bit (R350). -/
theorem irq_sts (p i : Nat) (c : Chip) (h : p ≠ pgMbp) :
    (irq p i c).rg (ra p 0x20) = (c.rg (ra p 0x20) ||| 2 ^ i) % 2 ^ 32 := by
  have h' : ra p 0x20 ≠ ra pgMbp 0x20 := by simp only [ra]; omega
  rw [irq, sendNew_rg _ _ _ h']
  unfold raiseIrq
  dsimp only
  split_ifs
  · exact Chip.setRg_rg_same c _ _
  · rw [addEvent_rg _ _ _ _ _ h']; exact Chip.setRg_rg_same c _ _

/-- A record's way into the queue touches no register but the counters and IRQ_STS of the two pages named. -/
theorem enqueueRec_rg (e : ErrRec) (c : Chip) (a : Nat) (h : a ≠ ra pgMbp 0x20) (h1 : a ≠ ra pgTam 0x20) (h2 : a ≠ ra pgTam 0x104) :
    (enqueueRec e c).rg a = c.rg a := by
  unfold enqueueRec
  dsimp only
  split
  · rfl
  · split_ifs
    · rw [event_rg _ _ _ _ a h]; rfl
    · rfl
    · rw [event_rg _ _ _ _ a h]; rfl
    · rw [event_rg _ _ _ _ a h]; rfl
    · rw [irq_rg _ _ _ a h1 h]; exact Chip.setRg_rg_other c _ _ a h2

theorem recIte_rg (P : Prop) [Decidable P] (e : ErrRec) (c : Chip) (a : Nat) (h : a ≠ ra pgMbp 0x20) (h1 : a ≠ ra pgTam 0x20)
    (h2 : a ≠ ra pgTam 0x104) : (if P then enqueueRec e c else c).rg a = c.rg a := by
  split
  · exact enqueueRec_rg e c a h h1 h2
  · rfl

/-- A corrected error leaves every register but these as it was. -/
theorem ce_rg (p k d0 d1 : Nat) (c : Chip) (a : Nat) (h : a ≠ ra pgMbp 0x20) (h1 : a ≠ ra pgTam 0x20) (h2 : a ≠ ra pgTam 0x104)
    (h3 : a ≠ ra p 0x10) (h4 : a ≠ ra p 0x1C) : (ce p k d0 d1 c).rg a = c.rg a := by
  have hs : ∀ v w, ((c.setRg (ra p 0x10) v).setRg (ra p 0x1C) w).rg a = c.rg a := fun v w => by
    rw [Chip.setRg_rg_other _ _ _ a h4, Chip.setRg_rg_other _ _ _ a h3]
  unfold ce logErr logWith
  simp only [Nat.zero_ne_one, OfNat.zero_ne_ofNat, Bool.or_self, Bool.and_false, Bool.false_eq_true, if_false,
    show ((0 : Nat) == 1) = false from rfl, show ((0 : Nat) == 2) = false from rfl]
  rw [recIte_rg _ _ _ a h h1 h2]; exact hs _ _

/-- A corrected error sets its class and cause bits of ERR_STS (R347, R427). -/
theorem ce_sts (p k d0 d1 : Nat) (c : Chip) :
    (ce p k d0 d1 c).rg (ra p 0x10) = (c.rg (ra p 0x10) ||| 1 ||| 2 ^ k) % 2 ^ 32 := by
  have hn : ra p 0x10 ≠ ra pgMbp 0x20 := by simp only [ra]; omega
  have h1 : ra p 0x10 ≠ ra pgTam 0x20 := by simp only [ra]; omega
  have h2 : ra p 0x10 ≠ ra pgTam 0x104 := by simp only [ra]; omega
  have h3 : ra p 0x10 ≠ ra p 0x1C := by simp only [ra]; omega
  have hs : ∀ v w, ((c.setRg (ra p 0x10) v).setRg (ra p 0x1C) w).rg (ra p 0x10) = v % 2 ^ 32 := fun v w => by
    rw [Chip.setRg_rg_other _ _ _ _ h3, Chip.setRg_rg_same]
  unfold ce logErr logWith
  simp only [Nat.zero_ne_one, OfNat.zero_ne_ofNat, Bool.or_self, Bool.and_false, Bool.false_eq_true, if_false,
    show ((0 : Nat) == 1) = false from rfl, show ((0 : Nat) == 2) = false from rfl]
  rw [recIte_rg _ _ _ _ hn h1 h2, hs]; simp [Nat.or_assoc]

end Sys2Proof.Machine
end

