-- ==== Sys2Proof/Laws/Does.lean ====
section
/-! SUPPORT. How a command's completion follows from its operation, and what logging an error does in the terms of the
statements. -/

namespace Sys2Proof.Machine

/-! ### Completion -/

theorem does_act {i : Instr} {s : State} {f : Chip → Chip} {P : Chip → Prop} (h : exec i s = act f s) (hp : P (f s.chip)) :
    Does i s P := ⟨_, h, rfl, hp⟩

theorem live_on {c : Chip} (f : Chip → Chip) (h : c.isOn) : live f c = f c := if_pos h
theorem run_ready {c : Chip} (f : Chip → Chip) (h : c.isReady) : run f c = f c := if_pos h
theorem work_powered {c : Chip} (f : Chip → Chip) (h : c.isPowered) : work f c = f c := if_pos h
theorem awake_on {c : Chip} (f : Chip → Chip) (h : c.phase ≠ .off) : awake f c = f c := if_neg h

theorem does_live {i : Instr} {s : State} {f : Chip → Chip} {P : Chip → Prop} (h : exec i s = act (live f) s)
    (hc : s.chip.isOn) (hp : P (f s.chip)) : Does i s P := does_act h (by rw [live_on f hc]; exact hp)
theorem does_run {i : Instr} {s : State} {f : Chip → Chip} {P : Chip → Prop} (h : exec i s = act (run f) s)
    (hc : s.chip.isReady) (hp : P (f s.chip)) : Does i s P := does_act h (by rw [run_ready f hc]; exact hp)
theorem does_work {i : Instr} {s : State} {f : Chip → Chip} {P : Chip → Prop} (h : exec i s = act (work f) s)
    (hc : s.chip.isPowered) (hp : P (f s.chip)) : Does i s P := does_act h (by rw [work_powered f hc]; exact hp)
theorem does_awake {i : Instr} {s : State} {f : Chip → Chip} {P : Chip → Prop} (h : exec i s = act (awake f) s)
    (hc : s.chip.phase ≠ .off) (hp : P (f s.chip)) : Does i s P := does_act h (by rw [awake_on f hc]; exact hp)

/-- A core with no launch waiting launches nothing after a command. -/
theorem launchPending_none {n : Nat} {c : Chip} (h : (c.core n).pending = none) : launchPending n c = c := by
  simp [launchPending, h]
theorem does_core {i : Instr} {s : State} {f : Chip → Chip} {P : Chip → Prop} (n : Nat) (h : exec i s = act (coreCmd n f) s)
    (hc : s.chip.isPowered) (hq : ((f s.chip).core n).pending = none) (hp : P (f s.chip)) : Does i s P :=
  does_work h hc (by rw [launchPending_none hq]; exact hp)

theorem gated_open {c : Chip} {b : Blk} {a v : Nat} (f : Chip → Chip) (hc : c.isOn) (h3 : c.pwr.st ≠ 3) (h4 : c.pwr.st ≠ 4) :
    gated b a v f c = f c := by
  unfold gated; rw [live_on _ hc]; simp [isGated, h3, h4]

theorem Chip.isPowered.on {c : Chip} (h : c.isPowered) : c.isOn := .inl h.1
theorem Chip.isReady.on {c : Chip} (h : c.isReady) : c.isOn := .inl h.1
theorem Chip.isPowered.ready {c : Chip} (h : c.isPowered) : c.isReady := ⟨h.1, h.2.2.2.2⟩

/-! ### Errors -/

theorem bit_testBit (i n : Nat) : bit i n = n.testBit i := by
  simp [bit, Nat.testBit_eq_decide_div_mod_eq, Bool.beq_eq_decide_eq]
theorem bit_or (i a b : Nat) : bit i (a ||| b) = (bit i a || bit i b) := by simp [bit_testBit]
theorem bit_mod (i v : Nat) (h : i < 32) : bit i (v % 2 ^ 32) = bit i v := by
  rw [bit_testBit, bit_testBit, Nat.testBit_mod_two_pow]; simp [h]
theorem bit_two_pow (i : Nat) : bit i (2 ^ i) = true := by simp [bit_testBit]

/-- The class with which an error is recorded, after the escalation of R427. -/
def recCls (sts cls : Nat) : Nat :=
  if (decide (fld 3 0 sts ≠ 0) && (bit 1 sts || bit 2 sts)) && (cls == 1 || cls == 2) then cls + 1 else cls

/-- An error that is recorded with no higher class than UC does nothing beside its log. -/
theorem logErr_only_uc (e : ErrRec) (c : Chip) (h : recCls (c.rg (ra e.page 0x10)) e.cls ≠ 3) : OnlyLog c (logErr e c) := by
  unfold logErr logWith
  dsimp only
  unfold recCls at h
  rw [if_neg h]
  exact onlyLog_rec _ _ (setRg2_only _ _ _ _ c)

theorem fatal_rg (e : ErrRec) (c : Chip) (a : Nat) : (fatal e c).rg a = c.rg a := by
  have : ∀ l : List Nat, ∀ k : Chip, (l.foldl (fun k n => k.setCore n (stopCore (k.core n))) k).rg a = k.rg a := by
    intro l; induction l with
    | nil => intro k; rfl
    | cons x t ih => intro k; rw [List.foldl_cons, ih]; rfl
  unfold fatal shedCores
  generalize List.range 192 = l
  dsimp only
  split_ifs
  · exact this l _
  · exact this l _
theorem fatalIte_rg (P : Prop) [Decidable P] (e : ErrRec) (c : Chip) (a : Nat) : (if P then fatal e c else c).rg a = c.rg a := by
  split
  · exact fatal_rg e c a
  · rfl

/-- Logging an error leaves every register but these as it was. -/
theorem logErr_rg (e : ErrRec) (c : Chip) (a : Nat) (h : a ∉ errRegs e.page) : (logErr e c).rg a = c.rg a := by
  simp only [errRegs, List.mem_cons, List.not_mem_nil, or_false, not_or] at h
  obtain ⟨h1, h2, h3, h4, h5⟩ := h
  have hs : ∀ v w, ((c.setRg (ra e.page 0x10) v).setRg (ra e.page 0x1C) w).rg a = c.rg a := fun v w => by
    rw [Chip.setRg_rg_other _ _ _ a h2, Chip.setRg_rg_other _ _ _ a h1]
  unfold logErr logWith
  dsimp only
  rw [fatalIte_rg, recIte_rg _ _ _ a h5 h3 h4]; exact hs _ _

/-- An error sets the bits of its class, as found and as escalated, and of its cause (R347, R427). -/
theorem logErr_sts (e : ErrRec) (c : Chip) :
    (logErr e c).rg (ra e.page 0x10) =
      (c.rg (ra e.page 0x10) ||| 2 ^ e.cls ||| 2 ^ recCls (c.rg (ra e.page 0x10)) e.cls ||| 2 ^ e.cause) % 2 ^ 32 := by
  have hn : ra e.page 0x10 ≠ ra pgMbp 0x20 := by simp only [ra]; omega
  have h1 : ra e.page 0x10 ≠ ra pgTam 0x20 := by simp only [ra]; omega
  have h2 : ra e.page 0x10 ≠ ra pgTam 0x104 := by simp only [ra]; omega
  have h3 : ra e.page 0x10 ≠ ra e.page 0x1C := by simp only [ra]; omega
  have hs : ∀ v w, ((c.setRg (ra e.page 0x10) v).setRg (ra e.page 0x1C) w).rg (ra e.page 0x10) = v % 2 ^ 32 := fun v w => by
    rw [Chip.setRg_rg_other _ _ _ _ h3, Chip.setRg_rg_same]
  unfold logErr logWith recCls
  dsimp only
  rw [fatalIte_rg, recIte_rg _ _ _ _ hn h1 h2, hs]

theorem logErr_hasErr (e : ErrRec) (c : Chip) (hk : e.cause < 32) (hc : e.cls < 4) : (logErr e c).hasErr e.page e.cls e.cause = true := by
  unfold Chip.hasErr
  rw [logErr_sts, bit_mod _ _ hk, bit_mod _ _ (by omega)]
  simp [bit_or, bit_two_pow]

/-- What `logs` asks, of an error that is recorded with no higher class than UC. -/
theorem logs_logErr (e : ErrRec) (c : Chip) (hk : e.cause < 32) (hc : e.cls < 4) (h : recCls (c.rg (ra e.page 0x10)) e.cls ≠ 3) :
    c.logs (logErr e c) e.page e.cls e.cause := by
  refine ⟨?_, fun a ha => logErr_rg e c a ha, logErr_hasErr e c hk hc⟩
  obtain ⟨r, m, t, h⟩ := logErr_only_uc e c h
  rw [h]

theorem logs_ce (p k d0 d1 : Nat) (c : Chip) (hk : k < 32) : c.logs (ce p k d0 d1 c) p 0 k :=
  logs_logErr { cls := 0, cause := k, page := p, d0 := d0, d1 := d1 } c hk (by simp) (by simp [recCls])
theorem logs_ignored (a v : Nat) (c : Chip) : c.logs (ignored a v c) (a % 0x4000000 / 0x1000) 0 31 := logs_ce _ _ _ _ _ (by omega)
theorem logs_itemLate (p b : Nat) (c : Chip) : c.logs (itemLate p b c) pgCad 0 12 := logs_ce _ _ _ _ _ (by omega)
/-- A UC on a page that shows no error. -/
theorem logs_ucOp (p k i d0 d1 : Nat) (c : Chip) (hk : k < 32) (h : c.rg (ra p 0x10) = 0) : c.logs (ucOp p k i d0 d1 c) p 2 k :=
  logs_logErr { cls := 2, scope := 1, cause := k, page := p, scopeId := i % 2 ^ 32, d0 := d0 % 2 ^ 32, d1 := d1 } c hk (by simp)
    (by simp [recCls, h, fld])
theorem logs_ucSlice (p k d0 d1 d2 : Nat) (c : Chip) (hk : k < 32) (h : c.rg (ra p 0x10) = 0) : c.logs (ucSlice p k d0 d1 d2 c) p 2 k :=
  logs_logErr { cls := 2, scope := 3, cause := k, page := p, scopeId := fld 7 0 (c.rg (ra pgLrt 0x108)), d0 := d0 % 2 ^ 32, d1 := d1, d2 := d2 } c
    hk (by simp) (by simp [recCls, h, fld])
theorem logs_ucSeq (n k d0 d1 : Nat) (c : Chip) (hk : k < 32) (h : c.rg (ra (pgSlot n) 0x10) = 0) :
    c.logs (ucSeq n k d0 d1 c) (pgSlot n) 2 k :=
  logs_logErr { cls := 2, scope := 2, cause := k, page := pgSlot n, scopeId := (c.slot n).desc + 2 ^ 16 * n, d0 := d0, d1 := d1 } c
    hk (by simp) (by simp [recCls, h, fld])

end Sys2Proof.Machine
end

