-- ==== Sys2Proof/Laws/Memory.lean ====
section
/-! SUPPORT. What reads of the address space and copies of memory do, once for all callers. -/

namespace Sys2Proof.Machine

/-- An address of T0 direct is memory (R312, R343). -/
theorem place_direct (c : Chip) {a : Nat} (h : a < t0Size) : c.place a = .mem a := by
  unfold Chip.place; rw [if_pos h]

/-- A read of T0 direct with no poison answers its bytes (R312). -/
theorem tasRead_direct (c : Chip) {a n : Nat} (h : a + n ≤ t0Size) (hp : c.poison = []) :
    c.tasRead a n = .ok ((List.range n).map (fun i => c.byteAt (a + i))) := by
  have hps : (List.range n).map (fun i => (a + i, c.place (a + i))) = (List.range n).map (fun i => (a + i, Place.mem (a + i))) := by
    apply List.map_congr_left
    intro i hi
    rw [place_direct c (by have := List.mem_range.mp hi; omega)]
  unfold Chip.tasRead
  rw [hps]
  have h1 : ((List.range n).map (fun i => (a + i, Place.mem (a + i)))).find? (fun p => p.2 == .bad) = none := by
    rw [List.find?_eq_none]; intro x hx; obtain ⟨i, -, rfl⟩ := List.mem_map.mp hx; simp
  have h2 : ((List.range n).map (fun i => (a + i, Place.mem (a + i)))).findSome? (fun p => match p.2 with | .held g => some g | _ => none) = none := by
    rw [List.findSome?_eq_none_iff]; intro x hx; obtain ⟨i, -, rfl⟩ := List.mem_map.mp hx; rfl
  have h3 : ((List.range n).map (fun i => (a + i, Place.mem (a + i)))).find? (fun p => match p.2 with
      | .mem x => (c.poisonIn x 1).isSome | .low t i o => c.frameBad t i o 1 | _ => false) = none := by
    rw [List.find?_eq_none]; intro x hx; obtain ⟨i, -, rfl⟩ := List.mem_map.mp hx
    simp [Chip.poisonIn, hp]
  dsimp only
  split
  · next h' => exact absurd (h'.symm.trans h1) (by simp)
  · split
    · next h' => exact absurd (h'.symm.trans h2) (by simp)
    · split
      · next h' => exact absurd (h'.symm.trans h3) (by simp)
      · simp [List.map_map, Function.comp_def]

/-- A read whose first byte lies where nothing is fails (R342). -/
theorem tasRead_absent (c : Chip) {a n : Nat} (hn : 0 < n) (h : c.place a = .bad) : c.tasRead a n = .access := by
  obtain ⟨m, rfl⟩ : ∃ m, n = m + 1 := ⟨n - 1, by omega⟩
  unfold Chip.tasRead
  simp [List.range_succ_eq_map, h]

/-- A read of T0 direct whose first byte is poisoned answers POISON there (R431). -/
theorem tasRead_poisoned (c : Chip) {a n : Nat} (hn : 0 < n) (h : a + n ≤ t0Size) (hp : (c.poisonIn a 1).isSome = true) :
    c.tasRead a n = .poison a := by
  have hps : (List.range n).map (fun i => (a + i, c.place (a + i))) = (List.range n).map (fun i => (a + i, Place.mem (a + i))) := by
    apply List.map_congr_left
    intro i hi
    rw [place_direct c (by have := List.mem_range.mp hi; omega)]
  obtain ⟨m, rfl⟩ : ∃ m, n = m + 1 := ⟨n - 1, by omega⟩
  have h1 : ((List.range (m + 1)).map (fun i => (a + i, Place.mem (a + i)))).find? (fun p => p.2 == .bad) = none := by
    rw [List.find?_eq_none]; intro x hx; obtain ⟨i, -, rfl⟩ := List.mem_map.mp hx; simp
  have h2 : ((List.range (m + 1)).map (fun i => (a + i, Place.mem (a + i)))).findSome?
      (fun p => match p.2 with | .held g => some g | _ => none) = none := by
    rw [List.findSome?_eq_none_iff]; intro x hx; obtain ⟨i, -, rfl⟩ := List.mem_map.mp hx; rfl
  unfold Chip.tasRead
  rw [hps]
  dsimp only
  split
  · next h' => exact absurd (h'.symm.trans h1) (by simp)
  · split
    · next h' => exact absurd (h'.symm.trans h2) (by simp)
    · simp [List.range_succ_eq_map, hp]

/-- A copy keeps the canonical form of memory. -/
theorem copyMem_wf (c : Chip) (src dst n : Nat) (h : Memory.wf c.mem) : Memory.wf (c.copyMem src dst n).mem := by
  have key : ∀ (l : List Nat) (k : Chip), Memory.wf k.mem → Memory.wf (l.foldl (fun k i =>
      if (c.poisonIn (src + 8 * i) (min 8 (n - 8 * i))).isSome then k.mark (dst + 8 * i) (min 8 (n - 8 * i)) else k) k).mem := by
    intro l; induction l with
    | nil => intro k hk; exact hk
    | cons x t ih =>
      intro k hk; rw [List.foldl_cons]; apply ih
      split
      · exact hk
      · exact hk
  unfold Chip.copyMem
  dsimp only
  split
  · exact Chip.store_wf c dst _ h
  · exact key _ _ (Chip.store_wf c dst _ h)

end Sys2Proof.Machine
end

