-- ==== Sys2Proof/Laws/Pages.lean ====
section
/-! SUPPORT. The blocks behind the pages of the register window, instance by instance (R345). -/

namespace Sys2Proof.Machine

theorem pageBlk_core (n : CoreId) : pageBlk (0x100 + n.val) = some (.core, 0x100) := by
  have h := n.isLt
  unfold pageBlk
  rw [if_neg (show ¬ 0x100 + n.val < 0x008 by omega), if_neg (show ¬ 0x100 + n.val < 0x00E by omega),
    if_neg (show ¬ 0x100 + n.val = 0x00E by omega), if_neg (show ¬ 0x100 + n.val = 0x00F by omega),
    if_neg (show ¬ 0x100 + n.val < 0x01C by omega), if_neg (show ¬ 0x100 + n.val < 0x01E by omega),
    if_neg (show ¬ 0x100 + n.val < 0x100 by omega), if_pos (show 0x100 + n.val < 0x1C0 by omega)]
theorem pageBlk_clus : ∀ n : ClusterId, pageBlk (0x200 + n.val) = some (.clus, 0x200) := by decide
theorem pageBlk_pwu : ∀ n : ClusterId, pageBlk (0x220 + n.val) = some (.pwu, 0x220) := by decide
theorem pageBlk_port : ∀ n : PortId, pageBlk (0x008 + n.val) = some (.port, 0x008) := by decide
theorem pageBlk_slot : ∀ n : SlotId, pageBlk (0x300 + n.val) = some (.slot, 0x300) := by decide
theorem pageBlk_gmc : ∀ n : GmcId, pageBlk (0x010 + n.val) = some (.gmc, 0x010) := by decide

/-- The page and the offset of a register. -/
theorem ra_page (p o : Nat) (h : o < 0x1000) : ra p o / 0x1000 = p := by simp only [ra]; omega
theorem ra_ofs (p o : Nat) (h : o < 0x1000) : ra p o % 0x1000 = o := by simp only [ra]; omega
/-- Registers of different pages, or at different offsets, are different. -/
theorem ra_inj (p q o u : Nat) (ho : o < 0x1000) (hu : u < 0x1000) : ra p o = ra q u ↔ p = q ∧ o = u := by
  simp only [ra]; omega

end Sys2Proof.Machine
end

