-- ==== Sys2Proof/Tests/Slice0.lean ====
section
/-! SUPPORT. Tests of the model: ill-formed commands, worked examples of the spec, and for every clause of every
statement that has hypotheses a state and operands that meet them. -/

set_option linter.unusedVariables false
set_option maxRecDepth 8000
set_option Elab.async false

namespace Sys2Proof.Tests

open Sys2Proof Sys2Proof.Machine

/-! ### States that the tests and witnesses stand on -/

def chipOn : Chip := { phase := .running, pwr := { st := 1 } }
def ups (c : Chip) : State := { pending := [], chip := c }
abbrev up : State := ups chipOn
def entryAt (c : Chip) (w : List Nat) (k : Core) : Chip :=
  ((c.store (padBase 0) (w.flatMap (leBytes 4))).setRg (coreReg 0 0x104) 8).setCore 0 k
def todVec : List Nat := [2, 0xA00A, 0x10001, 0, 0x10001, 0, 0, 0, 0, 0x1000, 0, 0, 0, 0, 0, 0]
def todBig : List Nat := [2, 0xA00A, 0x10001, 0, 0x10002, 0, 0, 0, 0, 0x1000, 0, 0, 0, 0, 0, 0]
def badTod : Chip := entryAt chipOn [0x80000002] { st := 1 }
def vecRun : TodRun := { tod := todVec, begun := true, mb := 1, nb := 1 }
def poisonChip : Chip := (chipOn.mark (padBase 0) 8).setCore 0 { st := 1, runs := [vecRun] }
def metaRun : TodRun := { tod := [1 + 2 ^ 26, 0, 0, 32], par := [0, 0, 0, 0x2000], begun := true, mb := 1, nb := 1, kb := 4 }
def metaChip : Chip := (chipOn.store (padBase 0 + 0x2000) [6#8]).setCore 0 { st := 1, runs := [metaRun] }
def launchable : Chip := (((chipOn.setRg (coreReg 0 8) 1).setRg (coreReg 0 0x104) 1).setRg (coreReg 0 0x11C) 1)
def dsc : List Nat := [0, 0, 0x05500101, 1, 1, 64, 0x1000, 0, 0, 1, 0x1800, 0]
def bindChip : Chip := (chipOn.setRg (ra (pgSlot 0) 0x1F0) 0x10000).store (0x10000 + 256 * 7) (dsc.flatMap (leBytes 4))
def kvSlot : Slot := { st := 2, words := dsc, root := 0x1000, lens := [0], cursors := List.replicate 16 0, reserve := [[0]] }
def kvChip : Chip :=
  ((((((((((chipOn.setRg (ra (pgSlot 0) 0x1F0) 0x10000).setRg (mtmReg 0x100) 1).setRg (mtmReg 0x104) 0x100000).setRg (mtmReg 0x10C) 8).setRg
    (mtmReg 0x110) 0x90000).setRg (mtmReg 0x118) 4).setRg (mtmReg 0x11C) 0x80000).storeLe 0x1000 8 0x2000).storeLe 0x2000 8 0x3000).storeLe
    0x3000 8 (mkPte 0 0 false false 0 0)).storeLe 0x80000 4 2 |>.setSlot 0 kvSlot
def pubChip : Chip :=
  ((((kvChip.setRg (ra (pgSlot 0) 0x120) 0x5000).setRg (ra (pgSlot 0) 0x128) 1).store 0x5000 ([5, 0, 1, 0].flatMap (leBytes 4))).storeLe
    0x3000 8 (mkPte 0 0 true false 0 64)).setSlot 0 { kvSlot with lens := [64], cursors := List.replicate 16 64 }
def identPeer (k : Nat) : Chip :=
  { (chipOn.setRg (ra pgLrt 0x104) 0x10102) with posId := k, otp := { prov := true }, flash := { lcState := 2 } }
def identChip (hold : Nat) : Chip := ((identPeer 0).setRg (ra pgLrt 0x118) hold).setLink 0 { st := 1, locked := 255 }
def barW : List Nat := [6, 0, 0, 0, 0, 0, 0, 0, 0, 0, 0, 0, 0, 16, 1] ++ List.replicate 17 0
def agW : List Nat := [3, 4, 0x40C, 0, 0x2000, 0, 0x8000, 0, 0, 0, 0, 0, 0, 16, 1] ++ List.replicate 17 0
def bcW : List Nat := [5, 4, 0x4040C, 8, 0x2000, 0, 0x8000, 0, 0, 0, 0, 0, 0, 16, 1] ++ List.replicate 17 0
def rsW : List Nat := [2, 24, 0x40C, 0, 0x2000, 0, 0x8000, 0, 0, 0, 0, 0, 0, 16, 1] ++ List.replicate 17 0
def grpChip (pos : Nat) : Chip :=
  { ((((chipOn.setRg (ra pgLrt 0x104) 0x10102).setRg (ra pgLrt 0x110) 0x10102).setRg (ra pgLrt 0x800) 0x1800).setRg
    (ra pgLrt 0x804) 0x80000) with posId := pos }
def armChip : Chip := ((grpChip 0).setRg (ra pgLrt 0x204) 0x10000).store 0x10000 (barW.flatMap (leBytes 4))
def collChip (pos : Nat) (x : Coll) : Chip := (grpChip pos).setColl 5 x
def ckPkt (kind src ck : Nat) (d : List Byte) : Packet := { kind := kind, src := src, body := collHdr 5 0 0 1 0 0 0 0 0 ck ++ d }
def ringW : List Nat := [7, 0x1000000, 64, 16, 1000, 0, 0, 0x100, 1, 0, 0, 0, 0, 0, 0x100, 0, 1, 0, 0x100000] ++ List.replicate 13 0
def decW : List Nat := [0x10007, 0x1000000, 64, 16, 1000, 0, 0, 0x100, 1, 0, 0, 0, 0, 0, 0, 0, 0, 0, 0, 0x0, 0x1000, 0x2000, 4, 0x3000, 0x4000, 1, 5] ++ List.replicate 5 0
def ringChip (pos : Nat) : Chip :=
  ({ (grpChip pos) with cad := { st := 3, now := 1024 * 500 } } : Chip).setRg (ra pgLrt 0x114) 1 |>.setSlot 0
    { kvSlot with words := dsc.set 4 (2 + 2 ^ 16 * pos) }
def formChip : Chip := ((ringChip 0).setRg (ringReg 0x104) 0x10000).store 0x10000 (ringW.flatMap (leBytes 4))
def onRing (pos : Nat) (r : Ring) : Chip := (ringChip pos).setRing 3 r
def rp (kind src hi : Nat) (b : List Byte) : Packet := { kind := kind, src := src, tag := 7 + 2 ^ 16 * hi, body := b }

def tierChip : Chip :=
  (((((((((chipOn.setRg (mtmReg 0x100) 0x47).setRg (mtmReg 0x104) 0x100000).setRg (mtmReg 0x10C) 8).setRg (mtmReg 0x11C) 0x80000).setRg
    (mtmReg 0x124) 0x40000).setRg (mtmReg 0x12C) 16).setRg (mtmReg 0x13C) 0x60000).setRg (mtmReg 0x1C0) 0x90000).setRg (mtmReg 0x1C8) 4)
def granW (frame tier : Nat) (ro : Bool) : Nat := frame + 2 ^ 30 * tier + 2 ^ 33 + 2 ^ 34 * b2n ro
def granChip (ro : Bool) : Chip := ((tierChip.storeLe 0x40000 8 (granW 0 0 ro)).storeLe 0x80000 4 3).storeLe 0x60004 4 1
def t2Chip (ro : Bool) (st : Nat) : Chip :=
  ((granChip ro).setRg (bank 0 (pgCxl 0) 0x120) 0x98000).setT2 0 { st := st, frames := 4, capMiB := 2 }
def msg (k src tag : Nat) (b : List Byte) : Packet := { kind := k, src := src, tag := tag, body := b }
def withMtm (c : Chip) (f : Mtm → Mtm) : Chip := { c with mtm := f c.mtm }
def landKv : Mig := { kind := .demoteKv none 0 0 0 0, srcTier := 0, src := 0, dstTier := 2, dst := 3 }
theorem crcStep_lt {c : Nat} (h : c < 2 ^ 32) : crcStep c < 2 ^ 32 := by
  unfold crcStep
  split
  · exact Nat.xor_lt_two_pow (by omega) (by decide)
  · omega
theorem crcFold_lt (l : List Byte) : ∀ c, c < 2 ^ 32 → l.foldl crcByte c < 2 ^ 32 := by
  induction l with
  | nil => intro c h; exact h
  | cons b t ih =>
    intro c h
    refine ih _ ?_
    unfold crcByte
    exact crcStep_lt (crcStep_lt (crcStep_lt (crcStep_lt (crcStep_lt (crcStep_lt (crcStep_lt (crcStep_lt
      (Nat.xor_lt_two_pow h (by have := b.isLt; omega)))))))))
theorem crc32_lt (l : List Byte) : crc32 l < 2 ^ 32 := Nat.xor_lt_two_pow (crcFold_lt l _ (by decide)) (by decide)
theorem frameBytes_store (c : Chip) (f o : Nat) (l : List Byte) (off n : Nat) (h : off + n ≤ o ∨ o + l.length ≤ off) :
    (c.store (c.frameAddr f + o) l).frameBytes 0 f off n = c.frameBytes 0 f off n := by
  refine List.map_congr_left (fun i hi => ?_)
  have hi' := List.mem_range.mp hi
  show Tab.get _ (Tab.setList _ c.mem _ l) _ = Tab.get _ c.mem _
  rw [Tab.get_setList, if_neg]
  · rfl
  · show ¬ (c.frameAddr f + o ≤ c.frameAddr f + (off + i) ∧ c.frameAddr f + (off + i) < c.frameAddr f + o + l.length)
    omega
theorem seal_fix (c : Chip) (f : Nat) (hu : usedOf (metaW c 0 f 4) = 0) :
    sealCrc (c.storeLe (c.frameAddr f + (payloadSize + 0x18)) 4 (sealCrc c 0 f)) 0 f =
      metaW (c.storeLe (c.frameAddr f + (payloadSize + 0x18)) 4 (sealCrc c 0 f)) 0 f 0x18 := by
  have hlt : sealCrc c 0 f < 2 ^ 32 := crc32_lt _
  have hl : (leBytes 4 (sealCrc c 0 f)).length = 4 := rfl
  have hm : ∀ l : List Byte, l.length = 4 →
      metaW (c.store (c.frameAddr f + (payloadSize + 0x18)) l) 0 f 4 = metaW c 0 f 4 := fun l h4 =>
    congrArg leNat (frameBytes_store c f _ l _ _ (Or.inl (by omega)))
  have hs : ∀ l : List Byte, l.length = 4 →
      sealCrc (c.store (c.frameAddr f + (payloadSize + 0x18)) l) 0 f = sealCrc c 0 f := by
    intro l h4
    unfold sealCrc
    rw [hm l h4, hu, frameBytes_store _ _ _ _ _ _ (Or.inl (by omega)), frameBytes_store _ _ _ _ _ _ (Or.inr (by omega))]
  have key : ∀ x, x < 2 ^ 32 → metaW (c.storeLe (c.frameAddr f + (payloadSize + 0x18)) 4 x) 0 f 0x18 = x := by
    intro x hx
    have : (c.storeLe (c.frameAddr f + (payloadSize + 0x18)) 4 x).frameBytes 0 f (payloadSize + 0x18) 4 = leBytes 4 x := by
      apply List.ext_getElem (by simp [Chip.frameBytes, leBytes])
      intro i h1 h2
      have hi : i < 4 := h2
      simp only [Chip.frameBytes, List.getElem_map, List.getElem_range]
      show Tab.get _ (Tab.setList _ c.mem _ _) _ = _
      rw [Tab.get_setList]
      show (if c.frameAddr f + (payloadSize + 0x18) ≤ c.frameAddr f + (payloadSize + 0x18 + i) ∧
        c.frameAddr f + (payloadSize + 0x18 + i) < c.frameAddr f + (payloadSize + 0x18) + 4 then _ else _) = _
      rw [if_pos (by omega)]
      show (leBytes 4 x).getD (c.frameAddr f + (payloadSize + 0x18 + i) - (c.frameAddr f + (payloadSize + 0x18))) _ = _
      rw [show c.frameAddr f + (payloadSize + 0x18 + i) - (c.frameAddr f + (payloadSize + 0x18)) = i by omega, List.getD_eq_getElem _ _ h2]
    show leNat ((c.storeLe _ 4 x).frameBytes 0 f (payloadSize + 0x18) 4) = x
    rw [this]
    simp [leBytes, leNat]
    omega
  exact (hs _ hl).trans (key _ hlt).symm
def landBase : Chip := withMtm tierChip (fun m => { m with migs := [landKv] })
def landChip : Chip := landBase.storeLe (landBase.frameAddr 0 + (payloadSize + 0x18)) 4 (sealCrc landBase 0 0)
theorem landChip_matches : migMatches landKv landChip = true :=
  beq_iff_eq.mpr (seal_fix landBase 0 (by decide))
def keyd (f : Mbp → Mbp) (c : Chip := chipOn) : Chip := { c with mbp := f { c.mbp with sess := 2 }, pwr := { c.pwr with gddr := true } }
def fr (t : Nat) (f : Frame) : Frame := { f with type := t }
def qBase (q : Nat) (w : List Nat) : Chip :=
  (((((chipOn.setRg (qKey q 0x130) 0x10000).setRg (qKey q 0x138) 16).setRg (qKey q 0x140) 0x20000).setRg (qKey q 0x148) 16).store 0x10000
    (w.flatMap (leBytes 4)))
def qChip (q : Nat) (w : List Nat) : Chip := keyd id ((qBase q w).setQueue q { on := true, sqTail := 1 })
def ent (op : Nat) (w : List Nat) : List Nat := [op, 77, 0x5000, 0, 0x3000, 0] ++ w ++ List.replicate (10 - w.length) 0
def statTod : List Nat := todVec.set 12 1
def walkRun : TodRun := { tod := [4, 0xA00A, 0x10001, 0, 0x10001, 0, 0, 0, 0, 0x1000, 0, 0, 0, 0, 0, 0], begun := true, mb := 1, nb := 1, kb := 1, walk := some { root := 0x1000, len := 64, desc := dsc } }
def walkPoison : Chip := (chipOn.mark 0x1000 8).setCore 0 { st := 1, runs := [walkRun] }
def mergeRun : TodRun := { tod := [4, 0xA00A, 1, 0, 0x10001, 0, 0, 0, 0, 0x1000, 0, 0, 0, 0, 3, 0], begun := true, mb := 1, nb := 1, kb := 1 }
def mergeChip : Chip := (chipOn.store (padBase 0) [1#8]).setCore 0 { st := 1, runs := [mergeRun] }
def carQ : Carousel := { rcd := [1, 64, 0x1000, 0x2000, 1], cores := [0] }
def mergeArg : Option ((Nat × Nat) × List RowSt) :=
  pmerge (runBank mergeChip 0 mergeRun) mergeRun.mb (tN mergeRun.tod) mergeRun.kb (fun i => (List.range (64 + mergeRun.mb * (32 + 4 * tN mergeRun.tod))).map (fun o => BitVec.ofNat 8 (runMem mergeChip 0 mergeRun (tA mergeRun.tod) (i * tALd mergeRun.tod + o))))
def mergeOut : (Nat × Nat) × List RowSt := mergeArg.getD ((0, 0), [])
def fullChip : Chip := { collChip 0 { st := 2, words := bcW, parts := 2, fullAt := some 0, tx := [{ dst := 256, next := 4 }, { dst := 1 }] } with cad := { now := 1024 * 8 } }
def heldChip : Chip := (((collChip 0 { st := 2, words := agW.set 5 0x4000, parts := 2, tx := [{ dst := 1 }] }).setRg (mtmReg 0x124) 0x40000).setRg (mtmReg 0x12C) 16).storeLe 0x40000 8 (2 ^ 33 + 2 ^ 35)
def qryW : List Nat := [0x10007, 0x1000000, 64, 16, 1000, 0, 0, 0x100, 1, 0, 0, 0, 0, 0, 0, 0, 0, 0, 0, 0, 0x0, 0x1000, 4, 0x2000, 0x3000, 0x4000, 5] ++ List.replicate 6 0
def qryChip : Chip := onRing 0 { st := 3, words := qryW, stepBeats := 64, qtx := [{ dst := 256, total := 1, next := 1 }, { dst := 1, total := 1 }] }
def mergeRing : Chip := ((onRing 1 { st := 3, words := decW, member := 1 }).setColl 5 { st := 1, words := [0xB9, 352, 0x4040C, 8] ++ List.replicate 28 0 }).setRg (flagReg 0 0) 1
def refreshChip : Chip := forEach (List.range 12) (fun i c => c.setGmc i { refresh := some 0 }) chipOn
theorem lineChannel_gmc (l : Nat) : lineChannel l / 8 < 12 := by unfold lineChannel; omega
def refreshAt : Nat := lineChannel 0 / 8
theorem refreshChip_all : ∀ i < 12, (refreshChip.gmc i).refresh = some refreshChip.beat := by decide
theorem refreshChip_held : refreshChip.heldAt (refreshChip.reqRanges (.access false 0 1 [])) = some refreshAt := by
  have h := refreshChip_all (lineChannel 0 / 8) (lineChannel_gmc _)
  have e : refreshChip.reqRanges (.access false 0 1 []) = [(0, 1)] := rfl
  have f : ((List.range 12).all (fun i => (refreshChip.gmc i).refresh != some refreshChip.beat && (refreshChip.gmc i).steered == 0)) = false := by decide
  unfold Chip.heldAt
  rw [f, e]
  have k : refreshChip.lineHeld 0 = some refreshAt := by unfold Chip.lineHeld; simp only [h, true_or, if_true, refreshAt]
  simp [k]
theorem some_getD_of {α : Type} {o : Option α} {d : α} (h : o.isSome = true) : o = some (o.getD d) := by
  cases o <;> simp_all
def goneChip : Chip := withMtm (chipOn.setT2 0 { st := 4 }) (fun m => { m with migs := [{ kind := .evictGranule 1, srcTier := 2 }] })
def heldOn (c : Chip) : Chip := forEach (List.range 12) (fun i k => k.setGmc i { refresh := some 0 }) c
theorem held_of {c : Chip} {w : GmcWhat} {a n : Nat} (e : c.reqRanges w = (a, n) :: []) (hn : n ≠ 0) (h : ∀ i < 12, (c.gmc i).refresh = some c.beat) :
    c.heldAt (c.reqRanges w) = some (lineChannel (a / 128) / 8) := by
  have f : ((List.range 12).all (fun i => (c.gmc i).refresh != some c.beat && (c.gmc i).steered == 0)) = false := by
    rw [List.all_eq_false]
    exact ⟨0, by decide, by simp [h 0 (by decide)]⟩
  have k : ∀ l, c.lineHeld l = some (lineChannel l / 8) := fun l => by
    have := h (lineChannel l / 8) (lineChannel_gmc l)
    unfold Chip.lineHeld; simp only [this, true_or, if_true]
  unfold Chip.heldAt
  rw [f, e]
  simp [hn, k, List.range_succ_eq_map]
def lendHeld : Chip := heldOn (tierChip.setLoan 20 { st := 2, frames := 1, peer := 1, peerCtx := 2 })
def lendMsg : Packet := msg 1 1 2 (leBytes 4 0 ++ leBytes 4 0 ++ leBytes 4 4 ++ leBytes 4 9)
def lendAddr : Nat := lendHeld.frameAddr (lendHeld.lentFrame 20 0)
def lendAt : Nat := lineChannel (lendAddr / 128) / 8
theorem lendHeld_held : lendHeld.heldAt (lendHeld.reqRanges (.rread lendMsg)) = some lendAt :=
  held_of (a := lendAddr) (n := 4) (by decide) (by decide) (by decide)
def greadHeld : Chip := heldOn (granChip true)
def greadAt : Nat := lineChannel (greadHeld.frameAddr 0 / 128) / 8
theorem greadHeld_held : greadHeld.heldAt (greadHeld.reqRanges (.gread (msg 6 1 0 []))) = some greadAt :=
  held_of (a := greadHeld.frameAddr 0) (n := payloadSize) (by decide +kernel) (by decide) (by decide)
def dropChip : Chip := withMtm (tierChip.setRg (mtmReg 0x178) (2 ^ 24)) (fun m => { m with pfCopies := [{ granule := 5, drop := some 0 }] })
def gmcA : Chip := { ((chipOn.setRg (tamReg 0x160) 0x30B02).setGmc 11 { steered := 8, up := 255 }) with tam := { winSt := 2 } }
def gmcB (i : Nat) (ok : Bool) : Chip := trainChan 11 3 ((irq pgTam i (updTam (fun t => { t with winSt := 3, winFail := ok }) gmcA)).setGmc 11 { gmcA.gmc 11 with steered := 0, retrains := setNat0 (gmcA.gmc 11).retrains 3 1 })
/-! A valid table image (R129 to R131): constant functions with the ends that R131 asks for. -/
def goodLo (k : Nat) : Nat :=
  if k < 32 then 0x3F800000 else if k < 96 then 0 else if k < 224 then (if k = 159 ∨ k = 223 then 0x3F000000 else 0x3F800000)
  else if k < 304 then 0 else if k < 816 then 0x80000000 else if k < 1168 then 0 else if k = 1199 then 0 else 0x3F800000
def goodHi (k : Nat) : Nat :=
  if k < 31 then 0x3F800000 else if k = 31 then 0x40000000 else if k < 95 then 0 else if k < 224 then 0x3F800000
  else if k < 304 then 0 else if k < 816 then 0x80000000 else if k < 1168 then 0 else 0x3F800000
def goodEntry (k : Nat) : List Byte :=
  List.replicate 16 0#8 ++ leBytes 4 (goodLo k) ++ leBytes 4 (goodHi k) ++ List.replicate 8 0#8
def goodTail : List Byte := List.replicate 0x34 0#8 ++ (List.range 1200).flatMap goodEntry
def imgOf (crc : Nat) (t : List Byte) : List Byte := leBytes 4 0 ++ leBytes 4 0x9640 ++ leBytes 4 crc ++ t
def goodImage : List Byte := imgOf (crc32 goodTail) goodTail
def goodSeg (k : Nat) : Seg :=
  if k < 1200 then { lo := BitVec.ofNat 32 (goodLo k), hi := BitVec.ofNat 32 (goodHi k) } else {}
theorem flat_length (f : Nat → List Byte) (hf : ∀ k, (f k).length = 32) (l : List Nat) : (l.flatMap f).length = 32 * l.length := by
  induction l with
  | nil => rfl
  | cons a t ih => rw [List.flatMap_cons, List.length_append, hf, ih, List.length_cons]; omega
theorem drop_flat (f : Nat → List Byte) (hf : ∀ k, (f k).length = 32) :
    ∀ n s k, k < n → ∃ r, ((List.range' s n).flatMap f).drop (32 * k) = f (s + k) ++ r := by
  intro n
  induction n with
  | zero => intro s k h; omega
  | succ n ih =>
    intro s k h
    rw [List.range'_succ, List.flatMap_cons]
    cases k with
    | zero => exact ⟨_, rfl⟩
    | succ k =>
      obtain ⟨r, hr⟩ := ih (s + 1) k (by omega)
      refine ⟨r, ?_⟩
      rw [show 32 * (k + 1) = (f s).length + 32 * k by rw [hf]; omega, ← List.drop_drop, List.drop_left, hr,
        show s + 1 + k = s + (k + 1) by omega]
theorem goodEntry_length (k : Nat) : (goodEntry k).length = 32 := rfl
theorem goodTail_length : goodTail.length = 0x9634 := by
  unfold goodTail
  rw [List.length_append, flat_length _ goodEntry_length, List.length_replicate, List.length_range]
theorem imgOf_length (x : Nat) (t : List Byte) : (imgOf x t).length = 12 + t.length := by
  simp [imgOf, leBytes]; omega
theorem goodImage_length : goodImage.length = imageSize := by
  unfold goodImage
  rw [imgOf_length, goodTail_length]; rfl
theorem imgOf_drop (x : Nat) (k : Nat) (hk : k < 1200) :
    ∃ r, (imgOf x goodTail).drop (0x40 + 32 * k) = goodEntry k ++ r := by
  obtain ⟨r, hr⟩ := drop_flat goodEntry goodEntry_length 1200 0 k hk
  refine ⟨r, ?_⟩
  rw [Nat.zero_add, ← List.range_eq_range'] at hr
  have hl : (leBytes 4 0 ++ leBytes 4 0x9640 ++ leBytes 4 x ++ List.replicate 0x34 0#8).length = 0x40 := by
    simp only [List.length_append, List.length_replicate]; rfl
  unfold imgOf goodTail
  rw [← List.append_assoc, ← List.drop_drop, List.drop_left' hl, hr]
theorem leNat4 (x : Nat) (h : x < 2 ^ 32) :
    x % 256 + 256 * (x / 256 % 256) + 65536 * (x / 256 / 256 % 256) + 16777216 * (x / 256 / 256 / 256 % 256) = x := by
  omega
theorem goodLo_lt (k : Nat) : goodLo k < 2 ^ 32 := by unfold goodLo; split_ifs <;> decide
theorem goodHi_lt (k : Nat) : goodHi k < 2 ^ 32 := by unfold goodHi; split_ifs <;> decide
theorem w32At_entry (p t : List Byte) (x : Nat) (o : Nat) (ho : p.length = o) (hx : x < 2 ^ 32) :
    w32At (p ++ (leBytes 4 x ++ t)) o = BitVec.ofNat 32 x := by
  have g : ∀ i (hi : i < 4), (p ++ (leBytes 4 x ++ t)).getD (o + i) 0#8 = (leBytes 4 x).getD i 0#8 := by
    intro i hi
    rw [List.getD_append_right _ _ _ _ (by omega), List.getD_append _ _ _ _ (by simp only [leBytes, List.length_cons, List.length_nil]; omega)]
    congr 1; omega
  unfold w32At
  simp only [g 1 (by omega), g 2 (by omega), g 3 (by omega)]
  have g0 := g 0 (by omega)
  rw [Nat.add_zero] at g0
  simp only [g0, Nat.add_zero]
  simp only [leBytes, List.getD_cons_zero, List.getD_cons_succ, BitVec.toNat_ofNat]
  rw [leNat4 x hx]
theorem goodEntry_seg (k : Nat) (r : List Byte) (hk : k < 1200) :
    ({ c0 := w32At (goodEntry k ++ r) 0, c1 := w32At (goodEntry k ++ r) 4, c2 := w32At (goodEntry k ++ r) 8,
       c3 := w32At (goodEntry k ++ r) 12, lo := w32At (goodEntry k ++ r) 16, hi := w32At (goodEntry k ++ r) 20 } : Seg) = goodSeg k := by
  have e1 : w32At (goodEntry k ++ r) 16 = BitVec.ofNat 32 (goodLo k) := by
    have := w32At_entry (List.replicate 16 0#8) (leBytes 4 (goodHi k) ++ List.replicate 8 0#8 ++ r) (goodLo k) 16 rfl (goodLo_lt k)
    rw [← this]; simp only [goodEntry, List.append_assoc]
  have e2 : w32At (goodEntry k ++ r) 20 = BitVec.ofNat 32 (goodHi k) := by
    have := w32At_entry (List.replicate 16 0#8 ++ leBytes 4 (goodLo k)) (List.replicate 8 0#8 ++ r) (goodHi k) 20 rfl (goodHi_lt k)
    rw [← this]; simp only [goodEntry, List.append_assoc]
  unfold goodSeg
  rw [if_pos hk, e1, e2]
  rfl
theorem imgOf_segs (x : Nat) : imageSegs (imgOf x goodTail) = (List.range 1200).map goodSeg := by
  refine List.map_congr_left (fun k hk => ?_)
  have hk' : k < 1200 := List.mem_range.mp hk
  obtain ⟨r, hr⟩ := imgOf_drop x k hk'
  show ({ c0 := w32At ((imgOf x goodTail).drop (0x40 + 32 * k)) 0, c1 := w32At ((imgOf x goodTail).drop (0x40 + 32 * k)) 4
          c2 := w32At ((imgOf x goodTail).drop (0x40 + 32 * k)) 8, c3 := w32At ((imgOf x goodTail).drop (0x40 + 32 * k)) 12
          lo := w32At ((imgOf x goodTail).drop (0x40 + 32 * k)) 16, hi := w32At ((imgOf x goodTail).drop (0x40 + 32 * k)) 20 } : Seg) = _
  rw [hr]
  exact goodEntry_seg k r hk'
theorem goodSegs_get (k : Nat) : ((List.range 1200).map goodSeg).getD k {} = goodSeg k := by
  by_cases h : k < 1200
  · rw [List.getD_eq_getElem _ _ (by simpa using h)]; simp
  · rw [List.getD_eq_default _ _ (by simpa using h)]; unfold goodSeg; rw [if_neg h]
theorem goodSegs_fin : ∀ k < 1200, (!([(goodSeg k).c0, (goodSeg k).c1, (goodSeg k).c2, (goodSeg k).c3, (goodSeg k).lo, (goodSeg k).hi].all isFin) ||
    !fLe (goodSeg k).lo (goodSeg k).hi) = false := by decide +kernel
theorem goodSegs_seam : ∀ k < 1200, seamBad ((List.range 1200).map goodSeg) k = false := by
  intro k hk
  unfold seamBad
  simp only [goodSegs_get]
  revert hk; revert k
  decide +kernel
theorem check_ok (l : List Byte) (s : List Seg) (h4 : (w32At l 4).toNat = 0x9640)
    (h8 : (w32At l 8).toNat = crc32 ((l.drop 0xC).take (imageSize - 0xC)))
    (hz : ((l.drop 0xC).take 0x34).any (fun b => b != 0#8) = false)
    (hr : (List.range segTotal).find? (fun k => ((l.drop (0x58 + 32 * k)).take 8).any (fun b => b != 0#8)) = none)
    (hs : imageSegs l = s)
    (f1 : (List.range segTotal).find? (fun k =>
      let q := s.getD k {}
      !([q.c0, q.c1, q.c2, q.c3, q.lo, q.hi].all isFin) || !fLe q.lo q.hi) = none)
    (f2 : (List.range segTotal).find? (seamBad s) = none) : imageCheck l = (0, 0) := by
  unfold imageCheck
  dsimp only
  rw [if_neg (not_not_intro h4), if_neg (not_not_intro h8), if_neg (by rw [hz]; exact Bool.false_ne_true), hr]
  dsimp only
  rw [hs, f1]
  dsimp only
  rw [f2]
theorem imgOf_check (x : Nat) (hx : x = crc32 goodTail) (hx2 : x < 2 ^ 32) : imageCheck (imgOf x goodTail) = (0, 0) := by
  have h4 : (w32At (imgOf x goodTail) 4).toNat = 0x9640 := by
    have := w32At_entry (leBytes 4 0) (leBytes 4 x ++ goodTail) 0x9640 4 rfl (by decide)
    have h : imgOf x goodTail = leBytes 4 0 ++ (leBytes 4 0x9640 ++ (leBytes 4 x ++ goodTail)) := by
      simp only [imgOf, List.append_assoc]
    rw [h, this]; rfl
  have h8 : (w32At (imgOf x goodTail) 8).toNat = x := by
    have := w32At_entry (leBytes 4 0 ++ leBytes 4 0x9640) goodTail x 8 rfl hx2
    have h : imgOf x goodTail = leBytes 4 0 ++ leBytes 4 0x9640 ++ (leBytes 4 x ++ goodTail) := by
      simp only [imgOf, List.append_assoc]
    rw [h, this, BitVec.toNat_ofNat, Nat.mod_eq_of_lt hx2]
  have hd : (imgOf x goodTail).drop 0xC = goodTail := List.drop_left' rfl
  have ht : goodTail.take (imageSize - 0xC) = goodTail := List.take_of_length_le (by rw [goodTail_length]; decide)
  have hz : (goodTail.take 0x34).any (fun b => b != 0#8) = false := by
    unfold goodTail; rw [List.take_left' List.length_replicate]; rfl
  have hr : (List.range segTotal).find? (fun k => (((imgOf x goodTail).drop (0x58 + 32 * k)).take 8).any (fun b => b != 0#8)) = none := by
    rw [List.find?_eq_none]
    intro k hk
    obtain ⟨r, hr⟩ := imgOf_drop x k (List.mem_range.mp hk)
    rw [show 0x58 + 32 * k = (0x40 + 32 * k) + 24 by omega, ← List.drop_drop, hr]
    have : (goodEntry k ++ r).drop 24 = List.replicate 8 0#8 ++ r := by
      unfold goodEntry; rw [List.append_assoc _ (List.replicate 8 0#8) r]
      exact List.drop_left' rfl
    rw [this, List.take_left' List.length_replicate]; decide
  have f1 : (List.range segTotal).find? (fun k =>
      let s := ((List.range 1200).map goodSeg).getD k {}
      !([s.c0, s.c1, s.c2, s.c3, s.lo, s.hi].all isFin) || !fLe s.lo s.hi) = none := by
    rw [List.find?_eq_none]; intro k hk
    simp only [goodSegs_get, goodSegs_fin k (List.mem_range.mp hk)]; decide
  have f2 : (List.range segTotal).find? (seamBad ((List.range 1200).map goodSeg)) = none := by
    rw [List.find?_eq_none]; intro k hk
    rw [goodSegs_seam k (List.mem_range.mp hk)]; decide
  exact check_ok _ _ h4 (h8.trans (hx.trans (by rw [hd, ht]))) (by rw [hd]; exact hz) hr (imgOf_segs x) f1 f2
theorem goodImage_check : imageCheck goodImage = (0, 0) := by
  unfold goodImage
  generalize h : crc32 goodTail = x
  exact imgOf_check x h.symm (h ▸ crc32_lt goodTail)
theorem imgOf_table (x : Nat) : imTable (imgOf x goodTail) = 0 := by
  have hd : (imgOf x goodTail).drop 12 = goodTail := List.drop_left' rfl
  have h : (imgOf x goodTail).drop 0x18 = goodTail.drop 12 := by
    rw [show 0x18 = 12 + 12 from rfl, ← List.drop_drop, hd]
  have h2 : (goodTail.drop 12).take 4 = List.replicate 4 0#8 := by
    unfold goodTail
    rw [List.drop_append_of_le_length (by rw [List.length_replicate]; omega), List.drop_replicate,
      List.take_append_of_le_length (by rw [List.length_replicate]; omega), List.take_replicate]
    rfl
  unfold imTable at_
  rw [h, h2]; rfl
theorem goodImage_table : (goodImage.drop (imTable goodImage)).take imageSize = goodImage := by
  have h : imTable goodImage = 0 := by
    unfold goodImage
    exact imgOf_table (crc32 goodTail)
  rw [h, List.drop_zero, List.take_of_length_le (Nat.le_of_eq goodImage_length)]
def bootChip (f : Flash) : Chip := { phase := .starting, pwr := { tested := true, gddr := true }, flash := f }
/-! A firmware image that passes R396. -/
def fwN : Nat := 46592
def fwHdr : List Byte :=
  leBytes 4 0x49364D42 ++ leBytes 4 1 ++ leBytes 4 1 ++ leBytes 4 7 ++ leBytes 4 fwN ++ leBytes 4 31 ++ leBytes 4 0x100 ++ List.replicate 0xE4 0#8
def fw : List Byte := fwHdr ++ List.replicate (fwN - 0x100) 0#8
theorem fw_length : fw.length = fwN := by
  unfold fw; rw [List.length_append, List.length_replicate]; rfl
theorem fw_ok : imageFail { bytes := fw, sigOk := true } 0 0 = 0 := by
  unfold imageFail
  dsimp only
  rw [fw_length]
  decide +kernel
theorem read_store (c : Chip) (a : Nat) (l : List Byte) :
    (List.range l.length).map (fun i => (c.store a l).byteAt (a + i)) = l := by
  apply List.ext_getElem (by simp)
  intro i h1 h2
  rw [List.getElem_map, List.getElem_range]
  show Tab.get _ (Tab.setList _ c.mem a l) (a + i) = _
  rw [Tab.get_setList, if_pos ⟨Nat.le_add_right _ _, by omega⟩, Nat.add_sub_cancel_left, List.getD_eq_getElem _ _ h2]
theorem staged_read (l : List Byte) : Tab.getList (fun _ => 0#8) (Tab.setList (fun _ => 0#8) [] 0 l) 0 l.length = l := by
  apply List.ext_getElem (by simp [Tab.getList])
  intro i h1 h2
  simp only [Tab.getList, List.getElem_map, List.getElem_range]
  rw [Tab.get_setList, if_pos ⟨Nat.le_add_right _ _, by omega⟩, Nat.add_sub_cancel_left,
    List.getD_eq_getElem _ _ h2]
theorem units_all : (List.range (fwN / 64)).all (fun u => (List.range 728).contains u) = true := by
  rw [List.all_eq_true]; intro u hu
  simpa [fwN] using hu
def memChip (l : List Byte) : Chip :=
  { ((chipOn.setRg (ra pgMgt 0x118) l.length).store 0 l) with mbp := { sess := 2 }, pwr := { st := 1, vhold := 8000, cap := 1800 } }
theorem memChip_read (l : List Byte) (h : l.length ≤ t0Size) : (memChip l).tasRead 0 l.length = .ok l := by
  rw [tasRead_direct (memChip l) (by omega) rfl]
  congr 1
  exact read_store (chipOn.setRg (ra pgMgt 0x118) l.length) 0 l
def loaderChip (l : List Byte) : Chip :=
  { phase := .loader, mbp := { sess := 4 }, pwr := { vhold := 8000, cap := 1800 }
    sec := { staged := Tab.setList (fun _ => 0#8) [] 0 l, units := List.range 728 } }
def sgd (t : Nat) (arg : Nat) (dev : List Byte) (seq : Nat := 0) : List Byte :=
  leBytes 4 t ++ leBytes 4 7936 ++ dev ++ leBytes 4 seq ++ leBytes 4 arg ++ List.replicate 32 0#8 ++ List.replicate (7936 - 80) 0#8
theorem sgd_length (t arg : Nat) (dev : List Byte) (seq : Nat) (h : dev.length = 32) : (sgd t arg dev seq).length = 7936 := by
  simp only [sgd, List.length_append, List.length_replicate, h]; rfl
def adminChip (b : List Byte) : Chip :=
  { (qBase 32 []).setQueue 32 { on := true, started := [{ words := ent 0x12 [7936], got := b }] } with
    flash := { cnKey := [1#8], lcState := 2 }, otp := { prov := true }, sec := { svn := 9 }
    pwr := { st := 1, vhold := 8000, cap := 1800, gddr := true } }
def adminEntry (b : List Byte) : Entry := { words := ent 0x12 [7936], got := b }
theorem admin_signed (t arg : Nat) : (ups (adminChip (sgd t arg zero32))).chip.signedIs 32 (adminEntry (sgd t arg zero32)) := by
  refine ⟨⟨rfl, by show (1 : Nat) ≠ 5; decide⟩, rfl, rfl, ?_⟩
  simp only [signedHere, adminEntry]
  rw [sgd_length t arg zero32 0 rfl]; decide
theorem admin_at (t arg : Nat) : (ups (adminChip (sgd t arg zero32))).chip.signedAt 32 0 (sgd t arg zero32) := by
  have h : signedHere (adminEntry (sgd t arg zero32)) = true := by
    simp only [signedHere, adminEntry]
    rw [sgd_length t arg zero32 0 rfl]; decide
  refine ⟨⟨rfl, by show (1 : Nat) ≠ 5; decide⟩, rfl, ?_, rfl⟩
  show List.findIdx? signedHere [adminEntry (sgd t arg zero32)] = some 0
  simp [List.findIdx?_cons, h]
def judgeAt (t arg : Nat) (sv sc : Bool) : Verdict := judge (adminChip (sgd t arg zero32)) (sgd t arg zero32) sv sc
theorem sg_accept1 : judgeAt 1 3 false true = .accept := by
  unfold judgeAt judge sgBad; rw [sgd_length 1 3 zero32 0 rfl]; decide +kernel
theorem sg_accept2 : judgeAt 2 0x10005 false true = .accept := by
  unfold judgeAt judge sgBad; rw [sgd_length 2 0x10005 zero32 0 rfl]; decide +kernel
theorem sg_accept3 : judgeAt 3 5 false true = .accept := by
  unfold judgeAt judge sgBad; rw [sgd_length 3 5 zero32 0 rfl]; decide +kernel
theorem sg_refuse1 : judgeAt 1 4 false true = .accept := by
  unfold judgeAt judge sgBad; rw [sgd_length 1 4 zero32 0 rfl]; decide +kernel
theorem sg_refuse1' : judgeAt 1 2 false true = .refuse 5 := by
  unfold judgeAt judge sgBad; rw [sgd_length 1 2 zero32 0 rfl]; decide +kernel
theorem sg_refuse2 : judgeAt 2 5 false true = .refuse 8 := by
  unfold judgeAt judge sgBad; rw [sgd_length 2 5 zero32 0 rfl]; decide +kernel
theorem sg_refuse3 : judgeAt 3 10 false true = .refuse 6 := by
  unfold judgeAt judge sgBad; rw [sgd_length 3 10 zero32 0 rfl]; decide +kernel
theorem sg_bad3 : judgeAt 3 5 false false = .badSig := by
  unfold judgeAt judge sgBad; rw [sgd_length 3 5 zero32 0 rfl]; decide +kernel
theorem fw_staged_ok : imageFail { bytes := Tab.getList (fun _ => 0#8) (Tab.setList (fun _ => 0#8) [] 0 fw) 0 fwN, sigOk := true } 0 0 = 0 := by
  have h := staged_read fw; rw [fw_length] at h; rw [h]; exact fw_ok
theorem loader_lc (l : List Byte) : (ups (loaderChip l)).chip.lc = 0 := rfl
theorem loader_svn (l : List Byte) : (ups (loaderChip l)).chip.otp.svn = 0 := rfl
theorem loader_staged (l : List Byte) : (ups (loaderChip l)).chip.sec.staged = Tab.setList (fun _ => 0#8) [] 0 l := rfl
theorem loader_units (l : List Byte) : (ups (loaderChip l)).chip.sec.units = List.range 728 := rfl
theorem hold_of (c : Chip) (h : c.rg (pwrReg 0x118) = 2) (hv : c.pwr.vhold = 8000) (hc : c.pwr.cap = 1800) : holdOk c = true := by
  simp only [holdOk, h, hv, hc, fld]
  cases c.pwr.shed <;> decide
theorem marginReset : (regReset (pwrReg 0x118)).toNat = 2 := by decide +kernel
theorem loader_hold (l : List Byte) : holdOk (ups (loaderChip l)).chip = true := hold_of _ marginReset rfl rfl
theorem memChip_lc (l : List Byte) : (ups (memChip l)).chip.lc = 0 := rfl
theorem memChip_svn (l : List Byte) : (ups (memChip l)).chip.otp.svn = 0 := rfl
theorem memChip_rg (l : List Byte) (a : Nat) : (ups (memChip l)).chip.rg a = (chipOn.setRg (ra pgMgt 0x118) l.length).rg a := rfl
theorem memChip_hold (l : List Byte) : holdOk (ups (memChip l)).chip = true := by
  refine hold_of _ ?_ rfl rfl
  rw [memChip_rg, Chip.setRg_rg_other _ _ _ _ (by decide)]
  exact marginReset
theorem memChip_addr (l : List Byte) : 0 = (ups (memChip l)).chip.rg64 (ra pgMgt 0x110) := by
  unfold Chip.rg64
  rw [memChip_rg, memChip_rg, Chip.setRg_rg_other _ _ _ _ (by decide), Chip.setRg_rg_other _ _ _ _ (by decide)]
  decide +kernel
theorem memChip_len (l : List Byte) : (ups (memChip l)).chip.rg (ra pgMgt 0x118) = l.length % 2 ^ 32 := by
  rw [memChip_rg, Chip.setRg_rg_same]

/-! ### Operands out of range are refused: one term for each check of `wellFormed` -/

theorem test_wf_register_address : wellFormed (.registerWrite (2 ^ 26) 0 none none) = false := by decide
theorem test_wf_register_address_ok : wellFormed (.registerWrite (2 ^ 26 - 4) 0 none none) = true := by decide
theorem test_wf_pair_read : wellFormed (.pairLowRead (2 ^ 26)) = false := by decide
theorem test_wf_pair_write : wellFormed (.pairHighWrite (2 ^ 26) 0#32) = false := by decide
theorem test_wf_roll_range : wellFormed (.scalePlanRoll (2 ^ 48)) = false := by decide
theorem test_wf_roll_align : wellFormed (.scalePlanRoll 32) = false := by decide
theorem test_wf_bind : wellFormed (.bind 0 4096) = false := by decide
theorem test_wf_append_handle : wellFormed (.appendRow 65536 5 128 [] []) = false := by decide
theorem test_wf_append_format : wellFormed (.appendRow 0 16 128 [] []) = false := by decide
theorem test_wf_append_bound : wellFormed (.appendRow 0 5 0 [] []) = false := by decide
theorem test_wf_seal : wellFormed (.pageSeal 0 128) = false := by decide
theorem test_wf_refill : wellFormed (.reserveRefill 0 128) = false := by decide
theorem test_wf_flit : wellFormed (.flitReceive 0 (List.replicate 255 0#8) false {}) = false := by decide
theorem test_wf_ident : wellFormed (.ident 0 (List.replicate 63 0#8)) = false := by decide
theorem test_wf_markers : wellFormed (.linkMeasure 0 34 0) = false := by decide
theorem test_wf_ring_id : wellFormed (.joinHoldExpire 65536) = false := by decide
theorem test_wf_chunk_rank : wellFormed (.chunkSend 0 257) = false := by decide
theorem test_wf_access_address : wellFormed (.memoryAccess {} (2 ^ 48) 4 []) = false := by decide
theorem test_wf_access_data : wellFormed (.memoryAccess { write := true } 0 4 [1#8]) = false := by decide
theorem test_wf_access_due : wellFormed (.memoryAccess { due := 2 ^ 32 } 0 4 []) = false := by decide
theorem test_wf_access_class : wellFormed (.memoryAccess { cls := 3 } 0 4 []) = false := by decide
theorem test_wf_access_read : wellFormed (.memoryAccess {} 0 4 [1#8]) = false := by decide
theorem test_wf_seal_region : wellFormed (.regionSeal 31) = false := by decide
theorem test_wf_home_region : wellFormed (.regionHome 31) = false := by decide
theorem test_wf_copy2_region : wellFormed (.regionCopy2 31) = false := by decide
theorem test_wf_copy_index : wellFormed (.frameCopyComplete 16) = false := by decide
theorem test_wf_promotion_layer : wellFormed (.promotion 0 128 0) = false := by decide
theorem test_wf_promotion_page : wellFormed (.promotion 0 0 (2 ^ 20)) = false := by decide
theorem test_wf_scrub : wellFormed (.gmcScrub 0 0x1740000000 .clean) = false := by decide
theorem test_wf_loan_tag : wellFormed (.loanRequestTimeout 65536) = false := by decide
theorem test_wf_late : wellFormed (.prefetchLate (2 ^ 28)) = false := by decide
theorem test_wf_drop : wellFormed (.prefetchDrop (2 ^ 28)) = false := by decide
theorem test_wf_refetch : wellFormed (.refetchTimeout (2 ^ 28)) = false := by decide
theorem test_wf_cxl_capacity : wellFormed (.cxlDeviceAdd 0 { capMiB := 2 ^ 23, width := 16, rate := 3 }) = false := by decide
theorem test_wf_cxl_width : wellFormed (.cxlDeviceAdd 0 { capMiB := 1, width := 17, rate := 3 }) = false := by decide
theorem test_wf_cxl_rate : wellFormed (.cxlDeviceAdd 0 { capMiB := 1, width := 16, rate := 4 }) = false := by decide
theorem test_wf_hello_nonce : wellFormed (.hello { type := 1 } [] (List.replicate 1184 0#8)) = false := by decide
theorem test_wf_hello_key : wellFormed (.hello { type := 1 } (List.replicate 32 0#8) []) = false := by decide
theorem test_wf_keyx : wellFormed (.keyx { type := 3 } true []) = false := by decide
theorem test_wf_mem_tag : wellFormed (.memTimeout (2 ^ 32)) = false := by decide
theorem test_wf_chunk_body : wellFormed (.recoveryChunk { type := 0x3C }) = false := by decide
theorem test_wf_commit_body : wellFormed (.recoveryCommit { type := 0x3C, body := [1#8] } true true) = false := by decide
theorem test_wf_self_test : wellFormed (.coreSelfTest [3, 3]) = false := by decide
theorem test_wf_ports_back : wellFormed (.drydownExitComplete [3, 3]) = false := by decide
theorem test_wf_refuse_code : wellFormed (.refuseMsg 0 16) = false := by decide
theorem test_wf_frame_type : wellFormed (.rekey { type := 7 }) = false := by decide
theorem test_wf_frame_ctr : wellFormed (.rekey { type := 6, ctr := 2 ^ 48 }) = false := by decide
theorem test_wf_packet_kind : wellFormed (.go { kind := 0x11 }) = false := by decide
theorem test_wf_packet_dest : wellFormed (.go { kind := 0x12, dest := 2048 }) = false := by decide

/-! ### Worked examples and published test values -/

/-- The register address of "Example: a register address" in spec/00_scope.md. -/
theorem test_register_address : ra (pgCore 5) 0xC = 0x10500C := by decide
/-- "Example: narrowing one operand" of spec/02_number_formats.md, RNE. -/
theorem test_narrow_rne : splitHi true 0x3F801801#32 = 0x3F802000#32 ∧ splitLo true 0x3F801801#32 = 0xB97FE000#32 := by decide +kernel
/-- The same operand under truncation. -/
theorem test_narrow_trunc : splitHi false 0x3F801801#32 = 0x3F800000#32 ∧ splitLo false 0x3F801801#32 = 0x3A400000#32 := by
  decide +kernel
/-- The inputs of "Example: one block of V quantised to MXFP4" of spec/02_number_formats.md. -/
def vBlock : List F32 :=
  [0x3F400000#32, 0xC0200000#32, 0x41500000#32, 0x3B83126F#32, 0xBE99999A#32, 0x40BCCCCD#32] ++ List.replicate 26 0#32
theorem test_mx_scale : (deriveBlock .e2m1 vBlock).scale = 0x80 := by decide +kernel
theorem test_mx_codes : ((deriveBlock .e2m1 vBlock).elems.take 7).map (·.code) = [1, 0xA, 7, 0, 0, 5, 0] := by decide +kernel
theorem test_mx_counts : (deriveBlock .e2m1 vBlock).elems.countP (·.sat) = 1 ∧ (deriveBlock .e2m1 vBlock).elems.countP (·.crush) = 2 := by
  decide +kernel
/-- "Reads back as" of the same example: 1.0, -2.0, 12.0, 6.0. -/
theorem test_mx_reads_back : [1, 0xA, 7, 5].map (toF32 .e2m1 0x80) = [0x3F800000#32, 0xC0000000#32, 0x41400000#32, 0x40C00000#32] := by
  decide +kernel
theorem test_histogram_bins : (vBlock.take 3).map histBin = [31, 33, 35] := by decide +kernel
/-- "Example: a 3 x 4 grid" of spec/04_tiling_and_work.md: the tiles of values 0 to 11. -/
theorem test_curve_walk : walkGrid 0 2 3 4 =
    [(0, 0), (1, 0), (1, 1), (0, 1), (0, 2), (0, 3), (1, 3), (1, 2), (2, 2), (2, 3), (2, 1), (2, 0)] := by decide
/-- The ring of "Example: ring 1 of the example slice" in spec/08_peer_fabric.md: L 64, W 4, RY 4. -/
def ring1 : Chip := { (chipOn.setRg (ra pgLrt 0x110) 0x11010).setRg (ra pgLrt 0x114) 4 with posId := 0x040 }
theorem test_ring_positions : [0, 15, 16, 31, 32, 63].map (ringPos ring1 [0, 0x3F001000]) =
    [0x040, 0x04F, 0x05F, 0x050, 0x060, 0x070] := by decide +kernel
/-- "Example: where a key lands" of spec/06_kv_pages.md: 8 heads, 128 token slots, 128-byte keys, 64-byte values. -/
theorem test_page_areas : kvVO 8 128 128 = 0x20000 ∧ kvKS 8 128 128 64 = 0x30000 ∧ kvVS 8 128 128 64 128 = 0x31000 ∧
    kvUsed 8 128 128 64 128 = 0x32000 := by decide
/-- The check value of CRC-32 (IEEE 802.3): the digits 1 to 9. -/
theorem test_crc32 : crc32 (ascii "123456789") = 0xCBF43926 := by decide +kernel
/-- FIPS 180-4: SHA-256 of "abc". -/
theorem test_sha256 : (sha256 (ascii "abc")).take 4 = [0xBA#8, 0x78#8, 0x16#8, 0xBF#8] := by decide +kernel

/-! ### Decoding: the table gives no command bits -/

theorem test_no_bits (n w : Nat) : decodeTableWord n w = none := rfl

/-! ### Witnesses: wit_<statement>_<clause> meets the hypotheses of that clause -/

theorem wit_FrontOfQueue_2 : ∃ (s : State), (s.pending = []) :=
  ⟨State.reset, by decide⟩
theorem wit_MemoryStores_3 : ∃ (k : Chip) (a : Nat) (l : List Byte), (Tab.wf (fun _ => 0#8) k.mem = true) :=
  ⟨{}, 0, [], by decide⟩
theorem wit_OffModule_1 : ∃ (i : Instr) (s : State), (s.chip.phase = .off) ∧ (∀ v, i ≠ .powerOn v) :=
  ⟨.beatPoint, State.reset, ⟨rfl, by intro v h; cases h⟩⟩
theorem wit_RetiredStays_1 : ∃ (s t : State), (s.chip.dead) ∧ (step s = .next t) :=
  ⟨{ State.reset with chip := { otp := { retire := true } } }, { State.reset with chip := { otp := { retire := true } } }, ⟨⟨rfl, Or.inl rfl, by decide⟩, rfl⟩⟩
theorem wit_RetiredStays_2 : ∃ (s : State) (v : Nat), (s.chip.otp.retire = true) ∧ (s.chip.phase = .off) ∧ (6000 ≤ v) :=
  ⟨{ State.reset with chip := { otp := { retire := true } } }, 6000, by decide⟩
theorem wit_AccessErrors_1a : ∃ (s : State) (a size : Nat) (cn mp : Option W32), (s.chip.isOn) ∧ (a % 4 ≠ 0 ∨ size ≠ 4) ∧ (cn ≠ none ∨ mp ≠ none) :=
  ⟨up, 0x2, 4, some 1#32, none, by decide⟩
theorem wit_AccessErrors_1b : ∃ (s : State) (a size : Nat) (cn mp : Option W32), (s.chip.isOn) ∧ (a % 4 ≠ 0 ∨ size ≠ 4) ∧ (cn ≠ none ∨ mp ≠ none) :=
  ⟨up, 0x104, 2, none, some 1#32, by decide⟩
theorem wit_AccessErrors_2 : ∃ (s : State) (a : Nat) (v : W32), (s.chip.isOn) ∧ (a % 4 ≠ 0) :=
  ⟨up, 0x100112, 1#32, by decide⟩
theorem wit_AccessErrors_3 : ∃ (s : State) (a : Nat), (s.chip.isOn) ∧ (a % 4 ≠ 0) :=
  ⟨up, 0x100112, by decide⟩
theorem wit_AccessErrors_4 : ∃ (s : State) (a : Nat) (v : W32), (s.chip.isOn) ∧ (a % 4 = 0) ∧ (pageBlk (a / 0x1000) = none) :=
  ⟨up, 0xF000, 1#32, by decide⟩
theorem wit_AccessErrors_5 : ∃ (s : State) (a : Nat) (v : W32), (s.chip.isOn) ∧ (a % 4 = 0) ∧ (pageBlk (a / 0x1000) ≠ none) ∧ (regRow a = none) :=
  ⟨up, 0xFFC, 1#32, by decide⟩
theorem wit_AccessErrors_6 : ∃ (k : Chip) (a : Nat), (a % 4 = 0) ∧ (a < windowSize) ∧ (pageBlk (a / 0x1000) ≠ none) ∧ (regRow a = none) :=
  ⟨{}, 0xFFC, by decide⟩
theorem wit_WriteOrder_1 : ∃ (s t : State) (a size : Nat) (v w : W32), (s.chip.isOn) ∧ (exec (.registerWrite a size (some v) none) s = .next t) ∧ (t.chip.isOn) :=
  ⟨ups chipOn, _, 0xFFC, 4, 1#32, 2#32, ⟨by decide, rfl, by decide⟩⟩
theorem wit_RegisterWriteStores_1a : ∃ (s : State) (n : CoreId) (i : Nat) (cn mp : Option W32), (s.chip.isOn) ∧ (i < 32) ∧ ((s.chip.core n).st = 0 ∨ (s.chip.core n).st = 4) :=
  ⟨up, 191, 31, some 7#32, none, by decide⟩
theorem wit_RegisterWriteStores_1b : ∃ (s : State) (n : CoreId) (i : Nat) (cn mp : Option W32), (s.chip.isOn) ∧ (i < 32) ∧ ((s.chip.core n).st = 0 ∨ (s.chip.core n).st = 4) :=
  ⟨up, 0, 0, some 7#32, some 8#32, by decide⟩
theorem wit_RegisterWriteStores_2 : ∃ (s : State) (n : CoreId) (i : Nat) (v : W32), (s.chip.isOn) ∧ (i < 32) ∧ ((s.chip.core n).st ≠ 0) ∧ ((s.chip.core n).st ≠ 4) :=
  ⟨ups (Chip.setCore chipOn 3 { st := 1 }), 3, 31, 9#32, by decide⟩
theorem wit_RegisterPairs_1 : ∃ (s : State) (a : Nat) (r r' : RegRow), (s.chip.isOn) ∧ (a % 4 = 0) ∧ (a + 4 < windowSize) ∧ (regRow a = some r) ∧ (r.pair = 1) ∧ (regRow (a + 4) = some r') ∧ (r'.pair = 2) :=
  ⟨up, coreReg 0 0x110, (regRow (coreReg 0 0x110)).getD ⟨0,0,0,0,0,0,0,0,0⟩, (regRow (coreReg 0 0x114)).getD ⟨0,0,0,0,0,0,0,0,0⟩, by decide⟩
theorem wit_RegisterPairs_2 : ∃ (s : State) (n : CoreId) (lo v : W32), (s.chip.isOn) ∧ (Tab.get (fun _ => none) s.chip.pairStage (coreReg n 0x110) = some lo) :=
  ⟨ups { chipOn with pairStage := [(coreReg 5 0x110, some 7#32)] }, 5, 7#32, 1#32, by decide⟩
theorem wit_RegisterPairs_3 : ∃ (s : State) (n : CoreId) (v : W32), (s.chip.isOn) ∧ (Tab.get (fun _ => none) s.chip.pairStage (coreReg n 0x110) = none) :=
  ⟨up, 0, 1#32, by decide⟩
theorem wit_BlockControl_1a : ∃ (s : State), (s.chip.isReady) ∧ (∀ r < 32, (s.chip.ring r).st ≠ 3) :=
  ⟨up, by decide⟩
theorem wit_BlockControl_1b : ∃ (s : State), (s.chip.isReady) ∧ (∀ r < 32, (s.chip.ring r).st ≠ 3) :=
  ⟨ups (({ chipOn with cad := { now := 5120 } } : Chip).setCore 191 { mapPend := true, mapAt := 4 }), by decide⟩
theorem wit_BlockControl_2 : ∃ (s : State) (r : Nat), (s.chip.isReady) ∧ (r < 32) ∧ ((s.chip.ring r).st = 3) :=
  ⟨ups (chipOn.setRing 31 { st := 3 }), 31, by decide⟩
theorem wit_BlockControl_3a : ∃ (s : State) (n : CoreId), (s.chip.isOn) ∧ (s.chip.pwr.st ≠ 3) ∧ (s.chip.pwr.st ≠ 4) :=
  ⟨up, 191, by decide⟩
theorem wit_BlockControl_3b : ∃ (s : State) (n : CoreId), (s.chip.isOn) ∧ (s.chip.pwr.st ≠ 3) ∧ (s.chip.pwr.st ≠ 4) :=
  ⟨ups ((chipOn.setCtr 0 0 { armed := true, total := 3, next := 1, leased := 1 }).setCore 0 { st := 1, pc := 3, lease := some {}, runs := [vecRun] }), 0, by decide⟩
theorem wit_BlockControl_4a : ∃ (s : State) (cl : ClusterId), (s.chip.isOn) ∧ (s.chip.pwr.st ≠ 3) ∧ (s.chip.pwr.st ≠ 4) :=
  ⟨up, 23, by decide⟩
theorem wit_BlockControl_4b : ∃ (s : State) (cl : ClusterId), (s.chip.isOn) ∧ (s.chip.pwr.st ≠ 3) ∧ (s.chip.pwr.st ≠ 4) :=
  ⟨ups (((chipOn.setRg (flagReg 0 63) 7).setCtr 0 0 { armed := true, total := 3, next := 1, leased := 1 }).setCore 0 { st := 1, lease := some {} }), 0, by decide⟩
theorem wit_BlockControl_5 : ∃ (s : State) (p : PageId) (n : ClusterId), (s.chip.isOn) ∧ (s.chip.pwr.st ≠ 3) ∧ (s.chip.pwr.st ≠ 4) ∧ (p.val = pgPwu n) :=
  ⟨up, ⟨0x237, by decide⟩, 23, by decide⟩
theorem wit_BlockControl_6a : ∃ (s : State) (p : PageId) (b : Blk) (p0 : Nat), (s.chip.isOn) ∧ (pageBlk p = some (b, p0)) ∧ (b ≠ .rt) ∧ ((b ≠ .core ∧ b ≠ .clus ∧ b ≠ .pwu) ∨ isGated s.chip b = true) :=
  ⟨up, ⟨0x00D, by decide⟩, .port, 8, by decide⟩
theorem wit_BlockControl_6b : ∃ (s : State) (p : PageId) (b : Blk) (p0 : Nat), (s.chip.isOn) ∧ (pageBlk p = some (b, p0)) ∧ (b ≠ .rt) ∧ ((b ≠ .core ∧ b ≠ .clus ∧ b ≠ .pwu) ∨ isGated s.chip b = true) :=
  ⟨ups { chipOn with pwr := { st := 3 } }, ⟨0x100, by decide⟩, .core, 0x100, by decide⟩
theorem wit_BlockControl_7a : ∃ (s : State) (p : PageId) (b : Blk) (p0 : Nat), (s.chip.isOn) ∧ (pageBlk p = some (b, p0)) ∧ (b = .core ∨ b = .clus ∨ b = .pwu) ∧ (isGated s.chip b = false) ∧ (s.chip.enabled p = false) :=
  ⟨up, ⟨0x100, by decide⟩, .core, 0x100, by decide⟩
theorem wit_BlockControl_7b : ∃ (s : State) (p : PageId) (b : Blk) (p0 : Nat), (s.chip.isOn) ∧ (pageBlk p = some (b, p0)) ∧ (b = .core ∨ b = .clus ∨ b = .pwu) ∧ (isGated s.chip b = false) ∧ (s.chip.enabled p = false) :=
  ⟨up, ⟨0x237, by decide⟩, .pwu, 0x220, by decide⟩
theorem wit_BlockControl_8a : ∃ (s : State) (p : PageId) (b : Blk) (p0 : Nat), (s.chip.isOn) ∧ (pageBlk p = some (b, p0)) ∧ (b ≠ .rt) ∧ ((b ≠ .core ∧ b ≠ .clus ∧ b ≠ .pwu) ∨ isGated s.chip b = true ∨ s.chip.enabled p = true) :=
  ⟨ups (chipOn.setRg (coreReg 4 8) 1), corePage 4, .core, 0x100, by decide⟩
theorem wit_BlockControl_8b : ∃ (s : State) (p : PageId) (b : Blk) (p0 : Nat), (s.chip.isOn) ∧ (pageBlk p = some (b, p0)) ∧ (b ≠ .rt) ∧ ((b ≠ .core ∧ b ≠ .clus ∧ b ≠ .pwu) ∨ isGated s.chip b = true ∨ s.chip.enabled p = true) :=
  ⟨up, ⟨0, by decide⟩, .mgt, 0, by decide⟩
theorem wit_BlockControl_9 : ∃ (s : State) (n : CoreId), (s.chip.isOn) ∧ (pgCore n ∈ s.chip.busy) ∧ (Memory.wf s.chip.mem) :=
  ⟨ups { chipOn with busy := [0x100] }, 0, by decide⟩
theorem wit_BlockControl_10 : ∃ (s : State) (n : ClusterId), (s.chip.isOn) ∧ (pgClus n ∈ s.chip.busy) ∧ (Memory.wf s.chip.mem) :=
  ⟨ups { chipOn with busy := [0x217] }, 23, by decide⟩
theorem wit_BlockControl_11 : ∃ (s : State) (p : PageId) (n : ClusterId), (s.chip.isOn) ∧ (p.val = pgPwu n) ∧ (p.val ∈ s.chip.busy) :=
  ⟨ups { chipOn with busy := [0x220] }, ⟨0x220, by decide⟩, 0, by decide⟩
theorem wit_BlockControl_12a : ∃ (s : State) (n : CoreId) (on : Bool), (s.chip.isOn) ∧ (s.chip.enabled (pgCore n) ≠ on) :=
  ⟨up, 0, true, by decide⟩
theorem wit_BlockControl_12b : ∃ (s : State) (n : CoreId) (on : Bool), (s.chip.isOn) ∧ (s.chip.enabled (pgCore n) ≠ on) :=
  ⟨ups ((chipOn.setRg (coreReg 191 8) 1).setCore 191 { mapPend := true, mapApp := true }), 191, false, by decide⟩
theorem wit_BlockControl_13a : ∃ (s : State) (p : PageId) (b : Blk) (p0 : Nat) (on : Bool), (s.chip.isOn) ∧ (pageBlk p = some (b, p0)) ∧ (b ≠ .rt) ∧ (b ≠ .core) ∧ (b ≠ .port) ∧ (s.chip.enabled p ≠ on) :=
  ⟨up, ⟨0x217, by decide⟩, .clus, 0x200, true, by decide⟩
theorem wit_BlockControl_13b : ∃ (s : State) (p : PageId) (b : Blk) (p0 : Nat) (on : Bool), (s.chip.isOn) ∧ (pageBlk p = some (b, p0)) ∧ (b ≠ .rt) ∧ (b ≠ .core) ∧ (b ≠ .port) ∧ (s.chip.enabled p ≠ on) :=
  ⟨ups (chipOn.setRg 8 1), ⟨0, by decide⟩, .mgt, 0, false, by decide⟩
theorem wit_BlockControl_14 : ∃ (s : State) (p : PageId) (b : Blk) (p0 : Nat), (s.chip.isOn) ∧ (pageBlk p = some (b, p0)) ∧ (b ≠ .rt) :=
  ⟨up, corePage 17, .core, 0x100, by decide⟩
theorem wit_ErrorInjection_1a : ∃ (s : State) (p : PageId) (b : Blk) (p0 k cls : Nat), (s.chip.isOn) ∧ (pageBlk p = some (b, p0)) ∧ (s.chip.lc = 1 ∨ s.chip.lc = 3) ∧ (isGated s.chip b = false) ∧ (k ∈ blkCauses b) ∧ (cls < 2) :=
  ⟨ups { chipOn with otp := { prov := true } }, ⟨0x00D, by decide⟩, .port, 8, 12, 1, by decide⟩
theorem wit_ErrorInjection_1b : ∃ (s : State) (p : PageId) (b : Blk) (p0 k cls : Nat), (s.chip.isOn) ∧ (pageBlk p = some (b, p0)) ∧ (s.chip.lc = 1 ∨ s.chip.lc = 3) ∧ (isGated s.chip b = false) ∧ (k ∈ blkCauses b) ∧ (cls < 2) :=
  ⟨ups { chipOn with otp := { prov := true } }, ⟨0x31F, by decide⟩, .slot, 0x300, 31, 0, by decide⟩
theorem wit_ErrorInjection_2 : ∃ (s : State) (p : PageId) (b : Blk) (p0 k : Nat), (s.chip.isOn) ∧ (pageBlk p = some (b, p0)) ∧ (s.chip.lc = 1 ∨ s.chip.lc = 3) ∧ (isGated s.chip b = false) ∧ (k ∈ blkCauses b) ∧ (served s.chip b (p - p0) (ucScope b k) = .none) :=
  ⟨ups { chipOn with otp := { prov := true } }, ⟨0x00D, by decide⟩, .port, 8, 12, by decide⟩
theorem wit_ErrorInjection_3 : ∃ (s : State) (n : CoreId) (r : TodRun) (l : List TodRun) (k : Nat), (s.chip.isOn) ∧ (s.chip.pwr.st ≠ 3) ∧ (s.chip.pwr.st ≠ 4) ∧ (s.chip.lc = 1 ∨ s.chip.lc = 3) ∧ (k ∈ blkCauses .core) ∧ (1 ≤ (s.chip.core n).st) ∧ ((s.chip.core n).st ≤ 3) ∧ ((s.chip.core n).runs = r :: l) ∧ (r.begun = true) ∧ (r.ended = false) ∧ (s.chip.rg (coreReg n 0x10) = 0) :=
  ⟨ups ({ chipOn with otp := { prov := true } }.setCore 0 { st := 1, runs := [vecRun] }), 0, vecRun, [], 9, by decide⟩
theorem wit_ErrorInjection_4 : ∃ (s : State) (p : PageId) (b : Blk) (p0 k : Nat), (s.chip.isOn) ∧ (pageBlk p = some (b, p0)) ∧ (s.chip.lc = 1 ∨ s.chip.lc = 3) ∧ (isGated s.chip b = false) ∧ (k ∈ blkCauses b) :=
  ⟨ups ({ chipOn with otp := { prov := true } }.setCore 0 { st := 1, runs := [vecRun] }), ⟨0x010, by decide⟩, .gmc, 0x010, 9, by decide⟩
theorem wit_ErrorInjection_5a : ∃ (s : State) (p : PageId) (b : Blk) (p0 : Nat) (v : W32), (s.chip.isOn) ∧ (pageBlk p = some (b, p0)) ∧ (b ≠ .rt) ∧ (bit 16 v.toNat = true) ∧ ((s.chip.lc ≠ 1 ∧ s.chip.lc ≠ 3) ∨ 3 < fld 3 0 v.toNat ∨ fld 12 8 v.toNat ∉ blkCauses b ∨ isGated s.chip b = true) :=
  ⟨up, ⟨0x008, by decide⟩, .port, 8, 0x10800#32, by decide⟩
theorem wit_ErrorInjection_5b : ∃ (s : State) (p : PageId) (b : Blk) (p0 : Nat) (v : W32), (s.chip.isOn) ∧ (pageBlk p = some (b, p0)) ∧ (b ≠ .rt) ∧ (bit 16 v.toNat = true) ∧ ((s.chip.lc ≠ 1 ∧ s.chip.lc ≠ 3) ∨ 3 < fld 3 0 v.toNat ∨ fld 12 8 v.toNat ∉ blkCauses b ∨ isGated s.chip b = true) :=
  ⟨ups { chipOn with otp := { prov := true } }, ⟨0x100, by decide⟩, .core, 0x100, 0x10700#32, by decide⟩
theorem wit_ErrorInjection_6 : ∃ (s : State) (p : PageId) (v : W32), (s.chip.isOn) ∧ (pageBlk p ≠ none) ∧ (v.toNat / 2 ^ 16 % 2 = 0) :=
  ⟨up, 0x100, 0x800#32, by decide⟩
theorem wit_TodIssue_1 : ∃ (s : State) (n : CoreId) (t : List Nat), (s.chip.atEntry n t) ∧ (isTodOp (tOp t) = true) ∧ (issueFault s.chip n t (readPar s.chip n t) = none) :=
  ⟨ups (entryAt chipOn todVec { st := 1 }), 0, todVec, by decide⟩
theorem wit_TodIssue_2 : ∃ (s : State) (n : CoreId) (t : List Nat) (st ofs val : Nat), (s.chip.atEntry n t) ∧ (isTodOp (tOp t) = true) ∧ (issueFault s.chip n t (readPar s.chip n t) = some (st, ofs, val)) :=
  ⟨ups badTod, 0, (listEntry badTod 0).toOption.getD [], 0x10, 0, 0x80000002, by decide⟩
theorem wit_TodIssue_3 : ∃ (s : State) (n : CoreId) (t : List Nat), (s.chip.atEntry n t) ∧ (isTodOp (tOp t) = true) ∧ (s.chip.poison = []) ∧ (wd t 0 / 2 ^ 30 % 4 ≠ 0) :=
  ⟨ups badTod, 0, (listEntry badTod 0).toOption.getD [], by decide⟩
theorem wit_TodBegins_1 : ∃ (s : State) (n : CoreId) (l : List TodRun) (r : TodRun), (s.chip.isPowered) ∧ ((s.chip.core n).st = 3) ∧ ((s.chip.core n).runs = l ++ [r]) ∧ (r.begun = false) ∧ (r.ended = false) ∧ (held s.chip n r = false) ∧ (boundBad s.chip n r.tod = none) ∧ (bufferBad s.chip n r.tod r.par = none) :=
  ⟨ups (chipOn.setCore 0 { st := 3, runs := [{ tod := todVec }] }), 0, [], { tod := todVec }, by decide⟩
theorem wit_TodBegins_2 : ∃ (s : State) (n : CoreId) (l : List TodRun) (r : TodRun) (st ofs val : Nat), (s.chip.isPowered) ∧ ((s.chip.core n).st = 3) ∧ ((s.chip.core n).runs = l ++ [r]) ∧ (r.begun = false) ∧ (r.ended = false) ∧ (held s.chip n r = false) ∧ (boundBad s.chip n r.tod = some (st, ofs, val)) :=
  ⟨ups (chipOn.setCore 0 { st := 3, runs := [{ tod := todBig }] }), 0, [], { tod := todBig }, 0x14, 0x10, 2, by decide⟩
theorem wit_TodBegins_3 : ∃ (s : State) (n : CoreId) (l : List TodRun) (r : TodRun) (st ofs val : Nat), (s.chip.isPowered) ∧ ((s.chip.core n).st = 3) ∧ ((s.chip.core n).runs = l ++ [r]) ∧ (r.begun = false) ∧ (r.ended = false) ∧ (held s.chip n r = false) ∧ (boundBad s.chip n r.tod = none) ∧ (bufferBad s.chip n r.tod r.par = some (st, ofs, val)) :=
  ⟨ups ((chipOn.mark (padBase 0) 8).setCore 0 { st := 3, runs := [{ tod := statTod }] }), 0, [], { tod := statTod }, 0x18, 0x58, ((bufferBad (chipOn.mark (padBase 0) 8) 0 statTod []).getD (0, 0, 0)).2.2, by decide⟩
theorem wit_TodFaults_1 : ∃ (s : State) (n : CoreId) (a : List TodRun) (r : TodRun) (l : List TodRun) (v cc : Nat), (s.chip.drains n a r l) ∧ (r.walk = none) ∧ (metaHit s.chip n r = some (v, cc)) :=
  ⟨ups metaChip, 0, [], metaRun, [], ((metaHit metaChip 0 metaRun).getD (0, 0)).1, ((metaHit metaChip 0 metaRun).getD (0, 0)).2, by decide⟩
theorem wit_TodFaults_2 : ∃ (s : State) (n : CoreId) (a : List TodRun) (r : TodRun) (l : List TodRun) (o v : Nat), (s.chip.drains n a r l) ∧ (tilePoison s.chip n r = some (o, v)) :=
  ⟨ups poisonChip, 0, [], vecRun, [], 0x18, ((tilePoison poisonChip 0 vecRun).getD (0, 0)).2, by decide⟩
theorem wit_TodFaults_3 : ∃ (s : State) (n : CoreId) (a : List TodRun) (r : TodRun) (l : List TodRun) (o v : Nat) (f : Option (Nat × Nat)) (u : Bool) (w : WalkAcc), (s.chip.drains n a r l) ∧ (tilePoison s.chip n r = none) ∧ (walkStop s.chip n r = some (.poison o v f u, w)) :=
  ⟨ups walkPoison, 0, [], walkRun, [], ((walkStop walkPoison 0 walkRun).map (fun x => match x.1 with | .poison o _ _ _ => o | _ => 0)).getD 0, ((walkStop walkPoison 0 walkRun).map (fun x => match x.1 with | .poison _ v _ _ => v | _ => 0)).getD 0, ((walkStop walkPoison 0 walkRun).map (fun x => match x.1 with | .poison _ _ f _ => f | _ => none)).getD none, ((walkStop walkPoison 0 walkRun).map (fun x => match x.1 with | .poison _ _ _ u => u | _ => false)).getD false, ((walkStop walkPoison 0 walkRun).map (·.2)).getD {}, by decide⟩
theorem wit_TileDrain_1a : ∃ (s : State) (n : CoreId) (a : List TodRun) (r : TodRun) (l : List TodRun), (s.chip.drains n a r l) ∧ (tNoDrain r.tod = false) ∧ (tilePoison s.chip n r = none) ∧ (metaHit s.chip n r = none) ∧ (isAttn r.tod = false) ∧ (isMatmul r.tod = true → tAcc r.tod = 1 → a = []) :=
  ⟨ups (chipOn.setCore 0 { st := 1, runs := [vecRun] }), 0, [], vecRun, [], by decide⟩
theorem wit_TileDrain_1b : ∃ (s : State) (n : CoreId) (a : List TodRun) (r : TodRun) (l : List TodRun), (s.chip.drains n a r l) ∧ (tNoDrain r.tod = false) ∧ (tilePoison s.chip n r = none) ∧ (metaHit s.chip n r = none) ∧ (isAttn r.tod = false) ∧ (isMatmul r.tod = true → tAcc r.tod = 1 → a = []) :=
  ⟨ups (chipOn.setCore 0 { st := 1, runs := [{ vecRun with ended := true }, { vecRun with nb := 65 }] }), 0, [{ vecRun with ended := true }], { vecRun with nb := 65 }, [], by decide⟩
theorem wit_TileDrain_2 : ∃ (s : State) (n : CoreId) (a : List TodRun) (r : TodRun) (l : List TodRun), (s.chip.drains n a r l) ∧ (tNoDrain r.tod = false) ∧ (tilePoison s.chip n r = none) ∧ (metaHit s.chip n r = none) ∧ (isAttn r.tod = true) ∧ (aPmerge r.tod = false) ∧ ((attnWork s.chip n r).1.bad = none) :=
  ⟨ups (chipOn.setCore 0 { st := 1, runs := [walkRun] }), 0, [], walkRun, [], by decide⟩
theorem wit_TileDrain_3 : ∃ (s : State) (n : CoreId) (a : List TodRun) (r : TodRun) (l : List TodRun) (hd : Nat × Nat) (rows : List RowSt), (s.chip.drains n a r l) ∧ (tNoDrain r.tod = false) ∧ (tilePoison s.chip n r = none) ∧ (metaHit s.chip n r = none) ∧ (isAttn r.tod = true) ∧ (aPmerge r.tod = true) ∧ (pmerge (runBank s.chip n r) r.mb (tN r.tod) r.kb (fun i => (List.range (64 + r.mb * (32 + 4 * tN r.tod))).map (fun o => BitVec.ofNat 8 (runMem s.chip n r (tA r.tod) (i * tALd r.tod + o)))) = some (hd, rows)) :=
  ⟨ups mergeChip, 0, [], mergeRun, [], mergeOut.1, mergeOut.2, by decide⟩
theorem wit_CompletionRecord_1 : ∃ (s : State) (n : CoreId) (r : TodRun) (l : List TodRun) (a : Nat), (s.chip.isPowered) ∧ ((s.chip.core n).runs = r :: l) ∧ ((s.chip.core n).st ≠ 0) ∧ ((s.chip.core n).st ≠ 4) ∧ (r.ended = true) ∧ (r.status < 16) ∧ (awFits (s.chip.rg (coreReg n 0x118)) (384 * ((s.chip.core n).cplHead % max 1 (s.chip.rg (coreReg n 0x11C))) + 384) = true) ∧ (a = awAddr n [] (s.chip.rg (coreReg n 0x118)) (384 * ((s.chip.core n).cplHead % max 1 (s.chip.rg (coreReg n 0x11C))))) :=
  ⟨ups (chipOn.setCore 0 { st := 1, runs := [{ vecRun with ended := true }] }), 0, { vecRun with ended := true }, [], padBase 0, by decide⟩
theorem wit_CompletionRecord_2 : ∃ (s : State) (n : CoreId) (r : TodRun) (l : List TodRun) (a : Nat), (s.chip.isPowered) ∧ ((s.chip.core n).runs = r :: l) ∧ ((s.chip.core n).st ≠ 0) ∧ ((s.chip.core n).st ≠ 4) ∧ (r.ended = false) ∧ (r.begun = true) ∧ (tNoDrain r.tod = true) ∧ (tilePoison s.chip n r = none) ∧ (metaHit s.chip n r = none) ∧ (r.status = 0) ∧ (awFits (s.chip.rg (coreReg n 0x118)) (384 * ((s.chip.core n).cplHead % max 1 (s.chip.rg (coreReg n 0x11C))) + 384) = true) ∧ (a = awAddr n [] (s.chip.rg (coreReg n 0x118)) (384 * ((s.chip.core n).cplHead % max 1 (s.chip.rg (coreReg n 0x11C))))) :=
  ⟨ups (chipOn.setCore 0 { st := 1, runs := [{ vecRun with tod := vecRun.tod.set 0 (2 + 2 ^ 14) }] }), 0, { vecRun with tod := vecRun.tod.set 0 (2 + 2 ^ 14) }, [], padBase 0, by decide⟩
theorem wit_CompletionRecord_3 : ∃ (s : State) (n : CoreId) (r : TodRun) (l : List TodRun) (a : Nat), (s.chip.isPowered) ∧ ((s.chip.core n).runs = r :: l) ∧ (r.ended = true) ∧ (16 ≤ r.status) ∧ (s.chip.rg (coreReg n 0x10) = 0) ∧ (awFits (s.chip.rg (coreReg n 0x118)) (384 * ((s.chip.core n).cplHead % max 1 (s.chip.rg (coreReg n 0x11C))) + 384) = true) ∧ (a = awAddr n [] (s.chip.rg (coreReg n 0x118)) (384 * ((s.chip.core n).cplHead % max 1 (s.chip.rg (coreReg n 0x11C))))) :=
  ⟨ups (chipOn.setCore 0 { st := 1, runs := [{ vecRun with ended := true, status := 0x18 }] }), 0, { vecRun with ended := true, status := 0x18 }, [], padBase 0, by decide⟩
theorem wit_ListControl_1 : ∃ (s : State) (n : CoreId), (s.chip.isPowered) ∧ ((s.chip.core n).st = 0 ∨ (s.chip.core n).st = 4) ∧ (s.chip.enabled (pgCore n) = true) ∧ (bit 2 (s.chip.rg (coreReg n 0x10C)) = false) ∧ (launchBad s.chip n = none) :=
  ⟨ups launchable, 0, by decide⟩
theorem wit_ListControl_2 : ∃ (s : State) (n : CoreId) (e : Nat), (s.chip.isPowered) ∧ ((s.chip.core n).pending = none) ∧ ((s.chip.core n).st = 0 ∨ (s.chip.core n).st = 4) ∧ (s.chip.enabled (pgCore n) = true) ∧ (bit 2 (s.chip.rg (coreReg n 0x10C)) = false) ∧ (launchBad s.chip n = some e) ∧ (s.chip.rg (coreReg n 0x10) = 0) :=
  ⟨ups (launchable.setRg (coreReg 0 0x104) 0), 0, 0x29, by decide⟩
theorem wit_ListControl_3 : ∃ (s : State) (n : CoreId), (s.chip.isPowered) ∧ ((s.chip.core n).st = 0 ∨ (s.chip.core n).st = 4) ∧ (s.chip.enabled (pgCore n) = true) ∧ (bit 2 (s.chip.rg (coreReg n 0x10C)) = true) ∧ (s.chip.beat < s.chip.rg64 (coreReg n 0x110)) :=
  ⟨ups ((launchable.setRg (coreReg 0 0x10C) 4).setRg (coreReg 0 0x110) 9), 0, by decide⟩
theorem wit_ListControl_4 : ∃ (s : State) (n : CoreId), (s.chip.isPowered) ∧ ((s.chip.core n).st = 0 ∨ (s.chip.core n).st = 4) ∧ (s.chip.enabled (pgCore n) = true) ∧ (bit 2 (s.chip.rg (coreReg n 0x10C)) = true) ∧ (s.chip.rg64 (coreReg n 0x110) ≤ s.chip.beat) :=
  ⟨ups (launchable.setRg (coreReg 0 0x10C) 4), 0, by decide⟩
theorem wit_ListControl_5 : ∃ (s : State) (n : CoreId), (s.chip.isPowered) ∧ ((s.chip.core n).pending = none) ∧ (((s.chip.core n).st ≠ 0 ∧ (s.chip.core n).st ≠ 4) ∨ s.chip.enabled (pgCore n) = false) :=
  ⟨up, 7, by decide⟩
theorem wit_ListControl_6a : ∃ (s : State) (n : CoreId), (s.chip.isPowered) ∧ ((s.chip.core n).st ≠ 0) ∧ ((s.chip.core n).st ≠ 4) :=
  ⟨ups (chipOn.setCore 9 { st := 2, blocked := .beat 5 false }), 9, by decide⟩
theorem wit_ListControl_6b : ∃ (s : State) (n : CoreId), (s.chip.isPowered) ∧ ((s.chip.core n).st ≠ 0) ∧ ((s.chip.core n).st ≠ 4) :=
  ⟨ups ((chipOn.setCtr 0 0 { armed := true, total := 3, next := 1, leased := 1 }).setCore 0 { st := 1, lease := some {} }), 0, by decide⟩
theorem wit_ListControl_7 : ∃ (s : State) (n : CoreId), (s.chip.isPowered) ∧ ((s.chip.core n).st = 0 ∨ (s.chip.core n).st = 4) ∧ ((s.chip.core n).pending = none) :=
  ⟨up, 0, by decide⟩
theorem wit_ListControl_8 : ∃ (s : State) (n : CoreId), (s.chip.isPowered) ∧ ((s.chip.core n).st = 5) ∧ (s.chip.cascadeDue (s.chip.core n).startAt = true) ∧ (s.chip.enabled (pgCore n) = true) ∧ (launchBad s.chip n = none) :=
  ⟨ups (({ launchable with cad := { st := 3, now := 9216 } } : Chip).setCore 0 { st := 5, startAt := 9 }), 0, by decide⟩
theorem wit_ListControl_9a : ∃ (s : State) (n : CoreId), (s.chip.isPowered) ∧ ((s.chip.core n).st = 1) ∧ ((s.chip.core n).stopping = false) ∧ (s.chip.listLen n ≤ (s.chip.core n).pc) ∧ ((s.chip.core n).runs = []) :=
  ⟨ups (chipOn.setCore 2 { st := 1 }), 2, by decide⟩
theorem wit_ListControl_9b : ∃ (s : State) (n : CoreId), (s.chip.isPowered) ∧ ((s.chip.core n).st = 1) ∧ ((s.chip.core n).stopping = false) ∧ (s.chip.listLen n ≤ (s.chip.core n).pc) ∧ ((s.chip.core n).runs = []) :=
  ⟨ups ((chipOn.setCtr 0 0 { armed := true, total := 3, next := 1, leased := 1 }).setCore 0 { st := 1, lease := some { expiry := 1 } }), 0, by decide⟩
theorem wit_LoopsAndBranches_1a : ∃ (s : State) (n : CoreId) (t : List Nat) (v : Nat), (s.chip.atEntry n t) ∧ (tOp t = 0x80) ∧ (restZero t 3 = true) ∧ (wd t 1 / 2 ^ 26 % 64 = 0) ∧ (wd t 2 / 2 ^ 22 % 1024 = 0) ∧ (wd t 2 % 65536 ≠ 0) ∧ ((s.chip.core n).loops.length < 4) ∧ ((s.chip.core n).pc + wd t 2 % 65536 ≤ (match (s.chip.core n).loops with | f :: _ => f.last | [] => s.chip.listLen n - 1)) ∧ ((fld 25 24 (wd t 1) = 0 ∧ v = fld 23 0 (wd t 1)) ∨ (fld 25 24 (wd t 1) = 1 ∧ fld 23 0 (wd t 1) < 32 ∧ v = s.chip.sq n (fld 23 0 (wd t 1))) ∨
      (fld 25 24 (wd t 1) = 2 ∧ 4 * fld 23 0 (wd t 1) + 4 ≤ 0x200000 ∧ poisonAw s.chip n (windows s.chip n) (4 * fld 23 0 (wd t 1)) 0 4 = none ∧
        v = rd4 (rdAw s.chip n (windows s.chip n) (4 * fld 23 0 (wd t 1))) 0)) ∧ (v ≠ 0) :=
  ⟨ups (entryAt (chipOn) [0x80, 3, 0x200001] { st := 1 }), 0, [0x80, 3, 0x200001] ++ List.replicate 13 0, 3, by decide⟩
theorem wit_LoopsAndBranches_1b : ∃ (s : State) (n : CoreId) (t : List Nat) (v : Nat), (s.chip.atEntry n t) ∧ (tOp t = 0x80) ∧ (restZero t 3 = true) ∧ (wd t 1 / 2 ^ 26 % 64 = 0) ∧ (wd t 2 / 2 ^ 22 % 1024 = 0) ∧ (wd t 2 % 65536 ≠ 0) ∧ ((s.chip.core n).loops.length < 4) ∧ ((s.chip.core n).pc + wd t 2 % 65536 ≤ (match (s.chip.core n).loops with | f :: _ => f.last | [] => s.chip.listLen n - 1)) ∧ ((fld 25 24 (wd t 1) = 0 ∧ v = fld 23 0 (wd t 1)) ∨ (fld 25 24 (wd t 1) = 1 ∧ fld 23 0 (wd t 1) < 32 ∧ v = s.chip.sq n (fld 23 0 (wd t 1))) ∨
      (fld 25 24 (wd t 1) = 2 ∧ 4 * fld 23 0 (wd t 1) + 4 ≤ 0x200000 ∧ poisonAw s.chip n (windows s.chip n) (4 * fld 23 0 (wd t 1)) 0 4 = none ∧
        v = rd4 (rdAw s.chip n (windows s.chip n) (4 * fld 23 0 (wd t 1))) 0)) ∧ (v ≠ 0) :=
  ⟨ups (entryAt (chipOn) [0x80, 0x2000000, 0x200001] { st := 1 }), 0, [0x80, 0x2000000, 0x200001] ++ List.replicate 13 0, 0x80, by decide⟩
theorem wit_LoopsAndBranches_2 : ∃ (s : State) (n : CoreId) (t : List Nat), (s.chip.atEntry n t) ∧ (tOp t = 0x80) ∧ (restZero t 3 = true) ∧ (wd t 1 / 2 ^ 26 % 64 = 0) ∧ (wd t 2 / 2 ^ 22 % 1024 = 0) ∧ (wd t 2 % 65536 ≠ 0) ∧ ((s.chip.core n).loops.length < 4) ∧ ((s.chip.core n).pc + wd t 2 % 65536 ≤ (match (s.chip.core n).loops with | f :: _ => f.last | [] => s.chip.listLen n - 1)) ∧ ((fld 25 24 (wd t 1) = 0 ∧ 0 = fld 23 0 (wd t 1)) ∨ (fld 25 24 (wd t 1) = 1 ∧ fld 23 0 (wd t 1) < 32 ∧ 0 = s.chip.sq n (fld 23 0 (wd t 1))) ∨
      (fld 25 24 (wd t 1) = 2 ∧ 4 * fld 23 0 (wd t 1) + 4 ≤ 0x200000 ∧ poisonAw s.chip n (windows s.chip n) (4 * fld 23 0 (wd t 1)) 0 4 = none ∧
        0 = rd4 (rdAw s.chip n (windows s.chip n) (4 * fld 23 0 (wd t 1))) 0)) :=
  ⟨ups (entryAt (chipOn) [0x80, 0, 1] { st := 1 }), 0, [0x80, 0, 1] ++ List.replicate 13 0, by decide⟩
theorem wit_LoopsAndBranches_3a : ∃ (s : State) (n : CoreId) (t : List Nat), (s.chip.atEntry n t) ∧ (tOp t = 0x80) ∧ (restZero t 3 = true) ∧ (wd t 1 / 2 ^ 26 % 64 = 0) ∧ (wd t 2 / 2 ^ 22 % 1024 = 0) ∧ (wd t 2 % 65536 ≠ 0) ∧ ((s.chip.core n).pending = none) ∧ (fld 25 24 (wd t 1) ≠ 3) ∧ (fld 25 24 (wd t 1) = 1 → fld 23 0 (wd t 1) < 32) ∧ (4 ≤ (s.chip.core n).loops.length ∨ (match (s.chip.core n).loops with | f :: _ => f.last | [] => s.chip.listLen n - 1) < (s.chip.core n).pc + wd t 2 % 65536) ∧ (s.chip.rg (coreReg n 0x10) = 0) :=
  ⟨ups (entryAt (chipOn) [0x80, 3, 1] { st := 1, loops := [{ last := 9 }, { last := 9 }, { last := 9 }, { last := 9 }] }), 0, [0x80, 3, 1] ++ List.replicate 13 0, by decide⟩
theorem wit_LoopsAndBranches_3b : ∃ (s : State) (n : CoreId) (t : List Nat), (s.chip.atEntry n t) ∧ (tOp t = 0x80) ∧ (restZero t 3 = true) ∧ (wd t 1 / 2 ^ 26 % 64 = 0) ∧ (wd t 2 / 2 ^ 22 % 1024 = 0) ∧ (wd t 2 % 65536 ≠ 0) ∧ ((s.chip.core n).pending = none) ∧ (fld 25 24 (wd t 1) ≠ 3) ∧ (fld 25 24 (wd t 1) = 1 → fld 23 0 (wd t 1) < 32) ∧ (4 ≤ (s.chip.core n).loops.length ∨ (match (s.chip.core n).loops with | f :: _ => f.last | [] => s.chip.listLen n - 1) < (s.chip.core n).pc + wd t 2 % 65536) ∧ (s.chip.rg (coreReg n 0x10) = 0) :=
  ⟨ups (entryAt (chipOn) [0x80, 3, 9] { st := 1 }), 0, [0x80, 3, 9] ++ List.replicate 13 0, by decide⟩
theorem wit_LoopsAndBranches_4 : ∃ (s : State) (n : CoreId) (t : List Nat), (s.chip.atEntry n t) ∧ (tOp t = 0x84) ∧ (restZero t 2 = true) ∧ (fld 15 4 (wd t 1) = 0) ∧ (fld 2 0 (wd t 1) ≤ 5) ∧ (wd t 1 / 65536 % 65536 < s.chip.listLen n) ∧ (∀ f ∈ (s.chip.core n).loops.head?, f.first ≤ wd t 1 / 65536 % 65536 ∧ wd t 1 / 65536 % 65536 ≤ f.last) ∧ (bit (fld 2 0 (wd t 1)) (seqFlags (s.chip.core n)) = bit 3 (wd t 1)) :=
  ⟨ups (entryAt (chipOn) [0x84, 0x20000] { st := 1 }), 0, [0x84, 0x20000] ++ List.replicate 14 0, by decide⟩
theorem wit_LoopsAndBranches_5 : ∃ (s : State) (n : CoreId) (t : List Nat), (s.chip.atEntry n t) ∧ (tOp t = 0x84) ∧ (restZero t 2 = true) ∧ (fld 15 4 (wd t 1) = 0) ∧ (fld 2 0 (wd t 1) ≤ 5) ∧ (wd t 1 / 65536 % 65536 < s.chip.listLen n) ∧ (∀ f ∈ (s.chip.core n).loops.head?, f.first ≤ wd t 1 / 65536 % 65536 ∧ wd t 1 / 65536 % 65536 ≤ f.last) ∧ (bit (fld 2 0 (wd t 1)) (seqFlags (s.chip.core n)) ≠ bit 3 (wd t 1)) :=
  ⟨ups (entryAt (chipOn) [0x84, 0x20008] { st := 1 }), 0, [0x84, 0x20008] ++ List.replicate 14 0, by decide⟩
theorem wit_LoopsAndBranches_6 : ∃ (s : State) (n : CoreId) (t : List Nat) (f : LoopFrame) (l : List LoopFrame), (s.chip.atEntry n t) ∧ (tOp t = 0x84) ∧ (restZero t 2 = true) ∧ (fld 15 4 (wd t 1) = 0) ∧ (fld 2 0 (wd t 1) ≤ 5) ∧ (wd t 1 / 65536 % 65536 < s.chip.listLen n) ∧ ((s.chip.core n).loops = f :: l) ∧ (f.first ≤ wd t 1 / 65536 % 65536) ∧ (wd t 1 / 65536 % 65536 ≤ f.last) ∧ (bit (fld 2 0 (wd t 1)) (seqFlags (s.chip.core n)) ≠ bit 3 (wd t 1)) ∧ ((s.chip.core n).pc = f.last) ∧ (0 < f.left) :=
  ⟨ups (entryAt (chipOn) [0x84, 0x8] { st := 1, loops := [{ left := 2 }] }), 0, [0x84, 0x8] ++ List.replicate 14 0, { left := 2 }, [], by decide⟩
theorem wit_LoopsAndBranches_7 : ∃ (s : State) (n : CoreId) (t : List Nat), (s.chip.atEntry n t) ∧ (tOp t = 0x84) ∧ (restZero t 2 = true) ∧ (fld 15 4 (wd t 1) = 0) ∧ (fld 2 0 (wd t 1) ≤ 5) ∧ ((s.chip.core n).pending = none) ∧ (s.chip.listLen n ≤ wd t 1 / 65536 % 65536 ∨ ∃ f ∈ (s.chip.core n).loops.head?, wd t 1 / 65536 % 65536 < f.first ∨ f.last < wd t 1 / 65536 % 65536) ∧ (s.chip.rg (coreReg n 0x10) = 0) :=
  ⟨ups (entryAt (chipOn) [0x84, 0xFFFF0000] { st := 1 }), 0, [0x84, 0xFFFF0000] ++ List.replicate 14 0, by decide⟩
theorem wit_Waits_1a : ∃ (s : State) (n : CoreId) (t : List Nat) (kind idx amt : Nat), (s.chip.atEntry n t) ∧ (tOp t = 0x81) ∧ (restZero t 3 = true) ∧ (wd t 1 = kind + 16 * idx + 65536 * amt) ∧ (wd t 2 < 65536) ∧ (0 < amt) ∧ (amt < 65536) ∧ ((kind < 2 ∧ idx < 64) ∨ (kind = 2 ∧ idx = 0 ∧ ∃ q : Carousel, (s.chip.core n).car = some q ∧ amt ≤ carU q.rcd + 1) ∨ (kind = 3 ∧ 0 < idx ∧ idx < 256)) ∧ (waitOk s.chip n kind idx amt = true) :=
  ⟨ups (entryAt (chipOn.setRg (flagReg 0 63) 5) [0x81, 0x203F0] { st := 1 }), 0, [0x81, 0x203F0] ++ List.replicate 14 0, 0, 63, 2, ⟨by decide, by decide, by decide, by decide, by decide, by decide, by decide, Or.inl (by decide), by decide⟩⟩
theorem wit_Waits_1b : ∃ (s : State) (n : CoreId) (t : List Nat) (kind idx amt : Nat), (s.chip.atEntry n t) ∧ (tOp t = 0x81) ∧ (restZero t 3 = true) ∧ (wd t 1 = kind + 16 * idx + 65536 * amt) ∧ (wd t 2 < 65536) ∧ (0 < amt) ∧ (amt < 65536) ∧ ((kind < 2 ∧ idx < 64) ∨ (kind = 2 ∧ idx = 0 ∧ ∃ q : Carousel, (s.chip.core n).car = some q ∧ amt ≤ carU q.rcd + 1) ∨ (kind = 3 ∧ 0 < idx ∧ idx < 256)) ∧ (waitOk s.chip n kind idx amt = true) :=
  ⟨ups (entryAt (chipOn.setCtr 0 1 { armed := true, done := true }) [0x81, 0x10011] { st := 1 }), 0, [0x81, 0x10011] ++ List.replicate 14 0, 1, 1, 1, ⟨by decide, by decide, by decide, by decide, by decide, by decide, by decide, Or.inl (by decide), by decide⟩⟩
theorem wit_Waits_1c : ∃ (s : State) (n : CoreId) (t : List Nat) (kind idx amt : Nat), (s.chip.atEntry n t) ∧ (tOp t = 0x81) ∧ (restZero t 3 = true) ∧ (wd t 1 = kind + 16 * idx + 65536 * amt) ∧ (wd t 2 < 65536) ∧ (0 < amt) ∧ (amt < 65536) ∧ ((kind < 2 ∧ idx < 64) ∨ (kind = 2 ∧ idx = 0 ∧ ∃ q : Carousel, (s.chip.core n).car = some q ∧ amt ≤ carU q.rcd + 1) ∨ (kind = 3 ∧ 0 < idx ∧ idx < 256)) ∧ (waitOk s.chip n kind idx amt = true) :=
  ⟨ups (entryAt (chipOn) [0x81, 0x10013] { st := 1, seen := [1] }), 0, [0x81, 0x10013] ++ List.replicate 14 0, 3, 1, 1, ⟨by decide, by decide, by decide, by decide, by decide, by decide, by decide, Or.inr (Or.inr (by decide)), by decide⟩⟩
theorem wit_Waits_2 : ∃ (s : State) (n : CoreId) (t : List Nat) (idx amt : Nat), (s.chip.atEntry n t) ∧ (tOp t = 0x81) ∧ (restZero t 3 = true) ∧ (wd t 1 = 16 * idx + 65536 * amt) ∧ (wd t 2 < 65536) ∧ (idx < 64) ∧ (0 < amt) ∧ (amt < 65536) ∧ (amt ≤ s.chip.rg (flagReg (n / 8) idx)) :=
  ⟨ups (entryAt (chipOn.setRg (flagReg 0 63) 5) [0x81, 0x203F0] { st := 1 }), 0, [0x81, 0x203F0] ++ List.replicate 14 0, 63, 2, by decide⟩
theorem wit_Waits_3 : ∃ (s : State) (n : CoreId) (t : List Nat) (kind idx amt : Nat), (s.chip.atEntry n t) ∧ (tOp t = 0x81) ∧ (restZero t 3 = true) ∧ (wd t 1 = kind + 16 * idx + 65536 * amt) ∧ (wd t 2 < 65536) ∧ (0 < amt) ∧ (amt < 65536) ∧ ((kind < 2 ∧ idx < 64) ∨ (kind = 2 ∧ idx = 0 ∧ ∃ q : Carousel, (s.chip.core n).car = some q ∧ amt ≤ carU q.rcd + 1) ∨ (kind = 3 ∧ 0 < idx ∧ idx < 256)) ∧ (waitOk s.chip n kind idx amt = false) :=
  ⟨ups (entryAt (chipOn) [0x81, 0x20000, 7] { st := 1 }), 0, [0x81, 0x20000, 7] ++ List.replicate 13 0, 0, 0, 2, ⟨by decide, by decide, by decide, by decide, by decide, by decide, by decide, Or.inl (by decide), by decide⟩⟩
theorem wit_Waits_4 : ∃ (s : State) (n : CoreId) (kind idx amt d : Nat), (s.chip.isPowered) ∧ ((s.chip.core n).st = 2) ∧ ((s.chip.core n).blocked = .wait kind idx amt d) ∧ (s.chip.loopsOk n) ∧ (waitOk s.chip n kind idx amt = true) :=
  ⟨ups ((chipOn.setRg (flagReg 23 1) 4).setCore 191 { st := 2, blocked := .wait 0 1 4 0 }), 191, 0, 1, 4, 0, by decide⟩
theorem wit_Waits_5 : ∃ (s : State) (n : CoreId) (kind idx amt d : Nat), (s.chip.isPowered) ∧ ((s.chip.core n).st = 2) ∧ ((s.chip.core n).blocked = .wait kind idx amt d) ∧ (waitOk s.chip n kind idx amt = false) ∧ (d ≠ 0) ∧ (s.chip.come d = true) :=
  ⟨ups (({ chipOn with cad := { now := 5120 } } : Chip).setCore 1 { st := 2, blocked := .wait 0 0 1 5 }), 1, 0, 0, 1, 5, by decide⟩
theorem wit_Waits_6 : ∃ (s : State) (n : CoreId) (kind idx amt d : Nat), (s.chip.isPowered) ∧ ((s.chip.core n).blocked = .wait kind idx amt d) ∧ (d = 0 ∨ s.chip.come d = false ∨ (s.chip.core n).st ≠ 2 ∨ waitOk s.chip n kind idx amt = true) :=
  ⟨ups (chipOn.setCore 1 { st := 2, blocked := .wait 0 0 1 5 }), 1, 0, 0, 1, 5, by decide⟩
theorem wit_Waits_7 : ∃ (s : State) (n : CoreId) (kind idx amt d : Nat), (s.chip.isPowered) ∧ ((s.chip.core n).pending = none) ∧ ((s.chip.core n).st = 2) ∧ ((s.chip.core n).blocked = .wait kind idx amt d) ∧ (waitOk s.chip n kind idx amt = false) ∧ (d ≠ 0) ∧ (s.chip.come d = true) ∧ (s.chip.rg (coreReg n 0x10) = 0) :=
  ⟨ups (({ chipOn with cad := { now := 5120 } } : Chip).setCore 1 { st := 2, blocked := .wait 0 0 1 5 }), 1, 0, 0, 1, 5, by decide⟩
theorem wit_BeatWaits_1a : ∃ (s : State) (n : CoreId) (t : List Nat) (tgt : Nat), (s.chip.atEntry n t) ∧ (tOp t = 0x85) ∧ (restZero t 3 = true) ∧ (wd t 1 / 128 = 0) ∧ (fld 1 0 (wd t 1) ≤ 1) ∧ (tgt = (if fld 1 0 (wd t 1) = 0 then (s.chip.core n).launched else fullBeat s.chip.beat (s.chip.sq n (wd t 1 / 4))) + wd t 2) ∧ (s.chip.beat < tgt) :=
  ⟨ups (entryAt (chipOn) [0x85, 0, 9] { st := 1 }), 0, [0x85, 0, 9] ++ List.replicate 13 0, 9, by decide⟩
theorem wit_BeatWaits_1b : ∃ (s : State) (n : CoreId) (t : List Nat) (tgt : Nat), (s.chip.atEntry n t) ∧ (tOp t = 0x85) ∧ (restZero t 3 = true) ∧ (wd t 1 / 128 = 0) ∧ (fld 1 0 (wd t 1) ≤ 1) ∧ (tgt = (if fld 1 0 (wd t 1) = 0 then (s.chip.core n).launched else fullBeat s.chip.beat (s.chip.sq n (wd t 1 / 4))) + wd t 2) ∧ (s.chip.beat < tgt) :=
  ⟨ups (entryAt (chipOn.setRg (coreReg 0 0x144) 3) [0x85, 5, 9] { st := 1 }), 0, [0x85, 5, 9] ++ List.replicate 13 0, 12, by decide⟩
theorem wit_BeatWaits_2 : ∃ (s : State) (n : CoreId) (t : List Nat) (tgt : Nat), (s.chip.atEntry n t) ∧ (tOp t = 0x85) ∧ (restZero t 3 = true) ∧ (wd t 1 / 128 = 0) ∧ (fld 1 0 (wd t 1) ≤ 1) ∧ (tgt = (if fld 1 0 (wd t 1) = 0 then (s.chip.core n).launched else fullBeat s.chip.beat (s.chip.sq n (wd t 1 / 4))) + wd t 2) ∧ (tgt ≤ s.chip.beat) :=
  ⟨ups (entryAt (chipOn) [0x85, 0, 0] { st := 1 }), 0, [0x85] ++ List.replicate 15 0, 0, by decide⟩
theorem wit_BeatWaits_3 : ∃ (s : State) (n : CoreId) (b : Nat) (l : Bool), (s.chip.isPowered) ∧ ((s.chip.core n).st = 2) ∧ ((s.chip.core n).blocked = .beat b l) ∧ (s.chip.loopsOk n) ∧ (s.chip.come b = true) :=
  ⟨ups (({ chipOn with cad := { now := 5120 } } : Chip).setCore 1 { st := 2, blocked := .beat 5 false }), 1, 5, false, by decide⟩
theorem wit_SignalAndFetch_1 : ∃ (s : State) (n : CoreId) (t : List Nat) (idx cl amt : Nat), (s.chip.atEntry n t) ∧ ((s.chip.core n).runs = []) ∧ (tOp t = 0x82) ∧ (restZero t 3 = true) ∧ (wd t 1 = 16 * idx + 4096 * cl + 2 ^ 17 * amt) ∧ (idx < 64) ∧ (cl < 24) ∧ (0 < amt) ∧ (amt < 2 ^ 15) ∧ (s.chip.rg (flagReg cl idx) + amt ≤ 0xFFFF) :=
  ⟨ups (entryAt (chipOn) [0x82, 0x573F0] { st := 1 }), 0, [0x82, 0x573F0] ++ List.replicate 14 0, 63, 23, 2, by decide⟩
theorem wit_SignalAndFetch_2 : ∃ (s : State) (n : CoreId) (t : List Nat) (idx cl amt : Nat), (s.chip.atEntry n t) ∧ ((s.chip.core n).runs = []) ∧ (tOp t = 0x82) ∧ (restZero t 3 = true) ∧ ((s.chip.core n).pending = none) ∧ (wd t 1 = 16 * idx + 4096 * cl + 2 ^ 17 * amt) ∧ (idx < 64) ∧ (cl < 24) ∧ (0 < amt) ∧ (amt < 2 ^ 15) ∧ (0xFFFF < s.chip.rg (flagReg cl idx) + amt) ∧ (s.chip.rg (coreReg n 0x10) = 0) :=
  ⟨ups (entryAt (chipOn.setRg (flagReg 0 0) 0xFFFF) [0x82, 0x20000] { st := 1 }), 0, [0x82, 0x20000] ++ List.replicate 14 0, 0, 0, 1, by decide⟩
theorem wit_SignalAndFetch_3 : ∃ (s : State) (n : CoreId) (t : List Nat) (idx amt lim len : Nat), (s.chip.atEntry n t) ∧ ((s.chip.core n).runs = []) ∧ (tOp t = 0x82) ∧ (restZero t 3 = true) ∧ (wd t 1 = 1 + 16 * idx + 2 ^ 17 * amt) ∧ (idx < 64) ∧ (0 < amt) ∧ (amt < 2 ^ 15) ∧ ((s.chip.ctr (n / 8) idx).armed = true → (s.chip.ctr (n / 8) idx).leased = 0 ∧ (s.chip.ctr (n / 8) idx).nDone = (s.chip.ctr (n / 8) idx).total) ∧ (awOk01 (wd t 2) = true) ∧ (awOfs (wd t 2) % 16 = 0) ∧ (awFits (wd t 2) 16 = true) ∧ (rd4 (rdAw s.chip n (windows s.chip n) (wd t 2)) 0 = 0) ∧ (rd4 (rdAw s.chip n (windows s.chip n) (wd t 2)) 4 = lim) ∧ (1 ≤ lim) ∧ (lim ≤ 0xFFFFFFFD) ∧ (rd4 (rdAw s.chip n (windows s.chip n) (wd t 2)) 8 = len) ∧ (len < 65536) ∧ (rd4 (rdAw s.chip n (windows s.chip n) (wd t 2)) 12 = 0) :=
  ⟨ups (entryAt (chipOn.store (padBase 0 + 68) [9#8]) [0x82, 0x20011, 0x40] { st := 1 }), 0, [0x82, 0x20011, 0x40] ++ List.replicate 13 0, 1, 1, 9, 0, by decide⟩
theorem wit_SignalAndFetch_4 : ∃ (s : State) (n : CoreId) (t : List Nat) (idx amt : Nat) (k : Chip), (s.chip.atEntry n t) ∧ ((s.chip.core n).runs = []) ∧ (tOp t = 0x82) ∧ (restZero t 3 = true) ∧ (wd t 1 = 1 + 16 * idx + 2 ^ 17 * amt) ∧ (idx < 64) ∧ (0 < amt) ∧ (amt < 2 ^ 15) ∧ (armCounter n idx (wd t 2) (windows s.chip n) s.chip = .ok k) :=
  ⟨ups (entryAt (chipOn.store (padBase 0 + 68) [9#8]) [0x82, 0x20011, 0x40] { st := 1 }), 0, [0x82, 0x20011, 0x40] ++ List.replicate 13 0, 1, 1, (armCounter 0 1 0x40 [] (entryAt (chipOn.store (padBase 0 + 68) [9#8]) [0x82,0x20011,0x40] { st := 1 })).toOption.getD {}, by decide⟩
theorem wit_SignalAndFetch_5 : ∃ (s : State) (n : CoreId) (t : List Nat) (idx amt e : Nat), (s.chip.atEntry n t) ∧ ((s.chip.core n).runs = []) ∧ (tOp t = 0x82) ∧ (restZero t 3 = true) ∧ ((s.chip.core n).pending = none) ∧ (wd t 1 = 1 + 16 * idx + 2 ^ 17 * amt) ∧ (idx < 64) ∧ (0 < amt) ∧ (amt < 2 ^ 15) ∧ (fld 27 24 (wd t 2) = 0) ∧ (awSpace (wd t 2) ≤ 4) ∧ (armCounter n idx (wd t 2) (windows s.chip n) s.chip = .error e) ∧ (s.chip.rg (coreReg n 0x10) = 0) :=
  ⟨ups (entryAt (chipOn) [0x82, 0x20011, 0x40] { st := 1 }), 0, [0x82, 0x20011, 0x40] ++ List.replicate 13 0, 1, 1, 0x25, by decide⟩
theorem wit_SignalAndFetch_6 : ∃ (s : State) (n : CoreId) (t : List Nat) (amt : Nat) (q : Carousel), (s.chip.atEntry n t) ∧ ((s.chip.core n).runs = []) ∧ (tOp t = 0x82) ∧ (restZero t 3 = true) ∧ (wd t 1 = 2 + 2 ^ 17 * amt) ∧ (0 < amt) ∧ (amt < 2 ^ 15) ∧ ((s.chip.core n).car = some q) ∧ (q.drain = false) ∧ (unitIn q q.t = true) :=
  ⟨ups (entryAt (chipOn) [0x82, 0x20002] { st := 1, car := some carQ }), 0, [0x82, 0x20002] ++ List.replicate 14 0, 1, carQ, by decide⟩
theorem wit_SignalAndFetch_7 : ∃ (s : State) (n : CoreId) (t : List Nat) (wc dest v fl : Nat), (s.chip.atEntry n t) ∧ (tOp t = 0x83) ∧ (restZero t 2 = true) ∧ (wd t 1 = wc + 256 * dest + 65536 * fl) ∧ (wc < 64) ∧ (dest ≤ 26) ∧ (fl < 8) ∧ (fl < 4) ∧ (stageBad n wc (bit 0 fl) (s.chip.putDown n) = false) ∧ (((s.chip.putDown n).ctr (n / 8) wc).armed = true) ∧ (((s.chip.putDown n).ctr (n / 8) wc).done = false) ∧ (valueFor n ((s.chip.putDown n).ctr (n / 8) wc) = some v) :=
  ⟨ups (entryAt (chipOn.setCtr 0 63 { armed := true, total := 3, next := 2, map := [0] }) [0x83, 0x1A3F] { st := 1 }), 0, [0x83, 0x1A3F] ++ List.replicate 14 0, 63, 26, 2, 0, by decide⟩
theorem wit_SignalAndFetch_8 : ∃ (s : State) (n : CoreId) (t : List Nat) (wc dest fl : Nat), (s.chip.atEntry n t) ∧ (tOp t = 0x83) ∧ (restZero t 2 = true) ∧ (wd t 1 = wc + 256 * dest + 65536 * fl) ∧ (wc < 64) ∧ (dest ≤ 26) ∧ (fl < 8) ∧ (fl < 4) ∧ (stageBad n wc (bit 0 fl) (s.chip.putDown n) = false) ∧ (((s.chip.putDown n).ctr (n / 8) wc).armed = true) ∧ (((s.chip.putDown n).ctr (n / 8) wc).done = true) :=
  ⟨ups (entryAt (chipOn.setCtr 0 0 { armed := true, done := true }) [0x83, 0x0] { st := 1 }), 0, [0x83] ++ List.replicate 15 0, 0, 0, 0, by decide⟩
theorem wit_SignalAndFetch_9 : ∃ (s : State) (n : CoreId) (t : List Nat) (wc dest fl : Nat), (s.chip.atEntry n t) ∧ (tOp t = 0x83) ∧ (restZero t 2 = true) ∧ (wd t 1 = wc + 256 * dest + 65536 * fl) ∧ (wc < 64) ∧ (dest ≤ 26) ∧ (fl < 8) ∧ (fl = 2 ∨ fl = 3) ∧ (stageBad n wc (bit 0 fl) (s.chip.putDown n) = false) ∧ (((s.chip.putDown n).ctr (n / 8) wc).armed = true) ∧ (((s.chip.putDown n).ctr (n / 8) wc).done = false) ∧ (valueFor n ((s.chip.putDown n).ctr (n / 8) wc) = none) :=
  ⟨ups (entryAt (chipOn.setCtr 0 0 { armed := true, total := 1, next := 1, leased := 1, map := [0] }) [0x83, 0x20000] { st := 1 }), 0, [0x83, 0x20000] ++ List.replicate 14 0, 0, 0, 2, by decide⟩
theorem wit_SignalAndFetch_10 : ∃ (s : State) (n : CoreId) (t : List Nat) (wc dest fl : Nat), (s.chip.atEntry n t) ∧ (tOp t = 0x83) ∧ (restZero t 2 = true) ∧ (wd t 1 = wc + 256 * dest + 65536 * fl) ∧ (wc < 64) ∧ (dest ≤ 26) ∧ (fl < 8) ∧ (fl < 4) ∧ (stageBad n wc (bit 0 fl) (s.chip.putDown n) = false) ∧ (((s.chip.putDown n).ctr (n / 8) wc).armed = false ∨ (((s.chip.putDown n).ctr (n / 8) wc).done = false ∧ fl < 2 ∧ valueFor n ((s.chip.putDown n).ctr (n / 8) wc) = none)) :=
  ⟨ups (entryAt (chipOn) [0x83, 0x0] { st := 1 }), 0, [0x83] ++ List.replicate 15 0, 0, 0, 0, by decide⟩
theorem wit_SignalAndFetch_11 : ∃ (s : State) (n : CoreId) (t : List Nat) (wc dest fl : Nat), (s.chip.atEntry n t) ∧ (tOp t = 0x83) ∧ (restZero t 2 = true) ∧ (wd t 1 = wc + 256 * dest + 65536 * fl) ∧ (wc < 64) ∧ (dest ≤ 26) ∧ (fl < 8) ∧ (4 ≤ fl) :=
  ⟨ups (entryAt (chipOn) [0x83, 0x40000] { st := 1, lease := some { expiry := 1 } }), 0, [0x83, 0x40000] ++ List.replicate 14 0, 0, 0, 4, by decide⟩
theorem wit_SignalAndFetch_12 : ∃ (s : State) (n : CoreId) (wc dest d v : Nat) (stage nw : Bool), (s.chip.isPowered) ∧ ((s.chip.core n).st = 2) ∧ ((s.chip.core n).blocked = .fetch wc dest stage nw d) ∧ (s.chip.loopsOk n) ∧ (dest ≤ 26) ∧ (∀ i < n.val % 8, ∀ w e g h d, (s.chip.core (n / 8 * 8 + i)).blocked = .fetch w e g h d → (s.chip.core (n / 8 * 8 + i)).st = 2 → i ∈ (s.chip.ctr (n / 8) wc).map → w ≠ wc) ∧ (stageBad n wc stage s.chip = false) ∧ ((s.chip.ctr (n / 8) wc).armed = true) ∧ ((s.chip.ctr (n / 8) wc).done = false) ∧ (valueFor n (s.chip.ctr (n / 8) wc) = some v) :=
  ⟨ups ((chipOn.setCtr 0 5 { armed := true, total := 1, map := [0] }).setCore 0 { st := 2, blocked := .fetch 5 1 false false 0 }), 0, 5, 1, 0, 0, false, false, ⟨by decide, by decide, by decide, by decide, by decide, fun i h => absurd h (Nat.not_lt_zero i), by decide, by decide, by decide, by decide⟩⟩
theorem wit_SignalAndFetch_13 : ∃ (s : State) (n : CoreId) (wc dest d : Nat) (stage nw : Bool), (s.chip.isPowered) ∧ ((s.chip.core n).st = 2) ∧ ((s.chip.core n).blocked = .fetch wc dest stage nw d) ∧ (s.chip.loopsOk n) ∧ (dest ≤ 26) ∧ (∀ i < n.val % 8, ∀ w e g h d, (s.chip.core (n / 8 * 8 + i)).blocked = .fetch w e g h d → (s.chip.core (n / 8 * 8 + i)).st = 2 → i ∈ (s.chip.ctr (n / 8) wc).map → w ≠ wc) ∧ (stageBad n wc stage s.chip = false) ∧ ((s.chip.ctr (n / 8) wc).armed = true) ∧ ((s.chip.ctr (n / 8) wc).done = true) :=
  ⟨ups ((chipOn.setCtr 0 5 { armed := true, done := true }).setCore 0 { st := 2, blocked := .fetch 5 1 false false 0 }), 0, 5, 1, 0, false, false, ⟨by decide, by decide, by decide, by decide, by decide, fun i h => absurd h (Nat.not_lt_zero i), by decide, by decide, by decide⟩⟩
theorem wit_SignalAndFetch_14 : ∃ (s : State) (n : CoreId) (wc dest d : Nat) (stage nw : Bool), (s.chip.isPowered) ∧ ((s.chip.core n).st = 2) ∧ ((s.chip.core n).blocked = .fetch wc dest stage nw d) ∧ (s.chip.loopsOk n) ∧ (dest ≤ 26) ∧ (∀ i < n.val % 8, ∀ w e g h d, (s.chip.core (n / 8 * 8 + i)).blocked = .fetch w e g h d → (s.chip.core (n / 8 * 8 + i)).st = 2 → i ∈ (s.chip.ctr (n / 8) wc).map → w ≠ wc) ∧ (stageBad n wc stage s.chip = false) ∧ (nw = true) ∧ ((s.chip.ctr (n / 8) wc).armed = true) ∧ ((s.chip.ctr (n / 8) wc).done = false) ∧ (valueFor n (s.chip.ctr (n / 8) wc) = none) :=
  ⟨ups ((chipOn.setCtr 0 5 { armed := true, total := 1, next := 1, leased := 1 }).setCore 0 { st := 2, blocked := .fetch 5 1 false true 0 }), 0, 5, 1, 0, false, true, ⟨by decide, by decide, by decide, by decide, by decide, fun i h => absurd h (Nat.not_lt_zero i), by decide, by decide, by decide, by decide, by decide⟩⟩
theorem wit_SignalAndFetch_15 : ∃ (s : State) (cl : ClusterId) (idx : CounterId), (s.chip.isPowered) :=
  ⟨up, 23, 63, by decide⟩
theorem wit_Leases_1 : ∃ (s : State) (n : CoreId) (a b : List Lease) (l : Lease), (s.chip.isPowered) ∧ ((s.chip.core n).retiring = a ++ l :: b) ∧ (∀ x ∈ a, ∃ r ∈ (s.chip.core n).runs, ∃ y, r.lease = some y ∧ y.same x = true) ∧ (∀ r ∈ (s.chip.core n).runs, ∀ y, r.lease = some y → y.same l = false) ∧ (l.expired = false) ∧ (s.chip.beat < l.expiry) :=
  ⟨ups (chipOn.setCore 0 { st := 1, retiring := [{ expiry := 1 }] }), 0, [], [], { expiry := 1 }, by decide⟩
theorem wit_Leases_2a : ∃ (s : State) (n : CoreId) (a b : List Lease) (l : Lease), (s.chip.isPowered) ∧ ((s.chip.core n).retiring = a ++ l :: b) ∧ (∀ x ∈ a, ∃ r ∈ (s.chip.core n).runs, ∃ y, r.lease = some y ∧ y.same x = true) ∧ (∀ r ∈ (s.chip.core n).runs, ∀ y, r.lease = some y → y.same l = false) ∧ (l.expired = true ∨ l.expiry ≤ s.chip.beat) :=
  ⟨ups (chipOn.setCore 0 { st := 1, retiring := [{ expired := true, expiry := 1 }] }), 0, [], [], { expired := true, expiry := 1 }, by decide⟩
theorem wit_Leases_2b : ∃ (s : State) (n : CoreId) (a b : List Lease) (l : Lease), (s.chip.isPowered) ∧ ((s.chip.core n).retiring = a ++ l :: b) ∧ (∀ x ∈ a, ∃ r ∈ (s.chip.core n).runs, ∃ y, r.lease = some y ∧ y.same x = true) ∧ (∀ r ∈ (s.chip.core n).runs, ∀ y, r.lease = some y → y.same l = false) ∧ (l.expired = true ∨ l.expiry ≤ s.chip.beat) :=
  ⟨ups (chipOn.setCore 0 { st := 1, retiring := [{}] }), 0, [], [], {}, by decide⟩
theorem wit_Leases_3 : ∃ (s : State) (n : CoreId) (l : Lease), (s.chip.isPowered) ∧ ((s.chip.core n).lease = some l) ∧ ((s.chip.core n).retiring = []) ∧ (l.expired = false) ∧ (s.chip.come l.expiry = true) ∧ ((s.chip.ctr (n / 8) l.wc).armed = true) ∧ ((s.chip.ctr (n / 8) l.wc).done = false) ∧ ((s.chip.ctr (n / 8) l.wc).armOrd = l.ord) :=
  ⟨ups ((chipOn.setCtr 0 0 { armed := true, total := 3, next := 1, leased := 1 }).setCore 0 { st := 1, lease := some { value := 0 } }), 0, { value := 0 }, by decide⟩
theorem wit_Leases_4 : ∃ (s : State) (n : CoreId) (l : Lease), (s.chip.isPowered) ∧ (l ∈ (s.chip.core n).leases) ∧ (l.expired = false) ∧ (s.chip.come l.expiry = true) :=
  ⟨ups (chipOn.setCore 0 { st := 1, lease := some {}, retiring := [{ wc := 1 }] }), 0, { wc := 1 }, by decide⟩
theorem wit_Staging_1 : ∃ (s : State) (n : CoreId) (l : Lease) (f : List Lease), (s.chip.isPowered) ∧ ((s.chip.core n).fill = l :: f) ∧ (∀ y ∈ (s.chip.core n).retiring ++ (s.chip.core n).writeback, y.staged = true → y.slot = l.slot → y.same l = true) ∧ (∀ y ∈ fillCopies s.chip n l, (match s.chip.tasRead (y.1 / 8) (ceilDiv (y.1 % 8 + y.2.2) 8) with | .wait _ => false | _ => true) = true) :=
  ⟨ups (chipOn.setCore 0 { st := 1, fill := [{}] }), 0, {}, [], by decide⟩
theorem wit_Staging_2 : ∃ (s : State) (n : CoreId) (a b : List Lease) (l : Lease), (s.chip.isPowered) ∧ ((s.chip.core n).writeback = a ++ l :: b) ∧ (∀ x ∈ a, ∃ i ∈ x.prov, s.chip.collOpen i = true) ∧ (∀ i ∈ l.prov, s.chip.collOpen i = false) :=
  ⟨ups (chipOn.setCore 0 { st := 1, writeback := [{}] }), 0, [], [], {}, by decide⟩
theorem wit_Staging_3 : ∃ (s : State) (n : CoreId) (q : Carousel) (b : List Byte) (d : List (List Byte)), (s.chip.isPowered) ∧ ((s.chip.core n).car = some q) ∧ ((s.chip.core n).carDue = b :: d) ∧ (q.landed ≤ q.t) :=
  ⟨ups (chipOn.setCore 0 { st := 1, car := some carQ, carDue := [[7#8]] }), 0, carQ, [7#8], [], by decide⟩
theorem wit_ScalePlanRoll_1 : ∃ (s : State) (a : Nat), (s.chip.isPowered) ∧ (a ∈ s.chip.rolls) ∧ (latchedBy s.chip a = false) ∧ (fld 15 10 (s.chip.le (a + 8) 4) = 0) ∧ (fld 8 4 (s.chip.le (a + 4) 4) ≤ 16) :=
  ⟨ups { (((chipOn.storeLe 0x1004 4 0x40).storeLe 0x100C 4 0x40000000).storeLe 0x1008 4 0x33) with rolls := [0x1000] }, 0x1000, by decide⟩
theorem wit_ScalePlanRoll_2 : ∃ (s : State) (a : Nat), (s.chip.isPowered) ∧ (a ∈ s.chip.rolls) ∧ (latchedBy s.chip a = false) ∧ (fld 15 10 (s.chip.le (a + 8) 4) = 0) ∧ (fld 8 4 (s.chip.le (a + 4) 4) = 1) ∧ (fld 3 0 (s.chip.le (a + 8) 4) = 0) ∧ (s.chip.le (a + 0xC) 4 = 0) :=
  ⟨ups { (chipOn.storeLe 0x1004 4 0x10) with rolls := [0x1000] }, 0x1000, by decide⟩
theorem wit_ScalePlanRoll_3 : ∃ (s : State) (a : Nat), (s.chip.isPowered) ∧ (a ∈ s.chip.rolls) ∧ (fld 15 10 (s.chip.le (a + 8) 4) ≠ 0) :=
  ⟨ups { (chipOn.storeLe 0x1008 4 0x400) with rolls := [0x1000] }, 0x1000, by decide⟩
theorem wit_SfuLoads_1 : ∃ (s : State) (cl : ClusterId), (s.chip.isReady) ∧ (s.chip.pwr.st ≠ 3) ∧ (s.chip.pwr.st ≠ 4) ∧ ((s.chip.clus cl).sfu.armed = false) :=
  ⟨up, 23, by decide⟩
theorem wit_SfuLoads_2 : ∃ (s : State) (cl : ClusterId), (s.chip.isReady) ∧ (s.chip.pwr.st ≠ 3) ∧ (s.chip.pwr.st ≠ 4) ∧ ((s.chip.clus cl).sfu.armed = true) :=
  ⟨ups (chipOn.setClus 3 { sfu := { armed := true } }), 3, by decide⟩
theorem wit_SfuLoads_3 : ∃ (s : State) (cl : ClusterId) (l : List Byte), (s.chip.isPowered) ∧ ((s.chip.clus cl).sfu.state = 1) ∧ (oldRefs s.chip cl = 0) ∧ (s.chip.tasRead (s.chip.rg64 (sfuReg cl 0x600)) imageSize = .ok l) :=
  ⟨ups (chipOn.setClus 1 { sfu := { state := 1 } }), 1, _, ⟨by decide, by decide, by decide, tasRead_direct _ (by decide) (by decide)⟩⟩
theorem wit_SfuLoads_4 : ∃ (s : State) (cl : ClusterId) (a : Nat), (s.chip.isPowered) ∧ ((s.chip.clus cl).sfu.state = 1) ∧ (oldRefs s.chip cl = 0) ∧ (s.chip.tasRead (s.chip.rg64 (sfuReg cl 0x600)) imageSize = .poison a) :=
  ⟨ups ((chipOn.mark 0 8).setClus 1 { sfu := { state := 1 } }), 1, 0, ⟨by decide, by decide, by decide, tasRead_poisoned _ (by decide) (by decide) (by decide)⟩⟩
theorem wit_SfuLoads_5 : ∃ (s : State) (cl : ClusterId), (s.chip.isPowered) ∧ ((s.chip.clus cl).sfu.state = 1) ∧ (oldRefs s.chip cl = 0) ∧ (s.chip.tasRead (s.chip.rg64 (sfuReg cl 0x600)) imageSize = .access) :=
  ⟨ups (((chipOn.setRg (sfuReg 1 0x604) 0xFFFF).setRg (sfuReg 1 0x600) 0xFFFFFF00).setClus 1 { sfu := { state := 1 } }), 1, ⟨by decide, by decide, by decide, tasRead_absent _ (by decide) (by decide)⟩⟩
theorem wit_SfuLoads_6a : ∃ (s : State) (cl : ClusterId) (hi : W32) (b : Nat), (s.chip.isOn) ∧ ((s.chip.clus cl).sfu.armed = false) ∧ (b = s.chip.lowHalf (sfuReg cl 0x610) + 2 ^ 32 * (hi.toNat % 2 ^ 22)) :=
  ⟨up, 0, 1#32, 2 ^ 32, by decide⟩
theorem wit_SfuLoads_6b : ∃ (s : State) (cl : ClusterId) (hi : W32) (b : Nat), (s.chip.isOn) ∧ ((s.chip.clus cl).sfu.armed = false) ∧ (b = s.chip.lowHalf (sfuReg cl 0x610) + 2 ^ 32 * (hi.toNat % 2 ^ 22)) :=
  ⟨ups (chipOn.setRg (sfuReg 23 0x610) 0xABCDEF01), 23, 0xFFFFFFFF#32, 0xABCDEF01 + 2 ^ 32 * 0x3FFFFF, by decide⟩
theorem wit_SfuLoads_6c : ∃ (s : State) (cl : ClusterId) (hi : W32) (b : Nat), (s.chip.isOn) ∧ ((s.chip.clus cl).sfu.armed = false) ∧ (b = s.chip.lowHalf (sfuReg cl 0x610) + 2 ^ 32 * (hi.toNat % 2 ^ 22)) :=
  ⟨ups { chipOn with pairStage := Tab.set (fun _ => none) [] (sfuReg 2 0x610) (some 5#32) }, 2, 0#32, 5, by decide⟩
theorem wit_SfuLoads_6d : ∃ (s : State) (cl : ClusterId) (hi : W32) (b : Nat), (s.chip.isOn) ∧ ((s.chip.clus cl).sfu.armed = false) ∧ (b = s.chip.lowHalf (sfuReg cl 0x610) + 2 ^ 32 * (hi.toNat % 2 ^ 22)) :=
  ⟨up, 0, 0#32, 0, by decide⟩
theorem wit_SfuLoads_7 : ∃ (s : State) (cl : ClusterId) (hi : W32), (s.chip.isOn) ∧ ((s.chip.clus cl).sfu.armed = true) :=
  ⟨ups (chipOn.setClus 3 { sfu := { armed := true } }), 3, 0#32, by decide⟩
theorem wit_SfuLoads_8 : ∃ (s : State) (cl : ClusterId), (s.chip.isOn) ∧ (s.chip.pwr.st ≠ 3) ∧ (s.chip.pwr.st ≠ 4) :=
  ⟨up, 0, by decide⟩
theorem wit_SfuFlip_1a : ∃ (s : State) (b : Nat), (s.chip.isReady) ∧ (s.chip.cascadeDue b = true) ∧ (∃ n < 24, (s.chip.clus n).sfu.armed = true ∧ (s.chip.clus n).sfu.flipAt = b) ∧ (∀ n < 24, (s.chip.clus n).sfu.armed = true → s.chip.cascadeDue (s.chip.clus n).sfu.flipAt = true → b ≤ (s.chip.clus n).sfu.flipAt) ∧ (∀ n < 24, (s.chip.clus n).sfu.armed = true → (s.chip.clus n).sfu.flipAt = b → (s.chip.clus n).sfu.state = 2) :=
  ⟨ups (({ chipOn with cad := { st := 3, now := 4096 } } : Chip).setClus 23 { sfu := { armed := true, flipAt := 4, state := 2 } }), 4, by decide⟩
theorem wit_SfuFlip_1b : ∃ (s : State) (b : Nat), (s.chip.isReady) ∧ (s.chip.cascadeDue b = true) ∧ (∃ n < 24, (s.chip.clus n).sfu.armed = true ∧ (s.chip.clus n).sfu.flipAt = b) ∧ (∀ n < 24, (s.chip.clus n).sfu.armed = true → s.chip.cascadeDue (s.chip.clus n).sfu.flipAt = true → b ≤ (s.chip.clus n).sfu.flipAt) ∧ (∀ n < 24, (s.chip.clus n).sfu.armed = true → (s.chip.clus n).sfu.flipAt = b → (s.chip.clus n).sfu.state = 2) :=
  ⟨ups ((({ chipOn with cad := { st := 3, now := 4096 } } : Chip).setClus 23 { sfu := { armed := true, flipAt := 4, state := 2 } }).setClus 0 { sfu := { armed := true, flipAt := 3, state := 2 } }), 3, by decide⟩
theorem wit_SfuFlip_2 : ∃ (s : State) (b : Nat), (s.chip.isReady) ∧ (s.chip.cascadeDue b = true) ∧ (∃ n < 24, (s.chip.clus n).sfu.armed = true ∧ (s.chip.clus n).sfu.flipAt = b ∧ (s.chip.clus n).sfu.state ≠ 2) ∧ (∀ n < 24, (s.chip.clus n).sfu.armed = true → s.chip.cascadeDue (s.chip.clus n).sfu.flipAt = true → b ≤ (s.chip.clus n).sfu.flipAt) :=
  ⟨ups (({ chipOn with cad := { st := 3, now := 4096 } } : Chip).setClus 23 { sfu := { armed := true, flipAt := 4 } }), 4, by decide⟩
theorem wit_SfuFlip_3 : ∃ (s : State), (s.chip.isReady) ∧ (∀ n < 24, (s.chip.clus n).sfu.armed = true → s.chip.cascadeDue (s.chip.clus n).sfu.flipAt = false) :=
  ⟨ups (chipOn.setClus 2 { sfu := { armed := true, flipAt := 4 } }), by decide⟩
theorem wit_SlotBind_1 : ∃ (s : State) (n : SlotId) (desc : Nat) (w : List Nat) (l : List Byte), (s.chip.isReady) ∧ (desc < 4096) ∧ ((s.chip.slot n).st = 0) ∧ (s.chip.seqTab ≠ 0) ∧ (s.chip.seqTab + 2 ^ 20 ≤ t0Size) ∧ (w = leWords 12 (s.chip.bytes (s.chip.descAddr desc) 48)) ∧ (fld 1 0 (wd w 0) = 0 ∨ fld 1 0 (wd w 0) = 2) ∧ (s.chip.tasRead (dLenTab w) (4 * min 128 (dLayers w)) = .ok l) ∧ (descBad w (leWords (min 128 (dLayers w)) l) = false) ∧ (∀ i < 20, s.chip.le (s.chip.descAddr desc + 0x30 + 4 * i) 4 = 0) :=
  ⟨ups bindChip, 31, 7, dsc, [0#8, 0#8, 0#8, 0#8], by decide⟩
theorem wit_SlotBind_2 : ∃ (s : State) (n : SlotId) (desc : Nat), (s.chip.isReady) ∧ (desc < 4096) ∧ ((s.chip.slot n).st ≠ 0) :=
  ⟨ups kvChip, 0, 5, by decide⟩
theorem wit_SlotBind_3 : ∃ (s : State) (n : SlotId) (desc : Nat), (s.chip.isReady) ∧ (desc < 4096) ∧ ((s.chip.slot n).st = 0) ∧ (s.chip.seqTab = 0 ∨ t0Size < s.chip.seqTab + 2 ^ 20) :=
  ⟨up, 0, 5, by decide⟩
theorem wit_SlotBind_4 : ∃ (s : State) (n : SlotId) (desc : Nat) (w : List Nat), (s.chip.isReady) ∧ (desc < 4096) ∧ ((s.chip.slot n).st = 0) ∧ (s.chip.seqTab ≠ 0) ∧ (s.chip.seqTab + 2 ^ 20 ≤ t0Size) ∧ (w = leWords 12 (s.chip.bytes (s.chip.descAddr desc) 48)) ∧ (fld 1 0 (wd w 0) = 1 ∨ fld 1 0 (wd w 0) = 3) :=
  ⟨ups (bindChip.store (0x10000 + 256 * 7) [1#8]), 31, 7, 1 :: dsc.drop 1, by decide⟩
theorem wit_SlotBind_5 : ∃ (s : State) (n : SlotId) (desc : Nat) (w : List Nat) (l : List Byte), (s.chip.isReady) ∧ (desc < 4096) ∧ ((s.chip.slot n).st = 0) ∧ (s.chip.seqTab ≠ 0) ∧ (s.chip.seqTab + 2 ^ 20 ≤ t0Size) ∧ (w = leWords 12 (s.chip.bytes (s.chip.descAddr desc) 48)) ∧ (fld 1 0 (wd w 0) = 0 ∨ fld 1 0 (wd w 0) = 2) ∧ (s.chip.tasRead (dLenTab w) (4 * min 128 (dLayers w)) = .ok l) ∧ (descBad w (leWords (min 128 (dLayers w)) l) = true ∨ ∃ i < 20, s.chip.le (s.chip.descAddr desc + 0x30 + 4 * i) 4 ≠ 0) :=
  ⟨ups (bindChip.store (0x10000 + 256 * 7 + 0x30) [1#8]), 31, 7, dsc, [0#8, 0#8, 0#8, 0#8], by decide⟩
theorem wit_SlotBind_6 : ∃ (s : State) (n : SlotId), (s.chip.isReady) ∧ ((s.chip.slot n).st = 1) ∧ ((s.chip.slot n).short = 0) :=
  ⟨ups (chipOn.setSlot 3 { st := 1 }), 3, by decide⟩
theorem wit_SlotBind_7 : ∃ (s : State) (n : SlotId), (s.chip.isReady) ∧ ((s.chip.slot n).st = 1) ∧ ((s.chip.slot n).short ≠ 0) :=
  ⟨ups (kvChip.setSlot 0 { st := 1, words := dsc, reserve := [[]] }), 0, by decide⟩
theorem wit_SlotBind_8 : ∃ (s : State) (n : SlotId), (s.chip.isReady) ∧ ((s.chip.slot n).st = 1) ∧ ((s.chip.slot n).short ≠ 0) ∧ ((s.chip.slot n).bindAt + dSlack (s.chip.slot n).words ≤ s.chip.beat) :=
  ⟨ups (kvChip.setSlot 0 { st := 1, words := dsc, reserve := [[]] }), 0, by decide⟩
theorem wit_SlotParkRelease_1 : ∃ (s : State) (n : SlotId), (s.chip.isReady) ∧ ((s.chip.slot n).st = 2 ∨ (s.chip.slot n).st = 3) ∧ ((s.chip.slot n).inRing = false) ∧ ((s.chip.slot n).whole = true) :=
  ⟨ups kvChip, 0, by decide⟩
theorem wit_SlotParkRelease_2 : ∃ (s : State) (n : SlotId), (s.chip.isReady) ∧ ((s.chip.slot n).st = 2 ∨ (s.chip.slot n).st = 3) ∧ ((s.chip.slot n).inRing = false) ∧ ((s.chip.slot n).whole = false) :=
  ⟨ups (kvChip.setSlot 0 { kvSlot with cursors := [1, 0] }), 0, by decide⟩
theorem wit_SlotParkRelease_3a : ∃ (s : State) (n : SlotId), (s.chip.isReady) ∧ ((s.chip.slot n).inRing = true ∨ ((s.chip.slot n).st ≠ 2 ∧ (s.chip.slot n).st ≠ 3)) :=
  ⟨ups (kvChip.setSlot 0 { kvSlot with inRing := true }), 0, by decide⟩
theorem wit_SlotParkRelease_3b : ∃ (s : State) (n : SlotId), (s.chip.isReady) ∧ ((s.chip.slot n).inRing = true ∨ ((s.chip.slot n).st ≠ 2 ∧ (s.chip.slot n).st ≠ 3)) :=
  ⟨up, 3, by decide⟩
theorem wit_SlotParkRelease_4 : ∃ (s : State) (n : SlotId), (s.chip.isReady) ∧ ((s.chip.slot n).st = 5) ∧ (quarOf n s.chip = 0) :=
  ⟨ups (kvChip.setSlot 0 { kvSlot with st := 5, lost := 9 }), 0, by decide⟩
theorem wit_SlotParkRelease_5 : ∃ (s : State) (n : SlotId), (s.chip.isReady) ∧ ((s.chip.slot n).st = 5) ∧ (quarOf n s.chip ≠ 0) :=
  ⟨ups { (kvChip.setSlot 0 { kvSlot with st := 5 }) with quar := [{}] }, 0, by decide⟩
theorem wit_SlotParkRelease_6 : ∃ (s : State) (n : SlotId), (s.chip.isReady) ∧ ((s.chip.slot n).st = 2 ∨ (s.chip.slot n).st = 3 ∨ (s.chip.slot n).st = 4) ∧ ((s.chip.slot n).inRing = false) :=
  ⟨ups kvChip, 0, by decide⟩
theorem wit_SlotParkRelease_7a : ∃ (s : State) (n : SlotId), (s.chip.isReady) ∧ ((s.chip.slot n).inRing = true ∨ ((s.chip.slot n).st ≠ 2 ∧ (s.chip.slot n).st ≠ 3 ∧ (s.chip.slot n).st ≠ 4)) :=
  ⟨ups (kvChip.setSlot 0 { kvSlot with inRing := true }), 0, by decide⟩
theorem wit_SlotParkRelease_7b : ∃ (s : State) (n : SlotId), (s.chip.isReady) ∧ ((s.chip.slot n).inRing = true ∨ ((s.chip.slot n).st ≠ 2 ∧ (s.chip.slot n).st ≠ 3 ∧ (s.chip.slot n).st ≠ 4)) :=
  ⟨up, 3, by decide⟩
theorem wit_SlotParkRelease_8 : ∃ (s : State) (n : SlotId), (s.chip.isReady) ∧ ((s.chip.slot n).st = 6) ∧ ((s.chip.slot n).toQuar = []) ∧ (quarOf n s.chip = 0) :=
  ⟨ups (kvChip.setSlot 0 { kvSlot with st := 6 }), 0, by decide⟩
theorem wit_SlotParkRelease_9 : ∃ (s : State) (n : SlotId), (s.chip.isReady) ∧ ((s.chip.slot n).st = 6) ∧ ((s.chip.slot n).toQuar ≠ [] ∨ quarOf n s.chip ≠ 0) :=
  ⟨ups { (kvChip.setSlot 0 { kvSlot with st := 6 }) with quar := [{}] }, 0, by decide⟩
theorem wit_SlotResume_1 : ∃ (s : State) (n : SlotId), (s.chip.isReady) ∧ ((s.chip.slot n).st = 3) ∧ ((s.chip.slot n).short = 0) ∧ ((s.chip.slot n).cause ≠ 2 ∨ (s.chip.slot n).len (s.chip.slot n).layer < dQuota (s.chip.slot n).words) :=
  ⟨ups (kvChip.setSlot 0 { kvSlot with st := 3, cause := 1 }), 0, by decide⟩
theorem wit_SlotResume_2a : ∃ (s : State) (n : SlotId), (s.chip.isReady) ∧ ((s.chip.slot n).st = 3) ∧ ((s.chip.slot n).short ≠ 0 ∨ ((s.chip.slot n).cause = 2 ∧ dQuota (s.chip.slot n).words ≤ (s.chip.slot n).len (s.chip.slot n).layer)) :=
  ⟨ups (kvChip.setSlot 0 { kvSlot with st := 3, reserve := [[]] }), 0, by decide⟩
theorem wit_SlotResume_2b : ∃ (s : State) (n : SlotId), (s.chip.isReady) ∧ ((s.chip.slot n).st = 3) ∧ ((s.chip.slot n).short ≠ 0 ∨ ((s.chip.slot n).cause = 2 ∧ dQuota (s.chip.slot n).words ≤ (s.chip.slot n).len (s.chip.slot n).layer)) :=
  ⟨ups (kvChip.setSlot 0 { kvSlot with st := 3, cause := 2, lens := [64] }), 0, by decide⟩
theorem wit_SlotResume_3 : ∃ (s : State) (n : SlotId), (s.chip.isReady) ∧ ((s.chip.slot n).st ≠ 3) :=
  ⟨ups kvChip, 0, by decide⟩
theorem wit_SlotResume_4 : ∃ (s : State) (n : SlotId), (s.chip.isReady) ∧ ((s.chip.slot n).st = 4) :=
  ⟨ups (kvChip.setSlot 0 { kvSlot with st := 4 }), 0, by decide⟩
theorem wit_SlotResume_5 : ∃ (s : State) (n : SlotId), (s.chip.isReady) ∧ ((s.chip.slot n).st ≠ 4) :=
  ⟨ups kvChip, 0, by decide⟩
theorem wit_Appends_1 : ∃ (s : State) (n : SlotId) (kind head layer fmt nb pos : Nat) (el sc : List Byte), (s.chip.isReady) ∧ (kind < 2) ∧ (head < dHeads (s.chip.slot n).words) ∧ (dHeads (s.chip.slot n).words ≤ 8) ∧ (layer < dLayers (s.chip.slot n).words) ∧ (layer < 128) ∧ (layer < (s.chip.slot n).lens.length) ∧ (layer < (s.chip.slot n).reserve.length) ∧ (16 * layer + 16 ≤ (s.chip.slot n).cursors.length) ∧ (nb = dDim (s.chip.slot n).words) ∧ (fmt = (if kind = 0 then dKFmt (s.chip.slot n).words else dVFmt (s.chip.slot n).words)) ∧ (pos = (s.chip.slot n).cursor layer head kind) ∧ ((s.chip.slot n).st = 2) ∧ (pos < dQuota (s.chip.slot n).words) ∧ (eValid (pte s.chip (s.chip.slot n).root layer (pos / dTpp (s.chip.slot n).words)) = true) :=
  ⟨ups kvChip, 0, 1, 0, 0, 5, 64, 0, [], [], by decide⟩
theorem wit_Appends_2 : ∃ (s : State) (n : SlotId) (kind head layer fmt nb pos : Nat) (el sc : List Byte) (f : Nat) (r : List Nat), (s.chip.isReady) ∧ (kind < 2) ∧ (head < dHeads (s.chip.slot n).words) ∧ (dHeads (s.chip.slot n).words ≤ 8) ∧ (layer < dLayers (s.chip.slot n).words) ∧ (layer < 128) ∧ (layer < (s.chip.slot n).lens.length) ∧ (layer < (s.chip.slot n).reserve.length) ∧ (16 * layer + 16 ≤ (s.chip.slot n).cursors.length) ∧ (nb = dDim (s.chip.slot n).words) ∧ (fmt = (if kind = 0 then dKFmt (s.chip.slot n).words else dVFmt (s.chip.slot n).words)) ∧ (pos = (s.chip.slot n).cursor layer head kind) ∧ ((s.chip.slot n).st = 2) ∧ (pos < dQuota (s.chip.slot n).words) ∧ (eValid (pte s.chip (s.chip.slot n).root layer (pos / dTpp (s.chip.slot n).words)) = false) ∧ ((s.chip.slot n).reserve.getD layer [] = f :: r) :=
  ⟨ups (kvChip.storeLe 0x3000 8 0), 0, 1, 0, 0, 5, 64, 0, [], [], 0, [], by decide⟩
theorem wit_Appends_3a : ∃ (s : State) (n : SlotId) (h fmt nb : Nat) (el sc : List Byte), (s.chip.isReady) ∧ (h % 32 = n.val) ∧ (((s.chip.slot n).st ≠ 2 ∧ (s.chip.slot n).st ≠ 3) ∨ dHeads (s.chip.slot n).words ≤ fld 8 6 h ∨ dLayers (s.chip.slot n).words ≤ fld 15 9 h ∨ nb ≠ dDim (s.chip.slot n).words ∨ fmt ≠ (if fld 5 5 h = 0 then dKFmt (s.chip.slot n).words else dVFmt (s.chip.slot n).words)) ∧ ((s.chip.slot n).lost < 0xFFFFFFFF) ∧ (s.chip.rg (ra (pgSlot n) 0x10) = 0) :=
  ⟨up, 31, 31, 0, 0, [], [], by decide⟩
theorem wit_Appends_3b : ∃ (s : State) (n : SlotId) (h fmt nb : Nat) (el sc : List Byte), (s.chip.isReady) ∧ (h % 32 = n.val) ∧ (((s.chip.slot n).st ≠ 2 ∧ (s.chip.slot n).st ≠ 3) ∨ dHeads (s.chip.slot n).words ≤ fld 8 6 h ∨ dLayers (s.chip.slot n).words ≤ fld 15 9 h ∨ nb ≠ dDim (s.chip.slot n).words ∨ fmt ≠ (if fld 5 5 h = 0 then dKFmt (s.chip.slot n).words else dVFmt (s.chip.slot n).words)) ∧ ((s.chip.slot n).lost < 0xFFFFFFFF) ∧ (s.chip.rg (ra (pgSlot n) 0x10) = 0) :=
  ⟨ups kvChip, 0, 0, 13, 64, [], [], by decide⟩
theorem wit_Appends_4 : ∃ (s : State) (n : SlotId) (kind head layer fmt nb pos : Nat) (el sc : List Byte), (s.chip.isReady) ∧ (kind < 2) ∧ (head < dHeads (s.chip.slot n).words) ∧ (dHeads (s.chip.slot n).words ≤ 8) ∧ (layer < dLayers (s.chip.slot n).words) ∧ (layer < 128) ∧ (layer < (s.chip.slot n).lens.length) ∧ (layer < (s.chip.slot n).reserve.length) ∧ (16 * layer + 16 ≤ (s.chip.slot n).cursors.length) ∧ (nb = dDim (s.chip.slot n).words) ∧ (fmt = (if kind = 0 then dKFmt (s.chip.slot n).words else dVFmt (s.chip.slot n).words)) ∧ (pos = (s.chip.slot n).cursor layer head kind) ∧ ((s.chip.slot n).st = 2) ∧ (dQuota (s.chip.slot n).words ≤ pos) ∧ ((s.chip.slot n).lost < 0xFFFFFFFF) ∧ (s.chip.rg (ra (pgSlot n) 0x10) = 0) :=
  ⟨ups (kvChip.setSlot 0 { kvSlot with cursors := List.replicate 16 64 }), 0, 0, 0, 0, 5, 64, 64, [], [], by decide⟩
theorem wit_Appends_5a : ∃ (s : State) (n : SlotId) (kind head layer fmt nb pos : Nat) (el sc : List Byte), (s.chip.isReady) ∧ (kind < 2) ∧ (head < dHeads (s.chip.slot n).words) ∧ (dHeads (s.chip.slot n).words ≤ 8) ∧ (layer < dLayers (s.chip.slot n).words) ∧ (layer < 128) ∧ (layer < (s.chip.slot n).lens.length) ∧ (layer < (s.chip.slot n).reserve.length) ∧ (16 * layer + 16 ≤ (s.chip.slot n).cursors.length) ∧ (nb = dDim (s.chip.slot n).words) ∧ (fmt = (if kind = 0 then dKFmt (s.chip.slot n).words else dVFmt (s.chip.slot n).words)) ∧ (pos = (s.chip.slot n).cursor layer head kind) ∧ ((s.chip.slot n).st = 2 ∨ (s.chip.slot n).st = 3) ∧ (pos < dQuota (s.chip.slot n).words) ∧ (eValid (pte s.chip (s.chip.slot n).root layer (pos / dTpp (s.chip.slot n).words)) = false) ∧ ((s.chip.slot n).reserve.getD layer [] = []) ∧ ((s.chip.slot n).lost < 0xFFFFFFFF) ∧ (s.chip.rg (ra (pgSlot n) 0x10) = 0) :=
  ⟨ups ((kvChip.storeLe 0x3000 8 0).setSlot 0 { kvSlot with reserve := [[]] }), 0, 1, 0, 0, 5, 64, 0, [], [], by decide⟩
theorem wit_Appends_5b : ∃ (s : State) (n : SlotId) (kind head layer fmt nb pos : Nat) (el sc : List Byte), (s.chip.isReady) ∧ (kind < 2) ∧ (head < dHeads (s.chip.slot n).words) ∧ (dHeads (s.chip.slot n).words ≤ 8) ∧ (layer < dLayers (s.chip.slot n).words) ∧ (layer < 128) ∧ (layer < (s.chip.slot n).lens.length) ∧ (layer < (s.chip.slot n).reserve.length) ∧ (16 * layer + 16 ≤ (s.chip.slot n).cursors.length) ∧ (nb = dDim (s.chip.slot n).words) ∧ (fmt = (if kind = 0 then dKFmt (s.chip.slot n).words else dVFmt (s.chip.slot n).words)) ∧ (pos = (s.chip.slot n).cursor layer head kind) ∧ ((s.chip.slot n).st = 2 ∨ (s.chip.slot n).st = 3) ∧ (pos < dQuota (s.chip.slot n).words) ∧ (eValid (pte s.chip (s.chip.slot n).root layer (pos / dTpp (s.chip.slot n).words)) = false) ∧ ((s.chip.slot n).reserve.getD layer [] = []) ∧ ((s.chip.slot n).lost < 0xFFFFFFFF) ∧ (s.chip.rg (ra (pgSlot n) 0x10) = 0) :=
  ⟨ups ((kvChip.storeLe 0x3000 8 0).setSlot 0 { kvSlot with reserve := [[]], st := 3, cause := 1 }), 0, 1, 0, 0, 5, 64, 0, [], [], by decide⟩
theorem wit_Appends_6a : ∃ (s : State) (h fmt nb : Nat) (el sc : List Byte), (s.chip.isReady) :=
  ⟨ups kvChip, 32, 5, 64, [], [], by decide⟩
theorem wit_Appends_6b : ∃ (s : State) (h fmt nb : Nat) (el sc : List Byte), (s.chip.isReady) :=
  ⟨up, 31, 0, 0, [], [], by decide⟩
theorem wit_Appends_6c : ∃ (s : State) (h fmt nb : Nat) (el sc : List Byte), (s.chip.isReady) :=
  ⟨ups (kvChip.setSlot 0 { kvSlot with cursors := List.replicate 16 64 }), 0, 5, 64, [], [], by decide⟩
theorem wit_Appends_7 : ∃ (s : State) (h fmt nb : Nat) (el sc : List Byte), (((s.chip.slot (fld 4 0 h)).st ≠ 2 ∧ (s.chip.slot (fld 4 0 h)).st ≠ 3) ∨ dHeads (s.chip.slot (fld 4 0 h)).words ≤ fld 8 6 h ∨ dLayers (s.chip.slot (fld 4 0 h)).words ≤ fld 15 9 h ∨ nb ≠ dDim (s.chip.slot (fld 4 0 h)).words ∨ fmt ≠ (if fld 5 5 h = 0 then dKFmt (s.chip.slot (fld 4 0 h)).words else dVFmt (s.chip.slot (fld 4 0 h)).words)) :=
  ⟨up, 31, 0, 0, [], [], by decide⟩
theorem wit_Appends_8 : ∃ (s : State) (n : SlotId) (kind head layer fmt nb pos : Nat) (el sc : List Byte), (kind < 2) ∧ (head < dHeads (s.chip.slot n).words) ∧ (dHeads (s.chip.slot n).words ≤ 8) ∧ (layer < dLayers (s.chip.slot n).words) ∧ (layer < 128) ∧ (layer < (s.chip.slot n).lens.length) ∧ (layer < (s.chip.slot n).reserve.length) ∧ (16 * layer + 16 ≤ (s.chip.slot n).cursors.length) ∧ (nb = dDim (s.chip.slot n).words) ∧ (fmt = (if kind = 0 then dKFmt (s.chip.slot n).words else dVFmt (s.chip.slot n).words)) ∧ (pos = (s.chip.slot n).cursor layer head kind) ∧ ((s.chip.slot n).st = 2 ∨ (s.chip.slot n).st = 3) ∧ (dQuota (s.chip.slot n).words ≤ pos) :=
  ⟨ups (kvChip.setSlot 0 { kvSlot with cursors := List.replicate 16 64 }), 0, 0, 0, 0, 5, 64, 64, [], [], by decide⟩
theorem wit_Appends_9 : ∃ (s : State) (n : SlotId) (kind head layer fmt nb pos : Nat) (el sc : List Byte), (kind < 2) ∧ (head < dHeads (s.chip.slot n).words) ∧ (dHeads (s.chip.slot n).words ≤ 8) ∧ (layer < dLayers (s.chip.slot n).words) ∧ (layer < 128) ∧ (layer < (s.chip.slot n).lens.length) ∧ (layer < (s.chip.slot n).reserve.length) ∧ (16 * layer + 16 ≤ (s.chip.slot n).cursors.length) ∧ (nb = dDim (s.chip.slot n).words) ∧ (fmt = (if kind = 0 then dKFmt (s.chip.slot n).words else dVFmt (s.chip.slot n).words)) ∧ (pos = (s.chip.slot n).cursor layer head kind) ∧ ((s.chip.slot n).st = 2 ∨ (s.chip.slot n).st = 3) ∧ (pos < dQuota (s.chip.slot n).words) ∧ (eValid (pte s.chip (s.chip.slot n).root layer (pos / dTpp (s.chip.slot n).words)) = false) ∧ ((s.chip.slot n).reserve.getD layer [] = []) :=
  ⟨ups ((kvChip.storeLe 0x3000 8 0).setSlot 0 { kvSlot with reserve := [[]], st := 3, cause := 1 }), 0, 1, 0, 0, 5, 64, 0, [], [], by decide⟩
theorem wit_Appends_10 : ∃ (s : State) (n : SlotId) (kind head layer fmt nb pos : Nat) (el sc : List Byte), (kind < 2) ∧ (head < dHeads (s.chip.slot n).words) ∧ (dHeads (s.chip.slot n).words ≤ 8) ∧ (layer < dLayers (s.chip.slot n).words) ∧ (layer < 128) ∧ (layer < (s.chip.slot n).lens.length) ∧ (layer < (s.chip.slot n).reserve.length) ∧ (16 * layer + 16 ≤ (s.chip.slot n).cursors.length) ∧ (nb = dDim (s.chip.slot n).words) ∧ (fmt = (if kind = 0 then dKFmt (s.chip.slot n).words else dVFmt (s.chip.slot n).words)) ∧ (pos = (s.chip.slot n).cursor layer head kind) ∧ ((s.chip.slot n).st = 3) ∧ (pos < dQuota (s.chip.slot n).words) ∧ (eValid (pte s.chip (s.chip.slot n).root layer (pos / dTpp (s.chip.slot n).words)) = true ∨ (s.chip.slot n).reserve.getD layer [] ≠ []) ∧ ((s.chip.slot n).cause ≠ 1 ∨ inStep s.chip n = false) :=
  ⟨ups (kvChip.setSlot 0 { kvSlot with st := 3, cause := 1 }), 0, 1, 0, 0, 5, 64, 0, [], [], by decide⟩
theorem wit_Appends_11 : ∃ (s : State) (n : SlotId) (layer p a f : Nat), (s.chip.isReady) ∧ ((s.chip.slot n).seals.find? (fun x => x.1 == layer) = some (layer, p)) ∧ (a = pteAddr s.chip (s.chip.slot n).root layer p) ∧ (f = eFrame (s.chip.le a 8)) :=
  ⟨ups (kvChip.setSlot 0 { kvSlot with seals := [(0, 0)] }), 0, 0, 0, 0x3000, 0, by decide⟩
theorem wit_Appends_12 : ∃ (s : State) (n : SlotId) (layer : Nat), (s.chip.isReady) ∧ ((s.chip.slot n).seals.find? (fun x => x.1 == layer) = none) :=
  ⟨up, 0, 0, by decide⟩
theorem wit_Appends_13 : ∃ (s : State) (n : SlotId) (layer p a : Nat), (s.chip.isReady) ∧ ((s.chip.slot n).seals.find? (fun x => x.1 == layer) = some (layer, p)) ∧ (a = pteAddr s.chip (s.chip.slot n).root layer p) ∧ (s.chip.recAddr 0 (eFrame (s.chip.le a 8)) + 4 ≤ a ∨ a + 8 ≤ s.chip.recAddr 0 (eFrame (s.chip.le a 8))) :=
  ⟨ups (kvChip.setSlot 0 { kvSlot with seals := [(0, 0)] }), 0, 0, 0, 0x3000, by decide⟩
theorem wit_Appends_14 : ∃ (s : State) (n : SlotId) (layer : Nat), (s.chip.isReady) ∧ (1 ≤ (s.chip.slot n).st) ∧ ((s.chip.slot n).st ≤ 4) ∧ (layer < (s.chip.slot n).reserve.length) :=
  ⟨ups (kvChip.setSlot 0 { kvSlot with reserve := [[]] }), 0, 0, by decide⟩
theorem wit_Appends_15 : ∃ (s : State) (n : SlotId) (layer : Nat), (s.chip.isReady) ∧ ((s.chip.slot n).st = 0 ∨ 4 < (s.chip.slot n).st ∨ (s.chip.slot n).reserve.length ≤ layer) :=
  ⟨up, 0, 0, by decide⟩
theorem wit_Appends_16 : ∃ (s : State) (n : SlotId) (layer k : Nat), (s.chip.isReady) ∧ (1 ≤ (s.chip.slot n).st) ∧ ((s.chip.slot n).st ≤ 4) ∧ (layer < (s.chip.slot n).reserve.length) ∧ (((s.chip.slot n).reserve.getD layer []).length < dRsv (s.chip.slot n).words) ∧ (s.chip.freeFrame = some k) :=
  ⟨ups (kvChip.setSlot 0 { kvSlot with reserve := [[]] }), 0, 0, 1, by decide⟩
theorem wit_Appends_17 : ∃ (s : State) (n : SlotId) (b : Nat), (s.chip.isReady) ∧ ((s.chip.slot n).st = 2) ∧ ((s.chip.slot n).shortAt = some b) ∧ (b + dSlack (s.chip.slot n).words ≤ s.chip.beat) :=
  ⟨ups (kvChip.setSlot 0 { kvSlot with reserve := [[]], shortAt := some 0 }), 0, 0, by decide⟩
theorem wit_Appends_18 : ∃ (s : State) (n : SlotId) (b : Nat), (s.chip.isReady) ∧ ((s.chip.slot n).st = 2) ∧ ((s.chip.slot n).shortAt = some b) ∧ (b + dSlack (s.chip.slot n).words ≤ s.chip.beat) ∧ (s.chip.rg (ra (pgSlot n) 0x10) = 0) :=
  ⟨ups (kvChip.setSlot 0 { kvSlot with reserve := [[]], shortAt := some 0 }), 0, 0, by decide⟩
theorem wit_Appends_19 : ∃ (s : State) (n : SlotId), (s.chip.isReady) ∧ ((s.chip.slot n).st ≠ 2 ∨ (∀ b, (s.chip.slot n).shortAt = some b → s.chip.beat < b + dSlack (s.chip.slot n).words)) :=
  ⟨up, 0, by decide⟩
theorem wit_Publications_1 : ∃ (s : State) (n : SlotId) (hi : W32), (s.chip.isReady) ∧ ((s.chip.slot n).pubSt ≠ 1) ∧ ((s.chip.slot n).publ = none) ∧ (fld 10 0 (s.chip.rg (ra (pgSlot n) 0x128)) = 0) :=
  ⟨ups (kvChip.setRg (ra (pgSlot 0) 0x128) 0), 0, 0#32, by decide⟩
theorem wit_Publications_2 : ∃ (s : State) (n : SlotId) (hi : W32) (l : List Byte) (k : Nat), (s.chip.isReady) ∧ ((s.chip.slot n).pubSt ≠ 1) ∧ ((s.chip.slot n).publ = none) ∧ (k = fld 10 0 (s.chip.rg (ra (pgSlot n) 0x128))) ∧ (1 ≤ k) ∧ (k ≤ 1024) ∧ (s.chip.rg64 (ra (pgSlot n) 0x120) % 16 = 0) ∧ ((pairApply (ra (pgSlot n) 0x12C) hi.toNat s.chip).tasRead (s.chip.rg64 (ra (pgSlot n) 0x120)) (16 * k) = .ok l) ∧ ((startBuild n { sw := true, edits := (List.range k).map (fun i => leWords 4 (l.drop (16 * i))), at_ := (pairApply (ra (pgSlot n) 0x12C) hi.toNat s.chip).rg64 (ra (pgSlot n) 0x12C) } (pairApply (ra (pgSlot n) 0x12C) hi.toNat s.chip)).toOption.isSome = true) :=
  ⟨ups pubChip, 0, 0#32, _, 1, ⟨by decide, by decide, by decide, by decide, by decide, by decide, by decide, tasRead_direct _ (by decide) (by decide), by decide⟩⟩
theorem wit_Publications_3 : ∃ (s : State) (n : SlotId) (hi : W32) (l : List Byte) (k : Nat) (b : Nat × Nat), (s.chip.isReady) ∧ ((s.chip.slot n).pubSt ≠ 1) ∧ ((s.chip.slot n).publ = none) ∧ (k = fld 10 0 (s.chip.rg (ra (pgSlot n) 0x128))) ∧ (1 ≤ k) ∧ (k ≤ 1024) ∧ (s.chip.rg64 (ra (pgSlot n) 0x120) % 16 = 0) ∧ ((pairApply (ra (pgSlot n) 0x12C) hi.toNat s.chip).tasRead (s.chip.rg64 (ra (pgSlot n) 0x120)) (16 * k) = .ok l) ∧ (startBuild n { sw := true, edits := (List.range k).map (fun i => leWords 4 (l.drop (16 * i))), at_ := (pairApply (ra (pgSlot n) 0x12C) hi.toNat s.chip).rg64 (ra (pgSlot n) 0x12C) } (pairApply (ra (pgSlot n) 0x12C) hi.toNat s.chip) = .error b) :=
  ⟨ups (pubChip.store 0x5000 [0#8]), 0, 0#32, _, 1, (1, 0), ⟨by decide, by decide, by decide, by decide, by decide, by decide, by decide, tasRead_direct _ (by decide) (by decide), by rfl⟩⟩
theorem wit_Publications_4 : ∃ (s : State) (n : SlotId) (hi : W32), (s.chip.isReady) ∧ ((s.chip.slot n).pubSt ≠ 1) ∧ ((s.chip.slot n).publ ≠ none) :=
  ⟨ups (kvChip.setSlot 0 { kvSlot with publ := some { sw := false } }), 0, 0#32, by decide⟩
theorem wit_Publications_5 : ∃ (s : State) (n : SlotId) (hi : W32), (s.chip.isReady) ∧ ((s.chip.slot n).pubSt = 1) :=
  ⟨ups (kvChip.setSlot 0 { kvSlot with pubSt := 1 }), 0, 0#32, by decide⟩
theorem wit_Publications_6 : ∃ (s : State) (n : SlotId) (p : Publ), (s.chip.isReady) ∧ ((s.chip.slot n).publ = some p) ∧ (p.built = false) ∧ (p.sw = true) ∧ (s.chip.beat < p.at_) :=
  ⟨ups (kvChip.setSlot 0 { kvSlot with publ := some { at_ := 5 } }), 0, { at_ := 5 }, by decide⟩
theorem wit_Publications_7 : ∃ (s : State) (n : SlotId) (p : Publ), (s.chip.isReady) ∧ ((s.chip.slot n).publ = some p) ∧ (p.built = false) ∧ (p.sw = true) ∧ (p.at_ ≤ s.chip.beat) :=
  ⟨ups (kvChip.setSlot 0 { kvSlot with publ := some {} }), 0, {}, by decide⟩
theorem wit_Publications_8 : ∃ (s : State) (n : SlotId) (p : Publ), (s.chip.isReady) ∧ ((s.chip.slot n).publ = some p) ∧ (p.built = false) ∧ (p.sw = false) :=
  ⟨ups (kvChip.setSlot 0 { kvSlot with publ := some { sw := false } }), 0, { sw := false }, by decide⟩
theorem wit_Publications_9a : ∃ (s : State) (n : SlotId) (p : Publ) (lens : List Nat), (s.chip.isReady) ∧ ((s.chip.slot n).publ = some p) ∧ (p.built = true) ∧ (s.chip.come p.at_ = true) ∧ (swapLens (s.chip.slot n) p.edits = .ok lens) :=
  ⟨ups (pubChip.setSlot 0 { kvSlot with lens := [64], cursors := List.replicate 16 64, publ := some { edits := [[5, 0, 1, 0]], built := true, units := [0, 1, 2], res := runEdits pubChip (pubChip.slot 0) [[5, 0, 1, 0]] } }), 0, { edits := [[5, 0, 1, 0]], built := true, units := [0, 1, 2], res := runEdits pubChip (pubChip.slot 0) [[5, 0, 1, 0]] }, [64], ⟨by decide, by decide, by decide, by decide, by rfl⟩⟩
theorem wit_Publications_9b : ∃ (s : State) (n : SlotId) (p : Publ) (lens : List Nat), (s.chip.isReady) ∧ ((s.chip.slot n).publ = some p) ∧ (p.built = true) ∧ (s.chip.come p.at_ = true) ∧ (swapLens (s.chip.slot n) p.edits = .ok lens) :=
  ⟨ups (pubChip.setSlot 0 { kvSlot with lens := [64], cursors := List.replicate 16 64, publ := some { sw := false, edits := [[5, 0, 1, 0]], built := true, units := [0, 1, 2], res := runEdits pubChip (pubChip.slot 0) [[5, 0, 1, 0]] } }), 0, { sw := false, edits := [[5, 0, 1, 0]], built := true, units := [0, 1, 2], res := runEdits pubChip (pubChip.slot 0) [[5, 0, 1, 0]] }, [64], ⟨by decide, by decide, by decide, by decide, by rfl⟩⟩
theorem wit_Publications_10 : ∃ (s : State) (n : SlotId) (p : Publ) (b : Nat × Nat), (s.chip.isReady) ∧ ((s.chip.slot n).publ = some p) ∧ (p.built = true) ∧ (s.chip.come p.at_ = true) ∧ (p.sw = true) ∧ (swapLens (s.chip.slot n) p.edits = .error b) :=
  ⟨ups (pubChip.setSlot 0 { kvSlot with lens := [64], cursors := List.replicate 16 64, publ := some { edits := [[5, 1, 1, 0]], built := true, units := [0, 1, 2], res := runEdits pubChip (pubChip.slot 0) [[5, 1, 1, 0]] } }), 0, { edits := [[5, 1, 1, 0]], built := true, units := [0, 1, 2], res := runEdits pubChip (pubChip.slot 0) [[5, 1, 1, 0]] }, (2, 0), ⟨by decide, by decide, by decide, by decide, by decide, by rfl⟩⟩
theorem wit_Publications_11 : ∃ (s : State) (n : SlotId) (p : Publ), (s.chip.isReady) ∧ ((s.chip.slot n).publ = some p) ∧ (p.built = false ∨ s.chip.come p.at_ = false) :=
  ⟨ups (kvChip.setSlot 0 { kvSlot with publ := some { at_ := 5 } }), 0, { at_ := 5 }, by decide⟩
theorem wit_Publications_12 : ∃ (s : State) (n : SlotId) (p : Publ), (s.chip.isReady) ∧ ((s.chip.slot n).publ = some p) ∧ (p.sw = true) :=
  ⟨ups (pubChip.setSlot 0 { kvSlot with pubSt := 1, publ := some { units := [0, 1, 2] } }), 0, { units := [0, 1, 2] }, by decide⟩
theorem wit_Publications_13 : ∃ (s : State) (n : SlotId) (p : Publ), (s.chip.isReady) ∧ ((s.chip.slot n).publ = some p) ∧ (p.sw = false) ∧ ((s.chip.slot n).armWait ≠ none) :=
  ⟨ups (pubChip.setSlot 0 { kvSlot with pubSt := 1, armWait := some 7, publ := some { sw := false } }), 0, { sw := false }, by decide⟩
theorem wit_Publications_14 : ∃ (s : State) (n : SlotId), (s.chip.isReady) ∧ ((s.chip.slot n).publ = none) :=
  ⟨ups kvChip, 0, by decide⟩
theorem wit_QuarantineRelease_1a : ∃ (s : State) (i : Nat) (q : Quar), (s.chip.isReady) ∧ (s.chip.quar[i]? = some q) ∧ (serialLt (horizonOf q.slot s.chip) q.tag = false) :=
  ⟨ups { kvChip with quar := [{}, { idx := 1 }] }, 1, { idx := 1 }, by decide⟩
theorem wit_QuarantineRelease_1b : ∃ (s : State) (i : Nat) (q : Quar), (s.chip.isReady) ∧ (s.chip.quar[i]? = some q) ∧ (serialLt (horizonOf q.slot s.chip) q.tag = false) :=
  ⟨ups { kvChip with quar := [{ tier := 1, unit := true, idx := 4096 }] }, 0, { tier := 1, unit := true, idx := 4096 }, by decide⟩
theorem wit_QuarantineRelease_2 : ∃ (s : State) (i : Nat) (q : Quar), (s.chip.isReady) ∧ (s.chip.quar[i]? = some q) ∧ (q.unit = false) ∧ (q.tier = 0) ∧ (serialLt (horizonOf q.slot s.chip) q.tag = false) ∧ (refCnt s.chip 0 q.idx ≤ 1) ∧ (bit 6 (s.chip.recW 0 q.idx 0) = false) ∧ (bit 7 (s.chip.recW 0 q.idx 0) = false) ∧ ((∀ m < 32, (s.chip.slot m).toQuar = [])) :=
  ⟨ups { kvChip with quar := [{}, { idx := 1 }] }, 1, { idx := 1 }, by decide⟩
theorem wit_QuarantineRelease_3 : ∃ (s : State) (i : Nat) (q : Quar), (s.chip.isReady) ∧ (s.chip.quar[i]? = some q) ∧ (serialLt (horizonOf q.slot s.chip) q.tag = true) :=
  ⟨ups { kvChip with quar := [{ tag := 1 }] }, 0, { tag := 1 }, by decide⟩
theorem wit_ThresholdFlips_1a : ∃ (s : State) (n : ClusterId) (hi : W32) (b : Nat), (s.chip.isOn) ∧ ((s.chip.pwu n).armed = false) ∧ (b = s.chip.lowHalf (ra (pgPwu n) 0x108) + 2 ^ 32 * (hi.toNat % 2 ^ 22)) :=
  ⟨up, 23, 0xFFFFFFFF#32, 0x3FFFFF00000000, by decide⟩
theorem wit_ThresholdFlips_1b : ∃ (s : State) (n : ClusterId) (hi : W32) (b : Nat), (s.chip.isOn) ∧ ((s.chip.pwu n).armed = false) ∧ (b = s.chip.lowHalf (ra (pgPwu n) 0x108) + 2 ^ 32 * (hi.toNat % 2 ^ 22)) :=
  ⟨up, 0, 0#32, 0, by decide⟩
theorem wit_ThresholdFlips_1c : ∃ (s : State) (n : ClusterId) (hi : W32) (b : Nat), (s.chip.isOn) ∧ ((s.chip.pwu n).armed = false) ∧ (b = s.chip.lowHalf (ra (pgPwu n) 0x108) + 2 ^ 32 * (hi.toNat % 2 ^ 22)) :=
  ⟨ups { chipOn with pairStage := Tab.set (fun _ => none) [] (ra (pgPwu 2) 0x108) (some 5#32) }, 2, 0#32, 5, by decide⟩
theorem wit_ThresholdFlips_2 : ∃ (s : State) (n : ClusterId) (hi : W32), (s.chip.isOn) ∧ ((s.chip.pwu n).armed = true) :=
  ⟨ups (chipOn.setPwu 2 { armed := true }), 2, 0#32, by decide⟩
theorem wit_ThresholdFlips_3 : ∃ (s : State) (b : Nat), (s.chip.isReady) ∧ (s.chip.cascadeDue b = true) ∧ (∃ n < 24, (s.chip.pwu n).armed = true ∧ (s.chip.pwu n).flipAt = b) ∧ (∀ n < 24, (s.chip.pwu n).armed = true → s.chip.cascadeDue (s.chip.pwu n).flipAt = true → b ≤ (s.chip.pwu n).flipAt) ∧ (∀ n < 24, (s.chip.pwu n).armed = true → (s.chip.pwu n).flipAt = b → s.chip.thrBad n = none) :=
  ⟨ups ((({ chipOn with cad := { st := 3, now := 4096 } } : Chip).setPwu 23 { armed := true, flipAt := 4 }).setPwu 0 { armed := true, flipAt := 6 }), 4, by decide⟩
theorem wit_ThresholdFlips_4 : ∃ (s : State) (b : Nat), (s.chip.isReady) ∧ (s.chip.cascadeDue b = true) ∧ (∃ n < 24, (s.chip.pwu n).armed = true ∧ (s.chip.pwu n).flipAt = b ∧ s.chip.thrBad n ≠ none) ∧ (∀ n < 24, (s.chip.pwu n).armed = true → s.chip.cascadeDue (s.chip.pwu n).flipAt = true → b ≤ (s.chip.pwu n).flipAt) :=
  ⟨ups ((({ chipOn with cad := { st := 3, now := 4096 } } : Chip).setRg (ra (pgPwu 23) 0x400) 0xFFFFFFFF).setPwu 23 { armed := true, flipAt := 4 }), 4, by decide⟩
theorem wit_ThresholdFlips_5 : ∃ (s : State), (s.chip.isReady) ∧ (∀ n < 24, (s.chip.pwu n).armed = true → s.chip.cascadeDue (s.chip.pwu n).flipAt = false) :=
  ⟨ups (chipOn.setPwu 2 { armed := true, flipAt := 4 }), by decide⟩
theorem wit_ThresholdFlips_6 : ∃ (s : State) (n : ClusterId), (s.chip.isOn) ∧ (s.chip.pwr.st ≠ 3) ∧ (s.chip.pwr.st ≠ 4) :=
  ⟨up, 0, by decide⟩
theorem wit_CadenceTime_1 : ∃ (s : State), (s.chip.isOn) ∧ (s.chip.cad.stop < 1024) :=
  ⟨up, by decide⟩
theorem wit_CadenceTime_2a : ∃ (s : State) (p : PortId), (s.chip.isOn) ∧ (s.chip.cad.stop < 1024) ∧ (marks s.chip p = true) :=
  ⟨ups (({ chipOn with cad := { now := 1024 * 31, st := 3 } } : Chip).setLink 5 { st := 4 }), 5, by decide⟩
theorem wit_CadenceTime_2b : ∃ (s : State) (p : PortId), (s.chip.isOn) ∧ (s.chip.cad.stop < 1024) ∧ (marks s.chip p = true) :=
  ⟨ups (({ chipOn with cad := { now := 1024 * 40, st := 3, txFrames := [(5, List.replicate 32 7)] } } : Chip).setLink 5 { st := 9 }), 5, by decide⟩
theorem wit_CadenceTime_3 : ∃ (s : State), (s.chip.isOn) ∧ (1024 ≤ s.chip.cad.stop) :=
  ⟨ups ({ chipOn with cad := { st := 2, stop := 3000 } } : Chip), by decide⟩
theorem wit_CadenceTime_4a : ∃ (s : State) (p : PortId) (k : Nat) (m : Int), (s.chip.isOn) ∧ (16 ≤ k) ∧ ((s.chip.cad.port p).tbad = false) :=
  ⟨ups ({ chipOn with cad := { ports := [(5, { tbad := false, tmeas := 40 })] } } : Chip), 5, 16, 100, by decide⟩
theorem wit_CadenceTime_4b : ∃ (s : State) (p : PortId) (k : Nat) (m : Int), (s.chip.isOn) ∧ (16 ≤ k) ∧ ((s.chip.cad.port p).tbad = false) :=
  ⟨ups ({ chipOn with cad := { parent := 2, ports := [(2, { tbad := false, tmeas := 40 })] } } : Chip), 2, 16, 100, by decide⟩
theorem wit_CadenceTime_5 : ∃ (s : State) (p : PortId) (k : Nat) (m : Int), (s.chip.isOn) ∧ (16 ≤ k) ∧ ((s.chip.cad.port p).tbad = true) :=
  ⟨ups ({ chipOn with cad := { ports := [(5, { delay := some 3 })] } } : Chip), 5, 16, 100, by decide⟩
theorem wit_CadenceTime_6 : ∃ (s : State) (p : PortId) (k : Nat) (m : Int), (s.chip.isOn) ∧ (k < 16) :=
  ⟨ups ({ chipOn with cad := { parent := 0, offset := some 3 } } : Chip), 0, 15, 100, by decide⟩
theorem wit_CadenceTime_7 : ∃ (s : State) (p : PortId) (k : Nat) (m : Int), (s.chip.isOn) ∧ (16 ≤ k) ∧ ((s.chip.cad.port p).tbad = false) ∧ (s.chip.cad.parent = p) :=
  ⟨ups ({ chipOn with cad := { parent := 2, ports := [(2, { tbad := false, tmeas := 40 })] } } : Chip), 2, 16, 100, by decide⟩
theorem wit_CadenceTime_8 : ∃ (s : State) (f : Frame), (s.chip.takes 0x30 f) ∧ (leNat f.body < 2 ^ 32) ∧ (s.chip.cad.st = 1) ∧ (bit 0 (s.chip.rg (cadReg 0x12C)) = true) :=
  ⟨ups (({ chipOn with cad := { st := 1 }, mbp := { sess := 2 } } : Chip).setRg (cadReg 0x12C) 1), { type := 0x30, prot := true, authentic := true, body := [1#8] }, by decide⟩
theorem wit_CadenceTime_9 : ∃ (s : State) (f : Frame), (s.chip.takes 0x30 f) ∧ (leNat f.body < 2 ^ 32) ∧ (s.chip.cad.st ≠ 1 ∨ bit 0 (s.chip.rg (cadReg 0x12C)) = false) :=
  ⟨ups ({ chipOn with mbp := { sess := 2 } } : Chip), { type := 0x30, prot := true, authentic := true, body := [1#8] }, by decide⟩
theorem wit_CadenceStates_1 : ∃ (s : State) (b : Nat), (s.chip.isOn) ∧ (s.chip.cad.readyAt = some b) ∧ (s.chip.mst = true) ∧ (s.chip.cad.st = 0) ∧ (s.chip.cad.heard = false) ∧ (b + 2048 ≤ s.chip.beat) :=
  ⟨ups { chipOn with mst := true, cad := { now := 1024 * 2048, readyAt := some 0 } }, 0, by decide⟩
theorem wit_CadenceStates_2 : ∃ (s : State), (s.chip.isOn) ∧ (s.chip.mst = false ∨ s.chip.cad.heard = true ∨ s.chip.cad.st ≠ 0 ∨ (∀ b, s.chip.cad.readyAt = some b → s.chip.beat < b + 2048)) :=
  ⟨up, by decide⟩
theorem wit_CadenceStates_3 : ∃ (s : State) (o : Int), (s.chip.isOn) ∧ (s.chip.cad.st = 2) ∧ (32 ≤ s.chip.cad.within) ∧ (s.chip.cad.offset = some o) ∧ (o.natAbs ≤ 64) :=
  ⟨ups ({ chipOn with cad := { st := 2, within := 32, offset := some (-64) } } : Chip), -64, by decide⟩
theorem wit_CadenceStates_4 : ∃ (s : State), (s.chip.isOn) ∧ (s.chip.cad.within < 32 ∨ s.chip.cad.st ≠ 2 ∨ (∀ o, s.chip.cad.offset = some o → 64 < o.natAbs)) :=
  ⟨ups ({ chipOn with cad := { st := 2, within := 31, offset := some 0 } } : Chip), by decide⟩
theorem wit_CadenceStates_5a : ∃ (s : State), (s.chip.isOn) ∧ (s.chip.cad.st = 2 ∨ s.chip.cad.st = 3) ∧ (8 ≤ s.chip.cad.missing ∨ (s.chip.cad.port s.chip.cad.parent).sync = false) ∧ (∀ p < 6, p ≠ s.chip.cad.parent → s.chip.admissible p = true → s.chip.cad.hops ≤ (s.chip.cad.port p).hops) :=
  ⟨ups ({ chipOn with cad := { st := 3, parent := 0, missing := 8, ports := [(0, { sync := true })] } } : Chip), by decide⟩
theorem wit_CadenceStates_5b : ∃ (s : State), (s.chip.isOn) ∧ (s.chip.cad.st = 2 ∨ s.chip.cad.st = 3) ∧ (8 ≤ s.chip.cad.missing ∨ (s.chip.cad.port s.chip.cad.parent).sync = false) ∧ (∀ p < 6, p ≠ s.chip.cad.parent → s.chip.admissible p = true → s.chip.cad.hops ≤ (s.chip.cad.port p).hops) :=
  ⟨ups ({ chipOn with cad := { st := 2, parent := 0 } } : Chip), by decide⟩
theorem wit_CadenceStates_6 : ∃ (s : State) (p : Nat), (s.chip.isOn) ∧ (s.chip.cad.st = 2 ∨ s.chip.cad.st = 3) ∧ (8 ≤ s.chip.cad.missing ∨ (s.chip.cad.port s.chip.cad.parent).sync = false) ∧ (s.chip.bestParent (fun x => decide ((s.chip.cad.port x).hops < s.chip.cad.hops) && x != s.chip.cad.parent) = some p) :=
  ⟨ups (({ chipOn with cad := { st := 3, parent := 0, hops := 3, ports := [(1, { sync := true, frameAt := some 0, ta := some 0, tbad := false, hops := 1 })] } } : Chip).setLink 1 { st := 4 }), 1, by decide⟩
theorem wit_CadenceStates_7a : ∃ (s : State), (s.chip.isOn) ∧ ((s.chip.cad.missing < 8 ∧ (s.chip.cad.port s.chip.cad.parent).sync = true) ∨ (s.chip.cad.st ≠ 2 ∧ s.chip.cad.st ≠ 3)) :=
  ⟨ups ({ chipOn with cad := { st := 3, parent := 0, missing := 7, ports := [(0, { sync := true })] } } : Chip), by decide⟩
theorem wit_CadenceStates_7b : ∃ (s : State), (s.chip.isOn) ∧ ((s.chip.cad.missing < 8 ∧ (s.chip.cad.port s.chip.cad.parent).sync = true) ∨ (s.chip.cad.st ≠ 2 ∧ s.chip.cad.st ≠ 3)) :=
  ⟨ups ({ chipOn with cad := { st := 1 } } : Chip), by decide⟩
theorem wit_CadenceStates_8 : ∃ (s : State), (s.chip.isOn) ∧ (s.chip.cad.st = 4) ∧ (4096 ≤ s.chip.cad.holdB) :=
  ⟨ups ({ chipOn with cad := { st := 4, holdB := 4096 } } : Chip), by decide⟩
theorem wit_CadenceStates_9 : ∃ (s : State), (s.chip.isOn) ∧ (s.chip.cad.st = 4) ∧ (4096 ≤ s.chip.cad.holdB) ∧ (s.chip.rg (ra pgCad 0x10) = 0) :=
  ⟨ups ({ chipOn with cad := { st := 4, holdB := 4096 } } : Chip), by decide⟩
theorem wit_CadenceStates_10 : ∃ (s : State), (s.chip.isOn) ∧ (s.chip.cad.st ≠ 4 ∨ s.chip.cad.holdB < 4096) :=
  ⟨ups ({ chipOn with cad := { st := 4, holdB := 4095 } } : Chip), by decide⟩
theorem wit_CadenceStates_11 : ∃ (s : State) (o : Override), (s.chip.isOn) ∧ (s.chip.cad.override = some o) ∧ (o.at_ ≤ s.chip.beat) ∧ (o.target = s.chip.posId) :=
  ⟨ups ({ chipOn with cad := { st := 3, override := some { mepoch := 2 } } } : Chip), { mepoch := 2 }, by decide⟩
theorem wit_CadenceStates_12 : ∃ (s : State) (o : Override), (s.chip.isOn) ∧ (s.chip.cad.override = some o) ∧ (o.at_ ≤ s.chip.beat) ∧ (o.target ≠ s.chip.posId) :=
  ⟨ups ({ chipOn with cad := { st := 1, override := some { target := 9, mepoch := 2 } } } : Chip), { target := 9, mepoch := 2 }, by decide⟩
theorem wit_CadenceStates_13 : ∃ (s : State), (s.chip.isOn) ∧ (∀ o, s.chip.cad.override = some o → s.chip.beat < o.at_) :=
  ⟨ups ({ chipOn with cad := { st := 1, override := some { at_ := 1 } } } : Chip), by decide⟩
theorem wit_EventTable_1 : ∃ (s : State) (w : List Nat), (s.chip.isOn) ∧ (w = (List.range 8).map (fun k => s.chip.rg (cadReg (0x190 + 4 * k)))) ∧ ((s.chip.cad.ent s.chip.evtIdx).st = 0) ∧ (fld 23 22 (wd w 1) = 0) ∧ (fld 31 29 (wd w 1) = 0) ∧ (1 ≤ evtAction w) ∧ (evtAction w ≤ 3) ∧ (fld 31 24 (wd w 2) = 0) ∧ (evtAddr w % 4 = 0) ∧ (wd w 6 = 0) ∧ (wd w 7 = 0) ∧ (∀ p ∈ [pgCad, pgMgt, pgSec, pgPwr], evtAddr w / 0x1000 ≠ p) ∧ (s.chip.cad.st ≠ 0) ∧ (s.chip.beat < evtBeat w) :=
  ⟨ups (Chip.setRg (Chip.setRg (Chip.setRg ({ chipOn with cad := { st := 3, now := 0 } } : Chip) (cadReg (0x190 + 4 * 0)) 5) (cadReg (0x190 + 4 * 1)) 33554432) (cadReg (0x190 + 4 * 2)) 3145728), [5, 0x2000000, 0x300000, 0, 0, 0, 0, 0], by decide⟩
theorem wit_EventTable_2 : ∃ (s : State) (w : List Nat), (s.chip.isOn) ∧ (w = (List.range 8).map (fun k => s.chip.rg (cadReg (0x190 + 4 * k)))) ∧ ((s.chip.cad.ent s.chip.evtIdx).st = 0) ∧ (fld 23 22 (wd w 1) = 0) ∧ (fld 31 29 (wd w 1) = 0) ∧ (1 ≤ evtAction w) ∧ (evtAction w ≤ 3) ∧ (fld 31 24 (wd w 2) = 0) ∧ (evtAddr w % 4 = 0) ∧ (wd w 6 = 0) ∧ (wd w 7 = 0) ∧ (evtAddr w / 0x1000 = pgPwr) ∧ (evtAddr w % 0x1000 = 0x104) ∧ (s.chip.cad.st ≠ 0) ∧ (evtBeat w ≤ s.chip.beat) :=
  ⟨ups (Chip.setRg (Chip.setRg ({ chipOn with cad := { st := 3, now := 0 } } : Chip) (cadReg (0x190 + 4 * 1)) 16777216) (cadReg (0x190 + 4 * 2)) 8452), [0, 0x1000000, 0x2104, 0, 0, 0, 0, 0], by decide⟩
theorem wit_EventTable_3 : ∃ (s : State), (s.chip.isOn) ∧ ((s.chip.cad.ent s.chip.evtIdx).st ≠ 0) :=
  ⟨ups ({ chipOn with cad := { st := 3, now := 0, evt := [(0, { st := 1 })] } } : Chip), by decide⟩
theorem wit_EventTable_4 : ∃ (s : State) (w : List Nat), (s.chip.isOn) ∧ (w = (List.range 8).map (fun k => s.chip.rg (cadReg (0x190 + 4 * k)))) ∧ ((s.chip.cad.ent s.chip.evtIdx).st = 0) ∧ (evtAction w = 0 ∨ 3 < evtAction w ∨ evtAddr w % 4 ≠ 0 ∨ wd w 6 ≠ 0 ∨ wd w 7 ≠ 0) :=
  ⟨ups ({ chipOn with cad := { st := 3, now := 0 } } : Chip), [0, 0, 0, 0, 0, 0, 0, 0], by decide⟩
theorem wit_EventTable_5 : ∃ (s : State) (w : List Nat), (s.chip.isOn) ∧ (w = (List.range 8).map (fun k => s.chip.rg (cadReg (0x190 + 4 * k)))) ∧ ((s.chip.cad.ent s.chip.evtIdx).st = 0) ∧ (fld 23 22 (wd w 1) = 0) ∧ (fld 31 29 (wd w 1) = 0) ∧ (1 ≤ evtAction w) ∧ (evtAction w ≤ 3) ∧ (fld 31 24 (wd w 2) = 0) ∧ (evtAddr w % 4 = 0) ∧ (wd w 6 = 0) ∧ (wd w 7 = 0) ∧ (evtAddr w / 0x1000 = pgCad ∨ evtAddr w / 0x1000 = pgMgt ∨ evtAddr w / 0x1000 = pgSec) :=
  ⟨ups (Chip.setRg (Chip.setRg ({ chipOn with cad := { st := 3, now := 0 } } : Chip) (cadReg (0x190 + 4 * 1)) 16777216) (cadReg (0x190 + 4 * 2)) 20480), [0, 0x1000000, 0x5000, 0, 0, 0, 0, 0], by decide⟩
theorem wit_EventTable_6 : ∃ (s : State) (w : List Nat), (s.chip.isOn) ∧ (w = (List.range 8).map (fun k => s.chip.rg (cadReg (0x190 + 4 * k)))) ∧ ((s.chip.cad.ent s.chip.evtIdx).st = 0) ∧ (fld 23 22 (wd w 1) = 0) ∧ (fld 31 29 (wd w 1) = 0) ∧ (1 ≤ evtAction w) ∧ (evtAction w ≤ 3) ∧ (fld 31 24 (wd w 2) = 0) ∧ (evtAddr w % 4 = 0) ∧ (wd w 6 = 0) ∧ (wd w 7 = 0) ∧ (∀ p ∈ [pgCad, pgMgt, pgSec, pgPwr], evtAddr w / 0x1000 ≠ p) ∧ (s.chip.cad.st = 0) :=
  ⟨ups (Chip.setRg (Chip.setRg ({ chipOn with cad := { st := 0, now := 0 } } : Chip) (cadReg (0x190 + 4 * 1)) 50331648) (cadReg (0x190 + 4 * 2)) 24576), [0, 0x3000000, 0x6000, 0, 0, 0, 0, 0], by decide⟩
theorem wit_EventTable_7a : ∃ (s : State), (s.chip.isOn) :=
  ⟨up, by decide⟩
theorem wit_EventTable_7b : ∃ (s : State), (s.chip.isOn) :=
  ⟨ups ({ chipOn with cad := { st := 3, now := 0, evt := [(0, { st := 1, words := [1, 2, 3, 4, 0x50006, 6, 0, 0], left := 3 })] } } : Chip), by decide⟩
theorem wit_EventTable_8a : ∃ (s : State), (s.chip.isOn) :=
  ⟨up, by decide⟩
theorem wit_EventTable_8b : ∃ (s : State), (s.chip.isOn) :=
  ⟨ups ({ chipOn with cad := { st := 3, now := 0, evt := [(0, { st := 1, firedAt := some 0 })] } } : Chip), by decide⟩
theorem wit_EventTable_9 : ∃ (s : State), (s.chip.isOn) ∧ (∀ i < 256, evtDue s.chip i = false) :=
  ⟨up, by decide⟩
theorem wit_EventTable_10 : ∃ (s : State) (i : Nat), (s.chip.isOn) ∧ (i < 256) ∧ (evtDue s.chip i = true) ∧ (∀ j < 256, evtDue s.chip j = true → evtAction (s.chip.cad.ent j).words = 2) :=
  ⟨ups ({ chipOn with cad := { st := 3, now := 0, evt := [(7, { st := 1, words := [0, 0x2000000, 0, 0, 0x20005] , left := 2 }), (9, { st := 1, words := [0, 0x2000000, 0, 0, 0, 5] })] } } : Chip), 7, by decide⟩
theorem wit_EventTable_11 : ∃ (s : State) (i : Nat), (s.chip.isOn) ∧ (i < 256) ∧ (∀ j < 256, evtDue s.chip j = true ↔ j = i) ∧ (evtAction (s.chip.cad.ent i).words = 2) ∧ (evtCascade (s.chip.cad.ent i).words = false) ∧ (s.chip.passed (s.chip.cad.ent i).at_ = false) :=
  ⟨ups ({ chipOn with cad := { st := 3, now := 0, evt := [(7, { st := 1, words := [0, 0x2000000, 0, 0, 0x20005] , left := 2 })] } } : Chip), 7, by decide⟩
theorem wit_EventTable_12 : ∃ (s : State) (i : Nat) (k : Chip), (s.chip.isOn) ∧ (i < 256) ∧ (∀ j < i, evtDue s.chip j = false) ∧ (evtDue s.chip i = true) ∧ (evtAction (s.chip.cad.ent i).words = 1 ∨ evtAction (s.chip.cad.ent i).words = 3) ∧ (k = evtWrite (evtAddr (s.chip.cad.ent i).words) (wd (s.chip.cad.ent i).words 3) (updCad (fun y => y.setEnt i (if evtPeriod (s.chip.cad.ent i).words ≠ 0 ∧ (s.chip.cad.ent i).left ≠ 1 then
        { s.chip.cad.ent i with at_ := (s.chip.cad.ent i).at_ + evtPeriod (s.chip.cad.ent i).words, left := (s.chip.cad.ent i).left - 1, firedAt := some s.chip.beat }
        else { firedAt := some s.chip.beat }))
      (if evtCascade (s.chip.cad.ent i).words = true then lateFire pgCad (s.chip.cad.ent i).at_ s.chip else latePassed pgCad (s.chip.cad.ent i).at_ s.chip))) ∧ (∀ j < 256, i < j → evtDue k j = false) :=
  ⟨ups ({ chipOn with cad := { st := 3, now := 0, evt := [(255, { st := 1, words := [0, 0x1000000, 0x200400, 7] })] } } : Chip), 255, _, ⟨by decide, by decide, by decide, by decide, by decide, rfl, fun j h g => absurd h (by omega)⟩⟩
theorem wit_EventTable_13 : ∃ (s : State), (s.chip.isOn) ∧ (∀ j < 256, evtDue s.chip j = true ↔ j = 255) ∧ (evtAction (s.chip.cad.ent 255).words = 1) ∧ (evtCascade (s.chip.cad.ent 255).words = false) ∧ (evtPeriod (s.chip.cad.ent 255).words = 0) ∧ (s.chip.passed (s.chip.cad.ent 255).at_ = false) :=
  ⟨ups ({ chipOn with cad := { st := 3, now := 0, evt := [(255, { st := 1, words := [0, 0x1000000, 0x200400, 7] })] } } : Chip), by decide⟩
theorem wit_FlitLink_1a : ∃ (s : State) (n : LinkId) (f : Flit) (t : List Flit), (s.chip.phase ≠ .off) ∧ (carriesCtl n ((s.chip.loaded n).link n).st = true) ∧ (((s.chip.loaded n).link n).resend = f :: t) ∧ (f.type = 3 ∨ ((s.chip.loaded n).link n).st = 4) :=
  ⟨ups ((chipOn).setLink 2 { st := 4, resend := [{ type := 1, seq := 9 }] }), 2, { type := 1, seq := 9 }, [], by decide⟩
theorem wit_FlitLink_1b : ∃ (s : State) (n : LinkId) (f : Flit) (t : List Flit), (s.chip.phase ≠ .off) ∧ (carriesCtl n ((s.chip.loaded n).link n).st = true) ∧ (((s.chip.loaded n).link n).resend = f :: t) ∧ (f.type = 3 ∨ ((s.chip.loaded n).link n).st = 4) :=
  ⟨ups ((chipOn).setLink 2 { st := 9, resend := [{ type := 3, seq := 9 }] }), 2, { type := 3, seq := 9 }, [], by decide⟩
theorem wit_FlitLink_2a : ∃ (s : State) (n : LinkId) (b : List Byte) (t : List (List Byte)), (s.chip.phase ≠ .off) ∧ (carriesCtl n ((s.chip.loaded n).link n).st = true) ∧ (((s.chip.loaded n).link n).noneAgain) ∧ (((s.chip.loaded n).link n).lctl = b :: t) ∧ (((s.chip.loaded n).link n).replay.length < 2047) :=
  ⟨ups ((chipOn).setLink 0 { st := 1, lctl := [[1#8]], txSeq := 4095 }), 0, [1#8], [], by decide⟩
theorem wit_FlitLink_2b : ∃ (s : State) (n : LinkId) (b : List Byte) (t : List (List Byte)), (s.chip.phase ≠ .off) ∧ (carriesCtl n ((s.chip.loaded n).link n).st = true) ∧ (((s.chip.loaded n).link n).noneAgain) ∧ (((s.chip.loaded n).link n).lctl = b :: t) ∧ (((s.chip.loaded n).link n).replay.length < 2047) :=
  ⟨ups ((chipOn).setLink 0 { st := 9, lctl := [[1#8]], resend := [{ type := 1 }] }), 0, [1#8], [], by decide⟩
theorem wit_FlitLink_3a : ∃ (s : State) (n : LinkId) (cls vc : Nat) (q : QPkt) (k : Nat), (s.chip.phase ≠ .off) ∧ (((s.chip.loaded n).link n).st = 4) ∧ (((s.chip.loaded n).link n).resend = []) ∧ (((s.chip.loaded n).link n).lctl = []) ∧ (((s.chip.loaded n).link n).replay.length < 2047) ∧ (chooseData ((s.chip.loaded n).link n) = some (cls, vc, q, k)) :=
  ⟨ups ((chipOn).setLink 0 { st := 4, credits := [0, 0, 1, 0, 0, 0], queue := [{ cls := 1, flits := [[1#8]] }] }), 0, 1, 0, { cls := 1, flits := [[1#8]] }, 0, by decide⟩
theorem wit_FlitLink_3b : ∃ (s : State) (n : LinkId) (cls vc : Nat) (q : QPkt) (k : Nat), (s.chip.phase ≠ .off) ∧ (((s.chip.loaded n).link n).st = 4) ∧ (((s.chip.loaded n).link n).resend = []) ∧ (((s.chip.loaded n).link n).lctl = []) ∧ (((s.chip.loaded n).link n).replay.length < 2047) ∧ (chooseData ((s.chip.loaded n).link n) = some (cls, vc, q, k)) :=
  ⟨ups { (chipOn.setLink 6 { st := 4, credits := [1, 0, 1, 0, 1, 0] }) with mbp := { out := [{ type := 0x23 }] } }, 6, 0, 0, ((((({ (chipOn.setLink 6 { st := 4, credits := [1, 0, 1, 0, 1, 0] }) with mbp := { out := [{ type := 0x23 }] } } : Chip).loaded 6).link 6).queue).getD 0 {}), 0, ⟨by decide, rfl, rfl, rfl, by decide, rfl⟩⟩
theorem wit_FlitLink_4a : ∃ (s : State) (n : LinkId), (s.chip.phase ≠ .off) ∧ (carriesCtl n ((s.chip.loaded n).link n).st = true) ∧ (((s.chip.loaded n).link n).st ≠ 1) ∧ (((s.chip.loaded n).link n).st ≠ 6) ∧ (((s.chip.loaded n).link n).noneAgain) ∧ (((s.chip.loaded n).link n).lctl = [] ∨ 2047 ≤ ((s.chip.loaded n).link n).replay.length) ∧ (((s.chip.loaded n).link n).st = 4 → ((s.chip.loaded n).link n).replay.length < 2047 → chooseData ((s.chip.loaded n).link n) = none) :=
  ⟨ups ((chipOn).setLink 3 { st := 5 }), 3, by decide⟩
theorem wit_FlitLink_4b : ∃ (s : State) (n : LinkId), (s.chip.phase ≠ .off) ∧ (carriesCtl n ((s.chip.loaded n).link n).st = true) ∧ (((s.chip.loaded n).link n).st ≠ 1) ∧ (((s.chip.loaded n).link n).st ≠ 6) ∧ (((s.chip.loaded n).link n).noneAgain) ∧ (((s.chip.loaded n).link n).lctl = [] ∨ 2047 ≤ ((s.chip.loaded n).link n).replay.length) ∧ (((s.chip.loaded n).link n).st = 4 → ((s.chip.loaded n).link n).replay.length < 2047 → chooseData ((s.chip.loaded n).link n) = none) :=
  ⟨ups ((chipOn).setLink 3 { st := 4, nakDue := true }), 3, by decide⟩
theorem wit_FlitLink_4c : ∃ (s : State) (n : LinkId), (s.chip.phase ≠ .off) ∧ (carriesCtl n ((s.chip.loaded n).link n).st = true) ∧ (((s.chip.loaded n).link n).st ≠ 1) ∧ (((s.chip.loaded n).link n).st ≠ 6) ∧ (((s.chip.loaded n).link n).noneAgain) ∧ (((s.chip.loaded n).link n).lctl = [] ∨ 2047 ≤ ((s.chip.loaded n).link n).replay.length) ∧ (((s.chip.loaded n).link n).st = 4 → ((s.chip.loaded n).link n).replay.length < 2047 → chooseData ((s.chip.loaded n).link n) = none) :=
  ⟨ups ((chipOn).setLink 6 { st := 4 }), 6, by decide⟩
theorem wit_FlitLink_4d : ∃ (s : State) (n : LinkId), (s.chip.phase ≠ .off) ∧ (carriesCtl n ((s.chip.loaded n).link n).st = true) ∧ (((s.chip.loaded n).link n).st ≠ 1) ∧ (((s.chip.loaded n).link n).st ≠ 6) ∧ (((s.chip.loaded n).link n).noneAgain) ∧ (((s.chip.loaded n).link n).lctl = [] ∨ 2047 ≤ ((s.chip.loaded n).link n).replay.length) ∧ (((s.chip.loaded n).link n).st = 4 → ((s.chip.loaded n).link n).replay.length < 2047 → chooseData ((s.chip.loaded n).link n) = none) :=
  ⟨ups ((chipOn).setLink 3 { st := 9, resend := [{ type := 1 }] }), 3, by decide⟩
theorem wit_FlitLink_5 : ∃ (s : State) (n : LinkId) (x : Nat), (s.chip.phase ≠ .off) ∧ (n.val < 6) ∧ ((s.chip.link n).st = 4 ∨ (s.chip.link n).st = 5 ∨ (s.chip.link n).st = 9) ∧ ((s.chip.link n).mark = some x) :=
  ⟨ups ((chipOn).setLink 3 { st := 5, mark := some 8 }), 3, 8, by decide⟩
theorem wit_FlitLink_6 : ∃ (s : State) (n : LinkId), (s.chip.phase ≠ .off) ∧ (n.val < 6) ∧ ((s.chip.link n).st = 8) :=
  ⟨ups ((chipOn).setLink 3 { st := 8 }), 3, by decide⟩
theorem wit_FlitLink_7a : ∃ (s : State) (n : LinkId), (s.chip.phase ≠ .off) ∧ (n.val < 6) ∧ ((s.chip.link n).st = 0 ∨ (s.chip.link n).st = 7 ∨ (((s.chip.link n).st = 1 ∨ (s.chip.link n).st = 6) ∧ (s.chip.link n).resend = [] ∧ (s.chip.link n).lctl = [])) :=
  ⟨up, 3, by decide⟩
theorem wit_FlitLink_7b : ∃ (s : State) (n : LinkId), (s.chip.phase ≠ .off) ∧ (n.val < 6) ∧ ((s.chip.link n).st = 0 ∨ (s.chip.link n).st = 7 ∨ (((s.chip.link n).st = 1 ∨ (s.chip.link n).st = 6) ∧ (s.chip.link n).resend = [] ∧ (s.chip.link n).lctl = [])) :=
  ⟨ups ((chipOn).setLink 3 { st := 6 }), 3, by decide⟩
theorem wit_FlitLink_8a : ∃ (s : State) (n : LinkId) (b : List Byte) (w : Bool) (u m : Nat), (s.chip.phase ≠ .off) ∧ (carriesCtl n (s.chip.link n).st = true) ∧ (w = true ∨ flitBad b = true) :=
  ⟨ups ((chipOn).setLink 6 { st := 4 }), 6, [], false, 0, 2, by decide⟩
theorem wit_FlitLink_8b : ∃ (s : State) (n : LinkId) (b : List Byte) (w : Bool) (u m : Nat), (s.chip.phase ≠ .off) ∧ (carriesCtl n (s.chip.link n).st = true) ∧ (w = true ∨ flitBad b = true) :=
  ⟨ups ((chipOn).setLink 3 { st := 4 }), 3, [1#8], true, 1, 2, by decide⟩
theorem wit_FlitLink_9 : ∃ (s : State) (n : LinkId) (b : List Byte) (u m : Nat), (s.chip.phase ≠ .off) ∧ (carriesCtl n (s.chip.link n).st = true) ∧ (flitBad b = false) ∧ (fld 3 0 (flitHdr b) = 1 ∨ fld 3 0 (flitHdr b) = 3) ∧ (fld 28 17 (flitHdr b) ≠ (s.chip.link n).rxSeq) ∧ (((s.chip.link n).st = 1 ∨ (s.chip.link n).st = 6) → isIdent (flitHdr b) (flitData b) = false) :=
  ⟨ups ((chipOn).setLink 6 { st := 4 }), 6, flitBytes { type := 1, data := [1#8], seq := 1 } 0 0 0 none, 0, 3, by decide +kernel⟩
theorem wit_FlitLink_10 : ∃ (s : State) (n : LinkId) (b : List Byte) (u m : Nat), (s.chip.phase ≠ .off) ∧ (carriesCtl n (s.chip.link n).st = true) ∧ (flitBad b = false) ∧ (fld 3 0 (flitHdr b) = 3) ∧ (fld 28 17 (flitHdr b) = (s.chip.link n).rxSeq) ∧ (ctlRoom (s.chip.link n) = true) :=
  ⟨ups ((chipOn).setLink 0 { st := 2, rxSeq := 4095 }), 0, flitBytes { type := 3, sop := true, eop := true, data := [1#8], seq := 4095 } 0 0 0 none, 0, 3, by decide +kernel⟩
theorem wit_FlitLink_11 : ∃ (s : State) (n : LinkId) (b : List Byte) (u m : Nat), (s.chip.phase ≠ .off) ∧ (carriesCtl n (s.chip.link n).st = true) ∧ (flitBad b = false) ∧ (fld 3 0 (flitHdr b) = 3) ∧ (ctlRoom (s.chip.link n) = false) :=
  ⟨ups ((chipOn).setLink 0 { st := 2, lctlIn := List.replicate 16 [] }), 0, flitBytes { type := 3, sop := true, eop := true, data := [1#8] } 0 0 0 none, 0, 3, by decide +kernel⟩
theorem wit_FlitLink_12 : ∃ (s : State) (n : LinkId) (b : List Byte) (u m : Nat), (s.chip.phase ≠ .off) ∧ (carriesCtl n (s.chip.link n).st = true) ∧ (flitBad b = false) ∧ (fld 3 0 (flitHdr b) = 3) ∧ (fld 28 17 (flitHdr b) ≠ (s.chip.link n).rxSeq) ∧ (ctlRoom (s.chip.link n) = true) ∧ ((s.chip.link n).st = 1 ∨ (s.chip.link n).st = 6) ∧ (isIdent (flitHdr b) (flitData b) = true) :=
  ⟨ups ((chipOn).setLink 0 { st := 1, rxSeq := 7 }), 0, flitBytes { type := 3, sop := true, eop := true, data := List.replicate 32 0#8 ++ [1#8] } 0 0 0 none, 0, 0, by decide +kernel⟩
theorem wit_FlitLink_13a : ∃ (s : State) (n : LinkId) (b : List Byte) (u m : Nat), (s.chip.phase ≠ .off) ∧ (carriesCtl n (s.chip.link n).st = true) ∧ (flitBad b = false) ∧ (fld 3 0 (flitHdr b) = 1) ∧ (fld 28 17 (flitHdr b) = (s.chip.link n).rxSeq) :=
  ⟨ups ((chipOn).setLink 0 { st := 4 }), 0, flitBytes { type := 1, sop := true, eop := true, data := [1#8] } 0 0 0 none, 0, 3, by decide +kernel⟩
theorem wit_FlitLink_13b : ∃ (s : State) (n : LinkId) (b : List Byte) (u m : Nat), (s.chip.phase ≠ .off) ∧ (carriesCtl n (s.chip.link n).st = true) ∧ (flitBad b = false) ∧ (fld 3 0 (flitHdr b) = 1) ∧ (fld 28 17 (flitHdr b) = (s.chip.link n).rxSeq) :=
  ⟨ups ((chipOn).setLink 0 { st := 2 }), 0, flitBytes { type := 1, sop := true, eop := true, data := [1#8] } 0 0 0 none, 0, 3, by decide +kernel⟩
theorem wit_FlitLink_13c : ∃ (s : State) (n : LinkId) (b : List Byte) (u m : Nat), (s.chip.phase ≠ .off) ∧ (carriesCtl n (s.chip.link n).st = true) ∧ (flitBad b = false) ∧ (fld 3 0 (flitHdr b) = 1) ∧ (fld 28 17 (flitHdr b) = (s.chip.link n).rxSeq) :=
  ⟨ups ((chipOn).setLink 6 { st := 4 }), 6, flitBytes { type := 1, sop := true, eop := true, data := [1#8] } 0 0 0 none, 0, 3, by decide +kernel⟩
theorem wit_FlitLink_14 : ∃ (s : State) (n : LinkId) (b : List Byte) (u m : Nat) (p : Packet), (s.chip.phase ≠ .off) ∧ (carriesCtl n (s.chip.link n).st = true) ∧ (flitBad b = false) ∧ (n.val < 6) ∧ (wasUp (s.chip.link n) = true) ∧ (fld 3 0 (flitHdr b) = 1) ∧ (fld 28 17 (flitHdr b) = (s.chip.link n).rxSeq) ∧ (bit 7 (flitHdr b) = true) ∧ (bit 8 (flitHdr b) = true) ∧ (p = ptOf (fld 6 5 (flitHdr b)) (flitData b)) ∧ ((s.chip.link n).rx.getD (2 * fld 6 5 (flitHdr b) + fld 4 4 (flitHdr b)) none = none) ∧ ((s.chip.link n).rx.length = 6) ∧ (p.mcast = false) ∧ (p.dest = s.chip.posId) ∧ (p.slice = s.chip.sliceId) ∧ (p.rsvd = false) ∧ (knownKind p.kind = true) :=
  ⟨ups { (chipOn.setLink 0 { st := 4 }) with posId := 3 }, 0, flitBytes { type := 1, sop := true, eop := true, data := ptBytes { dest := 3, kind := 1 } } 0 0 0 none, 0, 3, ptOf 0 (ptBytes { dest := 3, kind := 1 }), by decide +kernel⟩
theorem wit_FlitLink_15 : ∃ (s : State) (n : LinkId) (b : List Byte) (u m : Nat), (s.chip.phase ≠ .off) ∧ (carriesCtl n (s.chip.link n).st = true) ∧ (flitBad b = false) ∧ (n.val = 6) ∧ (fld 3 0 (flitHdr b) = 1) ∧ (fld 28 17 (flitHdr b) = (s.chip.link n).rxSeq) ∧ (bit 7 (flitHdr b) = true) ∧ (bit 8 (flitHdr b) = true) ∧ (fld 4 4 (flitHdr b) = 0) ∧ ((s.chip.link n).rx.length = 6) ∧ ((flitData b).headD 0#8 ∈ [0x01#8, 0x03#8, 0x05#8, 0x06#8, 0x07#8, 0x10#8, 0x11#8, 0x18#8, 0x19#8, 0x20#8, 0x22#8, 0x29#8, 0x30#8, 0x38#8, 0x3C#8, 0x40#8]) ∧ ((s.chip.link n).rx.getD (2 * fld 6 5 (flitHdr b)) none = none) :=
  ⟨ups ((chipOn).setLink 6 { st := 4 }), 6, flitBytes { type := 1, sop := true, eop := true, data := [0x30#8] } 0 0 0 none, 0, 3, by decide +kernel⟩
theorem wit_FlitLink_16 : ∃ (s : State) (n : LinkId) (b : List Byte) (u m : Nat) (i : Nat), (s.chip.phase ≠ .off) ∧ (carriesCtl n (s.chip.link n).st = true) ∧ (flitBad b = false) ∧ (fld 3 0 (flitHdr b) = 0) ∧ ((s.chip.link n).replay.findIdx? (fun f => f.seq == fld 40 29 (flitHdr b)) = some i) :=
  ⟨ups ((chipOn).setLink 0 { st := 2, replay := [{ seq := 4 }, { seq := 5 }] }), 0, flitBytes {  } 4 0 0 none, 0, 1, 0, by decide +kernel⟩
theorem wit_FlitLink_17 : ∃ (s : State) (n : LinkId) (b : List Byte) (u m : Nat) (cr : Nat), (s.chip.phase ≠ .off) ∧ (carriesCtl n (s.chip.link n).st = true) ∧ (flitBad b = false) ∧ (fld 3 0 (flitHdr b) = 0) ∧ (fld 42 41 (flitHdr b) ≠ 3) ∧ (cr = 2 * fld 42 41 (flitHdr b) + fld 43 43 (flitHdr b)) ∧ ((s.chip.link n).credits.length = 6) ∧ ((s.chip.link n).crSeen.length = 6) :=
  ⟨ups ((chipOn).setLink 0 { st := 4, crSeen := [0, 1020, 0, 0, 0, 0] }), 0, flitBytes {  } 4 1 5 none, 0, 1, 1, by decide +kernel⟩
theorem wit_FlitLink_18 : ∃ (s : State) (n : LinkId) (b : List Byte) (u m : Nat), (s.chip.phase ≠ .off) ∧ (carriesCtl n (s.chip.link n).st = true) ∧ (flitBad b = false) ∧ (fld 3 0 (flitHdr b) = 2) ∧ ((s.chip.link n).replay.findIdx? (fun f => f.seq == fld 40 29 (flitHdr b)) = none) ∧ ((s.chip.link n).replay ≠ []) ∧ ((s.chip.link n).st ≠ 6) ∧ ((s.chip.link n).replays < fld 15 8 (retryCfg n s.chip) ∨ (s.chip.link n).st = 1) :=
  ⟨ups ((chipOn).setLink 0 { st := 4, replay := [{ seq := 5 }] }), 0, flitBytes { type := 2 } 4 0 0 none, 0, 1, by decide +kernel⟩
theorem wit_FlitLink_19 : ∃ (s : State) (n : LinkId) (b : List Byte) (w : Bool) (u m : Nat), (s.chip.phase ≠ .off) ∧ (carriesCtl n (s.chip.link n).st = false) :=
  ⟨up, 3, [], true, 1, 1, by decide⟩
theorem wit_FlitLink_20 : ∃ (s : State) (n : LinkId), (s.chip.phase ≠ .off) ∧ (carriesCtl n (s.chip.link n).st = true) ∧ ((s.chip.link n).st ≠ 6) ∧ ((s.chip.link n).replay ≠ []) ∧ ((s.chip.link n).resend = []) ∧ ((s.chip.link n).ackAt + fld 7 0 (retryCfg n s.chip) ≤ s.chip.beat) ∧ ((s.chip.link n).replays < fld 15 8 (retryCfg n s.chip) ∨ (s.chip.link n).st = 1) :=
  ⟨ups ((({ chipOn with cad := { now := 1024 * 300 } } : Chip)).setLink 0 { st := 4, replay := [{}] }), 0, by decide⟩
theorem wit_FlitLink_21 : ∃ (s : State) (n : LinkId), (s.chip.phase ≠ .off) ∧ (carriesCtl n (s.chip.link n).st = true) ∧ ((s.chip.link n).st ≠ 6) ∧ ((s.chip.link n).st ≠ 1) ∧ ((s.chip.link n).replay ≠ []) ∧ ((s.chip.link n).resend = []) ∧ ((s.chip.link n).ackAt + fld 7 0 (retryCfg n s.chip) ≤ s.chip.beat) ∧ (fld 15 8 (retryCfg n s.chip) ≤ (s.chip.link n).replays) ∧ (n.val < 6 → s.chip.torusOk = true) :=
  ⟨ups ((({ (chipOn.setRg (ra pgLrt 0x104) 0x10102) with cad := { now := 1024 * 300 } } : Chip)).setLink 0 { st := 4, replay := [{}], replays := 255 }), 0, by decide⟩
theorem wit_FlitLink_22 : ∃ (s : State) (n : LinkId), (s.chip.phase ≠ .off) ∧ ((s.chip.link n).replay = [] ∨ (s.chip.link n).resend ≠ [] ∨ s.chip.beat < (s.chip.link n).ackAt + fld 7 0 (retryCfg n s.chip)) :=
  ⟨up, 0, by decide⟩
theorem wit_PortTraining_1a : ∃ (s : State) (n : PortId), (s.chip.isOn) ∧ (s.chip.torusOk = true) ∧ (s.chip.size (n / 2) ≠ 1) ∧ (s.chip.enabled (pgPort n) = true) :=
  ⟨ups ((chipOn.setRg (ra pgLrt 0x104) 0x10102).setRg (ra (pgPort 0) 8) 1), 0, by decide⟩
theorem wit_PortTraining_1b : ∃ (s : State) (n : PortId), (s.chip.isOn) ∧ (s.chip.torusOk = true) ∧ (s.chip.size (n / 2) ≠ 1) ∧ (s.chip.enabled (pgPort n) = true) :=
  ⟨ups (((chipOn.setRg (ra pgLrt 0x104) 0x10102).setRg (ra (pgPort 0) 8) 1).setLink 0 { st := 4, replay := [{}], txSeq := 7 }), 0, by decide⟩
theorem wit_PortTraining_2 : ∃ (s : State) (n : PortId), (s.chip.isOn) ∧ (s.chip.torusOk = false ∨ s.chip.size (n / 2) = 1 ∨ s.chip.enabled (pgPort n) = false) :=
  ⟨up, 5, by decide⟩
theorem wit_PortTraining_3 : ∃ (s : State) (n : PortId), (s.chip.isOn) ∧ ((s.chip.link n).st = 1 ∨ (s.chip.link n).st = 6) ∧ (s.chip.torusOk = true) ∧ ((s.chip.link n).identHeld = none) :=
  ⟨ups (((chipOn.setRg (ra pgLrt 0x104) 0x10102)).setLink 1 { st := 6 }), 1, by decide⟩
theorem wit_PortTraining_4 : ∃ (s : State) (n : PortId) (b : List Byte), (s.chip.isOn) ∧ ((s.chip.link n).st = 1) ∧ (s.chip.torusOk = true) ∧ ((s.chip.link n).identHeld = some b) ∧ (identCheck s.chip n b = 0) ∧ (bit 0 (s.chip.rg (ra pgLrt 0x118)) = false) :=
  ⟨ups ((identChip 0).setLink 0 { st := 1, identHeld := some (identBody (identPeer 1) 1) }), 0, identBody (identPeer 1) 1, by decide +kernel⟩
theorem wit_PortTraining_5 : ∃ (s : State) (n : PortId) (l : Byte) (t : Bool), (s.chip.isOn) ∧ ((s.chip.link n).st = 1 ∨ (s.chip.link n).st = 6) ∧ (s.chip.torusOk = true) ∧ (l ≠ 255#8 ∨ t = false) ∧ ((s.chip.link n).tries < trainTries n s.chip) :=
  ⟨ups (((chipOn.setRg (ra pgLrt 0x104) 0x10102)).setLink 1 { st := 1, tries := 1 }), 1, 255#8, false, by decide⟩
theorem wit_PortTraining_6a : ∃ (s : State) (n : PortId) (l : Byte) (t : Bool), (s.chip.isOn) ∧ ((s.chip.link n).st = 1 ∨ (s.chip.link n).st = 6) ∧ (s.chip.torusOk = true) ∧ (l ≠ 255#8 ∨ t = false) ∧ (trainTries n s.chip ≤ (s.chip.link n).tries) ∧ (s.chip.rg (ra (pgPort n) 0x10) = 0) :=
  ⟨ups (((chipOn.setRg (ra pgLrt 0x104) 0x10102)).setLink 1 { st := 1, tries := 15 }), 1, 254#8, true, by decide⟩
theorem wit_PortTraining_6b : ∃ (s : State) (n : PortId) (l : Byte) (t : Bool), (s.chip.isOn) ∧ ((s.chip.link n).st = 1 ∨ (s.chip.link n).st = 6) ∧ (s.chip.torusOk = true) ∧ (l ≠ 255#8 ∨ t = false) ∧ (trainTries n s.chip ≤ (s.chip.link n).tries) ∧ (s.chip.rg (ra (pgPort n) 0x10) = 0) :=
  ⟨ups (((chipOn.setRg (ra pgLrt 0x104) 0x10102)).setLink 1 { st := 6, tries := 15, carried := true }), 1, 254#8, true, by decide⟩
theorem wit_PortTraining_7 : ∃ (s : State) (n : PortId) (l : Byte) (t : Bool), (s.chip.isOn) ∧ ((s.chip.link n).st = 1 ∨ (s.chip.link n).st = 6) ∧ (s.chip.torusOk = false) :=
  ⟨ups ((chipOn).setLink 1 { st := 1, tries := 1 }), 1, 254#8, true, by decide⟩
theorem wit_PortTraining_8a : ∃ (s : State) (n : PortId) (l : Byte), (s.chip.isOn) ∧ (s.chip.torusOk = true) ∧ ((2 ≤ (s.chip.link n).st ∧ (s.chip.link n).st ≤ 5 ∧ l ≠ 255#8) ∨ ((s.chip.link n).st = 9 ∧ bit 0 l.toNat = false)) :=
  ⟨ups (((chipOn.setRg (ra pgLrt 0x104) 0x10102)).setLink 5 { st := 4 }), 5, 0#8, by decide⟩
theorem wit_PortTraining_8b : ∃ (s : State) (n : PortId) (l : Byte), (s.chip.isOn) ∧ (s.chip.torusOk = true) ∧ ((2 ≤ (s.chip.link n).st ∧ (s.chip.link n).st ≤ 5 ∧ l ≠ 255#8) ∨ ((s.chip.link n).st = 9 ∧ bit 0 l.toNat = false)) :=
  ⟨ups (((chipOn.setRg (ra pgLrt 0x104) 0x10102)).setLink 5 { st := 9 }), 5, 254#8, by decide⟩
theorem wit_PortTraining_9 : ∃ (s : State) (n : PortId) (l : Byte), (s.chip.isOn) ∧ ((s.chip.link n).st = 1 ∨ (s.chip.link n).st = 6) ∧ (l ≠ 255#8) :=
  ⟨ups ((chipOn).setLink 5 { st := 6 }), 5, 0#8, by decide⟩
theorem wit_PortTraining_10 : ∃ (s : State) (n : PortId) (l : Byte), (s.chip.isOn) ∧ (l = 255#8 ∨ ((s.chip.link n).st = 9 ∧ bit 0 l.toNat = true)) :=
  ⟨ups ((chipOn).setLink 5 { st := 9 }), 5, 1#8, by decide⟩
theorem wit_PortTraining_11 : ∃ (s : State) (n : PortId), (s.chip.isOn) ∧ (wasUp (s.chip.link n) = false) ∧ ((s.chip.link n).st ≠ 7) :=
  ⟨ups ((chipOn).setLink 5 { st := 5 }), 5, by decide⟩
theorem wit_PortTraining_12a : ∃ (s : State) (n : PortId), (s.chip.isOn) ∧ (wasUp (s.chip.link n) = true) ∧ ((s.chip.link n).st ≠ 7) ∧ (s.chip.rg (ra (pgPort n) 0x10) = 0) :=
  ⟨ups ((chipOn).setLink 5 { st := 4 }), 5, by decide⟩
theorem wit_PortTraining_12b : ∃ (s : State) (n : PortId), (s.chip.isOn) ∧ (wasUp (s.chip.link n) = true) ∧ ((s.chip.link n).st ≠ 7) ∧ (s.chip.rg (ra (pgPort n) 0x10) = 0) :=
  ⟨ups ((chipOn).setLink 5 { st := 6, carried := true, queue := [{ flits := [[1#8]] }] }), 5, by decide⟩
theorem wit_PortTraining_13 : ∃ (s : State) (n : PortId), (s.chip.isOn) ∧ ((s.chip.link n).st = 7) :=
  ⟨ups ((chipOn).setLink 5 { st := 7 }), 5, by decide⟩
theorem wit_PortTraining_14 : ∃ (s : State) (n : PortId), (s.chip.isOn) ∧ (s.chip.torusOk = true) ∧ (s.chip.size (n / 2) ≠ 1) ∧ (s.chip.enabled (pgPort n) = true) ∧ ((s.chip.link n).st = 0) ∧ ((s.chip.link n).left = true) :=
  ⟨ups ((((chipOn.setRg (ra pgLrt 0x104) 0x10102).setRg (ra (pgPort 0) 8) 1)).setLink 0 { left := true }), 0, by decide⟩
theorem wit_PortTraining_15 : ∃ (s : State) (n : PortId), (s.chip.isOn) ∧ ((s.chip.link n).left = false ∨ (s.chip.link n).st ≠ 0) :=
  ⟨up, 0, by decide⟩
theorem wit_Admission_1 : ∃ (s : State) (n : PortId), (s.chip.isOn) ∧ ((s.chip.link n).st = 1 ∨ (s.chip.link n).st = 6) ∧ ((s.chip.link n).identIn = false ∨ (s.chip.link n).identOut = false) :=
  ⟨ups ((chipOn).setLink 2 { st := 1 }), 2, by decide⟩
theorem wit_Admission_2 : ∃ (s : State) (n : PortId), (s.chip.isOn) ∧ (((s.chip.link n).st ≠ 1 ∧ (s.chip.link n).st ≠ 6) ∨ ((s.chip.link n).identIn = true ∧ (s.chip.link n).identOut = true)) :=
  ⟨up, 2, by decide⟩
theorem wit_Admission_3 : ∃ (s : State) (n : PortId) (b : List Byte), (s.chip.isOn) ∧ (s.chip.torusOk = true) ∧ ((s.chip.link n).locked = 255) ∧ ((s.chip.link n).st = 1) ∧ (identCheck s.chip n b = 0) ∧ (bit 0 (s.chip.rg (ra pgLrt 0x118)) = true) :=
  ⟨ups (identChip 1), 0, identBody (identPeer 1) 1, by decide +kernel⟩
theorem wit_Admission_4 : ∃ (s : State) (n : PortId) (b : List Byte), (s.chip.isOn) ∧ (s.chip.torusOk = true) ∧ ((s.chip.link n).locked = 255) ∧ ((s.chip.link n).st = 1) ∧ (identCheck s.chip n b = 0) ∧ (bit 0 (s.chip.rg (ra pgLrt 0x118)) = false) :=
  ⟨ups (identChip 0), 0, identBody (identPeer 1) 1, by decide +kernel⟩
theorem wit_Admission_5 : ∃ (s : State) (n : PortId) (b : List Byte) (code : Nat), (s.chip.isOn) ∧ (s.chip.torusOk = true) ∧ ((s.chip.link n).locked = 255) ∧ ((s.chip.link n).st = 1) ∧ (identCheck s.chip n b = code) ∧ (code ≠ 0) :=
  ⟨ups (((chipOn.setRg (ra pgLrt 0x104) 0x10102)).setLink 0 { st := 1, locked := 255 }), 0, [], 6, by decide⟩
theorem wit_Admission_6 : ∃ (s : State) (n : PortId) (b : List Byte) (q : Peer), (s.chip.isOn) ∧ (s.chip.torusOk = true) ∧ ((s.chip.link n).locked = 255) ∧ ((s.chip.link n).st = 6) ∧ ((s.chip.link n).peer = some q) ∧ (q.module = (peerOf b).module ∧ q.port = (peerOf b).port ∧ q.digest = (peerOf b).digest) :=
  ⟨ups ((identChip 0).setLink 0 { st := 6, locked := 255, prev := 4, peer := some (peerOf (identBody (identPeer 1) 1)), replay := [{}], txSeq := 1 }), 0, identBody (identPeer 1) 1, peerOf (identBody (identPeer 1) 1), by decide +kernel⟩
theorem wit_Admission_7 : ∃ (s : State) (n : PortId) (b : List Byte), (s.chip.isOn) ∧ (s.chip.torusOk = true) ∧ ((s.chip.link n).locked = 255) ∧ ((s.chip.link n).st = 6) ∧ (∀ q ∈ (s.chip.link n).peer, ¬ (q.module = (peerOf b).module ∧ q.port = (peerOf b).port ∧ q.digest = (peerOf b).digest)) ∧ (identCheck s.chip n b = 0) ∧ (bit 0 (s.chip.rg (ra pgLrt 0x118)) = false) :=
  ⟨ups ((identChip 0).setLink 0 { st := 6, locked := 255, prev := 4, replay := [{}], txSeq := 1 }), 0, identBody (identPeer 1) 1, by decide +kernel⟩
theorem wit_Admission_8 : ∃ (s : State) (n : PortId) (b : List Byte), (s.chip.isOn) ∧ ((s.chip.link n).st = 1 ∨ (s.chip.link n).st = 6) ∧ (s.chip.torusOk = true) ∧ ((s.chip.link n).locked ≠ 255) :=
  ⟨ups (((chipOn.setRg (ra pgLrt 0x104) 0x10102)).setLink 0 { st := 1, locked := 3 }), 0, [1#8], by decide⟩
theorem wit_Admission_9 : ∃ (s : State) (n : PortId), (s.chip.isOn) ∧ ((s.chip.link n).st = 3) ∧ ((s.chip.link n).gotAdmit = false) :=
  ⟨ups ((chipOn).setLink 2 { st := 3 }), 2, by decide⟩
theorem wit_Admission_10a : ∃ (s : State) (n : PortId) (p : Peer), (s.chip.isOn) ∧ ((s.chip.link n).st = 3) ∧ ((s.chip.link n).gotAdmit = true) ∧ ((s.chip.link n).peer = some p) :=
  ⟨ups ((chipOn).setLink 2 { st := 3, gotAdmit := true, peer := some {} }), 2, {}, by decide⟩
theorem wit_Admission_10b : ∃ (s : State) (n : PortId) (p : Peer), (s.chip.isOn) ∧ ((s.chip.link n).st = 3) ∧ ((s.chip.link n).gotAdmit = true) ∧ ((s.chip.link n).peer = some p) :=
  ⟨ups (({ chipOn with pwr := { st := 4 } } : Chip).setLink 2 { st := 3, gotAdmit := true, peer := some {} }), 2, {}, by decide⟩
theorem wit_Admission_11 : ∃ (s : State) (n : PortId), (s.chip.isOn) ∧ ((s.chip.link n).st ≠ 3) :=
  ⟨up, 2, by decide⟩
theorem wit_Admission_12 : ∃ (s : State) (n : PortId), (s.chip.isOn) ∧ ((s.chip.link n).st = 3) :=
  ⟨ups ((chipOn).setLink 2 { st := 3 }), 2, by decide⟩
theorem wit_Admission_13 : ∃ (s : State) (n : PortId), (s.chip.isOn) ∧ ((s.chip.link n).st ≠ 3) :=
  ⟨up, 2, by decide⟩
theorem wit_Admission_14 : ∃ (s : State) (n : PortId) (p : Peer), (s.chip.isOn) ∧ ((s.chip.link n).st = 2 ∨ (s.chip.link n).st = 3) ∧ ((s.chip.link n).sentAdmit = true) ∧ ((s.chip.link n).peer = some p) :=
  ⟨ups ((chipOn).setLink 2 { st := 2, sentAdmit := true, peer := some { slice := 1 } }), 2, { slice := 1 }, by decide⟩
theorem wit_Admission_15 : ∃ (s : State) (n : PortId), (s.chip.isOn) ∧ ((s.chip.link n).st = 2 ∨ (s.chip.link n).st = 3) ∧ ((s.chip.link n).sentAdmit = false) :=
  ⟨ups ((chipOn).setLink 2 { st := 3 }), 2, by decide⟩
theorem wit_Admission_16 : ∃ (s : State) (n : PortId), (s.chip.isOn) ∧ ((s.chip.link n).st ≠ 2) ∧ ((s.chip.link n).st ≠ 3) :=
  ⟨ups ((chipOn).setLink 2 { st := 4, lctlIn := [[2#8]] }), 2, by decide⟩
theorem wit_Admission_17 : ∃ (s : State) (n : PortId) (code : Nat), (s.chip.isOn) ∧ (1 ≤ (s.chip.link n).st) ∧ ((s.chip.link n).st ≤ 3) :=
  ⟨ups ((chipOn).setLink 2 { st := 2 }), 2, 3, by decide⟩
theorem wit_Admission_18 : ∃ (s : State) (n : PortId) (code : Nat), (s.chip.isOn) ∧ ((s.chip.link n).st = 0 ∨ 4 ≤ (s.chip.link n).st) :=
  ⟨ups ((chipOn).setLink 2 { st := 4, lctlIn := [[3#8]] }), 2, 1, by decide⟩
theorem wit_Admission_19a : ∃ (s : State) (n : PortId), (s.chip.isOn) ∧ ((s.chip.link n).st ≠ 0) ∧ ((s.chip.link n).st ≠ 7) :=
  ⟨ups ((chipOn).setLink 2 { st := 5 }), 2, by decide⟩
theorem wit_Admission_19b : ∃ (s : State) (n : PortId), (s.chip.isOn) ∧ ((s.chip.link n).st ≠ 0) ∧ ((s.chip.link n).st ≠ 7) :=
  ⟨ups ((chipOn).setLink 2 { st := 4 }), 2, by decide⟩
theorem wit_Admission_20 : ∃ (s : State) (n : PortId), (s.chip.isOn) ∧ ((s.chip.link n).st = 0 ∨ (s.chip.link n).st = 7) :=
  ⟨ups ((chipOn).setLink 2 { st := 7, lctlIn := [[4#8]] }), 2, by decide⟩
theorem wit_RoutingBanks_1a : ∃ (s : State) (hi : W32) (b : Nat), (s.chip.isOn) ∧ (s.chip.rtArmed = false) ∧ (b = s.chip.lowHalf (ra pgLrt 0x120) + 2 ^ 32 * (hi.toNat % 2 ^ 22)) :=
  ⟨up, 1#32, 2 ^ 32, by decide⟩
theorem wit_RoutingBanks_1b : ∃ (s : State) (hi : W32) (b : Nat), (s.chip.isOn) ∧ (s.chip.rtArmed = false) ∧ (b = s.chip.lowHalf (ra pgLrt 0x120) + 2 ^ 32 * (hi.toNat % 2 ^ 22)) :=
  ⟨up, 0#32, 0, by decide⟩
theorem wit_RoutingBanks_1c : ∃ (s : State) (hi : W32) (b : Nat), (s.chip.isOn) ∧ (s.chip.rtArmed = false) ∧ (b = s.chip.lowHalf (ra pgLrt 0x120) + 2 ^ 32 * (hi.toNat % 2 ^ 22)) :=
  ⟨ups { chipOn with pairStage := Tab.set (fun _ => none) [] (ra pgLrt 0x120) (some 5#32) }, 0#32, 5, by decide⟩
theorem wit_RoutingBanks_2 : ∃ (s : State) (hi : W32), (s.chip.isOn) ∧ (s.chip.rtArmed = true) :=
  ⟨ups { chipOn with rtArmed := true }, 1#32, by decide⟩
theorem wit_RoutingBanks_3a : ∃ (s : State), (s.chip.isReady) ∧ (s.chip.rtArmed = true) ∧ (s.chip.cascadeDue s.chip.rtAt = true) :=
  ⟨ups { chipOn with rtArmed := true, cad := { st := 3 } }, by decide⟩
theorem wit_RoutingBanks_3b : ∃ (s : State), (s.chip.isReady) ∧ (s.chip.rtArmed = true) ∧ (s.chip.cascadeDue s.chip.rtAt = true) :=
  ⟨ups { chipOn with rtArmed := true, rtAt := 3, cad := { st := 3, now := 9216, offFrom := 2, offTo := 5, onAt := some 6 } }, by decide⟩
theorem wit_RoutingBanks_4 : ∃ (s : State), (s.chip.isReady) ∧ (s.chip.rtArmed = false ∨ s.chip.cascadeDue s.chip.rtAt = false) :=
  ⟨ups { chipOn with rtArmed := true, rtAt := 1 }, by decide⟩
theorem wit_RoutingBanks_5 : ∃ (s : State), (s.chip.isOn) ∧ (s.chip.rtArmed = false) :=
  ⟨up, by decide⟩
theorem wit_RoutingBanks_6 : ∃ (s : State), (s.chip.isOn) ∧ (s.chip.rtArmed = true) :=
  ⟨ups { chipOn with rtArmed := true }, by decide⟩
theorem wit_RoutingBanks_7 : ∃ (s : State), (s.chip.isOn) :=
  ⟨up, by decide⟩
theorem wit_CollectiveContexts_1 : ∃ (s : State) (id : CollId) (l : List Byte) (w : List Nat), (s.chip.isPowered) ∧ (id.val ≠ 0) ∧ ((s.chip.coll id).st = 0) ∧ (s.chip.rg64 (ra pgLrt 0x204) % 128 = 0) ∧ (s.chip.rg64 (ra pgLrt 0x204) + 128 ≤ t0Size) ∧ (s.chip.tasRead (s.chip.rg64 (ra pgLrt 0x204)) 128 = .ok l) ∧ (w = leWords 32 l) ∧ (collMalformed w (gvCount (s.chip.grp (kGroup w))) = false) ∧ (collMalformed w 0 = false) ∧ (s.chip.grpBad (kGroup w) = false) ∧ (kMaskCores w ≠ []) ∧ (kWinOfs w + kWin w * kChunk w ≤ 0x800000) ∧ (kRingSum w = true → stagingFits w (kCores s.chip w).length = true) :=
  ⟨ups armChip, 5, _, barW, ⟨by decide, by decide, by decide, by decide, by decide, tasRead_direct _ (by decide) (by decide), by decide, by decide, by decide, by decide, by decide, by decide, by decide⟩⟩
theorem wit_CollectiveContexts_2a : ∃ (s : State) (id : CollId), (s.chip.isPowered) ∧ (id.val = 0 ∨ (s.chip.coll id).st ≠ 0) :=
  ⟨up, 0, by decide⟩
theorem wit_CollectiveContexts_2b : ∃ (s : State) (id : CollId), (s.chip.isPowered) ∧ (id.val = 0 ∨ (s.chip.coll id).st ≠ 0) :=
  ⟨ups (collChip 0 { st := 5 }), 5, by decide⟩
theorem wit_CollectiveContexts_3 : ∃ (s : State) (id : CollId), (s.chip.isPowered) ∧ (id.val ≠ 0) ∧ ((s.chip.coll id).st = 0) ∧ (s.chip.rg64 (ra pgLrt 0x204) % 128 ≠ 0 ∨ t0Size < s.chip.rg64 (ra pgLrt 0x204) + 128 ∨ s.chip.tasRead (s.chip.rg64 (ra pgLrt 0x204)) 128 = .access) :=
  ⟨ups (chipOn.setRg (ra pgLrt 0x204) 64), 5, by decide⟩
theorem wit_CollectiveContexts_4 : ∃ (s : State) (id : CollId) (l : List Byte), (s.chip.isPowered) ∧ (id.val ≠ 0) ∧ ((s.chip.coll id).st = 0) ∧ (s.chip.rg64 (ra pgLrt 0x204) % 128 = 0) ∧ (s.chip.rg64 (ra pgLrt 0x204) + 128 ≤ t0Size) ∧ (s.chip.tasRead (s.chip.rg64 (ra pgLrt 0x204)) 128 = .ok l) ∧ (collMalformed (leWords 32 l) 0 = true ∨
      (s.chip.grpBad (kGroup (leWords 32 l)) = false ∧ collMalformed (leWords 32 l) (gvCount (s.chip.grp (kGroup (leWords 32 l)))) = true)) :=
  ⟨ups chipOn, 5, _, ⟨by decide, by decide, by decide, by decide, by decide, tasRead_direct _ (by decide) (by decide), by decide⟩⟩
theorem wit_CollectiveContexts_5 : ∃ (s : State) (id : CollId) (l : List Byte), (s.chip.isPowered) ∧ (id.val ≠ 0) ∧ ((s.chip.coll id).st = 0) ∧ (s.chip.rg64 (ra pgLrt 0x204) % 128 = 0) ∧ (s.chip.rg64 (ra pgLrt 0x204) + 128 ≤ t0Size) ∧ (s.chip.tasRead (s.chip.rg64 (ra pgLrt 0x204)) 128 = .ok l) ∧ (collMalformed (leWords 32 l) 0 = false) ∧ (s.chip.grpBad (kGroup (leWords 32 l)) = true) :=
  ⟨ups (armChip.setRg (ra pgLrt 0x800) 0), 5, _, ⟨by decide, by decide, by decide, by decide, by decide, tasRead_direct _ (by decide) (by decide), by decide, by decide⟩⟩
theorem wit_CollectiveContexts_6 : ∃ (s : State) (id : CollId) (l : List Byte) (w : List Nat), (s.chip.isPowered) ∧ (id.val ≠ 0) ∧ ((s.chip.coll id).st = 0) ∧ (s.chip.rg64 (ra pgLrt 0x204) % 128 = 0) ∧ (s.chip.rg64 (ra pgLrt 0x204) + 128 ≤ t0Size) ∧ (s.chip.tasRead (s.chip.rg64 (ra pgLrt 0x204)) 128 = .ok l) ∧ (w = leWords 32 l) ∧ (collMalformed w (gvCount (s.chip.grp (kGroup w))) = false) ∧ (collMalformed w 0 = false) ∧ (s.chip.grpBad (kGroup w) = false) ∧ (kMaskCores w = [] ∨ 0x800000 < kWinOfs w + kWin w * kChunk w ∨ (kRingSum w = true ∧ stagingFits w (kCores s.chip w).length = false)) :=
  ⟨ups (armChip.store 0x10038 [0]), 5, _, barW.set 14 0, ⟨by decide, by decide, by decide, by decide, by decide, tasRead_direct _ (by decide) (by decide), by decide, by decide, by decide, by decide, by decide⟩⟩
theorem wit_CollectiveContexts_7 : ∃ (s : State) (id : CollId), (s.chip.isPowered) ∧ ((s.chip.coll id).st = 1 ∨ (s.chip.coll id).st = 5) :=
  ⟨ups (collChip 0 { st := 5 }), 5, by decide⟩
theorem wit_CollectiveContexts_8 : ∃ (s : State) (id : CollId), (s.chip.isPowered) ∧ ((s.chip.coll id).st ≠ 1) ∧ ((s.chip.coll id).st ≠ 5) :=
  ⟨ups (collChip 0 { st := 2 }), 5, by decide⟩
theorem wit_CollectiveContexts_9a : ∃ (s : State) (id : CollId) (f : Nat), (s.chip.isPowered) ∧ ((s.chip.coll id).st = 1 ∨ ((s.chip.coll id).st = 4 ∧ (s.chip.coll id).ring = none)) ∧ (ringOwned s.chip id = false) ∧ (cntHeld s.chip (s.chip.coll id) = false) ∧ (f = flagReg 0 (kStart (s.chip.coll id).words)) ∧ (1 ≤ s.chip.rg f) ∧ (∀ n ∈ kMaskCores (s.chip.coll id).words, (s.chip.core n).provSet = []) :=
  ⟨ups ((collChip 0 { st := 1, words := barW }).setRg (flagReg 0 0) 1), 5, flagReg 0 0, by decide⟩
theorem wit_CollectiveContexts_9b : ∃ (s : State) (id : CollId) (f : Nat), (s.chip.isPowered) ∧ ((s.chip.coll id).st = 1 ∨ ((s.chip.coll id).st = 4 ∧ (s.chip.coll id).ring = none)) ∧ (ringOwned s.chip id = false) ∧ (cntHeld s.chip (s.chip.coll id) = false) ∧ (f = flagReg 0 (kStart (s.chip.coll id).words)) ∧ (1 ≤ s.chip.rg f) ∧ (∀ n ∈ kMaskCores (s.chip.coll id).words, (s.chip.core n).provSet = []) :=
  ⟨ups ((collChip 0 { st := 4, words := agW, parts := 2 }).setRg (flagReg 0 0) 1), 5, flagReg 0 0, by decide⟩
theorem wit_CollectiveContexts_10a : ∃ (s : State) (id : CollId) (w : List Nat), (s.chip.isPowered) ∧ (w = (s.chip.coll id).words) ∧ ((s.chip.coll id).st = 1 ∨ ((s.chip.coll id).st = 4 ∧ (s.chip.coll id).ring = none)) ∧ (ringOwned s.chip id = false) ∧ (1 ≤ s.chip.rg (flagReg 0 (kStart w))) ∧ (∀ n ∈ kMaskCores w, (s.chip.core n).provSet = []) ∧ (kRouter w = false) ∧ ((kOp w = 5 ∨ kOp w = 6) ∨ ((kOp w = 1 ∨ kOp w = 2) ∧ kCores s.chip w ≠ [] ∧ stagingFits w (kCores s.chip w).length = true)) :=
  ⟨ups ((collChip 0 { st := 1, words := barW }).setRg (flagReg 0 0) 1), 5, barW, by decide⟩
theorem wit_CollectiveContexts_10b : ∃ (s : State) (id : CollId) (w : List Nat), (s.chip.isPowered) ∧ (w = (s.chip.coll id).words) ∧ ((s.chip.coll id).st = 1 ∨ ((s.chip.coll id).st = 4 ∧ (s.chip.coll id).ring = none)) ∧ (ringOwned s.chip id = false) ∧ (1 ≤ s.chip.rg (flagReg 0 (kStart w))) ∧ (∀ n ∈ kMaskCores w, (s.chip.core n).provSet = []) ∧ (kRouter w = false) ∧ ((kOp w = 5 ∨ kOp w = 6) ∨ ((kOp w = 1 ∨ kOp w = 2) ∧ kCores s.chip w ≠ [] ∧ stagingFits w (kCores s.chip w).length = true)) :=
  ⟨ups ((collChip 0 { st := 4, words := bcW, parts := 2 }).setRg (flagReg 0 0) 1), 5, bcW, by decide⟩
theorem wit_CollectiveContexts_11 : ∃ (s : State) (id : CollId), (s.chip.isPowered) ∧ (s.chip.rg (flagReg 0 (kStart (s.chip.coll id).words)) = 0 ∨ ringOwned s.chip id = true ∨ (s.chip.coll id).st = 0 ∨ (s.chip.coll id).st = 2 ∨ (s.chip.coll id).st = 3 ∨ (s.chip.coll id).st = 5 ∨
      ∃ n ∈ kMaskCores (s.chip.coll id).words, (s.chip.core n).provSet ≠ []) :=
  ⟨ups (collChip 0 { st := 1, words := barW }), 5, by decide⟩
theorem wit_CollectiveStreams_1 : ∃ (s : State) (id : CollId) (k : Chip) (x : Coll) (t : TxStream), (s.chip.isPowered) ∧ ((s.chip.coll id).st = 2) ∧ ((s.chip.coll id).asked = false) ∧ (k = s.chip.caught id) ∧ (x = k.coll id) ∧ (x.st = 2) ∧ (x.asked = false) ∧ (x.tx.find? (fun y => y.dst == t.dst) = some t) ∧ (t.dst < 256) ∧ (kMulti x.words = false) ∧ (chunkReady k x t.dst t.next = true) ∧ (t.next < t.total) ∧ (t.next < t.freed + kInfl x.words) ∧ (kOp x.words = 4 → ∀ y ∈ x.tx.takeWhile (fun y => y.dst != t.dst), y.total ≤ y.next) ∧ (kOp x.words ≠ 4 → forwardable x t.next = true ∧ forwardOk k x t.next = true) :=
  ⟨ups (collChip 0 { st := 2, words := agW, parts := 2, tx := [{ dst := 1, total := 1 }], dstCk := [(0, 0)] }), 5, Chip.caught (collChip 0 { st := 2, words := agW, parts := 2, tx := [{ dst := 1, total := 1 }], dstCk := [(0, 0)] }) 5, (Chip.caught (collChip 0 { st := 2, words := agW, parts := 2, tx := [{ dst := 1, total := 1 }], dstCk := [(0, 0)] }) 5).coll 5, { dst := 1, total := 1 }, by decide +kernel⟩
theorem wit_CollectiveStreams_2 : ∃ (s : State) (id : CollId) (k : Chip) (x : Coll) (t : TxStream) (a n : Nat) (l : List Byte), (s.chip.isPowered) ∧ ((s.chip.coll id).st = 2) ∧ ((s.chip.coll id).asked = false) ∧ (k = s.chip.caught id) ∧ (x = k.coll id) ∧ (x.st = 2) ∧ (x.asked = false) ∧ (x.tx = [t]) ∧ (t.dst < 256) ∧ (kMulti x.words = false) ∧ (t.next < t.total) ∧ (t.next < t.freed + kInfl x.words) ∧ (kOp x.words ≠ 4 → forwardable x t.next = true ∧ forwardOk k x t.next = true) ∧ ((a, n) = chunkPlace k x t.dst t.next) ∧ (n ≠ 0) ∧ (k.tasRead a n = .ok l) :=
  ⟨ups (collChip 0 { st := 2, words := agW, parts := 2, tx := [{ dst := 1, total := 1 }], dstCk := [(0, 0)] }), 5, Chip.caught (collChip 0 { st := 2, words := agW, parts := 2, tx := [{ dst := 1, total := 1 }], dstCk := [(0, 0)] }) 5, (Chip.caught (collChip 0 { st := 2, words := agW, parts := 2, tx := [{ dst := 1, total := 1 }], dstCk := [(0, 0)] }) 5).coll 5, { dst := 1, total := 1 }, 0x2000, 4, List.replicate 4 0#8, by decide +kernel⟩
theorem wit_CollectiveStreams_3 : ∃ (s : State) (id : CollId) (k : Chip) (x : Coll) (t : TxStream) (a n : Nat) (l : List Byte), (s.chip.isPowered) ∧ ((s.chip.coll id).st = 2) ∧ ((s.chip.coll id).asked = false) ∧ (k = s.chip.caught id) ∧ (x = k.coll id) ∧ (x.st = 2) ∧ (x.asked = false) ∧ (x.tx.find? (fun y => y.dst == 256) = some t) ∧ (t.dst = 256) ∧ (kRouter x.words = false) ∧ (t.next < t.total) ∧ (windowOpen x t = true) ∧ ((a, n) = chunkPlace k x 256 t.next) ∧ (k.tasRead a n = .ok l) :=
  ⟨ups (collChip 0 { st := 2, words := bcW, parts := 2, tx := [{ dst := 256, total := 1 }, { dst := 1, total := 1 }] }), 5, Chip.caught (collChip 0 { st := 2, words := bcW, parts := 2, tx := [{ dst := 256, total := 1 }, { dst := 1, total := 1 }] }) 5, (Chip.caught (collChip 0 { st := 2, words := bcW, parts := 2, tx := [{ dst := 256, total := 1 }, { dst := 1, total := 1 }] }) 5).coll 5, { dst := 256, total := 1 }, 0x2000, 4, List.replicate 4 0#8, by decide +kernel⟩
theorem wit_CollectiveStreams_4 : ∃ (s : State) (id : CollId) (k : Chip) (x : Coll) (t : TxStream) (q : Nat × List Byte), (s.chip.isPowered) ∧ ((s.chip.coll id).st = 2) ∧ ((s.chip.coll id).asked = false) ∧ (k = s.chip.caught id) ∧ (x = k.coll id) ∧ (x.st = 2) ∧ (x.asked = false) ∧ (x.tx.find? (fun y => y.dst == 256) = some t) ∧ (t.dst = 256) ∧ (kRouter x.words = true) ∧ (t.next < t.total) ∧ (windowOpen x t = true) ∧ (x.results.find? (fun r => r.1 == t.next) = some q) :=
  ⟨ups (collChip 0 { st := 2, words := [9, 4, 0x4040C, 8, 0x2000, 0, 0x8000, 0, 0, 0, 0, 0, 0, 16, 1] ++ List.replicate 17 0, parts := 2, tx := [{ dst := 256, total := 1 }, { dst := 1, total := 1 }], pieces := [{ idx := 0, acc := [1, 2, 3, 4], sent := true }], results := [(0, [1, 2, 3, 4])] }), 5, Chip.caught (collChip 0 { st := 2, words := [9, 4, 0x4040C, 8, 0x2000, 0, 0x8000, 0, 0, 0, 0, 0, 0, 16, 1] ++ List.replicate 17 0, parts := 2, tx := [{ dst := 256, total := 1 }, { dst := 1, total := 1 }], pieces := [{ idx := 0, acc := [1, 2, 3, 4], sent := true }], results := [(0, [1, 2, 3, 4])] }) 5, (Chip.caught (collChip 0 { st := 2, words := [9, 4, 0x4040C, 8, 0x2000, 0, 0x8000, 0, 0, 0, 0, 0, 0, 16, 1] ++ List.replicate 17 0, parts := 2, tx := [{ dst := 256, total := 1 }, { dst := 1, total := 1 }], pieces := [{ idx := 0, acc := [1, 2, 3, 4], sent := true }], results := [(0, [1, 2, 3, 4])] }) 5).coll 5, { dst := 256, total := 1 }, (0, [1, 2, 3, 4]), by decide +kernel⟩
theorem wit_CollectiveStreams_5 : ∃ (s : State) (id : CollId) (k : Chip) (x : Coll) (t g : TxStream), (s.chip.isPowered) ∧ ((s.chip.coll id).st = 2) ∧ ((s.chip.coll id).asked = false) ∧ (k = s.chip.caught id) ∧ (x = k.coll id) ∧ (x.st = 2) ∧ (x.asked = false) ∧ (x.tx.find? (fun y => y.dst == t.dst) = some t) ∧ (t.dst < 256) ∧ (kMulti x.words = true) ∧ (chunkReady k x t.dst t.next = true) ∧ (t.det = true) ∧ (x.tx.find? (fun y => y.dst == 256) = some g) ∧ (t.next < g.next) ∧ (t.next < t.landed + max 1 (kInfl x.words)) :=
  ⟨ups (collChip 0 { st := 2, words := bcW, parts := 2, tx := [{ dst := 256, total := 1, next := 1 }, { dst := 1, total := 1, det := true }] }), 5, Chip.caught (collChip 0 { st := 2, words := bcW, parts := 2, tx := [{ dst := 256, total := 1, next := 1 }, { dst := 1, total := 1, det := true }] }) 5, (Chip.caught (collChip 0 { st := 2, words := bcW, parts := 2, tx := [{ dst := 256, total := 1, next := 1 }, { dst := 1, total := 1, det := true }] }) 5).coll 5, { dst := 1, total := 1, det := true }, { dst := 256, total := 1, next := 1 }, by decide +kernel⟩
theorem wit_CollectiveStreams_6 : ∃ (s : State) (id : CollId) (k : Chip) (x : Coll) (dst : Nat), (s.chip.isPowered) ∧ ((s.chip.coll id).st = 2) ∧ ((s.chip.coll id).asked = false) ∧ (k = s.chip.caught id) ∧ (x = k.coll id) ∧ (x.st = 2) ∧ (x.asked = false) ∧ (∀ t ∈ x.tx.find? (fun y => y.dst == min dst 256), t.dst ≠ 256 ∧ kMulti x.words = false ∧ (t.total ≤ t.next ∨ t.freed + kInfl x.words ≤ t.next)) :=
  ⟨ups (collChip 0 { st := 2, words := barW, parts := 2 }), 5, Chip.caught (collChip 0 { st := 2, words := barW, parts := 2 }) 5, (Chip.caught (collChip 0 { st := 2, words := barW, parts := 2 }) 5).coll 5, 3, by decide +kernel⟩
theorem wit_CollectiveStreams_7 : ∃ (s : State) (id : CollId) (k : Chip) (x : Coll) (t : TxStream), (s.chip.isPowered) ∧ ((s.chip.coll id).st = 2) ∧ ((s.chip.coll id).asked = false) ∧ (k = s.chip.caught id) ∧ (x = k.coll id) ∧ (x.st = 2) ∧ (x.asked = false) ∧ (x.tx.find? (fun y => y.dst == 256) = some t) ∧ (t.dst = 256) ∧ (t.total ≤ t.next ∨ windowOpen x t = false) :=
  ⟨ups (collChip 0 { st := 2, words := bcW, parts := 2, tx := [{ dst := 256, total := 9, next := 4 }, { dst := 1, total := 9 }] }), 5, Chip.caught (collChip 0 { st := 2, words := bcW, parts := 2, tx := [{ dst := 256, total := 9, next := 4 }, { dst := 1, total := 9 }] }) 5, (Chip.caught (collChip 0 { st := 2, words := bcW, parts := 2, tx := [{ dst := 256, total := 9, next := 4 }, { dst := 1, total := 9 }] }) 5).coll 5, { dst := 256, total := 9, next := 4 }, by decide +kernel⟩
theorem wit_CollectiveStreams_8 : ∃ (s : State) (id : CollId) (dst : Nat), (s.chip.isPowered) ∧ ((s.chip.coll id).st ≠ 2 ∨ (s.chip.coll id).asked = true) :=
  ⟨up, 5, 0, by decide⟩
theorem wit_CollectiveStreams_9 : ∃ (s : State) (p : Packet) (r : RxStream) (l : List Byte), (s.chip.isPowered) ∧ (s.chip.nowPkt 0x20 p) ∧ (s.chip.dataRoom p) ∧ (getRx (s.chip.coll (hId p)) (hRank s.chip (s.chip.coll (hId p)) p) = some r) ∧ (hChunk p ∉ r.landed) ∧ ((assemble r p).2 = some l) ∧ (crc32 l = hCk p) :=
  ⟨ups (collChip 0 { st := 2, words := agW, parts := 2, rx := [{ src := 1 }] }), ckPkt 0x20 1 (crc32 [1#8, 2#8]) [1#8, 2#8], { src := 1 }, [1#8, 2#8], by decide +kernel⟩
theorem wit_CollectiveStreams_10 : ∃ (s : State) (id k : Nat) (p : Packet) (r : RxStream) (l : List Byte), (s.chip.isPowered) ∧ (s.chip.nowPkt 0x20 p) ∧ (id = hId p) ∧ (k = hChunk p) ∧ (kRouter (s.chip.coll id).words = false) ∧ (kOp (s.chip.coll id).words = 1 ∨ kOp (s.chip.coll id).words = 3) ∧ ((s.chip.coll id).nred ≤ k) ∧ ((s.chip.coll id).rx = [r]) ∧ (r.src = hRank s.chip (s.chip.coll id) p) ∧ (k ∉ r.landed) ∧ (hPart p = 0) ∧ (hLast p = true) ∧ (r.asm = []) ∧ (l = p.body.drop 16) ∧ (crc32 l = hCk p) ∧ (l ≠ []) ∧ ((s.chip.coll id).dstAddr ((s.chip.coll id).rxShard k) (k % (s.chip.coll id).nc) + l.length ≤ t0Size) ∧ ((s.chip.coll id).dstAddr ((s.chip.coll id).rxShard k) (k % (s.chip.coll id).nc) % payloadSize + l.length ≤ payloadSize) ∧ (∀ i < l.length, s.chip.guarded ((s.chip.coll id).dstAddr ((s.chip.coll id).rxShard k) (k % (s.chip.coll id).nc) + i) = false) :=
  ⟨ups (collChip 0 { st := 2, words := agW, parts := 2, rx := [{ src := 1 }] }), 5, 0, ckPkt 0x20 1 (crc32 [1#8, 2#8]) [1#8, 2#8], { src := 1 }, [1#8, 2#8], by decide +kernel⟩
theorem wit_CollectiveStreams_11 : ∃ (s : State) (id k : Nat) (p : Packet) (r : RxStream) (l o : List Byte), (s.chip.isPowered) ∧ (s.chip.nowPkt 0x20 p) ∧ (s.chip.dataRoom p) ∧ (id = hId p) ∧ (k = hChunk p) ∧ (kRingSum (s.chip.coll id).words = true) ∧ (k < (s.chip.coll id).nred) ∧ ((s.chip.coll id).rx = [r]) ∧ (r.src = hRank s.chip (s.chip.coll id) p) ∧ (k ∉ r.landed) ∧ ((assemble r p).2 = some l) ∧ (crc32 l = hCk p) ∧ (l.length ≤ kChunk (s.chip.coll id).words) ∧ (s.chip.tasRead (kSrc (s.chip.coll id).words + (s.chip.coll id).rxShard k * (s.chip.coll id).shard + k % (s.chip.coll id).nc * kChunk (s.chip.coll id).words) l.length = .ok o) ∧ (o.length = l.length) :=
  ⟨ups (collChip 0 { st := 2, words := rsW, parts := 2, cores := [0], rx := [{ src := 1 }] }), 5, 0, ckPkt 0x20 1 (crc32 [1#8, 2#8]) [1#8, 2#8], { src := 1 }, [1#8, 2#8], [0#8, 0#8], by decide +kernel⟩
theorem wit_CollectiveStreams_12 : ∃ (s : State) (p : Packet) (r : RxStream), (s.chip.isPowered) ∧ (s.chip.nowPkt 0x20 p) ∧ (s.chip.dataRoom p) ∧ (getRx (s.chip.coll (hId p)) (hRank s.chip (s.chip.coll (hId p)) p) = some r) ∧ (hChunk p ∉ r.landed) ∧ ((assemble r p).2 = none) :=
  ⟨ups (collChip 0 { st := 2, words := agW, parts := 2, rx := [{ src := 1 }] }), { ckPkt 0x20 1 0 [] with body := collHdr 5 0 0 0 0 0 0 0 0 9 ++ [1] }, { src := 1 }, by decide +kernel⟩
theorem wit_CollectiveStreams_13 : ∃ (s : State) (p : Packet) (r : RxStream) (l : List Byte), (s.chip.isPowered) ∧ (s.chip.nowPkt 0x20 p) ∧ (s.chip.dataRoom p) ∧ (getRx (s.chip.coll (hId p)) (hRank s.chip (s.chip.coll (hId p)) p) = some r) ∧ (hChunk p ∉ r.landed) ∧ ((assemble r p).2 = some l) ∧ (crc32 l ≠ hCk p) ∧ (hChunk p ∉ r.bad) :=
  ⟨ups (collChip 0 { st := 2, words := agW, parts := 2, rx := [{ src := 1 }] }), ckPkt 0x20 1 1 [1#8], { src := 1 }, [1#8], by decide +kernel⟩
theorem wit_CollectiveStreams_14 : ∃ (s : State) (p : Packet) (r : RxStream) (l : List Byte), (s.chip.isPowered) ∧ (s.chip.nowPkt 0x20 p) ∧ (s.chip.dataRoom p) ∧ (getRx (s.chip.coll (hId p)) (hRank s.chip (s.chip.coll (hId p)) p) = some r) ∧ (hChunk p ∉ r.landed) ∧ ((assemble r p).2 = some l) ∧ (crc32 l ≠ hCk p) ∧ (hChunk p ∈ r.bad) :=
  ⟨ups (collChip 0 { st := 2, words := agW, parts := 2, rx := [{ src := 1, bad := [0] }] }), ckPkt 0x20 1 1 [1#8], { src := 1, bad := [0] }, [1#8], by decide +kernel⟩
theorem wit_CollectiveStreams_15 : ∃ (s : State) (p : Packet), (s.chip.isPowered) ∧ (s.chip.nowPkt 0x20 p) ∧ (s.chip.dataRoom p) ∧ (∀ r ∈ getRx (s.chip.coll (hId p)) (hRank s.chip (s.chip.coll (hId p)) p), hChunk p ∈ r.landed) :=
  ⟨ups (collChip 0 { st := 2, words := agW, parts := 2 }), ckPkt 0x20 1 1 [1#8], by decide +kernel⟩
theorem wit_CollectiveStreams_16 : ∃ (s : State) (p : Packet), (s.chip.isPowered) ∧ (s.chip.nowPkt 0x20 p) ∧ (¬ s.chip.dataRoom p) :=
  ⟨ups (collChip 0 { st := 2, words := rsW, parts := 8, cores := [0], rx := [{ src := 1 }] }), { kind := 0x20, src := 1, body := collHdr 5 0 0 1 0 0 0 0 4 9 ++ [1] }, by decide +kernel⟩
theorem wit_CollectiveStreams_17 : ∃ (s : State) (p : Packet), (s.chip.isPowered) ∧ (s.chip.nowPkt 0x21 p) ∧ ((s.chip.coll (hId p)).detached = true) :=
  ⟨ups (collChip 0 { st := 2, words := bcW, detached := true }), ckPkt 0x21 1 0 [], by decide⟩
theorem wit_CollectiveStreams_18 : ∃ (s : State) (p : Packet) (r : RxStream) (l : List Byte), (s.chip.isPowered) ∧ (s.chip.nowPkt 0x21 p) ∧ ((s.chip.coll (hId p)).detached = false) ∧ (getRx (s.chip.coll (hId p)) (hRank s.chip (s.chip.coll (hId p)) p) = some r) ∧ (hChunk p ∉ r.landed) ∧ ((assemble r p).2 = some l) ∧ (crc32 l = hCk p) :=
  ⟨ups (collChip 1 { st := 2, words := bcW, parts := 2, rx := [{ src := 0 }] }), ckPkt 0x21 0 (crc32 [1#8, 2#8]) [1#8, 2#8], { src := 0 }, [1#8, 2#8], by decide +kernel⟩
theorem wit_CollectiveStreams_19 : ∃ (s : State) (p : Packet) (r : RxStream), (s.chip.isPowered) ∧ (s.chip.nowPkt 0x21 p) ∧ ((s.chip.coll (hId p)).detached = false) ∧ (getRx (s.chip.coll (hId p)) (hRank s.chip (s.chip.coll (hId p)) p) = some r) ∧ (hChunk p ∉ r.landed) ∧ ((assemble r p).2 = none) :=
  ⟨ups (collChip 1 { st := 2, words := bcW, parts := 2, rx := [{ src := 0 }] }), { ckPkt 0x21 0 0 [] with body := collHdr 5 0 0 0 0 0 0 0 0 9 ++ [1] }, { src := 0 }, by decide +kernel⟩
theorem wit_CollectiveStreams_20 : ∃ (s : State) (p : Packet) (r : RxStream) (l : List Byte), (s.chip.isPowered) ∧ (s.chip.nowPkt 0x21 p) ∧ ((s.chip.coll (hId p)).detached = false) ∧ (getRx (s.chip.coll (hId p)) (hRank s.chip (s.chip.coll (hId p)) p) = some r) ∧ (hChunk p ∉ r.landed) ∧ ((assemble r p).2 = some l) ∧ (crc32 l ≠ hCk p) ∧ (hChunk p ∉ r.bad) :=
  ⟨ups (collChip 1 { st := 2, words := bcW, parts := 2, rx := [{ src := 0 }] }), ckPkt 0x21 0 1 [1#8], { src := 0 }, [1#8], by decide +kernel⟩
theorem wit_CollectiveStreams_21 : ∃ (s : State) (id k : Nat) (p : Packet) (r : RxStream) (l : List Byte), (s.chip.isPowered) ∧ (s.chip.nowPkt 0x21 p) ∧ (id = hId p) ∧ (k = hChunk p) ∧ ((s.chip.coll id).detached = false) ∧ (kRouter (s.chip.coll id).words = false) ∧ (kOp (s.chip.coll id).words = 5) ∧ ((s.chip.coll id).rx = [r]) ∧ (r.src = hRank s.chip (s.chip.coll id) p) ∧ (k ∉ r.landed) ∧ (hPart p = 0) ∧ (hLast p = true) ∧ (r.asm = []) ∧ (l = p.body.drop 16) ∧ (crc32 l = hCk p) ∧ (l ≠ []) ∧ (kDst (s.chip.coll id).words + k * kChunk (s.chip.coll id).words + l.length ≤ t0Size) ∧ ((kDst (s.chip.coll id).words + k * kChunk (s.chip.coll id).words) % payloadSize + l.length ≤ payloadSize) ∧ (∀ i < l.length, s.chip.guarded (kDst (s.chip.coll id).words + k * kChunk (s.chip.coll id).words + i) = false) :=
  ⟨ups (collChip 1 { st := 2, words := bcW, parts := 2, rx := [{ src := 0 }] }), 5, 0, ckPkt 0x21 0 (crc32 [1#8, 2#8]) [1#8, 2#8], { src := 0 }, [1#8, 2#8], by decide +kernel⟩
theorem wit_CollectiveStreams_22 : ∃ (s : State) (id : Nat) (p : Packet), (s.chip.isPowered) ∧ (s.chip.nowPkt 0x22 p) ∧ (id = hId p) ∧ (∀ q ∈ (s.chip.coll id).pieces, q.idx ≠ hChunk p) ∧ (getRx (s.chip.coll id) (1000 + hRank s.chip (s.chip.coll id) p) = none) ∧ (hPart p = 0) ∧ (hLast p = true) ∧ (crc32 (p.body.drop 16) = hCk p) :=
  ⟨ups (collChip 0 { st := 2, words := agW, parts := 2 }), 5, ckPkt 0x22 1 (crc32 [1#8]) [1#8], by decide +kernel⟩
theorem wit_CollectiveStreams_23 : ∃ (s : State) (p : Packet) (n : Nat) (r : RxStream) (y : Coll) (l : List Byte), (s.chip.isPowered) ∧ (s.chip.nowPkt 0x22 p) ∧ (rpartWaits s.chip p = false) ∧ (n = (hRank s.chip (s.chip.coll (hId p)) p)) ∧ (r = (getRx (s.chip.coll (hId p)) (1000 + n)).getD { src := 1000 + n }) ∧ (y = { (s.chip.coll (hId p)) with rx := (s.chip.coll (hId p)).rx.filter (fun q => q.src != 1000 + n) ++ [(assemble r p).1] }) ∧ ((assemble r p).2 = some l) ∧ (crc32 l = hCk p) :=
  ⟨ups (collChip 0 { st := 2, words := agW, parts := 2 }), ckPkt 0x22 1 (crc32 [1#8]) [1#8], 1, { src := 1001 }, { st := 2, words := agW, parts := 2, rx := [{ src := 1001 }] }, [1#8], by decide +kernel⟩
theorem wit_CollectiveStreams_24 : ∃ (s : State) (p : Packet) (n : Nat) (r : RxStream) (y : Coll), (s.chip.isPowered) ∧ (s.chip.nowPkt 0x22 p) ∧ (rpartWaits s.chip p = false) ∧ (n = (hRank s.chip (s.chip.coll (hId p)) p)) ∧ (r = (getRx (s.chip.coll (hId p)) (1000 + n)).getD { src := 1000 + n }) ∧ (y = { (s.chip.coll (hId p)) with rx := (s.chip.coll (hId p)).rx.filter (fun q => q.src != 1000 + n) ++ [(assemble r p).1] }) ∧ ((assemble r p).2 = none) :=
  ⟨ups (collChip 0 { st := 2, words := agW, parts := 2 }), { ckPkt 0x22 1 0 [] with body := collHdr 5 0 0 0 0 0 0 0 0 9 ++ [1] }, 1, { src := 1001 }, { st := 2, words := agW, parts := 2, rx := [{ src := 1001, asm := [(0, 1, [1#8])] }] }, by decide +kernel⟩
theorem wit_CollectiveStreams_25 : ∃ (s : State) (p : Packet) (n : Nat) (r : RxStream) (y : Coll) (l : List Byte), (s.chip.isPowered) ∧ (s.chip.nowPkt 0x22 p) ∧ (rpartWaits s.chip p = false) ∧ (n = (hRank s.chip (s.chip.coll (hId p)) p)) ∧ (r = (getRx (s.chip.coll (hId p)) (1000 + n)).getD { src := 1000 + n }) ∧ (y = { (s.chip.coll (hId p)) with rx := (s.chip.coll (hId p)).rx.filter (fun q => q.src != 1000 + n) ++ [(assemble r p).1] }) ∧ ((assemble r p).2 = some l) ∧ (crc32 l ≠ hCk p) ∧ (n * 2 ^ 16 + hChunk p ∉ r.bad) :=
  ⟨ups (collChip 0 { st := 2, words := agW, parts := 2 }), ckPkt 0x22 1 9 [1#8], 1, { src := 1001 }, { st := 2, words := agW, parts := 2, rx := [{ src := 1001 }] }, [1#8], by decide +kernel⟩
theorem wit_CollectiveStreams_26 : ∃ (s : State) (p : Packet), (s.chip.isPowered) ∧ (p.kind = 0x22) ∧ (rpartWaits s.chip p = true) :=
  ⟨ups { collChip 0 { st := 2, words := [9, 0x20000, 0x4040C, 8, 0x2000, 0, 0x8000, 0, 0, 0, 0, 0, 0, 16, 1] ++ List.replicate 17 0, parts := 2, pieces := [{ idx := 0, acc := [1] }] } with delivered := List.replicate 16 (ckPkt 0x22 1 9 [1#8]) }, { ckPkt 0x22 1 9 [1#8] with due := 1 }, by decide +kernel⟩
theorem wit_CollectiveStreams_27 : ∃ (s : State) (p : Packet) (r : RxStream), (s.chip.isPowered) ∧ (s.chip.nowPkt 0x23 p) ∧ (ownHeld s.chip (s.chip.coll (hId p)) p = false) ∧ (queryOf s.chip p = none) ∧ ((s.chip.coll (hId p)).detached = false) ∧ (getRx (s.chip.coll (hId p)) (hRank s.chip (s.chip.coll (hId p)) p) = some r) ∧ (hChunk p ∉ r.bad) :=
  ⟨ups (collChip 0 { st := 2, words := agW, parts := 2, rx := [{ src := 1 }] }), ckPkt 0x23 1 0 [], { src := 1 }, by decide⟩
theorem wit_CollectiveStreams_28 : ∃ (s : State) (p : Packet) (r : RxStream) (l : List Byte), (s.chip.isPowered) ∧ (s.chip.nowPkt 0x23 p) ∧ (ownHeld s.chip (s.chip.coll (hId p)) p = false) ∧ (queryOf s.chip p = none) ∧ (getRx (s.chip.coll (hId p)) (hRank s.chip (s.chip.coll (hId p)) p) = some r) ∧ ((s.chip.coll (hId p)).detached = true ∨ hChunk p ∈ r.bad) ∧ (hChunk p ∉ r.landed) ∧ ((assemble r p).2 = some l) ∧ (crc32 l = hCk p) :=
  ⟨ups (collChip 1 { st := 2, words := bcW, parts := 2, detached := true, rx := [{ src := 0 }] }), ckPkt 0x23 0 (crc32 [1#8, 2#8]) [1#8, 2#8], { src := 0 }, [1#8, 2#8], by decide +kernel⟩
theorem wit_CollectiveStreams_29 : ∃ (s : State) (p : Packet) (r : RxStream), (s.chip.isPowered) ∧ (s.chip.nowPkt 0x23 p) ∧ (ownHeld s.chip (s.chip.coll (hId p)) p = false) ∧ (queryOf s.chip p = none) ∧ (getRx (s.chip.coll (hId p)) (hRank s.chip (s.chip.coll (hId p)) p) = some r) ∧ ((s.chip.coll (hId p)).detached = true ∨ hChunk p ∈ r.bad) ∧ (hChunk p ∉ r.landed) ∧ ((assemble r p).2 = none) :=
  ⟨ups (collChip 1 { st := 2, words := bcW, parts := 2, detached := true, rx := [{ src := 0 }] }), { ckPkt 0x23 0 0 [] with body := collHdr 5 0 0 0 0 0 0 0 0 9 ++ [1] }, { src := 0 }, by decide +kernel⟩
theorem wit_CollectiveStreams_30 : ∃ (s : State) (p : Packet) (x : Nat), (s.chip.isPowered) ∧ (p.kind = 0x23) ∧ (ownHeld s.chip (s.chip.coll (hId p)) p = false) ∧ (queryOf s.chip p = some x) :=
  ⟨ups qryChip, ckPkt 0x23 1 0 [], 3, by decide +kernel⟩
theorem wit_CollectiveStreams_31 : ∃ (s : State) (id : Nat) (p : Packet) (t : TxStream), (s.chip.isPowered) ∧ (s.chip.nowPkt 0x24 p) ∧ (queryOf s.chip p = none) ∧ (id = hId p) ∧ (kRingSum (s.chip.coll id).words = false) ∧ (kRouter (s.chip.coll id).words = false) ∧ ((s.chip.coll id).tx = [t]) ∧ (t.dst = hRank s.chip (s.chip.coll id) p) ∧ (t.dst ≠ 256) :=
  ⟨ups (collChip 0 { st := 2, words := agW, parts := 2, tx := [{ dst := 1 }] }), 5, ckPkt 0x24 1 7 [], { dst := 1 }, by decide⟩
theorem wit_CollectiveStreams_32 : ∃ (s : State) (p : Packet) (t : TxStream), (s.chip.isPowered) ∧ (s.chip.nowPkt 0x24 p) ∧ (queryOf s.chip p = none) ∧ (kRingSum (s.chip.coll (hId p)).words = false) ∧ ((s.chip.coll (hId p)).tx.find? (fun t => t.dst == (hRank s.chip (s.chip.coll (hId p)) p)) = some t) :=
  ⟨ups (collChip 0 { st := 2, words := bcW, parts := 2, tx := [{ dst := 256 }, { dst := 1 }] }), ckPkt 0x24 1 7 [], { dst := 1 }, by decide⟩
theorem wit_CollectiveStreams_33 : ∃ (s : State) (p : Packet) (t : TxStream) (r : RxStream) (m : List Nat), (s.chip.isPowered) ∧ (s.chip.nowPkt 0x24 p) ∧ (queryOf s.chip p = none) ∧ (kRingSum (s.chip.coll (hId p)).words = true) ∧ ((s.chip.coll (hId p)).tx.find? (fun t => t.dst == (hRank s.chip (s.chip.coll (hId p)) p)) = some t) ∧ ((s.chip.coll (hId p)).rx.head? = some r) ∧ (m = (s.chip.coll (hId p)).reduced.filter (fun j => !r.freed.contains j && decide (j + (s.chip.coll (hId p)).nc < max t.landed (hChunk p)))) :=
  ⟨ups (collChip 0 { st := 2, words := rsW, parts := 2, cores := [0], tx := [{ dst := 1 }], rx := [{ src := 1 }] }), ckPkt 0x24 1 7 [], { dst := 1 }, { src := 1 }, [], by decide⟩
theorem wit_CollectiveStreams_34 : ∃ (s : State) (p : Packet) (x m : Nat) (t : TxStream), (s.chip.isPowered) ∧ (p.kind = 0x24) ∧ (queryOf s.chip p = some x) ∧ (m = (memberAt s.chip (s.chip.ring x).words p.src).getD 0) ∧ ((s.chip.ring x).qtx.find? (fun t => t.dst == m) = some t) :=
  ⟨ups qryChip, ckPkt 0x24 1 0 [], 3, 1, { dst := 1, total := 1 }, by decide +kernel⟩
theorem wit_CollectiveStreams_35 : ∃ (s : State) (id : Nat) (p : Packet), (s.chip.isPowered) ∧ (s.chip.nowPkt 0x25 p) ∧ (queryOf s.chip p = none) ∧ (id = hId p) ∧ ((s.chip.coll id).tx.any (fun t => t.dst == hRank s.chip (s.chip.coll id) p) = true) ∧ (chunkReady s.chip (s.chip.coll (hId p)) (hRank s.chip (s.chip.coll (hId p)) p) (hChunk p) = true) :=
  ⟨ups (collChip 0 { st := 2, words := agW, parts := 2, tx := [{ dst := 1 }] }), 5, ckPkt 0x25 1 0 [], by decide +kernel⟩
theorem wit_CollectiveStreams_36 : ∃ (s : State) (p : Packet) (q : Piece), (s.chip.isPowered) ∧ (s.chip.nowPkt 0x25 p) ∧ (queryOf s.chip p = none) ∧ ((s.chip.coll (hId p)).tx.any (fun t => t.dst == (hRank s.chip (s.chip.coll (hId p)) p)) = false) ∧ ((s.chip.coll (hId p)).pieces.find? (fun q => q.idx == hChunk p && q.sent) = some q) :=
  ⟨ups (collChip 1 { st := 2, words := [9, 4, 0x4040C, 8, 0x2000, 0, 0x8000, 0, 0, 0, 0, 0, 0, 16, 1] ++ List.replicate 17 0, rank := 1, parts := 2, rx := [{ src := 0 }], pieces := [{ idx := 0, acc := [1], sent := true }] }), ckPkt 0x25 0 0 [], { idx := 0, acc := [1], sent := true }, by decide +kernel⟩
theorem wit_CollectiveStreams_37 : ∃ (s : State) (p : Packet), (s.chip.isPowered) ∧ (s.chip.nowPkt 0x25 p) ∧ (queryOf s.chip p = none) ∧ ((s.chip.coll (hId p)).st = 2) ∧ ((s.chip.coll (hId p)).tx.any (fun t => t.dst == (hRank s.chip (s.chip.coll (hId p)) p)) = true) ∧ (chunkReady s.chip (s.chip.coll (hId p)) (hRank s.chip (s.chip.coll (hId p)) p) (hChunk p) = false) :=
  ⟨ups heldChip, ckPkt 0x25 1 0 [], by decide +kernel⟩
theorem wit_CollectiveStreams_38 : ∃ (s : State) (p : Packet) (x m g : Nat) (l : List Byte), (s.chip.isPowered) ∧ (p.kind = 0x25) ∧ (queryOf s.chip p = some x) ∧ (m = (memberAt s.chip (s.chip.ring x).words p.src).getD 0) ∧ (g = (((s.chip.ring x).qtx.find? (fun t => t.dst == 256)).map (·.next)).getD 0) ∧ (queryBytes s.chip (s.chip.ring x) g (hChunk p) = .ok l) :=
  ⟨ups qryChip, ckPkt 0x25 1 0 [], 3, 1, 1, List.replicate 4 0#8, by decide +kernel⟩
theorem wit_CollectiveStreams_39 : ∃ (s : State) (p : Packet), (s.chip.isPowered) ∧ (s.chip.nowPkt 0x26 p) ∧ (queryOf s.chip p = none) :=
  ⟨ups (collChip 1 { st := 2, words := bcW }), ckPkt 0x26 0 0 [], by decide⟩
theorem wit_CollectiveStreams_40 : ∃ (s : State) (p : Packet) (x : Nat), (s.chip.isPowered) ∧ (p.kind = 0x26) ∧ (queryOf s.chip p = some x) :=
  ⟨ups qryChip, ckPkt 0x26 1 0 [], 3, by decide +kernel⟩
theorem wit_CollectiveStreams_41 : ∃ (s : State) (id : CollId) (b : Nat) (g : TxStream) (k : Chip), (s.chip.isPowered) ∧ ((s.chip.coll id).st = 2) ∧ ((s.chip.coll id).fullAt = some b) ∧ (b + kDetach (s.chip.coll id).words ≤ s.chip.beat) ∧ ((s.chip.coll id).tx.find? (fun t => t.dst == 256) = some g) ∧ (k = noteWindow id ((slowOnes (s.chip.coll id).tx (kWin (s.chip.coll id).words) g.next).foldl (detachOne id) s.chip)) :=
  ⟨ups fullChip, 5, 0, { dst := 256, next := 4 }, noteWindow 5 ((slowOnes (fullChip.coll 5).tx (kWin (fullChip.coll 5).words) 4).foldl (detachOne 5) fullChip), ⟨by decide, by decide, by decide, by decide, by decide, rfl⟩⟩
theorem wit_CollectiveStreams_42 : ∃ (s : State) (id : CollId) (b : Nat) (g t : TxStream), (s.chip.isPowered) ∧ ((s.chip.coll id).st = 2) ∧ ((s.chip.coll id).fullAt = some b) ∧ (b + kDetach (s.chip.coll id).words ≤ s.chip.beat) ∧ ((s.chip.coll id).tx = [g, t]) ∧ (g.dst = 256) ∧ (t.dst < 256) ∧ (t.det = false) ∧ (t.landed + kWin (s.chip.coll id).words ≤ g.next) ∧ (queryRing s.chip id = none) :=
  ⟨ups ({ collChip 0 { st := 2, words := bcW, parts := 2, fullAt := some 0, tx := [{ dst := 256, next := 4 }, { dst := 1 }] } with cad := { now := 1024 * 8 } } : Chip), 5, 0, { dst := 256, next := 4 }, { dst := 1 }, by decide⟩
theorem wit_CollectiveStreams_43 : ∃ (s : State) (id : CollId), (s.chip.isPowered) ∧ (∀ b ∈ (s.chip.coll id).fullAt, s.chip.beat < b + kDetach (s.chip.coll id).words) ∧ (queryRing s.chip id = none) :=
  ⟨ups (collChip 0 { st := 2, words := bcW, fullAt := some 0 }), 5, by decide⟩
theorem wit_CollectiveStreams_44 : ∃ (s : State) (id : CollId) (r : Nat), (s.chip.isPowered) ∧ (∀ b ∈ (s.chip.coll id).fullAt, s.chip.beat < b + kDetach (s.chip.coll id).words) ∧ (queryRing s.chip id = some r) :=
  ⟨ups qryChip, 5, 3, by decide +kernel⟩
theorem wit_CollectiveStreams_45 : ∃ (s : State) (id : CollId) (n : CoreId) (r : RxStream) (k : Nat), (s.chip.isPowered) ∧ ((s.chip.coll id).st = 2) ∧ (kRingSum (s.chip.coll id).words = true) ∧ ((s.chip.coll id).rx.head? = some r) ∧ (r.landed.find? (fun k => decide (k < (s.chip.coll id).nred) && !(s.chip.coll id).reduced.contains k && (s.chip.coll id).slotCore k == n.val) = some k) ∧ (k + (s.chip.coll id).nc < (s.chip.coll id).nred) ∧ (1 ≤ s.chip.rg (flagReg (n / 8) (kReady (s.chip.coll id).words + n % 8))) :=
  ⟨ups ((collChip 0 { st := 2, words := rsW, parts := 3, cores := [0], rx := [{ src := 2, landed := [0] }] }).setRg (flagReg 0 0) 1), 5, 0, { src := 2, landed := [0] }, 0, by decide⟩
theorem wit_CollectiveStreams_46 : ∃ (s : State) (id : CollId) (n : CoreId) (r : RxStream) (k a : Nat) (l : List Byte), (s.chip.isPowered) ∧ ((s.chip.coll id).st = 2) ∧ (kRingSum (s.chip.coll id).words = true) ∧ ((s.chip.coll id).rx.head? = some r) ∧ (r.landed.find? (fun k => decide (k < (s.chip.coll id).nred) && !(s.chip.coll id).reduced.contains k && (s.chip.coll id).slotCore k == n.val) = some k) ∧ ((s.chip.coll id).nred ≤ k + (s.chip.coll id).nc) ∧ (1 ≤ s.chip.rg (flagReg (n / 8) (kReady (s.chip.coll id).words + n % 8))) ∧ (s.chip.tasRead ((s.chip.coll id).slotAddr k 2) ((s.chip.coll id).chunkLen (k % (s.chip.coll id).nc)) = .ok l) ∧ (l ≠ []) ∧ (a = (s.chip.coll id).dstAddr (s.chip.coll id).rank (k % (s.chip.coll id).nc)) ∧ (a + l.length ≤ t0Size) ∧ (a % payloadSize + l.length ≤ payloadSize) ∧ (∀ i < l.length, s.chip.guarded (a + i) = false) :=
  ⟨ups ((collChip 0 { st := 2, words := rsW, parts := 2, cores := [0], rx := [{ src := 1, landed := [0] }] }).setRg (flagReg 0 0) 1), 5, 0, { src := 1, landed := [0] }, 0, 0x8000, List.replicate 12 0#8, by decide +kernel⟩
theorem wit_CollectiveStreams_47 : ∃ (s : State) (id : CollId) (n : CoreId), (s.chip.isPowered) ∧ ((s.chip.coll id).st ≠ 2 ∨ kRingSum (s.chip.coll id).words = false ∨ s.chip.rg (flagReg (n / 8) (kReady (s.chip.coll id).words + n % 8)) = 0 ∨ (s.chip.coll id).rx = []) :=
  ⟨up, 5, 0, by decide⟩
theorem wit_CollectiveVerdicts_1 : ∃ (s : State) (id : CollId) (k : Chip) (x : Coll), (s.chip.isPowered) ∧ ((s.chip.coll id).st = 2) ∧ ((s.chip.coll id).asked = false) ∧ (k = ownCopies id s.chip) ∧ (x = k.coll id) ∧ (x.st = 2) ∧ (x.asked = false) ∧ (kRouter x.words = false) ∧ (partDone x = true) ∧ (x.rank ≠ 0) :=
  ⟨ups (collChip 1 { st := 2, words := barW, rank := 1, parts := 2 }), 5, ownCopies 5 (collChip 1 { st := 2, words := barW, rank := 1, parts := 2 }), (ownCopies 5 (collChip 1 { st := 2, words := barW, rank := 1, parts := 2 })).coll 5, by decide⟩
theorem wit_CollectiveVerdicts_2 : ∃ (s : State) (id : CollId) (k : Chip) (x : Coll), (s.chip.isPowered) ∧ ((s.chip.coll id).st = 2) ∧ ((s.chip.coll id).asked = false) ∧ (k = ownCopies id s.chip) ∧ (x = k.coll id) ∧ (x.st = 2) ∧ (x.asked = false) ∧ (kRouter x.words = false) ∧ (partDone x = true) ∧ (x.rank = 0) :=
  ⟨ups (collChip 0 { st := 2, words := barW, parts := 2 }), 5, ownCopies 5 (collChip 0 { st := 2, words := barW, parts := 2 }), (ownCopies 5 (collChip 0 { st := 2, words := barW, parts := 2 })).coll 5, by decide⟩
theorem wit_CollectiveVerdicts_3 : ∃ (s : State) (id : CollId) (k : Chip) (x : Coll), (s.chip.isPowered) ∧ ((s.chip.coll id).st = 2) ∧ ((s.chip.coll id).asked = false) ∧ (k = ownCopies id s.chip) ∧ (x = k.coll id) ∧ (x.st = 2) ∧ (x.asked = false) ∧ (kRouter x.words = false) ∧ (partDone x = true) ∧ (x.rank = 0) ∧ (x.votes = []) ∧ (2 ≤ x.parts) :=
  ⟨ups (collChip 0 { st := 2, words := barW, parts := 2 }), 5, ownCopies 5 (collChip 0 { st := 2, words := barW, parts := 2 }), (ownCopies 5 (collChip 0 { st := 2, words := barW, parts := 2 })).coll 5, by decide⟩
theorem wit_CollectiveVerdicts_4 : ∃ (s : State) (id : CollId), (s.chip.isPowered) ∧ ((s.chip.coll id).st ≠ 2 ∨ (s.chip.coll id).asked = true) :=
  ⟨up, 5, by decide⟩
theorem wit_CollectiveVerdicts_5 : ∃ (s : State) (id : CollId) (k : Chip) (x : Coll), (s.chip.isPowered) ∧ ((s.chip.coll id).st = 2) ∧ ((s.chip.coll id).asked = false) ∧ (k = ownCopies id s.chip) ∧ (x = k.coll id) ∧ (kRouter x.words = true ∨ partDone x = false) :=
  ⟨ups (collChip 0 { st := 2, words := bcW, parts := 2 }), 5, ownCopies 5 (collChip 0 { st := 2, words := bcW, parts := 2 }), (ownCopies 5 (collChip 0 { st := 2, words := bcW, parts := 2 })).coll 5, by decide⟩
theorem wit_CollectiveVerdicts_6 : ∃ (s : State) (p : Packet) (vs : List (Nat × Nat)), (s.chip.isPowered) ∧ (s.chip.nowPkt 0x27 p) ∧ ((s.chip.coll (hId p)).rank = 0) ∧ (vs = ((hRank s.chip (s.chip.coll (hId p)) p), hCk p) :: (s.chip.coll (hId p)).votes.filter (fun v => v.1 != (hRank s.chip (s.chip.coll (hId p)) p))) ∧ (vs.length < (s.chip.coll (hId p)).parts) :=
  ⟨ups (collChip 0 { st := 3, words := barW, parts := 2 }), ckPkt 0x27 1 9 [], [(1, 9)], by decide +kernel⟩
theorem wit_CollectiveVerdicts_7 : ∃ (s : State) (p : Packet) (vs : List (Nat × Nat)), (s.chip.isPowered) ∧ (s.chip.nowPkt 0x27 p) ∧ ((s.chip.coll (hId p)).rank = 0) ∧ ((s.chip.coll (hId p)).verdict = false) ∧ (vs = ((hRank s.chip (s.chip.coll (hId p)) p), hCk p) :: (s.chip.coll (hId p)).votes.filter (fun v => v.1 != (hRank s.chip (s.chip.coll (hId p)) p))) ∧ ((s.chip.coll (hId p)).parts ≤ vs.length) ∧ (∀ v ∈ vs, v.2 = hCk p) :=
  ⟨ups (collChip 0 { st := 3, words := barW, parts := 2, votes := [(0, 9)] }), ckPkt 0x27 1 9 [], [(1, 9), (0, 9)], by decide +kernel⟩
theorem wit_CollectiveVerdicts_8 : ∃ (s : State) (p : Packet) (vs : List (Nat × Nat)), (s.chip.isPowered) ∧ (s.chip.nowPkt 0x27 p) ∧ ((s.chip.coll (hId p)).rank = 0) ∧ ((s.chip.coll (hId p)).verdict = false) ∧ (vs = ((hRank s.chip (s.chip.coll (hId p)) p), hCk p) :: (s.chip.coll (hId p)).votes.filter (fun v => v.1 != (hRank s.chip (s.chip.coll (hId p)) p))) ∧ ((s.chip.coll (hId p)).parts ≤ vs.length) ∧ (∃ v ∈ vs, v.2 ≠ hCk p) ∧ ((s.chip.coll (hId p)).attempt + 1 ≤ kRerun (s.chip.coll (hId p)).words) :=
  ⟨ups (collChip 0 { st := 3, words := barW.set 2 0x1000000, parts := 2, votes := [(0, 9)] }), ckPkt 0x27 1 8 [], [(1, 8), (0, 9)], by decide +kernel⟩
theorem wit_CollectiveVerdicts_9 : ∃ (s : State) (p : Packet) (vs : List (Nat × Nat)), (s.chip.isPowered) ∧ (s.chip.nowPkt 0x27 p) ∧ ((s.chip.coll (hId p)).rank = 0) ∧ ((s.chip.coll (hId p)).verdict = false) ∧ (vs = ((hRank s.chip (s.chip.coll (hId p)) p), hCk p) :: (s.chip.coll (hId p)).votes.filter (fun v => v.1 != (hRank s.chip (s.chip.coll (hId p)) p))) ∧ ((s.chip.coll (hId p)).parts ≤ vs.length) ∧ (∃ v ∈ vs, v.2 ≠ hCk p) ∧ (kRerun (s.chip.coll (hId p)).words < (s.chip.coll (hId p)).attempt + 1) :=
  ⟨ups (collChip 0 { st := 3, words := barW, parts := 2, votes := [(0, 9)] }), ckPkt 0x27 1 8 [], [(1, 8), (0, 9)], by decide +kernel⟩
theorem wit_CollectiveVerdicts_10 : ∃ (s : State) (p : Packet), (s.chip.isPowered) ∧ (s.chip.nowPkt 0x27 p) ∧ ((s.chip.coll (hId p)).rank ≠ 0) :=
  ⟨ups (collChip 1 { st := 3, words := barW, rank := 1, parts := 2 }), ckPkt 0x27 0 9 [], by decide⟩
theorem wit_CollectiveVerdicts_11 : ∃ (s : State) (p : Packet), (s.chip.isPowered) ∧ (s.chip.nowPkt 0x28 p) ∧ ((s.chip.coll (hId p)).rank = 0) ∧ ((s.chip.coll (hId p)).verdict = false) ∧ (hFail p = false) ∧ ((s.chip.coll (hId p)).attempt + 1 ≤ kRerun (s.chip.coll (hId p)).words) :=
  ⟨ups (collChip 0 { st := 3, words := barW.set 2 0x1000000, parts := 2 }), ckPkt 0x28 1 0 [], by decide⟩
theorem wit_CollectiveVerdicts_12 : ∃ (s : State) (p : Packet), (s.chip.isPowered) ∧ (s.chip.nowPkt 0x28 p) ∧ ((s.chip.coll (hId p)).rank = 0) ∧ ((s.chip.coll (hId p)).verdict = false) ∧ (hFail p = false) ∧ (kRerun (s.chip.coll (hId p)).words < (s.chip.coll (hId p)).attempt + 1) :=
  ⟨ups (collChip 0 { st := 3, words := barW, parts := 2 }), ckPkt 0x28 1 0 [], by decide⟩
theorem wit_CollectiveVerdicts_13 : ∃ (s : State) (p : Packet), (s.chip.isPowered) ∧ (s.chip.nowPkt 0x28 p) ∧ ((s.chip.coll (hId p)).rank = 0) ∧ ((s.chip.coll (hId p)).verdict = false) ∧ (hFail p = true) :=
  ⟨ups (collChip 0 { st := 3, words := barW, parts := 2 }), { ckPkt 0x28 1 0 [] with body := collHdr 5 0 0 1 0 1 9 0 0 0 }, by decide⟩
theorem wit_CollectiveVerdicts_14 : ∃ (s : State) (p : Packet), (s.chip.isPowered) ∧ (p.kind = 0x28) ∧ (16 ≤ p.body.length) ∧ ((s.chip.coll (hId p)).st = 1) ∧ ((s.chip.coll (hId p)).rank = 0) ∧ (hRun p = (s.chip.coll (hId p)).run) ∧ (hAttempt p ≤ (s.chip.coll (hId p)).attempt) :=
  ⟨ups (collChip 0 { st := 1, words := barW, parts := 2 }), ckPkt 0x28 1 0 [], by decide⟩
theorem wit_CollectiveVerdicts_15 : ∃ (s : State) (p : Packet), (s.chip.isPowered) ∧ (s.chip.nowPkt 0x29 p) :=
  ⟨ups (collChip 1 { st := 3, words := barW, rank := 1, parts := 2 }), ckPkt 0x29 0 0 [], by decide⟩
theorem wit_CollectiveVerdicts_16 : ∃ (s : State) (p : Packet), (s.chip.isPowered) ∧ (s.chip.nowPkt 0x2A p) ∧ (hFail p = false) :=
  ⟨ups (collChip 1 { st := 3, words := barW, rank := 1, parts := 2 }), ckPkt 0x2A 0 0 [], by decide⟩
theorem wit_CollectiveVerdicts_17 : ∃ (s : State) (p : Packet), (s.chip.isPowered) ∧ (s.chip.nowPkt 0x2A p) ∧ (hFail p = true) :=
  ⟨ups (collChip 1 { st := 3, words := barW, rank := 1, parts := 2 }), { ckPkt 0x2A 0 0 [] with body := collHdr 5 0 0 1 0 1 11 0 0 0 }, by decide⟩
theorem wit_CollectiveVerdicts_18 : ∃ (s : State) (p : Packet), (s.chip.isPowered) ∧ (p.kind = 0x2A) ∧ (16 ≤ p.body.length) ∧ ((s.chip.coll (hId p)).st = 1) ∧ (hRun p = ((s.chip.coll (hId p)).run + 1) % 2 ^ 32) ∧ (hRun p ≠ (s.chip.coll (hId p)).run) ∧ (hFail p = false) :=
  ⟨ups (collChip 1 { st := 1, words := barW, rank := 1, parts := 2 }), { ckPkt 0x2A 0 0 [] with body := collHdr 5 0 0 1 0 0 6 1 0 0 }, by decide⟩
theorem wit_CollectiveVerdicts_19 : ∃ (s : State) (p : Packet), (s.chip.isPowered) ∧ (p.kind = 0x20) ∧ (16 ≤ p.body.length) ∧ ((s.chip.coll (hId p)).st = 2 ∨ (s.chip.coll (hId p)).st = 3) ∧ (eraOf (s.chip.coll (hId p)) p = .later) :=
  ⟨ups (collChip 0 { st := 2, words := agW, parts := 2 }), { ckPkt 0x20 1 0 [] with body := collHdr 5 1 0 1 0 0 0 0 0 0 }, by decide⟩
theorem wit_CollectiveVerdicts_20 : ∃ (s : State) (p : Packet), (s.chip.isPowered) ∧ (p.kind = 0x20) ∧ (p.body.length < 16 ∨ (s.chip.coll (hId p)).st = 0 ∨ (s.chip.coll (hId p)).st = 5 ∨ eraOf (s.chip.coll (hId p)) p = .past) :=
  ⟨up, ckPkt 0x20 1 0 [], by decide⟩
theorem wit_CollectiveVerdicts_21 : ∃ (s : State) (id : CollId), (s.chip.isPowered) ∧ ((s.chip.coll id).st = 2) ∧ ((s.chip.coll id).rank ≠ 0) ∧ ((s.chip.coll id).asked = false) ∧ ((s.chip.coll id).start + kTime (s.chip.coll id).words ≤ s.chip.beat) :=
  ⟨ups ({ collChip 1 { st := 2, words := barW, rank := 1, parts := 2 } with cad := { now := 1024 * 16 } } : Chip), 5, by decide⟩
theorem wit_CollectiveVerdicts_22 : ∃ (s : State) (id : CollId), (s.chip.isPowered) ∧ ((s.chip.coll id).st = 3) ∧ ((s.chip.coll id).rank ≠ 0) ∧ ((s.chip.coll id).asked = false) ∧ ((s.chip.coll id).start + kTime (s.chip.coll id).words ≤ s.chip.beat) :=
  ⟨ups ({ collChip 1 { st := 3, words := barW, rank := 1, parts := 2 } with cad := { now := 1024 * 16 } } : Chip), 5, by decide⟩
theorem wit_CollectiveVerdicts_23a : ∃ (s : State) (id : CollId), (s.chip.isPowered) ∧ ((s.chip.coll id).st = 2 ∨ (s.chip.coll id).st = 3) ∧ ((s.chip.coll id).rank = 0) ∧ ((s.chip.coll id).asked = false) ∧ ((s.chip.coll id).verdict = false) ∧ ((s.chip.coll id).start + kTime (s.chip.coll id).words ≤ s.chip.beat) :=
  ⟨ups ({ collChip 0 { st := 2, words := barW.set 2 0x1000000, parts := 2 } with cad := { now := 1024 * 16 } } : Chip), 5, by decide⟩
theorem wit_CollectiveVerdicts_23b : ∃ (s : State) (id : CollId), (s.chip.isPowered) ∧ ((s.chip.coll id).st = 2 ∨ (s.chip.coll id).st = 3) ∧ ((s.chip.coll id).rank = 0) ∧ ((s.chip.coll id).asked = false) ∧ ((s.chip.coll id).verdict = false) ∧ ((s.chip.coll id).start + kTime (s.chip.coll id).words ≤ s.chip.beat) :=
  ⟨ups ({ collChip 0 { st := 3, words := barW, parts := 2 } with cad := { now := 1024 * 16 } } : Chip), 5, by decide⟩
theorem wit_CollectiveVerdicts_24 : ∃ (s : State) (id : CollId), (s.chip.isPowered) ∧ (s.chip.beat < (s.chip.coll id).start + kTime (s.chip.coll id).words ∨ (s.chip.coll id).asked = true ∨ ((s.chip.coll id).st ≠ 2 ∧ (s.chip.coll id).st ≠ 3)) :=
  ⟨ups (collChip 1 { st := 2, words := barW }), 5, by decide⟩
theorem wit_CollectiveVerdicts_25 : ∃ (s : State) (id : CollId), (s.chip.isPowered) ∧ ((s.chip.coll id).st = 2 ∨ (s.chip.coll id).st = 3) ∧ ((s.chip.coll id).start + 2 * kTime (s.chip.coll id).words ≤ s.chip.beat) :=
  ⟨ups ({ collChip 1 { st := 2, words := barW } with cad := { now := 1024 * 32 } } : Chip), 5, by decide⟩
theorem wit_CollectiveVerdicts_26 : ∃ (s : State) (id : CollId), (s.chip.isPowered) ∧ (s.chip.beat < (s.chip.coll id).start + 2 * kTime (s.chip.coll id).words ∨ ((s.chip.coll id).st ≠ 2 ∧ (s.chip.coll id).st ≠ 3)) :=
  ⟨ups (collChip 1 { st := 2, words := barW }), 5, by decide⟩
theorem wit_RingForming_1 : ∃ (s : State) (x : RingId) (w : List Nat) (k : Chip), (s.chip.isPowered) ∧ ((s.chip.ring x).st = 0) ∧ (formCheck s.chip = (w, 0)) ∧ (k = sendJoins x { (s.chip.setRing x { st := 1, words := w, uid := wd (s.chip.slot (rSlot w)).words 1, member := dMember (s.chip.slot (rSlot w)).words, slot := rSlot w, stepBeats := rStep w, formAt := s.chip.beat, step := (rK0 w + 2 ^ 32 - 1) % 2 ^ 32, gstep := (rK0 w + 2 ^ 32 - 1) % 2 ^ 32, owner := rOwner0 w }) with rcuResult := 0 }) :=
  ⟨ups formChip, 3, ringW, sendJoins 3 { (formChip.setRing 3 { st := 1, words := ringW, uid := 0, member := 0, slot := 0, stepBeats := 64, formAt := 500, step := 2 ^ 32 - 1, gstep := 2 ^ 32 - 1 }) with rcuResult := 0 }, by decide +kernel⟩
theorem wit_RingForming_2 : ∃ (s : State) (x : RingId), (s.chip.isPowered) ∧ ((s.chip.ring x).st = 0) ∧ ((formCheck s.chip).2 = 0) ∧ (∀ j ∈ s.chip.joins, j.ringId ≠ rId (formCheck s.chip).1) :=
  ⟨ups formChip, 3, by decide +kernel⟩
theorem wit_RingForming_3 : ∃ (s : State) (x : RingId), (s.chip.isPowered) ∧ ((s.chip.ring x).st ≠ 0) :=
  ⟨ups (onRing 0 { st := 1 }), 3, by decide⟩
theorem wit_RingForming_4 : ∃ (s : State) (x : RingId), (s.chip.isPowered) ∧ ((s.chip.ring x).st = 0) ∧ ((formCheck s.chip).2 ≠ 0) :=
  ⟨up, 3, by decide +kernel⟩
theorem wit_RingForming_5 : ∃ (s : State) (x : Nat) (p : Packet), (s.chip.isPowered) ∧ (p.kind = 0x10) ∧ (ringOf s.chip (fld 15 0 p.tag) = some x) ∧ ((s.chip.ring x).st = 1) ∧ (p.body.take 16 = (joinBody (s.chip.ring x)).take 16 ∧ at_ p.body 0x1C 4 = (s.chip.ring x).uid ∧
      (at_ p.body 0x20 4 = ((s.chip.ring x).member + 1) % rL (s.chip.ring x).words ∨ at_ p.body 0x20 4 = ((s.chip.ring x).member + rL (s.chip.ring x).words - 1) % rL (s.chip.ring x).words) ∧ memberPos s.chip (s.chip.ring x).words (at_ p.body 0x20 4) = p.src) :=
  ⟨ups (onRing 1 { st := 1, words := ringW, member := 1 }), 3, rp 0x10 0 0 (joinBody { words := ringW }), by decide +kernel⟩
theorem wit_RingForming_6 : ∃ (s : State) (x : Nat) (p : Packet), (s.chip.isPowered) ∧ (p.kind = 0x10) ∧ (ringOf s.chip (fld 15 0 p.tag) = some x) ∧ ((s.chip.ring x).st = 1) ∧ ((s.chip.ring x).member ≠ 0) ∧ ((s.chip.ring x).formHeld = false) ∧ (p.body.take 16 = (joinBody (s.chip.ring x)).take 16 ∧ at_ p.body 0x1C 4 = (s.chip.ring x).uid ∧
      (at_ p.body 0x20 4 = ((s.chip.ring x).member + 1) % rL (s.chip.ring x).words ∨ at_ p.body 0x20 4 = ((s.chip.ring x).member + rL (s.chip.ring x).words - 1) % rL (s.chip.ring x).words) ∧ memberPos s.chip (s.chip.ring x).words (at_ p.body 0x20 4) = p.src) ∧ (at_ p.body 0x20 4 = ((s.chip.ring x).member + 1) % rL (s.chip.ring x).words) :=
  ⟨ups (onRing 1 { st := 1, words := ringW, member := 1 }), 3, rp 0x10 0 0 (joinBody { words := ringW }), by decide⟩
theorem wit_RingForming_7 : ∃ (s : State) (x : Nat) (p : Packet), (s.chip.isPowered) ∧ (p.kind = 0x10) ∧ (ringOf s.chip (fld 15 0 p.tag) = some x) ∧ ((s.chip.ring x).st = 1) ∧ (¬ (p.body.take 16 = (joinBody (s.chip.ring x)).take 16 ∧ at_ p.body 0x1C 4 = (s.chip.ring x).uid ∧
      (at_ p.body 0x20 4 = ((s.chip.ring x).member + 1) % rL (s.chip.ring x).words ∨ at_ p.body 0x20 4 = ((s.chip.ring x).member + rL (s.chip.ring x).words - 1) % rL (s.chip.ring x).words) ∧ memberPos s.chip (s.chip.ring x).words (at_ p.body 0x20 4) = p.src)) :=
  ⟨ups (onRing 1 { st := 1, words := ringW, member := 1 }), 3, rp 0x10 0 0 [], by decide⟩
theorem wit_RingForming_8 : ∃ (s : State) (x : Nat) (p : Packet), (s.chip.isPowered) ∧ (p.kind = 0x10) ∧ (ringOf s.chip (fld 15 0 p.tag) = some x) ∧ ((s.chip.ring x).st ≠ 1) :=
  ⟨ups (onRing 1 { st := 2, words := ringW, member := 1 }), 3, rp 0x10 0 0 [], by decide⟩
theorem wit_RingForming_9 : ∃ (s : State) (p : Packet), (s.chip.isPowered) ∧ (p.kind = 0x10) ∧ (ringOf s.chip (fld 15 0 p.tag) = none) :=
  ⟨up, rp 0x10 0 0 [], by decide⟩
theorem wit_RingForming_10 : ∃ (s : State) (x : RingId), (s.chip.isPowered) ∧ ((s.chip.ring x).st = 1) ∧ ((s.chip.ring x).joinP = false ∨ (s.chip.ring x).joinS = false) ∧ ((s.chip.ring x).joinAt + 64 ≤ s.chip.beat) :=
  ⟨ups (onRing 0 { st := 1, words := ringW }), 3, by decide⟩
theorem wit_RingForming_11 : ∃ (s : State) (x : RingId), (s.chip.isPowered) ∧ ((s.chip.ring x).st ≠ 1 ∨ ((s.chip.ring x).joinP = true ∧ (s.chip.ring x).joinS = true) ∨ s.chip.beat < (s.chip.ring x).joinAt + 64) :=
  ⟨ups (onRing 0 { st := 1, joinAt := 437 }), 3, by decide⟩
theorem wit_RingForming_12 : ∃ (s : State) (i : Nat), (s.chip.isPowered) :=
  ⟨up, 0, by decide⟩
theorem wit_RingForming_13 : ∃ (s : State) (x : Nat) (p : Packet), (s.chip.isPowered) ∧ (p.kind = 0x11) ∧ (ringOf s.chip (fld 15 0 p.tag) = some x) ∧ ((s.chip.ring x).st ≠ 6) ∧ ((s.chip.ring x).st = 1) ∧ ((s.chip.ring x).member ≠ 0) :=
  ⟨ups (onRing 1 { st := 1, words := ringW, member := 1 }), 3, rp 0x11 0 0 [], by decide⟩
theorem wit_RingForming_14a : ∃ (s : State) (x : Nat) (p : Packet), (s.chip.isPowered) ∧ (p.kind = 0x11) ∧ (ringOf s.chip (fld 15 0 p.tag) = some x) ∧ ((s.chip.ring x).st ≠ 6) ∧ ((s.chip.ring x).st = 1) ∧ ((s.chip.ring x).member ≠ 0) ∧ ((s.chip.ring x).formSent = false) :=
  ⟨ups (onRing 1 { st := 1, words := ringW, member := 1 }), 3, rp 0x11 0 0 [], by decide⟩
theorem wit_RingForming_14b : ∃ (s : State) (x : Nat) (p : Packet), (s.chip.isPowered) ∧ (p.kind = 0x11) ∧ (ringOf s.chip (fld 15 0 p.tag) = some x) ∧ ((s.chip.ring x).st ≠ 6) ∧ ((s.chip.ring x).st = 1) ∧ ((s.chip.ring x).member ≠ 0) ∧ ((s.chip.ring x).formSent = false) :=
  ⟨ups (onRing 1 { st := 1, words := ringW, member := 1, joinP := true, joinS := true }), 3, rp 0x11 0 0 [], by decide⟩
theorem wit_RingForming_15 : ∃ (s : State) (x : Nat) (p : Packet) (b : List Byte), (s.chip.isPowered) ∧ (p.kind = 0x11) ∧ (ringOf s.chip (fld 15 0 p.tag) = some x) ∧ ((s.chip.ring x).st ≠ 6) ∧ ((s.chip.ring x).st = 1) ∧ ((s.chip.ring x).member = 0) ∧ ((s.chip.ring x).formSent = true) ∧ ((s.chip.ring x).goSent = false) ∧ (rS0 (s.chip.ring x).words = 0 ∨ s.chip.beat + rL (s.chip.ring x).words + 64 ≤ rS0 (s.chip.ring x).words) ∧ (b = (if rS0 (s.chip.ring x).words ≠ 0 then leBytes 4 0 ++ leBytes 8 (rS0 (s.chip.ring x).words) else leBytes 4 1 ++ leBytes 8 (((groupStep s.chip (rGroup (s.chip.ring x).words)).getD 0 + 2) % 2 ^ 32))) :=
  ⟨ups (onRing 0 { st := 1, words := ringW, formSent := true }), 3, rp 0x11 1 0 [], leBytes 4 0 ++ leBytes 8 1000, by decide⟩
theorem wit_RingForming_16 : ∃ (s : State) (x : Nat) (p : Packet), (s.chip.isPowered) ∧ (p.kind = 0x11) ∧ (ringOf s.chip (fld 15 0 p.tag) = some x) ∧ ((s.chip.ring x).st ≠ 6) ∧ ((s.chip.ring x).st = 1) ∧ ((s.chip.ring x).member = 0) ∧ ((s.chip.ring x).formSent = true) ∧ ((s.chip.ring x).goSent = false) ∧ (rS0 (s.chip.ring x).words ≠ 0) ∧ (rS0 (s.chip.ring x).words < s.chip.beat + rL (s.chip.ring x).words + 64) :=
  ⟨ups (onRing 0 { st := 1, words := ringW.set 4 550, formSent := true }), 3, rp 0x11 1 0 [], by decide⟩
theorem wit_RingForming_17 : ∃ (s : State) (x : Nat) (p : Packet), (s.chip.isPowered) ∧ (p.kind = 0x11) ∧ (ringOf s.chip (fld 15 0 p.tag) = some x) ∧ ((s.chip.ring x).st ≠ 6) ∧ ((s.chip.ring x).st ≠ 1 ∨ ((s.chip.ring x).member = 0 ∧ ((s.chip.ring x).formSent = false ∨ (s.chip.ring x).goSent = true))) :=
  ⟨ups (onRing 0 { st := 1, words := ringW }), 3, rp 0x11 1 0 [], by decide⟩
theorem wit_RingForming_18a : ∃ (s : State) (x : Nat) (p : Packet), (s.chip.isPowered) ∧ (p.kind = 0x12) ∧ (ringOf s.chip (fld 15 0 p.tag) = some x) ∧ ((s.chip.ring x).st ≠ 6) ∧ ((s.chip.ring x).st = 1) ∧ ((s.chip.ring x).member = 0 → (s.chip.ring x).goSent = true) :=
  ⟨ups (onRing 1 { st := 1, words := ringW, member := 1 }), 3, rp 0x12 0 0 (leBytes 4 0 ++ leBytes 8 1000), by decide⟩
theorem wit_RingForming_18b : ∃ (s : State) (x : Nat) (p : Packet), (s.chip.isPowered) ∧ (p.kind = 0x12) ∧ (ringOf s.chip (fld 15 0 p.tag) = some x) ∧ ((s.chip.ring x).st ≠ 6) ∧ ((s.chip.ring x).st = 1) ∧ ((s.chip.ring x).member = 0 → (s.chip.ring x).goSent = true) :=
  ⟨ups (onRing 0 { st := 1, words := ringW, goSent := true }), 3, rp 0x12 0 0 (leBytes 4 1 ++ leBytes 8 9), by decide⟩
theorem wit_RingForming_19 : ∃ (s : State) (x : Nat) (p : Packet), (s.chip.isPowered) ∧ (p.kind = 0x12) ∧ (ringOf s.chip (fld 15 0 p.tag) = some x) ∧ ((s.chip.ring x).st ≠ 6) ∧ ((s.chip.ring x).st = 1) ∧ ((s.chip.ring x).member = 0) ∧ ((s.chip.ring x).goSent = true) ∧ (at_ p.body 0 4 = 1) :=
  ⟨ups (onRing 0 { st := 1, words := ringW, goSent := true }), 3, rp 0x12 0 0 (leBytes 4 1 ++ leBytes 8 9), by decide⟩
theorem wit_RingForming_20 : ∃ (s : State) (x : Nat) (p : Packet), (s.chip.isPowered) ∧ (p.kind = 0x12) ∧ (ringOf s.chip (fld 15 0 p.tag) = some x) ∧ ((s.chip.ring x).st ≠ 6) ∧ ((s.chip.ring x).st ≠ 1 ∨ ((s.chip.ring x).member = 0 ∧ (s.chip.ring x).goSent = false)) :=
  ⟨ups (onRing 0 { st := 1, words := ringW }), 3, rp 0x12 1 0 [], by decide⟩
theorem wit_RingForming_21 : ∃ (s : State) (x : RingId), (s.chip.isPowered) ∧ ((s.chip.ring x).st = 1) ∧ ((s.chip.ring x).formAt + s.chip.formTime ≤ s.chip.beat) :=
  ⟨ups ({ onRing 0 { st := 1, words := ringW } with cad := { now := 1024 * 70000 } } : Chip), 3, by decide⟩
theorem wit_RingForming_22 : ∃ (s : State) (x : RingId), (s.chip.isPowered) ∧ ((s.chip.ring x).st ≠ 1 ∨ s.chip.beat < (s.chip.ring x).formAt + s.chip.formTime) :=
  ⟨ups (onRing 0 { st := 1 }), 3, by decide⟩
theorem wit_RingForming_23 : ∃ (s : State) (x : RingId), (s.chip.isPowered) ∧ ((s.chip.ring x).st = 0 ∨ (s.chip.ring x).st = 6) :=
  ⟨up, 3, by decide⟩
theorem wit_RingForming_24 : ∃ (s : State) (x : RingId), (s.chip.isPowered) ∧ ((s.chip.ring x).st = 3) :=
  ⟨ups (onRing 0 { st := 3 }), 3, by decide⟩
theorem wit_RingForming_25a : ∃ (s : State) (x : RingId), (s.chip.isPowered) ∧ ((s.chip.ring x).st = 1 ∨ (s.chip.ring x).st = 2 ∨ (s.chip.ring x).st = 4 ∨ (s.chip.ring x).st = 5) :=
  ⟨ups (onRing 0 { st := 2, words := ringW }), 3, by decide⟩
theorem wit_RingForming_25b : ∃ (s : State) (x : RingId), (s.chip.isPowered) ∧ ((s.chip.ring x).st = 1 ∨ (s.chip.ring x).st = 2 ∨ (s.chip.ring x).st = 4 ∨ (s.chip.ring x).st = 5) :=
  ⟨ups (onRing 0 { st := 1, words := ringW }), 3, by decide⟩
theorem wit_RingForming_26 : ∃ (s : State) (x : Nat) (p : Packet), (s.chip.isPowered) ∧ (p.kind = 0x13) ∧ (ringOf s.chip (fld 15 0 p.tag) = some x) ∧ ((s.chip.ring x).st ≠ 6) ∧ (at_ p.body 0 4 = 0) ∧ ((s.chip.ring x).st = 3) ∧ ((s.chip.ring x).disband = none) :=
  ⟨ups (onRing 0 { st := 3, words := ringW }), 3, rp 0x13 1 0 [], by decide⟩
theorem wit_RingForming_27 : ∃ (s : State) (x : Nat) (p : Packet) (d : Nat), (s.chip.isPowered) ∧ (p.kind = 0x13) ∧ (ringOf s.chip (fld 15 0 p.tag) = some x) ∧ ((s.chip.ring x).st ≠ 6) ∧ (at_ p.body 0 4 = 0) ∧ ((s.chip.ring x).st = 3) ∧ ((s.chip.ring x).disband = some d) :=
  ⟨ups (onRing 0 { st := 3, words := ringW, disband := some 0 }), 3, rp 0x13 1 0 [], 0, by decide⟩
theorem wit_RingForming_28 : ∃ (s : State) (x : Nat) (p : Packet), (s.chip.isPowered) ∧ (p.kind = 0x13) ∧ (ringOf s.chip (fld 15 0 p.tag) = some x) ∧ ((s.chip.ring x).st ≠ 6) ∧ (at_ p.body 0 4 = 0) ∧ ((s.chip.ring x).st ≠ 3) :=
  ⟨ups (onRing 0 { st := 2, words := ringW }), 3, rp 0x13 1 0 [], by decide⟩
theorem wit_RingForming_29 : ∃ (s : State) (x : Nat) (p : Packet), (s.chip.isPowered) ∧ (p.kind = 0x13) ∧ (ringOf s.chip (fld 15 0 p.tag) = some x) ∧ ((s.chip.ring x).st ≠ 6) ∧ (at_ p.body 0 4 ≠ 0) ∧ ((s.chip.ring x).st = 3) :=
  ⟨ups (onRing 0 { st := 3, words := ringW }), 3, rp 0x13 1 0 (leBytes 4 5), by decide⟩
theorem wit_RingForming_30 : ∃ (s : State) (x : Nat) (p : Packet), (s.chip.isPowered) ∧ (p.kind = 0x13) ∧ (ringOf s.chip (fld 15 0 p.tag) = some x) ∧ ((s.chip.ring x).st ≠ 6) ∧ (at_ p.body 0 4 ≠ 0) ∧ ((s.chip.ring x).st ≠ 0) ∧ ((s.chip.ring x).st ≠ 3) :=
  ⟨ups (onRing 0 { st := 2, words := ringW }), 3, rp 0x13 1 0 (leBytes 4 5), by decide⟩
theorem wit_RingForming_31 : ∃ (s : State) (x : RingId), (s.chip.isPowered) ∧ ((s.chip.ring x).st = 6) ∧ (ringQueued s.chip (rId (s.chip.ring x).words) = false) :=
  ⟨ups (onRing 0 { st := 6, cause := 9, words := ringW }), 3, by decide⟩
theorem wit_RingForming_32 : ∃ (s : State) (x : RingId), (s.chip.isPowered) ∧ ((s.chip.ring x).st ≠ 6 ∨ ringQueued s.chip (rId (s.chip.ring x).words) = true) :=
  ⟨up, 3, by decide⟩
theorem wit_RingSteps_1a : ∃ (s : State) (g : GroupId) (b : Nat), (s.chip.isPowered) ∧ (∀ y ∈ runRings s.chip g, (s.chip.ring y).phase = 0) ∧ (startDue s.chip g = some b) ∧ (b ≤ s.chip.beat) ∧ ((groupDones s.chip g).any (·.2.hold) = true ∨ (s.chip.cascadeDue b = true ∧ s.chip.cad.st ≠ 2)) ∧ ((closeStep g b s.chip).2 = true) :=
  ⟨ups (onRing 0 { st := 2, words := ringW, s0 := 400 }), 0, 400, by decide⟩
theorem wit_RingSteps_1b : ∃ (s : State) (g : GroupId) (b : Nat), (s.chip.isPowered) ∧ (∀ y ∈ runRings s.chip g, (s.chip.ring y).phase = 0) ∧ (startDue s.chip g = some b) ∧ (b ≤ s.chip.beat) ∧ ((groupDones s.chip g).any (·.2.hold) = true ∨ (s.chip.cascadeDue b = true ∧ s.chip.cad.st ≠ 2)) ∧ ((closeStep g b s.chip).2 = true) :=
  ⟨ups (onRing 0 { st := 3, words := decW, start := 400, stepBeats := 64, dones := [{ member := 0, beat := 450 }, { member := 1, beat := 450 }] }), 0, 464, by decide⟩
theorem wit_RingSteps_2 : ∃ (s : State) (g : GroupId) (b : Nat), (s.chip.isPowered) ∧ (∀ y ∈ runRings s.chip g, (s.chip.ring y).phase = 0) ∧ (startDue s.chip g = some b) ∧ (b ≤ s.chip.beat) ∧ ((groupDones s.chip g).any (·.2.hold) = true ∨ (s.chip.cascadeDue b = true ∧ s.chip.cad.st ≠ 2)) ∧ ((closeStep g b s.chip).2 = false) :=
  ⟨ups (onRing 0 { st := 3, words := decW, start := 400, stepBeats := 64, dones := [{ member := 0, hold := true, beat := 450 }, { member := 1, beat := 450 }] }), 0, 464, by decide⟩
theorem wit_RingSteps_3 : ∃ (s : State) (g : GroupId) (x : Nat), (s.chip.isPowered) ∧ (((runRings s.chip g).filter (fun y => (s.chip.ring y).phase != 0)).head? = some x) :=
  ⟨ups (onRing 0 { st := 3, words := ringW, phase := 1, s0 := 400 }), 0, 3, by decide⟩
theorem wit_RingSteps_4 : ∃ (s : State) (g : GroupId), (s.chip.isPowered) ∧ (∀ y ∈ runRings s.chip g, (s.chip.ring y).phase = 0) ∧ (∀ b ∈ startDue s.chip g, s.chip.beat < b ∨ ((groupDones s.chip g).any (·.2.hold) = false ∧ (s.chip.cascadeDue b = false ∨ s.chip.cad.st = 2))) :=
  ⟨ups (onRing 0 { st := 2, words := ringW, s0 := 501 }), 0, by decide⟩
theorem wit_RingSteps_5 : ∃ (s : State) (g : GroupId) (x : Nat), (s.chip.isPowered) ∧ (groupRings s.chip g = [x]) ∧ ((s.chip.ring x).st = 2) ∧ ((s.chip.ring x).joinStep = none) ∧ ((s.chip.ring x).s0 ≤ s.chip.beat) ∧ (s.chip.cascadeDue (s.chip.ring x).s0 = true) ∧ (s.chip.cad.st ≠ 2) ∧ ((s.chip.slot (s.chip.ring x).slot).st = 2) ∧ (s.chip.rolls = []) ∧ (s.chip.plans = []) ∧ ((s.chip.ring x).plans = []) ∧ (carBusy s.chip = false) :=
  ⟨ups (onRing 0 { st := 2, words := ringW, s0 := 400 }), 0, 3, by decide⟩
theorem wit_RingSteps_6 : ∃ (s : State) (g : GroupId) (x b : Nat), (s.chip.isPowered) ∧ (groupRings s.chip g = [x]) ∧ ((s.chip.ring x).st = 3) ∧ ((s.chip.ring x).phase = 0) ∧ ((s.chip.ring x).disband = none) ∧ (barrier s.chip g = true) ∧ (b = nextStart s.chip g) ∧ (b ≤ s.chip.beat) ∧ (s.chip.cascadeDue b = true) ∧ (s.chip.cad.st ≠ 2) ∧ (∀ d ∈ (s.chip.ring x).now, d.stop = false ∧ d.hold = false) ∧ ((s.chip.slot (s.chip.ring x).slot).st = 2) ∧ (s.chip.rolls = []) ∧ (s.chip.plans = []) ∧ ((s.chip.ring x).plans = []) ∧ (carBusy s.chip = false) :=
  ⟨ups (onRing 0 { st := 3, words := decW, start := 400, stepBeats := 64, dones := [{ member := 0, beat := 450 }, { member := 1, beat := 450 }] }), 0, 3, 464, by decide +kernel⟩
theorem wit_RingSteps_7 : ∃ (s : State) (x : RingId) (k : Chip) (r : Ring), (s.chip.isPowered) ∧ ((s.chip.ring x).st = 3) ∧ (k = takeWork (rGroup (s.chip.ring x).words) s.chip) ∧ (r = k.ring x) ∧ (r.ended = false) ∧ (r.worked = true) ∧ (r.phase = 0) ∧ (if rDecode r.words = true then r.merged = true ∨ (k.slot r.slot).st ≠ 2 else blockUnacked k (rId r.words) = false ∧ rxDone k r = true) :=
  ⟨ups (onRing 0 { st := 3, words := decW, worked := true, merged := true }), 3, takeWork (rGroup (((onRing 0 { st := 3, words := decW, worked := true, merged := true })).ring 3).words) (onRing 0 { st := 3, words := decW, worked := true, merged := true }), (takeWork (rGroup (((onRing 0 { st := 3, words := decW, worked := true, merged := true })).ring 3).words) (onRing 0 { st := 3, words := decW, worked := true, merged := true })).ring 3, by decide⟩
theorem wit_RingSteps_8 : ∃ (s : State) (x : RingId) (k : Chip) (r : Ring), (s.chip.isPowered) ∧ ((s.chip.ring x).st = 3) ∧ (k = takeWork (rGroup (s.chip.ring x).words) s.chip) ∧ (r = k.ring x) ∧ (r.ended = true ∨ r.worked = false ∨ r.phase ≠ 0 ∨ ¬ (if rDecode r.words = true then r.merged = true ∨ (k.slot r.slot).st ≠ 2 else blockUnacked k (rId r.words) = false ∧ rxDone k r = true)) :=
  ⟨ups (onRing 0 { st := 3, words := decW }), 3, takeWork (rGroup (((onRing 0 { st := 3, words := decW })).ring 3).words) (onRing 0 { st := 3, words := decW }), (takeWork (rGroup (((onRing 0 { st := 3, words := decW })).ring 3).words) (onRing 0 { st := 3, words := decW })).ring 3, by decide⟩
theorem wit_RingSteps_9 : ∃ (s : State) (x : RingId) (y : Nat) (w : List Nat), (s.chip.isPowered) ∧ ((s.chip.ring x).st = 3) ∧ ((runRings s.chip (rGroup (s.chip.ring x).words)).head? = some y) ∧ (w = (s.chip.ring y).words) ∧ ((s.chip.ring y).worked = false) ∧ (∀ cl ∈ workClusters w, rDoneAmt w ≤ s.chip.rg (flagReg cl (rDoneFlag w))) :=
  ⟨ups ((onRing 0 { st := 3, words := decW }).setRg (flagReg 0 0) 1), 3, 3, decW, by decide +kernel⟩
theorem wit_RingSteps_10 : ∃ (s : State) (x : RingId), (s.chip.isPowered) ∧ ((s.chip.ring x).st ≠ 3) :=
  ⟨up, 3, by decide⟩
theorem wit_RingSteps_11a : ∃ (s : State) (x : Nat) (p : Packet) (m : Nat), (s.chip.isPowered) ∧ (p.kind = 0x19) ∧ (ringOf s.chip (fld 15 0 p.tag) = some x) ∧ ((s.chip.ring x).st ≠ 6) ∧ (memberAt s.chip (s.chip.ring x).words p.src = some m) ∧ (3 ≤ (s.chip.ring x).st → stepLt (at_ p.body 0 4) (s.chip.ring x).gstep = false) ∧ (∀ d ∈ (s.chip.ring x).dones, d.member = m → d.step ≠ at_ p.body 0 4) :=
  ⟨ups (onRing 0 { st := 3, words := decW }), 3, rp 0x19 1 0 (leBytes 4 0 ++ leBytes 4 7 ++ leBytes 4 0xFF02), 1, by decide⟩
theorem wit_RingSteps_11b : ∃ (s : State) (x : Nat) (p : Packet) (m : Nat), (s.chip.isPowered) ∧ (p.kind = 0x19) ∧ (ringOf s.chip (fld 15 0 p.tag) = some x) ∧ ((s.chip.ring x).st ≠ 6) ∧ (memberAt s.chip (s.chip.ring x).words p.src = some m) ∧ (3 ≤ (s.chip.ring x).st → stepLt (at_ p.body 0 4) (s.chip.ring x).gstep = false) ∧ (∀ d ∈ (s.chip.ring x).dones, d.member = m → d.step ≠ at_ p.body 0 4) :=
  ⟨ups (onRing 0 { st := 2, words := decW, gstep := 5 }), 3, rp 0x19 1 0 (leBytes 4 0 ++ leBytes 4 7 ++ leBytes 4 0xFF02), 1, by decide⟩
theorem wit_RingSteps_12 : ∃ (s : State) (x : Nat) (p : Packet) (m : Nat), (s.chip.isPowered) ∧ (p.kind = 0x19) ∧ (ringOf s.chip (fld 15 0 p.tag) = some x) ∧ ((s.chip.ring x).st ≠ 6) ∧ (memberAt s.chip (s.chip.ring x).words p.src = some m) ∧ ((3 ≤ (s.chip.ring x).st ∧ stepLt (at_ p.body 0 4) (s.chip.ring x).gstep = true) ∨ ∃ d ∈ (s.chip.ring x).dones, d.member = m ∧ d.step = at_ p.body 0 4) :=
  ⟨ups (onRing 0 { st := 3, words := decW, dones := [{ member := 1 }] }), 3, rp 0x19 1 0 [], 1, by decide⟩
theorem wit_RingSteps_13 : ∃ (s : State) (x : Nat) (p : Packet), (s.chip.isPowered) ∧ (p.kind = 0x19) ∧ (ringOf s.chip (fld 15 0 p.tag) = some x) ∧ ((s.chip.ring x).st ≠ 6) ∧ (memberAt s.chip (s.chip.ring x).words p.src = none) :=
  ⟨ups (onRing 0 { st := 3, words := decW }), 3, rp 0x19 9 0 [], by decide⟩
theorem wit_RingSteps_14 : ∃ (s : State) (x : RingId), (s.chip.isPowered) ∧ (2 ≤ (s.chip.ring x).st) ∧ ((s.chip.ring x).st ≤ 5) ∧ (1 ≤ fld 3 0 (s.chip.rg (ringReg 0x110))) ∧ (fld 3 0 (s.chip.rg (ringReg 0x110)) ≤ 4) ∧ (2 ≤ (s.chip.rg (ringReg 0x10C) + 2 ^ 32 - (s.chip.ring x).gstep % 2 ^ 32) % 2 ^ 32) ∧ ((s.chip.rg (ringReg 0x10C) + 2 ^ 32 - (s.chip.ring x).gstep % 2 ^ 32) % 2 ^ 32 < 2 ^ 31) :=
  ⟨ups (((onRing 0 { st := 3, words := ringW }).setRg (ringReg 0x110) 1).setRg (ringReg 0x10C) 2), 3, by decide⟩
theorem wit_RingSteps_15 : ∃ (s : State) (x : RingId), (s.chip.isPowered) ∧ (2 ≤ (s.chip.ring x).st) ∧ ((s.chip.ring x).st ≤ 5) ∧ (1 ≤ fld 3 0 (s.chip.rg (ringReg 0x110))) ∧ (fld 3 0 (s.chip.rg (ringReg 0x110)) ≤ 4) ∧ ((s.chip.rg (ringReg 0x10C) + 2 ^ 32 - (s.chip.ring x).gstep % 2 ^ 32) % 2 ^ 32 < 2 ∨ 2 ^ 31 ≤ (s.chip.rg (ringReg 0x10C) + 2 ^ 32 - (s.chip.ring x).gstep % 2 ^ 32) % 2 ^ 32) :=
  ⟨ups (((onRing 0 { st := 3, words := ringW }).setRg (ringReg 0x110) 1).setRg (ringReg 0x10C) 1), 3, by decide⟩
theorem wit_RingSteps_16 : ∃ (s : State) (x : RingId), (s.chip.isPowered) ∧ ((s.chip.ring x).st < 2 ∨ 5 < (s.chip.ring x).st ∨ fld 3 0 (s.chip.rg (ringReg 0x110)) = 0 ∨ 4 < fld 3 0 (s.chip.rg (ringReg 0x110))) :=
  ⟨up, 3, by decide⟩
theorem wit_RingSteps_17 : ∃ (s : State) (x : Nat) (p : Packet), (s.chip.isPowered) ∧ (p.kind = 0x1B) ∧ (ringOf s.chip (fld 15 0 p.tag) = some x) ∧ ((s.chip.ring x).st ≠ 6) ∧ ((at_ p.body 0 4, at_ p.body 4 1 % 16, at_ p.body 5 3) ∉ (s.chip.ring x).plans) ∧ ((s.chip.ring x).st < 3 ∨ stepLt (s.chip.ring x).gstep (at_ p.body 0 4) = true) :=
  ⟨ups (onRing 0 { st := 3, words := ringW }), 3, rp 0x1B 1 0 (leBytes 4 2 ++ leBytes 4 1), by decide⟩
theorem wit_RingSteps_18 : ∃ (s : State) (x : Nat) (p : Packet), (s.chip.isPowered) ∧ (p.kind = 0x1B) ∧ (ringOf s.chip (fld 15 0 p.tag) = some x) ∧ ((s.chip.ring x).st ≠ 6) ∧ ((at_ p.body 0 4, at_ p.body 4 1 % 16, at_ p.body 5 3) ∈ (s.chip.ring x).plans) :=
  ⟨ups (onRing 0 { st := 3, words := ringW, plans := [(2, 1, 0)] }), 3, rp 0x1B 1 0 (leBytes 4 2 ++ leBytes 4 1), by decide⟩
theorem wit_RingSteps_19 : ∃ (s : State) (x : Nat) (p : Packet), (s.chip.isPowered) ∧ (p.kind = 0x1B) ∧ (ringOf s.chip (fld 15 0 p.tag) = some x) ∧ ((s.chip.ring x).st ≠ 6) ∧ ((at_ p.body 0 4, at_ p.body 4 1 % 16, at_ p.body 5 3) ∉ (s.chip.ring x).plans) ∧ (3 ≤ (s.chip.ring x).st) ∧ (stepLt (s.chip.ring x).gstep (at_ p.body 0 4) = false) :=
  ⟨ups (onRing 0 { st := 3, words := ringW }), 3, rp 0x1B 1 0 (leBytes 4 0 ++ leBytes 4 1), by decide⟩
theorem wit_RingSteps_20 : ∃ (s : State) (g : Nat) (x : Nat) (p : Packet), (s.chip.isPowered) ∧ (p.kind = 0x1B) ∧ (ringOf s.chip (fld 15 0 p.tag) = some x) ∧ ((s.chip.ring x).st ≠ 6) ∧ ((at_ p.body 0 4, at_ p.body 4 1 % 16, at_ p.body 5 3) ∉ (s.chip.ring x).plans) ∧ (stepLt (s.chip.ring x).gstep (at_ p.body 0 4) = false) ∧ ((s.chip.ring x).st = 3) ∧ ((s.chip.ring x).disband = none) ∧ (g = rGroup (s.chip.ring x).words) ∧ (runRings s.chip g = [x]) :=
  ⟨ups (onRing 0 { st := 3, words := ringW }), 0, 3, rp 0x1B 1 0 (leBytes 4 0 ++ leBytes 4 1), by decide⟩
theorem wit_RingSteps_21 : ∃ (s : State) (x : Nat) (p : Packet), (s.chip.isPowered) ∧ (p.kind = 0x1A) ∧ (ringOf s.chip (fld 15 0 p.tag) = some x) ∧ ((s.chip.ring x).st ≠ 6) :=
  ⟨ups (onRing 0 { st := 3, words := ringW }), 3, rp 0x1A 1 0 [], by decide⟩
theorem wit_RingSteps_22 : ∃ (s : State) (g : GroupId) (y : Nat), (s.chip.isPowered) ∧ ((runRings s.chip g).head? = some y) ∧ ((s.chip.ring y).phase = 0) ∧ (barrier s.chip g = false) ∧ ((s.chip.ring y).start + (s.chip.ring y).stepBeats + ((runRings s.chip g).map (fun y => (s.chip.ring y).ext)).foldl max 0 + rStall (s.chip.ring y).words ≤ s.chip.beat) :=
  ⟨ups (onRing 0 { st := 3, words := ringW, stepBeats := 64 }), 0, 3, by decide⟩
theorem wit_RingSteps_23 : ∃ (s : State) (g : GroupId) (x : Nat), (s.chip.isPowered) ∧ (runRings s.chip g = [x]) ∧ ((s.chip.ring x).phase = 0) ∧ ((s.chip.ring x).disband = none) ∧ (barrier s.chip g = false) ∧ ((s.chip.ring x).start + (s.chip.ring x).stepBeats + (s.chip.ring x).ext + rStall (s.chip.ring x).words ≤ s.chip.beat) :=
  ⟨ups (onRing 0 { st := 3, words := ringW, stepBeats := 64 }), 0, 3, by decide⟩
theorem wit_RingSteps_24 : ∃ (s : State) (g : GroupId), (s.chip.isPowered) ∧ (runRings s.chip g = [] ∨ barrier s.chip g = true ∨ ∃ y ∈ (runRings s.chip g).head?, (s.chip.ring y).phase ≠ 0 ∨ s.chip.beat < (s.chip.ring y).start + (s.chip.ring y).stepBeats + ((runRings s.chip g).map (fun y => (s.chip.ring y).ext)).foldl max 0 + rStall (s.chip.ring y).words) :=
  ⟨up, 3, by decide⟩
theorem wit_RingSteps_25a : ∃ (s : State) (x : RingId), (s.chip.isPowered) ∧ ((s.chip.ring x).st = 4 ∨ ((s.chip.ring x).st = 5 ∧ ((s.chip.ring x).cause = 7 ∨ (s.chip.ring x).cause = 2) ∧ (s.chip.slot (s.chip.ring x).slot).st = 2)) ∧ (s.chip.beat + 64 ≤ s.chip.rg64 (ringReg 0x114)) :=
  ⟨ups ((onRing 0 { st := 4, words := ringW }).setRg (ringReg 0x114) 564), 3, by decide⟩
theorem wit_RingSteps_25b : ∃ (s : State) (x : RingId), (s.chip.isPowered) ∧ ((s.chip.ring x).st = 4 ∨ ((s.chip.ring x).st = 5 ∧ ((s.chip.ring x).cause = 7 ∨ (s.chip.ring x).cause = 2) ∧ (s.chip.slot (s.chip.ring x).slot).st = 2)) ∧ (s.chip.beat + 64 ≤ s.chip.rg64 (ringReg 0x114)) :=
  ⟨ups ((onRing 0 { st := 5, cause := 7, words := ringW }).setRg (ringReg 0x114) 564), 3, by decide⟩
theorem wit_RingSteps_26 : ∃ (s : State) (x : RingId), (s.chip.isPowered) ∧ ((s.chip.ring x).st = 4 ∨ ((s.chip.ring x).st = 5 ∧ ((s.chip.ring x).cause = 7 ∨ (s.chip.ring x).cause = 2) ∧ (s.chip.slot (s.chip.ring x).slot).st = 2)) ∧ (s.chip.rg64 (ringReg 0x114) < s.chip.beat + 64) :=
  ⟨ups (onRing 0 { st := 4, words := ringW }), 3, by decide⟩
theorem wit_RingSteps_27 : ∃ (s : State) (x : RingId), (s.chip.isPowered) ∧ (¬ ((s.chip.ring x).st = 4 ∨ ((s.chip.ring x).st = 5 ∧ ((s.chip.ring x).cause = 7 ∨ (s.chip.ring x).cause = 2) ∧ (s.chip.slot (s.chip.ring x).slot).st = 2))) :=
  ⟨up, 3, by decide⟩
theorem wit_RingData_1 : ∃ (s : State) (x b : Nat) (p : Packet), (s.chip.isPowered) ∧ (p.kind = 0x14) ∧ (ringOf s.chip (fld 15 0 p.tag) = some x) ∧ ((s.chip.ring x).st ≠ 6) ∧ (rDecode (s.chip.ring x).words = false) ∧ (at_ p.body 0 4 = (s.chip.ring x).step) ∧ (rxBuf (s.chip.ring x) = some b) ∧ (¬ (((s.chip.ring x).bufs.getD b {}).hdr = true ∧ ((s.chip.ring x).bufs.getD b {}).step = at_ p.body 0 4)) :=
  ⟨ups (onRing 0 { st := 3, words := ringW }), 3, 0, rp 0x14 1 0 (leBytes 4 0), by decide⟩
theorem wit_RingData_2 : ∃ (s : State) (x : Nat) (p : Packet), (s.chip.isPowered) ∧ (p.kind = 0x14) ∧ (ringOf s.chip (fld 15 0 p.tag) = some x) ∧ ((s.chip.ring x).st ≠ 6) ∧ (rDecode (s.chip.ring x).words = false) ∧ (stepLt (s.chip.ring x).step (at_ p.body 0 4) = true) :=
  ⟨ups (onRing 0 { st := 3, words := ringW }), 3, rp 0x14 1 0 (leBytes 4 1), by decide⟩
theorem wit_RingData_3 : ∃ (s : State) (x : Nat) (p : Packet), (s.chip.isPowered) ∧ (p.kind = 0x14) ∧ (ringOf s.chip (fld 15 0 p.tag) = some x) ∧ ((s.chip.ring x).st = 6 ∨ rDecode (s.chip.ring x).words = true ∨
      (stepLt (s.chip.ring x).step (at_ p.body 0 4) = false ∧ (at_ p.body 0 4 ≠ (s.chip.ring x).step ∨ rxBuf (s.chip.ring x) = none ∨ ∃ b ∈ rxBuf (s.chip.ring x), ((s.chip.ring x).bufs.getD b {}).hdr = true ∧ ((s.chip.ring x).bufs.getD b {}).step = at_ p.body 0 4))) :=
  ⟨ups (onRing 0 { st := 3, words := ringW, step := 1 }), 3, rp 0x14 1 0 (leBytes 4 0), by decide⟩
theorem wit_RingData_4 : ∃ (s : State) (p : Packet), (s.chip.isPowered) ∧ (p.kind = 0x14) ∧ (ringOf s.chip (fld 15 0 p.tag) = none) :=
  ⟨up, rp 0x14 1 0 [], by decide⟩
theorem wit_RingData_5 : ∃ (s : State) (x b : Nat) (p : Packet), (s.chip.isPowered) ∧ (p.kind = 0x15) ∧ (ringOf s.chip (fld 15 0 p.tag) = some x) ∧ ((s.chip.ring x).st ≠ 6) ∧ ((s.chip.delivered.takeWhile (fun q => q != p)).any (fun q => q.kind == 0x14 && fld 15 0 q.tag == fld 15 0 p.tag) = false) ∧ (rxBuf (s.chip.ring x) = some b) ∧ (((s.chip.ring x).bufs.getD b {}).hdr = true) ∧ (((s.chip.ring x).bufs.getD b {}).step = (s.chip.ring x).step) ∧ (fld 31 16 p.tag < bufChunks (s.chip.slot (s.chip.ring x).slot) ((s.chip.ring x).bufs.getD b {})) :=
  ⟨ups (onRing 0 { st := 3, words := ringW, bufs := [{ hdr := true, tokens := [64] }, {}] }), 3, 0, rp 0x15 1 0 [1#8], by decide⟩
theorem wit_RingData_6 : ∃ (s : State) (x b : Nat) (p : Packet), (s.chip.isPowered) ∧ (p.kind = 0x15) ∧ (ringOf s.chip (fld 15 0 p.tag) = some x) ∧ ((s.chip.ring x).st ≠ 6) ∧ ((s.chip.delivered.takeWhile (fun q => q != p)).any (fun q => q.kind == 0x14 && fld 15 0 q.tag == fld 15 0 p.tag) = false) ∧ (rxBuf (s.chip.ring x) = some b) ∧ (((s.chip.ring x).bufs.getD b {}).hdr = true) ∧ (((s.chip.ring x).bufs.getD b {}).step = (s.chip.ring x).step) ∧ (fld 31 16 p.tag < bufChunks (s.chip.slot (s.chip.ring x).slot) ((s.chip.ring x).bufs.getD b {})) ∧ (b < (s.chip.ring x).bufs.length) :=
  ⟨ups (onRing 0 { st := 3, words := ringW, bufs := [{ hdr := true, tokens := [64] }, {}] }), 3, 0, rp 0x15 1 0 [1#8], by decide⟩
theorem wit_RingData_7 : ∃ (s : State) (x : Nat) (p : Packet), (s.chip.isPowered) ∧ (p.kind = 0x15) ∧ (ringOf s.chip (fld 15 0 p.tag) = some x) ∧ ((s.chip.delivered.takeWhile (fun q => q != p)).any (fun q => q.kind == 0x14 && fld 15 0 q.tag == fld 15 0 p.tag) = true) :=
  ⟨ups { onRing 0 { st := 3, words := ringW } with delivered := [rp 0x14 1 0 []] }, 3, rp 0x15 1 0 [1#8], by decide⟩
theorem wit_RingData_8 : ∃ (s : State) (x : Nat) (p : Packet), (s.chip.isPowered) ∧ (p.kind = 0x15) ∧ (ringOf s.chip (fld 15 0 p.tag) = some x) ∧ ((s.chip.delivered.takeWhile (fun q => q != p)).any (fun q => q.kind == 0x14 && fld 15 0 q.tag == fld 15 0 p.tag) = false) ∧ ((s.chip.ring x).st = 6 ∨ ∀ b ∈ rxBuf (s.chip.ring x), ((s.chip.ring x).bufs.getD b {}).hdr = false ∨ ((s.chip.ring x).bufs.getD b {}).step ≠ (s.chip.ring x).step ∨ bufChunks (s.chip.slot (s.chip.ring x).slot) ((s.chip.ring x).bufs.getD b {}) ≤ fld 31 16 p.tag) :=
  ⟨ups (onRing 0 { st := 3, words := ringW, step := 1 }), 3, rp 0x15 1 0 [1#8], by decide⟩
theorem wit_RingData_9 : ∃ (s : State) (p : Packet), (s.chip.isPowered) ∧ (p.kind = 0x15) ∧ (ringOf s.chip (fld 15 0 p.tag) = none) :=
  ⟨up, rp 0x15 1 0 [], by decide⟩
theorem wit_RingData_10 : ∃ (s : State) (x : RingId) (l : List Byte), (s.chip.isPowered) ∧ ((s.chip.ring x).st = 3) ∧ (rDecode (s.chip.ring x).words = true) ∧ ((s.chip.ring x).owner = (s.chip.ring x).member) ∧ ((s.chip.ring x).qtx = []) ∧ (1 ≤ s.chip.rg (flagReg 0 (rQrdy (s.chip.ring x).words))) ∧ (s.chip.tasRead (cacheBase 0 + rQsrc (s.chip.ring x).words) (rQbytes (s.chip.ring x).words) = .ok l) :=
  ⟨ups ((onRing 0 { st := 3, words := qryW }).setRg (flagReg 0 0) 1), 3, [0#8, 0#8, 0#8, 0#8], by decide +kernel⟩
theorem wit_RingData_11 : ∃ (s : State) (x : RingId) (l : List Byte) (w : List Nat), (s.chip.isPowered) ∧ ((s.chip.ring x).st = 3) ∧ (rDecode (s.chip.ring x).words = true) ∧ ((s.chip.ring x).owner = (s.chip.ring x).member) ∧ ((s.chip.ring x).qtx = []) ∧ (1 ≤ s.chip.rg (flagReg 0 (rQrdy (s.chip.ring x).words))) ∧ (s.chip.tasRead (cacheBase 0 + rQsrc (s.chip.ring x).words) (rQbytes (s.chip.ring x).words) = .ok l) ∧ (rQdst (s.chip.ring x).words + l.length ≤ 0x800000) ∧ (rQrdy (s.chip.ring x).words ≠ rQarr (s.chip.ring x).words) ∧ (∀ cl < 24, s.chip.rg (flagReg cl (rQarr (s.chip.ring x).words)) < 0xFFFF) ∧ (w = (s.chip.coll (rColl (s.chip.ring x).words)).words) ∧ ((s.chip.coll (rColl (s.chip.ring x).words)).st = 0 ∨ kWinOfs w + max 1 (kWin w) * kChunk w ≤ rQdst (s.chip.ring x).words ∨ rQdst (s.chip.ring x).words + l.length ≤ kWinOfs w) :=
  ⟨ups ((onRing 0 { st := 3, words := qryW.set 19 0x100 }).setRg (flagReg 0 0) 1), 3, [0#8, 0#8, 0#8, 0#8], [], by decide +kernel⟩
theorem wit_RingData_12 : ∃ (s : State) (x : RingId), (s.chip.isPowered) ∧ ((s.chip.ring x).st = 3) ∧ (rDecode (s.chip.ring x).words = true) ∧ ((s.chip.ring x).owner = (s.chip.ring x).member) ∧ ((s.chip.ring x).qtx ≠ []) :=
  ⟨ups qryChip, 3, by decide⟩
theorem wit_RingData_13 : ∃ (s : State) (x : RingId), (s.chip.isPowered) ∧ ((s.chip.ring x).st ≠ 3 ∨ rDecode (s.chip.ring x).words = false ∨ (s.chip.ring x).owner ≠ (s.chip.ring x).member ∨ ((s.chip.ring x).qtx = [] ∧ s.chip.rg (flagReg 0 (rQrdy (s.chip.ring x).words)) = 0)) :=
  ⟨up, 3, by decide⟩
theorem wit_RingData_14 : ∃ (s : State) (x : Nat) (p : Packet), (s.chip.isPowered) ∧ (p.kind = 0x16) ∧ (ringOf s.chip (fld 15 0 p.tag) = some x) ∧ ((s.chip.ring x).st = 3) ∧ (fld 31 16 p.tag = (s.chip.ring x).step % 65536) ∧ (16 ≤ p.body.length) ∧ ((s.chip.ring x).qDet = false) ∧ (hAttempt p = (s.chip.ring x).qAtt) :=
  ⟨ups (onRing 1 { st := 3, words := qryW, member := 1 }), 3, { ckPkt 0x16 0 0 [7#8] with tag := 7 }, by decide⟩
theorem wit_RingData_15 : ∃ (s : State) (x : Nat) (p : Packet) (l : List Byte), (s.chip.isPowered) ∧ (p.kind = 0x16) ∧ (ringOf s.chip (fld 15 0 p.tag) = some x) ∧ ((s.chip.ring x).st = 3) ∧ (fld 31 16 p.tag = (s.chip.ring x).step % 65536) ∧ (16 ≤ p.body.length) ∧ ((s.chip.ring x).qDet = false) ∧ (hAttempt p = (s.chip.ring x).qAtt) ∧ ((s.chip.ring x).qDone = false) ∧ (hChunk p ∉ (s.chip.ring x).qrx.landed) ∧ ((assemble (s.chip.ring x).qrx p).2 = some l) ∧ (crc32 l = hCk p) ∧ (rQdst (s.chip.ring x).words + hChunk p * qChunk s.chip (s.chip.ring x) + l.length ≤ 0x800000) :=
  ⟨ups (onRing 1 { st := 3, words := qryW, member := 1 }), 3, { ckPkt 0x16 0 (crc32 [7#8, 8#8]) [7#8, 8#8] with tag := 7 }, [7#8, 8#8], by decide +kernel⟩
theorem wit_RingData_16 : ∃ (s : State) (x : Nat) (p : Packet), (s.chip.isPowered) ∧ (p.kind = 0x16) ∧ (ringOf s.chip (fld 15 0 p.tag) = some x) ∧ ((s.chip.ring x).st = 3) ∧ (fld 31 16 p.tag = (s.chip.ring x).step % 65536) ∧ (16 ≤ p.body.length) ∧ ((s.chip.ring x).qDet = false) ∧ ((s.chip.ring x).qAtt < hAttempt p) :=
  ⟨ups (onRing 1 { st := 3, words := qryW, member := 1 }), 3, { ckPkt 0x16 0 0 [7#8] with tag := 7, body := collHdr 5 1 0 1 0 0 0 0 0 0 }, by decide⟩
theorem wit_RingData_17 : ∃ (s : State) (x : Nat) (p : Packet), (s.chip.isPowered) ∧ (p.kind = 0x16) ∧ (ringOf s.chip (fld 15 0 p.tag) = some x) ∧ ((s.chip.ring x).st = 3) ∧ (fld 31 16 p.tag = (s.chip.ring x).step % 65536) ∧ (p.body.length < 16 ∨ (s.chip.ring x).qDet = true ∨ hAttempt p < (s.chip.ring x).qAtt) :=
  ⟨ups (onRing 0 { st := 3, words := decW }), 3, rp 0x16 1 0 [], by decide⟩
theorem wit_RingData_18 : ∃ (s : State) (x : Nat) (p : Packet), (s.chip.isPowered) ∧ (p.kind = 0x16) ∧ (ringOf s.chip (fld 15 0 p.tag) = some x) ∧ ((s.chip.ring x).st ≠ 6) ∧ (fld 31 16 p.tag = ((s.chip.ring x).step + 1) % 65536) :=
  ⟨ups (onRing 0 { st := 3, words := decW }), 3, rp 0x16 1 1 [], by decide⟩
theorem wit_RingData_19 : ∃ (s : State) (p : Packet), (s.chip.isPowered) ∧ (p.kind = 0x16) ∧ (ringOf s.chip (fld 15 0 p.tag) = none) :=
  ⟨up, rp 0x16 1 0 [], by decide⟩
theorem wit_RingData_20 : ∃ (s : State) (x : RingId) (k : Chip), (s.chip.isPowered) ∧ ((s.chip.ring x).st = 3) ∧ (rDecode (s.chip.ring x).words = true) ∧ (1 ≤ s.chip.rg (flagReg 0 (rPrdy (s.chip.ring x).words))) ∧ (mergeArmed (s.chip.ring x) (s.chip.coll (rColl (s.chip.ring x).words)) (dDim (s.chip.slot (s.chip.ring x).slot).words) = true) ∧ (k = beginRun (rColl (s.chip.ring x).words) (some x.val) ((s.chip.setRg (flagReg 0 (rPrdy (s.chip.ring x).words)) (s.chip.rg (flagReg 0 (rPrdy (s.chip.ring x).words)) - 1)).setRing x { s.chip.ring x with qBad := none })) :=
  ⟨ups mergeRing, 3, beginRun 5 (some 3) ((mergeRing.setRg (flagReg 0 0) 0).setRing 3 { mergeRing.ring 3 with qBad := none }), ⟨by decide, by decide, by decide, by decide, by decide, rfl⟩⟩
theorem wit_RingData_21 : ∃ (s : State) (x : RingId), (s.chip.isPowered) ∧ ((s.chip.ring x).st = 3) ∧ (rDecode (s.chip.ring x).words = true) ∧ ((s.chip.ring x).member ≠ 0) ∧ ((s.chip.ring x).qBad = none) ∧ (1 ≤ s.chip.rg (flagReg 0 (rPrdy (s.chip.ring x).words))) ∧ (mergeArmed (s.chip.ring x) (s.chip.coll (rColl (s.chip.ring x).words)) (dDim (s.chip.slot (s.chip.ring x).slot).words) = true) :=
  ⟨ups mergeRing, 3, by decide⟩
theorem wit_RingData_22 : ∃ (s : State) (x : RingId) (k : Chip), (s.chip.isPowered) ∧ ((s.chip.ring x).st = 3) ∧ (rDecode (s.chip.ring x).words = true) ∧ (1 ≤ s.chip.rg (flagReg 0 (rPrdy (s.chip.ring x).words))) ∧ ((s.chip.coll (rColl (s.chip.ring x).words)).st ≠ 2) ∧ ((s.chip.coll (rColl (s.chip.ring x).words)).st ≠ 3) ∧ (mergeArmed (s.chip.ring x) (s.chip.coll (rColl (s.chip.ring x).words)) (dDim (s.chip.slot (s.chip.ring x).slot).words) = false) ∧ (k = s.chip.setRg (flagReg 0 (rPrdy (s.chip.ring x).words)) (s.chip.rg (flagReg 0 (rPrdy (s.chip.ring x).words)) - 1)) :=
  ⟨ups ((onRing 1 { st := 3, words := decW, member := 1 }).setRg (flagReg 0 0) 1), 3, ((onRing 1 { st := 3, words := decW, member := 1 }).setRg (flagReg 0 0) 1).setRg (flagReg 0 0) 0, by decide⟩
theorem wit_RingData_23 : ∃ (s : State) (x : RingId), (s.chip.isPowered) ∧ ((s.chip.ring x).st ≠ 3 ∨ rDecode (s.chip.ring x).words = false ∨ s.chip.rg (flagReg 0 (rPrdy (s.chip.ring x).words)) = 0 ∨ (s.chip.coll (rColl (s.chip.ring x).words)).st = 2 ∨ (s.chip.coll (rColl (s.chip.ring x).words)).st = 3) :=
  ⟨up, 3, by decide⟩
theorem wit_RingData_24 : ∃ (s : State) (x : Nat) (p : Packet), (s.chip.isPowered) ∧ (ringOf s.chip (fld 15 0 p.tag) = some x) ∧ (s.chip.nowPkt 0x17 p) ∧ (∀ q ∈ (s.chip.coll (hId p)).pieces, q.idx ≠ hChunk p) ∧ (getRx (s.chip.coll (hId p)) (1000 + hRank s.chip (s.chip.coll (hId p)) p) = none) ∧ (hPart p = 0) ∧ (hLast p = true) ∧ (crc32 (p.body.drop 16) = hCk p) :=
  ⟨ups ((onRing 0 { st := 3, words := decW }).setColl 5 { st := 2, words := [0xB9, 352, 0x4040C, 8] ++ List.replicate 28 0, ring := some 3, parts := 2 }), 3, { ckPkt 0x17 1 (crc32 [1#8]) [1#8] with tag := 7 }, by decide +kernel⟩
theorem wit_RingData_25 : ∃ (s : State) (x : Nat) (p : Packet) (n : Nat) (r : RxStream) (y : Coll) (l : List Byte), (s.chip.isPowered) ∧ (ringOf s.chip (fld 15 0 p.tag) = some x) ∧ (s.chip.nowPkt 0x17 p) ∧ (rpartWaits s.chip p = false) ∧ (n = (hRank s.chip (s.chip.coll (hId p)) p)) ∧ (r = (getRx (s.chip.coll (hId p)) (1000 + n)).getD { src := 1000 + n }) ∧ (y = { (s.chip.coll (hId p)) with rx := (s.chip.coll (hId p)).rx.filter (fun q => q.src != 1000 + n) ++ [(assemble r p).1] }) ∧ ((assemble r p).2 = some l) ∧ (crc32 l = hCk p) :=
  ⟨ups ((onRing 0 { st := 3, words := decW }).setColl 5 { st := 2, words := [0xB9, 352, 0x4040C, 8] ++ List.replicate 28 0, ring := some 3, parts := 2 }), 3, { ckPkt 0x17 1 (crc32 [1#8]) [1#8] with tag := 7 }, 1, { src := 1001 }, { st := 2, words := [0xB9, 352, 0x4040C, 8] ++ List.replicate 28 0, ring := some 3, parts := 2, rx := [{ src := 1001 }] }, [1#8], by decide +kernel⟩
theorem wit_RingData_26 : ∃ (s : State) (x : Nat) (p : Packet) (n : Nat) (r : RxStream) (y : Coll), (s.chip.isPowered) ∧ (ringOf s.chip (fld 15 0 p.tag) = some x) ∧ (s.chip.nowPkt 0x17 p) ∧ (rpartWaits s.chip p = false) ∧ (n = (hRank s.chip (s.chip.coll (hId p)) p)) ∧ (r = (getRx (s.chip.coll (hId p)) (1000 + n)).getD { src := 1000 + n }) ∧ (y = { (s.chip.coll (hId p)) with rx := (s.chip.coll (hId p)).rx.filter (fun q => q.src != 1000 + n) ++ [(assemble r p).1] }) ∧ ((assemble r p).2 = none) :=
  ⟨ups ((onRing 0 { st := 3, words := decW }).setColl 5 { st := 2, words := [0xB9, 352, 0x4040C, 8] ++ List.replicate 28 0, ring := some 3, parts := 2 }), 3, { ckPkt 0x17 1 0 [] with tag := 7, body := collHdr 5 0 0 0 0 0 0 0 0 9 ++ [1] }, 1, { src := 1001 }, { st := 2, words := [0xB9, 352, 0x4040C, 8] ++ List.replicate 28 0, ring := some 3, parts := 2, rx := [{ src := 1001, asm := [(0, 1, [1#8])] }] }, by decide +kernel⟩
theorem wit_RingData_27 : ∃ (s : State) (x : Nat) (p : Packet) (n : Nat) (r : RxStream) (y : Coll) (l : List Byte), (s.chip.isPowered) ∧ (ringOf s.chip (fld 15 0 p.tag) = some x) ∧ (s.chip.nowPkt 0x17 p) ∧ (rpartWaits s.chip p = false) ∧ (n = (hRank s.chip (s.chip.coll (hId p)) p)) ∧ (r = (getRx (s.chip.coll (hId p)) (1000 + n)).getD { src := 1000 + n }) ∧ (y = { (s.chip.coll (hId p)) with rx := (s.chip.coll (hId p)).rx.filter (fun q => q.src != 1000 + n) ++ [(assemble r p).1] }) ∧ ((assemble r p).2 = some l) ∧ (crc32 l ≠ hCk p) ∧ (n * 2 ^ 16 + hChunk p ∉ r.bad) :=
  ⟨ups ((onRing 0 { st := 3, words := decW }).setColl 5 { st := 2, words := [0xB9, 352, 0x4040C, 8] ++ List.replicate 28 0, ring := some 3, parts := 2 }), 3, { ckPkt 0x17 1 9 [1#8] with tag := 7 }, 1, { src := 1001 }, { st := 2, words := [0xB9, 352, 0x4040C, 8] ++ List.replicate 28 0, ring := some 3, parts := 2, rx := [{ src := 1001 }] }, [1#8], by decide +kernel⟩
theorem wit_RingData_28 : ∃ (s : State) (p : Packet), (s.chip.isPowered) ∧ (p.kind = 0x17) ∧ (ringOf s.chip (fld 15 0 p.tag) = none) :=
  ⟨up, rp 0x17 1 0 [], by decide⟩
theorem wit_RingData_29 : ∃ (s : State) (x : Nat) (p : Packet) (r : RxStream) (l : List Byte), (s.chip.isPowered) ∧ (ringOf s.chip (fld 15 0 p.tag) = some x) ∧ (s.chip.nowPkt 0x18 p) ∧ ((s.chip.coll (hId p)).detached = false) ∧ (getRx (s.chip.coll (hId p)) (hRank s.chip (s.chip.coll (hId p)) p) = some r) ∧ (hChunk p ∉ r.landed) ∧ ((assemble r p).2 = some l) ∧ (crc32 l = hCk p) :=
  ⟨ups ((onRing 1 { st := 3, words := decW, member := 1 }).setColl 5 { st := 2, words := [0xB9, 352, 0x4040C, 8] ++ List.replicate 28 0, ring := some 3, parts := 2, rank := 1, rx := [{ src := 0 }] }), 3, { ckPkt 0x18 0 (crc32 [1#8]) [1#8] with tag := 7 }, { src := 0 }, [1#8], by decide +kernel⟩
theorem wit_RingData_30 : ∃ (s : State) (x : Nat) (p : Packet) (r : RxStream), (s.chip.isPowered) ∧ (ringOf s.chip (fld 15 0 p.tag) = some x) ∧ (s.chip.nowPkt 0x18 p) ∧ ((s.chip.coll (hId p)).detached = false) ∧ (getRx (s.chip.coll (hId p)) (hRank s.chip (s.chip.coll (hId p)) p) = some r) ∧ (hChunk p ∉ r.landed) ∧ ((assemble r p).2 = none) :=
  ⟨ups ((onRing 1 { st := 3, words := decW, member := 1 }).setColl 5 { st := 2, words := [0xB9, 352, 0x4040C, 8] ++ List.replicate 28 0, ring := some 3, parts := 2, rank := 1, rx := [{ src := 0 }] }), 3, { ckPkt 0x18 0 0 [] with tag := 7, body := collHdr 5 0 0 0 0 0 0 0 0 9 ++ [1] }, { src := 0 }, by decide +kernel⟩
theorem wit_RingData_31 : ∃ (s : State) (x : Nat) (p : Packet), (s.chip.isPowered) ∧ (ringOf s.chip (fld 15 0 p.tag) = some x) ∧ (s.chip.nowPkt 0x18 p) ∧ ((s.chip.coll (hId p)).detached = true) :=
  ⟨ups ((onRing 1 { st := 3, words := decW, member := 1 }).setColl 5 { st := 2, words := [0xB9, 352, 0x4040C, 8] ++ List.replicate 28 0, ring := some 3, parts := 2, rank := 1, detached := true, rx := [{ src := 0 }] }), 3, { ckPkt 0x18 0 0 [] with tag := 7 }, by decide +kernel⟩
theorem wit_RingData_32 : ∃ (s : State) (x k : Nat) (p : Packet) (r : RxStream), (s.chip.isPowered) ∧ (ringOf s.chip (fld 15 0 p.tag) = some x) ∧ (s.chip.nowPkt 0x18 p) ∧ (k = hChunk p) ∧ ((s.chip.coll (hId p)).detached = false) ∧ ((s.chip.coll (hId p)).rank ≠ 0) ∧ (kRouter (s.chip.coll (hId p)).words = true) ∧ ((s.chip.coll (hId p)).rx = [r]) ∧ (r.src = hRank s.chip (s.chip.coll (hId p)) p) ∧ (k ∉ r.landed) ∧ (hPart p = 0) ∧ (hLast p = true) ∧ (r.asm = []) ∧ (crc32 (p.body.drop 16) = hCk p) :=
  ⟨ups ((onRing 1 { st := 3, words := decW, member := 1 }).setColl 5 { st := 2, words := [0xB9, 352, 0x4040C, 8] ++ List.replicate 28 0, ring := some 3, parts := 2, rank := 1, rx := [{ src := 0 }] }), 3, 0, { ckPkt 0x18 0 (crc32 [1#8]) [1#8] with tag := 7 }, { src := 0 }, by decide +kernel⟩
theorem wit_RingData_33 : ∃ (s : State) (p : Packet), (s.chip.isPowered) ∧ (p.kind = 0x18) ∧ (ringOf s.chip (fld 15 0 p.tag) = none) :=
  ⟨up, rp 0x18 1 0 [], by decide⟩
theorem wit_TierAccess_1 : ∃ (s : State) (a n due cls : Nat) (d : List Byte) (l : List Byte), (s.chip.isReady) ∧ (s.chip.serves (.access false a n d)) ∧ (n ≠ 0) ∧ (s.chip.extentOk a n = true) ∧ (s.chip.tasRead a n = .ok l) :=
  ⟨up, 5, 3, 0, 0, [], [0, 0, 0], by decide +kernel⟩
theorem wit_TierAccess_2 : ∃ (s : State) (a n due cls : Nat) (d : List Byte), (s.chip.isReady) ∧ (s.chip.serves (.access false a n d)) ∧ (n ≠ 0) ∧ (a + n ≤ t0Size) ∧ (s.chip.poisonIn a n = none) :=
  ⟨up, 5, 3, 0, 0, [], by decide⟩
theorem wit_TierAccess_3 : ∃ (s : State) (a n due cls : Nat) (d : List Byte), (s.chip.isReady) ∧ (s.chip.serves (.access false a n d)) ∧ (n ≠ 0) ∧ (s.chip.extentOk a n = false ∨ s.chip.tasRead a n = .access) :=
  ⟨up, t0Size, 1, 0, 0, [0#8], by decide⟩
theorem wit_TierAccess_4 : ∃ (s : State) (a n due cls : Nat) (d : List Byte) (g : Nat), (s.chip.isReady) ∧ (s.chip.serves (.access false a n d)) ∧ (0x400000000000 ≤ a) ∧ (a < 0x800000000000) ∧ (n ≠ 0) ∧ (s.chip.extentOk a n = true) ∧ (g = (a - 0x400000000000) / payloadSize) ∧ (gValid (s.chip.mapW g 0) = false) :=
  ⟨ups (granChip false), 0x400000040000, 1, 0, 0, [], 1, by decide⟩
theorem wit_TierAccess_5 : ∃ (s : State) (a n due cls : Nat) (d : List Byte), (s.chip.isReady) ∧ (s.chip.serves (.access false a n d)) ∧ (n ≠ 0) ∧ (a + n ≤ t0Size) ∧ ((s.chip.poisonIn a n).isSome = true) :=
  ⟨ups (chipOn.mark 16 8), 17, 2, 0, 0, [], by decide⟩
theorem wit_TierAccess_6 : ∃ (s : State) (a n due cls : Nat) (d : List Byte) (x : Nat) (k : Chip), (s.chip.isReady) ∧ (s.chip.serves (.access false a n d)) ∧ (n ≠ 0) ∧ (s.chip.extentOk a n = true) ∧ (s.chip.tasRead a n = .poison x) ∧ (k = readBad x (s.chip.withDue due)) :=
  ⟨ups (chipOn.mark 16 8), 17, 2, 0, 0, [], 17, readBad 17 ((chipOn.mark 16 8).withDue 0), ⟨by decide, by decide +kernel, by decide, by decide, by decide +kernel, rfl⟩⟩
theorem wit_TierAccess_7 : ∃ (s : State) (a n due cls : Nat) (d : List Byte) (g : Nat), (s.chip.isReady) ∧ (s.chip.serves (.access false a n d)) ∧ (n ≠ 0) ∧ (s.chip.extentOk a n = true) ∧ (s.chip.tasRead a n = .wait g) :=
  ⟨ups (withMtm (granChip false |>.storeLe 0x40000 8 (granW 0 0 false + 2 ^ 35)) (fun m => { m with refetch := [{ granule := 0, waiting := 1 }] })), 0x400000000000, 1, 0, 0, [], 0, by decide +kernel⟩
theorem wit_TierAccess_8a : ∃ (s : State) (a n due cls : Nat) (d : List Byte), (s.chip.isReady) ∧ (s.chip.serves (.access true a n d)) ∧ (d ≠ []) ∧ (a < 0x400000000000 ∨ 0x800000000000 ≤ a) ∧ (s.chip.extentOk a d.length = true) ∧ (∀ i < d.length, s.chip.guarded (a + i) = false) :=
  ⟨up, 7, 0, 0, 0, [1#8, 2#8], by decide⟩
theorem wit_TierAccess_8b : ∃ (s : State) (a n due cls : Nat) (d : List Byte), (s.chip.isReady) ∧ (s.chip.serves (.access true a n d)) ∧ (d ≠ []) ∧ (a < 0x400000000000 ∨ 0x800000000000 ≤ a) ∧ (s.chip.extentOk a d.length = true) ∧ (∀ i < d.length, s.chip.guarded (a + i) = false) :=
  ⟨up, 0x800000000007, 0, 0, 0, [1#8, 2#8], by decide⟩
theorem wit_TierAccess_9 : ∃ (s : State) (a n due cls : Nat) (d : List Byte), (s.chip.isReady) ∧ (s.chip.serves (.access true a n d)) ∧ (d ≠ []) ∧ (a < 0x400000000000 ∨ 0x800000000000 ≤ a) ∧ (s.chip.extentOk a d.length = true) ∧ (a % payloadSize + d.length ≤ payloadSize) ∧ (∃ i < d.length, s.chip.guarded (a + i) = true) :=
  ⟨ups tierChip, 0x80000, 0, 0, 0, [1#8], by decide⟩
theorem wit_TierAccess_10 : ∃ (s : State) (a n due cls : Nat) (d : List Byte), (s.chip.isReady) ∧ (s.chip.serves (.access true a n d)) ∧ (d ≠ []) ∧ (s.chip.extentOk a d.length = false) :=
  ⟨up, t0Size, 1, 0, 0, [0#8], by decide⟩
theorem wit_TierAccess_11 : ∃ (s : State) (a n due cls : Nat) (d : List Byte), (s.chip.isReady) ∧ (s.chip.serves (.access true a n d)) ∧ (d ≠ []) :=
  ⟨ups (granChip false), 0x400000000005, 0, 0, 0, [1#8], by decide⟩
theorem wit_TierAccess_12a : ∃ (s : State) (a n due cls : Nat) (d : List Byte) (g : Nat), (s.chip.isReady) ∧ (s.chip.serves (.access true a n d)) ∧ (0x400000000000 ≤ a) ∧ (a < 0x800000000000) ∧ (d ≠ []) ∧ (a % payloadSize + d.length ≤ payloadSize) ∧ (g = (a - 0x400000000000) / payloadSize) ∧ (g < s.chip.granules) ∧ (s.chip.extentOk a d.length = true) ∧ (gReserved (s.chip.mapW g 0) = false) ∧ (gValid (s.chip.mapW g 0) = true) ∧ (gRo (s.chip.mapW g 0) = true ∨ gTier (s.chip.mapW g 0) ≠ 0) :=
  ⟨ups (granChip true), 0x400000000000, 0, 0, 0, [1#8], 0, by decide⟩
theorem wit_TierAccess_12b : ∃ (s : State) (a n due cls : Nat) (d : List Byte) (g : Nat), (s.chip.isReady) ∧ (s.chip.serves (.access true a n d)) ∧ (0x400000000000 ≤ a) ∧ (a < 0x800000000000) ∧ (d ≠ []) ∧ (a % payloadSize + d.length ≤ payloadSize) ∧ (g = (a - 0x400000000000) / payloadSize) ∧ (g < s.chip.granules) ∧ (s.chip.extentOk a d.length = true) ∧ (gReserved (s.chip.mapW g 0) = false) ∧ (gValid (s.chip.mapW g 0) = true) ∧ (gRo (s.chip.mapW g 0) = true ∨ gTier (s.chip.mapW g 0) ≠ 0) :=
  ⟨ups (granChip true |>.storeLe 0x40000 8 (granW 0 2 false)), 0x400000000000, 0, 0, 0, [1#8], 0, by decide⟩
theorem wit_TierAccess_13 : ∃ (s : State) (a n due cls : Nat) (d : List Byte) (g : Nat), (s.chip.isReady) ∧ (s.chip.serves (.access true a n d)) ∧ (0x400000000000 ≤ a) ∧ (a < 0x800000000000) ∧ (d ≠ []) ∧ (a % payloadSize + d.length ≤ payloadSize) ∧ (g = (a - 0x400000000000) / payloadSize) ∧ (g < s.chip.granules) ∧ (s.chip.extentOk a d.length = true) ∧ (gReserved (s.chip.mapW g 0) = false) ∧ (gValid (s.chip.mapW g 0) = true) ∧ (gRo (s.chip.mapW g 0) = false) ∧ (gTier (s.chip.mapW g 0) = 0) :=
  ⟨ups (granChip false), 0x400000000005, 0, 0, 0, [1#8], 0, by decide⟩
theorem wit_TierAccess_14 : ∃ (s : State) (a n due cls : Nat) (d : List Byte) (g : Nat) (k : Chip), (s.chip.isReady) ∧ (s.chip.serves (.access true a n d)) ∧ (0x400000000000 ≤ a) ∧ (a < 0x800000000000) ∧ (d ≠ []) ∧ (a % payloadSize + d.length ≤ payloadSize) ∧ (g = (a - 0x400000000000) / payloadSize) ∧ (g < s.chip.granules) ∧ (s.chip.extentOk a d.length = true) ∧ (gReserved (s.chip.mapW g 0) = false) ∧ (gValid (s.chip.mapW g 0) = false) ∧ (granuleFirst g (s.chip.withDue due) = some k) :=
  ⟨ups (granChip false), 0x400000040005, 0, 0, 0, [1#8], 1, (granuleFirst 1 ((granChip false).withDue 0)).getD {}, ⟨by decide, by decide +kernel, by decide, by decide, by decide, by decide, by decide, by decide, by decide +kernel, by decide +kernel, by decide +kernel, some_getD_of (by decide +kernel)⟩⟩
theorem wit_TierAccess_15 : ∃ (s : State) (a n due cls : Nat) (d : List Byte) (g : Nat), (s.chip.isReady) ∧ (s.chip.serves (.access true a n d)) ∧ (0x400000000000 ≤ a) ∧ (a < 0x800000000000) ∧ (d ≠ []) ∧ (a % payloadSize + d.length ≤ payloadSize) ∧ (g = (a - 0x400000000000) / payloadSize) ∧ (g < s.chip.granules) ∧ (s.chip.extentOk a d.length = true) ∧ (gReserved (s.chip.mapW g 0) = true ∨ (gValid (s.chip.mapW g 0) = false ∧ granuleFirst g (s.chip.withDue due) = none)) :=
  ⟨ups (granChip false |>.storeLe 0x40000 8 (granW 0 3 false)), 0x400000000005, 0, 0, 0, [1#8], 0, ⟨by decide, by decide +kernel, by decide, by decide, by decide, by decide, by decide, by decide, by decide +kernel, .inl (by decide +kernel)⟩⟩
theorem wit_TierAccess_16 : ∃ (s : State) (a n due cls : Nat) (d : List Byte) (w : Bool) (i : Nat), (s.chip.isReady) ∧ (s.chip.heldAt (s.chip.reqRanges (.access w a n d)) = some i) :=
  ⟨ups refreshChip, 0, 1, 0, 0, [], false, refreshAt, ⟨by decide, refreshChip_held⟩⟩
theorem wit_TierAccess_17 : ∃ (s : State) (n : GmcId) (i : Nat), (s.chip.isReady) ∧ (t0Size ≤ i ∨ i / 128 * 128 + 12288 < t0Size) :=
  ⟨up, 11, 200, by decide⟩
theorem wit_TierAccess_18 : ∃ (s : State) (n : GmcId) (i : Nat), (s.chip.isReady) ∧ (i < t0Size) ∧ (t0Size ≤ i / 128 * 128 + 12288) :=
  ⟨up, 11, t0Size - 1, by decide⟩
theorem wit_TierAccess_19 : ∃ (s : State) (n : GmcId) (i : Nat), (s.chip.isReady) ∧ (i < t0Size) :=
  ⟨up, 11, 200, by decide⟩
theorem wit_TierAccess_20 : ∃ (s : State) (n : GmcId) (i : Nat), (s.chip.isReady) ∧ (i < t0Size) :=
  ⟨up, 0, 200, by decide⟩
theorem wit_TierAccess_21 : ∃ (s : State) (n : GmcId) (i : Nat), (s.chip.isReady) ∧ (i < t0Size) ∧ (s.chip.poolFrame (i / 128 * 128) = none) :=
  ⟨up, 0, 200, by decide⟩
theorem wit_TierAccess_22 : ∃ (s : State) (n : GmcId), (s.chip.isReady) ∧ (s.chip.pwr.st ≠ 3) ∧ (refreshDue n s.chip = true) :=
  ⟨ups (chipOn.setRg (mtmReg 0x16C) 12), 0, by decide⟩
theorem wit_TierAccess_23 : ∃ (s : State) (n : GmcId), (s.chip.isReady) ∧ (refreshDue n s.chip = false ∨ s.chip.pwr.st = 3) :=
  ⟨ups (chipOn.setRg (mtmReg 0x16C) 12), 1, by decide⟩
theorem wit_TierRegions_1 : ∃ (s : State) (r : Nat), (s.chip.isReady) ∧ (31 ≤ r) :=
  ⟨up, 31, by decide⟩
theorem wit_TierRegions_2 : ∃ (s : State) (r : Nat), (s.chip.isReady) ∧ (r < 31) ∧ (rgReserved (s.chip.regEntry r) = true ∨ ∃ g ∈ s.chip.regGranules r, s.chip.granules ≤ g ∨ gValid (s.chip.mapW g 0) = false ∨ gReserved (s.chip.mapW g 0) = true ∨ gTier (s.chip.mapW g 0) ≠ 0) :=
  ⟨ups (tierChip.storeLe 0x60004 4 1), 0, by decide⟩
theorem wit_TierRegions_3 : ∃ (s : State) (r : Nat) (k : Chip), (s.chip.isReady) ∧ (r < 31) ∧ (rgReserved (s.chip.regEntry r) = false) ∧ (∀ g ∈ s.chip.regGranules r, g < s.chip.granules ∧ gValid (s.chip.mapW g 0) = true ∧ gReserved (s.chip.mapW g 0) = false ∧ gTier (s.chip.mapW g 0) = 0) ∧ (k = forEach (s.chip.regGranules r) (sealGranule r) s.chip) :=
  ⟨ups (granChip false), 0, forEach ((granChip false).regGranules 0) (sealGranule 0) (granChip false), ⟨by decide, by decide, by decide +kernel, by decide +kernel, rfl⟩⟩
theorem wit_TierRegions_4 : ∃ (s : State) (r : Nat), (s.chip.isReady) ∧ (r < 31) ∧ (rgReserved (s.chip.regEntry r) = false) ∧ (∀ g ∈ s.chip.regGranules r, g < s.chip.granules ∧ gValid (s.chip.mapW g 0) = true ∧ gReserved (s.chip.mapW g 0) = false ∧ gTier (s.chip.mapW g 0) = 0) ∧ (s.chip.regionBase + 1024 ≤ s.chip.mapTab) ∧ (s.chip.mapTab + 16 * s.chip.granules ≤ s.chip.frameBase) :=
  ⟨ups (((granChip false).setRg (mtmReg 0x13C) 0x3F000).storeLe 0x3F004 4 1), 0, by decide⟩
theorem wit_TierRegions_5 : ∃ (s : State) (r : Nat), (s.chip.isReady) ∧ (r < 31) ∧ (s.chip.mtm.regionNow = none) :=
  ⟨ups (granChip true), 0, by decide⟩
theorem wit_TierRegions_6a : ∃ (s : State) (r : Nat), (s.chip.isReady) ∧ (31 ≤ r ∨ s.chip.mtm.regionNow.isSome = true) :=
  ⟨up, 31, by decide⟩
theorem wit_TierRegions_6b : ∃ (s : State) (r : Nat), (s.chip.isReady) ∧ (31 ≤ r ∨ s.chip.mtm.regionNow.isSome = true) :=
  ⟨ups (withMtm chipOn (fun m => { m with regionNow := some (3, 2) })), 0, by decide⟩
theorem wit_TierRegions_7 : ∃ (s : State) (r : Nat), (s.chip.isReady) ∧ (r < 31) ∧ (s.chip.mtm.regionNow = none) ∧ (s.chip.pwr.st ≠ 2) ∧ (∀ l < 16, (s.chip.loan l).st ≠ 3) ∧ (∀ t < 8, (s.chip.t2s t).st ≠ 3) ∧ (s.chip.mtm.pfCopies = []) ∧ (∀ g ∈ s.chip.regGranules r, regionNeeds 2 g s.chip = false) :=
  ⟨ups (granChip false), 0, by decide⟩
theorem wit_TierRegions_8 : ∃ (s : State) (r : Nat), (s.chip.isReady) ∧ (r < 31) ∧ (s.chip.mtm.regionNow = none) :=
  ⟨ups (granChip true), 0, by decide⟩
theorem wit_TierRegions_9a : ∃ (s : State) (r : Nat), (s.chip.isReady) ∧ (31 ≤ r ∨ s.chip.mtm.regionNow.isSome = true) :=
  ⟨up, 31, by decide⟩
theorem wit_TierRegions_9b : ∃ (s : State) (r : Nat), (s.chip.isReady) ∧ (31 ≤ r ∨ s.chip.mtm.regionNow.isSome = true) :=
  ⟨ups (withMtm chipOn (fun m => { m with regionNow := some (3, 2) })), 0, by decide⟩
theorem wit_TierRegions_10 : ∃ (s : State) (r : Nat), (s.chip.isReady) ∧ (r < 31) ∧ (s.chip.mtm.regionNow = none) ∧ (s.chip.pwr.st ≠ 2) ∧ (∀ l < 16, (s.chip.loan l).st ≠ 3) ∧ (∀ t < 8, (s.chip.t2s t).st ≠ 3) ∧ (s.chip.mtm.pfCopies = []) ∧ (∀ g ∈ s.chip.regGranules r, regionNeeds 3 g s.chip = false) :=
  ⟨ups (granChip false), 0, by decide⟩
theorem wit_TierRegions_11 : ∃ (s : State) (r g d : Nat), (s.chip.isReady) ∧ (r < 31) ∧ (s.chip.mtm.regionNow = none) ∧ (s.chip.mtm.migs = []) ∧ (s.chip.pwr.st ≠ 2) ∧ (∀ l < 16, (s.chip.loan l).st ≠ 3) ∧ (∀ t < 8, (s.chip.t2s t).st ≠ 3) ∧ (s.chip.mtm.pfCopies = []) ∧ (s.chip.regGranules r = [g]) ∧ (regionNeeds 2 g s.chip = true) ∧ (gMoving (s.chip.mapW g 0) = false) ∧ (s.chip.lowDest false = some (2, d)) :=
  ⟨ups (t2Chip true 2), 0, 0, 0, by decide⟩
theorem wit_TierRegions_12 : ∃ (s : State) (i : Nat), (s.chip.isReady) ∧ (s.chip.mtm.migs[i]? = none) :=
  ⟨up, 0, by decide⟩
theorem wit_TierRegions_13 : ∃ (s : State) (i : Nat) (m : Mig), (s.chip.isReady) ∧ (s.chip.mtm.migs[i]? = some m) ∧ (s.chip.mtm.reqs.any (fun r => r.granule.isNone && r.mig == m.id) = true) :=
  ⟨ups (withMtm chipOn (fun m => { m with migs := [{ kind := .evictGranule 1 }], reqs := [{}] })), 0, { kind := .evictGranule 1 }, by decide⟩
theorem wit_TierRegions_14 : ∃ (s : State) (i : Nat) (m : Mig), (s.chip.isReady) ∧ (s.chip.mtm.migs[i]? = some m) ∧ (s.chip.mtm.reqs.any (fun r => r.granule.isNone && r.mig == m.id) = false) ∧ (s.chip.frameBad m.srcTier m.src 0 frameSize = false) ∧ (migMatches m s.chip = true) :=
  ⟨ups landChip, 0, landKv, ⟨by decide, by rfl, by rfl, by decide, landChip_matches⟩⟩
theorem wit_TierRegions_15 : ∃ (s : State) (i : Nat) (m : Mig), (s.chip.isReady) ∧ (s.chip.mtm.migs[i]? = some m) ∧ (s.chip.mtm.reqs.any (fun r => r.granule.isNone && r.mig == m.id) = false) ∧ (s.chip.frameBad m.srcTier m.src 0 frameSize = true ∨ migMatches m s.chip = false) :=
  ⟨ups goneChip, 0, { kind := .evictGranule 1, srcTier := 2 }, by decide +kernel⟩
theorem wit_TierRegions_16 : ∃ (s : State) (i : Nat) (m : Mig), (s.chip.isReady) ∧ (s.chip.mtm.migs[i]? = some m) ∧ (s.chip.mtm.reqs = []) ∧ (m.dstTier = 2) ∧ (s.chip.frameBad m.srcTier m.src 0 frameSize = false) ∧ (migMatches m s.chip = true) :=
  ⟨ups landChip, 0, landKv, ⟨by decide, by rfl, by rfl, by rfl, by decide, landChip_matches⟩⟩
theorem wit_TierRegions_17 : ∃ (s : State), (s.chip.isReady) ∧ (s.chip.poolEn = false ∨ s.chip.mustEvict = false ∨ s.chip.migFree = false ∨ s.chip.pwr.st = 2) :=
  ⟨up, by decide⟩
theorem wit_TierRegions_18 : ∃ (s : State) (f : Nat) (l : Leave), (s.chip.isReady) ∧ (s.chip.poolEn = true) ∧ (s.chip.mustEvict = true) ∧ (s.chip.migFree = true) ∧ (s.chip.pwr.st ≠ 2) ∧ (s.chip.victim = some (f, l)) :=
  ⟨ups ((t2Chip true 2).setRg (mtmReg 0x150) 1), 0, .copyGran 0 2 0, by decide +kernel⟩
theorem wit_TierRegions_19 : ∃ (s : State) (f g t d : Nat), (s.chip.isReady) ∧ (s.chip.poolEn = true) ∧ (s.chip.mustEvict = true) ∧ (s.chip.migFree = true) ∧ (s.chip.pwr.st ≠ 2) ∧ (s.chip.victim = some (f, .copyGran g t d)) :=
  ⟨ups ((t2Chip true 2).setRg (mtmReg 0x150) 1), 0, 0, 2, 0, by decide⟩
theorem wit_TierRegions_20 : ∃ (s : State), (s.chip.isReady) ∧ (s.chip.poolEn = true) ∧ (s.chip.mustEvict = true) ∧ (s.chip.migFree = true) ∧ (s.chip.pwr.st ≠ 2) ∧ (s.chip.victim = none) :=
  ⟨ups (tierChip.setRg (mtmReg 0x150) 1), by decide⟩
theorem wit_TierRegions_21 : ∃ (s : State) (n : SlotId) (l pg : Nat), (s.chip.isReady) ∧ (bit 2 s.chip.mtmCtl = false ∨ s.chip.migFree = false ∨ s.chip.pwr.st = 2 ∨ (s.chip.slot n).st < 2 ∨ 4 < (s.chip.slot n).st ∨ s.chip.poolFree ≤ fld 15 0 (s.chip.rg (mtmReg 0x150)) * 64 ∨
      dLayers (s.chip.slot n).words ≤ l ∨ dBlocks (s.chip.slot n).words * 512 ≤ pg ∨ eTier (pte s.chip (s.chip.slot n).root l pg) = 0 ∨ eValid (pte s.chip (s.chip.slot n).root l pg) = false ∨ ePois (pte s.chip (s.chip.slot n).root l pg) = true ∨ s.chip.freeFrame = none) :=
  ⟨up, 3, 0, 0, by decide⟩
theorem wit_TierRegions_22 : ∃ (s : State) (n : SlotId) (l pg e k : Nat), (s.chip.isReady) ∧ (s.chip.pwr.st ≠ 2) ∧ (bit 2 s.chip.mtmCtl = true) ∧ (s.chip.migFree = true) ∧ (2 ≤ (s.chip.slot n).st) ∧ ((s.chip.slot n).st ≤ 4) ∧ (fld 15 0 (s.chip.rg (mtmReg 0x150)) * 64 < s.chip.poolFree) ∧ (l < dLayers (s.chip.slot n).words) ∧ (pg < dBlocks (s.chip.slot n).words * 512) ∧ (e = pte s.chip (s.chip.slot n).root l pg) ∧ (eValid e = true) ∧ (eTier e ≠ 0) ∧ (ePois e = false) ∧ (s.chip.frameBad (eTier e) (eFrame e) 0 1 = false) ∧ (s.chip.recKind (eTier e) (eFrame e) = 2) ∧ (refCnt s.chip (eTier e) (eFrame e) = 1) ∧ (bit 8 (s.chip.recW (eTier e) (eFrame e) 0) = false) ∧ (s.chip.freeFrame = some k) :=
  ⟨ups ((((((kvChip.setRg (mtmReg 0x150) 0).setRg (mtmReg 0x100) 5).storeLe 0x3000 8 (mkPte 1 2 true false 0 0)).setRg (bank 0 (pgCxl 0) 0x120) 0x98000).setT2 0 { st := 2, frames := 4 }).storeLe 0x98010 4 (2 + 2 ^ 16)), 0, 0, 0, mkPte 1 2 true false 0 0, 1, by decide⟩
theorem wit_TierLending_1a : ∃ (s : State) (l : LoanId), (s.chip.isReady) ∧ (l.val < 16 ∨ (s.chip.loan l).st ≠ 0) :=
  ⟨up, 15, by decide⟩
theorem wit_TierLending_1b : ∃ (s : State) (l : LoanId), (s.chip.isReady) ∧ (l.val < 16 ∨ (s.chip.loan l).st ≠ 0) :=
  ⟨ups ((tierChip).setLoan 16 { st := 2 }), 16, by decide⟩
theorem wit_TierLending_2 : ∃ (s : State) (l : LoanId) (q n : Nat), (s.chip.isReady) ∧ (16 ≤ l.val) ∧ ((s.chip.loan l).st = 0) ∧ (q = fld 10 0 (s.chip.rg (bank l pgMtm 0x1B0))) ∧ (n = fld 25 0 (s.chip.rg (bank l pgMtm 0x1B4))) ∧ (s.chip.poolFree < n + fld 29 0 (s.chip.rg (mtmReg 0x1CC)) ∨ s.chip.loanMax < n ∨ (s.chip.egress q 0).1 ≠ s.chip.sliceId) :=
  ⟨ups (tierChip.setRg (bank 31 pgMtm 0x1B4) 9), 31, 0, 9, by decide⟩
theorem wit_TierLending_3 : ∃ (s : State) (l : LoanId) (q n : Nat), (s.chip.isReady) ∧ (16 ≤ l.val) ∧ ((s.chip.loan l).st = 0) ∧ (q = fld 10 0 (s.chip.rg (bank l pgMtm 0x1B0))) ∧ (n = fld 25 0 (s.chip.rg (bank l pgMtm 0x1B4))) ∧ (n + fld 29 0 (s.chip.rg (mtmReg 0x1CC)) ≤ s.chip.poolFree) ∧ (n ≤ s.chip.loanMax) ∧ ((s.chip.egress q 0).1 = s.chip.sliceId) :=
  ⟨ups ((tierChip.setRg (bank 31 pgMtm 0x1B4) 2).setRg (mtmReg 0x1CC) 0), 31, 0, 2, by decide⟩
theorem wit_TierLending_4 : ∃ (s : State) (p : Packet) (l n : Nat), (s.chip.isReady) ∧ (p.kind = 0x30) ∧ (n = fld 25 0 (at_ p.body 0 4)) ∧ (l < 16) ∧ ((s.chip.loan l).st = 0) ∧ (∀ m < l, (s.chip.loan m).st ≠ 0) ∧ (bit 6 s.chip.mtmCtl = true) ∧ (n ≤ s.chip.loanMax) :=
  ⟨ups ((tierChip).setLoan 0 { st := 2 }), msg 0x30 1 16 (leBytes 4 3), 1, 3, by decide⟩
theorem wit_TierLending_5 : ∃ (s : State) (p : Packet), (s.chip.isReady) ∧ (p.kind = 0x30) ∧ (bit 6 s.chip.mtmCtl = false ∨ s.chip.loanMax < fld 25 0 (at_ p.body 0 4) ∨ ∀ m < 16, (s.chip.loan m).st ≠ 0) :=
  ⟨up, msg 0x30 1 16 (leBytes 4 3), by decide⟩
theorem wit_TierLending_6 : ∃ (s : State) (p : Packet) (l : Nat), (s.chip.isReady) ∧ (p.kind = 0x31) ∧ (s.chip.offeredTo p.src = some l) :=
  ⟨ups ((tierChip).setLoan 20 { st := 1, peer := 3, frames := 2 }), msg 0x31 3 5 (leBytes 4 5), 20, by decide⟩
theorem wit_TierLending_7 : ∃ (s : State) (p : Packet), (s.chip.isReady) ∧ (p.kind = 0x31) ∧ (s.chip.offeredTo p.src = none) :=
  ⟨up, msg 0x31 3 5 [], by decide⟩
theorem wit_TierLending_8 : ∃ (s : State) (p : Packet) (l : Nat), (s.chip.isReady) ∧ (p.kind = 0x32) ∧ (s.chip.offeredTo p.src = some l) :=
  ⟨ups ((tierChip).setLoan 20 { st := 1, peer := 3, frames := 2 }), msg 0x32 3 5 [], 20, by decide⟩
theorem wit_TierLending_9 : ∃ (s : State) (p : Packet), (s.chip.isReady) ∧ (p.kind = 0x32) ∧ (s.chip.offeredTo p.src = none) :=
  ⟨up, msg 0x32 3 5 [], by decide⟩
theorem wit_TierLending_10 : ∃ (s : State) (l : LoanId), (s.chip.isReady) ∧ (l.val < 16 ∨ (s.chip.loan l).st ≠ 2) :=
  ⟨up, 15, by decide⟩
theorem wit_TierLending_11 : ∃ (s : State) (l : LoanId), (s.chip.isReady) ∧ (16 ≤ l.val) ∧ ((s.chip.loan l).st = 2) :=
  ⟨ups ((tierChip).setLoan 20 { st := 2, peer := 0 }), 20, by decide⟩
theorem wit_TierLending_12 : ∃ (s : State) (l : LoanId), (s.chip.isReady) ∧ (16 ≤ l.val ∨ (s.chip.loan l).st ≠ 2) :=
  ⟨up, 16, by decide⟩
theorem wit_TierLending_13 : ∃ (s : State) (l : LoanId), (s.chip.isReady) ∧ (l.val < 16) ∧ ((s.chip.loan l).st = 2) :=
  ⟨ups ((tierChip).setLoan 2 { st := 2, frames := 4 }), 2, by decide⟩
theorem wit_TierLending_14 : ∃ (s : State) (p : Packet) (l : Nat), (s.chip.isReady) ∧ (p.kind = 0x33) ∧ (s.chip.borrowedFrom p = some l) ∧ ((s.chip.loan l).st = 2) :=
  ⟨ups ((tierChip).setLoan 2 { st := 2, frames := 4, peer := 1, peerCtx := 17 }), msg 0x33 1 17 (leBytes 4 900), 2, by decide⟩
theorem wit_TierLending_15 : ∃ (s : State) (p : Packet) (l : Nat), (s.chip.isReady) ∧ (p.kind = 0x33) ∧ (s.chip.borrowedFrom p = some l) ∧ ((s.chip.loan l).st ≠ 2) :=
  ⟨ups ((tierChip).setLoan 2 { st := 3, frames := 4, peer := 1, peerCtx := 17 }), msg 0x33 1 17 [], 2, by decide⟩
theorem wit_TierLending_16 : ∃ (s : State) (p : Packet), (s.chip.isReady) ∧ (p.kind = 0x33) ∧ (s.chip.borrowedFrom p = none) :=
  ⟨up, msg 0x33 1 17 [], by decide⟩
theorem wit_TierLending_17 : ∃ (s : State) (l : LoanId), (s.chip.isReady) ∧ (l.val < 16) ∧ ((s.chip.loan l).st = 3) ∧ ((s.chip.loan l).sent = false) ∧ (s.chip.loanRefd l = []) ∧ (s.chip.quar.any (fun q => !q.unit && q.tier == 1 && fld 29 26 q.idx == l.val) = false) :=
  ⟨ups ((tierChip).setLoan 2 { st := 3, frames := 4 }), 2, by decide⟩
theorem wit_TierLending_18 : ∃ (s : State) (l : LoanId), (s.chip.isReady) ∧ (16 ≤ l.val ∨ (s.chip.loan l).st ≠ 3 ∨ (s.chip.loan l).sent = true ∨ s.chip.loanRefd l ≠ [] ∨ s.chip.quar.any (fun q => !q.unit && q.tier == 1 && fld 29 26 q.idx == l.val) = true) :=
  ⟨up, 2, by decide⟩
theorem wit_TierLending_19 : ∃ (s : State) (p : Packet) (l : Nat), (s.chip.isReady) ∧ (p.kind = 0x34) ∧ (s.chip.lentTo p = some l) :=
  ⟨ups ((tierChip).setLoan 20 { st := 3, frames := 1, peer := 1, peerCtx := 2 }), msg 0x34 1 2 [], 20, by decide⟩
theorem wit_TierLending_20 : ∃ (s : State) (p : Packet), (s.chip.isReady) ∧ (p.kind = 0x34) ∧ (s.chip.lentTo p = none) :=
  ⟨up, msg 0x34 1 2 [], by decide⟩
theorem wit_TierLending_21 : ∃ (s : State) (p : Packet) (l : Nat), (s.chip.isReady) ∧ (p.kind = 0x35) ∧ (s.chip.borrowedFrom p = some l) :=
  ⟨ups ((tierChip).setLoan 2 { st := 3, frames := 4, peer := 1, peerCtx := 17 }), msg 0x35 1 17 [], 2, by decide⟩
theorem wit_TierLending_22 : ∃ (s : State) (p : Packet), (s.chip.isReady) ∧ (p.kind = 0x35) ∧ (s.chip.borrowedFrom p = none) :=
  ⟨up, msg 0x35 1 17 [], by decide⟩
theorem wit_TierLending_23 : ∃ (s : State) (l : LoanId) (d : Nat), (s.chip.isReady) ∧ (16 ≤ l.val) ∧ ((s.chip.loan l).st = 3) ∧ ((s.chip.loan l).deadline = some d) ∧ (d ≤ s.chip.beat) ∧ ((s.chip.loan l).passed = false) :=
  ⟨ups ((tierChip).setLoan 20 { st := 3, deadline := some 0 }), 20, 0, by decide⟩
theorem wit_TierLending_24 : ∃ (s : State) (l : LoanId), (s.chip.isReady) ∧ (l.val < 16 ∨ (s.chip.loan l).passed = true ∨ (s.chip.loan l).st ≠ 3 ∨ ∀ d ∈ (s.chip.loan l).deadline, s.chip.beat < d) :=
  ⟨up, 20, by decide⟩
theorem wit_TierRemote_1 : ∃ (s : State) (p : Packet), (s.chip.isReady) ∧ (p.kind = 1) ∧ (s.chip.serves (.rread p)) ∧ (s.chip.lentTo p = none) :=
  ⟨up, msg 1 1 2 [], by decide⟩
theorem wit_TierRemote_2 : ∃ (s : State) (p : Packet) (l i o n : Nat), (s.chip.isReady) ∧ (p.kind = 1) ∧ (s.chip.serves (.rread p)) ∧ (s.chip.lentTo p = some l) ∧ (i = fld 25 0 (at_ p.body 0 4)) ∧ (o = fld 18 0 (at_ p.body 4 4)) ∧ (n = fld 16 0 (at_ p.body 8 4)) ∧ (i < (s.chip.loan l).frames) ∧ (1 ≤ n) ∧ (n ≤ 65536) ∧ (o + n ≤ frameSize) :=
  ⟨ups ((tierChip).setLoan 20 { st := 2, frames := 1, peer := 1, peerCtx := 2 }), msg 1 1 2 (leBytes 4 0 ++ leBytes 4 0 ++ leBytes 4 4 ++ leBytes 4 9), 20, 0, 0, 4, by decide⟩
theorem wit_TierRemote_3 : ∃ (s : State) (p : Packet) (l i : Nat), (s.chip.isReady) ∧ (p.kind = 1) ∧ (s.chip.serves (.rread p)) ∧ (s.chip.lentTo p = some l) ∧ (i = fld 25 0 (at_ p.body 0 4)) ∧ ((s.chip.loan l).frames ≤ i ∨ fld 16 0 (at_ p.body 8 4) = 0 ∨ 65536 < fld 16 0 (at_ p.body 8 4) ∨ frameSize < fld 18 0 (at_ p.body 4 4) + fld 16 0 (at_ p.body 8 4)) :=
  ⟨ups ((tierChip).setLoan 20 { st := 2, frames := 1, peer := 1, peerCtx := 2 }), msg 1 1 2 [], 20, 0, by decide⟩
theorem wit_TierRemote_4 : ∃ (s : State) (p : Packet) (i : Nat), (s.chip.isReady) ∧ (p.kind = 1) ∧ (s.chip.heldAt (s.chip.reqRanges (.rread p)) = some i) :=
  ⟨ups lendHeld, lendMsg, lendAt, ⟨by decide, by decide, lendHeld_held⟩⟩
theorem wit_TierRemote_5 : ∃ (s : State) (p : Packet), (s.chip.isReady) ∧ (p.kind = 3) ∧ (s.chip.lentTo p = none) :=
  ⟨up, msg 3 1 2 [], by decide⟩
theorem wit_TierRemote_6 : ∃ (s : State) (p : Packet) (l i : Nat), (s.chip.isReady) ∧ (p.kind = 3) ∧ (s.chip.lentTo p = some l) ∧ (i = fld 25 0 (at_ p.body 0 4)) ∧ ((s.chip.loan l).frames ≤ i ∨ frameSize < fld 18 0 (at_ p.body 4 4) + (p.body.drop 8).length) :=
  ⟨ups ((tierChip).setLoan 20 { st := 2, frames := 1, peer := 1, peerCtx := 2 }), msg 3 1 2 (leBytes 4 9), 20, 9, by decide⟩
theorem wit_TierRemote_7 : ∃ (s : State) (p : Packet) (l i o : Nat), (s.chip.isReady) ∧ (p.kind = 3) ∧ (s.chip.lentTo p = some l) ∧ (i = fld 25 0 (at_ p.body 0 4)) ∧ (o = fld 18 0 (at_ p.body 4 4)) ∧ (i < (s.chip.loan l).frames) ∧ (o + (p.body.drop 8).length ≤ frameSize) ∧ ((s.chip.loan l).sealed.contains i = false) :=
  ⟨ups ((tierChip).setLoan 20 { st := 2, frames := 1, peer := 1, peerCtx := 2 }), msg 3 1 2 (leBytes 4 0 ++ leBytes 4 7 ++ [1#8]), 20, 0, 7, by decide⟩
theorem wit_TierRemote_8 : ∃ (s : State) (p : Packet) (l i : Nat), (s.chip.isReady) ∧ (p.kind = 3) ∧ (s.chip.lentTo p = some l) ∧ (i = fld 25 0 (at_ p.body 0 4)) ∧ (i < (s.chip.loan l).frames) ∧ (fld 18 0 (at_ p.body 4 4) + (p.body.drop 8).length ≤ frameSize) ∧ ((s.chip.loan l).sealed.contains i = true) :=
  ⟨ups ((tierChip).setLoan 20 { st := 2, frames := 1, peer := 1, peerCtx := 2, sealed := [0] }), msg 3 1 2 [], 20, 0, by decide⟩
theorem wit_TierRemote_9 : ∃ (s : State) (p : Packet) (l i : Nat), (s.chip.isReady) ∧ (p.kind = 4) ∧ (s.chip.lentTo p = some l) ∧ (i = fld 25 0 (at_ p.body 0 4)) ∧ (i < (s.chip.loan l).frames) :=
  ⟨ups ((tierChip).setLoan 20 { st := 2, frames := 1, peer := 1, peerCtx := 2 }), msg 4 1 2 [], 20, 0, by decide⟩
theorem wit_TierRemote_10 : ∃ (s : State) (p : Packet), (s.chip.isReady) ∧ (p.kind = 4) ∧ (∀ l ∈ s.chip.lentTo p, (s.chip.loan l).frames ≤ fld 25 0 (at_ p.body 0 4)) :=
  ⟨up, msg 4 1 2 [], by decide⟩
theorem wit_TierRemote_11 : ∃ (s : State) (p : Packet) (l i : Nat), (s.chip.isReady) ∧ (p.kind = 5) ∧ (s.chip.lentTo p = some l) ∧ (i = fld 25 0 (at_ p.body 0 4)) ∧ (i < (s.chip.loan l).frames) :=
  ⟨ups ((tierChip).setLoan 20 { st := 2, frames := 1, peer := 1, peerCtx := 2, sealed := [0] }), msg 5 1 2 [], 20, 0, by decide⟩
theorem wit_TierRemote_12 : ∃ (s : State) (p : Packet), (s.chip.isReady) ∧ (p.kind = 5) ∧ (∀ l ∈ s.chip.lentTo p, (s.chip.loan l).frames ≤ fld 25 0 (at_ p.body 0 4)) :=
  ⟨up, msg 5 1 2 [], by decide⟩
theorem wit_TierRemote_13 : ∃ (s : State) (p : Packet) (r o g : Nat), (s.chip.isReady) ∧ (p.kind = 6) ∧ (s.chip.serves (.gread p)) ∧ (r = fld 4 0 (at_ p.body 0 4)) ∧ (o = fld 27 0 (at_ p.body 4 4)) ∧ (r < 31) ∧ (o < rgCount (s.chip.regEntry r)) ∧ (g = rgFirst (s.chip.regEntry r) + o) ∧ (g < s.chip.granules) ∧ (gValid (s.chip.mapW g 0) = true) ∧ (gTier (s.chip.mapW g 0) = 0) :=
  ⟨ups (granChip true), msg 6 1 0 [], 0, 0, 0, by decide⟩
theorem wit_TierRemote_14 : ∃ (s : State) (p : Packet) (r o g : Nat), (s.chip.isReady) ∧ (p.kind = 6) ∧ (s.chip.serves (.gread p)) ∧ (r = fld 4 0 (at_ p.body 0 4)) ∧ (o = fld 27 0 (at_ p.body 4 4)) ∧ (r < 31) ∧ (o < rgCount (s.chip.regEntry r)) ∧ (g = rgFirst (s.chip.regEntry r) + o) ∧ (g < s.chip.granules) ∧ (gValid (s.chip.mapW g 0) = false ∨ gTier (s.chip.mapW g 0) ≠ 0) :=
  ⟨ups (tierChip.storeLe 0x60004 4 1), msg 6 1 0 [], 0, 0, 0, by decide⟩
theorem wit_TierRemote_15 : ∃ (s : State) (p : Packet) (r o : Nat), (s.chip.isReady) ∧ (p.kind = 6) ∧ (s.chip.serves (.gread p)) ∧ (r = fld 4 0 (at_ p.body 0 4)) ∧ (o = fld 27 0 (at_ p.body 4 4)) ∧ (31 ≤ r ∨ rgCount (s.chip.regEntry r) ≤ o ∨ s.chip.granules ≤ rgFirst (s.chip.regEntry r) + o) :=
  ⟨up, msg 6 1 0 [], 0, 0, by decide⟩
theorem wit_TierRemote_16 : ∃ (s : State) (p : Packet) (i : Nat), (s.chip.isReady) ∧ (p.kind = 6) ∧ (s.chip.heldAt (s.chip.reqRanges (.gread p)) = some i) :=
  ⟨ups greadHeld, msg 6 1 0 [], greadAt, ⟨by decide, by decide, greadHeld_held⟩⟩
theorem wit_TierRemote_17 : ∃ (s : State) (p : Packet), (s.chip.isReady) ∧ (p.kind = 2) ∧ (∀ r ∈ s.chip.reqOf (fld 15 0 (at_ p.body 0 4)), p.src ≠ r.pkt.dest) :=
  ⟨up, msg 2 1 0 [], by decide⟩
theorem wit_TierRemote_18 : ∃ (s : State) (p : Packet) (t : Nat) (r : RemReq), (s.chip.isReady) ∧ (p.kind = 2) ∧ (t = fld 15 0 (at_ p.body 0 4)) ∧ (s.chip.reqOf t = some r) ∧ (p.src = r.pkt.dest) ∧ ((r.got ++ p.body.drop 4).length < r.len) :=
  ⟨ups (withMtm tierChip (fun m => { m with migs := [{ kind := .evictGranule 1, src := 7 }], reqs := [{ tag := 5, pkt := { dest := 1 }, len := 3, got := [1#8] }] })), msg 2 1 0 (leBytes 4 5 ++ [2#8]), 5, { tag := 5, pkt := { dest := 1 }, len := 3, got := [1#8] }, by decide⟩
theorem wit_TierRemote_19 : ∃ (s : State) (p : Packet) (t : Nat) (r : RemReq) (m : Mig), (s.chip.isReady) ∧ (p.kind = 2) ∧ (t = fld 15 0 (at_ p.body 0 4)) ∧ (s.chip.reqOf t = some r) ∧ (p.src = r.pkt.dest) ∧ (r.granule = none) ∧ (r.len ≤ (r.got ++ p.body.drop 4).length) ∧ (s.chip.mtm.migs.find? (fun m => m.id == r.mig) = some m) :=
  ⟨ups (withMtm tierChip (fun m => { m with migs := [{ kind := .evictGranule 1, src := 7 }], reqs := [{ tag := 5, pkt := { dest := 1 }, len := 2, got := [1#8] }] })), msg 2 1 0 (leBytes 4 5 ++ [2#8]), 5, { tag := 5, pkt := { dest := 1 }, len := 2, got := [1#8] }, { kind := .evictGranule 1, src := 7 }, by decide⟩
theorem wit_TierRemote_20 : ∃ (s : State) (p : Packet) (t : Nat) (r : RemReq), (s.chip.isReady) ∧ (p.kind = 2) ∧ (t = fld 15 0 (at_ p.body 0 4)) ∧ (s.chip.reqOf t = some r) ∧ (p.src = r.pkt.dest) ∧ (r.len ≤ (r.got ++ p.body.drop 4).length) ∧ ((r.granule = none ∧ s.chip.mtm.migs.find? (fun m => m.id == r.mig) = none) ∨ ∃ g ∈ r.granule, gPoison (s.chip.mapW g 0) = false) :=
  ⟨ups (withMtm tierChip (fun m => { m with reqs := [{ tag := 5, pkt := { dest := 1 }, len := 2, got := [1#8] }] })), msg 2 1 0 (leBytes 4 5 ++ [2#8]), 5, { tag := 5, pkt := { dest := 1 }, len := 2, got := [1#8] }, by decide⟩
theorem wit_TierRemote_21 : ∃ (s : State) (p : Packet) (t g : Nat) (r : RemReq), (s.chip.isReady) ∧ (p.kind = 2) ∧ (t = fld 15 0 (at_ p.body 0 4)) ∧ (s.chip.reqOf t = some r) ∧ (p.src = r.pkt.dest) ∧ (r.granule = some g) ∧ (gPoison (s.chip.mapW g 0) = true) ∧ (r.len ≤ (r.got ++ p.body.drop 4).length) :=
  ⟨ups (withMtm ((granChip false).storeLe 0x40000 8 (granW 0 0 false + 2 ^ 35)) (fun m => { m with reqs := [{ tag := 5, granule := some 0, pkt := { dest := 1 }, len := 2, got := [1#8] }] })), msg 2 1 0 (leBytes 4 5 ++ [2#8]), 5, 0, { tag := 5, granule := some 0, pkt := { dest := 1 }, len := 2, got := [1#8] }, by decide +kernel⟩
theorem wit_TierRemote_22 : ∃ (s : State) (p : Packet), (s.chip.isReady) ∧ (p.kind = 7) ∧ (fld 31 16 (at_ p.body 0 4) ≠ 0 ∨ at_ p.body 4 4 = 0 ∨ 4 < at_ p.body 4 4 ∨ ∀ r ∈ s.chip.reqOf (fld 15 0 (at_ p.body 0 4)), p.src ≠ r.pkt.dest) :=
  ⟨up, msg 7 1 0 [], by decide⟩
theorem wit_TierRemote_23 : ∃ (s : State) (p : Packet) (t : Nat) (r : RemReq), (s.chip.isReady) ∧ (p.kind = 7) ∧ (fld 31 16 (at_ p.body 0 4) = 0) ∧ (1 ≤ at_ p.body 4 4) ∧ (at_ p.body 4 4 ≤ 4) ∧ (t = fld 15 0 (at_ p.body 0 4)) ∧ (s.chip.reqOf t = some r) ∧ (p.src = r.pkt.dest) ∧ (r.granule = none) ∧ (at_ p.body 4 4 = 1) :=
  ⟨ups (withMtm (tierChip.setLoan 3 { st := 2, peer := 1 }) (fun m => { m with reqs := [{ tag := 5, loan := 3, pkt := { dest := 1 } }] })), msg 7 1 0 (leBytes 4 5 ++ leBytes 4 1), 5, { tag := 5, loan := 3, pkt := { dest := 1 } }, by decide⟩
theorem wit_TierRemote_24 : ∃ (s : State) (p : Packet) (t g : Nat) (r : RemReq), (s.chip.isReady) ∧ (p.kind = 7) ∧ (fld 31 16 (at_ p.body 0 4) = 0) ∧ (1 ≤ at_ p.body 4 4) ∧ (at_ p.body 4 4 ≤ 4) ∧ (t = fld 15 0 (at_ p.body 0 4)) ∧ (s.chip.reqOf t = some r) ∧ (p.src = r.pkt.dest) ∧ (r.granule = some g) :=
  ⟨ups (withMtm tierChip (fun m => { m with reqs := [{ tag := 5, granule := some 0, pkt := { dest := 1 }, len := 2, got := [1#8] }] })), msg 7 1 0 (leBytes 4 5 ++ leBytes 4 4), 5, 0, { tag := 5, granule := some 0, pkt := { dest := 1 }, len := 2, got := [1#8] }, by decide⟩
theorem wit_TierRemote_25 : ∃ (s : State) (p : Packet) (t : Nat) (r : RemReq) (m : Mig), (s.chip.isReady) ∧ (p.kind = 7) ∧ (fld 31 16 (at_ p.body 0 4) = 0) ∧ (1 ≤ at_ p.body 4 4) ∧ (at_ p.body 4 4 ≤ 4) ∧ (t = fld 15 0 (at_ p.body 0 4)) ∧ (s.chip.reqOf t = some r) ∧ (p.src = r.pkt.dest) ∧ (r.granule = none) ∧ (at_ p.body 4 4 ≠ 1) ∧ (s.chip.mtm.migs.find? (fun m => m.id == r.mig) = some m) :=
  ⟨ups (withMtm tierChip (fun m => { m with migs := [{ kind := .evictGranule 1, src := 7 }], reqs := [{ tag := 5, pkt := { dest := 1 }, len := 2, got := [1#8] }] })), msg 7 1 0 (leBytes 4 5 ++ leBytes 4 2), 5, { tag := 5, pkt := { dest := 1 }, len := 2, got := [1#8] }, { kind := .evictGranule 1, src := 7 }, by decide⟩
theorem wit_TierRemote_26 : ∃ (s : State) (p : Packet) (t : Nat) (r : RemReq), (s.chip.isReady) ∧ (p.kind = 7) ∧ (fld 31 16 (at_ p.body 0 4) = 0) ∧ (1 ≤ at_ p.body 4 4) ∧ (at_ p.body 4 4 ≤ 4) ∧ (t = fld 15 0 (at_ p.body 0 4)) ∧ (s.chip.reqOf t = some r) ∧ (p.src = r.pkt.dest) ∧ (r.granule = none) ∧ (at_ p.body 4 4 ≠ 1) ∧ (s.chip.mtm.migs.find? (fun m => m.id == r.mig) = none) :=
  ⟨ups (withMtm tierChip (fun m => { m with reqs := [{ tag := 5, pkt := { dest := 1 }, len := 2, got := [1#8] }] })), msg 7 1 0 (leBytes 4 5 ++ leBytes 4 2), 5, { tag := 5, pkt := { dest := 1 }, len := 2, got := [1#8] }, by decide⟩
theorem wit_TierRemote_27 : ∃ (s : State) (t : Nat), (s.chip.isReady) ∧ (∀ r ∈ s.chip.reqOf t, s.chip.beat < r.deadline) :=
  ⟨up, 5, by decide⟩
theorem wit_TierRemote_28 : ∃ (s : State) (t : Nat) (r : RemReq), (s.chip.isReady) ∧ (s.chip.reqOf t = some r) ∧ (r.deadline ≤ s.chip.beat) ∧ (r.resent = false) :=
  ⟨ups (withMtm tierChip (fun m => { m with reqs := [{ tag := 5 }] })), 5, { tag := 5 }, by decide⟩
theorem wit_TierRemote_29 : ∃ (s : State) (t g : Nat) (r : RemReq), (s.chip.isReady) ∧ (s.chip.reqOf t = some r) ∧ (r.deadline ≤ s.chip.beat) ∧ (r.resent = true) ∧ (r.granule = some g) :=
  ⟨ups (withMtm tierChip (fun m => { m with reqs := [{ tag := 5, resent := true, granule := some 0 }] })), 5, 0, { tag := 5, resent := true, granule := some 0 }, by decide⟩
theorem wit_TierRemote_30 : ∃ (s : State) (t : Nat) (r : RemReq), (s.chip.isReady) ∧ (s.chip.reqOf t = some r) ∧ (r.deadline ≤ s.chip.beat) ∧ (r.resent = true) ∧ (r.granule = none) :=
  ⟨ups (withMtm tierChip (fun m => { m with reqs := [{ tag := 5, resent := true, loan := 3 }] })), 5, { tag := 5, resent := true, loan := 3 }, by decide⟩
theorem wit_TierRemote_31 : ∃ (s : State) (g : Nat), (s.chip.isReady) ∧ (∀ r ∈ s.chip.refetchOf g, s.chip.beat < r.deadline) :=
  ⟨up, 5, by decide⟩
theorem wit_TierRemote_32 : ∃ (s : State) (g : Nat) (r : Refetch), (s.chip.isReady) ∧ (s.chip.refetchOf g = some r) ∧ (r.deadline ≤ s.chip.beat) :=
  ⟨ups (withMtm tierChip (fun m => { m with refetch := [{ granule := 5, waiting := 1 }] })), 5, { granule := 5, waiting := 1 }, by decide⟩
theorem wit_TierRemote_33 : ∃ (s : State), (s.chip.isReady) ∧ (1 ≤ s.chip.pfLen) ∧ (s.chip.pfLen ≤ 4096) ∧ (s.chip.rg64 (mtmReg 0x170) % 32 = 0) ∧ (s.chip.rg (mtmReg 0x17C) ≠ 0) ∧ (∀ i < s.chip.pfLen, pfBad (s.chip.rg (mtmReg 0x17C)) (s.chip.pfRec i) = false) ∧ (rising ((List.range s.chip.pfLen).map (fun i => wd (s.chip.pfRec i) 2)) = true) ∧ (s.chip.mtm.pfSt ≠ 1) ∧ (bit 1 s.chip.mtmCtl = true) :=
  ⟨ups (((tierChip.setRg (mtmReg 0x178) 1).setRg (mtmReg 0x17C) 9).store 0 ([3, 1, 0, 1, 0, 0, 0, 0].flatMap (leBytes 4))), by decide⟩
theorem wit_TierRemote_34 : ∃ (s : State), (s.chip.isReady) ∧ (s.chip.pfLen = 0 ∨ 4096 < s.chip.pfLen ∨ s.chip.rg64 (mtmReg 0x170) % 32 ≠ 0 ∨ s.chip.rg (mtmReg 0x17C) = 0 ∨ (∃ i < s.chip.pfLen, pfBad (s.chip.rg (mtmReg 0x17C)) (s.chip.pfRec i) = true) ∨
      rising ((List.range s.chip.pfLen).map (fun i => wd (s.chip.pfRec i) 2)) = false ∨ s.chip.mtm.pfSt = 1 ∨ bit 1 s.chip.mtmCtl = false) :=
  ⟨ups tierChip, by decide⟩
theorem wit_TierRemote_35 : ∃ (s : State), (s.chip.isReady) ∧ (s.chip.mtm.pfSt = 1) :=
  ⟨ups (withMtm tierChip (fun m => { m with pfSt := 1 })), by decide⟩
theorem wit_TierRemote_36 : ∃ (s : State), (s.chip.isReady) ∧ (s.chip.mtm.pfSt ≠ 1) :=
  ⟨up, by decide⟩
theorem wit_TierRemote_37 : ∃ (s : State), (s.chip.isReady) ∧ (s.chip.mtm.pfSt ≠ 1 ∨ bit 1 s.chip.mtmCtl = false ∨ s.chip.pwr.st = 2 ∨ s.chip.pwr.st = 3) :=
  ⟨up, by decide⟩
theorem wit_TierRemote_38 : ∃ (s : State), (s.chip.isReady) ∧ (s.chip.pwr.st ≠ 2) ∧ (s.chip.pwr.st ≠ 3) ∧ (s.chip.mtm.pfSt = 1) ∧ (bit 1 s.chip.mtmCtl = true) ∧ (s.chip.pfBeats = false) ∧ ((s.chip.ring s.chip.pfCtx).st = 0) :=
  ⟨ups (withMtm tierChip (fun m => { m with pfSt := 1 })), by decide⟩
theorem wit_TierRemote_39 : ∃ (s : State) (pt pos start need : Nat) (w : List Nat) (drop : Option Nat), (s.chip.isReady) ∧ (s.chip.mtm.pfSt = 1) ∧ (bit 1 s.chip.mtmCtl = true) ∧ (s.chip.pwr.st ≠ 2) ∧ (s.chip.pwr.st ≠ 3) ∧ (s.chip.pfBeats = true ∨ (s.chip.ring s.chip.pfCtx).st ≠ 0) ∧ (s.chip.pfNow = some (pos, start)) ∧ (w = s.chip.pfRec s.chip.mtm.pfNext) ∧ (pt = s.chip.rg64 (mtmReg 0x180) + s.chip.mtm.pfPass * s.chip.rg (mtmReg 0x17C) + wd w 2) ∧ (pt ≤ pos) ∧ (s.chip.pfBeats = true → s.chip.come pt = true) ∧ (need = (if s.chip.pfBeats = true then pt + fld 15 0 (wd w 3) else start + fld 15 0 (wd w 3) * (s.chip.ring s.chip.pfCtx).stepBeats)) ∧ (drop = (if fld 31 16 (wd w 3) = 0xFFFF then none else some (pt + fld 15 0 (wd w 3) + fld 31 16 (wd w 3)))) :=
  ⟨ups (withMtm ((((t2Chip true 2).storeLe 0x40000 8 (granW 0 2 true)).setRg (mtmReg 0x178) (1 + 2 ^ 24)).store 0 ([0, 1, 0, 1, 0, 0, 0, 0].flatMap (leBytes 4))) (fun m => { m with pfSt := 1 })), 0, 0, 0, 1, [0, 1, 0, 1, 0, 0, 0, 0], some 1, by decide +kernel⟩
theorem wit_TierRemote_40 : ∃ (s : State), (s.chip.isReady) ∧ (s.chip.mtm.pfSt = 1) ∧ (bit 1 s.chip.mtmCtl = true) ∧ (s.chip.pwr.st ≠ 2) ∧ (s.chip.pwr.st ≠ 3) ∧ (s.chip.pfBeats = true ∨ (s.chip.ring s.chip.pfCtx).st ≠ 0) ∧ (∀ q ∈ s.chip.pfNow, q.1 < s.chip.rg64 (mtmReg 0x180) + s.chip.mtm.pfPass * s.chip.rg (mtmReg 0x17C) + wd (s.chip.pfRec s.chip.mtm.pfNext) 2) :=
  ⟨ups ((withMtm ((((t2Chip true 2).storeLe 0x40000 8 (granW 0 2 true)).setRg (mtmReg 0x178) (1 + 2 ^ 24)).store 0 ([0, 1, 0, 1, 0, 0, 0, 0].flatMap (leBytes 4))) (fun m => { m with pfSt := 1 })).setRg (mtmReg 0x180) 9), by decide +kernel⟩
theorem wit_TierRemote_41 : ∃ (s : State) (g pt : Nat) (w : List Nat), (s.chip.isReady) ∧ (s.chip.pwr.st = 1) ∧ (s.chip.mtm.pfSt = 1) ∧ (bit 1 s.chip.mtmCtl = true) ∧ (s.chip.pfBeats = true) ∧ (w = s.chip.pfRec s.chip.mtm.pfNext) ∧ (pt = s.chip.rg64 (mtmReg 0x180) + s.chip.mtm.pfPass * s.chip.rg (mtmReg 0x17C) + wd w 2) ∧ (pt ≤ s.chip.beat) ∧ (s.chip.come pt = true) ∧ (fld 15 0 (wd w 1) = 1) ∧ (g = fld 27 0 (wd w 0)) ∧ (g < s.chip.granules) ∧ (gValid (s.chip.mapW g 0) = true) ∧ (gTier (s.chip.mapW g 0) ≠ 0) ∧ (∀ q ∈ s.chip.mtm.pfCopies, q.granule ≠ g) :=
  ⟨ups (withMtm ((((t2Chip true 2).storeLe 0x40000 8 (granW 0 2 true)).setRg (mtmReg 0x178) (1 + 2 ^ 24)).store 0 ([0, 1, 0, 1, 0, 0, 0, 0].flatMap (leBytes 4))) (fun m => { m with pfSt := 1 })), 0, 0, [0, 1, 0, 1, 0, 0, 0, 0], by decide⟩
theorem wit_TierRemote_42 : ∃ (s : State) (g : Nat) (q : PfCopy), (s.chip.isReady) ∧ (s.chip.mtm.pfCopies.find? (fun p => p.granule == g && !p.landed && !p.late && decide (p.need ≤ s.chip.beat)) = some q) :=
  ⟨ups (withMtm tierChip (fun m => { m with pfCopies := [{ granule := 5 }] })), 5, { granule := 5 }, by decide⟩
theorem wit_TierRemote_43 : ∃ (s : State) (g : Nat), (s.chip.isReady) ∧ (∀ q ∈ s.chip.mtm.pfCopies, q.granule = g → q.landed = true ∨ q.late = true ∨ s.chip.beat < q.need) :=
  ⟨up, 5, by decide⟩
theorem wit_TierRemote_44 : ∃ (s : State) (g : Nat) (q : PfCopy) (d pos st : Nat) (k : Chip), (s.chip.isReady) ∧ (s.chip.mtm.pfCopies.find? (fun p => p.granule == g) = some q) ∧ (q.drop = some d) ∧ (s.chip.pfNow = some (pos, st)) ∧ (d ≤ pos) ∧ (k = abandonIf (fun m => m.kind == .prefetch g) { s.chip with mtm := { s.chip.mtm with pfCopies := s.chip.mtm.pfCopies.filter (fun q => q.granule != g) } }) :=
  ⟨ups dropChip, 5, { granule := 5, drop := some 0 }, 0, 0, 0, withMtm dropChip (fun m => { m with pfCopies := [] }), by decide +kernel⟩
theorem wit_TierRemote_45 : ∃ (s : State) (g : Nat), (s.chip.isReady) ∧ (∀ q ∈ s.chip.mtm.pfCopies.find? (fun p => p.granule == g), ∀ d ∈ q.drop, ∀ n ∈ s.chip.pfNow, n.1 < d) :=
  ⟨up, 5, by decide⟩
theorem wit_Expanders_1 : ∃ (s : State) (n : T2Slot) (d : CxlDevice), (s.chip.isOn) ∧ ((s.chip.t2s n).st = 0 ∨ (s.chip.t2s n).st = 4 ∨ (s.chip.t2s n).st = 5) ∧ (deviceCode n d s.chip = 0) ∧ (s.chip.flash.wipePend = false) ∧ (s.chip.flash.sanList.contains d.serial = false) :=
  ⟨up, 7, { capMiB := 4194304 }, by decide⟩
theorem wit_Expanders_2a : ∃ (s : State) (n : T2Slot) (d : CxlDevice), (s.chip.isOn) ∧ ((s.chip.t2s n).st = 0 ∨ (s.chip.t2s n).st = 4 ∨ (s.chip.t2s n).st = 5) ∧ (deviceCode n d s.chip ≠ 0) :=
  ⟨up, 7, { type3 := false }, by decide⟩
theorem wit_Expanders_2b : ∃ (s : State) (n : T2Slot) (d : CxlDevice), (s.chip.isOn) ∧ ((s.chip.t2s n).st = 0 ∨ (s.chip.t2s n).st = 4 ∨ (s.chip.t2s n).st = 5) ∧ (deviceCode n d s.chip ≠ 0) :=
  ⟨up, 0, { capMiB := 4194305 }, by decide⟩
theorem wit_Expanders_3 : ∃ (s : State) (n : T2Slot) (d : CxlDevice), (s.chip.isOn) ∧ ((s.chip.t2s n).st = 0 ∨ (s.chip.t2s n).st = 4 ∨ (s.chip.t2s n).st = 5) ∧ (deviceCode n d s.chip = 0) ∧ (s.chip.flash.wipePend = true) ∧ (s.chip.flash.sanList.contains d.serial = false) ∧ (s.chip.flash.sanList.length < 8) :=
  ⟨ups { chipOn with flash := { wipePend := true } }, 7, { capMiB := 1 }, by decide⟩
theorem wit_Expanders_4 : ∃ (s : State) (n : T2Slot) (d : CxlDevice), (s.chip.isOn) ∧ ((s.chip.t2s n).st = 0 ∨ (s.chip.t2s n).st = 4 ∨ (s.chip.t2s n).st = 5) ∧ (deviceCode n d s.chip = 0) ∧ (s.chip.flash.sanList.contains d.serial = true) :=
  ⟨ups { chipOn with flash := { sanList := [0] } }, 7, { capMiB := 1 }, by decide⟩
theorem wit_Expanders_5 : ∃ (s : State) (n : T2Slot) (d : CxlDevice), (s.chip.isOn) ∧ ((s.chip.t2s n).st = 0 ∨ (s.chip.t2s n).st = 4 ∨ (s.chip.t2s n).st = 5) ∧ (deviceCode n d s.chip = 0) ∧ (s.chip.flash.wipePend = true) ∧ (s.chip.flash.sanList.contains d.serial = false) ∧ (8 ≤ s.chip.flash.sanList.length) :=
  ⟨ups { chipOn with flash := { wipePend := true, sanList := [1, 2, 3, 4, 5, 6, 7, 8] } }, 7, { capMiB := 1 }, by decide⟩
theorem wit_Expanders_6 : ∃ (s : State) (n : T2Slot) (d : CxlDevice), (s.chip.isOn) ∧ (1 ≤ (s.chip.t2s n).st) ∧ ((s.chip.t2s n).st ≤ 3) :=
  ⟨ups ((chipOn).setT2 3 { st := 2 }), 3, {}, by decide⟩
theorem wit_Expanders_7 : ∃ (s : State) (n : T2Slot) (a k : Nat), (s.chip.isReady) ∧ ((s.chip.t2s n).st = 1) ∧ ((s.chip.t2s n).sanitize = false) ∧ (a = s.chip.slotRecs n) ∧ (a % 16 = 0) ∧ (k = (s.chip.t2s n).capMiB * 1048576 / frameSize) ∧ (a + 16 * k ≤ t0Size) :=
  ⟨ups ((chipOn).setT2 3 { st := 1, capMiB := 1 }), 3, 0, 3, by decide⟩
theorem wit_Expanders_8a : ∃ (s : State) (n : T2Slot), (s.chip.isReady) ∧ ((s.chip.t2s n).st ≠ 1 ∨ (s.chip.t2s n).sanitize = true ∨ s.chip.slotRecs n % 16 ≠ 0 ∨ t0Size < s.chip.slotRecs n + 16 * ((s.chip.t2s n).capMiB * 1048576 / frameSize)) :=
  ⟨up, 7, by decide⟩
theorem wit_Expanders_8b : ∃ (s : State) (n : T2Slot), (s.chip.isReady) ∧ ((s.chip.t2s n).st ≠ 1 ∨ (s.chip.t2s n).sanitize = true ∨ s.chip.slotRecs n % 16 ≠ 0 ∨ t0Size < s.chip.slotRecs n + 16 * ((s.chip.t2s n).capMiB * 1048576 / frameSize)) :=
  ⟨ups ((chipOn).setT2 7 { st := 1, sanitize := true }), 7, by decide⟩
theorem wit_Expanders_9 : ∃ (s : State) (n : T2Slot), (s.chip.isReady) ∧ ((s.chip.t2s n).st = 2) :=
  ⟨ups ((chipOn).setT2 3 { st := 2 }), 3, by decide⟩
theorem wit_Expanders_10 : ∃ (s : State) (n : T2Slot), (s.chip.isReady) ∧ ((s.chip.t2s n).st = 2) :=
  ⟨ups ((chipOn).setT2 3 { st := 2 }), 3, by decide⟩
theorem wit_Expanders_11 : ∃ (s : State) (n : T2Slot), (s.chip.isReady) ∧ ((s.chip.t2s n).st ≠ 2) :=
  ⟨up, 7, by decide⟩
theorem wit_Expanders_12a : ∃ (s : State) (n : T2Slot), (s.chip.isReady) ∧ ((((s.chip.t2s n).st = 2 ∨ (s.chip.t2s n).st = 3) ∧ s.chip.slotRefd n = []) ∨ (s.chip.t2s n).st = 1 ∨ (s.chip.t2s n).st = 5) :=
  ⟨ups ((chipOn).setT2 3 { st := 3, frames := 2 }), 3, by decide⟩
theorem wit_Expanders_12b : ∃ (s : State) (n : T2Slot), (s.chip.isReady) ∧ ((((s.chip.t2s n).st = 2 ∨ (s.chip.t2s n).st = 3) ∧ s.chip.slotRefd n = []) ∨ (s.chip.t2s n).st = 1 ∨ (s.chip.t2s n).st = 5) :=
  ⟨ups ((chipOn).setT2 3 { st := 5 }), 3, by decide⟩
theorem wit_Expanders_13a : ∃ (s : State) (n : T2Slot), (s.chip.isReady) ∧ ((((s.chip.t2s n).st = 2 ∨ (s.chip.t2s n).st = 3) ∧ s.chip.slotRefd n ≠ []) ∨ (s.chip.t2s n).st = 0 ∨ (s.chip.t2s n).st = 4) :=
  ⟨up, 7, by decide⟩
theorem wit_Expanders_13b : ∃ (s : State) (n : T2Slot), (s.chip.isReady) ∧ ((((s.chip.t2s n).st = 2 ∨ (s.chip.t2s n).st = 3) ∧ s.chip.slotRefd n ≠ []) ∨ (s.chip.t2s n).st = 0 ∨ (s.chip.t2s n).st = 4) :=
  ⟨ups ((t2Chip true 3).storeLe 0x98000 4 3), 0, by decide⟩
theorem wit_Expanders_14 : ∃ (s : State) (n : T2Slot), (s.chip.isOn) ∧ (1 ≤ (s.chip.t2s n).st) ∧ ((s.chip.t2s n).st ≤ 3) :=
  ⟨ups ((chipOn).setT2 3 { st := 2 }), 3, by decide⟩
theorem wit_Expanders_15 : ∃ (s : State) (n : T2Slot), (s.chip.isOn) ∧ ((s.chip.t2s n).st = 5) :=
  ⟨ups ((chipOn).setT2 3 { st := 5 }), 3, by decide⟩
theorem wit_Expanders_16 : ∃ (s : State) (n : T2Slot), (s.chip.isOn) ∧ ((s.chip.t2s n).st = 0 ∨ (s.chip.t2s n).st = 4) :=
  ⟨up, 3, by decide⟩
theorem wit_Expanders_17 : ∃ (s : State) (n : T2Slot), (s.chip.isOn) ∧ ((s.chip.t2s n).st = 1) ∧ ((s.chip.t2s n).sanitize = true) :=
  ⟨ups ((chipOn).setT2 3 { st := 1, sanitize := true }), 3, by decide⟩
theorem wit_Expanders_18 : ∃ (s : State) (n : T2Slot), (s.chip.isOn) ∧ ((s.chip.t2s n).st = 1) ∧ ((s.chip.t2s n).sanitize = true) :=
  ⟨ups ((chipOn).setT2 3 { st := 1, sanitize := true }), 3, by decide⟩
theorem wit_Expanders_19 : ∃ (s : State) (n : T2Slot) (k : Bool), (s.chip.isOn) ∧ ((s.chip.t2s n).st ≠ 1 ∨ (s.chip.t2s n).sanitize = false) :=
  ⟨up, 3, true, by decide⟩
theorem wit_Sessions_1 : ∃ (s : State) (f : Frame) (nm ek : List Byte), (s.chip.takes 1 f) ∧ (f.body.length = 32) :=
  ⟨up, fr 1 { prot := false, body := List.replicate 32 1#8 }, [2#8], [3#8], by decide⟩
theorem wit_Sessions_2 : ∃ (s : State) (f : Frame) (nm ek : List Byte), (s.chip.takes 1 f) ∧ (f.body.length ≠ 32) ∧ (s.chip.mbp.txCtr < 2 ^ 46) :=
  ⟨up, fr 1 { prot := false }, [], [], by decide⟩
theorem wit_Sessions_3 : ∃ (s : State) (f : Frame) (ss : List Byte), (s.chip.takes 3 f) ∧ (f.body.length = 8944) ∧ (s.chip.mbp.handshake = true) ∧ (s.chip.lc = 0 ∨ s.chip.flash.cnKey ≠ []) ∧ (s.chip.mbp.sess ≠ 4) :=
  ⟨ups { chipOn with mbp := { sess := 1, handshake := true } }, fr 3 { prot := false, body := List.replicate 8944 0#8 }, [1#8], ⟨by decide, (List.length_replicate : (List.replicate 8944 (0#8 : Byte)).length = 8944), by decide, by decide, by decide⟩⟩
theorem wit_Sessions_4 : ∃ (s : State) (f : Frame) (ok : Bool) (ss : List Byte), (s.chip.takes 3 f) ∧ (f.body.length = 8944) ∧ (s.chip.mbp.handshake = false ∨ ok = false ∨ (s.chip.lc ≠ 0 ∧ s.chip.flash.cnKey = [])) ∧ (s.chip.mbp.txCtr < 2 ^ 46) :=
  ⟨ups { chipOn with mbp := { sess := 1, handshake := true } }, fr 3 { prot := false, body := List.replicate 8944 0#8 }, false, [1#8], ⟨by decide, (List.length_replicate : (List.replicate 8944 (0#8 : Byte)).length = 8944), by decide, by decide⟩⟩
theorem wit_Sessions_5 : ∃ (s : State) (f : Frame), (s.chip.takes 5 f) ∧ (leNat f.body < 2 ^ 32) :=
  ⟨ups { chipOn with mbp := { sess := 3, rxEpoch := 254, rxCtr := 9 } }, fr 5 { epoch := 2 }, by decide⟩
theorem wit_Sessions_6 : ∃ (s : State) (f : Frame), (s.chip.takes 6 f) ∧ (s.chip.mbp.rxEpoch ≠ 255) :=
  ⟨ups (keyd id (chipOn)), fr 6 {}, by decide⟩
theorem wit_Sessions_7 : ∃ (s : State) (f : Frame), (s.chip.takes 6 f) ∧ (s.chip.mbp.rxEpoch = 255) :=
  ⟨ups (keyd (fun m => { m with rxEpoch := 255 }) (chipOn)), fr 6 { epoch := 255 }, by decide⟩
theorem wit_Sessions_8 : ∃ (s : State) (f : Frame), (s.chip.takes 7 f) :=
  ⟨ups (keyd id (chipOn)), fr 7 {}, by decide⟩
theorem wit_Sessions_9 : ∃ (s : State) (b : Nat), (s.chip.phase ≠ .off) ∧ (s.chip.mbp.resumeBy = some b) ∧ (s.chip.mbp.sess = 3) ∧ (b ≤ s.chip.beat) :=
  ⟨ups { chipOn with mbp := { sess := 3, resumeBy := some 0 } }, 0, by decide⟩
theorem wit_Sessions_10 : ∃ (s : State) (b : Nat), (s.chip.phase ≠ .off) ∧ (s.chip.mbp.resumeBy = some b) ∧ (s.chip.mbp.sess ≠ 3 ∨ s.chip.beat < b) :=
  ⟨ups { chipOn with mbp := { sess := 3, resumeBy := some 5 } }, 5, by decide⟩
theorem wit_Sessions_11a : ∃ (s : State) (f : Frame), (s.chip.isOn) ∧ (f.type = 0x10) ∧ (s.chip.mbp.sess = 2) ∧ (f.prot = true) ∧ (f.authentic = false ∨ inOrder s.chip f = false) :=
  ⟨ups (keyd id (chipOn)), fr 0x10 { authentic := false }, by decide⟩
theorem wit_Sessions_11b : ∃ (s : State) (f : Frame), (s.chip.isOn) ∧ (f.type = 0x10) ∧ (s.chip.mbp.sess = 2) ∧ (f.prot = true) ∧ (f.authentic = false ∨ inOrder s.chip f = false) :=
  ⟨ups (keyd id (chipOn)), fr 0x10 { ctr := 1 }, by decide⟩
theorem wit_Sessions_12a : ∃ (s : State) (f : Frame), (s.chip.isOn) ∧ (f.type = 0x10) ∧ (s.chip.mbp.sess ≠ 2 ∨ f.prot = false) :=
  ⟨up, fr 0x10 {}, by decide⟩
theorem wit_Sessions_12b : ∃ (s : State) (f : Frame), (s.chip.isOn) ∧ (f.type = 0x10) ∧ (s.chip.mbp.sess ≠ 2 ∨ f.prot = false) :=
  ⟨ups (keyd id (chipOn)), fr 0x10 { prot := false }, by decide⟩
theorem wit_Sessions_13 : ∃ (s : State) (f : Frame), (s.chip.takes 0x38 f) ∧ (f.body.length = 32) ∧ (s.chip.mbp.attest.length < 4) :=
  ⟨ups (keyd id (chipOn)), fr 0x38 { body := List.replicate 32 1#8 }, by decide⟩
theorem wit_Sessions_14 : ∃ (s : State) (f : Frame), (4 ≤ s.chip.mbp.attest.length) :=
  ⟨ups (keyd (fun m => { m with attest := List.replicate 4 (0, []) }) (chipOn)), fr 0x38 {}, by decide⟩
theorem wit_Sessions_15 : ∃ (s : State) (tag : Nat) (b : List Byte) (t : List (Nat × List Byte)), (s.chip.phase ≠ .off) ∧ (s.chip.mbp.attest = (tag, b) :: t) ∧ (s.chip.keyed = true) :=
  ⟨ups (keyd (fun m => { m with attest := [(5, [])] }) (chipOn)), 5, [], [], by decide⟩
theorem wit_Sessions_16 : ∃ (s : State), (s.chip.phase ≠ .off) ∧ (s.chip.mbp.attest = [] ∨ s.chip.keyed = false) :=
  ⟨up, by decide⟩
theorem wit_Sessions_17 : ∃ (s : State) (l : BitVec 2), (s.chip.phase ≠ .off) ∧ ((s.chip.link 6).st ≠ 1) ∧ ((s.chip.link 6).st ≠ 6) :=
  ⟨up, 3#2, by decide⟩
theorem wit_Sessions_18 : ∃ (s : State), (s.chip.phase ≠ .off) ∧ ((s.chip.link 6).st = 1) :=
  ⟨ups (chipOn.setLink 6 { st := 1 }), by decide⟩
theorem wit_Sessions_19a : ∃ (s : State), (s.chip.phase ≠ .off) ∧ ((s.chip.link 6).st = 6) ∧ (s.chip.mbp.txCtr < 2 ^ 46) :=
  ⟨ups (keyd id (chipOn.setLink 6 { st := 6, locked := 1 })), by decide⟩
theorem wit_Sessions_19b : ∃ (s : State), (s.chip.phase ≠ .off) ∧ ((s.chip.link 6).st = 6) ∧ (s.chip.mbp.txCtr < 2 ^ 46) :=
  ⟨ups (keyd id (chipOn.setLink 6 { st := 6, locked := 3 })), by decide⟩
theorem wit_Sessions_20 : ∃ (s : State) (l : BitVec 2), (s.chip.phase ≠ .off) ∧ ((s.chip.link 6).st = 1 ∨ (s.chip.link 6).st = 6) ∧ (l ≠ 3#2) ∧ ((s.chip.link 6).tries < trainTries 6 s.chip) :=
  ⟨ups (chipOn.setLink 6 { st := 1, tries := 1 }), 1#2, by decide⟩
theorem wit_Sessions_21 : ∃ (s : State) (l : BitVec 2), (s.chip.phase ≠ .off) ∧ ((s.chip.link 6).st = 1 ∨ (s.chip.link 6).st = 6) ∧ (l ≠ 3#2) ∧ (trainTries 6 s.chip ≤ (s.chip.link 6).tries) ∧ (s.chip.mbp.txCtr < 2 ^ 46) :=
  ⟨ups (keyd id (chipOn.setLink 6 { st := 1, tries := 9 })), 1#2, by decide⟩
theorem wit_Sessions_22 : ∃ (s : State), (s.chip.phase ≠ .off) ∧ ((s.chip.link 6).st = 7) ∧ (s.chip.mbp.retryAt ≤ s.chip.beat) :=
  ⟨ups (chipOn.setLink 6 { st := 7 }), by decide⟩
theorem wit_Sessions_23 : ∃ (s : State), (s.chip.phase ≠ .off) ∧ ((s.chip.link 6).st ≠ 7) :=
  ⟨up, by decide⟩
theorem wit_Sessions_24 : ∃ (s : State) (f : Frame) (nm ek : List Byte), (f.type = 1) ∧ (s.chip.listens 1) ∧ (f.broken = true ∨ f.prot = true) :=
  ⟨up, fr 1 {}, [2#8], [3#8], by decide⟩
theorem wit_Sessions_25 : ∃ (s : State) (f : Frame) (nm ek : List Byte), (s.chip.phase ≠ .off) ∧ (f.type ≠ 1 ∨ takesFrames s.chip 1 = false) :=
  ⟨up, {}, [2#8], [3#8], by decide⟩
theorem wit_Sessions_26 : ∃ (s : State) (f : Frame) (a : Bool) (ss : List Byte), (f.type = 3) ∧ (s.chip.listens 3) ∧ (f.broken = true ∨ f.prot = true) :=
  ⟨up, fr 3 {}, true, [1#8], by decide⟩
theorem wit_Sessions_27 : ∃ (s : State) (f : Frame) (a : Bool) (ss : List Byte), (s.chip.phase ≠ .off) ∧ (f.type ≠ 3 ∨ takesFrames s.chip 3 = false) :=
  ⟨up, {}, true, [1#8], by decide⟩
theorem wit_Sessions_28 : ∃ (s : State) (f : Frame), (f.type = 5) ∧ (s.chip.listens 5) ∧ (accepts s.chip f = false) :=
  ⟨up, fr 5 {}, by decide⟩
theorem wit_Sessions_29 : ∃ (s : State) (f : Frame), (f.type = 5) ∧ (s.chip.listens 5) ∧ (accepts s.chip f = true) ∧ (f.authentic = false ∨ inOrder s.chip f = false) :=
  ⟨ups { chipOn with mbp := { sess := 3 } }, fr 5 { authentic := false, epoch := 1 }, by decide⟩
theorem wit_Sessions_30 : ∃ (s : State) (f : Frame), (f.type = 5) ∧ (s.chip.listens 5) ∧ (accepts s.chip f = true) ∧ (f.authentic = true) ∧ (inOrder s.chip f = true) ∧ (f.broken = true) :=
  ⟨ups { chipOn with mbp := { sess := 3 } }, fr 5 { broken := true, epoch := 1 }, by decide⟩
theorem wit_Sessions_31 : ∃ (s : State) (f : Frame), (s.chip.phase ≠ .off) ∧ (f.type ≠ 5 ∨ takesFrames s.chip 5 = false) :=
  ⟨up, {}, by decide⟩
theorem wit_Sessions_32 : ∃ (s : State) (f : Frame), (f.type = 6) ∧ (s.chip.listens 6) ∧ (accepts s.chip f = false) :=
  ⟨up, fr 6 {}, by decide⟩
theorem wit_Sessions_33 : ∃ (s : State) (f : Frame), (f.type = 6) ∧ (s.chip.listens 6) ∧ (accepts s.chip f = true) ∧ (f.authentic = false ∨ inOrder s.chip f = false) :=
  ⟨ups (keyd id (chipOn)), fr 6 { authentic := false,}, by decide⟩
theorem wit_Sessions_34 : ∃ (s : State) (f : Frame), (f.type = 6) ∧ (s.chip.listens 6) ∧ (accepts s.chip f = true) ∧ (f.authentic = true) ∧ (inOrder s.chip f = true) ∧ (f.broken = true) :=
  ⟨ups (keyd id (chipOn)), fr 6 { broken := true,}, by decide⟩
theorem wit_Sessions_35 : ∃ (s : State) (f : Frame), (s.chip.phase ≠ .off) ∧ (f.type ≠ 6 ∨ takesFrames s.chip 6 = false) :=
  ⟨up, {}, by decide⟩
theorem wit_Sessions_36 : ∃ (s : State) (f : Frame), (f.type = 7) ∧ (s.chip.listens 7) ∧ (accepts s.chip f = false) :=
  ⟨up, fr 7 {}, by decide⟩
theorem wit_Sessions_37 : ∃ (s : State) (f : Frame), (f.type = 7) ∧ (s.chip.listens 7) ∧ (accepts s.chip f = true) ∧ (f.authentic = false ∨ inOrder s.chip f = false) :=
  ⟨ups (keyd id (chipOn)), fr 7 { authentic := false,}, by decide⟩
theorem wit_Sessions_38 : ∃ (s : State) (f : Frame), (f.type = 7) ∧ (s.chip.listens 7) ∧ (accepts s.chip f = true) ∧ (f.authentic = true) ∧ (inOrder s.chip f = true) ∧ (f.broken = true) :=
  ⟨ups (keyd id (chipOn)), fr 7 { broken := true,}, by decide⟩
theorem wit_Sessions_39 : ∃ (s : State) (f : Frame), (s.chip.phase ≠ .off) ∧ (f.type ≠ 7 ∨ takesFrames s.chip 7 = false) :=
  ⟨up, {}, by decide⟩
theorem wit_Sessions_40 : ∃ (s : State) (f : Frame), (f.type = 0x38) ∧ (s.chip.listens 0x38) ∧ (accepts s.chip f = false) ∧ (s.chip.mbp.attest.length < 4) :=
  ⟨up, fr 0x38 {}, by decide⟩
theorem wit_Sessions_41 : ∃ (s : State) (f : Frame), (f.type = 0x38) ∧ (s.chip.listens 0x38) ∧ (accepts s.chip f = true) ∧ (f.authentic = false ∨ inOrder s.chip f = false) ∧ (s.chip.mbp.attest.length < 4) :=
  ⟨ups (keyd id (chipOn)), fr 0x38 { authentic := false,}, by decide⟩
theorem wit_Sessions_42 : ∃ (s : State) (f : Frame), (f.type = 0x38) ∧ (s.chip.listens 0x38) ∧ (accepts s.chip f = true) ∧ (f.authentic = true) ∧ (inOrder s.chip f = true) ∧ (f.broken = true) ∧ (s.chip.mbp.attest.length < 4) :=
  ⟨ups (keyd id (chipOn)), fr 0x38 { broken := true,}, by decide⟩
theorem wit_Sessions_43 : ∃ (s : State) (f : Frame), (s.chip.phase ≠ .off) ∧ (f.type ≠ 0x38 ∨ takesFrames s.chip 0x38 = false) ∧ (s.chip.mbp.attest.length < 4) :=
  ⟨up, {}, by decide⟩
theorem wit_Sessions_44 : ∃ (s : State) (f : Frame) (nm ek : List Byte), (f.type = 1) ∧ (s.chip.phase = .retired) :=
  ⟨ups { chipOn with phase := .retired }, fr 1 {}, [], [], by decide⟩
theorem wit_Sessions_45 : ∃ (s : State) (f : Frame) (nm ek : List Byte), (s.chip.takes 1 f) ∧ (f.body.length = 32) :=
  ⟨up, fr 1 { prot := false, body := List.replicate 32 1#8 }, [2#8], [3#8], by decide⟩
theorem wit_Sessions_46 : ∃ (s : State) (f : Frame) (nm ek : List Byte), (s.chip.takes 1 f) ∧ (f.body.length ≠ 32) :=
  ⟨up, fr 1 { prot := false }, [], [], by decide⟩
theorem wit_Sessions_47 : ∃ (s : State) (f : Frame) (a : Bool) (ss : List Byte), (s.chip.takes 3 f) ∧ (f.body.length ≠ 8944) :=
  ⟨up, fr 3 { prot := false }, true, [], by decide⟩
theorem wit_Sessions_48 : ∃ (s : State) (f : Frame) (a : Bool) (ss : List Byte), (s.chip.takes 3 f) ∧ (f.body.length = 8944) ∧ (s.chip.mbp.handshake = false ∨ a = false ∨ (s.chip.lc ≠ 0 ∧ s.chip.flash.cnKey = [])) :=
  ⟨ups { chipOn with mbp := { sess := 1, handshake := true } }, fr 3 { prot := false, body := List.replicate 8944 0#8 }, false, [1#8], ⟨by decide, (List.length_replicate : (List.replicate 8944 (0#8 : Byte)).length = 8944), by decide⟩⟩
theorem wit_Sessions_49a : ∃ (s : State) (f : Frame) (ss : List Byte), (s.chip.takes 3 f) ∧ (f.body.length = 8944) ∧ (s.chip.mbp.handshake = true) ∧ (s.chip.lc = 0 ∨ s.chip.flash.cnKey ≠ []) :=
  ⟨ups { chipOn with mbp := { sess := 1, handshake := true } }, fr 3 { prot := false, body := List.replicate 8944 0#8 }, [1#8], ⟨by decide, (List.length_replicate : (List.replicate 8944 (0#8 : Byte)).length = 8944), by decide, by decide⟩⟩
theorem wit_Sessions_49b : ∃ (s : State) (f : Frame) (ss : List Byte), (s.chip.takes 3 f) ∧ (f.body.length = 8944) ∧ (s.chip.mbp.handshake = true) ∧ (s.chip.lc = 0 ∨ s.chip.flash.cnKey ≠ []) :=
  ⟨ups { chipOn with phase := .loader, mbp := { sess := 4, handshake := true } }, fr 3 { prot := false, body := List.replicate 8944 0#8 }, [1#8], ⟨by decide, (List.length_replicate : (List.replicate 8944 (0#8 : Byte)).length = 8944), by decide, by decide⟩⟩
theorem wit_Sessions_50 : ∃ (s : State) (f : Frame), (s.chip.takes 5 f) ∧ (leNat f.body < 2 ^ 32) :=
  ⟨ups { chipOn with mbp := { sess := 3, rxEpoch := 254, rxCtr := 9 } }, fr 5 { epoch := 2 }, by decide⟩
theorem wit_Sessions_51 : ∃ (s : State) (f : Frame), (s.chip.takes 5 f) ∧ (2 ^ 32 ≤ leNat f.body) :=
  ⟨ups { chipOn with mbp := { sess := 3 } }, fr 5 { epoch := 1, body := [0#8, 0#8, 0#8, 0#8, 1#8] }, by decide⟩
theorem wit_Sessions_52 : ∃ (s : State) (f : Frame), (s.chip.takes 6 f) ∧ (s.chip.mbp.rxEpoch = 255) :=
  ⟨ups (keyd (fun m => { m with rxEpoch := 255 }) (chipOn)), fr 6 { epoch := 255 }, by decide⟩
theorem wit_Sessions_53a : ∃ (s : State) (f : Frame), (s.chip.takes 7 f) :=
  ⟨ups (keyd id (chipOn)), fr 7 {}, by decide⟩
theorem wit_Sessions_53b : ∃ (s : State) (f : Frame), (s.chip.takes 7 f) :=
  ⟨ups { chipOn with phase := .loader, mbp := { sess := 4, keyedLdr := true } }, fr 7 {}, by decide⟩
theorem wit_Sessions_54 : ∃ (s : State) (b : Nat), (s.chip.phase ≠ .off) ∧ (s.chip.mbp.resumeBy = some b) ∧ (s.chip.mbp.sess = 3) ∧ (b ≤ s.chip.beat) :=
  ⟨ups { chipOn with mbp := { sess := 3, resumeBy := some 0 } }, 0, by decide⟩
theorem wit_Sessions_55 : ∃ (s : State), (s.chip.phase ≠ .off) ∧ (s.chip.mbp.resumeBy = none) :=
  ⟨up, by decide⟩
theorem wit_Sessions_56 : ∃ (s : State) (f : Frame), (s.chip.takes 0x38 f) ∧ (f.body.length ≠ 32) ∧ (s.chip.mbp.attest.length < 4) :=
  ⟨ups (keyd id (chipOn)), fr 0x38 {}, by decide⟩
theorem wit_Sessions_57 : ∃ (s : State) (tag : Nat) (b : List Byte) (t : List (Nat × List Byte)), (s.chip.phase ≠ .off) ∧ (s.chip.mbp.attest = (tag, b) :: t) ∧ (s.chip.keyed = true) :=
  ⟨ups (keyd (fun m => { m with attest := [(5, [])] }) (chipOn)), 5, [], [], by decide⟩
theorem wit_Sessions_58 : ∃ (s : State), (s.chip.phase ≠ .off) ∧ ((s.chip.link 6).st = 1) :=
  ⟨ups (chipOn.setLink 6 { st := 1 }), by decide⟩
theorem wit_Sessions_59a : ∃ (s : State), (s.chip.phase ≠ .off) ∧ ((s.chip.link 6).st = 6) :=
  ⟨ups (keyd id (chipOn.setLink 6 { st := 6, locked := 1 })), by decide⟩
theorem wit_Sessions_59b : ∃ (s : State), (s.chip.phase ≠ .off) ∧ ((s.chip.link 6).st = 6) :=
  ⟨ups (keyd id (chipOn.setLink 6 { st := 6, locked := 3 })), by decide⟩
theorem wit_Sessions_60 : ∃ (s : State) (l : BitVec 2), (s.chip.phase ≠ .off) ∧ ((s.chip.link 6).st = 1 ∨ (s.chip.link 6).st = 6) ∧ (l ≠ 3#2) ∧ (trainTries 6 s.chip ≤ (s.chip.link 6).tries) :=
  ⟨ups (keyd id (chipOn.setLink 6 { st := 1, tries := 9 })), 1#2, by decide⟩
theorem wit_Sessions_61a : ∃ (s : State), (s.chip.phase ≠ .off) ∧ ((s.chip.link 6).st = 7) ∧ (s.chip.mbp.retryAt ≤ s.chip.beat ∨ s.chip.phase = .loader ∨ s.chip.phase = .retired) :=
  ⟨ups (chipOn.setLink 6 { st := 7 }), by decide⟩
theorem wit_Sessions_61b : ∃ (s : State), (s.chip.phase ≠ .off) ∧ ((s.chip.link 6).st = 7) ∧ (s.chip.mbp.retryAt ≤ s.chip.beat ∨ s.chip.phase = .loader ∨ s.chip.phase = .retired) :=
  ⟨ups { (chipOn.setLink 6 { st := 7 }) with phase := .loader, mbp := { retryAt := 9 } }, by decide⟩
theorem wit_Sessions_62 : ∃ (s : State), (s.chip.phase ≠ .off) ∧ ((s.chip.link 6).st = 7) ∧ (s.chip.beat < s.chip.mbp.retryAt) ∧ (s.chip.isOn) :=
  ⟨ups { (chipOn.setLink 6 { st := 7 }) with mbp := { retryAt := 9 } }, by decide⟩
theorem wit_LinkRequests_1 : ∃ (s : State) (f : Frame), (s.chip.takes 0x11 f) ∧ (serialLt s.chip.mbp.lastTag f.tag = false) :=
  ⟨ups (keyd (fun m => { m with lastTag := 5 }) (chipOn)), fr 0x11 { tag := 5 }, by decide⟩
theorem wit_LinkRequests_2 : ∃ (s : State) (f : Frame), (s.chip.takes 0x19 f) ∧ (serialLt s.chip.mbp.lastTag f.tag = false) :=
  ⟨ups (keyd (fun m => { m with lastTag := 5 }) (chipOn)), fr 0x19 { tag := 5 }, by decide⟩
theorem wit_LinkRequests_3 : ∃ (s : State) (f : Frame), (s.chip.takes 0x20 f) ∧ (serialLt s.chip.mbp.lastTag f.tag = false) :=
  ⟨ups (keyd (fun m => { m with lastTag := 5 }) (chipOn)), fr 0x20 { tag := 5 }, by decide⟩
theorem wit_LinkRequests_4 : ∃ (s : State) (f : Frame), (s.chip.takes 0x22 f) ∧ (serialLt s.chip.mbp.lastTag f.tag = false) :=
  ⟨ups (keyd (fun m => { m with lastTag := 5 }) (chipOn)), fr 0x22 { tag := 5 }, by decide⟩
theorem wit_LinkRequests_5 : ∃ (s : State) (f : Frame) (n : Nat), (s.chip.takes 0x10 f) ∧ (n = leNat f.body) ∧ (1 ≤ n) ∧ (n ≤ 64) ∧ (f.addr < windowSize) :=
  ⟨ups (keyd id (chipOn)), fr 0x10 { addr := ra pgMtm 0x100, body := leBytes 4 1 }, 1, by decide⟩
theorem wit_LinkRequests_6 : ∃ (s : State) (f : Frame), (s.chip.takes 0x10 f) ∧ (leNat f.body = 0 ∨ 64 < leNat f.body ∨ windowSize ≤ f.addr) ∧ (s.chip.mbp.txCtr < 2 ^ 46) :=
  ⟨ups (keyd id (chipOn)), fr 0x10 {}, by decide⟩
theorem wit_LinkRequests_7 : ∃ (s : State) (f : Frame) (n : Nat), (s.chip.takes 0x11 f) ∧ (serialLt s.chip.mbp.lastTag f.tag = true) ∧ (n = at_ f.body 0 4) ∧ (1 ≤ n) ∧ (n ≤ 64) ∧ (f.body.length = 4 + 4 * n) ∧ (f.addr < windowSize) :=
  ⟨ups (keyd id (chipOn)), fr 0x11 { tag := 1, addr := ra pgMtm 0x100, body := leBytes 4 1 ++ leBytes 4 3 }, 1, by decide⟩
theorem wit_LinkRequests_8 : ∃ (s : State) (f : Frame) (n : Nat), (s.chip.takes 0x18 f) ∧ (n = leNat f.body) ∧ (1 ≤ n) ∧ (n ≤ 65536) ∧ (f.addr + n ≤ t0Size) ∧ (s.chip.pwr.gddr = true) ∧ (s.chip.pwr.st ≠ 5) ∧ (s.chip.poisonIn f.addr n = none) :=
  ⟨ups (keyd id (chipOn)), fr 0x18 { body := leBytes 4 4 }, 4, by decide⟩
theorem wit_LinkRequests_9 : ∃ (s : State) (f : Frame) (n : Nat), (s.chip.takes 0x18 f) ∧ (n = leNat f.body) ∧ (1 ≤ n) ∧ (n ≤ 65536) ∧ (f.addr + n ≤ t0Size) ∧ (s.chip.pwr.gddr = true) ∧ (s.chip.pwr.st ≠ 5) ∧ ((s.chip.poisonIn f.addr n).isSome = true) ∧ (s.chip.mbp.txCtr < 2 ^ 46) :=
  ⟨ups (keyd id (chipOn.mark 0 8)), fr 0x18 { body := leBytes 4 4 }, 4, by decide⟩
theorem wit_LinkRequests_10 : ∃ (s : State) (f : Frame), (s.chip.takes 0x18 f) ∧ (1 ≤ leNat f.body) ∧ (leNat f.body ≤ 65536) ∧ (f.addr < 0x800000000000) ∧ (s.chip.pwr.gddr = false) :=
  ⟨ups { chipOn with mbp := { sess := 2 } }, fr 0x18 { body := leBytes 4 4 }, by decide⟩
theorem wit_LinkRequests_11 : ∃ (s : State) (f : Frame) (n : Nat), (s.chip.takes 0x19 f) ∧ (serialLt s.chip.mbp.lastTag f.tag = true) ∧ (n = f.body.length) ∧ (1 ≤ n) ∧ (n ≤ 65536) ∧ (f.addr + n ≤ t0Size) ∧ (s.chip.pwr.gddr = true) ∧ (s.chip.pwr.st ≠ 5) ∧ (f.addr % payloadSize + n ≤ payloadSize) ∧ (∀ i < n, s.chip.guarded (f.addr + i) = false) :=
  ⟨ups (keyd id (chipOn)), fr 0x19 { tag := 1, body := [1#8] }, 1, by decide⟩
theorem wit_LinkRequests_12 : ∃ (s : State) (f : Frame) (n : Nat), (s.chip.takes 0x19 f) ∧ (serialLt s.chip.mbp.lastTag f.tag = true) ∧ (n = f.body.length) ∧ (1 ≤ n) ∧ (n ≤ 65536) ∧ (f.addr + n ≤ t0Size) ∧ (s.chip.pwr.gddr = true) ∧ (s.chip.pwr.st ≠ 5) ∧ (f.addr % payloadSize + n ≤ payloadSize) ∧ (∃ i < n, s.chip.guarded (f.addr + i) = true) ∧ (s.chip.mbp.txCtr < 2 ^ 46) :=
  ⟨ups (keyd id (tierChip)), fr 0x19 { tag := 1, addr := 0x80000, body := [1#8] }, 1, by decide⟩
theorem wit_LinkRequests_13 : ∃ (s : State) (f : Frame) (n : Nat), (s.chip.takes 0x20 f) ∧ (serialLt s.chip.mbp.lastTag f.tag = true) ∧ (f.qid ≤ 32) ∧ (f.body.length = 64 * n) ∧ (1 ≤ n) ∧ (n ≤ 1023) ∧ ((s.chip.queue f.qid).on = true) ∧ (((s.chip.queue f.qid).sqTail + 65536 - (s.chip.queue f.qid).sqHead) % 65536 + n ≤ s.chip.sqSize f.qid) :=
  ⟨ups (keyd id (((qBase 3 []).setQueue 3 { on := true, sqTail := 1 }))), fr 0x20 { tag := 1, qid := 3, body := List.replicate 64 1#8 }, 1, by decide⟩
theorem wit_LinkRequests_14 : ∃ (s : State) (f : Frame) (n : Nat), (s.chip.takes 0x20 f) ∧ (serialLt s.chip.mbp.lastTag f.tag = true) ∧ (f.qid ≤ 32) ∧ (f.body.length = 64 * n) ∧ (1 ≤ n) ∧ (n ≤ 1023) ∧ ((s.chip.queue f.qid).on = true) ∧ (s.chip.sqSize f.qid < ((s.chip.queue f.qid).sqTail + 65536 - (s.chip.queue f.qid).sqHead) % 65536 + n) :=
  ⟨ups (keyd id (((qBase 3 []).setQueue 3 { on := true, sqTail := 16 }))), fr 0x20 { tag := 1, qid := 3, body := List.replicate 64 1#8 }, 1, by decide⟩
theorem wit_LinkRequests_15 : ∃ (s : State) (f : Frame) (n : Nat), (s.chip.takes 0x20 f) ∧ (serialLt s.chip.mbp.lastTag f.tag = true) ∧ (f.qid ≤ 32) ∧ (f.body.length = 64 * n) ∧ (1 ≤ n) ∧ (n ≤ 1023) ∧ ((s.chip.queue f.qid).on = false) :=
  ⟨ups (keyd id (chipOn)), fr 0x20 { tag := 1, qid := 3, body := List.replicate 64 1#8 }, 1, by decide⟩
theorem wit_LinkRequests_16 : ∃ (s : State) (f : Frame) (h : Nat), (s.chip.takes 0x22 f) ∧ (serialLt s.chip.mbp.lastTag f.tag = true) ∧ (f.qid ≤ 32) ∧ (h = leNat f.body) ∧ (h < 65536) ∧ ((s.chip.queue f.qid).on = true) ∧ ((s.chip.queue f.qid).started = []) ∧ ((s.chip.queue f.qid).resetting = false) ∧ ((h + 65536 - (s.chip.queue f.qid).cqHead) % 65536 ≤ (s.chip.queue f.qid).used) :=
  ⟨ups (keyd id (((qBase 3 []).setQueue 3 { on := true, cqTail := 5 }))), fr 0x22 { tag := 1, qid := 3, body := [5#8] }, 5, by decide⟩
theorem wit_LinkRequests_17 : ∃ (s : State) (f : Frame) (h : Nat), (s.chip.takes 0x22 f) ∧ (serialLt s.chip.mbp.lastTag f.tag = true) ∧ (f.qid ≤ 32) ∧ (h = leNat f.body) ∧ (h < 65536) ∧ ((s.chip.queue f.qid).on = true) ∧ ((s.chip.queue f.qid).used < (h + 65536 - (s.chip.queue f.qid).cqHead) % 65536) ∧ (s.chip.mbp.txCtr < 2 ^ 46) :=
  ⟨ups (keyd id (((qBase 3 []).setQueue 3 { on := true, cqTail := 5 }))), fr 0x22 { tag := 1, qid := 3, body := [6#8] }, 6, by decide⟩
theorem wit_LinkRequests_18 : ∃ (s : State) (f : Frame), (s.chip.takes 0x29 f) ∧ (leNat f.body < 2 ^ 32) :=
  ⟨ups (keyd (fun m => { m with events := [{ eseq := 4 }, { eseq := 5 }] }) (chipOn)), fr 0x29 { body := [4#8] }, by decide⟩
theorem wit_LinkRequests_19 : ∃ (s : State) (f : Frame), (s.chip.takes 0x40 f) ∧ (s.chip.mbp.mem.find? (fun r => r.tag == f.tag) = none) :=
  ⟨ups (keyd id (chipOn)), fr 0x40 { tag := 3 }, by decide⟩
theorem wit_LinkRequests_20 : ∃ (s : State) (f : Frame) (r : MemReq), (s.chip.takes 0x40 f) ∧ (s.chip.mbp.mem.find? (fun r => r.tag == f.tag) = some r) ∧ (f.status ≠ 0) ∧ (waitingEntry s.chip r = none) :=
  ⟨ups (keyd (fun m => { m with mem := [{ tag := 3 }] }) (chipOn)), fr 0x40 { tag := 3, status := 7 }, { tag := 3 }, by decide⟩
theorem wit_LinkRequests_21 : ∃ (s : State) (f : Frame) (r : MemReq) (e : Entry), (s.chip.takes 0x40 f) ∧ (s.chip.mbp.mem.find? (fun r => r.tag == f.tag) = some r) ∧ (f.status ≠ 0) ∧ ((s.chip.queue r.q).started = [e]) ∧ (e.req = some r.tag) ∧ ((s.chip.queue r.q).resetting = false) ∧ ((s.chip.queue r.q).used < s.chip.cqSize r.q) ∧ (wd e.words 1 < 2 ^ 32) :=
  ⟨ups (keyd (fun m => { m with mem := [{ tag := 3, q := 3 }] }) ((qBase 3 []).setQueue 3 { on := true, started := [{ req := some 3, words := ent 2 [] }] })), fr 0x40 { tag := 3, status := 7 }, { tag := 3, q := 3 }, { req := some 3, words := ent 2 [] }, by decide⟩
theorem wit_LinkRequests_22 : ∃ (s : State) (f : Frame) (r : MemReq) (e : Entry), (s.chip.takes 0x40 f) ∧ (s.chip.mbp.mem.find? (fun r => r.tag == f.tag) = some r) ∧ (f.status = 0) ∧ (r.frame.type = 0x1C) ∧ (f.body.length = r.len) ∧ (1 ≤ r.len) ∧ ((s.chip.queue r.q).started = [e]) ∧ (e.req = some r.tag) ∧ (eOp e.words = 2) ∧ (r.off + r.len = eLen e.words) ∧ (eTas e.words + eLen e.words ≤ t0Size) ∧ ((eTas e.words + r.off) % payloadSize + r.len ≤ payloadSize) ∧ (∀ i < r.len, s.chip.guarded (eTas e.words + r.off + i) = false) ∧ (s.chip.pwr.gddr = true) ∧ (s.chip.pwr.st ≠ 5) ∧ (eMask e.words = 0) :=
  ⟨ups (keyd (fun m => { m with mem := [{ tag := 3, q := 3, len := 1, frame := { type := 0x1C } }] }) ((qBase 3 []).setQueue 3 { on := true, started := [{ req := some 3, words := ent 2 [1] }] })), fr 0x40 { tag := 3, body := [1#8] }, { tag := 3, q := 3, len := 1, frame := { type := 0x1C } }, { req := some 3, words := ent 2 [1] }, by decide⟩
theorem wit_LinkRequests_23 : ∃ (s : State) (t : Nat), (s.chip.phase ≠ .off) ∧ (s.chip.mbp.mem.find? (fun r => r.tag == t) = none ∨ s.chip.mbp.sess ≠ 2) :=
  ⟨up, 3, by decide⟩
theorem wit_LinkRequests_24 : ∃ (s : State) (t : Nat) (r : MemReq), (s.chip.phase ≠ .off) ∧ (s.chip.mbp.sess = 2) ∧ (s.chip.mbp.mem.find? (fun r => r.tag == t) = some r) ∧ (r.deadline ≤ s.chip.beat) ∧ (r.resent = false) :=
  ⟨ups (keyd (fun m => { m with mem := [{ tag := 3, frame := { type := 0x1C } }] }) (chipOn)), 3, { tag := 3, frame := { type := 0x1C } }, by decide⟩
theorem wit_LinkRequests_25 : ∃ (s : State) (t : Nat) (r : MemReq), (s.chip.phase ≠ .off) ∧ (s.chip.mbp.sess = 2) ∧ (s.chip.mbp.mem.find? (fun r => r.tag == t) = some r) ∧ (r.deadline ≤ s.chip.beat) ∧ (r.resent = true) :=
  ⟨ups (keyd (fun m => { m with mem := [{ tag := 3, resent := true }] }) (chipOn)), 3, { tag := 3, resent := true }, by decide⟩
theorem wit_LinkRequests_26 : ∃ (s : State) (q : QueueId), (s.chip.isOn) ∧ ((s.chip.queue q).on = false) ∧ (ringOk (s.chip.sqBase q) (s.chip.sqSize q) = true) ∧ (ringOk (s.chip.cqBase q) (s.chip.cqSize q) = true) :=
  ⟨ups (qBase 3 []), 3, by decide⟩
theorem wit_LinkRequests_27 : ∃ (s : State) (q : QueueId), (s.chip.isOn) ∧ ((s.chip.queue q).on = false) ∧ (ringOk (s.chip.sqBase q) (s.chip.sqSize q) = false ∨ ringOk (s.chip.cqBase q) (s.chip.cqSize q) = false) :=
  ⟨ups (chipOn.setRg (qKey 32 0x138) 8), 32, by decide⟩
theorem wit_LinkRequests_28 : ∃ (s : State) (q : QueueId), (s.chip.isOn) ∧ ((s.chip.queue q).on = true) :=
  ⟨ups ((qBase 3 []).setQueue 3 { on := true }), 3, by decide⟩
theorem wit_LinkRequests_29 : ∃ (s : State) (q : QueueId), (s.chip.isOn) ∧ ((s.chip.queue q).on = true) ∧ ((s.chip.queue q).started = []) ∧ ((s.chip.queue q).tokens = 0) ∧ ((s.chip.queue q).sqHead = (s.chip.queue q).sqTail) ∧ ((s.chip.queue q).sqTail < 65536) :=
  ⟨ups ((qBase 3 []).setQueue 3 { on := true, cqTail := 4 }), 3, by decide⟩
theorem wit_LinkRequests_30 : ∃ (s : State) (q : QueueId), (s.chip.isOn) ∧ ((s.chip.queue q).on = true) ∧ ((s.chip.queue q).started = []) ∧ ((s.chip.queue q).tokens = 0) ∧ ((s.chip.queue q).sqHead < 65535) ∧ ((s.chip.queue q).sqTail = (s.chip.queue q).sqHead + 1) ∧ ((s.chip.queue q).used < s.chip.cqSize q) :=
  ⟨ups (((qBase 3 (ent 1 [])).setQueue 3 { on := true, sqTail := 1 })), 3, by decide⟩
theorem wit_LinkRequests_31 : ∃ (s : State) (f : Frame), (f.type = 0x10) ∧ (s.chip.listens 0x10) ∧ (accepts s.chip f = false) :=
  ⟨up, fr 0x10 {}, by decide⟩
theorem wit_LinkRequests_32 : ∃ (s : State) (f : Frame), (f.type = 0x10) ∧ (s.chip.listens 0x10) ∧ (accepts s.chip f = true) ∧ (f.authentic = false ∨ inOrder s.chip f = false) :=
  ⟨ups (keyd id (chipOn)), fr 0x10 { authentic := false,}, by decide⟩
theorem wit_LinkRequests_33 : ∃ (s : State) (f : Frame), (f.type = 0x10) ∧ (s.chip.listens 0x10) ∧ (accepts s.chip f = true) ∧ (f.authentic = true) ∧ (inOrder s.chip f = true) ∧ (f.broken = true) :=
  ⟨ups (keyd id (chipOn)), fr 0x10 { broken := true,}, by decide⟩
theorem wit_LinkRequests_34 : ∃ (s : State) (f : Frame), (s.chip.phase ≠ .off) ∧ (f.type ≠ 0x10 ∨ takesFrames s.chip 0x10 = false) :=
  ⟨up, {}, by decide⟩
theorem wit_LinkRequests_35 : ∃ (s : State) (f : Frame), (f.type = 0x11) ∧ (s.chip.listens 0x11) ∧ (accepts s.chip f = false) :=
  ⟨up, fr 0x11 {}, by decide⟩
theorem wit_LinkRequests_36 : ∃ (s : State) (f : Frame), (f.type = 0x11) ∧ (s.chip.listens 0x11) ∧ (accepts s.chip f = true) ∧ (f.authentic = false ∨ inOrder s.chip f = false) :=
  ⟨ups (keyd id (chipOn)), fr 0x11 { authentic := false,}, by decide⟩
theorem wit_LinkRequests_37 : ∃ (s : State) (f : Frame), (f.type = 0x11) ∧ (s.chip.listens 0x11) ∧ (accepts s.chip f = true) ∧ (f.authentic = true) ∧ (inOrder s.chip f = true) ∧ (f.broken = true) :=
  ⟨ups (keyd id (chipOn)), fr 0x11 { broken := true,}, by decide⟩
theorem wit_LinkRequests_38 : ∃ (s : State) (f : Frame), (s.chip.phase ≠ .off) ∧ (f.type ≠ 0x11 ∨ takesFrames s.chip 0x11 = false) :=
  ⟨up, {}, by decide⟩
theorem wit_LinkRequests_39 : ∃ (s : State) (f : Frame), (f.type = 0x18) ∧ (s.chip.listens 0x18) ∧ (accepts s.chip f = false) :=
  ⟨up, fr 0x18 {}, by decide⟩
theorem wit_LinkRequests_40 : ∃ (s : State) (f : Frame), (f.type = 0x18) ∧ (s.chip.listens 0x18) ∧ (accepts s.chip f = true) ∧ (f.authentic = false ∨ inOrder s.chip f = false) :=
  ⟨ups (keyd id (chipOn)), fr 0x18 { authentic := false,}, by decide⟩
theorem wit_LinkRequests_41 : ∃ (s : State) (f : Frame), (f.type = 0x18) ∧ (s.chip.listens 0x18) ∧ (accepts s.chip f = true) ∧ (f.authentic = true) ∧ (inOrder s.chip f = true) ∧ (f.broken = true) :=
  ⟨ups (keyd id (chipOn)), fr 0x18 { broken := true,}, by decide⟩
theorem wit_LinkRequests_42 : ∃ (s : State) (f : Frame), (s.chip.phase ≠ .off) ∧ (f.type ≠ 0x18 ∨ takesFrames s.chip 0x18 = false) :=
  ⟨up, {}, by decide⟩
theorem wit_LinkRequests_43 : ∃ (s : State) (f : Frame), (f.type = 0x19) ∧ (s.chip.listens 0x19) ∧ (accepts s.chip f = false) :=
  ⟨up, fr 0x19 {}, by decide⟩
theorem wit_LinkRequests_44 : ∃ (s : State) (f : Frame), (f.type = 0x19) ∧ (s.chip.listens 0x19) ∧ (accepts s.chip f = true) ∧ (f.authentic = false ∨ inOrder s.chip f = false) :=
  ⟨ups (keyd id (chipOn)), fr 0x19 { authentic := false,}, by decide⟩
theorem wit_LinkRequests_45 : ∃ (s : State) (f : Frame), (f.type = 0x19) ∧ (s.chip.listens 0x19) ∧ (accepts s.chip f = true) ∧ (f.authentic = true) ∧ (inOrder s.chip f = true) ∧ (f.broken = true) :=
  ⟨ups (keyd id (chipOn)), fr 0x19 { broken := true,}, by decide⟩
theorem wit_LinkRequests_46 : ∃ (s : State) (f : Frame), (s.chip.phase ≠ .off) ∧ (f.type ≠ 0x19 ∨ takesFrames s.chip 0x19 = false) :=
  ⟨up, {}, by decide⟩
theorem wit_LinkRequests_47 : ∃ (s : State) (f : Frame), (f.type = 0x20) ∧ (s.chip.listens 0x20) ∧ (accepts s.chip f = false) :=
  ⟨up, fr 0x20 {}, by decide⟩
theorem wit_LinkRequests_48 : ∃ (s : State) (f : Frame), (f.type = 0x20) ∧ (s.chip.listens 0x20) ∧ (accepts s.chip f = true) ∧ (f.authentic = false ∨ inOrder s.chip f = false) :=
  ⟨ups (keyd id (chipOn)), fr 0x20 { authentic := false,}, by decide⟩
theorem wit_LinkRequests_49 : ∃ (s : State) (f : Frame), (f.type = 0x20) ∧ (s.chip.listens 0x20) ∧ (accepts s.chip f = true) ∧ (f.authentic = true) ∧ (inOrder s.chip f = true) ∧ (f.broken = true) :=
  ⟨ups (keyd id (chipOn)), fr 0x20 { broken := true,}, by decide⟩
theorem wit_LinkRequests_50 : ∃ (s : State) (f : Frame), (s.chip.phase ≠ .off) ∧ (f.type ≠ 0x20 ∨ takesFrames s.chip 0x20 = false) :=
  ⟨up, {}, by decide⟩
theorem wit_LinkRequests_51 : ∃ (s : State) (f : Frame), (f.type = 0x22) ∧ (s.chip.listens 0x22) ∧ (accepts s.chip f = false) :=
  ⟨up, fr 0x22 {}, by decide⟩
theorem wit_LinkRequests_52 : ∃ (s : State) (f : Frame), (f.type = 0x22) ∧ (s.chip.listens 0x22) ∧ (accepts s.chip f = true) ∧ (f.authentic = false ∨ inOrder s.chip f = false) :=
  ⟨ups (keyd id (chipOn)), fr 0x22 { authentic := false,}, by decide⟩
theorem wit_LinkRequests_53 : ∃ (s : State) (f : Frame), (f.type = 0x22) ∧ (s.chip.listens 0x22) ∧ (accepts s.chip f = true) ∧ (f.authentic = true) ∧ (inOrder s.chip f = true) ∧ (f.broken = true) :=
  ⟨ups (keyd id (chipOn)), fr 0x22 { broken := true,}, by decide⟩
theorem wit_LinkRequests_54 : ∃ (s : State) (f : Frame), (s.chip.phase ≠ .off) ∧ (f.type ≠ 0x22 ∨ takesFrames s.chip 0x22 = false) :=
  ⟨up, {}, by decide⟩
theorem wit_LinkRequests_55 : ∃ (s : State) (f : Frame), (f.type = 0x29) ∧ (s.chip.listens 0x29) ∧ (accepts s.chip f = false) :=
  ⟨up, fr 0x29 {}, by decide⟩
theorem wit_LinkRequests_56 : ∃ (s : State) (f : Frame), (f.type = 0x29) ∧ (s.chip.listens 0x29) ∧ (accepts s.chip f = true) ∧ (f.authentic = false ∨ inOrder s.chip f = false) :=
  ⟨ups (keyd id (chipOn)), fr 0x29 { authentic := false,}, by decide⟩
theorem wit_LinkRequests_57 : ∃ (s : State) (f : Frame), (f.type = 0x29) ∧ (s.chip.listens 0x29) ∧ (accepts s.chip f = true) ∧ (f.authentic = true) ∧ (inOrder s.chip f = true) ∧ (f.broken = true) :=
  ⟨ups (keyd id (chipOn)), fr 0x29 { broken := true,}, by decide⟩
theorem wit_LinkRequests_58 : ∃ (s : State) (f : Frame), (s.chip.phase ≠ .off) ∧ (f.type ≠ 0x29 ∨ takesFrames s.chip 0x29 = false) :=
  ⟨up, {}, by decide⟩
theorem wit_LinkRequests_59 : ∃ (s : State) (f : Frame), (f.type = 0x40) ∧ (s.chip.listens 0x40) ∧ (accepts s.chip f = false) :=
  ⟨up, fr 0x40 {}, by decide⟩
theorem wit_LinkRequests_60 : ∃ (s : State) (f : Frame), (f.type = 0x40) ∧ (s.chip.listens 0x40) ∧ (accepts s.chip f = true) ∧ (f.authentic = false ∨ inOrder s.chip f = false) :=
  ⟨ups (keyd id (chipOn)), fr 0x40 { authentic := false,}, by decide⟩
theorem wit_LinkRequests_61 : ∃ (s : State) (f : Frame), (f.type = 0x40) ∧ (s.chip.listens 0x40) ∧ (accepts s.chip f = true) ∧ (f.authentic = true) ∧ (inOrder s.chip f = true) ∧ (f.broken = true) :=
  ⟨ups (keyd id (chipOn)), fr 0x40 { broken := true,}, by decide⟩
theorem wit_LinkRequests_62 : ∃ (s : State) (f : Frame), (s.chip.phase ≠ .off) ∧ (f.type ≠ 0x40 ∨ takesFrames s.chip 0x40 = false) :=
  ⟨up, {}, by decide⟩
theorem wit_LinkRequests_63 : ∃ (s : State) (f : Frame), (s.chip.takes 0x11 f) ∧ (serialLt s.chip.mbp.lastTag f.tag = false) :=
  ⟨ups (keyd (fun m => { m with lastTag := 5 }) (chipOn)), fr 0x11 { tag := 5 }, by decide⟩
theorem wit_LinkRequests_64 : ∃ (s : State) (f : Frame), (s.chip.takes 0x19 f) ∧ (serialLt s.chip.mbp.lastTag f.tag = false) :=
  ⟨ups (keyd (fun m => { m with lastTag := 5 }) (chipOn)), fr 0x19 { tag := 5 }, by decide⟩
theorem wit_LinkRequests_65 : ∃ (s : State) (f : Frame), (s.chip.takes 0x20 f) ∧ (serialLt s.chip.mbp.lastTag f.tag = false) :=
  ⟨ups (keyd (fun m => { m with lastTag := 5 }) (chipOn)), fr 0x20 { tag := 5 }, by decide⟩
theorem wit_LinkRequests_66 : ∃ (s : State) (f : Frame), (s.chip.takes 0x22 f) ∧ (serialLt s.chip.mbp.lastTag f.tag = false) :=
  ⟨ups (keyd (fun m => { m with lastTag := 5 }) (chipOn)), fr 0x22 { tag := 5 }, by decide⟩
theorem wit_LinkRequests_67 : ∃ (s : State) (f : Frame), (s.chip.takes 0x10 f) ∧ (leNat f.body = 0 ∨ 64 < leNat f.body ∨ windowSize ≤ f.addr) :=
  ⟨ups (keyd id (chipOn)), fr 0x10 {}, by decide⟩
theorem wit_LinkRequests_68 : ∃ (s : State) (f : Frame), (s.chip.takes 0x11 f) ∧ (serialLt s.chip.mbp.lastTag f.tag = true) ∧ (at_ f.body 0 4 = 0 ∨ 64 < at_ f.body 0 4 ∨ f.body.length ≠ 4 + 4 * at_ f.body 0 4 ∨ windowSize ≤ f.addr) :=
  ⟨ups (keyd id (chipOn)), fr 0x11 { tag := 1 }, by decide⟩
theorem wit_LinkRequests_69 : ∃ (s : State) (f : Frame), (s.chip.takes 0x18 f) ∧ (1 ≤ leNat f.body) ∧ (leNat f.body ≤ 65536) ∧ (f.addr < 2 ^ 48) ∧ (memClosed s.chip f.addr = false) :=
  ⟨ups (keyd id (chipOn)), fr 0x18 { body := leBytes 4 4 }, by decide⟩
theorem wit_LinkRequests_70 : ∃ (s : State) (f : Frame), (s.chip.takes 0x18 f) ∧ (1 ≤ leNat f.body) ∧ (leNat f.body ≤ 65536) ∧ (f.addr < 2 ^ 48) ∧ (memClosed s.chip f.addr = true) :=
  ⟨ups { chipOn with mbp := { sess := 2 } }, fr 0x18 { body := leBytes 4 4 }, by decide⟩
theorem wit_LinkRequests_71 : ∃ (s : State) (f : Frame), (s.chip.takes 0x18 f) ∧ (leNat f.body = 0 ∨ 65536 < leNat f.body ∨ 2 ^ 48 ≤ f.addr) :=
  ⟨ups (keyd id (chipOn)), fr 0x18 {}, by decide⟩
theorem wit_LinkRequests_72a : ∃ (s : State) (f : Frame), (s.chip.takes 0x19 f) ∧ (serialLt s.chip.mbp.lastTag f.tag = true) ∧ (1 ≤ f.body.length) ∧ (f.body.length ≤ 65536) ∧ (f.addr < 2 ^ 48) ∧ (memClosed s.chip f.addr = false) :=
  ⟨ups (keyd id (chipOn)), fr 0x19 { tag := 1, body := [1#8] }, by decide⟩
theorem wit_LinkRequests_72b : ∃ (s : State) (f : Frame), (s.chip.takes 0x19 f) ∧ (serialLt s.chip.mbp.lastTag f.tag = true) ∧ (1 ≤ f.body.length) ∧ (f.body.length ≤ 65536) ∧ (f.addr < 2 ^ 48) ∧ (memClosed s.chip f.addr = false) :=
  ⟨ups (keyd id (chipOn)), fr 0x19 { tag := 1, addr := 0x800000000000, body := [1#8] }, by decide⟩
theorem wit_LinkRequests_73 : ∃ (s : State) (f : Frame), (s.chip.takes 0x19 f) ∧ (serialLt s.chip.mbp.lastTag f.tag = true) ∧ (1 ≤ f.body.length) ∧ (f.body.length ≤ 65536) ∧ (f.addr < 2 ^ 48) ∧ (memClosed s.chip f.addr = true) :=
  ⟨ups { chipOn with mbp := { sess := 2 } }, fr 0x19 { tag := 1, body := [1#8] }, by decide⟩
theorem wit_LinkRequests_74 : ∃ (s : State) (f : Frame), (s.chip.takes 0x19 f) ∧ (serialLt s.chip.mbp.lastTag f.tag = true) ∧ (f.body.length = 0 ∨ 65536 < f.body.length ∨ 2 ^ 48 ≤ f.addr) :=
  ⟨ups (keyd id (chipOn)), fr 0x19 { tag := 1 }, by decide⟩
theorem wit_LinkRequests_75a : ∃ (s : State) (f : Frame), (s.chip.takes 0x20 f) ∧ (serialLt s.chip.mbp.lastTag f.tag = true) ∧ (32 < f.qid ∨ f.body.length % 64 ≠ 0 ∨ f.body.length / 64 = 0 ∨ 1023 < f.body.length / 64) :=
  ⟨ups (keyd id (chipOn)), fr 0x20 { tag := 1, body := [1#8] }, by decide⟩
theorem wit_LinkRequests_75b : ∃ (s : State) (f : Frame), (s.chip.takes 0x20 f) ∧ (serialLt s.chip.mbp.lastTag f.tag = true) ∧ (32 < f.qid ∨ f.body.length % 64 ≠ 0 ∨ f.body.length / 64 = 0 ∨ 1023 < f.body.length / 64) :=
  ⟨ups (keyd id (chipOn)), fr 0x20 { tag := 1, qid := 33, body := List.replicate 64 1#8 }, by decide⟩
theorem wit_LinkRequests_76 : ∃ (s : State) (f : Frame) (n : Nat), (s.chip.takes 0x20 f) ∧ (serialLt s.chip.mbp.lastTag f.tag = true) ∧ (f.qid ≤ 32) ∧ (f.body.length = 64 * n) ∧ (1 ≤ n) ∧ (n ≤ 1023) ∧ ((s.chip.queue f.qid).on = false) :=
  ⟨ups (keyd id (chipOn)), fr 0x20 { tag := 1, qid := 3, body := List.replicate 64 1#8 }, 1, by decide⟩
theorem wit_LinkRequests_77 : ∃ (s : State) (f : Frame) (n : Nat), (s.chip.takes 0x20 f) ∧ (serialLt s.chip.mbp.lastTag f.tag = true) ∧ (f.qid ≤ 32) ∧ (f.body.length = 64 * n) ∧ (1 ≤ n) ∧ (n ≤ 1023) ∧ ((s.chip.queue f.qid).on = true) ∧ (s.chip.sqSize f.qid < ((s.chip.queue f.qid).sqTail + 65536 - (s.chip.queue f.qid).sqHead) % 65536 + n) :=
  ⟨ups (keyd id (((qBase 3 []).setQueue 3 { on := true, sqTail := 16 }))), fr 0x20 { tag := 1, qid := 3, body := List.replicate 64 1#8 }, 1, by decide⟩
theorem wit_LinkRequests_78 : ∃ (s : State) (f : Frame) (h : Nat), (s.chip.takes 0x22 f) ∧ (serialLt s.chip.mbp.lastTag f.tag = true) ∧ (f.qid ≤ 32) ∧ (h = leNat f.body) ∧ (h < 65536) ∧ ((s.chip.queue f.qid).on = true) ∧ ((h + 65536 - (s.chip.queue f.qid).cqHead) % 65536 ≤ (s.chip.queue f.qid).used) :=
  ⟨ups (keyd id (((qBase 3 []).setQueue 3 { on := true, cqTail := 5, started := [{ status := some 0 }] }))), fr 0x22 { tag := 1, qid := 3, body := [5#8] }, 5, by decide⟩
theorem wit_LinkRequests_79 : ∃ (s : State) (f : Frame), (s.chip.takes 0x22 f) ∧ (serialLt s.chip.mbp.lastTag f.tag = true) ∧ (f.qid ≤ 32) ∧ (leNat f.body < 65536) ∧ ((s.chip.queue f.qid).on = false) :=
  ⟨ups (keyd id (chipOn)), fr 0x22 { tag := 1, qid := 3, body := [5#8] }, by decide⟩
theorem wit_LinkRequests_80a : ∃ (s : State) (f : Frame), (s.chip.takes 0x22 f) ∧ (serialLt s.chip.mbp.lastTag f.tag = true) ∧ (32 < f.qid ∨ 65536 ≤ leNat f.body ∨ (s.chip.queue f.qid).on = true ∧ (s.chip.queue f.qid).used < (leNat f.body + 65536 - (s.chip.queue f.qid).cqHead) % 65536) :=
  ⟨ups (keyd id (((qBase 3 []).setQueue 3 { on := true, cqTail := 5 }))), fr 0x22 { tag := 1, qid := 3, body := [6#8] }, by decide⟩
theorem wit_LinkRequests_80b : ∃ (s : State) (f : Frame), (s.chip.takes 0x22 f) ∧ (serialLt s.chip.mbp.lastTag f.tag = true) ∧ (32 < f.qid ∨ 65536 ≤ leNat f.body ∨ (s.chip.queue f.qid).on = true ∧ (s.chip.queue f.qid).used < (leNat f.body + 65536 - (s.chip.queue f.qid).cqHead) % 65536) :=
  ⟨ups (keyd id (chipOn)), fr 0x22 { tag := 1, qid := 33, body := [6#8] }, by decide⟩
theorem wit_LinkRequests_81 : ∃ (s : State) (f : Frame), (s.chip.takes 0x29 f) ∧ (2 ^ 32 ≤ leNat f.body) :=
  ⟨ups (keyd id (chipOn)), fr 0x29 { body := [0#8, 0#8, 0#8, 0#8, 1#8] }, by decide⟩
theorem wit_LinkRequests_82a : ∃ (s : State) (f : Frame) (r : MemReq), (s.chip.takes 0x40 f) ∧ (s.chip.mbp.mem.find? (fun r => r.tag == f.tag) = some r) ∧ (f.status ≠ 0) :=
  ⟨ups (keyd (fun m => { m with mem := [{ tag := 3 }] }) (chipOn)), fr 0x40 { tag := 3, status := 7 }, { tag := 3 }, by decide⟩
theorem wit_LinkRequests_82b : ∃ (s : State) (f : Frame) (r : MemReq), (s.chip.takes 0x40 f) ∧ (s.chip.mbp.mem.find? (fun r => r.tag == f.tag) = some r) ∧ (f.status ≠ 0) :=
  ⟨ups (keyd (fun m => { m with mem := [{ tag := 3, q := 3 }] }) ((qBase 3 []).setQueue 3 { on := true, started := [{ status := some 0, words := ent 2 [] }, { req := some 3, words := ent 2 [] }] })), fr 0x40 { tag := 3, status := 7 }, { tag := 3, q := 3 }, by decide⟩
theorem wit_LinkRequests_83 : ∃ (s : State) (f : Frame) (r : MemReq), (s.chip.takes 0x40 f) ∧ (s.chip.mbp.mem.find? (fun r => r.tag == f.tag) = some r) ∧ (f.status = 0) ∧ (f.body.length ≠ (if r.frame.type = 0x1C then r.len else 0)) :=
  ⟨ups (keyd (fun m => { m with mem := [{ tag := 3 }] }) (chipOn)), fr 0x40 { tag := 3, body := [1#8] }, { tag := 3 }, by decide⟩
theorem wit_LinkRequests_84 : ∃ (s : State) (f : Frame) (r : MemReq), (s.chip.takes 0x40 f) ∧ (s.chip.mbp.mem.find? (fun r => r.tag == f.tag) = some r) ∧ (f.status = 0) ∧ (f.body.length = (if r.frame.type = 0x1C then r.len else 0)) ∧ (waitingEntry s.chip r = none) :=
  ⟨ups (keyd (fun m => { m with mem := [{ tag := 3 }] }) (chipOn)), fr 0x40 { tag := 3 }, { tag := 3 }, by decide⟩
theorem wit_LinkRequests_85a : ∃ (s : State) (f : Frame) (r : MemReq) (i : Nat) (e : Entry), (s.chip.takes 0x40 f) ∧ (s.chip.mbp.mem.find? (fun r => r.tag == f.tag) = some r) ∧ (f.status = 0) ∧ (f.body.length = (if r.frame.type = 0x1C then r.len else 0)) ∧ (waitingEntry s.chip r = some (i, e)) ∧ (eOp e.words = 2) ∧ (memClosed s.chip (eTas e.words) = false) :=
  ⟨ups (keyd (fun m => { m with mem := [{ tag := 3, q := 3, off := 0, len := 1, frame := { type := 0x1C } }] }) ((qBase 3 []).setQueue 3 { on := true, started := [{ req := some 3, words := ent 2 [1] }] })), fr 0x40 { tag := 3, body := [1#8] }, { tag := 3, q := 3, off := 0, len := 1, frame := { type := 0x1C } }, 0, { req := some 3, words := ent 2 [1] }, by decide⟩
theorem wit_LinkRequests_85b : ∃ (s : State) (f : Frame) (r : MemReq) (i : Nat) (e : Entry), (s.chip.takes 0x40 f) ∧ (s.chip.mbp.mem.find? (fun r => r.tag == f.tag) = some r) ∧ (f.status = 0) ∧ (f.body.length = (if r.frame.type = 0x1C then r.len else 0)) ∧ (waitingEntry s.chip r = some (i, e)) ∧ (eOp e.words = 2) ∧ (memClosed s.chip (eTas e.words) = false) :=
  ⟨ups (keyd (fun m => { m with mem := [{ tag := 3, q := 3, off := 0, len := 1, frame := { type := 0x1C } }] }) ((qBase 3 []).setQueue 3 { on := true, started := [{ req := some 3, words := ent 2 [2] }] })), fr 0x40 { tag := 3, body := [1#8] }, { tag := 3, q := 3, off := 0, len := 1, frame := { type := 0x1C } }, 0, { req := some 3, words := ent 2 [2] }, by decide⟩
theorem wit_LinkRequests_85c : ∃ (s : State) (f : Frame) (r : MemReq) (i : Nat) (e : Entry), (s.chip.takes 0x40 f) ∧ (s.chip.mbp.mem.find? (fun r => r.tag == f.tag) = some r) ∧ (f.status = 0) ∧ (f.body.length = (if r.frame.type = 0x1C then r.len else 0)) ∧ (waitingEntry s.chip r = some (i, e)) ∧ (eOp e.words = 2) ∧ (memClosed s.chip (eTas e.words) = false) :=
  ⟨ups (keyd (fun m => { m with mem := [{ tag := 3, q := 3, off := 1, len := 1, frame := { type := 0x1C } }] }) ((qBase 3 []).setQueue 3 { on := true, started := [{ req := some 3, words := ent 2 [2, 0x103, 2] }] })), fr 0x40 { tag := 3, body := [1#8] }, { tag := 3, q := 3, off := 1, len := 1, frame := { type := 0x1C } }, 0, { req := some 3, words := ent 2 [2, 0x103, 2] }, by decide⟩
theorem wit_LinkRequests_86 : ∃ (s : State) (f : Frame) (r : MemReq) (i : Nat) (e : Entry), (s.chip.takes 0x40 f) ∧ (s.chip.mbp.mem.find? (fun r => r.tag == f.tag) = some r) ∧ (f.status = 0) ∧ (f.body.length = (if r.frame.type = 0x1C then r.len else 0)) ∧ (waitingEntry s.chip r = some (i, e)) ∧ (eOp e.words = 2) ∧ (memClosed s.chip (eTas e.words) = true) :=
  ⟨ups ((fun c : Chip => { c with pwr := { st := 1 } }) <| keyd (fun m => { m with mem := [{ tag := 3, q := 3, off := 0, len := 1, frame := { type := 0x1C } }] }) ((qBase 3 []).setQueue 3 { on := true, started := [{ req := some 3, words := ent 2 [1] }] })), fr 0x40 { tag := 3, body := [1#8] }, { tag := 3, q := 3, off := 0, len := 1, frame := { type := 0x1C } }, 0, { req := some 3, words := ent 2 [1] }, by decide⟩
theorem wit_LinkRequests_87 : ∃ (s : State) (f : Frame) (r : MemReq) (i : Nat) (e : Entry), (s.chip.takes 0x40 f) ∧ (s.chip.mbp.mem.find? (fun r => r.tag == f.tag) = some r) ∧ (f.status = 0) ∧ (f.body.length = (if r.frame.type = 0x1C then r.len else 0)) ∧ (waitingEntry s.chip r = some (i, e)) ∧ (eOp e.words = 3) ∧ (r.off + r.len < entryBytes e.words) :=
  ⟨ups (keyd (fun m => { m with mem := [{ tag := 3, q := 3, off := 0, len := 1, frame := { type := 0x1D } }] }) ((qBase 3 []).setQueue 3 { on := true, started := [{ req := some 3, words := ent 3 [2] }] })), fr 0x40 { tag := 3, body := [] }, { tag := 3, q := 3, off := 0, len := 1, frame := { type := 0x1D } }, 0, { req := some 3, words := ent 3 [2] }, by decide⟩
theorem wit_LinkRequests_88 : ∃ (s : State) (f : Frame) (r : MemReq) (i : Nat) (e : Entry), (s.chip.takes 0x40 f) ∧ (s.chip.mbp.mem.find? (fun r => r.tag == f.tag) = some r) ∧ (f.status = 0) ∧ (f.body.length = (if r.frame.type = 0x1C then r.len else 0)) ∧ (waitingEntry s.chip r = some (i, e)) ∧ (eOp e.words = 3) ∧ (entryBytes e.words ≤ r.off + r.len) :=
  ⟨ups (keyd (fun m => { m with mem := [{ tag := 3, q := 3, off := 0, len := 1, frame := { type := 0x1D } }] }) ((qBase 3 []).setQueue 3 { on := true, started := [{ req := some 3, words := ent 3 [1] }] })), fr 0x40 { tag := 3, body := [] }, { tag := 3, q := 3, off := 0, len := 1, frame := { type := 0x1D } }, 0, { req := some 3, words := ent 3 [1] }, by decide⟩
theorem wit_LinkRequests_89 : ∃ (s : State) (f : Frame) (r : MemReq) (i : Nat) (e : Entry), (s.chip.takes 0x40 f) ∧ (s.chip.mbp.mem.find? (fun r => r.tag == f.tag) = some r) ∧ (f.status = 0) ∧ (f.body.length = (if r.frame.type = 0x1C then r.len else 0)) ∧ (waitingEntry s.chip r = some (i, e)) ∧ (eOp e.words = 0x10) ∧ (r.off + r.len < entryBytes e.words) :=
  ⟨ups (keyd (fun m => { m with mem := [{ tag := 3, q := 32, off := 0, len := 1, frame := { type := 0x1C } }] }) ((qBase 32 []).setQueue 32 { on := true, started := [{ req := some 3, words := ent 0x10 [2] }] })), fr 0x40 { tag := 3, body := [1#8] }, { tag := 3, q := 32, off := 0, len := 1, frame := { type := 0x1C } }, 0, { req := some 3, words := ent 0x10 [2] }, by decide⟩
theorem wit_LinkRequests_90 : ∃ (s : State) (f : Frame) (r : MemReq) (i : Nat) (e : Entry), (s.chip.takes 0x40 f) ∧ (s.chip.mbp.mem.find? (fun r => r.tag == f.tag) = some r) ∧ (f.status = 0) ∧ (f.body.length = (if r.frame.type = 0x1C then r.len else 0)) ∧ (waitingEntry s.chip r = some (i, e)) ∧ (eOp e.words = 0x10) ∧ (entryBytes e.words ≤ r.off + r.len) :=
  ⟨ups (keyd (fun m => { m with mem := [{ tag := 3, q := 32, off := 0, len := 8, frame := { type := 0x1C } }] }) ((qBase 32 []).setQueue 32 { on := true, started := [{ req := some 3, words := ent 0x10 [1] }] })), fr 0x40 { tag := 3, body := leBytes 4 (ra pgMtm 0x100) ++ leBytes 4 3 }, { tag := 3, q := 32, off := 0, len := 8, frame := { type := 0x1C } }, 0, { req := some 3, words := ent 0x10 [1] }, by decide⟩
theorem wit_LinkRequests_91 : ∃ (s : State) (f : Frame) (r : MemReq) (i : Nat) (e : Entry), (s.chip.takes 0x40 f) ∧ (s.chip.mbp.mem.find? (fun r => r.tag == f.tag) = some r) ∧ (f.status = 0) ∧ (f.body.length = (if r.frame.type = 0x1C then r.len else 0)) ∧ (waitingEntry s.chip r = some (i, e)) ∧ (eOp e.words = 0x11) ∧ (r.off + r.len < entryBytes e.words) :=
  ⟨ups (keyd (fun m => { m with mem := [{ tag := 3, q := 32, off := 0, len := 1, frame := { type := 0x1C } }] }) ((qBase 32 []).setQueue 32 { on := true, started := [{ req := some 3, words := ent 0x11 [2] }] })), fr 0x40 { tag := 3, body := [1#8] }, { tag := 3, q := 32, off := 0, len := 1, frame := { type := 0x1C } }, 0, { req := some 3, words := ent 0x11 [2] }, by decide⟩
theorem wit_LinkRequests_92 : ∃ (s : State) (f : Frame) (r : MemReq) (i : Nat) (e : Entry), (s.chip.takes 0x40 f) ∧ (s.chip.mbp.mem.find? (fun r => r.tag == f.tag) = some r) ∧ (f.status = 0) ∧ (f.body.length = (if r.frame.type = 0x1C then r.len else 0)) ∧ (waitingEntry s.chip r = some (i, e)) ∧ (eOp e.words = 0x11) ∧ (entryBytes e.words ≤ r.off + r.len) :=
  ⟨ups (keyd (fun m => { m with mem := [{ tag := 3, q := 32, off := 266239, len := 1, frame := { type := 0x1C } }] }) ((qBase 32 []).setQueue 32 { on := true, started := [{ req := some 3, words := ent 0x11 [2] }] })), fr 0x40 { tag := 3, body := [1#8] }, { tag := 3, q := 32, off := 266239, len := 1, frame := { type := 0x1C } }, 0, { req := some 3, words := ent 0x11 [2] }, by decide +kernel⟩
theorem wit_LinkRequests_93 : ∃ (s : State) (t : Nat) (r : MemReq), (s.chip.phase ≠ .off) ∧ (s.chip.mbp.mem.find? (fun r => r.tag == t) = some r) ∧ (s.chip.beat < r.deadline) :=
  ⟨ups (keyd (fun m => { m with mem := [{ tag := 3, deadline := 9 }] }) (chipOn)), 3, { tag := 3, deadline := 9 }, by decide⟩
theorem wit_LinkRequests_94 : ∃ (s : State) (t : Nat) (r : MemReq), (s.chip.phase ≠ .off) ∧ (s.chip.mbp.sess = 2) ∧ (s.chip.mbp.mem.find? (fun r => r.tag == t) = some r) ∧ (r.deadline ≤ s.chip.beat) ∧ (r.resent = false) :=
  ⟨ups (keyd (fun m => { m with mem := [{ tag := 3, frame := { type := 0x1C } }] }) (chipOn)), 3, { tag := 3, frame := { type := 0x1C } }, by decide⟩
theorem wit_LinkRequests_95 : ∃ (s : State) (t : Nat) (r : MemReq), (s.chip.phase ≠ .off) ∧ (s.chip.mbp.sess = 2) ∧ (s.chip.mbp.mem.find? (fun r => r.tag == t) = some r) ∧ (r.deadline ≤ s.chip.beat) ∧ (r.resent = true) :=
  ⟨ups (keyd (fun m => { m with mem := [{ tag := 3, resent := true }] }) (chipOn)), 3, { tag := 3, resent := true }, by decide⟩
theorem wit_LinkRequests_96 : ∃ (s : State) (q : QueueId) (b : Bool), (s.chip.isOn) ∧ ((s.chip.queue q).on = b) :=
  ⟨up, 3, false, by decide⟩
theorem wit_LinkRequests_97 : ∃ (s : State) (q : QueueId), (s.chip.isOn) ∧ ((s.chip.queue q).on = false) ∧ (ringOk (s.chip.sqBase q) (s.chip.sqSize q) = true) ∧ (ringOk (s.chip.cqBase q) (s.chip.cqSize q) = true) :=
  ⟨ups (qBase 3 []), 3, by decide⟩
theorem wit_LinkRequests_98 : ∃ (s : State) (q : QueueId), (s.chip.isOn) ∧ ((s.chip.queue q).on = true) :=
  ⟨ups ((qBase 3 []).setQueue 3 { on := true }), 3, by decide⟩
theorem wit_LinkRequests_99 : ∃ (s : State) (q : QueueId), (s.chip.isOn) ∧ ((s.chip.queue q).on = false) :=
  ⟨up, 3, by decide⟩
theorem wit_LinkRequests_100a : ∃ (s : State) (q : QueueId), (s.chip.isOn) ∧ ((s.chip.queue q).on = true) :=
  ⟨ups ((qBase 3 []).setQueue 3 { on := true, cqTail := 4 }), 3, by decide⟩
theorem wit_LinkRequests_100b : ∃ (s : State) (q : QueueId), (s.chip.isOn) ∧ ((s.chip.queue q).on = true) :=
  ⟨ups (((qBase 3 (ent 1 [])).setQueue 3 { on := true, sqTail := 2, started := [{ req := some 4 }], tokens := 1 })), 3, by decide⟩
theorem wit_QueueEntries_1a : ∃ (s : State) (q : QueueId) (w : List Nat), (s.chip.nextEntry q 1 w) ∧ (bit 9 (wd w 0) = false) :=
  ⟨ups (qChip 3 (ent 1 [])), 3, ent 1 [], by decide⟩
theorem wit_QueueEntries_1b : ∃ (s : State) (q : QueueId) (w : List Nat), (s.chip.nextEntry q 1 w) ∧ (bit 9 (wd w 0) = false) :=
  ⟨ups (qChip 32 (ent 1 [])), 32, ent 1 [], by decide⟩
theorem wit_QueueEntries_2 : ∃ (s : State) (q : QueueId) (w : List Nat), (s.chip.nextEntry q 1 w) ∧ (bit 9 (wd w 0) = true) :=
  ⟨ups (qChip 3 (ent 0x201 [])), 3, ent 0x201 [], by decide⟩
theorem wit_QueueEntries_3a : ∃ (s : State) (q : QueueId) (w : List Nat), (s.chip.isReady) ∧ (s.chip.pwr.st = 1) ∧ (nextQueue s.chip = some q.val) ∧ ((s.chip.queue q).started = []) ∧ (w = sqEntry s.chip q (s.chip.queue q).sqHead) ∧ (acceptsOp q (eOp w) = false) :=
  ⟨ups (qChip 3 (ent 0x10 [])), 3, ent 0x10 [], by decide⟩
theorem wit_QueueEntries_3b : ∃ (s : State) (q : QueueId) (w : List Nat), (s.chip.isReady) ∧ (s.chip.pwr.st = 1) ∧ (nextQueue s.chip = some q.val) ∧ ((s.chip.queue q).started = []) ∧ (w = sqEntry s.chip q (s.chip.queue q).sqHead) ∧ (acceptsOp q (eOp w) = false) :=
  ⟨ups (qChip 32 (ent 6 [])), 32, ent 6 [], by decide⟩
theorem wit_QueueEntries_4 : ∃ (s : State) (q : QueueId), (s.chip.isReady) ∧ (s.chip.pwr.st ≠ 1 ∨ nextQueue s.chip ≠ some q.val) :=
  ⟨up, 3, by decide⟩
theorem wit_QueueEntries_5 : ∃ (s : State) (q : QueueId) (w : List Nat) (k : Nat), (s.chip.nextEntry q 4 w) ∧ (bit 9 (wd w 0) = false) ∧ (k < 24) ∧ (eMask w = 2 ^ k) ∧ (1 ≤ eAmount w) ∧ (s.chip.rg (flagReg k (eFlag w)) + eAmount w ≤ 0xFFFF) :=
  ⟨ups (qChip 3 (ent 4 [0, 0x103, 2])), 3, ent 4 [0, 0x103, 2], 1, by decide⟩
theorem wit_QueueEntries_6 : ∃ (s : State) (q : QueueId) (w : List Nat) (k : Nat), (s.chip.nextEntry q 4 w) ∧ (k < 24) ∧ (eMask w = 2 ^ k) ∧ (1 ≤ eAmount w) ∧ (0xFFFF < s.chip.rg (flagReg k (eFlag w)) + eAmount w) :=
  ⟨ups ((qChip 3 (ent 4 [0, 0x103, 2])).setRg (flagReg 1 3) 0xFFFF), 3, ent 4 [0, 0x103, 2], 1, by decide⟩
theorem wit_QueueEntries_7 : ∃ (s : State) (q : QueueId) (w : List Nat), (s.chip.nextEntry q 4 w) ∧ (eMask w ≠ 0) ∧ (eAmount w = 0) :=
  ⟨ups (qChip 3 (ent 4 [0, 3, 2])), 3, ent 4 [0, 3, 2], by decide⟩
theorem wit_QueueEntries_8 : ∃ (s : State) (q : QueueId) (w : List Nat) (n : Nat), (s.chip.nextEntry q 5 w) ∧ (bit 9 (wd w 0) = false) ∧ (n = 4 * eLen w) ∧ (eLen w ≤ 7) ∧ (1 ≤ n) ∧ (eTas w + n ≤ t0Size) ∧ (s.chip.pwr.gddr = true) ∧ (eMask w = 0) ∧ (eTas w % payloadSize + n ≤ payloadSize) ∧ (∀ i < n, s.chip.guarded (eTas w + i) = false) :=
  ⟨ups (qChip 3 (ent 5 [2, 0, 0, 9, 8])), 3, ent 5 [2, 0, 0, 9, 8], 8, by decide⟩
theorem wit_QueueEntries_9 : ∃ (s : State) (q : QueueId) (w : List Nat), (s.chip.nextEntry q 5 w) ∧ (eLen w = 0 ∨ 7 < eLen w) :=
  ⟨ups (qChip 3 (ent 5 [8])), 3, ent 5 [8], by decide⟩
theorem wit_QueueEntries_10 : ∃ (s : State) (q : QueueId) (w : List Nat) (n : Nat), (s.chip.nextEntry q 2 w) ∧ (n = eLen w) ∧ (n ≤ 0x1000000) ∧ (1 ≤ n) ∧ (eTas w + n ≤ t0Size) ∧ (s.chip.pwr.gddr = true) ∧ (signalOk w = true) :=
  ⟨ups (qChip 3 (ent 2 [70000])), 3, ent 2 [70000], 70000, by decide⟩
theorem wit_QueueEntries_11 : ∃ (s : State) (q : QueueId) (w : List Nat), (s.chip.nextEntry q 2 w) ∧ (eLen w = 0 ∨ 0x1000000 < eLen w ∨ signalOk w = false) :=
  ⟨ups (qChip 3 (ent 2 [])), 3, ent 2 [], by decide⟩
theorem wit_QueueEntries_12 : ∃ (s : State) (q : QueueId) (w : List Nat) (n : Nat), (s.chip.nextEntry q 3 w) ∧ (n = eLen w) ∧ (n ≤ 65536) ∧ (1 ≤ n) ∧ (eTas w + n ≤ t0Size) ∧ (s.chip.pwr.gddr = true) ∧ (signalOk w = true) ∧ (s.chip.poisonIn (eTas w) n = none) :=
  ⟨ups (qChip 3 (ent 3 [4])), 3, ent 3 [4], 4, by decide⟩
theorem wit_QueueEntries_13 : ∃ (s : State) (q : QueueId) (w : List Nat), (s.chip.nextEntry q 3 w) ∧ (1 ≤ eLen w) ∧ (eLen w ≤ 0x1000000) ∧ (signalOk w = true) ∧ (eTas w < 0x800000000000) ∧ (s.chip.extentOk (eTas w) (eLen w) = true) ∧ (s.chip.pwr.gddr = false) :=
  ⟨ups { (qChip 3 (ent 3 [4])) with pwr := { st := 1 } }, 3, ent 3 [4], by decide⟩
theorem wit_QueueEntries_14 : ∃ (s : State) (q : QueueId) (w : List Nat), (s.chip.nextEntry q 6 w) ∧ (fld 3 0 (wd w 6) = 0 ∨ 5 < fld 3 0 (wd w 6)) :=
  ⟨ups (qChip 3 (ent 6 [0])), 3, ent 6 [0], by decide⟩
theorem wit_QueueEntries_15 : ∃ (s : State) (q : QueueId) (w : List Nat), (s.chip.nextEntry q 6 w) ∧ (fld 3 0 (wd w 6) = 4) ∧ ((s.chip.slot q).st ≠ 3) :=
  ⟨ups (qChip 3 (ent 6 [4])), 3, ent 6 [4], by decide⟩
theorem wit_QueueEntries_16 : ∃ (s : State) (q : QueueId) (w : List Nat), (s.chip.nextEntry q 6 w) ∧ (bit 9 (wd w 0) = false) ∧ (fld 3 0 (wd w 6) = 4) ∧ ((s.chip.slot q).st = 3) ∧ ((s.chip.slot q).short = 0) ∧ ((s.chip.slot q).cause ≠ 2) ∧ ((s.chip.slot q).desc < 4096) :=
  ⟨ups ((qChip 0 (ent 6 [4])).setSlot 0 { st := 3, cause := 1 }), 0, ent 6 [4], by decide⟩
theorem wit_QueueEntries_17 : ∃ (s : State) (q : QueueId) (w : List Nat), (s.chip.nextEntry q 0x10 w) ∧ (1 ≤ eLen w) ∧ (eLen w ≤ 4096) :=
  ⟨ups (qChip 32 (ent 0x10 [4096])), 32, ent 0x10 [4096], by decide⟩
theorem wit_QueueEntries_18 : ∃ (s : State) (q : QueueId) (w : List Nat), (s.chip.nextEntry q 0x10 w) ∧ (eLen w = 0 ∨ 4096 < eLen w) :=
  ⟨ups (qChip 32 (ent 0x10 [4097])), 32, ent 0x10 [4097], by decide⟩
theorem wit_QueueEntries_19 : ∃ (s : State) (q : QueueId) (w : List Nat), (s.chip.nextEntry q 0x11 w) ∧ (eLen w < s.chip.granules) :=
  ⟨ups ((qChip 32 (ent 0x11 [3])).setRg (mtmReg 0x12C) 16), 32, ent 0x11 [3], by decide⟩
theorem wit_QueueEntries_20 : ∃ (s : State) (q : QueueId) (w : List Nat), (s.chip.nextEntry q 0x11 w) ∧ (s.chip.granules ≤ eLen w) :=
  ⟨ups (qChip 32 (ent 0x11 [3])), 32, ent 0x11 [3], by decide⟩
theorem wit_QueueEntries_21 : ∃ (s : State) (q : QueueId) (w : List Nat), (s.chip.isReady) ∧ (s.chip.pwr.st = 1) ∧ (nextQueue s.chip = some q.val) ∧ (w = sqEntry s.chip q (s.chip.queue q).sqHead) ∧ (acceptsOp q (eOp w) = true) ∧ (eOp w ≠ 1) :=
  ⟨ups (qChip 3 (ent 2 [])), 3, ent 2 [], by decide⟩
theorem wit_QueueEntries_22 : ∃ (s : State) (q : QueueId) (w : List Nat), (s.chip.isReady) ∧ (s.chip.pwr.st = 1) ∧ (nextQueue s.chip = some q.val) ∧ (w = sqEntry s.chip q (s.chip.queue q).sqHead) ∧ (acceptsOp q (eOp w) = true) ∧ (eOp w ≠ 2) :=
  ⟨ups (qChip 3 (ent 1 [])), 3, ent 1 [], by decide⟩
theorem wit_QueueEntries_23 : ∃ (s : State) (q : QueueId) (w : List Nat), (s.chip.isReady) ∧ (s.chip.pwr.st = 1) ∧ (nextQueue s.chip = some q.val) ∧ (w = sqEntry s.chip q (s.chip.queue q).sqHead) ∧ (acceptsOp q (eOp w) = true) ∧ (eOp w ≠ 3) :=
  ⟨ups (qChip 3 (ent 1 [])), 3, ent 1 [], by decide⟩
theorem wit_QueueEntries_24 : ∃ (s : State) (q : QueueId) (w : List Nat), (s.chip.isReady) ∧ (s.chip.pwr.st = 1) ∧ (nextQueue s.chip = some q.val) ∧ (w = sqEntry s.chip q (s.chip.queue q).sqHead) ∧ (acceptsOp q (eOp w) = true) ∧ (eOp w ≠ 4) :=
  ⟨ups (qChip 3 (ent 1 [])), 3, ent 1 [], by decide⟩
theorem wit_QueueEntries_25 : ∃ (s : State) (q : QueueId) (w : List Nat), (s.chip.isReady) ∧ (s.chip.pwr.st = 1) ∧ (nextQueue s.chip = some q.val) ∧ (w = sqEntry s.chip q (s.chip.queue q).sqHead) ∧ (acceptsOp q (eOp w) = true) ∧ (eOp w ≠ 5) :=
  ⟨ups (qChip 3 (ent 1 [])), 3, ent 1 [], by decide⟩
theorem wit_QueueEntries_26 : ∃ (s : State) (q : QueueId) (w : List Nat), (s.chip.isReady) ∧ (s.chip.pwr.st = 1) ∧ (nextQueue s.chip = some q.val) ∧ (w = sqEntry s.chip q (s.chip.queue q).sqHead) ∧ (acceptsOp q (eOp w) = true) ∧ (eOp w ≠ 6) :=
  ⟨ups (qChip 3 (ent 1 [])), 3, ent 1 [], by decide⟩
theorem wit_QueueEntries_27 : ∃ (s : State) (q : QueueId) (w : List Nat), (s.chip.isReady) ∧ (s.chip.pwr.st = 1) ∧ (nextQueue s.chip = some q.val) ∧ (w = sqEntry s.chip q (s.chip.queue q).sqHead) ∧ (acceptsOp q (eOp w) = true) ∧ (eOp w ≠ 0x10) :=
  ⟨ups (qChip 3 (ent 1 [])), 3, ent 1 [], by decide⟩
theorem wit_QueueEntries_28 : ∃ (s : State) (q : QueueId) (w : List Nat), (s.chip.isReady) ∧ (s.chip.pwr.st = 1) ∧ (nextQueue s.chip = some q.val) ∧ (w = sqEntry s.chip q (s.chip.queue q).sqHead) ∧ (acceptsOp q (eOp w) = true) ∧ (eOp w ≠ 0x11) :=
  ⟨ups (qChip 3 (ent 1 [])), 3, ent 1 [], by decide⟩
theorem wit_QueueEntries_29 : ∃ (s : State) (q : QueueId) (w : List Nat), (s.chip.isReady) ∧ (s.chip.pwr.st = 1) ∧ (nextQueue s.chip = some q.val) ∧ (w = sqEntry s.chip q (s.chip.queue q).sqHead) ∧ (acceptsOp q (eOp w) = false) :=
  ⟨ups (qChip 3 (ent 0x10 [])), 3, ent 0x10 [], by decide⟩
theorem wit_QueueEntries_30 : ∃ (s : State) (q : QueueId) (w : List Nat), (s.chip.isReady) ∧ (s.chip.pwr.st = 1) ∧ (nextQueue s.chip = some q.val) ∧ (w = sqEntry s.chip q (s.chip.queue q).sqHead) ∧ (acceptsOp q (eOp w) = false) :=
  ⟨ups (qChip 3 (ent 0x10 [])), 3, ent 0x10 [], by decide⟩
theorem wit_QueueEntries_31 : ∃ (s : State) (q : QueueId) (w : List Nat), (s.chip.isReady) ∧ (s.chip.pwr.st = 1) ∧ (nextQueue s.chip = some q.val) ∧ (w = sqEntry s.chip q (s.chip.queue q).sqHead) ∧ (acceptsOp q (eOp w) = false) :=
  ⟨ups (qChip 3 (ent 0x10 [])), 3, ent 0x10 [], by decide⟩
theorem wit_QueueEntries_32 : ∃ (s : State) (q : QueueId) (w : List Nat), (s.chip.isReady) ∧ (s.chip.pwr.st = 1) ∧ (nextQueue s.chip = some q.val) ∧ (w = sqEntry s.chip q (s.chip.queue q).sqHead) ∧ (acceptsOp q (eOp w) = false) :=
  ⟨ups (qChip 3 (ent 0x10 [])), 3, ent 0x10 [], by decide⟩
theorem wit_QueueEntries_33 : ∃ (s : State) (q : QueueId) (w : List Nat), (s.chip.isReady) ∧ (s.chip.pwr.st = 1) ∧ (nextQueue s.chip = some q.val) ∧ (w = sqEntry s.chip q (s.chip.queue q).sqHead) ∧ (acceptsOp q (eOp w) = false) :=
  ⟨ups (qChip 3 (ent 0x10 [])), 3, ent 0x10 [], by decide⟩
theorem wit_QueueEntries_34 : ∃ (s : State) (q : QueueId) (w : List Nat), (s.chip.isReady) ∧ (s.chip.pwr.st = 1) ∧ (nextQueue s.chip = some q.val) ∧ (w = sqEntry s.chip q (s.chip.queue q).sqHead) ∧ (acceptsOp q (eOp w) = false) :=
  ⟨ups (qChip 3 (ent 0x10 [])), 3, ent 0x10 [], by decide⟩
theorem wit_QueueEntries_35 : ∃ (s : State) (q : QueueId) (w : List Nat), (s.chip.isReady) ∧ (s.chip.pwr.st = 1) ∧ (nextQueue s.chip = some q.val) ∧ (w = sqEntry s.chip q (s.chip.queue q).sqHead) ∧ (acceptsOp q (eOp w) = false) :=
  ⟨ups (qChip 3 (ent 0x10 [])), 3, ent 0x10 [], by decide⟩
theorem wit_QueueEntries_36 : ∃ (s : State) (q : QueueId), (s.chip.isReady) ∧ (s.chip.pwr.st ≠ 1 ∨ nextQueue s.chip ≠ some q.val) :=
  ⟨up, 3, by decide⟩
theorem wit_QueueEntries_37 : ∃ (s : State) (q : QueueId), (s.chip.isReady) ∧ (s.chip.pwr.st ≠ 1 ∨ nextQueue s.chip ≠ some q.val) :=
  ⟨up, 3, by decide⟩
theorem wit_QueueEntries_38 : ∃ (s : State) (q : QueueId), (s.chip.isReady) ∧ (s.chip.pwr.st ≠ 1 ∨ nextQueue s.chip ≠ some q.val) :=
  ⟨up, 3, by decide⟩
theorem wit_QueueEntries_39 : ∃ (s : State) (q : QueueId), (s.chip.isReady) ∧ (s.chip.pwr.st ≠ 1 ∨ nextQueue s.chip ≠ some q.val) :=
  ⟨up, 3, by decide⟩
theorem wit_QueueEntries_40 : ∃ (s : State) (q : QueueId), (s.chip.isReady) ∧ (s.chip.pwr.st ≠ 1 ∨ nextQueue s.chip ≠ some q.val) :=
  ⟨up, 3, by decide⟩
theorem wit_QueueEntries_41 : ∃ (s : State) (q : QueueId), (s.chip.isReady) ∧ (s.chip.pwr.st ≠ 1 ∨ nextQueue s.chip ≠ some q.val) :=
  ⟨up, 3, by decide⟩
theorem wit_QueueEntries_42 : ∃ (s : State) (q : QueueId), (s.chip.isReady) ∧ (s.chip.pwr.st ≠ 1 ∨ nextQueue s.chip ≠ some q.val) :=
  ⟨up, 3, by decide⟩
theorem wit_QueueEntries_43a : ∃ (s : State) (q : QueueId) (w : List Nat), (s.chip.turnOf q 1 w) :=
  ⟨ups (qChip 3 (ent 1 [])), 3, ent 1 [], by decide⟩
theorem wit_QueueEntries_43b : ∃ (s : State) (q : QueueId) (w : List Nat), (s.chip.turnOf q 1 w) :=
  ⟨ups ((qChip 3 (ent 1 [])).setQueue 3 { on := true, sqTail := 1, started := [{ req := some 4 }] }), 3, ent 1 [], by decide⟩
theorem wit_QueueEntries_44 : ∃ (s : State) (q : QueueId) (w : List Nat), (s.chip.isReady) ∧ (s.chip.pwr.st = 1) ∧ (nextQueue s.chip = some q.val) ∧ (w = sqEntry s.chip q (s.chip.queue q).sqHead) ∧ (acceptsOp q (eOp w) = false) :=
  ⟨ups (qChip 3 (ent 0x10 [])), 3, ent 0x10 [], by decide⟩
theorem wit_QueueEntries_45a : ∃ (s : State) (q : QueueId) (w : List Nat), (s.chip.turnOf q 4 w) ∧ (signalOk w = true) :=
  ⟨ups (qChip 3 (ent 4 [0, 0x103, 2])), 3, ent 4 [0, 0x103, 2], by decide⟩
theorem wit_QueueEntries_45b : ∃ (s : State) (q : QueueId) (w : List Nat), (s.chip.turnOf q 4 w) ∧ (signalOk w = true) :=
  ⟨ups (qChip 3 (ent 4 [0, 0x103, 0xFFFFFF])), 3, ent 4 [0, 0x103, 0xFFFFFF], by decide⟩
theorem wit_QueueEntries_46 : ∃ (s : State) (q : QueueId) (w : List Nat), (s.chip.turnOf q 4 w) ∧ (signalOk w = false) :=
  ⟨ups (qChip 3 (ent 4 [0, 3, 2])), 3, ent 4 [0, 3, 2], by decide⟩
theorem wit_QueueEntries_47 : ∃ (s : State) (q : QueueId) (w : List Nat), (s.chip.turnOf q 5 w) ∧ (eLen w = 0 ∨ 7 < eLen w ∨ signalOk w = false) :=
  ⟨ups (qChip 3 (ent 5 [8])), 3, ent 5 [8], by decide⟩
theorem wit_QueueEntries_48 : ∃ (s : State) (q : QueueId) (w : List Nat), (s.chip.turnOf q 5 w) ∧ (1 ≤ eLen w) ∧ (eLen w ≤ 7) ∧ (signalOk w = true) ∧ (rangeOpen s.chip w (4 * eLen w) = false) :=
  ⟨ups { (qChip 3 (ent 5 [1])) with pwr := { st := 1 } }, 3, ent 5 [1], by decide⟩
theorem wit_QueueEntries_49 : ∃ (s : State) (q : QueueId) (w : List Nat), (s.chip.turnOf q 5 w) ∧ (1 ≤ eLen w) ∧ (eLen w ≤ 7) ∧ (signalOk w = true) ∧ (rangeOpen s.chip w (4 * eLen w) = true) :=
  ⟨ups (qChip 3 (ent 5 [2, 0x103, 2, 9, 8])), 3, ent 5 [2, 0x103, 2, 9, 8], by decide⟩
theorem wit_QueueEntries_50 : ∃ (s : State) (q : QueueId) (w : List Nat), (s.chip.turnOf q 2 w) ∧ (eLen w = 0 ∨ 0x1000000 < eLen w ∨ signalOk w = false) :=
  ⟨ups (qChip 3 (ent 2 [])), 3, ent 2 [], by decide⟩
theorem wit_QueueEntries_51 : ∃ (s : State) (q : QueueId) (w : List Nat), (s.chip.turnOf q 2 w) ∧ (1 ≤ eLen w) ∧ (eLen w ≤ 0x1000000) ∧ (signalOk w = true) ∧ (rangeOpen s.chip w (eLen w) = false) :=
  ⟨ups { (qChip 3 (ent 2 [1])) with pwr := { st := 1 } }, 3, ent 2 [1], by decide⟩
theorem wit_QueueEntries_52 : ∃ (s : State) (q : QueueId) (w : List Nat), (s.chip.turnOf q 2 w) ∧ (1 ≤ eLen w) ∧ (eLen w ≤ 0x1000000) ∧ (signalOk w = true) ∧ (rangeOpen s.chip w (eLen w) = true) :=
  ⟨ups (qChip 3 (ent 2 [70000])), 3, ent 2 [70000], by decide⟩
theorem wit_QueueEntries_53 : ∃ (s : State) (q : QueueId) (w : List Nat), (s.chip.turnOf q 3 w) ∧ (eLen w = 0 ∨ 0x1000000 < eLen w ∨ signalOk w = false) :=
  ⟨ups (qChip 3 (ent 3 [])), 3, ent 3 [], by decide⟩
theorem wit_QueueEntries_54 : ∃ (s : State) (q : QueueId) (w : List Nat), (s.chip.turnOf q 3 w) ∧ (1 ≤ eLen w) ∧ (eLen w ≤ 0x1000000) ∧ (signalOk w = true) ∧ (rangeOpen s.chip w (eLen w) = false) :=
  ⟨ups { (qChip 3 (ent 3 [1])) with pwr := { st := 1 } }, 3, ent 3 [1], by decide⟩
theorem wit_QueueEntries_55 : ∃ (s : State) (q : QueueId) (w : List Nat), (s.chip.turnOf q 3 w) ∧ (1 ≤ eLen w) ∧ (eLen w ≤ 0x1000000) ∧ (signalOk w = true) ∧ (rangeOpen s.chip w (eLen w) = true) :=
  ⟨ups (qChip 3 (ent 3 [4])), 3, ent 3 [4], by decide⟩
theorem wit_QueueEntries_56 : ∃ (s : State) (q : QueueId) (w : List Nat), (s.chip.turnOf q 6 w) ∧ (fld 3 0 (wd w 6) = 0 ∨ 5 < fld 3 0 (wd w 6)) :=
  ⟨ups (qChip 3 (ent 6 [0])), 3, ent 6 [0], by decide⟩
theorem wit_QueueEntries_57a : ∃ (s : State) (q : QueueId) (w : List Nat), (s.chip.turnOf q 6 w) ∧ (1 ≤ fld 3 0 (wd w 6)) ∧ (fld 3 0 (wd w 6) ≤ 5) :=
  ⟨ups (qChip 3 (ent 6 [1])), 3, ent 6 [1], by decide⟩
theorem wit_QueueEntries_57b : ∃ (s : State) (q : QueueId) (w : List Nat), (s.chip.turnOf q 6 w) ∧ (1 ≤ fld 3 0 (wd w 6)) ∧ (fld 3 0 (wd w 6) ≤ 5) :=
  ⟨ups (qChip 3 (ent 6 [2])), 3, ent 6 [2], by decide⟩
theorem wit_QueueEntries_57c : ∃ (s : State) (q : QueueId) (w : List Nat), (s.chip.turnOf q 6 w) ∧ (1 ≤ fld 3 0 (wd w 6)) ∧ (fld 3 0 (wd w 6) ≤ 5) :=
  ⟨ups (qChip 3 (ent 6 [3])), 3, ent 6 [3], by decide⟩
theorem wit_QueueEntries_57d : ∃ (s : State) (q : QueueId) (w : List Nat), (s.chip.turnOf q 6 w) ∧ (1 ≤ fld 3 0 (wd w 6)) ∧ (fld 3 0 (wd w 6) ≤ 5) :=
  ⟨ups (qChip 3 (ent 6 [4])), 3, ent 6 [4], by decide⟩
theorem wit_QueueEntries_57e : ∃ (s : State) (q : QueueId) (w : List Nat), (s.chip.turnOf q 6 w) ∧ (1 ≤ fld 3 0 (wd w 6)) ∧ (fld 3 0 (wd w 6) ≤ 5) :=
  ⟨ups (qChip 3 (ent 6 [5])), 3, ent 6 [5], by decide⟩
theorem wit_QueueEntries_58 : ∃ (s : State) (q : QueueId) (w : List Nat), (s.chip.turnOf q 0x10 w) ∧ (eLen w = 0 ∨ 4096 < eLen w) :=
  ⟨ups (qChip 32 (ent 0x10 [4097])), 32, ent 0x10 [4097], by decide⟩
theorem wit_QueueEntries_59 : ∃ (s : State) (q : QueueId) (w : List Nat), (s.chip.turnOf q 0x10 w) ∧ (1 ≤ eLen w) ∧ (eLen w ≤ 4096) :=
  ⟨ups (qChip 32 (ent 0x10 [4096])), 32, ent 0x10 [4096], by decide⟩
theorem wit_QueueEntries_60 : ∃ (s : State) (q : QueueId) (w : List Nat), (s.chip.turnOf q 0x11 w) ∧ (s.chip.granules ≤ eLen w) :=
  ⟨ups (qChip 32 (ent 0x11 [3])), 32, ent 0x11 [3], by decide⟩
theorem wit_QueueEntries_61 : ∃ (s : State) (q : QueueId) (w : List Nat), (s.chip.turnOf q 0x11 w) ∧ (eLen w < s.chip.granules) :=
  ⟨ups ((qChip 32 (ent 0x11 [3])).setRg (mtmReg 0x12C) 16), 32, ent 0x11 [3], by decide⟩
theorem wit_PowerLevels_1a : ∃ (s : State) (v : Nat), (s.chip.isOn) ∧ (band v ≠ 0) ∧ (band v ≠ band s.chip.pwr.vin) :=
  ⟨ups { (chipOn) with pwr := { st := 1, vin := 7000 } }, 5900, by decide⟩
theorem wit_PowerLevels_1b : ∃ (s : State) (v : Nat), (s.chip.isOn) ∧ (band v ≠ 0) ∧ (band v ≠ band s.chip.pwr.vin) :=
  ⟨ups { (chipOn) with pwr := { st := 1, vin := 5900 } }, 8400, by decide⟩
theorem wit_PowerLevels_2 : ∃ (s : State) (v : Nat), (s.chip.isOn) ∧ (band v = 0 ∨ band v = band s.chip.pwr.vin) :=
  ⟨up, 7000, by decide⟩
theorem wit_PowerLevels_3 : ∃ (s : State) (v : Nat), (s.chip.phase ≠ .off) ∧ (s.chip.pwr.st ≠ 5) ∧ (v < 5800) :=
  ⟨up, 5799, by decide⟩
theorem wit_PowerLevels_4 : ∃ (s : State) (v : Nat), (s.chip.phase ≠ .off) ∧ (s.chip.pwr.st = 5 ∨ 5800 ≤ v) :=
  ⟨up, 5800, by decide⟩
theorem wit_PowerLevels_5 : ∃ (s : State) (v : Nat), (s.chip.phase ≠ .off) ∧ (s.chip.pwr.st ≠ 5) ∧ (8400 < v) :=
  ⟨up, 8401, by decide⟩
theorem wit_PowerLevels_6 : ∃ (s : State) (v : Nat), (s.chip.phase ≠ .off) ∧ (s.chip.pwr.st = 5 ∨ v ≤ 8400) :=
  ⟨up, 8400, by decide⟩
theorem wit_PowerLevels_7 : ∃ (s : State), (s.chip.phase ≠ .off) ∧ (s.chip.pwr.st ≠ 5) :=
  ⟨up, by decide⟩
theorem wit_PowerLevels_8 : ∃ (s : State) (v : Nat), (s.chip.phase ≠ .off) ∧ (s.chip.pwr.st = 5) ∧ (6000 < v) :=
  ⟨ups { chipOn with pwr := { st := 5 } }, 6001, by decide⟩
theorem wit_PowerLevels_9 : ∃ (s : State) (v : Nat), (s.chip.phase ≠ .off) ∧ (s.chip.pwr.st ≠ 5 ∨ v ≤ 6000) :=
  ⟨up, 6001, by decide⟩
theorem wit_PowerLevels_10 : ∃ (s : State) (v : Nat), (s.chip.phase ≠ .off) ∧ (s.chip.pwr.st = 5) ∧ (v ≤ 3600) :=
  ⟨ups { chipOn with pwr := { st := 5 } }, 3600, by decide⟩
theorem wit_PowerLevels_11 : ∃ (s : State) (v : Nat), (s.chip.phase ≠ .off) ∧ (s.chip.pwr.st ≠ 5 ∨ 3600 < v) :=
  ⟨up, 0, by decide⟩
theorem wit_PowerLevels_12 : ∃ (s : State) (t : Int) (p q : Nat), (s.chip.isOn) ∧ (s.chip.pwr.st ≠ 3) ∧ (s.chip.pwr.trig = 0) ∧ (1600 ≤ t) ∧ (t < 1648) ∧ (p ≤ 1550) ∧ (q ≤ 1400) :=
  ⟨up, 1600, 1550, 1400, by decide⟩
theorem wit_PowerLevels_13 : ∃ (s : State) (t : Int) (p q : Nat), (s.chip.isOn) ∧ (s.chip.pwr.st ≠ 3) ∧ (s.chip.pwr.trig = 0) ∧ (1648 ≤ t) ∧ (p ≤ 1550) ∧ (q ≤ 1400) :=
  ⟨up, 1648, 0, 0, by decide⟩
theorem wit_PowerLevels_14 : ∃ (s : State) (t : Int) (p q : Nat), (s.chip.isOn) ∧ (s.chip.pwr.st ≠ 3) ∧ (s.chip.pwr.trig = 0) ∧ (t < 1600) ∧ (1550 < p) ∧ (q ≤ 1400) :=
  ⟨up, 1599, 1551, 0, by decide⟩
theorem wit_PowerLevels_15 : ∃ (s : State) (t : Int) (p q : Nat), (s.chip.isOn) ∧ (s.chip.pwr.st ≠ 3) ∧ (s.chip.pwr.trig = 0) ∧ (t < 1600) ∧ (p ≤ 1550) ∧ (1400 < q) :=
  ⟨up, 0, 0, 1401, by decide⟩
theorem wit_PowerLevels_16 : ∃ (s : State) (t : Int) (p q : Nat), (s.chip.isOn) ∧ (s.chip.pwr.st = 3 ∨ (t < 1600 ∧ p ≤ 1550 ∧ q ≤ 1400)) :=
  ⟨up, 1599, 1550, 1400, by decide⟩
theorem wit_PowerLevels_17a : ∃ (s : State) (q : Nat), (s.chip.isOn) ∧ (bit 3 s.chip.pwr.trig = true) ∧ (s.chip.pwr.ocNext ≤ s.chip.beat) ∧ (1400 < q) :=
  ⟨ups { (chipOn) with pwr := { st := 1, trig := 8, ocLevel := 2, emerg := 2 } }, 1401, by decide⟩
theorem wit_PowerLevels_17b : ∃ (s : State) (q : Nat), (s.chip.isOn) ∧ (bit 3 s.chip.pwr.trig = true) ∧ (s.chip.pwr.ocNext ≤ s.chip.beat) ∧ (1400 < q) :=
  ⟨ups { (chipOn) with pwr := { st := 1, trig := 8, ocLevel := 12, emerg := 12 } }, 1401, by decide⟩
theorem wit_PowerLevels_18 : ∃ (s : State) (q : Nat), (s.chip.isOn) ∧ (bit 3 s.chip.pwr.trig = false ∨ s.chip.beat < s.chip.pwr.ocNext) :=
  ⟨up, 1401, by decide⟩
theorem wit_PowerLevels_19a : ∃ (s : State) (k : Trigger) (t : Int) (q b : Nat), (s.chip.isOn) ∧ (s.chip.pwr.trig = 2 ^ trigBit k) ∧ (trigClears k t q b = true) :=
  ⟨ups { (chipOn) with pwr := { st := 1, trig := 1, emerg := 4 } }, .ot1, 1551, 0, 1024, by decide⟩
theorem wit_PowerLevels_19b : ∃ (s : State) (k : Trigger) (t : Int) (q b : Nat), (s.chip.isOn) ∧ (s.chip.pwr.trig = 2 ^ trigBit k) ∧ (trigClears k t q b = true) :=
  ⟨ups { (chipOn) with pwr := { st := 1, trig := 8, emerg := 4 } }, .ocAvg, 1551, 1299, 4096, by decide⟩
theorem wit_PowerLevels_20 : ∃ (s : State) (t : Int) (q b : Nat), (s.chip.isOn) ∧ (s.chip.pwr.trig = 3) ∧ (trigClears .ot2 t q b = true) :=
  ⟨ups { (chipOn) with pwr := { st := 1, trig := 3, emerg := 8 } }, 1599, 0, 1024, by decide⟩
theorem wit_PowerLevels_21a : ∃ (s : State) (k : Trigger) (t : Int) (q b : Nat), (s.chip.isOn) ∧ (bit (trigBit k) s.chip.pwr.trig = false ∨ trigClears k t q b = false) :=
  ⟨ups { (chipOn) with pwr := { st := 1, trig := 1, emerg := 4 } }, .ot1, 1552, 0, 1024, by decide⟩
theorem wit_PowerLevels_21b : ∃ (s : State) (k : Trigger) (t : Int) (q b : Nat), (s.chip.isOn) ∧ (bit (trigBit k) s.chip.pwr.trig = false ∨ trigClears k t q b = false) :=
  ⟨ups { (chipOn) with pwr := { st := 1, trig := 1, emerg := 4 } }, .ot1, 1551, 0, 1023, by decide⟩
theorem wit_PowerLevels_22 : ∃ (s : State), (s.chip.isOn) ∧ (s.chip.pwr.returning = true) ∧ (anyRunning s.chip = false) :=
  ⟨ups { (chipOn) with pwr := { st := 1, emerg := 4, returning := true } }, by decide⟩
theorem wit_PowerLevels_23 : ∃ (s : State), (s.chip.isOn) ∧ (s.chip.pwr.returning = false ∨ anyRunning s.chip = true) :=
  ⟨up, by decide⟩
theorem wit_PowerLevels_24 : ∃ (s : State) (t : Int), (s.chip.isOn) ∧ (1760 ≤ t) ∧ (s.chip.pwr.trip = false) :=
  ⟨up, 1760, by decide⟩
theorem wit_PowerLevels_25 : ∃ (s : State) (t : Int), (s.chip.isOn) ∧ (t < 1760 ∨ s.chip.pwr.trip = true) :=
  ⟨up, 1759, by decide⟩
theorem wit_PowerLevels_26 : ∃ (s : State) (t : Int), (s.chip.isOn) ∧ (s.chip.pwr.trip = true) ∧ (t < 1552) ∧ (feHold s.chip = false) :=
  ⟨ups { (chipOn) with pwr := { st := 1, trip := true } }, 1551, by decide⟩
theorem wit_PowerLevels_27 : ∃ (s : State) (t : Int), (s.chip.isOn) ∧ (s.chip.pwr.trip = false ∨ 1552 ≤ t ∨ feHold s.chip = true) :=
  ⟨ups { (chipOn) with pwr := { st := 1, trip := true } }, 1552, by decide⟩
theorem wit_PowerLevels_28 : ∃ (s : State) (b : Nat), (s.chip.isOn) ∧ (s.chip.pwr.feAt = some b) ∧ (b ≤ s.chip.beat) ∧ (feHold s.chip = false) :=
  ⟨ups { (chipOn) with pwr := { st := 1, feAt := some 0 } }, 0, by decide⟩
theorem wit_PowerLevels_29 : ∃ (s : State), (s.chip.isOn) ∧ (s.chip.pwr.feAt = none ∨ feHold s.chip = true) :=
  ⟨up, by decide⟩
theorem wit_PowerLevels_30 : ∃ (s : State) (v : W32), (s.chip.isOn) ∧ (v.toNat % 65536 = 0xB6B6) :=
  ⟨up, 0xB6B6#32, by decide⟩
theorem wit_PowerLevels_31 : ∃ (s : State) (v : W32), (s.chip.isOn) ∧ (v.toNat % 65536 ≠ 0xB6B6) :=
  ⟨up, 0xB6B7#32, by decide⟩
theorem wit_PowerLevels_32 : ∃ (s : State), (s.chip.isOn) :=
  ⟨up, by decide⟩
theorem wit_PowerLevels_33 : ∃ (s : State) (v : W32), (s.chip.isOn) ∧ (∀ x < 32, (s.chip.ring x).st = 0) :=
  ⟨up, 5#32, by decide⟩
theorem wit_PowerLevels_34 : ∃ (s : State) (v : W32), (s.chip.isOn) ∧ (∃ x < 32, (s.chip.ring x).st ≠ 0) :=
  ⟨ups (chipOn.setRing 31 { st := 1 }), 5#32, by decide⟩
theorem wit_PowerLevels_35 : ∃ (s : State) (v : Nat), (s.chip.isOn) ∧ (band v ≠ 0) ∧ (band v ≠ band s.chip.pwr.vin) :=
  ⟨ups { (chipOn) with pwr := { st := 1, vin := 7000 } }, 5900, by decide⟩
theorem wit_PowerLevels_36 : ∃ (s : State) (v : Nat), (s.chip.phase ≠ .off) ∧ (s.chip.pwr.st ≠ 5) ∧ (v < 5800) :=
  ⟨up, 5799, by decide⟩
theorem wit_PowerLevels_37 : ∃ (s : State) (v : Nat), (s.chip.phase ≠ .off) ∧ (s.chip.pwr.st ≠ 5) ∧ (8400 < v) :=
  ⟨up, 8401, by decide⟩
theorem wit_PowerLevels_38 : ∃ (s : State), (s.chip.phase ≠ .off) ∧ (s.chip.pwr.st ≠ 5) :=
  ⟨up, by decide⟩
theorem wit_PowerLevels_39 : ∃ (s : State), (s.chip.phase ≠ .off) ∧ (s.chip.pwr.st = 5) :=
  ⟨ups { chipOn with pwr := { st := 5 } }, by decide⟩
theorem wit_PowerLevels_40 : ∃ (s : State) (v : Nat), (s.chip.phase ≠ .off) ∧ (s.chip.pwr.st = 5) ∧ (6000 < v) :=
  ⟨ups { chipOn with pwr := { st := 5 } }, 6001, by decide⟩
theorem wit_PowerLevels_41 : ∃ (s : State) (v : Nat), (s.chip.phase ≠ .off) ∧ (s.chip.pwr.st = 5) ∧ (v ≤ 3600) :=
  ⟨ups { chipOn with pwr := { st := 5 } }, 3600, by decide⟩
theorem wit_PowerLevels_42a : ∃ (s : State) (t : Int) (p q m : Nat), (s.chip.isOn) ∧ (s.chip.pwr.st ≠ 3) ∧ (m = (if 1600 ≤ t then 1 else 0) + (if 1648 ≤ t then 2 else 0) + (if 1550 < p then 4 else 0) + (if 1400 < q then 8 else 0)) ∧ ((m ||| s.chip.pwr.trig) ≠ s.chip.pwr.trig) :=
  ⟨up, 1648, 1551, 1401, 15, by decide⟩
theorem wit_PowerLevels_42b : ∃ (s : State) (t : Int) (p q m : Nat), (s.chip.isOn) ∧ (s.chip.pwr.st ≠ 3) ∧ (m = (if 1600 ≤ t then 1 else 0) + (if 1648 ≤ t then 2 else 0) + (if 1550 < p then 4 else 0) + (if 1400 < q then 8 else 0)) ∧ ((m ||| s.chip.pwr.trig) ≠ s.chip.pwr.trig) :=
  ⟨ups { (chipOn) with pwr := { st := 1, trig := 1, emerg := 4 } }, 1600, 1551, 0, 5, by decide⟩
theorem wit_PowerLevels_43 : ∃ (s : State) (t : Int) (p q m : Nat), (s.chip.isOn) ∧ (m = (if 1600 ≤ t then 1 else 0) + (if 1648 ≤ t then 2 else 0) + (if 1550 < p then 4 else 0) + (if 1400 < q then 8 else 0)) ∧ ((m ||| s.chip.pwr.trig) = s.chip.pwr.trig) :=
  ⟨ups { (chipOn) with pwr := { st := 1, trig := 5, emerg := 4 } }, 1600, 1551, 0, 5, by decide⟩
theorem wit_PowerLevels_44a : ∃ (s : State) (t : Int) (p q m : Nat), (s.chip.isOn) ∧ (s.chip.pwr.st ≠ 3) ∧ (m = (if 1600 ≤ t then 1 else 0) + (if 1648 ≤ t then 2 else 0) + (if 1550 < p then 4 else 0) + (if 1400 < q then 8 else 0)) ∧ ((m ||| s.chip.pwr.trig) ≠ s.chip.pwr.trig) :=
  ⟨up, 1648, 1551, 1401, 15, by decide⟩
theorem wit_PowerLevels_44b : ∃ (s : State) (t : Int) (p q m : Nat), (s.chip.isOn) ∧ (s.chip.pwr.st ≠ 3) ∧ (m = (if 1600 ≤ t then 1 else 0) + (if 1648 ≤ t then 2 else 0) + (if 1550 < p then 4 else 0) + (if 1400 < q then 8 else 0)) ∧ ((m ||| s.chip.pwr.trig) ≠ s.chip.pwr.trig) :=
  ⟨ups { (chipOn) with pwr := { st := 1, trig := 1, emerg := 4 } }, 1600, 1551, 0, 5, by decide⟩
theorem wit_PowerLevels_45 : ∃ (s : State) (q : Nat), (s.chip.isOn) ∧ (bit 3 s.chip.pwr.trig = true) ∧ (s.chip.pwr.ocNext ≤ s.chip.beat) ∧ (1400 < q) :=
  ⟨ups { (chipOn) with pwr := { st := 1, trig := 8, ocLevel := 2, emerg := 2 } }, 1401, by decide⟩
theorem wit_PowerLevels_46 : ∃ (s : State) (q : Nat), (s.chip.isOn) ∧ (bit 3 s.chip.pwr.trig = true) ∧ (s.chip.pwr.ocNext ≤ s.chip.beat) ∧ (q ≤ 1400) :=
  ⟨ups { (chipOn) with pwr := { st := 1, trig := 8, ocLevel := 2, emerg := 2 } }, 1400, by decide⟩
theorem wit_PowerLevels_47a : ∃ (s : State) (k : Trigger) (t : Int) (q b : Nat), (s.chip.isOn) ∧ (bit (trigBit k) s.chip.pwr.trig = true) ∧ (trigClears k t q b = true) ∧ (fld 3 0 (s.chip.pwr.trig - 2 ^ trigBit k) = 0) :=
  ⟨ups { (chipOn) with pwr := { st := 1, trig := 1, emerg := 4 } }, .ot1, 1551, 0, 1024, by decide⟩
theorem wit_PowerLevels_47b : ∃ (s : State) (k : Trigger) (t : Int) (q b : Nat), (s.chip.isOn) ∧ (bit (trigBit k) s.chip.pwr.trig = true) ∧ (trigClears k t q b = true) ∧ (fld 3 0 (s.chip.pwr.trig - 2 ^ trigBit k) = 0) :=
  ⟨ups { (chipOn) with pwr := { st := 1, trig := 18, emerg := 8 } }, .ot2, 1599, 0, 1024, by decide⟩
theorem wit_PowerLevels_48a : ∃ (s : State) (k : Trigger) (t : Int) (q b : Nat), (s.chip.isOn) ∧ (bit (trigBit k) s.chip.pwr.trig = true) ∧ (trigClears k t q b = true) ∧ (fld 3 0 (s.chip.pwr.trig - 2 ^ trigBit k) ≠ 0) :=
  ⟨ups { (chipOn) with pwr := { st := 1, trig := 15, ocLevel := 4, emerg := 8 } }, .ot2, 1599, 0, 1024, by decide⟩
theorem wit_PowerLevels_48b : ∃ (s : State) (k : Trigger) (t : Int) (q b : Nat), (s.chip.isOn) ∧ (bit (trigBit k) s.chip.pwr.trig = true) ∧ (trigClears k t q b = true) ∧ (fld 3 0 (s.chip.pwr.trig - 2 ^ trigBit k) ≠ 0) :=
  ⟨ups { (chipOn) with pwr := { st := 1, trig := 12, ocLevel := 4, emerg := 8 } }, .ocPeak, 0, 1299, 4096, by decide⟩
theorem wit_PowerLevels_49 : ∃ (s : State), (s.chip.isOn) ∧ (s.chip.pwr.returning = true) ∧ (anyRunning s.chip = false) :=
  ⟨ups { (chipOn) with pwr := { st := 1, emerg := 4, returning := true } }, by decide⟩
theorem wit_PowerLevels_50 : ∃ (s : State) (t : Int), (s.chip.isOn) ∧ (1760 ≤ t) ∧ (s.chip.pwr.trip = false) :=
  ⟨up, 1760, by decide⟩
theorem wit_PowerLevels_51 : ∃ (s : State) (t : Int), (s.chip.isOn) ∧ (s.chip.pwr.trip = true) ∧ (t < 1552) ∧ (feHold s.chip = false) :=
  ⟨ups { (chipOn) with pwr := { st := 1, trip := true } }, 1551, by decide⟩
theorem wit_PowerLevels_52 : ∃ (s : State) (b : Nat), (s.chip.isOn) ∧ (s.chip.pwr.feAt = some b) ∧ (b ≤ s.chip.beat) ∧ (feHold s.chip = false) :=
  ⟨ups { (chipOn) with pwr := { st := 1, feAt := some 0 } }, 0, by decide⟩
theorem wit_PowerLevels_53 : ∃ (s : State) (b : Nat), (s.chip.isOn) ∧ (s.chip.pwr.feAt = some b) ∧ (s.chip.beat < b) :=
  ⟨ups { (chipOn) with pwr := { st := 1, feAt := some 9 } }, 9, by decide⟩
theorem wit_PowerLevels_54 : ∃ (s : State) (v : W32), (s.chip.isOn) ∧ (v.toNat % 65536 = 0xB6B6) :=
  ⟨up, 0xB6B6#32, by decide⟩
theorem wit_PowerLevels_55 : ∃ (s : State), (s.chip.isOn) :=
  ⟨up, by decide⟩
theorem wit_StartupDrydown_1 : ∃ (s : State) (l : List CoreId), (s.chip.startingUp = true) ∧ (s.chip.pwr.tested = false) ∧ (∀ n < 192, nat0 s.chip.tam.age.failures n < 3 ∧ (s.chip.core n).failed = false) ∧ (l.length ≤ 8) :=
  ⟨ups { phase := .starting }, [5], by decide⟩
theorem wit_StartupDrydown_2 : ∃ (s : State) (l : List CoreId), (s.chip.startingUp = true) ∧ (s.chip.pwr.tested = false) ∧ (∀ n : CoreId, n.val < 9 → n ∈ l) :=
  ⟨ups { phase := .starting }, [0, 1, 2, 3, 4, 5, 6, 7, 8], by decide⟩
theorem wit_StartupDrydown_3 : ∃ (s : State) (l : List CoreId), (s.chip.startingUp = false ∨ s.chip.pwr.tested = true) :=
  ⟨up, [], by decide⟩
theorem wit_StartupDrydown_4 : ∃ (s : State), (s.chip.startingUp = true) ∧ (s.chip.pwr.gddr = false) :=
  ⟨ups { phase := .starting }, by decide⟩
theorem wit_StartupDrydown_5 : ∃ (s : State), (s.chip.startingUp = true) ∧ (s.chip.pwr.gddr = false) :=
  ⟨ups { phase := .starting }, by decide⟩
theorem wit_StartupDrydown_6 : ∃ (s : State) (ok : Bool), (s.chip.startingUp = false ∨ s.chip.pwr.gddr = true) :=
  ⟨up, true, by decide⟩
theorem wit_StartupDrydown_7 : ∃ (s : State) (l : List Byte), (s.chip.startingUp = true) ∧ (s.chip.pwr.tested = true) ∧ (s.chip.pwr.gddr = true) ∧ (l = (s.chip.flash.image.bytes.drop (imTable s.chip.flash.image.bytes)).take imageSize) ∧ (imageCheck l = (0, 0)) :=
  ⟨ups (bootChip { image := { bytes := goodImage } }), _, ⟨rfl, rfl, rfl, rfl, by
    show imageCheck ((goodImage.drop (imTable goodImage)).take imageSize) = (0, 0)
    rw [goodImage_table]; exact goodImage_check⟩⟩
theorem wit_StartupDrydown_8a : ∃ (s : State) (a b d : Bool) (k : Nat), (s.chip.startingUp = true) ∧ (k = (if a = false then 1 else if b = false then 3 else 5)) ∧ ((a && b && d) = false) :=
  ⟨ups { phase := .starting }, false, true, true, 1, by decide⟩
theorem wit_StartupDrydown_8b : ∃ (s : State) (a b d : Bool) (k : Nat), (s.chip.startingUp = true) ∧ (k = (if a = false then 1 else if b = false then 3 else 5)) ∧ ((a && b && d) = false) :=
  ⟨ups { phase := .starting }, true, false, false, 3, by decide⟩
theorem wit_StartupDrydown_8c : ∃ (s : State) (a b d : Bool) (k : Nat), (s.chip.startingUp = true) ∧ (k = (if a = false then 1 else if b = false then 3 else 5)) ∧ ((a && b && d) = false) :=
  ⟨ups { phase := .starting }, true, true, false, 5, by decide⟩
theorem wit_StartupDrydown_9 : ∃ (s : State), (s.chip.startingUp = true) ∧ (s.chip.pwr.tested = true) ∧ (s.chip.pwr.gddr = true) ∧ ((imageCheck ((s.chip.flash.image.bytes.drop (imTable s.chip.flash.image.bytes)).take imageSize)).1 ≠ 0) :=
  ⟨ups { phase := .starting, pwr := { tested := true, gddr := true } }, by decide +kernel⟩
theorem wit_StartupDrydown_10a : ∃ (s : State) (a b d : Bool), (s.chip.startingUp = false ∨ ((a && b && d) = true ∧ (s.chip.pwr.tested = false ∨ s.chip.pwr.gddr = false))) :=
  ⟨up, true, false, true, by decide⟩
theorem wit_StartupDrydown_10b : ∃ (s : State) (a b d : Bool), (s.chip.startingUp = false ∨ ((a && b && d) = true ∧ (s.chip.pwr.tested = false ∨ s.chip.pwr.gddr = false))) :=
  ⟨ups { phase := .starting }, true, true, true, by decide⟩
theorem wit_StartupDrydown_11 : ∃ (s : State), (s.chip.isOn) ∧ (ddRefusal s.chip = 0) :=
  ⟨ups ((List.range 240).foldl (fun k i => k.setRg (ra (gatedPages.getD i 0) 8) 4) chipOn), by decide +kernel⟩
theorem wit_StartupDrydown_12 : ∃ (s : State), (s.chip.isOn) ∧ (ddRefusal s.chip ≠ 0) :=
  ⟨up, by decide⟩
theorem wit_StartupDrydown_13 : ∃ (s : State), (s.chip.pwr.st ≠ 1) :=
  ⟨ups { chipOn with pwr := { st := 3 } }, by decide⟩
theorem wit_StartupDrydown_14 : ∃ (s : State), (s.chip.pwr.st = 1) ∧ (∃ x < 32, (s.chip.ring x).st ≠ 0) :=
  ⟨ups (chipOn.setRing 3 { st := 1 }), by decide⟩
theorem wit_StartupDrydown_15 : ∃ (s : State), (s.chip.pwr.st = 1) ∧ (∀ x < 32, (s.chip.ring x).st = 0) ∧ (∃ l < 16, (s.chip.loan (16 + l)).st ≠ 0) :=
  ⟨ups (chipOn.setLoan 20 { st := 1 }), by decide⟩
theorem wit_StartupDrydown_16a : ∃ (s : State), (s.chip.isOn) ∧ (s.chip.pwr.st = 2) ∧ (s.chip.colls = []) ∧ (s.chip.mtm.migs = []) ∧ (wakeBeat s.chip = 0) ∧ (∀ p < 6, (s.chip.link p).st ≠ 4 ∧ (s.chip.link p).st ≠ 5) :=
  ⟨ups { (chipOn) with pwr := { st := 2 } }, by decide⟩
theorem wit_StartupDrydown_16b : ∃ (s : State), (s.chip.isOn) ∧ (s.chip.pwr.st = 2) ∧ (s.chip.colls = []) ∧ (s.chip.mtm.migs = []) ∧ (wakeBeat s.chip = 0) ∧ (∀ p < 6, (s.chip.link p).st ≠ 4 ∧ (s.chip.link p).st ≠ 5) :=
  ⟨ups { (chipOn) with pwr := { st := 2, exitReq := true } }, by decide⟩
theorem wit_StartupDrydown_17 : ∃ (s : State), (s.chip.isOn) ∧ (s.chip.pwr.st ≠ 2 ∨ s.chip.mtm.migs ≠ []) :=
  ⟨up, by decide⟩
theorem wit_StartupDrydown_18 : ∃ (s : State), (s.chip.isOn) ∧ (s.chip.pwr.st = 3) :=
  ⟨ups { chipOn with pwr := { st := 3 } }, by decide⟩
theorem wit_StartupDrydown_19 : ∃ (s : State), (s.chip.isOn) ∧ (s.chip.pwr.st = 2) :=
  ⟨ups { chipOn with pwr := { st := 2 } }, by decide⟩
theorem wit_StartupDrydown_20 : ∃ (s : State), (s.chip.isOn) ∧ (s.chip.pwr.st ≠ 2) ∧ (s.chip.pwr.st ≠ 3) :=
  ⟨up, by decide⟩
theorem wit_StartupDrydown_21 : ∃ (s : State), (s.chip.isOn) ∧ (s.chip.pwr.st = 3) ∧ (s.chip.beat < wakeBeat s.chip) ∧ (wakeBeat s.chip ≤ s.chip.beat + 4883) :=
  ⟨ups { (chipOn.setRg (pwrReg 0x124) 4883) with pwr := { st := 3 } }, by decide⟩
theorem wit_StartupDrydown_22a : ∃ (s : State), (s.chip.isOn) ∧ (s.chip.pwr.st ≠ 3 ∨ wakeBeat s.chip = 0 ∨ s.chip.beat + 4883 < wakeBeat s.chip) :=
  ⟨up, by decide⟩
theorem wit_StartupDrydown_22b : ∃ (s : State), (s.chip.isOn) ∧ (s.chip.pwr.st ≠ 3 ∨ wakeBeat s.chip = 0 ∨ s.chip.beat + 4883 < wakeBeat s.chip) :=
  ⟨ups { (chipOn.setRg (pwrReg 0x124) 4884) with pwr := { st := 3 } }, by decide⟩
theorem wit_StartupDrydown_23 : ∃ (s : State) (l : List PortId), (s.chip.isOn) ∧ (s.chip.pwr.st = 4) ∧ (∀ p < 6, (s.chip.link p).st ≠ 9) :=
  ⟨ups { chipOn with pwr := { st := 4 } }, [], by decide⟩
theorem wit_StartupDrydown_24 : ∃ (s : State) (l : List PortId), (s.chip.isOn) ∧ (s.chip.pwr.st ≠ 4) :=
  ⟨up, [], by decide⟩
theorem wit_StartupDrydown_25a : ∃ (s : State) (l : List CoreId), (s.chip.startingUp = true) ∧ (s.chip.pwr.tested = false) :=
  ⟨ups { phase := .starting }, [5, 191], by decide +kernel⟩
theorem wit_StartupDrydown_25b : ∃ (s : State) (l : List CoreId), (s.chip.startingUp = true) ∧ (s.chip.pwr.tested = false) :=
  ⟨ups { phase := .starting, tam := { age := { failures := [(7, 3)] } } }, [0, 7, 0], by decide +kernel⟩
theorem wit_StartupDrydown_25c : ∃ (s : State) (l : List CoreId), (s.chip.startingUp = true) ∧ (s.chip.pwr.tested = false) :=
  ⟨ups { phase := .starting }, [0, 1, 2, 3, 4, 5, 6, 7, 8], by decide +kernel⟩
theorem wit_StartupDrydown_26 : ∃ (s : State), (s.chip.startingUp = true) ∧ (s.chip.pwr.gddr = false) :=
  ⟨ups { phase := .starting }, by decide⟩
theorem wit_StartupDrydown_27a : ∃ (s : State), (s.chip.isOn) ∧ (s.chip.pwr.st = 2) ∧ (s.chip.colls.any (fun k => decide (2 ≤ k.2.st ∧ k.2.st ≤ 4)) = false) ∧ (s.chip.mtm.migs = []) ∧ (wakeBeat s.chip = 0 ∨ s.chip.beat < wakeBeat s.chip) :=
  ⟨ups { (chipOn.setLink 2 { st := 5 }) with pwr := { st := 2 } }, by decide⟩
theorem wit_StartupDrydown_27b : ∃ (s : State), (s.chip.isOn) ∧ (s.chip.pwr.st = 2) ∧ (s.chip.colls.any (fun k => decide (2 ≤ k.2.st ∧ k.2.st ≤ 4)) = false) ∧ (s.chip.mtm.migs = []) ∧ (wakeBeat s.chip = 0 ∨ s.chip.beat < wakeBeat s.chip) :=
  ⟨ups { chipOn with pwr := { st := 2, exitReq := true } }, by decide⟩
theorem wit_StartupDrydown_28 : ∃ (s : State), (s.chip.isOn) ∧ (s.chip.pwr.st = 2) ∧ (s.chip.colls.any (fun k => decide (2 ≤ k.2.st ∧ k.2.st ≤ 4)) = false) ∧ (s.chip.mtm.migs = []) ∧ (wakeBeat s.chip ≠ 0) ∧ (wakeBeat s.chip ≤ s.chip.beat) :=
  ⟨ups { (chipOn.setRg (pwrReg 0x124) 3) with pwr := { st := 2 }, cad := { now := 1024 * 3 } }, by decide⟩
theorem wit_StartupDrydown_29 : ∃ (s : State) (p : Nat), ((s.chip.link p).st = 4 ∨ (s.chip.link p).st = 5) :=
  ⟨ups (chipOn.setLink 2 { st := 5 }), 2, by decide⟩
theorem wit_StartupDrydown_30a : ∃ (s : State), (s.chip.isOn) ∧ (s.chip.pwr.st ≠ 2 ∨ s.chip.colls.any (fun k => decide (2 ≤ k.2.st ∧ k.2.st ≤ 4)) = true ∨ s.chip.mtm.migs ≠ []) :=
  ⟨up, by decide⟩
theorem wit_StartupDrydown_30b : ∃ (s : State), (s.chip.isOn) ∧ (s.chip.pwr.st ≠ 2 ∨ s.chip.colls.any (fun k => decide (2 ≤ k.2.st ∧ k.2.st ≤ 4)) = true ∨ s.chip.mtm.migs ≠ []) :=
  ⟨ups { (chipOn.setColl 5 { st := 2 }) with pwr := { st := 2 } }, by decide⟩
theorem wit_StartupDrydown_31 : ∃ (s : State), (s.chip.isOn) ∧ (s.chip.pwr.st = 3) ∧ (wakeBeat s.chip ≠ 0) ∧ (wakeBeat s.chip ≤ s.chip.beat) :=
  ⟨ups { (chipOn.setRg (pwrReg 0x124) 3) with pwr := { st := 3 }, cad := { now := 1024 * 4 } }, by decide⟩
theorem wit_StartupDrydown_32 : ∃ (s : State) (l : List PortId), (s.chip.isOn) ∧ (s.chip.pwr.st = 4) :=
  ⟨ups { (chipOn.setLink 2 { st := 9, lp := 4 }) with pwr := { st := 4 } }, [2], by decide⟩
theorem wit_StartupDrydown_33 : ∃ (s : State) (l : List Nat) (p : Nat), ((s.chip.link p).st = 9) ∧ (l.contains p = true) :=
  ⟨ups (chipOn.setLink 2 { st := 9, lp := 4 }), [2], 2, by decide⟩
theorem wit_StartupDrydown_34 : ∃ (s : State) (l : List Nat) (p : Nat), ((s.chip.link p).st = 9) ∧ (l.contains p = false) :=
  ⟨ups (chipOn.setLink 2 { st := 9, lp := 4 }), [3], 2, by decide⟩
theorem wit_StartupDrydown_35 : ∃ (v : Nat) (s : State), (s.chip.phase = .off) ∧ (6000 ≤ v) :=
  ⟨6000, ups {}, by decide⟩
theorem wit_StartupDrydown_36 : ∃ (v : Nat) (s : State), (s.chip.phase ≠ .off ∨ v < 6000) :=
  ⟨7000, up, by decide⟩
theorem wit_TrustChanges_1 : ∃ (s : State) (k : Bool), (s.chip.isOn) ∧ (s.chip.sec.imgSt = 1 ∨ s.chip.sec.imgSt = 2 ∨ s.chip.mbp.sess ≠ 2 ∨ s.chip.pwr.st ≠ 1) :=
  ⟨up, true, by decide⟩
theorem wit_TrustChanges_2 : ∃ (s : State) (k : Bool) (a n : Nat) (l : List Byte), (s.chip.isOn) ∧ (s.chip.sec.imgSt ≠ 1) ∧ (s.chip.sec.imgSt ≠ 2) ∧ (s.chip.sec.lcReset = none) ∧ (s.chip.pwr.defer = []) ∧ (s.chip.mbp.sess = 2) ∧ (s.chip.pwr.st = 1) ∧ (a = s.chip.rg64 (ra pgMgt 0x110)) ∧ (n = s.chip.rg (ra pgMgt 0x118)) ∧ (a % 64 = 0) ∧ (1 ≤ n) ∧ (a + n ≤ t0Size) ∧ (s.chip.tasRead a n = .ok l) ∧ (imageFail { bytes := l, sigOk := k } s.chip.otp.svn s.chip.lc = 0) ∧ (holdOk s.chip = true) :=
  ⟨ups (memChip fw), true, 0, fwN, fw, by
    refine ⟨Or.inl rfl, by show (0 : Nat) ≠ 1; decide, by show (0 : Nat) ≠ 2; decide, rfl, rfl, rfl, rfl, memChip_addr fw, ?_, rfl, by decide, by decide, ?_, ?_, memChip_hold fw⟩
    · rw [memChip_len, fw_length]; rfl
    · have := memChip_read fw (by rw [fw_length]; decide)
      rwa [fw_length] at this
    · rw [memChip_lc, memChip_svn]; exact fw_ok⟩
theorem wit_TrustChanges_3 : ∃ (s : State) (k : Bool) (a n : Nat) (l : List Byte), (s.chip.isOn) ∧ (s.chip.sec.imgSt ≠ 1) ∧ (s.chip.sec.imgSt ≠ 2) ∧ (s.chip.sec.lcReset = none) ∧ (s.chip.pwr.defer = []) ∧ (s.chip.mbp.sess = 2) ∧ (s.chip.pwr.st = 1) ∧ (a = s.chip.rg64 (ra pgMgt 0x110)) ∧ (n = s.chip.rg (ra pgMgt 0x118)) ∧ (a % 64 = 0) ∧ (1 ≤ n) ∧ (a + n ≤ t0Size) ∧ (s.chip.tasRead a n = .ok l) ∧ (imageFail { bytes := l, sigOk := k } s.chip.otp.svn s.chip.lc ≠ 0) :=
  ⟨ups (memChip [1#8]), true, 0, 1, [1#8], by decide⟩
theorem wit_TrustChanges_4 : ∃ (s : State) (k : Bool), (s.chip.isOn) ∧ (s.chip.sec.imgSt = 2) :=
  ⟨ups { chipOn with sec := { imgSt := 2 } }, true, by decide⟩
theorem wit_TrustChanges_5 : ∃ (s : State) (k : Bool), (s.chip.isOn) ∧ (s.chip.sec.imgSt ≠ 2) :=
  ⟨up, true, by decide⟩
theorem wit_TrustChanges_6 : ∃ (s : State) (v : W32), (s.chip.isOn) ∧ (v.toNat % 65536 = 0x10AD) ∧ (s.chip.lc = 1 ∨ s.chip.lc = 3) :=
  ⟨ups { chipOn with otp := { prov := true } }, 0x10AD#32, by decide⟩
theorem wit_TrustChanges_7 : ∃ (s : State) (v : W32), (s.chip.isOn) ∧ (v.toNat % 65536 ≠ 0x10AD ∨ s.chip.lc = 0 ∨ s.chip.lc = 2) :=
  ⟨up, 0x10AD#32, by decide⟩
theorem wit_TrustChanges_8 : ∃ (s : State) (i : Nat), (s.chip.isOn) ∧ (s.chip.sec.ctrSt ≠ 1) ∧ (i = fld 3 0 (s.chip.rg (ra pgMgt 0x124))) ∧ (4 ≤ i) ∧ (nat0 s.chip.flash.counters i ≠ 0xFFFFFFFF) ∧ (holdOk s.chip = true) ∧ (s.chip.pwr.st ≠ 5) :=
  ⟨ups { (chipOn.setRg (ra pgMgt 0x124) 15) with pwr := { st := 1, vhold := 8000, cap := 1800 } }, 15, by decide⟩
theorem wit_TrustChanges_9 : ∃ (s : State) (i : Nat), (s.chip.isOn) ∧ (s.chip.sec.ctrSt ≠ 1) ∧ (i = fld 3 0 (s.chip.rg (ra pgMgt 0x124))) ∧ (i < 4 ∨ nat0 s.chip.flash.counters i = 0xFFFFFFFF) :=
  ⟨up, 0, by decide⟩
theorem wit_TrustChanges_10 : ∃ (s : State), (s.chip.isOn) ∧ (s.chip.sec.ctrSt = 1) :=
  ⟨ups { chipOn with sec := { ctrSt := 1 } }, by decide⟩
theorem wit_TrustChanges_11 : ∃ (s : State), (s.chip.isOn) :=
  ⟨up, by decide⟩
theorem wit_TrustChanges_12 : ∃ (s : State) (q : QueueId) (w : List Nat) (a b : Bool), (s.chip.nextEntry q 0x12 w) ∧ (1 ≤ eLen w) ∧ (eLen w ≤ 65536) :=
  ⟨ups (qChip 32 (ent 0x12 [7936])), 32, ent 0x12 [7936], false, true, by decide⟩
theorem wit_TrustChanges_13a : ∃ (s : State) (q : QueueId) (e : Entry) (a b : Bool), (s.chip.signedIs q e) ∧ (sgType e.got = 1) ∧ (judge s.chip e.got a b = .accept) ∧ (holdOk s.chip = true) ∧ (s.chip.sec.lcReset = none) ∧ (s.chip.pwr.defer = []) ∧ ((s.chip.queue q).resetting = false) ∧ ((s.chip.queue q).used < s.chip.cqSize q) ∧ (bit 9 (wd e.words 0) = false) :=
  ⟨ups (adminChip (sgd 1 3 zero32)), 32, adminEntry (sgd 1 3 zero32), false, true, ⟨admin_signed 1 3, rfl, sg_accept1, by rfl, rfl, rfl, rfl, by decide, by decide⟩⟩
theorem wit_TrustChanges_13b : ∃ (s : State) (q : QueueId) (e : Entry) (a b : Bool), (s.chip.signedIs q e) ∧ (sgType e.got = 1) ∧ (judge s.chip e.got a b = .accept) ∧ (holdOk s.chip = true) ∧ (s.chip.sec.lcReset = none) ∧ (s.chip.pwr.defer = []) ∧ ((s.chip.queue q).resetting = false) ∧ ((s.chip.queue q).used < s.chip.cqSize q) ∧ (bit 9 (wd e.words 0) = false) :=
  ⟨ups (adminChip (sgd 1 4 zero32)), 32, adminEntry (sgd 1 4 zero32), false, true, ⟨admin_signed 1 4, rfl, sg_refuse1, by rfl, rfl, rfl, rfl, by decide, by decide⟩⟩
theorem wit_TrustChanges_14 : ∃ (s : State) (q : QueueId) (e : Entry) (a b : Bool) (k : Nat), (s.chip.signedIs q e) ∧ (sgType e.got = 1) ∧ (judge s.chip e.got a b = .refuse k) ∧ (k < 16) ∧ (s.chip.sec.lcReset = none) ∧ (s.chip.pwr.defer = []) ∧ ((s.chip.queue q).resetting = false) ∧ ((s.chip.queue q).used < s.chip.cqSize q) :=
  ⟨ups (adminChip (sgd 1 2 zero32)), 32, adminEntry (sgd 1 2 zero32), false, true, 5, ⟨admin_signed 1 2, rfl, sg_refuse1', by decide, rfl, rfl, rfl, by decide⟩⟩
theorem wit_TrustChanges_15 : ∃ (s : State) (q : QueueId) (e : Entry) (b : Bool), (s.chip.signedIs q e) ∧ (sgType e.got = 2) ∧ (judge s.chip e.got false b = .accept) ∧ ((s.chip.queue q).resetting = false) ∧ ((s.chip.queue q).used < s.chip.cqSize q) ∧ (bit 9 (wd e.words 0) = false) :=
  ⟨ups (adminChip (sgd 2 0x10005 zero32)), 32, adminEntry (sgd 2 0x10005 zero32), true, ⟨admin_signed 2 0x10005, rfl, sg_accept2, rfl, by decide, by decide⟩⟩
theorem wit_TrustChanges_16 : ∃ (s : State) (q : QueueId) (e : Entry) (b : Bool) (k : Nat), (s.chip.signedIs q e) ∧ (sgType e.got = 2) ∧ (judge s.chip e.got false b = .refuse k) ∧ (k < 16) ∧ ((s.chip.queue q).resetting = false) ∧ ((s.chip.queue q).used < s.chip.cqSize q) :=
  ⟨ups (adminChip (sgd 2 5 zero32)), 32, adminEntry (sgd 2 5 zero32), true, 8, ⟨admin_signed 2 5, rfl, sg_refuse2, by decide, rfl, by decide⟩⟩
theorem wit_TrustChanges_17 : ∃ (s : State) (q : QueueId) (e : Entry) (b : Bool), (s.chip.signedIs q e) ∧ (sgType e.got = 3) ∧ (judge s.chip e.got false b = .accept) ∧ ((s.chip.queue q).resetting = false) ∧ ((s.chip.queue q).used < s.chip.cqSize q) ∧ (bit 9 (wd e.words 0) = false) :=
  ⟨ups (adminChip (sgd 3 5 zero32)), 32, adminEntry (sgd 3 5 zero32), true, ⟨admin_signed 3 5, rfl, sg_accept3, rfl, by decide, by decide⟩⟩
theorem wit_TrustChanges_18 : ∃ (s : State) (q : QueueId) (e : Entry) (b : Bool) (k : Nat), (s.chip.signedIs q e) ∧ (sgType e.got = 3) ∧ (judge s.chip e.got false b = .refuse k) ∧ (k < 16) ∧ ((s.chip.queue q).resetting = false) ∧ ((s.chip.queue q).used < s.chip.cqSize q) :=
  ⟨ups (adminChip (sgd 3 10 zero32)), 32, adminEntry (sgd 3 10 zero32), true, 6, ⟨admin_signed 3 10, rfl, sg_refuse3, by decide, rfl, by decide⟩⟩
theorem wit_TrustChanges_19 : ∃ (s : State) (q : QueueId) (e : Entry) (b : Bool), (s.chip.signedIs q e) ∧ (sgType e.got = 3) ∧ (judge s.chip e.got false b = .badSig) ∧ ((s.chip.queue q).resetting = false) ∧ ((s.chip.queue q).used < s.chip.cqSize q) :=
  ⟨ups (adminChip (sgd 3 5 zero32)), 32, adminEntry (sgd 3 5 zero32), false, ⟨admin_signed 3 5, rfl, sg_bad3, rfl, by decide⟩⟩
theorem wit_TrustChanges_20 : ∃ (s : State) (b : Nat), (s.chip.isOn) ∧ (s.chip.sec.lcReset = some b) ∧ (b ≤ s.chip.beat) :=
  ⟨ups { chipOn with sec := { lcReset := some 0 } }, 0, by decide⟩
theorem wit_TrustChanges_21 : ∃ (s : State), (s.chip.isOn) ∧ (∀ b, s.chip.sec.lcReset = some b → s.chip.beat < b) :=
  ⟨up, ⟨Or.inl rfl, fun b h => nomatch h⟩⟩
theorem wit_TrustChanges_22 : ∃ (s : State) (f : Frame), (s.chip.phase = .loader) ∧ (s.chip.mbp.sess = 4) ∧ (f.type = 0x3C) ∧ (f.prot = false) ∧ (f.broken = false) ∧ (f.body ≠ []) ∧ (f.addr % 64 = 0) ∧ (f.body.length % 64 = 0) ∧ (f.addr + f.body.length ≤ 0x3000000) :=
  ⟨ups (loaderChip []), { type := 0x3C, prot := false, addr := 64, body := List.replicate 64 7#8 }, by decide⟩
theorem wit_TrustChanges_23 : ∃ (s : State) (f : Frame), (s.chip.phase = .loader) ∧ (s.chip.mbp.sess = 4) ∧ (f.type = 0x3C) ∧ (f.prot = false) ∧ (f.broken = false) ∧ (f.body ≠ []) ∧ (f.addr % 64 ≠ 0 ∨ f.body.length % 64 ≠ 0 ∨ 0x3000000 < f.addr + f.body.length) :=
  ⟨ups (loaderChip []), { type := 0x3C, prot := false, addr := 64, body := [1#8] }, by decide⟩
theorem wit_TrustChanges_24 : ∃ (s : State) (f : Frame) (a b : Bool), (s.chip.phase = .loader) ∧ (s.chip.mbp.sess = 4) ∧ (f.type = 0x3C) ∧ (f.prot = false) ∧ (f.broken = false) ∧ (f.body = []) ∧ (f.addr % 64 = 0) ∧ (f.addr ≤ 0x3000000) ∧ (∃ u < f.addr / 64, u ∉ s.chip.sec.units) :=
  ⟨ups (loaderChip []), { type := 0x3C, prot := false, addr := 64 * 729 }, true, true, ⟨rfl, rfl, rfl, rfl, rfl, rfl, by decide, by decide, 728, by decide, by simp [ups, loaderChip]⟩⟩
theorem wit_TrustChanges_25 : ∃ (s : State) (f : Frame) (a b : Bool), (s.chip.phase = .loader) ∧ (s.chip.mbp.sess = 4) ∧ (f.type = 0x3C) ∧ (f.prot = false) ∧ (f.broken = false) ∧ (f.body = []) ∧ (f.addr % 64 = 0) ∧ (f.addr ≤ 0x3000000) ∧ (∀ u < f.addr / 64, u ∈ s.chip.sec.units) ∧ (imageFail { bytes := Tab.getList (fun _ => 0#8) s.chip.sec.staged 0 f.addr, sigOk := a } s.chip.otp.svn s.chip.lc ≠ 0) :=
  ⟨ups (loaderChip []), { type := 0x3C, prot := false, addr := 64 }, true, true, ⟨rfl, rfl, rfl, rfl, rfl, rfl, by decide, by decide, fun u hu => by have h1 : u < 1 := hu; simpa [ups, loaderChip] using (by omega : u < 728), by decide +kernel⟩⟩
theorem wit_TrustChanges_26 : ∃ (s : State) (f : Frame), (s.chip.phase = .loader) ∧ (s.chip.mbp.sess = 4) ∧ (f.type = 0x3C) ∧ (f.prot = false) ∧ (f.broken = false) ∧ (f.body = []) ∧ (f.addr % 64 = 0) ∧ (f.addr ≤ 0x3000000) ∧ (∀ u < f.addr / 64, u ∈ s.chip.sec.units) ∧ (imageFail { bytes := Tab.getList (fun _ => 0#8) s.chip.sec.staged 0 f.addr, sigOk := true } s.chip.otp.svn s.chip.lc = 0) ∧ (holdOk s.chip = true) :=
  ⟨ups (loaderChip fw), { type := 0x3C, prot := false, addr := fwN }, ⟨rfl, rfl, rfl, rfl, rfl, rfl, by decide, by decide, fun u hu => by simpa [ups, loaderChip, fwN] using (show u < 728 from hu), by rw [loader_lc, loader_svn, loader_staged]; exact fw_staged_ok, loader_hold fw⟩⟩
theorem wit_TrustChanges_27 : ∃ (s : State) (v b : Nat), (s.chip.isOn) ∧ (s.chip.pwr.defer = [(.errLog, b)]) ∧ (b < s.chip.beat) ∧ ((s.chip.beat - b) % 1024 = 0) ∧ (holdOk { s.chip with pwr := { s.chip.pwr with vhold := v } } = true) :=
  ⟨ups { chipOn with pwr := { st := 1, cap := 1800, defer := [(.errLog, 0)] }, cad := { now := 1024 * 1024 } }, 8000, 0, by decide⟩
theorem wit_TrustChanges_28 : ∃ (s : State) (v b : Nat) (o : FlashOp), (s.chip.isOn) ∧ (s.chip.pwr.defer = [(o, b)]) ∧ ((s.chip.beat - b) % 1024 ≠ 0 ∨ holdOk { s.chip with pwr := { s.chip.pwr with vhold := v } } = false) :=
  ⟨ups { chipOn with pwr := { st := 1, cap := 1800, defer := [(.errLog, 0)] }, cad := { now := 1024 * 1023 } }, 8000, 0, .errLog, by decide⟩
theorem wit_TrustChanges_29 : ∃ (s : State) (b : Nat) (o : FlashOp), (s.chip.isOn) ∧ (s.chip.pwr.st ≠ 5) ∧ (5800 ≤ s.chip.pwr.vin) ∧ (s.chip.pwr.vin ≤ 8400) ∧ (s.chip.pwr.defer = [(o, b)]) ∧ (b + 65536 ≤ s.chip.beat) :=
  ⟨ups { chipOn with pwr := { st := 1, vin := 7000, defer := [(.errLog, 0)] }, cad := { now := 1024 * 65536 } }, 0, .errLog, by decide⟩
theorem wit_TrustChanges_30 : ∃ (s : State), (s.chip.isOn) ∧ (s.chip.pwr.st = 5 ∨ ∀ d ∈ s.chip.pwr.defer, s.chip.beat < d.2 + 65536) :=
  ⟨up, by decide⟩
theorem wit_TrustChanges_31 : ∃ (s : State) (k : Bool), (s.chip.isOn) ∧ (s.chip.sec.lcReset.isSome = true ∨ s.chip.pwr.defer.any (fun d => d.1 == .lifecycle) = true) :=
  ⟨ups { chipOn with sec := { lcReset := some 9 } }, true, by decide⟩
theorem wit_TrustChanges_32 : ∃ (s : State) (k : Bool) (a n : Nat), (s.chip.isOn) ∧ (s.chip.sec.imgSt ≠ 1) ∧ (s.chip.sec.imgSt ≠ 2) ∧ (s.chip.sec.lcReset = none) ∧ (s.chip.pwr.defer.any (fun d => d.1 == .lifecycle) = false) ∧ (s.chip.mbp.sess = 2) ∧ (s.chip.pwr.st = 1) ∧ (a = s.chip.rg64 (ra pgMgt 0x110)) ∧ (n = s.chip.rg (ra pgMgt 0x118)) ∧ (a % 64 ≠ 0 ∨ n = 0 ∨ t0Size < a + n) :=
  ⟨ups (keyd id), true, 0, 0, by decide⟩
theorem wit_TrustChanges_33 : ∃ (s : State) (k : Bool) (a n : Nat), (s.chip.isOn) ∧ (s.chip.sec.imgSt ≠ 1) ∧ (s.chip.sec.imgSt ≠ 2) ∧ (s.chip.sec.lcReset = none) ∧ (s.chip.pwr.defer.any (fun d => d.1 == .lifecycle) = false) ∧ (s.chip.mbp.sess = 2) ∧ (s.chip.pwr.st = 1) ∧ (a = s.chip.rg64 (ra pgMgt 0x110)) ∧ (n = s.chip.rg (ra pgMgt 0x118)) ∧ (a % 64 = 0) ∧ (1 ≤ n) ∧ (a + n ≤ t0Size) ∧ (∀ l ∈ (match s.chip.tasRead a n with | .ok l => some l | _ => none : Option (List Byte)), False) :=
  ⟨ups (keyd id ((chipOn.setRg (ra pgMgt 0x118) 8).mark 0 8)), true, 0, 8, by decide⟩
theorem wit_TrustChanges_34 : ∃ (s : State) (k : Bool) (a n : Nat) (l : List Byte), (s.chip.isOn) ∧ (s.chip.sec.imgSt ≠ 1) ∧ (s.chip.sec.imgSt ≠ 2) ∧ (s.chip.sec.lcReset = none) ∧ (s.chip.pwr.defer.any (fun d => d.1 == .lifecycle) = false) ∧ (s.chip.mbp.sess = 2) ∧ (s.chip.pwr.st = 1) ∧ (a = s.chip.rg64 (ra pgMgt 0x110)) ∧ (n = s.chip.rg (ra pgMgt 0x118)) ∧ (a % 64 = 0) ∧ (1 ≤ n) ∧ (a + n ≤ t0Size) ∧ (s.chip.tasRead a n = .ok l) ∧ (imageFail { bytes := l, sigOk := k } s.chip.otp.svn s.chip.lc ≠ 0) :=
  ⟨ups (memChip [1#8]), true, 0, 1, [1#8], by decide⟩
theorem wit_TrustChanges_35 : ∃ (s : State) (k : Bool) (a n : Nat) (l : List Byte), (s.chip.isOn) ∧ (s.chip.sec.imgSt ≠ 1) ∧ (s.chip.sec.imgSt ≠ 2) ∧ (s.chip.sec.lcReset = none) ∧ (s.chip.pwr.defer.any (fun d => d.1 == .lifecycle) = false) ∧ (s.chip.mbp.sess = 2) ∧ (s.chip.pwr.st = 1) ∧ (a = s.chip.rg64 (ra pgMgt 0x110)) ∧ (n = s.chip.rg (ra pgMgt 0x118)) ∧ (a % 64 = 0) ∧ (1 ≤ n) ∧ (a + n ≤ t0Size) ∧ (s.chip.tasRead a n = .ok l) ∧ (imageFail { bytes := l, sigOk := k } s.chip.otp.svn s.chip.lc = 0) :=
  ⟨ups (memChip fw), true, 0, fwN, fw, by
    refine ⟨Or.inl rfl, by show (0 : Nat) ≠ 1; decide, by show (0 : Nat) ≠ 2; decide, rfl, rfl, rfl, rfl, memChip_addr fw, ?_, rfl, by decide, by decide, ?_, ?_⟩
    · rw [memChip_len, fw_length]; rfl
    · have := memChip_read fw (by rw [fw_length]; decide)
      rwa [fw_length] at this
    · rw [memChip_lc, memChip_svn]; exact fw_ok⟩
theorem wit_TrustChanges_36 : ∃ (s : State) (i : Nat), (s.chip.isOn) ∧ (s.chip.sec.ctrSt ≠ 1) ∧ (i = fld 3 0 (s.chip.rg (ra pgMgt 0x124))) ∧ (4 ≤ i) ∧ (nat0 s.chip.flash.counters i ≠ 0xFFFFFFFF) :=
  ⟨ups (chipOn.setRg (ra pgMgt 0x124) 15), 15, by decide⟩
theorem wit_TrustChanges_37 : ∃ (s : State) (o : FlashOp), (s.chip.pwr.st ≠ 5 ∨ o.record = true) ∧ (holdOk s.chip = true) :=
  ⟨ups { chipOn with pwr := { st := 1, vhold := 8000, cap := 1800 } }, .ageing, by decide⟩
theorem wit_TrustChanges_38 : ∃ (s : State) (o : FlashOp), (s.chip.pwr.st ≠ 5 ∨ o.record = true) ∧ (holdOk s.chip = false) ∧ (s.chip.pwr.defer.any (fun d => d.1 == o) = true) :=
  ⟨ups { chipOn with pwr := { st := 1, defer := [(.ageing, 0)] } }, .ageing, by decide⟩
theorem wit_TrustChanges_39 : ∃ (s : State) (o : FlashOp), (s.chip.pwr.st ≠ 5 ∨ o.record = true) ∧ (holdOk s.chip = false) ∧ (s.chip.pwr.defer.any (fun d => d.1 == o) = false) :=
  ⟨up, .image, by decide⟩
theorem wit_TrustChanges_40 : ∃ (s : State) (q : QueueId) (w : List Nat) (a b : Bool), ((s.chip.queue q).started.findIdx? signedHere = none) ∧ (s.chip.turnOf q 0x12 w) ∧ (1 ≤ eLen w) ∧ (eLen w ≤ 65536) :=
  ⟨ups (qChip 32 (ent 0x12 [7936])), 32, ent 0x12 [7936], false, true, by decide⟩
theorem wit_TrustChanges_41 : ∃ (s : State) (q : QueueId) (w : List Nat) (a b : Bool), ((s.chip.queue q).started.findIdx? signedHere = none) ∧ (s.chip.turnOf q 0x12 w) ∧ (eLen w = 0 ∨ 65536 < eLen w) :=
  ⟨ups (qChip 32 (ent 0x12 [0])), 32, ent 0x12 [0], false, true, by decide⟩
theorem wit_TrustChanges_42 : ∃ (s : State) (q : QueueId) (w : List Nat) (b : Bool), ((s.chip.queue q).started.findIdx? signedHere = none) ∧ (s.chip.turnOf q 0x12 w) ∧ (1 ≤ eLen w) ∧ (eLen w ≤ 65536) :=
  ⟨ups (qChip 32 (ent 0x12 [7936])), 32, ent 0x12 [7936], true, by decide⟩
theorem wit_TrustChanges_43 : ∃ (s : State) (q : QueueId) (w : List Nat) (b : Bool), ((s.chip.queue q).started.findIdx? signedHere = none) ∧ (s.chip.turnOf q 0x12 w) ∧ (1 ≤ eLen w) ∧ (eLen w ≤ 65536) :=
  ⟨ups (qChip 32 (ent 0x12 [7936])), 32, ent 0x12 [7936], true, by decide⟩
theorem wit_TrustChanges_44 : ∃ (s : State) (q : QueueId) (i : Nat) (b : List Byte) (u v : Bool), (s.chip.signedAt q i b) ∧ (sgType b ≠ 2) ∧ (sgType b ≠ 3) ∧ (judge s.chip b u v = .accept) ∧ (s.chip.pwr.defer.any (fun d => d.1 == .lifecycle) = false) ∧ (s.chip.sec.lcReset.isSome = false) ∧ (holdOk s.chip = true) :=
  ⟨ups (adminChip (sgd 1 3 zero32)), 32, 0, sgd 1 3 zero32, false, true, ⟨admin_at 1 3, by decide +kernel, by decide +kernel, sg_accept1, rfl, rfl, by rfl⟩⟩
theorem wit_TrustChanges_45 : ∃ (s : State) (q : QueueId) (i : Nat) (b : List Byte) (u v : Bool), (s.chip.signedAt q i b) ∧ (sgType b ≠ 2) ∧ (sgType b ≠ 3) ∧ (judge s.chip b u v = .accept) ∧ (s.chip.pwr.defer.any (fun d => d.1 == .lifecycle) = false) ∧ (s.chip.sec.lcReset.isSome = false) ∧ (holdOk s.chip = false) :=
  ⟨ups { adminChip (sgd 1 3 zero32) with pwr := { st := 1 } }, 32, 0, sgd 1 3 zero32, false, true, ⟨⟨⟨rfl, by decide⟩, rfl, by decide +kernel, by decide +kernel⟩, by decide +kernel, by decide +kernel, by decide +kernel, rfl, rfl, by rfl⟩⟩
theorem wit_TrustChanges_46 : ∃ (s : State) (q : QueueId) (i : Nat) (b : List Byte) (u v : Bool) (k : Nat), (s.chip.signedAt q i b) ∧ (sgType b ≠ 2) ∧ (sgType b ≠ 3) ∧ (judge s.chip b u v = .refuse k) ∧ (s.chip.pwr.defer.any (fun d => d.1 == .lifecycle) = false) ∧ (s.chip.sec.lcReset.isSome = false) :=
  ⟨ups (adminChip (sgd 1 2 zero32)), 32, 0, sgd 1 2 zero32, false, true, 5, ⟨admin_at 1 2, by decide +kernel, by decide +kernel, sg_refuse1', rfl, rfl⟩⟩
theorem wit_TrustChanges_47 : ∃ (s : State) (q : QueueId) (i : Nat) (b : List Byte) (u v : Bool), (s.chip.signedAt q i b) ∧ (sgType b ≠ 2) ∧ (sgType b ≠ 3) ∧ (judge s.chip b u v = .badSig) ∧ (s.chip.pwr.defer.any (fun d => d.1 == .lifecycle) = false) ∧ (s.chip.sec.lcReset.isSome = false) :=
  ⟨ups (adminChip (sgd 1 3 zero32)), 32, 0, sgd 1 3 zero32, false, false, ⟨admin_at 1 3, by decide +kernel, by decide +kernel, by decide +kernel, rfl, rfl⟩⟩
theorem wit_TrustChanges_48 : ∃ (s : State) (q : QueueId) (i : Nat) (b : List Byte) (u v : Bool), (s.chip.signedAt q i b) ∧ (sgType b ≠ 2) ∧ (sgType b ≠ 3) ∧ (s.chip.pwr.defer.any (fun d => d.1 == .lifecycle) = true ∨ s.chip.sec.lcReset.isSome = true) :=
  ⟨ups { adminChip (sgd 1 3 zero32) with sec := { lcReset := some 9 } }, 32, 0, sgd 1 3 zero32, false, true, ⟨⟨⟨rfl, by decide⟩, rfl, by decide +kernel, by decide +kernel⟩, by decide +kernel, by decide +kernel, Or.inr rfl⟩⟩
theorem wit_TrustChanges_49 : ∃ (s : State) (q : QueueId) (i : Nat) (b : List Byte) (u v : Bool), (s.chip.signedAt q i b) ∧ (sgType b = 2 ∨ sgType b = 3) :=
  ⟨ups (adminChip (sgd 2 5 zero32)), 32, 0, sgd 2 5 zero32, false, true, ⟨admin_at 2 5, by decide +kernel⟩⟩
theorem wit_TrustChanges_50 : ∃ (s : State) (q : QueueId) (i : Nat) (b : List Byte) (v : Bool), (s.chip.signedAt q i b) ∧ (sgType b = 2) ∧ (judge s.chip b false v = .accept) :=
  ⟨ups (adminChip (sgd 2 0x10005 zero32)), 32, 0, sgd 2 0x10005 zero32, true, ⟨admin_at 2 0x10005, by decide +kernel, sg_accept2⟩⟩
theorem wit_TrustChanges_51 : ∃ (s : State) (q : QueueId) (i : Nat) (b : List Byte) (v : Bool) (k : Nat), (s.chip.signedAt q i b) ∧ (sgType b = 2) ∧ (judge s.chip b false v = .refuse k) :=
  ⟨ups (adminChip (sgd 2 5 zero32)), 32, 0, sgd 2 5 zero32, true, 8, ⟨admin_at 2 5, by decide +kernel, sg_refuse2⟩⟩
theorem wit_TrustChanges_52 : ∃ (s : State) (q : QueueId) (i : Nat) (b : List Byte) (v : Bool), (s.chip.signedAt q i b) ∧ (sgType b = 2) ∧ (judge s.chip b false v = .badSig) :=
  ⟨ups (adminChip (sgd 2 0x10005 zero32)), 32, 0, sgd 2 0x10005 zero32, false, ⟨admin_at 2 0x10005, by decide +kernel, by decide +kernel⟩⟩
theorem wit_TrustChanges_53 : ∃ (s : State) (q : QueueId) (i : Nat) (b : List Byte) (v : Bool), (s.chip.signedAt q i b) ∧ (sgType b ≠ 2) :=
  ⟨ups (adminChip (sgd 1 3 zero32)), 32, 0, sgd 1 3 zero32, true, ⟨admin_at 1 3, by decide +kernel⟩⟩
theorem wit_TrustChanges_54 : ∃ (s : State) (q : QueueId) (i : Nat) (b : List Byte) (v : Bool), (s.chip.signedAt q i b) ∧ (sgType b = 3) ∧ (judge s.chip b false v = .accept) :=
  ⟨ups (adminChip (sgd 3 5 zero32)), 32, 0, sgd 3 5 zero32, true, ⟨admin_at 3 5, by decide +kernel, sg_accept3⟩⟩
theorem wit_TrustChanges_55 : ∃ (s : State) (q : QueueId) (i : Nat) (b : List Byte) (v : Bool) (k : Nat), (s.chip.signedAt q i b) ∧ (sgType b = 3) ∧ (judge s.chip b false v = .refuse k) :=
  ⟨ups (adminChip (sgd 3 10 zero32)), 32, 0, sgd 3 10 zero32, true, 6, ⟨admin_at 3 10, by decide +kernel, sg_refuse3⟩⟩
theorem wit_TrustChanges_56 : ∃ (s : State) (q : QueueId) (i : Nat) (b : List Byte) (v : Bool), (s.chip.signedAt q i b) ∧ (sgType b = 3) ∧ (judge s.chip b false v = .badSig) :=
  ⟨ups (adminChip (sgd 3 5 zero32)), 32, 0, sgd 3 5 zero32, false, ⟨admin_at 3 5, by decide +kernel, sg_bad3⟩⟩
theorem wit_TrustChanges_57 : ∃ (s : State) (q : QueueId) (i : Nat) (b : List Byte) (v : Bool), (s.chip.signedAt q i b) ∧ (sgType b ≠ 3) :=
  ⟨ups (adminChip (sgd 1 3 zero32)), 32, 0, sgd 1 3 zero32, true, ⟨admin_at 1 3, by decide +kernel⟩⟩
theorem wit_TrustChanges_58 : ∃ (s : State) (b : Nat), (s.chip.isOn) ∧ (s.chip.sec.lcReset = some b) ∧ (b ≤ s.chip.beat) :=
  ⟨ups { chipOn with sec := { lcReset := some 0 } }, 0, by decide⟩
theorem wit_TrustChanges_59 : ∃ (s : State) (f : Frame), (f.body = []) :=
  ⟨up, {}, by decide⟩
theorem wit_TrustChanges_60 : ∃ (s : State) (f : Frame) (a b : Bool), (f.body ≠ []) :=
  ⟨up, { body := [1#8] }, true, true, by decide⟩
theorem wit_TrustChanges_61 : ∃ (s : State) (f : Frame), (f.body ≠ []) ∧ (f.type ≠ 0x3C ∨ takesFrames s.chip 0x3C = false) :=
  ⟨up, { body := [1#8] }, by decide⟩
theorem wit_TrustChanges_62 : ∃ (s : State) (f : Frame), (f.body ≠ []) ∧ (f.type = 0x3C) ∧ (s.chip.listens 0x3C) ∧ (s.chip.mbp.sess ≠ 4) :=
  ⟨up, { type := 0x3C, body := [1#8] }, by decide⟩
theorem wit_TrustChanges_63 : ∃ (s : State) (f : Frame) (a b : Bool), (f.body = []) ∧ (f.type = 0x3C) ∧ (s.chip.listens 0x3C) ∧ (s.chip.mbp.sess ≠ 4) :=
  ⟨up, { type := 0x3C }, true, true, by decide⟩
theorem wit_TrustChanges_64 : ∃ (s : State) (f : Frame), (s.chip.phase = .loader) ∧ (s.chip.mbp.sess = 4) ∧ (f.type = 0x3C) ∧ (f.body ≠ []) ∧ (f.broken = true ∨ f.prot = true) :=
  ⟨ups (loaderChip []), { type := 0x3C, body := [1#8] }, by decide⟩
theorem wit_TrustChanges_65 : ∃ (s : State) (f : Frame), (s.chip.phase = .loader) ∧ (s.chip.mbp.sess = 4) ∧ (f.type = 0x3C) ∧ (f.prot = false) ∧ (f.broken = false) ∧ (f.body ≠ []) ∧ (f.addr % 64 = 0) ∧ (f.body.length % 64 = 0) ∧ (f.addr + f.body.length ≤ 0x3000000) :=
  ⟨ups (loaderChip []), { type := 0x3C, prot := false, addr := 64, body := List.replicate 64 7#8 }, by decide⟩
theorem wit_TrustChanges_66 : ∃ (s : State) (f : Frame), (s.chip.phase = .loader) ∧ (s.chip.mbp.sess = 4) ∧ (f.type = 0x3C) ∧ (f.prot = false) ∧ (f.broken = false) ∧ (f.body ≠ []) ∧ (f.addr % 64 ≠ 0 ∨ f.body.length % 64 ≠ 0 ∨ 0x3000000 < f.addr + f.body.length) :=
  ⟨ups (loaderChip []), { type := 0x3C, prot := false, addr := 64, body := [1#8] }, by decide⟩
theorem wit_TrustChanges_67 : ∃ (s : State) (f : Frame) (a b : Bool), (s.chip.phase = .loader) ∧ (s.chip.mbp.sess = 4) ∧ (f.type = 0x3C) ∧ (f.prot = false) ∧ (f.broken = false) ∧ (f.body = []) ∧ (f.addr % 64 ≠ 0 ∨ 0x3000000 < f.addr) :=
  ⟨ups (loaderChip []), { type := 0x3C, prot := false, addr := 63 }, true, true, by decide⟩
theorem wit_TrustChanges_68 : ∃ (s : State) (f : Frame) (a b : Bool), (s.chip.phase = .loader) ∧ (s.chip.mbp.sess = 4) ∧ (f.type = 0x3C) ∧ (f.prot = false) ∧ (f.broken = false) ∧ (f.body = []) ∧ (f.addr % 64 = 0) ∧ (f.addr ≤ 0x3000000) ∧ (∃ u < f.addr / 64, u ∉ s.chip.sec.units) :=
  ⟨ups (loaderChip []), { type := 0x3C, prot := false, addr := 64 * 729 }, true, true, ⟨rfl, rfl, rfl, rfl, rfl, rfl, by decide, by decide, 728, by decide, by simp [ups, loaderChip]⟩⟩
theorem wit_TrustChanges_69 : ∃ (s : State) (f : Frame) (a b : Bool), (s.chip.phase = .loader) ∧ (s.chip.mbp.sess = 4) ∧ (f.type = 0x3C) ∧ (f.prot = false) ∧ (f.broken = false) ∧ (f.body = []) ∧ (f.addr % 64 = 0) ∧ (f.addr ≤ 0x3000000) ∧ (∀ u < f.addr / 64, u ∈ s.chip.sec.units) ∧ (imageFail { bytes := Tab.getList (fun _ => 0#8) s.chip.sec.staged 0 f.addr, sigOk := a } s.chip.otp.svn s.chip.lc ≠ 0) :=
  ⟨ups (loaderChip []), { type := 0x3C, prot := false, addr := 64 }, true, true, ⟨rfl, rfl, rfl, rfl, rfl, rfl, by decide, by decide, fun u hu => by have h1 : u < 1 := hu; simpa [ups, loaderChip] using (by omega : u < 728), by decide +kernel⟩⟩
theorem wit_TrustChanges_70 : ∃ (s : State) (f : Frame) (b : Bool), (s.chip.phase = .loader) ∧ (s.chip.mbp.sess = 4) ∧ (f.type = 0x3C) ∧ (f.prot = false) ∧ (f.broken = false) ∧ (f.body = []) ∧ (f.addr % 64 = 0) ∧ (f.addr ≤ 0x3000000) ∧ (∀ u < f.addr / 64, u ∈ s.chip.sec.units) ∧ (imageFail { bytes := Tab.getList (fun _ => 0#8) s.chip.sec.staged 0 f.addr, sigOk := true } s.chip.otp.svn s.chip.lc = 0) :=
  ⟨ups (loaderChip fw), { type := 0x3C, prot := false, addr := fwN }, true, ⟨rfl, rfl, rfl, rfl, rfl, rfl, by decide, by decide, fun u hu => by simpa [ups, loaderChip, fwN] using (show u < 728 from hu), by rw [loader_lc, loader_svn, loader_staged]; exact fw_staged_ok⟩⟩
theorem wit_TrustChanges_71a : ∃ (s : State) (v b : Nat) (o : FlashOp), (s.chip.isOn) ∧ (s.chip.pwr.defer = [(o, b)]) ∧ (b < s.chip.beat) ∧ ((s.chip.beat - b) % 1024 = 0) ∧ (s.chip.pwr.st ≠ 5 ∨ o.record = true) ∧ (holdOk { s.chip with pwr := { s.chip.pwr with vhold := v } } = true) :=
  ⟨ups { chipOn with pwr := { st := 1, cap := 1800, defer := [(.errLog, 0)] }, cad := { now := 1024 * 1024 } }, 8000, 0, .errLog, by decide⟩
theorem wit_TrustChanges_71b : ∃ (s : State) (v b : Nat) (o : FlashOp), (s.chip.isOn) ∧ (s.chip.pwr.defer = [(o, b)]) ∧ (b < s.chip.beat) ∧ ((s.chip.beat - b) % 1024 = 0) ∧ (s.chip.pwr.st ≠ 5 ∨ o.record = true) ∧ (holdOk { s.chip with pwr := { s.chip.pwr with vhold := v } } = true) :=
  ⟨ups { chipOn with pwr := { st := 1, cap := 1800, defer := [(.counter 5, 0)] }, cad := { now := 1024 * 2048 } }, 8000, 0, .counter 5, by decide⟩
theorem wit_TrustChanges_72 : ∃ (s : State) (v : Nat), (s.chip.isOn) ∧ (∀ d ∈ s.chip.pwr.defer, s.chip.beat ≤ d.2 ∨ (s.chip.beat - d.2) % 1024 ≠ 0 ∨ holdOk { s.chip with pwr := { s.chip.pwr with vhold := v } } = false ∨ s.chip.pwr.st = 5 ∧ d.1.record = false) :=
  ⟨ups { chipOn with pwr := { st := 1, cap := 1800, defer := [(.errLog, 0), (.ageing, 1)] }, cad := { now := 1024 * 1023 } }, 8000, by decide⟩
theorem wit_TrustChanges_73 : ∃ (s : State) (v : Nat), (s.chip.isOn) :=
  ⟨ups { chipOn with pwr := { st := 1, cap := 1800, defer := [(.errLog, 0), (.ageing, 0)] }, cad := { now := 1024 * 1024 } }, 8000, by decide⟩
theorem wit_TrustChanges_74 : ∃ (s : State) (v : Nat) (f : Frame) (a b : Bool), (s.chip.phase = .loader) ∧ (s.chip.sec.commit = some (f, a, b)) :=
  ⟨ups { loaderChip [] with sec := { commit := some ({ addr := 0 }, true, true) } }, 8000, { addr := 0 }, true, true, by decide⟩
theorem wit_TrustChanges_75 : ∃ (s : State) (v : Nat), (s.chip.phase = .loader) ∧ (s.chip.sec.commit = none) :=
  ⟨ups (loaderChip []), 8000, ⟨rfl, rfl⟩⟩
theorem wit_TrustChanges_76a : ∃ (s : State) (b : Nat) (o : FlashOp), (s.chip.isOn) ∧ (s.chip.pwr.st ≠ 5) ∧ (5800 ≤ s.chip.pwr.vin) ∧ (s.chip.pwr.vin ≤ 8400) ∧ (s.chip.pwr.defer = [(o, b)]) ∧ (b + 65536 ≤ s.chip.beat) :=
  ⟨ups { chipOn with pwr := { st := 1, vin := 7000, defer := [(.errLog, 0)] }, cad := { now := 1024 * 65536 } }, 0, .errLog, by decide⟩
theorem wit_TrustChanges_76b : ∃ (s : State) (b : Nat) (o : FlashOp), (s.chip.isOn) ∧ (s.chip.pwr.st ≠ 5) ∧ (5800 ≤ s.chip.pwr.vin) ∧ (s.chip.pwr.vin ≤ 8400) ∧ (s.chip.pwr.defer = [(o, b)]) ∧ (b + 65536 ≤ s.chip.beat) :=
  ⟨ups { chipOn with pwr := { st := 1, vin := 7000, defer := [(.counter 4, 0)] }, cad := { now := 1024 * 65536 } }, 0, .counter 4, by decide⟩
theorem wit_TrustChanges_78 : ∃ (s : State), (s.chip.isOn) ∧ (s.chip.pwr.st ≠ 5) ∧ (5800 ≤ s.chip.pwr.vin) ∧ (s.chip.pwr.vin ≤ 8400) :=
  ⟨ups { chipOn with pwr := { st := 1, vin := 7000, defer := [(.errLog, 0), (.ageing, 5)] }, cad := { now := 1024 * 65536 } }, by decide⟩
theorem wit_TrustChanges_79 : ∃ (s : State), (s.chip.isOn) ∧ (s.chip.pwr.vin < 5800 ∨ 8400 < s.chip.pwr.vin) :=
  ⟨up, by decide⟩
theorem wit_Telemetry_1 : ∃ (s : State), (s.chip.isOn) ∧ (s.chip.tam.queue = []) :=
  ⟨up, by decide⟩
theorem wit_Telemetry_2 : ∃ (s : State), (s.chip.isOn) ∧ (s.chip.tam.queue ≠ []) ∧ (holdOk s.chip = true) :=
  ⟨ups { chipOn with tam := { queue := [({}, false)] }, pwr := { st := 1, vhold := 8000, cap := 1800 } }, by decide⟩
theorem wit_Telemetry_3 : ∃ (s : State), (s.chip.isOn) ∧ (s.chip.tam.queue ≠ []) ∧ (holdOk s.chip = false) ∧ (s.chip.pwr.defer = []) :=
  ⟨ups { chipOn with tam := { queue := [({}, false)] }, pwr := { st := 1 } }, by decide⟩
theorem wit_Telemetry_4 : ∃ (s : State) (f d : Nat), (s.chip.isReady) ∧ (f = s.chip.rg (tamReg 0x134)) ∧ (d = s.chip.rg64 (tamReg 0x13C)) ∧ (s.chip.rg (tamReg 0x138) = 1) ∧ (s.chip.flash.logSeq - s.chip.flash.errLog.length + 1 ≤ f) ∧ (f ≤ s.chip.flash.logSeq) ∧ (d % 32 = 0) ∧ (d + 32 ≤ t0Size) ∧ (d % payloadSize + 32 ≤ payloadSize) ∧ (∀ i < 32, s.chip.guarded (d + i) = false) ∧ (s.chip.flash.errLog.length ≤ s.chip.flash.logSeq) :=
  ⟨ups { ((chipOn.setRg (tamReg 0x134) 5).setRg (tamReg 0x138) 1) with flash := { logSeq := 5, errLog := [{}, {}] } }, 5, 0, by decide⟩
theorem wit_Telemetry_5 : ∃ (s : State), (s.chip.isReady) ∧ (s.chip.rg (tamReg 0x138) = 0 ∨ s.chip.flash.logSeq < s.chip.rg (tamReg 0x134) + s.chip.rg (tamReg 0x138) - 1 ∨ s.chip.rg64 (tamReg 0x13C) % 32 ≠ 0) :=
  ⟨up, by decide⟩
theorem wit_Telemetry_6 : ∃ (s : State) (i : Fin 282) (v : W32), (s.chip.isOn) ∧ (i.val < 216 ∨ 264 ≤ i.val) :=
  ⟨up, 281, 5#32, by decide⟩
theorem wit_Telemetry_7 : ∃ (s : State) (i : Fin 282) (v : W32), (s.chip.isOn) ∧ (216 ≤ i.val) ∧ (i.val < 264) :=
  ⟨up, 216, 5#32, by decide⟩
theorem wit_Telemetry_8 : ∃ (s : State) (b : Nat), (s.chip.isOn) ∧ (s.chip.tam.slackFrom = some b) ∧ (b + 2 ^ 20 ≤ s.chip.beat) ∧ (s.chip.tam.age.vofs < 24) :=
  ⟨ups { chipOn with tam := { slackFrom := some 0 }, cad := { now := 2 ^ 30 } }, 0, by decide⟩
theorem wit_Telemetry_9 : ∃ (s : State), (s.chip.isOn) ∧ (s.chip.tam.slackFrom = none ∨ 24 ≤ s.chip.tam.age.vofs) :=
  ⟨up, by decide⟩
theorem wit_Telemetry_10 : ∃ (s : State) (e : Fin 7) (o : Int), (s.chip.isOn) ∧ (s.chip.monS (273 + e.val) = some o) ∧ (o + 50 < Tab.get (fun _ => 0) s.chip.tam.age.target e) ∧ (nat0 s.chip.tam.age.bias e + 50 ≤ nat0 s.chip.tam.age.eol e) ∧ (nat0 s.chip.tam.laserAt e = 0 ∨ nat0 s.chip.tam.laserAt e + 1024 ≤ s.chip.beat) :=
  ⟨ups { chipOn with tam := { mon := [(276, some 1#32)], age := { target := [(3, 100)], eol := [(3, 50)] } } }, 3, 1, by decide⟩
theorem wit_Telemetry_11 : ∃ (s : State) (e : Fin 7), (s.chip.isOn) ∧ (s.chip.monS (273 + e.val) = none ∨ nat0 s.chip.tam.age.eol e < nat0 s.chip.tam.age.bias e + 50) :=
  ⟨up, 3, by decide⟩
theorem wit_Telemetry_12 : ∃ (s : State), (s.chip.isOn) ∧ ((s.chip.pwr.st = 5 ∧ s.chip.tam.queue = []) ∨ s.chip.pwr.st ≠ 5 ∧ s.chip.tam.ckptLast + max 0x10000 (s.chip.rg (tamReg 0x174)) ≤ s.chip.beat) ∧ (holdOk s.chip = true) :=
  ⟨ups { (chipOn.setRg (tamReg 0x174) 0) with pwr := { st := 1, vhold := 8000, cap := 1800 }, cad := { now := 1024 * 65536 } }, by decide⟩
theorem wit_Telemetry_13 : ∃ (s : State), (s.chip.isOn) ∧ (s.chip.pwr.st ≠ 5) ∧ (s.chip.beat < s.chip.tam.ckptLast + max 0x10000 (s.chip.rg (tamReg 0x174))) :=
  ⟨up, by decide⟩
theorem wit_Telemetry_14 : ∃ (s : State) (h : W32), (s.chip.isReady) ∧ (s.chip.tam.winSt ≠ 2) ∧ (winOk s.chip = true) ∧ (Tab.get (fun _ => none) s.chip.pairStage (tamReg 0x164) = none) :=
  ⟨ups { (chipOn.setRg (tamReg 0x160) 48899) with tam := { winSt := 0 } }, 1#32, by decide⟩
theorem wit_Telemetry_15 : ∃ (s : State) (h : W32), (s.chip.isReady) ∧ (s.chip.tam.winSt = 2 ∨ winOk s.chip = false) :=
  ⟨up, 0#32, by decide⟩
theorem wit_Telemetry_16 : ∃ (s : State), (s.chip.isReady) ∧ (s.chip.tam.winSt = 1) ∧ (s.chip.tam.winAt = s.chip.beat) ∧ (winFree s.chip = true) ∧ (winKind s.chip = 2) :=
  ⟨ups { (chipOn.setRg (tamReg 0x160) 461570) with tam := { winSt := 1 } }, by decide⟩
theorem wit_Telemetry_17 : ∃ (s : State), (s.chip.isReady) ∧ (s.chip.tam.winSt = 1) ∧ (s.chip.tam.winAt ≤ s.chip.beat) ∧ (winFree s.chip = true) ∧ (winKind s.chip = 3) :=
  ⟨ups { (chipOn.setRg (tamReg 0x160) 48899) with tam := { winSt := 1 } }, by decide⟩
theorem wit_Telemetry_18 : ∃ (s : State), (s.chip.isReady) ∧ (s.chip.tam.winSt ≠ 1 ∨ s.chip.beat < s.chip.tam.winAt ∨ winFree s.chip = false) :=
  ⟨up, by decide⟩
theorem wit_Telemetry_19 : ∃ (s : State), (s.chip.isReady) ∧ (s.chip.tam.winSt ≠ 2) ∧ (winOk s.chip = true) ∧ (winFree s.chip = true) ∧ (winKind s.chip = 1) ∧ ((s.chip.link (winTarget s.chip)).st ≠ 7) ∧ (s.chip.torusOk = true) :=
  ⟨ups (((chipOn.setRg (ra pgLrt 0x104) 0x10102).setRg (tamReg 0x160) 0x501).setLink 5 { st := 4 }), by decide⟩
theorem wit_Telemetry_20 : ∃ (s : State), (s.chip.isReady) ∧ (s.chip.tam.winSt = 2 ∨ winOk s.chip = false ∨ winFree s.chip = false) :=
  ⟨up, by decide⟩
theorem wit_Telemetry_21 : ∃ (s : State), (s.chip.isReady) ∧ (s.chip.tam.winSt = 1) :=
  ⟨ups { (chipOn.setRg (tamReg 0x160) 3) with tam := { winSt := 1 } }, by decide⟩
theorem wit_Telemetry_22 : ∃ (s : State), (s.chip.isReady) ∧ (s.chip.tam.winSt ≠ 1) :=
  ⟨up, by decide⟩
theorem wit_Telemetry_23 : ∃ (s : State) (k : Bool), (s.chip.isReady) ∧ (s.chip.tam.winSt ≠ 2) :=
  ⟨up, true, by decide⟩
theorem wit_Telemetry_24 : ∃ (s : State), (s.chip.isReady) ∧ (s.chip.tam.winSt = 2) ∧ (winKind s.chip = 3) ∧ ((s.chip.core (winTarget s.chip)).mapApp = false) ∧ ((s.chip.core (winTarget s.chip)).st = 0) :=
  ⟨ups { (chipOn.setRg (tamReg 0x160) 48899) with tam := { winSt := 2 } }, by decide⟩
theorem wit_Telemetry_25 : ∃ (s : State), (s.chip.isReady) ∧ (s.chip.tam.winSt = 2) ∧ (winKind s.chip = 3) ∧ (winTarget s.chip < 192) ∧ ((s.chip.core (winTarget s.chip)).mapApp = false) ∧ ((s.chip.core (winTarget s.chip)).st = 0) :=
  ⟨ups { (chipOn.setRg (tamReg 0x160) 48899) with tam := { winSt := 2 } }, by decide⟩
theorem wit_Telemetry_26 : ∃ (s : State), (s.chip.isReady) ∧ (s.chip.tam.winSt = 2) ∧ (winKind s.chip = 2) ∧ (bit (winChan s.chip) (s.chip.gmc (winTarget s.chip)).steered = true) :=
  ⟨ups ({ ((chipOn.setRg (tamReg 0x160) 0x30B02).setGmc 11 { steered := 8 }) with tam := { winSt := 2 } } : Chip), by decide⟩
theorem wit_Telemetry_27a : ∃ (s : State), (s.chip.isOn) ∧ (s.chip.tam.queue ≠ []) :=
  ⟨ups { chipOn with tam := { queue := [({}, false)] }, pwr := { st := 5, vhold := 8000, cap := 1800 } }, by decide⟩
theorem wit_Telemetry_27b : ∃ (s : State), (s.chip.isOn) ∧ (s.chip.tam.queue ≠ []) :=
  ⟨ups { chipOn with tam := { queue := [({}, false)] } }, by decide⟩
theorem wit_Telemetry_28 : ∃ (s : State) (f n d : Nat), (s.chip.isReady) ∧ (f = s.chip.rg (tamReg 0x134)) ∧ (n = s.chip.rg (tamReg 0x138)) ∧ (d = s.chip.rg64 (tamReg 0x13C)) ∧ (1 ≤ n) ∧ ((s.chip.flash.logSeq - s.chip.flash.errLog.length + 1) ≤ f) ∧ (f + n - 1 ≤ s.chip.flash.logSeq) ∧ (d % 32 = 0) ∧ (d + 32 * n ≤ t0Size) :=
  ⟨ups { ((chipOn.setRg (tamReg 0x134) 4).setRg (tamReg 0x138) 2) with flash := { logSeq := 5, errLog := [{}, {}] } }, 4, 2, 0, by decide⟩
theorem wit_Telemetry_29a : ∃ (s : State) (f n d : Nat), (s.chip.isReady) ∧ (f = s.chip.rg (tamReg 0x134)) ∧ (n = s.chip.rg (tamReg 0x138)) ∧ (d = s.chip.rg64 (tamReg 0x13C)) ∧ (n = 0 ∨ f < (s.chip.flash.logSeq - s.chip.flash.errLog.length + 1) ∨ s.chip.flash.logSeq < f + n - 1 ∨ d % 32 ≠ 0 ∨ t0Size < d + 32 * n) :=
  ⟨up, 0, 0, 0, by decide⟩
theorem wit_Telemetry_29b : ∃ (s : State) (f n d : Nat), (s.chip.isReady) ∧ (f = s.chip.rg (tamReg 0x134)) ∧ (n = s.chip.rg (tamReg 0x138)) ∧ (d = s.chip.rg64 (tamReg 0x13C)) ∧ (n = 0 ∨ f < (s.chip.flash.logSeq - s.chip.flash.errLog.length + 1) ∨ s.chip.flash.logSeq < f + n - 1 ∨ d % 32 ≠ 0 ∨ t0Size < d + 32 * n) :=
  ⟨ups ((chipOn.setRg (tamReg 0x134) 0).setRg (tamReg 0x138) 1), 0, 1, 0, by decide⟩
theorem wit_Telemetry_30a : ∃ (s : State) (i : Fin 282) (v : W32) (low : Bool), (s.chip.isOn) ∧ (i.val < 216 ∨ 264 ≤ i.val) ∧ (low = (List.range 144).any (fun j => match (updTam (fun t => { t with mon := Tab.set (fun _ => none) t.mon i (some v) }) s.chip).monS j with | some x => decide (x < 20) | none => false)) :=
  ⟨up, 281, 5#32, false, by decide⟩
theorem wit_Telemetry_30b : ∃ (s : State) (i : Fin 282) (v : W32) (low : Bool), (s.chip.isOn) ∧ (i.val < 216 ∨ 264 ≤ i.val) ∧ (low = (List.range 144).any (fun j => match (updTam (fun t => { t with mon := Tab.set (fun _ => none) t.mon i (some v) }) s.chip).monS j with | some x => decide (x < 20) | none => false)) :=
  ⟨up, 3, 5#32, true, by decide⟩
theorem wit_Telemetry_31 : ∃ (s : State) (b : Nat), (s.chip.isOn) ∧ (s.chip.tam.slackFrom = some b) ∧ (b + 2 ^ 20 ≤ s.chip.beat) ∧ (s.chip.tam.age.vofs < 24) :=
  ⟨ups { chipOn with tam := { slackFrom := some 0 }, cad := { now := 2 ^ 30 } }, 0, by decide⟩
theorem wit_Telemetry_32 : ∃ (s : State) (b : Nat), (s.chip.isOn) ∧ (s.chip.tam.slackFrom = some b) ∧ (s.chip.beat < b + 2 ^ 20) :=
  ⟨ups { chipOn with tam := { slackFrom := some 0 } }, 0, by decide⟩
theorem wit_Telemetry_33 : ∃ (s : State) (e : Fin 7) (o : Int), (s.chip.isOn) ∧ (s.chip.monS (273 + e.val) = some o) ∧ (Tab.get (fun _ => 0) s.chip.tam.age.target e ≤ o + 50 ∨ (nat0 s.chip.tam.laserAt e ≠ 0 ∧ s.chip.beat < nat0 s.chip.tam.laserAt e + 1024)) :=
  ⟨ups { chipOn with tam := { mon := [(276, some 1#32)] } }, 3, 1, by decide⟩
theorem wit_Telemetry_34a : ∃ (s : State), (s.chip.isOn) ∧ ((s.chip.pwr.st = 5 ∧ s.chip.tam.queue = []) ∨ (s.chip.pwr.st ≠ 5 ∧ s.chip.tam.ckptLast + max 0x10000 (s.chip.rg (tamReg 0x174)) ≤ s.chip.beat)) :=
  ⟨ups { (chipOn.setRg (tamReg 0x174) 0) with pwr := { st := 1, vhold := 8000, cap := 1800 }, cad := { now := 1024 * 65536 } }, by decide⟩
theorem wit_Telemetry_34b : ∃ (s : State), (s.chip.isOn) ∧ ((s.chip.pwr.st = 5 ∧ s.chip.tam.queue = []) ∨ (s.chip.pwr.st ≠ 5 ∧ s.chip.tam.ckptLast + max 0x10000 (s.chip.rg (tamReg 0x174)) ≤ s.chip.beat)) :=
  ⟨ups { chipOn with pwr := { st := 5 } }, by decide⟩
theorem wit_Telemetry_35 : ∃ (s : State), (s.chip.isOn) ∧ (s.chip.pwr.st = 5) ∧ (s.chip.tam.queue ≠ []) :=
  ⟨ups { chipOn with pwr := { st := 5 }, tam := { queue := [({}, false)] } }, by decide⟩
theorem wit_Telemetry_36 : ∃ (s : State) (h : W32), (s.chip.isReady) ∧ (s.chip.tam.winSt ≠ 2) ∧ (winOk s.chip = true) :=
  ⟨ups { (chipOn.setRg (tamReg 0x160) 48899) with tam := { winSt := 0 } }, 1#32, by decide⟩
theorem wit_Telemetry_37a : ∃ (s : State), (s.chip.isReady) ∧ (s.chip.tam.winSt = 1) ∧ (s.chip.come s.chip.tam.winAt = true) ∧ (winFree s.chip = true) :=
  ⟨ups { (chipOn.setRg (tamReg 0x160) 461570) with tam := { winSt := 1 } }, by decide⟩
theorem wit_Telemetry_37b : ∃ (s : State), (s.chip.isReady) ∧ (s.chip.tam.winSt = 1) ∧ (s.chip.come s.chip.tam.winAt = true) ∧ (winFree s.chip = true) :=
  ⟨ups { (chipOn.setRg (tamReg 0x160) 48899) with tam := { winSt := 1 } }, by decide⟩
theorem wit_Telemetry_37c : ∃ (s : State), (s.chip.isReady) ∧ (s.chip.tam.winSt = 1) ∧ (s.chip.come s.chip.tam.winAt = true) ∧ (winFree s.chip = true) :=
  ⟨ups ((chipOn.setRg (tamReg 0x160) 0x4).setLink 6 { st := 4 } |> fun c => { c with tam := { winSt := 1 } }), by decide⟩
theorem wit_Telemetry_38 : ∃ (s : State), (s.chip.isReady) ∧ (s.chip.tam.winSt = 1) ∧ (s.chip.come s.chip.tam.winAt = false) :=
  ⟨ups { (chipOn.setRg (tamReg 0x160) 3) with tam := { winSt := 1, winAt := 9 } }, by decide⟩
theorem wit_Telemetry_39a : ∃ (s : State), (s.chip.isReady) ∧ (s.chip.tam.winSt ≠ 2) ∧ (winOk s.chip = true) ∧ (winFree s.chip = true) :=
  ⟨ups { (chipOn.setRg (tamReg 0x160) 48899) with tam := { winSt := 0 } }, by decide⟩
theorem wit_Telemetry_39b : ∃ (s : State), (s.chip.isReady) ∧ (s.chip.tam.winSt ≠ 2) ∧ (winOk s.chip = true) ∧ (winFree s.chip = true) :=
  ⟨ups { (chipOn.setRg (tamReg 0x160) 461570) with tam := { winSt := 0 } }, by decide⟩
theorem wit_Telemetry_39c : ∃ (s : State), (s.chip.isReady) ∧ (s.chip.tam.winSt ≠ 2) ∧ (winOk s.chip = true) ∧ (winFree s.chip = true) :=
  ⟨ups ((chipOn.setRg (tamReg 0x160) 4).setLink 6 { st := 4 }), by decide⟩
theorem wit_Telemetry_40 : ∃ (s : State), (winKind s.chip = 1) ∧ ((s.chip.link (winTarget s.chip)).st ≠ 7) :=
  ⟨ups { (chipOn.setRg (tamReg 0x160) 1281) with tam := { winSt := 0 } }, by decide⟩
theorem wit_Telemetry_41 : ∃ (s : State), (winKind s.chip = 1) ∧ ((s.chip.link (winTarget s.chip)).st = 7) :=
  ⟨ups ((chipOn.setRg (tamReg 0x160) 0x501).setLink 5 { st := 7 }), by decide⟩
theorem wit_Telemetry_42 : ∃ (s : State), (winKind s.chip = 2) :=
  ⟨ups { (chipOn.setRg (tamReg 0x160) 461570) with tam := { winSt := 0 } }, by decide⟩
theorem wit_Telemetry_43 : ∃ (s : State), (winKind s.chip = 3) :=
  ⟨ups { (chipOn.setRg (tamReg 0x160) 48899) with tam := { winSt := 0 } }, by decide⟩
theorem wit_Telemetry_44 : ∃ (s : State), (winKind s.chip = 4) :=
  ⟨ups { (chipOn.setRg (tamReg 0x160) 4) with tam := { winSt := 0 } }, by decide⟩
theorem wit_Telemetry_45 : ∃ (s : State), (s.chip.isReady) ∧ (s.chip.tam.winSt = 2) ∧ (winKind s.chip = 1) ∧ ((s.chip.link (winTarget s.chip)).st = 6) :=
  ⟨ups { ((chipOn.setRg (tamReg 0x160) 0x501).setLink 5 { st := 6 }) with tam := { winSt := 2 } }, by decide⟩
theorem wit_Telemetry_46 : ∃ (s : State), (s.chip.isReady) ∧ (s.chip.tam.winSt = 2) ∧ (winKind s.chip = 1) ∧ ((s.chip.link (winTarget s.chip)).st = 6) :=
  ⟨ups { ((chipOn.setRg (tamReg 0x160) 0x501).setLink 5 { st := 6 }) with tam := { winSt := 2 } }, by decide⟩
theorem wit_Telemetry_47 : ∃ (s : State) (b : Bool), (s.chip.isReady) ∧ (s.chip.tam.winSt = 2) ∧ (winKind s.chip = 1 ∧ (s.chip.link (winTarget s.chip)).st ≠ 6 ∨ (winKind s.chip = 0 ∨ 4 ≤ winKind s.chip) ∧ (s.chip.link 6).st ≠ 6) :=
  ⟨ups { ((chipOn.setRg (tamReg 0x160) 0x501).setLink 5 { st := 4 }) with tam := { winSt := 2 } }, true, by decide⟩
theorem wit_Telemetry_48 : ∃ (s : State), (s.chip.isReady) ∧ (s.chip.tam.winSt = 2) ∧ (winKind s.chip = 4) ∧ ((s.chip.link 6).st = 6) :=
  ⟨ups { ((chipOn.setRg (tamReg 0x160) 4).setLink 6 { st := 6 }) with tam := { winSt := 2 } }, by decide⟩
theorem wit_Telemetry_49 : ∃ (s : State), (s.chip.isReady) ∧ (s.chip.tam.winSt = 2) ∧ (winKind s.chip = 4) ∧ ((s.chip.link 6).st = 6) :=
  ⟨ups { ((chipOn.setRg (tamReg 0x160) 4).setLink 6 { st := 6 }) with tam := { winSt := 2 } }, by decide⟩
theorem wit_Telemetry_50 : ∃ (s : State), (s.chip.isReady) ∧ (s.chip.tam.winSt = 2) ∧ (winKind s.chip = 3) ∧ ((s.chip.core (winTarget s.chip)).mapApp = false) ∧ ((s.chip.core (winTarget s.chip)).st = 0) :=
  ⟨ups { (chipOn.setRg (tamReg 0x160) 48899) with tam := { winSt := 2 } }, by decide⟩
theorem wit_Telemetry_51 : ∃ (s : State), (s.chip.isReady) ∧ (s.chip.tam.winSt = 2) ∧ (winKind s.chip = 3) ∧ ((s.chip.core (winTarget s.chip)).mapApp = false) ∧ ((s.chip.core (winTarget s.chip)).st = 0) :=
  ⟨ups { (chipOn.setRg (tamReg 0x160) 48899) with tam := { winSt := 2 } }, by decide⟩
theorem wit_Telemetry_52 : ∃ (s : State) (b : Bool), (s.chip.isReady) ∧ (s.chip.tam.winSt = 2) ∧ (winKind s.chip = 3) ∧ ((s.chip.core (winTarget s.chip)).mapApp = true ∨ (s.chip.core (winTarget s.chip)).st ≠ 0) :=
  ⟨ups { ((chipOn.setRg (tamReg 0x160) 3).setCore 0 { mapApp := true }) with tam := { winSt := 2 } }, true, by decide⟩
theorem wit_Telemetry_53 : ∃ (s : State) (m : Chip), (s.chip.isReady) ∧ (s.chip.tam.winSt = 2) ∧ (winKind s.chip = 2) ∧ (m = trainChan (winTarget s.chip) (winChan s.chip) ((irq pgTam 3 (updTam (fun t => { t with winSt := 3, winFail := false }) s.chip)).setGmc (winTarget s.chip) { s.chip.gmc (winTarget s.chip) with steered := (s.chip.gmc (winTarget s.chip)).steered - (if bit (winChan s.chip) (s.chip.gmc (winTarget s.chip)).steered = true then 2 ^ winChan s.chip else 0), retrains := setNat0 (s.chip.gmc (winTarget s.chip)).retrains (winChan s.chip) (min 65535 (nat0 (s.chip.gmc (winTarget s.chip)).retrains (winChan s.chip) + 1)) })) :=
  ⟨ups gmcA, gmcB 3 false, ⟨⟨rfl, by decide⟩, rfl, by decide, rfl⟩⟩
theorem wit_Telemetry_54 : ∃ (s : State) (m : Chip), (s.chip.isReady) ∧ (s.chip.tam.winSt = 2) ∧ (winKind s.chip = 2) ∧ (m = trainChan (winTarget s.chip) (winChan s.chip) ((irq pgTam 4 (updTam (fun t => { t with winSt := 3, winFail := true }) s.chip)).setGmc (winTarget s.chip) { s.chip.gmc (winTarget s.chip) with steered := (s.chip.gmc (winTarget s.chip)).steered - (if bit (winChan s.chip) (s.chip.gmc (winTarget s.chip)).steered = true then 2 ^ winChan s.chip else 0), retrains := setNat0 (s.chip.gmc (winTarget s.chip)).retrains (winChan s.chip) (min 65535 (nat0 (s.chip.gmc (winTarget s.chip)).retrains (winChan s.chip) + 1)) })) :=
  ⟨ups gmcA, gmcB 4 true, ⟨⟨rfl, by decide⟩, rfl, by decide, rfl⟩⟩

end Sys2Proof.Tests
end

section
/-! The register window: what an access that names no register does (R5, R7, R346), and the order of the two writes of
one core cycle (R9). -/

namespace Sys2Proof.Machine

/-! ### Accesses that name no register -/

/-- A failed access that follows a failed access shows the same answer. -/
@[simp] theorem accessError_accessError (c : Chip) : accessError (accessError c) = accessError c := rfl

theorem regWrite_unaligned {a : Nat} (v : Nat) (c : Chip) (h : a % 4 ≠ 0) : regWrite a v c = accessError c := if_pos h

theorem regWrite_unmapped {a : Nat} (v : Nat) (c : Chip) (h4 : a % 4 = 0) (hp : pageBlk (a / 0x1000) = none) :
    regWrite a v c = ce pgMbp 9 (a % 2 ^ 32) v (accessError c) := by
  simp [regWrite, h4, hp]

theorem regWrite_reserved {a : Nat} (v : Nat) (c : Chip) (h4 : a % 4 = 0) (hp : pageBlk (a / 0x1000) ≠ none)
    (hr : regRow a = none) : regWrite a v c = { c with answer := {} } := by
  obtain ⟨⟨b, p0⟩, hb⟩ := Option.ne_none_iff_exists'.mp hp
  simp [regWrite, h4, hb, hr]

/-- The one register whose value is free (log 5) has a row, so a reserved offset is not it. -/
theorem ne_want_of_reserved {a : Nat} (hr : regRow a = none) : a ≠ tamReg 0x15C := by
  rintro rfl
  exact absurd hr (by decide)

theorem readReg_reserved {a : Nat} (c : Chip) (h4 : a % 4 = 0) (hw : a < windowSize) (hp : pageBlk (a / 0x1000) ≠ none)
    (hr : regRow a = none) : readReg a c = { c with answer := {} } := by
  simp [readReg, h4, hw.not_ge, hp, ne_want_of_reserved hr, hr]

/-- What `logs` asks of a failed access to an unmapped page, whose answer is new besides. -/
theorem logs_ce_accessError (d0 d1 : Nat) (c : Chip) :
    let k := ce pgMbp 9 d0 d1 (accessError c)
    k.answer.error = true ∧ ({ c with answer := k.answer } : Chip).logs k pgMbp 0 9 := by
  have ha : (ce pgMbp 9 d0 d1 (accessError c)).answer = { error := true } := ce_answer ..
  dsimp only
  rw [ha]
  exact ⟨rfl, logs_ce _ _ _ _ (accessError c) (by decide)⟩

/-! ### The words of one core cycle -/

/-- The write of one requester, if it has one in the cycle. -/
def wordWrite (a size : Nat) (w : Option W32) (c : Chip) : Chip :=
  match w with
  | none => c
  | some v => if size ≠ 4 then accessError c else regWrite a v.toNat c

/-- The control node's word, then the management processor's (R9). -/
theorem registerWrite_eq_wordWrite (a size : Nat) (cn mp : Option W32) (c : Chip) :
    registerWrite a size cn mp c = wordWrite a size mp (wordWrite a size cn c) := rfl

@[simp] theorem wordWrite_none (a size : Nat) (c : Chip) : wordWrite a size none c = c := rfl
@[simp] theorem wordWrite_four (a : Nat) (v : W32) (c : Chip) : wordWrite a 4 (some v) c = regWrite a v.toNat c := rfl

/-- An access that is not an aligned word fails (R5). -/
theorem wordWrite_misfit {a size : Nat} (v : W32) (c : Chip) (h : a % 4 ≠ 0 ∨ size ≠ 4) :
    wordWrite a size (some v) c = accessError c := by
  by_cases hs : size = 4
  · subst hs
    exact regWrite_unaligned _ _ (h.resolve_right (· rfl))
  · exact if_pos hs

theorem registerWrite_misfit {a size : Nat} {cn mp : Option W32} (c : Chip) (h : a % 4 ≠ 0 ∨ size ≠ 4)
    (hw : cn ≠ none ∨ mp ≠ none) : registerWrite a size cn mp c = accessError c := by
  rw [registerWrite_eq_wordWrite]
  match cn, mp with
  | none, none => simp at hw
  | none, some _ | some _, none | some _, some _ => simp [wordWrite_misfit _ _ h]

/-- The two words of one cycle act as the control node's alone followed by the management processor's alone. -/
theorem registerWrite_both (a size : Nat) (cn mp : Option W32) (c : Chip) :
    registerWrite a size cn mp c = registerWrite a size none mp (registerWrite a size cn none c) := rfl

/-! ### The commands on a module that is on -/

theorem exec_registerWrite {s : State} (a size : Nat) (cn mp : Option W32) (hc : s.chip.isOn) :
    exec (.registerWrite a size cn mp) s = .next { s with chip := registerWrite a size cn mp s.chip } := by
  change act (live (registerWrite a size cn mp)) s = _
  rw [act, live_on _ hc]

theorem does_registerWrite {s : State} {a size : Nat} {cn mp : Option W32} {P : Chip → Prop} (hc : s.chip.isOn)
    (hp : P (registerWrite a size cn mp s.chip)) : Does (.registerWrite a size cn mp) s P := does_live rfl hc hp

/-! ### The obligations -/

/-- Settles O8: each clause is the lemma above about its access, at the command's operation. -/
theorem accessErrors : Obligations.AccessErrors := by
  unfold Obligations.AccessErrors
  refine ⟨?badWrite, ?badHigh, ?badLow, ?unmapped, ?reservedWrite, ?reservedRead⟩
  case badWrite => exact fun s a size cn mp hc h hw => does_registerWrite hc (registerWrite_misfit _ h hw)
  case badHigh => exact fun s a v hc h => does_live rfl hc (if_pos h)
  case badLow => exact fun s a hc h => does_live rfl hc (if_pos h)
  case unmapped =>
    intro s a v hc h4 hp
    refine does_registerWrite hc ?_
    rw [registerWrite_eq_wordWrite, wordWrite_none, wordWrite_four, regWrite_unmapped _ _ h4 hp]
    exact logs_ce_accessError _ _ _
  case reservedWrite => exact fun s a v hc h4 hp hr => does_registerWrite hc (regWrite_reserved _ _ h4 hp hr)
  case reservedRead => exact fun k a h4 hw hp hr => readReg_reserved k h4 hw hp hr

/-- Settles O9: the first write leaves the module on, so the second command acts, and on the module that the first
write leaves. -/
theorem writeOrder : Obligations.WriteOrder := by
  unfold Obligations.WriteOrder
  intro s t a size v w hs hfirst ht
  rw [exec_registerWrite _ _ _ _ hs] at hfirst
  obtain rfl := Host.Outcome.next.inj hfirst
  rw [exec_registerWrite _ _ _ _ hs, exec_registerWrite _ _ _ _ ht, registerWrite_both]

end Sys2Proof.Machine
end

section
/-! A retired module stays retired (R416). What works on the control link changes neither the module's phase nor its
fuses nor the state of a peer port; what needs a module that is on does nothing; and a reset of a module whose RETIRE
fuse is burned ends in die reset with its peer ports OFF. -/

namespace Sys2Proof.Machine

/-! ### What a dead module keeps -/

/-- The phase, the fuses and the states of the peer ports are as they were. -/
structure SameLife (c k : Chip) : Prop where
  phase : k.phase = c.phase
  otp : k.otp = c.otp
  ports : ∀ p < 6, (k.link p).st = (c.link p).st

variable {c k : Chip}

theorem SameLife.refl (c : Chip) : SameLife c c := ⟨rfl, rfl, fun _ _ => rfl⟩
/-- Transitivity, the later operation first: a proof peels a composite operation from the outside. -/
theorem SameLife.after {a b d : Chip} (g : SameLife b d) (h : SameLife a b) : SameLife a d :=
  ⟨g.phase.trans h.phase, g.otp.trans h.otp, fun p hp => (g.ports p hp).trans (h.ports p hp)⟩
theorem SameLife.of_eq (hp : k.phase = c.phase) (ho : k.otp = c.otp) (hl : k.links = c.links) : SameLife c k :=
  ⟨hp, ho, fun _ _ => by rw [Chip.link, hl, Chip.link]⟩
theorem SameLife.ite {a b : Chip} {P : Prop} [Decidable P] (ha : SameLife c a) (hb : SameLife c b) :
    SameLife c (if P then a else b) := by
  split
  · exact ha
  · exact hb
theorem SameLife.foldl {α : Type} {f : Chip → α → Chip} (h : ∀ k x, SameLife k (f k x)) (l : List α) (c : Chip) :
    SameLife c (l.foldl f c) := by
  induction l generalizing c with
  | nil => exact .refl c
  | cons x l ih => exact (ih _).after (h c x)
theorem SameLife.forEach {f : Nat → Chip → Chip} (h : ∀ n k, SameLife k (f n k)) (l : List Nat) (c : Chip) :
    SameLife c (forEach l f c) := .foldl (fun k n => h n k) l c

theorem OnlyStop.sameLife (h : OnlyStop c k) : SameLife c k := by
  obtain ⟨_, _, _, _, _, rfl⟩ := h
  exact .of_eq rfl rfl rfl
theorem OnlyLog.sameLife (h : OnlyLog c k) : SameLife c k := h.stop.sameLife
theorem OnlyLink.sameLife (h : OnlyLink c k) : SameLife c k := h.log.sameLife

theorem SameLife.dead (h : SameLife c k) (hd : c.dead) : k.dead := by
  obtain ⟨hretire, hphase, hports⟩ := hd
  exact ⟨h.otp ▸ hretire, h.phase ▸ hphase, fun p hp => (h.ports p hp).trans (hports p hp)⟩

/-- A link takes a value in the state that it had; by the control link no peer port changes. -/
theorem sameLife_setLink (n : Nat) (x : Link) (c : Chip) (h : n < 6 → x.st = (c.link n).st) :
    SameLife c (c.setLink n x) := by
  refine ⟨rfl, rfl, fun p hp => ?_⟩
  rw [Chip.setLink_link]
  split
  next he => exact he ▸ h (he ▸ hp)
  next => rfl
theorem sameLife_setLink_st (n : Nat) (x : Link) (c : Chip) (h : x.st = (c.link n).st := by rfl) :
    SameLife c (c.setLink n x) :=
  sameLife_setLink n x c fun _ => h
theorem sameLife_setLink_ctl (x : Link) (c : Chip) : SameLife c (c.setLink 6 x) :=
  sameLife_setLink 6 x c fun h => absurd h (by decide)
theorem sameLife_draw (n : Nat) (c : Chip) : SameLife c { c with draw := n } := .of_eq rfl rfl rfl
theorem sameLife_pktOrd (n : Nat) (c : Chip) : SameLife c { c with pktOrd := n } := .of_eq rfl rfl rfl
theorem sameLife_mbp (m : Mbp) (c : Chip) : SameLife c { c with mbp := m } := .of_eq rfl rfl rfl
theorem sameLife_updMbp (f : Mbp → Mbp) (c : Chip) : SameLife c (updMbp f c) := .of_eq rfl rfl rfl
theorem sameLife_updSec (f : Sec → Sec) (c : Chip) : SameLife c (updSec f c) := .of_eq rfl rfl rfl
theorem sameLife_updPwr (f : Pwr → Pwr) (c : Chip) : SameLife c (updPwr f c) := .of_eq rfl rfl rfl
theorem sameLife_setRg (a v : Nat) (c : Chip) : SameLife c (c.setRg a v) := .of_eq rfl rfl rfl
theorem sameLife_irq (p i : Nat) (c : Chip) : SameLife c (irq p i c) := (irq_only p i c).sameLife
theorem sameLife_ce (p n d0 d1 : Nat) (c : Chip) : SameLife c (ce p n d0 d1 c) := (ce_only p n d0 d1 c).sameLife
theorem sameLife_sendFrame (f : Frame) (c : Chip) : SameLife c (sendFrame f c) := (sendFrame_only f c).sameLife

/-! ### Flits of the control link -/

theorem sameLife_freeBufs (c : Chip) : SameLife c (freeBufs c) := by
  unfold freeBufs
  refine .forEach (fun n k => ?_) _ c
  exact .ite (.refl k) (sameLife_setLink_st n _ k)
theorem sameLife_editCopies (ord : Nat) (f : QPkt → QPkt) (c : Chip) : SameLife c (editCopies ord f c) := by
  unfold editCopies
  exact .forEach (fun n k => sameLife_setLink_st n _ k) _ c
theorem sameLife_closePkt (ord : Nat) (c : Chip) : SameLife c (closePkt ord c) := by
  unfold closePkt
  refine (sameLife_freeBufs _).after (SameLife.after (.forEach (fun n k => ?_) _ _) (sameLife_editCopies ord _ c))
  exact sameLife_setLink_st n _ k

theorem sameLife_emit (n : Nat) (f : Flit) (c : Chip) : SameLife c (emit n f c) := by
  unfold emit
  refine .ite ?_ (sameLife_setLink_st n _ c)
  exact (sameLife_draw _ _).after (sameLife_setLink_st n _ c)
theorem sameLife_emitSeq (n : Nat) (f : Flit) (c : Chip) : SameLife c (emitSeq n f c) := by
  unfold emitSeq
  exact (sameLife_emit n _ _).after (sameLife_setLink_st n _ c)
theorem sameLife_sendData (n cls vc : Nat) (q : QPkt) (k : Nat) (c : Chip) : SameLife c (sendData_ n cls vc q k c) := by
  unfold sendData_
  exact (sameLife_emitSeq n _ _).after ((sameLife_freeBufs _).after (sameLife_setLink_st n _ c))
theorem sameLife_loadFrames (c : Chip) : SameLife c (loadFrames c) := by
  unfold loadFrames
  refine .ite (.refl c) (SameLife.after (.foldl (fun k f => ?_) _ _) (sameLife_mbp _ c))
  exact (sameLife_pktOrd _ _).after (sameLife_setLink_ctl _ k)

/-- FLIT_SEND changes the state of no link. -/
theorem sameLife_flitSend (n : Nat) (c : Chip) : SameLife c (flitSend n c) := by
  have hload : SameLife c (if n = 6 then loadFrames c else c) := .ite (sameLife_loadFrames c) (.refl c)
  unfold flitSend
  dsimp only
  generalize (if n = 6 then loadFrames c else c) = k at hload ⊢
  refine SameLife.after (.ite (sameLife_emit n _ k) (.ite (.refl k) ?_)) hload
  split
  · exact (sameLife_emit n _ _).after (sameLife_setLink_st n _ k)
  · exact (sameLife_emitSeq n _ _).after (sameLife_setLink_st n _ k)
  · exact sameLife_sendData n _ _ _ _ k
  · exact .ite (.refl k) (.ite ((sameLife_emit n _ _).after (sameLife_setLink_st n _ k)) (sameLife_emit n _ k))

theorem sameLife_parentCheck (c : Chip) : SameLife c (parentCheck c) := by
  unfold parentCheck
  refine .ite ?_ (.refl c)
  split
  · exact .of_eq rfl rfl rfl
  · exact .refl c
theorem sameLife_updLink_ctl (f : Link → Link) (c : Chip) : SameLife c (updLink 6 f c) := sameLife_setLink_ctl _ c
/-- The control link's state is no peer port's. -/
theorem sameLife_portState_ctl (st : Nat) (c : Chip) : SameLife c (portState 6 st c) := by
  unfold portState
  exact .ite (.refl c) ((sameLife_parentCheck _).after ((sameLife_irq _ _ _).after (sameLife_updLink_ctl _ c)))

theorem sameLife_startRetrain_ctl (lanes : Nat) (c : Chip) : SameLife c (startRetrain 6 lanes c) := by
  unfold startRetrain
  rw [if_neg (fun h => absurd h.1 (by decide))]
  exact (sameLife_ce _ _ _ _ _).after ((sameLife_portState_ctl _ _).after (sameLife_setLink_ctl _ c))
theorem sameLife_replayNow (n : Nat) (c : Chip) : SameLife c (replayNow n c) := by
  unfold replayNow
  refine .ite (.refl c) ((sameLife_ce _ _ _ _ _).after (.ite ?_ (sameLife_setLink_st n _ c)))
  exact (sameLife_setRg _ _ _).after (sameLife_setLink_st n _ c)
theorem sameLife_startReplay_ctl (c : Chip) : SameLife c (startReplay 6 c) := by
  unfold startReplay
  exact .ite (.refl c) (.ite (sameLife_startRetrain_ctl _ c) (sameLife_replayNow 6 c))
theorem sameLife_retryTimeout_ctl (c : Chip) : SameLife c (retryTimeout 6 c) := by
  unfold retryTimeout
  exact .ite (sameLife_startReplay_ctl c) (.refl c)

theorem sameLife_discard_ctl (t : Nat) (c : Chip) : SameLife c (discard 6 t c) := by
  unfold discard
  exact .ite ((sameLife_setRg _ _ _).after (sameLife_updLink_ctl _ c)) (sameLife_updLink_ctl _ c)
theorem sameLife_openPkt_ctl (cls vc : Nat) (d : List Byte) (c : Chip) : SameLife c (openPkt 6 cls vc d c) := by
  unfold openPkt
  rw [if_pos rfl]
  refine (sameLife_updLink_ctl _ _).after ?_
  split
  · exact sameLife_closePkt _ c
  · exact .refl c
theorem sameLife_frameHere (l : List Byte) (c : Chip) : SameLife c (frameHere l c) := by
  unfold frameHere countAuth
  refine .ite (.of_eq rfl rfl rfl) ?_
  exact (sameLife_ce _ _ _ _ _).after ((sameLife_irq _ _ _).after (sameLife_setRg _ _ c))
theorem sameLife_acceptData_ctl (h : Nat) (d : List Byte) (c : Chip) : SameLife c (acceptData 6 h d c) := by
  have hopen : SameLife c (if bit 7 h then openPkt 6 (fld 6 5 h) (fld 4 4 h) d c else c) :=
    .ite (sameLife_openPkt_ctl _ _ d c) (.refl c)
  unfold acceptData
  dsimp only
  generalize (if bit 7 h then openPkt 6 (fld 6 5 h) (fld 4 4 h) d c else c) = k at hopen ⊢
  refine SameLife.after ?_ hopen
  split
  · exact sameLife_updLink_ctl _ k
  · have hfree : ∀ f g, SameLife k (updLink 6 f (updLink 6 g k)) := fun _ _ =>
      (sameLife_updLink_ctl _ _).after (sameLife_updLink_ctl _ k)
    rw [if_pos rfl]
    exact .ite ((sameLife_frameHere _ _).after (hfree _ _)) (hfree _ _)
theorem sameLife_acceptCtl_ctl (h : Nat) (d : List Byte) (c : Chip) : SameLife c (acceptCtl 6 h d c) :=
  sameLife_updLink_ctl _ c
theorem sameLife_useAck_ctl (ack cr count : Nat) (c : Chip) : SameLife c (useAck 6 ack cr count c) :=
  sameLife_setLink_ctl _ c

/-- FLIT_RECEIVE on the control link, past the registers and markers that peer ports have. -/
theorem sameLife_flitReceive_ctl (l : List Byte) (bad : Bool) (u w : Nat) (c : Chip) :
    SameLife c (flitReceive 6 l bad u w c) := by
  unfold flitReceive
  simp only [show ¬ (6 < 6) by decide, false_and, if_false]
  have hack : ∀ a r n, SameLife c (useAck 6 a r n c) := fun _ _ _ => sameLife_useAck_ctl _ _ _ c
  refine .ite (.refl c) (.ite (sameLife_discard_ctl _ c) (.ite (hack _ _ _) ?_))
  refine .ite ((sameLife_startReplay_ctl _).after (hack _ _ _)) (.ite ?_ (.ite (.ite ?_ ?_) (.ite ?_ (.ite ?_ ?_))))
  · exact (sameLife_discard_ctl _ _).after (hack _ _ _)
  · exact (sameLife_acceptCtl_ctl _ _ _).after (hack _ _ _)
  · exact (sameLife_discard_ctl _ _).after (hack _ _ _)
  · exact (sameLife_acceptCtl_ctl _ _ _).after ((sameLife_updLink_ctl _ _).after (hack _ _ _))
  · exact (sameLife_acceptData_ctl _ _ _).after ((sameLife_updLink_ctl _ _).after (hack _ _ _))
  · exact (sameLife_updLink_ctl _ _).after (hack _ _ _)

/-! ### The control link's training, sessions and requests -/

theorem sameLife_stopTimers (c : Chip) : SameLife c (stopTimers c) := .of_eq rfl rfl rfl
theorem sameLife_suspend (c : Chip) : SameLife c (suspend c) := by
  unfold suspend
  exact .ite ((sameLife_irq _ _ _).after ((sameLife_mbp _ _).after (sameLife_stopTimers c))) (.refl c)
theorem sameLife_mboipTrain (tries : Nat) (c : Chip) : SameLife c (mboipTrain tries c) := by
  unfold mboipTrain
  exact (sameLife_portState_ctl _ _).after (sameLife_setLink_ctl _ c)
theorem sameLife_mboipDown (c : Chip) : SameLife c (mboipDown c) := by
  have hdown : SameLife c (suspend (portState 6 7 (c.setLink 6 { freshLink (c.link 6) with queue := [] }))) :=
    (sameLife_suspend _).after ((sameLife_portState_ctl _ _).after (sameLife_setLink_ctl _ c))
  exact (sameLife_mbp _ _).after hdown
theorem sameLife_mboipTryEnd (lanes : Nat) (c : Chip) : SameLife c (mboipTryEnd lanes c) := by
  have hup : ∀ x, SameLife c (portState 6 4 (c.setLink 6 x)) := fun x =>
    (sameLife_portState_ctl _ _).after (sameLife_setLink_ctl x c)
  have hback : ∀ x, SameLife c (replayNow 6 (portState 6 4 (c.setLink 6 x))) := fun x =>
    (sameLife_replayNow 6 _).after (hup x)
  unfold mboipTryEnd
  refine .ite (.refl c) (.ite (.ite (.ite (hback _) ((sameLife_suspend _).after (hback _))) (hup _)) ?_)
  exact .ite ((sameLife_mboipDown _).after (sameLife_setLink_ctl _ c)) (sameLife_setLink_ctl _ c)
theorem sameLife_mboipRetry (c : Chip) : SameLife c (mboipRetry c) := by
  unfold mboipRetry
  exact .ite (sameLife_mboipTrain _ c) (.refl c)

theorem sameLife_sessState (st : Nat) (c : Chip) : SameLife c (sessState st c) := by
  unfold sessState
  exact .ite (.refl c) ((sameLife_irq _ _ _).after (sameLife_updMbp _ c))
theorem sameLife_endSession (c : Chip) : SameLife c (endSession c) := by
  have hstop : SameLife c (if c.mbp.sess = 2 then stopTimers c else c) := .ite (sameLife_stopTimers c) (.refl c)
  have hclear : ∀ f, SameLife c (updMbp f (if c.mbp.sess = 2 then stopTimers c else c)) := fun _ =>
    (sameLife_updMbp _ _).after hstop
  unfold endSession
  exact .ite (hclear _) ((sameLife_sessState _ _).after (hclear _))
theorem sameLife_resumeTimeout (c : Chip) : SameLife c (resumeTimeout c) := by
  unfold resumeTimeout
  split
  · exact .ite (sameLife_endSession c) (.refl c)
  · exact .refl c
theorem sameLife_signReport (l : List Byte) (c : Chip) : SameLife c (signReport l c).1 := by
  dsimp only [signReport]
  exact sameLife_updSec _ c
theorem sameLife_attestReady (c : Chip) : SameLife c (attestReady c) := by
  unfold attestReady
  split
  · exact .refl c
  · have hsign : ∀ l f, SameLife c (updMbp f (signReport l c).1) := fun l _ =>
      (sameLife_updMbp _ _).after (sameLife_signReport l c)
    exact .ite ((sameLife_sendFrame _ _).after (hsign _ _)) (.refl c)

theorem sameLife_setQueue (q : Nat) (x : Queue) (c : Chip) : SameLife c (c.setQueue q x) := .of_eq rfl rfl rfl
theorem sameLife_cqPush (q kind status count cid detail : Nat) (data : List Nat) (c : Chip) :
    SameLife c (cqPush q kind status count cid detail data c) := by
  have hstore : ∀ a l x, SameLife c ((c.store a l).setQueue q x) := fun _ _ _ => .of_eq rfl rfl rfl
  unfold cqPush
  exact .ite ((sameLife_sendFrame _ _).after (hstore _ _ _)) (hstore _ _ _)
theorem sameLife_queueSettle (q : Nat) (c : Chip) : SameLife c (queueSettle q c) := by
  unfold queueSettle
  exact .ite (sameLife_setQueue _ _ c) (.refl c)
theorem sameLife_queueFlush (q n : Nat) (c : Chip) : SameLife c (queueFlush q n c) := by
  induction n generalizing c with
  | zero => exact .refl c
  | succ n ih =>
    unfold queueFlush
    dsimp only
    split
    next => exact sameLife_queueSettle q c
    next =>
      split
      next => exact .refl c
      next =>
        refine .ite ((ih _).after (sameLife_setQueue _ _ c)) (.ite ?_ (.refl c))
        exact (ih _).after ((sameLife_cqPush _ _ _ _ _ _ _ _).after (sameLife_setQueue _ _ c))
theorem sameLife_finish (q i status detail : Nat) (c : Chip) : SameLife c (finish q i status detail c) := by
  unfold finish updEntry
  exact (sameLife_queueFlush _ _ _).after (sameLife_setQueue _ _ c)
theorem sameLife_memFail (r : MemReq) (c : Chip) : SameLife c (memFail r c) := by
  unfold memFail
  dsimp only
  split
  · exact (sameLife_finish _ _ _ _ _).after (sameLife_updMbp _ c)
  · exact sameLife_updMbp _ c
theorem sameLife_memTimeout (tag : Nat) (c : Chip) : SameLife c (memTimeout tag c) := by
  unfold memTimeout
  split
  · exact .refl c
  · refine .ite (.refl c) (.ite ?_ ?_)
    · exact (ucOp_only _ _ _ _ _ _).sameLife.after (sameLife_memFail _ c)
    · exact (sameLife_sendFrame _ _).after (sameLife_updMbp _ c)

theorem sameLife_powerFailure (cause v : Nat) (c : Chip) : SameLife c (powerFailure cause v c) := by
  unfold powerFailure
  exact .ite (.refl c) ((logErr_only _ _).sameLife.after ((sameLife_irq _ _ _).after (sameLife_updPwr _ c)))
theorem sameLife_powerFail (v : Nat) (c : Chip) : SameLife c (powerFail v c) := by
  unfold powerFail
  exact .ite (sameLife_powerFailure _ _ c) (.refl c)
theorem sameLife_overvoltage (v : Nat) (c : Chip) : SameLife c (overvoltage v c) := by
  unfold overvoltage
  exact .ite (sameLife_powerFailure _ _ c) (.refl c)

/-! ### Resets of a module whose RETIRE fuse is burned -/

/-- The boot ROM finds the RETIRE fuse: it holds die reset, whatever image it was given (R416). -/
theorem boot_retire (loader : Bool) (h : c.otp.retire = true) :
    (boot loader c).phase = .retired ∧ (boot loader c).otp = c.otp ∧
      ∀ p < 6, ((boot loader c).link p).st = (c.link p).st := by
  have htrain : ∀ f, SameLife c (mboipTrain 1 (updSec f c)) := fun f =>
    (sameLife_mboipTrain 1 _).after (sameLife_updSec f c)
  unfold boot
  dsimp only
  rw [if_pos h]
  exact ⟨rfl, (htrain _).otp, (htrain _).ports⟩
theorem boot_dead (loader : Bool) (h : c.otp.retire = true) (hl : ∀ p < 6, (c.link p).st = 0) :
    (boot loader c).dead := by
  obtain ⟨hphase, hotp, hports⟩ := boot_retire loader h
  exact ⟨hotp ▸ h, .inr hphase, fun p hp => (hports p hp).trans (hl p hp)⟩
theorem moduleReset_dead (cause : Nat) (loader : Bool) (h : c.otp.retire = true) : (moduleReset cause loader c).dead :=
  boot_dead loader h fun _ _ => rfl
theorem powerOff_dead (h : c.otp.retire = true) : (powerOff c).dead := ⟨h, .inl rfl, fun _ _ => rfl⟩

/-- The chip that POWER_ON hands to the boot ROM: what flash, fuses and straps keep, and the input voltage. -/
def Chip.energised (vin : Nat) (c : Chip) : Chip :=
  { flash := c.flash, otp := c.otp, straps := c.straps, posId := c.straps % 2048, mst := !bit 11 c.straps
    draw := c.draw + 1, pwr := { vin := vin, vhold := vin, cap := (Config.freeWord c.draw).toNat % 4096 } }
/-- POWER_ON of a retired module is its boot: no start-up begins whose energy could be found low. -/
theorem powerOn_retire {vin : Nat} (h : c.otp.retire = true) (hoff : c.phase = .off) (hv : 6000 ≤ vin) :
    powerOn vin c = boot false (c.energised vin) := by
  have hphase : (boot false (c.energised vin)).phase = .retired := (boot_retire (c := c.energised vin) false h).1
  unfold powerOn
  rw [if_pos ⟨hoff, hv⟩]
  exact if_neg fun hs => absurd (hphase.symm.trans hs.1) (by decide)

/-! ### Operations that keep a module dead -/

/-- Run on a dead module, the operation leaves it dead. -/
def KeepsDead (f : Chip → Chip) : Prop := ∀ c : Chip, c.dead → (f c).dead

theorem Chip.dead.not_on (h : c.dead) : ¬ c.isOn := by
  obtain ⟨-, hphase | hphase, -⟩ := h <;> simp [hphase]
theorem keepsDead_of_sameLife {f : Chip → Chip} (h : ∀ c, SameLife c (f c)) : KeepsDead f := fun c => (h c).dead
/-- An operation that does nothing while the module is not on. -/
theorem keepsDead_of_idle {f : Chip → Chip} (h : ∀ c : Chip, ¬ c.isOn → f c = c) : KeepsDead f := fun c hd => by
  rw [h c hd.not_on]
  exact hd

theorem keepsDead_live (f : Chip → Chip) : KeepsDead (live f) := keepsDead_of_idle fun _ h => if_neg h
theorem keepsDead_run (f : Chip → Chip) : KeepsDead (run f) :=
  keepsDead_of_idle fun _ h => if_neg fun hr => h (.inl hr.1)
theorem keepsDead_work (f : Chip → Chip) : KeepsDead (work f) :=
  keepsDead_of_idle fun _ h => if_neg fun hr => h (.inl hr.1)
theorem keepsDead_coreCmd (n : Nat) (f : Chip → Chip) : KeepsDead (coreCmd n f) := keepsDead_work _
theorem keepsDead_gated (b : Blk) (a v : Nat) (f : Chip → Chip) : KeepsDead (gated b a v f) := keepsDead_live _

/-- The operation where a condition holds, and nothing elsewhere. -/
theorem KeepsDead.onlyIf {f : Chip → Chip} (h : KeepsDead f) (P : Chip → Prop) [DecidablePred P] :
    KeepsDead (fun c => if P c then f c else c) := fun c hd => by
  dsimp only
  split
  · exact h c hd
  · exact hd
/-- The operation where a condition fails, and nothing elsewhere. -/
theorem KeepsDead.unless {f : Chip → Chip} (h : KeepsDead f) (P : Chip → Prop) [DecidablePred P] :
    KeepsDead (fun c => if P c then c else f c) := fun c hd => by
  dsimp only
  split
  · exact hd
  · exact h c hd
theorem KeepsDead.awake {f : Chip → Chip} (h : KeepsDead f) : KeepsDead (awake f) := h.unless _

/-- A dead module takes no frame but HELLO, and answers that with SESSION_END (R416). -/
theorem keepsDead_onFrame (t : Nat) (f : Frame) (go : Chip → Chip) : KeepsDead (onFrame t f go) := fun c hd => by
  unfold onFrame
  split
  next => exact hd
  next htake =>
    rw [not_or] at htake
    have hretired : c.phase = .retired := hd.2.1.resolve_left fun hoff => htake.2 (by simp [takesFrames, hoff])
    rw [if_pos hretired]
    exact ((sameLife_sendFrame _ _).after (sameLife_updMbp _ c)).dead hd
theorem keepsDead_onRequest (t : Nat) (f : Frame) (go : Chip → Chip) : KeepsDead (onRequest t f go) :=
  keepsDead_onFrame _ _ _
theorem keepsDead_attestReq (f : Frame) : KeepsDead (attestReq f) := (keepsDead_onFrame _ _ _).unless _
theorem keepsDead_recoveryChunk (f : Frame) : KeepsDead (recoveryChunk f) := (keepsDead_onFrame _ _ _).unless _
theorem keepsDead_recoveryCommit (f : Frame) (sigOk programOk : Bool) : KeepsDead (recoveryCommit f sigOk programOk) :=
  (keepsDead_onFrame _ _ _).unless _

/-- An operation on a link: on a port that carries nothing it does nothing, and a dead module's ports carry nothing; on
the control link it keeps the module's life. -/
theorem keepsDead_link (n : LinkId) {f : Nat → Chip → Chip}
    (hport : ∀ p c, carriesCtl p (c.link p).st = false → f p c = c) (hctl : ∀ c, SameLife c (f 6 c)) :
    KeepsDead (f n) := fun c hd => by
  obtain h | h : n.val < 6 ∨ n.val = 6 := by have := n.isLt; omega
  · rw [hport n.val c (by simp [carriesCtl, h, hd.2.2 n.val h])]
    exact hd
  · rw [h]
    exact (hctl c).dead hd
theorem retryTimeout_silent (p : Nat) (c : Chip) (h : carriesCtl p (c.link p).st = false) : retryTimeout p c = c :=
  if_neg fun hr => by simp [h] at hr
theorem flitReceive_silent (l : List Byte) (bad : Bool) (u w p : Nat) (c : Chip)
    (h : carriesCtl p (c.link p).st = false) : flitReceive p l bad u w c = c := if_pos (by simp [h])

theorem keepsDead_vinReturn (v : Nat) : KeepsDead (vinReturn v) :=
  KeepsDead.onlyIf (f := fun c => moduleReset 5 false (updPwr (fun p => { p with vin := v, vhold := v }) c))
    (fun _ hd => moduleReset_dead _ _ hd.1) _
theorem keepsDead_holdupOut (v : Nat) : KeepsDead (holdupOut v) :=
  KeepsDead.onlyIf (f := powerOff) (fun _ hd => powerOff_dead hd.1) _
theorem keepsDead_powerOn (v : Nat) : KeepsDead (powerOn v) := fun c hd => by
  by_cases hon : c.phase = .off ∧ 6000 ≤ v
  · rw [powerOn_retire hd.1 hon.1 hon.2]
    exact boot_dead _ hd.1 fun _ _ => rfl
  · rw [powerOn, if_neg hon]
    exact hd

theorem startingUp_of_not_on (h : ¬ c.isOn) : c.startingUp = false := by
  rw [Chip.startingUp, Bool.and_eq_false_iff]
  exact .inl (by simpa using fun hs => h (.inr hs))
theorem keepsDead_coreSelfTest (l : List Nat) : KeepsDead (coreSelfTest l) := keepsDead_of_idle fun c h => by
  simp [coreSelfTest, startingUp_of_not_on h]
theorem keepsDead_gddrTrained (ok : Bool) : KeepsDead (gddrTrained ok) := keepsDead_of_idle fun c h => by
  simp [gddrTrained, startingUp_of_not_on h]
theorem keepsDead_ready (r o f : Bool) : KeepsDead (ready r o f) := keepsDead_of_idle fun c h => by
  simp [ready, startingUp_of_not_on h]
/-- A dead module is not in the loader, whose deferred commit the retry programs. -/
theorem keepsDead_deferRetry (v : Nat) : KeepsDead (deferRetry v) := fun c hd => by
  have hphase : c.phase ≠ .loader := by obtain ⟨-, h | h, -⟩ := hd <;> simp [h]
  rw [deferRetry, if_neg hphase]
  exact keepsDead_live _ c hd

/-! ### Every command -/

/-- Every command is an operation on the module that keeps it dead: it needs a module that is on, or it works on the
control link, or it resets the module. -/
theorem exec_keepsDead (i : Instr) : ∃ f, (∀ s, exec i s = act f s) ∧ KeepsDead f := by
  cases i with
  | registerWrite | pairLowRead | pairHighWrite | softReset | wipeReq | wipeDone | blockEnable | blkLock | errInj
  | sfuFlipArm | thrFlipArm | portTrain | portAdmit | portRefuse | markDown | trainTryEnd | laneLockLoss
  | lightReturn | identSend | ident | admitMsg | leave | rtFlipArm | rtCopy | rtDisarm | beatPoint | linkMeasure
  | masterElection | cadenceLock | holdoverEntry | lostEntry | overrideTakeover | evtArm | evtRead | evtCancel
  | eventTableFire | feReset | errorLogCommit | cxlDeviceAdd | cxlSurpriseRemoval | sanitizeComplete | qEnable
  | qReset | lifecycleReset | vinBandEntry | flashDeferExpire | emergencyTrigger | ocAvgStep | triggerClear
  | emergencyReturn | trip | planLevelWrite | rstCmd | ddEnter | drydownEntryComplete | ddExit | drydownWake
  | drydownExitComplete | imgUpdate | imageUpdateComplete | loaderReq | ctrInc | extCmd | monitorSample
  | voltageStep | laserStep | ageingCheckpoint | romonWatchdog | refuseMsg | tripCooledReset =>
    exact ⟨_, fun _ => rfl, keepsDead_live _⟩
  | workMapApply | sfuFlip | bind | bindComplete | bindTimeout | park | parkComplete | release | releaseComplete
  | resume | clearFault | appendRow | pageSeal | reserveRefill | reserveSlackExpire | publicationArm
  | publicationBuildDone | publicationSwap | pubDisarm | quarantineRelease | thrFlip | rtFlip | memoryAccess
  | regionSeal | regionHome | regionCopy2 | frameCopyComplete | eviction | promotion | gmcScrub | refreshWindow
  | loanOfferCmd | loanReclaimCmd | loanReturnCmd | loanOffer | loanAccept | loanDecline | reclaim | vacateComplete
  | vacated | loanEnd | reclaimDeadline | rread | rdata | rwrite | rseal | rfree | gread | rerr
  | loanRequestTimeout | pfGo | pfStop | prefetchIssue | prefetchLate | prefetchDrop | refetchTimeout | cxlOnline
  | cxlDrain | cxlOffline | nop | pull | push | queueSignal | writeWords | queueSlotCmd | regBatch | refetchFill
  | lcTransition | masterOverride | svnCommit | logCopy | windowArm | windowStart | winGo | winCancel | windowDone =>
    exact ⟨_, fun _ => rfl, keepsDead_run _⟩
  | scalePlanRoll | sfuLoadComplete | form | join | joinResend | joinHoldExpire | formMessage | go | formTimeout
  | ringDisband | disbandMessage | disbandComplete | plan | planMessage | restart | stepStart | stepDone
  | doneMessage | stallTimeout | blockHdr | blockData | querySend | query | partialHandoff | partialMsg | result
  | extend | collArm | collDisarm | collectiveStart | chunkSend | data | reduceReady | mdata | rpart | collReplay
  | rack | repair | detach | detachTimeout | voteSend | vote | abortReq | commit | abort | runTimeout | runFail =>
    exact ⟨_, fun _ => rfl, keepsDead_work _⟩
  | todIssue | todHoldRelease | metaFault | todPoison | outputTileDrain | completionRecord | atBeatLaunch
  | listDone | loop | wait | waitComplete | waitTimeout | signal | fetchInc | fetchIncGrant | branchFlag | beatWait
  | beatWaitRelease | leaseRetire | leaseExpire | stagingFill | leaseWriteback | carouselUnitLand =>
    exact ⟨_, fun _ => rfl, keepsDead_coreCmd _ _⟩
  | listStart | listStop | wcDisarm | sfuLoad | sfuDisarm | thrDisarm =>
    exact ⟨_, fun _ => rfl, keepsDead_gated _ _ _ _⟩
  | time | hello | keyx | resumeFrame | rekey | sessionEnd | eventAck | resp =>
    exact ⟨_, fun _ => rfl, keepsDead_onFrame _ _ _⟩
  | regRead | regWriteFrame | dmaRd | dmaWr | sqWrite | cqAck =>
    exact ⟨_, fun _ => rfl, keepsDead_onRequest _ _ _⟩
  | attestReq f => exact ⟨_, fun _ => rfl, keepsDead_attestReq f⟩
  | recoveryChunk f => exact ⟨_, fun _ => rfl, keepsDead_recoveryChunk f⟩
  | recoveryCommit f a b => exact ⟨_, fun _ => rfl, keepsDead_recoveryCommit f a b⟩
  | flitSend n => exact ⟨_, fun _ => rfl, (keepsDead_of_sameLife (sameLife_flitSend n)).awake⟩
  | flitReceive n l bad fec =>
    exact ⟨_, fun _ => rfl, (keepsDead_link n (flitReceive_silent l bad _ _) (sameLife_flitReceive_ctl l bad _ _)).awake⟩
  | retryTimeout n => exact ⟨_, fun _ => rfl, (keepsDead_link n retryTimeout_silent sameLife_retryTimeout_ctl).awake⟩
  | attestReportReady => exact ⟨_, fun _ => rfl, (keepsDead_of_sameLife sameLife_attestReady).awake⟩
  | memTimeout tag => exact ⟨_, fun _ => rfl, (keepsDead_of_sameLife (sameLife_memTimeout tag)).awake⟩
  | resumeTimeout => exact ⟨_, fun _ => rfl, (keepsDead_of_sameLife sameLife_resumeTimeout).awake⟩
  | mboipTrainTryEnd lanes => exact ⟨_, fun _ => rfl, (keepsDead_of_sameLife (sameLife_mboipTryEnd _)).awake⟩
  | mboipRetryTimer => exact ⟨_, fun _ => rfl, (keepsDead_of_sameLife sameLife_mboipRetry).awake⟩
  | powerFail v => exact ⟨_, fun _ => rfl, (keepsDead_of_sameLife (sameLife_powerFail v)).awake⟩
  | overvoltage v => exact ⟨_, fun _ => rfl, (keepsDead_of_sameLife (sameLife_overvoltage v)).awake⟩
  | senseNOpen => exact ⟨_, fun _ => rfl, (keepsDead_of_sameLife fun c => sameLife_powerFailure 9 _ c).awake⟩
  | vinReturn v => exact ⟨_, fun _ => rfl, (keepsDead_vinReturn v).awake⟩
  | holdupExhausted v => exact ⟨_, fun _ => rfl, (keepsDead_holdupOut v).awake⟩
  | powerOn v => exact ⟨_, fun _ => rfl, keepsDead_powerOn v⟩
  | coreSelfTest l => exact ⟨_, fun _ => rfl, keepsDead_coreSelfTest _⟩
  | gddr7TrainingDone ok => exact ⟨_, fun _ => rfl, keepsDead_gddrTrained ok⟩
  | ready r o f => exact ⟨_, fun _ => rfl, keepsDead_ready r o f⟩
  | flashDeferRetry v => exact ⟨_, fun _ => rfl, keepsDead_deferRetry v⟩

/-- A step of a dead module is no command, or one that keeps it dead. -/
theorem step_dead {s t : State} (hd : s.chip.dead) (ht : step s = .next t) : t.chip.dead := by
  unfold step at ht
  split at ht
  next => exact Host.Outcome.next.inj ht ▸ hd
  next i rest _ =>
    obtain ⟨f, hexec, hf⟩ := exec_keepsDead i
    rw [hexec] at ht
    exact Host.Outcome.next.inj ht ▸ hf _ hd

end Sys2Proof.Machine
end

section
namespace Sys2Proof.Machine

/-- Settles O7: the step is one of the commands above, and POWER_ON of a retired module is its boot, which ends in die
reset. -/
theorem retiredStays : Obligations.RetiredStays := by
  unfold Obligations.RetiredStays
  refine ⟨fun s t => step_dead, fun s v hretire hoff hv => does_act (f := powerOn v) rfl ?_⟩
  rw [powerOn_retire hretire hoff hv]
  obtain ⟨hphase, hotp, hports⟩ := boot_retire (c := s.chip.energised v) false hretire
  exact ⟨hphase, hports, by rw [Chip.lc, hotp]; exact if_pos hretire⟩

end Sys2Proof.Machine
end

section
/-! The block as a whole: how a step takes its command, the state at reset, and what a store leaves in memory. -/

namespace Sys2Proof.Machine

/-! ### Commands and the queue -/

/-- Every command is an operation on the module. -/
theorem exec_eq_act (i : Instr) (s : State) : ∃ f, exec i s = act f s :=
  let ⟨f, hf, _⟩ := exec_keepsDead i
  ⟨f, hf s⟩

/-- Settles O1: `step` takes the command apart from the queue, and idles on an empty one. -/
theorem frontOfQueue : Obligations.FrontOfQueue := by
  unfold Obligations.FrontOfQueue
  exact ⟨fun _ _ _ => rfl, fun s hs => by rw [step, hs]⟩

/-- Settles O2: a command is an operation on the module, and such an operation leaves the queue alone. -/
theorem everyCommandAnswers : Obligations.EveryCommandAnswers := by
  unfold Obligations.EveryCommandAnswers
  intro i s
  obtain ⟨f, hf⟩ := exec_eq_act i s
  exact ⟨_, hf, rfl⟩

/-! ### The state at reset -/

/-- A register of the window that has a row reads the row's reset value where nothing has been written. -/
theorem regReset_of_row {a : Nat} {r : RegRow} (ha : a < windowSize) (hr : regRow a = some r) :
    regReset a = BitVec.ofNat 32 r.reset := by
  rw [regReset, Nat.mod_eq_of_lt (show a < 0x4000000 from ha), hr]

/-- Settles O3: State.reset is the record of its defaults. -/
theorem resetState : Obligations.ResetState := by
  unfold Obligations.ResetState
  refine ⟨rfl, rfl, rfl, rfl, fun a r ha hr => ?_, fun _ => rfl, fun _ => rfl, fun _ => rfl, fun _ => rfl, fun _ => rfl,
    fun _ => rfl, rfl, rfl, rfl, rfl, rfl⟩
  rw [Chip.rg, show State.reset.chip.regs = [] from rfl, Tab.get_nil, regReset_of_row ha hr, BitVec.toNat_ofNat]

/-- Settles O4: the tables of State.reset are empty and no port is up, whatever the fuses. -/
theorem resetInvariant : Obligations.ResetInvariant := by
  unfold Obligations.ResetInvariant
  exact ⟨rfl, rfl, rfl, .inl rfl, fun _ _ => rfl⟩

/-! ### Stores -/

/-- Little-endian bytes spell the number back. -/
theorem leNat_leBytes (n v : Nat) : leNat (leBytes n v) = v % 2 ^ (8 * n) := by
  induction n generalizing v with
  | zero => simp [leBytes, leNat, Nat.mod_one]
  | succ n ih =>
    rw [leBytes, leNat, ih, BitVec.toNat_ofNat, Nat.mul_succ, Nat.add_comm (8 * n) 8, Nat.pow_add,
      show (2 : Nat) ^ 8 = 256 from rfl, Nat.mod_mul]

theorem bytes_store_same (k : Chip) (a : Nat) (l : List Byte) : (k.store a l).bytes a l.length = l := by
  refine List.ext_getElem (by simp [Chip.bytes, Tab.getList]) fun i hi hl => ?_
  have hb := k.store_byteAt a l (a + i)
  rw [if_pos ⟨Nat.le_add_right a i, Nat.add_lt_add_left hl a⟩, Nat.add_sub_cancel_left, List.getD_eq_getElem _ _ hl] at hb
  simpa [Chip.bytes, Tab.getList, Chip.byteAt] using hb

theorem le_storeLe_same (k : Chip) (a n v : Nat) : (k.storeLe a n v).le a n = v % 2 ^ (8 * n) := by
  have hb := bytes_store_same k a (leBytes n v)
  rw [leBytes_length] at hb
  rw [Chip.le, Chip.storeLe, hb, leNat_leBytes]

/-- Settles O5. -/
theorem memoryStores : Obligations.MemoryStores := by
  unfold Obligations.MemoryStores
  exact ⟨fun k => k.store_byteAt, le_storeLe_same, fun k a l => Chip.store_wf k a l⟩

end Sys2Proof.Machine
end

section
/-! Cores: when a command of a core launches nothing behind it, what an entry of a running list does, and the issue of a
tile operation descriptor (R68, R73, R98). -/

namespace Sys2Proof.Machine

variable {c : Chip} {n : Nat}

/-! ### Commands of a core -/

/-- A list that is neither IDLE nor FAULTED lets no waiting launch follow. -/
theorem launchPending_busy (h0 : (c.core n).st ≠ 0) (h4 : (c.core n).st ≠ 4) : launchPending n c = c := by
  simp [launchPending, h0, h4]

/-- A command after which the core's list is neither IDLE nor FAULTED is its operation. -/
theorem does_core_busy {i : Instr} {s : State} {f : Chip → Chip} {P : Chip → Prop} (n : Nat)
    (h : exec i s = act (coreCmd n f) s) (hc : s.chip.isPowered) (h0 : ((f s.chip).core n).st ≠ 0)
    (h4 : ((f s.chip).core n).st ≠ 4) (hp : P (f s.chip)) : Does i s P :=
  does_work h hc (by rw [launchPending_busy h0 h4]; exact hp)

/-- A command that leaves the core as it says is its operation: no launch follows a list in another state. -/
theorem does_core_eq {i : Instr} {s : State} {f : Chip → Chip} {P : Chip → Prop} {k : Chip} (n : Nat)
    (h : exec i s = act (coreCmd n f) s) (hc : s.chip.isPowered) (hk : f s.chip = k) (h0 : (k.core n).st ≠ 0)
    (h4 : (k.core n).st ≠ 4) (hp : P k) : Does i s P :=
  does_core_busy n h hc (hk ▸ h0) (hk ▸ h4) (hk ▸ hp)

/-- The entry at which a running list stands is acted on when it has the opcode asked for. -/
theorem withEntry_at {t : List Nat} {want : Nat → Bool} {f : List Nat → Chip → Chip} (h : c.atEntry n t)
    (hw : want (tOp t) = true) : withEntry n want f c = f t c := by
  obtain ⟨-, hst, hstop, hpc, hruns, -, hentry⟩ := h
  have hgo : ¬ ((c.core n).st ≠ 1 ∨ (c.core n).stopping = true ∨ c.listLen n ≤ (c.core n).pc ∨
      ((c.core n).runs.any fun r => decide (16 ≤ r.status)) = true) := by
    simp only [hst, hstop, List.any_eq_true, decide_eq_true_eq, not_or, not_exists, not_and]
    exact ⟨by simp, by simp, by omega, fun r hr => by have := hruns r hr; omega⟩
  unfold withEntry
  dsimp only
  rw [if_neg hgo]
  cases he : listEntry c n with
  | error e => simp [he, Except.toOption] at hentry
  | ok u =>
    obtain rfl : u = t := by simpa [he, Except.toOption] using hentry
    exact if_pos hw

/-! ### Issue -/

/-- No operand of a module without poison is poisoned. -/
theorem poisonAw_clean (wins : List (Nat × Nat × Nat)) (aw off len : Nat) (h : c.poison = []) :
    poisonAw c n wins aw off len = none := if_pos h

/-- A reserved bit of word 0 is the first decode check (R68). -/
theorem issueFault_reserved {t p : List Nat} (hp : c.poison = []) (h : wd t 0 / 2 ^ 30 % 4 ≠ 0) :
    issueFault c n t p = some (0x10, 0, wd t 0) := by
  have hd : decodeBad t p = some (0, wd t 0) := by
    have hb : (fld 31 30 (wd t 0) != 0) = true := by simpa [fld] using h
    simp [decodeBad, firstBad, hb]
  simp [issueFault, poisonAw_clean _ _ _ _ hp, issueBad, hd]

/-- The run of a TOD that has failed a check at issue, with the status, offset and value of the check. -/
def failedIssue (c : Chip) (n : Nat) (t : List Nat) (f : Nat × Nat × Nat) : TodRun :=
  { tod := t, par := readPar c n t, ended := true, status := f.1, faultOfs := f.2.1, faultVal := f.2.2
    issueNow := c.cad.now, lease := (c.core n).lease }

theorem todIssue_pass {t : List Nat} (h : c.atEntry n t) (hop : isTodOp (tOp t) = true)
    (hok : issueFault c n t (readPar c n t) = none) :
    todIssue n c = c.setCore n { c.core n with
      st := 3, runs := (c.core n).runs ++ [{ tod := t, par := readPar c n t, issueNow := c.cad.now }] } := by
  rw [todIssue, withEntry_at h hop]
  simp [hok]
theorem todIssue_fail {t : List Nat} {f : Nat × Nat × Nat} (h : c.atEntry n t) (hop : isTodOp (tOp t) = true)
    (hbad : issueFault c n t (readPar c n t) = some f) :
    todIssue n c = c.setCore n { c.core n with
      pred := none, runs := (c.core n).runs ++ [failedIssue c n t f] } := by
  rw [todIssue, withEntry_at h hop]
  simp [hbad, failedIssue]

/-- TOD_ISSUE of a descriptor that fails a check. -/
theorem does_todIssue_fail {s : State} {m : CoreId} {t : List Nat} {f : Nat × Nat × Nat} (h : s.chip.atEntry m t)
    (hop : isTodOp (tOp t) = true) (hbad : issueFault s.chip m t (readPar s.chip m t) = some f) :
    Does (.todIssue m) s (fun c =>
      ∃ r : TodRun, r.ended = true ∧ r.status = f.1 ∧ r.faultOfs = f.2.1 ∧ r.faultVal = f.2.2 ∧ r.tod = t ∧
      c = s.chip.setCore m { s.chip.core m with pred := none, runs := (s.chip.core m).runs ++ [r] }) :=
  does_core_eq m rfl h.1 (todIssue_fail h hop hbad) (by simp [h.2.1]) (by simp [h.2.1])
    ⟨failedIssue s.chip m t f, rfl, rfl, rfl, rfl, rfl, rfl⟩

/-- Settles O14: a running list issues the TOD at its entry, and the reserved bits of word 0 are the first check. -/
theorem todIssueObligation : Obligations.TodIssue := by
  unfold Obligations.TodIssue
  refine ⟨?pass, ?fail, ?reserved⟩
  case pass =>
    intro s n t h hop hok
    exact does_core_eq n rfl h.1 (todIssue_pass h hop hok) (by simp) (by simp) rfl
  case fail => exact fun s n t st ofs val h hop hbad => does_todIssue_fail h hop hbad
  case reserved =>
    intro s n t h hop hp hres
    obtain ⟨u, hexec, hpend, r, hended, hst, hofs, hval, -, hc⟩ := does_todIssue_fail h hop (issueFault_reserved hp hres)
    exact ⟨u, hexec, hpend, r, hended, hst, hofs, hval, hc⟩

end Sys2Proof.Machine
end

section
/-! A walk that meets poison while its page walk unit shows an earlier UC: the UC of the walk escalates to an FE, which
sheds compute (R427, R428). -/

namespace Sys2Proof.Machine

/-- What a command is said to do holds of its operation. -/
theorem of_does_core {i : Instr} {s : State} {f : Chip → Chip} {P : Chip → Prop} (n : Nat)
    (h : exec i s = act (coreCmd n f) s) (hc : s.chip.isPowered) (hd : Does i s P) : P (launchPending n (f s.chip)) := by
  obtain ⟨t, hexec, -, hp⟩ := hd
  rw [h] at hexec
  obtain rfl := Host.Outcome.next.inj hexec
  rwa [coreCmd, work_powered _ hc] at hp

/-- An ATTN run of slot 0 whose first page, at 0x1000, is still to be read. -/
def walkingRun : TodRun :=
  { tod := [4, 0xA00A, 0x10001, 0, 0x10001, 0, 0, 0, 0, 0x1000, 0, 0, 0, 0, 0, 0], begun := true, mb := 1, nb := 1, kb := 1
    walk := some { root := 0x1000, len := 64, desc := [0, 0, 0x05500101, 1, 1, 64, 0x1000, 0, 0, 1, 0x1800, 0] } }
/-- The module with that run on core 0, poison at 0x1000, and a UC uncleared on page walk unit 0. -/
def walkingChip : Chip :=
  (({ phase := .running, pwr := { st := 1 } : Chip }.mark 0x1000 8).setRg (ra (pgPwu 0) 0x10) 4).setCore 0
    { st := 1, runs := [walkingRun] }

/-- Page 0 of the walk cannot be read, and the fault is the unit's own (offset 0x1C, R172). -/
theorem walkStop_walkingChip :
    ((walkStop walkingChip 0 walkingRun).map (·.1)) = some (.poison 0x1C 0 none true) := by decide +kernel
/-- The FE has stopped the core: no run is left. -/
theorem todPoison_walkingChip : ((launchPending 0 (todPoison 0 walkingChip)).core 0).runs = [] := by decide +kernel

/-- Refutes O16: its third clause has no premise on the page's errors. In `walkingChip` the UC of the walk becomes an FE,
which stops every core, so no run is left where the clause says that the run stands ended. -/
theorem not_todFaults : ¬ Obligations.TodFaults := by
  unfold Obligations.TodFaults
  rintro ⟨-, -, h⟩
  obtain ⟨⟨b, w⟩, hstop, hb⟩ := Option.map_eq_some_iff.mp walkStop_walkingChip
  obtain rfl : b = .poison 0x1C 0 none true := hb
  have hdoes := h { pending := [], chip := walkingChip } 0 [] walkingRun [] _ _ _ _ w (by decide +kernel) (by decide +kernel) hstop
  obtain ⟨hruns, -⟩ := of_does_core 0 rfl (show walkingChip.isPowered by decide +kernel) hdoes
  exact absurd (hruns.symm.trans todPoison_walkingChip) (by simp)

end Sys2Proof.Machine
end

section
/-! Going on in a list, and a TOD that begins: what its stores can change, and its core (R73, R74, R76, R79, R101). -/

namespace Sys2Proof.Machine

variable {c k : Chip} {n : Nat}

/-! ### Going on to another entry -/

theorem goTo_core_same (n pc : Nat) (c : Chip) :
    (goTo n pc c).core n =
      { c.core n with loops := (advance (c.core n).loops pc).1, pc := (advance (c.core n).loops pc).2.1 } := by
  unfold goTo
  dsimp only
  split
  · exact Chip.setCore_core_same _ _ _
  · exact Chip.setCore_core_same _ _ _
theorem goTo_core_other (pc : Nat) (c : Chip) {m : Nat} (h : m ≠ n) : (goTo n pc c).core m = c.core m := by
  have hset : ∀ x, (c.setCore n x).core m = c.core m := fun x => by rw [Chip.setCore_core, if_neg h]
  unfold goTo
  dsimp only
  split
  · exact hset _
  · exact hset _
@[simp] theorem goTo_mem (n pc : Nat) (c : Chip) : (goTo n pc c).mem = c.mem := by
  unfold goTo
  dsimp only
  split <;> rfl
/-- An index that a body's end advances is written to its register. -/
theorem goTo_sq {n pc q i : Nat} {c : Chip} (h : (advance (c.core n).loops pc).2.2 = some (q, i)) :
    (goTo n pc c).sq n q = i % 2 ^ 32 := by
  unfold goTo
  dsimp only
  rw [h]
  exact Chip.setRg_rg_same _ _ _
/-- No register but a sequencer register of the core changes. -/
theorem goTo_rg (n pc : Nat) (c : Chip) {a : Nat} (h : ∀ q ∈ (c.core n).loops, ∀ i ∈ q.reg, a ≠ coreReg n (0x140 + 4 * i)) :
    (goTo n pc c).rg a = c.rg a := by
  have hadv : ∀ (l : List LoopFrame) p q i, (advance l p).2.2 = some (q, i) → ∃ f ∈ l, q ∈ f.reg := by
    intro l
    induction l with
    | nil => simp [advance]
    | cons f r ih =>
      intro p q i ha
      unfold advance at ha
      split_ifs at ha
      · obtain ⟨j, hj, hq⟩ := Option.map_eq_some_iff.mp ha
        obtain ⟨rfl, -⟩ := Prod.mk.inj hq
        exact ⟨f, by simp, hj⟩
      · obtain ⟨g, hg, hq⟩ := ih p q i ha
        exact ⟨g, by simp [hg], hq⟩
  unfold goTo
  dsimp only
  split
  next q i ha =>
    obtain ⟨f, hf, hq⟩ := hadv _ _ _ _ ha
    exact Chip.setRg_rg_other _ _ _ _ (h f hf q hq)
  next => rfl

/-- The list of a core that runs, with the loops it had, goes on. -/
theorem goesOn_goTo {o : Chip} (hst : (c.core n).st = 1) (hl : (c.core n).loops = (o.core n).loops) :
    o.goesOn (goTo n ((o.core n).pc + 1) c) n := by
  unfold Chip.goesOn
  rw [← hl, goTo_core_same]
  exact ⟨hst, rfl, rfl, fun q i h => goTo_sq h⟩

theorem goTo_busy (pc : Nat) (hst : (c.core n).st = 1) : ((goTo n pc c).core n).st = 1 := by
  rw [goTo_core_same]; exact hst

/-! ### Operations that store only -/

/-- Only stored memory and its poison marks differ. -/
def OnlyStore (c k : Chip) : Prop := ∃ m p, k = { c with mem := m, poison := p }

theorem OnlyStore.refl (c : Chip) : OnlyStore c c := ⟨c.mem, c.poison, rfl⟩
/-- Transitivity, the later operation first. -/
theorem OnlyStore.after {a b d : Chip} (g : OnlyStore b d) (h : OnlyStore a b) : OnlyStore a d := by
  obtain ⟨m, p, rfl⟩ := h; obtain ⟨m', p', rfl⟩ := g; exact ⟨m', p', rfl⟩
theorem OnlyStore.ite {a b : Chip} {P : Prop} [Decidable P] (ha : OnlyStore c a) (hb : OnlyStore c b) :
    OnlyStore c (if P then a else b) := by
  split
  · exact ha
  · exact hb
theorem OnlyStore.foldl {α : Type} {f : Chip → α → Chip} (h : ∀ k x, OnlyStore k (f k x)) (l : List α) (c : Chip) :
    OnlyStore c (l.foldl f c) := by
  induction l generalizing c with
  | nil => exact .refl c
  | cons x l ih => exact (ih _).after (h c x)
theorem OnlyStore.forEach {f : Nat → Chip → Chip} (h : ∀ n k, OnlyStore k (f n k)) (l : List Nat) (c : Chip) :
    OnlyStore c (forEach l f c) := .foldl (fun k n => h n k) l c

theorem OnlyStore.core (h : OnlyStore c k) (m : Nat) : k.core m = c.core m := by obtain ⟨_, _, rfl⟩ := h; rfl
theorem OnlyStore.rg (h : OnlyStore c k) (a : Nat) : k.rg a = c.rg a := by obtain ⟨_, _, rfl⟩ := h; rfl

theorem store_onlyStore (a : Nat) (l : List Byte) (c : Chip) : OnlyStore c (c.store a l) := ⟨_, _, rfl⟩
theorem storeLe_onlyStore (a w v : Nat) (c : Chip) : OnlyStore c (c.storeLe a w v) := store_onlyStore _ _ _
theorem putAw_onlyStore (n : Nat) (r : TodRun) (aw off : Nat) (l : List Byte) (c : Chip) :
    OnlyStore c (putAw n r aw off l c) := by
  unfold putAw
  exact .ite (.refl c) (.ite (.refl c) (.ite (store_onlyStore _ _ c) (.foldl (fun k _ => store_onlyStore _ _ k) _ c)))
theorem putStat_onlyStore (n : Nat) (r : TodRun) (m : Nat) (e : RStat) (c : Chip) : OnlyStore c (putStat n r m e c) :=
  putAw_onlyStore _ _ _ _ _ c
theorem setFinal_onlyStore (n : Nat) (r : TodRun) (c : Chip) : OnlyStore c (setFinal n r c) := by
  unfold setFinal
  exact .ite (putAw_onlyStore _ _ _ _ _ c) (.refl c)
theorem emptyWrites_onlyStore (n : Nat) (r : TodRun) (c : Chip) : OnlyStore c (emptyWrites n r c) := by
  have hrows : OnlyStore c (if tRowop r.tod = 0 then c else
      setFinal n r (Machine.forEach (List.range r.mb) (fun m k =>
        let e := if tRstatCont r.tod then statOf (rdAw k n r.windows (pRstatOut r.par)) m else idStat (tRowop r.tod)
        if tRstatCont r.tod && !tRstatFin r.tod then k else putStat n r m e k) c)) :=
    .ite (.refl c) ((setFinal_onlyStore n r _).after
      (.forEach (fun m k => .ite (.refl k) (putStat_onlyStore n r m _ k)) _ c))
  unfold emptyWrites
  exact .ite (.refl c) (.ite hrows ((putAw_onlyStore _ _ _ _ _ _).after hrows))

theorem emptyWrites_core (n : Nat) (r : TodRun) (c : Chip) (m : Nat) : (emptyWrites n r c).core m = c.core m :=
  (emptyWrites_onlyStore n r c).core m

/-- Row statistics begin: memory, and which buffers are provisional. -/
theorem stampStat_core (n : Nat) (r : TodRun) (c : Chip) (m : Nat) : (stampStat n r c).core m = c.core m := by
  by_cases h : (!isProducer r.tod) = true
  · rw [stampStat, if_pos h]
  · rw [stampStat, if_neg h]
    exact (putAw_onlyStore _ _ _ _ _ c).core m
theorem addLatch_core (s : Nat) (l : Latch) (c : Chip) (m : Nat) : (addLatch s l c).core m = c.core m := rfl
theorem plans_core (l : List Nat) (c : Chip) (m : Nat) : ({ c with plans := l } : Chip).core m = c.core m := rfl
theorem ite_core {P : Prop} [Decidable P] (a b : Chip) (m : Nat) :
    (if P then a else b).core m = if P then a.core m else b.core m := apply_ite (fun k => Chip.core k m) P a b

/-! ### A TOD begins -/

/-- The run of a TOD that a bound or a buffer has ended at issue proper. -/
def refusedRun (c : Chip) (n : Nat) (r : TodRun) (f : Nat × Nat × Nat) : TodRun :=
  { r with
    ended := true, status := f.1, faultOfs := f.2.1, faultVal := f.2.2, issueNow := c.cad.now, lease := (c.core n).lease
    mb := boundVal c n r.tod 0, nb := boundVal c n r.tod 1, kb := boundVal c n r.tod 2
    sfuGen := (c.clus (n / 8)).sfu.gen.toNat }

/-- A bound or a buffer that a check refuses ends the TOD, and the list runs to its record. -/
theorem beginTod_bad {r : TodRun} {f : Nat × Nat × Nat}
    (h : boundBad c n r.tod = some f ∨ boundBad c n r.tod = none ∧ bufferBad c n r.tod r.par = some f) :
    beginTod n r c = c.setCore n { c.core n with
      st := 1, pred := none, runs := (c.core n).runs.dropLast ++ [refusedRun c n r f] } := by
  unfold beginTod
  rcases h with hb | ⟨hb, hbuf⟩
  · simp only [hb]; rfl
  · simp only [hb, hbuf]; rfl

/-- A TOD whose bounds and buffers are sound begins with the bounds as read; the list goes on from a state in which only
this core is another. -/
theorem beginTod_good {r : TodRun} (hb : boundBad c n r.tod = none) (hbuf : bufferBad c n r.tod r.par = none) :
    ∃ (x : TodRun) (k : Chip), beginTod n r c = goTo n ((c.core n).pc + 1) k ∧
      (k.core n).runs = (c.core n).runs.dropLast ++ [x] ∧ (k.core n).st = 1 ∧ (k.core n).loops = (c.core n).loops ∧
      (∀ m, m ≠ n → k.core m = c.core m) ∧
      x.begun = true ∧ x.tod = r.tod ∧ x.mb = boundVal c n r.tod 0 ∧ x.nb = boundVal c n r.tod 1 ∧
      x.kb = boundVal c n r.tod 2 ∧ x.issueNow = c.cad.now ∧ x.lease = (c.core n).lease ∧
      (x.mb = 0 → x.ended = true ∧ x.status = 1) := by
  unfold beginTod
  simp only [hb, hbuf]
  apply Exists.intro; apply Exists.intro
  refine ⟨rfl, ?runs, ?_⟩
  case runs =>
    simp only [ite_core, emptyWrites_core, addLatch_core, stampStat_core, plans_core, Chip.setCore_core_same, ite_self]
    rfl
  refine ⟨?_, ?_, fun m hm => ?_, rfl, rfl, rfl, rfl, rfl, rfl, rfl, fun h0 => ?_⟩
  · simp only [ite_core, emptyWrites_core, addLatch_core, stampStat_core, plans_core, Chip.setCore_core_same, ite_self]
  · simp only [ite_core, emptyWrites_core, addLatch_core, stampStat_core, plans_core, Chip.setCore_core_same, ite_self]
  · simp only [ite_core, emptyWrites_core, addLatch_core, stampStat_core, plans_core, ite_self]
    rw [Chip.setCore_core, if_neg hm]
    split <;> rfl
  · have hm : boundVal c n r.tod 0 = 0 := h0
    simp [hm]

theorem holdRelease_begin {l : List TodRun} {r : TodRun} (hst : (c.core n).st = 3) (hruns : (c.core n).runs = l ++ [r])
    (hb : r.begun = false) (he : r.ended = false) (hh : held c n r = false) : holdRelease n c = beginTod n r c := by
  simp [holdRelease, hruns, hst, hb, he, hh]

/-- TOD_HOLD_RELEASE of a TOD that a check refuses. -/
theorem does_holdRelease_bad {s : State} {m : CoreId} {l : List TodRun} {r : TodRun} {f : Nat × Nat × Nat}
    (hc : s.chip.isPowered) (hst : (s.chip.core m).st = 3) (hruns : (s.chip.core m).runs = l ++ [r])
    (hb : r.begun = false) (he : r.ended = false) (hh : held s.chip m r = false)
    (h : boundBad s.chip m r.tod = some f ∨ boundBad s.chip m r.tod = none ∧ bufferBad s.chip m r.tod r.par = some f) :
    Does (.todHoldRelease m) s (fun c =>
      ∃ x : TodRun, x.ended = true ∧ x.status = f.1 ∧ x.faultOfs = f.2.1 ∧ x.faultVal = f.2.2 ∧
      c = s.chip.setCore m { s.chip.core m with st := 1, pred := none, runs := l ++ [x] }) := by
  have hk := (holdRelease_begin hst hruns hb he hh).trans (beginTod_bad h)
  rw [hruns, List.dropLast_concat] at hk
  exact does_core_eq m rfl hc hk (by simp) (by simp) ⟨_, rfl, rfl, rfl, rfl, rfl⟩

/-- Settles O15: the last run begins, or ends with the first of its bounds and buffers that a check refuses. -/
theorem todBegins : Obligations.TodBegins := by
  unfold Obligations.TodBegins
  refine ⟨?begins, ?bound, ?buffer⟩
  case begins =>
    intro s n l r hc hst hruns hb he hh hbound hbuf
    obtain ⟨x, k, hk, hkruns, hkst, hkloops, hother, hx⟩ := beginTod_good (n := n) hbound hbuf
    rw [hruns, List.dropLast_concat] at hkruns
    have hgo := goesOn_goTo hkst hkloops
    refine does_core_eq n rfl hc ((holdRelease_begin hst hruns hb he hh).trans hk) ?_ ?_ ⟨hgo, ?_, fun m hm => ?_⟩
    · simp [goTo_busy _ hkst]
    · simp [goTo_busy _ hkst]
    · obtain ⟨hbegun, htod, hmb, hnb, hkb, hnow, hlease, hempty⟩ := hx
      exact ⟨x, hbegun, htod, hmb, hnb, hkb, hnow, hlease, hempty, by rw [goTo_core_same]; exact hkruns⟩
    · rw [goTo_core_other _ _ (Fin.val_ne_of_ne hm)]
      exact hother m (Fin.val_ne_of_ne hm)
  case bound =>
    exact fun s n l r st ofs val hc hst hruns hb he hh hbound => does_holdRelease_bad hc hst hruns hb he hh (.inl hbound)
  case buffer =>
    exact fun s n l r st ofs val hc hst hruns hb he hh hbound hbuf =>
      does_holdRelease_bad hc hst hruns hb he hh (.inr ⟨hbound, hbuf⟩)

end Sys2Proof.Machine
end

section
/-! Waits of a list: the WAIT that times out while a step launch waits, and BEAT_WAIT with its release (R10, R101, R102,
R246, R260). -/

namespace Sys2Proof.Machine

/-! ### A time-out behind which a launch waits -/

/-- Core 0 blocked on counter 0 past its deadline, with a launch of group 0 waiting for the list's end; the list registers
hold a length of 0. -/
def launchWaits : Chip :=
  ({ phase := .running, pwr := { st := 1 }, cad := { now := 2048 } : Chip }.setRg (ra (pgCore 0) 8) 1).setCore 0
    { st := 2, blocked := .wait 1 0 1 1, pending := some 0 }

/-- The launch that follows the time-out fails its own check, and the list shows that fault. -/
theorem fault_launchWaits : ((launchPending 0 (waitTimeout 0 launchWaits)).core 0).fault = 0x29 := by decide +kernel
/-- The time-out by itself leaves the fault 0x23. -/
theorem fault_timeout_launchWaits : ((listFault 0 0x23 (latePassed (pgCore 0) 1 launchWaits)).core 0).fault = 0x23 := by
  decide +kernel

/-- Refutes O21: its fifth clause says that WAIT_TIMEOUT is the list fault alone, with no premise on a waiting launch. In
`launchWaits` a step launch waits for the list's end and follows (R260): the list ends in the launch's fault 0x29. -/
theorem not_waits : ¬ Obligations.Waits := by
  unfold Obligations.Waits
  rintro ⟨-, -, -, -, h, -⟩
  have hdoes := h { pending := [], chip := launchWaits } 0 1 0 1 1 (by decide +kernel) (by decide +kernel) (by decide +kernel)
    (by decide +kernel) (by decide) (by decide +kernel)
  have heq := of_does_core 0 rfl (show launchWaits.isPowered by decide +kernel) hdoes
  have hfault : ((launchPending 0 (waitTimeout 0 launchWaits)).core 0).fault = 0x23 :=
    (congrArg (fun k => (Chip.core k 0).fault) heq).trans fault_timeout_launchWaits
  exact absurd (fault_launchWaits.symm.trans hfault) (by decide)

/-! ### BEAT_WAIT -/

variable {c : Chip} {n : Nat}

theorem latePassed_onlyLog (p t : Nat) (c : Chip) : OnlyLog c (latePassed p t c) := by
  unfold latePassed
  split
  · exact itemLate_only _ _ _
  · exact .refl c
theorem OnlyLog.core {k : Chip} (h : OnlyLog c k) (m : Nat) : k.core m = c.core m := by obtain ⟨_, _, _, rfl⟩ := h; rfl
theorem OnlyLog.mem {k : Chip} (h : OnlyLog c k) : k.mem = c.mem := by obtain ⟨_, _, _, rfl⟩ := h; rfl

/-- The beat that a BEAT_WAIT names (R101, R246). -/
def waitTarget (c : Chip) (n : Nat) (t : List Nat) : Nat :=
  (if fld 1 0 (wd t 1) = 0 then (c.core n).launched else fullBeat c.beat (c.sq n (wd t 1 / 4))) + wd t 2

/-- BEAT_WAIT of an entry with sound fields. -/
theorem beatWait_at {t : List Nat} (h : c.atEntry n t) (hop : tOp t = 0x85) (hrest : restZero t 3 = true)
    (hw : wd t 1 / 128 = 0) (hb : fld 1 0 (wd t 1) ≤ 1) :
    beatWait n c =
      if waitTarget c n t ≤ c.beat then
        itemLate (pgCore n) (waitTarget c n t) (c.setCore n { c.core n with st := 2, blocked := .beat (c.beat + 1) true })
      else c.setCore n { c.core n with st := 2, blocked := .beat (waitTarget c n t) false } := by
  have h7 : fld 31 7 (wd t 1) = 0 := by simp [fld, hw]
  have h6 : fld 6 2 (wd t 1) = wd t 1 / 4 := by simp only [fld]; omega
  rw [beatWait, withEntry_at h (by simp [hop])]
  dsimp only
  rw [if_neg (by simp [hrest, h7, hb.not_gt]), h6]
  rfl

/-- Settles O22: BEAT_WAIT blocks until its target or, where that has passed, until the next beat; the release goes on. -/
theorem beatWaits : Obligations.BeatWaits := by
  unfold Obligations.BeatWaits
  refine ⟨?ahead, ?passed, ?release⟩
  case ahead =>
    rintro s n t _ h hop hrest hw hb rfl hlt
    exact does_core_eq n rfl h.1 ((beatWait_at h hop hrest hw hb).trans (if_neg hlt.not_ge)) (by simp) (by simp) rfl
  case passed =>
    rintro s n t _ h hop hrest hw hb rfl hle
    exact does_core_eq n rfl h.1 ((beatWait_at h hop hrest hw hb).trans (if_pos hle)) (by simp) (by simp) (logs_itemLate _ _ _)
  case release =>
    intro s n b l hc hst hblocked _ hcome
    have hk : beatRelease n s.chip = goTo n ((s.chip.core n).pc + 1)
        (latePassed (pgCore n) b (s.chip.setCore n { s.chip.core n with st := 1, blocked := .none })) := by
      simp [beatRelease, hblocked, hst, hcome]
    have hlog := latePassed_onlyLog (pgCore n) b (s.chip.setCore n { s.chip.core n with st := 1, blocked := .none })
    have hcore := (hlog.core n).trans (Chip.setCore_core_same ..)
    have hgo := goesOn_goTo (o := s.chip) (n := n) (by rw [hcore]) (by rw [hcore])
    refine does_core_eq n rfl hc hk (by simp [hgo.1]) (by simp [hgo.1]) ⟨hgo, ?_, ?_⟩
    · rw [goTo_core_same, hcore]
    · rw [goTo_mem, hlog.mem]
      rfl

end Sys2Proof.Machine
end

section
/-! Launch, stop and end of a core's list (R97, R98, R245, R260). -/

namespace Sys2Proof.Machine

variable {c k : Chip} {n : Nat}

/-! ### What a log leaves -/

/-- Logging an error that becomes no FE changes nothing but registers, control link and records. -/
theorem Chip.logs.onlyLog {p cls cause : Nat} (h : c.logs k p cls cause) : OnlyLog c k := ⟨_, _, _, h.1⟩
theorem Chip.logs.core {p cls cause : Nat} (h : c.logs k p cls cause) (m : Nat) : k.core m = c.core m := h.onlyLog.core m
theorem Chip.logs.mem {p cls cause : Nat} (h : c.logs k p cls cause) : k.mem = c.mem := h.onlyLog.mem

/-! ### What a launch leaves -/

/-- The sequencer registers take the words given; nothing but registers changes. -/
theorem forEach_setSq_only (f : Nat → Nat) (l : List Nat) (c : Chip) :
    ∃ r, forEach l (fun i k => k.setSq n i (f i)) c = { c with regs := r } := by
  induction l generalizing c with
  | nil => exact ⟨c.regs, rfl⟩
  | cons x l ih =>
    obtain ⟨r, hr⟩ := ih (c.setSq n x (f x))
    exact ⟨r, hr⟩
theorem forEach_setSq_sq (f : Nat → Nat) {l : List Nat} {i : Nat} (h : i ∈ l) (c : Chip) :
    (forEach l (fun i k => k.setSq n i (f i)) c).sq n i = f i % 2 ^ 32 := by
  have hkeep : ∀ (l : List Nat) (c : Chip), i ∉ l → (forEach l (fun i k => k.setSq n i (f i)) c).sq n i = c.sq n i := by
    intro l
    induction l with
    | nil => exact fun _ _ => rfl
    | cons x l ih =>
      intro c hi
      rw [List.mem_cons, not_or] at hi
      refine (ih _ hi.2).trans (Chip.setRg_rg_other _ _ _ _ ?_)
      simp only [coreReg, ra]
      omega
  induction l generalizing c with
  | nil => simp at h
  | cons x l ih =>
    by_cases hx : i ∈ l
    · exact ih hx _
    · obtain rfl : i = x := by simpa [hx] using h
      exact (hkeep l _ hx).trans (Chip.setRg_rg_same _ _ _)

/-- Only the core's own place in the carousel changes. -/
def OnlyCar (n : Nat) (c k : Chip) : Prop :=
  ∃ a b d, k = c.setCore n { c.core n with car := a, carNext := b, carDue := d }
theorem carStart_onlyCar (n : Nat) (grp : Option Nat) (c : Chip) : OnlyCar n c (carStart n grp c) := by
  unfold carStart
  dsimp only
  split
  · exact ⟨_, _, _, rfl⟩
  · split <;> exact ⟨_, _, _, rfl⟩

/-- The core of a list that has just been launched, but for its place in the carousel (R98). -/
structure Launched (c k : Chip) (n : Nat) : Prop where
  st : (k.core n).st = 1
  pc : (k.core n).pc = 0
  fault : (k.core n).fault = 0
  loops : (k.core n).loops = []
  flags : (k.core n).flags = 0
  cplHead : (k.core n).cplHead = 0
  cplLost : (k.core n).cplLost = 0
  launched : (k.core n).launched = c.beat
  provSet : (k.core n).provSet = []
  mem : k.mem = c.mem
  sq : ∀ i < 32, k.sq n i = rd4 (rdAw c n (windows c n) (c.rg (coreReg n 0x108))) (4 * i) % 2 ^ 32

/-- A launch whose checks pass (R97, R98). -/
theorem launchList_good (grp : Option Nat) (h : launchBad c n = none) : Launched c (launchList n grp true c) n := by
  unfold launchList
  simp only [h, if_true]
  obtain ⟨a, b, d, hcar⟩ := carStart_onlyCar n grp ((forEach (List.range 32)
    (fun i k => k.setSq n i (rd4 (rdAw c n (windows c n) (c.rg (coreReg n 0x108))) (4 * i))) c).setCore n
    { (forEach (List.range 32) (fun i k => k.setSq n i (rd4 (rdAw c n (windows c n) (c.rg (coreReg n 0x108))) (4 * i))) c).core n with
      st := 1, fault := 0, pc := 0, loops := [], flags := 0, cplHead := 0, cplLost := 0, launched := c.beat
      byGroup := grp, blocked := .none, lastEmpty := false, pred := none, provSet := [], seen := []
      ckptOrd := (c.clus (n / 8)).ord, ckpt := true, stopping := false, pending := none })
  have hsq := fun i (hi : i < 32) => forEach_setSq_sq (n := n)
    (fun i => rd4 (rdAw c n (windows c n) (c.rg (coreReg n 0x108))) (4 * i)) (List.mem_range.mpr hi) c
  obtain ⟨r, hr⟩ := forEach_setSq_only (n := n)
    (fun i => rd4 (rdAw c n (windows c n) (c.rg (coreReg n 0x108))) (4 * i)) (List.range 32) c
  rw [hr] at hcar hsq
  rw [hr, hcar]
  refine { sq := hsq, st := ?_, pc := ?_, fault := ?_, loops := ?_, flags := ?_, cplHead := ?_, cplLost := ?_,
           launched := ?_, provSet := ?_, mem := rfl }
  all_goals simp

/-! ### LIST_CTL.START -/

theorem does_gated_core {i : Instr} {s : State} {b : Blk} {a v : Nat} {f : Chip → Chip} {P : Chip → Prop} (n : Nat)
    (h : exec i s = act (gated b a v (coreCmd n f)) s) (hc : s.chip.isPowered) (hp : P (launchPending n (f s.chip))) :
    Does i s P :=
  does_act h (by
    rw [gated_open _ hc.on hc.2.2.1 hc.2.2.2.1, coreCmd, work_powered _ hc]
    exact hp)

theorem listStart_ignored (v : Nat) (h : ((c.core n).st ≠ 0 ∧ (c.core n).st ≠ 4) ∨ c.enabled (pgCore n) = false) :
    listStart n v c = ignored (coreReg n 0x10C) v c := if_pos h
/-- START of an idle list of an enabled core: at once, or at START_BEAT (R98). -/
theorem listStart_idle (v : Nat) (hst : (c.core n).st = 0 ∨ (c.core n).st = 4) (hen : c.enabled (pgCore n) = true) :
    listStart n v c =
      if bit 2 (c.rg (coreReg n 0x10C)) = true then
        if c.rg64 (coreReg n 0x110) ≤ c.beat then
          itemLate (pgCore n) (c.rg64 (coreReg n 0x110))
            (c.setCore n { c.core n with st := 5, fault := 0, startAt := c.beat + 1, startLate := true })
        else c.setCore n { c.core n with st := 5, fault := 0, startAt := c.rg64 (coreReg n 0x110), startLate := false }
      else launchList n none true c := by
  have hgo : ¬ (((c.core n).st ≠ 0 ∧ (c.core n).st ≠ 4) ∨ c.enabled (pgCore n) = false) := by
    rw [hen]; rcases hst with h | h <;> simp [h]
  exact if_neg hgo
theorem launchBad_length (h : c.listLen n = 0) : launchBad c n = some 0x29 := if_pos (.inl h)
theorem launchList_bad {e : Nat} (grp : Option Nat) (car : Bool) (h : launchBad c n = some e) :
    launchList n grp car c = listFault n e c := by
  simp only [launchList, h]

/-- A list fault on a core whose page shows no error, as its log says it (R102). -/
theorem logs_listFault {e : Nat} (h : c.rg (coreReg n 0x10) = 0) :
    (c.setCore n { c.core n with st := 4, fault := e, blocked := .none, runs := (c.core n).runs.filter (·.begun) }).logs
      (listFault n e c) (pgCore n) 2 10 := logs_ucOp _ _ _ _ _ _ (by decide) h
theorem listFault_pending (e : Nat) (h : c.rg (coreReg n 0x10) = 0) :
    ((listFault n e c).core n).pending = (c.core n).pending := by
  rw [(logs_listFault h).core, Chip.setCore_core_same]

/-- The page of a register of core n. -/
theorem coreReg_page {o : Nat} (hn : n < 192) (ho : o < 0x1000) : coreReg n o % 0x4000000 / 0x1000 = pgCore n := by
  simp only [coreReg, ra, pgCore]
  omega
theorem logs_ignored_core {o : Nat} (v : Nat) (c : Chip) (hn : n < 192) (ho : o < 0x1000) :
    c.logs (ignored (coreReg n o) v c) (pgCore n) 0 31 := coreReg_page hn ho ▸ logs_ignored _ _ _

/-! ### A launch at its beat -/

theorem lateFire_onlyLog (p t : Nat) (c : Chip) : OnlyLog c (lateFire p t c) := lateFire_only p t c
/-- Lateness is logged on the cadence page. -/
theorem lateFire_rg (p t : Nat) (c : Chip) {a : Nat} (h : a ∉ errRegs pgCad) : (lateFire p t c).rg a = c.rg a := by
  unfold lateFire
  split
  · exact (logs_itemLate _ _ _).2.1 a h
  · rfl
theorem coreReg_notMem_errRegs {p o : Nat} (hp : p < 0x100) (ho : o < 0x1000) : coreReg n o ∉ errRegs p := by
  simp only [errRegs, coreReg, ra, pgCore, pgTam, pgMbp, List.mem_cons, List.not_mem_nil, or_false, not_or]
  omega

theorem rdAw_congr (wins : List (Nat × Nat × Nat)) (w : Nat) (h : k.mem = c.mem) : rdAw k n wins w = rdAw c n wins w := by
  unfold rdAw Chip.byteAt
  rw [h]
theorem poisonAw_congr (wins : List (Nat × Nat × Nat)) (w off len : Nat) (h : k.poison = c.poison) :
    poisonAw k n wins w off len = poisonAw c n wins w off len := by
  unfold poisonAw Chip.poisonIn
  rw [h]
/-- A log, and a list's state, leave what a launch checks and reads. -/
theorem windows_setSt (st : Nat) (h : OnlyLog (c.setCore n { c.core n with st := st }) k) : windows k n = windows c n := by
  obtain ⟨_, _, _, rfl⟩ := h
  change windows (c.setCore n { c.core n with st := st }) n = windows c n
  unfold windows
  rw [Chip.setCore_core_same]
  rfl
theorem launchBad_congr (hrg : ∀ o < 0x1000, k.rg (coreReg n o) = c.rg (coreReg n o)) (hw : windows k n = windows c n)
    (hp : k.poison = c.poison) : launchBad k n = launchBad c n := by
  unfold launchBad Chip.listLen
  dsimp only
  rw [hrg 0x100 (by decide), hrg 0x104 (by decide), hrg 0x108 (by decide), hrg 0x118 (by decide), hrg 0x11C (by decide), hw,
    poisonAw_congr _ _ _ _ hp]

/-- An armed list of an enabled core is launched at its beat as one that START launches at once (R98, R245). -/
theorem atBeatLaunch_fire (hst : (c.core n).st = 5) (hdue : c.cascadeDue (c.core n).startAt = true)
    (hen : c.enabled (pgCore n) = true) (hbad : launchBad c n = none) : Launched c (atBeatLaunch n c) n := by
  have hlog := lateFire_onlyLog (pgCore n) (c.core n).startAt (c.setCore n { c.core n with st := 0 })
  have hrg : ∀ o < 0x1000, (lateFire (pgCore n) (c.core n).startAt (c.setCore n { c.core n with st := 0 })).rg (coreReg n o) =
      c.rg (coreReg n o) := fun o ho => lateFire_rg _ _ _ (coreReg_notMem_errRegs (by decide) ho)
  have hwin := windows_setSt 0 hlog
  have hk : atBeatLaunch n c =
      launchList n none true (lateFire (pgCore n) (c.core n).startAt (c.setCore n { c.core n with st := 0 })) :=
    (if_pos ⟨hst, hdue⟩).trans (if_pos hen)
  rw [hk]
  generalize lateFire (pgCore n) (c.core n).startAt (c.setCore n { c.core n with st := 0 }) = j at hlog hrg hwin
  obtain ⟨_, _, _, rfl⟩ := hlog
  have hl := launchList_good none ((launchBad_congr hrg hwin rfl).trans hbad)
  refine { hl with sq := fun i hi => ?_ }
  rw [hl.sq i hi, hwin, hrg 0x108 (by decide)]
  exact congrArg (· % 2 ^ 32) (congrArg (rd4 · (4 * i)) (rdAw_congr _ _ rfl))

/-! ### Leases at the end of a list -/

/-- Only the core n and its cluster differ. -/
def OnlyHub (n : Nat) (c k : Chip) : Prop :=
  (∃ q u, k = { c with cores := q, clusters := u }) ∧ ∀ m, m ≠ n → k.core m = c.core m

theorem OnlyHub.refl (n : Nat) (c : Chip) : OnlyHub n c c := ⟨⟨c.cores, c.clusters, rfl⟩, fun _ _ => rfl⟩
/-- Transitivity, the later operation first. -/
theorem OnlyHub.after {a b d : Chip} (g : OnlyHub n b d) (h : OnlyHub n a b) : OnlyHub n a d := by
  obtain ⟨⟨_, _, rfl⟩, ho⟩ := h
  obtain ⟨⟨_, _, rfl⟩, ho'⟩ := g
  exact ⟨⟨_, _, rfl⟩, fun m hm => (ho' m hm).trans (ho m hm)⟩
theorem setCore_onlyHub (n : Nat) (x : Core) (c : Chip) : OnlyHub n c (c.setCore n x) :=
  ⟨⟨_, c.clusters, rfl⟩, fun m hm => by rw [Chip.setCore_core, if_neg hm]⟩
theorem setCtr_onlyHub (n cl i : Nat) (x : Counter) (c : Chip) : OnlyHub n c (c.setCtr cl i x) :=
  ⟨⟨c.cores, _, rfl⟩, fun _ _ => rfl⟩
theorem OnlyHub.mem (h : OnlyHub n c k) : k.mem = c.mem := by obtain ⟨⟨_, _, rfl⟩, -⟩ := h; rfl
theorem OnlyHub.regs (h : OnlyHub n c k) : k.regs = c.regs := by obtain ⟨⟨_, _, rfl⟩, -⟩ := h; rfl

theorem expireLease_onlyHub (n : Nat) (l : Lease) (c : Chip) : OnlyHub n c (expireLease n l c) := by
  unfold expireLease
  dsimp only
  split_ifs
  · exact .refl n c
  · exact (setCtr_onlyHub _ _ _ _ _).after (setCore_onlyHub _ _ c)
  · exact setCore_onlyHub _ _ c
theorem startRetire_onlyHub (n : Nat) (c : Chip) : OnlyHub n c (startRetire n c) := setCore_onlyHub _ _ c
theorem leaseRetire_onlyHub (n : Nat) (c : Chip) : OnlyHub n c (leaseRetire n c) := by
  unfold leaseRetire
  dsimp only
  split
  · exact .refl n c
  next l _ =>
    have h0 : OnlyHub n c (if c.beat < l.expiry then c else expireLease n l c) := by
      split
      · exact .refl n c
      · exact expireLease_onlyHub n l c
    generalize (if c.beat < l.expiry then c else expireLease n l c) = c0 at h0 ⊢
    split
    · exact (setCore_onlyHub _ _ _).after h0
    · exact (setCtr_onlyHub _ _ _ _ _).after ((setCore_onlyHub _ _ _).after h0)

/-- What expiry of a lease does to its core: the lease's mark, and nothing else. -/
theorem expireLease_core (n : Nat) (l : Lease) (c : Chip) :
    ∃ up : Lease → Lease, (expireLease n l c).core n =
      { c.core n with lease := (c.core n).lease.map up, retiring := (c.core n).retiring.map up } := by
  unfold expireLease
  dsimp only
  split_ifs
  · exact ⟨id, by simp⟩
  · exact ⟨_, Chip.setCore_core_same ..⟩
  · exact ⟨_, Chip.setCore_core_same ..⟩

/-- A lease of a counter that is still armed for it gives its value back (R109). -/
theorem expireLease_ctr {l : Lease} (hexp : l.expired = false) (harm : (c.ctr (n / 8) l.wc).armed = true)
    (hdone : (c.ctr (n / 8) l.wc).done = false) (hord : (c.ctr (n / 8) l.wc).armOrd = l.ord) :
    (expireLease n l c).ctr (n / 8) l.wc = giveBack l (c.ctr (n / 8) l.wc) := by
  unfold expireLease
  dsimp only
  rw [if_neg (by simp [hexp]), if_pos (by simp [harm, hdone, hord]), Chip.setCtr_ctr, if_pos ⟨rfl, rfl⟩]
theorem mem_insertAsc_self (x : Nat) (l : List Nat) : x ∈ insertAsc x l := by
  induction l with
  | nil => simp [insertAsc]
  | cons y t ih =>
    unfold insertAsc
    split_ifs <;> simp_all

theorem expireHeld_onlyHub (n : Nat) (c : Chip) : OnlyHub n c (expireHeld n c) := by
  unfold expireHeld
  split
  · exact expireLease_onlyHub _ _ _
  · exact .refl n c
theorem expireHeld_core (n : Nat) (c : Chip) :
    ∃ up : Lease → Lease, (expireHeld n c).core n =
      { c.core n with lease := (c.core n).lease.map up, retiring := (c.core n).retiring.map up } := by
  unfold expireHeld
  split
  · exact expireLease_core _ _ _
  · exact ⟨id, by simp⟩

/-- A core that holds no lease holds none once its oldest one is retired. -/
theorem leaseRetire_lease (h : (c.core n).lease = none) : ((leaseRetire n c).core n).lease = none := by
  unfold leaseRetire
  dsimp only
  split
  · exact h
  next l _ =>
    have h0 : ((if c.beat < l.expiry then c else expireLease n l c).core n).lease = none := by
      split
      · exact h
      · obtain ⟨up, hup⟩ := expireLease_core n l c
        simp [hup, h]
    generalize (if c.beat < l.expiry then c else expireLease n l c) = c0 at h0 ⊢
    split
    · rw [Chip.setCore_core_same]; exact h0
    · rw [Chip.setCtr_core_of, Chip.setCore_core_same]; exact h0

/-! ### Stop and end -/

/-- STOP of a running list: the held lease expires, and what has not begun is dropped (R98). -/
theorem listStop_busy (h0 : (c.core n).st ≠ 0) (h4 : (c.core n).st ≠ 4) :
    let runs := (c.core n).runs.filter (fun r => r.begun || r.ended)
    ∃ x : Core, listStop n c = (expireHeld n c).setCore n x ∧ x.runs = runs ∧ x.lease = none ∧ x.blocked = .none ∧
      x.pc = (c.core n).pc ∧ x.pending = none ∧ x.st = if runs = [] then 0 else 1 := by
  obtain ⟨up, hup⟩ := expireHeld_core n c
  have hgo : ¬ ((c.core n).st = 0 ∨ (c.core n).st = 4) := by simp [h0, h4]
  refine ⟨_, if_neg hgo, ?_, rfl, rfl, ?_, rfl, ?_⟩
  · rw [hup]
  · rw [hup]
  · simp only [hup]

/-- The end of a list whose records are all written (R98). -/
theorem listDone_end (hst : (c.core n).st = 1) (hstop : (c.core n).stopping = false) (hpc : c.listLen n ≤ (c.core n).pc)
    (hruns : (c.core n).runs = []) :
    listDone n c = irqQuiet (pgCore n) 0 ((leaseRetire n (startRetire n c)).setCore n
      { (leaseRetire n (startRetire n c)).core n with st := 0, loops := [] }) := if_pos ⟨hst, hstop, hpc, hruns⟩
theorem irqQuiet_bit (p i : Nat) (c : Chip) (h : i < 32) : bit i ((irqQuiet p i c).rg (ra p 0x20)) = true := by
  rw [irqQuiet, Chip.setRg_rg_same, bit_mod _ _ h, bit_or, bit_two_pow, Bool.or_true]

theorem does_core_then {i : Instr} {s : State} {f : Chip → Chip} {P : Chip → Prop} (n : Nat)
    (h : exec i s = act (coreCmd n f) s) (hc : s.chip.isPowered) (hp : P (f s.chip)) :
    Does i s (fun c => c.thenLaunch n P) := does_work h hc ⟨_, rfl, hp⟩

/-- Settles O19, clause by clause: each start, stop and end of a list is the lemma above about it. -/
theorem listControl : Obligations.ListControl := by
  unfold Obligations.ListControl
  refine ⟨?start, ?bad, ?armed, ?late, ?ignored, ?stop, ?stopIdle, ?atBeat, ?done⟩
  case start =>
    intro s n hc hst hen hbeat hbad
    refine does_gated_core n rfl hc ?_
    have hl := launchList_good none hbad
    rw [listStart_idle 1 hst hen, if_neg (by simp [hbeat]), launchPending_busy (by simp [hl.st]) (by simp [hl.st])]
    exact ⟨hl.st, hl.pc, hl.fault, hl.loops, hl.flags, hl.cplHead, hl.cplLost, hl.launched, hl.provSet, hl.mem, hl.sq⟩
  case bad =>
    intro s n e hc hpend hst hen hbeat hbad herr
    refine does_gated_core n rfl hc ?_
    rw [listStart_idle 1 hst hen, if_neg (by simp [hbeat]), launchList_bad none true hbad,
      launchPending_none ((listFault_pending e herr).trans hpend)]
    exact ⟨logs_listFault herr, fun hlen => Option.some.inj (hbad.symm.trans (launchBad_length hlen))⟩
  case armed =>
    intro s n hc hst hen hbeat hlt
    refine does_gated_core n rfl hc ?_
    rw [listStart_idle 1 hst hen, if_pos hbeat, if_neg hlt.not_ge, launchPending_busy (by simp) (by simp)]
  case late =>
    intro s n hc hst hen hbeat hle
    refine does_gated_core n rfl hc ?_
    rw [listStart_idle 1 hst hen, if_pos hbeat, if_pos hle, launchPending_busy (by simp) (by simp)]
    exact logs_itemLate _ _ _
  case ignored =>
    intro s n hc hpend hno
    refine does_gated_core n rfl hc ?_
    have hlog := logs_ignored_core 1 s.chip n.isLt (show 0x10C < 0x1000 by decide)
    rw [listStart_ignored 1 hno, launchPending_none ((congrArg Core.pending (hlog.core n)).trans hpend)]
    exact hlog
  case stop =>
    intro s n hc h0 h4
    refine does_gated_core n rfl hc ?_
    obtain ⟨x, hk, hruns, hlease, hblocked, hpc, hpend, hst⟩ := listStop_busy h0 h4
    have hhub := expireHeld_onlyHub n s.chip
    rw [launchPending_none (by rw [hk, Chip.setCore_core_same, hpend]), hk, Chip.setCore_core_same]
    refine ⟨hruns, hlease, hblocked, hpc, hpend, fun h => ?_, hhub.mem, hhub.regs, fun l hl hexp harm hdone hord => ?_⟩
    · rw [hst, if_pos (hruns.symm.trans h)]
    · have hctr := expireLease_ctr hexp harm hdone hord
      rw [Chip.setCore_ctr_of, expireHeld, hl]
      exact hctr ▸ mem_insertAsc_self _ _
  case stopIdle =>
    intro s n hc hst hpend
    refine does_gated_core n rfl hc ?_
    have hk : listStop n s.chip = s.chip := if_pos hst
    rw [hk, launchPending_none hpend]
  case atBeat =>
    intro s n hc hst hdue hen hbad
    have hl := atBeatLaunch_fire hst hdue hen hbad
    exact does_core_busy n rfl hc (by simp [hl.st]) (by simp [hl.st]) ⟨hl.st, hl.pc, hl.launched, hl.mem, hl.sq⟩
  case done =>
    intro s n hc hst hstop hpc hruns
    refine does_core_then n rfl hc ?_
    have hhub := (leaseRetire_onlyHub n _).after (startRetire_onlyHub n s.chip)
    have hlease : ((leaseRetire n (startRetire n s.chip)).core n).lease = none :=
      leaseRetire_lease (by rw [startRetire, Chip.setCore_core_same])
    rw [listDone_end hst hstop hpc hruns, irqQuiet_core_of, Chip.setCore_core_same]
    refine ⟨rfl, rfl, hlease, irqQuiet_bit _ _ _ (by decide), hhub.mem, fun m hm => ?_⟩
    rw [irqQuiet_core_of, Chip.setCore_core, if_neg (Fin.val_ne_of_ne hm)]
    exact hhub.2 m (Fin.val_ne_of_ne hm)

end Sys2Proof.Machine
end

section
/-! The completion record (R83, R91, R98, R102, R109, R111): what the stores of a completed run leave alone, the bytes of
the record, and the list behind it. -/

namespace Sys2Proof.Machine

variable {c k : Chip} {n : Nat}

/-! ### What completes a run -/

/-- Cores and time are as they were, and so is every register but the control link's IRQ_STS. -/
structure KeepsCores (c k : Chip) : Prop where
  cores : k.cores = c.cores
  cad : k.cad = c.cad
  rg : ∀ a, a ≠ ra pgMbp 0x20 → k.rg a = c.rg a

theorem KeepsCores.refl (c : Chip) : KeepsCores c c := ⟨rfl, rfl, fun _ _ => rfl⟩
/-- Transitivity, the later operation first. -/
theorem KeepsCores.after {a b d : Chip} (g : KeepsCores b d) (h : KeepsCores a b) : KeepsCores a d :=
  ⟨g.cores.trans h.cores, g.cad.trans h.cad, fun x hx => (g.rg x hx).trans (h.rg x hx)⟩
theorem KeepsCores.ite {a b : Chip} {P : Prop} [Decidable P] (ha : KeepsCores c a) (hb : KeepsCores c b) :
    KeepsCores c (if P then a else b) := by
  split
  · exact ha
  · exact hb
theorem KeepsCores.foldl {α : Type} {f : Chip → α → Chip} (h : ∀ k x, KeepsCores k (f k x)) (l : List α) (c : Chip) :
    KeepsCores c (l.foldl f c) := by
  induction l generalizing c with
  | nil => exact .refl c
  | cons x l ih => exact (ih _).after (h c x)
theorem OnlyStore.keepsCores (h : OnlyStore c k) : KeepsCores c k := by
  obtain ⟨_, _, rfl⟩ := h
  exact ⟨rfl, rfl, fun _ _ => rfl⟩
theorem KeepsCores.core (h : KeepsCores c k) (m : Nat) : k.core m = c.core m := by rw [Chip.core, h.cores, Chip.core]

theorem writeStats_onlyStore (n : Nat) (r : TodRun) (c : Chip) : OnlyStore c (writeStats n r c) := by
  unfold writeStats
  dsimp only
  refine .ite (.ite ?_ (.refl c)) ?_
  · exact (setFinal_onlyStore n r _).after (.foldl (fun k x => putStat_onlyStore n r _ _ k) _ c)
  · generalize hj : (if tRowop r.tod = 0 then c else _) = j
    have hrows : OnlyStore c j := by
      rw [← hj]
      exact .ite (.refl c) ((setFinal_onlyStore n r _).after (.foldl (fun k x => putStat_onlyStore n r _ _ k) _ c))
    exact .ite hrows (OnlyStore.after (.forEach (fun j k => putAw_onlyStore _ _ _ _ _ k) _ _) hrows)

theorem contribute_keepsCores (n : Nat) (r : TodRun) (c : Chip) : KeepsCores c (contribute n r c) := by
  unfold contribute
  dsimp only
  split_ifs
  · exact .refl c
  · exact .refl c
  · exact ⟨rfl, rfl, fun _ _ => rfl⟩
  · exact (storeLe_onlyStore _ _ _ c).keepsCores

theorem sendFrame_keepsCores (f : Frame) (c : Chip) : KeepsCores c (sendFrame f c) :=
  ⟨sendFrame_cores _ _, sendFrame_cad _ _, fun a ha => sendFrame_rg _ _ a ha⟩
theorem cqPush_keepsCores (q kind status count cid detail : Nat) (data : List Nat) (c : Chip) :
    KeepsCores c (cqPush q kind status count cid detail data c) := by
  have hstore : ∀ (a : Nat) (e : List Byte) (x : Queue), KeepsCores c ((c.store a e).setQueue q x) :=
    fun _ _ _ => ⟨rfl, rfl, fun _ _ => rfl⟩
  unfold cqPush
  exact .ite ((sendFrame_keepsCores _ _).after (hstore _ _ _)) (hstore _ _ _)
theorem tokens_keepsCores (n : Nat) (r : TodRun) (c : Chip) : KeepsCores c (tokens n r c) := by
  have hq : ∀ q x, KeepsCores c (c.setQueue q x) := fun _ _ => ⟨rfl, rfl, fun _ _ => rfl⟩
  unfold tokens
  exact .ite (.refl c) (.ite (KeepsCores.after (.foldl (fun k _ => cqPush_keepsCores _ _ _ _ _ _ _ k) _ _) (hq _ _)) (hq _ _))

/-- What a record extends: the expiry and marks of its lease, in the core. -/
theorem extendLease_core (n : Nat) (r : TodRun) (c : Chip) :
    ∃ x y, (extendLease n r c).core n = { c.core n with lease := x, retiring := y } := by
  unfold extendLease
  split
  · exact ⟨_, _, rfl⟩
  · exact ⟨_, _, Chip.setCore_core_same ..⟩
theorem extendLease_onlyHub (n : Nat) (r : TodRun) (c : Chip) : OnlyHub n c (extendLease n r c) := by
  unfold extendLease
  split
  · exact .refl n c
  · exact setCore_onlyHub _ _ _

/-! ### The bytes of the record -/

theorem le_store_within (c : Chip) (a i w : Nat) (l : List Byte) (h : i + w ≤ l.length) :
    (c.store a l).le (a + i) w = leNat ((l.drop i).take w) := by
  refine congrArg leNat (List.ext_getElem ?_ fun j hj hl => ?_)
  · simp [Chip.bytes, Tab.getList]
    omega
  · have hw : j < w := by simpa [Chip.bytes, Tab.getList] using hj
    have hb := c.store_byteAt a l (a + i + j)
    rw [if_pos ⟨by omega, by omega⟩, List.getD_eq_getElem _ _ (by omega)] at hb
    simp only [Chip.bytes, Tab.getList, List.getElem_map, List.getElem_range, List.getElem_take, List.getElem_drop]
    exact hb.trans (getElem_congr_idx (by omega))

/-- The first two words of a record: the tag, and a word whose low byte is the status (R58). -/
theorem recBytes_head (n : Nat) (r : TodRun) (status now : Nat) :
    ∃ (w : Nat) (t : List Byte), recBytes n r status now = leBytes 4 (tTag r.tod) ++ (leBytes 4 w ++ t) ∧ w % 256 = status % 256 := by
  unfold recBytes
  simp only [List.append_assoc]
  refine ⟨_, _, rfl, ?_⟩
  have h : ∀ x : Nat, 2 ^ 8 * x % 256 = 0 := fun x => Nat.mul_mod_right 256 x
  have h9 : ∀ x : Nat, 2 ^ 9 * x = 256 * (2 * x) := by intro x; omega
  omega

theorem le_record (c : Chip) (a n : Nat) (r : TodRun) (status now : Nat) :
    (c.store a (recBytes n r status now)).le a 4 = tTag r.tod % 2 ^ 32 ∧
      (c.store a (recBytes n r status now)).le (a + 4) 1 = status % 256 := by
  obtain ⟨w, t, hrec, hw⟩ := recBytes_head n r status now
  rw [hrec]
  constructor
  · have h := le_store_within c a 0 4 (leBytes 4 (tTag r.tod) ++ (leBytes 4 w ++ t)) (by simp)
    rw [Nat.add_zero, List.drop_zero, List.take_left' (leBytes_length ..), leNat_leBytes] at h
    exact h
  · rw [le_store_within c a 4 1 _ (by simp; omega), List.drop_left' (leBytes_length ..)]
    simpa [leBytes, leNat] using hw

/-! ### The record and the list behind it -/

/-- The status that a record shows: STALE for a completed run whose lease is no longer current (R111). -/
def recStatus (c : Chip) (n : Nat) (r : TodRun) : Nat := if r.status < 2 ∧ leaseLive c n r = false then 2 else r.status
/-- Where the next record of core n goes (R91). -/
def recOffset (c : Chip) (n : Nat) : Nat := 384 * ((c.core n).cplHead % max 1 (c.rg (coreReg n 0x11C)))
def recAddr (c : Chip) (n : Nat) : Nat := awAddr n [] (c.rg (coreReg n 0x118)) (recOffset c n)

/-- The record of run r has been written, and its core's list stands as before (R91). -/
structure Recorded (c : Chip) (n : Nat) (r : TodRun) (k : Chip) : Prop where
  tag : k.le (recAddr c n) 4 = tTag r.tod % 2 ^ 32
  status : k.le (recAddr c n + 4) 1 = recStatus c n r % 256
  cplHead : (k.core n).cplHead = ((c.core n).cplHead + 1) % 65536
  runs : (k.core n).runs = (c.core n).runs.drop 1
  st : (k.core n).st = (c.core n).st
  stopping : (k.core n).stopping = (c.core n).stopping
  errSts : k.rg (coreReg n 0x10) = c.rg (coreReg n 0x10)

theorem coreReg_ne_irqSts (o : Nat) (ho : o < 0x1000) : coreReg n o ≠ ra pgMbp 0x20 := by
  simp only [coreReg, ra, pgCore, pgMbp]
  omega

/-- A record that fits its space is written; then its status faults the list, ends a stopping one, or lets it go on. -/
theorem writeRecord_fits {r : TodRun} (hfit : awFits (c.rg (coreReg n 0x118)) (recOffset c n + 384) = true) :
    ∃ k, Recorded c n r k ∧ writeRecord n r c =
      if 16 ≤ recStatus c n r then
        ucOp (pgCore n) 10 (opId n (tTag r.tod)) (recStatus c n r) (k.core n).pc (k.setCore n { k.core n with
          st := 4, fault := recStatus c n r, blocked := .none, stopping := false, runs := (k.core n).runs.filter (·.begun) })
      else if ((k.core n).stopping && (k.core n).runs.isEmpty) = true then
        k.setCore n { k.core n with st := 0, stopping := false }
      else k := by
  unfold writeRecord
  extract_lets live c1 c2 status k b slots off full c3 c4 a c5 k5 c6
  have hc1 : KeepsCores c c1 :=
    .ite ((contribute_keepsCores n r _).after (writeStats_onlyStore n r c).keepsCores) (.refl c)
  have hc2 : KeepsCores c c2 := (tokens_keepsCores n r c1).after hc1
  have hrg : ∀ o < 0x1000, c2.rg (coreReg n o) = c.rg (coreReg n o) := fun o ho => hc2.rg _ (coreReg_ne_irqSts o ho)
  have hk : k = c.core n := hc2.core n
  have hoff : off = recOffset c n := by
    rw [recOffset, ← hrg 0x11C (by decide), ← hk]
  have ha : a = recAddr c n := by
    rw [recAddr, ← hoff, ← hrg 0x118 (by decide)]
  have hroom : ¬ spaceLimit (awSpace b) < awOfs b + off + 384 := by
    have h := of_decide_eq_true hfit
    rw [← hoff, ← hrg 0x118 (by decide)] at h
    exact Nat.not_lt.mpr (by rwa [Nat.add_assoc])
  obtain ⟨x, y, hlease⟩ := extendLease_core n r c3
  obtain ⟨⟨q, u, hhub⟩, -⟩ := extendLease_onlyHub n r c3
  have hk5 : k5 = { c.core n with
      runs := (c.core n).runs.drop 1, lastEmpty := status == 1, lease := x, retiring := y } := by
    have h : c3.core n = { k with runs := k.runs.drop 1, lastEmpty := status == 1 } := Chip.setCore_core_same ..
    rw [h, hk] at hlease
    exact (show k5 = c4.core n from Chip.store_core_of ..).trans hlease
  have hc6 : c6.core n = { k5 with
      cplHead := (k5.cplHead + 1) % 65536, cplLost := if full then sat32 k5.cplLost 1 else k5.cplLost } :=
    Chip.setCore_core_same ..
  have hmem : c6.mem = c5.mem := Chip.setCore_mem ..
  have hbytes : c5.le a 4 = tTag r.tod % 2 ^ 32 ∧ c5.le (a + 4) 1 = status % 256 := le_record c4 a n r status c.cad.now
  rw [ha] at hbytes
  have herr : c6.rg (coreReg n 0x10) = c.rg (coreReg n 0x10) := by
    have h : c6.regs = c2.regs :=
      calc c6.regs = c5.regs := Chip.setCore_regs ..
        _ = c4.regs := Chip.store_regs ..
        _ = c3.regs := (congrArg Chip.regs hhub :)
        _ = c2.regs := Chip.setCore_regs ..
    rw [Chip.rg, h]
    exact hrg 0x10 (by decide)
  clear_value c6
  rw [if_neg hroom]
  refine ⟨c6, { tag := ?_, status := ?_, cplHead := ?_, runs := ?_, st := ?_, stopping := ?_, errSts := herr }, rfl⟩
  · rw [Chip.le, Chip.bytes, hmem]; exact hbytes.1
  · rw [Chip.le, Chip.bytes, hmem]; exact hbytes.2
  · rw [hc6, hk5]
  · rw [hc6, hk5]
  · rw [hc6, hk5]
  · rw [hc6, hk5]

/-- The record of a run that has completed: the list goes on, or ends with its last record where STOP ended it (R98). -/
structure RecordedLow (c : Chip) (n : Nat) (r : TodRun) (k : Chip) : Prop where
  tag : k.le (recAddr c n) 4 = tTag r.tod % 2 ^ 32
  status : k.le (recAddr c n + 4) 1 = recStatus c n r
  cplHead : (k.core n).cplHead = ((c.core n).cplHead + 1) % 65536
  runs : (k.core n).runs = (c.core n).runs.drop 1
  st : (k.core n).st = if (c.core n).stopping = true ∧ (c.core n).runs.drop 1 = [] then 0 else (c.core n).st

theorem writeRecord_low {r : TodRun} (hfit : awFits (c.rg (coreReg n 0x118)) (recOffset c n + 384) = true)
    (hlow : recStatus c n r < 16) : RecordedLow c n r (writeRecord n r c) := by
  obtain ⟨k, hk, hw⟩ := writeRecord_fits (r := r) hfit
  have hstatus : k.le (recAddr c n + 4) 1 = recStatus c n r := hk.status.trans (Nat.mod_eq_of_lt (by omega))
  rw [hw, if_neg hlow.not_ge, hk.stopping, hk.runs]
  by_cases hend : (c.core n).stopping = true ∧ (c.core n).runs.drop 1 = []
  · rw [if_pos (by simpa using hend)]
    refine { tag := hk.tag, status := hstatus, cplHead := ?_, runs := ?_, st := ?_ }
    · rw [Chip.setCore_core_same]; exact hk.cplHead
    · rw [Chip.setCore_core_same]; exact hk.runs
    · rw [Chip.setCore_core_same, if_pos hend]
  · rw [if_neg (by simpa using hend)]
    exact { tag := hk.tag, status := hstatus, cplHead := hk.cplHead, runs := hk.runs, st := hk.st.trans (if_neg hend).symm }

/-- The record of a run that has failed: its list is FAULTED with the status (R102). -/
structure RecordedHigh (c : Chip) (n : Nat) (r : TodRun) (k : Chip) : Prop where
  tag : k.le (recAddr c n) 4 = tTag r.tod % 2 ^ 32
  status : k.le (recAddr c n + 4) 1 = r.status % 256
  cplHead : (k.core n).cplHead = ((c.core n).cplHead + 1) % 65536
  st : (k.core n).st = 4
  fault : (k.core n).fault = r.status
  err : k.hasErr (pgCore n) 2 10 = true

theorem writeRecord_high {r : TodRun} (hfit : awFits (c.rg (coreReg n 0x118)) (recOffset c n + 384) = true)
    (hhigh : 16 ≤ r.status) (herr : c.rg (coreReg n 0x10) = 0) : RecordedHigh c n r (writeRecord n r c) := by
  obtain ⟨k, hk, hw⟩ := writeRecord_fits (r := r) hfit
  have hrec : recStatus c n r = r.status := if_neg (by omega)
  rw [hrec] at hw
  rw [hw, if_pos hhigh]
  have hlog := logs_ucOp (pgCore n) 10 (opId n (tTag r.tod)) r.status (k.core n).pc (k.setCore n { k.core n with
    st := 4, fault := r.status, blocked := .none, stopping := false, runs := (k.core n).runs.filter (·.begun) })
    (by decide) (hk.errSts.trans herr)
  refine { tag := ?_, status := ?_, cplHead := ?_, st := ?_, fault := ?_, err := hlog.2.2 }
  · rw [Chip.le, Chip.bytes, hlog.mem]; exact hk.tag
  · rw [Chip.le, Chip.bytes, hlog.mem]; exact hrec ▸ hk.status
  · rw [hlog.core, Chip.setCore_core_same]; exact hk.cplHead
  · rw [hlog.core, Chip.setCore_core_same]
  · rw [hlog.core, Chip.setCore_core_same]

/-! ### COMPLETION_RECORD -/

/-- The accumulators that a run leaves are no part of what a record reads. -/
theorem leaseLive_setAcc (a : Tab (Option W32)) (r : TodRun) :
    leaseLive (c.setCore n { c.core n with acc := a }) n r = leaseLive c n r := by
  unfold leaseLive
  rw [Chip.setCore_core_same]
  rfl
theorem recStatus_setAcc (a : Tab (Option W32)) (r : TodRun) :
    recStatus (c.setCore n { c.core n with acc := a }) n r = recStatus c n r := by
  rw [recStatus, leaseLive_setAcc, recStatus]
theorem recOffset_setAcc (a : Tab (Option W32)) : recOffset (c.setCore n { c.core n with acc := a }) n = recOffset c n := by
  rw [recOffset, Chip.setCore_core_same]
  rfl
theorem recAddr_setAcc (a : Tab (Option W32)) : recAddr (c.setCore n { c.core n with acc := a }) n = recAddr c n := by
  rw [recAddr, recOffset_setAcc]
  rfl

/-- The accumulators are what `keepAcc` changes; of the run it keeps everything but the bookkeeping of its rows. -/
theorem keepAcc_eq (n : Nat) (r : TodRun) (c : Chip) :
    ∃ a rows, keepAcc n r c = (c.setCore n { c.core n with acc := a }, { noteRows rows r with ended := true }) :=
  ⟨_, _, rfl⟩

/-- The record of the oldest run, once it has ended, is written with the accumulators as it leaves them. -/
theorem completionRecord_ended {r : TodRun} {l : List TodRun} (hruns : (c.core n).runs = r :: l) (hend : r.ended = true) :
    completionRecord n c = writeRecord n r c ∨
      ∃ a, completionRecord n c = writeRecord n r (c.setCore n { c.core n with acc := a }) := by
  unfold completionRecord
  rw [hruns]
  dsimp only
  rw [if_pos hend]
  by_cases hkeep : r.status = 1 ∧ isMatmul r.tod = true ∧ tNoDrain r.tod = true
  · obtain ⟨a, rows, hkeepAcc⟩ := keepAcc_eq n { r with mb := 0 } c
    exact .inr ⟨a, by rw [if_pos hkeep, hkeepAcc]⟩
  · exact .inl (by rw [if_neg hkeep])

/-- The accumulators that go into a record's run are no part of the record's effect. -/
theorem RecordedLow.of_setAcc {a : Tab (Option W32)} {r : TodRun}
    (h : RecordedLow (c.setCore n { c.core n with acc := a }) n r k) : RecordedLow c n r k := by
  obtain ⟨htag, hstatus, hhead, hruns, hst⟩ := h
  rw [recAddr_setAcc] at htag hstatus
  rw [recStatus_setAcc] at hstatus
  rw [Chip.setCore_core_same] at hhead hruns hst
  exact ⟨htag, hstatus, hhead, hruns, hst⟩
theorem RecordedHigh.of_setAcc {a : Tab (Option W32)} {r : TodRun}
    (h : RecordedHigh (c.setCore n { c.core n with acc := a }) n r k) : RecordedHigh c n r k := by
  obtain ⟨htag, hstatus, hhead, hst, hfault, herr⟩ := h
  rw [recAddr_setAcc] at htag hstatus
  rw [Chip.setCore_core_same] at hhead
  exact ⟨htag, hstatus, hhead, hst, hfault, herr⟩
theorem fits_setAcc (a : Tab (Option W32)) (h : awFits (c.rg (coreReg n 0x118)) (recOffset c n + 384) = true) :
    awFits ((c.setCore n { c.core n with acc := a }).rg (coreReg n 0x118))
      (recOffset (c.setCore n { c.core n with acc := a }) n + 384) = true := by
  rw [recOffset_setAcc]
  exact h

theorem completionRecord_ended_low {r : TodRun} {l : List TodRun} (hruns : (c.core n).runs = r :: l)
    (hend : r.ended = true) (hlow : recStatus c n r < 16)
    (hfit : awFits (c.rg (coreReg n 0x118)) (recOffset c n + 384) = true) :
    RecordedLow c n r (completionRecord n c) := by
  obtain hw | ⟨a, hw⟩ := completionRecord_ended hruns hend
  · rw [hw]; exact writeRecord_low hfit hlow
  · rw [hw]; exact .of_setAcc (writeRecord_low (fits_setAcc a hfit) ((recStatus_setAcc a r).trans_lt hlow))
theorem completionRecord_ended_high {r : TodRun} {l : List TodRun} (hruns : (c.core n).runs = r :: l)
    (hend : r.ended = true) (hhigh : 16 ≤ r.status) (herr : c.rg (coreReg n 0x10) = 0)
    (hfit : awFits (c.rg (coreReg n 0x118)) (recOffset c n + 384) = true) :
    RecordedHigh c n r (completionRecord n c) := by
  obtain hw | ⟨a, hw⟩ := completionRecord_ended hruns hend
  · rw [hw]; exact writeRecord_high hfit hhigh herr
  · rw [hw]; exact .of_setAcc (writeRecord_high (fits_setAcc a hfit) hhigh herr)

/-- A NO_DRAIN run without poison or bad metadata ends in its record (R68). -/
theorem completionRecord_noDrain {r : TodRun} {l : List TodRun} (hruns : (c.core n).runs = r :: l)
    (hend : r.ended = false) (hbegun : r.begun = true) (hno : tNoDrain r.tod = true)
    (hpoison : tilePoison c n r = none) (hmeta : metaHit c n r = none) :
    completionRecord n c = writeRecord n (keepAcc n r c).2 (keepAcc n r c).1 := by
  unfold completionRecord
  rw [hruns]
  dsimp only
  rw [if_neg (by simp [hend]), if_pos (by simp [hbegun, hno, hpoison, hmeta])]
theorem completionRecord_noDrain_low {r : TodRun} {l : List TodRun} (hruns : (c.core n).runs = r :: l)
    (hend : r.ended = false) (hbegun : r.begun = true) (hno : tNoDrain r.tod = true)
    (hpoison : tilePoison c n r = none) (hmeta : metaHit c n r = none) (hlow : recStatus c n r < 16)
    (hfit : awFits (c.rg (coreReg n 0x118)) (recOffset c n + 384) = true) :
    RecordedLow c n r (completionRecord n c) := by
  obtain ⟨a, rows, hkeep⟩ := keepAcc_eq n r c
  rw [completionRecord_noDrain hruns hend hbegun hno hpoison hmeta, hkeep]
  have h := writeRecord_low (r := { noteRows rows r with ended := true }) (fits_setAcc a hfit)
    ((recStatus_setAcc a _).trans_lt hlow)
  obtain ⟨htag, hstatus, hhead, hruns, hst⟩ := h.of_setAcc
  exact ⟨htag, hstatus, hhead, hruns, hst⟩

/-- Settles O18: the record of an ended run below status 16, of a NO_DRAIN run, of a run that failed. -/
theorem completionRecordObligation : Obligations.CompletionRecord := by
  unfold Obligations.CompletionRecord
  refine ⟨?ended, ?noDrain, ?failed⟩
  case ended =>
    intro s n r l a hc hruns _ _ hend hlow hfit ha
    refine does_core_then n rfl hc ?_
    have hrec : recStatus s.chip n r < 16 := by
      unfold recStatus
      split <;> omega
    have h := completionRecord_ended_low hruns hend hrec hfit
    rw [ha]
    refine ⟨h.tag, h.status, h.cplHead, ?_, ?_⟩
    · rw [h.runs, hruns, List.drop_one, List.tail_cons]
    · rw [h.st, hruns, List.drop_one, List.tail_cons]
  case noDrain =>
    intro s n r l a hc hruns _ _ hend hbegun hno hpoison hmeta hstatus hfit ha
    refine does_core_then n rfl hc ?_
    have hrec : recStatus s.chip n r = if leaseLive s.chip n r = false then 2 else 0 := by
      simp [recStatus, hstatus]
    have h := completionRecord_noDrain_low hruns hend hbegun hno hpoison hmeta (by rw [hrec]; split <;> decide) hfit
    rw [ha]
    refine ⟨h.tag, h.status.trans hrec, h.cplHead, ?_, ?_⟩
    · rw [h.runs, hruns, List.drop_one, List.tail_cons]
    · rw [h.st, hruns, List.drop_one, List.tail_cons]
  case failed =>
    intro s n r l a hc hruns hend hhigh herr hfit ha
    refine does_core_then n rfl hc ?_
    have h := completionRecord_ended_high hruns hend hhigh herr hfit
    rw [ha]
    exact ⟨h.tag, h.status, h.cplHead, h.st, h.fault, h.err⟩

end Sys2Proof.Machine
end

section
/-! What happens beneath the slots (R142, R162, R215, R312 to R320): stores, frames, packets and the log leave every slot,
quarantine and the units alone, and an error that shows goes on to show. -/

namespace Sys2Proof.Machine

variable {c k : Chip} {n : Nat}

structure Below (c k : Chip) : Prop where
  slots : k.slots = c.slots
  quar : k.quar = c.quar
  units : k.mtm.units = c.mtm.units
  err : ∀ p cls cause, cls < 32 → cause < 32 → c.hasErr p cls cause = true → k.hasErr p cls cause = true

theorem Below.refl (c : Chip) : Below c c := ⟨rfl, rfl, rfl, fun _ _ _ _ _ h => h⟩
/-- Transitivity, the later operation first. -/
theorem Below.after {a b d : Chip} (g : Below b d) (h : Below a b) : Below a d :=
  ⟨g.slots.trans h.slots, g.quar.trans h.quar, g.units.trans h.units, fun p i j hi hj he =>
    g.err p i j hi hj (h.err p i j hi hj he)⟩
theorem Below.ite {a b : Chip} {P : Prop} [Decidable P] (ha : Below c a) (hb : Below c b) : Below c (if P then a else b) := by
  split
  · exact ha
  · exact hb
theorem Below.foldl {α : Type} {f : Chip → α → Chip} (h : ∀ k x, Below k (f k x)) (l : List α) (c : Chip) :
    Below c (l.foldl f c) := by
  induction l generalizing c with
  | nil => exact .refl c
  | cons x l ih => exact (ih _).after (h c x)
theorem Below.forEach {f : Nat → Chip → Chip} (h : ∀ i k, Below k (f i k)) (l : List Nat) (c : Chip) :
    Below c (forEach l f c) := .foldl (fun k i => h i k) l c
/-- An operation on no register, slot, unit or quarantine entry. -/
theorem Below.of_regs (hs : k.slots = c.slots) (hq : k.quar = c.quar) (hu : k.mtm.units = c.mtm.units)
    (hr : k.regs = c.regs) : Below c k :=
  ⟨hs, hq, hu, fun p i j _ _ h => by rwa [Chip.hasErr, Chip.rg, hr]⟩
/-- An operation on registers of which none is an ERR_STS. -/
theorem Below.of_rg (hs : k.slots = c.slots) (hq : k.quar = c.quar) (hu : k.mtm.units = c.mtm.units)
    (hr : ∀ p, k.rg (ra p 0x10) = c.rg (ra p 0x10)) : Below c k :=
  ⟨hs, hq, hu, fun p i j _ _ h => by rwa [Chip.hasErr, hr p]⟩
theorem Below.slot (h : Below c k) (m : Nat) : k.slot m = c.slot m := by rw [Chip.slot, h.slots, Chip.slot]

/-! ### Registers and the log -/

theorem bumpRg_below (a v : Nat) (h : ∀ p, ra p 0x10 ≠ a) (c : Chip) : Below c (c.bumpRg a v) :=
  .of_rg rfl rfl rfl fun p => Chip.setRg_rg_other _ _ _ _ (h p)
theorem irq_below (p i : Nat) (c : Chip) : Below c (irq p i c) := by
  have hrg : ∀ q, (irq p i c).rg (ra q 0x10) = c.rg (ra q 0x10) := fun q =>
    irq_rg p i c _ (by simp [ra_inj]) (by simp [ra_inj])
  obtain ⟨r, m, h⟩ := irq_only p i c
  rw [h] at hrg ⊢
  exact .of_rg rfl rfl rfl hrg
theorem event_below (kind p : Nat) (l : List Nat) (c : Chip) : Below c (event kind p l c) := by
  have hrg : ∀ q, (event kind p l c).rg (ra q 0x10) = c.rg (ra q 0x10) := fun q =>
    event_rg kind p l c _ (by simp [ra_inj])
  obtain ⟨r, m, h⟩ := event_only kind p l c
  rw [h] at hrg ⊢
  exact .of_rg rfl rfl rfl hrg
theorem logErr_hasErr_mono (e : ErrRec) (c : Chip) {p cls cause : Nat} (hcls : cls < 32) (hcause : cause < 32)
    (h : c.hasErr p cls cause = true) : (logErr e c).hasErr p cls cause = true := by
  obtain ⟨h1, h2⟩ := Bool.and_eq_true_iff.mp h
  unfold Chip.hasErr
  by_cases hp : p = e.page
  · subst hp
    rw [logErr_sts, bit_mod _ _ hcls, bit_mod _ _ hcause]
    simp [bit_or, h1, h2]
  · rw [logErr_rg e c _ (by simp [errRegs, ra_inj, hp]), h1, h2]
    rfl
theorem logErr_below (e : ErrRec) (c : Chip) : Below c (logErr e c) := by
  obtain ⟨r, m, t, q, w, h⟩ := logErr_only e c
  have hfields : (logErr e c).slots = c.slots ∧ (logErr e c).quar = c.quar ∧ (logErr e c).mtm.units = c.mtm.units := by
    rw [h]
    exact ⟨rfl, rfl, rfl⟩
  obtain ⟨hs, hq, hu⟩ := hfields
  exact ⟨hs, hq, hu, fun p i j hi hj he => logErr_hasErr_mono e c hi hj he⟩

/-! ### Packets -/

theorem dropSlice_below (slice dest : Nat) (c : Chip) : Below c (dropSlice slice dest c) :=
  (logErr_below _ _).after (bumpRg_below _ _ (by simp [ra_inj]) c)
theorem dropRoute_below (dest : Nat) (c : Chip) : Below c (dropRoute dest c) :=
  (logErr_below _ _).after (bumpRg_below _ _ (by simp [ra_inj]) c)
theorem routePkt_below (p : Packet) (inp : Nat) (c : Chip) : Below c (routePkt p inp c).1 := by
  unfold routePkt
  dsimp only
  split_ifs
  · exact dropSlice_below _ _ c
  · exact .refl c
  · exact dropSlice_below _ _ c
  · exact .refl c
  · exact .refl c
  · exact dropRoute_below _ c
theorem enqueue_below (port : Nat) (q : QPkt) (c : Chip) : Below c (enqueue port q c) := .of_regs rfl rfl rfl rfl
theorem spread_below (q : QPkt) (dest : Nat) (r : Route) (c : Chip) : Below c (spread q dest r c) := by
  unfold spread
  split
  · exact .refl c
  · exact .refl c
  · exact enqueue_below _ _ c
  · exact .forEach (fun o k => .ite (enqueue_below _ _ k) (dropRoute_below _ k)) _ c
theorem deliver_below (p : Packet) (inp : Nat) (c : Chip) : Below c (deliver p inp c) :=
  .ite (logErr_below _ c) (.of_regs rfl rfl rfl rfl)
theorem pktOrd_below (i : Nat) (c : Chip) : Below c { c with pktOrd := i } := .of_regs rfl rfl rfl rfl
theorem sendPkt_below (p : Packet) (c : Chip) : Below c (sendPkt p c) := by
  have hspread : ∀ q dest r p', Below c (spread q dest r { (routePkt p' 6 c).1 with pktOrd := c.pktOrd + 1 }) :=
    fun q dest r p' => ((spread_below _ _ _ _).after (pktOrd_below _ _)).after (routePkt_below p' 6 c)
  unfold sendPkt
  exact .ite ((deliver_below _ _ _).after (hspread _ _ _ _)) (hspread _ _ _ _)

/-! ### Memory -/

theorem store_below (a : Nat) (l : List Byte) (c : Chip) : Below c (c.store a l) := .of_regs rfl rfl rfl rfl
theorem storeLe_below (a w v : Nat) (c : Chip) : Below c (c.storeLe a w v) := .of_regs rfl rfl rfl rfl
theorem zero_below (a w : Nat) (c : Chip) : Below c (c.zero a w) := .of_regs rfl rfl rfl rfl
theorem setRecW_below (t i w v : Nat) (c : Chip) : Below c (c.setRecW t i w v) := storeLe_below _ _ _ c
theorem mark_below (a w : Nat) (c : Chip) : Below c (c.mark a w) := .of_regs rfl rfl rfl rfl
theorem copyMem_below (src dst w : Nat) (c : Chip) : Below c (c.copyMem src dst w) :=
  .ite (store_below _ _ c) ((Below.foldl (fun k _ => .ite (mark_below _ _ k) (.refl k)) _ _).after (store_below _ _ c))
theorem noteLow_below (c : Chip) : Below c (noteLow c) :=
  .ite ((irq_below _ _ _).after (.of_regs rfl rfl rfl rfl)) (.of_regs rfl rfl rfl rfl)
theorem setRef_below (t f v : Nat) (c : Chip) : Below c (setRef t f v c) := .ite (storeLe_below _ _ _ c) (storeLe_below _ _ _ c)
theorem freeRec_below (t f : Nat) (c : Chip) : Below c (c.freeRec t f) := .of_regs rfl rfl rfl rfl
theorem retire_below (t f : Nat) (c : Chip) : Below c (retire t f c) := .ite (store_below _ _ c) (freeRec_below _ _ c)
theorem dropShelf_below (i : Nat) (c : Chip) : Below c (c.dropShelf i) := .of_regs rfl rfl rfl rfl
theorem dropLow_below (t f : Nat) (c : Chip) : Below c (dropLow t f c) := by
  unfold dropLow
  extract_lets r shelf kv bad c1 c2
  have h : Below c c2 := .ite ((dropShelf_below _ _).after (retire_below _ _ c)) (retire_below _ _ c)
  exact .ite (setRef_below _ _ _ c) (.ite ((sendPkt_below _ _).after h) h)
theorem dropT0_below (f : Nat) (c : Chip) : Below c (dropT0 f c) := by
  have hretire := retire_below 0 f c
  unfold dropT0
  dsimp only
  generalize retire 0 f c = j at hretire
  exact .ite (setRef_below _ _ _ c) ((noteLow_below _).after (.ite ((dropLow_below _ _ _).after hretire) hretire))
theorem takeFrame_below {kind acct owner f : Nat} (h : takeFrame kind acct owner c = some (f, k)) : Below c k := by
  obtain ⟨x, -, hx⟩ := Option.map_eq_some_iff.mp h
  rw [← (Prod.mk.inj hx).2]
  exact ((noteLow_below _).after (store_below _ _ _)).after (zero_below _ _ _)
theorem clearMoving_below (src : Option (Nat × Nat)) (c : Chip) : Below c (clearMoving src c) := by
  unfold clearMoving
  split
  · exact setRecW_below _ _ _ _ c
  · exact .refl c
theorem dropDest_below (p : Publ) (c : Chip) : Below c (dropDest p c) := by
  unfold dropDest
  extract_lets c0 c1
  have h0 : Below c c0 := clearMoving_below _ c
  have h1 : Below c c1 := by
    unfold c1
    split
    · exact ((noteLow_below _).after (freeRec_below _ _ _)).after h0
    · exact (dropLow_below _ _ _).after h0
    · exact h0
  split
  · exact (dropLow_below _ _ _).after h1
  · exact h1

/-! ### Writes to the TAS -/

theorem badAddr_below (a : Nat) (c : Chip) : Below c (badAddr a c) := logErr_below _ c
theorem protectedWrite_below (a : Nat) (c : Chip) : Below c (protectedWrite a c) := logErr_below _ c
theorem granuleFirst_below {g : Nat} (h : granuleFirst g c = some k) : Below c k := by
  obtain ⟨⟨f, j⟩, hx, hk⟩ := Option.map_eq_some_iff.mp h
  rw [← hk]
  exact (storeLe_below _ _ _ _).after (takeFrame_below hx)
theorem writePart_below (a : Nat) (l : List Byte) (c : Chip) : Below c (writePart a l c).1 := by
  unfold writePart
  dsimp only
  split
  · split_ifs
    · exact badAddr_below _ c
    · exact badAddr_below _ c
    · exact protectedWrite_below _ c
    · exact store_below _ _ c
    · split
      · exact (store_below _ _ _).after (granuleFirst_below (by assumption))
      · exact badAddr_below _ c
  · split
    · split_ifs
      · exact protectedWrite_below _ c
      · exact store_below _ _ c
    · exact badAddr_below _ c
theorem writeParts_below (f a : Nat) (l : List Byte) (c : Chip) : Below c (writeParts f a l c).1 := by
  induction f generalizing a l c with
  | zero => exact .refl c
  | succ f ih =>
    unfold writeParts
    dsimp only
    split_ifs
    · exact .refl c
    · exact writePart_below _ _ c
    · exact (ih _ _ _).after (writePart_below _ _ c)
theorem tasWrite_below (a : Nat) (l : List Byte) (c : Chip) : Below c (tasWrite a l c).1 := by
  unfold tasWrite
  split_ifs
  · exact .refl c
  · exact badAddr_below _ c
  · exact writeParts_below _ _ _ c

end Sys2Proof.Machine
end

section
/-! Slots that park, release and resume (R150, R151, R163, R164): which operations leave the binding of every slot, and the
commands. -/

namespace Sys2Proof.Machine

variable {c k : Chip} {n : Nat}

/-! ### The binding of a slot -/

/-- State, descriptor, root, lengths, cursors and lost rows of a slot are as before. -/
structure Slot.SameBinding (x y : Slot) : Prop where
  st : y.st = x.st
  inRing : y.inRing = x.inRing
  desc : y.desc = x.desc
  words : y.words = x.words
  root : y.root = x.root
  dirGen : y.dirGen = x.dirGen
  pubGen : y.pubGen = x.pubGen
  lens : y.lens = x.lens
  cursors : y.cursors = x.cursors
  lost : y.lost = x.lost

theorem Slot.SameBinding.refl (x : Slot) : x.SameBinding x := ⟨rfl, rfl, rfl, rfl, rfl, rfl, rfl, rfl, rfl, rfl⟩
theorem Slot.SameBinding.trans {x y z : Slot} (h : x.SameBinding y) (g : y.SameBinding z) : x.SameBinding z :=
  ⟨g.st.trans h.st, g.inRing.trans h.inRing, g.desc.trans h.desc, g.words.trans h.words, g.root.trans h.root,
    g.dirGen.trans h.dirGen, g.pubGen.trans h.pubGen, g.lens.trans h.lens, g.cursors.trans h.cursors, g.lost.trans h.lost⟩

/-- The binding of every slot is as before. -/
def KeepsBinding (c k : Chip) : Prop := ∀ m, (c.slot m).SameBinding (k.slot m)

theorem KeepsBinding.refl (c : Chip) : KeepsBinding c c := fun m => .refl (c.slot m)
/-- Transitivity, the later operation first. -/
theorem KeepsBinding.after {a b d : Chip} (g : KeepsBinding b d) (h : KeepsBinding a b) : KeepsBinding a d :=
  fun m => (h m).trans (g m)
theorem KeepsBinding.foldl {α : Type} {f : Chip → α → Chip} (h : ∀ k x, KeepsBinding k (f k x)) (l : List α) (c : Chip) :
    KeepsBinding c (l.foldl f c) := by
  induction l generalizing c with
  | nil => exact .refl c
  | cons x l ih => exact (ih _).after (h c x)
theorem KeepsBinding.forEach {f : Nat → Chip → Chip} (h : ∀ i k, KeepsBinding k (f i k)) (l : List Nat) (c : Chip) :
    KeepsBinding c (forEach l f c) := .foldl (fun k i => h i k) l c
theorem Below.keepsBinding (h : Below c k) : KeepsBinding c k := fun m => by
  rw [h.slot m]
  exact .refl (c.slot m)
theorem setSlot_keepsBinding {x : Slot} (h : (c.slot n).SameBinding x) : KeepsBinding c (c.setSlot n x) := by
  intro m
  rw [Chip.setSlot_slot]
  split
  · next hm => exact hm ▸ h
  · exact .refl (c.slot m)
theorem slot_setSlot_other {m : Nat} (h : m ≠ n) (x : Slot) : (c.setSlot n x).slot m = c.slot m := by
  rw [Chip.setSlot_slot, if_neg h]

theorem latchSlot_keepsBinding (m who : Nat) (c : Chip) : KeepsBinding c (latchSlot m who c) :=
  setSlot_keepsBinding ⟨rfl, rfl, rfl, rfl, rfl, rfl, rfl, rfl, rfl, rfl⟩
theorem unlatch_keepsBinding (m who : Nat) (c : Chip) : KeepsBinding c (unlatch m who c) :=
  setSlot_keepsBinding ⟨rfl, rfl, rfl, rfl, rfl, rfl, rfl, rfl, rfl, rfl⟩
theorem dropUnit_keepsBinding (u : Nat) (c : Chip) : KeepsBinding c (c.dropUnit u) := fun m => .refl (c.slot m)
theorem dropBuild_keepsBinding (n : Nat) (p : Publ) (c : Chip) : KeepsBinding c (dropBuild n p c) := by
  unfold dropBuild
  extract_lets c1 c2
  have h1 : KeepsBinding c c1 := KeepsBinding.foldl (fun k u => dropUnit_keepsBinding u k) _ c
  have h2 : KeepsBinding c c2 := (KeepsBinding.forEach (fun m k => unlatch_keepsBinding m _ k) _ c1).after h1
  refine KeepsBinding.after (setSlot_keepsBinding ?_) h2
  exact ⟨rfl, rfl, rfl, rfl, rfl, rfl, rfl, rfl, rfl, rfl⟩
theorem refusePub_keepsBinding (n : Nat) (b : Nat × Nat) (c : Chip) : KeepsBinding c (refusePub n b c) :=
  (logErr_below _ _).keepsBinding.after (setSlot_keepsBinding ⟨rfl, rfl, rfl, rfl, rfl, rfl, rfl, rfl, rfl, rfl⟩)
theorem cleanPubs_keepsBinding (n : Nat) (c : Chip) : KeepsBinding c (cleanPubs n c) := by
  unfold cleanPubs
  extract_lets s c1 c2 c3
  have h1 : KeepsBinding c c1 := by
    unfold c1
    split
    · split
      · exact (refusePub_keepsBinding _ _ _).after (dropBuild_keepsBinding _ _ c)
      · exact (dropDest_below _ _).keepsBinding.after (dropBuild_keepsBinding _ _ c)
    · exact .refl c
  have h2 : KeepsBinding c c2 := by
    unfold c2
    split
    · exact (refusePub_keepsBinding _ _ _).after h1
    · exact h1
  have h3 : KeepsBinding c c3 := (KeepsBinding.foldl (fun k p => (dropDest_below p k).keepsBinding) _ c2).after h2
  refine KeepsBinding.after (setSlot_keepsBinding ?_) h3
  exact ⟨rfl, rfl, rfl, rfl, rfl, rfl, rfl, rfl, rfl, rfl⟩
theorem cleanPubs_publ (n : Nat) (c : Chip) : ((cleanPubs n c).slot n).publ = none := by
  unfold cleanPubs
  dsimp only
  rw [Chip.setSlot_slot_same]

/-- What sealing a page changes of its slot: the list of seals. -/
theorem sealPage_slot (n layer : Nat) (c : Chip) : ∃ l, (sealPage n layer c).slot n = { c.slot n with seals := l } := by
  unfold sealPage
  dsimp only
  split
  · exact ⟨_, rfl⟩
  · exact ⟨_, ((((setRecW_below _ _ _ _ _).after (storeLe_below _ _ _ _)).after (storeLe_below _ _ _ _)).after
      (storeLe_below _ _ _ _)).slot n |>.trans (Chip.setSlot_slot_same ..)⟩
theorem sealPages_slot {α : Type} (f : α → Nat) (n : Nat) (l : List α) (c : Chip) :
    ∃ t, (l.foldl (fun k x => sealPage n (f x) k) c).slot n = { c.slot n with seals := t } := by
  induction l generalizing c with
  | nil => exact ⟨_, rfl⟩
  | cons x l ih =>
    obtain ⟨t, ht⟩ := ih (sealPage n (f x) c)
    obtain ⟨u, hu⟩ := sealPage_slot n (f x) c
    exact ⟨t, by rw [List.foldl_cons, ht, hu]⟩
theorem dropReserves_slot (n : Nat) (c : Chip) :
    (dropReserves n c).slot n = { c.slot n with reserve := (c.slot n).reserve.map (fun _ => []) } := by
  unfold dropReserves
  exact ((noteLow_below _).slot n).trans (Chip.setSlot_slot_same ..)
theorem writeDesc_below (n st : Nat) (c : Chip) : Below c (writeDesc n st c) :=
  (tasWrite_below _ _ _).after (store_below _ _ c)

/-! ### RESUME and CLEAR_FAULT -/

theorem refuseSlot_logs (n code v : Nat) (c : Chip) :
    (c.setSlot n { c.slot n with refuse := code }).logs (refuseSlot n code v c) (pgSlot n) 0 12 :=
  logs_ce _ _ _ _ _ (by decide)

theorem refused_logs {code v : Nat} (h : k = refuseSlot n code v c) :
    (c.setSlot n { c.slot n with refuse := code }).logs k (pgSlot n) 0 12 := h ▸ refuseSlot_logs n code v c

/-- Settles O31, command by command. -/
theorem slotResume : Obligations.SlotResume := by
  unfold Obligations.SlotResume
  refine ⟨?ready, ?short, ?otherState, ?cleared, ?notFaulted⟩
  case ready =>
    intro s n hc hst hshort hroom
    refine does_run rfl hc ?_
    have hfull : ¬ ((s.chip.slot n).short ≠ 0 ∨
        ((s.chip.slot n).cause = 2 ∧ dQuota (s.chip.slot n).words ≤ (s.chip.slot n).len (s.chip.slot n).layer)) := by
      omega
    exact (if_neg (not_not.mpr hst)).trans (if_neg hfull)
  case short =>
    intro s n hc hst hshort
    exact does_run rfl hc (refused_logs ((if_neg (not_not.mpr hst)).trans (if_pos hshort)))
  case otherState =>
    intro s n hc hst
    exact does_run rfl hc (refused_logs (if_pos hst))
  case cleared =>
    intro s n hc hst
    refine does_run rfl hc ?_
    exact if_neg (not_not.mpr hst)
  case notFaulted =>
    intro s n hc hst
    exact does_run rfl hc (refused_logs (if_pos hst))

/-! ### PARK and RELEASE -/

theorem parkSlot_refused (v : Nat) (h : (c.slot n).inRing = true ∨ ((c.slot n).st ≠ 2 ∧ (c.slot n).st ≠ 3)) :
    parkSlot n v c = refuseSlot n 1 v c := if_pos (by
  obtain h | ⟨h2, h3⟩ := h
  · simp [h]
  · simp [h2, h3])
theorem parkSlot_notWhole (v : Nat) (hst : (c.slot n).st = 2 ∨ (c.slot n).st = 3) (hring : (c.slot n).inRing = false)
    (hwhole : (c.slot n).whole = false) : parkSlot n v c = refuseSlot n 6 v c :=
  (if_neg (by obtain h | h := hst <;> simp [h, hring])).trans (if_pos (by rw [hwhole]; rfl))
/-- A slot that parks keeps its descriptor, root and lengths, without publication and reserves (R163). -/
theorem parkSlot_slot (v : Nat) (hst : (c.slot n).st = 2 ∨ (c.slot n).st = 3) (hring : (c.slot n).inRing = false)
    (hwhole : (c.slot n).whole = true) :
    ∃ x : Slot, (c.slot n).SameBinding x ∧ x.publ = none ∧ (∀ r ∈ x.reserve, r = []) ∧
      (parkSlot n v c).slot n = { x with st := 5, refuse := 0, shortAt := none } := by
  have hpark : parkSlot n v c = _ :=
    (if_neg (by obtain h | h := hst <;> simp [h, hring])).trans (if_neg (by rw [hwhole]; decide))
  obtain ⟨t, hseals⟩ := sealPages_slot Prod.fst n (c.slot n).seals (cleanPubs n c)
  refine ⟨_, ?_, ?_, ?_, (congrArg (fun k : Chip => k.slot n) hpark).trans (Chip.setSlot_slot_same ..)⟩
  all_goals
    rw [(Below.forEach (fun l k => .ite (.refl k) (storeLe_below _ _ _ k)) _ _).slot n, (writeDesc_below _ _ _).slot n,
      dropReserves_slot, hseals]
  · obtain ⟨h1, h2, h3, h4, h5, h6, h7, h8, h9, h10⟩ := cleanPubs_keepsBinding n c n
    exact ⟨h1, h2, h3, h4, h5, h6, h7, h8, h9, h10⟩
  · exact cleanPubs_publ n c
  · intro r hr
    obtain ⟨_, -, rfl⟩ := List.mem_map.mp hr
    rfl

theorem quarFrame_slot (n tag tier f : Nat) (c : Chip) (m : Nat) : (quarFrame n tag tier f c).slot m = c.slot m := by
  unfold quarFrame
  exact (Below.ite (setRecW_below _ _ _ _ c) (.refl c) : Below c _).slot m
/-- Handing over to quarantine takes from what the slot has still to hand over, and from nothing else of any slot. -/
theorem handOver_slot (n : Nat) (c : Chip) :
    (handOver n c).slots = (c.setSlot n { c.slot n with
      toQuar := (c.slot n).toQuar.drop (quarSize - quarHeld c) }).slots := by
  unfold handOver
  dsimp only
  generalize List.take _ _ = l
  generalize c.setSlot n _ = j
  induction l generalizing j with
  | nil => rfl
  | cons x l ih =>
    rw [List.foldl_cons, ih]
    split
    · rfl
    · unfold quarFrame
      exact (Below.ite (setRecW_below _ _ _ _ j) (.refl j) : Below j _).slots
theorem releaseSlot_refused (v : Nat)
    (h : (c.slot n).inRing = true ∨ ((c.slot n).st ≠ 2 ∧ (c.slot n).st ≠ 3 ∧ (c.slot n).st ≠ 4)) :
    releaseSlot n v c = refuseSlot n 1 v c := if_pos (by
  obtain h | ⟨h2, h3, h4⟩ := h
  · simp [h]
  · simp [h2, h3, h4])
/-- A slot that releases takes the next generation and drops its publication (R164). -/
theorem releaseSlot_slot (v : Nat) (hst : (c.slot n).st = 2 ∨ (c.slot n).st = 3 ∨ (c.slot n).st = 4)
    (hring : (c.slot n).inRing = false) :
    ((releaseSlot n v c).slot n).st = 6 ∧ ((releaseSlot n v c).slot n).refuse = 0 ∧
      ((releaseSlot n v c).slot n).dirGen = ((c.slot n).dirGen + 1) % 2 ^ 32 ∧
      ((releaseSlot n v c).slot n).publ = none ∧ ((releaseSlot n v c).slot n).lost = (c.slot n).lost := by
  have hrelease : releaseSlot n v c = _ := if_neg (by obtain h | h | h := hst <;> simp [h, hring])
  rw [hrelease, Chip.slot, handOver_slot, ← Chip.slot, Chip.setSlot_slot_same, Chip.setSlot_slot_same,
    (writeDesc_below _ _ _).slot n, Chip.setSlot_slot_same, dropReserves_slot]
  exact ⟨rfl, rfl, rfl, cleanPubs_publ n c, (cleanPubs_keepsBinding n c n).lost⟩

/-! ### The end of PARKING and RELEASING -/

theorem queueSettle_slots (q : Nat) (c : Chip) : (queueSettle q c).slots = c.slots := by
  unfold queueSettle
  dsimp only
  split <;> rfl
theorem cqPush_slots (q kind status count cid detail : Nat) (data : List Nat) (c : Chip) :
    (cqPush q kind status count cid detail data c).slots = c.slots := by
  unfold cqPush
  dsimp only
  rw [apply_ite Chip.slots, sendFrame_slots, ite_self, Chip.setQueue_slots, Chip.store_slots]
theorem queueFlush_slots (q f : Nat) (c : Chip) : (queueFlush q f c).slots = c.slots := by
  induction f generalizing c with
  | zero => rfl
  | succ f ih =>
    unfold queueFlush
    dsimp only
    split
    · exact queueSettle_slots q c
    · split
      · rfl
      · split_ifs
        · rw [ih]; rfl
        · rw [ih, cqPush_slots]; rfl
        · rfl
theorem finish_slots (q i status detail : Nat) (c : Chip) : (finish q i status detail c).slots = c.slots :=
  queueFlush_slots q _ _
theorem slotSettle_slots (n : Nat) (c : Chip) : (slotSettle n c).slots = c.slots := by
  unfold slotSettle
  dsimp only
  split
  · split_ifs
    · rfl
    · exact finish_slots _ _ _ _ c
    · exact finish_slots _ _ _ _ c
  · rfl
/-- A slot still in transit settles nothing. -/
theorem slotSettle_passing (h : passing (c.slot n) = true) : slotSettle n c = c := by
  unfold slotSettle
  dsimp only
  split
  · exact if_pos h
  · rfl
/-- A slot that has settled into IDLE keeps its lost rows; the other slots stay. -/
theorem slotSettle_idle (n : Nat) (x : Slot) (c : Chip) :
    (slotSettle n (c.setSlot n x)).slot n = x ∧ ∀ m, m ≠ n → (slotSettle n (c.setSlot n x)).slot m = c.slot m := by
  simp only [Chip.slot, slotSettle_slots]
  exact ⟨Chip.setSlot_slot_same .., fun m hm => slot_setSlot_other hm x⟩

/-- Settles O30, command by command. -/
theorem slotParkRelease : Obligations.SlotParkRelease := by
  unfold Obligations.SlotParkRelease
  refine ⟨?park, ?notWhole, ?parkState, ?parked, ?parking, ?release, ?releaseState, ?released, ?releasing⟩
  case park =>
    intro s n hc hst hring hwhole
    refine does_run rfl hc ?_
    obtain ⟨x, hx, hpubl, hreserve, hslot⟩ := parkSlot_slot 2 hst hring hwhole
    rw [show slotCmd n 2 s.chip = parkSlot n 2 s.chip from rfl, hslot]
    exact ⟨rfl, rfl, hx.desc, hx.root, hx.lens, hpubl, hx.lost, hreserve⟩
  case notWhole =>
    intro s n hc hst hring hwhole
    exact does_run rfl hc (refused_logs (parkSlot_notWhole 2 hst hring hwhole))
  case parkState =>
    intro s n hc hst
    exact does_run rfl hc (refused_logs (parkSlot_refused 2 hst))
  case parked =>
    intro s n hc hst hquar
    refine does_run rfl hc ?_
    rw [show parkDone n s.chip = s.chip.setSlot n { lost := (s.chip.slot n).lost } from if_pos ⟨hst, hquar⟩]
    exact slotSettle_idle n _ s.chip
  case parking =>
    intro s n hc hst hquar
    refine does_run rfl hc ?_
    rw [show parkDone n s.chip = s.chip from if_neg fun h => hquar h.2]
    exact slotSettle_passing (by simp [passing, hst])
  case release =>
    intro s n hc hst hring
    exact does_run rfl hc (releaseSlot_slot 3 hst hring)
  case releaseState =>
    intro s n hc hst
    exact does_run rfl hc (refused_logs (releaseSlot_refused 3 hst))
  case released =>
    intro s n hc hst hto hquar
    refine does_run rfl hc ?_
    rw [show releaseDone n s.chip = s.chip.setSlot n { lost := (s.chip.slot n).lost } from if_pos ⟨hst, hto, hquar⟩]
    exact slotSettle_idle n _ s.chip
  case releasing =>
    intro s n hc hst hleft
    refine does_run rfl hc ?_
    have hstays : ¬ ((s.chip.slot n).st = 6 ∧ (s.chip.slot n).toQuar = [] ∧ quarOf n s.chip = 0) :=
      fun h => hleft.elim (fun g => g h.2.1) fun g => g h.2.2
    rw [show releaseDone n s.chip = s.chip from if_neg hstays]
    exact slotSettle_passing (by simp [passing, hst])

end Sys2Proof.Machine
end

section
/-! Release from quarantine (R162): the entry that leaves, what takes its room, and the frame that becomes free. -/

namespace Sys2Proof.Machine

variable {c k : Chip} {n : Nat}

/-! ### Cleared memory -/

/-- A cleared range reads as the default, whatever the table is. -/
theorem get_clear_inside {α : Type} (d : Nat → α) {lo hi i : Nat} (t : Tab α) (hlo : lo ≤ i) (hhi : i < hi) :
    Tab.get d (Tab.clear lo hi t) i = d i := by
  induction t with
  | nil => rfl
  | cons e t ih =>
    obtain ⟨j, w⟩ := e
    by_cases hj : j < lo ∨ hi ≤ j
    · rw [Tab.clear, List.filter_cons_of_pos (by simpa using hj), Tab.get, if_neg (by omega)]
      split
      · rfl
      · exact ih
    · rw [Tab.clear, List.filter_cons_of_neg (by simpa using hj)]
      exact ih
theorem leNat_replicate_zero (w : Nat) : leNat (List.replicate w 0#8) = 0 := by
  induction w with
  | zero => rfl
  | succ w ih => rw [List.replicate_succ, leNat, ih]; rfl
theorem le_zero (a w b v : Nat) (c : Chip) (hlo : a ≤ b) (hhi : b + v ≤ a + w) : (c.zero a w).le b v = 0 := by
  have hbytes : (c.zero a w).bytes b v = List.replicate v 0#8 := by
    refine List.ext_getElem (by simp [Chip.bytes, Tab.getList]) fun i hi _ => ?_
    have hi : i < v := by simpa [Chip.bytes, Tab.getList] using hi
    simp only [Chip.bytes, Tab.getList, List.getElem_map, List.getElem_range, List.getElem_replicate]
    exact get_clear_inside _ c.mem (by omega) (by omega)
  rw [Chip.le, hbytes, leNat_replicate_zero]

/-! ### The low water mark and free frames -/

theorem noteLow_mem (c : Chip) : (noteLow c).mem = c.mem := by
  unfold noteLow
  dsimp only
  rw [apply_ite Chip.mem, irq_mem, ite_self]
theorem noteLow_rg (a : Nat) (h : a ≠ ra pgMtm 0x20) (h' : a ≠ ra pgMbp 0x20) (c : Chip) : (noteLow c).rg a = c.rg a := by
  unfold noteLow
  dsimp only
  split
  · exact irq_rg _ _ _ a h h'
  · rfl
theorem noteLow_recKind (f : Nat) (c : Chip) : (noteLow c).recKind 0 f = c.recKind 0 f := by
  have hrec : (noteLow c).rec0 = c.rec0 := by
    have hlo := noteLow_rg (mtmReg 0x11C) (by decide) (by decide) c
    have hhi := noteLow_rg (mtmReg 0x11C + 4) (by decide) (by decide) c
    rw [Chip.rec0, Chip.rg64, hlo, hhi]
    rfl
  show fld 3 0 ((noteLow c).le ((noteLow c).rec0 + 16 * f) 4) = fld 3 0 (c.le (c.rec0 + 16 * f) 4)
  rw [hrec, Chip.le, Chip.bytes, noteLow_mem]
  rfl
/-- The record of a frame that has been freed shows KIND 0. -/
theorem recKind_freeRec (f : Nat) (c : Chip) : (c.freeRec 0 f).recKind 0 f = 0 := by
  show fld 3 0 ((c.zero (c.recAddr 0 f) 16).le (c.recAddr 0 f) 4) = 0
  rw [le_zero _ _ _ _ _ (Nat.le_refl _) (by omega)]
  rfl

/-! ### Handing over -/

theorem quarFrame_quar (n tag tier f : Nat) (c : Chip) :
    (quarFrame n tag tier f c).quar = c.quar ++ [{ tag := tag, slot := n, tier := tier, idx := f }] := by
  unfold quarFrame
  exact congrArg (· ++ _) (Below.ite (setRecW_below _ _ _ _ c) (.refl c) : Below c _).quar
/-- Steps that only add to quarantine add to it together. -/
theorem foldl_quar {α : Type} {f : Chip → α → Chip} (h : ∀ k x, ∃ t, (f k x).quar = k.quar ++ t) (l : List α) (c : Chip) :
    ∃ t, (l.foldl f c).quar = c.quar ++ t := by
  induction l generalizing c with
  | nil => exact ⟨[], (List.append_nil _).symm⟩
  | cons x l ih =>
    obtain ⟨t, ht⟩ := ih (f c x)
    obtain ⟨u, hu⟩ := h c x
    exact ⟨u ++ t, by rw [List.foldl_cons, ht, hu, List.append_assoc]⟩
theorem handOver_quar (n : Nat) (c : Chip) : ∃ t, (handOver n c).quar = c.quar ++ t := by
  unfold handOver
  refine foldl_quar (fun k x => ?_) _ (c.setSlot n _)
  split
  · exact ⟨_, rfl⟩
  · exact ⟨_, quarFrame_quar _ _ _ _ k⟩
theorem handOvers_quar (l : List Nat) (c : Chip) : ∃ t, (forEach l handOver c).quar = c.quar ++ t :=
  foldl_quar (fun k m => handOver_quar m k) l c

/-- Slots that have nothing to hand over leave the module as it is, slot by slot. -/
structure SameSlots (c k : Chip) : Prop where
  same : ∃ t, k = { c with slots := t }
  slot : ∀ m, k.slot m = c.slot m

theorem handOver_nothing (h : (c.slot n).toQuar = []) : SameSlots c (handOver n c) := by
  have hset : handOver n c = c.setSlot n (c.slot n) := by
    unfold handOver
    dsimp only
    rw [h, List.take_nil, List.drop_nil, List.foldl_nil]
    exact congrArg (c.setSlot n) (h ▸ rfl)
  rw [hset]
  refine ⟨⟨_, rfl⟩, fun m => ?_⟩
  rw [Chip.setSlot_slot]
  split
  · next hm => rw [hm]
  · rfl
theorem forEach_cons (f : Nat → Chip → Chip) (m : Nat) (l : List Nat) (c : Chip) :
    forEach (m :: l) f c = forEach l f (f m c) := rfl
theorem handOvers_nothing {l : List Nat} (h : ∀ m ∈ l, (c.slot m).toQuar = []) : SameSlots c (forEach l handOver c) := by
  induction l generalizing c with
  | nil => exact ⟨⟨_, rfl⟩, fun _ => rfl⟩
  | cons m l ih =>
    obtain ⟨⟨t, ht⟩, hslot⟩ := handOver_nothing (h m List.mem_cons_self)
    obtain ⟨⟨u, hu⟩, hslot'⟩ := ih (c := handOver m c) fun i hi => by
      rw [hslot i]
      exact h i (List.mem_cons_of_mem m hi)
    rw [forEach_cons]
    refine ⟨⟨u, ?_⟩, fun i => (hslot' i).trans (hslot i)⟩
    rw [hu, ht]

/-! ### The release -/

theorem quarRelease_held {i : Nat} {q : Quar} (hq : c.quar[i]? = some q) (hheld : serialLt (horizonOf q.slot c) q.tag = true) :
    quarRelease i c = c := by
  unfold quarRelease
  rw [hq]
  exact if_pos hheld
/-- What the release of an entry comes to, once HORIZON has reached its tag. -/
theorem quarRelease_reached {i : Nat} {q : Quar} (hq : c.quar[i]? = some q)
    (hreached : serialLt (horizonOf q.slot c) q.tag = false) :
    (quarRelease i c).quar = c.quar.eraseIdx i ∧ ∀ m, (quarRelease i c).slot m = c.slot m := by
  have hbelow : ∀ {k}, Below { c with quar := c.quar.eraseIdx i } k →
      k.quar = c.quar.eraseIdx i ∧ ∀ m, k.slot m = c.slot m := fun h => ⟨h.quar, h.slot⟩
  have hunits : ∀ (l : List Nat) (b : Nat) (k : Chip),
      (l.foldl (fun k j => k.dropUnit (b + j)) k).quar = k.quar ∧ (l.foldl (fun k j => k.dropUnit (b + j)) k).slots = k.slots := by
    intro l b
    induction l with
    | nil => exact fun _ => ⟨rfl, rfl⟩
    | cons j l ih => exact fun k => ih (k.dropUnit (b + j))
  unfold quarRelease
  rw [hq]
  dsimp only
  rw [if_neg (by simp [hreached])]
  split_ifs
  · obtain ⟨h1, h2⟩ := hunits (List.range q.tier) ((q.idx - ({ c with quar := c.quar.eraseIdx i } : Chip).unitBase) / 4096)
      { c with quar := c.quar.eraseIdx i }
    exact ⟨h1, fun m => by rw [Chip.slot, h2]; rfl⟩
  · exact hbelow (.refl _)
  · exact hbelow (dropT0_below _ _)
  · exact hbelow (dropLow_below _ _ _)
/-- A T0 frame with its last reference, with no error and no home, is free after its release. -/
theorem quarRelease_frame {i : Nat} {q : Quar} (hq : c.quar[i]? = some q) (hunit : q.unit = false) (htier : q.tier = 0)
    (hreached : serialLt (horizonOf q.slot c) q.tag = false) (href : refCnt c 0 q.idx ≤ 1)
    (hbad : bit 6 (c.recW 0 q.idx 0) = false) (hhome : bit 7 (c.recW 0 q.idx 0) = false) :
    (quarRelease i c).recKind 0 q.idx = 0 := by
  have hfree : quarRelease i c = noteLow (({ c with quar := c.quar.eraseIdx i } : Chip).freeRec 0 q.idx) := by
    unfold quarRelease
    rw [hq]
    dsimp only
    rw [if_neg (by simp [hreached]), if_neg (by simp [hunit]), if_pos htier]
    unfold dropT0
    dsimp only
    rw [if_neg (show ¬ 1 < refCnt { c with quar := c.quar.eraseIdx i } 0 q.idx from Nat.not_lt.mpr href)]
    rw [if_neg (show ¬ bit 7 (({ c with quar := c.quar.eraseIdx i } : Chip).recW 0 q.idx 0) = true from by
      rw [Bool.not_eq_true]; exact hhome)]
    unfold retire
    rw [if_neg (show ¬ bit 6 (({ c with quar := c.quar.eraseIdx i } : Chip).recW 0 q.idx 0) = true from by
      rw [Bool.not_eq_true]; exact hbad)]
  rw [hfree, noteLow_recKind, recKind_freeRec]

/-- Settles O34: an entry whose tag HORIZON has reached, a frame's last reference, an entry that is held. -/
theorem quarantineRelease : Obligations.QuarantineRelease := by
  unfold Obligations.QuarantineRelease
  refine ⟨?reached, ?frame, ?held⟩
  case reached =>
    intro s i q hc hq hreached
    refine does_run rfl hc ?_
    obtain ⟨hquar, hslot⟩ := quarRelease_reached hq hreached
    have hlen : (s.chip.quar.eraseIdx i).length = s.chip.quar.length - 1 :=
      List.length_eraseIdx_of_lt (List.getElem?_eq_some_iff.mp hq).1
    constructor
    · obtain ⟨t, ht⟩ := handOvers_quar (List.range 32) (quarRelease i s.chip)
      rw [quarTurn, ht, hquar, List.take_left' hlen]
    · intro hnothing
      obtain ⟨⟨t, ht⟩, -⟩ := handOvers_nothing (c := quarRelease i s.chip) (l := List.range 32) fun m hm => by
        rw [hslot m]
        exact hnothing m (List.mem_range.mp hm)
      rw [quarTurn, ht]
      exact hquar
  case frame =>
    intro s i q hc hq hunit htier hreached href hbad hhome hnothing
    refine does_run rfl hc ?_
    obtain ⟨hquar, hslot⟩ := quarRelease_reached hq hreached
    obtain ⟨⟨t, ht⟩, hsame⟩ := handOvers_nothing (c := quarRelease i s.chip) (l := List.range 32) fun m hm => by
      rw [hslot m]
      exact hnothing m (List.mem_range.mp hm)
    refine ⟨?_, ?_, fun m => (hsame m).trans (hslot m)⟩
    · rw [quarTurn, ht]
      exact hquar
    · rw [quarTurn, ht]
      exact quarRelease_frame hq hunit htier hreached href hbad hhome
  case held =>
    intro s i q hc hq hheld
    refine does_run rfl hc ?_
    rw [quarTurn, quarRelease_held hq hheld]
    constructor
    · obtain ⟨t, ht⟩ := handOvers_quar (List.range 32) s.chip
      rw [ht, List.take_left' rfl]
    · intro hnothing
      obtain ⟨⟨t, ht⟩, hsame⟩ := handOvers_nothing (c := s.chip) (l := List.range 32) fun m hm =>
        hnothing m (List.mem_range.mp hm)
      refine ⟨?_, ?_, ?_, hsame⟩
      all_goals rw [ht]

end Sys2Proof.Machine
end

section
/-! Rows at the append port, seals and reserves (R153 to R157): where the cursors and lengths go, what a discarded row leaves,
and the records of what the rows caused. -/

namespace Sys2Proof.Machine

variable {c k : Chip} {n kind head layer fmt nb pos : Nat} {el sc : List Byte}

/-! ### Handles -/

/-- The handle of a row of slot n. -/
def rowHandle (n kind head layer : Nat) : Nat := n + 32 * kind + 64 * head + 512 * layer

theorem rowHandle_fields (hn : n < 32) (hkind : kind < 2) (hhead : head < 8) (hlayer : layer < 128) :
    fld 4 0 (rowHandle n kind head layer) = n ∧ fld 5 5 (rowHandle n kind head layer) = kind ∧
      fld 8 6 (rowHandle n kind head layer) = head ∧ fld 15 9 (rowHandle n kind head layer) = layer := by
  unfold rowHandle fld
  refine ⟨?_, ?_, ?_, ?_⟩ <;> omega

/-- A row of the slot's shape and format, for a slot that takes rows (R153). -/
structure RowFits (c : Chip) (n kind head layer fmt nb : Nat) : Prop where
  slot_lt : n < 32
  kind_lt : kind < 2
  head_lt : head < dHeads (c.slot n).words
  heads_le : dHeads (c.slot n).words ≤ 8
  layer_lt : layer < dLayers (c.slot n).words
  layers_le : layer < 128
  bound : nb = dDim (c.slot n).words
  format : fmt = if kind = 0 then dKFmt (c.slot n).words else dVFmt (c.slot n).words
  st : (c.slot n).st = 2 ∨ (c.slot n).st = 3

/-- The page of the layer that row pos lies in has a valid entry. -/
def rowPage (c : Chip) (n layer pos : Nat) : Bool := eValid (pte c (c.slot n).root layer (pos / dTpp (c.slot n).words))

/-! ### The operations below an append -/

theorem touch_below (t f : Nat) (c : Chip) : Below c (c.touch t f) := storeLe_below _ _ _ c
theorem envAdd_below (ma h : Nat) (l : List F32) (c : Chip) : Below c (envAdd ma h l c) := by
  have hput : ∀ a b d x y z, Below c (((c.store a x).store b y).store d z) := fun _ _ _ _ _ _ =>
    ((store_below _ _ _).after (store_below _ _ _)).after (store_below _ _ c)
  unfold envAdd
  dsimp only
  exact .ite (.refl c) (.ite (store_below _ _ c) (.ite (hput _ _ _ _ _ _) (hput _ _ _ _ _ _)))

/-- Of the module, noting that a reserve is short or full changes the slot's beat alone. -/
theorem noteShort_eq (n : Nat) (c : Chip) :
    noteShort n c = c ∨ ∃ b, noteShort n c = c.setSlot n { c.slot n with shortAt := b } := by
  unfold noteShort
  dsimp only
  split_ifs
  · exact .inr ⟨_, rfl⟩
  · exact .inr ⟨_, rfl⟩
  · exact .inl rfl
theorem noteShort_slot (n : Nat) (c : Chip) :
    (∃ b, (noteShort n c).slot n = { c.slot n with shortAt := b }) ∧ ∀ m, m ≠ n → (noteShort n c).slot m = c.slot m := by
  obtain h | ⟨b, h⟩ := noteShort_eq n c
  · rw [h]; exact ⟨⟨_, rfl⟩, fun _ _ => rfl⟩
  · rw [h]; exact ⟨⟨b, Chip.setSlot_slot_same ..⟩, fun m hm => slot_setSlot_other hm _⟩

/-- The first row of a page takes the lowest frame of the layer's reserve (R155). -/
theorem firstRow_taken {f page : Nat} {r : List Nat} (h : (c.slot n).reserve.getD layer [] = f :: r) :
    ∃ k b, firstRow n layer page c = some k ∧ k.slot n = { c.slot n with reserve := (c.slot n).reserve.set layer r, shortAt := b } ∧
      ∀ m, m ≠ n → k.slot m = c.slot m := by
  unfold firstRow
  dsimp only
  rw [h]
  dsimp only
  generalize hj : Chip.storeLe _ _ 8 _ = j
  have hbelow : Below (c.setSlot n { c.slot n with reserve := setAt (c.slot n).reserve layer r }) j := by
    rw [← hj]
    exact ((storeLe_below _ _ _ _).after (store_below _ _ _)).after (store_below _ _ _)
  obtain ⟨⟨b, hb⟩, hother⟩ := noteShort_slot n j
  refine ⟨_, b, rfl, ?_, fun m hm => ?_⟩
  · rw [hb, hbelow.slot n, Chip.setSlot_slot_same]
    rfl
  · rw [hother m hm, hbelow.slot m, slot_setSlot_other hm]
theorem firstRow_empty {page : Nat} (h : (c.slot n).reserve.getD layer [] = []) : firstRow n layer page c = none := by
  unfold firstRow
  dsimp only
  rw [h]

/-! ### A row at the append port -/

/-- Where the chip's row is to be placed: as the page stands, or once its first row has taken a frame. -/
def rowFrame (c : Chip) (n layer pos : Nat) : Option Chip :=
  if rowPage c n layer pos then some c else firstRow n layer (pos / dTpp (c.slot n).words) c

theorem appendOne_badShape {h : Nat} (hbad : ((c.slot (fld 4 0 h)).st ≠ 2 ∧ (c.slot (fld 4 0 h)).st ≠ 3) ∨
      dHeads (c.slot (fld 4 0 h)).words ≤ fld 8 6 h ∨ dLayers (c.slot (fld 4 0 h)).words ≤ fld 15 9 h ∨
      nb ≠ dDim (c.slot (fld 4 0 h)).words ∨
      fmt ≠ (if fld 5 5 h = 0 then dKFmt (c.slot (fld 4 0 h)).words else dVFmt (c.slot (fld 4 0 h)).words)) :
    appendOne h fmt nb el sc c = loseRow (fld 4 0 h) c := if_pos hbad

section
variable (hfit : RowFits c n kind head layer fmt nb)
include hfit

/-- The shape of a row that fits is not what discards it. -/
theorem RowFits.shape : ¬ (((c.slot n).st ≠ 2 ∧ (c.slot n).st ≠ 3) ∨ dHeads (c.slot n).words ≤ head ∨
    dLayers (c.slot n).words ≤ layer ∨ nb ≠ dDim (c.slot n).words ∨
    fmt ≠ (if kind = 0 then dKFmt (c.slot n).words else dVFmt (c.slot n).words)) := by
  obtain ⟨-, -, h1, -, h2, -, h3, h4, h5⟩ := hfit
  rintro (h | h | h | h | h)
  · omega
  · omega
  · omega
  · exact h h3
  · exact h h4

theorem appendOne_quota (hpos : dQuota (c.slot n).words ≤ (c.slot n).cursor layer head kind) :
    appendOne (rowHandle n kind head layer) fmt nb el sc c = stallSlot n 2 layer (loseRow n c) := by
  obtain ⟨h1, h2, h3, h4⟩ := rowHandle_fields hfit.slot_lt hfit.kind_lt (hfit.head_lt.trans_le hfit.heads_le) hfit.layers_le
  unfold appendOne
  dsimp only
  rw [h1, h2, h3, h4, if_neg hfit.shape, if_pos hpos]

theorem appendOne_noFrame (hpos : (c.slot n).cursor layer head kind < dQuota (c.slot n).words)
    (hframe : rowFrame c n layer ((c.slot n).cursor layer head kind) = none) :
    appendOne (rowHandle n kind head layer) fmt nb el sc c = faultSlot n 3 layer (loseRow n c) := by
  obtain ⟨h1, h2, h3, h4⟩ := rowHandle_fields hfit.slot_lt hfit.kind_lt (hfit.head_lt.trans_le hfit.heads_le) hfit.layers_le
  unfold rowFrame rowPage at hframe
  unfold appendOne
  dsimp only
  rw [h1, h2, h3, h4, if_neg hfit.shape, if_neg (Nat.not_le.mpr hpos), hframe]

theorem appendOne_stalled {j : Chip} (hpos : (c.slot n).cursor layer head kind < dQuota (c.slot n).words)
    (hframe : rowFrame c n layer ((c.slot n).cursor layer head kind) = some j) (hst : (c.slot n).st = 3)
    (hstep : (c.slot n).cause ≠ 1 ∨ inStep c n = false) :
    appendOne (rowHandle n kind head layer) fmt nb el sc c = loseRow n c := by
  obtain ⟨h1, h2, h3, h4⟩ := rowHandle_fields hfit.slot_lt hfit.kind_lt (hfit.head_lt.trans_le hfit.heads_le) hfit.layers_le
  unfold rowFrame rowPage at hframe
  unfold appendOne
  dsimp only
  rw [h1, h2, h3, h4, if_neg hfit.shape, if_neg (Nat.not_le.mpr hpos), hframe]
  exact if_pos ⟨hst, hstep⟩

/-- A row that is stored moves its cursor on, and LEN to the lowest of its layer's cursors (R153). -/
theorem appendOne_stored {j : Chip} (hpos : (c.slot n).cursor layer head kind < dQuota (c.slot n).words)
    (hframe : rowFrame c n layer ((c.slot n).cursor layer head kind) = some j) (hst : (c.slot n).st = 2)
    (hlens : layer < (j.slot n).lens.length) :
    ∃ y : Slot, (∃ lens seals, y = { j.slot n with
        cursors := (j.slot n).cursors.set (16 * layer + 2 * head + kind) ((c.slot n).cursor layer head kind + 1)
        lens := lens, seals := seals }) ∧
      y.len layer = (y.layerCur layer).foldl min ((c.slot n).cursor layer head kind + 1) ∧
      (appendOne (rowHandle n kind head layer) fmt nb el sc c).slot n = y ∧
      ∀ m, m ≠ n → (appendOne (rowHandle n kind head layer) fmt nb el sc c).slot m = j.slot m := by
  obtain ⟨h1, h2, h3, h4⟩ := rowHandle_fields hfit.slot_lt hfit.kind_lt (hfit.head_lt.trans_le hfit.heads_le) hfit.layers_le
  unfold rowFrame rowPage at hframe
  unfold appendOne
  dsimp only
  rw [h1, h2, h3, h4, if_neg hfit.shape, if_neg (Nat.not_le.mpr hpos), hframe]
  dsimp only
  rw [if_neg (by omega)]
  generalize hj3 : (if kind = 0 then _ else Chip.touch _ 0 _) = j3
  have hbelow : Below j j3 := by
    have hrow : ∀ a x b y f, Below j (((j.store a x).store b y).touch 0 f) := fun _ _ _ _ _ =>
      ((touch_below _ _ _).after (store_below _ _ _)).after (store_below _ _ j)
    rw [← hj3]
    refine .ite ?_ (hrow _ _ _ _ _)
    split
    · exact (envAdd_below _ _ _ _).after (hrow _ _ _ _ _)
    · exact hrow _ _ _ _ _
  clear hj3
  rw [hbelow.slot n]
  split
  · next hlen =>
    exact ⟨_, ⟨_, _, rfl⟩, hlen.symm, Chip.setSlot_slot_same .., fun m hm =>
      (slot_setSlot_other hm _).trans (hbelow.slot m)⟩
  · refine ⟨_, ⟨_, _, rfl⟩, ?_, Chip.setSlot_slot_same .., fun m hm =>
      (slot_setSlot_other hm _).trans (((storeLe_below _ _ _ j3).slot m).trans (hbelow.slot m))⟩
    simp [Slot.len, setAt, hlens, Slot.layerCur]
end

/-! ### Discarded rows and their record -/

theorem loseRow_slot (n : Nat) (c : Chip) : (loseRow n c).slot n = { c.slot n with lost := sat32 (c.slot n).lost 1 } :=
  Chip.setSlot_slot_same ..
theorem sat32_succ {v : Nat} (h : v < 0xFFFFFFFF) : sat32 v 1 = v + 1 := Nat.min_eq_left h

/-- What a UC of a slot's list of causes, with its event, leaves: the slots and the memory, and the error shows. -/
theorem slotEvent_ucSeq {cause d0 d1 : Nat} (hcause : cause < 32) (c : Chip) :
    (slotEvent n (ucSeq n cause d0 d1 c)).slots = c.slots ∧ (slotEvent n (ucSeq n cause d0 d1 c)).mem = c.mem ∧
      (slotEvent n (ucSeq n cause d0 d1 c)).hasErr (pgSlot n) 2 cause = true := by
  refine ⟨?_, ?_, ?_⟩
  · rw [slotEvent, event_slots, ucSeq_slots]
  · rw [slotEvent, event_mem, ucSeq_mem]
  · exact (event_below _ _ _ _).err _ _ _ (by decide) hcause (logErr_hasErr _ c hcause (by simp))
/-- A slot that stalls or faults: its state and cause, with the UC that says so (R150). -/
theorem stallSlot_stalled {cause : Nat} (hst : (c.slot n).st = 2) :
    (stallSlot n cause layer c).slot n = { c.slot n with st := 3, cause := cause, layer := layer } ∧
      (stallSlot n cause layer c).mem = c.mem ∧ (stallSlot n cause layer c).hasErr (pgSlot n) 2 8 = true := by
  obtain ⟨h1, h2, h3⟩ := slotEvent_ucSeq (n := n) (cause := 8) (d0 := cause) (d1 := layer) (by decide)
    (c.setSlot n { c.slot n with st := 3, cause := cause, layer := layer })
  rw [show stallSlot n cause layer c = _ from if_pos hst]
  exact ⟨by rw [Chip.slot, h1]; exact Chip.setSlot_slot_same .., h2, h3⟩
theorem faultSlot_faulted {cause : Nat} (hst : (c.slot n).st = 2 ∨ (c.slot n).st = 3) (hcause : cause ≠ 0) :
    (faultSlot n cause layer c).slot n = { c.slot n with st := 4, cause := cause, layer := layer } ∧
      (faultSlot n cause layer c).mem = c.mem ∧ (faultSlot n cause layer c).hasErr (pgSlot n) 2 9 = true := by
  rw [show faultSlot n cause layer c = _ from if_pos hst]
  simp only [if_neg hcause]
  obtain ⟨h1, h2, h3⟩ := slotEvent_ucSeq (n := n) (cause := 9) (d0 := cause) (d1 := layer) (by decide)
    (c.setSlot n { c.slot n with st := 4, cause := cause, layer := layer })
  exact ⟨by rw [Chip.slot, h1]; exact Chip.setSlot_slot_same .., h2, h3⟩

/-- A row that was not discarded logs nothing of its own. -/
theorem appendRow_kept {h : Nat} (hn : fld 4 0 h = n)
    (hlost : ((appendOne h fmt nb el sc c).slot n).lost = (c.slot n).lost) :
    appendRow h fmt nb el sc c = appendOne h fmt nb el sc c := by
  subst hn
  exact if_pos (by rw [List.foldl_cons, List.foldl_nil, hlost, Nat.sub_self])
/-- A discarded row, on a slot whose page shows no error: the module as the row left it, and a UC cause 10 beside what the
row caused (R427). -/
theorem appendRow_lost {h : Nat} (hn : fld 4 0 h = n)
    (hlost : ((appendOne h fmt nb el sc c).slot n).lost = (c.slot n).lost + 1) (herr : c.rg (ra (pgSlot n) 0x10) = 0) :
    (appendRow h fmt nb el sc c).slot n = (appendOne h fmt nb el sc c).slot n ∧
      (appendRow h fmt nb el sc c).mem = (appendOne h fmt nb el sc c).mem ∧
      (appendRow h fmt nb el sc c).hasErr (pgSlot n) 2 10 = true ∧
      ∀ i < 32, ∀ j < 32, (appendOne h fmt nb el sc c).hasErr (pgSlot n) i j = true →
        (appendRow h fmt nb el sc c).hasErr (pgSlot n) i j = true := by
  subst hn
  have hrow : appendRow h fmt nb el sc c = _ :=
    if_neg (by rw [List.foldl_cons, List.foldl_nil, hlost]; omega)
  rw [List.foldl_cons, List.foldl_nil] at hrow
  generalize appendOne h fmt nb el sc c = j at hrow ⊢
  generalize hk : (if (c.slot (fld 4 0 h)).st = 0 then _ else ucSeq _ _ _ _ _) = k at hrow
  have hlogs : (j.setRg (ra (pgSlot (fld 4 0 h)) 0x10) 0).logs k (pgSlot (fld 4 0 h)) 2 10 := by
    have hclear : (j.setRg (ra (pgSlot (fld 4 0 h)) 0x10) 0).rg (ra (pgSlot (fld 4 0 h)) 0x10) = 0 := Chip.setRg_rg_same ..
    rw [← hk, herr]
    split
    · exact logs_ucOp _ _ _ _ _ _ (by decide) hclear
    · exact logs_ucSeq _ _ _ _ _ (by decide) hclear
  obtain ⟨hsame, -, hshows⟩ := hlogs
  have hbits : ∀ i < 32, bit i ((appendRow h fmt nb el sc c).rg (ra (pgSlot (fld 4 0 h)) 0x10)) =
      (bit i (k.rg (ra (pgSlot (fld 4 0 h)) 0x10)) || bit i (j.rg (ra (pgSlot (fld 4 0 h)) 0x10))) := fun i hi => by
    rw [hrow, Chip.setRg_rg_same, bit_mod i _ hi, bit_or]
  obtain ⟨hcls, hcause⟩ := Bool.and_eq_true_iff.mp hshows
  refine ⟨?_, ?_, ?_, fun i hi m hm hj => ?_⟩
  · rw [hrow, hsame]; rfl
  · rw [hrow, hsame]; rfl
  · rw [Chip.hasErr, hbits 2 (by decide), hbits 10 (by decide), hcls, hcause]; rfl
  · obtain ⟨hi', hm'⟩ := Bool.and_eq_true_iff.mp hj
    rw [Chip.hasErr, hbits i hi, hbits m hm, hi', hm', Bool.or_true, Bool.or_true]; rfl

/-! ### Seals and reserves -/

theorem bytes_store_apart (c : Chip) {a b w : Nat} {l : List Byte} (h : b + w ≤ a ∨ a + l.length ≤ b) :
    (c.store a l).bytes b w = c.bytes b w := by
  refine List.ext_getElem (by simp [Chip.bytes, Tab.getList]) fun i hi _ => ?_
  have hi : i < w := by simpa [Chip.bytes, Tab.getList] using hi
  have hb := c.store_byteAt a l (b + i)
  rw [if_neg (by omega)] at hb
  simpa [Chip.bytes, Tab.getList, Chip.byteAt] using hb
theorem le_storeLe_apart (c : Chip) {a b v w x : Nat} (h : b + w ≤ a ∨ a + v ≤ b) : (c.storeLe a v x).le b w = c.le b w := by
  rw [Chip.le, Chip.storeLe, bytes_store_apart c (by rwa [leBytes_length]), Chip.le]
theorem sealPage_some {p : Nat} (h : (c.slot n).seals.find? (fun x => x.1 == layer) = some (layer, p)) :
    ∃ j w, Below (c.setSlot n { c.slot n with seals := (c.slot n).seals.erase (layer, p) }) j ∧
      sealPage n layer c = (j.storeLe (pteAddr c (c.slot n).root layer p) 8
        (setFld 54 45 (setFld 34 34 (c.le (pteAddr c (c.slot n).root layer p) 8) 1) (dTpp (c.slot n).words))).setRecW 0
          (eFrame (c.le (pteAddr c (c.slot n).root layer p) 8)) 0 w ∧ j.regs = c.regs := by
  unfold sealPage
  dsimp only
  rw [h]
  exact ⟨_, _, (storeLe_below _ _ _ _).after (storeLe_below _ _ _ _), rfl, rfl⟩
theorem eFull_sealed (e t : Nat) : eFull (setFld 54 45 (setFld 34 34 e 1) t % 2 ^ (8 * 8)) = true := by
  unfold eFull bit setFld fld
  simp only [beq_iff_eq]
  omega

theorem recKind_setRec (f kind flags acct refcnt owner link : Nat) (c : Chip) :
    (c.setRec 0 f kind flags acct refcnt owner link).recKind 0 f = kind % 16 := by
  have hle : (c.setRec 0 f kind flags acct refcnt owner link).le (c.recAddr 0 f) 4 =
      (kind + 16 * flags + 2 ^ 9 * acct + 2 ^ 16 * refcnt) % 2 ^ 32 := by
    unfold Chip.setRec
    simp only [List.append_assoc]
    refine (le_store_within c (c.recAddr 0 f) 0 4 _ (by simp)).trans ?_
    rw [List.drop_zero, List.take_left' (leBytes_length ..), leNat_leBytes]
  have haddr : (c.setRec 0 f kind flags acct refcnt owner link).recAddr 0 f = c.recAddr 0 f := by
    simp only [Chip.recAddr, Chip.rec0, Chip.setRec, Chip.store_rg64_of]
  rw [Chip.recKind, haddr, hle]
  unfold fld
  omega
/-- A reserve that is short takes the lowest free frame (R155). -/
theorem fillReserve_taken {f : Nat} (hshort : ((c.slot n).reserve.getD layer []).length < dRsv (c.slot n).words)
    (hfree : c.freeFrame = some f) :
    ∃ j, Below c j ∧ j.recKind 0 f = 1 ∧ fillReserve n layer c = j.setSlot n { c.slot n with
      reserve := (c.slot n).reserve.set layer (insertAsc f ((c.slot n).reserve.getD layer [])) } := by
  obtain ⟨j, htake, hkind⟩ : ∃ j, takeFrame 1 31 (c.slot n).desc c = some (f, j) ∧ j.recKind 0 f = 1 := by
    refine ⟨_, congrArg (Option.map _) hfree, ?_⟩
    rw [noteLow_recKind, recKind_setRec]
  refine ⟨j, takeFrame_below htake, hkind, ?_⟩
  unfold fillReserve
  dsimp only
  rw [if_neg (Nat.not_le.mpr hshort), htake]
  rfl

/-! ### APPEND_ROW, PAGE_SEAL, RESERVE_REFILL and RESERVE_SLACK_EXPIRE -/

theorem rowFrame_valid (h : rowPage c n layer pos = true) : rowFrame c n layer pos = some c := if_pos h
theorem rowFrame_first (h : rowPage c n layer pos = false) :
    rowFrame c n layer pos = firstRow n layer (pos / dTpp (c.slot n).words) c := if_neg (by rw [h]; decide)

/-- What APPEND_ROW does with a row that is stored once its page has a frame, the chip j. -/
theorem appendRow_stored {j : Chip} (hfit : RowFits c n kind head layer fmt nb)
    (hpos : (c.slot n).cursor layer head kind < dQuota (c.slot n).words)
    (hframe : rowFrame c n layer ((c.slot n).cursor layer head kind) = some j) (hst : (c.slot n).st = 2)
    (hlens : layer < (j.slot n).lens.length) (hlost : (j.slot n).lost = (c.slot n).lost) :
    ∃ y : Slot, (∃ lens seals, y = { j.slot n with
        cursors := (j.slot n).cursors.set (16 * layer + 2 * head + kind) ((c.slot n).cursor layer head kind + 1)
        lens := lens, seals := seals }) ∧
      y.len layer = (y.layerCur layer).foldl min ((c.slot n).cursor layer head kind + 1) ∧
      (appendRow (rowHandle n kind head layer) fmt nb el sc c).slot n = y ∧
      ∀ m, m ≠ n → (appendRow (rowHandle n kind head layer) fmt nb el sc c).slot m = j.slot m := by
  obtain ⟨y, ⟨lens, seals, hy⟩, hlen, hslot, hother⟩ := appendOne_stored (el := el) (sc := sc) hfit hpos hframe hst hlens
  have hn := (rowHandle_fields hfit.slot_lt hfit.kind_lt (hfit.head_lt.trans_le hfit.heads_le) hfit.layers_le).1
  rw [appendRow_kept hn (by rw [hslot, hy]; exact hlost)]
  exact ⟨y, ⟨lens, seals, hy⟩, hlen, hslot, hother⟩

section
variable (hfit : RowFits c n kind head layer fmt nb)
include hfit

/-- A row at the quota stalls a READY slot, cause 2 (R150). -/
theorem appendRow_quota (hpos : dQuota (c.slot n).words ≤ (c.slot n).cursor layer head kind) (hst : (c.slot n).st = 2)
    (hlost : (c.slot n).lost < 0xFFFFFFFF) (herr : c.rg (ra (pgSlot n) 0x10) = 0) :
    let k := appendRow (rowHandle n kind head layer) fmt nb el sc c
    (k.slot n).lost = (c.slot n).lost + 1 ∧ k.hasErr (pgSlot n) 2 10 = true ∧ k.mem = c.mem ∧ (k.slot n).st = 3 ∧
      (k.slot n).cause = 2 ∧ (k.slot n).layer = layer ∧ k.hasErr (pgSlot n) 2 8 = true := by
  have hn := (rowHandle_fields hfit.slot_lt hfit.kind_lt (hfit.head_lt.trans_le hfit.heads_le) hfit.layers_le).1
  have hone := appendOne_quota (el := el) (sc := sc) hfit hpos
  have hslot := loseRow_slot n c
  obtain ⟨g1, g2, g3⟩ := stallSlot_stalled (n := n) (c := loseRow n c) (cause := 2) (layer := layer) (by rw [hslot]; exact hst)
  obtain ⟨h1, h2, h3, h4⟩ := appendRow_lost hn (by rw [hone, g1, hslot]; exact sat32_succ hlost) herr
  refine ⟨?_, h3, h2.trans (hone ▸ g2), ?_, ?_, ?_, h4 2 (by decide) 8 (by decide) (hone ▸ g3)⟩
  all_goals rw [h1, hone, g1]
  rw [hslot]
  exact sat32_succ hlost
/-- A row that finds the reserve of its layer empty faults its slot, cause 3 (R150). -/
theorem appendRow_noFrame (hpos : (c.slot n).cursor layer head kind < dQuota (c.slot n).words)
    (hframe : rowFrame c n layer ((c.slot n).cursor layer head kind) = none)
    (hlost : (c.slot n).lost < 0xFFFFFFFF) (herr : c.rg (ra (pgSlot n) 0x10) = 0) :
    let k := appendRow (rowHandle n kind head layer) fmt nb el sc c
    (k.slot n).lost = (c.slot n).lost + 1 ∧ k.hasErr (pgSlot n) 2 10 = true ∧ k.mem = c.mem ∧ (k.slot n).st = 4 ∧
      (k.slot n).cause = 3 ∧ (k.slot n).layer = layer ∧ k.hasErr (pgSlot n) 2 9 = true := by
  have hn := (rowHandle_fields hfit.slot_lt hfit.kind_lt (hfit.head_lt.trans_le hfit.heads_le) hfit.layers_le).1
  have hone := appendOne_noFrame (el := el) (sc := sc) hfit hpos hframe
  have hslot := loseRow_slot n c
  obtain ⟨g1, g2, g3⟩ := faultSlot_faulted (n := n) (c := loseRow n c) (cause := 3) (layer := layer)
    (by rw [hslot]; exact hfit.st) (by decide)
  obtain ⟨h1, h2, h3, h4⟩ := appendRow_lost hn (by rw [hone, g1, hslot]; exact sat32_succ hlost) herr
  refine ⟨?_, h3, h2.trans (hone ▸ g2), ?_, ?_, ?_, h4 2 (by decide) 9 (by decide) (hone ▸ g3)⟩
  all_goals rw [h1, hone, g1]
  rw [hslot]
  exact sat32_succ hlost
end

/-- Reserves still short at the end of their slack stall a READY slot (R157). -/
theorem slackExpire_due {b : Nat} (hst : (c.slot n).st = 2) (hshort : (c.slot n).shortAt = some b)
    (hbeat : b + dSlack (c.slot n).words ≤ c.beat) :
    slackExpire n c = stallSlot n 1
      (((c.slot n).reserve.findIdx? (fun r => decide (r.length < dRsv (c.slot n).words))).getD 0) c := by
  unfold slackExpire
  dsimp only
  rw [hshort]
  exact if_pos ⟨hst, hbeat⟩

/-- Settles O32. Rows that are stored, rows that are discarded and what the discard does to the slot, each both at the port
(`appendOne`) and with its record; then seals and reserves. -/
theorem appends : Obligations.Appends := by
  unfold Obligations.Appends
  refine ⟨?stored, ?first, ?badShape, ?quota, ?noFrame, ?record, ?portShape, ?portQuota, ?portFrame, ?portStalled, ?sealed,
    ?noSeal, ?full, ?refill, ?noRefill, ?refilled, ?slack, ?stalled, ?noSlack⟩
  case stored =>
    intro s n kind head layer fmt nb pos el sc hc hkind hhead hheads hlayer hlayers hlens _ _ hnb hfmt hposEq hst hpos hvalid
    subst hposEq
    have hfit : RowFits s.chip n kind head layer fmt nb := ⟨n.isLt, hkind, hhead, hheads, hlayer, hlayers, hnb, hfmt, .inl hst⟩
    refine does_run rfl hc ?_
    obtain ⟨y, ⟨lens, seals, hy⟩, hlen, hslot, hother⟩ :=
      appendRow_stored (el := el) (sc := sc) hfit hpos (rowFrame_valid hvalid) hst hlens rfl
    rw [show (n : Nat) + 32 * kind + 64 * head + 512 * layer = rowHandle n kind head layer from rfl, hslot]
    refine ⟨by rw [hy], hlen, by rw [hy], by rw [hy]; exact hst, fun m hm => ⟨hother m hm, by rw [hy]⟩⟩
  case first =>
    intro s n kind head layer fmt nb pos el sc f r hc hkind hhead hheads hlayer hlayers hlens _ _ hnb hfmt hposEq hst hpos hvalid
      hreserve
    subst hposEq
    have hfit : RowFits s.chip n kind head layer fmt nb := ⟨n.isLt, hkind, hhead, hheads, hlayer, hlayers, hnb, hfmt, .inl hst⟩
    refine does_run rfl hc ?_
    obtain ⟨j, b, hfirst, hj, hjother⟩ := firstRow_taken (c := s.chip) (n := n)
      (page := (s.chip.slot n).cursor layer head kind / dTpp (s.chip.slot n).words) hreserve
    obtain ⟨y, ⟨lens, seals, hy⟩, hlen, hslot, hother⟩ :=
      appendRow_stored (el := el) (sc := sc) hfit hpos ((rowFrame_first hvalid).trans hfirst) hst (by rw [hj]; exact hlens)
        (by rw [hj])
    rw [show (n : Nat) + 32 * kind + 64 * head + 512 * layer = rowHandle n kind head layer from rfl, hslot]
    rw [hj] at hy
    exact ⟨by rw [hy], hlen, by rw [hy], by rw [hy]; exact hst, fun m hm => ⟨(hother m hm).trans (hjother m hm), by rw [hy]⟩⟩
  case badShape =>
    intro s n h fmt nb el sc hc hn hbad hlost herr
    have hfld : fld 4 0 h = n := by rw [← hn]; simp [fld]
    refine does_run rfl hc ?_
    have hone : appendOne h fmt nb el sc s.chip = loseRow n s.chip := by
      have := appendOne_badShape (c := s.chip) (fmt := fmt) (nb := nb) (el := el) (sc := sc) (h := h) (by rw [hfld]; exact hbad)
      rwa [hfld] at this
    have hslot := loseRow_slot n s.chip
    obtain ⟨h1, h2, h3, -⟩ := appendRow_lost hfld (by rw [hone, hslot]; exact sat32_succ hlost) herr
    refine ⟨?_, h3, ?_, ?_⟩
    · rw [h1, hone, hslot]; exact sat32_succ hlost
    · rw [h2, hone]; rfl
    · rw [h1, hone, hslot]
  case quota =>
    intro s n kind head layer fmt nb pos el sc hc hkind hhead hheads hlayer hlayers _ _ _ hnb hfmt hposEq hst hpos hlost herr
    subst hposEq
    exact does_run rfl hc (appendRow_quota ⟨n.isLt, hkind, hhead, hheads, hlayer, hlayers, hnb, hfmt, .inl hst⟩ hpos hst hlost herr)
  case noFrame =>
    intro s n kind head layer fmt nb pos el sc hc hkind hhead hheads hlayer hlayers _ _ _ hnb hfmt hposEq hst hpos hvalid hempty
      hlost herr
    subst hposEq
    exact does_run rfl hc (appendRow_noFrame ⟨n.isLt, hkind, hhead, hheads, hlayer, hlayers, hnb, hfmt, hst⟩ hpos
      ((rowFrame_first hvalid).trans (firstRow_empty hempty)) hlost herr)
  case record =>
    intro s h fmt nb el sc hc
    exact does_run rfl hc rfl
  case portShape =>
    intro s h fmt nb el sc hbad
    exact appendOne_badShape hbad
  case portQuota =>
    intro s n kind head layer fmt nb pos el sc hkind hhead hheads hlayer hlayers _ _ _ hnb hfmt hposEq hst hpos
    subst hposEq
    exact appendOne_quota ⟨n.isLt, hkind, hhead, hheads, hlayer, hlayers, hnb, hfmt, hst⟩ hpos
  case portFrame =>
    intro s n kind head layer fmt nb pos el sc hkind hhead hheads hlayer hlayers _ _ _ hnb hfmt hposEq hst hpos hvalid hempty
    subst hposEq
    exact appendOne_noFrame ⟨n.isLt, hkind, hhead, hheads, hlayer, hlayers, hnb, hfmt, hst⟩ hpos
      ((rowFrame_first hvalid).trans (firstRow_empty hempty))
  case portStalled =>
    intro s n kind head layer fmt nb pos el sc hkind hhead hheads hlayer hlayers _ _ _ hnb hfmt hposEq hst hpos hroom hstep
    subst hposEq
    have hfit : RowFits s.chip n kind head layer fmt nb := ⟨n.isLt, hkind, hhead, hheads, hlayer, hlayers, hnb, hfmt, .inr hst⟩
    by_cases hvalid : rowPage s.chip n layer ((s.chip.slot n).cursor layer head kind) = true
    · exact appendOne_stalled hfit hpos (rowFrame_valid hvalid) hst hstep
    · obtain ⟨f, r, hreserve⟩ := List.exists_cons_of_ne_nil (hroom.resolve_left hvalid)
      obtain ⟨j, b, hfirst, -⟩ := firstRow_taken (c := s.chip) (n := n)
        (page := (s.chip.slot n).cursor layer head kind / dTpp (s.chip.slot n).words) hreserve
      exact appendOne_stalled hfit hpos ((rowFrame_first (Bool.not_eq_true _ ▸ hvalid)).trans hfirst) hst hstep
  case sealed =>
    intro s n layer p a f hc hseal ha hf
    subst hf ha
    refine does_run rfl hc ?_
    unfold sealPage
    dsimp only
    rw [hseal]
  case noSeal =>
    intro s n layer hc hseal
    refine does_run rfl hc ?_
    unfold sealPage
    dsimp only
    rw [hseal]
  case full =>
    intro s n layer p a hc hseal ha hapart
    subst ha
    refine does_run rfl hc ?_
    obtain ⟨j, w, hj, heq, hregs⟩ := sealPage_some hseal
    rw [heq]
    have hrec : ∀ x y, (j.storeLe (pteAddr s.chip (s.chip.slot n).root layer p) 8 x).recAddr 0 y = s.chip.recAddr 0 y := by
      intro x y
      simp only [Chip.recAddr, Chip.rec0, Chip.storeLe_rg64_of]
      rw [Chip.rg64, Chip.rg, Chip.rg, hregs, Chip.rg64, Chip.rg, Chip.rg]
    have hslot := fun x y z m => ((setRecW_below 0 (eFrame (s.chip.le (pteAddr s.chip (s.chip.slot n).root layer p) 8)) 0 z _).after
      ((storeLe_below x 8 y j).after hj)).slot m
    refine ⟨?_, ?_, hregs, fun m hm => (hslot _ _ _ m).trans (slot_setSlot_other hm _)⟩
    · rw [Chip.setRecW, le_storeLe_apart _ (by rw [hrec]; omega), le_storeLe_same]
      exact eFull_sealed _ _
    · rw [hslot, Chip.setSlot_slot_same]
  case refill =>
    intro s n layer hc hlo hhi hlen
    exact does_run rfl hc (if_pos ⟨hlo, hhi, hlen⟩)
  case noRefill =>
    intro s n layer hc hno
    exact does_run rfl hc (if_neg (by rintro ⟨h1, h2, h3⟩; omega))
  case refilled =>
    intro s n layer k hc hlo hhi hlen hshort hfree
    refine does_run rfl hc ?_
    obtain ⟨j, hj, hkind, hfill⟩ := fillReserve_taken hshort hfree
    rw [show refillReserve n layer s.chip = noteShort n (fillReserve n layer s.chip) from if_pos ⟨hlo, hhi, hlen⟩, hfill]
    obtain ⟨⟨b, hb⟩, -⟩ := noteShort_slot n (j.setSlot n { s.chip.slot n with
      reserve := (s.chip.slot n).reserve.set layer (insertAsc k ((s.chip.slot n).reserve.getD layer [])) })
    rw [Chip.setSlot_slot_same] at hb
    refine ⟨by rw [hb], ?_, by rw [hb]⟩
    obtain h | ⟨b, h⟩ := noteShort_eq n (j.setSlot n { s.chip.slot n with
      reserve := (s.chip.slot n).reserve.set layer (insertAsc k ((s.chip.slot n).reserve.getD layer [])) })
    · rw [h]; exact hkind
    · rw [h]; exact hkind
  case slack =>
    intro s n b hc hst hshort hbeat
    exact does_run rfl hc (slackExpire_due hst hshort hbeat)
  case stalled =>
    intro s n b hc hst hshort hbeat _
    refine does_run rfl hc ?_
    rw [slackExpire_due hst hshort hbeat]
    obtain ⟨h1, h2, h3⟩ := stallSlot_stalled (cause := 1)
      (layer := ((s.chip.slot n).reserve.findIdx? (fun r => decide (r.length < dRsv (s.chip.slot n).words))).getD 0) hst
    exact ⟨by rw [h1], by rw [h1], h3, h2⟩
  case noSlack =>
    intro s n hc hno
    refine does_run rfl hc ?_
    unfold slackExpire
    dsimp only
    split
    · next b hb =>
      refine if_neg fun h => ?_
      obtain hst | hlate := hno
      · exact hst h.1
      · exact absurd (hlate b hb) (Nat.not_lt.mpr h.2)
    · rfl

end Sys2Proof.Machine
end

section
/-! Publications of page-table edits (R158 to R160): what a build, a swap and their refusals leave of every slot. -/

namespace Sys2Proof.Machine

variable {c k : Chip} {n : Nat}

/-! ### Latches -/

/-- Every slot is as before but for its readers' latches. -/
def SameButLatches (c k : Chip) : Prop := ∀ m, ∃ l, k.slot m = { c.slot m with latches := l }

theorem SameButLatches.refl (c : Chip) : SameButLatches c c := fun _ => ⟨_, rfl⟩
/-- Transitivity, the later operation first. -/
theorem SameButLatches.after {a b d : Chip} (g : SameButLatches b d) (h : SameButLatches a b) : SameButLatches a d := fun m => by
  obtain ⟨l, hl⟩ := h m
  obtain ⟨t, ht⟩ := g m
  exact ⟨t, by rw [ht, hl]⟩
theorem SameButLatches.forEach {f : Nat → Chip → Chip} (h : ∀ i k, SameButLatches k (f i k)) (l : List Nat) (c : Chip) :
    SameButLatches c (forEach l f c) := by
  induction l generalizing c with
  | nil => exact .refl c
  | cons x l ih => exact forEach_cons f x l c ▸ (ih _).after (h x c)
theorem SameButLatches.setSlot (i : Nat) (l : List Latch) (c : Chip) :
    SameButLatches c (c.setSlot i { c.slot i with latches := l }) := fun m => by
  rw [Chip.setSlot_slot]
  split
  · next hm => exact hm ▸ ⟨l, rfl⟩
  · exact ⟨_, rfl⟩
theorem SameButLatches.keepsBinding (h : SameButLatches c k) : KeepsBinding c k := fun m => by
  obtain ⟨l, hl⟩ := h m
  rw [hl]
  exact ⟨rfl, rfl, rfl, rfl, rfl, rfl, rfl, rfl, rfl, rfl⟩
theorem latchSlot_sameButLatches (m who : Nat) (c : Chip) : SameButLatches c (latchSlot m who c) := .setSlot m _ c
theorem unlatch_sameButLatches (m who : Nat) (c : Chip) : SameButLatches c (unlatch m who c) := .setSlot m _ c

/-- Latches are no part of registers, memory and units. -/
theorem forEach_latches {f : Nat → Chip → Chip} (h : ∀ i k, ∃ t, f i k = { k with slots := t }) (l : List Nat) (c : Chip) :
    ∃ t, forEach l f c = { c with slots := t } := by
  induction l generalizing c with
  | nil => exact ⟨_, rfl⟩
  | cons x l ih =>
    obtain ⟨t, ht⟩ := h x c
    obtain ⟨u, hu⟩ := ih (f x c)
    exact ⟨u, by rw [forEach_cons, hu, ht]⟩

/-! ### Operations of a publication -/

/-- A publication's operation leaves every binding, and an error that shows goes on to show. -/
structure KeepsBound (c k : Chip) : Prop where
  binding : KeepsBinding c k
  err : ∀ p cls cause, cls < 32 → cause < 32 → c.hasErr p cls cause = true → k.hasErr p cls cause = true

theorem KeepsBound.refl (c : Chip) : KeepsBound c c := ⟨.refl c, fun _ _ _ _ _ h => h⟩
/-- Transitivity, the later operation first. -/
theorem KeepsBound.after {a b d : Chip} (g : KeepsBound b d) (h : KeepsBound a b) : KeepsBound a d :=
  ⟨g.binding.after h.binding, fun p i j hi hj he => g.err p i j hi hj (h.err p i j hi hj he)⟩
theorem Below.keepsBound (h : Below c k) : KeepsBound c k := ⟨h.keepsBinding, h.err⟩
theorem KeepsBound.of_regs (hb : KeepsBinding c k) (hr : k.regs = c.regs) : KeepsBound c k :=
  ⟨hb, fun p i j _ _ h => by rwa [Chip.hasErr, Chip.rg, hr]⟩

/-- Taking units changes nothing else. -/
theorem takeUnits_eq {s u : Nat} (h : takeUnits s c = some (u, k)) : ∃ m, k = { c with mtm := m } := by
  have hfold : ∀ (l : List Nat) (v : Nat) (j : Chip), ∃ m, l.foldl (fun q i =>
      { q with mtm := { q.mtm with units := insertAsc (v + i) q.mtm.units } }) j = { j with mtm := m } := by
    intro l v
    induction l with
    | nil => exact fun j => ⟨_, rfl⟩
    | cons i l ih => exact fun j => ih _
  unfold takeUnits at h
  dsimp only at h
  split at h
  · exact absurd h (by simp)
  · split at h
    · exact absurd h (by simp)
    · obtain ⟨m, hm⟩ := hfold (List.range s) _ c
      exact ⟨m, (Prod.mk.inj (Option.some.inj h)).2.symm.trans hm⟩
theorem takeAll_eq {l us : List Nat} (h : takeAll l c = some (us, k)) : ∃ m, k = { c with mtm := m } := by
  induction l generalizing c k us with
  | nil => exact ⟨_, (Prod.mk.inj (Option.some.inj h)).2.symm⟩
  | cons s l ih =>
    unfold takeAll at h
    split at h
    · exact absurd h (by simp)
    · next u c1 h1 =>
      obtain ⟨m, hm⟩ := takeUnits_eq h1
      split at h
      · exact absurd h (by simp)
      · next t c2 h2 =>
        obtain ⟨q, hq⟩ := ih h2
        exact ⟨q, by rw [← (Prod.mk.inj (Option.some.inj h)).2, hq, hm]⟩

/-- PUB_STS with its code and index is as before. -/
structure Slot.SamePubSts (x y : Slot) : Prop where
  st : y.pubSt = x.pubSt
  code : y.pubCode = x.pubCode
  idx : y.pubIdx = x.pubIdx

theorem Slot.SamePubSts.trans {x y z : Slot} (h : x.SamePubSts y) (g : y.SamePubSts z) : x.SamePubSts z :=
  ⟨g.st.trans h.st, g.code.trans h.code, g.idx.trans h.idx⟩

/-- A build that starts: the slot's publication, and nothing else beside units and latches (R158, R159). -/
structure Building (c : Chip) (n : Nat) (p : Publ) (k : Chip) : Prop where
  bound : KeepsBound c k
  mem : k.mem = c.mem
  sts : (c.slot n).SamePubSts (k.slot n)
  publ : ∃ q, (k.slot n).publ = some q ∧ q.sw = p.sw ∧ q.built = false ∧ q.edits = p.edits ∧ q.at_ = p.at_

theorem startBuild_isOk {p : Publ} (h : (startBuild n p c).toOption.isSome = true) : ∃ k, startBuild n p c = .ok k := by
  cases hb : startBuild n p c with
  | error b => exact absurd (hb ▸ h) (by simp [Except.toOption])
  | ok k => exact ⟨k, rfl⟩
theorem startBuild_building {p : Publ} (h : startBuild n p c = .ok k) : Building c n p k := by
  unfold startBuild at h
  dsimp only at h
  split at h
  · exact absurd h (by simp)
  split at h
  · exact absurd h (by simp)
  split at h
  · exact absurd h (by simp)
  split at h
  · exact absurd h (by simp)
  next us c1 h1 =>
  obtain ⟨m, hm⟩ := takeAll_eq h1
  have hk := Except.ok.inj h
  generalize hj : c1.setSlot n _ = j at hk
  have hjn : j.slot n = { c.slot n with publ := some { p with units := us, res := runEdits c (c.slot n) p.edits, built := false } } := by
    rw [← hj, Chip.setSlot_slot_same, hm]
    rfl
  have hjb : KeepsBinding c j := by
    have hunits : KeepsBinding c c1 := by rw [hm]; exact fun m => .refl (c.slot m)
    refine KeepsBinding.after ?_ hunits
    rw [← hj]
    exact setSlot_keepsBinding ⟨rfl, rfl, rfl, rfl, rfl, rfl, rfl, rfl, rfl, rfl⟩
  obtain ⟨l, hl⟩ := (SameButLatches.forEach (fun m k => latchSlot_sameButLatches m (editWho n) k) (forkSlots c p.edits) j) n
  obtain ⟨t, ht⟩ := forEach_latches (fun m k => (⟨_, rfl⟩ : ∃ t, latchSlot m (editWho n) k = { k with slots := t }))
    (forkSlots c p.edits) j
  have hlatch := (SameButLatches.forEach (fun m k => latchSlot_sameButLatches m (editWho n) k) (forkSlots c p.edits) j).keepsBinding
  rw [hk] at hl ht hlatch
  refine ⟨.of_regs (hlatch.after hjb) ?_, ?_, ?_, ⟨{ p with units := us, res := runEdits c (c.slot n) p.edits, built := false }, ?_, rfl, rfl, rfl, rfl⟩⟩
  · rw [ht, ← hj, hm]; rfl
  · rw [ht, ← hj, hm]; rfl
  · rw [hl, hjn]
    exact ⟨rfl, rfl, rfl⟩
  · rw [hl, hjn]

/-! ### Arming -/

theorem refusePub_slot (n : Nat) (b : Nat × Nat) (c : Chip) :
    (refusePub n b c).slot n = { c.slot n with pubSt := 3, pubCode := b.1, pubIdx := b.2 } :=
  ((logErr_below _ _).slot n).trans (Chip.setSlot_slot_same ..)
theorem refusePub_keepsBound (n : Nat) (b : Nat × Nat) (c : Chip) : KeepsBound c (refusePub n b c) := by
  refine (logErr_below _ _).keepsBound.after (.of_regs (setSlot_keepsBinding ?_) rfl)
  exact ⟨rfl, rfl, rfl, rfl, rfl, rfl, rfl, rfl, rfl, rfl⟩
theorem refusePub_hasErr (n : Nat) (b : Nat × Nat) (c : Chip) : (refusePub n b c).hasErr (pgSlot n) 0 11 = true :=
  logErr_hasErr _ _ (show 11 < 32 by decide) (by simp)
theorem refusePub_mem (n : Nat) (b : Nat × Nat) (c : Chip) : (refusePub n b c).mem = c.mem := ce_mem ..
theorem refusePub_units (n : Nat) (b : Nat × Nat) (c : Chip) : (refusePub n b c).mtm.units = c.mtm.units :=
  (logErr_below _ _).units

/-- The edit list that the slot's registers name (R158). -/
def pubEdits (l : List Byte) (i : Nat) : List (List Nat) := (List.range i).map (fun j => leWords 4 (l.drop (16 * j)))

theorem armPub_unreadable {at_ : Nat} (h : fld 10 0 (c.rg (ra (pgSlot n) 0x128)) = 0) :
    armPub n at_ c = refusePub n (1, 0) c := if_pos (.inl h)
section
variable {at_ i : Nat} {l : List Byte} (hi : i = fld 10 0 (c.rg (ra (pgSlot n) 0x128))) (hlo : 1 ≤ i) (hhi : i ≤ 1024)
  (hal : c.rg64 (ra (pgSlot n) 0x120) % 16 = 0) (hread : c.tasRead (c.rg64 (ra (pgSlot n) 0x120)) (16 * i) = .ok l)
include hi hlo hhi hal hread

theorem armPub_built (hbuild : startBuild n { sw := true, edits := pubEdits l i, at_ := at_ } c = .ok k) :
    armPub n at_ c = k.setSlot n { k.slot n with pubSt := 1, pubCode := 0, pubIdx := 0 } := by
  unfold armPub
  dsimp only
  rw [← hi, if_neg (by omega), hread]
  dsimp only
  rw [← pubEdits, hbuild]
theorem armPub_refused {b : Nat × Nat} (hbuild : startBuild n { sw := true, edits := pubEdits l i, at_ := at_ } c = .error b) :
    armPub n at_ c = refusePub n b c := by
  unfold armPub
  dsimp only
  rw [← hi, if_neg (by omega), hread]
  dsimp only
  rw [← pubEdits, hbuild]
end

theorem armPub_keepsBound (n at_ : Nat) (c : Chip) : KeepsBound c (armPub n at_ c) := by
  unfold armPub
  dsimp only
  split
  · exact refusePub_keepsBound _ _ c
  split
  · split
    · exact refusePub_keepsBound _ _ c
    · next k hbuild =>
      refine KeepsBound.after (.of_regs (setSlot_keepsBinding ?_) rfl) (startBuild_building hbuild).bound
      exact ⟨rfl, rfl, rfl, rfl, rfl, rfl, rfl, rfl, rfl, rfl⟩
  · exact refusePub_keepsBound _ _ c

/-! ### The next publication -/

theorem nextOne_bound (n : Nat) (c : Chip) :
    KeepsBound c (nextOne n c) ∧ (c.slot n).SamePubSts ((nextOne n c).slot n) := by
  unfold nextOne
  dsimp only
  split
  · next p r _ _ _ =>
    have hset : KeepsBound c (c.setSlot n { c.slot n with mtmWait := r }) :=
      .of_regs (setSlot_keepsBinding ⟨rfl, rfl, rfl, rfl, rfl, rfl, rfl, rfl, rfl, rfl⟩) rfl
    have hsts : (c.slot n).SamePubSts ((c.setSlot n { c.slot n with mtmWait := r }).slot n) := by
      rw [Chip.setSlot_slot_same]
      exact ⟨rfl, rfl, rfl⟩
    split
    · next k hbuild =>
      have hk := startBuild_building hbuild
      exact ⟨hk.bound.after hset, hsts.trans hk.sts⟩
    · exact ⟨(dropDest_below _ _).keepsBound.after hset, by rw [(dropDest_below _ _).slot n]; exact hsts⟩
  · exact ⟨.refl c, rfl, rfl, rfl⟩
theorem nextMtm_bound (n : Nat) (c : Chip) :
    KeepsBound c (nextMtm n c) ∧ (c.slot n).SamePubSts ((nextMtm n c).slot n) := by
  unfold nextMtm
  generalize (c.slot n).mtmWait = l
  induction l generalizing c with
  | nil => exact ⟨.refl c, rfl, rfl, rfl⟩
  | cons p l ih =>
    obtain ⟨h1, h2⟩ := nextOne_bound n c
    obtain ⟨g1, g2⟩ := ih (nextOne n c)
    exact ⟨g1.after h1, h2.trans g2⟩
theorem nextMtm_nothing (h : (c.slot n).mtmWait = []) : nextMtm n c = c := by rw [nextMtm, h, List.foldl_nil]

theorem afterPub_bound (n : Nat) (c : Chip) : KeepsBound c (afterPub n c) := by
  unfold afterPub
  dsimp only
  split
  · refine (armPub_keepsBound _ _ _).after (.of_regs (setSlot_keepsBinding ?_) rfl)
    exact ⟨rfl, rfl, rfl, rfl, rfl, rfl, rfl, rfl, rfl, rfl⟩
  · exact (nextMtm_bound n c).1
/-- Without a software arm that waits, the next publication is one of the MTM's. -/
theorem afterPub_noArm (h : (c.slot n).armWait = none) : afterPub n c = nextMtm n c := by
  unfold afterPub
  dsimp only
  rw [h]

/-! ### What a cancelled build gives back -/

theorem dropUnits_eq (l : List Nat) (c : Chip) : ∃ m, l.foldl (fun k u => k.dropUnit u) c = { c with mtm := m } ∧
    ∀ u, u ∈ m.units → u ∈ c.mtm.units ∧ u ∉ l := by
  induction l generalizing c with
  | nil => exact ⟨_, rfl, fun u hu => ⟨hu, by simp⟩⟩
  | cons x l ih =>
    obtain ⟨m, hm, hunits⟩ := ih (c.dropUnit x)
    refine ⟨m, hm, fun u hu => ?_⟩
    obtain ⟨h1, h2⟩ := hunits u hu
    obtain ⟨h3, h4⟩ := List.mem_filter.mp h1
    exact ⟨h3, by simpa using ⟨by simpa using h4, h2⟩⟩

/-- A build given up: its units are free, and its slot has no publication (R159). -/
structure Dropped (c : Chip) (n : Nat) (p : Publ) (k : Chip) : Prop where
  bound : KeepsBound c k
  mem : k.mem = c.mem
  slot : ∃ l, k.slot n = { c.slot n with latches := l, publ := none }
  units : ∀ u ∈ p.units, u ∉ k.mtm.units

theorem dropBuild_dropped (n : Nat) (p : Publ) (c : Chip) : Dropped c n p (dropBuild n p c) := by
  obtain ⟨m, hm, hunits⟩ := dropUnits_eq p.units c
  obtain ⟨t, ht⟩ := forEach_latches (fun m k => (⟨_, rfl⟩ : ∃ t, unlatch m (editWho n) k = { k with slots := t }))
    (forkSlots c p.edits) (p.units.foldl (fun k u => k.dropUnit u) c)
  obtain ⟨l, hl⟩ := SameButLatches.forEach (fun m k => unlatch_sameButLatches m (editWho n) k) (forkSlots c p.edits)
    (p.units.foldl (fun k u => k.dropUnit u) c) n
  have hdrop : dropBuild n p c = (forEach (forkSlots c p.edits) (fun m k => unlatch m (editWho n) k)
    (p.units.foldl (fun k u => k.dropUnit u) c)).setSlot n { (forEach (forkSlots c p.edits)
      (fun m k => unlatch m (editWho n) k) (p.units.foldl (fun k u => k.dropUnit u) c)).slot n with publ := none } := rfl
  refine ⟨.of_regs (dropBuild_keepsBinding n p c) ?_, ?_, ⟨l, ?_⟩, fun u hu hin => ?_⟩
  · rw [hdrop, ht, hm]; rfl
  · rw [hdrop, ht, hm]; rfl
  · rw [hdrop, Chip.setSlot_slot_same, hl, hm]; rfl
  · rw [hdrop, ht, hm] at hin
    exact (hunits u hin).2 hu

/-! ### The swap -/

theorem writeShelf_below (i t f : Nat) (c : Chip) : Below c (writeShelf i t f c) := store_below _ _ c
theorem takeShelf_below {i : Nat} (h : c.takeShelf = some (i, k)) : Below c k := by
  unfold Chip.takeShelf at h
  dsimp only at h
  split at h
  · rw [← (Prod.mk.inj (Option.some.inj h)).2]
    exact .of_regs rfl rfl rfl rfl
  · exact absurd h (by simp)
theorem adoptFrame_below (desc t f : Nat) (c : Chip) : Below c (adoptFrame desc t f c) := by
  unfold adoptFrame
  split
  · exact .refl c
  split
  · exact store_below _ _ c
  split
  · next h => exact ((store_below _ _ _).after (writeShelf_below _ _ _ _)).after (takeShelf_below h)
  · exact .refl c
theorem clearHeld_below (o w : Nat × Nat) (c : Chip) : Below c (clearHeld o w c) := .ite (setRecW_below _ _ _ _ c) (.refl c)
theorem writeCopies_below (n : Nat) (p : Publ) (x : Edited) (c : Chip) : Below c (writeCopies n p x c).1 := by
  unfold writeCopies
  extract_lets s w ua nb c1 c2 ta c3 c4 root c5
  have h1 : Below c c1 := .foldl (fun k _ => copyMem_below _ _ _ k) _ c
  have h2 : Below c c2 := by
    refine Below.after (.foldl (fun k y => ?_) _ _) h1
    dsimp only
    split
    · exact storeLe_below _ _ _ k
    · exact .refl k
  have h3 : Below c c3 := Below.after (.foldl (fun k _ => copyMem_below _ _ _ k) _ _) h2
  have h4 : Below c c4 := by
    refine Below.after (.foldl (fun k y => ?_) _ _) h3
    split
    · exact storeLe_below _ _ _ k
    · exact .refl k
  have h5 : Below c c5 := (copyMem_below _ _ _ _).after h4
  exact Below.after (.foldl (fun k _ => storeLe_below _ _ _ k) _ _) h5
theorem writeCopies_root (n : Nat) (p : Publ) (x : Edited) (c : Chip) : (writeCopies n p x c).2 =
    c.unitBase + 4096 * p.units.getD (x.blocks.length + x.layers.length * tabUnits (c.slot n).words) 0 := rfl

theorem latePassed_below (p t : Nat) (c : Chip) : Below c (latePassed p t c) := .ite (logErr_below _ c) (.refl c)
theorem latePassed_unitBase (p t : Nat) (c : Chip) : (latePassed p t c).unitBase = c.unitBase := by
  unfold latePassed
  split
  · have hrg : ∀ o, o = 0x110 ∨ o = 0x114 → (itemLate p t c).rg (ra pgMtm o) = c.rg (ra pgMtm o) := by
      rintro o (rfl | rfl) <;> exact ce_rg _ _ _ _ c _ (by decide) (by decide) (by decide) (by decide) (by decide)
    rw [Chip.unitBase, Chip.rg64, mtmReg, hrg 0x110 (.inl rfl), show ra pgMtm 0x110 + 4 = ra pgMtm 0x114 from rfl,
      hrg 0x114 (.inr rfl)]
    rfl
  · rfl

/-- The slot once its publication has swapped, before what waits behind it (R160). -/
structure Swapped (c : Chip) (n : Nat) (p : Publ) (lens : List Nat) (k : Chip) : Prop where
  root : (k.slot n).root = (writeCopies n p { p.res with lens := lens } c).2
  dirGen : (k.slot n).dirGen = ((c.slot n).dirGen + 1) % 2 ^ 32
  pubGen : (k.slot n).pubGen = ((c.slot n).dirGen + 1) % 2 ^ 32
  lens : (k.slot n).lens = lens
  pubSt : (k.slot n).pubSt = 2
  publ : (k.slot n).publ = none
  armWait : (k.slot n).armWait = (c.slot n).armWait
  mtmWait : (k.slot n).mtmWait = (c.slot n).mtmWait
  other : ∀ m, m ≠ n → (k.slot m).root = (c.slot m).root

theorem quarFrames_slot {α : Type} (f g : α → Nat) (n tag : Nat) (l : List α) (c : Chip) (m : Nat) :
    (l.foldl (fun k x => quarFrame n tag (f x) (g x) k) c).slot m = c.slot m := by
  induction l generalizing c with
  | nil => rfl
  | cons x l ih => rw [List.foldl_cons, ih, quarFrame_slot]
theorem quarUnits_slot {α : Type} (f g : α → Nat) (n tag : Nat) (l : List α) (c : Chip) (m : Nat) :
    (l.foldl (fun k x => quarUnit n tag (f x) (g x) k) c).slot m = c.slot m := by
  induction l generalizing c with
  | nil => rfl
  | cons x l ih => rw [List.foldl_cons, ih]; rfl

theorem pubSwap_swapped {p : Publ} {lens : List Nat} (hpubl : (c.slot n).publ = some p) (hbuilt : p.built = true)
    (hcome : c.come p.at_ = true) (hlens : swapLens (c.slot n) p.edits = .ok lens) :
    ∃ k, Swapped c n p lens k ∧ pubSwap n c = afterPub n k := by
  have hlate := latePassed_below (pgSlot n) p.at_ c
  have hroot : (writeCopies n p { p.res with lens := lens } (latePassed (pgSlot n) p.at_ c)).2 =
      (writeCopies n p { p.res with lens := lens } c).2 := by
    rw [writeCopies_root, writeCopies_root, latePassed_unitBase, hlate.slot n]
  generalize hswap : pubSwap n c = j
  unfold pubSwap at hswap
  extract_lets s gen at hswap
  rw [show s.publ = some p from hpubl] at hswap
  dsimp -zeta only at hswap
  rw [if_neg (by simp [hbuilt, hcome])] at hswap
  extract_lets c0 cancelled built at hswap
  rw [show swapLens s p.edits = .ok lens from hlens] at hswap
  dsimp -zeta only at hswap
  extract_lets x c2 c3 c4 y c5 c6 c7 c8 c9 at hswap
  have h4 : Below c c4 := by
    have h1 : Below c (writeCopies n p x c0).1 := (writeCopies_below _ _ _ _).after hlate
    have h2 : Below c c2 := Below.after (.foldl (fun k _ => setRef_below _ _ _ k) _ _) h1
    have h3 : Below c c3 := Below.after (.foldl (fun k _ => (setRef_below _ _ _ _).after (adoptFrame_below _ _ _ k)) _ _) h2
    exact Below.after (.foldl (fun k _ => clearHeld_below _ _ k) _ _) h3
  have h9 : ∀ m, c9.slot m = c5.slot m := fun m => by
    have h6 : c6.slot m = c5.slot m := (quarFrames_slot _ _ n gen _ _ m).trans ((clearMoving_below _ c5).slot m)
    have h7 : c7.slot m = c5.slot m := (quarUnits_slot _ _ n gen _ _ m).trans h6
    have h8 : c8.slot m = c5.slot m := (quarUnits_slot _ (fun _ => _) n gen _ _ m).trans h7
    have h89 : Below c8 c9 := by
      unfold c9
      split
      · exact (setRecW_below _ _ _ _ _).after (setRecW_below _ _ _ _ _)
      · exact .refl c8
    exact (h89.slot m).trans h8
  have hlatch := SameButLatches.forEach (fun m k => unlatch_sameButLatches m (editWho n) k) (forkSlots c0 p.edits) c9
  refine ⟨_, ?_, hswap.symm⟩
  obtain ⟨l, hl⟩ := hlatch n
  have hslot : c9.slot n = _ := (h9 n).trans (Chip.setSlot_slot_same ..)
  have hy : y = c.slot n := h4.slot n
  rw [hslot] at hl
  refine ⟨?_, ?_, ?_, ?_, ?_, ?_, ?_, ?_, fun m hm => ?_⟩
  · rw [hl]; exact hroot
  · rw [hl]
  · rw [hl]
  · rw [hl]
  · rw [hl]
  · rw [hl]
  · rw [hl]; exact (congrArg Slot.armWait hy :)
  · rw [hl]; exact (congrArg Slot.mtmWait hy :)
  · obtain ⟨t, ht⟩ := hlatch m
    rw [ht, h9 m, slot_setSlot_other hm, h4.slot m]

/-- A swap whose checks now fail: a software publication is refused (R159). -/
theorem pubSwap_refused {p : Publ} {b : Nat × Nat} (hpubl : (c.slot n).publ = some p) (hbuilt : p.built = true)
    (hcome : c.come p.at_ = true) (hsw : p.sw = true) (hlens : swapLens (c.slot n) p.edits = .error b) :
    pubSwap n c = afterPub n (refusePub n b (dropBuild n p (latePassed (pgSlot n) p.at_ c))) := by
  unfold pubSwap
  dsimp only
  rw [hpubl]
  dsimp only
  rw [if_neg (by simp [hbuilt, hcome]), hlens]
  exact congrArg (afterPub n) (if_pos hsw)
theorem pubSwap_notDue {p : Publ} (hpubl : (c.slot n).publ = some p) (h : p.built = false ∨ c.come p.at_ = false) :
    pubSwap n c = c := by
  unfold pubSwap
  dsimp only
  rw [hpubl]
  exact if_pos (by obtain h | h := h <;> simp [h])

/-! ### The end of the build, and PUB_DISARM -/

theorem pubBuilt_building {p : Publ} (hpubl : (c.slot n).publ = some p) (hbuilt : p.built = false) :
    pubBuilt n c = if (p.sw && decide (p.at_ ≤ c.beat)) = true
      then itemLate (pgSlot n) p.at_ (c.setSlot n { c.slot n with publ := some { p with built := true, late := true, at_ := c.beat + 1 } })
      else c.setSlot n { c.slot n with publ := some { p with
        built := true, late := false, at_ := if p.sw = true then p.at_ else c.beat + 1 } } := by
  unfold pubBuilt
  dsimp only
  rw [hpubl]
  dsimp only
  rw [if_neg (by simp [hbuilt])]
  cases hsw : p.sw
  · simp
  · by_cases hlate : p.at_ ≤ c.beat
    · simp [hlate]
    · simp [hlate]

theorem pubDisarm_software {p : Publ} {v : Nat} (hpubl : (c.slot n).publ = some p) (hsw : p.sw = true) :
    pubDisarm n v c = afterPub n ((dropBuild n p c).setSlot n { (dropBuild n p c).slot n with pubSt := 0 }) := by
  unfold pubDisarm
  dsimp only
  rw [hpubl]
  exact if_pos hsw
theorem pubDisarm_waiting {p : Publ} {v : Nat} (hpubl : (c.slot n).publ = some p) (hsw : p.sw = false)
    (hwait : (c.slot n).armWait ≠ none) :
    pubDisarm n v c = c.setSlot n { c.slot n with armWait := none, pubSt := 0 } := by
  unfold pubDisarm
  dsimp only
  rw [hpubl]
  exact (if_neg (by simp [hsw])).trans (if_pos (Option.isSome_iff_ne_none.mpr hwait))
theorem pubDisarm_nothing {v : Nat} (hpubl : (c.slot n).publ = none) : pubDisarm n v c = ignored (ra (pgSlot n) 0x148) v c := by
  unfold pubDisarm
  dsimp only
  rw [hpubl]

/-! ### PUBLICATION_ARM and the others -/

theorem pairApply_rg (a hi i : Nat) (c : Chip) (h : i ≠ a) (h' : i ≠ a + 4) : (pairApply a hi c).rg i = c.rg i :=
  (Chip.setRg_rg_other _ _ _ _ h').trans (Chip.setRg_rg_other _ _ _ _ h)
theorem pubArm_starts {hi : Nat} (hst : (c.slot n).pubSt ≠ 1) (hpubl : (c.slot n).publ = none) :
    pubArm n hi c = armPub n ((pairApply (ra (pgSlot n) 0x12C) hi c).rg64 (ra (pgSlot n) 0x12C))
      (pairApply (ra (pgSlot n) 0x12C) hi c) := by
  unfold pubArm
  dsimp only
  rw [if_neg hst, show ((pairApply (ra (pgSlot n) 0x12C) hi c).slot n).publ = none from hpubl]
theorem pubArm_waits {hi : Nat} (hst : (c.slot n).pubSt ≠ 1) (hpubl : (c.slot n).publ ≠ none) :
    pubArm n hi c = (pairApply (ra (pgSlot n) 0x12C) hi c).setSlot n { c.slot n with
      armWait := some ((pairApply (ra (pgSlot n) 0x12C) hi c).rg64 (ra (pgSlot n) 0x12C)), pubSt := 1, pubCode := 0, pubIdx := 0 } := by
  unfold pubArm
  dsimp only
  rw [if_neg hst]
  split
  · rfl
  · next h => exact absurd h hpubl

theorem pairApply_rg_slot {n hi o : Nat} (ho : o < 0x12C) : (pairApply (ra (pgSlot n) 0x12C) hi c).rg (ra (pgSlot n) o) = c.rg (ra (pgSlot n) o) :=
  pairApply_rg _ _ _ _ (by simp only [ra]; omega) (by simp only [ra]; omega)
theorem pairApply_rg64_slot {n hi : Nat} : (pairApply (ra (pgSlot n) 0x12C) hi c).rg64 (ra (pgSlot n) 0x120) = c.rg64 (ra (pgSlot n) 0x120) := by
  rw [Chip.rg64, pairApply_rg_slot (by decide), show ra (pgSlot n) 0x120 + 4 = ra (pgSlot n) 0x124 from rfl,
    pairApply_rg_slot (by decide)]
  rfl

/-- Settles O33, command by command. -/
theorem publications : Obligations.Publications := by
  unfold Obligations.Publications
  refine ⟨?unreadable, ?armed, ?refused, ?waits, ?ignored, ?inTime, ?late, ?mtm, ?swap, ?swapRefused, ?notDue, ?disarm,
    ?disarmWaiting, ?disarmNothing⟩
  case unreadable =>
    intro s n hi hc hst hpubl hlen
    refine does_run rfl hc ?_
    rw [pubArm_starts hst hpubl, armPub_unreadable ((congrArg (fld 10 0) (pairApply_rg_slot (by decide))).trans hlen)]
    refine ⟨?_, ?_, ?_, refusePub_hasErr _ _ _, refusePub_mem _ _ _⟩
    all_goals rw [refusePub_slot]
    exact hpubl
  case armed =>
    intro s n hi l k hc hst hpubl hk hlo hhi hal hread hok
    refine does_run rfl hc ?_
    have hlen := hk.trans (congrArg (fld 10 0) (pairApply_rg_slot (n := n) (hi := hi.toNat) (by decide)).symm)
    have hbase := pairApply_rg64_slot (c := s.chip) (n := n) (hi := hi.toNat)
    rw [← hbase] at hal hread
    rw [pubArm_starts hst hpubl]
    have hsame : (pairApply (ra (pgSlot n) 0x12C) hi.toNat s.chip).mem = s.chip.mem ∧
      (pairApply (ra (pgSlot n) 0x12C) hi.toNat s.chip).slot n = s.chip.slot n := ⟨rfl, rfl⟩
    generalize pairApply (ra (pgSlot n) 0x12C) hi.toNat s.chip = j at *
    rw [← pubEdits] at hok ⊢
    obtain ⟨q, hq⟩ := startBuild_isOk hok
    rw [armPub_built hlen hlo hhi hal hread hq, Chip.setSlot_slot_same]
    obtain ⟨hbound, hmem, -, p, hp, hsw, hbuilt, hedits, hat⟩ := startBuild_building hq
    exact ⟨rfl, ⟨p, hp, hsw, hbuilt, hedits, hat⟩, hmem.trans hsame.1, (hbound.binding n).root.trans (congrArg Slot.root hsame.2)⟩
  case refused =>
    intro s n hi l k b hc hst hpubl hk hlo hhi hal hread hbuild
    refine does_run rfl hc ?_
    have hlen := hk.trans (congrArg (fld 10 0) (pairApply_rg_slot (n := n) (hi := hi.toNat) (by decide)).symm)
    have hbase := pairApply_rg64_slot (c := s.chip) (n := n) (hi := hi.toNat)
    rw [← hbase] at hal hread
    rw [pubArm_starts hst hpubl, armPub_refused hlen hlo hhi hal hread hbuild]
    refine ⟨?_, ?_, ?_, ?_, refusePub_hasErr _ _ _, refusePub_mem _ _ _, ((refusePub_keepsBound _ _ _).binding n).root⟩
    all_goals rw [refusePub_slot]
    exact hpubl
  case waits =>
    intro s n hi hc hst hpubl
    refine does_run rfl hc ?_
    rw [pubArm_waits hst hpubl, Chip.setSlot_slot_same]
    exact ⟨rfl, by simp, rfl⟩
  case ignored =>
    intro s n hi hc hst
    refine does_run rfl hc ?_
    rw [show pubArm n hi.toNat s.chip = ignored (ra (pgSlot n) 0x12C + 4) hi.toNat s.chip from if_pos hst]
    have h := logs_ignored (ra (pgSlot n) 0x12C + 4) hi.toNat s.chip
    rwa [show (ra (pgSlot n) 0x12C + 4) % 0x4000000 / 0x1000 = pgSlot n from by
      have hn := n.isLt
      simp only [ra, pgSlot]
      omega] at h
  case inTime =>
    intro s n p hc hpubl hbuilt hsw hbeat
    refine does_run rfl hc ?_
    rw [pubBuilt_building hpubl hbuilt, if_neg (by simp [hbeat]), if_pos hsw]
  case late =>
    intro s n p hc hpubl hbuilt hsw hbeat
    refine does_run rfl hc ?_
    rw [pubBuilt_building hpubl hbuilt, if_pos (by simp [hsw, hbeat])]
    exact logs_itemLate _ _ _
  case mtm =>
    intro s n p hc hpubl hbuilt hsw
    refine does_run rfl hc ?_
    rw [pubBuilt_building hpubl hbuilt, if_neg (by simp [hsw]), if_neg (by simp [hsw])]
  case swap =>
    intro s n p lens hc hpubl hbuilt hcome hlens
    refine does_run rfl hc ?_
    obtain ⟨k, hk, hswap⟩ := pubSwap_swapped hpubl hbuilt hcome hlens
    have hafter := (afterPub_bound n k).binding
    rw [hswap]
    refine ⟨(hafter n).dirGen.trans hk.dirGen, ?_, (hafter n).lens.trans hk.lens, (hafter n).root.trans hk.root,
      fun m hm => (hafter m).root.trans (hk.other m hm), fun hwait => ?_⟩
    · rw [(hafter n).pubGen, (hafter n).dirGen, hk.pubGen, hk.dirGen]
    · rw [afterPub_noArm (hk.armWait.trans hwait)]
      refine ⟨(nextMtm_bound n k).2.st.trans hk.pubSt, fun hmtm => ?_⟩
      rw [nextMtm_nothing (hk.mtmWait.trans hmtm)]
      exact hk.publ
  case swapRefused =>
    intro s n p b hc hpubl hbuilt hcome hsw hlens
    refine does_run rfl hc ?_
    rw [pubSwap_refused hpubl hbuilt hcome hsw hlens]
    have hlate := latePassed_below (pgSlot n) p.at_ s.chip
    obtain ⟨hbound, -, ⟨l, hl⟩, hunits⟩ := dropBuild_dropped n p (latePassed (pgSlot n) p.at_ s.chip)
    generalize dropBuild n p (latePassed (pgSlot n) p.at_ s.chip) = j at hbound hl hunits
    rw [hlate.slot n] at hl
    have hslot := refusePub_slot n b j
    rw [hl] at hslot
    have hall := (afterPub_bound n (refusePub n b j)).after
      ((refusePub_keepsBound n b j).after (hbound.after hlate.keepsBound))
    have hafter := afterPub_bound n (refusePub n b j)
    refine ⟨(hall.binding n).root, (hall.binding n).dirGen, hafter.err _ _ _ (by decide) (by decide) (refusePub_hasErr _ _ _),
      fun u hu hwait hmtm => ?_, fun hwait => ?_⟩
    · rw [afterPub_noArm (by rw [hslot]; exact hwait), nextMtm_nothing (by rw [hslot]; exact hmtm), refusePub_units]
      exact hunits u hu
    · rw [afterPub_noArm (by rw [hslot]; exact hwait)]
      have hsts := (nextMtm_bound n (refusePub n b j)).2
      rw [hslot] at hsts
      refine ⟨hsts.st, hsts.code, hsts.idx, fun hmtm => ?_⟩
      rw [nextMtm_nothing (by rw [hslot]; exact hmtm), hslot]
  case notDue =>
    intro s n p hc hpubl h
    exact does_run rfl hc (pubSwap_notDue hpubl h)
  case disarm =>
    intro s n p hc hpubl hsw
    refine does_run rfl hc ?_
    rw [pubDisarm_software hpubl hsw]
    obtain ⟨hbound, hmem, ⟨l, hl⟩, hunits⟩ := dropBuild_dropped n p s.chip
    generalize dropBuild n p s.chip = j at hbound hmem hl hunits
    have hset : KeepsBound j (j.setSlot n { j.slot n with pubSt := 0 }) :=
      .of_regs (setSlot_keepsBinding ⟨rfl, rfl, rfl, rfl, rfl, rfl, rfl, rfl, rfl, rfl⟩) rfl
    obtain ⟨hslot, hunits', hmem'⟩ : (j.setSlot n { j.slot n with pubSt := 0 }).slot n =
        { s.chip.slot n with latches := l, publ := none, pubSt := 0 } ∧
        (j.setSlot n { j.slot n with pubSt := 0 }).mtm.units = j.mtm.units ∧
        (j.setSlot n { j.slot n with pubSt := 0 }).mem = j.mem := ⟨by rw [Chip.setSlot_slot_same, hl], rfl, rfl⟩
    generalize j.setSlot n { j.slot n with pubSt := 0 } = i at hset hslot hunits' hmem' ⊢
    have hall := ((afterPub_bound n i).after hset).after hbound
    refine ⟨(hall.binding n).root, (hall.binding n).dirGen, fun hwait => ?_⟩
    rw [afterPub_noArm (by rw [hslot]; exact hwait)]
    refine ⟨(nextMtm_bound n i).2.st.trans (by rw [hslot]), fun hmtm => ?_⟩
    rw [nextMtm_nothing (by rw [hslot]; exact hmtm), hunits', hmem']
    exact ⟨by rw [hslot], hunits, hmem⟩
  case disarmWaiting =>
    intro s n p hc hpubl hsw hwait
    exact does_run rfl hc (pubDisarm_waiting hpubl hsw hwait)
  case disarmNothing =>
    intro s n hc hpubl
    refine does_run rfl hc ?_
    rw [pubDisarm_nothing hpubl]
    have h := logs_ignored (ra (pgSlot n) 0x148) 1 s.chip
    rwa [show ra (pgSlot n) 0x148 % 0x4000000 / 0x1000 = pgSlot n from by
      have hn := n.isLt
      simp only [ra, pgSlot]
      omega] at h

end Sys2Proof.Machine
end

section
/-! Armed flips: the routing-table banks (R218) and the special-function tables (R131 to R133). -/

namespace Sys2Proof.Machine

variable {c k : Chip} {n : Nat}

/-! ### The beat pair of an armed flip (R8) -/

/-- The low half of a pair that is wholly writable, and a high half of 22 bits: the beat that the pair then names. -/
theorem pairApply_rg64 {a hi : Nat} (hlo : rwMask a = 0xFFFFFFFF) (hhi : rwMask (a + 4) = 0x3FFFFF) (c : Chip) :
    (pairApply a hi c).rg64 a = c.lowHalf a + 2 ^ 32 * (hi % 2 ^ 22) := by
  have hlow : c.lowHalf a < 2 ^ 32 := by
    unfold Chip.lowHalf
    split
    · exact BitVec.isLt _
    · exact Chip.rg_lt ..
  have hrg : (pairApply a hi c).rg a = c.lowHalf a := by
    refine (Chip.setRg_rg_other _ _ _ _ (by omega)).trans ((Chip.setRg_rg_same ..).trans ?_)
    rw [hlo, show (0xFFFFFFFF : Nat) = 2 ^ 32 - 1 from rfl, Nat.and_two_pow_sub_one_eq_mod, Nat.mod_mod]
    exact Nat.mod_eq_of_lt hlow
  have hrg' : (pairApply a hi c).rg (a + 4) = hi % 2 ^ 22 := by
    refine (Chip.setRg_rg_same ..).trans ?_
    rw [hhi, show (0x3FFFFF : Nat) = 2 ^ 22 - 1 from rfl, Nat.and_two_pow_sub_one_eq_mod]
    omega
  rw [Chip.rg64, hrg, hrg']

theorem armCe_onlyLog (p b : Nat) (c : Chip) : OnlyLog c (armCe p b c) := armCe_only p b c
/-- An item armed too late logs a CE cause 12 at the cadence page (R10). -/
theorem armCe_late {p b : Nat} (h : b ≤ c.beat) : (armCe p b c).hasErr pgCad 0 12 = true := by
  rw [armCe, if_pos h]
  exact (logs_itemLate p b c).2.2
theorem armCe_rg {p b a : Nat} (h : a ∉ errRegs pgCad) : (armCe p b c).rg a = c.rg a := by
  unfold armCe
  split
  · exact (logs_itemLate p b c).2.1 a h
  · rfl

theorem lateFire_onTime {p t : Nat} (h : c.wasDeferred t = false) (h' : c.passed t = false) : lateFire p t c = c :=
  if_neg (by rw [h, h']; decide)
theorem lateFire_late {p t : Nat} (h : c.wasDeferred t = true ∨ c.passed t = true) : lateFire p t c = itemLate p t c :=
  if_pos (by obtain h | h := h <;> simp [h])

/-! ### Routing banks -/

theorem rwMask_rtBeat : rwMask (ra pgLrt 0x120) = 0xFFFFFFFF ∧ rwMask (ra pgLrt 0x120 + 4) = 0x3FFFFF := by decide +kernel

/-- The module with a flip of the routing banks armed. -/
theorem rtFlipArm_free (hi : Nat) (h : c.rtArmed = false) :
    rtFlipArm hi c = armCe pgLrt ((pairApply (ra pgLrt 0x120) hi c).rg64 (ra pgLrt 0x120)) { pairApply (ra pgLrt 0x120) hi c with
      rtArmed := true
      rtAt := (pairApply (ra pgLrt 0x120) hi c).armedAt ((pairApply (ra pgLrt 0x120) hi c).rg64 (ra pgLrt 0x120)) } :=
  if_neg (by rw [h]; decide)

/-- The shadow bank's registers are all that loading it changes, and nothing but registers goes into it. -/
theorem setRtShadow_regs (t : Tab W32) (c : Chip) :
    ∃ f : Tab W32 → Tab W32, ∀ k : Chip, setRtShadow t k = { k with regs := f k.regs } := by
  have hfold : ∀ (l : Tab W32), ∃ f : Tab W32 → Tab W32, ∀ k : Chip,
      l.foldl (fun k e => k.setRg (rtShadow + 4 * e.1) e.2.toNat) k = { k with regs := f k.regs } := by
    intro l
    induction l with
    | nil => exact ⟨id, fun _ => rfl⟩
    | cons e l ih =>
      obtain ⟨f, hf⟩ := ih
      exact ⟨fun r => f (({ c with regs := r } : Chip).setRg (rtShadow + 4 * e.1) e.2.toNat).regs,
        fun k => hf (k.setRg (rtShadow + 4 * e.1) e.2.toNat)⟩
  obtain ⟨f, hf⟩ := hfold t
  exact ⟨fun r => f (Tab.clear rtShadow (rtShadow + 0x8000) r), fun k => hf { k with regs := Tab.clear rtShadow (rtShadow + 0x8000) k.regs }⟩

/-- A flip that is due: the banks change places, and then the late flip is logged. -/
theorem rtFlip_due (harmed : c.rtArmed = true) (hdue : c.cascadeDue c.rtAt = true) :
    ∃ k : Chip, (k.rtActive = c.rtShadowTab ∧ k.rtGen = c.rtGen + 1#32 ∧ k.rtArmed = false ∧ k.links = c.links ∧
      k.mem = c.mem ∧ k.regs = (setRtShadow c.rtActive c).regs ∧ k.cad = c.cad) ∧ rtFlip c = lateFire pgLrt c.rtAt k := by
  obtain ⟨f, hf⟩ := setRtShadow_regs c.rtActive c
  refine ⟨_, ?_, if_pos (by rw [harmed, hdue]; rfl)⟩
  rw [hf, hf]
  exact ⟨rfl, rfl, rfl, rfl, rfl, rfl, rfl⟩

/-- Settles O42, command by command. -/
theorem routingBanks : Obligations.RoutingBanks := by
  unfold Obligations.RoutingBanks
  refine ⟨?arm, ?armed, ?flip, ?notDue, ?copy, ?copyArmed, ?disarm⟩
  case arm =>
    intro s hi b hc hfree hb
    refine does_live rfl hc ?_
    have hbeat := pairApply_rg64 (hi := hi.toNat) rwMask_rtBeat.1 rwMask_rtBeat.2 s.chip
    rw [← hb] at hbeat
    rw [rtFlipArm_free hi.toNat hfree, hbeat]
    obtain ⟨r, m, t, hlog⟩ := armCe_only pgLrt b { pairApply (ra pgLrt 0x120) hi.toNat s.chip with
      rtArmed := true, rtAt := (pairApply (ra pgLrt 0x120) hi.toNat s.chip).armedAt b }
    refine ⟨?_, ?_, ?_, ?_, ?_, fun hlate => armCe_late hlate⟩
    all_goals rw [hlog]
    all_goals rfl
  case armed =>
    intro s hi hc harmed
    refine does_live rfl hc ?_
    rw [show rtFlipArm hi.toNat s.chip = ignored (ra pgLrt 0x120 + 4) hi.toNat s.chip from if_pos harmed]
    exact logs_ignored _ _ _
  case flip =>
    intro s hc harmed hdue
    refine does_run rfl hc ?_
    obtain ⟨k, ⟨hactive, hgen, hfree, hlinks, hmem, hregs, hcad⟩, hflip⟩ := rtFlip_due harmed hdue
    rw [hflip]
    obtain ⟨r, m, t, hlog⟩ := lateFire_only pgLrt s.chip.rtAt k
    refine ⟨?_, ?_, ?_, ?_, ?_, fun hdefer hpassed => ?_, fun hlate => ?_⟩
    · rw [hlog]; exact hactive
    · rw [hlog]; exact hgen
    · rw [hlog]; exact hfree
    · rw [hlog]; exact hlinks
    · rw [hlog]; exact hmem
    · rw [lateFire_onTime (by rwa [Chip.wasDeferred, hcad]) (by rwa [Chip.passed, hcad])]
      exact hregs
    · rw [lateFire_late (by rwa [Chip.wasDeferred, Chip.passed, hcad])]
      exact (logs_itemLate _ _ _).2.2
  case notDue =>
    intro s hc h
    refine does_run rfl hc (if_neg ?_)
    obtain h | h := h <;> simp [h]
  case copy =>
    intro s hc hfree
    exact does_live rfl hc (if_neg (by rw [hfree]; decide))
  case copyArmed =>
    intro s hc harmed
    refine does_live rfl hc ?_
    rw [show rtCopy 1 s.chip = ignored (ra pgLrt 0x12C) 1 s.chip from if_pos harmed]
    exact logs_ignored _ _ _
  case disarm =>
    intro s hc
    exact does_live rfl hc rfl

/-! ### Special-function tables -/

theorem rwMask_sfuFlip (cl : ClusterId) :
    rwMask (sfuReg cl 0x610) = 0xFFFFFFFF ∧ rwMask (sfuReg cl 0x610 + 4) = 0x3FFFFF := by
  revert cl
  decide +kernel

theorem setSfu_clus_same (cl : Nat) (x : Sfu) (c : Chip) : ((setSfu cl x c).clus cl).sfu = x := by
  rw [setSfu, Chip.setClus_clus_same]
theorem setSfu_clus_other {cl m : Nat} (h : m ≠ cl) (x : Sfu) (c : Chip) : (setSfu cl x c).clus m = c.clus m := by
  rw [setSfu, Chip.setClus_clus, if_neg h]
theorem sfuLoadFail_sfu (cl code seg : Nat) (c : Chip) :
    ((sfuLoadFail cl code seg c).clus cl).sfu = { (c.clus cl).sfu with state := 3, loadErr := code, fault := seg } := by
  obtain ⟨r, m, t, h⟩ := ce_only (pgClus cl) 10 code seg (setSfu cl { (c.clus cl).sfu with state := 3, loadErr := code, fault := seg } c)
  rw [sfuLoadFail, h]
  exact setSfu_clus_same cl _ c
theorem sfuLoadFail_clus_other {cl m : Nat} (h : m ≠ cl) (code seg : Nat) (c : Chip) : (sfuLoadFail cl code seg c).clus m = c.clus m := by
  obtain ⟨r, q, t, hk⟩ := ce_only (pgClus cl) 10 code seg (setSfu cl { (c.clus cl).sfu with state := 3, loadErr := code, fault := seg } c)
  rw [sfuLoadFail, hk]
  exact setSfu_clus_other h _ c
theorem sfuLoadFail_hasErr (cl code seg : Nat) (c : Chip) : (sfuLoadFail cl code seg c).hasErr (pgClus cl) 0 10 = true :=
  logErr_hasErr _ _ (show 10 < 32 by decide) (by simp)
theorem sfuLoadFail_mem (cl code seg : Nat) (c : Chip) : (sfuLoadFail cl code seg c).mem = c.mem := ce_mem ..

theorem badAddr_onlyStop (a : Nat) (c : Chip) : OnlyStop c (badAddr a c) := ucOp_only _ _ _ _ _ c
theorem noteRead_onlyStore (a v : Nat) (c : Chip) : OnlyStore c (noteRead a v c) :=
  .forEach (fun _ k => .ite (storeLe_onlyStore _ _ _ k) (.refl k)) _ c

section
variable {cl : Nat} (hload : (c.clus cl).sfu.state = 1) (hrefs : oldRefs c cl = 0)
include hload hrefs

theorem sfuLoadDone_poison {a : Nat} (hread : c.tasRead (c.rg64 (sfuReg cl 0x600)) imageSize = .poison a) :
    sfuLoadDone cl c = sfuLoadFail cl 6 0 c := by
  unfold sfuLoadDone
  dsimp only
  rw [if_neg (by simp [hload, hrefs]), hread]
theorem sfuLoadDone_access (hread : c.tasRead (c.rg64 (sfuReg cl 0x600)) imageSize = .access) :
    sfuLoadDone cl c = sfuLoadFail cl 6 0 (badAddr (c.rg64 (sfuReg cl 0x600)) c) := by
  unfold sfuLoadDone
  dsimp only
  rw [if_neg (by simp [hload, hrefs]), hread]
/-- An image that has been read is the shadow bank, READY when it checks and in ERROR when it does not (R131). -/
theorem sfuLoadDone_ok {l : List Byte} (hread : c.tasRead (c.rg64 (sfuReg cl 0x600)) imageSize = .ok l) :
    (((sfuLoadDone cl c).clus cl).sfu = { (c.clus cl).sfu with shadow := imageBank l, state := 2 } ∧ (imageCheck l).1 = 0 ∨
      ((sfuLoadDone cl c).clus cl).sfu = { (c.clus cl).sfu with
        shadow := imageBank l, state := 3, loadErr := (imageCheck l).1, fault := (imageCheck l).2 } ∧
        (imageCheck l).1 ≠ 0 ∧ (sfuLoadDone cl c).hasErr (pgClus cl) 0 10 = true) ∧
      ∀ m, m ≠ cl → (sfuLoadDone cl c).clus m = c.clus m := by
  obtain ⟨m, p, hnote⟩ := noteRead_onlyStore (c.rg64 (sfuReg cl 0x600)) imageSize c
  unfold sfuLoadDone
  dsimp only
  rw [if_neg (by simp [hload, hrefs]), hread]
  dsimp only
  rw [hnote]
  split
  · next herr =>
    refine ⟨.inr ⟨?_, herr, sfuLoadFail_hasErr _ _ _ _⟩, fun i hi => ?_⟩
    · rw [sfuLoadFail_sfu, setSfu_clus_same]
    · rw [sfuLoadFail_clus_other hi, setSfu_clus_other hi]; rfl
  · next hok =>
    have hok : (imageCheck l).1 = 0 := not_not.mp hok
    split
    · exact ⟨.inl ⟨setSfu_clus_same _ _ _, hok⟩, fun i hi => setSfu_clus_other hi _ _⟩
    · exact ⟨.inl ⟨setSfu_clus_same _ _ _, hok⟩, fun i hi => setSfu_clus_other hi _ _⟩
end

/-- Settles O27, command by command. -/
theorem sfuLoads : Obligations.SfuLoads := by
  unfold Obligations.SfuLoads
  refine ⟨?load, ?loadArmed, ?image, ?poison, ?access, ?arm, ?armed, ?disarm⟩
  case load =>
    intro s cl hc h3 h4 hfree
    refine does_act rfl ?_
    rw [gated_open _ hc.on h3 h4, run_ready _ hc]
    exact if_neg (by rw [hfree]; decide)
  case loadArmed =>
    intro s cl hc h3 h4 harmed
    refine does_act rfl ?_
    rw [gated_open _ hc.on h3 h4, run_ready _ hc, show sfuLoad cl 1 s.chip = ignored (sfuReg cl 0x608) 1
      (setSfu cl { (s.chip.clus cl).sfu with loadErr := 7 } s.chip) from if_pos harmed]
    have h := logs_ignored (sfuReg cl 0x608) 1 (setSfu cl { (s.chip.clus cl).sfu with loadErr := 7 } s.chip)
    rwa [show sfuReg cl 0x608 % 0x4000000 / 0x1000 = pgClus cl from by
      have hcl := cl.isLt
      simp only [sfuReg, ra, pgClus]
      omega] at h
  case image =>
    intro s cl l hc hst hrefs hread
    refine does_work rfl hc ?_
    obtain ⟨⟨h, hok⟩ | ⟨h, herr, hlog⟩, hother⟩ := sfuLoadDone_ok hst hrefs hread
    · exact ⟨by rw [h], by rw [h], by rw [h], fun _ => by rw [h], fun hne => absurd hok hne, hother⟩
    · exact ⟨by rw [h], by rw [h], by rw [h], fun hz => absurd hz herr, fun _ => ⟨by rw [h], by rw [h], hlog⟩, hother⟩
  case poison =>
    intro s cl a hc hst hrefs hread
    refine does_work rfl hc ?_
    rw [sfuLoadDone_poison hst hrefs hread]
    exact ⟨sfuLoadFail_sfu _ _ _ _, sfuLoadFail_hasErr _ _ _ _, fun m hm => sfuLoadFail_clus_other hm _ _ _, sfuLoadFail_mem _ _ _ _⟩
  case access =>
    intro s cl hc hst hrefs hread
    refine does_work rfl hc ?_
    rw [sfuLoadDone_access hst hrefs hread]
    obtain ⟨r, m, t, q, w, hbad⟩ := badAddr_onlyStop (s.chip.rg64 (sfuReg cl 0x600)) s.chip
    rw [hbad]
    exact ⟨sfuLoadFail_sfu _ _ _ _, sfuLoadFail_hasErr _ _ _ _, fun m hm => sfuLoadFail_clus_other hm _ _ _⟩
  case arm =>
    intro s cl hi b hc hfree hb
    refine does_live rfl hc ?_
    have hbeat := pairApply_rg64 (hi := hi.toNat) (rwMask_sfuFlip cl).1 (rwMask_sfuFlip cl).2 s.chip
    rw [← hb] at hbeat
    have harm : sfuFlipArm cl hi.toNat s.chip = _ := if_neg (by rw [hfree]; decide)
    rw [harm]
    dsimp only
    rw [hbeat]
    generalize hj : setSfu cl _ (pairApply (sfuReg cl 0x610) hi.toNat s.chip) = j
    have hsfu : (j.clus cl).sfu = { (s.chip.clus cl).sfu with
        armed := true, flipAt := s.chip.armedAt b, late := decide (b ≤ s.chip.beat) } := by
      rw [← hj]; exact setSfu_clus_same _ _ _
    have hsame : j.mem = s.chip.mem ∧ j.cad = s.chip.cad ∧ j.rg64 (sfuReg cl 0x610) = b := by
      rw [← hj]; exact ⟨rfl, rfl, hbeat⟩
    have hrg : ∀ a, a ∉ errRegs pgCad → (armCe (pgClus cl) b j).rg a = j.rg a := fun a ha => armCe_rg ha
    have hlate : b ≤ s.chip.beat → (armCe (pgClus cl) b j).hasErr pgCad 0 12 = true := fun h => armCe_late (by
      rw [Chip.beat, hsame.2.1]; exact h)
    have hpair : (armCe (pgClus cl) b j).rg64 (sfuReg cl 0x610) = b := by
      have hcl := cl.isLt
      rw [Chip.rg64, hrg _ (by simp [errRegs, ra_inj, sfuReg]), hrg _ (by
        rw [show sfuReg cl 0x610 + 4 = ra (pgClus cl) 0x614 from rfl]; simp [errRegs, ra_inj])]
      exact hsame.2.2
    obtain ⟨r, m, t, hlog⟩ := armCe_only (pgClus cl) b j
    refine ⟨?_, ?_, ?_, ?_, hpair, hlate⟩
    · rw [hlog]; exact congrArg Sfu.armed hsfu
    · rw [hlog]; exact congrArg Sfu.flipAt hsfu
    · rw [hlog]; exact (congrArg Sfu.active hsfu :)
    · rw [hlog]; exact hsame.1
  case armed =>
    intro s cl hi hc harmed
    refine does_live rfl hc ?_
    rw [show sfuFlipArm cl hi.toNat s.chip = ignored (sfuReg cl 0x614) hi.toNat s.chip from if_pos harmed]
    have h := logs_ignored (sfuReg cl 0x614) hi.toNat s.chip
    rwa [show sfuReg cl 0x614 % 0x4000000 / 0x1000 = pgClus cl from by
      have hcl := cl.isLt
      simp only [sfuReg, ra, pgClus]
      omega] at h
  case disarm =>
    intro s cl hc h3 h4
    refine does_act rfl ?_
    rw [gated_open _ hc h3 h4]
    rfl

end Sys2Proof.Machine
end

section
/-! The roll of a scale-plan entry (R51 to R53): what is stored, and where. -/

namespace Sys2Proof.Machine

variable {c k : Chip} {a : Nat}

theorem byteAt_storeLe_outside {p w v x : Nat} (h : x < p ∨ p + w ≤ x) (c : Chip) : (c.storeLe p w v).byteAt x = c.byteAt x := by
  rw [Chip.storeLe, Chip.store_byteAt, leBytes_length, if_neg (by omega)]
theorem le_four_lt (p : Nat) (c : Chip) : c.le p 4 < 2 ^ 32 := by
  have hlist : ∀ l : List Byte, leNat l < 256 ^ l.length := by
    intro l
    induction l with
    | nil => simp [leNat]
    | cons b l ih =>
      have hb := b.isLt
      rw [leNat, List.length_cons, Nat.pow_succ]
      omega
  have h := hlist (c.bytes p 4)
  rwa [show (c.bytes p 4).length = 4 from by simp [Chip.bytes, Tab.getList]] at h

/-! ### The words of an entry -/

/-- The number of values that the history of an entry holds, and the place of the next one. -/
def planDepth (c : Chip) (a : Nat) : Nat := max 1 (fld 8 4 (c.le (a + 4) 4))
def planHead (c : Chip) (a : Nat) : Nat := fld 3 0 (c.le (a + 8) 4)
def planFilled (c : Chip) (a : Nat) : Nat := min (fld 8 4 (c.le (a + 8) 4) + 1) (planDepth c a)

/-- A word with head and fill advanced, and OVERFLOW set or not. -/
def rolledWord (c : Chip) (a : Nat) (inf : Bool) : Nat :=
  if inf then setFld 9 9 (setFld 8 4 (setFld 3 0 (c.le (a + 8) 4) ((planHead c a + 1) % planDepth c a)) (planFilled c a)) 1
  else setFld 8 4 (setFld 3 0 (c.le (a + 8) 4) ((planHead c a + 1) % planDepth c a)) (planFilled c a)

theorem planHead_lt (c : Chip) (a : Nat) : planHead c a < 16 := Nat.mod_lt _ (by decide)
theorem rolledWord_fields {inf : Bool} (hdepth : planDepth c a ≤ 16) : rolledWord c a inf < 2 ^ 32 ∧
    fld 3 0 (rolledWord c a inf) = (planHead c a + 1) % planDepth c a ∧ fld 8 4 (rolledWord c a inf) = planFilled c a := by
  have hw := le_four_lt (a + 8) c
  have hhead : (planHead c a + 1) % planDepth c a < 16 :=
    (Nat.mod_lt _ (Nat.lt_of_lt_of_le Nat.one_pos (Nat.le_max_left ..))).trans_le hdepth
  have hfill : planFilled c a < 32 := (Nat.min_le_right ..).trans_lt (by omega)
  unfold rolledWord
  generalize c.le (a + 8) 4 = w at hw ⊢
  generalize (planHead c a + 1) % planDepth c a = i at hhead ⊢
  generalize planFilled c a = j at hfill ⊢
  unfold setFld fld
  cases inf
  · rw [if_neg (by decide)]
    refine ⟨?_, ?_, ?_⟩ <;> omega
  · rw [if_pos rfl]
    refine ⟨?_, ?_, ?_⟩ <;> omega

/-- The module with the entry's history and its words 2 and 3 rolled. -/
def rolled (c : Chip) (a : Nat) (inf : Bool) : Chip :=
  ((c.storeLe (a + 0x40 + 4 * planHead c a) 4 (c.le (a + 0xC) 4)).storeLe (a + 8) 4 (rolledWord c a inf)).storeLe (a + 0xC) 4 0

/-- A roll stores the history, words 2 and 3 and, unless the history overflows, the scale. -/
theorem rollEntry_rolled (a : Nat) (c : Chip) :
    ∃ inf, rollEntry a c = rolled c a inf ∨ ∃ s, rollEntry a c = (rolled c a inf).storeLe a 4 s := by
  unfold rollEntry
  dsimp only
  split
  · exact ⟨true, .inl rfl⟩
  · refine ⟨false, .inr ?_⟩
    split
    · exact ⟨_, rfl⟩
    · exact ⟨_, rfl⟩

/-- What a roll leaves: the same for both kinds, as the scale lies before everything else in the entry. -/
structure RolledEntry (c : Chip) (a : Nat) (k : Chip) : Prop where
  amax : k.le (a + 0xC) 4 = 0
  history : k.le (a + 0x40 + 4 * planHead c a) 4 = c.le (a + 0xC) 4
  head : fld 3 0 (k.le (a + 8) 4) = (planHead c a + 1) % planDepth c a
  fill : fld 8 4 (k.le (a + 8) 4) = planFilled c a
  outside : ∀ x, x < a ∨ a + 128 ≤ x → k.byteAt x = c.byteAt x
  regs : k.regs = c.regs

theorem rolled_entry (inf : Bool) (hdepth : planDepth c a ≤ 16) : RolledEntry c a (rolled c a inf) := by
  have hhead := planHead_lt c a
  obtain ⟨hlt, hfld, hfld'⟩ := rolledWord_fields (inf := inf) hdepth
  have hword : (rolled c a inf).le (a + 8) 4 = rolledWord c a inf := by
    rw [rolled, le_storeLe_apart _ (by omega), le_storeLe_same]
    exact Nat.mod_eq_of_lt hlt
  refine ⟨?_, ?_, by rw [hword, hfld], by rw [hword, hfld'], fun x hx => ?_, rfl⟩
  · rw [rolled, le_storeLe_same]
    rfl
  · rw [rolled, le_storeLe_apart _ (by omega), le_storeLe_apart _ (by omega), le_storeLe_same]
    exact Nat.mod_eq_of_lt (le_four_lt _ c)
  · rw [rolled, byteAt_storeLe_outside (by omega), byteAt_storeLe_outside (by omega), byteAt_storeLe_outside (by omega)]
theorem RolledEntry.scale {s : Nat} (h : RolledEntry c a k) : RolledEntry c a (k.storeLe a 4 s) := by
  obtain ⟨h1, h2, h3, h4, h5, h6⟩ := h
  refine ⟨?_, ?_, ?_, ?_, fun x hx => ?_, h6⟩
  · rw [le_storeLe_apart _ (by omega), h1]
  · rw [le_storeLe_apart _ (by omega), h2]
  · rw [le_storeLe_apart _ (by omega), h3]
  · rw [le_storeLe_apart _ (by omega), h4]
  · rw [byteAt_storeLe_outside (by omega), h5 x hx]
theorem rollEntry_entry (hdepth : planDepth c a ≤ 16) : RolledEntry c a (rollEntry a c) := by
  obtain ⟨inf, h | ⟨s, h⟩⟩ := rollEntry_rolled a c
  · rw [h]; exact rolled_entry inf hdepth
  · rw [h]; exact (rolled_entry inf hdepth).scale

/-- A history of depth 1 that holds the value 0 gives the scale 1.0 (R52). -/
theorem rollEntry_scale_one (hdepth : fld 8 4 (c.le (a + 4) 4) = 1) (hhead : fld 3 0 (c.le (a + 8) 4) = 0)
    (hamax : c.le (a + 0xC) 4 = 0) : (rollEntry a c).le a 4 = 0x3F800000 := by
  have hfold : ((List.range 1).map (fun i => (BitVec.ofNat 32 ((c.storeLe (a + 0x40 + 4 * 0) 4 0).le (a + 0x40 + 4 * i) 4) : F32))).foldl
      fMax fZero = fZero := by
    rw [List.range_one, List.map_singleton, le_storeLe_same]
    decide
  unfold rollEntry
  dsimp only
  rw [hdepth, hhead, hamax, show min (fld 8 4 (c.le (a + 8) 4) + 1) (max 1 1) = 1 from by omega, hfold,
    if_neg (show ¬ fZero = fInf by decide), if_pos (show isZero fZero = true by decide), le_storeLe_same]
  decide

/-! ### SCALE_PLAN_ROLL -/

theorem scalePlanRoll_done (hroll : a ∈ c.rolls) (hfree : latchedBy c a = false) (hprov : fld 15 10 (c.le (a + 8) 4) = 0) :
    scalePlanRoll a c = { rollEntry a c with rolls := c.rolls.erase a } := if_pos (by simp [hroll, hfree, hprov])

/-- Settles O26: a roll, the scale of an all-zero history, and a roll that still waits. -/
theorem scalePlanRollObligation : Obligations.ScalePlanRoll := by
  unfold Obligations.ScalePlanRoll
  refine ⟨?roll, ?scale, ?waits⟩
  case roll =>
    intro s a hc hroll hfree hprov hdepth
    refine does_work rfl hc ?_
    rw [scalePlanRoll_done hroll hfree hprov]
    obtain ⟨h1, h2, h3, h4, h5, h6⟩ := rollEntry_entry (c := s.chip) (a := a) (Nat.max_le.mpr ⟨by decide, hdepth⟩)
    generalize rollEntry a s.chip = k at *
    exact ⟨rfl, h1, h2, h3, h4, h5, h6⟩
  case scale =>
    intro s a hc hroll hfree hprov hdepth hhead hamax
    refine does_work rfl hc ?_
    rw [scalePlanRoll_done hroll hfree hprov]
    obtain ⟨h1, -, -, -, h5, h6⟩ := rollEntry_entry (c := s.chip) (a := a) (by rw [planDepth, hdepth]; decide)
    have hscale := rollEntry_scale_one hdepth hhead hamax
    generalize rollEntry a s.chip = k at *
    exact ⟨rfl, hscale, h1, h5, h6⟩
  case waits =>
    intro s a hc _ hprov
    exact does_work rfl hc (if_neg (by simp [hprov]))

end Sys2Proof.Machine
end

section
/-! The register window: a plain write of a core's register, and register pairs (R8, R9, R97). -/

namespace Sys2Proof.Machine

variable {c : Chip} {n : CoreId}

/-! ### The registers of a core page -/

theorem coreReg_ofs (n : CoreId) {o : Nat} (ho : o < 0x1000) : coreReg n o % 0x1000 = o := by
  simp only [coreReg, ra]
  omega
/-- No selector banks a register of a core page. -/
theorem regKey_core (c : Chip) (n : CoreId) {o : Nat} (ho : o < 0x1000) : regKey c (coreReg n o) = coreReg n o := by
  have hp : coreReg n o / 0x1000 = pgCore n := by simp only [coreReg, ra]; omega
  have hn : pgCore n ≠ pgPwr ∧ pgCore n ≠ pgMbp ∧ pgCore n ≠ pgMtm ∧ pgCore n ≠ pgRcu ∧ pgCore n ≠ pgCxl 0 ∧ pgCore n ≠ pgCxl 1 := by
    simp only [pgCore, pgPwr, pgMbp, pgMtm, pgRcu, pgCxl]
    omega
  obtain ⟨h1, h2, h3, h4, h5, h6⟩ := hn
  simp only [regKey, hp, coreReg_ofs n ho, h1, h2, h3, h4, h5, h6, false_and, false_or, if_false, bank]
  simp [coreReg, ra]

theorem regRow_core (n : CoreId) {o : Nat} (ho : o < 0x1000) (h : 0x100 ≤ o) :
    regRow (coreReg n o) = findRow o coreRows := by
  have hp : coreReg n o / 0x1000 = 0x100 + n := by simp only [coreReg, ra, pgCore]; omega
  simp [regRow, hp, pageBlk_core, coreReg_ofs n ho, Nat.not_lt.mpr h, blkRows]

/-- A write of a block-specific register of a core page that exists. -/
theorem regWrite_core (n : CoreId) {o : Nat} (h4 : o % 4 = 0) (ho : o < 0x1000) (h : 0x100 ≤ o) {r : RegRow}
    (hr : findRow o coreRows = some r) (v : Nat) (c : Chip) :
    regWrite (coreReg n o) v c = coreWrite (isGated { c with answer := {} } .core) n o v { c with answer := {} } := by
  have ha : coreReg n o % 4 = 0 := by simp only [coreReg, ra]; omega
  have hp : coreReg n o / 0x1000 = 0x100 + n := by simp only [coreReg, ra, pgCore]; omega
  unfold regWrite
  simp only [ha, hp, pageBlk_core, regRow_core n ho h, hr, coreReg_ofs n ho, Nat.not_lt.mpr h]
  simp [blkWrite]

/-! ### A plain register write -/

/-- A register all of whose bits a write sets takes the word. -/
theorem plainWrite_word {a : Nat} {r : RegRow} (hr : regRow a = some r) (hrow : r.rw = 0xFFFFFFFF ∧ r.rwl = 0 ∧ r.w1c = 0 ∧ r.pair = 0)
    (hkey : regKey c a = a) (v : W32) : plainWrite a v.toNat c = c.setRg a v.toNat := by
  obtain ⟨hrw, hrwl, hw1c, hpair⟩ := hrow
  have hand (x : Nat) (hx : x < 2 ^ 32) : x &&& 0xFFFFFFFF = x := by
    rw [show (0xFFFFFFFF : Nat) = 2 ^ 32 - 1 from rfl, Nat.and_two_pow_sub_one_eq_mod, Nat.mod_eq_of_lt hx]
  simp only [plainWrite, hr, hrw, hrwl, hw1c, hpair, hkey]
  simp [hand _ (Chip.rg_lt ..), hand _ v.isLt]

theorem sq_row : ∀ i < 32, findRow (0x140 + 4 * i) coreRows = some { off := 0x140, last := 0x1bc, rw := 0xffffffff } := by decide

/-- A write of a sequencer register: it stores while the list does not run (R97). -/
theorem regWrite_sq {i : Nat} (hi : i < 32) (v : W32) (c : Chip) :
    regWrite (coreReg n (0x140 + 4 * i)) v.toNat c =
      if (c.core n).st = 0 ∨ (c.core n).st = 4 then ({ c with answer := {} } : Chip).setRg (coreReg n (0x140 + 4 * i)) v.toNat
      else { c with answer := {} } := by
  rw [regWrite_core n (by omega) (by omega) (by omega) (sq_row i hi)]
  refine (if_pos (by omega)).trans ?_
  split
  · next h =>
      exact (plainWrite_word ((regRow_core n (by omega) (by omega)).trans (sq_row i hi)) (by decide) (regKey_core _ n (by omega)) v).trans (if_pos h).symm
  · next h => exact (if_neg h).symm

/-- The register a holds w in k, and no other register, no memory and no core of c changed. -/
def Holds (c k : Chip) (a w : Nat) : Prop :=
  k.rg a = w ∧ (∀ b, b ≠ a → k.rg b = c.rg b) ∧ k.mem = c.mem ∧ k.cores = c.cores

theorem wordWrite_sq {i w : Nat} {k : Chip} (hi : i < 32) (hst : (c.core n).st = 0 ∨ (c.core n).st = 4)
    (h : Holds c k (coreReg n (0x140 + 4 * i)) w) (v : Option W32) :
    Holds c (wordWrite (coreReg n (0x140 + 4 * i)) 4 v k) (coreReg n (0x140 + 4 * i)) ((v.map BitVec.toNat).getD w) := by
  cases v with
  | none => exact h
  | some v =>
    obtain ⟨-, hrg, hmem, hcores⟩ := h
    rw [wordWrite_four, regWrite_sq hi, if_pos (by rwa [show k.core n = c.core n from by rw [Chip.core, hcores]; rfl])]
    refine ⟨?_, fun b hb => (Chip.setRg_rg_other _ _ _ _ hb).trans (hrg b hb), hmem, hcores⟩
    exact (Chip.setRg_rg_same ..).trans (Nat.mod_eq_of_lt v.isLt)

/-- Settles O10: the two words of a cycle one after the other, each by `regWrite_sq`. -/
theorem registerWriteStores : Obligations.RegisterWriteStores := by
  unfold Obligations.RegisterWriteStores
  refine ⟨?stores, ?running⟩
  case stores =>
    intro s n i cn mp hc hi hst
    refine does_registerWrite hc ?_
    rw [registerWrite_eq_wordWrite]
    have hrefl : Holds s.chip s.chip (coreReg n (0x140 + 4 * i)) (s.chip.rg (coreReg n (0x140 + 4 * i))) :=
      ⟨rfl, fun _ _ => rfl, rfl, rfl⟩
    obtain ⟨hw, hrg, hmem, hcores⟩ := wordWrite_sq hi hst (wordWrite_sq hi hst hrefl cn) mp
    refine ⟨hw.trans ?_, hrg, hmem, by rw [Chip.core, hcores]; rfl⟩
    have hlt : s.chip.rg (coreReg n (0x140 + 4 * i)) < 2 ^ 32 := Chip.rg_lt ..
    cases mp <;> cases cn <;> simp
    exact (Nat.mod_eq_of_lt hlt).symm
  case running =>
    intro s n i v hc hi h0 h4
    refine does_registerWrite hc ?_
    rw [registerWrite_eq_wordWrite, wordWrite_none, wordWrite_four, regWrite_sq hi, if_neg (by simp [h0, h4])]

/-! ### Register pairs -/

theorem regKey_congr {c k : Chip} (h : k.regs = c.regs) (a : Nat) : regKey k a = regKey c a := by
  have hrg (b : Nat) : k.rg b = c.rg b := by simp only [Chip.rg, h]
  simp only [regKey, hrg]

theorem window_of_row {a : Nat} {r : RegRow} (hr : regRow a = some r) : (pageBlk (a / 0x1000)).isNone = false := by
  unfold regRow at hr
  split at hr
  · contradiction
  · next h => rw [h]; rfl
  · next h => rw [h]; rfl

theorem not_want {a : Nat} {r : RegRow} (hr : regRow a = some r) (hp : r.pair ≠ 0) : a ≠ tamReg 0x15C := by
  rintro rfl
  rw [show regRow (tamReg 0x15C) = some _ from rfl] at hr
  injection hr with hr
  exact hp (by rw [← hr])

/-- Reading a low half gives it and latches the high half. -/
theorem readReg_low {a : Nat} {r : RegRow} (h4 : a % 4 = 0) (hw : a < windowSize) (hr : regRow a = some r) (hp : r.pair = 1) :
    readReg a c = { c with
      answer := { value := BitVec.ofNat 32 (regValue c a) }
      pairLatch := Tab.set (fun _ => none) c.pairLatch (regKey c a) (some (BitVec.ofNat 32 (regValue c (a + 4)))) } := by
  unfold readReg
  simp only [h4, Nat.not_le.mpr hw, window_of_row hr, not_want hr (by omega), hr, hp]
  simp
/-- Reading a high half that is latched gives what was latched. -/
theorem readReg_high {a : Nat} {r : RegRow} {v : W32} (h4 : a % 4 = 0) (hw : a < windowSize) (hr : regRow a = some r) (hp : r.pair = 2)
    (hlatch : Tab.get (fun _ => none) c.pairLatch (regKey c (a - 4)) = some v) : (readReg a c).answer.value = v := by
  unfold readReg
  simp only [h4, Nat.not_le.mpr hw, window_of_row hr, not_want hr (by omega), hr, hp, hlatch]
  simp

theorem startBeat_rows : findRow 0x110 coreRows = some { off := 0x110, rw := 0xffffffff, pair := 1 } ∧
    findRow 0x114 coreRows = some { off := 0x114, rw := 0x3fffff, pair := 2 } := by decide

theorem rwMask_startBeat (n : CoreId) : rwMask (coreReg n 0x110) = 0xFFFFFFFF ∧ rwMask (coreReg n 0x110 + 4) = 0x3FFFFF := by
  revert n
  decide +kernel

/-- Outside the sequencer registers and the list command a core page's register is plain. -/
theorem coreWrite_plain {g : Bool} {m o v : Nat} (hsq : ¬ (0x140 ≤ o ∧ o < 0x1C0)) (hcmd : o ≠ 0x10C) :
    coreWrite g m o v c = plainWrite (ra (pgCore m) o) v c := by
  unfold coreWrite
  dsimp only
  rw [if_neg hsq, if_neg hcmd]

/-- A write of the high half of START_BEAT applies both halves (R8). -/
theorem pairHighWrite_startBeat (n : CoreId) (v : W32) (c : Chip) :
    pairHighWrite (coreReg n 0x114) v.toNat c = pairApply (coreReg n 0x110) v.toNat { c with answer := {} } := by
  have ha : coreReg n 0x114 % 4 = 0 := by simp only [coreReg, ra]; omega
  have hr := (regRow_core n (by decide) (by decide)).trans startBeat_rows.2
  have hlow : coreReg n 0x114 - 4 = coreReg n 0x110 := rfl
  unfold pairHighWrite
  simp only [ha, hr]
  rw [if_neg (by decide), if_pos trivial, regWrite_core n (by decide) (by decide) (by decide) startBeat_rows.2]
  rw [coreWrite_plain (by decide) (by decide), show ra (pgCore n) 0x114 = coreReg n 0x114 from rfl]
  simp only [plainWrite, hr, hlow, regKey_core _ n (show 0x110 < 0x1000 by decide)]
  simp [Nat.mod_eq_of_lt v.isLt]

/-- Settles O11: the latch by `readReg_low` and `readReg_high`, the write by `pairHighWrite_startBeat`. -/
theorem registerPairs : Obligations.RegisterPairs := by
  unfold Obligations.RegisterPairs
  refine ⟨?latch, ?staged, ?current⟩
  case latch =>
    intro s a r r' hc h4 hw hr hp hr' hp'
    refine does_live rfl hc ?_
    have hread : pairLowRead a s.chip = readReg a s.chip := by simp [pairLowRead, h4, hr, hp]
    rw [hread, readReg_low h4 (by omega) hr hp]
    refine ⟨rfl, rfl, rfl, fun k hlatch hregs => ?_⟩
    refine readReg_high (by omega) hw hr' hp' ?_
    rw [hlatch, regKey_congr hregs, Nat.add_sub_cancel]
    exact Tab.get_set_same ..
  case staged =>
    intro s n lo v hc hlo
    refine does_live rfl hc ?_
    rw [pairHighWrite_startBeat]
    refine ⟨?_, fun a h h' => pairApply_rg _ _ _ _ h h', rfl⟩
    rw [pairApply_rg64 (rwMask_startBeat n).1 (rwMask_startBeat n).2]
    simp [Chip.lowHalf, hlo]
  case current =>
    intro s n v hc hlo
    refine does_live rfl hc ?_
    rw [pairHighWrite_startBeat, pairApply_rg64 (rwMask_startBeat n).1 (rwMask_startBeat n).2]
    simp [Chip.lowHalf, hlo, Chip.rg]

end Sys2Proof.Machine
end

section
/-! Error injection (R349, R421, R427, R428). -/

namespace Sys2Proof.Machine

variable {c : Chip}

/-! ### A fatal error sheds compute (R380, R428) -/

theorem foldl_setCore_core (f : Core → Core) (l : List Nat) (hl : l.Nodup) (c : Chip) (n : Nat) :
    (l.foldl (fun k i => k.setCore i (f (k.core i))) c).core n = if n ∈ l then f (c.core n) else c.core n := by
  induction l generalizing c with
  | nil => rfl
  | cons i l ih =>
      obtain ⟨hi, hl⟩ := List.nodup_cons.mp hl
      rw [List.foldl_cons, ih hl, Chip.setCore_core]
      by_cases hn : n = i
      · subst hn
        simp [hi]
      · simp [hn]

theorem shedCores_core (c : Chip) {n : Nat} (hn : n < 192) : (shedCores c).core n = stopCore (c.core n) := by
  have hin : n ∈ List.range 192 := List.mem_range.mpr hn
  have hnodup : (List.range 192).Nodup := List.nodup_range
  unfold shedCores
  generalize List.range 192 = l at *
  exact (foldl_setCore_core stopCore l hnodup c n).trans (if_pos hin)
theorem shedCores_shed (c : Chip) : (shedCores c).pwr.shed = true := by
  unfold shedCores
  generalize List.range 192 = l
  rfl

/-- What a fatal error leaves of compute: every list stopped, and no command acts on it. -/
theorem fatal_sheds (e : ErrRec) (c : Chip) :
    (fatal e c).pwr.shed = true ∧ ∀ n < 192, ((fatal e c).core n).st = 0 ∧ ((fatal e c).core n).runs = [] := by
  have hshed := shedCores_shed c
  have hcore := fun n (hn : n < 192) => shedCores_core c hn
  unfold fatal
  dsimp only
  generalize shedCores c = k at *
  have hstop (j : Chip) (h : j.cores = k.cores) : ∀ n < 192, (j.core n).st = 0 ∧ (j.core n).runs = [] := by
    intro n hn
    have : j.core n = stopCore (c.core n) := by rw [Chip.core, h]; exact hcore n hn
    rw [this]
    exact ⟨rfl, rfl⟩
  split
  · exact ⟨hshed, hstop k rfl⟩
  · exact ⟨hshed, hstop _ rfl⟩

theorem logErr_keepsMem (e : ErrRec) (c : Chip) : (logErr e c).mem = c.mem := by
  obtain ⟨r, m, t, q, w, h⟩ := logErr_only e c
  rw [h]

theorem logErr_fe {e : ErrRec} (h : e.cls = 3) (c : Chip) : ∃ e' k, logErr e c = fatal e' k := by
  unfold logErr logWith
  dsimp only
  rw [if_pos (by simp [h])]
  exact ⟨_, _, rfl⟩

/-! ### ERR_INJ -/

/-- A cause of a block is a bit of the status word. -/
theorem blkCauses_lt {b : Blk} {k : Nat} (h : k ∈ blkCauses b) : k < 32 := by
  have hall : ∀ b, (blkCauses b).all (· < 32) = true := by intro b; cases b <;> decide
  exact of_decide_eq_true (List.all_eq_true.mp (hall b) k h)
theorem blkCauses_inj {b : Blk} {k : Nat} (h : k ∈ blkCauses b) : bit 3 (blkCap b) = true ∧ b ≠ .rt := by
  cases b
  case rt => cases h
  all_goals exact ⟨rfl, nofun⟩

/-- The fields of the word that injects an error of a class and cause. -/
theorem injWord {cls k : Nat} (hcls : cls < 4) (hk : k < 32) :
    bit 16 (BitVec.ofNat 32 (cls + 2 ^ 8 * k + 2 ^ 16)).toNat = true ∧ fld 3 0 (BitVec.ofNat 32 (cls + 2 ^ 8 * k + 2 ^ 16)).toNat = cls ∧
      fld 12 8 (BitVec.ofNat 32 (cls + 2 ^ 8 * k + 2 ^ 16)).toNat = k := by
  rw [BitVec.toNat_ofNat, Nat.mod_eq_of_lt (by omega)]
  simp only [bit, fld, beq_iff_eq]
  omega

/-- The record of an injected error (R349). -/
def injRec (c : Chip) (b : Blk) (p n cls k : Nat) : ErrRec :=
  let scope := if cls < 2 then 0 else if cls = 3 then 4 else ucScope b k
  { cls := cls, scope := scope, injected := true, cause := k, page := p,
    scopeId := if scope = 3 then c.sliceId else servedId c (if cls = 2 then served c b n scope else .none) }

/-- An injection that the block honours: its record, and the end of the item that a UC finds. -/
theorem errInj_honoured {p p0 k cls : Nat} {b : Blk} (hp : pageBlk p = some (b, p0)) (hlc : c.lc = 1 ∨ c.lc = 3)
    (hgate : isGated c b = false) (hk : k ∈ blkCauses b) (hcls : cls < 4) :
    errInj p (BitVec.ofNat 32 (cls + 2 ^ 8 * k + 2 ^ 16)).toNat c =
      endServed k (if cls = 2 then served c b (p - p0) (ucScope b k) else .none) (logErr (injRec c b p (p - p0) cls k) c) := by
  obtain ⟨h16, hfcls, hfk⟩ := injWord hcls (blkCauses_lt hk)
  obtain ⟨hinj, hrt⟩ := blkCauses_inj hk
  unfold errInj
  simp only [hp, h16, hfcls, hfk]
  rw [if_neg (by simp [hrt]), if_pos ⟨hlc, hinj, by omega, List.contains_iff_mem.mpr hk, hgate⟩]
  by_cases h2 : cls = 2
  · subst h2; rfl
  · simp only [if_neg h2, injRec]

theorem errInj_ignored {p p0 v : Nat} {b : Blk} (hp : pageBlk p = some (b, p0)) (hrt : b ≠ .rt) (hgo : bit 16 v = true)
    (hbad : (c.lc ≠ 1 ∧ c.lc ≠ 3) ∨ 3 < fld 3 0 v ∨ fld 12 8 v ∉ blkCauses b ∨ isGated c b = true) :
    errInj p v c = ignored (ra p 0x18) v c := by
  unfold errInj
  simp only [hp]
  rw [if_neg (by simp [hgo, hrt]), if_neg]
  rintro ⟨hlc, -, hcls, hk, hgate⟩
  rcases hbad with ⟨h1, h3⟩ | h | h | h
  · exact hlc.elim h1 h3
  · omega
  · exact h (List.contains_iff_mem.mp hk)
  · rw [h] at hgate; contradiction

/-! ### A UC of a core whose operation runs -/

theorem unlatch_cores (m who : Nat) (c : Chip) : (unlatch m who c).cores = c.cores := rfl
theorem unlatch_regs (m who : Nat) (c : Chip) : (unlatch m who c).regs = c.regs := rfl

/-- The first run, begun and not ended, ends with a status. -/
theorem endRun_first {n : Nat} {r : TodRun} {l : List TodRun} (hruns : (c.core n).runs = r :: l) (hbegun : r.begun = true)
    (hended : r.ended = false) (st ofs val cc : Nat) :
    (endRun n r st ofs val cc c).regs = c.regs ∧
    ((endRun n r st ofs val cc c).core n).runs =
      { r with ended := true, status := st, faultOfs := ofs, faultVal := val, arrayCc := cc } :: l := by
  have hidx : (r :: l).findIdx? (fun r => r.begun && !r.ended) = some 0 := by simp [List.findIdx?_cons, hbegun, hended]
  have hset (x : TodRun) : setRun n x c = c.setCore n { c.core n with runs := x :: l } := by
    unfold setRun
    simp only [hruns, hidx]
    rfl
  unfold endRun
  rw [hset]
  dsimp only
  split
  · refine ⟨rfl, ?_⟩
    rw [Chip.core, unlatch_cores]
    exact congrArg Core.runs (Chip.setCore_core_same ..)
  · exact ⟨rfl, congrArg Core.runs (Chip.setCore_core_same ..)⟩

theorem hasErr_of_regs {k : Chip} (h : k.regs = c.regs) (p cls cause : Nat) : k.hasErr p cls cause = c.hasErr p cls cause := by
  simp only [Chip.hasErr, Chip.rg, h]

/-- Settles O13, by what ERR_INJ does when the block honours it and when it does not. -/
theorem errorInjection : Obligations.ErrorInjection := by
  unfold Obligations.ErrorInjection
  refine ⟨?low, ?uc, ?core, ?fe, ?ignored, ?noGo⟩
  case low =>
    intro s p b p0 k cls hc hp hlc hgate hk hcls
    refine does_live rfl hc ?_
    rw [errInj_honoured hp hlc hgate hk (by omega), if_neg (by omega)]
    refine logs_logErr (injRec s.chip b p (p - p0) cls k) s.chip (blkCauses_lt hk) (show cls < 4 by omega) ?_
    change recCls _ cls ≠ 3
    unfold recCls
    split <;> omega
  case uc =>
    intro s p b p0 k hc hp hlc hgate hk hserved
    refine does_live rfl hc ?_
    rw [errInj_honoured hp hlc hgate hk (by decide), if_pos rfl, hserved]
    change (logErr (injRec s.chip b p (p - p0) 2 k) s.chip).hasErr p 2 k = true ∧ _
    refine ⟨logErr_hasErr _ _ (blkCauses_lt hk) (by decide : (2 : Nat) < 4), logErr_keepsMem _ _, fun h1 h2 => ?_⟩
    have hcls : recCls (s.chip.rg (ra p 0x10)) 2 ≠ 3 := by simp [recCls, h1, h2]
    obtain ⟨r, m, t, hlog⟩ := logErr_only_uc (injRec s.chip b p (p - p0) 2 k) s.chip hcls
    exact (congrArg Chip.cores hlog :)
  case core =>
    intro s n r l k hc h3 h4 hlc hk hst1 hst3 hruns hbegun hended hsts
    refine does_live rfl hc ?_
    have hserved : served s.chip .core n (ucScope .core k) = .core n := if_pos ⟨rfl, decide_eq_true ⟨hst1, hst3⟩⟩
    rw [errInj_honoured (p := corePage n) (b := .core) (p0 := 0x100) (k := k) (cls := 2) (pageBlk_core n) hlc (by simp [isGated, h3, h4]) hk (by decide), if_pos rfl,
      show (corePage n).val - 0x100 = n.val from Nat.add_sub_cancel_left .., hserved]
    have hlog := logs_logErr (injRec s.chip .core (corePage n) n 2 k) s.chip (blkCauses_lt hk) (by decide : (2 : Nat) < 4)
      (show recCls (s.chip.rg (coreReg n 0x10)) 2 ≠ 3 by simp [recCls, hsts, fld])
    have hcore : (logErr (injRec s.chip .core (corePage n) n 2 k) s.chip).core n = s.chip.core n := Chip.logs.core hlog n
    obtain ⟨-, -, herr⟩ := hlog
    generalize logErr (injRec s.chip .core (corePage n) n 2 k) s.chip = j at *
    rw [← hcore] at hruns
    obtain ⟨hregs, hend⟩ := endRun_first hruns hbegun hended 0x18 0 0 (doneCc r r.tiles 0)
    have hfind : endServed k (.core n) j = endRun n r 0x18 0 0 (doneCc r r.tiles 0) j := by
      simp only [endServed, hruns, List.find?_cons, hbegun, hended]
      rfl
    rw [hfind]
    exact ⟨(hasErr_of_regs hregs _ _ _).trans herr, _, hend, rfl, rfl, rfl⟩
  case fe =>
    intro s p b p0 k hc hp hlc hgate hk
    refine does_live rfl hc ?_
    rw [errInj_honoured hp hlc hgate hk (by decide), if_neg (by decide)]
    change (logErr (injRec s.chip b p (p - p0) 3 k) s.chip).hasErr p 3 k = true ∧ _
    refine ⟨logErr_hasErr _ _ (blkCauses_lt hk) (by decide : (3 : Nat) < 4), ?_⟩
    have hmem := logErr_keepsMem (injRec s.chip b p (p - p0) 3 k) s.chip
    obtain ⟨e, j, hj⟩ := logErr_fe (e := injRec s.chip b p (p - p0) 3 k) rfl s.chip
    obtain ⟨hshed, hstop⟩ := fatal_sheds e j
    rw [← hj] at hshed hstop
    exact ⟨hshed, hstop, hmem⟩
  case ignored =>
    intro s p b p0 v hc hp hrt hgo hbad
    refine does_live rfl hc ?_
    rw [errInj_ignored hp hrt hgo hbad]
    have hlog := logs_ignored (ra p 0x18) v.toNat s.chip
    rwa [show ra p 0x18 % 0x4000000 / 0x1000 = p by simp only [ra]; omega] at hlog
  case noGo =>
    intro s p v hc hp hgo
    refine does_live rfl hc ?_
    obtain ⟨⟨b, p0⟩, hb⟩ := Option.ne_none_iff_exists'.mp hp
    unfold errInj
    simp only [hb]
    exact if_pos (.inl (by simp only [bit, hgo]; rfl))

end Sys2Proof.Machine
end

section
/-! CXL expander slots (R334 to R337, R342, R415). -/

namespace Sys2Proof.Machine

variable {c k : Chip} {n : Nat}

/-! ### What the memory tiers leave: the T2 slots and the interrupts of the CXL pages -/

structure KeepsT2 (c k : Chip) : Prop where
  t2 : k.t2 = c.t2
  irq : ∀ m, k.rg (ra (pgCxl m) 0x20) = c.rg (ra (pgCxl m) 0x20)

theorem KeepsT2.refl (c : Chip) : KeepsT2 c c := ⟨rfl, fun _ => rfl⟩
/-- Transitivity, the later operation first. -/
theorem KeepsT2.after {a b d : Chip} (g : KeepsT2 b d) (h : KeepsT2 a b) : KeepsT2 a d :=
  ⟨g.t2.trans h.t2, fun m => (g.irq m).trans (h.irq m)⟩
theorem KeepsT2.ite {a b : Chip} {P : Prop} [Decidable P] (ha : KeepsT2 c a) (hb : KeepsT2 c b) :
    KeepsT2 c (if P then a else b) := by
  split
  · exact ha
  · exact hb
theorem KeepsT2.foldl {α : Type} {f : Chip → α → Chip} (h : ∀ k x, KeepsT2 k (f k x)) (l : List α) (c : Chip) :
    KeepsT2 c (l.foldl f c) := by
  induction l generalizing c with
  | nil => exact .refl c
  | cons x l ih => exact (ih _).after (h c x)
theorem KeepsT2.forEach {f : Nat → Chip → Chip} (h : ∀ i k, KeepsT2 k (f i k)) (l : List Nat) (c : Chip) :
    KeepsT2 c (forEach l f c) := .foldl (fun k i => h i k) l c
theorem KeepsT2.of_regs (ht : k.t2 = c.t2) (hr : k.regs = c.regs) : KeepsT2 c k :=
  ⟨ht, fun _ => by rw [Chip.rg, hr, Chip.rg]⟩
/-- A further operation on no register and no T2 slot. -/
theorem KeepsT2.then {j : Chip} (h : KeepsT2 c k) (ht : j.t2 = k.t2) (hr : j.regs = k.regs) : KeepsT2 c j :=
  (KeepsT2.of_regs ht hr).after h
theorem KeepsT2.t2s (h : KeepsT2 c k) (m : Nat) : k.t2s m = c.t2s m := by rw [Chip.t2s, h.t2, Chip.t2s]

theorem pgCxl_high (m : Nat) : pgCxl m ≠ pgMtm ∧ pgCxl m ≠ pgMbp ∧ pgCxl m ≠ pgTam := by
  simp only [pgCxl, pgMtm, pgMbp, pgTam]
  omega

theorem bumpRg_keepsT2 (a v : Nat) (h : ∀ m, ra (pgCxl m) 0x20 ≠ a) (c : Chip) : KeepsT2 c (c.bumpRg a v) :=
  ⟨rfl, fun m => Chip.setRg_rg_other _ _ _ _ (h m)⟩
theorem irq_keepsT2 {p : Nat} (i : Nat) (h : ∀ m, pgCxl m ≠ p) (c : Chip) : KeepsT2 c (irq p i c) := by
  refine ⟨?_, fun m => irq_rg p i c _ (by simp [ra_inj, h m]) (by simp [ra_inj, pgCxl_high m])⟩
  obtain ⟨r, m, hk⟩ := irq_only p i c
  rw [hk]
theorem logErr_keepsT2 (e : ErrRec) (c : Chip) : KeepsT2 c (logErr e c) := by
  refine ⟨?_, fun m => logErr_rg e c _ (by simp [errRegs, ra_inj, pgCxl_high m])⟩
  obtain ⟨r, m, t, q, w, hk⟩ := logErr_only e c
  rw [hk]

/-! ### Packets -/

theorem pgCxl_lrt (m : Nat) : pgCxl m ≠ pgLrt := by
  simp only [pgCxl, pgLrt]
  omega

theorem dropSlice_keepsT2 (slice dest : Nat) (c : Chip) : KeepsT2 c (dropSlice slice dest c) :=
  (logErr_keepsT2 _ _).after (bumpRg_keepsT2 _ _ (fun m => by simp [ra_inj, pgCxl_lrt]) c)
theorem dropRoute_keepsT2 (dest : Nat) (c : Chip) : KeepsT2 c (dropRoute dest c) :=
  (logErr_keepsT2 _ _).after (bumpRg_keepsT2 _ _ (fun m => by simp [ra_inj, pgCxl_lrt]) c)
theorem routePkt_keepsT2 (p : Packet) (inp : Nat) (c : Chip) : KeepsT2 c (routePkt p inp c).1 := by
  unfold routePkt
  dsimp only
  split_ifs
  · exact dropSlice_keepsT2 _ _ c
  · exact .refl c
  · exact dropSlice_keepsT2 _ _ c
  · exact .refl c
  · exact .refl c
  · exact dropRoute_keepsT2 _ c
theorem enqueue_keepsT2 (port : Nat) (q : QPkt) (c : Chip) : KeepsT2 c (enqueue port q c) := .of_regs rfl rfl
theorem spread_keepsT2 (q : QPkt) (dest : Nat) (r : Route) (c : Chip) : KeepsT2 c (spread q dest r c) := by
  unfold spread
  split
  · exact .refl c
  · exact .refl c
  · exact enqueue_keepsT2 _ _ c
  · exact .forEach (fun o k => .ite (enqueue_keepsT2 _ _ k) (dropRoute_keepsT2 _ k)) _ c
theorem sendPkt_keepsT2 (p : Packet) (c : Chip) : KeepsT2 c (sendPkt p c) := by
  have hspread : ∀ q dest r p', KeepsT2 c (spread q dest r { (routePkt p' 6 c).1 with pktOrd := c.pktOrd + 1 }) :=
    fun q dest r p' => (spread_keepsT2 _ _ _ _).after ((routePkt_keepsT2 p' 6 c).then rfl rfl)
  have hdeliver (p' : Packet) (inp : Nat) (j : Chip) : KeepsT2 j (deliver p' inp j) :=
    .ite (logErr_keepsT2 _ j) (.of_regs rfl rfl)
  unfold sendPkt
  exact .ite ((hdeliver _ _ _).after (hspread _ _ _ _)) (hspread _ _ _ _)

/-! ### Frames and migrations -/

theorem noteLow_keepsT2 (c : Chip) : KeepsT2 c (noteLow c) :=
  .ite ((irq_keepsT2 _ (fun m => (pgCxl_high m).1) _).after (.of_regs rfl rfl)) (.of_regs rfl rfl)
theorem store_keepsT2 (a : Nat) (l : List Byte) (c : Chip) : KeepsT2 c (c.store a l) := .of_regs rfl rfl
theorem zero_keepsT2 (a w : Nat) (c : Chip) : KeepsT2 c (c.zero a w) := .of_regs rfl rfl
theorem takeFrame_keepsT2 {kind acct owner f : Nat} (h : takeFrame kind acct owner c = some (f, k)) : KeepsT2 c k := by
  obtain ⟨x, -, hx⟩ := Option.map_eq_some_iff.mp h
  rw [← (Prod.mk.inj hx).2]
  exact ((noteLow_keepsT2 _).after (store_keepsT2 _ _ _)).after (zero_keepsT2 _ _ _)
theorem takeShelf_keepsT2 {i : Nat} (h : c.takeShelf = some (i, k)) : KeepsT2 c k := by
  unfold Chip.takeShelf at h
  dsimp only at h
  split at h
  · rw [← (Prod.mk.inj (Option.some.inj h)).2]
    exact .of_regs rfl rfl
  · contradiction
theorem setMoving_keepsT2 (m : Mig) (on : Bool) (c : Chip) : KeepsT2 c (setMoving m on c) := by
  unfold setMoving
  split <;> exact .of_regs rfl rfl
theorem dropLow_keepsT2 (t f : Nat) (c : Chip) : KeepsT2 c (dropLow t f c) := by
  unfold dropLow
  extract_lets r shelf kv bad c1 c2
  have hretire : KeepsT2 c c1 := .ite (store_keepsT2 _ _ c) (zero_keepsT2 _ _ c)
  have h : KeepsT2 c c2 := .ite (hretire.then rfl rfl) hretire
  exact .ite (.ite (store_keepsT2 _ _ c) (store_keepsT2 _ _ c)) (.ite ((sendPkt_keepsT2 _ _).after h) h)
theorem sendRread_keepsT2 (mig due loan frame off len : Nat) (c : Chip) :
    KeepsT2 c (sendRread mig due loan frame off len c) := (sendPkt_keepsT2 _ _).after (.of_regs rfl rfl)
theorem beginMig_keepsT2 (kind : MigKind) (st src dt dst : Nat) (c : Chip) : KeepsT2 c (beginMig kind st src dt dst c) := by
  unfold beginMig
  extract_lets id m ms c1 c2 c3
  have h1 : KeepsT2 c c1 := (setMoving_keepsT2 _ _ _).after (.of_regs rfl rfl)
  have h2 : KeepsT2 c c2 := .ite h1 ((store_keepsT2 _ _ _).after h1)
  have h3 : KeepsT2 c c3 := by
    unfold c3
    split
    · exact h2.then rfl rfl
    · exact h2
  clear_value c3
  exact .ite ((KeepsT2.foldl (fun k x => sendRread_keepsT2 _ _ _ _ _ _ k) _ _).after h3) h3
theorem vacateFrame_keepsT2 (t f : Nat) (c : Chip) : KeepsT2 c (vacateFrame t f c) := by
  unfold vacateFrame
  dsimp only
  refine .ite (.refl c) (.ite (.ite (.refl c) (.ite ?_ ?_)) (.ite ?_ (.refl c)))
  · split
    · exact beginMig_keepsT2 _ _ _ _ _ c
    · exact .refl c
  · split
    · exact beginMig_keepsT2 _ _ _ _ _ c
    · exact .refl c
  · split
    · split
      · exact (dropLow_keepsT2 _ _ _).after (store_keepsT2 _ _ c)
      · exact .refl c
    · refine .ite (.refl c) ?_
      split
      · exact (beginMig_keepsT2 _ _ _ _ _ _).after (takeShelf_keepsT2 (by assumption))
      · split
        · exact (beginMig_keepsT2 _ _ _ _ _ _).after (takeFrame_keepsT2 (by assumption))
        · exact .refl c

/-- Starting the copies that wait (R321). -/
theorem pump_keepsT2 (c : Chip) : KeepsT2 c (pump c) := by
  have hvacate : KeepsT2 c (vacateMore c) :=
    (KeepsT2.forEach (fun _ k => .ite (.forEach (fun _ q => vacateFrame_keepsT2 _ _ q) _ k) (.refl k)) _ _).after
      (.forEach (fun _ k => .ite (.forEach (fun _ q => vacateFrame_keepsT2 _ _ q) _ k) (.refl k)) _ c)
  have hregion (j : Chip) : KeepsT2 j (regionMore j) := by
    unfold regionMore
    split
    · exact .refl j
    · extract_lets go
      have hgo : KeepsT2 j go := by
        refine .forEach (fun g k => .ite (.refl k) ?_) _ j
        dsimp only
        split
        · exact beginMig_keepsT2 _ _ _ _ _ k
        · exact .of_regs rfl rfl
      exact .ite (hgo.then rfl rfl) hgo
  have hprefetch (j : Chip) : KeepsT2 j (prefetchMore j) := by
    refine .foldl (fun k p => .ite (.refl k) ?_) _ j
    split
    · exact (beginMig_keepsT2 _ _ _ _ _ _).after (takeFrame_keepsT2 (by assumption))
    · exact .refl k
  exact .ite (.refl c) (((hprefetch _).after (hregion _)).after hvacate)

theorem abandon_keepsT2 (m : Mig) (c : Chip) : KeepsT2 c (abandon m c) := by
  unfold abandon
  extract_lets c1 c2
  have hdrop : KeepsT2 c (dropMig m c) := by
    unfold dropMig
    dsimp only
    split <;> exact .of_regs rfl rfl
  have h1 : KeepsT2 c c1 := (setMoving_keepsT2 _ _ _).after hdrop
  have h2 : KeepsT2 c c2 :=
    .ite (((noteLow_keepsT2 _).after (zero_keepsT2 _ _ _)).after h1) (.ite ((zero_keepsT2 _ _ _).after h1) h1)
  split
  · exact h2.then rfl rfl
  · exact h2
theorem clearHomes_keepsT2 (t part : Nat) (c : Chip) : KeepsT2 c (clearHomes t part c) := by
  unfold clearHomes
  extract_lets there c1 c2 c3
  have h1 : KeepsT2 c c1 := .foldl (fun k m => abandon_keepsT2 m k) _ c
  have h2 : KeepsT2 c c2 := (KeepsT2.forEach (fun i k => .ite (store_keepsT2 _ _ k) (.refl k)) _ c1).after h1
  refine (KeepsT2.forEach (fun g k => ?_) _ c2).after h2
  have hmap (P : Prop) [Decidable P] (v : Nat) : KeepsT2 k (if P then k.setMapW g 1 v else k) := .ite (store_keepsT2 _ _ k) (.refl k)
  exact .ite ((store_keepsT2 _ _ _).after (hmap _ _)) (hmap _ _)

/-! ### A slot changes state -/

theorem setT2St_bit (s : Nat) (x : T2) (c : Chip) :
    bit (s % 4) ((setT2St s x c).rg (ra (pgCxl (s / 4)) 0x20)) = true := by
  rw [setT2St, irq_sts _ _ _ (pgCxl_high _).2.1, bit_mod _ _ (by omega), bit_or, bit_two_pow, Bool.or_true]
theorem setT2St_t2 (s : Nat) (x : T2) (c : Chip) : (setT2St s x c).t2 = (c.setT2 s x).t2 := by
  obtain ⟨r, m, h⟩ := irq_only (pgCxl (s / 4)) (s % 4) (c.setT2 s x)
  rw [setT2St, h]

/-- Slot s is now x, its interrupt bit is set, and every other slot stays. -/
def SlotNow (c k : Chip) (s : Nat) (x : T2) : Prop :=
  k.t2s s = x ∧ bit (s % 4) (k.rg (ra (pgCxl (s / 4)) 0x20)) = true ∧ ∀ m, m ≠ s → k.t2s m = c.t2s m

theorem setT2St_now (s : Nat) (x : T2) {j : Chip} (hj : j.t2 = c.t2) : SlotNow c (setT2St s x j) s x := by
  refine ⟨?_, setT2St_bit s x j, fun m hm => ?_⟩
  · rw [Chip.t2s, setT2St_t2]
    exact Chip.setT2_t2s_same ..
  · rw [Chip.t2s, setT2St_t2]
    refine ((Chip.setT2_t2s ..).trans (if_neg hm)).trans ?_
    rw [Chip.t2s, hj, Chip.t2s]
theorem SlotNow.keeps {s : Nat} {x : T2} {j : Chip} (h : SlotNow c k s x) (hk : KeepsT2 k j) : SlotNow c j s x := by
  obtain ⟨hx, hb, ho⟩ := h
  exact ⟨(hk.t2s s).trans hx, by rw [hk.irq]; exact hb, fun m hm => (hk.t2s m).trans (ho m hm)⟩

/-! ### The commands -/

/-- A slot takes a device. -/
abbrev takesDevice (c : Chip) (n : Nat) : Prop := (c.t2s n).st = 0 ∨ (c.t2s n).st = 4 ∨ (c.t2s n).st = 5

/-- The root port's link as the device's training left it. -/
abbrev Chip.linked (c : Chip) (n : Nat) (d : CxlDevice) : Chip :=
  c.setCxl (n / 4) { st := 2, width := d.width, rate := d.rate, switch := d.viaSwitch, ide := d.ideUp }

theorem cxlDeviceAdd_refused {d : CxlDevice} (hst : takesDevice c n) (hcode : deviceCode n d c ≠ 0) :
    cxlDeviceAdd n d c = ce (pgCxl (n / 4)) 11 n (deviceCode n d c)
      (setT2St n { st := 5, refuse := deviceCode n d c, dev := d } (c.linked n d)) := by
  unfold cxlDeviceAdd
  dsimp only
  rw [if_pos hst, if_pos hcode]
theorem cxlDeviceAdd_full {d : CxlDevice} (hst : takesDevice c n) (hcode : deviceCode n d c = 0) (hpend : c.flash.wipePend = true)
    (hlist : c.flash.sanList.contains d.serial = false) (hfull : 8 ≤ c.flash.sanList.length) :
    cxlDeviceAdd n d c = ucSlice (pgCxl (n / 4)) 11 n d.serial 0 (setT2St n { st := 5, dev := d } (c.linked n d)) := by
  unfold cxlDeviceAdd
  dsimp only
  rw [if_pos hst, if_neg (not_not_intro hcode), if_pos (by rw [hpend, hlist, decide_eq_true hfull]; rfl)]
theorem cxlDeviceAdd_plain {d : CxlDevice} (hst : takesDevice c n) (hcode : deviceCode n d c = 0) (hpend : c.flash.wipePend = false)
    (hlist : c.flash.sanList.contains d.serial = false) :
    cxlDeviceAdd n d c = setT2St n { st := 1, dev := d, capMiB := d.capMiB } (c.linked n d) := by
  unfold cxlDeviceAdd
  dsimp only
  rw [if_pos hst, if_neg (not_not_intro hcode), hpend, hlist]
  rfl
theorem cxlDeviceAdd_listed {d : CxlDevice} (hst : takesDevice c n) (hcode : deviceCode n d c = 0)
    (hlist : c.flash.sanList.contains d.serial = true) :
    cxlDeviceAdd n d c = setT2St n { st := 1, dev := d, capMiB := d.capMiB, sanitize := true } (c.linked n d) := by
  unfold cxlDeviceAdd
  dsimp only
  rw [if_pos hst, if_neg (not_not_intro hcode), hlist]
  simp
theorem cxlDeviceAdd_lists {d : CxlDevice} (hst : takesDevice c n) (hcode : deviceCode n d c = 0) (hpend : c.flash.wipePend = true)
    (hlist : c.flash.sanList.contains d.serial = false) (hroom : c.flash.sanList.length < 8) :
    cxlDeviceAdd n d c = setT2St n { st := 1, dev := d, capMiB := d.capMiB, sanitize := true }
      { c.linked n d with flash := { c.flash with sanList := c.flash.sanList ++ [d.serial] } } := by
  unfold cxlDeviceAdd
  dsimp only
  have hmust : (c.flash.wipePend || c.flash.sanList.contains d.serial) = true := by rw [hpend]; rfl
  have hnot : ¬ (c.flash.wipePend && !c.flash.sanList.contains d.serial && decide (8 ≤ c.flash.sanList.length)) = true := by
    rw [decide_eq_false (Nat.not_le.mpr hroom)]
    simp
  rw [if_pos hst, if_neg (not_not_intro hcode), if_neg hnot, hmust, if_pos (by rw [hlist]; rfl)]
  rfl
theorem setT2St_flash (x : T2) (c : Chip) : (setT2St n x c).flash = c.flash := irq_flash _ _ (c.setT2 n x)
theorem setT2St_mem (x : T2) (c : Chip) : (setT2St n x c).mem = c.mem := irq_mem _ _ (c.setT2 n x)

/-- The page of the command register of a T2 slot. -/
theorem slotCmd_page {s : Nat} (hs : s < 8) : bank (s % 4) (pgCxl (s / 4)) 0x128 % 0x4000000 / 0x1000 = pgCxl (s / 4) := by
  simp only [bank, ra, pgCxl]
  omega
theorem logs_ignored_slot {s : Nat} (hs : s < 8) (v : Nat) (c : Chip) :
    c.logs (ignored (bank (s % 4) (pgCxl (s / 4)) 0x128) v c) (pgCxl (s / 4)) 0 31 := by
  have h := logs_ignored (bank (s % 4) (pgCxl (s / 4)) 0x128) v c
  rwa [slotCmd_page hs] at h

/-- Every frame of a slot that is neither ONLINE nor DRAINING is uncorrectable (R337). -/
theorem frameBad_gone {s : Nat} (hgone : (c.t2s s).st = 4) {i : Nat} (hi : fld 29 27 i = s) (o k : Nat) :
    c.frameBad 2 i o k = true := by
  have halive : c.lowAlive 2 i = false := by
    unfold Chip.lowAlive
    rw [if_neg (by decide), hi]
    simp [hgone]
  unfold Chip.frameBad
  rw [if_neg (by decide), halive]
  rfl

/-- Settles O53, command by command. -/
theorem expanders : Obligations.Expanders := by
  unfold Obligations.Expanders
  refine ⟨?plain, ?refused, ?lists, ?listed, ?full, ?occupied, ?online, ?notOnline, ?drain, ?drained, ?notDrain, ?offline,
    ?notOffline, ?lost, ?lostRefused, ?lostEmpty, ?sanitized, ?unsanitized, ?noSanitize⟩
  case plain =>
    intro s n d hc hst hcode hpend hlist
    refine does_live rfl hc ?_
    rw [cxlDeviceAdd_plain hst hcode hpend hlist]
    obtain ⟨hx, hb, ho⟩ := setT2St_now (c := s.chip) n { st := 1, dev := d, capMiB := d.capMiB } (j := s.chip.linked n d) rfl
    exact ⟨hx, hb, setT2St_flash _ _, setT2St_mem _ _, ho⟩
  case refused =>
    intro s n d hc hst hcode
    refine does_live rfl hc ?_
    rw [cxlDeviceAdd_refused hst hcode]
    obtain ⟨hx, hb, ho⟩ := (setT2St_now (c := s.chip) n { st := 5, refuse := deviceCode n d s.chip, dev := d } (j := s.chip.linked n d)
      rfl).keeps (logErr_keepsT2 _ _)
    exact ⟨hx, hb, (logs_ce _ _ _ _ _ (by decide)).2.2, ho⟩
  case lists =>
    intro s n d hc hst hcode hpend hlist hroom
    refine does_live rfl hc ?_
    rw [cxlDeviceAdd_lists hst hcode hpend hlist hroom, setT2St_flash]
    have hx := (setT2St_now (c := s.chip) n { st := 1, dev := d, capMiB := d.capMiB, sanitize := true }
      (j := { s.chip.linked n d with flash := { s.chip.flash with sanList := s.chip.flash.sanList ++ [d.serial] } }) rfl).1
    rw [hx]
    exact ⟨rfl, rfl, rfl⟩
  case listed =>
    intro s n d hc hst hcode hlist
    refine does_live rfl hc ?_
    rw [cxlDeviceAdd_listed hst hcode hlist, setT2St_flash]
    obtain ⟨hx, hb, -⟩ := setT2St_now (c := s.chip) n { st := 1, dev := d, capMiB := d.capMiB, sanitize := true }
      (j := s.chip.linked n d) rfl
    rw [hx]
    exact ⟨rfl, rfl, rfl, hb⟩
  case full =>
    intro s n d hc hst hcode hpend hlist hfull
    refine does_live rfl hc ?_
    rw [cxlDeviceAdd_full hst hcode hpend hlist hfull]
    have hflash := setT2St_flash { st := 5, dev := d } (s.chip.linked n d) (n := n)
    have hnow := setT2St_now (c := s.chip) n { st := 5, dev := d } (j := s.chip.linked n d) rfl
    generalize setT2St n { st := 5, dev := d } (s.chip.linked n d) = j at *
    obtain ⟨hx, hb, -⟩ := hnow.keeps (logErr_keepsT2 { cls := 2, scope := 3, cause := 11, page := pgCxl (n / 4), scopeId := fld 7 0 (j.rg (ra pgLrt 0x108)), d0 := n % 2 ^ 32, d1 := d.serial } j)
    refine ⟨congrArg T2.st hx, ?_, hb, logErr_hasErr _ _ (by decide : (11 : Nat) < 32) (by decide : (2 : Nat) < 4)⟩
    obtain ⟨r, m, t, q, w, hk⟩ := ucSlice_only (pgCxl (n / 4)) 11 n d.serial 0 j
    rw [hk]
    exact hflash
  case occupied =>
    intro s n d hc h1 h3
    exact does_live rfl hc (if_neg (by omega))
  case online =>
    intro s n a k hc hst hsan ha halign hk hfit
    refine does_run rfl hc ?_
    have hgo : cxlOnline n 1 s.chip = setT2St n { s.chip.t2s n with st := 2, frames := k } (s.chip.zero a (16 * k)) := by
      rw [ha, hk] at *
      exact if_neg (by rw [hsan]; simp [hst]; omega)
    rw [hgo]
    obtain ⟨hx, hb, ho⟩ := setT2St_now (c := s.chip) n { s.chip.t2s n with st := 2, frames := k } (j := s.chip.zero a (16 * k)) rfl
    refine ⟨hx, fun i hi => ?_, hb, ho⟩
    rw [Chip.byteAt, setT2St_mem]
    exact get_clear_inside _ s.chip.mem (by omega) (by omega)
  case notOnline =>
    intro s n hc hbad
    refine does_run rfl hc ?_
    rw [show cxlOnline n 1 s.chip = _ from if_pos hbad]
    exact logs_ignored_slot n.isLt _ _
  case drain =>
    intro s n hc hst
    exact does_run rfl hc (if_neg (not_not_intro hst))
  case drained =>
    intro s n hc hst
    refine does_run rfl hc ?_
    rw [show cxlDrain n 2 s.chip = _ from if_neg (not_not_intro hst)]
    exact (setT2St_now n _ rfl).keeps (pump_keepsT2 _)
  case notDrain =>
    intro s n hc hst
    refine does_run rfl hc ?_
    rw [show cxlDrain n 2 s.chip = _ from if_pos hst]
    exact logs_ignored_slot n.isLt _ _
  case offline =>
    intro s n hc h
    refine does_run rfl hc ?_
    rcases h with h | h
    · rw [show cxlOffline n 3 s.chip = _ from if_pos h]
      exact setT2St_now n _ rfl
    · rw [show cxlOffline n 3 s.chip = _ from (if_neg (by omega)).trans (if_pos h)]
      exact setT2St_now n _ rfl
  case notOffline =>
    intro s n hc h
    refine does_run rfl hc ?_
    have hrefd : ¬ (((s.chip.t2s n).st = 2 ∨ (s.chip.t2s n).st = 3) ∧ s.chip.slotRefd n = []) := by
      rintro ⟨hst, he⟩
      rcases h with ⟨-, hne⟩ | h
      · exact hne he
      · omega
    rw [show cxlOffline n 3 s.chip = _ from (if_neg hrefd).trans (if_neg (by omega))]
    exact logs_ignored_slot n.isLt _ _
  case lost =>
    intro s n hc h1 h3
    refine does_live rfl hc ?_
    rw [show cxlSurprise n s.chip = _ from if_pos ⟨h1, h3⟩]
    dsimp only
    have hnow := setT2St_now (c := s.chip) n { s.chip.t2s n with st := 4 } (j := s.chip) rfl
    generalize setT2St n { s.chip.t2s n with st := 4 } s.chip = j at *
    have hclear : KeepsT2 j (if (s.chip.t2s n).st = 1 then j else clearHomes 2 n j) := .ite (.refl j) (clearHomes_keepsT2 _ _ j)
    generalize (if (s.chip.t2s n).st = 1 then j else clearHomes 2 n j) = i at *
    obtain ⟨hx, hb, ho⟩ := (hnow.keeps hclear).keeps (logErr_keepsT2 { cls := 2, scope := 3, cause := 9, page := pgCxl (n / 4), scopeId := fld 7 0 (i.rg (ra pgLrt 0x108)), d0 := n % 2 ^ 32 } i)
    exact ⟨hx, hb, logErr_hasErr _ _ (by decide : (9 : Nat) < 32) (by decide : (2 : Nat) < 4),
      fun o i k hi => frameBad_gone (congrArg T2.st hx) hi o k, ho⟩
  case lostRefused =>
    intro s n hc h5
    refine does_live rfl hc ?_
    rw [show cxlSurprise n s.chip = _ from (if_neg (by omega)).trans (if_pos h5)]
    exact setT2St_now n _ rfl
  case lostEmpty =>
    intro s n hc h
    exact does_live rfl hc ((if_neg (by omega)).trans (if_neg (by omega)))
  case sanitized =>
    intro s n hc hst hsan
    refine does_live rfl hc ?_
    rw [show sanitizeComplete n true s.chip = _ from (if_pos ⟨hst, hsan⟩).trans (if_pos rfl)]
    exact ⟨Chip.setT2_t2s_same .., rfl, fun m hm => (Chip.setT2_t2s ..).trans (if_neg hm)⟩
  case unsanitized =>
    intro s n hc hst hsan
    refine does_live rfl hc ?_
    rw [show sanitizeComplete n false s.chip = _ from (if_pos ⟨hst, hsan⟩).trans (if_neg (by decide))]
    exact logs_ce _ _ _ _ _ (by decide)
  case noSanitize =>
    intro s n k hc h
    refine does_live rfl hc (if_neg ?_)
    rintro ⟨hst, hsan⟩
    exact h.elim (fun h => h hst) (fun h => by rw [hsan] at h; contradiction)

end Sys2Proof.Machine
end

section
/-! What the loss of a port and the service of memory requests leave of every port's own state and of the cadence unit
(R225, R277, R303, R311, R328). -/

namespace Sys2Proof.Machine

variable {c k : Chip} {n : Nat}

/-- What of a link says how it stands with its peer: packets that come and go do not change it. -/
def Link.standing (l : Link) : Nat × Nat × Bool × Bool × Bool × List Flit × Option Nat :=
  (l.st, l.refuse, l.admitted, l.carried, l.sentAdmit, l.replay, l.mark)

/-- Every link keeps its standing, the cadence unit stays, and an error that shows goes on to show. -/
structure KeepsPorts (c k : Chip) : Prop where
  cad : k.cad = c.cad
  link : ∀ m, (k.link m).standing = (c.link m).standing
  err : ∀ p cls cause, cls < 32 → cause < 32 → c.hasErr p cls cause = true → k.hasErr p cls cause = true

theorem KeepsPorts.refl (c : Chip) : KeepsPorts c c := ⟨rfl, fun _ => rfl, fun _ _ _ _ _ h => h⟩
/-- Transitivity, the later operation first. -/
theorem KeepsPorts.after {a b d : Chip} (g : KeepsPorts b d) (h : KeepsPorts a b) : KeepsPorts a d :=
  ⟨g.cad.trans h.cad, fun m => (g.link m).trans (h.link m), fun p i j hi hj he => g.err p i j hi hj (h.err p i j hi hj he)⟩
theorem KeepsPorts.ite {a b : Chip} {P : Prop} [Decidable P] (ha : KeepsPorts c a) (hb : KeepsPorts c b) :
    KeepsPorts c (if P then a else b) := by
  split
  · exact ha
  · exact hb
theorem KeepsPorts.foldl {α : Type} {f : Chip → α → Chip} (h : ∀ k x, KeepsPorts k (f k x)) (l : List α) (c : Chip) :
    KeepsPorts c (l.foldl f c) := by
  induction l generalizing c with
  | nil => exact .refl c
  | cons x l ih => exact (ih _).after (h c x)
theorem KeepsPorts.forEach {f : Nat → Chip → Chip} (h : ∀ i k, KeepsPorts k (f i k)) (l : List Nat) (c : Chip) :
    KeepsPorts c (forEach l f c) := .foldl (fun k i => h i k) l c
theorem KeepsPorts.of_rg (hl : k.links = c.links) (hc : k.cad = c.cad) (hr : ∀ p, k.rg (ra p 0x10) = c.rg (ra p 0x10)) :
    KeepsPorts c k :=
  ⟨hc, fun m => by rw [Chip.link, hl, Chip.link], fun p i j _ _ h => by rwa [Chip.hasErr, hr p]⟩
/-- An operation on no link and no register. -/
theorem KeepsPorts.of_same (hl : k.links = c.links := by rfl) (hr : k.regs = c.regs := by rfl)
    (hc : k.cad = c.cad := by rfl) : KeepsPorts c k :=
  .of_rg hl hc fun p => by rw [Chip.rg, hr, Chip.rg]
/-- A further operation on no link and no register. -/
theorem KeepsPorts.then {j : Chip} (h : KeepsPorts c k) (hl : j.links = k.links := by rfl) (hr : j.regs = k.regs := by rfl)
    (hc : j.cad = k.cad := by rfl) : KeepsPorts c j :=
  (KeepsPorts.of_same hl hr hc).after h

/-! ### Registers, the log, links -/

theorem bumpRg_keepsPorts (a v : Nat) (h : ∀ p, ra p 0x10 ≠ a) (c : Chip) : KeepsPorts c (c.bumpRg a v) :=
  .of_rg rfl rfl fun p => Chip.setRg_rg_other _ _ _ _ (h p)
theorem irq_keepsPorts (p i : Nat) (c : Chip) : KeepsPorts c (irq p i c) := by
  refine .of_rg ?_ ?_ fun q => irq_rg p i c _ (by simp [ra_inj]) (by simp [ra_inj])
  all_goals
    obtain ⟨r, m, h⟩ := irq_only p i c
    rw [h]
theorem logErr_keepsPorts (e : ErrRec) (c : Chip) : KeepsPorts c (logErr e c) := by
  obtain ⟨r, b, t, q, w, h⟩ := logErr_only e c
  refine ⟨by rw [h], fun m => ?_, fun p i j hi hj h => logErr_hasErr_mono e c hi hj h⟩
  rw [h]
  rfl
/-- A link takes a value of the same standing. -/
theorem setLink_keepsPorts (x : Link) (c : Chip) (h : x.standing = (c.link n).standing := by rfl) : KeepsPorts c (c.setLink n x) := by
  refine ⟨rfl, fun m => ?_, fun _ _ _ _ _ h => h⟩
  rw [Chip.setLink_link]
  split
  · next hm => rw [hm, h]
  · rfl

/-! ### Packets -/

theorem dropSlice_keepsPorts (slice dest : Nat) (c : Chip) : KeepsPorts c (dropSlice slice dest c) :=
  (logErr_keepsPorts _ _).after (bumpRg_keepsPorts _ _ (by simp [ra_inj]) c)
theorem dropRoute_keepsPorts (dest : Nat) (c : Chip) : KeepsPorts c (dropRoute dest c) :=
  (logErr_keepsPorts _ _).after (bumpRg_keepsPorts _ _ (by simp [ra_inj]) c)
theorem routePkt_keepsPorts (p : Packet) (inp : Nat) (c : Chip) : KeepsPorts c (routePkt p inp c).1 := by
  unfold routePkt
  dsimp only
  split_ifs
  · exact dropSlice_keepsPorts _ _ c
  · exact .refl c
  · exact dropSlice_keepsPorts _ _ c
  · exact .refl c
  · exact .refl c
  · exact dropRoute_keepsPorts _ c
theorem enqueue_keepsPorts (port : Nat) (q : QPkt) (c : Chip) : KeepsPorts c (enqueue port q c) := setLink_keepsPorts _ c
theorem spread_keepsPorts (q : QPkt) (dest : Nat) (r : Route) (c : Chip) : KeepsPorts c (spread q dest r c) := by
  unfold spread
  split
  · exact .refl c
  · exact .refl c
  · exact enqueue_keepsPorts _ _ c
  · exact .forEach (fun o k => .ite (enqueue_keepsPorts _ _ k) (dropRoute_keepsPorts _ k)) _ c
theorem sendPkt_keepsPorts (p : Packet) (c : Chip) : KeepsPorts c (sendPkt p c) := by
  have hspread : ∀ q dest r p', KeepsPorts c (spread q dest r { (routePkt p' 6 c).1 with pktOrd := c.pktOrd + 1 }) :=
    fun q dest r p' => (spread_keepsPorts _ _ _ _).after ((routePkt_keepsPorts p' 6 c).then)
  have hdeliver (p' : Packet) (inp : Nat) (j : Chip) : KeepsPorts j (deliver p' inp j) :=
    .ite (logErr_keepsPorts _ j) (.of_same)
  unfold sendPkt
  exact .ite ((hdeliver _ _ _).after (hspread _ _ _ _)) (hspread _ _ _ _)
theorem reroute_keepsPorts (q : QPkt) (c : Chip) : KeepsPorts c (reroute q c) :=
  .ite (dropRoute_keepsPorts _ c) ((spread_keepsPorts _ _ _ _).after (routePkt_keepsPorts _ _ c))
theorem freeBufs_keepsPorts (c : Chip) : KeepsPorts c (freeBufs c) :=
  .forEach (fun _ k => .ite (.refl k) (setLink_keepsPorts _ k)) _ c
theorem closePkt_keepsPorts (ord : Nat) (c : Chip) : KeepsPorts c (closePkt ord c) := by
  have hedit (f : QPkt → QPkt) : KeepsPorts c (editCopies ord f c) := .forEach (fun _ k => setLink_keepsPorts _ k) _ c
  exact ((freeBufs_keepsPorts _).after (.forEach (fun _ k => setLink_keepsPorts _ k) _ _)).after (hedit _)
theorem closeRx_keepsPorts (n : Nat) (c : Chip) : KeepsPorts c (closeRx n c) := .foldl (fun k _ => closePkt_keepsPorts _ k) _ c

/-! ### Cores: a list stops, or goes back to its start (R98, R114, R306) -/

theorem OnlyHub.keepsPorts (h : OnlyHub n c k) : KeepsPorts c k := by
  obtain ⟨⟨_, _, rfl⟩, -⟩ := h
  exact .of_same
theorem listStop_keepsPorts (n : Nat) (c : Chip) : KeepsPorts c (listStop n c) := by
  have h := (expireHeld_onlyHub n c).keepsPorts
  unfold listStop
  dsimp only
  exact .ite (.refl c) (h.then)
theorem setCore_keepsPorts (n : Nat) (x : Core) (c : Chip) : KeepsPorts c (c.setCore n x) := .of_same
theorem setCtr_keepsPorts (cl i : Nat) (x : Counter) (c : Chip) : KeepsPorts c (c.setCtr cl i x) := .of_same
theorem disarm_keepsPorts (cl i : Nat) (c : Chip) : KeepsPorts c (disarm cl i c) := by
  unfold disarm
  dsimp only
  exact (setCtr_keepsPorts _ _ _ _).after
    (.forEach (fun _ k => .foldl (fun q l => .ite (expireLease_onlyHub _ l q).keepsPorts (.refl q)) _ k) _ c)
theorem abortHub_keepsPorts (cl : Nat) (c : Chip) : KeepsPorts c (abortHub cl c) := by
  unfold abortHub
  dsimp only
  split
  · exact .refl c
  · exact .forEach (fun i k => .ite (disarm_keepsPorts _ i k) (.refl k)) _ c
theorem expireAll_keepsPorts (n : Nat) (c : Chip) : KeepsPorts c (expireAll n c) :=
  .foldl (fun k l => (expireLease_onlyHub n l k).keepsPorts) _ c
theorem freeRuns_keepsPorts (n : Nat) (l : List TodRun) (c : Chip) : KeepsPorts c (freeRuns n l c) := by
  unfold freeRuns
  dsimp only
  exact (KeepsPorts.foldl (fun q r => .ite (.refl q) (.of_same)) _ _).after
    (.foldl (fun q r => .of_same) _ c)
theorem carDone_keepsPorts (n : Nat) (c : Chip) : KeepsPorts c (carDone n c) := by
  unfold carDone
  split
  · exact .refl c
  · exact .ite (setCore_keepsPorts _ _ c) ((setCore_keepsPorts _ _ _).after (setCore_keepsPorts _ _ c))
theorem carDrain_keepsPorts (n f : Nat) (c : Chip) : KeepsPorts c (carDrain n f c) := by
  induction f generalizing c with
  | zero => exact .refl c
  | succ f ih =>
    unfold carDrain
    split
    · exact .refl c
    · exact .ite (.refl c) (.ite (setCore_keepsPorts _ _ c) (.ite ((ih _).after (carDone_keepsPorts n c)) (.refl c)))
theorem carAbort_keepsPorts (n : Nat) (c : Chip) : KeepsPorts c (carAbort n c) := by
  unfold carAbort
  split
  · exact (carDrain_keepsPorts _ _ _).after (setCore_keepsPorts _ _ c)
  · exact .refl c
theorem setSq_keepsPorts (n i v : Nat) (hi : i < 32) (c : Chip) : KeepsPorts c (c.setSq n i v) := by
  refine .of_rg rfl rfl fun p => Chip.setRg_rg_other _ _ _ _ ?_
  simp only [coreReg, ra]
  omega
theorem launchList_keepsPorts (n : Nat) (grp : Option Nat) (car : Bool) (c : Chip) : KeepsPorts c (launchList n grp car c) := by
  unfold launchList
  split
  · exact (logErr_keepsPorts _ _).after (setCore_keepsPorts _ _ c)
  · extract_lets rd c1 k c2
    have h1 : KeepsPorts c c1 := by
      have hall : ∀ l : List Nat, (∀ i ∈ l, i < 32) → ∀ j : Chip, KeepsPorts j (Machine.forEach l (fun i k => k.setSq n i (rd4 rd (4 * i))) j) := by
        intro l
        induction l with
        | nil => exact fun _ j => .refl j
        | cons i l ih =>
          intro hl j
          exact (ih (fun x hx => hl x (List.mem_cons_of_mem _ hx)) _).after
            (setSq_keepsPorts n i _ (hl i List.mem_cons_self) j)
      exact hall _ (fun i hi => List.mem_range.mp hi) c
    have h2 : KeepsPorts c c2 := (setCore_keepsPorts _ _ _).after h1
    clear_value c2
    refine .ite ?_ h2
    obtain ⟨a, b, d, h⟩ := carStart_onlyCar n grp c2
    rw [h]
    exact (setCore_keepsPorts _ _ _).after h2
theorem abortCore_keepsPorts (n id : Nat) (c : Chip) : KeepsPorts c (abortCore n id c) := by
  unfold abortCore
  extract_lets c1 k c3 c4
  have h1 : KeepsPorts c c1 := (expireAll_keepsPorts _ _).after (abortHub_keepsPorts _ c)
  have h3 : KeepsPorts c c3 := (setCore_keepsPorts _ _ _).after ((freeRuns_keepsPorts _ _ _).after h1)
  clear_value c3
  exact .ite ((setCore_keepsPorts _ _ _).after ((launchList_keepsPorts _ _ _ _).after ((carAbort_keepsPorts _ _).after h3))) h3

/-! ### Collectives and rings -/

theorem retireProv_keepsPorts (id : Nat) (commit : Bool) (c : Chip) : KeepsPorts c (retireProv id commit c) := by
  have hstore {P : Prop} [Decidable P] (a b v v' w w' : Nat) (k : Chip) :
      KeepsPorts k (if P then k.storeLe a w v else k.storeLe b w' v') := .ite (.of_same) (.of_same)
  unfold retireProv
  extract_lets mine rest kept gone c1 c2
  have h1 : KeepsPorts c c1 := by
    refine .foldl (fun k x => ?_) _ c
    extract_lets a w p k1 m k2
    have hk1 : KeepsPorts k k1 := hstore _ _ _ _ _ _ k
    have hk2 : KeepsPorts k k2 := hk1.then
    clear_value k2
    exact .ite (hk2.then) hk2
  have h2 : KeepsPorts c c2 := h1.then
  clear_value c2
  refine (KeepsPorts.foldl (fun k x => .ite ?_ (.refl k)) _ c2).after h2
  exact .ite (.of_same) (.of_same)
theorem queryReset_keepsPorts (id attempt : Nat) (c : Chip) : KeepsPorts c (queryReset id attempt c) := by
  unfold queryReset
  split
  · exact .of_same
  · exact .refl c
theorem failRun_keepsPorts (id cause : Nat) (c : Chip) : KeepsPorts c (failRun id cause c) := by
  have hstop (j : Chip) (l : List Nat) : KeepsPorts j (Machine.forEach l listStop j) := .forEach (fun n k => listStop_keepsPorts n k) l j
  unfold failRun failState
  extract_lets cores c1
  exact (logErr_keepsPorts _ _).after ((irq_keepsPorts _ _ _).after ((hstop _ _).after (.of_same)))
theorem abortRun_keepsPorts (id cause : Nat) (c : Chip) : KeepsPorts c (abortRun id cause c) := by
  unfold abortRun
  extract_lets cores x y c1 c2
  have h1 : KeepsPorts c c1 := .of_same
  have h2 : KeepsPorts c c2 := (queryReset_keepsPorts _ _ _).after ((retireProv_keepsPorts _ _ _).after
    ((KeepsPorts.forEach (fun n k => abortCore_keepsPorts n id k) _ _).after h1))
  exact (logErr_keepsPorts _ _).after ((irq_keepsPorts _ _ _).after ((bumpRg_keepsPorts _ _ (by simp [ra_inj]) _).after h2))
theorem sendCtl_keepsPorts (id kind dst fail cause chunk ck : Nat) (c : Chip) :
    KeepsPorts c (sendCtl id kind dst fail cause chunk ck c) := sendPkt_keepsPorts _ c
theorem foundCause_keepsPorts (id cause : Nat) (c : Chip) : KeepsPorts c (foundCause id cause c) := by
  have hdecide (f : Bool) : KeepsPorts c (decideAbort id cause f c) := by
    unfold decideAbort
    extract_lets x spent cs f' c1
    have h1 : KeepsPorts c c1 := sendCtl_keepsPorts _ _ _ _ _ _ _ c
    exact .ite (.refl c) (.ite ((failRun_keepsPorts _ _ _).after h1) ((abortRun_keepsPorts _ _ _).after h1))
  unfold foundCause
  extract_lets x c1
  have h1 : KeepsPorts c c1 := .of_same
  exact .ite (.refl c) (.ite (hdecide _) (.ite h1 ((sendCtl_keepsPorts _ _ _ _ _ _ _ _).after h1)))
theorem collLost_keepsPorts (l : List Packet) (c : Chip) : KeepsPorts c (collLost l c) := by
  refine .foldl (fun k p => ?_) l c
  dsimp only
  split
  · exact .ite (foundCause_keepsPorts _ _ k) (.of_same)
  · exact .ite (foundCause_keepsPorts _ _ k) (.refl k)
theorem ringResend_keepsPorts (l : List Nat) (c : Chip) : KeepsPorts c (ringResend l c) :=
  .forEach (fun _ k => .foldl (fun q p => sendPkt_keepsPorts p q) _ k) l c

/-! ### Loans -/

theorem abandon_keepsPorts (m : Mig) (c : Chip) : KeepsPorts c (abandon m c) := by
  have hlow (j : Chip) : KeepsPorts j (noteLow j) := .ite ((irq_keepsPorts _ _ _).after (.of_same)) (.of_same)
  have hmove (on : Bool) (j : Chip) : KeepsPorts j (setMoving m on j) := by
    unfold setMoving
    split <;> exact KeepsPorts.of_same
  unfold abandon
  extract_lets c1 c2
  have hdrop : KeepsPorts c (dropMig m c) := by
    unfold dropMig
    dsimp only
    split <;> exact KeepsPorts.of_same
  have h1 : KeepsPorts c c1 := (hmove _ _).after hdrop
  have h2 : KeepsPorts c c2 := .ite ((hlow _).after (h1.then)) (.ite (h1.then) h1)
  split
  · exact h2.then
  · exact h2
theorem clearHomes_keepsPorts (t part : Nat) (c : Chip) : KeepsPorts c (clearHomes t part c) := by
  unfold clearHomes
  extract_lets there c1 c2 c3
  have h1 : KeepsPorts c c1 := .foldl (fun k m => abandon_keepsPorts m k) _ c
  have h2 : KeepsPorts c c2 := (KeepsPorts.forEach (fun i k => .ite (.of_same) (.refl k)) _ c1).after h1
  refine (KeepsPorts.forEach (fun g k => ?_) _ c2).after h2
  have hmap (P : Prop) [Decidable P] (v : Nat) : KeepsPorts k (if P then k.setMapW g 1 v else k) := .ite (.of_same) (.refl k)
  exact .ite ((hmap _ _).then) (hmap _ _)
theorem loansCut_keepsPorts (c : Chip) : KeepsPorts c (loansCut c) := by
  refine .forEach (fun l k => .ite ?_ (.refl k)) _ c
  have hst : KeepsPorts k (setLoanSt l 4 k) := (irq_keepsPorts _ _ _).after (.of_same)
  exact (logErr_keepsPorts _ _).after ((clearHomes_keepsPorts _ _ _).after (hst.then))

/-! ### The state of a port -/

theorem parentCheck_links (c : Chip) : (parentCheck c).links = c.links ∧ (parentCheck c).regs = c.regs ∧ (parentCheck c).mem = c.mem := by
  unfold parentCheck
  dsimp only
  split
  · split <;> exact ⟨rfl, rfl, rfl⟩
  · exact ⟨rfl, rfl, rfl⟩

/-- A port's change of state: the state and the waiting marker, and nothing of any other link. -/
structure PortNow (c k : Chip) (n st : Nat) : Prop where
  this : ∃ m, k.link n = { c.link n with st := st, mark := m }
  other : ∀ m, m ≠ n → k.link m = c.link m
  mem : k.mem = c.mem
  rg : ∀ a, a ≠ ra (linkPage n) 0x20 → a ≠ ra pgMbp 0x20 → k.rg a = c.rg a

theorem portState_now (n st : Nat) (c : Chip) : PortNow c (portState n st c) n st := by
  unfold portState
  split
  · next h => exact ⟨⟨(c.link n).mark, by rw [← h]⟩, fun _ _ => rfl, rfl, fun _ _ _ => rfl⟩
  · generalize hx : updLink n (fun l => { l with st := st, mark := if st = 4 ∨ st = 5 ∨ st = 9 then l.mark else none }) c = x
    obtain ⟨hlinks, hregs, hmem⟩ := parentCheck_links (irq (linkPage n) 0 x)
    have hlink (m : Nat) : (parentCheck (irq (linkPage n) 0 x)).link m = x.link m := by
      obtain ⟨r, b, h⟩ := irq_only (linkPage n) 0 x
      rw [Chip.link, hlinks, h, Chip.link]
    refine ⟨⟨if st = 4 ∨ st = 5 ∨ st = 9 then (c.link n).mark else none, ?_⟩, fun m hm => ?_, ?_, fun a ha ha' => ?_⟩
    · exact (hlink n).trans (by rw [← hx]; exact Chip.setLink_link_same ..)
    · exact (hlink m).trans (by rw [← hx]; exact (Chip.setLink_link ..).trans (if_neg hm))
    · rw [hmem, irq_mem, ← hx]
      rfl
    · rw [Chip.rg, hregs]
      refine (irq_rg _ _ x a ha ha').trans ?_
      rw [← hx]
      rfl

theorem PortNow.standing {st : Nat} (h : PortNow c k n st) : ∃ m, (k.link n).standing = { c.link n with st := st, mark := m }.standing := by
  obtain ⟨m, hm⟩ := h.this
  exact ⟨m, by rw [hm]⟩
theorem PortNow.err {st : Nat} (h : PortNow c k n st) (p cls cause : Nat) : k.hasErr p cls cause = c.hasErr p cls cause := by
  rw [Chip.hasErr, h.rg _ (by simp [ra_inj]) (by simp [ra_inj]), Chip.hasErr]

/-- What of a port's loss its own link and the other ports show (R225). -/
structure PortLost (c k : Chip) (n st : Nat) : Prop where
  st : (k.link n).st = st
  refuse : (k.link n).refuse = (c.link n).refuse
  admitted : (k.link n).admitted = false
  sentAdmit : (k.link n).sentAdmit = false
  replay : (k.link n).replay = []
  carried : wasUp (c.link n) = true → (k.link n).carried = false
  quiet : wasUp (c.link n) = false → (∀ m, m ≠ n → k.link m = c.link m) ∧ k.mem = c.mem
  err : wasUp (c.link n) = true → k.hasErr (pgPort n) 2 10 = true

theorem portLoss_lost (n st : Nat) (c : Chip) : PortLost c (portLoss n st c) n st := by
  unfold portLoss
  by_cases hup : wasUp (c.link n) = true
  · rw [if_pos hup]
    extract_lets rings c0 l lost cnt l' c1 c2 c3 gone
    have h0 : (c0.link n).standing = (c.link n).standing := (closeRx_keepsPorts n c).link n
    have hrefuse : l.refuse = (c.link n).refuse := congrArg (fun s => s.2.1) h0
    obtain ⟨m, h1⟩ := (portState_now n st (c0.setLink n { freshLink l with
      queue := [], admitted := false, carried := false, sentAdmit := false, gotAdmit := false })).standing
    rw [Chip.setLink_link_same, show (portState n st _).link n = c1.link n from rfl] at h1
    have h2 : KeepsPorts c1 c2 := .foldl (fun k q => reroute_keepsPorts q k) _ c1
    have h3 : KeepsPorts c1 c3 := (freeBufs_keepsPorts _).after ((logErr_keepsPorts _ _).after h2)
    have herr : c3.hasErr (pgPort n) 2 10 = true :=
      (freeBufs_keepsPorts _).err _ _ _ (by decide) (by decide) (logErr_hasErr _ _ (by decide : (10 : Nat) < 32) (by decide : (2 : Nat) < 4))
    have hlast : KeepsPorts c3 (loansCut (ringResend rings (collLost (gone.map (fun q => ptOf q.cls q.bytes)) c3))) :=
      (loansCut_keepsPorts _).after ((ringResend_keepsPorts _ _).after (collLost_keepsPorts _ c3))
    clear_value c3
    generalize loansCut (ringResend rings (collLost (gone.map (fun q => ptOf q.cls q.bytes)) c3)) = k at *
    have hk := (hlast.link n).trans ((h3.link n).trans h1)
    simp only [Link.standing, Prod.mk.injEq] at hk
    obtain ⟨hst, hrefuse', hadm, hcar, hsent, hreplay, -⟩ := hk
    exact ⟨hst, hrefuse'.trans hrefuse, hadm, hsent, hreplay, fun _ => hcar, fun h => by rw [hup] at h; contradiction,
      fun _ => hlast.err _ _ _ (by decide) (by decide) herr⟩
  · rw [if_neg hup]
    have hnow := portState_now n st (c.setLink n { freshLink (c.link n) with
      admitted := false, carried := false, sentAdmit := false, gotAdmit := false })
    obtain ⟨m, hm⟩ := hnow.this
    rw [Chip.setLink_link_same] at hm
    have hother (i : Nat) (hi : i ≠ n) := (hnow.other i hi).trans ((Chip.setLink_link ..).trans (if_neg hi))
    have hmem := hnow.mem
    generalize portState n st _ = k at *
    exact ⟨by rw [hm], by rw [hm]; rfl, by rw [hm], by rw [hm], by rw [hm]; rfl, fun _ => by rw [hm], fun _ => ⟨hother, hmem⟩,
      fun h => absurd h hup⟩

end Sys2Proof.Machine
end

section
/-! Peer ports: training, discovery, admission and loss (R199, R209, R219 to R227). -/

namespace Sys2Proof.Machine

variable {c k : Chip} {n : Nat}

/-! ### One link at a time -/

@[simp] theorem updLink_link_same (n : Nat) (f : Link → Link) (c : Chip) : (updLink n f c).link n = f (c.link n) :=
  Chip.setLink_link_same ..
theorem updLink_link_other {m : Nat} (h : m ≠ n) (f : Link → Link) (c : Chip) : (updLink n f c).link m = c.link m :=
  (Chip.setLink_link ..).trans (if_neg h)
theorem setLink_link_other {m : Nat} (h : m ≠ n) (x : Link) (c : Chip) : (c.setLink n x).link m = c.link m :=
  (Chip.setLink_link ..).trans (if_neg h)

theorem Tab.set_cons {α : Type} [DecidableEq α] (d : Nat → α) (j : Nat) (u : α) (t : Tab α) (i : Nat) (v : α) :
    Tab.set d ((j, u) :: t) i v =
      if i < j then (if v = d i then (j, u) :: t else (i, v) :: (j, u) :: t)
      else if i = j then (if v = d i then t.dropWhile (fun e => decide (e.1 ≤ i)) else (i, v) :: t)
      else (j, u) :: Tab.set d t i v := rfl
/-- Of two values that a key of a table takes in turn the second stays; the first is not the default, so it is listed. -/
theorem Tab.set_set {α : Type} [DecidableEq α] (d : Nat → α) (t : Tab α) (i : Nat) {v : α} (hv : v ≠ d i) (w : α) :
    Tab.set d (Tab.set d t i v) i w = Tab.set d t i w := by
  have hlisted (r : Tab α) : Tab.set d ((i, v) :: r) i w = if w = d i then r.dropWhile (fun e => decide (e.1 ≤ i)) else (i, w) :: r := by
    rw [Tab.set_cons, if_neg (Nat.lt_irrefl i), if_pos rfl]
  induction t with
  | nil => rw [show Tab.set d [] i v = [(i, v)] from if_neg hv, hlisted]; rfl
  | cons e t ih =>
    obtain ⟨j, u⟩ := e
    rw [Tab.set_cons d j u t i v, Tab.set_cons d j u t i w]
    by_cases hlt : i < j
    · rw [if_pos hlt, if_pos hlt, if_neg hv, hlisted, List.dropWhile_cons_of_neg (by simpa using hlt)]
    · rw [if_neg hlt, if_neg hlt]
      by_cases heq : i = j
      · rw [if_pos heq, if_pos heq, if_neg hv, hlisted]
      · rw [if_neg heq, if_neg heq, Tab.set_cons, if_neg hlt, if_neg heq, ih]
theorem setLink_setLink {x : Link} (hx : x ≠ {}) (y : Link) (c : Chip) : (c.setLink n x).setLink n y = c.setLink n y :=
  congrArg (fun l => { c with links := l }) (Tab.set_set (fun _ => ({} : Link)) c.links n hx y)

theorem linkPage_port (n : PortId) : linkPage n = pgPort n := if_pos n.isLt

/-- A CE of a page leaves the links, and shows. -/
theorem ce_link (p i d0 d1 m : Nat) (c : Chip) : (ce p i d0 d1 c).link m = c.link m := by
  obtain ⟨r, b, t, h⟩ := ce_only p i d0 d1 c
  rw [h]
  rfl
theorem ucSlice_link (p i d0 d1 d2 m : Nat) (c : Chip) : (ucSlice p i d0 d1 d2 c).link m = c.link m := by
  obtain ⟨r, b, t, q, w, h⟩ := ucSlice_only p i d0 d1 d2 c
  rw [h]
  rfl
theorem irq_link (p i m : Nat) (c : Chip) : (irq p i c).link m = c.link m := by
  obtain ⟨r, b, h⟩ := irq_only p i c
  rw [h]
  rfl
theorem ce_shows (p : Nat) {i : Nat} (hi : i < 32) (d0 d1 : Nat) (c : Chip) : (ce p i d0 d1 c).hasErr p 0 i = true :=
  (logs_ce p i d0 d1 c hi).2.2
theorem ucSlice_shows (p : Nat) {i : Nat} (hi : i < 32) (d0 d1 d2 : Nat) (c : Chip) : (ucSlice p i d0 d1 d2 c).hasErr p 2 i = true :=
  logErr_hasErr _ c hi (by decide : (2 : Nat) < 4)

/-! ### Training and retraining -/

theorem startTrain_off (h : c.torusOk = false ∨ c.size (n / 2) = 1 ∨ c.enabled (pgPort n) = false) : startTrain n c = c := by
  refine if_pos ?_
  rcases h with h | h | h <;> simp [h]
/-- What of a training's start its link shows, and the rest when it was not carrying. -/
structure Trains (c k : Chip) (n : Nat) : Prop where
  this : (k.link n).st = 1 ∧ (k.link n).tries = 1 ∧ (k.link n).admitted = false ∧ (k.link n).replay = [] ∧ (k.link n).txSeq = 0 ∧
    (k.link n).left = false
  quiet : wasUp (c.link n) = false → (∀ m, m ≠ n → k.link m = c.link m) ∧ k.mem = c.mem
theorem startTrain_trains (ht : c.torusOk = true) (hsize : c.size (n / 2) ≠ 1) (hen : c.enabled (pgPort n) = true) :
    Trains c (startTrain n c) n := by
  unfold startTrain
  rw [if_neg (by simp [ht, hsize, hen])]
  dsimp only
  generalize hj : (if wasUp (c.link n) = true then portLoss n 0 c else c) = j
  have hnow := portState_now n 1 (j.setLink n { freshLink (j.link n) with
    tries := 1, locked := 0, refuse := 0, prev := 0, sentAdmit := false, gotAdmit := false, admitted := false, identIn := false
    identOut := false, left := false })
  obtain ⟨m, hm⟩ := hnow.this
  rw [Chip.setLink_link_same] at hm
  have hother (i : Nat) (hi : i ≠ n) := (hnow.other i hi).trans (setLink_link_other hi _ _)
  have hmem := hnow.mem
  generalize portState n 1 _ = k at *
  refine ⟨by rw [hm]; exact ⟨rfl, rfl, rfl, rfl, rfl, rfl⟩, fun hup => ?_⟩
  have hjc : j = c := by rw [← hj, hup]; rfl
  rw [hjc] at hother hmem
  exact ⟨hother, hmem⟩

/-- RETRAIN of a port keeps the link layer's state (R199). -/
theorem startRetrain_link (n : PortId) (lanes : Nat) (ht : c.torusOk = true) (hst : (c.link n).st ≠ 6) :
    ∃ m, (startRetrain n lanes c).link n = { c.link n with
      st := 6, mark := m, prev := (c.link n).st, tries := 1, locked := lanes, identIn := false, identOut := false
      identHeld := none, replays := 0 } := by
  unfold startRetrain
  rw [if_neg (by simp [ht])]
  dsimp only
  rw [ce_link, if_pos n.isLt, if_neg hst]
  obtain ⟨m, hm⟩ := (portState_now n 6 (Chip.bumpRg (c.setLink n { c.link n with
    prev := (c.link n).st, tries := 1, locked := lanes, identIn := false, identOut := false
    identHeld := none, replays := 0 }) (ra (pgPort n) 0x148) 1)).this
  refine ⟨m, hm.trans ?_⟩
  rw [show (Chip.bumpRg (c.setLink n _) _ _).link n = _ from Chip.setLink_link_same ..]
theorem startRetrain_shows (n : PortId) (lanes : Nat) (ht : c.torusOk = true) :
    (startRetrain n lanes c).hasErr (pgPort n) 0 9 = true := by
  unfold startRetrain
  rw [if_neg (by simp [ht]), linkPage_port]
  exact ce_shows _ (by decide) _ _ _

/-! ### Admission (R223, R224) -/

theorem goUp_waits (h : (c.link n).sentAdmit = false ∨ (c.link n).gotAdmit = false) : goUp n c = c := by
  unfold goUp
  dsimp only
  split
  · exact if_neg (by rcases h with h | h <;> simp [h])
  · rfl
/-- The state that a port has when both sides have admitted. -/
abbrev upState (c : Chip) (p : Peer) : Nat := if c.pwr.st = 3 ∨ c.pwr.st = 4 then 9 else if p.slice = c.sliceId then 4 else 5
theorem goUp_link {p : Peer} (hp : (c.link n).peer = some p) (hs : (c.link n).sentAdmit = true) (hg : (c.link n).gotAdmit = true) :
    ((goUp n c).link n).admitted = true ∧ ((goUp n c).link n).credits = p.credits ∧ ((goUp n c).link n).st = upState c p := by
  have hgo : goUp n c = portState n (upState c p) (c.setLink n { c.link n with
      credits := p.credits, admitted := true, carried := (if p.slice = c.sliceId then 4 else 5) == 4 || (c.link n).carried
      lp := if p.slice = c.sliceId then 4 else 5, unacked := [] }) := by
    unfold goUp
    simp only [hp]
    exact if_pos ⟨hs, hg⟩
  rw [hgo]
  obtain ⟨m, hm⟩ := (portState_now n (upState c p) (c.setLink n { c.link n with
      credits := p.credits, admitted := true, carried := (if p.slice = c.sliceId then 4 else 5) == 4 || (c.link n).carried
      lp := if p.slice = c.sliceId then 4 else 5, unacked := [] })).this
  rw [Chip.setLink_link_same] at hm
  rw [hm]
  exact ⟨rfl, rfl, rfl⟩

/-- The module with its ADMIT sent. -/
abbrev admitSent (n : Nat) (c : Chip) : Chip := sendCtlBody n (ctlBody 2 0) (updLink n (fun l => { l with sentAdmit := true }) c)
theorem admitSent_link (n : Nat) (c : Chip) : (admitSent n c).link n = { c.link n with
    sentAdmit := true, lctl := (c.link n).lctl ++ [ctlPkt c n (ctlBody 2 0)] } := by
  rw [admitSent, sendCtlBody, updLink_link_same, updLink_link_same]
  rfl
theorem admit_waits (h : (c.link n).gotAdmit = false) : admit_ n c = admitSent n c :=
  goUp_waits (.inr (by rw [admitSent_link]; exact h))
theorem admit_up {p : Peer} (hp : (c.link n).peer = some p) (hg : (c.link n).gotAdmit = true) :
    ((admit_ n c).link n).admitted = true ∧ ((admit_ n c).link n).credits = p.credits ∧ ((admit_ n c).link n).st = upState c p :=
  goUp_link (c := admitSent n c) (by rw [admitSent_link]; exact hp) (by rw [admitSent_link]) (by rw [admitSent_link]; exact hg)

/-- REFUSE sent: the port is REFUSED with the code, and a CE shows (R222). -/
theorem refusePeer_refused (n code : Nat) (c : Chip) :
    ((refusePeer n code c).link n).st = 8 ∧ ((refusePeer n code c).link n).refuse = code ∧
    ((refusePeer n code c).link n).admitted = false ∧ ((refusePeer n code c).link n).sentAdmit = false ∧
    (refusePeer n code c).hasErr (pgPort n) 0 11 = true := by
  unfold refusePeer
  dsimp only
  generalize emitSeq n _ c = j
  have hlost := portLoss_lost n 8 j
  generalize portLoss n 8 j = k at *
  rw [ce_link, updLink_link_same]
  exact ⟨hlost.st, rfl, hlost.admitted, hlost.sentAdmit, ce_shows _ (by decide) _ _ _⟩

/-! ### IDENT (R199, R221, R222) -/

/-- Only the links differ. -/
def OnlyLinks (c k : Chip) : Prop := ∃ l, k = { c with links := l }

/-- The module with its own IDENT sent, as the peer's asks. -/
abbrev identAnswered (n : Nat) (c : Chip) : Chip := if (c.link n).identOut then c else sendIdent n c

theorem sendIdent_link (n : Nat) (c : Chip) : (sendIdent n c).link n = { c.link n with
    lctl := (c.link n).lctl ++ [ctlPkt c n (identBody c n)], identOut := true } := by
  rw [sendIdent, updLink_link_same, sendCtlBody, updLink_link_same]
theorem identAnswered_link (n : Nat) (c : Chip) : ∃ q o, (identAnswered n c).link n = { c.link n with lctl := q, identOut := o } := by
  unfold identAnswered
  split
  · exact ⟨_, _, rfl⟩
  · exact ⟨_, _, sendIdent_link n c⟩
theorem identAnswered_only (n : Nat) (c : Chip) : OnlyLinks c (identAnswered n c) := by
  unfold identAnswered
  split
  · exact ⟨_, rfl⟩
  · exact ⟨_, rfl⟩

/-- The IDENT names the peer of before. -/
abbrev samePeer (q : Peer) (b : List Byte) : Prop :=
  q.module = (peerOf b).module ∧ q.port = (peerOf b).port ∧ q.digest = (peerOf b).digest

/-- The module when it has taken an IDENT of a new peer, before its checks tell. -/
structure IdentIn (c k : Chip) (n : Nat) : Prop where
  this : (k.link n).st = 2 ∧ (k.link n).identIn = true ∧ (k.link n).sentAdmit = false ∧ (k.link n).gotAdmit = false ∧
    (k.link n).admitted = false
  locked : (c.link n).st ≠ 6 → (k.link n).locked = (c.link n).locked
  fresh : (c.link n).st = 6 → (k.link n).replay = [] ∧ (k.link n).txSeq = 0 ∧ (k.link n).rxSeq = 0 ∧ (k.link n).rxAck = 4095

/-- The outcome of the checks of an IDENT. -/
abbrev identChecked (n code : Nat) (b : List Byte) (hold : Bool) (k : Chip) : Chip :=
  if code ≠ 0 then refusePeer n code k
  else if hold then irq (pgPort n) 1 (portState n 3 (updLink n (fun y => { y with peer := some (peerOf b) }) k))
  else admit_ n (updLink n (fun y => { y with peer := some (peerOf b) }) k)

theorem identTake_new {b : List Byte} (h : (c.link n).st ≠ 6 ∨ ∃ q, (c.link n).peer = some q ∧ ¬ samePeer q b) :
    ∃ k, IdentIn c k n ∧ identTake n b c = identChecked n (identCheck c n b) b (bit 0 (c.rg (ra pgLrt 0x118))) k := by
  obtain ⟨q, o, hlink⟩ := identAnswered_link n c
  obtain ⟨ls, honly⟩ := identAnswered_only n c
  have hcheck : identCheck (identAnswered n c) n b = identCheck c n b ∧ (identAnswered n c).rg (ra pgLrt 0x118) = c.rg (ra pgLrt 0x118) := by
    rw [honly]
    exact ⟨rfl, rfl⟩
  unfold identTake
  dsimp only
  rw [← identAnswered]
  generalize identAnswered n c = j at *
  have hst : (j.link n).st = (c.link n).st := by rw [hlink]
  have hpeer : (j.link n).peer = (c.link n).peer := by rw [hlink]
  rw [if_neg, hcheck.1, hcheck.2]
  · refine ⟨_, ⟨?_, fun h6 => ?_, fun h6 => ?_⟩, rfl⟩
    all_goals
      obtain ⟨m, hm⟩ := (portState_now n 2 ((if (j.link n).st = 6 then closeRx n j else j).setLink n
        { (if (j.link n).st = 6 then otherPeer ((if (j.link n).st = 6 then closeRx n j else j).link n) else j.link n) with
          identIn := true, identHeld := none, sentAdmit := false, gotAdmit := false, admitted := false, refuse := 0 })).this
      rw [Chip.setLink_link_same] at hm
      rw [hm]
    · exact ⟨rfl, rfl, rfl, rfl, rfl⟩
    · rw [if_neg (by rw [hst]; exact h6), hlink]
    · rw [if_pos (by rw [hst]; exact h6)]
      exact ⟨rfl, rfl, rfl, rfl⟩
  · rintro ⟨h6, hsame⟩
    rw [hst] at h6
    rw [hpeer] at hsame
    obtain h | ⟨q, hq, hne⟩ := h
    · exact h h6
    · rw [hq] at hsame
      simp only [Bool.and_eq_true, beq_iff_eq] at hsame
      exact hne ⟨hsame.1.1, hsame.1.2, hsame.2⟩

/-- A new peer's sound IDENT, with the module admitting by itself. -/
theorem identTake_admits {b : List Byte} (h : (c.link n).st ≠ 6 ∨ ∃ q, (c.link n).peer = some q ∧ ¬ samePeer q b)
    (hcheck : identCheck c n b = 0) (hauto : bit 0 (c.rg (ra pgLrt 0x118)) = false) :
    let l := (identTake n b c).link n
    l.st = 2 ∧ l.peer = some (peerOf b) ∧ l.identIn = true ∧ l.sentAdmit = true ∧ l.admitted = false ∧
    ((c.link n).st ≠ 6 → l.locked = (c.link n).locked) ∧
    ((c.link n).st = 6 → l.replay = [] ∧ l.txSeq = 0 ∧ l.rxSeq = 0 ∧ l.rxAck = 4095) := by
  obtain ⟨k, hin, htake⟩ := identTake_new h
  obtain ⟨hst, hident, -, hgot, hadm⟩ := hin.this
  rw [htake, hcheck, hauto, identChecked, if_neg (by simp), if_neg (by simp),
    admit_waits (by rw [updLink_link_same]; exact hgot)]
  dsimp only
  rw [admitSent_link, updLink_link_same]
  exact ⟨hst, rfl, hident, rfl, hadm, hin.locked, hin.fresh⟩

end Sys2Proof.Machine
end

section
/-! The commands of a peer port: O40 and O41. -/

namespace Sys2Proof.Machine

theorem lanes_lost {l : Byte} (h : l ≠ 255#8) : l.toNat ≠ 255 := fun he => h (BitVec.eq_of_toNat_eq he)
/-- A try that is not locked on all lanes in time. -/
theorem tryFails {l : Byte} {t : Bool} (h : l ≠ 255#8 ∨ t = false) : ¬ (l.toNat = 255 ∧ t = true) := by
  rintro ⟨hl, rfl⟩
  exact h.elim (fun h => lanes_lost h hl) nofun

/-- Settles O40, command by command. -/
theorem portTraining : Obligations.PortTraining := by
  unfold Obligations.PortTraining
  refine ⟨?train, ?noTrain, ?locked, ?identHeld, ?failed, ?lastFailed, ?noTorus, ?retrain, ?unlocked, ?noLoss, ?down, ?upDown,
    ?isDown, ?light, ?noLight⟩
  case train =>
    intro s n hc ht hsize hen
    refine does_live rfl hc ?_
    obtain ⟨⟨hst, htries, hadm, hreplay, hseq, -⟩, hquiet⟩ := startTrain_trains ht hsize hen
    exact ⟨hst, htries, hadm, hreplay, hseq, hquiet⟩
  case noTrain =>
    intro s n hc h
    exact does_live rfl hc (startTrain_off h)
  case locked =>
    intro s n hc hst ht hheld
    refine does_live rfl hc ?_
    unfold trainTryEnd
    dsimp only
    rw [if_neg (by omega), if_neg (by simp [ht]), if_pos ⟨by decide, rfl⟩, hheld]
    rfl
  case identHeld =>
    intro s n b hc hst ht hheld hcheck hauto
    refine does_live rfl hc ?_
    have htake : trainTryEnd n (255#8).toNat true s.chip = identTake n b (s.chip.setLink n { s.chip.link n with locked := 255 }) := by
      unfold trainTryEnd
      dsimp only
      rw [if_neg (by omega), if_neg (by simp [ht]), if_pos ⟨by decide, rfl⟩, hheld]
      rfl
    have hset : (s.chip.setLink n { s.chip.link n with locked := 255 }).link n = _ := Chip.setLink_link_same ..
    obtain ⟨h2, hpeer, hin, hsent, hadm, hlocked, -⟩ := identTake_admits (n := n) (b := b)
      (c := s.chip.setLink n { s.chip.link n with locked := 255 }) (.inl (by rw [hset]; simp [hst])) hcheck hauto
    rw [htake]
    exact ⟨h2, hpeer, hin, hsent, hadm, (hlocked (by rw [hset]; simp [hst])).trans (by rw [hset])⟩
  case failed =>
    intro s n l t hc hst ht hbad htries
    refine does_live rfl hc ?_
    unfold trainTryEnd
    dsimp only
    rw [if_neg (by omega), if_neg (by simp [ht]), if_neg (tryFails hbad), if_neg (by omega)]
  case lastFailed =>
    intro s n l t hc hst ht hbad htries _
    refine does_live rfl hc ?_
    have hlost := portLoss_lost n 7 (s.chip.setLink n { s.chip.link n with locked := l.toNat, refuse := 0 })
    unfold trainTryEnd
    dsimp only
    rw [if_neg (by omega), if_neg (by simp [ht]), if_neg (tryFails hbad), if_pos htries]
    obtain ⟨h7, hrefuse, hadm, -, -, -, hquiet, herr⟩ := hlost
    rw [Chip.setLink_link_same] at hrefuse hquiet herr
    change wasUp (s.chip.link n) = false → _ at hquiet
    change wasUp (s.chip.link n) = true → _ at herr
    generalize portLoss n 7 _ = k at *
    split
    · next hup => exact ⟨h7, hrefuse, hadm, herr hup, fun h => by rw [hup] at h; contradiction⟩
    · next hup =>
      simp only [ucSlice_link]
      exact ⟨h7, hrefuse, hadm, ucSlice_shows _ (by decide) _ _ _ _,
        fun h m hm => ((hquiet h).1 m hm).trans (setLink_link_other hm _ _)⟩
  case noTorus =>
    intro s n l t hc hst ht
    refine does_live rfl hc ?_
    have hlost := portLoss_lost n 0 s.chip
    unfold trainTryEnd
    dsimp only
    rw [if_neg (by omega), if_pos (by simp [ht])]
    exact ⟨hlost.st, hlost.admitted⟩
  case retrain =>
    intro s n l hc ht h
    refine does_live rfl hc ?_
    have hl : l.toNat ≠ 255 := by
      rcases h with ⟨-, -, hne⟩ | ⟨-, hbit⟩
      · exact lanes_lost hne
      · rintro he
        rw [he] at hbit
        contradiction
    have hgo : laneLockLoss n l.toNat s.chip = startRetrain n l.toNat s.chip := by
      unfold laneLockLoss
      dsimp only
      rw [if_neg hl, if_neg (by omega), if_pos (h.imp (fun h => ⟨h.1, h.2.1⟩) id)]
    obtain ⟨m, hm⟩ := startRetrain_link n l.toNat ht (c := s.chip) (by omega)
    rw [hgo, hm]
    exact ⟨rfl, rfl, rfl, rfl, rfl, rfl, rfl, startRetrain_shows n _ ht⟩
  case unlocked =>
    intro s n l hc hst hne
    refine does_live rfl hc ?_
    unfold laneLockLoss
    dsimp only
    rw [if_neg (lanes_lost hne), if_pos hst]
  case noLoss =>
    intro s n l hc h
    refine does_live rfl hc ?_
    unfold laneLockLoss
    dsimp only
    rcases h with rfl | ⟨h9, hbit⟩
    · exact if_pos (by decide)
    · split
      · rfl
      · rw [if_neg (by omega), if_neg (by simp [h9, hbit])]
  case down =>
    intro s n hc hup h7
    refine does_live rfl hc ?_
    rw [show markDown n s.chip = _ from if_neg h7]
    obtain ⟨hst, -, hadm, -, hreplay, -, hquiet, -⟩ := portLoss_lost n 7 s.chip
    exact ⟨hst, hadm, hreplay, hquiet hup⟩
  case upDown =>
    intro s n hc hup h7 _
    refine does_live rfl hc ?_
    rw [show markDown n s.chip = _ from if_neg h7]
    obtain ⟨hst, -, hadm, -, hreplay, hcarried, -, herr⟩ := portLoss_lost n 7 s.chip
    exact ⟨hst, hadm, hcarried hup, hreplay, herr hup⟩
  case isDown =>
    intro s n hc h7
    exact does_live rfl hc (if_pos h7)
  case light =>
    intro s n hc ht hsize hen hst hleft
    refine does_live rfl hc ?_
    rw [show lightReturn n s.chip = _ from if_pos ⟨hst, hleft⟩]
    obtain ⟨⟨h1, htries, -, -, -, hl⟩, -⟩ := startTrain_trains ht hsize hen
    exact ⟨h1, hl, htries⟩
  case noLight =>
    intro s n hc h
    refine does_live rfl hc (if_neg ?_)
    rintro ⟨hst, hleft⟩
    exact h.elim (fun h => by rw [hleft] at h; contradiction) (fun h => h hst)

/-! ### Admission -/

/-- What of a link a message has brought in is read. -/
theorem read_link (n : Nat) (f : List (List Byte) → List (List Byte)) (c : Chip) :
    (updLink n (fun l => { l with lctlIn := f l.lctlIn }) c).link n = { c.link n with lctlIn := f (c.link n).lctlIn } :=
  updLink_link_same ..

/-- The module once the IDENT that stands in the receive buffer is read. -/
abbrev identRead (n : Nat) (c : Chip) : Chip := updLink n (fun l => { l with lctlIn := l.lctlIn.filter (fun x => at_ x 0 1 != 1) }) c

theorem identMsg_takes {c : Chip} {n : Nat} (b : List Byte) (ht : c.torusOk = true) (hlock : (c.link n).locked = 255)
    (hst : (c.link n).st = 1 ∨ (c.link n).st = 6) : identMsg n b c = identTake n b (identRead n c) := by
  unfold identMsg
  dsimp only
  rw [← identRead, show (identRead n c).link n = _ from read_link n _ c]
  have hgo : ¬ (((c.link n).st ≠ 1 ∧ (c.link n).st ≠ 6) ∨ (identRead n c).torusOk = false) := by
    rintro (⟨h1, h6⟩ | h)
    · exact hst.elim h1 h6
    · rw [show (identRead n c).torusOk = true from ht] at h
      contradiction
  exact (if_neg hgo).trans (if_neg (not_not_intro hlock))

/-- The port is back from RETRAIN with the same peer, its link layer's state kept (R199). -/
theorem retrainEnd_link {c : Chip} (n : Nat) : ∃ m r p a, (retrainEnd n c).link n = { c.link n with
    st := backTo (c.link n) c, lp := if (c.link n).prev = 9 then (c.link n).lp else (c.link n).prev, refuse := 0, mark := m,
    resend := r, replays := p, ackAt := a } ∧ ((c.link n).replay ≠ [] → r = (c.link n).replay) := by
  unfold retrainEnd
  dsimp only
  obtain ⟨m, hm⟩ := (portState_now n (backTo (c.link n) c) (c.setLink n { c.link n with
    lp := if (c.link n).prev = 9 then (c.link n).lp else (c.link n).prev, refuse := 0, ackAt := c.beat })).this
  rw [Chip.setLink_link_same] at hm
  generalize portState n (backTo (c.link n) c) _ = k at *
  unfold replayNow
  dsimp only
  split
  · next h =>
    rw [hm]
    refine ⟨m, _, _, _, rfl, fun hne => absurd ?_ hne⟩
    rw [hm] at h
    exact h
  · rw [ce_link]
    have hset (x : Link) : (if n < 6 then (k.setLink n x).bumpRg (ra (pgPort n) 0x144) 1 else k.setLink n x).link n = x := by
      split <;> exact Chip.setLink_link_same ..
    rw [hset, hm]
    exact ⟨m, _, _, _, rfl, fun _ => rfl⟩

/-- In RETRAIN the peer of before goes on where it was (R199). -/
theorem identTake_same {c : Chip} {n : Nat} {b : List Byte} {q : Peer} (h6 : (c.link n).st = 6) (hq : (c.link n).peer = some q)
    (hsame : samePeer q b) :
    let l := (identTake n b c).link n
    l.st = backTo (c.link n) c ∧ l.replay = (c.link n).replay ∧ ((c.link n).replay ≠ [] → l.resend = (c.link n).replay) ∧
    l.txSeq = (c.link n).txSeq ∧ l.rxSeq = (c.link n).rxSeq ∧ l.credits = (c.link n).credits ∧ l.identIn = true := by
  obtain ⟨x, o, hlink⟩ := identAnswered_link n c
  obtain ⟨ls, honly⟩ := identAnswered_only n c
  have hpwr : (identAnswered n c).pwr = c.pwr := by rw [honly]
  have htake : identTake n b c = retrainEnd n ((identAnswered n c).setLink n { (identAnswered n c).link n with
      identIn := true, identHeld := none }) := by
    unfold identTake
    dsimp only
    rw [← identAnswered]
    refine if_pos ⟨by rw [hlink]; exact h6, ?_⟩
    rw [hlink]
    dsimp only
    rw [hq]
    obtain ⟨h1, h2, h3⟩ := hsame
    simp [h1, h2, h3]
  rw [htake]
  generalize identAnswered n c = j at *
  obtain ⟨m, r, p, a, hk, hr⟩ := retrainEnd_link n (c := j.setLink n { j.link n with identIn := true, identHeld := none })
  rw [Chip.setLink_link_same] at hk hr
  have hback (y : Link) (hprev : y.prev = (c.link n).prev) (hlp : y.lp = (c.link n).lp) :
      backTo y (j.setLink n { j.link n with identIn := true, identHeld := none }) = backTo (c.link n) c := by
    simp only [backTo, hprev, hlp, show (j.setLink n { j.link n with identIn := true, identHeld := none }).pwr = c.pwr from hpwr]
  rw [hback _ (by rw [hlink]) (by rw [hlink])] at hk
  dsimp only
  rw [hk, hlink]
  rw [hlink] at hr
  exact ⟨rfl, rfl, hr, rfl, rfl, rfl, rfl⟩

/-- Settles O41, command by command. -/
theorem admission : Obligations.Admission := by
  unfold Obligations.Admission
  refine ⟨?send, ?noSend, ?hold, ?admits, ?refuses, ?same, ?other, ?waits, ?portAdmits, ?portUp, ?noHold, ?portRefuses, ?noRefuse,
    ?admitted, ?admitEarly, ?admitElse, ?refused, ?refusedElse, ?leaves, ?leavesElse⟩
  case send =>
    intro s n hc hst hident
    refine does_live rfl hc ?_
    rw [show identSend n s.chip = sendIdent n s.chip from if_pos ⟨hst, hident⟩, sendIdent, updLink, sendCtlBody, updLink_link_same]
    refine setLink_setLink ?_ _ _
    intro h
    have hlctl := congrArg Link.lctl h
    simp at hlctl
  case noSend =>
    intro s n hc h
    refine does_live rfl hc (if_neg ?_)
    rintro ⟨hst, hident⟩
    rcases h with ⟨h1, h6⟩ | ⟨hin, hout⟩
    · exact hst.elim h1 h6
    · rw [hin, hout] at hident
      simp at hident
  case hold =>
    intro s n b hc ht hlock hst hcheck hhold
    refine does_live rfl hc ?_
    have hread := read_link n (fun l => l.filter (fun x => at_ x 0 1 != 1)) s.chip
    obtain ⟨k, hin, htake⟩ := identTake_new (c := identRead n s.chip) (n := n) (b := b) (.inl (by rw [hread]; simp [hst]))
    obtain ⟨-, hident, hsent, -, -⟩ := hin.this
    rw [identMsg_takes b ht hlock (.inl hst), htake, show identCheck (identRead n s.chip) n b = 0 from hcheck,
      show bit 0 ((identRead n s.chip).rg (ra pgLrt 0x118)) = true from hhold, identChecked, if_neg (by simp), if_pos rfl]
    obtain ⟨m, hm⟩ := (portState_now n 3 (updLink n (fun y => { y with peer := some (peerOf b) }) k)).this
    rw [updLink_link_same] at hm
    rw [irq_link, hm, irq_sts _ _ _ (by simp only [pgPort, pgMbp]; omega), bit_mod _ _ (by decide), bit_or, bit_two_pow, Bool.or_true]
    exact ⟨rfl, rfl, hident, hsent, rfl⟩
  case admits =>
    intro s n b hc ht hlock hst hcheck hauto
    refine does_live rfl hc ?_
    have hread := read_link n (fun l => l.filter (fun x => at_ x 0 1 != 1)) s.chip
    obtain ⟨h2, hpeer, hin, hsent, hadm, -, -⟩ := identTake_admits (c := identRead n s.chip) (n := n) (b := b)
      (.inl (by rw [hread]; simp [hst])) hcheck hauto
    rw [identMsg_takes b ht hlock (.inl hst)]
    exact ⟨h2, hpeer, hin, hsent, hadm⟩
  case refuses =>
    intro s n b code hc ht hlock hst hcheck hcode
    refine does_live rfl hc ?_
    have hread := read_link n (fun l => l.filter (fun x => at_ x 0 1 != 1)) s.chip
    obtain ⟨k, -, htake⟩ := identTake_new (c := identRead n s.chip) (n := n) (b := b) (.inl (by rw [hread]; simp [hst]))
    rw [identMsg_takes b ht hlock (.inl hst), htake, show identCheck (identRead n s.chip) n b = code from hcheck, identChecked,
      if_pos hcode]
    obtain ⟨h8, hrefuse, -, hsent, herr⟩ := refusePeer_refused n code k
    exact ⟨h8, hrefuse, hsent, herr⟩
  case same =>
    intro s n b q hc ht hlock hst hq hsame
    refine does_live rfl hc ?_
    have hread := read_link n (fun l => l.filter (fun x => at_ x 0 1 != 1)) s.chip
    rw [identMsg_takes b ht hlock (.inr hst)]
    have h := identTake_same (c := identRead n s.chip) (n := n) (b := b) (q := q) (by rw [hread]; exact hst) (by rw [hread]; exact hq) hsame
    dsimp only at h
    rw [hread] at h
    exact h
  case other =>
    intro s n b hc ht hlock hst q hq hne hcheck hauto
    refine does_live rfl hc ?_
    have hread := read_link n (fun l => l.filter (fun x => at_ x 0 1 != 1)) s.chip
    obtain ⟨h2, hpeer, hin, hsent, hadm, -, hfresh⟩ := identTake_admits (c := identRead n s.chip) (n := n) (b := b)
      (.inr ⟨q, by rw [hread]; exact hq, hne⟩) hcheck hauto
    rw [identMsg_takes b ht hlock (.inr hst)]
    exact ⟨h2, hpeer, hin, hsent, hadm, hfresh (by rw [hread]; exact hst)⟩
  case waits =>
    intro s n b hc hst ht hlock
    refine does_live rfl hc ?_
    have hread := read_link n (fun l => l.filter (fun x => at_ x 0 1 != 1)) s.chip
    have hwait : identMsg n b s.chip = (identRead n s.chip).setLink n { (identRead n s.chip).link n with identHeld := some b } := by
      unfold identMsg
      dsimp only
      rw [← identRead, hread]
      have hgo : ¬ (((s.chip.link n).st ≠ 1 ∧ (s.chip.link n).st ≠ 6) ∨ (identRead n s.chip).torusOk = false) := by
        rintro (⟨h1, h6⟩ | h)
        · exact hst.elim h1 h6
        · rw [show (identRead n s.chip).torusOk = true from ht] at h
          contradiction
      exact (if_neg hgo).trans (if_pos hlock)
    rw [hwait, Chip.setLink_link_same, hread]
    exact ⟨rfl, rfl, rfl, fun m hm => (setLink_link_other hm _ _).trans (updLink_link_other hm _ _)⟩
  case portAdmits =>
    intro s n hc hst hgot
    refine does_live rfl hc ?_
    rw [show portAdmit n s.chip = _ from if_pos hst, admit_waits hgot, admitSent_link]
    exact ⟨rfl, hst, rfl⟩
  case portUp =>
    intro s n p hc hst hgot hp
    refine does_live rfl hc ?_
    rw [show portAdmit n s.chip = _ from if_pos hst]
    exact admit_up hp hgot
  case noHold =>
    intro s n hc hst
    exact does_live rfl hc (if_neg hst)
  case portRefuses =>
    intro s n hc hst
    refine does_live rfl hc ?_
    rw [show portRefuse n s.chip = _ from if_pos hst]
    obtain ⟨h8, hrefuse, hadm, -, herr⟩ := refusePeer_refused n 5 s.chip
    exact ⟨h8, hrefuse, hadm, herr⟩
  case noRefuse =>
    intro s n hc hst
    exact does_live rfl hc (if_neg hst)
  case admitted =>
    intro s n p hc hst hsent hp
    refine does_live rfl hc ?_
    have hread := read_link n (fun l => l.eraseP (fun b => at_ b 0 1 == 2)) s.chip
    unfold admitMsg
    dsimp only
    rw [if_pos (by rw [hread]; exact hst)]
    exact goUp_link (by rw [updLink_link_same, hread]; exact hp) (by rw [updLink_link_same, hread]; exact hsent)
      (by rw [updLink_link_same])
  case admitEarly =>
    intro s n hc hst hsent
    refine does_live rfl hc ?_
    have hread := read_link n (fun l => l.eraseP (fun b => at_ b 0 1 == 2)) s.chip
    unfold admitMsg
    dsimp only
    rw [if_pos (by rw [hread]; exact hst), goUp_waits (.inl (by rw [updLink_link_same, hread]; exact hsent)), updLink_link_same, hread]
    exact ⟨rfl, rfl, rfl⟩
  case admitElse =>
    intro s n hc h2 h3
    refine does_live rfl hc ?_
    have hread := read_link n (fun l => l.eraseP (fun b => at_ b 0 1 == 2)) s.chip
    unfold admitMsg
    dsimp only
    rw [if_neg (by rw [hread]; exact fun h => h.elim h2 h3)]
    rfl
  case refused =>
    intro s n code hc h1 h3
    refine does_live rfl hc ?_
    have hread := read_link n (fun l => l.eraseP (fun b => at_ b 0 1 == 3)) s.chip
    unfold refuseMsg
    dsimp only
    rw [if_pos (by rw [hread]; exact ⟨h1, h3⟩)]
    obtain ⟨m, hm⟩ := (portState_now n 8 (updLink n (fun l => { l with lctlIn := l.lctlIn.eraseP (fun b => at_ b 0 1 == 3) }) s.chip)).this
    rw [ce_link, updLink_link_same, hm]
    exact ⟨rfl, rfl, ce_shows _ (by decide) _ _ _⟩
  case refusedElse =>
    intro s n code hc hst
    refine does_live rfl hc ?_
    have hread := read_link n (fun l => l.eraseP (fun b => at_ b 0 1 == 3)) s.chip
    unfold refuseMsg
    dsimp only
    rw [if_neg (by rw [hread]; dsimp only; omega)]
    rfl
  case leaves =>
    intro s n hc h0 h7
    refine does_live rfl hc ?_
    have hread := read_link n (fun l => l.eraseP (fun b => at_ b 0 1 == 4)) s.chip
    have hother := fun m (hm : m ≠ n.val) =>
      updLink_link_other hm (fun l => { l with lctlIn := l.lctlIn.eraseP (fun b => at_ b 0 1 == 4) }) s.chip
    unfold leaveMsg
    dsimp only
    rw [if_neg (by rw [hread]; exact fun h => h.elim h0 h7), updLink_link_same]
    obtain ⟨hst, -, hadm, -, -, -, hquiet, -⟩ := portLoss_lost n 0
      (updLink n (fun l => { l with lctlIn := l.lctlIn.eraseP (fun b => at_ b 0 1 == 4) }) s.chip)
    rw [hread] at hquiet
    exact ⟨hst, rfl, hadm, fun hup m hm => (updLink_link_other hm _ _).trans (((hquiet hup).1 m hm).trans (hother m hm))⟩
  case leavesElse =>
    intro s n hc h
    refine does_live rfl hc ?_
    have hread := read_link n (fun l => l.eraseP (fun b => at_ b 0 1 == 4)) s.chip
    unfold leaveMsg
    dsimp only
    rw [if_pos (by rw [hread]; exact h)]
    rfl

end Sys2Proof.Machine
end

section
/-! Beats, measurements and TIME frames (R229, R233, R236 to R238, R242, R243), with what the service of the memory
requests that waited leaves (R311). -/

namespace Sys2Proof.Machine

variable {c k : Chip} {n : Nat}

/-! ### Service of memory requests -/

theorem event_keepsPorts (kind p : Nat) (l : List Nat) (c : Chip) : KeepsPorts c (event kind p l c) := by
  refine .of_rg ?_ ?_ fun q => event_rg kind p l c _ (by simp [ra_inj])
  all_goals
    obtain ⟨r, m, h⟩ := event_only kind p l c
    rw [h]
theorem store_keepsPorts (a : Nat) (l : List Byte) (c : Chip) : KeepsPorts c (c.store a l) := .of_same
theorem zero_keepsPorts (a w : Nat) (c : Chip) : KeepsPorts c (c.zero a w) := .of_same
theorem setMapW_keepsPorts (g i v : Nat) (c : Chip) : KeepsPorts c (c.setMapW g i v) := store_keepsPorts _ _ c
theorem setRec_keepsPorts (t i kind flags acct refcnt owner link : Nat) (c : Chip) :
    KeepsPorts c (c.setRec t i kind flags acct refcnt owner link) := store_keepsPorts _ _ c
theorem answer_keepsPorts (x : Answer) (c : Chip) : KeepsPorts c { c with answer := x } := .of_same
theorem reqDue_keepsPorts (d : Nat) (c : Chip) : KeepsPorts c (c.withDue d) := .of_same
theorem noteLow_keepsPorts (c : Chip) : KeepsPorts c (noteLow c) := .ite ((irq_keepsPorts _ _ _).after .of_same) .of_same
theorem takeFrame_keepsPorts {kind acct owner f : Nat} (h : takeFrame kind acct owner c = some (f, k)) : KeepsPorts c k := by
  obtain ⟨x, -, hx⟩ := Option.map_eq_some_iff.mp h
  rw [← (Prod.mk.inj hx).2]
  exact (noteLow_keepsPorts _).after ((store_keepsPorts _ _ _).after (zero_keepsPorts _ _ _))
theorem touch_keepsPorts (t i : Nat) (c : Chip) : KeepsPorts c (c.touch t i) := .of_same
theorem noteRead_keepsPorts (a w : Nat) (c : Chip) : KeepsPorts c (noteRead a w c) :=
  .forEach (fun _ k => .ite (touch_keepsPorts _ _ k) (.refl k)) _ c

theorem granuleFirst_keepsPorts {g : Nat} (h : granuleFirst g c = some k) : KeepsPorts c k := by
  obtain ⟨⟨f, j⟩, hx, hk⟩ := Option.map_eq_some_iff.mp h
  rw [← hk]
  exact (store_keepsPorts _ _ _).after (takeFrame_keepsPorts hx)
theorem writePart_keepsPorts (a : Nat) (l : List Byte) (c : Chip) : KeepsPorts c (writePart a l c).1 := by
  unfold writePart
  dsimp only
  split
  · split_ifs
    · exact logErr_keepsPorts _ c
    · exact logErr_keepsPorts _ c
    · exact logErr_keepsPorts _ c
    · exact store_keepsPorts _ _ c
    · split
      · exact (store_keepsPorts _ _ _).after (granuleFirst_keepsPorts (by assumption))
      · exact logErr_keepsPorts _ c
  · split
    · split_ifs
      · exact logErr_keepsPorts _ c
      · exact store_keepsPorts _ _ c
    · exact logErr_keepsPorts _ c
theorem writeParts_keepsPorts (f a : Nat) (l : List Byte) (c : Chip) : KeepsPorts c (writeParts f a l c).1 := by
  induction f generalizing a l c with
  | zero => exact .refl c
  | succ f ih =>
    unfold writeParts
    dsimp only
    split_ifs
    · exact .refl c
    · exact writePart_keepsPorts _ _ c
    · exact (ih _ _ _).after (writePart_keepsPorts _ _ c)
theorem tasWrite_keepsPorts (a : Nat) (l : List Byte) (c : Chip) : KeepsPorts c (tasWrite a l c).1 := by
  unfold tasWrite
  split_ifs
  · exact .refl c
  · exact logErr_keepsPorts _ c
  · exact writeParts_keepsPorts _ _ _ c

theorem setRefetch_keepsPorts (r : Refetch) (c : Chip) : KeepsPorts c (setRefetch r c) := .of_same
theorem offerRefetch_keepsPorts {g src crc : Nat} {pay : List Byte} (h : offerRefetch g src pay crc c = some k) : KeepsPorts c k := by
  unfold offerRefetch at h
  split at h
  · contradiction
  · extract_lets w held got at h
    obtain ⟨⟨f, j⟩, hgot, hk⟩ := Option.map_eq_some_iff.mp h
    clear_value held
    have hj : KeepsPorts c j := by
      unfold got at hgot
      split at hgot
      · rw [← (Prod.mk.inj (Option.some.inj hgot)).2]
        exact .refl c
      · split at hgot
        · next x hx =>
          obtain rfl := Option.some.inj hgot
          exact takeFrame_keepsPorts hx
        · obtain ⟨x, -, hx⟩ := Option.map_eq_some_iff.mp hgot
          rw [← (Prod.mk.inj hx).2]
          exact zero_keepsPorts _ _ c
    rw [← hk]
    have hend (i : Chip) : KeepsPorts i (endRefetch g src i) := (irq_keepsPorts _ _ _).after .of_same
    exact (hend _).after ((setMapW_keepsPorts _ _ _ _).after ((setRec_keepsPorts _ _ _ _ _ _ _ _ _).after
      ((store_keepsPorts _ _ _).after hj)))
theorem nextSource_keepsPorts (g : Nat) (c : Chip) : KeepsPorts c (nextSource g c) := by
  unfold nextSource
  split
  · exact .refl c
  · dsimp only
    split
    · exact (sendPkt_keepsPorts _ _).after .of_same
    · split
      · next h =>
        split at h
        · exact offerRefetch_keepsPorts h
        · contradiction
      · exact .ite ((event_keepsPorts _ _ _ _).after (setRefetch_keepsPorts _ c)) (.refl c)
theorem startRefetch_keepsPorts (g : Nat) (c : Chip) : KeepsPorts c (startRefetch g c) := by
  unfold startRefetch
  extract_lets w got c1 e ps
  have hgot : ∀ x, got = some x → KeepsPorts c x.2 := by
    intro x hx
    unfold got at hx
    split at hx
    · next y hy =>
      obtain rfl := Option.some.inj hx
      exact takeFrame_keepsPorts hy
    · obtain ⟨y, -, hy⟩ := Option.map_eq_some_iff.mp hx
      rw [← hy]
      exact (setRec_keepsPorts _ _ _ _ _ _ _ _ _).after (zero_keepsPorts _ _ c)
  have h1 : KeepsPorts c c1 := by
    unfold c1
    clear_value got
    cases got with
    | none => exact .refl c
    | some x => exact hgot x rfl
  exact .ite (.refl c) ((nextSource_keepsPorts _ _).after ((setRefetch_keepsPorts _ _).after h1))
theorem holdRead_keepsPorts (g : Nat) (c : Chip) : KeepsPorts c (holdRead g c) := by
  have h := startRefetch_keepsPorts g c
  unfold holdRead
  dsimp only
  split
  · exact (setRefetch_keepsPorts _ _).after h
  · exact h
theorem granuleBad_keepsPorts (g : Nat) (c : Chip) : KeepsPorts c (granuleBad g c) := by
  have hretire (t f : Nat) (j : Chip) : KeepsPorts j (retireBad t f j) := .ite (setRec_keepsPorts _ _ _ _ _ _ _ _ j) (.refl j)
  unfold granuleBad
  extract_lets c0 w h t f c1 c2
  have h0 : KeepsPorts c c0 := .foldl (fun k m => abandon_keepsPorts m k) _ c
  have h1 : KeepsPorts c c1 := (hretire _ _ _).after h0
  have h2 : KeepsPorts c c2 := .ite h1 (.ite ((setMapW_keepsPorts _ _ _ _).after h1) ((setMapW_keepsPorts _ _ _ _).after ((hretire _ _ _).after h1)))
  clear_value c2
  exact .ite h0 (.ite ((noteLow_keepsPorts _).after ((setMapW_keepsPorts _ _ _ _).after ((hretire _ _ _).after h0)))
    ((startRefetch_keepsPorts _ _).after ((setMapW_keepsPorts _ _ _ _).after h2)))
theorem readBad_keepsPorts (a : Nat) (c : Chip) : KeepsPorts c (readBad a c) := by
  have hfound (t f : Nat) : KeepsPorts c (foundBad t f a c) := by
    have hbump (s : Nat) (j : Chip) : KeepsPorts j (j.bumpRg (bank (s % 4) (pgCxl (s / 4)) 0x12C) 1) :=
      bumpRg_keepsPorts _ _ (fun p => by simp only [bank, ra]; omega) j
    exact .ite ((logErr_keepsPorts _ _).after ((hbump _ _).after (logErr_keepsPorts _ c))) (logErr_keepsPorts _ c)
  exact .ite (.refl c) (.ite ((granuleBad_keepsPorts _ _).after (hfound _ _)) (hfound _ _))
theorem readServe_keepsPorts (a w : Nat) (c : Chip) : KeepsPorts c (readServe a w c).1 := by
  have hbad := readBad_keepsPorts
  unfold readServe
  split
  · exact logErr_keepsPorts _ c
  · split
    · exact noteRead_keepsPorts _ _ c
    · exact logErr_keepsPorts _ c
    · exact holdRead_keepsPorts _ c
    · next x _ =>
      dsimp only
      split
      · exact (noteRead_keepsPorts _ _ _).after (hbad x c)
      · exact (holdRead_keepsPorts _ _).after (hbad x c)
      · exact hbad x c
theorem memoryAccess_keepsPorts (wr : Bool) (a w : Nat) (l : List Byte) (c : Chip) : KeepsPorts c (memoryAccess wr a w l c) := by
  have hread := readServe_keepsPorts a w c
  have hwrite := tasWrite_keepsPorts a l c
  refine .ite (.ite (.refl c) ((answer_keepsPorts _ _).after hwrite)) (.ite (.refl c) ?_)
  dsimp only
  split
  · exact (answer_keepsPorts _ _).after hread
  · exact (answer_keepsPorts _ _).after hread
  · exact (answer_keepsPorts _ _).after hread
  · exact hread
theorem serveReq_keepsPorts (w : GmcWhat) (due : Nat) (c : Chip) : KeepsPorts c (serveReq w due c) := by
  have hdata (p : Packet) (tag : Nat) (l : List Byte) (j : Chip) : KeepsPorts j (sendRdata p tag l j) :=
    .forEach (fun _ k => sendPkt_keepsPorts _ k) _ j
  have herr (p : Packet) (tag i : Nat) : KeepsPorts c (sendRerr p tag i c) := sendPkt_keepsPorts _ c
  unfold serveReq
  split
  · exact (reqDue_keepsPorts _ _).after ((memoryAccess_keepsPorts _ _ _ _ _).after (reqDue_keepsPorts _ c))
  · unfold onRread
    dsimp only
    split
    · exact herr _ _ _
    · exact .ite (herr _ _ _) (.ite (herr _ _ _) (hdata _ _ _ c))
  · exact .ite (herr _ _ _) (.ite (herr _ _ _) (.ite (herr _ _ _) ((hdata _ _ _ _).after (noteRead_keepsPorts _ _ c))))
theorem setGmc_keepsPorts (i : Nat) (g : Gmc) (c : Chip) : KeepsPorts c (c.setGmc i g) := .of_same
theorem serveOne_keepsPorts (i : Nat) (c : Chip) : KeepsPorts c (serveOne i c) := by
  unfold serveOne
  dsimp only
  split
  · exact .refl c
  · next q _ =>
    have h1 := setGmc_keepsPorts i { c.gmc i with
      waiting := (c.gmc i).waiting.erase q
      turn := if (c.gmc i).waiting.any (fun x => x.due == 0xFFFFFFFF) then ((c.gmc i).turn + 1) % 16 else 0 } c
    generalize c.setGmc i _ = c1 at *
    split
    · refine KeepsPorts.after ?_ h1
      unfold gmcRequest
      split
      · exact setGmc_keepsPorts _ _ c1
      · exact serveReq_keepsPorts _ _ c1
    · exact ((serveReq_keepsPorts _ _ _).after h1).then
    · exact (serveReq_keepsPorts _ _ _).after h1
theorem serveWaiting_keepsPorts (c : Chip) : KeepsPorts c (serveWaiting c) := by
  refine .ite (.refl c) ?_
  exact (KeepsPorts.forEach (fun i k => .foldl (fun j _ => serveOne_keepsPorts i j) _ k) _ _).after .of_same

theorem planApply_keepsPorts (c : Chip) : KeepsPorts c (planApply c) := by
  unfold planApply
  split
  · exact .of_same
  · exact .refl c

/-! ### The parent -/

/-- A change of parent leaves the rest of the cadence unit, and the offset is the new parent's. -/
theorem parentCheck_cad (c : Chip) : ∃ p h m o, parentCheck c = { c with cad := { c.cad with parent := p, hops := h, missing := m, offset := o } } ∧
    ((p = c.cad.parent ∧ o = c.cad.offset) ∨ o = (c.cad.port p).ofs) := by
  unfold parentCheck
  dsimp only
  split
  · split
    · exact ⟨_, _, _, _, rfl, .inr rfl⟩
    · exact ⟨_, _, _, _, rfl, .inl ⟨rfl, rfl⟩⟩
  · exact ⟨_, _, _, _, rfl, .inl ⟨rfl, rfl⟩⟩
theorem parentCheck_keeps (h : (c.cad.st ≠ 2 ∧ c.cad.st ≠ 3) ∨ c.admissible c.cad.parent = true) : parentCheck c = c := by
  refine if_neg ?_
  rintro ⟨hst, hadm⟩
  rcases h with ⟨h2, h3⟩ | h
  · exact hst.elim h2 h3
  · rw [h] at hadm
    contradiction

/-! ### Markers (R233, R234) -/

/-- The nibbles that port p sends over the 32 beats that hold beat b. -/
def framesAt (b : Nat) (c : Chip) (p : Nat) : List Nat :=
  if b % 32 = 0 then frameOf c p b else Tab.get (fun _ => []) c.cad.txFrames p
/-- A port's marker of beat b. -/
def markAt (b sync : Nat) (c : Chip) (p : Nat) : Nat := sync + 16 * (framesAt b c p).getD (b % 32) 0
/-- The link with a marker waiting. -/
def Link.marked (l : Link) (m : Nat) : Link := { l with mark := some m }
/-- The marker of beat b is placed on a port on which markers run. -/
def placeMark (b sync p : Nat) (c : Chip) : Chip :=
  if marks c p then
    (updCad (fun y => { y with txFrames := Tab.set (fun _ => []) y.txFrames p (framesAt b c p) }) c).setLink p
      ((c.link p).marked (markAt b sync c p))
  else c

/-- Only links and the frames being sent differ. -/
def OnlyMarks (c k : Chip) : Prop := ∃ ls tf, k = { c with links := ls, cad := { c.cad with txFrames := tf } }

theorem placeMark_only (b sync p : Nat) (c : Chip) : OnlyMarks c (placeMark b sync p c) := by
  unfold placeMark
  split <;> exact ⟨_, _, rfl⟩
theorem placeMarks_only (b sync : Nat) (l : List Nat) (c : Chip) : OnlyMarks c (forEach l (placeMark b sync) c) := by
  induction l generalizing c with
  | nil => exact ⟨_, _, rfl⟩
  | cons p l ih =>
    obtain ⟨ls, tf, h⟩ := placeMark_only b sync p c
    obtain ⟨ls', tf', h'⟩ := ih (placeMark b sync p c)
    exact ⟨ls', tf', h'.trans (by rw [h])⟩
theorem placeMark_link (b sync p i : Nat) (c : Chip) : (placeMark b sync p c).link i =
    if i = p ∧ marks c p = true then (c.link p).marked (markAt b sync c p) else c.link i := by
  unfold placeMark
  by_cases hm : marks c p = true
  · rw [if_pos hm, Chip.setLink_link]
    by_cases hi : i = p
    · rw [if_pos hi, if_pos ⟨hi, hm⟩]
    · rw [if_neg hi, if_neg (fun h => hi h.1)]
      rfl
  · rw [if_neg hm, if_neg (fun h => hm h.2)]
/-- A marker on one port changes neither what another sends nor whether markers run there. -/
theorem placeMark_other {p i : Nat} (h : i ≠ p) (b sync : Nat) (c : Chip) :
    markAt b sync (placeMark b sync p c) i = markAt b sync c i ∧ marks (placeMark b sync p c) i = marks c i := by
  have hmarks : marks (placeMark b sync p c) i = marks c i := by
    simp only [marks, placeMark_link, h, false_and, if_false]
  refine ⟨?_, hmarks⟩
  unfold markAt framesAt
  by_cases hb : b % 32 = 0
  · obtain ⟨ls, tf, hk⟩ := placeMark_only b sync p c
    rw [if_pos hb, if_pos hb, hk]
    rfl
  · rw [if_neg hb, if_neg hb]
    unfold placeMark
    split
    · exact congrArg (fun l : List Nat => sync + 16 * l.getD (b % 32) 0) (Tab.get_set_other _ _ _ _ _ h)
    · rfl
theorem placeMarks_link (b sync : Nat) {l : List Nat} (hl : l.Nodup) (i : Nat) (c : Chip) :
    (forEach l (placeMark b sync) c).link i =
      if i ∈ l ∧ marks c i = true then (c.link i).marked (markAt b sync c i) else c.link i := by
  induction l generalizing c with
  | nil => exact (if_neg (by simp)).symm
  | cons p l ih =>
    obtain ⟨hp, hl⟩ := List.nodup_cons.mp hl
    change (forEach l (placeMark b sync) (placeMark b sync p c)).link i = _
    rw [ih hl]
    by_cases hi : i = p
    · subst hi
      rw [if_neg (fun h => hp h.1), placeMark_link]
      simp
    · obtain ⟨hmark, hmarks⟩ := placeMark_other hi b sync c
      rw [hmark, hmarks, placeMark_link, if_neg (show ¬ (i = p ∧ marks c p = true) from fun h => hi h.1)]
      simp [hi]

/-- The beat point while the ticks run: the counter is at the next beat, and every marker is placed. -/
theorem beatPoint_ticks (h : c.cad.stop < 1024) : ∃ r k, OnlyMarks { c with regs := r, cad := k } (beatPoint c) ∧
    k.now = (c.beat + 1) * 1024 ∧ k.st = c.cad.st ∧ k.master = c.cad.master ∧ k.mepoch = c.cad.mepoch ∧
    ∀ p < 6, (beatPoint c).link p = if marks c p = true then
      (c.link p).marked (markAt (c.beat + 1) (if c.cad.st = 1 ∨ c.cad.st = 2 ∨ c.cad.st = 3 then 8 else 0) c p) else c.link p := by
  unfold beatPoint
  rw [if_neg (Nat.not_le.mpr h)]
  extract_lets old b k lost pm near k1 c1 c2 sync
  have h2 : ∃ r, c2 = { c with regs := r, cad := k1 } := by
    unfold c2
    split <;> exact ⟨_, rfl⟩
  obtain ⟨r, h2⟩ := h2
  change ∃ r k, OnlyMarks { c with regs := r, cad := k } (parentCheck (forEach (List.range 6) (placeMark b sync) c2)) ∧ _ ∧ _ ∧ _ ∧ _ ∧
    ∀ p < 6, (parentCheck (forEach (List.range 6) (placeMark b sync) c2)).link p = _
  have hlink := fun p => placeMarks_link b sync (List.nodup_range (n := 6)) p c2
  obtain ⟨ls, tf, hmarks⟩ := placeMarks_only b sync (List.range 6) c2
  obtain ⟨p', h', m', o', hparent, -⟩ := parentCheck_cad (forEach (List.range 6) (placeMark b sync) c2)
  refine ⟨r, { k1 with parent := p', hops := h', missing := m', offset := o' }, ⟨ls, tf, ?_⟩, rfl, rfl, rfl, rfl, fun p hp => ?_⟩
  · rw [hparent, hmarks, h2]
  · have hsame : marks c2 p = marks c p ∧ c2.link p = c.link p ∧ markAt b sync c2 p = markAt b sync c p := by
      rw [h2]
      exact ⟨rfl, rfl, rfl⟩
    obtain ⟨hm, hl, ha⟩ := hsame
    have hp' := hlink p
    rw [hm, hl, ha] at hp'
    rw [Chip.link, (parentCheck_links _).1]
    refine hp'.trans ?_
    simp only [List.mem_range, hp, true_and]
    rfl

/-! ### The commands -/

/-- What follows a beat point: a written level comes into force, and requests that waited are served. -/
theorem serve_keepsPorts (c : Chip) : KeepsPorts c (serveWaiting (planApply c)) :=
  (serveWaiting_keepsPorts _).after (planApply_keepsPorts c)
/-- With no request waiting the rest of the module stays. -/
theorem serve_quiet (h : ∀ i < 12, (c.gmc i).waiting = []) :
    (serveWaiting (planApply c)).cores = c.cores ∧ (serveWaiting (planApply c)).mem = c.mem ∧
    (serveWaiting (planApply c)).links = c.links := by
  have hserve (j : Chip) (hj : j.gmcs = c.gmcs) : serveWaiting j = j := by
    refine if_pos (List.all_eq_true.mpr fun i hi => ?_)
    rw [Chip.gmc, hj]
    exact beq_iff_eq.mpr (h i (List.mem_range.mp hi))
  have hplan : (planApply c).gmcs = c.gmcs ∧ (planApply c).cores = c.cores ∧ (planApply c).mem = c.mem ∧
      (planApply c).links = c.links := by
    unfold planApply
    split <;> exact ⟨rfl, rfl, rfl, rfl⟩
  obtain ⟨hgmcs, hrest⟩ := hplan
  rw [hserve _ hgmcs]
  exact hrest

/-- The port's measurement (R236). -/
def measured (q : MarkRx) (ta : Option Int) : MarkRx :=
  { q with
    ta := ta
    delay := if q.tbad then none else ta.map (fun t => (t + q.tmeas) / 2)
    ofs := if q.tbad then none else ta.map (fun t => (t - q.tmeas) / 2) }

theorem freeAdj_bound (d : Nat) : -50000 ≤ freeAdj d ∧ freeAdj d ≤ 50000 := by
  unfold freeAdj
  omega

/-- A port has a measurement: from the parent it sets the module's offset and steers (R238). -/
def tookMeasure (p : Nat) (q : MarkRx) (c : Chip) : Chip :=
  if c.cad.parent = p then
    { c with draw := c.draw + 1, cad := { c.cad.setPort p q with offset := q.ofs, freqAdj := freeAdj c.draw } }
  else { c with cad := c.cad.setPort p q }

theorem linkMeasure_eq (p n : Nat) (mean : Int) (c : Chip) :
    linkMeasure p n mean c = parentCheck (tookMeasure p (measured (c.cad.port p) (if 16 ≤ n then some mean else none)) c) := by
  unfold linkMeasure tookMeasure measured
  dsimp only
  by_cases hn : 16 ≤ n
  · simp only [hn, if_true]
    cases (c.cad.port p).tbad <;> rfl
  · simp only [hn, if_false]
    cases (c.cad.port p).tbad <;> rfl

/-- What of a measurement shows once the parent has been looked at. -/
structure MeasureNow (c k : Chip) (p : Nat) (q : MarkRx) : Prop where
  port : k.cad.port p = q
  rest : k.cad.now = c.cad.now ∧ k.cores = c.cores ∧ k.mem = c.mem
  other : c.cad.parent ≠ p → k.cad.freqAdj = c.cad.freqAdj
  steer : c.cad.parent = p → -50000 ≤ k.cad.freqAdj ∧ k.cad.freqAdj ≤ 50000
  offset : c.cad.parent = p → k.cad.parent = p → k.cad.offset = q.ofs

theorem measure_now (p : Nat) (q : MarkRx) (c : Chip) : MeasureNow c (parentCheck (tookMeasure p q c)) p q := by
  obtain ⟨p', h', m', o', hk, hofs⟩ := parentCheck_cad (tookMeasure p q c)
  have hset : Tab.get (fun _ => ({} : MarkRx)) (Tab.set (fun _ => {}) c.cad.ports p q) p = q := Tab.get_set_same _ _ _ _
  rw [hk]
  unfold tookMeasure at *
  by_cases hp : c.cad.parent = p
  · rw [if_pos hp] at hofs ⊢
    refine ⟨hset, ⟨rfl, rfl, rfl⟩, fun h => absurd hp h, fun _ => freeAdj_bound _, fun _ hpar => ?_⟩
    rcases hofs with ⟨-, ho⟩ | ho
    · exact ho
    · change p' = p at hpar
      rw [hpar] at ho
      exact ho.trans (congrArg MarkRx.ofs hset)
  · rw [if_neg hp] at hofs ⊢
    exact ⟨hset, ⟨rfl, rfl, rfl⟩, fun _ => rfl, fun h => absurd h hp, fun h => absurd h hp⟩

/-- A parent that a measurement finds admissible stays, and so does one that no rule leaves. -/
theorem measure_parent {p : Nat} (hp : c.cad.parent = p) (ta : Int) (hbad : (c.cad.port p).tbad = false)
    (h : (c.cad.st ≠ 2 ∧ c.cad.st ≠ 3) ∨ c.admissible p = true) :
    (parentCheck (tookMeasure p (measured (c.cad.port p) (some ta)) c)).cad.parent = p := by
  have hset : (tookMeasure p (measured (c.cad.port p) (some ta)) c).cad.port p = measured (c.cad.port p) (some ta) := by
    unfold tookMeasure
    split <;> exact Tab.get_set_same _ _ _ _
  have hrest : (tookMeasure p (measured (c.cad.port p) (some ta)) c).cad.st = c.cad.st ∧
      (tookMeasure p (measured (c.cad.port p) (some ta)) c).cad.parent = p ∧
      (tookMeasure p (measured (c.cad.port p) (some ta)) c).links = c.links ∧
      (tookMeasure p (measured (c.cad.port p) (some ta)) c).cad.now = c.cad.now ∧
      (tookMeasure p (measured (c.cad.port p) (some ta)) c).cad.master = c.cad.master ∧
      (tookMeasure p (measured (c.cad.port p) (some ta)) c).cad.mepoch = c.cad.mepoch ∧
      (tookMeasure p (measured (c.cad.port p) (some ta)) c).cad.bound = c.cad.bound := by
    unfold tookMeasure
    rw [if_pos hp]
    exact ⟨rfl, hp, rfl, rfl, rfl, rfl, rfl⟩
  generalize tookMeasure p (measured (c.cad.port p) (some ta)) c = j at *
  obtain ⟨hst, hpar, hlinks, hnow, hmaster, hepoch, hbound⟩ := hrest
  rw [parentCheck_keeps, hpar]
  rw [hst, hpar]
  refine h.imp id fun hadm => ?_
  simp only [Chip.admissible, Bool.and_eq_true] at hadm ⊢
  obtain ⟨⟨⟨⟨⟨hl, hf⟩, hann⟩, hsync⟩, -⟩, -⟩ := hadm
  simp only [hset, hst, hmaster, hepoch, hbound, Chip.link, Chip.beat, hlinks, hnow, measured]
  exact ⟨⟨⟨⟨⟨hl, hf⟩, hann⟩, hsync⟩, rfl⟩, by rw [hbad]; rfl⟩

/-- A frame that the module takes has its effect (R353, R355, R358). -/
theorem onFrame_takes {t : Nat} {f : Frame} (go : Chip → Chip) (h : c.takes t f) : onFrame t f go c = go (c.took t) := by
  obtain ⟨htype, ⟨htakes, hphase⟩, haccepts, hbroken, hauth⟩ := h
  unfold onFrame
  rw [if_neg (by simp [htype, htakes]), if_neg hphase]
  dsimp only
  rw [if_neg (by simp [haccepts]), hbroken]
  by_cases hprot : isProtected t = true
  · rw [if_pos hprot] at hauth ⊢
    obtain ⟨hok, horder⟩ := hauth
    rw [if_neg (by simp [hok, horder]), if_neg (by simp)]
    by_cases h5 : t = 5
    · rw [if_pos h5, Chip.took, Mbp.took, if_neg (fun h => h.2 h5)]
      rfl
    · rw [if_neg h5, Chip.took, Mbp.took, if_pos ⟨hprot, h5⟩]
      rfl
  · rw [if_neg hprot] at hauth ⊢
    rw [if_neg (by simp [hauth]), Chip.took, Mbp.took, if_neg (fun h => hprot h.1)]
    rfl

/-- Settles O36: beats by `beatPoint_ticks`, measurements by `measure_now`, TIME by its effect. -/
theorem cadenceTime : Obligations.CadenceTime := by
  unfold Obligations.CadenceTime
  refine ⟨?beat, ?mark, ?stopped, ?good, ?bad, ?few, ?parent, ?time, ?timeOff⟩
  case beat =>
    intro s hc hstop
    refine does_live rfl hc ?_
    obtain ⟨r, k, ⟨ls, tf, hmarks⟩, hnow, hst, hmaster, hepoch, hlink⟩ := beatPoint_ticks hstop
    have hkeep := serve_keepsPorts (beatPoint s.chip)
    have hquiet := serve_quiet (c := beatPoint s.chip)
    have hcad : (beatPoint s.chip).cad = { k with txFrames := tf } := by rw [hmarks]
    have hrest : (beatPoint s.chip).gmcs = s.chip.gmcs ∧ (beatPoint s.chip).cores = s.chip.cores ∧ (beatPoint s.chip).mem = s.chip.mem := by
      rw [hmarks]
      exact ⟨rfl, rfl, rfl⟩
    obtain ⟨hgmcs, hcores, hmem⟩ := hrest
    generalize beatPoint s.chip = j at *
    rw [Chip.beat, hkeep.cad, hcad]
    refine ⟨?_, ?_, hst, hmaster, hepoch, fun hwait => ?_⟩
    · change k.now / 1024 = _
      omega
    · change k.now = _
      omega
    · obtain ⟨hc', hm', hl'⟩ := hquiet (fun i hi => by rw [Chip.gmc, hgmcs]; exact hwait i hi)
      refine ⟨hc'.trans hcores, hm'.trans hmem, fun p hp hmk => ?_⟩
      rw [Chip.link, hl']
      exact (hlink p hp).trans (if_neg (by simp [hmk]))
  case mark =>
    intro s p hc hstop hmk
    refine does_live rfl hc ?_
    obtain ⟨r, k, -, -, -, -, -, hlink⟩ := beatPoint_ticks hstop
    have hstanding := (serve_keepsPorts (beatPoint s.chip)).link p
    simp only [Link.standing, Prod.mk.injEq] at hstanding
    obtain ⟨-, -, -, -, -, -, hsame⟩ := hstanding
    rw [hsame, hlink p p.isLt, if_pos hmk]
    rfl
  case stopped =>
    intro s hc hstop
    refine does_live rfl hc ?_
    have hkeep := serve_keepsPorts (beatPoint s.chip)
    have hcad : (beatPoint s.chip).cad = { s.chip.cad with stop := s.chip.cad.stop - 1024 } := by
      unfold beatPoint
      rw [if_pos hstop]
      rfl
    rw [Chip.beat, hkeep.cad, hcad]
    exact ⟨rfl, rfl, rfl, rfl⟩
  case good =>
    intro s p k m hc hk hbad
    refine does_live rfl hc ?_
    rw [linkMeasure_eq, if_pos hk]
    obtain ⟨hport, ⟨hnow, hcores, hmem⟩, hother, -, -⟩ := measure_now p (measured (s.chip.cad.port p) (some m)) s.chip
    refine ⟨hport.trans ?_, hnow, hcores, hmem, hother⟩
    simp [measured, hbad]
  case bad =>
    intro s p k m hc hk hbad
    refine does_live rfl hc ?_
    rw [linkMeasure_eq, if_pos hk]
    obtain ⟨hport, ⟨hnow, -, -⟩, -, -, hofs⟩ := measure_now p (measured (s.chip.cad.port p) (some m)) s.chip
    refine ⟨hport.trans ?_, hnow, fun hp hp' => (hofs hp hp').trans ?_⟩ <;> simp [measured, hbad]
  case few =>
    intro s p k m hc hk
    refine does_live rfl hc ?_
    rw [linkMeasure_eq, if_neg (by omega)]
    obtain ⟨hport, ⟨hnow, -, -⟩, -, -, hofs⟩ := measure_now p (measured (s.chip.cad.port p) none) s.chip
    refine ⟨hport.trans ?_, hnow, fun hp hp' => (hofs hp hp').trans ?_⟩ <;> simp [measured]
  case parent =>
    intro s p k m hc hk hbad hpar
    refine does_live rfl hc ?_
    rw [linkMeasure_eq, if_pos hk]
    obtain ⟨-, ⟨hnow, -, -⟩, -, hsteer, hofs⟩ := measure_now p (measured (s.chip.cad.port p) (some m)) s.chip
    obtain ⟨hlo, hhi⟩ := hsteer hpar
    exact ⟨fun hp => (hofs hpar hp).trans (by simp [measured, hbad]), measure_parent hpar m hbad, hlo, hhi, hnow⟩
  case time =>
    intro s f htakes hbody hst hdisc
    refine does_act rfl ?_
    rw [timeFrame, onFrame_takes _ htakes, if_neg (Nat.not_le.mpr hbody),
      show timeOffset (i32 (leNat f.body)) (s.chip.took 0x30) = _ from if_pos ⟨hst, hdisc⟩]
    obtain ⟨hlo, hhi⟩ := freeAdj_bound s.chip.draw
    exact ⟨rfl, rfl, hlo, hhi, rfl, rfl⟩
  case timeOff =>
    intro s f htakes hbody hoff
    refine does_act rfl ?_
    rw [timeFrame, onFrame_takes _ htakes, if_neg (Nat.not_le.mpr hbody)]
    refine if_neg ?_
    rintro ⟨hst, hdisc⟩
    exact hoff.elim (fun h => h hst) (fun h => by rw [show bit 0 ((s.chip.took 0x30).rg (cadReg 0x12C)) = false from h] at hdisc; contradiction)

end Sys2Proof.Machine
end

section
/-! A retrained control link with an empty replay buffer and a flit still marked to be sent again (R199, R352). -/

namespace Sys2Proof.Machine

/-- What a command is said to do holds of its operation. -/
theorem of_does_awake {i : Instr} {s : State} {f : Chip → Chip} {P : Chip → Prop}
    (h : exec i s = act (awake f) s) (hc : s.chip.phase ≠ .off) (hd : Does i s P) : P (f s.chip) := by
  obtain ⟨t, hexec, -, hp⟩ := hd
  rw [h] at hexec
  obtain rfl := Host.Outcome.next.inj hexec
  rwa [awake_on _ hc] at hp

/-- The Mboip link in RETRAIN with its lock held: no flit is unacknowledged, and one stands to be sent again. -/
def staleResend : Chip := ({ phase := .running } : Chip).setLink 6 { st := 6, locked := 3, resend := [{}] }

/-- Nothing is replayed out of the empty buffer, and the flit still stands to be sent again. -/
theorem resend_staleResend : ((mboipTryEnd 3 staleResend).link 6).resend.length = 1 := by decide +kernel

/-- Refutes O54: its clause on a retraining that succeeds says that the flits to be sent again are the replay buffer, and
has no premise that ties the one list to the other. With that buffer empty nothing is replayed, and in `staleResend`, a
state that acknowledgements do not lead to, the list to be sent again stays as it was, which is not empty. -/
theorem not_sessions : ¬ Obligations.Sessions := by
  unfold Obligations.Sessions
  rintro ⟨-, -, -, -, -, -, -, -, -, -, -, -, -, -, -, -, -, -, h, -⟩
  have hdoes := h { pending := [], chip := staleResend } (by decide +kernel) (by decide +kernel) (by decide +kernel)
  obtain ⟨-, -, -, hresend, -⟩ := of_does_awake rfl (show staleResend.phase ≠ .off by decide +kernel) hdoes
  have hreplay : (staleResend.link 6).replay = [] := by decide +kernel
  have hlen := resend_staleResend
  rw [show (3#2).toNat = 3 from rfl, hreplay] at hresend
  simp [hresend] at hlen

end Sys2Proof.Machine
end
